-- ==== Sys2Proof/Word.lean ====
section
/-! DEFINITION. The word types of the model: an octet, and the widths the spec gives registers (spec/18_dictionary.md R448). -/

namespace Sys2Proof

/-- One octet (R448: every value is stored least significant octet first). -/
abbrev Byte := BitVec 8

/-- One 32-bit element of an engine memory (spec/10_engines.md R246). -/
abbrev Elem := BitVec 32

/-- A DOMAIN value: an octet block (R448). -/
abbrev Bytes := List Byte

end Sys2Proof
end

