-- ==== Sys2Proof/Syntax.lean ====
section
/-! DEFINITION. The commands: one constructor per row of spec/opcode_table.json. The first operand of every command is the axis time `t` (in u_T, log entry 1) at which it happens; the others are what the event brings from outside. -/

namespace Sys2Proof

/-- The commands of the device (spec/opcode_table.json). -/
inductive Instr where
  /-- STEWARD_RESTART_COMPLETE (R28): The steward restart ends within 5 ms, dictionary service resumes and MSI-X vector 2 is raised. -/
  | stewardRestartComplete (t : Nat)
  /-- STEWARD_CHECKPOINT (R504): The steward takes its periodic checkpoint at least every 10 ms, in addition to the one taken after each transaction. -/
  | stewardCheckpoint (t : Nat) (err : Fin 3)
  /-- THERMAL_SHUTDOWN (R31): The sentinel sensors reach 115 °C; every rail except VAON is removed, the event is logged and admitted contracts end. -/
  | thermalShutdown (t : Nat)
  /-- ADMIT (R575): A write of Admit runs admission for the slot as its state permits: it places the pipeline and states its contract, or it refuses with the first failing term. -/
  | admitSlot (t : Nat) (n : Fin 64) (drive : List (Nat × Nat × Bool))
  /-- WITHDRAW (R575): A write of Withdraw starts a withdrawal at boundary T_w, cancels a Successor, or aborts, depending on the slot state. -/
  | withdraw (t : Nat) (n : Fin 64)
  /-- WITHDRAWAL_COMPLETE (R575): A Withdrawing slot has finished the outputs of its pre-boundary frames and becomes Described, freeing its resources. -/
  | withdrawalComplete (t : Nat) (n : Fin 64)
  /-- CHECK (R60): Admission runs for a slot without placing anything, and only the Last objects are written. -/
  | check (t : Nat) (n : Nat) (drive : List (Nat × Nat × Bool))
  /-- COMMIT (R70): A commit time T_c is written; the staged change is checked and armed, or the commit ends Late, Refused or with Nothing staged. -/
  | commit (t : Nat) (n : Fin 64) (tc : Nat)
  /-- CANCEL (R75): An armed commit is cancelled, or a Successor is withdrawn while the slot it replaces continues. -/
  | cancel (t : Nat) (n : Fin 64)
  /-- GROUP_COMMIT (R71): Commits for several slots, or for several devices when written on a lead, are armed at one T_c, all or none. -/
  | groupCommit (t : Nat) (tc slots : Nat) (others : List (Nat × Nat))
  /-- SLUICE_GATE_ARM (R72): At T_c − 50 µs the gate writes the staged set into the second parameter bank of every unit and raises each engine's event flag. -/
  | sluiceGateArm (t : Nat) (n : Fin 64)
  /-- COMMIT_APPLIED (R72): After the outputs of the last pre-boundary frame, Epoch is incremented, Boundary is set and CommitResult reads 0x00. -/
  | commitApplied (t : Nat) (n : Fin 64)
  /-- SUCCESSOR_SWITCH (R74): At T_c outputs pass from the replaced slot to its Successor, and the replaced slot enters Retiring. -/
  | successorSwitch (t : Nat) (n : Fin 64)
  /-- RETIRING_COMPLETE (R74): The replaced slot finishes its earlier-frame outputs and becomes Empty; its rings, lines and maps pass to the Successor, or, in a gap replacement, the Successor enters InGap. -/
  | retiringComplete (t : Nat) (n : Fin 64)
  /-- GAP_FRAME_RESUME (R76): The Successor of a gap replacement processes its first frame with tag ≥ T_c + GapBound and enters Admitted. -/
  | gapFrameResume (t : Nat) (n : Fin 64)
  /-- ARRAY_COMMIT_DISARM (R77): A device that has received neither Confirm nor Cancel by T_c − 200 µs disarms its commit. -/
  | arrayCommitDisarm (t : Nat)
  /-- ARRAY_COMMIT_REPORT_TIMEOUT (R407): A Report is still missing 1 ms after T_c, which counts as a disagreeing epoch. -/
  | arrayCommitReportTimeout (t : Nat)
  /-- LINK_APPLY (R81): Apply checks the link parameters and starts bring-up, or releases the link's lanes when LaneCount is 0. -/
  | linkApply (t : Nat) (j : Fin 16)
  /-- LINK_CLEAR_COUNTERS (R81): ClearCounters clears the link's CRC, lock-loss and substitution counters and restarts ArrivalMargin. -/
  | linkClearCounters (t : Nat) (j : Fin 16)
  /-- LINK_BLOCK_LOCK (R83): Every lane of the link has gained block lock, and the link moves to MultiblockLock. -/
  | linkBlockLock (t : Nat) (j : Fin 16)
  /-- LINK_MULTIBLOCK_LOCK (R83): Every lane has gained extended-multiblock lock, and the lane arrivals are measured. -/
  | linkMultiblockLock (t : Nat) (j : Fin 16) (earliest latest : Nat)
  /-- LINK_RELEASE (R84): At the release point every lane is released in the same f_T cycle, and the link enters Running. -/
  | linkRelease (t : Nat) (j : Fin 16)
  /-- LINK_BRINGUP_TIMEOUT (R83): Running is not reached within 2 ms plus four SYSREF periods, and the link enters Failed. -/
  | linkBringupTimeout (t : Nat) (j : Fin 16)
  /-- MULTIBLOCK_RECEIVE (R100): A multiblock is received and its CRC-12 is checked; a mismatch is counted, flagged and, with CrcAction 0x01, its samples are substituted. -/
  | multiblockReceive (t : Nat) (j : Fin 16) (crcOk : Bool) (latest : Nat)
  /-- LINK_LOCK_LOSS (R100): Lock or alignment is lost; the link enters Substituting and starts a relink, or enters Failed when AutoRelink is clear. -/
  | linkLockLoss (t : Nat) (j : Fin 16)
  /-- LINK_RELINK_COMPLETE (R100): The relink reaches a release point with the kept ReleaseDelay, and real samples resume at a block boundary. -/
  | linkRelinkComplete (t : Nat) (j : Fin 16) (earliest latest : Nat)
  /-- INGEST_SAMPLE (R89): A converter sample is presented as r16 or c16, stamped, fed to the level chain and tested for clip and over-range. -/
  | ingestSample (t : Nat) (ch : Fin 64) (em index wordI wordQ : Nat)
  /-- LEVEL_INTERVAL_END (R91): A level-chain interval or block ends and MeanSquare, Power, Peak, Envelope and Flags are published. -/
  | levelIntervalEnd (t : Nat) (ch : Fin 64)
  /-- DUMP_RESTART (R92): The interval in progress is abandoned, and the level chain's grid restarts at the first sample with stamp ≥ T. -/
  | dumpRestart (t : Nat) (ch : Fin 64) (time : Nat)
  /-- LEVEL_SNAPSHOT (R95): The last published level outputs of all 64 channels are latched in one f_T cycle. -/
  | levelSnapshot (t : Nat)
  /-- CLEAR_STICKY (R94): The sticky level flags of the channels selected by the written mask are cleared. -/
  | clearSticky (t : Nat) (mask : Nat)
  /-- POLDER_BLOCK_WRITE (R99): A 64-byte block is written to its channel ring in its time slot, and every consumer's fill is compared with its bound. -/
  | polderBlockWrite (t : Nat) (ch : Fin 64) (err : Fin 3)
  /-- SPECTRUM_FRAME (R112): A Spectrum frame is windowed and transformed and its bins are converted to logp16 or c32. -/
  | spectrumFrame (t : Nat) (n : Fin 64) (ch : Fin 64)
  /-- USER_WINDOW_LOAD (R111): A user window is checked and loaded, and its gain figures are computed. -/
  | userWindowLoad (t : Nat) (u : Fin 4)
  /-- CONDITION_FLIT_RECEIVE (R293): A condition flit reaches the fabric, and its valid changes are applied with the stamps of their sample offsets. -/
  | conditionFlitReceive (t : Nat) (n : Fin 64) (ch : Fin 64) (tag : Nat) (words : List Nat) (disagree : Nat)
  /-- PATTERN_UNIT_EVALUATE (R142): A pattern unit evaluates condition time t at device time t + H_u and opens, continues or closes a match interval. -/
  | patternUnitEvaluate (t : Nat) (u : Fin 16)
  /-- TRIG_OUT_EDGE (R147): The active edge of a TRIG_OUT pulse is driven at t_trig + Delay, or in earliest mode as soon as the trigger is known. -/
  | trigOutEdge (t : Nat) (k : Fin 8)
  /-- TRIG_OUT_PULSE_END (R147): A TRIG_OUT pulse ends after its Width, or later if merged with an overlapping pulse. -/
  | trigOutPulseEnd (t : Nat) (k : Fin 8)
  /-- CLEAR_LINE_FAULT (R132): The Fault flags of the lines set in the written bit map are cleared. -/
  | clearLineFault (t : Nat) (data : List (BitVec 8))
  /-- CLEAR_LOG (R132): The trigger log is emptied. -/
  | clearLog (t : Nat)
  /-- IMPORTS_WRITE (R141): The import map is written, after checks against other line sources and the horizons of enabled pattern units. -/
  | importsWrite (t : Nat) (data : List (BitVec 8))
  /-- TRIG_OUT_CONFIG_WRITE (R147): A TRIG_OUT configuration is written, checked against the fixed-mode minimum delay. -/
  | trigOutConfigWrite (t : Nat) (k : Fin 8) (value : Nat)
  /-- PATTERN_UNIT_WRITE (R144): A pattern unit is written: the change is staged in its Owner slot or applied at once, after horizon and lane checks. -/
  | patternUnitWrite (t : Nat) (u : Fin 16) (sub value : Nat) (data : Option (List (BitVec 8)))
  /-- LEVEL_CONDITION_WRITE (R140): A level-condition object is written, checked against R147, R151 and R152, and applied at the next interval boundary. -/
  | levelConditionWrite (t : Nat) (ch : Fin 64) (sub value : Nat)
  /-- PRIMITIVE_TICK (R150): A stream tick closes, and its data primitive is sent at the fixed delay D after the tick start. -/
  | primitiveTick (t : Nat) (lane : Fin 2)
  /-- PRIMITIVE_STREAM_ENABLE (R153): The lanes of the primitive stream are enabled or disabled at a tick boundary, after the MinD check. -/
  | primitiveStreamEnable (t : Nat) (mask : Nat)
  /-- MAP_UPDATE (R159): A frame or a measurement block increments the cells of a density map. -/
  | mapUpdate (t : Nat) (map : Fin 4)
  /-- SWEEP_TICK (R161): At a sweep tick the due snapshot copy, decay step and clear are applied to every cell of the map. -/
  | sweepTick (t : Nat) (map : Fin 4)
  /-- SNAPSHOT_COPY_COMPLETE (R164): A snapshot copy ends, SnapshotSeq becomes even and SnapshotState reads 0x03. -/
  | snapshotCopyComplete (t : Nat) (map : Fin 4)
  /-- RENDER_COMPLETE (R165): A render ends and RenderSeq takes the SnapshotSeq of the rendered snapshot. -/
  | renderComplete (t : Nat) (map : Fin 4)
  /-- MAP_SNAPSHOT (R163): A snapshot is requested for the first sweep tick at or after the written time. -/
  | mapSnapshot (t : Nat) (map : Fin 4) (time : Nat)
  /-- MAP_CLEAR (R163): A clear is requested for the first sweep tick at or after the written time. -/
  | mapClear (t : Nat) (map : Fin 4) (time : Nat)
  /-- SIEVE_LOAD (R179): A user prototype is checked and loaded. -/
  | sieveLoad (t : Nat) (u : Fin 4)
  /-- CHANNELIZE_FRAME (R180): A bank frame yields one output sample for every Sieve channel. -/
  | channelizeFrame (t : Nat) (n : Fin 64) (ch : Fin 64)
  /-- PULSE_SELECT_FRAME (R200): The select stage evaluates the trigger rule over a frame, changes lines and sends trigger lists. -/
  | pulseSelectFrame (t : Nat) (n : Fin 64) (input : Fin 256)
  /-- PULSE_MEASURE_FRAME (R209): The measure stage forms the records and measurement blocks of the recorded triggers in a frame. -/
  | pulseMeasureFrame (t : Nat) (n : Fin 64) (input : Fin 256)
  /-- PULSE_CLEAR_COUNTERS (R213): The Pulse counters of the written slot are cleared. -/
  | pulseClearCounters (t : Nat) (n : Nat)
  /-- RECORD_COMPLETE (R226): A completed record is offered to consumers under their hold limits and written to the ring or dropped. -/
  | recordComplete (t : Nat) (n : Fin 64)
  /-- HOST_READ_WRITE (R225): The host consumer advances its read position, which may advance OldestPos. -/
  | hostReadWrite (t : Nat) (n : Fin 64) (value : Nat)
  /-- CONSUMER_STALL_TIMEOUT (R228): A consumer makes no progress for StallTimeout and is detached. -/
  | consumerStallTimeout (t : Nat) (n : Fin 64) (who : Nat)
  /-- CONSUMER_REATTACH (R228): A detached consumer's destination takes data again, and the consumer reattaches from the next committed record. -/
  | consumerReattach (t : Nat) (n : Fin 64) (who : Nat)
  /-- REARM (R235): A bounded capture restarts at the first chunk tagged at least 100 µs after the write. -/
  | rearm (t : Nat) (n : Fin 64)
  /-- RELEASE_RING (R223): A kept ring is freed. -/
  | releaseRing (t : Nat) (n : Fin 64)
  /-- REPLAY_FEED (R238): The replay reader feeds source samples into the Polder share, substituting the samples it cannot take. -/
  | replayFeed (t : Nat) (n : Fin 64) (source : List (BitVec 8))
  /-- REPLAY_END (R238): At EndTime or the end of its source, a Replay emits its last outputs and a marker, then passes through Withdrawing to Described. -/
  | replayEnd (t : Nat) (n : Fin 64)
  /-- BRANCH (R277): The sequencer chooses the next microword address from Next, Cond or fall-through. -/
  | branch (t : Nat) (e : Fin 1088) (err : Fin 3)
  /-- LOOP_ENTER (R279): ENTER increments LDEPTH to start a loop. -/
  | loopEnter (t : Nat) (e : Fin 1088)
  /-- LOOP_END (R279): END decrements the innermost loop counter and repeats the loop, or leaves it. -/
  | loopEnd (t : Nat) (e : Fin 1088) (err : Fin 3)
  /-- LOOP_BREAK (R279): BREAK clears the innermost loop counter and decrements LDEPTH. -/
  | loopBreak (t : Nat) (e : Fin 1088)
  /-- SAFE_POINT (R285): At a safe point the sequencer samples EV and enters the service routine when it is set. -/
  | safePoint (t : Nat) (e : Fin 1088)
  /-- RETURN (R285): A microword with Cond RETURN ends the service routine and continues at the return address. -/
  | ret (t : Nat) (e : Fin 1088) (err : Fin 3)
  /-- YIELD (R288): A Yield microword ends the work on the current frame; the frame state of the next frame is written. -/
  | yield (t : Nat) (e : Fin 1088)
  /-- OPERAND_READ (R246): A 64-bit operand is read from X or Y with SECDED correction, and its pointer is updated. -/
  | operandRead (t : Nat) (e : Fin 1088) (err : Fin 3)
  /-- REGISTER_LOAD (R284): A register is loaded from a memory element. -/
  | registerLoad (t : Nat) (e : Fin 1088) (err : Fin 3)
  /-- SET (R260): The accumulator is set to the product terms of the selected form. -/
  | setAcc (t : Nat) (e : Fin 1088)
  /-- ADD (R260): The product terms of the form are added to the accumulator, with overflow handling. -/
  | add (t : Nat) (e : Fin 1088)
  /-- SUB (R260): The product terms of the form are subtracted from the accumulator, with overflow handling. -/
  | sub (t : Nat) (e : Fin 1088)
  /-- CLR (R263): The accumulator and its term count are cleared. -/
  | clr (t : Nat) (e : Fin 1088)
  /-- LDX (R263): The accumulator is loaded with a shifted operand, and its term count is set to 1. -/
  | ldx (t : Nat) (e : Fin 1088)
  /-- RESTORE (R266): One accumulator component is restored from a raw48 word. -/
  | restore (t : Nat) (e : Fin 1088)
  /-- SRCH (R267): Two search steps update the best value and its index. -/
  | srch (t : Nat) (e : Fin 1088)
  /-- SINIT (R267): A search unit is initialised for a maximum or a minimum search. -/
  | sinit (t : Nat) (e : Fin 1088)
  /-- NORM (R268): The normalisation shift of an accumulator is written to its index register. -/
  | norm (t : Nat) (e : Fin 1088)
  /-- STORE (R264): An accumulator is stored shifted, rounded and saturated or wrapped. -/
  | store (t : Nat) (e : Fin 1088)
  /-- PAIR_STORE (R264): acc0 and acc1 are stored together into one word. -/
  | pairStore (t : Nat) (e : Fin 1088)
  /-- RAW_SAVE (R266): One accumulator component is saved as raw48. -/
  | rawSave (t : Nat) (e : Fin 1088)
  /-- REGISTER_STORE (R284): A register is stored into memory. -/
  | registerStore (t : Nat) (e : Fin 1088)
  /-- REGISTER_TRANSFER_IMMEDIATE (R281): An immediate value is written to a register. -/
  | registerTransferImmediate (t : Nat) (e : Fin 1088)
  /-- REGISTER_TRANSFER (R281): One register is copied to another. -/
  | registerTransfer (t : Nat) (e : Fin 1088)
  /-- SEND (R270): A send request for a flow is queued and the pointer is advanced. -/
  | send (t : Nat) (e : Fin 1088)
  /-- RXFREE (R269): Receive units are returned to the receive unit. -/
  | rxfree (t : Nat) (e : Fin 1088)
  /-- EVACK (R287): The pending event is acknowledged and EV is cleared. -/
  | evack (t : Nat) (e : Fin 1088)
  /-- RECEIVE_FLIT (R269): An inbound flit is written into the receive area; a completed unit increments rxn. -/
  | receiveFlit (t : Nat) (e : Fin 1088) (words : List Nat) (frame : Option (Nat × Nat × Nat × Nat × Nat)) (err : Fin 5)
  /-- SEND_FLIT (R270): The send unit reads a flit in its flow's slot and sends it; a record SEND of the wrong length is discarded. -/
  | sendFlit (t : Nat) (e : Fin 1088) (err : Fin 3)
  /-- WATCHDOG_TRIP (R66): An engine passes 4,160 cycles without a safe point, halts and causes a cluster fault. -/
  | watchdogTrip (t : Nat) (e : Fin 1088)
  /-- EVENT_CANCEL (R287): A CANCEL event is delivered to an engine. -/
  | eventCancel (t : Nat) (e : Fin 1088) (tc : Nat)
  /-- EVENT_STOP (R287): A STOP event is delivered; the engine leaves Running at its next yield. -/
  | eventStop (t : Nat) (e : Fin 1088)
  /-- EVENT_SAVESTATE (R287): A SAVESTATE event is delivered for a planned migration, and the state area is copied at the yield. -/
  | eventSavestate (t : Nat) (e : Fin 1088)
  /-- ENGINE_START (R300): A Loaded engine starts Running at Entry when the first frame of its stage is due. -/
  | engineStart (t : Nat) (e : Fin 1088)
  /-- DEBUG_READ (R248): A debug read of an engine aperture is made as best-effort traffic. -/
  | debugRead (t : Nat) (e : Fin 1088) (offset : Nat)
  /-- DEBUG_WRITE (R248): A debug write to an engine aperture is made, or discarded with an access error if the engine is held. -/
  | debugWrite (t : Nat) (e : Fin 1088) (offset value : Nat)
  /-- MICROIMAGE_LOAD (R299): A microimage's format is checked and it is marked Loaded. -/
  | microimageLoad (t : Nat) (image : Fin 64)
  /-- NANOIMAGE_LOAD (R299): A nanoimage's format is checked and it is marked Loaded. -/
  | nanoimageLoad (t : Nat) (image : Fin 64)
  /-- IMAGE_VERIFY (R301): Image checks 1–6 are run on a microimage and nanoimage pair. -/
  | imageVerify (t : Nat) (image : Fin 64) (nano : Nat)
  /-- POOL_SCRUB_ACCESS (R304): The Scrub port reads a pool word and corrects it, zeroes it or logs it. -/
  | poolScrubAccess (t : Nat) (cluster : Fin 64) (word : Fin 20480) (err : Fin 3)
  /-- HBM_ADMITTED_BURST (R314): An admitted burst is issued in its slot, closed-page. -/
  | hbmAdmittedBurst (t : Nat) (da : Nat) (err : Fin 4) (syndrome : Nat)
  /-- HBM_BEST_EFFORT_ACCESS (R318): A best-effort access is issued from its bank queue under the page and ordering rules. -/
  | hbmBestEffortAccess (t : Nat) (bank : Fin 3072) (err : Fin 4) (syndrome : Nat)
  /-- HBM_FREEZE_HOLD_EXPIRY (R324): FreezeHold expires, and the frozen pseudo-channel starts its test. -/
  | hbmFreezeHoldExpiry (t : Nat) (q : Fin 64)
  /-- HBM_RELEASE (R332): Release ends the freeze and starts the test. -/
  | hbmRelease (t : Nat) (q : Fin 64)
  /-- HBM_TEST_COMPLETE (R325): The test ends; the pseudo-channel returns to service or is retired. -/
  | hbmTestComplete (t : Nat) (q : Fin 64) (pass : Bool) (bad : List Nat)
  /-- HBM_RETIRE (R326): A planned make-before-break retirement to the stack's spare starts. -/
  | hbmRetire (t : Nat) (q : Fin 64)
  /-- HBM_RETIRE_SWITCH (R326): The retirement copy ends, and the remap switches at a schedule-period boundary. -/
  | hbmRetireSwitch (t : Nat) (q : Fin 64)
  /-- HBM_REFRESH (R316): A pseudo-channel is refreshed at the normal or the hot rate. -/
  | hbmRefresh (t : Nat) (q : Fin 64)
  /-- HBM_TEMP_CROSS (R316): A base-die temperature crosses 85 °C or 82 °C and the refresh rate changes. -/
  | hbmTempCross (t : Nat) (stack : Fin 2) (temp : Int)
  /-- HBM_PATROL_SCRUB (R322): Patrol scrub reads an allocated word and writes back a corrected value. -/
  | hbmPatrolScrub (t : Nat) (da : Nat) (err : Fin 3) (syndrome : Nat)
  /-- HBM_ROW_IDLE_CLOSE (R319): A row kept open has had no access for 2 µs and is closed. -/
  | hbmRowIdleClose (t : Nat) (bank : Fin 3072)
  /-- HBM_POWER_STATE_ENTRY (R329): An idle pseudo-channel enters PowerDown or SelfRefresh. -/
  | hbmPowerStateEntry (t : Nat) (q : Fin 64) (power : Fin 3)
  /-- HBM_WAKE (R329): A sleeping pseudo-channel is woken for a request or for a declared tolerance. -/
  | hbmWake (t : Nat) (q : Fin 64)
  /-- INTERLEAVE_MASKS_WRITE (R312): The interleave masks are written after the one-to-one checks. -/
  | interleaveMasksWrite (t : Nat) (data : List (BitVec 8))
  /-- HOST_RESERVE_WRITE (R331): The HostReserve regions are written after the overlap and capacity checks. -/
  | hostReserveWrite (t : Nat) (data : List (BitVec 8))
  /-- WINDOW_B_READ (R357): A host read through window B is served as best-effort traffic. -/
  | windowBRead (t : Nat) (tag offset len : Nat)
  /-- WINDOW_B_WRITE (R357): A host write through window B is accepted inside HostReserve, or discarded and counted. -/
  | windowBWrite (t : Nat) (offset : Nat) (data : List (BitVec 8))
  /-- TRANSFER_START (R338): A host transfer channel is claimed and its transfer starts. -/
  | transferStart (t : Nat) (ch : Fin 32)
  /-- TRANSFER_PAUSE_WRITE (R342): Pause is set, moving the channel to Pausing, or cleared, resuming it. -/
  | transferPauseWrite (t : Nat) (ch : Fin 32) (pause : Bool)
  /-- TRANSFER_ABORT (R343): A host channel discards its staged data and enters Aborted. -/
  | transferAbort (t : Nat) (ch : Fin 32)
  /-- TRANSFER_BEAT_SLOT (R340): A port grants its beat slot to an admitted owner or by priority and age, and the winning channel moves a beat. -/
  | transferBeatSlot (t : Nat) (port : Fin 2) (owner : Option (Fin 32)) (err credits : Bool)
  /-- REQUEST_RAISE (R347): A unit raises a request for one burst on its request line. -/
  | requestRaise (t : Nat) (line : Fin 48) (beats : Fin 65)
  /-- REQUEST_WITHDRAW (R347): A request is withdrawn; the burst is cancelled, or completes if it has started. -/
  | requestWithdraw (t : Nat) (line : Fin 48)
  /-- HOST_READ_COMPLETION (R349): A completion for a host-memory read arrives; an error status ends the channel in Error. -/
  | hostReadCompletion (t : Nat) (ch : Fin 32) (addr : Nat) (ok : Bool) (data : List (BitVec 8))
  /-- TRANSFER_READ_TIMEOUT (R357): A host-memory read gets no completion within 50 ms and counts as a Completer Abort. -/
  | transferReadTimeout (t : Nat) (ch : Fin 32)
  /-- HOST_RESET (R353): PERST_N, a hot reset, a Function Level Reset or a link-down resets the endpoint state and suspends every stream ring. -/
  | hostReset (t : Nat) (kind : Fin 4)
  /-- HOST_LINK_TRAINED (R354): The host link trains at a rate and width, and Shortfall is set or cleared. -/
  | hostLinkTrained (t : Nat) (rate : Fin 3) (width : Fin 5)
  /-- LINK_RETRAIN (R366): The host link is retrained now. -/
  | linkRetrain (t : Nat)
  /-- DICT_SUBMIT (R457): A window A Submit write takes a dictionary request, which is served and answered with Done and vector 0. -/
  | dictSubmit (t : Nat) (header : Nat) (data : List (BitVec 8)) (drive : List (Nat × Nat × Bool)) (volts : List Nat) (good : Bool)
  /-- DOORBELL_WRITE (R356): A doorbell write advances a ring's ConsumedPages, or counts a bad doorbell. -/
  | doorbellWrite (t : Nat) (ring : Fin 32) (value : Nat) (whole : Bool)
  /-- BUS_MASTER_DISABLE (R365): Bus Master Enable is cleared and every stream ring is suspended. -/
  | busMasterDisable (t : Nat)
  /-- STREAM_IRQ_DELAY_EXPIRY (R361): A closed page has gone unsignalled for IrqDelay, and the ring's vector is raised. -/
  | streamIrqDelayExpiry (t : Nat) (ring : Fin 32)
  /-- CREDIT_STALL_TIMEOUT (R363): A mid-page stop lasts more than 10 µs; CreditStalls is counted and assumption 1 is flagged. -/
  | creditStallTimeout (t : Nat) (ring : Fin 32)
  /-- RING_VALIDATE (R366): A stream ring's page settings are checked, and the ring becomes Ready. -/
  | ringValidate (t : Nat) (ring : Fin 32)
  /-- RING_RESTART (R365): A suspended ring resumes from PageSeq 0 with a Restart page. -/
  | ringRestart (t : Nat) (ring : Fin 32)
  /-- QUALIFY (R370): Drive qualification starts, with the write, read and deallocate phases. -/
  | qualify (t : Nat) (port : Fin 6)
  /-- QUALIFY_COMPLETE (R370): Qualification ends and QualifiedRate and QualifiedReadRate are stated. -/
  | qualifyComplete (t : Nat) (port : Fin 6) (mWrite mRead : Nat)
  /-- FORM_SET (R371): The drives of the written mask are formed into one set with a new SetId. -/
  | formSet (t : Nat) (mask : Nat)
  /-- DELETE_RECORDING (R377): A recording is marked Deleted and its units are deallocated. -/
  | deleteRecording (t : Nat) (number : Nat)
  /-- REINSTATE (R378): A Failed drive's label and health are checked and it returns to the set. -/
  | reinstate (t : Nat) (port : Fin 6) (labelOk : Bool)
  /-- NVME_COMPLETION (R376): A drive command completes when polled; a write error is retried once. -/
  | nvmeCompletion (t : Nat) (port : Fin 6) (cid : Nat) (status : Fin 3) (data : List (BitVec 8))
  /-- NVME_COMMAND_TIMEOUT (R378): A command does not complete within 2 s, and the drive is declared Failed. -/
  | nvmeCommandTimeout (t : Nat) (port : Fin 6)
  /-- DRIVE_LINK_LOSS (R378): A storage link stays down for more than 100 ms, or the drive is removed, and the drive fails. -/
  | driveLinkLoss (t : Nat) (port : Fin 6) (removed : Bool)
  /-- UNIT_IDLE_TIMEOUT (R373): 100 ms pass without a record, and the open storage unit is closed. -/
  | unitIdleTimeout (t : Nat) (n : Fin 64)
  /-- DIRECTORY_UPDATE (R372): The directory entry of an open recording is rewritten, at least once per second. -/
  | directoryUpdate (t : Nat) (n : Fin 64)
  /-- HEALTH_LOG_POLL (R369): The error and SMART log pages are read every 60 s. -/
  | healthLogPoll (t : Nat) (port : Fin 6)
  /-- JOIN_DETECT (R387): A receiver is detected on all eight lanes, and the port enters Training. -/
  | joinDetect (t : Nat) (port : Fin 4)
  /-- JOIN_TRAINING_DONE (R387): Training resolves lane order and polarity with adequate figures of merit, and the port enters Lock. -/
  | joinTrainingDone (t : Nat) (port : Fin 4) (foms : List Nat)
  /-- JOIN_LOCK (R387): Block lock and stripe alignment are reached, and the port enters Exchange. -/
  | joinLock (t : Nat) (port : Fin 4)
  /-- JOIN_EXCHANGE (R389): The capability records are compared; the port enters Active or Held. -/
  | joinExchange (t : Nat) (port : Fin 4) (copies : List (List (BitVec 8)))
  /-- JOIN_STAGE_TIMEOUT (R387): A bring-up stage exceeds its limit, the port returns to Detect and a failed attempt is counted. -/
  | joinStageTimeout (t : Nat) (port : Fin 4)
  /-- JOIN_HELD_REEXCHANGE (R389): A Held port repeats the exchange every 100 ms. -/
  | joinHeldReexchange (t : Nat) (port : Fin 4) (copies : List (List (BitVec 8)))
  /-- JOIN_FAILED_RETRY (R386): A Failed port restarts Detect every 1 s. -/
  | joinFailedRetry (t : Nat) (port : Fin 4)
  /-- JOIN_RETRAIN (R387): The Retrain action puts an Active port into Retrain. -/
  | joinRetrain (t : Nat) (port : Fin 4)
  /-- JOIN_LINK_DEGRADE (R387): A lock loss, a low figure of merit for 1 ms or 16 replays puts the port into Retrain. -/
  | joinLinkDegrade (t : Nat) (port : Fin 4)
  /-- BOUNDED_SLOT_RECEIVE (R384): A bounded slot's two copies are checked and one message is taken, or a loss is counted. -/
  | boundedSlotReceive (t : Nat) (port : Fin 4) (copyA copyB : Nat)
  /-- LINE_CHANGE (R403): A LineChange message applies a remote line change to its imported line. -/
  | lineChange (t : Nat)
  /-- LINE_STATE (R403): A LineState message refreshes the values of an export group. -/
  | lineState (t : Nat)
  /-- TIME_SYNC (R399): A TimeSync message is stamped and answered by the parent, or used by the child to form delay and offset. -/
  | timeSync (t : Nat)
  /-- TIME_SYNC_SEND (R399): A child sends its TimeSync every 1 ms. -/
  | timeSyncSend (t : Nat)
  /-- LINE_STATE_SEND (R403): LineState messages of both export groups are sent every 10 µs. -/
  | lineStateSend (t : Nat)
  /-- SLUICE_ARM (R407): A Sluice Arm message from the lead arms commit c at T_c. -/
  | sluiceArm (t : Nat) (slots : Nat)
  /-- SLUICE_ARMED (R407): An Armed answer reaches the lead. -/
  | sluiceArmed (t : Nat)
  /-- SLUICE_REFUSED (R407): A Refused answer with its code reaches the lead. -/
  | sluiceRefused (t : Nat)
  /-- SLUICE_CONFIRM (R407): Confirm keeps the armed commit for T_c. -/
  | sluiceConfirm (t : Nat)
  /-- SLUICE_CANCEL (R407): Cancel disarms the commit. -/
  | sluiceCancel (t : Nat)
  /-- SLUICE_REPORT (R407): A device reports the epoch it applied, and the lead compares it with its own. -/
  | sluiceReport (t : Nat)
  /-- ARRAY_CONFIRM_DEADLINE (R407): At T_c − 400 µs the lead sends Confirm if every answer is Armed, otherwise Cancel. -/
  | arrayConfirmDeadline (t : Nat)
  /-- BULK_FRAME_RECEIVE (R385): A bulk frame is checked, acknowledged or negatively acknowledged, and credits are returned. -/
  | bulkFrameReceive (t : Nat) (port : Fin 4) (sequence ack credits : Nat) (admitted crcOk nack : Bool)
  /-- DIRECTION_SLEEP (R390): An idle direction with no route or admitted flow sleeps after 100 µs. -/
  | directionSleep (t : Nat) (port : Fin 4) (rx : Bool)
  /-- DIRECTION_WAKE_COMPLETE (R390): A woken direction carries data again within 20 µs. -/
  | directionWakeComplete (t : Nat) (port : Fin 4) (rx : Bool)
  /-- JOIN_TEST_MODE (R392): TestMode is written, putting the port into or out of PRBS31 test. -/
  | joinTestMode (t : Nat) (port : Fin 4) (value : Nat)
  /-- ARRAY_APPLY (R394): The array configuration is checked and applied, and formation starts. -/
  | arrayApply (t : Nat) (fTOk : Bool)
  /-- JOIN_CALIBRATE (R402): The join path delays are calibrated by retraining each port in turn. -/
  | joinCalibrate (t : Nat)
  /-- JOIN_CLEAR_COUNTERS (R408): The join-port error and PRBS counters are cleared. -/
  | joinClearCounters (t : Nat) (port : Fin 4)
  /-- TIMED_TIMEOUT (R401): No LineState or TimeSync of a position arrives for 100 µs, and its lines become Untimed. -/
  | timedTimeout (t : Nat) (position : Fin 8)
  /-- FORWARDED_REQUEST (R397): A forwarded dictionary request is served on the target and its response returns over the route. -/
  | forwardedRequest (t : Nat) (response : Bool) (pos : Fin 8) (header : Nat) (data : List (BitVec 8)) (drive : List (Nat × Nat × Bool)) (volts : List Nat) (good : Bool)
  /-- FORWARD_TIMEOUT (R466): No response to a forwarded request reaches the lead within 100 ms, and the lead answers 0x0504_0000. -/
  | forwardTimeout (t : Nat) (pos : Fin 8)
  /-- SYNT_APPLY (R415): The SYN-T settings are checked and applied, and qualification starts. -/
  | syntApply (t : Nat)
  /-- SYNT_QUALIFIED (R415): The reference passes qualification and injection starts. -/
  | syntQualified (t : Nat) (measured : Nat)
  /-- SYNT_QUALIFY_TIMEOUT (R415): Qualification does not pass within 100 ms, and SYN-T enters Failed. -/
  | syntQualifyTimeout (t : Nat)
  /-- SYNT_LOCKED (R415): SYN-T locks and the engine-clock synthesizer starts. -/
  | syntLocked (t : Nat)
  /-- REFERENCE_LOSS (R416): The reference is lost and SYN-T enters Holdover. -/
  | referenceLoss (t : Nat)
  /-- REFERENCE_REQUALIFIED (R417): The reference has requalified for 10 ms, and SYN-T re-injects and slews. -/
  | referenceRequalified (t : Nat)
  /-- SYNT_RELOCK (R417): The oscillator phase meets the reference, and SYN-T returns to Locked. -/
  | syntRelock (t : Nat)
  /-- CLOCK_OUTPUT_WRITE (R421): A DclkConfig or SrefConfig write enables, disables or configures a clock output, after checks. -/
  | clockOutputWrite (t : Nat) (sub value : Nat)
  /-- SREF_FIRE (R420): A burst of pulses is fired on the selected SREF_OUT outputs. -/
  | srefFire (t : Nat) (mask : Nat)
  /-- OUTPUT_START (R420): An enabled output starts at its first edge time at least 2 µs after the write. -/
  | outputStart (t : Nat) (output : Fin 16)
  /-- OUTPUT_STOP (R420): A disabled output stops after its last complete low phase or pulse. -/
  | outputStop (t : Nat) (output : Fin 16)
  /-- SET_SECONDS (R431): A Seconds value is set pending, for the next second boundary. -/
  | setSeconds (t : Nat) (value : Nat)
  /-- SECOND_BOUNDARY (R430): A second boundary applies a pending SetSeconds or the first-Locked step, and realigns the RTC after a step. -/
  | secondBoundary (t : Nat) (rtc : Bool)
  /-- SYNC_IN_EDGE (R432): A SYNC_IN edge is stamped and handled according to SyncMode. -/
  | syncInEdge (t : Nat)
  /-- SYNC_ARM (R433): SYNC_IN is armed to step device time at the next edge. -/
  | syncArm (t : Nat)
  /-- STREAM_MARK_RECEIVE (R436): A timing-stream Mark is stamped and checked, and StreamState and the residual are updated. -/
  | streamMarkReceive (t : Nat) (seconds milli quality epoch descriptor : Nat) (crcOk : Bool)
  /-- STREAM_MARK_SEND (R435): A Mark and its time message are sent at each millisecond of device time. -/
  | streamMarkSend (t : Nat)
  /-- STREAM_LOST_TIMEOUT (R436): No valid Mark arrives for 10 ms, and StreamState becomes Lost. -/
  | streamLostTimeout (t : Nat)
  /-- ADOPT (R437): Device time is stepped to the upstream time of the timing stream. -/
  | adopt (t : Nat)
  /-- TDC_EDGE (R438): An edge on TDC_IN is stamped, or lost to dead time or a full front buffer. -/
  | tdcEdge (t : Nat) (ch : Fin 16) (falling : Bool)
  /-- TDC_QUEUE_PUSH (R440): A stamp leaves the front buffer into the queue and the statistics units, under QueuePolicy. -/
  | tdcQueuePush (t : Nat) (ch : Fin 16)
  /-- POP_BLOCK (R440): Up to n stamps are removed from the queue atomically. -/
  | popBlock (t : Nat) (ch : Fin 16) (n : Nat)
  /-- CLEAR_QUEUE (R441): The TDC queue is emptied. -/
  | clearQueue (t : Nat) (ch : Fin 16)
  /-- STATS_START (R442): A statistics unit starts a block. -/
  | statsStart (t : Nat) (unit : Fin 4)
  /-- TDC_CONTROL_UPDATE (R443): The delay-line control loop adjusts ControlValue every 1 µs. -/
  | tdcControlUpdate (t : Nat) (ch : Fin 16) (line : Fin 2) (control error : Nat)
  /-- TDC_LINE_SWAP (R443): The active and resting delay lines swap roles, every 1 s or after a 2 °C change. -/
  | tdcLineSwap (t : Nat) (ch : Fin 16)
  /-- TDC_CALIBRATION_COMPLETE (R443): The code-density calibration of the resting line collects 2^22 hits and builds its table. -/
  | tdcCalibrationComplete (t : Nat) (ch : Fin 16) (widths : List Nat)
  /-- DICTIONARY_WRITE (R451): A write to an object that has no row of its own is checked in order and applied or staged. -/
  | dictionaryWrite (t : Nat) (key : Nat) (data : List (BitVec 8)) (drive : List (Nat × Nat × Bool)) (volts : List Nat) (good : Bool)
  /-- DICT_WRITE_SEGMENT (R458): A segment of a long DOMAIN write is staged, or the whole staged value is applied. -/
  | dictWriteSegment (t : Nat) (transport : Fin 2) (client key offset tag : Nat) (more : Bool) (data : List (BitVec 8)) (good : Bool)
  /-- DICT_READ_SEGMENT (R458): A read of a DOMAIN at an offset latches the value or returns octets of the latch. -/
  | dictReadSegment (t : Nat) (transport : Fin 2) (client key offset length : Nat)
  /-- SEGMENT_BUFFER_TIMEOUT (R458): The staging buffer is emptied after 1 s without a segment from its holder. -/
  | segmentBufferTimeout (t : Nat) (transport : Fin 3)
  /-- READ_LATCH_TIMEOUT (R458): A read latch is released after 1 s without a read. -/
  | readLatchTimeout (t : Nat) (transport : Fin 3)
  /-- TAG_EXPIRY (R455): A remembered request tag expires 10 s after its response. -/
  | tagExpiry (t : Nat) (transport : Fin 3) (client : Nat)
  /-- USDO_REQUEST (R459): A USDO request received on CAN FD is served by the steward. -/
  | usdoRequest (t : Nat) (port : Fin 2) (node : Fin 128) (unicast write : Bool) (key offset length : Nat) (more : Bool) (data : List (BitVec 8)) (good : Bool)
  /-- ENVELOPE_WRITE (R461): An Envelope write carries a tagged or forwarded write of the inner object. -/
  | envelopeWrite (t : Nat) (transport : Fin 2) (client : Nat) (data : List (BitVec 8)) (good : Bool)
  /-- NMT_START (R460): The NMT start command puts the interface into Operational. -/
  | nmtStart (t : Nat) (port : Fin 2) (node : Nat)
  /-- NMT_STOP (R460): The NMT stop command puts the interface into Stopped. -/
  | nmtStop (t : Nat) (port : Fin 2) (node : Nat)
  /-- NMT_ENTER_PRE_OPERATIONAL (R460): The NMT command puts the interface into Pre-operational. -/
  | nmtEnterPreOperational (t : Nat) (port : Fin 2) (node : Nat)
  /-- NMT_RESET_NODE (R460): The interface and its error counters are reset, and a boot-up message is sent. -/
  | nmtResetNode (t : Nat) (port : Fin 2) (node : Nat)
  /-- NMT_RESET_COMMUNICATION (R460): Communication is reset and a changed NodeId or bit rate is applied. -/
  | nmtResetCommunication (t : Nat) (port : Fin 2) (node : Nat)
  /-- HEARTBEAT_SEND (R463): A heartbeat frame is sent every HeartbeatTime. -/
  | heartbeatSend (t : Nat)
  /-- EMCY_SEND (R462): An EMCY frame is sent for a new FaultLog entry, or queued behind the inhibit time. -/
  | emcySend (t : Nat)
  /-- EMCY_INHIBIT_EXPIRY (R462): The inhibit time expires and the next waiting EMCY frame is sent. -/
  | emcyInhibitExpiry (t : Nat)
  /-- CAN_BUS_OFF (R459): A CAN port goes bus-off and recovers by the ISO 11898-1 rule. -/
  | canBusOff (t : Nat) (port : Fin 2) (recovered : Bool)
  /-- ERROR_FIELD_CLEAR (R463): Writing 0 to 0x1003:00 clears the EMCY error list. -/
  | errorFieldClear (t : Nat) (value : Nat)
  /-- SET_CALENDAR (R468): A calendar date is validated and passed to SetSeconds. -/
  | setCalendar (t : Nat) (data : List (BitVec 8))
  /-- PANTRY_RESTORE (R453): Kept values are restored from the Pantry, and the automatic steps follow in order. -/
  | pantryRestore (t : Nat) (drive : List (Nat × Nat × Bool)) (good : Bool)
  /-- RESTORE_STEP_COMPLETE (R571): An automatic restore step reaches its completion condition, and the next step starts. -/
  | restoreStepComplete (t : Nat) (drive : List (Nat × Nat × Bool)) (good : Bool)
  /-- RESTORE_STEP_TIMEOUT (R571): An automatic restore step reaches its limit, is logged, and the next step starts. -/
  | restoreStepTimeout (t : Nat) (drive : List (Nat × Nat × Bool)) (good : Bool)
  /-- OP_POINT_REQUEST (R482): An operating-point change is requested and checked against every contract. -/
  | opPointRequest (t : Nat) (point : Nat)
  /-- OP_VOK_ASSERT (R481): VCORE has held at the new planned value for 10 µs, and VOK is asserted. -/
  | opVokAssert (t : Nat)
  /-- OP_FREQUENCY_SWITCH (R482): f_E switches at the next slot-frame boundary and Current shows the new point. -/
  | opFrequencySwitch (t : Nat)
  /-- OP_VCORE_SETTLED (R482): VCORE settles at the new target and the change ends with Result 0x00. -/
  | opVcoreSettled (t : Nat)
  /-- OP_SETTLE_TIMEOUT (R482): VOK or settling is not reached within SettleTime, and the change ends with Result 0x02. -/
  | opSettleTimeout (t : Nat)
  /-- STOP (R489): A plain Stop request is refused if any slot is admitted, otherwise Stop entry starts. -/
  | stop (t : Nat)
  /-- STOP_FORCE (R490): A Force Stop ends pipelines and transfers at once and enters Stop. -/
  | stopForce (t : Nat)
  /-- STOP_REQ_N_EDGE (R488): A falling edge on STOP_REQ_N held for 10 µs requests Stop. -/
  | stopReqNEdge (t : Nat)
  /-- STOP_REQ_REPEAT (R488): While STOP_REQ_N stays low after a refusal, the request is repeated each second. -/
  | stopReqRepeat (t : Nat) (low : Bool)
  /-- STOP_GRACE_EXPIRY (R489): StopGrace ends; the entry is aborted if work remains, otherwise shutdown proceeds. -/
  | stopGraceExpiry (t : Nat)
  /-- STOP_REACHED (R489): The rails are disconnected, PWR_GOOD_OUT falls and StopCause is written. -/
  | stopReached (t : Nat)
  /-- WAKE_SAMPLE (R493): The sentinel samples the enabled wake sources each RTC tick and starts a power-up on a wake. -/
  | wakeSample (t : Nat) (wakeIn : Option Bool) (can : Option (Nat × Nat × List (BitVec 8))) (perst lane : Bool)
  /-- POWER_ON (R491): VAON is first applied, which is always a wake. -/
  | powerOn (t : Nat)
  /-- RAIL_IN_WINDOW (R473): A rail has read within its window for 200 µs and is connected. -/
  | railInWindow (t : Nat) (step : Fin 8)
  /-- POWERUP_RAIL_TIMEOUT (R474): A rail is not within its window 50 ms after PWR_GOOD_OUT, and the rails are disconnected. -/
  | powerupRailTimeout (t : Nat)
  /-- POWERUP_RETRY (R474): The power-up is retried 1 s after a fault, up to three times. -/
  | powerupRetry (t : Nat)
  /-- RAIL_OUT_OF_WINDOW (R474): A switched rail leaves its Run window for more than 10 µs, which is logged and flagged. -/
  | railOutOfWindow (t : Nat) (step : Fin 8)
  /-- VAON_LOSS (R561): VAON falls below 1.70 V; the Pantry write is secured and the rails are disconnected. -/
  | vaonLoss (t : Nat)
  /-- LEDGER_SAMPLE (R484): The ledger samples the rail currents and voltages every 50 µs. -/
  | ledgerSample (t : Nat)
  /-- LEDGER_WINDOW (R487): A 1 ms window of MeasuredPower closes and is compared with Envelope. -/
  | ledgerWindow (t : Nat)
  /-- LEDGER_FIT (R485): The coefficients are fitted every 10 s and corrected under R58. -/
  | ledgerFit (t : Nat) (fitted : List Nat)
  /-- THROTTLE_EVALUATE (R486): Best-effort power is estimated every 100 µs and best-effort activity is throttled if it is over the allowance. -/
  | throttleEvaluate (t : Nat) (usage : List Nat)
  /-- DOMAIN_POWER_DOWN (R475): An unused domain is drained and powered down. -/
  | domainPowerDown (t : Nat) (d : Fin 93)
  /-- DOMAIN_POWER_UP (R475): A needed domain is powered up. -/
  | domainPowerUp (t : Nat) (d : Fin 93)
  /-- AUX_LDO_SOFT_START_END (R495): The soft start ends; an output below 90 % latches off. -/
  | auxLdoSoftStartEnd (t : Nat) (k : Fin 2) (good : Bool)
  /-- AUX_LDO_LIMIT (R495): An output holds its current limit for 1 ms in Run and latches off. -/
  | auxLdoLimit (t : Nat) (k : Fin 2)
  /-- AUX_LDO_RETRY (R495): A latched output restarts after 10 ms, within its Retries. -/
  | auxLdoRetry (t : Nat) (k : Fin 2)
  /-- AUX_LDO_RESET (R495): The latches of the selected AUX_LDO outputs are cleared. -/
  | auxLdoReset (t : Nat) (mask : Nat)
  /-- AVS_POLL (R479): The regulator's current is read every 100 µs, and its temperature and status every 100 ms. -/
  | avsPoll (t : Nat) (mV mA : Nat) (status : Option Nat)
  /-- CLEAR_PEAK (R484): PeakPower is cleared. -/
  | clearPeak (t : Nat)
  /-- REFUSAL_LOG_CLEAR (R489): The RefusalLog count is reset to 0. -/
  | refusalLogClear (t : Nat)
  /-- CLUSTER_FAULT (R500): A cluster fault stops the affected engines, fixes G_s and makes a FaultLog entry. -/
  | clusterFault (t : Nat) (c : Fin 64)
  /-- MIGRATION_TARGET_CHOSEN (R500): A migration target is chosen and its charges are recomputed, and it starts loading. -/
  | migrationTargetChosen (t : Nat) (c : Fin 64) (n : Fin 64)
  /-- MIGRATION_RESUME (R500): At G_e the target engines take frames, ending the declared gap. -/
  | migrationResume (t : Nat) (c : Fin 64) (n : Fin 64)
  /-- ENGINE_TEST_COMPLETE (R502): The post-migration test ends, and the engine returns to Free or Spare or is Retired. -/
  | engineTestComplete (t : Nat) (e : Fin 1088) (pass shared : Bool)
  /-- RETIRE_ENGINE (R503): A planned gap-free retirement of an engine starts. -/
  | retireEngine (t : Nat) (e : Nat)
  /-- LOCKSTEP_MISMATCH (R504): The comparator detects a mismatch and the steward pair restarts. -/
  | lockstepMismatch (t : Nat)
  /-- LOCKSTEP_SELF_TEST (R505): A mismatch is injected on one rail each TestInterval, and a missed flag sets LatentFault. -/
  | lockstepSelfTest (t : Nat) (flagged : Bool)
  /-- CLEAR_LATENT (R505): The 1 ms test interval is restored after 10,000 passing tests. -/
  | clearLatent (t : Nat)
  /-- STEWARD_RESTART_ACTION (R506): The Restart action restarts the steward pair as after a mismatch. -/
  | stewardRestartAction (t : Nat)
  /-- SENTINEL_POLL (R507): The steward polls the sentinel every 10 ms. -/
  | sentinelPoll (t : Nat) (result : Fin 3)
  /-- FIRMWARE_IMAGE_WRITE (R508): A firmware image is copied into the other slot and checked. -/
  | firmwareImageWrite (t : Nat) (data : List (BitVec 8))
  /-- FIRMWARE_SWAP (R509): The steward restarts into the staged firmware for a trial. -/
  | firmwareSwap (t : Nat)
  /-- FIRMWARE_CONFIRM (R509): The running trial slot is confirmed in a new root word. -/
  | firmwareConfirm (t : Nat)
  /-- CONFIRM_WINDOW_EXPIRY (R509): ConfirmWindow passes without a confirm, and the steward falls back to the confirmed slot. -/
  | confirmWindowExpiry (t : Nat)
  /-- KEEP (R513): The kept objects are serialised and written to the inactive Pantry copy. -/
  | keep (t : Nat)
  /-- KEEP_COMPLETE (R513): The copy is verified and the root word switches to it. -/
  | keepComplete (t : Nat) (good : Bool)
  /-- DISCARD (R516): A root naming no kept copy is written. -/
  | discard (t : Nat)
  /-- PLAN_RUN (R518): At PlanTime the daily plan sets PlannedVcore and retires worn engines and pseudo-channels. -/
  | planRun (t : Nat) (volts : List Nat)
  /-- PLAN_NOW (R518): The daily plan runs at once. -/
  | planNow (t : Nat) (volts : List Nat)
  /-- FAULT_ACKNOWLEDGE (R521): FaultLog entries up to the written Sequence count as read. -/
  | faultAcknowledge (t : Nat) (sq : Nat)
  /-- DIAGNOSTICS_CLEAR_COUNTERS (R521): The Diagnostics counters are cleared. -/
  | diagnosticsClearCounters (t : Nat)
  /-- CLEAR_OVER_TEMP (R521): The HBM OverTemp flag is cleared. -/
  | clearOverTemp (t : Nat)
  /-- HK_CONVERSION (R524): The housekeeping ADC converts one channel in its slot, for the ledger or the sequencer. -/
  | hkConversion (t : Nat) (ledger : Option (Fin 64)) (raw : Nat)
  /-- CALIBRATE_REFERENCE (R531): A reference calibration starts for the housekeeping offsets and gains. -/
  | calibrateReference (t : Nat) (mask startAt : Nat)
  /-- CALIBRATE_CLOCK (R531): A 10 s RTC trim calibration against device time starts. -/
  | calibrateClock (t : Nat) (mask startAt : Nat)
  /-- CALIBRATE_SIGNAL_PATH (R532): A signal-path calibration is scheduled over the channels of the mask. -/
  | calibrateSignalPath (t : Nat) (mask startAt : Nat)
  /-- CAL_REFERENCE_COMPLETE (R531): The reference conversions end and the results are applied all together or not at all. -/
  | calReferenceComplete (t : Nat) (shorts : List Nat) (vref : Option Nat)
  /-- CAL_CLOCK_COMPLETE (R531): The 10 s count ends and RtcTrim is set. -/
  | calClockComplete (t : Nat) (ticks : Nat)
  /-- SIGNAL_PATH_WINDOW_START (R532): A channel's window starts substitution and attaches the correlator. -/
  | signalPathWindowStart (t : Nat)
  /-- SIGNAL_PATH_MEASURE_START (R532): The measurement interval of the window starts. -/
  | signalPathMeasureStart (t : Nat)
  /-- SIGNAL_PATH_MEASURE_END (R533): The measurement interval ends and the correlator results are formed. -/
  | signalPathMeasureEnd (t : Nat)
  /-- SIGNAL_PATH_WINDOW_END (R533): Substitution ends and the channel's results are checked and applied. -/
  | signalPathWindowEnd (t : Nat)
  /-- CAPTURE (R536): The calibration values are copied into StoredSet. -/
  | capture (t : Nat)
  /-- REAPPLY (R536): StoredSet is checked and applied whole, or not at all. -/
  | reapply (t : Nat)
  /-- SPARE_SELF_TEST (R537): A spare engine or pseudo-channel runs its daily self-test. -/
  | spareSelfTest (t : Nat) (hbm : Bool) (unit : Fin 64) (pass : Bool)
  /-- DISPLAY_ENABLE (R544): The display is enabled after the fetch charge checks, or disabled. -/
  | displayEnable (t : Nat) (on : Bool)
  /-- DISPLAY_COMMIT (R547): A buffer is made pending for display, superseding any pending buffer. -/
  | displayCommit (t : Nat) (buffer : Nat)
  /-- FRAME_START (R547): A display frame starts and shows the pending or the repeated buffer. -/
  | frameStart (t : Nat)
  /-- DISPLAY_FRAME_END (R550): The fetch and link CRCs of the frame are published and compared. -/
  | displayFrameEnd (t : Nat) (linkCrc : Nat)
  /-- HPD_CHANGE (R552): Hot-plug detect is lost or returns, pausing the fetch or retraining the link. -/
  | hpdChange (t : Nat) (present : Bool)
  /-- DISPLAY_LINK_TRAINED (R550): Display link training completes and scan-out resumes at the next frame start. -/
  | displayLinkTrained (t : Nat) (ok : Bool) (rate : Fin 8) (caps : List (BitVec 8)) (psr : Bool)
  /-- DISPLAY_CLEAR_FLAGS (R551): CommitLate and the display counters are cleared. -/
  | displayClearFlags (t : Nat)
  /-- EXTEST (R566): EXTEST takes the pins for boundary-scan test when the device is idle. -/
  | extest (t : Nat) (cells : List Bool)
  /-- IDCODE (R566): IDCODE selects the 32-bit identification register. -/
  | idcode (t : Nat)
  /-- SAMPLE_PRELOAD (R566): SAMPLE/PRELOAD samples or preloads the boundary cells. -/
  | samplePreload (t : Nat) (cells : List Bool)
  /-- HIGHZ (R566): HIGHZ places the outputs in high impedance when the device is idle. -/
  | highz (t : Nat)
  /-- CLAMP (R566): CLAMP drives the preloaded values and selects bypass when the device is idle. -/
  | clamp (t : Nat)
  /-- EXTEST_PULSE (R566): The IEEE 1149.6 pulse test runs on the lanes. -/
  | extestPulse (t : Nat)
  /-- EXTEST_TRAIN (R566): The IEEE 1149.6 train test runs on the lanes. -/
  | extestTrain (t : Nat)
  /-- DEBUG (R566): DEBUG selects best-effort access to the engine apertures. -/
  | debug (t : Nat)
  /-- BYPASS (R566): BYPASS selects the bypass register. -/
  | bypass (t : Nat)
  /-- TAP_RESET (R566): TRST_N low holds the TAP in Test-Logic-Reset. -/
  | tapReset (t : Nat)
  /-- MARGIN_SCAN (R567): A two-dimensional eye scan of the selected lanes starts. -/
  | marginScan (t : Nat) (q : Fin 36) (mask : Nat)
  /-- MARGIN_SCAN_COMPLETE (R567): The eye scan ends and ScanResult is written. -/
  | marginScanComplete (t : Nat) (q : Fin 36) (counts : List (List (BitVec 8)))
  /-- MARGIN_UPDATE (R567): The quad eye margins are updated every 1 s. -/
  | marginUpdate (t : Nat) (q : Fin 36) (eyes : List (Nat × Nat))
  /-- LANE_QUAD_FAULT (R568): A lane-quad fault is recorded and recovery follows the quad's function. -/
  | laneQuadFault (t : Nat) (q : Fin 36) (lane : Fin 4) (code : Fin 6)
  /-- LANE_QUAD_CLEAR_FAULT (R567): The quad's FaultCode is cleared. -/
  | laneQuadClearFault (t : Nat) (q : Fin 36)
  /-- TIMING_STREAM_BLOCK_LOCK (R436): The Q35.2 receiver gains block lock on the timing stream, and StreamState moves from Absent or Lost to Locking. -/
  | timingStreamBlockLock (t : Nat)
  /-- TIMING_STREAM_SIGNAL_LOSS (R436): The timing-stream signal on Q35.2 disappears and StreamState becomes Absent. -/
  | timingStreamSignalLoss (t : Nat)
  /-- PRBS_CHECKER_LOCK (R392): A lane's PRBS31 checker locks after 64 error-free bits, sets its PrbsLock bit and starts counting errors and bits. -/
  | prbsCheckerLock (t : Nat) (port : Fin 4) (lane : Fin 8)
  /-- CAN_ERROR_PASSIVE (R464): A CAN port's error counters cross the error-passive limit or fall back, changing CanErrorState and ErrorRegister bit 4. -/
  | canErrorPassive (t : Nat) (port : Fin 2) (passive : Bool)
  /-- DRIVE_ATTACH (R369): An enabled storage port detects and trains to its drive, issues Identify and sets DriveState to Identified or Unsupported. -/
  | driveAttach (t : Nat) (port : Fin 6) (supported : Bool) (rate width capacity units : Nat) (name : List (BitVec 8)) (label : Option (Nat × Nat × Nat)) (directory : List (BitVec 8))
  /-- JOIN_ASSUMPTION_FLAG_CLEAR (R385): AssumptionFlags bit 4 clears after 1 s with neither a second replay nor a BoundedLost count. -/
  | joinAssumptionFlagClear (t : Nat)
  deriving DecidableEq, Repr

end Sys2Proof
end

