-- ==== Sys2Proof/Machine/Tab.lean ====
section
/-! DEFINITION. Sparse tables: a list of (key, value) pairs with rising keys and no entry equal to what an unlisted key reads as. Every addressed memory and every register file of the state is one. -/

namespace Sys2Proof.Machine

/-- A sparse table over natural keys; an unlisted key reads as a default the reader of the table names. -/
abbrev Tab (α : Type) := List (Nat × α)

/-- Read key `a`: its listed value, or the default `d a`. -/
def tget {α : Type} (d : Nat → α) : Tab α → Nat → α
  | [], a => d a
  | (k, v) :: t, a => if a = k then v else tget d t a

/-- Take key `a` out. -/
def tdel {α : Type} : Tab α → Nat → Tab α
  | [], _ => []
  | (k, v) :: t, a => if a = k then tdel t a else (k, v) :: tdel t a

/-- List key `a` with value `v`, in rising order. -/
def tput {α : Type} : Tab α → Nat → α → Tab α
  | [], a, v => [(a, v)]
  | (k, w) :: t, a, v =>
    if a < k then (a, v) :: (k, w) :: t
    else if a = k then (a, v) :: t
    else (k, w) :: tput t a v

/-- Write `v` at key `a`, keeping the canonical form: writing the default removes the entry. -/
def tset {α : Type} [DecidableEq α] (d : Nat → α) (t : Tab α) (a : Nat) (v : α) : Tab α :=
  if v = d a then tdel t a else tput t a v

/-- Change the value at key `a` by `f`. -/
def tmod {α : Type} [DecidableEq α] (d : Nat → α) (t : Tab α) (a : Nat) (f : α → α) : Tab α :=
  tset d t a (f (tget d t a))

/-- The keys rise strictly from `lo` on and no entry is its default. -/
def twfFrom {α : Type} [DecidableEq α] (d : Nat → α) : Nat → Tab α → Bool
  | _, [] => true
  | lo, (k, v) :: t => decide (lo ≤ k) && decide (v ≠ d k) && twfFrom d (k + 1) t

/-- The canonical form. -/
def twf {α : Type} [DecidableEq α] (d : Nat → α) (t : Tab α) : Bool := twfFrom d 0 t

/-- Write `n` consecutive keys from `a` with the values of a list. -/
def tsetRange {α : Type} [DecidableEq α] (d : Nat → α) : Tab α → Nat → List α → Tab α
  | t, _, [] => t
  | t, a, v :: vs => tsetRange d (tset d t a v) (a + 1) vs

/-- Read `n` consecutive keys from `a`. -/
def tgetRange {α : Type} (d : Nat → α) (t : Tab α) (a : Nat) : Nat → List α
  | 0 => []
  | n + 1 => tget d t a :: tgetRange d t (a + 1) n

/-- The constant default. -/
def dconst {α : Type} (v : α) : Nat → α := fun _ => v

end Sys2Proof.Machine
end

