-- ==== Sys2Proof/Machine/ArrayState.lean ====
section
/-! DEFINITION. State of the join ports and of the array that no dictionary object holds (spec/15_arrays.md). -/

namespace Sys2Proof.Machine

/-- One join port. -/
structure JoinPort where
  /-- consecutive failed attempts (R386, R387) -/
  attempts : Nat := 0
  /-- child side of a time-tree hop (R399): the messages sent last, newest first, each its Sequence and t1; the Sequence of the parent's
  latest answer and the axis time of its arrival; the offsets of the last 64 exchanges, newest first -/
  sent : List (Nat × Nat) := []
  parentSeq : Nat := 0
  syncAt : Option Nat := none
  offsets : List Int := []
  /-- parent side: messages of the child answered since Apply -/
  answered : Nat := 0
  /-- bulk class (R385): next sequence to receive and to send, frames sent and not acknowledged, oldest first, each the number of
  times it has been replayed, replays of frames since the latest entry into Active, and free credits of the best-effort and the admitted class -/
  rxNext : Nat := 0
  txNext : Nat := 0
  unacked : List Nat := []
  replays : Nat := 0
  creditBest : Nat := 64
  creditAdm : Nat := 64
  /-- axis time of the first checker lock of the test that runs (R392) -/
  prbsSince : Option Nat := none
  deriving DecidableEq, Repr

/-- What this device knows of one position (R395-R406). -/
structure PosState where
  /-- Timed and LeadResidual that the position last reported -/
  reported : Bool := false
  residual : Int := 0
  /-- TimeEpoch, TimeQuality and ConfigDigest of its capability record, on a direct link -/
  epoch : Option Nat := none
  quality : Option Nat := none
  digest : Option Nat := none
  /-- axis time of the latest LineState or TimeSync -/
  heardAt : Option Nat := none
  /-- exchanges for which every condition of R401 has held -/
  good : Nat := 64
  timed : Bool := false
  /-- the route was restored and no LineState has arrived since (R406) -/
  await : Bool := false
  /-- Sequence of the latest message of each Type 1-4 -/
  seqs : Tab (Option Nat) := []
  /-- condition time of the latest message, and the times at which a loss was detected for export groups 0 and 1 (R405) -/
  lastCond : Nat := 0
  lost0 : Option Nat := none
  lost1 : Option Nat := none
  deriving DecidableEq, Repr

/-- A commit across the array (R407). On the lead: the positions named with their slots, and the answers so far (0 Armed, else the refusal code);
on a follower only its own slots. -/
structure ArrCommit where
  ident : Nat
  tc : Nat
  slots : Nat
  members : List (Nat × Nat) := []
  answers : List (Nat × Nat) := []
  reports : List (Nat × Nat) := []
  confirmed : Bool := false
  decided : Bool := false
  deriving DecidableEq, Repr

/-- The array (R393-R409). -/
structure ArrayState where
  /-- what a read of Apply returns; none before any -/
  applyResult : Option Nat := none
  /-- the applied configuration and position -/
  config : Bytes := []
  pos : Nat := 0xFF
  /-- ports that Calibrate has still to retrain, the first in progress; none before any Calibrate -/
  calib : Option (List Nat) := none
  /-- next Sequence by Type (R383) -/
  tx : Tab Nat := []
  /-- bounded messages taken and not yet used, oldest first: port, stamp in u_T of device time, word -/
  inbox : List (Nat × Nat × Nat) := []
  /-- axis time of the latest BoundedLost count or second replay (R385) -/
  lossAt : Nat := 0
  commit : Option ArrCommit := none
  /-- the next commit id of the lead -/
  nextCommit : Nat := 0
  deriving DecidableEq, Repr

end Sys2Proof.Machine
end

