-- ==== Sys2Proof/Machine/ContractState.lean ====
section
/-! DEFINITION. State of a pipeline slot that no dictionary object holds: placement, resource vector, staged copies, armed commits and replacements (spec/02_contracts.md). -/

namespace Sys2Proof.Machine

/-- Placement engine entry (R576). -/
structure PlEngine where
  logical : Nat
  physical : Nat
  stage : Nat
  channel : Nat
  rotation : Nat
  deriving DecidableEq, Repr

/-- Placement pool-region entry (R576). -/
structure PlRegion where
  cluster : Nat
  firstLine : Nat
  lineCount : Nat
  kind : Nat
  channel : Nat
  deriving DecidableEq, Repr

/-- Placement Polder-share entry (R576). -/
structure PlShare where
  channel : Nat
  half : Nat
  granules : Nat
  ports : Nat
  recordDrain : Bool
  deriving DecidableEq, Repr

/-- Placement pseudo-channel entry (R576). -/
structure PlPc where
  pc : Nat
  bursts : Nat
  extents : Nat
  deriving DecidableEq, Repr

/-- Placement lane-group entry (R576). -/
structure PlLane where
  quad : Nat
  lanes : Nat
  deriving DecidableEq, Repr

/-- Placement transfer-channel entry (R576). -/
structure PlXfer where
  chan : Nat
  role : Nat
  slots : Nat
  deriving DecidableEq, Repr

/-- What Placement reports (R576). -/
structure Placement where
  engines : List PlEngine := []
  regions : List PlRegion := []
  shares : List PlShare := []
  pcs : List PlPc := []
  lanes : List PlLane := []
  xfers : List PlXfer := []
  deriving DecidableEq, Repr

/-- One ResourceVector entry but for its Term and Quantity, which its position gives (R577). -/
structure RvEntry where
  point : Nat := 0
  unitClass : Nat := 0
  unitNumber : Nat := 0
  amount : Nat := 0
  limit : Nat := 0
  total : Nat := 0
  deriving DecidableEq, Repr

/-- A charge of R50: quantity of R577, operating point, unit class and number of R61, amount. -/
structure Charge where
  q : Nat
  point : Nat
  cls : Nat
  unit : Nat
  amount : Nat
  deriving DecidableEq, Repr

/-- A refusal as R582 fills the Last objects. -/
structure Refusal4x where
  code : Nat
  unit : Nat := 0
  need : Nat := 0
  avail : Nat := 0
  point : Nat := 0
  deriving DecidableEq, Repr

/-- One pipeline slot. -/
structure Slot where
  /-- what a read of Admit returns; none before any -/
  admitResult : Option Nat := none
  /-- staged values of rw objects (R46), by key, and of rw DOMAINs -/
  staged : Tab Nat := []
  stagedDom : Tab Bytes := []
  /-- T_c of an armed commit, device time in u_T -/
  armed : Option Nat := none
  /-- a GroupCommit or array commit armed it: the Confirm is still to come (R77) -/
  awaitConfirm : Bool := false
  /-- the gate has written the staged set into the second banks (R72) -/
  bankLoaded : Bool := false
  /-- boundary T_w of a withdrawal (R575) -/
  withdrawAt : Option Nat := none
  /-- the slot this one replaces, and the Successor that replaces this one -/
  replacing : Option Nat := none
  replacedBy : Option Nat := none
  /-- admitted as a gap replacement (R76) -/
  gap : Bool := false
  /-- tag of the Successor's first frame t1 (R74) -/
  firstFrame : Option Nat := none
  /-- the boundary of the switch, T_c -/
  switchAt : Option Nat := none
  placement : Placement := {}
  vector : List RvEntry := []
  charges : List Charge := []
  /-- engines of the cluster spares borrowed for the overlap (R74) -/
  borrowed : List Nat := []
  /-- tag of the latest frame taken, and of the frame grid's origin -/
  lastFrame : Option Nat := none
  /-- a declared gap is in progress: no output of frames tagged in it (R500) -/
  gapFrom : Option Nat := none
  /-- the withdrawal is one with notice (R501): Sequence of the FaultLog entry to mark -/
  notice : Option Nat := none
  /-- T_c of a commit withheld by a fault migration (R41) -/
  withheld : Option Nat := none
  /-- the slots armed by the same GroupCommit or array commit, as a bit map; 0 for a Commit (R71) -/
  group : Nat := 0
  /-- the Channelize slot that feeds this one's routes since a replacement of the one RouteSource names (R193) -/
  routeFrom : Option Nat := none
  gapTo : Option Nat := none
  deriving DecidableEq, Repr

/-- The empty slot. -/
def Slot.empty : Slot := {}

end Sys2Proof.Machine
end

