-- ==== Sys2Proof/Machine/EngineState.lean ====
section
/-! DEFINITION. State of the analysis engines and their images (spec/10_engines.md, spec/11_microcode.md). -/

namespace Sys2Proof.Machine

/-- What travels beside the first flit of a frame (R288), and how many of its units are complete. -/
structure FrameInfo where
  /-- tag, u_T of device time -/
  tag : Nat
  index : Nat
  flags : Nat
  input : Nat
  epoch : Nat
  units : Nat := 0
  deriving DecidableEq, Repr

/-- One microword on its way through the stages NF to WB (R271): its nanoword, the read modifiers, what NF and OF latched. -/
structure Uop where
  nano : Nat
  xmod : Nat
  ymod : Nat
  /-- addresses latched in NF: X read, Y read, store -/
  xa : Nat := 0
  ya : Nat := 0
  sa : Nat := 0
  /-- ctl as this microword's own NF leaves it (R273) -/
  ctl : Nat := 0
  /-- 64-bit words read in OF -/
  xw : Nat := 0
  yw : Nat := 0
  /-- the register a register store samples in NF (R273) -/
  sampled : Nat := 0
  /-- the frame being worked on at its MF (R288) -/
  frame : Option FrameInfo := none
  deriving DecidableEq, Repr

/-- An event of R287: its code, the commit time of ARM and CANCEL as TIME128, the bank of ARM. -/
structure Event where
  code : Nat
  tc : Nat := 0
  bank : Nat := 0
  deriving DecidableEq, Repr

/-- One queued SEND (R270): source bank, next element, flits left, flits in all, flow, octets sent so far; the frame it belongs to, whether it is that
frame's first on the flow (R288), and the cycle count at its NF. -/
structure SendReq where
  bank : Nat
  elem : Nat
  left : Nat
  total : Nat
  flow : Nat
  sent : List Nat := []
  frame : Option FrameInfo := none
  lead : Bool := false
  cycle : Nat := 0
  deriving DecidableEq, Repr

/-- One engine. `st` (R243): 0 Free, 1 Loaded, 2 Running, 3 Halted, 4 Spare, 5 Retired. -/
structure Engine where
  st : Nat := 0
  /-- X and Y by element, microstore by microword, nanostore by nanoword of 192 bits (R245) -/
  x : Tab Nat := []
  y : Tab Nat := []
  micro : Tab Nat := []
  nano : Tab Nat := []
  /-- registers by the codes of R283; of st the bits 12..2 (R252); the accumulators apart -/
  r : Tab Nat := []
  acc0re : Int := 0
  acc0im : Int := 0
  acc1re : Int := 0
  acc1im : Int := 0
  /-- address of the microword that enters MF next -/
  pc : Nat := 0
  /-- return address while in the service routine (R285) -/
  ret : Nat := 0
  service : Bool := false
  /-- event flag, its event, and the events that wait (R287) -/
  ev : Bool := false
  event : Option Event := none
  events : List Event := []
  evSeq : Nat := 0
  /-- STOP has been acknowledged -/
  stopping : Bool := false
  /-- SAVESTATE has been acknowledged -/
  saving : Bool := false
  nf : Option Uop := none
  of : Option Uop := none
  m1 : Option Uop := none
  m2 : Option Uop := none
  wb : Option Uop := none
  /-- cycles since the latest safe point (R66, R291) -/
  sinceSafe : Nat := 0
  sends : List SendReq := []
  /-- tag and index of the frame whose flits each flow carried last (R288) -/
  begun : Tab (Option (Nat × Nat)) := []
  /-- octet words received of the unit in progress, and the unit's place in the area -/
  rxFlits : Nat := 0
  rxSlot : Nat := 0
  /-- units received and not released (R269), counted in rxn or not yet -/
  unreleased : Nat := 0
  /-- frames received, the current one first; `busy` while it is being worked on -/
  frames : List FrameInfo := []
  busy : Bool := false
  /-- the parameter bank in force, and the commit that will change it (R288) -/
  bank : Nat := 0
  armed : Option (Nat × Nat) := none
  /-- slot it works for, its images, its logical number, stage and rotation -/
  slot : Option Nat := none
  image : Nat := 0
  nimage : Nat := 0
  /-- image header fields the hardware uses -/
  entry : Nat := 0
  svcEntry : Nat := 0
  rxBank : Nat := 0
  rxBase : Nat := 0
  rxUnitFlits : Nat := 1
  rxUnits : Nat := 1
  evBank : Nat := 0
  evBase : Nat := 0
  paramBase : Nat := 0
  paramLength : Nat := 0
  stateBank : Nat := 0
  stateBase : Nat := 0
  stateLength : Nat := 0
  /-- flow number, Kind, target stage (R295) -/
  flows : List (Nat × Nat × Nat) := []
  /-- the first flit sent of the record in progress gives its header (R293) -/
  record : List Nat := []
  deriving DecidableEq, Repr

/-- An engine before anything has happened: slot 16 of each cluster is the spare (R242). -/
def engineDefault (e : Nat) : Engine := { st := if e % 17 = 16 then 4 else 0 }

end Sys2Proof.Machine
end

