-- ==== Sys2Proof/Machine/IngestState.lean ====
section
/-! DEFINITION. State of the ingest links, the ingest channels, the level chain, the Polder, the trigger fabric, the pattern units, TRIG_OUT and the primitive stream that no dictionary object holds (spec/03_ingest.md, spec/05_triggers.md). -/

namespace Sys2Proof.Machine

/-- One ingest link. -/
structure LinkState where
  /-- what a read of Apply returns; none before any -/
  applyResult : Option Nat := none
  /-- applied with a non-zero LaneCount -/
  applied : Bool := false
  /-- a relink is in progress (R100) -/
  relinking : Bool := false
  /-- T_LEMC of a subclass 0 link, device time in u_T (R87) -/
  tLemc : Nat := 0
  /-- latest lane arrival measured at alignment, u_T -/
  latest : Nat := 0
  /-- ReleaseDelay in force, the object's or the one bring-up chose (R84) -/
  release : Nat := 0
  /-- the samples of the multiblock in progress carry CrcError, and are substituted (R100) -/
  crcBad : Bool := false
  crcSubst : Bool := false
  /-- CrcErrors before the multiblock in progress (R102) -/
  crcWas : Nat := 0
  /-- AlignLatency of the last bring-up since the latest Apply (R580) -/
  lastAlign : Option Nat := none
  deriving DecidableEq, Repr

/-- A 64-byte block of a channel ring: tag, flags (bits [3:0] as R121: 0 CrcError, 1 Substituted, 2 Clip, 3 Overrange; bit 4 Damaged)
and samples, oldest first, each its stamp and its r16 or c16 word. -/
structure PBlock where
  tag : Nat
  flags : Nat
  samples : List (Nat × Nat)
  /-- indices of the samples at a full-scale code or with the over-range bit (R94, R211) -/
  hot : List Nat := []
  deriving DecidableEq, Repr

/-- A consumer of a channel ring (R97-R99). -/
structure Consumer where
  slot : Nat
  /-- stage number; 255 is the record drain -/
  stage : Nat
  bound : Nat
  readPos : Nat
  detached : Bool := false
  deriving DecidableEq, Repr

/-- One ingest channel: level chain and Polder ring. -/
structure ChanState where
  /-- level settings in force (R95): L, mode, interval, attack, release -/
  length : Nat := 1024
  mode : Nat := 0
  interval : Nat := 65536
  attack : Nat := 2
  release : Nat := 10
  /-- a level object was written since the settings in force began (R95) -/
  written95 : Bool := false
  /-- substitution has ended on the link and goes on to the block boundary (R100) -/
  toBoundary : Bool := false
  /-- level-condition settings in force (R140) -/
  condLine : Nat := 0xFFFF
  condSource : Nat := 0
  condHigh : Nat := 0
  condLow : Nat := 0
  /-- p of the fresh samples of the moving window or of the block, newest first (R90, R91) -/
  window : List Nat := []
  /-- samples of the interval or block taken so far, in the grid (R581) -/
  pos : Nat := 0
  /-- fresh samples since the sum last restarted, up to L (Valid, R94) -/
  freshN : Nat := 0
  peak : Nat := 0
  /-- envelope with 8 fraction bits (R93) -/
  envQ : Nat := 0
  clipLive : Bool := false
  overLive : Bool := false
  /-- a substituted sample lies in the interval -/
  substIn : Bool := false
  lastStamp : Nat := 0
  /-- DumpRestart waits for the first sample with stamp at or after this time (R92) -/
  restartAt : Option Nat := none
  /-- samples of the Polder block being filled, oldest first (stamp, word), and its flags -/
  partial64 : List (Nat × Nat) := []
  partialHot : List Nat := []
  blockFlags : Nat := 0
  /-- filled blocks that wait for their time slot, oldest first -/
  filled : List PBlock := []
  /-- the ring's newest blocks, oldest first, octets written so far and its size in granules -/
  ring : List PBlock := []
  written : Nat := 0
  granules : Nat := 0
  consumers : List Consumer := []
  /-- calibration substitutes the channel's samples (R532) -/
  calSubst : Bool := false
  deriving DecidableEq, Repr

/-- One condition line (R128-R133). -/
structure Line where
  /-- 0 none, 1 pipeline, 2 level, 3 import -/
  cls : Nat := 0
  src : Nat := 0
  /-- L_line and LineSpacing, u_T -/
  latency : Nat := 0
  spacing : Nat := 0
  fault : Bool := false
  untimed : Bool := false
  /-- when `untimed` took which value, newest first: condition time, value (R154) -/
  untimedLog : List (Nat × Bool) := []
  edges : Nat := 0
  /-- changes, newest first: condition time, value -/
  changes : List (Nat × Bool) := []
  lastRise : Option Nat := none
  deriving DecidableEq, Repr

/-- One pattern unit (R142-R145). -/
structure PatState where
  /-- start of the open match interval, and whether it has triggered -/
  start : Option Nat := none
  fired : Bool := false
  tLast : Option Nat := none
  /-- latest condition time evaluated -/
  evalAt : Nat := 0
  /-- boundaries of replacements at which the qualification restarts (R69) -/
  restarts : List Nat := []
  deriving DecidableEq, Repr

/-- One TRIG_OUT (R146, R147): pulses to start, in time order, and the pulse being driven, each (start, end) in u_T. -/
structure TrigOutState where
  waiting : List (Nat × Nat) := []
  active : Option (Nat × Nat) := none
  deriving DecidableEq, Repr

/-- One stream lane (R148-R153). -/
structure LaneStream where
  /-- the start of the first sendable tick (R153) -/
  firstTick : Nat := 0
  /-- the last tick start sent -/
  lastTick : Option Nat := none
  /-- triggers routed to the lane and not yet sent: unit, t_trig, Excluded, Fault -/
  triggers : List (Nat × Nat × Bool × Bool) := []
  /-- the last second whose TimeMark was sent -/
  lastMark : Option Nat := none
  deriving DecidableEq, Repr

/-- State of a Weir for one channel (R134). -/
structure WeirState where
  run : Nat := 0
  rel : Nat := 0
  violating : Bool := false
  /-- the line is up since before a commit boundary (R139) -/
  carried : Bool := false
  /-- a frame has been evaluated since the latest boundary -/
  begun : Bool := false
  deriving DecidableEq, Repr

end Sys2Proof.Machine
end

