-- ==== Sys2Proof/Machine/IoState.lean ====
section
/-! DEFINITION. State of the display, the transfer engine, the host link, the stream rings and the storage ports that no dictionary object holds (spec/13_transfer.md, spec/14_host_storage.md, spec/22_display.md). -/

namespace Sys2Proof.Machine

/-- The display output (R540-R552). -/
structure DisplayState where
  /-- level of EDP_HPD -/
  hpd : Bool := false
  /-- the sink's DPCD reports PSR -/
  psrSink : Bool := false
  /-- link rate index in use, and consecutive training failures -/
  rate : Nat := 0
  trainFails : Nat := 0
  /-- S of the latest frame, device time in u_T; none before the first -/
  start : Option Nat := none
  /-- pending buffer and the arrival of its Commit -/
  pending : Option (Nat × Nat) := none
  /-- the next start is the one that training or a wake from PSR gives: the pending buffer is shown from it -/
  resume : Bool := false
  /-- frames started since the latest one that showed a new commit -/
  quiet : Nat := 0
  /-- a frame is on screen, and Enable has become FALSE in it -/
  inFrame : Bool := false
  closing : Bool := false
  /-- octets of the frame fetched, the latest line counted as an underrun, octets of an unfinished pixel, and the CRC register -/
  fetched : Nat := 0
  blackLine : Option Nat := none
  partialPx : Bytes := []
  crc : Nat := 0xFFFFFFFF
  /-- the frame is excluded from the comparison (R546) -/
  excluded : Bool := false
  mismatches : Nat := 0
  /-- charge in force, B/s and mW (R544) -/
  charge : Nat := 0
  powerMw : Nat := 0
  deriving DecidableEq, Repr

/-- One read in flight of a transfer channel: source address, length, its data once complete. -/
structure XRead where
  addr : Nat
  len : Nat
  data : Option Bytes
  deriving DecidableEq, Repr

/-- One channel of the transfer engine (R333-R349). -/
structure XferCh where
  /-- 0 none, 1 stream consumer, 2 storage consumer, 3 drive reader, 4 display fetch -/
  role : Nat := 0
  /-- stream ring or slot the role serves -/
  target : Nat := 0
  /-- charged rate, B/s -/
  rate : Nat := 0
  reads : List XRead := []
  /-- octets read and not yet written, oldest first -/
  staged : Bytes := []
  /-- writes queued at a bank and not yet issued -/
  writes : Nat := 0
  /-- a source range still to be requested -/
  toRead : Nat := 0
  aborting : Bool := false
  /-- ages at the two ports (R65) -/
  age0 : Nat := 0
  age1 : Nat := 0
  /-- outstanding request: beats of its burst; the beats left of the burst being moved -/
  req : Option Nat := none
  burst : Nat := 0
  /-- the burst's request was withdrawn after its first beat, or granted -/
  granted : Bool := false
  /-- port and axis time of the latest beat slot taken (R340) -/
  took : Option (Nat × Nat) := none
  deriving DecidableEq, Repr

/-- A page or unit being filled (R359-R361, R373). -/
structure OpenPage where
  num : Nat
  payload : Bytes := []
  continuedFrom : Bool := false
  restart : Bool := false
  firstOffset : Option Nat := none
  starts : Nat := 0
  firstSeq : Nat := 0
  firstTime : Nat := 0
  drops : Nat := 0
  deriving DecidableEq, Repr

/-- One stream ring (R359-R367). -/
structure StreamState where
  /-- what a read of Validate returns; none before any -/
  validated : Option Nat := none
  page : Option OpenPage := none
  /-- the next page is the first after a start or restart -/
  fresh : Bool := true
  /-- the open page is to be closed with Abandon when the ring next takes data (R364) -/
  abandon : Bool := false
  /-- closes since the vector was raised, and the axis time of the first of them -/
  unsignalled : Nat := 0
  since : Nat := 0
  /-- Sequence of the latest record started, and drops carried to the next page -/
  lastSeq : Option Nat := none
  carry : Nat := 0
  deriving DecidableEq, Repr

/-- The host link (R351-R358). -/
structure HostState where
  /-- Bus Master Enable -/
  bme : Bool := false
  retrain : Bool := false
  deriving DecidableEq, Repr

/-- A command to a drive (R369): opcode 1 Write, 2 Read, 0 Flush, 9 Dataset Management, and by numbers of the model (DESIGN CHOICE, log entry 170) 256 Identify, 257
and 258 the error and the SMART log page, 259 and 260 create and delete the queues; slot and unit it belongs to; whether it has been retried; Force Unit
Access. -/
structure NCmd where
  op : Nat
  lba : Nat := 0
  blocks : Nat := 0
  slot : Nat := 0xFF
  unitIndex : Nat := 0
  retried : Bool := false
  fua : Bool := false
  deriving DecidableEq, Repr

/-- One storage port and its drive. -/
structure DriveState where
  /-- commands outstanding (at most 16) and waiting, oldest first -/
  out : List NCmd := []
  queue : List NCmd := []
  /-- what a read of Qualify, of Reinstate returns; none before any -/
  qualifyResult : Option Nat := none
  reinstateResult : Option Nat := none
  /-- data units of the data area, and the unit after the last one written -/
  units : Nat := 0
  next : Nat := 0
  deriving DecidableEq, Repr

/-- A unit written and not yet completed on its drive (R376): its index, drive, data-area unit, commands left, octets of the record
stream in it, its payload and whether it is Rewritten. -/
structure WUnit where
  index : Nat
  port : Nat
  place : Nat
  left : Nat
  octets : Nat
  page : OpenPage
  flags : Nat
  deriving DecidableEq, Repr

/-- A directory entry (R372). -/
structure DirEntry where
  number : Nat
  st : Nat
  slot : Nat
  ports : Nat
  lost : Nat := 0
  admittedAt : Nat := 0
  firstTime : Nat := 0
  lastTime : Nat := 0
  units : Nat := 0
  firstSeq : Nat := 0
  lastSeq : Nat := 0
  dropped : Nat := 0
  entrySeq : Nat := 0
  /-- per port: first unit and units -/
  extents : List (Nat × Nat) := []
  deriving DecidableEq, Repr

/-- An open recording of a slot (R373-R378). -/
structure Recording where
  number : Nat
  unitIndex : Nat := 0
  page : Option OpenPage := none
  /-- ports of the rotation and its counters -/
  ports : List Nat
  credit : Tab Int := []
  /-- the drive the unit in progress goes to -/
  port : Nat := 0
  /-- octets taken from the consumer's records into units and not yet passed -/
  ahead : Nat := 0
  pendingUnits : List WUnit := []
  lastSeq : Option Nat := none
  carry : Nat := 0
  /-- axis time of the latest record (R373) -/
  recordAt : Nat := 0
  /-- Sequence and Time of the first record, and of the latest record written whole -/
  first : Option (Nat × Nat) := none
  latest : Option (Nat × Nat) := none
  /-- no more units are taken: the recording waits for its last units -/
  closing : Bool := false
  deriving DecidableEq, Repr

/-- The drive set (R371-R377). -/
structure StoreSetState where
  directory : List DirEntry := []
  recordings : Tab (Option Recording) := []
  deriving DecidableEq, Repr

end Sys2Proof.Machine
end

