-- ==== Sys2Proof/Machine/LifeState.lean ====
section
/-! DEFINITION. State of the steward, the dictionary service, the Pantry, fault handling, power and wake that no dictionary object holds (spec/18_dictionary.md, spec/19_power.md, spec/20_lifetime.md). -/

namespace Sys2Proof.Machine

/-- One FaultLog entry (R520). -/
structure FaultEntry where
  time : Nat
  detail : Nat
  seq : Nat
  flags : Nat
  slot : Nat
  unit : Nat
  cause : Nat
  cls : Nat
  deriving DecidableEq, Repr

/-- One remembered request tag (R455). -/
structure TagEntry where
  tag : Nat
  key : Nat
  crc : Nat
  code : Nat
  /-- axis time of the response -/
  time : Nat
  deriving DecidableEq, Repr

/-- The read latch of a transport (R458). -/
structure Latch where
  client : Nat
  key : Nat
  data : Bytes
  /-- axis time of its latest read -/
  used : Nat
  deriving DecidableEq, Repr

/-- The staging buffer of a transport, held by a client (R458). -/
structure Staging where
  client : Nat
  /-- index and subindex, with the target's position times 2^24 for a value to be forwarded -/
  key : Nat
  data : Bytes
  /-- axis time of its latest segment -/
  used : Nat
  deriving DecidableEq, Repr

/-- A request the lead has forwarded and not yet answered (R465, R466). -/
structure Forwarded where
  target : Nat
  transport : Nat
  client : Nat
  /-- the Submit to answer on window A -/
  submit : Nat
  /-- a read, and not a write -/
  read : Bool
  tag : Nat
  /-- axis time of the forwarding, of its latest segment where there are several -/
  sentAt : Nat
  /-- the segments not yet sent, header and data: each follows the response of the one before (R458, R465) -/
  rest : List (Nat × Bytes) := []
  deriving DecidableEq, Repr

/-- The response of the latest dictionary request: window A's response header, a USDO response, or a forwarded
response (R457). -/
structure Response where
  transport : Nat
  client : Nat
  code : Nat
  totalLength : Nat := 0
  offset : Nat := 0
  tag : Nat := 0
  duplicate : Bool := false
  more : Bool := false
  done : Nat := 0
  data : Bytes := []
  deriving DecidableEq, Repr

/-- The dictionary service (R446-R466) and the CAN FD interface (R459-R463). -/
structure DictState where
  /-- remembered tags, oldest first, per transport * 2^32 + client (R455) -/
  tags : Tab (List TagEntry) := []
  /-- the latch of each transport: 0 PCIe, 1 CAN FD, 2 join (R458) -/
  latch : Tab (Option Latch) := []
  /-- the staging buffer of each transport -/
  staging : Tab (Option Staging) := []
  /-- the client whose staged write was emptied after 1 s, per transport -/
  stagingLost : Tab (Option Nat) := []
  /-- the previous Submit of window A (R457) -/
  lastSubmit : Nat := 0
  /-- a window A request is taken and not yet answered -/
  busySubmit : Option Nat := none
  /-- the latest response; none while none has been sent or the latest transaction had none (R28) -/
  response : Option Response := none
  /-- a write whose checks leave a readout behind aborts with this code (R544) -/
  abortWith : Option Nat := none
  /-- requests the lead forwarded, oldest first -/
  forwarded : List Forwarded := []
  /-- NodeId, nominal and data rate in force on the field network (R460) -/
  nodeId : Nat := 127
  nominal : Nat := 1
  dataRate : Nat := 2
  /-- the ports that are bus-off, bit k for CANk (R459) -/
  busOff : Nat := 0
  /-- EMCY frames waiting for the inhibit time, oldest first, at most 16 (R462) -/
  emcyQueue : List FaultEntry := []
  /-- the EMCY inhibit time runs -/
  emcyInhibit : Bool := false
  /-- act objects whose result no register holds, started since power-up (R450) -/
  acted : List Nat := []
  deriving DecidableEq, Repr

/-- A kept copy of the Pantry (R512). -/
structure KeptCopy where
  seq : Nat
  digest : Nat
  secs : Nat
  length : Nat
  entries : List (Nat × Bytes)
  /-- Magic and CRC-32 pass -/
  good : Bool := true
  deriving DecidableEq, Repr

/-- A root word (R514). -/
structure RootWord where
  seq : Nat
  copy : Nat
  slot : Nat
  deriving DecidableEq, Repr

/-- The Pantry (R511-R516) and firmware slots (R508, R509). -/
structure PantryState where
  copyA : Option KeptCopy := none
  copyB : Option KeptCopy := none
  rootA : Option RootWord := none
  rootB : Option RootWord := none
  /-- the copy a keep is writing -/
  keeping : Option KeptCopy := none
  /-- images of the two firmware slots; none is what production left there -/
  slot0 : Option Bytes := none
  slot1 : Option Bytes := none
  /-- the slot that runs, the one a restart in progress starts, and the axis time of the swap of a trial -/
  running : Nat := 0
  swapTo : Option Nat := none
  trialAt : Nat := 0
  /-- lockstep restarts in the trial (R509) -/
  trialRestarts : Nat := 0
  /-- entries of the sentinel's own log and the abandoned-keep records: kind, detail -/
  log : List (Nat × Nat) := []
  /-- the values restore could not apply until the automatic steps -/
  restoring : List (Nat × Bytes) := []
  /-- the automatic step of R453 in progress, 0 none -/
  autoStep : Nat := 0
  autoItem : Nat := 0
  /-- axis time at which it began, and whether a steward restart makes it begin again (R574) -/
  autoAt : Nat := 0
  autoAgain : Bool := false
  deriving DecidableEq, Repr

/-- The steward pair and its comparator (R28, R29, R504-R506), and the sentinel's poll (R507). -/
structure StewardState where
  restarting : Bool := false
  /-- a transaction was in progress when the restart began -/
  dropped : Bool := false
  /-- axis times of the restarts of the last 60 s, newest first -/
  restartTimes : List Nat := []
  /-- axis time of the latest checkpoint -/
  checkpointAt : Nat := 0
  /-- rail under test, 0 or 1 -/
  testRail : Nat := 0
  /-- consecutive passing self-tests -/
  passed : Nat := 0
  /-- a rail does not flag: the comparison continues on the other -/
  deadRail : Option Nat := none
  sentinelRestarting : Bool := false
  deriving DecidableEq, Repr

/-- A fault migration (R500) of what one pipeline has in one cluster: the engines affected, G_s, the channels or inputs they
serve, the Sequence of the FaultLog entry, and once chosen the engines' targets and G_e. -/
structure Migration where
  slot : Nat
  affected : List Nat
  gs : Nat
  channels : List Nat
  entry : Nat
  targets : List (Nat × Nat)
  ge : Option Nat
  /-- Pulse inputs of which only the measure stage is affected (R216) -/
  measure : List Nat := []
  /-- a crossbar, cluster-port or map-update fault: every engine and map slice of the cluster (R500) -/
  whole : Bool := false
  deriving DecidableEq, Repr

/-- Fault reporting, Dike rings and the ageing planner (R499-R521). -/
structure LifeState where
  faultLog : List FaultEntry := []
  /-- entries since power-up -/
  faultCount : Nat := 0
  /-- entries counted as read -/
  acked : Nat := 0
  /-- ClusterState (R521), 0 normal -/
  clusterState : Tab Nat := []
  /-- QuadState -/
  quadState : Tab Nat := []
  /-- Corrected and Uncorrected of Diagnostics, by structure 0-6 -/
  corrected : Tab Nat := []
  uncorrected : Tab Nat := []
  /-- migrations in progress, by cluster * 64 + slot -/
  migrations : Tab (Option Migration) := []
  /-- axis time of an engine's latest passed test (R502) -/
  testPassed : Tab (Option Nat) := []
  /-- the engines on which planned retirements run, each with its target -/
  retiring : List (Nat × Nat) := []
  /-- the slot of a cluster's spare (R242, R502) -/
  spareSlot : Tab Nat := []
  retireResult : Option Nat := none
  planResult : Option Nat := none
  /-- what a read of Check returns; none before any -/
  checkResult : Option Nat := none
  /-- engines whose test of R502 is due or runs, and whether it covers the cluster's crossbar and pool -/
  testing : Tab Nat := []
  /-- engines that their watchdog has halted and that wait for their diagnosis (R66) -/
  tripped : List Nat := []
  /-- CorrectedCount of every pseudo-channel at the latest plan (R518) -/
  corrAtPlan : Tab Nat := []
  /-- the planner waits for an operating-point change to end before its own (R523) -/
  planPoint : Bool := false
  /-- milliseconds in Run, and of those with a die above 95 °C, since ServiceHours and HoursHot last counted one (R519; DESIGN CHOICE, log entry 174) -/
  runMs : Nat := 0
  hotMs : Nat := 0
  deriving DecidableEq, Repr

/-- A Stop entry in progress (R489). -/
structure StopEntry where
  cause : Nat
  /-- axis time t0 -/
  at0 : Nat
  /-- StopGrace is over and the shutdown proceeds -/
  down : Bool
  deriving DecidableEq, Repr

/-- An operating-point change in progress (R482). -/
structure OpChange where
  target : Nat
  /-- the planned VCORE before it, mV -/
  old : Nat
  up : Bool
  vok : Bool := false
  switched : Bool := false
  deriving DecidableEq, Repr

/-- Power states, rails, domains, ledger and wake (R471-R498). -/
structure PowerState where
  /-- VAON is applied -/
  vaon : Bool := true
  /-- Run (R471) -/
  run : Bool := true
  /-- PWR_GOOD_OUT -/
  pwrGood : Bool := true
  /-- rails connected so far, in the order of R473, 0-8 -/
  rails : Nat := 8
  /-- the steward serves the dictionary (R494) -/
  stewardUp : Bool := true
  /-- consecutive power-up faults (R474) -/
  upFaults : Nat := 0
  /-- a retry is due 1 s after a power-up fault -/
  retryDue : Bool := false
  stopEntry : Option StopEntry := none
  /-- a Stop request that waits for an operating-point change or for RestoreState Complete (R498, R574): its cause -/
  stopWaits : Option Nat := none
  /-- what a read of Stop returns; none before any -/
  stopResult : Option Nat := none
  /-- STOP_REQ_N is low after a refusal (R488) -/
  stopReqLow : Bool := false
  /-- wake sources latched during Stop entry (R493), bit k - 1 for source k, and the CAN frame that matched -/
  wakeLatched : Nat := 0
  wakeFrame : Bytes := []
  /-- domains whose transfers are being drained before they go down (R348) -/
  draining : List Nat := []
  change : Option OpChange := none
  /-- the operating point whose f_E is selected (R481) -/
  selected : Nat := 2
  /-- the planned value of VCORE that the regulator was last told, mV -/
  target : Nat := 650
  /-- coefficients, by term * 3 + point (R58), when below their ceilings, and the largest value fitted for each -/
  coeff : Tab (Option Nat) := []
  fitted : Tab Nat := []
  /-- read-back of the VCORE current, mA, and the status faults last seen (R479) -/
  avsCurrent : Nat := 0
  avsFaults : Nat := 0
  /-- sums of the 1 ms window per rail of R39, mW, and its samples -/
  railSum : Tab Int := []
  windowN : Nat := 0
  /-- energy below 1 mJ, uJ -/
  energyUj : Nat := 0
  /-- ShuntMap in force, and the one that a write brings from the next window (R484) -/
  shunt : Bytes := []
  /-- 1 ms windows of the 100 ms window in progress -/
  windows : Nat := 0
  /-- the window is excluded from the fit (R485) -/
  excluded : Bool := false
  /-- the last 64 windows of 100 ms, newest first: usable for the fit -/
  usable : List Bool := []
  /-- the second whose first over-envelope window made a FaultLog entry (R487) -/
  overSecond : Option Nat := none
  /-- switched rails that have left their Run window (R474), by step of R473 -/
  railsOut : Nat := 0
  /-- consecutive restarts of AUX_LDO[0], [1] (R495) -/
  auxTries : Tab Nat := []
  deriving DecidableEq, Repr

end Sys2Proof.Machine
end

