-- ==== Sys2Proof/Machine/MemState.lean ====
section
/-! DEFINITION. State of the HBM controllers that no dictionary object holds (spec/12_memory.md). -/

namespace Sys2Proof.Machine

/-- A best-effort access that waits in a bank queue (R318): who asked, its tag, device address, write data or none for a read. -/
structure BAccess where
  client : Nat
  tag : Nat
  da : Nat
  len : Nat
  write : Option Bytes
  /-- how often it has lost (R65) -/
  age : Nat := 0
  /-- a read whose row matched that of an earlier queued write (R320) -/
  hazard : Bool := false
  deriving DecidableEq, Repr

/-- One bank (R318-R320). -/
structure Bank where
  /-- open row, and the axis time of its latest access -/
  row : Option Nat := none
  lastAt : Nat := 0
  /-- the last 4 best-effort outcomes, newest in bit 0 (R319) -/
  hist : Nat := 0
  /-- waiting accesses in order of arrival, each with its age (R65) -/
  queue : List BAccess := []
  /-- in-order mode (R320) -/
  inOrder : Bool := false
  deriving DecidableEq, Repr

/-- One physical pseudo-channel. -/
structure PcState where
  /-- axis time of the freeze -/
  frozenAt : Nat := 0
  /-- axis time of the latest pass of a test (R325) -/
  passedAt : Option Nat := none
  /-- what a read of Retire returns; none before any -/
  retireResult : Option Nat := none
  /-- axis time of the latest access -/
  usedAt : Nat := 0
  deriving DecidableEq, Repr

end Sys2Proof.Machine
end

