-- ==== Sys2Proof/Config.lean ====
section
/-! DEFINITION. What one part fixes and the spec does not, and the free values: constants without a value, so that a statement holds whatever they are. -/

namespace Sys2Proof

/-- SerialNumber, unique per device (spec/00_scope.md R3). DESIGN CHOICE, log entry 2. -/
opaque Config.serialNumber : BitVec 64
/-- Variant, per part (R3). DESIGN CHOICE, log entry 2. -/
opaque Config.variant : BitVec 1
/-- SchemaDigest, per firmware (spec/18_dictionary.md R467). DESIGN CHOICE, log entry 2. -/
opaque Config.schemaDigest : BitVec 32
/-- FirmwareVersion, per firmware (R464). DESIGN CHOICE, log entry 2. -/
opaque Config.firmwareVersion : BitVec 32
/-- SoftwareVersion, per firmware (R463). DESIGN CHOICE, log entry 2. -/
opaque Config.softwareVersion : List Byte
/-- A free value: `tag` names the place that reads it, `i` is the state's running count of free values taken. -/
opaque Config.free (tag i : Nat) : Nat
/-- What a counter of the dictionary holds after it has reached the top of its width and is counted once more, where
the spec states no result. DESIGN CHOICE, log entry 4. -/
opaque Config.counterPastTop (key : Nat) : Nat

/-- L_line and LineSpacing of a line of another device, u_T (spec/15_arrays.md R129, R404): no message carries them. Log entry 26. -/
opaque Config.remoteLatency (pos line : Nat) : Nat
opaque Config.remoteSpacing (pos line : Nat) : Nat
/-- CableBound of a hop that this device does not measure, by the sender and its port, u_T (R404). Log entry 26. -/
opaque Config.remoteBound (pos port : Nat) : Nat
/-- ConfigDigest that a position without a direct link reports (R396, R409): no message carries it. Log entry 26. -/
opaque Config.remoteDigest (pos digest : Nat) : Nat

/-- The static charge of R57 without BestEffortAllowance, mW, per operating point and its planned VCORE in mV: not given. DESIGN CHOICE, log entry 13. -/
opaque Config.staticBase (point vcore : Nat) : Nat
/-- The production ceiling of a coefficient of R57, per term (0-4), operating point and its planned VCORE in mV: not given. Log entry 13. -/
opaque Config.coeffCeiling (term point vcore : Nat) : Nat
/-- StateDigest (R52): the digest's algorithm is not given; it is a function of what it identifies. Log entry 14. -/
opaque Config.stateDigest (placements : List Nat) : BitVec 32

/-- What placement chooses where R52 leaves the algorithm open: deterministic in the device's StateDigest, the slot, a place and an
index. Log entry 27. -/
opaque Config.choice (digest slot tag i : Nat) : Nat

/-- Memory accesses per frame that admission charges for a stage of R57, by image and worst-case cycles: not given. Log entry 28. -/
opaque Config.memoryAccesses (image worst : Nat) : Nat

/-- The resident microimages and nanoimages 48-63 of the steward firmware (spec/11_microcode.md R297): of a FirmwareVersion: their octets are not given.
DESIGN CHOICE, log entry 15. -/
opaque Config.residentMicro (version i : Nat) : List Byte
opaque Config.residentNano (version i : Nat) : List Byte

/-- The production values of the housekeeping correction: 64 offsets and 64 gains (spec/21_calibration_housekeeping.md R529). Log entry 2. -/
opaque Config.hkOffsets : List Byte
opaque Config.hkGains : List Byte
/-- The production curve of a temperature sensor in 1/16 °C, and the supply a monitor reads in mV (R525), of a corrected code. Log
entry 2. -/
opaque Config.sensorCurve (channel code : Nat) : Int
opaque Config.supplyMillivolts (channel code : Nat) : Nat
/-- The at-most current of VAON in Run times its voltage, mW: R39 states none. Log entry 31. -/
opaque Config.vaonMilliwatts : Nat

/-- What a GroupCommit DOMAIN of some octets names (spec/02_contracts.md R60, R71), whose layout is not given: the commit time as TIME128,
the own slots as a bit map, and the other positions with theirs. Log entry 41. -/
opaque Config.groupTime (data : List Byte) : Nat
opaque Config.groupSlots (data : List Byte) : Nat
opaque Config.groupOthers (data : List Byte) : List (Nat × Nat)

/-- A field of a firmware image (R508), whose layout is not given: 0 Magic, 1 Stepping, 2 Crc32, 3 FirmwareVersion, 4 SchemaDigest. Log
entry 36. -/
opaque Config.firmwareField (k : Nat) (image : List Byte) : Nat
/-- The CRC-32 that a firmware image should carry (R508). Log entry 36. -/
opaque Config.firmwareCrc (image : List Byte) : Nat

end Sys2Proof
end

