-- ==== Sys2Proof/Machine/Bits.lean ====
section
/-! DEFINITION. Bit fields, two's complement, octet order (R11, R448), exact division and roots (R17). -/

namespace Sys2Proof.Machine

/-- The field [hi:lo] of `n` (R10: both ends included). -/
def bits (n hi lo : Nat) : Nat := n / 2 ^ lo % 2 ^ (hi + 1 - lo)

/-- Bit `i` of `n`. -/
def bit (n i : Nat) : Bool := n / 2 ^ i % 2 == 1

/-- `n` with bit `i` set to `b`. -/
def setBit (n i : Nat) (b : Bool) : Nat :=
  if bit n i = b then n else if b then n + 2 ^ i else n - 2 ^ i

/-- `n` with the field [hi:lo] replaced by `v`. -/
def setBits (n hi lo v : Nat) : Nat :=
  n - bits n hi lo * 2 ^ lo + v % 2 ^ (hi + 1 - lo) * 2 ^ lo

/-- 1 for true, 0 for false. -/
def b2n (b : Bool) : Nat := if b then 1 else 0

/-- The two's complement value of the low `w` bits of `n`. -/
def sint (w n : Nat) : Int :=
  let m := n % 2 ^ w
  if m < 2 ^ (w - 1) then (m : Int) else (m : Int) - (2 ^ w : Nat)

/-- The low `w` bits of the two's complement form of `i`. -/
def uint (w : Nat) (i : Int) : Nat := (i % (2 ^ w : Nat)).toNat

/-- `i` clamped to lo..hi. -/
def clampI (lo hi i : Int) : Int := if i < lo then lo else if hi < i then hi else i

/-- The `k` octets of `n`, least significant first (R11). -/
def leBytes : Nat → Nat → Bytes
  | 0, _ => []
  | k + 1, n => BitVec.ofNat 8 n :: leBytes k (n / 256)

/-- The number whose octets are `bs`, least significant first (R11). -/
def leNat : Bytes → Nat
  | [] => 0
  | b :: bs => b.toNat + 256 * leNat bs

/-- `k` octets of `bs` from offset `o` as a number. -/
def leAt (bs : Bytes) (o k : Nat) : Nat := leNat ((bs.drop o).take k)

/-- A structure laid out from bit `total - 1` down to bit 0 and stored least significant octet first:
the field [hi:lo] of an octet block. -/
def fieldOf (bs : Bytes) (hi lo : Nat) : Nat := bits (leNat bs) hi lo

/-- Number of set bits among the low `w` bits. -/
def popcount : Nat → Nat → Nat
  | 0, _ => 0
  | w + 1, n => n % 2 + popcount w (n / 2)

/-- The lowest set bit among the low `w` bits, from `i` on. -/
def lowestBit : Nat → Nat → Nat → Option Nat
  | 0, _, _ => none
  | w + 1, i, n => if n % 2 = 1 then some i else lowestBit w (i + 1) (n / 2)

/-- The numbers below `w` whose bit is set in `n`. -/
def bitsSet (w n : Nat) : List Nat := (List.range w).filter fun i => bit n i

/-- ceil(a / b), 0 for b = 0. -/
def ceilDiv (a b : Nat) : Nat := if b = 0 then 0 else (a + b - 1) / b

/-- R17: `/` on integers truncates toward zero. -/
def tdiv (a b : Int) : Int := Int.tdiv a b

/-- floor(a / b) on integers, b positive. -/
def fdiv (a b : Int) : Int := Int.fdiv a b

/-- a / b rounded to the nearest, halves away from zero. -/
def roundHalfAway (a : Int) (b : Nat) : Int :=
  if 0 ≤ a then Int.fdiv (2 * a + b) (2 * b) else - Int.fdiv (2 * (-a) + b) (2 * b)

/-- R17: `>>` on a signed value is an arithmetic shift. -/
def asr (a : Int) (k : Nat) : Int := Int.fdiv a (2 ^ k : Nat)

/-- The largest r with r * r ≤ n, found bit by bit from bit k - 1 down. -/
def isqrtFrom : Nat → Nat → Nat → Nat
  | 0, _, r => r
  | k + 1, n, r => if (r + 2 ^ k) * (r + 2 ^ k) ≤ n then isqrtFrom k n (r + 2 ^ k) else isqrtFrom k n r

/-- floor(sqrt(n)). -/
def isqrt (n : Nat) : Nat := isqrtFrom (Nat.log2 n / 2 + 1) n 0

/-- floor(log2(n)), 0 for 0. -/
def flog2 (n : Nat) : Nat := Nat.log2 n

/-- Is `n` a power of two? -/
def isPow2 (n : Nat) : Bool := n != 0 && 2 ^ Nat.log2 n == n

/-- One step of a reflected CRC over one bit. -/
def crcBit (poly crc : Nat) : Nat := if crc % 2 = 1 then (crc / 2) ^^^ poly else crc / 2

/-- One octet into a reflected CRC. -/
def crcByte (poly crc : Nat) (b : Byte) : Nat :=
  let c0 := crc ^^^ b.toNat
  let c1 := crcBit poly (crcBit poly (crcBit poly (crcBit poly c0)))
  crcBit poly (crcBit poly (crcBit poly (crcBit poly c1)))

/-- A reflected CRC over octets. -/
def crcRefl (poly init xorOut : Nat) (bs : Bytes) : Nat :=
  (bs.foldl (crcByte poly) init) ^^^ xorOut

/-- One octet into an unreflected CRC of width `w`, most significant bit first. -/
def crcByteMsb (w poly crc : Nat) (b : Byte) : Nat :=
  let one := fun (c : Nat) => if bit c (w - 1) then ((c * 2) % 2 ^ w) ^^^ poly else (c * 2) % 2 ^ w
  let c0 := crc ^^^ (b.toNat * 2 ^ (w - 8))
  one (one (one (one (one (one (one (one c0)))))))

/-- An unreflected CRC over octets. -/
def crcMsb (w poly init : Nat) (bs : Bytes) : Nat := bs.foldl (crcByteMsb w poly) init

/-- CRC-32 of R222: IEEE 802.3, reflected, initial value all ones, result complemented. -/
def crc32 (bs : Bytes) : Nat := crcRefl 0xEDB88320 0xFFFFFFFF 0xFFFFFFFF bs

end Sys2Proof.Machine
end

