-- ==== Sys2Proof/Machine/Objects.lean ====
section
/-! DEFINITION. The object dictionary as the spec lays it out: one key (index * 256 + subindex) per object and one row with its type, access class, default, Kept mark and value range (spec/18_dictionary.md R446-R450, R469; the objects' own tables). -/

namespace Sys2Proof.Machine

/-- The data types of R448. -/
inductive Ty where
  | bool | u8 | u16 | u32 | u64 | i16 | i32 | i64 | str | dom | time | logp
  deriving DecidableEq, Repr

/-- The access classes of R450. -/
inductive Acc where
  | const | ro | rw | wo | rwq | act
  deriving DecidableEq, Repr

/-- The values an object accepts (R451 step 5): the ranges and reserved fields of its Meaning column. -/
inductive Rng where
  | any
  | le (hi : Nat)
  | between (lo hi : Nat)
  | oneOf (vs : List Nat)
  /-- a range, or the one value that means none -/
  | orNone (lo hi none' : Nat)
  | mask (m : Nat)
  deriving DecidableEq, Repr

/-- One row of the object maps: `count` objects at `base`, `base + stride`, ... -/
structure ObjRow where
  base : Nat
  count : Nat
  stride : Nat
  ty : Ty
  acc : Acc
  dflt : Nat
  kept : Bool
  rng : Rng

/-- Octets of a value of a type of fixed size (R448); none for strings and DOMAINs. -/
def Ty.size : Ty → Option Nat
  | .bool | .u8 => some 1
  | .u16 | .i16 | .logp => some 2
  | .u32 | .i32 => some 4
  | .u64 | .i64 => some 8
  | .time => some 16
  | .str | .dom => none

/-- Type codes of R448. -/
def Ty.code : Ty → Nat
  | .bool => 0x0001 | .i16 => 0x0003 | .i32 => 0x0004 | .u8 => 0x0005 | .u16 => 0x0006 | .u32 => 0x0007
  | .str => 0x0009 | .dom => 0x000F | .i64 => 0x0015 | .u64 => 0x001B | .time => 0x0040 | .logp => 0x0041

/-- Is the value in the range? -/
def Rng.holds : Rng → Nat → Bool
  | .any, _ => true
  | .le hi, v => decide (v ≤ hi)
  | .between lo hi, v => decide (lo ≤ v) && decide (v ≤ hi)
  | .oneOf vs, v => vs.contains v
  | .orNone lo hi z, v => (decide (lo ≤ v) && decide (v ≤ hi)) || v == z
  | .mask m, v => v &&& m == v

/-- Does the row hold the key? -/
def ObjRow.holds (r : ObjRow) (k : Nat) : Bool :=
  if r.count = 1 then k == r.base
  else decide (r.base ≤ k) && (k - r.base) % r.stride == 0 && decide ((k - r.base) / r.stride < r.count)

/-- 0x2000:01 PartNumber (00_scope.md R3). -/
abbrev Ob.devPartNumber : Nat := 0x200001
/-- 0x2000:02 Variant (00_scope.md R3). -/
abbrev Ob.devVariant : Nat := 0x200002
/-- 0x2000:03 Stepping (00_scope.md R3). -/
abbrev Ob.devStepping : Nat := 0x200003
/-- 0x2000:04 SerialNumber (00_scope.md R3). -/
abbrev Ob.devSerialNumber : Nat := 0x200004
/-- B+0x00:01 Mode (02_contracts.md R45). -/
abbrev Ob.slotMode (n : Nat) : Nat := 0x300001 + 0x2000 * n
/-- B+0x00:02 TrigHold (02_contracts.md R45). -/
abbrev Ob.slotTrigHold (n : Nat) : Nat := 0x300002 + 0x2000 * n
/-- B+0x00:03 EnergyClass (02_contracts.md R45). -/
abbrev Ob.slotEnergyClass (n : Nat) : Nat := 0x300003 + 0x2000 * n
/-- B+0x00:04 GapPermitted (02_contracts.md R45). -/
abbrev Ob.slotGapPermitted (n : Nat) : Nat := 0x300004 + 0x2000 * n
/-- B+0x00:05 LatencyTarget (02_contracts.md R45). -/
abbrev Ob.slotLatencyTarget (n : Nat) : Nat := 0x300005 + 0x2000 * n
/-- B+0x00:06 TriggerLatencyTarget (02_contracts.md R45). -/
abbrev Ob.slotTriggerLatencyTarget (n : Nat) : Nat := 0x300006 + 0x2000 * n
/-- B+0x00:07 LatencyPoint (02_contracts.md R45). -/
abbrev Ob.slotLatencyPoint (n : Nat) : Nat := 0x300007 + 0x2000 * n
/-- B+0x00:08 Replaces (02_contracts.md R45). -/
abbrev Ob.slotReplaces (n : Nat) : Nat := 0x300008 + 0x2000 * n
/-- B+0x00:09 AutoAdmit (02_contracts.md R45). -/
abbrev Ob.slotAutoAdmit (n : Nat) : Nat := 0x300009 + 0x2000 * n
/-- B+0x00:0A Admit (02_contracts.md R45). -/
abbrev Ob.slotAdmit (n : Nat) : Nat := 0x30000A + 0x2000 * n
/-- B+0x00:0B Withdraw (02_contracts.md R45). -/
abbrev Ob.slotWithdraw (n : Nat) : Nat := 0x30000B + 0x2000 * n
/-- B+0x00:0C State (02_contracts.md R45). -/
abbrev Ob.slotState (n : Nat) : Nat := 0x30000C + 0x2000 * n
/-- B+0x00:0D ReplayClass (02_contracts.md R45). -/
abbrev Ob.slotReplayClass (n : Nat) : Nat := 0x30000D + 0x2000 * n
/-- B+0x01:01 ChannelMask (02_contracts.md R45). -/
abbrev Ob.slotChannelMask (n : Nat) : Nat := 0x300101 + 0x2000 * n
/-- B+0x01:02 ReplaySource (02_contracts.md R45). -/
abbrev Ob.slotReplaySource (n : Nat) : Nat := 0x300102 + 0x2000 * n
/-- B+0x01:03 ReplayRate (02_contracts.md R45). -/
abbrev Ob.slotReplayRate (n : Nat) : Nat := 0x300103 + 0x2000 * n
/-- B+0x02:01 Geometry (02_contracts.md R45). -/
abbrev Ob.slotGeometry (n : Nat) : Nat := 0x300201 + 0x2000 * n
/-- B+0x03:01 OutputMask (02_contracts.md R45). -/
abbrev Ob.slotOutputMask (n : Nat) : Nat := 0x300301 + 0x2000 * n
/-- B+0x03:02 StreamRing (02_contracts.md R45). -/
abbrev Ob.slotStreamRing (n : Nat) : Nat := 0x300302 + 0x2000 * n
/-- B+0x03:03 StoragePorts (02_contracts.md R45). -/
abbrev Ob.slotStoragePorts (n : Nat) : Nat := 0x300303 + 0x2000 * n
/-- B+0x03:04 ConditionFirst (02_contracts.md R45). -/
abbrev Ob.slotConditionFirst (n : Nat) : Nat := 0x300304 + 0x2000 * n
/-- B+0x03:05 ConditionCount (02_contracts.md R45). -/
abbrev Ob.slotConditionCount (n : Nat) : Nat := 0x300305 + 0x2000 * n
/-- B+0x04:01 Stages (02_contracts.md R45). -/
abbrev Ob.slotStages (n : Nat) : Nat := 0x300401 + 0x2000 * n
/-- B+0x08:01 Epoch (02_contracts.md R47). -/
abbrev Ob.slotEpoch (n : Nat) : Nat := 0x300801 + 0x2000 * n
/-- B+0x08:02 LatencyBound (02_contracts.md R47). -/
abbrev Ob.slotLatencyBound (n : Nat) : Nat := 0x300802 + 0x2000 * n
/-- B+0x08:03 TriggerLatencyBound (02_contracts.md R47). -/
abbrev Ob.slotTriggerLatencyBound (n : Nat) : Nat := 0x300803 + 0x2000 * n
/-- B+0x08:04 InputRate (02_contracts.md R47). -/
abbrev Ob.slotInputRate (n : Nat) : Nat := 0x300804 + 0x2000 * n
/-- B+0x08:05 OutputRate (02_contracts.md R47). -/
abbrev Ob.slotOutputRate (n : Nat) : Nat := 0x300805 + 0x2000 * n
/-- B+0x08:06 WorstPower (02_contracts.md R47). -/
abbrev Ob.slotWorstPower (n : Nat) : Nat := 0x300806 + 0x2000 * n
/-- B+0x08:07 ValidDownTo (02_contracts.md R47). -/
abbrev Ob.slotValidDownTo (n : Nat) : Nat := 0x300807 + 0x2000 * n
/-- B+0x08:08 PolderResidence (02_contracts.md R47). -/
abbrev Ob.slotPolderResidence (n : Nat) : Nat := 0x300808 + 0x2000 * n
/-- B+0x08:09 AdmittedAt (02_contracts.md R47). -/
abbrev Ob.slotAdmittedAt (n : Nat) : Nat := 0x300809 + 0x2000 * n
/-- B+0x08:0A EngineCount (02_contracts.md R47). -/
abbrev Ob.slotEngineCount (n : Nat) : Nat := 0x30080A + 0x2000 * n
/-- B+0x09:01 Placement (02_contracts.md R47). -/
abbrev Ob.slotPlacement (n : Nat) : Nat := 0x300901 + 0x2000 * n
/-- B+0x0A:01 ResourceVector (02_contracts.md R47). -/
abbrev Ob.slotResourceVector (n : Nat) : Nat := 0x300A01 + 0x2000 * n
/-- 0x3800:01 Check (02_contracts.md R60). -/
abbrev Ob.admCheck : Nat := 0x380001
/-- 0x3800:02 LastCode (02_contracts.md R60). -/
abbrev Ob.admLastCode : Nat := 0x380002
/-- 0x3800:03 LastSlot (02_contracts.md R60). -/
abbrev Ob.admLastSlot : Nat := 0x380003
/-- 0x3800:04 LastUnit (02_contracts.md R60). -/
abbrev Ob.admLastUnit : Nat := 0x380004
/-- 0x3800:05 LastNeed (02_contracts.md R60). -/
abbrev Ob.admLastNeed : Nat := 0x380005
/-- 0x3800:06 LastAvail (02_contracts.md R60). -/
abbrev Ob.admLastAvail : Nat := 0x380006
/-- 0x3800:07 LastPoint (02_contracts.md R60). -/
abbrev Ob.admLastPoint : Nat := 0x380007
/-- 0x3800:08 GroupCommit (02_contracts.md R60). -/
abbrev Ob.admGroupCommit : Nat := 0x380008
/-- 0x3800:09 ChargedPower (02_contracts.md R60). -/
abbrev Ob.admChargedPower : Nat := 0x380009
/-- 0x3800:0A EnvelopeOvercommit (02_contracts.md R60). -/
abbrev Ob.admEnvelopeOvercommit : Nat := 0x38000A
/-- 0x3800:0B StateDigest (02_contracts.md R60). -/
abbrev Ob.admStateDigest : Nat := 0x38000B
/-- 0x3800:0C AssumptionFlags (02_contracts.md R60). -/
abbrev Ob.admAssumptionFlags : Nat := 0x38000C
/-- B+0x0C:01 Commit (02_contracts.md R70). -/
abbrev Ob.slotCommit (n : Nat) : Nat := 0x300C01 + 0x2000 * n
/-- B+0x0C:02 Cancel (02_contracts.md R70). -/
abbrev Ob.slotCancel (n : Nat) : Nat := 0x300C02 + 0x2000 * n
/-- B+0x0C:03 SluiceState (02_contracts.md R70). -/
abbrev Ob.slotSluiceState (n : Nat) : Nat := 0x300C03 + 0x2000 * n
/-- B+0x0C:04 CommitResult (02_contracts.md R70). -/
abbrev Ob.slotCommitResult (n : Nat) : Nat := 0x300C04 + 0x2000 * n
/-- B+0x0C:05 Boundary (02_contracts.md R70). -/
abbrev Ob.slotBoundary (n : Nat) : Nat := 0x300C05 + 0x2000 * n
/-- B+0x0C:06 GapBound (02_contracts.md R70). -/
abbrev Ob.slotGapBound (n : Nat) : Nat := 0x300C06 + 0x2000 * n
/-- B+0x0C:07 StagedChanged (02_contracts.md R70). -/
abbrev Ob.slotStagedChanged (n : Nat) : Nat := 0x300C07 + 0x2000 * n
/-- B+0x0C:08 CommitCount (02_contracts.md R70). -/
abbrev Ob.slotCommitCount (n : Nat) : Nat := 0x300C08 + 0x2000 * n
/-- B+0x0C:09 WarmUpFrames (02_contracts.md R70). -/
abbrev Ob.slotWarmUpFrames (n : Nat) : Nat := 0x300C09 + 0x2000 * n
/-- :01 LaneCount (03_ingest.md R81). -/
abbrev Ob.linkLaneCount (n : Nat) : Nat := 0x280001 + 0x100 * n
/-- :02 LaneMap (03_ingest.md R81). -/
abbrev Ob.linkLaneMap (n : Nat) : Nat := 0x280002 + 0x100 * n
/-- :03 LanePolarity (03_ingest.md R81). -/
abbrev Ob.linkLanePolarity (n : Nat) : Nat := 0x280003 + 0x100 * n
/-- :04 LaneRate (03_ingest.md R81). -/
abbrev Ob.linkLaneRate (n : Nat) : Nat := 0x280004 + 0x100 * n
/-- :05 M (03_ingest.md R81). -/
abbrev Ob.linkM (n : Nat) : Nat := 0x280005 + 0x100 * n
/-- :06 F (03_ingest.md R81). -/
abbrev Ob.linkF (n : Nat) : Nat := 0x280006 + 0x100 * n
/-- :07 S (03_ingest.md R81). -/
abbrev Ob.linkS (n : Nat) : Nat := 0x280007 + 0x100 * n
/-- :08 N (03_ingest.md R81). -/
abbrev Ob.linkN (n : Nat) : Nat := 0x280008 + 0x100 * n
/-- :09 NPrime (03_ingest.md R81). -/
abbrev Ob.linkNPrime (n : Nat) : Nat := 0x280009 + 0x100 * n
/-- :0A CS (03_ingest.md R81). -/
abbrev Ob.linkCS (n : Nat) : Nat := 0x28000A + 0x100 * n
/-- :0B E (03_ingest.md R81). -/
abbrev Ob.linkE (n : Nat) : Nat := 0x28000B + 0x100 * n
/-- :0C Subclass (03_ingest.md R81). -/
abbrev Ob.linkSubclass (n : Nat) : Nat := 0x28000C + 0x100 * n
/-- :0D SysrefSource (03_ingest.md R81). -/
abbrev Ob.linkSysrefSource (n : Nat) : Nat := 0x28000D + 0x100 * n
/-- :0E LemcOffset (03_ingest.md R81). -/
abbrev Ob.linkLemcOffset (n : Nat) : Nat := 0x28000E + 0x100 * n
/-- :0F ReleaseDelay (03_ingest.md R81). -/
abbrev Ob.linkReleaseDelay (n : Nat) : Nat := 0x28000F + 0x100 * n
/-- :10 CrcCheck (03_ingest.md R81). -/
abbrev Ob.linkCrcCheck (n : Nat) : Nat := 0x280010 + 0x100 * n
/-- :11 CrcAction (03_ingest.md R81). -/
abbrev Ob.linkCrcAction (n : Nat) : Nat := 0x280011 + 0x100 * n
/-- :12 AutoRelink (03_ingest.md R81). -/
abbrev Ob.linkAutoRelink (n : Nat) : Nat := 0x280012 + 0x100 * n
/-- :13 Apply (03_ingest.md R81). -/
abbrev Ob.linkApply (n : Nat) : Nat := 0x280013 + 0x100 * n
/-- :14 LinkState (03_ingest.md R81). -/
abbrev Ob.linkLinkState (n : Nat) : Nat := 0x280014 + 0x100 * n
/-- :15 AlignLatency (03_ingest.md R81). -/
abbrev Ob.linkAlignLatency (n : Nat) : Nat := 0x280015 + 0x100 * n
/-- :16 SampleRate (03_ingest.md R81). -/
abbrev Ob.linkSampleRate (n : Nat) : Nat := 0x280016 + 0x100 * n
/-- :17 ArrivalSpread (03_ingest.md R81). -/
abbrev Ob.linkArrivalSpread (n : Nat) : Nat := 0x280017 + 0x100 * n
/-- :18 ArrivalMargin (03_ingest.md R81). -/
abbrev Ob.linkArrivalMargin (n : Nat) : Nat := 0x280018 + 0x100 * n
/-- :19 CrcErrors (03_ingest.md R81). -/
abbrev Ob.linkCrcErrors (n : Nat) : Nat := 0x280019 + 0x100 * n
/-- :1A LockLosses (03_ingest.md R81). -/
abbrev Ob.linkLockLosses (n : Nat) : Nat := 0x28001A + 0x100 * n
/-- :1B SubstitutedSamples (03_ingest.md R81). -/
abbrev Ob.linkSubstitutedSamples (n : Nat) : Nat := 0x28001B + 0x100 * n
/-- :1C ClearCounters (03_ingest.md R81). -/
abbrev Ob.linkClearCounters (n : Nat) : Nat := 0x28001C + 0x100 * n
/-- :01 SourceLink (03_ingest.md R88). -/
abbrev Ob.chanSourceLink (n : Nat) : Nat := 0x282001 + 0x100 * n
/-- :02 ConverterI (03_ingest.md R88). -/
abbrev Ob.chanConverterI (n : Nat) : Nat := 0x282002 + 0x100 * n
/-- :03 ConverterQ (03_ingest.md R88). -/
abbrev Ob.chanConverterQ (n : Nat) : Nat := 0x282003 + 0x100 * n
/-- :04 Options (03_ingest.md R88). -/
abbrev Ob.chanOptions (n : Nat) : Nat := 0x282004 + 0x100 * n
/-- :05 OverrangeBit (03_ingest.md R88). -/
abbrev Ob.chanOverrangeBit (n : Nat) : Nat := 0x282005 + 0x100 * n
/-- :06 LevelLength (03_ingest.md R88). -/
abbrev Ob.chanLevelLength (n : Nat) : Nat := 0x282006 + 0x100 * n
/-- :07 LevelMode (03_ingest.md R88). -/
abbrev Ob.chanLevelMode (n : Nat) : Nat := 0x282007 + 0x100 * n
/-- :08 LevelInterval (03_ingest.md R88). -/
abbrev Ob.chanLevelInterval (n : Nat) : Nat := 0x282008 + 0x100 * n
/-- :09 EnvAttack (03_ingest.md R88). -/
abbrev Ob.chanEnvAttack (n : Nat) : Nat := 0x282009 + 0x100 * n
/-- :0A EnvRelease (03_ingest.md R88). -/
abbrev Ob.chanEnvRelease (n : Nat) : Nat := 0x28200A + 0x100 * n
/-- :0B DumpRestart (03_ingest.md R88). -/
abbrev Ob.chanDumpRestart (n : Nat) : Nat := 0x28200B + 0x100 * n
/-- :0C MeanSquare (03_ingest.md R88). -/
abbrev Ob.chanMeanSquare (n : Nat) : Nat := 0x28200C + 0x100 * n
/-- :0D Power (03_ingest.md R88). -/
abbrev Ob.chanPower (n : Nat) : Nat := 0x28200D + 0x100 * n
/-- :0E Rms (03_ingest.md R88). -/
abbrev Ob.chanRms (n : Nat) : Nat := 0x28200E + 0x100 * n
/-- :0F Peak (03_ingest.md R88). -/
abbrev Ob.chanPeak (n : Nat) : Nat := 0x28200F + 0x100 * n
/-- :10 Envelope (03_ingest.md R88). -/
abbrev Ob.chanEnvelope (n : Nat) : Nat := 0x282010 + 0x100 * n
/-- :11 LevelTime (03_ingest.md R88). -/
abbrev Ob.chanLevelTime (n : Nat) : Nat := 0x282011 + 0x100 * n
/-- :12 Flags (03_ingest.md R88). -/
abbrev Ob.chanFlags (n : Nat) : Nat := 0x282012 + 0x100 * n
/-- :13 ClipCount (03_ingest.md R88). -/
abbrev Ob.chanClipCount (n : Nat) : Nat := 0x282013 + 0x100 * n
/-- :14 OverrangeCount (03_ingest.md R88). -/
abbrev Ob.chanOverrangeCount (n : Nat) : Nat := 0x282014 + 0x100 * n
/-- :15 ChannelRate (03_ingest.md R88). -/
abbrev Ob.chanChannelRate (n : Nat) : Nat := 0x282015 + 0x100 * n
/-- 0x2880:01 Snapshot (03_ingest.md R95). -/
abbrev Ob.levelSnapshot : Nat := 0x288001
/-- 0x2880:02 SnapshotTime (03_ingest.md R95). -/
abbrev Ob.levelSnapshotTime : Nat := 0x288002
/-- 0x2880:03 SnapshotData (03_ingest.md R95). -/
abbrev Ob.levelSnapshotData : Nat := 0x288003
/-- 0x2880:04 ClearSticky (03_ingest.md R95). -/
abbrev Ob.levelClearSticky : Nat := 0x288004
/-- 0x4200:(s = 0x01) Length (04_spectrum.md R110). -/
abbrev Ob.uwinLength (n : Nat) : Nat := 0x420001 + 0x10 * n
/-- 0x4200:(s = 0x02) Coefficients (04_spectrum.md R110). -/
abbrev Ob.uwinCoefficients (n : Nat) : Nat := 0x420002 + 0x10 * n
/-- 0x4200:(s = 0x03) Load (04_spectrum.md R110). -/
abbrev Ob.uwinLoad (n : Nat) : Nat := 0x420003 + 0x10 * n
/-- 0x4200:(s = 0x04) Loaded (04_spectrum.md R110). -/
abbrev Ob.uwinLoaded (n : Nat) : Nat := 0x420004 + 0x10 * n
/-- 0x4200:(s = 0x05) CoherentGain (04_spectrum.md R110). -/
abbrev Ob.uwinCoherentGain (n : Nat) : Nat := 0x420005 + 0x10 * n
/-- 0x4200:(s = 0x06) Enbw (04_spectrum.md R110). -/
abbrev Ob.uwinEnbw (n : Nat) : Nat := 0x420006 + 0x10 * n
/-- 0x4200:(s = 0x07) PeakGain (04_spectrum.md R110). -/
abbrev Ob.uwinPeakGain (n : Nat) : Nat := 0x420007 + 0x10 * n
/-- 0x4060:01 Values (05_triggers.md R132). -/
abbrev Ob.condValues : Nat := 0x406001
/-- 0x4060:02 Sources (05_triggers.md R132). -/
abbrev Ob.condSources : Nat := 0x406002
/-- 0x4060:03 LineLatency (05_triggers.md R132). -/
abbrev Ob.condLineLatency : Nat := 0x406003
/-- 0x4060:04 LineSpacing (05_triggers.md R132). -/
abbrev Ob.condLineSpacing : Nat := 0x406004
/-- 0x4060:05 Fault (05_triggers.md R132). -/
abbrev Ob.condFault : Nat := 0x406005
/-- 0x4060:06 ClearFault (05_triggers.md R132). -/
abbrev Ob.condClearFault : Nat := 0x406006
/-- 0x4060:07 EdgeCounts (05_triggers.md R132). -/
abbrev Ob.condEdgeCounts : Nat := 0x406007
/-- 0x4060:08 Imports (05_triggers.md R132). -/
abbrev Ob.condImports : Nat := 0x406008
/-- 0x4060:09 Untimed (05_triggers.md R132). -/
abbrev Ob.condUntimed : Nat := 0x406009
/-- 0x4060:0A TriggerLog (05_triggers.md R132). -/
abbrev Ob.condTriggerLog : Nat := 0x40600A
/-- 0x4060:0B LogOverwrites (05_triggers.md R132). -/
abbrev Ob.condLogOverwrites : Nat := 0x40600B
/-- 0x4060:0C ClearLog (05_triggers.md R132). -/
abbrev Ob.condClearLog : Nat := 0x40600C
/-- 0x4060:10–0x4060:17 TrigOutConfig (05_triggers.md R132). -/
abbrev Ob.condTrigOutConfig (n : Nat) : Nat := 0x406010 + 0x1 * n
/-- :01 Limits (05_triggers.md R137). -/
abbrev Ob.weirLimits (n : Nat) : Nat := 0x400001 + 0x100 * n
/-- :02 Hysteresis (05_triggers.md R137). -/
abbrev Ob.weirHysteresis (n : Nat) : Nat := 0x400002 + 0x100 * n
/-- :03 MinBins (05_triggers.md R137). -/
abbrev Ob.weirMinBins (n : Nat) : Nat := 0x400003 + 0x100 * n
/-- :04 Persistence (05_triggers.md R137). -/
abbrev Ob.weirPersistence (n : Nat) : Nat := 0x400004 + 0x100 * n
/-- :05 ReleaseFrames (05_triggers.md R137). -/
abbrev Ob.weirReleaseFrames (n : Nat) : Nat := 0x400005 + 0x100 * n
/-- :06 EventsToRecord (05_triggers.md R137). -/
abbrev Ob.weirEventsToRecord (n : Nat) : Nat := 0x400006 + 0x100 * n
/-- :07 BoundSlot (05_triggers.md R137). -/
abbrev Ob.weirBoundSlot (n : Nat) : Nat := 0x400007 + 0x100 * n
/-- :08 EventCount (05_triggers.md R137). -/
abbrev Ob.weirEventCount (n : Nat) : Nat := 0x400008 + 0x100 * n
/-- :09 LastEvent (05_triggers.md R137). -/
abbrev Ob.weirLastEvent (n : Nat) : Nat := 0x400009 + 0x100 * n
/-- :0A Violating (05_triggers.md R137). -/
abbrev Ob.weirViolating (n : Nat) : Nat := 0x40000A + 0x100 * n
/-- :16 CondLine (05_triggers.md R140). -/
abbrev Ob.chanCondLine (n : Nat) : Nat := 0x282016 + 0x100 * n
/-- :17 CondSource (05_triggers.md R140). -/
abbrev Ob.chanCondSource (n : Nat) : Nat := 0x282017 + 0x100 * n
/-- :18 CondHigh (05_triggers.md R140). -/
abbrev Ob.chanCondHigh (n : Nat) : Nat := 0x282018 + 0x100 * n
/-- :19 CondLow (05_triggers.md R140). -/
abbrev Ob.chanCondLow (n : Nat) : Nat := 0x282019 + 0x100 * n
/-- :1A CondLatency (05_triggers.md R140). -/
abbrev Ob.chanCondLatency (n : Nat) : Nat := 0x28201A + 0x100 * n
/-- :01 Care (05_triggers.md R144). -/
abbrev Ob.patCare (n : Nat) : Nat := 0x404001 + 0x100 * n
/-- :02 Value (05_triggers.md R144). -/
abbrev Ob.patValue (n : Nat) : Nat := 0x404002 + 0x100 * n
/-- :03 Qual (05_triggers.md R144). -/
abbrev Ob.patQual (n : Nat) : Nat := 0x404003 + 0x100 * n
/-- :04 HoldOff (05_triggers.md R144). -/
abbrev Ob.patHoldOff (n : Nat) : Nat := 0x404004 + 0x100 * n
/-- :05 Outputs (05_triggers.md R144). -/
abbrev Ob.patOutputs (n : Nat) : Nat := 0x404005 + 0x100 * n
/-- :06 Enable (05_triggers.md R144). -/
abbrev Ob.patEnable (n : Nat) : Nat := 0x404006 + 0x100 * n
/-- :07 Owner (05_triggers.md R144). -/
abbrev Ob.patOwner (n : Nat) : Nat := 0x404007 + 0x100 * n
/-- :08 Horizon (05_triggers.md R144). -/
abbrev Ob.patHorizon (n : Nat) : Nat := 0x404008 + 0x100 * n
/-- :09 TriggerCount (05_triggers.md R144). -/
abbrev Ob.patTriggerCount (n : Nat) : Nat := 0x404009 + 0x100 * n
/-- :0A LastTrigger (05_triggers.md R144). -/
abbrev Ob.patLastTrigger (n : Nat) : Nat := 0x40400A + 0x100 * n
/-- :0B Matching (05_triggers.md R144). -/
abbrev Ob.patMatching (n : Nat) : Nat := 0x40400B + 0x100 * n
/-- 0x2660:01 Enable (05_triggers.md R153). -/
abbrev Ob.primEnable : Nat := 0x266001
/-- 0x2660:02 LineRate (05_triggers.md R153). -/
abbrev Ob.primLineRate : Nat := 0x266002
/-- 0x2660:03 DelayD (05_triggers.md R153). -/
abbrev Ob.primDelayD : Nat := 0x266003
/-- 0x2660:04 ContentA (05_triggers.md R153). -/
abbrev Ob.primContentA : Nat := 0x266004
/-- 0x2660:05 ContentB (05_triggers.md R153). -/
abbrev Ob.primContentB : Nat := 0x266005
/-- 0x2660:06 LineBaseA (05_triggers.md R153). -/
abbrev Ob.primLineBaseA : Nat := 0x266006
/-- 0x2660:07 LineBaseB (05_triggers.md R153). -/
abbrev Ob.primLineBaseB : Nat := 0x266007
/-- 0x2660:08 Polarity (05_triggers.md R153). -/
abbrev Ob.primPolarity : Nat := 0x266008
/-- 0x2660:09 TestPattern (05_triggers.md R153). -/
abbrev Ob.primTestPattern : Nat := 0x266009
/-- 0x2660:0A MinD (05_triggers.md R153). -/
abbrev Ob.primMinD : Nat := 0x26600A
/-- 0x2660:0B ChargeA (05_triggers.md R153). -/
abbrev Ob.primChargeA : Nat := 0x26600B
/-- 0x2660:0C ChargeB (05_triggers.md R153). -/
abbrev Ob.primChargeB : Nat := 0x26600C
/-- 0x2660:0D CountA (05_triggers.md R153). -/
abbrev Ob.primCountA : Nat := 0x26600D
/-- 0x2660:0E CountB (05_triggers.md R153). -/
abbrev Ob.primCountB : Nat := 0x26600E
/-- :01 Source (06_density.md R156). -/
abbrev Ob.mapSource (n : Nat) : Nat := 0x402001 + 0x100 * n
/-- :02 Channel (06_density.md R156). -/
abbrev Ob.mapChannel (n : Nat) : Nat := 0x402002 + 0x100 * n
/-- :03 Columns (06_density.md R156). -/
abbrev Ob.mapColumns (n : Nat) : Nat := 0x402003 + 0x100 * n
/-- :04 Rows (06_density.md R156). -/
abbrev Ob.mapRows (n : Nat) : Nat := 0x402004 + 0x100 * n
/-- :05 BinsPerColumn (06_density.md R156). -/
abbrev Ob.mapBinsPerColumn (n : Nat) : Nat := 0x402005 + 0x100 * n
/-- :06 Combine (06_density.md R156). -/
abbrev Ob.mapCombine (n : Nat) : Nat := 0x402006 + 0x100 * n
/-- :07 RowTop (06_density.md R156). -/
abbrev Ob.mapRowTop (n : Nat) : Nat := 0x402007 + 0x100 * n
/-- :08 RowStep (06_density.md R156). -/
abbrev Ob.mapRowStep (n : Nat) : Nat := 0x402008 + 0x100 * n
/-- :09 OutOfRange (06_density.md R156). -/
abbrev Ob.mapOutOfRange (n : Nat) : Nat := 0x402009 + 0x100 * n
/-- :0A XSelect (06_density.md R156). -/
abbrev Ob.mapXSelect (n : Nat) : Nat := 0x40200A + 0x100 * n
/-- :0B YSelect (06_density.md R156). -/
abbrev Ob.mapYSelect (n : Nat) : Nat := 0x40200B + 0x100 * n
/-- :0C XOffset (06_density.md R156). -/
abbrev Ob.mapXOffset (n : Nat) : Nat := 0x40200C + 0x100 * n
/-- :0D XShift (06_density.md R156). -/
abbrev Ob.mapXShift (n : Nat) : Nat := 0x40200D + 0x100 * n
/-- :0E YOffset (06_density.md R156). -/
abbrev Ob.mapYOffset (n : Nat) : Nat := 0x40200E + 0x100 * n
/-- :0F YShift (06_density.md R156). -/
abbrev Ob.mapYShift (n : Nat) : Nat := 0x40200F + 0x100 * n
/-- :10 HistFilter (06_density.md R156). -/
abbrev Ob.mapHistFilter (n : Nat) : Nat := 0x402010 + 0x100 * n
/-- :11 SweepPeriod (06_density.md R156). -/
abbrev Ob.mapSweepPeriod (n : Nat) : Nat := 0x402011 + 0x100 * n
/-- :12 DecayEvery (06_density.md R156). -/
abbrev Ob.mapDecayEvery (n : Nat) : Nat := 0x402012 + 0x100 * n
/-- :13 DecayShift (06_density.md R156). -/
abbrev Ob.mapDecayShift (n : Nat) : Nat := 0x402013 + 0x100 * n
/-- :14 DecayFloor (06_density.md R156). -/
abbrev Ob.mapDecayFloor (n : Nat) : Nat := 0x402014 + 0x100 * n
/-- :15 SnapshotEnable (06_density.md R156). -/
abbrev Ob.mapSnapshotEnable (n : Nat) : Nat := 0x402015 + 0x100 * n
/-- :16 Snapshot (06_density.md R156). -/
abbrev Ob.mapSnapshot (n : Nat) : Nat := 0x402016 + 0x100 * n
/-- :17 SnapshotState (06_density.md R156). -/
abbrev Ob.mapSnapshotState (n : Nat) : Nat := 0x402017 + 0x100 * n
/-- :18 SnapshotTime (06_density.md R156). -/
abbrev Ob.mapSnapshotTime (n : Nat) : Nat := 0x402018 + 0x100 * n
/-- :19 SnapshotSeq (06_density.md R156). -/
abbrev Ob.mapSnapshotSeq (n : Nat) : Nat := 0x402019 + 0x100 * n
/-- :1A Clear (06_density.md R156). -/
abbrev Ob.mapClear (n : Nat) : Nat := 0x40201A + 0x100 * n
/-- :1B ClearAtCommit (06_density.md R156). -/
abbrev Ob.mapClearAtCommit (n : Nat) : Nat := 0x40201B + 0x100 * n
/-- :1C RegionCols (06_density.md R156). -/
abbrev Ob.mapRegionCols (n : Nat) : Nat := 0x40201C + 0x100 * n
/-- :1D RegionRows (06_density.md R156). -/
abbrev Ob.mapRegionRows (n : Nat) : Nat := 0x40201D + 0x100 * n
/-- :1E Window (06_density.md R156). -/
abbrev Ob.mapWindow (n : Nat) : Nat := 0x40201E + 0x100 * n
/-- :1F TrigHigh (06_density.md R156). -/
abbrev Ob.mapTrigHigh (n : Nat) : Nat := 0x40201F + 0x100 * n
/-- :20 TrigLow (06_density.md R156). -/
abbrev Ob.mapTrigLow (n : Nat) : Nat := 0x402020 + 0x100 * n
/-- :21 TrigEnable (06_density.md R156). -/
abbrev Ob.mapTrigEnable (n : Nat) : Nat := 0x402021 + 0x100 * n
/-- :22 RegionCount (06_density.md R156). -/
abbrev Ob.mapRegionCount (n : Nat) : Nat := 0x402022 + 0x100 * n
/-- :23 Updates (06_density.md R156). -/
abbrev Ob.mapUpdates (n : Nat) : Nat := 0x402023 + 0x100 * n
/-- :24 Discarded (06_density.md R156). -/
abbrev Ob.mapDiscarded (n : Nat) : Nat := 0x402024 + 0x100 * n
/-- :25 Saturated (06_density.md R156). -/
abbrev Ob.mapSaturated (n : Nat) : Nat := 0x402025 + 0x100 * n
/-- :26 BoundSlot (06_density.md R156). -/
abbrev Ob.mapBoundSlot (n : Nat) : Nat := 0x402026 + 0x100 * n
/-- :27 SliceTable (06_density.md R156). -/
abbrev Ob.mapSliceTable (n : Nat) : Nat := 0x402027 + 0x100 * n
/-- :28 RenderEnable (06_density.md R156). -/
abbrev Ob.mapRenderEnable (n : Nat) : Nat := 0x402028 + 0x100 * n
/-- :29 RenderTarget (06_density.md R156). -/
abbrev Ob.mapRenderTarget (n : Nat) : Nat := 0x402029 + 0x100 * n
/-- :2A Palette (06_density.md R156). -/
abbrev Ob.mapPalette (n : Nat) : Nat := 0x40202A + 0x100 * n
/-- :2B RenderSeq (06_density.md R156). -/
abbrev Ob.mapRenderSeq (n : Nat) : Nat := 0x40202B + 0x100 * n
/-- 0x4400:(s = 0x01) Length (07_sieve.md R178). -/
abbrev Ob.protoLength (n : Nat) : Nat := 0x440001 + 0x10 * n
/-- 0x4400:(s = 0x02) Coefficients (07_sieve.md R178). -/
abbrev Ob.protoCoefficients (n : Nat) : Nat := 0x440002 + 0x10 * n
/-- 0x4400:(s = 0x03) Load (07_sieve.md R178). -/
abbrev Ob.protoLoad (n : Nat) : Nat := 0x440003 + 0x10 * n
/-- 0x4400:(s = 0x04) Loaded (07_sieve.md R178). -/
abbrev Ob.protoLoaded (n : Nat) : Nat := 0x440004 + 0x10 * n
/-- 0x4400:(s = 0x05) DcGain (07_sieve.md R178). -/
abbrev Ob.protoDcGain (n : Nat) : Nat := 0x440005 + 0x10 * n
/-- 0x4400:(s = 0x06) EnbwTaps (07_sieve.md R178). -/
abbrev Ob.protoEnbwTaps (n : Nat) : Nat := 0x440006 + 0x10 * n
/-- 0x4400:41 RouteLatency (07_sieve.md R178). -/
abbrev Ob.sieveRouteLatency : Nat := 0x440041
/-- 0x4400:42 SaturatedSamples (07_sieve.md R178). -/
abbrev Ob.sieveSaturatedSamples : Nat := 0x440042
/-- 0x4600:01 BlockRateLimit (08_pulse.md R213). -/
abbrev Ob.pulseBlockRateLimit : Nat := 0x460001
/-- 0x4600:02 BlockRateCharged (08_pulse.md R213). -/
abbrev Ob.pulseBlockRateCharged : Nat := 0x460002
/-- 0x4600:03 CounterSlot (08_pulse.md R213). -/
abbrev Ob.pulseCounterSlot : Nat := 0x460003
/-- 0x4600:04 Accepted (08_pulse.md R213). -/
abbrev Ob.pulseAccepted : Nat := 0x460004
/-- 0x4600:05 Recorded (08_pulse.md R213). -/
abbrev Ob.pulseRecorded : Nat := 0x460005
/-- 0x4600:06 Guarded (08_pulse.md R213). -/
abbrev Ob.pulseGuarded : Nat := 0x460006
/-- 0x4600:07 PileUps (08_pulse.md R213). -/
abbrev Ob.pulsePileUps : Nat := 0x460007
/-- 0x4600:08 Saturations (08_pulse.md R213). -/
abbrev Ob.pulseSaturations : Nat := 0x460008
/-- 0x4600:09 ClearCounters (08_pulse.md R213). -/
abbrev Ob.pulseClearCounters : Nat := 0x460009
/-- B+0x05:01 RingBytes (09_records.md R223). -/
abbrev Ob.slotRingBytes (n : Nat) : Nat := 0x300501 + 0x2000 * n
/-- B+0x05:02 Policy (09_records.md R223). -/
abbrev Ob.slotPolicy (n : Nat) : Nat := 0x300502 + 0x2000 * n
/-- B+0x05:03 StreamHold (09_records.md R223). -/
abbrev Ob.slotStreamHold (n : Nat) : Nat := 0x300503 + 0x2000 * n
/-- B+0x05:04 StorageHold (09_records.md R223). -/
abbrev Ob.slotStorageHold (n : Nat) : Nat := 0x300504 + 0x2000 * n
/-- B+0x05:05 HostConsumer (09_records.md R223). -/
abbrev Ob.slotHostConsumer (n : Nat) : Nat := 0x300505 + 0x2000 * n
/-- B+0x05:06 StallTimeout (09_records.md R223). -/
abbrev Ob.slotStallTimeout (n : Nat) : Nat := 0x300506 + 0x2000 * n
/-- B+0x05:07 KeepOnWithdraw (09_records.md R223). -/
abbrev Ob.slotKeepOnWithdraw (n : Nat) : Nat := 0x300507 + 0x2000 * n
/-- B+0x05:08 HostRead (09_records.md R223). -/
abbrev Ob.slotHostRead (n : Nat) : Nat := 0x300508 + 0x2000 * n
/-- B+0x06:01 ExtentTable (09_records.md R223). -/
abbrev Ob.slotExtentTable (n : Nat) : Nat := 0x300601 + 0x2000 * n
/-- B+0x06:02 WritePos (09_records.md R223). -/
abbrev Ob.slotWritePos (n : Nat) : Nat := 0x300602 + 0x2000 * n
/-- B+0x06:03 OldestPos (09_records.md R223). -/
abbrev Ob.slotOldestPos (n : Nat) : Nat := 0x300603 + 0x2000 * n
/-- B+0x06:04 Produced (09_records.md R223). -/
abbrev Ob.slotProduced (n : Nat) : Nat := 0x300604 + 0x2000 * n
/-- B+0x06:05 Dropped (09_records.md R223). -/
abbrev Ob.slotDropped (n : Nat) : Nat := 0x300605 + 0x2000 * n
/-- B+0x06:06 Overwritten (09_records.md R223). -/
abbrev Ob.slotOverwritten (n : Nat) : Nat := 0x300606 + 0x2000 * n
/-- B+0x06:07 StreamDropped (09_records.md R223). -/
abbrev Ob.slotStreamDropped (n : Nat) : Nat := 0x300607 + 0x2000 * n
/-- B+0x06:08 StorageDropped (09_records.md R223). -/
abbrev Ob.slotStorageDropped (n : Nat) : Nat := 0x300608 + 0x2000 * n
/-- B+0x06:09 HostDropped (09_records.md R223). -/
abbrev Ob.slotHostDropped (n : Nat) : Nat := 0x300609 + 0x2000 * n
/-- B+0x06:0A ReplayDropped (09_records.md R223). -/
abbrev Ob.slotReplayDropped (n : Nat) : Nat := 0x30060A + 0x2000 * n
/-- B+0x06:0B Detaches (09_records.md R223). -/
abbrev Ob.slotDetaches (n : Nat) : Nat := 0x30060B + 0x2000 * n
/-- B+0x06:0C PeakFill (09_records.md R223). -/
abbrev Ob.slotPeakFill (n : Nat) : Nat := 0x30060C + 0x2000 * n
/-- B+0x06:0D CaptureState (09_records.md R223). -/
abbrev Ob.slotCaptureState (n : Nat) : Nat := 0x30060D + 0x2000 * n
/-- B+0x06:0E Rearm (09_records.md R223). -/
abbrev Ob.slotRearm (n : Nat) : Nat := 0x30060E + 0x2000 * n
/-- B+0x06:0F ReleaseRing (09_records.md R223). -/
abbrev Ob.slotReleaseRing (n : Nat) : Nat := 0x30060F + 0x2000 * n
/-- B+0x06:10 LookbackBytes (09_records.md R223). -/
abbrev Ob.slotLookbackBytes (n : Nat) : Nat := 0x300610 + 0x2000 * n
/-- 0x4800:01 AllocatedBytes (09_records.md R223). -/
abbrev Ob.storeAllocatedBytes : Nat := 0x480001
/-- 0x4800:02 FreeBytes (09_records.md R223). -/
abbrev Ob.storeFreeBytes : Nat := 0x480002
/-- 0x4800:03 KeptRings (09_records.md R223). -/
abbrev Ob.storeKeptRings : Nat := 0x480003
/-- 0x4800:04 MaxRecord (09_records.md R223). -/
abbrev Ob.storeMaxRecord : Nat := 0x480004
/-- :01 Image (11_microcode.md R297). -/
abbrev Ob.mimgImage (n : Nat) : Nat := 0x580001 + 0x100 * n
/-- :02 Load (11_microcode.md R297). -/
abbrev Ob.mimgLoad (n : Nat) : Nat := 0x580002 + 0x100 * n
/-- :03 Loaded (11_microcode.md R297). -/
abbrev Ob.mimgLoaded (n : Nat) : Nat := 0x580003 + 0x100 * n
/-- :04 WordCount (11_microcode.md R297). -/
abbrev Ob.mimgWordCount (n : Nat) : Nat := 0x580004 + 0x100 * n
/-- :05 DeclaredWorst (11_microcode.md R297). -/
abbrev Ob.mimgDeclaredWorst (n : Nat) : Nat := 0x580005 + 0x100 * n
/-- :06 DeclaredService (11_microcode.md R297). -/
abbrev Ob.mimgDeclaredService (n : Nat) : Nat := 0x580006 + 0x100 * n
/-- :07 DeclaredCond (11_microcode.md R297). -/
abbrev Ob.mimgDeclaredCond (n : Nat) : Nat := 0x580007 + 0x100 * n
/-- :08 Verify (11_microcode.md R297). -/
abbrev Ob.mimgVerify (n : Nat) : Nat := 0x580008 + 0x100 * n
/-- :09 VerifiedWorst (11_microcode.md R297). -/
abbrev Ob.mimgVerifiedWorst (n : Nat) : Nat := 0x580009 + 0x100 * n
/-- :0A VerifiedCond (11_microcode.md R297). -/
abbrev Ob.mimgVerifiedCond (n : Nat) : Nat := 0x58000A + 0x100 * n
/-- :0B VerifiedSpacing (11_microcode.md R297). -/
abbrev Ob.mimgVerifiedSpacing (n : Nat) : Nat := 0x58000B + 0x100 * n
/-- :0C FirstFault (11_microcode.md R297). -/
abbrev Ob.mimgFirstFault (n : Nat) : Nat := 0x58000C + 0x100 * n
/-- :0D Digest (11_microcode.md R297). -/
abbrev Ob.mimgDigest (n : Nat) : Nat := 0x58000D + 0x100 * n
/-- :0E Users (11_microcode.md R297). -/
abbrev Ob.mimgUsers (n : Nat) : Nat := 0x58000E + 0x100 * n
/-- :01 Image (11_microcode.md R297). -/
abbrev Ob.nimgImage (n : Nat) : Nat := 0x584001 + 0x100 * n
/-- :02 Load (11_microcode.md R297). -/
abbrev Ob.nimgLoad (n : Nat) : Nat := 0x584002 + 0x100 * n
/-- :03 Loaded (11_microcode.md R297). -/
abbrev Ob.nimgLoaded (n : Nat) : Nat := 0x584003 + 0x100 * n
/-- :04 WordCount (11_microcode.md R297). -/
abbrev Ob.nimgWordCount (n : Nat) : Nat := 0x584004 + 0x100 * n
/-- :05 Digest (11_microcode.md R297). -/
abbrev Ob.nimgDigest (n : Nat) : Nat := 0x584005 + 0x100 * n
/-- :06 Users (11_microcode.md R297). -/
abbrev Ob.nimgUsers (n : Nat) : Nat := 0x584006 + 0x100 * n
/-- :07 FirstFault (11_microcode.md R297). -/
abbrev Ob.nimgFirstFault (n : Nat) : Nat := 0x584007 + 0x100 * n
/-- B+0x04:02 StageParams (11_microcode.md R298). -/
abbrev Ob.slotStageParams (n : Nat) : Nat := 0x300402 + 0x2000 * n
/-- 0x5000:01 InterleaveMasks (12_memory.md R330). -/
abbrev Ob.hbmInterleaveMasks : Nat := 0x500001
/-- 0x5000:02 InServiceCount (12_memory.md R330). -/
abbrev Ob.hbmInServiceCount : Nat := 0x500002
/-- 0x5000:03 SpareMap (12_memory.md R330). -/
abbrev Ob.hbmSpareMap : Nat := 0x500003
/-- 0x5000:04 RetiredMap (12_memory.md R330). -/
abbrev Ob.hbmRetiredMap : Nat := 0x500004
/-- 0x5000:05 FrozenMap (12_memory.md R330). -/
abbrev Ob.hbmFrozenMap : Nat := 0x500005
/-- 0x5000:06 AdmittedCeiling (12_memory.md R330). -/
abbrev Ob.hbmAdmittedCeiling : Nat := 0x500006
/-- 0x5000:07 AdmittedCharged (12_memory.md R330). -/
abbrev Ob.hbmAdmittedCharged : Nat := 0x500007
/-- 0x5000:08 HotRefresh (12_memory.md R330). -/
abbrev Ob.hbmHotRefresh : Nat := 0x500008
/-- 0x5000:09 BaseDieTemp (12_memory.md R330). -/
abbrev Ob.hbmBaseDieTemp : Nat := 0x500009
/-- 0x5000:0A OverTemp (12_memory.md R330). -/
abbrev Ob.hbmOverTemp : Nat := 0x50000A
/-- 0x5000:0B HostReserve (12_memory.md R330). -/
abbrev Ob.hbmHostReserve : Nat := 0x50000B
/-- 0x5000:0C FreezeHold (12_memory.md R330). -/
abbrev Ob.hbmFreezeHold : Nat := 0x50000C
/-- 0x5000:0D PagePolicy (12_memory.md R330). -/
abbrev Ob.hbmPagePolicy : Nat := 0x50000D
/-- 0x5000:0E SleepEnable (12_memory.md R330). -/
abbrev Ob.hbmSleepEnable : Nat := 0x50000E
/-- 0x5000:0F ScrubPeriod (12_memory.md R330). -/
abbrev Ob.hbmScrubPeriod : Nat := 0x50000F
/-- :01 State (12_memory.md R332). -/
abbrev Ob.hpcState (n : Nat) : Nat := 0x501001 + 0x100 * n
/-- :02 Serves (12_memory.md R332). -/
abbrev Ob.hpcServes (n : Nat) : Nat := 0x501002 + 0x100 * n
/-- :03 CorrectedCount (12_memory.md R332). -/
abbrev Ob.hpcCorrectedCount (n : Nat) : Nat := 0x501003 + 0x100 * n
/-- :04 UncorrectableCount (12_memory.md R332). -/
abbrev Ob.hpcUncorrectableCount (n : Nat) : Nat := 0x501004 + 0x100 * n
/-- :05 CommandErrors (12_memory.md R332). -/
abbrev Ob.hpcCommandErrors (n : Nat) : Nat := 0x501005 + 0x100 * n
/-- :06 LastError (12_memory.md R332). -/
abbrev Ob.hpcLastError (n : Nat) : Nat := 0x501006 + 0x100 * n
/-- :07 Release (12_memory.md R332). -/
abbrev Ob.hpcRelease (n : Nat) : Nat := 0x501007 + 0x100 * n
/-- :08 TestResult (12_memory.md R332). -/
abbrev Ob.hpcTestResult (n : Nat) : Nat := 0x501008 + 0x100 * n
/-- :09 AdmittedBursts (12_memory.md R332). -/
abbrev Ob.hpcAdmittedBursts (n : Nat) : Nat := 0x501009 + 0x100 * n
/-- :0A AllocatedExtents (12_memory.md R332). -/
abbrev Ob.hpcAllocatedExtents (n : Nat) : Nat := 0x50100A + 0x100 * n
/-- :0B PowerState (12_memory.md R332). -/
abbrev Ob.hpcPowerState (n : Nat) : Nat := 0x50100B + 0x100 * n
/-- :0C Retire (12_memory.md R332). -/
abbrev Ob.hpcRetire (n : Nat) : Nat := 0x50100C + 0x100 * n
/-- :01 Owner (13_transfer.md R336). -/
abbrev Ob.xferOwner (n : Nat) : Nat := 0x488001 + 0x100 * n
/-- :02 Priority (13_transfer.md R336). -/
abbrev Ob.xferPriority (n : Nat) : Nat := 0x488002 + 0x100 * n
/-- :03 SourceSpace (13_transfer.md R336). -/
abbrev Ob.xferSourceSpace (n : Nat) : Nat := 0x488003 + 0x100 * n
/-- :04 Source (13_transfer.md R336). -/
abbrev Ob.xferSource (n : Nat) : Nat := 0x488004 + 0x100 * n
/-- :05 DestSpace (13_transfer.md R336). -/
abbrev Ob.xferDestSpace (n : Nat) : Nat := 0x488005 + 0x100 * n
/-- :06 Dest (13_transfer.md R336). -/
abbrev Ob.xferDest (n : Nat) : Nat := 0x488006 + 0x100 * n
/-- :07 Length (13_transfer.md R336). -/
abbrev Ob.xferLength (n : Nat) : Nat := 0x488007 + 0x100 * n
/-- :08 Start (13_transfer.md R336). -/
abbrev Ob.xferStart (n : Nat) : Nat := 0x488008 + 0x100 * n
/-- :09 Pause (13_transfer.md R336). -/
abbrev Ob.xferPause (n : Nat) : Nat := 0x488009 + 0x100 * n
/-- :0A Abort (13_transfer.md R336). -/
abbrev Ob.xferAbort (n : Nat) : Nat := 0x48800A + 0x100 * n
/-- :0B State (13_transfer.md R336). -/
abbrev Ob.xferState (n : Nat) : Nat := 0x48800B + 0x100 * n
/-- :0C SourceNow (13_transfer.md R336). -/
abbrev Ob.xferSourceNow (n : Nat) : Nat := 0x48800C + 0x100 * n
/-- :0D DestNow (13_transfer.md R336). -/
abbrev Ob.xferDestNow (n : Nat) : Nat := 0x48800D + 0x100 * n
/-- :0E Remaining (13_transfer.md R336). -/
abbrev Ob.xferRemaining (n : Nat) : Nat := 0x48800E + 0x100 * n
/-- :0F StagedBytes (13_transfer.md R336). -/
abbrev Ob.xferStagedBytes (n : Nat) : Nat := 0x48800F + 0x100 * n
/-- :10 PauseCause (13_transfer.md R336). -/
abbrev Ob.xferPauseCause (n : Nat) : Nat := 0x488010 + 0x100 * n
/-- :11 RequestLine (13_transfer.md R336). -/
abbrev Ob.xferRequestLine (n : Nat) : Nat := 0x488011 + 0x100 * n
/-- :12 Beats (13_transfer.md R336). -/
abbrev Ob.xferBeats (n : Nat) : Nat := 0x488012 + 0x100 * n
/-- :13 Preemptions (13_transfer.md R336). -/
abbrev Ob.xferPreemptions (n : Nat) : Nat := 0x488013 + 0x100 * n
/-- :14 CancelledBursts (13_transfer.md R336). -/
abbrev Ob.xferCancelledBursts (n : Nat) : Nat := 0x488014 + 0x100 * n
/-- :15 LateWithdrawCount (13_transfer.md R336). -/
abbrev Ob.xferLateWithdrawCount (n : Nat) : Nat := 0x488015 + 0x100 * n
/-- :16 ErrorCode (13_transfer.md R336). -/
abbrev Ob.xferErrorCode (n : Nat) : Nat := 0x488016 + 0x100 * n
/-- :17 CompletionVector (13_transfer.md R336). -/
abbrev Ob.xferCompletionVector (n : Nat) : Nat := 0x488017 + 0x100 * n
/-- :20 ChargedRate (13_transfer.md R336). -/
abbrev Ob.xferAllChargedRate : Nat := 0x488020
/-- :21 AdmittedLimit (13_transfer.md R336). -/
abbrev Ob.xferAllAdmittedLimit : Nat := 0x488021
/-- :01 PageSizeCode (14_host_storage.md R366). -/
abbrev Ob.ringPageSizeCode (n : Nat) : Nat := 0x482001 + 0x100 * n
/-- :02 PageCount (14_host_storage.md R366). -/
abbrev Ob.ringPageCount (n : Nat) : Nat := 0x482002 + 0x100 * n
/-- :03 PageAddrs (14_host_storage.md R366). -/
abbrev Ob.ringPageAddrs (n : Nat) : Nat := 0x482003 + 0x100 * n
/-- :04 Vector (14_host_storage.md R366). -/
abbrev Ob.ringVector (n : Nat) : Nat := 0x482004 + 0x100 * n
/-- :05 IrqEvery (14_host_storage.md R366). -/
abbrev Ob.ringIrqEvery (n : Nat) : Nat := 0x482005 + 0x100 * n
/-- :06 IrqDelay (14_host_storage.md R366). -/
abbrev Ob.ringIrqDelay (n : Nat) : Nat := 0x482006 + 0x100 * n
/-- :07 Validate (14_host_storage.md R366). -/
abbrev Ob.ringValidate (n : Nat) : Nat := 0x482007 + 0x100 * n
/-- :08 RingState (14_host_storage.md R366). -/
abbrev Ob.ringRingState (n : Nat) : Nat := 0x482008 + 0x100 * n
/-- :09 Owner (14_host_storage.md R366). -/
abbrev Ob.ringOwner (n : Nat) : Nat := 0x482009 + 0x100 * n
/-- :0A WrittenPages (14_host_storage.md R366). -/
abbrev Ob.ringWrittenPages (n : Nat) : Nat := 0x48200A + 0x100 * n
/-- :0B ConsumedPages (14_host_storage.md R366). -/
abbrev Ob.ringConsumedPages (n : Nat) : Nat := 0x48200B + 0x100 * n
/-- :0C RecordsStreamed (14_host_storage.md R366). -/
abbrev Ob.ringRecordsStreamed (n : Nat) : Nat := 0x48200C + 0x100 * n
/-- :0D CreditStalls (14_host_storage.md R366). -/
abbrev Ob.ringCreditStalls (n : Nat) : Nat := 0x48200D + 0x100 * n
/-- :0E Abandons (14_host_storage.md R366). -/
abbrev Ob.ringAbandons (n : Nat) : Nat := 0x48200E + 0x100 * n
/-- :0F BadDoorbells (14_host_storage.md R366). -/
abbrev Ob.ringBadDoorbells (n : Nat) : Nat := 0x48200F + 0x100 * n
/-- :10 ChargedRate (14_host_storage.md R366). -/
abbrev Ob.ringChargedRate (n : Nat) : Nat := 0x482010 + 0x100 * n
/-- :11 Restart (14_host_storage.md R366). -/
abbrev Ob.ringRestart (n : Nat) : Nat := 0x482011 + 0x100 * n
/-- :30 LinkRate (14_host_storage.md R366). -/
abbrev Ob.hlinkLinkRate : Nat := 0x482030
/-- :31 LinkWidth (14_host_storage.md R366). -/
abbrev Ob.hlinkLinkWidth : Nat := 0x482031
/-- :32 AdmittedLinkLimit (14_host_storage.md R366). -/
abbrev Ob.hlinkAdmittedLinkLimit : Nat := 0x482032
/-- :33 LinkCharged (14_host_storage.md R366). -/
abbrev Ob.hlinkLinkCharged : Nat := 0x482033
/-- :34 Shortfall (14_host_storage.md R366). -/
abbrev Ob.hlinkShortfall : Nat := 0x482034
/-- :35 LinkDowns (14_host_storage.md R366). -/
abbrev Ob.hlinkLinkDowns : Nat := 0x482035
/-- :36 MaxLinkRate (14_host_storage.md R366). -/
abbrev Ob.hlinkMaxLinkRate : Nat := 0x482036
/-- :37 Retrain (14_host_storage.md R366). -/
abbrev Ob.hlinkRetrain : Nat := 0x482037
/-- :38 CreditTimeouts (14_host_storage.md R366). -/
abbrev Ob.hlinkCreditTimeouts : Nat := 0x482038
/-- :01 Enable (14_host_storage.md R379). -/
abbrev Ob.storEnable (n : Nat) : Nat := 0x486001 + 0x100 * n
/-- :02 LinkState (14_host_storage.md R379). -/
abbrev Ob.storLinkState (n : Nat) : Nat := 0x486002 + 0x100 * n
/-- :03 DriveState (14_host_storage.md R379). -/
abbrev Ob.storDriveState (n : Nat) : Nat := 0x486003 + 0x100 * n
/-- :04 DriveId (14_host_storage.md R379). -/
abbrev Ob.storDriveId (n : Nat) : Nat := 0x486004 + 0x100 * n
/-- :05 Capacity (14_host_storage.md R379). -/
abbrev Ob.storCapacity (n : Nat) : Nat := 0x486005 + 0x100 * n
/-- :06 QualifyBytes (14_host_storage.md R379). -/
abbrev Ob.storQualifyBytes (n : Nat) : Nat := 0x486006 + 0x100 * n
/-- :07 Qualify (14_host_storage.md R379). -/
abbrev Ob.storQualify (n : Nat) : Nat := 0x486007 + 0x100 * n
/-- :08 QualifiedRate (14_host_storage.md R379). -/
abbrev Ob.storQualifiedRate (n : Nat) : Nat := 0x486008 + 0x100 * n
/-- :09 QualifiedReadRate (14_host_storage.md R379). -/
abbrev Ob.storQualifiedReadRate (n : Nat) : Nat := 0x486009 + 0x100 * n
/-- :0A QualifiedAt (14_host_storage.md R379). -/
abbrev Ob.storQualifiedAt (n : Nat) : Nat := 0x48600A + 0x100 * n
/-- :0B Position (14_host_storage.md R379). -/
abbrev Ob.storPosition (n : Nat) : Nat := 0x48600B + 0x100 * n
/-- :0C Health (14_host_storage.md R379). -/
abbrev Ob.storHealth (n : Nat) : Nat := 0x48600C + 0x100 * n
/-- :0D CommandTimeouts (14_host_storage.md R379). -/
abbrev Ob.storCommandTimeouts (n : Nat) : Nat := 0x48600D + 0x100 * n
/-- :0E ErrorStatuses (14_host_storage.md R379). -/
abbrev Ob.storErrorStatuses (n : Nat) : Nat := 0x48600E + 0x100 * n
/-- :0F FailCause (14_host_storage.md R379). -/
abbrev Ob.storFailCause (n : Nat) : Nat := 0x48600F + 0x100 * n
/-- :10 Reinstate (14_host_storage.md R379). -/
abbrev Ob.storReinstate (n : Nat) : Nat := 0x486010 + 0x100 * n
/-- :11 Vector (14_host_storage.md R379). -/
abbrev Ob.storVector (n : Nat) : Nat := 0x486011 + 0x100 * n
/-- :12 WrittenBytes (14_host_storage.md R379). -/
abbrev Ob.storWrittenBytes (n : Nat) : Nat := 0x486012 + 0x100 * n
/-- :20 FormSet (14_host_storage.md R379). -/
abbrev Ob.ssetFormSet : Nat := 0x486020
/-- :21 SetMembers (14_host_storage.md R379). -/
abbrev Ob.ssetSetMembers : Nat := 0x486021
/-- :22 SetId (14_host_storage.md R379). -/
abbrev Ob.ssetSetId : Nat := 0x486022
/-- :23 Directory (14_host_storage.md R379). -/
abbrev Ob.ssetDirectory : Nat := 0x486023
/-- :24 DeleteRecording (14_host_storage.md R379). -/
abbrev Ob.ssetDeleteRecording : Nat := 0x486024
/-- :25 FreeUnits (14_host_storage.md R379). -/
abbrev Ob.ssetFreeUnits : Nat := 0x486025
/-- :26 NextRecording (14_host_storage.md R379). -/
abbrev Ob.ssetNextRecording : Nat := 0x486026
/-- :27 OpenRecordings (14_host_storage.md R379). -/
abbrev Ob.ssetOpenRecordings : Nat := 0x486027
/-- :01 Enable (15_arrays.md R408). -/
abbrev Ob.joinEnable (n : Nat) : Nat := 0x264001 + 0x100 * n
/-- :02 State (15_arrays.md R408). -/
abbrev Ob.joinState (n : Nat) : Nat := 0x264002 + 0x100 * n
/-- :03 HoldCause (15_arrays.md R408). -/
abbrev Ob.joinHoldCause (n : Nat) : Nat := 0x264003 + 0x100 * n
/-- :04 Partner (15_arrays.md R408). -/
abbrev Ob.joinPartner (n : Nat) : Nat := 0x264004 + 0x100 * n
/-- :05 TxSleep (15_arrays.md R408). -/
abbrev Ob.joinTxSleep (n : Nat) : Nat := 0x264005 + 0x100 * n
/-- :06 RxSleep (15_arrays.md R408). -/
abbrev Ob.joinRxSleep (n : Nat) : Nat := 0x264006 + 0x100 * n
/-- :07 SleepEnable (15_arrays.md R408). -/
abbrev Ob.joinSleepEnable (n : Nat) : Nat := 0x264007 + 0x100 * n
/-- :08 CableDelay (15_arrays.md R408). -/
abbrev Ob.joinCableDelay (n : Nat) : Nat := 0x264008 + 0x100 * n
/-- :09 CableAsymmetry (15_arrays.md R408). -/
abbrev Ob.joinCableAsymmetry (n : Nat) : Nat := 0x264009 + 0x100 * n
/-- :0A CableBound (15_arrays.md R408). -/
abbrev Ob.joinCableBound (n : Nat) : Nat := 0x26400A + 0x100 * n
/-- :0B LaneFom (15_arrays.md R408). -/
abbrev Ob.joinLaneFom (n : Nat) : Nat := 0x26400B + 0x100 * n
/-- :0C BoundedSingle (15_arrays.md R408). -/
abbrev Ob.joinBoundedSingle (n : Nat) : Nat := 0x26400C + 0x100 * n
/-- :0D BoundedLost (15_arrays.md R408). -/
abbrev Ob.joinBoundedLost (n : Nat) : Nat := 0x26400D + 0x100 * n
/-- :0E BulkReplays (15_arrays.md R408). -/
abbrev Ob.joinBulkReplays (n : Nat) : Nat := 0x26400E + 0x100 * n
/-- :0F Retrains (15_arrays.md R408). -/
abbrev Ob.joinRetrains (n : Nat) : Nat := 0x26400F + 0x100 * n
/-- :10 BulkCharged (15_arrays.md R408). -/
abbrev Ob.joinBulkCharged (n : Nat) : Nat := 0x264010 + 0x100 * n
/-- :11 LinesCarried (15_arrays.md R408). -/
abbrev Ob.joinLinesCarried (n : Nat) : Nat := 0x264011 + 0x100 * n
/-- :12 Retrain (15_arrays.md R408). -/
abbrev Ob.joinRetrain (n : Nat) : Nat := 0x264012 + 0x100 * n
/-- :13 TestMode (15_arrays.md R408). -/
abbrev Ob.joinTestMode (n : Nat) : Nat := 0x264013 + 0x100 * n
/-- :14 InjectErrors (15_arrays.md R408). -/
abbrev Ob.joinInjectErrors (n : Nat) : Nat := 0x264014 + 0x100 * n
/-- :15 PrbsLock (15_arrays.md R408). -/
abbrev Ob.joinPrbsLock (n : Nat) : Nat := 0x264015 + 0x100 * n
/-- :16 PrbsErrors (15_arrays.md R408). -/
abbrev Ob.joinPrbsErrors (n : Nat) : Nat := 0x264016 + 0x100 * n
/-- :17 PrbsBits (15_arrays.md R408). -/
abbrev Ob.joinPrbsBits (n : Nat) : Nat := 0x264017 + 0x100 * n
/-- :18 ClearCounters (15_arrays.md R408). -/
abbrev Ob.joinClearCounters (n : Nat) : Nat := 0x264018 + 0x100 * n
/-- 0x5F00:01 ArrayConfig (15_arrays.md R409). -/
abbrev Ob.arrArrayConfig : Nat := 0x5F0001
/-- 0x5F00:02 Position (15_arrays.md R409). -/
abbrev Ob.arrPosition : Nat := 0x5F0002
/-- 0x5F00:03 TimeTolerance (15_arrays.md R409). -/
abbrev Ob.arrTimeTolerance : Nat := 0x5F0003
/-- 0x5F00:04 MinQuality (15_arrays.md R409). -/
abbrev Ob.arrMinQuality : Nat := 0x5F0004
/-- 0x5F00:05 AutoApply (15_arrays.md R409). -/
abbrev Ob.arrAutoApply : Nat := 0x5F0005
/-- 0x5F00:06 ArrayState (15_arrays.md R409). -/
abbrev Ob.arrArrayState : Nat := 0x5F0006
/-- 0x5F00:07 ConfigDigest (15_arrays.md R409). -/
abbrev Ob.arrConfigDigest : Nat := 0x5F0007
/-- 0x5F00:08 Apply (15_arrays.md R409). -/
abbrev Ob.arrApply : Nat := 0x5F0008
/-- 0x5F00:09 AgreementMap (15_arrays.md R409). -/
abbrev Ob.arrAgreementMap : Nat := 0x5F0009
/-- 0x5F00:0A Reachable (15_arrays.md R409). -/
abbrev Ob.arrReachable : Nat := 0x5F000A
/-- 0x5F00:0B Timed (15_arrays.md R409). -/
abbrev Ob.arrTimed : Nat := 0x5F000B
/-- 0x5F00:0C TimeOffset (15_arrays.md R409). -/
abbrev Ob.arrTimeOffset : Nat := 0x5F000C
/-- 0x5F00:0D Residuals (15_arrays.md R409). -/
abbrev Ob.arrResiduals : Nat := 0x5F000D
/-- 0x5F00:0E JoinDelay (15_arrays.md R409). -/
abbrev Ob.arrJoinDelay : Nat := 0x5F000E
/-- 0x5F00:0F Calibrate (15_arrays.md R409). -/
abbrev Ob.arrCalibrate : Nat := 0x5F000F
/-- 0x2420:01–0x2420:08 DclkConfig (16_clocks.md R421). -/
abbrev Ob.clkDclkConfig (n : Nat) : Nat := 0x242001 + 0x1 * n
/-- 0x2420:09–0x2420:10 SrefConfig (16_clocks.md R421). -/
abbrev Ob.clkSrefConfig (n : Nat) : Nat := 0x242009 + 0x1 * n
/-- 0x2420:11–0x2420:18 SrefOffset (16_clocks.md R421). -/
abbrev Ob.clkSrefOffset (n : Nat) : Nat := 0x242011 + 0x1 * n
/-- 0x2420:19 SrefFire (16_clocks.md R421). -/
abbrev Ob.clkSrefFire : Nat := 0x242019
/-- 0x2420:1A OutputState (16_clocks.md R421). -/
abbrev Ob.clkOutputState : Nat := 0x24201A
/-- 0x2410:01 Source (16_clocks.md R424). -/
abbrev Ob.synSource : Nat := 0x241001
/-- 0x2410:02 RefFreq (16_clocks.md R424). -/
abbrev Ob.synRefFreq : Nat := 0x241002
/-- 0x2410:03 RefMode (16_clocks.md R424). -/
abbrev Ob.synRefMode : Nat := 0x241003
/-- 0x2410:04 LoopMode (16_clocks.md R424). -/
abbrev Ob.synLoopMode : Nat := 0x241004
/-- 0x2410:05 Multiplier (16_clocks.md R424). -/
abbrev Ob.synMultiplier : Nat := 0x241005
/-- 0x2410:06 Apply (16_clocks.md R424). -/
abbrev Ob.synApply : Nat := 0x241006
/-- 0x2410:07 State (16_clocks.md R424). -/
abbrev Ob.synState : Nat := 0x241007
/-- 0x2410:08 FT (16_clocks.md R424). -/
abbrev Ob.synFT : Nat := 0x241008
/-- 0x2410:09 InjectionFreq (16_clocks.md R424). -/
abbrev Ob.synInjectionFreq : Nat := 0x241009
/-- 0x2410:0A RefMeasured (16_clocks.md R424). -/
abbrev Ob.synRefMeasured : Nat := 0x24100A
/-- 0x2410:0B LossCount (16_clocks.md R424). -/
abbrev Ob.synLossCount : Nat := 0x24100B
/-- 0x2410:0C HoldoverTime (16_clocks.md R424). -/
abbrev Ob.synHoldoverTime : Nat := 0x24100C
/-- 0x2410:0D EngineRatio (16_clocks.md R424). -/
abbrev Ob.synEngineRatio : Nat := 0x24100D
/-- 0x2410:0E EngineClock (16_clocks.md R424). -/
abbrev Ob.synEngineClock : Nat := 0x24100E
/-- 0x2410:0F AutoApply (16_clocks.md R424). -/
abbrev Ob.synAutoApply : Nat := 0x24100F
/-- 0x2400:01 Now (17_time_tdc.md R437). -/
abbrev Ob.timeNow : Nat := 0x240001
/-- 0x2400:02 Quality (17_time_tdc.md R437). -/
abbrev Ob.timeQuality : Nat := 0x240002
/-- 0x2400:03 Descriptor (17_time_tdc.md R437). -/
abbrev Ob.timeDescriptor : Nat := 0x240003
/-- 0x2400:04 TimeEpoch (17_time_tdc.md R437). -/
abbrev Ob.timeTimeEpoch : Nat := 0x240004
/-- 0x2400:05 StepCount (17_time_tdc.md R437). -/
abbrev Ob.timeStepCount : Nat := 0x240005
/-- 0x2400:06 SetSeconds (17_time_tdc.md R437). -/
abbrev Ob.timeSetSeconds : Nat := 0x240006
/-- 0x2400:07 SyncMode (17_time_tdc.md R437). -/
abbrev Ob.timeSyncMode : Nat := 0x240007
/-- 0x2400:08 SyncDelay (17_time_tdc.md R437). -/
abbrev Ob.timeSyncDelay : Nat := 0x240008
/-- 0x2400:09 SyncSeconds (17_time_tdc.md R437). -/
abbrev Ob.timeSyncSeconds : Nat := 0x240009
/-- 0x2400:0A SyncArm (17_time_tdc.md R437). -/
abbrev Ob.timeSyncArm : Nat := 0x24000A
/-- 0x2400:0B SyncState (17_time_tdc.md R437). -/
abbrev Ob.timeSyncState : Nat := 0x24000B
/-- 0x2400:0C SyncLast (17_time_tdc.md R437). -/
abbrev Ob.timeSyncLast : Nat := 0x24000C
/-- 0x2400:0D SyncResidual (17_time_tdc.md R437). -/
abbrev Ob.timeSyncResidual : Nat := 0x24000D
/-- 0x2400:0E SyncTolerance (17_time_tdc.md R437). -/
abbrev Ob.timeSyncTolerance : Nat := 0x24000E
/-- 0x2400:0F StreamInRate (17_time_tdc.md R437). -/
abbrev Ob.timeStreamInRate : Nat := 0x24000F
/-- 0x2400:10 StreamInEnable (17_time_tdc.md R437). -/
abbrev Ob.timeStreamInEnable : Nat := 0x240010
/-- 0x2400:11 StreamInDelay (17_time_tdc.md R437). -/
abbrev Ob.timeStreamInDelay : Nat := 0x240011
/-- 0x2400:12 StreamState (17_time_tdc.md R437). -/
abbrev Ob.timeStreamState : Nat := 0x240012
/-- 0x2400:13 StreamResidual (17_time_tdc.md R437). -/
abbrev Ob.timeStreamResidual : Nat := 0x240013
/-- 0x2400:14 StreamTolerance (17_time_tdc.md R437). -/
abbrev Ob.timeStreamTolerance : Nat := 0x240014
/-- 0x2400:15 StreamMismatch (17_time_tdc.md R437). -/
abbrev Ob.timeStreamMismatch : Nat := 0x240015
/-- 0x2400:16 UpstreamQuality (17_time_tdc.md R437). -/
abbrev Ob.timeUpstreamQuality : Nat := 0x240016
/-- 0x2400:17 Adopt (17_time_tdc.md R437). -/
abbrev Ob.timeAdopt : Nat := 0x240017
/-- 0x2400:18 StreamOutEnable (17_time_tdc.md R437). -/
abbrev Ob.timeStreamOutEnable : Nat := 0x240018
/-- 0x2400:19 StreamOutRate (17_time_tdc.md R437). -/
abbrev Ob.timeStreamOutRate : Nat := 0x240019
/-- :01 Enable (17_time_tdc.md R444). -/
abbrev Ob.tdcEnable (n : Nat) : Nat := 0x244001 + 0x100 * n
/-- :02 Edges (17_time_tdc.md R444). -/
abbrev Ob.tdcEdges (n : Nat) : Nat := 0x244002 + 0x100 * n
/-- :03 Invert (17_time_tdc.md R444). -/
abbrev Ob.tdcInvert (n : Nat) : Nat := 0x244003 + 0x100 * n
/-- :04 InputDelay (17_time_tdc.md R444). -/
abbrev Ob.tdcInputDelay (n : Nat) : Nat := 0x244004 + 0x100 * n
/-- :05 QueuePolicy (17_time_tdc.md R444). -/
abbrev Ob.tdcQueuePolicy (n : Nat) : Nat := 0x244005 + 0x100 * n
/-- :06 PopBlock (17_time_tdc.md R444). -/
abbrev Ob.tdcPopBlock (n : Nat) : Nat := 0x244006 + 0x100 * n
/-- :07 Fill (17_time_tdc.md R444). -/
abbrev Ob.tdcFill (n : Nat) : Nat := 0x244007 + 0x100 * n
/-- :08 Stamped (17_time_tdc.md R444). -/
abbrev Ob.tdcStamped (n : Nat) : Nat := 0x244008 + 0x100 * n
/-- :09 Losses (17_time_tdc.md R444). -/
abbrev Ob.tdcLosses (n : Nat) : Nat := 0x244009 + 0x100 * n
/-- :0A QueueDrops (17_time_tdc.md R444). -/
abbrev Ob.tdcQueueDrops (n : Nat) : Nat := 0x24400A + 0x100 * n
/-- :0B ClearQueue (17_time_tdc.md R444). -/
abbrev Ob.tdcClearQueue (n : Nat) : Nat := 0x24400B + 0x100 * n
/-- :0C LockState (17_time_tdc.md R444). -/
abbrev Ob.tdcLockState (n : Nat) : Nat := 0x24400C + 0x100 * n
/-- :0D ControlValue (17_time_tdc.md R444). -/
abbrev Ob.tdcControlValue (n : Nat) : Nat := 0x24400D + 0x100 * n
/-- :0E LastStamp (17_time_tdc.md R444). -/
abbrev Ob.tdcLastStamp (n : Nat) : Nat := 0x24400E + 0x100 * n
/-- 0x2460:(s = 0x01) Mode (17_time_tdc.md R444). -/
abbrev Ob.statMode (n : Nat) : Nat := 0x246001 + 0x10 * n
/-- 0x2460:(s = 0x02) ChannelA (17_time_tdc.md R444). -/
abbrev Ob.statChannelA (n : Nat) : Nat := 0x246002 + 0x10 * n
/-- 0x2460:(s = 0x03) ChannelB (17_time_tdc.md R444). -/
abbrev Ob.statChannelB (n : Nat) : Nat := 0x246003 + 0x10 * n
/-- 0x2460:(s = 0x04) Count (17_time_tdc.md R444). -/
abbrev Ob.statCount (n : Nat) : Nat := 0x246004 + 0x10 * n
/-- 0x2460:(s = 0x05) Window (17_time_tdc.md R444). -/
abbrev Ob.statWindow (n : Nat) : Nat := 0x246005 + 0x10 * n
/-- 0x2460:(s = 0x06) Repeat (17_time_tdc.md R444). -/
abbrev Ob.statRepeat (n : Nat) : Nat := 0x246006 + 0x10 * n
/-- 0x2460:(s = 0x07) Start (17_time_tdc.md R444). -/
abbrev Ob.statStart (n : Nat) : Nat := 0x246007 + 0x10 * n
/-- 0x2460:(s = 0x08) Result (17_time_tdc.md R444). -/
abbrev Ob.statResult (n : Nat) : Nat := 0x246008 + 0x10 * n
/-- 0x2460:(s = 0x09) ResultSeq (17_time_tdc.md R444). -/
abbrev Ob.statResultSeq (n : Nat) : Nat := 0x246009 + 0x10 * n
/-- 0x2460:(s = 0x0A) Unpaired (17_time_tdc.md R444). -/
abbrev Ob.statUnpaired (n : Nat) : Nat := 0x24600A + 0x10 * n
/-- 0x1000:00 DeviceType (18_dictionary.md R463). -/
abbrev Ob.comDeviceType : Nat := 0x100000
/-- 0x1001:00 ErrorRegister (18_dictionary.md R463). -/
abbrev Ob.comErrorRegister : Nat := 0x100100
/-- 0x1003:01–0x1003:08 ErrorField (18_dictionary.md R463). -/
abbrev Ob.comErrorField (n : Nat) : Nat := 0x100301 + 0x1 * n
/-- 0x1008:00 DeviceName (18_dictionary.md R463). -/
abbrev Ob.comDeviceName : Nat := 0x100800
/-- 0x1009:00 HardwareVersion (18_dictionary.md R463). -/
abbrev Ob.comHardwareVersion : Nat := 0x100900
/-- 0x100A:00 SoftwareVersion (18_dictionary.md R463). -/
abbrev Ob.comSoftwareVersion : Nat := 0x100A00
/-- 0x1014:00 EmcyCobId (18_dictionary.md R463). -/
abbrev Ob.comEmcyCobId : Nat := 0x101400
/-- 0x1015:00 EmcyInhibit (18_dictionary.md R463). -/
abbrev Ob.comEmcyInhibit : Nat := 0x101500
/-- 0x1017:00 HeartbeatTime (18_dictionary.md R463). -/
abbrev Ob.comHeartbeatTime : Nat := 0x101700
/-- 0x1018:01 VendorId (18_dictionary.md R463). -/
abbrev Ob.comVendorId : Nat := 0x101801
/-- 0x1018:02 ProductCode (18_dictionary.md R463). -/
abbrev Ob.comProductCode : Nat := 0x101802
/-- 0x1018:03 Revision (18_dictionary.md R463). -/
abbrev Ob.comRevision : Nat := 0x101803
/-- 0x1018:04 Serial (18_dictionary.md R463). -/
abbrev Ob.comSerial : Nat := 0x101804
/-- 0x2000:10 NodeId (18_dictionary.md R464). -/
abbrev Ob.devNodeId : Nat := 0x200010
/-- 0x2000:11 CanEnable (18_dictionary.md R464). -/
abbrev Ob.devCanEnable : Nat := 0x200011
/-- 0x2000:12 NominalRate (18_dictionary.md R464). -/
abbrev Ob.devNominalRate : Nat := 0x200012
/-- 0x2000:13 DataRate (18_dictionary.md R464). -/
abbrev Ob.devDataRate : Nat := 0x200013
/-- 0x2000:14 NmtState (18_dictionary.md R464). -/
abbrev Ob.devNmtState : Nat := 0x200014
/-- 0x2000:15 Envelope (18_dictionary.md R464). -/
abbrev Ob.devEnvelope : Nat := 0x200015
/-- 0x2000:16 CanErrorState (18_dictionary.md R464). -/
abbrev Ob.devCanErrorState : Nat := 0x200016
/-- 0x2000:17 SchemaDigest (18_dictionary.md R464). -/
abbrev Ob.devSchemaDigest : Nat := 0x200017
/-- 0x2000:18 FirmwareVersion (18_dictionary.md R464). -/
abbrev Ob.devFirmwareVersion : Nat := 0x200018
/-- 0x2000:19 RestoreState (18_dictionary.md R464). -/
abbrev Ob.devRestoreState : Nat := 0x200019
/-- 0x2000:1A RestoreFailures (18_dictionary.md R464). -/
abbrev Ob.devRestoreFailures : Nat := 0x20001A
/-- 0x2000:1B Duplicates (18_dictionary.md R464). -/
abbrev Ob.devDuplicates : Nat := 0x20001B
/-- 0x5E40:01 UtcOffset (18_dictionary.md R468). -/
abbrev Ob.calUtcOffset : Nat := 0x5E4001
/-- 0x5E40:02 Calendar (18_dictionary.md R468). -/
abbrev Ob.calCalendar : Nat := 0x5E4002
/-- 0x5E40:03 SetCalendar (18_dictionary.md R468). -/
abbrev Ob.calSetCalendar : Nat := 0x5E4003
/-- 0x5E40:04 AlarmTime (18_dictionary.md R468). -/
abbrev Ob.calAlarmTime : Nat := 0x5E4004
/-- 0x5E40:05 AlarmEnable (18_dictionary.md R468). -/
abbrev Ob.calAlarmEnable : Nat := 0x5E4005
/-- 0x2220:01 Current (19_power.md R483). -/
abbrev Ob.opCurrent : Nat := 0x222001
/-- 0x2220:02 Request (19_power.md R483). -/
abbrev Ob.opRequest : Nat := 0x222002
/-- 0x2220:03 Result (19_power.md R483). -/
abbrev Ob.opResult : Nat := 0x222003
/-- 0x2220:04 Phase (19_power.md R483). -/
abbrev Ob.opPhase : Nat := 0x222004
/-- 0x2220:05 StartPoint (19_power.md R483). -/
abbrev Ob.opStartPoint : Nat := 0x222005
/-- 0x2220:06 PlannedVcore (19_power.md R483). -/
abbrev Ob.opPlannedVcore : Nat := 0x222006
/-- 0x2220:07 VcoreNow (19_power.md R483). -/
abbrev Ob.opVcoreNow : Nat := 0x222007
/-- 0x2220:08 VcoreSlew (19_power.md R483). -/
abbrev Ob.opVcoreSlew : Nat := 0x222008
/-- 0x2220:09 SettleTime (19_power.md R483). -/
abbrev Ob.opSettleTime : Nat := 0x222009
/-- 0x2220:0A Transitions (19_power.md R483). -/
abbrev Ob.opTransitions : Nat := 0x22200A
/-- 0x2220:0B InterlockTrips (19_power.md R483). -/
abbrev Ob.opInterlockTrips : Nat := 0x22200B
/-- 0x2220:0C DomainState (19_power.md R483). -/
abbrev Ob.opDomainState : Nat := 0x22200C
/-- 0x2200:01 Envelope (19_power.md R487). -/
abbrev Ob.penvEnvelope : Nat := 0x220001
/-- 0x2200:02 StaticCharge (19_power.md R487). -/
abbrev Ob.penvStaticCharge : Nat := 0x220002
/-- 0x2200:03 BestEffortAllowance (19_power.md R487). -/
abbrev Ob.penvBestEffortAllowance : Nat := 0x220003
/-- 0x2200:04 Throttling (19_power.md R487). -/
abbrev Ob.penvThrottling : Nat := 0x220004
/-- 0x2200:05 ThrottleEvents (19_power.md R487). -/
abbrev Ob.penvThrottleEvents : Nat := 0x220005
/-- 0x2200:06 OverEnvelope (19_power.md R487). -/
abbrev Ob.penvOverEnvelope : Nat := 0x220006
/-- 0x2210:01 MeasuredPower (19_power.md R487). -/
abbrev Ob.ledgMeasuredPower : Nat := 0x221001
/-- 0x2210:02 Energy (19_power.md R487). -/
abbrev Ob.ledgEnergy : Nat := 0x221002
/-- 0x2210:03 RailPower (19_power.md R487). -/
abbrev Ob.ledgRailPower : Nat := 0x221003
/-- 0x2210:04 ShuntMap (19_power.md R487). -/
abbrev Ob.ledgShuntMap : Nat := 0x221004
/-- 0x2210:05 Coefficients (19_power.md R487). -/
abbrev Ob.ledgCoefficients : Nat := 0x221005
/-- 0x2210:06 LastFit (19_power.md R487). -/
abbrev Ob.ledgLastFit : Nat := 0x221006
/-- 0x2210:07 PeakPower (19_power.md R487). -/
abbrev Ob.ledgPeakPower : Nat := 0x221007
/-- 0x2210:08 ClearPeak (19_power.md R487). -/
abbrev Ob.ledgClearPeak : Nat := 0x221008
/-- 0x2232:01 Count (19_power.md R490). -/
abbrev Ob.refuCount : Nat := 0x223201
/-- 0x2232:02 Refuser (19_power.md R490). -/
abbrev Ob.refuRefuser : Nat := 0x223202
/-- 0x2232:03 Kind (19_power.md R490). -/
abbrev Ob.refuKind : Nat := 0x223203
/-- 0x2232:04 When (19_power.md R490). -/
abbrev Ob.refuWhen : Nat := 0x223204
/-- 0x2232:05 Clear (19_power.md R490). -/
abbrev Ob.refuClear : Nat := 0x223205
/-- 0x2231:01 Source (19_power.md R494). -/
abbrev Ob.wakeSource : Nat := 0x223101
/-- 0x2231:02 Others (19_power.md R494). -/
abbrev Ob.wakeOthers : Nat := 0x223102
/-- 0x2231:03 WakeSeconds (19_power.md R494). -/
abbrev Ob.wakeWakeSeconds : Nat := 0x223103
/-- 0x2231:04 StopSeconds (19_power.md R494). -/
abbrev Ob.wakeStopSeconds : Nat := 0x223104
/-- 0x2231:05 StopCause (19_power.md R494). -/
abbrev Ob.wakeStopCause : Nat := 0x223105
/-- 0x2231:06 CanFrame (19_power.md R494). -/
abbrev Ob.wakeCanFrame : Nat := 0x223106
/-- 0x2231:07 WakeCount (19_power.md R494). -/
abbrev Ob.wakeWakeCount : Nat := 0x223107
/-- 0x2230:01 Stop (19_power.md R495). -/
abbrev Ob.stopStop : Nat := 0x223001
/-- 0x2230:02 StopGrace (19_power.md R495). -/
abbrev Ob.stopStopGrace : Nat := 0x223002
/-- 0x2230:03 PinForce (19_power.md R495). -/
abbrev Ob.stopPinForce : Nat := 0x223003
/-- 0x2230:04 WakeEnable (19_power.md R495). -/
abbrev Ob.stopWakeEnable : Nat := 0x223004
/-- 0x2230:05 WakeInPolarity (19_power.md R495). -/
abbrev Ob.stopWakeInPolarity : Nat := 0x223005
/-- 0x2230:06 CanWake (19_power.md R495). -/
abbrev Ob.stopCanWake : Nat := 0x223006
/-- 0x2230:07 AuxLdo0 (19_power.md R495). -/
abbrev Ob.stopAuxLdo0 : Nat := 0x223007
/-- 0x2230:08 AuxLdo1 (19_power.md R495). -/
abbrev Ob.stopAuxLdo1 : Nat := 0x223008
/-- 0x2230:09 AuxLdoState (19_power.md R495). -/
abbrev Ob.stopAuxLdoState : Nat := 0x223009
/-- 0x2230:0A AuxLdoFaults (19_power.md R495). -/
abbrev Ob.stopAuxLdoFaults : Nat := 0x22300A
/-- 0x2230:0B AuxLdoReset (19_power.md R495). -/
abbrev Ob.stopAuxLdoReset : Nat := 0x22300B
/-- 0x2230:0C PowerUpFaults (19_power.md R495). -/
abbrev Ob.stopPowerUpFaults : Nat := 0x22300C
/-- 0x5E30:01 Mismatches (20_lifetime.md R506). -/
abbrev Ob.lockMismatches : Nat := 0x5E3001
/-- 0x5E30:02 Restarts (20_lifetime.md R506). -/
abbrev Ob.lockRestarts : Nat := 0x5E3002
/-- 0x5E30:03 LastRestart (20_lifetime.md R506). -/
abbrev Ob.lockLastRestart : Nat := 0x5E3003
/-- 0x5E30:04 LastCause (20_lifetime.md R506). -/
abbrev Ob.lockLastCause : Nat := 0x5E3004
/-- 0x5E30:05 SelfTests (20_lifetime.md R506). -/
abbrev Ob.lockSelfTests : Nat := 0x5E3005
/-- 0x5E30:06 SelfTestFailures (20_lifetime.md R506). -/
abbrev Ob.lockSelfTestFailures : Nat := 0x5E3006
/-- 0x5E30:07 LatentFault (20_lifetime.md R506). -/
abbrev Ob.lockLatentFault : Nat := 0x5E3007
/-- 0x5E30:08 TestInterval (20_lifetime.md R506). -/
abbrev Ob.lockTestInterval : Nat := 0x5E3008
/-- 0x5E30:09 ClearLatent (20_lifetime.md R506). -/
abbrev Ob.lockClearLatent : Nat := 0x5E3009
/-- 0x5E30:0A Restart (20_lifetime.md R506). -/
abbrev Ob.lockRestart : Nat := 0x5E300A
/-- 0x2100:01 Keep (20_lifetime.md R516). -/
abbrev Ob.panKeep : Nat := 0x210001
/-- 0x2100:02 KeepResult (20_lifetime.md R516). -/
abbrev Ob.panKeepResult : Nat := 0x210002
/-- 0x2100:03 KeptBytes (20_lifetime.md R516). -/
abbrev Ob.panKeptBytes : Nat := 0x210003
/-- 0x2100:04 KeptCapacity (20_lifetime.md R516). -/
abbrev Ob.panKeptCapacity : Nat := 0x210004
/-- 0x2100:05 KeptSeq (20_lifetime.md R516). -/
abbrev Ob.panKeptSeq : Nat := 0x210005
/-- 0x2100:06 KeptAt (20_lifetime.md R516). -/
abbrev Ob.panKeptAt : Nat := 0x210006
/-- 0x2100:07 ActiveCopy (20_lifetime.md R516). -/
abbrev Ob.panActiveCopy : Nat := 0x210007
/-- 0x2100:08 AbandonedKeeps (20_lifetime.md R516). -/
abbrev Ob.panAbandonedKeeps : Nat := 0x210008
/-- 0x2100:09 Discard (20_lifetime.md R516). -/
abbrev Ob.panDiscard : Nat := 0x210009
/-- 0x2100:0A RestoreSource (20_lifetime.md R516). -/
abbrev Ob.panRestoreSource : Nat := 0x21000A
/-- 0x2100:10 FirmwareImage (20_lifetime.md R516). -/
abbrev Ob.panFirmwareImage : Nat := 0x210010
/-- 0x2100:11 FirmwareState (20_lifetime.md R516). -/
abbrev Ob.panFirmwareState : Nat := 0x210011
/-- 0x2100:12 FirmwareSwap (20_lifetime.md R516). -/
abbrev Ob.panFirmwareSwap : Nat := 0x210012
/-- 0x2100:13 FirmwareConfirm (20_lifetime.md R516). -/
abbrev Ob.panFirmwareConfirm : Nat := 0x210013
/-- 0x2100:14 ConfirmWindow (20_lifetime.md R516). -/
abbrev Ob.panConfirmWindow : Nat := 0x210014
/-- 0x2100:15 FirmwareSlots (20_lifetime.md R516). -/
abbrev Ob.panFirmwareSlots : Nat := 0x210015
/-- 0x2100:16 RunningSlot (20_lifetime.md R516). -/
abbrev Ob.panRunningSlot : Nat := 0x210016
/-- 0x2010:01 ServiceHours (20_lifetime.md R519). -/
abbrev Ob.lifeServiceHours : Nat := 0x201001
/-- 0x2010:02 HoursHot (20_lifetime.md R519). -/
abbrev Ob.lifeHoursHot : Nat := 0x201002
/-- 0x2010:03 PlanTime (20_lifetime.md R519). -/
abbrev Ob.lifePlanTime : Nat := 0x201003
/-- 0x2010:04 PlanNow (20_lifetime.md R519). -/
abbrev Ob.lifePlanNow : Nat := 0x201004
/-- 0x2010:05 LastPlan (20_lifetime.md R519). -/
abbrev Ob.lifeLastPlan : Nat := 0x201005
/-- 0x2010:06 PlanRecord (20_lifetime.md R519). -/
abbrev Ob.lifePlanRecord : Nat := 0x201006
/-- 0x2010:07 RetireEngine (20_lifetime.md R519). -/
abbrev Ob.lifeRetireEngine : Nat := 0x201007
/-- 0x2010:08 RetiredEngines (20_lifetime.md R519). -/
abbrev Ob.lifeRetiredEngines : Nat := 0x201008
/-- 0x2010:09 EngineSpareMap (20_lifetime.md R519). -/
abbrev Ob.lifeEngineSpareMap : Nat := 0x201009
/-- 0x2010:0A CorrectedLimit (20_lifetime.md R519). -/
abbrev Ob.lifeCorrectedLimit : Nat := 0x20100A
/-- 0x2010:0B WearFlags (20_lifetime.md R519). -/
abbrev Ob.lifeWearFlags : Nat := 0x20100B
/-- 0x2010:0C AvailabilityFlags (20_lifetime.md R519). -/
abbrev Ob.lifeAvailabilityFlags : Nat := 0x20100C
/-- 0x5E10:01 Entries (20_lifetime.md R521). -/
abbrev Ob.fltEntries : Nat := 0x5E1001
/-- 0x5E10:02 Unread (20_lifetime.md R521). -/
abbrev Ob.fltUnread : Nat := 0x5E1002
/-- 0x5E10:03 Acknowledge (20_lifetime.md R521). -/
abbrev Ob.fltAcknowledge : Nat := 0x5E1003
/-- 0x5E10:04 Overwrites (20_lifetime.md R521). -/
abbrev Ob.fltOverwrites : Nat := 0x5E1004
/-- 0x5E00:01 Corrected (20_lifetime.md R521). -/
abbrev Ob.diagCorrected : Nat := 0x5E0001
/-- 0x5E00:02 Uncorrected (20_lifetime.md R521). -/
abbrev Ob.diagUncorrected : Nat := 0x5E0002
/-- 0x5E00:03 ReceiveCollisions (20_lifetime.md R521). -/
abbrev Ob.diagReceiveCollisions : Nat := 0x5E0003
/-- 0x5E00:04 DiscardedSends (20_lifetime.md R521). -/
abbrev Ob.diagDiscardedSends : Nat := 0x5E0004
/-- 0x5E00:05 DiscardedChanges (20_lifetime.md R521). -/
abbrev Ob.diagDiscardedChanges : Nat := 0x5E0005
/-- 0x5E00:06 DiscardedHostWrites (20_lifetime.md R521). -/
abbrev Ob.diagDiscardedHostWrites : Nat := 0x5E0006
/-- 0x5E00:07 ClearOverTemp (20_lifetime.md R521). -/
abbrev Ob.diagClearOverTemp : Nat := 0x5E0007
/-- 0x5E00:08 ClearCounters (20_lifetime.md R521). -/
abbrev Ob.diagClearCounters : Nat := 0x5E0008
/-- 0x5E20:01 ClusterState (20_lifetime.md R521). -/
abbrev Ob.dikeClusterState : Nat := 0x5E2001
/-- 0x5E20:02 EngineState (20_lifetime.md R521). -/
abbrev Ob.dikeEngineState : Nat := 0x5E2002
/-- 0x5E20:03 QuadState (20_lifetime.md R521). -/
abbrev Ob.dikeQuadState : Nat := 0x5E2003
/-- 0x5E20:04 Migrations (20_lifetime.md R521). -/
abbrev Ob.dikeMigrations : Nat := 0x5E2004
/-- 0x5E20:05 NoticeWithdrawals (20_lifetime.md R521). -/
abbrev Ob.dikeNoticeWithdrawals : Nat := 0x5E2005
/-- 0x5E20:06 LastGap (20_lifetime.md R521). -/
abbrev Ob.dikeLastGap : Nat := 0x5E2006
/-- 0x5E20:07 SentinelRestarts (20_lifetime.md R521). -/
abbrev Ob.dikeSentinelRestarts : Nat := 0x5E2007
/-- 0x5400:01 Enable (21_calibration_housekeeping.md R529). -/
abbrev Ob.hkEnable : Nat := 0x540001
/-- 0x5400:02 SequenceLength (21_calibration_housekeeping.md R529). -/
abbrev Ob.hkSequenceLength : Nat := 0x540002
/-- 0x5400:03 Latest (21_calibration_housekeeping.md R529). -/
abbrev Ob.hkLatest : Nat := 0x540003
/-- 0x5400:04 Conversions (21_calibration_housekeeping.md R529). -/
abbrev Ob.hkConversions : Nat := 0x540004
/-- 0x5400:05 DiffFormat (21_calibration_housekeeping.md R529). -/
abbrev Ob.hkDiffFormat : Nat := 0x540005
/-- 0x5400:06 Temperatures (21_calibration_housekeeping.md R529). -/
abbrev Ob.hkTemperatures : Nat := 0x540006
/-- 0x5400:07 Supplies (21_calibration_housekeeping.md R529). -/
abbrev Ob.hkSupplies : Nat := 0x540007
/-- 0x5400:(0x10·(u+1) + 1) FilterChannel (21_calibration_housekeeping.md R529). -/
abbrev Ob.filtFilterChannel (n : Nat) : Nat := 0x540011 + 0x10 * n
/-- 0x5400:(0x10·(u+1) + 2) FilterMode (21_calibration_housekeeping.md R529). -/
abbrev Ob.filtFilterMode (n : Nat) : Nat := 0x540012 + 0x10 * n
/-- 0x5400:(0x10·(u+1) + 3) FilterLength (21_calibration_housekeeping.md R529). -/
abbrev Ob.filtFilterLength (n : Nat) : Nat := 0x540013 + 0x10 * n
/-- 0x5400:(0x10·(u+1) + 4) FilterInterval (21_calibration_housekeeping.md R529). -/
abbrev Ob.filtFilterInterval (n : Nat) : Nat := 0x540014 + 0x10 * n
/-- 0x5400:(0x10·(u+1) + 5) FilterEnv (21_calibration_housekeeping.md R529). -/
abbrev Ob.filtFilterEnv (n : Nat) : Nat := 0x540015 + 0x10 * n
/-- 0x5400:(0x10·(u+1) + 6) FilterOut (21_calibration_housekeeping.md R529). -/
abbrev Ob.filtFilterOut (n : Nat) : Nat := 0x540016 + 0x10 * n
/-- 0x5480:01 Offsets (21_calibration_housekeeping.md R529). -/
abbrev Ob.hkcOffsets : Nat := 0x548001
/-- 0x5480:02 Gains (21_calibration_housekeeping.md R529). -/
abbrev Ob.hkcGains : Nat := 0x548002
/-- 0x5480:03 Origin (21_calibration_housekeeping.md R529). -/
abbrev Ob.hkcOrigin : Nat := 0x548003
/-- 0x5C00:01 Start (21_calibration_housekeeping.md R536). -/
abbrev Ob.calibStart : Nat := 0x5C0001
/-- 0x5C00:02 Result (21_calibration_housekeeping.md R536). -/
abbrev Ob.calibResult : Nat := 0x5C0002
/-- 0x5C00:03 FailedItem (21_calibration_housekeeping.md R536). -/
abbrev Ob.calibFailedItem : Nat := 0x5C0003
/-- 0x5C00:04 VrefValue (21_calibration_housekeeping.md R536). -/
abbrev Ob.calibVrefValue : Nat := 0x5C0004
/-- 0x5C00:05 ToneFreq (21_calibration_housekeeping.md R536). -/
abbrev Ob.calibToneFreq : Nat := 0x5C0005
/-- 0x5C00:06 ToneLevel (21_calibration_housekeeping.md R536). -/
abbrev Ob.calibToneLevel : Nat := 0x5C0006
/-- 0x5C00:07 PathGain (21_calibration_housekeeping.md R536). -/
abbrev Ob.calibPathGain : Nat := 0x5C0007
/-- 0x5C00:08 PathPhase (21_calibration_housekeeping.md R536). -/
abbrev Ob.calibPathPhase : Nat := 0x5C0008
/-- 0x5C00:09 PathOffset (21_calibration_housekeeping.md R536). -/
abbrev Ob.calibPathOffset : Nat := 0x5C0009
/-- 0x5C00:0A PathValid (21_calibration_housekeeping.md R536). -/
abbrev Ob.calibPathValid : Nat := 0x5C000A
/-- 0x5C00:0B RtcTrim (21_calibration_housekeeping.md R536). -/
abbrev Ob.calibRtcTrim : Nat := 0x5C000B
/-- 0x5C00:0C Capture (21_calibration_housekeeping.md R536). -/
abbrev Ob.calibCapture : Nat := 0x5C000C
/-- 0x5C00:0D StoredSet (21_calibration_housekeeping.md R536). -/
abbrev Ob.calibStoredSet : Nat := 0x5C000D
/-- 0x5C00:0E Reapply (21_calibration_housekeeping.md R536). -/
abbrev Ob.calibReapply : Nat := 0x5C000E
/-- 0x4C00:01 Enable (22_display.md R551). -/
abbrev Ob.dispEnable : Nat := 0x4C0001
/-- 0x4C00:02 State (22_display.md R551). -/
abbrev Ob.dispState : Nat := 0x4C0002
/-- 0x4C00:03 Timing (22_display.md R551). -/
abbrev Ob.dispTiming : Nat := 0x4C0003
/-- 0x4C00:04 MaxLinkRate (22_display.md R551). -/
abbrev Ob.dispMaxLinkRate : Nat := 0x4C0004
/-- 0x4C00:05 SpreadEnable (22_display.md R551). -/
abbrev Ob.dispSpreadEnable : Nat := 0x4C0005
/-- 0x4C00:06 SyncMode (22_display.md R551). -/
abbrev Ob.dispSyncMode : Nat := 0x4C0006
/-- 0x4C00:07 RefreshMin (22_display.md R551). -/
abbrev Ob.dispRefreshMin : Nat := 0x4C0007
/-- 0x4C00:08 RefreshMax (22_display.md R551). -/
abbrev Ob.dispRefreshMax : Nat := 0x4C0008
/-- 0x4C00:09 Buffers (22_display.md R551). -/
abbrev Ob.dispBuffers : Nat := 0x4C0009
/-- 0x4C00:0A Commit (22_display.md R551). -/
abbrev Ob.dispCommit : Nat := 0x4C000A
/-- 0x4C00:0B CommitLead (22_display.md R551). -/
abbrev Ob.dispCommitLead : Nat := 0x4C000B
/-- 0x4C00:0C Shown (22_display.md R551). -/
abbrev Ob.dispShown : Nat := 0x4C000C
/-- 0x4C00:0D FrameCount (22_display.md R551). -/
abbrev Ob.dispFrameCount : Nat := 0x4C000D
/-- 0x4C00:0E LastFrameStart (22_display.md R551). -/
abbrev Ob.dispLastFrameStart : Nat := 0x4C000E
/-- 0x4C00:0F CommitLate (22_display.md R551). -/
abbrev Ob.dispCommitLate : Nat := 0x4C000F
/-- 0x4C00:10 LateCount (22_display.md R551). -/
abbrev Ob.dispLateCount : Nat := 0x4C0010
/-- 0x4C00:11 Superseded (22_display.md R551). -/
abbrev Ob.dispSuperseded : Nat := 0x4C0011
/-- 0x4C00:12 PsrEnable (22_display.md R551). -/
abbrev Ob.dispPsrEnable : Nat := 0x4C0012
/-- 0x4C00:13 PsrFrames (22_display.md R551). -/
abbrev Ob.dispPsrFrames : Nat := 0x4C0013
/-- 0x4C00:14 FetchCrc (22_display.md R551). -/
abbrev Ob.dispFetchCrc : Nat := 0x4C0014
/-- 0x4C00:15 LinkCrc (22_display.md R551). -/
abbrev Ob.dispLinkCrc : Nat := 0x4C0015
/-- 0x4C00:16 CrcMismatches (22_display.md R551). -/
abbrev Ob.dispCrcMismatches : Nat := 0x4C0016
/-- 0x4C00:17 Underruns (22_display.md R551). -/
abbrev Ob.dispUnderruns : Nat := 0x4C0017
/-- 0x4C00:18 FetchCharge (22_display.md R551). -/
abbrev Ob.dispFetchCharge : Nat := 0x4C0018
/-- 0x4C00:19 LastRefusal (22_display.md R551). -/
abbrev Ob.dispLastRefusal : Nat := 0x4C0019
/-- 0x4C00:1A SinkCaps (22_display.md R551). -/
abbrev Ob.dispSinkCaps : Nat := 0x4C001A
/-- 0x4C00:1B Vector (22_display.md R551). -/
abbrev Ob.dispVector : Nat := 0x4C001B
/-- 0x4C00:1C ClearFlags (22_display.md R551). -/
abbrev Ob.dispClearFlags : Nat := 0x4C001C
/-- :01 Function (23_package_electrical.md R567). -/
abbrev Ob.quadFunction (n : Nat) : Nat := 0x260001 + 0x100 * n
/-- :02 Die (23_package_electrical.md R567). -/
abbrev Ob.quadDie (n : Nat) : Nat := 0x260002 + 0x100 * n
/-- :03 LaneState (23_package_electrical.md R567). -/
abbrev Ob.quadLaneState (n : Nat) : Nat := 0x260003 + 0x100 * n
/-- :04 FaultCode (23_package_electrical.md R567). -/
abbrev Ob.quadFaultCode (n : Nat) : Nat := 0x260004 + 0x100 * n
/-- :05 FaultCount (23_package_electrical.md R567). -/
abbrev Ob.quadFaultCount (n : Nat) : Nat := 0x260005 + 0x100 * n
/-- :06 Margin (23_package_electrical.md R567). -/
abbrev Ob.quadMargin (n : Nat) : Nat := 0x260006 + 0x100 * n
/-- :07 MarginScan (23_package_electrical.md R567). -/
abbrev Ob.quadMarginScan (n : Nat) : Nat := 0x260007 + 0x100 * n
/-- :08 ScanResult (23_package_electrical.md R567). -/
abbrev Ob.quadScanResult (n : Nat) : Nat := 0x260008 + 0x100 * n
/-- :09 ClearFault (23_package_electrical.md R567). -/
abbrev Ob.quadClearFault (n : Nat) : Nat := 0x260009 + 0x100 * n
/-- B+0x07:01 ArrayPeers (15_arrays.md R396). -/
abbrev Ob.slotArrayPeers (n : Nat) : Nat := 0x300701 + 0x2000 * n
/-- 0x1003:00 ErrorCount (18_dictionary.md R463). -/
abbrev Ob.comErrorCount : Nat := 0x100300
/-- 0x5440:01–0x5440:40 SequencerTable (21_calibration_housekeeping.md R528). -/
abbrev Ob.hkSequencerTable (n : Nat) : Nat := 0x544001 + 0x1 * n

/-- Rows of the object maps at indices 0x10xx, piece 0. -/
def objRows10a : List ObjRow := [
  ⟨0x100000, 1, 0x0, .u32, .const, 0, false, .any⟩,
  ⟨0x100100, 1, 0x0, .u8, .ro, 0x00, false, .any⟩,
  ⟨0x100301, 8, 0x1, .u32, .ro, 0, false, .any⟩,
  ⟨0x100800, 1, 0x0, .str, .const, 0, false, .any⟩,
  ⟨0x100900, 1, 0x0, .str, .const, 0, false, .any⟩,
  ⟨0x100A00, 1, 0x0, .str, .const, 0, false, .any⟩,
  ⟨0x101400, 1, 0x0, .u32, .rw, 0xFF, true, .any⟩,
  ⟨0x101500, 1, 0x0, .u16, .rw, 10, true, .any⟩,
  ⟨0x101700, 1, 0x0, .u16, .rw, 1000, true, .any⟩,
  ⟨0x101801, 1, 0x0, .u32, .const, 0x004B5255, false, .any⟩,
  ⟨0x101802, 1, 0x0, .u32, .const, 0x00010400, false, .any⟩,
  ⟨0x101803, 1, 0x0, .u32, .const, 0x00020000, false, .any⟩,
  ⟨0x101804, 1, 0x0, .u32, .const, (Config.serialNumber.toNat % 2 ^ 32), false, .any⟩,
  ⟨0x100300, 1, 0x0, .u8, .rw, 0, false, .any⟩]

/-- Rows of the object maps at indices 0x20xx, piece 0. -/
def objRows20a : List ObjRow := [
  ⟨0x200001, 1, 0x0, .str, .const, 0, false, .any⟩,
  ⟨0x200002, 1, 0x0, .u8, .const, Config.variant.toNat, false, .any⟩,
  ⟨0x200003, 1, 0x0, .u8, .const, 0x02, false, .any⟩,
  ⟨0x200004, 1, 0x0, .u64, .const, Config.serialNumber.toNat, false, .any⟩,
  ⟨0x200010, 1, 0x0, .u8, .rw, 127, true, .between 1 127⟩,
  ⟨0x200011, 1, 0x0, .u8, .rw, 0x03, true, .mask 3⟩,
  ⟨0x200012, 1, 0x0, .u8, .rw, 0x01, true, .le 1⟩,
  ⟨0x200013, 1, 0x0, .u8, .rw, 0x02, true, .le 2⟩,
  ⟨0x200014, 1, 0x0, .u8, .ro, 0x7F, false, .any⟩,
  ⟨0x200015, 1, 0x0, .dom, .wo, 0, false, .any⟩,
  ⟨0x200016, 1, 0x0, .u16, .ro, 0x0000, false, .any⟩,
  ⟨0x200017, 1, 0x0, .u32, .const, Config.schemaDigest.toNat, false, .any⟩,
  ⟨0x200018, 1, 0x0, .u32, .const, Config.firmwareVersion.toNat, false, .any⟩,
  ⟨0x200019, 1, 0x0, .u8, .ro, 0x00, false, .any⟩,
  ⟨0x20001A, 1, 0x0, .u32, .ro, 0, false, .any⟩,
  ⟨0x20001B, 1, 0x0, .u32, .ro, 0, false, .any⟩,
  ⟨0x201001, 1, 0x0, .u32, .ro, 0, false, .any⟩,
  ⟨0x201002, 1, 0x0, .u32, .ro, 0, false, .any⟩,
  ⟨0x201003, 1, 0x0, .u32, .rw, 7200, true, .le 86399⟩,
  ⟨0x201004, 1, 0x0, .u8, .act, 0, false, .any⟩,
  ⟨0x201005, 1, 0x0, .time, .ro, 0, false, .any⟩,
  ⟨0x201006, 1, 0x0, .dom, .ro, 0, false, .any⟩,
  ⟨0x201007, 1, 0x0, .u16, .act, 0, false, .any⟩,
  ⟨0x201008, 1, 0x0, .u16, .ro, 0, false, .any⟩,
  ⟨0x201009, 1, 0x0, .u64, .ro, 18446744073709551615, false, .any⟩,
  ⟨0x20100A, 1, 0x0, .u32, .rw, 1000, true, .any⟩,
  ⟨0x20100B, 1, 0x0, .u16, .ro, 0x0000, false, .any⟩,
  ⟨0x20100C, 1, 0x0, .u8, .ro, 0, false, .any⟩]

/-- Rows of the object maps at indices 0x21xx, piece 0. -/
def objRows21a : List ObjRow := [
  ⟨0x210001, 1, 0x0, .u8, .act, 0, false, .any⟩,
  ⟨0x210002, 1, 0x0, .u8, .ro, 0x00, false, .any⟩,
  ⟨0x210003, 1, 0x0, .u32, .ro, 0, false, .any⟩,
  ⟨0x210004, 1, 0x0, .u32, .const, 2883584, false, .any⟩,
  ⟨0x210005, 1, 0x0, .u64, .ro, 0, false, .any⟩,
  ⟨0x210006, 1, 0x0, .u64, .ro, 0, false, .any⟩,
  ⟨0x210007, 1, 0x0, .u8, .ro, 0xFF, false, .any⟩,
  ⟨0x210008, 1, 0x0, .u32, .ro, 0, false, .any⟩,
  ⟨0x210009, 1, 0x0, .u8, .act, 0, false, .any⟩,
  ⟨0x21000A, 1, 0x0, .u8, .ro, 0x00, false, .any⟩,
  ⟨0x210010, 1, 0x0, .dom, .wo, 0, false, .any⟩,
  ⟨0x210011, 1, 0x0, .u8, .ro, 0x00, false, .any⟩,
  ⟨0x210012, 1, 0x0, .u8, .act, 0, false, .any⟩,
  ⟨0x210013, 1, 0x0, .u8, .act, 0, false, .any⟩,
  ⟨0x210014, 1, 0x0, .u32, .rw, 600, true, .between 10 86400⟩,
  ⟨0x210015, 1, 0x0, .dom, .ro, 0, false, .any⟩,
  ⟨0x210016, 1, 0x0, .u8, .ro, 0x00, false, .any⟩]

/-- Rows of the object maps at indices 0x22xx, piece 0. -/
def objRows22a : List ObjRow := [
  ⟨0x222001, 1, 0x0, .u8, .ro, 0x02, false, .any⟩,
  ⟨0x222002, 1, 0x0, .u8, .act, 0, false, .any⟩,
  ⟨0x222003, 1, 0x0, .u8, .ro, 0x00, false, .any⟩,
  ⟨0x222004, 1, 0x0, .u8, .ro, 0x00, false, .any⟩,
  ⟨0x222005, 1, 0x0, .u8, .rw, 0x00, true, .any⟩,
  ⟨0x222006, 1, 0x0, .dom, .ro, 0, false, .any⟩,
  ⟨0x222007, 1, 0x0, .u16, .ro, 0, false, .any⟩,
  ⟨0x222008, 1, 0x0, .u8, .rw, 2, true, .between 1 10⟩,
  ⟨0x222009, 1, 0x0, .u32, .rw, 200, true, .between 20 2000⟩,
  ⟨0x22200A, 1, 0x0, .u32, .ro, 0, false, .any⟩,
  ⟨0x22200B, 1, 0x0, .u32, .ro, 0, false, .any⟩,
  ⟨0x22200C, 1, 0x0, .dom, .ro, 0, false, .any⟩,
  ⟨0x220001, 1, 0x0, .u32, .rw, 240000, true, .between 40000 240000⟩,
  ⟨0x220002, 1, 0x0, .u32, .ro, 0, false, .any⟩,
  ⟨0x220003, 1, 0x0, .u32, .rw, 10000, true, .le 40000⟩,
  ⟨0x220004, 1, 0x0, .bool, .ro, 0, false, .any⟩,
  ⟨0x220005, 1, 0x0, .u32, .ro, 0, false, .any⟩,
  ⟨0x220006, 1, 0x0, .u32, .ro, 0, false, .any⟩,
  ⟨0x221001, 1, 0x0, .u32, .ro, 0, false, .any⟩,
  ⟨0x221002, 1, 0x0, .u64, .ro, 0, false, .any⟩,
  ⟨0x221003, 1, 0x0, .dom, .ro, 0, false, .any⟩,
  ⟨0x221004, 1, 0x0, .dom, .rw, 0, true, .any⟩,
  ⟨0x221005, 1, 0x0, .dom, .ro, 0, false, .any⟩,
  ⟨0x221006, 1, 0x0, .time, .ro, 0, false, .any⟩,
  ⟨0x221007, 1, 0x0, .u32, .ro, 0, false, .any⟩,
  ⟨0x221008, 1, 0x0, .u8, .act, 0, false, .any⟩,
  ⟨0x223201, 1, 0x0, .u32, .ro, 0, false, .any⟩,
  ⟨0x223202, 1, 0x0, .u16, .ro, 0x0000, false, .any⟩,
  ⟨0x223203, 1, 0x0, .u8, .ro, 0x00, false, .any⟩,
  ⟨0x223204, 1, 0x0, .u64, .ro, 0, false, .any⟩,
  ⟨0x223205, 1, 0x0, .u8, .act, 0, false, .any⟩,
  ⟨0x223101, 1, 0x0, .u8, .ro, 0x00, false, .any⟩,
  ⟨0x223102, 1, 0x0, .u8, .ro, 0x00, false, .any⟩,
  ⟨0x223103, 1, 0x0, .u64, .ro, 0, false, .any⟩,
  ⟨0x223104, 1, 0x0, .u64, .ro, 0, false, .any⟩,
  ⟨0x223105, 1, 0x0, .u8, .ro, 0x00, false, .any⟩,
  ⟨0x223106, 1, 0x0, .dom, .ro, 0, false, .any⟩,
  ⟨0x223107, 1, 0x0, .u32, .ro, 0, false, .any⟩,
  ⟨0x223001, 1, 0x0, .u8, .act, 0, false, .any⟩,
  ⟨0x223002, 1, 0x0, .u32, .rw, 100, true, .le 10000⟩,
  ⟨0x223003, 1, 0x0, .bool, .rw, 0, true, .any⟩,
  ⟨0x223004, 1, 0x0, .u8, .rw, 0x01, true, .mask 31⟩,
  ⟨0x223005, 1, 0x0, .bool, .rw, 0, true, .any⟩,
  ⟨0x223006, 1, 0x0, .dom, .rw, 0, true, .any⟩,
  ⟨0x223007, 1, 0x0, .u16, .rw, 0x0000, true, .mask 61440⟩,
  ⟨0x223008, 1, 0x0, .u16, .rw, 0x0000, true, .mask 61440⟩,
  ⟨0x223009, 1, 0x0, .u8, .ro, 0x00, false, .any⟩,
  ⟨0x22300A, 1, 0x0, .u32, .ro, 0, false, .any⟩,
  ⟨0x22300B, 1, 0x0, .u8, .act, 0, false, .any⟩,
  ⟨0x22300C, 1, 0x0, .u32, .ro, 0, false, .any⟩]

/-- Rows of the object maps at indices 0x24xx, piece 0. -/
def objRows24a : List ObjRow := [
  ⟨0x242001, 8, 0x1, .u64, .rw, 0, true, .any⟩,
  ⟨0x242009, 8, 0x1, .u64, .rw, 0, true, .any⟩,
  ⟨0x242011, 8, 0x1, .u32, .rw, 0, true, .any⟩,
  ⟨0x242019, 1, 0x0, .u8, .act, 0, false, .any⟩,
  ⟨0x24201A, 1, 0x0, .u16, .ro, 0x0000, false, .any⟩,
  ⟨0x241001, 1, 0x0, .u8, .rw, 0x00, true, .le 1⟩,
  ⟨0x241002, 1, 0x0, .u64, .rw, 156250000, true, .any⟩,
  ⟨0x241003, 1, 0x0, .u8, .rw, 0x00, true, .le 2⟩,
  ⟨0x241004, 1, 0x0, .u8, .rw, 0x00, true, .le 1⟩,
  ⟨0x241005, 1, 0x0, .u8, .rw, 8, true, .between 4 64⟩,
  ⟨0x241006, 1, 0x0, .u8, .act, 0, false, .any⟩,
  ⟨0x241007, 1, 0x0, .u8, .ro, 0x00, false, .any⟩,
  ⟨0x241008, 1, 0x0, .u64, .ro, 0, false, .any⟩,
  ⟨0x241009, 1, 0x0, .u64, .ro, 0, false, .any⟩,
  ⟨0x24100A, 1, 0x0, .u64, .ro, 0, false, .any⟩,
  ⟨0x24100B, 1, 0x0, .u32, .ro, 0, false, .any⟩,
  ⟨0x24100C, 1, 0x0, .u32, .ro, 0, false, .any⟩,
  ⟨0x24100D, 1, 0x0, .dom, .ro, 0, false, .any⟩,
  ⟨0x24100E, 1, 0x0, .dom, .ro, 0, false, .any⟩,
  ⟨0x24100F, 1, 0x0, .bool, .rw, 1, true, .any⟩,
  ⟨0x240001, 1, 0x0, .time, .ro, 0, false, .any⟩,
  ⟨0x240002, 1, 0x0, .u8, .ro, 0x00, false, .any⟩,
  ⟨0x240003, 1, 0x0, .u32, .ro, 0, false, .any⟩,
  ⟨0x240004, 1, 0x0, .u32, .ro, 0, false, .any⟩,
  ⟨0x240005, 1, 0x0, .u32, .ro, 0, true, .any⟩,
  ⟨0x240006, 1, 0x0, .u64, .act, 0, false, .any⟩,
  ⟨0x240007, 1, 0x0, .u8, .rw, 0x00, true, .any⟩,
  ⟨0x240008, 1, 0x0, .i32, .rw, 0, true, .any⟩,
  ⟨0x240009, 1, 0x0, .u64, .rw, 0, false, .any⟩,
  ⟨0x24000A, 1, 0x0, .u8, .act, 0, false, .any⟩,
  ⟨0x24000B, 1, 0x0, .u8, .ro, 0x00, false, .any⟩,
  ⟨0x24000C, 1, 0x0, .time, .ro, 0, false, .any⟩,
  ⟨0x24000D, 1, 0x0, .i64, .ro, 0, false, .any⟩,
  ⟨0x24000E, 1, 0x0, .u32, .rw, 32, true, .any⟩,
  ⟨0x24000F, 1, 0x0, .u8, .rw, 0x00, true, .le 1⟩,
  ⟨0x240010, 1, 0x0, .bool, .rw, 0, true, .any⟩,
  ⟨0x240011, 1, 0x0, .i32, .rw, 0, true, .any⟩,
  ⟨0x240012, 1, 0x0, .u8, .ro, 0x00, false, .any⟩,
  ⟨0x240013, 1, 0x0, .i32, .ro, 0, false, .any⟩,
  ⟨0x240014, 1, 0x0, .u32, .rw, 64, true, .any⟩,
  ⟨0x240015, 1, 0x0, .bool, .ro, 0, false, .any⟩,
  ⟨0x240016, 1, 0x0, .u8, .ro, 0x00, false, .any⟩,
  ⟨0x240017, 1, 0x0, .u8, .act, 0, false, .any⟩,
  ⟨0x240018, 1, 0x0, .bool, .rw, 0, true, .any⟩,
  ⟨0x240019, 1, 0x0, .u8, .rw, 0x00, true, .le 1⟩,
  ⟨0x244001, 16, 0x100, .bool, .rw, 0, true, .any⟩,
  ⟨0x244002, 16, 0x100, .u8, .rw, 0x01, true, .between 1 3⟩,
  ⟨0x244003, 16, 0x100, .bool, .rw, 0, true, .any⟩,
  ⟨0x244004, 16, 0x100, .i32, .rw, 0, true, .any⟩,
  ⟨0x244005, 16, 0x100, .u8, .rw, 0x00, true, .any⟩,
  ⟨0x244006, 16, 0x100, .dom, .act, 0, false, .any⟩,
  ⟨0x244007, 16, 0x100, .u16, .ro, 0, false, .any⟩,
  ⟨0x244008, 16, 0x100, .u64, .ro, 0, false, .any⟩,
  ⟨0x244009, 16, 0x100, .u64, .ro, 0, false, .any⟩,
  ⟨0x24400A, 16, 0x100, .u64, .ro, 0, false, .any⟩,
  ⟨0x24400B, 16, 0x100, .u8, .act, 0, false, .any⟩,
  ⟨0x24400C, 16, 0x100, .u8, .ro, 0x00, false, .any⟩,
  ⟨0x24400D, 16, 0x100, .dom, .ro, 0, false, .any⟩,
  ⟨0x24400E, 16, 0x100, .u64, .ro, 0, false, .any⟩,
  ⟨0x246001, 4, 0x10, .u8, .rw, 0x00, true, .any⟩]

/-- Rows of the object maps at indices 0x24xx, piece 1. -/
def objRows24b : List ObjRow := [
  ⟨0x246002, 4, 0x10, .u8, .rw, 0, true, .le 15⟩,
  ⟨0x246003, 4, 0x10, .u8, .rw, 1, true, .le 15⟩,
  ⟨0x246004, 4, 0x10, .u32, .rw, 1024, true, .between 2 16777216⟩,
  ⟨0x246005, 4, 0x10, .u32, .rw, 320000, true, .any⟩,
  ⟨0x246006, 4, 0x10, .bool, .rw, 0, true, .any⟩,
  ⟨0x246007, 4, 0x10, .u8, .act, 0, false, .any⟩,
  ⟨0x246008, 4, 0x10, .dom, .ro, 0, false, .any⟩,
  ⟨0x246009, 4, 0x10, .u32, .ro, 0, false, .any⟩,
  ⟨0x24600A, 4, 0x10, .u32, .ro, 0, false, .any⟩]

/-- Rows of the object maps at indices 0x26xx, piece 0. -/
def objRows26a : List ObjRow := [
  ⟨0x266001, 1, 0x0, .u8, .rw, 0x00, true, .mask 3⟩,
  ⟨0x266002, 1, 0x0, .u8, .rw, 0x01, true, .le 1⟩,
  ⟨0x266003, 1, 0x0, .u32, .rw, 320000, true, .any⟩,
  ⟨0x266004, 1, 0x0, .u8, .rw, 0x01, true, .between 1 2⟩,
  ⟨0x266005, 1, 0x0, .u8, .rw, 0x02, true, .between 1 2⟩,
  ⟨0x266006, 1, 0x0, .u8, .rw, 0, true, .le 192⟩,
  ⟨0x266007, 1, 0x0, .u8, .rw, 0, true, .le 192⟩,
  ⟨0x266008, 1, 0x0, .u8, .rw, 0x00, true, .mask 3⟩,
  ⟨0x266009, 1, 0x0, .u8, .rw, 0x00, true, .le 1⟩,
  ⟨0x26600A, 1, 0x0, .u32, .ro, 0, false, .any⟩,
  ⟨0x26600B, 1, 0x0, .u32, .ro, 0, false, .any⟩,
  ⟨0x26600C, 1, 0x0, .u32, .ro, 0, false, .any⟩,
  ⟨0x26600D, 1, 0x0, .u64, .ro, 0, false, .any⟩,
  ⟨0x26600E, 1, 0x0, .u64, .ro, 0, false, .any⟩,
  ⟨0x264001, 4, 0x100, .bool, .rw, 0, true, .any⟩,
  ⟨0x264002, 4, 0x100, .u8, .ro, 0x00, false, .any⟩,
  ⟨0x264003, 4, 0x100, .u8, .ro, 0x00, false, .any⟩,
  ⟨0x264004, 4, 0x100, .dom, .ro, 0, false, .any⟩,
  ⟨0x264005, 4, 0x100, .u8, .ro, 0x00, false, .any⟩,
  ⟨0x264006, 4, 0x100, .u8, .ro, 0x00, false, .any⟩,
  ⟨0x264007, 4, 0x100, .bool, .rw, 1, true, .any⟩,
  ⟨0x264008, 4, 0x100, .u32, .ro, 0, false, .any⟩,
  ⟨0x264009, 4, 0x100, .i32, .rw, 0, true, .any⟩,
  ⟨0x26400A, 4, 0x100, .u32, .ro, 0, false, .any⟩,
  ⟨0x26400B, 4, 0x100, .dom, .ro, 0, false, .any⟩,
  ⟨0x26400C, 4, 0x100, .u32, .ro, 0, false, .any⟩,
  ⟨0x26400D, 4, 0x100, .u32, .ro, 0, false, .any⟩,
  ⟨0x26400E, 4, 0x100, .u32, .ro, 0, false, .any⟩,
  ⟨0x26400F, 4, 0x100, .u32, .ro, 0, false, .any⟩,
  ⟨0x264010, 4, 0x100, .u64, .ro, 0, false, .any⟩,
  ⟨0x264011, 4, 0x100, .u8, .ro, 0, false, .any⟩,
  ⟨0x264012, 4, 0x100, .u8, .act, 0, false, .any⟩,
  ⟨0x264013, 4, 0x100, .u8, .rw, 0x00, false, .le 1⟩,
  ⟨0x264014, 4, 0x100, .u64, .rw, 0, false, .mask 18374686483966590975⟩,
  ⟨0x264015, 4, 0x100, .u8, .ro, 0x00, false, .any⟩,
  ⟨0x264016, 4, 0x100, .dom, .ro, 0, false, .any⟩,
  ⟨0x264017, 4, 0x100, .u64, .ro, 0, false, .any⟩,
  ⟨0x264018, 4, 0x100, .u8, .act, 0, false, .any⟩,
  ⟨0x260001, 36, 0x100, .u8, .const, 0, false, .any⟩,
  ⟨0x260002, 36, 0x100, .u8, .const, 0, false, .any⟩,
  ⟨0x260003, 36, 0x100, .dom, .ro, 0, false, .any⟩,
  ⟨0x260004, 36, 0x100, .u8, .ro, 0x00, false, .any⟩,
  ⟨0x260005, 36, 0x100, .u32, .ro, 0, false, .any⟩,
  ⟨0x260006, 36, 0x100, .dom, .ro, 0, false, .any⟩,
  ⟨0x260007, 36, 0x100, .u8, .act, 0, false, .any⟩,
  ⟨0x260008, 36, 0x100, .dom, .ro, 0, false, .any⟩,
  ⟨0x260009, 36, 0x100, .u8, .act, 0, false, .any⟩]

/-- Rows of the object maps at indices 0x28xx, piece 0. -/
def objRows28a : List ObjRow := [
  ⟨0x280001, 16, 0x100, .u8, .rwq, 0, true, .le 16⟩,
  ⟨0x280002, 16, 0x100, .dom, .rwq, 0, true, .any⟩,
  ⟨0x280003, 16, 0x100, .u16, .rwq, 0x0000, true, .any⟩,
  ⟨0x280004, 16, 0x100, .u32, .rwq, 0, true, .between 6000000 32500000⟩,
  ⟨0x280005, 16, 0x100, .u8, .rwq, 1, true, .any⟩,
  ⟨0x280006, 16, 0x100, .u16, .rwq, 1, true, .any⟩,
  ⟨0x280007, 16, 0x100, .u8, .rwq, 1, true, .any⟩,
  ⟨0x280008, 16, 0x100, .u8, .rwq, 16, true, .any⟩,
  ⟨0x280009, 16, 0x100, .u8, .rwq, 16, true, .oneOf [12, 16]⟩,
  ⟨0x28000A, 16, 0x100, .u8, .rwq, 0, true, .any⟩,
  ⟨0x28000B, 16, 0x100, .u8, .rwq, 1, true, .any⟩,
  ⟨0x28000C, 16, 0x100, .u8, .rwq, 0x01, true, .le 1⟩,
  ⟨0x28000D, 16, 0x100, .u8, .rwq, 0, true, .le 7⟩,
  ⟨0x28000E, 16, 0x100, .i32, .rwq, 0, true, .any⟩,
  ⟨0x28000F, 16, 0x100, .u32, .rwq, 0, true, .any⟩,
  ⟨0x280010, 16, 0x100, .bool, .rw, 1, true, .any⟩,
  ⟨0x280011, 16, 0x100, .u8, .rw, 0x00, true, .le 1⟩,
  ⟨0x280012, 16, 0x100, .bool, .rw, 1, true, .any⟩,
  ⟨0x280013, 16, 0x100, .u8, .act, 0, false, .any⟩,
  ⟨0x280014, 16, 0x100, .u8, .ro, 0x00, false, .any⟩,
  ⟨0x280015, 16, 0x100, .u64, .ro, 0, false, .any⟩,
  ⟨0x280016, 16, 0x100, .u64, .ro, 0, false, .any⟩,
  ⟨0x280017, 16, 0x100, .u32, .ro, 0, false, .any⟩,
  ⟨0x280018, 16, 0x100, .i32, .ro, 0, false, .any⟩,
  ⟨0x280019, 16, 0x100, .u32, .ro, 0, false, .any⟩,
  ⟨0x28001A, 16, 0x100, .u32, .ro, 0, false, .any⟩,
  ⟨0x28001B, 16, 0x100, .u64, .ro, 0, false, .any⟩,
  ⟨0x28001C, 16, 0x100, .u8, .act, 0, false, .any⟩,
  ⟨0x282001, 64, 0x100, .u8, .rwq, 0xFF, true, .orNone 0 15 255⟩,
  ⟨0x282002, 64, 0x100, .u8, .rwq, 0, true, .any⟩,
  ⟨0x282003, 64, 0x100, .u8, .rwq, 0xFF, true, .any⟩,
  ⟨0x282004, 64, 0x100, .u8, .rwq, 0x00, true, .mask 7⟩,
  ⟨0x282005, 64, 0x100, .u8, .rwq, 0xFF, true, .oneOf [0, 1, 2, 255]⟩,
  ⟨0x282006, 64, 0x100, .u32, .rw, 1024, true, .between 2 65536⟩,
  ⟨0x282007, 64, 0x100, .u8, .rw, 0x00, true, .le 1⟩,
  ⟨0x282008, 64, 0x100, .u32, .rw, 65536, true, .between 64 16777216⟩,
  ⟨0x282009, 64, 0x100, .u8, .rw, 2, true, .le 15⟩,
  ⟨0x28200A, 64, 0x100, .u8, .rw, 10, true, .le 15⟩,
  ⟨0x28200B, 64, 0x100, .time, .act, 0, false, .any⟩,
  ⟨0x28200C, 64, 0x100, .u32, .ro, 0, false, .any⟩,
  ⟨0x28200D, 64, 0x100, .logp, .ro, 0x8000, false, .any⟩,
  ⟨0x28200E, 64, 0x100, .u16, .ro, 0, false, .any⟩,
  ⟨0x28200F, 64, 0x100, .u16, .ro, 0, false, .any⟩,
  ⟨0x282010, 64, 0x100, .u16, .ro, 0, false, .any⟩,
  ⟨0x282011, 64, 0x100, .time, .ro, 0, false, .any⟩,
  ⟨0x282012, 64, 0x100, .u8, .ro, 0x00, false, .any⟩,
  ⟨0x282013, 64, 0x100, .u32, .ro, 0, false, .any⟩,
  ⟨0x282014, 64, 0x100, .u32, .ro, 0, false, .any⟩,
  ⟨0x282015, 64, 0x100, .u64, .ro, 0, false, .any⟩,
  ⟨0x288001, 1, 0x0, .u8, .act, 0, false, .any⟩,
  ⟨0x288002, 1, 0x0, .time, .ro, 0, false, .any⟩,
  ⟨0x288003, 1, 0x0, .dom, .ro, 0, false, .any⟩,
  ⟨0x288004, 1, 0x0, .u64, .act, 0, false, .any⟩,
  ⟨0x282016, 64, 0x100, .u16, .rw, 0xFFFF, true, .orNone 0 255 65535⟩,
  ⟨0x282017, 64, 0x100, .u8, .rw, 0x00, true, .any⟩,
  ⟨0x282018, 64, 0x100, .i16, .rw, 0, true, .any⟩,
  ⟨0x282019, 64, 0x100, .i16, .rw, 0, true, .any⟩,
  ⟨0x28201A, 64, 0x100, .u64, .ro, 0, false, .any⟩]

/-- Rows of the object maps at indices 0x30xx, piece 0. -/
def objRows30a : List ObjRow := [
  ⟨0x300001, 64, 0x2000, .u8, .rwq, 0x00, true, .le 6⟩,
  ⟨0x300002, 64, 0x2000, .u32, .rw, 0, true, .any⟩,
  ⟨0x300003, 64, 0x2000, .u8, .rwq, 0x00, true, .le 2⟩,
  ⟨0x300004, 64, 0x2000, .bool, .rwq, 0, true, .any⟩,
  ⟨0x300005, 64, 0x2000, .u64, .rwq, 0, true, .any⟩,
  ⟨0x300006, 64, 0x2000, .u64, .rwq, 0, true, .any⟩,
  ⟨0x300007, 64, 0x2000, .u8, .rwq, 0x00, true, .le 2⟩,
  ⟨0x300008, 64, 0x2000, .u8, .rwq, 0xFF, false, .orNone 0 63 255⟩,
  ⟨0x300009, 64, 0x2000, .bool, .rw, 0, true, .any⟩,
  ⟨0x30000A, 64, 0x2000, .u8, .act, 0, false, .any⟩,
  ⟨0x30000B, 64, 0x2000, .u8, .act, 0, false, .any⟩,
  ⟨0x30000C, 64, 0x2000, .u8, .ro, 0x00, false, .any⟩,
  ⟨0x30000D, 64, 0x2000, .u8, .rwq, 0x00, true, .le 1⟩,
  ⟨0x300101, 64, 0x2000, .u64, .rwq, 0, true, .any⟩,
  ⟨0x300102, 64, 0x2000, .u8, .rwq, 0x00, true, .le 2⟩,
  ⟨0x300103, 64, 0x2000, .u64, .rwq, 0, true, .any⟩,
  ⟨0x300201, 64, 0x2000, .dom, .rwq, 0, true, .any⟩,
  ⟨0x300301, 64, 0x2000, .u16, .rwq, 0, true, .mask 63⟩,
  ⟨0x300302, 64, 0x2000, .u8, .rwq, 0, true, .le 31⟩,
  ⟨0x300303, 64, 0x2000, .u8, .rwq, 0, true, .mask 63⟩,
  ⟨0x300304, 64, 0x2000, .u8, .rwq, 0, true, .any⟩,
  ⟨0x300305, 64, 0x2000, .u16, .rwq, 0, true, .le 256⟩,
  ⟨0x300401, 64, 0x2000, .dom, .rwq, 0, true, .any⟩,
  ⟨0x300801, 64, 0x2000, .u16, .ro, 0x0000, false, .any⟩,
  ⟨0x300802, 64, 0x2000, .u64, .ro, 0, false, .any⟩,
  ⟨0x300803, 64, 0x2000, .u64, .ro, 0, false, .any⟩,
  ⟨0x300804, 64, 0x2000, .u64, .ro, 0, false, .any⟩,
  ⟨0x300805, 64, 0x2000, .u64, .ro, 0, false, .any⟩,
  ⟨0x300806, 64, 0x2000, .u32, .ro, 0, false, .any⟩,
  ⟨0x300807, 64, 0x2000, .u8, .ro, 0x00, false, .any⟩,
  ⟨0x300808, 64, 0x2000, .u64, .ro, 0, false, .any⟩,
  ⟨0x300809, 64, 0x2000, .time, .ro, 0, false, .any⟩,
  ⟨0x30080A, 64, 0x2000, .u16, .ro, 0, false, .any⟩,
  ⟨0x300901, 64, 0x2000, .dom, .ro, 0, false, .any⟩,
  ⟨0x300A01, 64, 0x2000, .dom, .ro, 0, false, .any⟩,
  ⟨0x300C01, 64, 0x2000, .time, .act, 0, false, .any⟩,
  ⟨0x300C02, 64, 0x2000, .u8, .act, 0, false, .any⟩,
  ⟨0x300C03, 64, 0x2000, .u8, .ro, 0x00, false, .any⟩,
  ⟨0x300C04, 64, 0x2000, .u8, .ro, 0x00, false, .any⟩,
  ⟨0x300C05, 64, 0x2000, .time, .ro, 0, false, .any⟩,
  ⟨0x300C06, 64, 0x2000, .u32, .ro, 0, false, .any⟩,
  ⟨0x300C07, 64, 0x2000, .bool, .ro, 0, false, .any⟩,
  ⟨0x300C08, 64, 0x2000, .u32, .ro, 0, false, .any⟩,
  ⟨0x300C09, 64, 0x2000, .u32, .ro, 0, false, .any⟩,
  ⟨0x300501, 64, 0x2000, .u64, .rwq, 0, true, .any⟩,
  ⟨0x300502, 64, 0x2000, .u8, .rwq, 0x00, true, .le 1⟩,
  ⟨0x300503, 64, 0x2000, .u64, .rwq, 0, true, .any⟩,
  ⟨0x300504, 64, 0x2000, .u64, .rwq, 0, true, .any⟩,
  ⟨0x300505, 64, 0x2000, .bool, .rwq, 0, true, .any⟩,
  ⟨0x300506, 64, 0x2000, .u32, .rw, 100000, true, .between 1000 10000000⟩,
  ⟨0x300507, 64, 0x2000, .bool, .rwq, 0, true, .any⟩,
  ⟨0x300508, 64, 0x2000, .u64, .rw, 0, false, .any⟩,
  ⟨0x300601, 64, 0x2000, .dom, .ro, 0, false, .any⟩,
  ⟨0x300602, 64, 0x2000, .u64, .ro, 0, false, .any⟩,
  ⟨0x300603, 64, 0x2000, .u64, .ro, 0, false, .any⟩,
  ⟨0x300604, 64, 0x2000, .u64, .ro, 0, false, .any⟩,
  ⟨0x300605, 64, 0x2000, .u64, .ro, 0, false, .any⟩,
  ⟨0x300606, 64, 0x2000, .u64, .ro, 0, false, .any⟩,
  ⟨0x300607, 64, 0x2000, .u64, .ro, 0, false, .any⟩,
  ⟨0x300608, 64, 0x2000, .u64, .ro, 0, false, .any⟩]

/-- Rows of the object maps at indices 0x30xx, piece 1. -/
def objRows30b : List ObjRow := [
  ⟨0x300609, 64, 0x2000, .u64, .ro, 0, false, .any⟩,
  ⟨0x30060A, 64, 0x2000, .u64, .ro, 0, false, .any⟩,
  ⟨0x30060B, 64, 0x2000, .u32, .ro, 0, false, .any⟩,
  ⟨0x30060C, 64, 0x2000, .u64, .ro, 0, false, .any⟩,
  ⟨0x30060D, 64, 0x2000, .u8, .ro, 0x00, false, .any⟩,
  ⟨0x30060E, 64, 0x2000, .u8, .act, 0, false, .any⟩,
  ⟨0x30060F, 64, 0x2000, .u8, .act, 0, false, .any⟩,
  ⟨0x300610, 64, 0x2000, .u64, .ro, 0, false, .any⟩,
  ⟨0x300402, 64, 0x2000, .dom, .rw, 0, true, .any⟩,
  ⟨0x300701, 64, 0x2000, .u8, .rwq, 0x00, true, .any⟩]

/-- Rows of the object maps at indices 0x38xx, piece 0. -/
def objRows38a : List ObjRow := [
  ⟨0x380001, 1, 0x0, .u8, .act, 0, false, .any⟩,
  ⟨0x380002, 1, 0x0, .u8, .ro, 0x00, false, .any⟩,
  ⟨0x380003, 1, 0x0, .u8, .ro, 0xFF, false, .any⟩,
  ⟨0x380004, 1, 0x0, .u32, .ro, 0, false, .any⟩,
  ⟨0x380005, 1, 0x0, .u64, .ro, 0, false, .any⟩,
  ⟨0x380006, 1, 0x0, .u64, .ro, 0, false, .any⟩,
  ⟨0x380007, 1, 0x0, .u8, .ro, 0x00, false, .any⟩,
  ⟨0x380008, 1, 0x0, .dom, .act, 0, false, .any⟩,
  ⟨0x380009, 1, 0x0, .u32, .ro, 0, false, .any⟩,
  ⟨0x38000A, 1, 0x0, .bool, .ro, 0, false, .any⟩,
  ⟨0x38000B, 1, 0x0, .u32, .ro, 0, false, .any⟩,
  ⟨0x38000C, 1, 0x0, .u8, .ro, 0x00, false, .any⟩]

/-- Rows of the object maps at indices 0x40xx, piece 0. -/
def objRows40a : List ObjRow := [
  ⟨0x406001, 1, 0x0, .dom, .ro, 0, false, .any⟩,
  ⟨0x406002, 1, 0x0, .dom, .ro, 0, false, .any⟩,
  ⟨0x406003, 1, 0x0, .dom, .ro, 0, false, .any⟩,
  ⟨0x406004, 1, 0x0, .dom, .ro, 0, false, .any⟩,
  ⟨0x406005, 1, 0x0, .dom, .ro, 0, false, .any⟩,
  ⟨0x406006, 1, 0x0, .dom, .act, 0, false, .any⟩,
  ⟨0x406007, 1, 0x0, .dom, .ro, 0, false, .any⟩,
  ⟨0x406008, 1, 0x0, .dom, .rw, 0, true, .any⟩,
  ⟨0x406009, 1, 0x0, .dom, .ro, 0, false, .any⟩,
  ⟨0x40600A, 1, 0x0, .dom, .ro, 0, false, .any⟩,
  ⟨0x40600B, 1, 0x0, .u32, .ro, 0, false, .any⟩,
  ⟨0x40600C, 1, 0x0, .u8, .act, 0, false, .any⟩,
  ⟨0x406010, 8, 0x1, .u64, .rw, 0, true, .any⟩,
  ⟨0x400001, 16, 0x100, .dom, .rw, 0, true, .any⟩,
  ⟨0x400002, 16, 0x100, .u16, .rw, 0, true, .le 4096⟩,
  ⟨0x400003, 16, 0x100, .u16, .rw, 1, true, .between 1 65535⟩,
  ⟨0x400004, 16, 0x100, .u16, .rw, 1, true, .between 1 65535⟩,
  ⟨0x400005, 16, 0x100, .u16, .rw, 1, true, .between 1 65535⟩,
  ⟨0x400006, 16, 0x100, .bool, .rw, 1, true, .any⟩,
  ⟨0x400007, 16, 0x100, .u8, .ro, 0xFF, false, .any⟩,
  ⟨0x400008, 16, 0x100, .u32, .ro, 0, false, .any⟩,
  ⟨0x400009, 16, 0x100, .dom, .ro, 0, false, .any⟩,
  ⟨0x40000A, 16, 0x100, .u64, .ro, 0, false, .any⟩,
  ⟨0x404001, 16, 0x100, .dom, .rw, 0, true, .any⟩,
  ⟨0x404002, 16, 0x100, .dom, .rw, 0, true, .any⟩,
  ⟨0x404003, 16, 0x100, .u32, .rw, 0, true, .any⟩,
  ⟨0x404004, 16, 0x100, .u32, .rw, 0, true, .any⟩,
  ⟨0x404005, 16, 0x100, .u16, .rw, 0x0000, true, .mask 4095⟩,
  ⟨0x404006, 16, 0x100, .bool, .rw, 0, true, .any⟩,
  ⟨0x404007, 16, 0x100, .u8, .rw, 0xFF, true, .orNone 0 63 255⟩,
  ⟨0x404008, 16, 0x100, .u64, .ro, 0, false, .any⟩,
  ⟨0x404009, 16, 0x100, .u32, .ro, 0, false, .any⟩,
  ⟨0x40400A, 16, 0x100, .time, .ro, 0, false, .any⟩,
  ⟨0x40400B, 16, 0x100, .bool, .ro, 0, false, .any⟩,
  ⟨0x402001, 4, 0x100, .u8, .rwq, 0x00, true, .le 1⟩,
  ⟨0x402002, 4, 0x100, .u8, .rwq, 0xFF, true, .orNone 0 63 255⟩,
  ⟨0x402003, 4, 0x100, .u16, .rwq, 0, true, .le 2048⟩,
  ⟨0x402004, 4, 0x100, .u16, .rwq, 512, true, .between 1 512⟩,
  ⟨0x402005, 4, 0x100, .u8, .rwq, 1, true, .between 1 32⟩,
  ⟨0x402006, 4, 0x100, .u8, .rw, 0x00, true, .le 2⟩,
  ⟨0x402007, 4, 0x100, .i16, .rw, 0, true, .any⟩,
  ⟨0x402008, 4, 0x100, .u16, .rw, 64, true, .between 1 4096⟩,
  ⟨0x402009, 4, 0x100, .u8, .rw, 0x00, true, .le 1⟩,
  ⟨0x40200A, 4, 0x100, .u8, .rwq, 0x01, true, .between 1 10⟩,
  ⟨0x40200B, 4, 0x100, .u8, .rwq, 0x00, true, .le 10⟩,
  ⟨0x40200C, 4, 0x100, .i32, .rw, 0, true, .any⟩,
  ⟨0x40200D, 4, 0x100, .u8, .rw, 0, true, .le 31⟩,
  ⟨0x40200E, 4, 0x100, .i32, .rw, 0, true, .any⟩,
  ⟨0x40200F, 4, 0x100, .u8, .rw, 0, true, .le 31⟩,
  ⟨0x402010, 4, 0x100, .u8, .rw, 0x00, true, .mask 3⟩,
  ⟨0x402011, 4, 0x100, .u32, .rwq, 0, true, .any⟩,
  ⟨0x402012, 4, 0x100, .u16, .rw, 0, true, .any⟩,
  ⟨0x402013, 4, 0x100, .u8, .rw, 4, true, .between 1 31⟩,
  ⟨0x402014, 4, 0x100, .bool, .rw, 0, true, .any⟩,
  ⟨0x402015, 4, 0x100, .bool, .rwq, 0, true, .any⟩,
  ⟨0x402016, 4, 0x100, .time, .act, 0, false, .any⟩,
  ⟨0x402017, 4, 0x100, .u8, .ro, 0x00, false, .any⟩,
  ⟨0x402018, 4, 0x100, .time, .ro, 0, false, .any⟩,
  ⟨0x402019, 4, 0x100, .u32, .ro, 0, false, .any⟩,
  ⟨0x40201A, 4, 0x100, .time, .act, 0, false, .any⟩]

/-- Rows of the object maps at indices 0x40xx, piece 1. -/
def objRows40b : List ObjRow := [
  ⟨0x40201B, 4, 0x100, .bool, .rw, 0, true, .any⟩,
  ⟨0x40201C, 4, 0x100, .u32, .rw, 0, true, .any⟩,
  ⟨0x40201D, 4, 0x100, .u32, .rw, 0, true, .any⟩,
  ⟨0x40201E, 4, 0x100, .u16, .rw, 1, true, .between 1 4096⟩,
  ⟨0x40201F, 4, 0x100, .u32, .rw, 1, true, .between 1 4294967295⟩,
  ⟨0x402020, 4, 0x100, .u32, .rw, 1, true, .any⟩,
  ⟨0x402021, 4, 0x100, .bool, .rwq, 0, true, .any⟩,
  ⟨0x402022, 4, 0x100, .u32, .ro, 0, false, .any⟩,
  ⟨0x402023, 4, 0x100, .u64, .ro, 0, false, .any⟩,
  ⟨0x402024, 4, 0x100, .u64, .ro, 0, false, .any⟩,
  ⟨0x402025, 4, 0x100, .u32, .ro, 0, false, .any⟩,
  ⟨0x402026, 4, 0x100, .u8, .ro, 0xFF, false, .any⟩,
  ⟨0x402027, 4, 0x100, .dom, .ro, 0, false, .any⟩,
  ⟨0x402028, 4, 0x100, .bool, .rw, 0, true, .any⟩,
  ⟨0x402029, 4, 0x100, .dom, .rw, 0, true, .any⟩,
  ⟨0x40202A, 4, 0x100, .dom, .rw, 0, true, .any⟩,
  ⟨0x40202B, 4, 0x100, .u32, .ro, 0, false, .any⟩]

/-- Rows of the object maps at indices 0x42xx, piece 0. -/
def objRows42a : List ObjRow := [
  ⟨0x420001, 4, 0x10, .u32, .rwq, 0, true, .any⟩,
  ⟨0x420002, 4, 0x10, .dom, .rwq, 0, true, .any⟩,
  ⟨0x420003, 4, 0x10, .u8, .act, 0, false, .any⟩,
  ⟨0x420004, 4, 0x10, .bool, .ro, 0, false, .any⟩,
  ⟨0x420005, 4, 0x10, .u32, .ro, 0, false, .any⟩,
  ⟨0x420006, 4, 0x10, .u32, .ro, 0, false, .any⟩,
  ⟨0x420007, 4, 0x10, .u32, .ro, 0, false, .any⟩]

/-- Rows of the object maps at indices 0x44xx, piece 0. -/
def objRows44a : List ObjRow := [
  ⟨0x440001, 4, 0x10, .u32, .rwq, 0, true, .any⟩,
  ⟨0x440002, 4, 0x10, .dom, .rwq, 0, true, .any⟩,
  ⟨0x440003, 4, 0x10, .u8, .act, 0, false, .any⟩,
  ⟨0x440004, 4, 0x10, .bool, .ro, 0, false, .any⟩,
  ⟨0x440005, 4, 0x10, .u64, .ro, 0, false, .any⟩,
  ⟨0x440006, 4, 0x10, .u32, .ro, 0, false, .any⟩,
  ⟨0x440041, 1, 0x0, .dom, .ro, 0, false, .any⟩,
  ⟨0x440042, 1, 0x0, .dom, .ro, 0, false, .any⟩]

/-- Rows of the object maps at indices 0x46xx, piece 0. -/
def objRows46a : List ObjRow := [
  ⟨0x460001, 1, 0x0, .u32, .const, 200000000, false, .any⟩,
  ⟨0x460002, 1, 0x0, .u32, .ro, 0, false, .any⟩,
  ⟨0x460003, 1, 0x0, .u8, .rw, 0xFF, false, .orNone 0 63 255⟩,
  ⟨0x460004, 1, 0x0, .dom, .ro, 0, false, .any⟩,
  ⟨0x460005, 1, 0x0, .dom, .ro, 0, false, .any⟩,
  ⟨0x460006, 1, 0x0, .dom, .ro, 0, false, .any⟩,
  ⟨0x460007, 1, 0x0, .dom, .ro, 0, false, .any⟩,
  ⟨0x460008, 1, 0x0, .dom, .ro, 0, false, .any⟩,
  ⟨0x460009, 1, 0x0, .u8, .act, 0, false, .any⟩]

/-- Rows of the object maps at indices 0x48xx, piece 0. -/
def objRows48a : List ObjRow := [
  ⟨0x480001, 1, 0x0, .u64, .ro, 0, false, .any⟩,
  ⟨0x480002, 1, 0x0, .u64, .ro, 49928994816, false, .any⟩,
  ⟨0x480003, 1, 0x0, .u64, .ro, 0, false, .any⟩,
  ⟨0x480004, 1, 0x0, .u32, .const, 262272, false, .any⟩,
  ⟨0x488001, 32, 0x100, .u16, .ro, 0x0000, false, .any⟩,
  ⟨0x488002, 32, 0x100, .u8, .rw, 3, false, .le 3⟩,
  ⟨0x488003, 32, 0x100, .u8, .rw, 0x00, false, .le 1⟩,
  ⟨0x488004, 32, 0x100, .u64, .rw, 0, false, .any⟩,
  ⟨0x488005, 32, 0x100, .u8, .rw, 0x00, false, .le 1⟩,
  ⟨0x488006, 32, 0x100, .u64, .rw, 0, false, .any⟩,
  ⟨0x488007, 32, 0x100, .u32, .rw, 0, false, .between 1 4294967295⟩,
  ⟨0x488008, 32, 0x100, .u8, .act, 0, false, .any⟩,
  ⟨0x488009, 32, 0x100, .bool, .rw, 0, false, .any⟩,
  ⟨0x48800A, 32, 0x100, .u8, .act, 0, false, .any⟩,
  ⟨0x48800B, 32, 0x100, .u8, .ro, 0x00, false, .any⟩,
  ⟨0x48800C, 32, 0x100, .u64, .ro, 0, false, .any⟩,
  ⟨0x48800D, 32, 0x100, .u64, .ro, 0, false, .any⟩,
  ⟨0x48800E, 32, 0x100, .u32, .ro, 0, false, .any⟩,
  ⟨0x48800F, 32, 0x100, .u16, .ro, 0, false, .any⟩,
  ⟨0x488010, 32, 0x100, .u8, .ro, 0x00, false, .any⟩,
  ⟨0x488011, 32, 0x100, .u8, .ro, 0xFF, false, .any⟩,
  ⟨0x488012, 32, 0x100, .u64, .ro, 0, false, .any⟩,
  ⟨0x488013, 32, 0x100, .u32, .ro, 0, false, .any⟩,
  ⟨0x488014, 32, 0x100, .u32, .ro, 0, false, .any⟩,
  ⟨0x488015, 32, 0x100, .u32, .ro, 0, false, .any⟩,
  ⟨0x488016, 32, 0x100, .u8, .ro, 0x00, false, .any⟩,
  ⟨0x488017, 32, 0x100, .u16, .rw, 0xFFFF, false, .orNone 0 255 65535⟩,
  ⟨0x488020, 1, 0x0, .u64, .ro, 0, false, .any⟩,
  ⟨0x488021, 1, 0x0, .u64, .ro, 192000000000, false, .any⟩,
  ⟨0x482001, 32, 0x100, .u8, .rwq, 0, false, .le 9⟩,
  ⟨0x482002, 32, 0x100, .u32, .rwq, 0, false, .between 2 16384⟩,
  ⟨0x482003, 32, 0x100, .dom, .rwq, 0, false, .any⟩,
  ⟨0x482004, 32, 0x100, .u16, .rw, 0xFFFF, false, .orNone 3 255 65535⟩,
  ⟨0x482005, 32, 0x100, .u16, .rw, 1, false, .between 1 65535⟩,
  ⟨0x482006, 32, 0x100, .u32, .rw, 100, false, .between 1 1000000⟩,
  ⟨0x482007, 32, 0x100, .u8, .act, 0, false, .any⟩,
  ⟨0x482008, 32, 0x100, .u8, .ro, 0x00, false, .any⟩,
  ⟨0x482009, 32, 0x100, .u8, .ro, 0xFF, false, .any⟩,
  ⟨0x48200A, 32, 0x100, .u64, .ro, 0, false, .any⟩,
  ⟨0x48200B, 32, 0x100, .u64, .ro, 0, false, .any⟩,
  ⟨0x48200C, 32, 0x100, .u64, .ro, 0, false, .any⟩,
  ⟨0x48200D, 32, 0x100, .u32, .ro, 0, false, .any⟩,
  ⟨0x48200E, 32, 0x100, .u32, .ro, 0, false, .any⟩,
  ⟨0x48200F, 32, 0x100, .u32, .ro, 0, false, .any⟩,
  ⟨0x482010, 32, 0x100, .u64, .ro, 0, false, .any⟩,
  ⟨0x482011, 32, 0x100, .u8, .act, 0, false, .any⟩,
  ⟨0x482030, 1, 0x0, .u8, .ro, 0x00, false, .any⟩,
  ⟨0x482031, 1, 0x0, .u8, .ro, 0, false, .any⟩,
  ⟨0x482032, 1, 0x0, .u64, .ro, 0, false, .any⟩,
  ⟨0x482033, 1, 0x0, .u64, .ro, 0, false, .any⟩,
  ⟨0x482034, 1, 0x0, .bool, .ro, 0, false, .any⟩,
  ⟨0x482035, 1, 0x0, .u32, .ro, 0, false, .any⟩,
  ⟨0x482036, 1, 0x0, .u8, .rw, 0x06, true, .between 4 6⟩,
  ⟨0x482037, 1, 0x0, .u8, .act, 0, false, .any⟩,
  ⟨0x482038, 1, 0x0, .u32, .ro, 0, false, .any⟩,
  ⟨0x486001, 6, 0x100, .bool, .rw, 0, true, .any⟩,
  ⟨0x486002, 6, 0x100, .u16, .ro, 0x0000, false, .any⟩,
  ⟨0x486003, 6, 0x100, .u8, .ro, 0x00, false, .any⟩,
  ⟨0x486004, 6, 0x100, .str, .ro, 0, false, .any⟩,
  ⟨0x486005, 6, 0x100, .u64, .ro, 0, false, .any⟩]

/-- Rows of the object maps at indices 0x48xx, piece 1. -/
def objRows48b : List ObjRow := [
  ⟨0x486006, 6, 0x100, .u64, .rw, 274877906944, true, .any⟩,
  ⟨0x486007, 6, 0x100, .u8, .act, 0, false, .any⟩,
  ⟨0x486008, 6, 0x100, .u64, .ro, 0, true, .any⟩,
  ⟨0x486009, 6, 0x100, .u64, .ro, 0, true, .any⟩,
  ⟨0x48600A, 6, 0x100, .time, .ro, 0, true, .any⟩,
  ⟨0x48600B, 6, 0x100, .u8, .ro, 0xFF, false, .any⟩,
  ⟨0x48600C, 6, 0x100, .dom, .ro, 0, false, .any⟩,
  ⟨0x48600D, 6, 0x100, .u32, .ro, 0, false, .any⟩,
  ⟨0x48600E, 6, 0x100, .u32, .ro, 0, false, .any⟩,
  ⟨0x48600F, 6, 0x100, .u8, .ro, 0x00, false, .any⟩,
  ⟨0x486010, 6, 0x100, .u8, .act, 0, false, .any⟩,
  ⟨0x486011, 6, 0x100, .u16, .rw, 0xFFFF, false, .orNone 0 255 65535⟩,
  ⟨0x486012, 6, 0x100, .u64, .ro, 0, false, .any⟩,
  ⟨0x486020, 1, 0x0, .u8, .act, 0, false, .any⟩,
  ⟨0x486021, 1, 0x0, .u8, .ro, 0x00, false, .any⟩,
  ⟨0x486022, 1, 0x0, .u64, .ro, 0, false, .any⟩,
  ⟨0x486023, 1, 0x0, .dom, .ro, 0, false, .any⟩,
  ⟨0x486024, 1, 0x0, .u32, .act, 0, false, .any⟩,
  ⟨0x486025, 1, 0x0, .dom, .ro, 0, false, .any⟩,
  ⟨0x486026, 1, 0x0, .u32, .ro, 1, false, .any⟩,
  ⟨0x486027, 1, 0x0, .dom, .ro, 0, false, .any⟩]

/-- Rows of the object maps at indices 0x4Cxx, piece 0. -/
def objRows4Ca : List ObjRow := [
  ⟨0x4C0001, 1, 0x0, .bool, .rw, 0, true, .any⟩,
  ⟨0x4C0002, 1, 0x0, .u8, .ro, 0x00, false, .any⟩,
  ⟨0x4C0003, 1, 0x0, .dom, .rw, 0, true, .any⟩,
  ⟨0x4C0004, 1, 0x0, .u8, .rw, 0x07, true, .le 7⟩,
  ⟨0x4C0005, 1, 0x0, .bool, .rw, 0, true, .any⟩,
  ⟨0x4C0006, 1, 0x0, .u8, .rw, 0x00, true, .le 1⟩,
  ⟨0x4C0007, 1, 0x0, .u32, .rw, 48000, true, .between 48000 120000⟩,
  ⟨0x4C0008, 1, 0x0, .u32, .rw, 60000, true, .between 48000 120000⟩,
  ⟨0x4C0009, 1, 0x0, .dom, .rw, 0, true, .any⟩,
  ⟨0x4C000A, 1, 0x0, .u8, .act, 0, false, .any⟩,
  ⟨0x4C000B, 1, 0x0, .u32, .rw, 500, true, .between 100 5000⟩,
  ⟨0x4C000C, 1, 0x0, .u8, .ro, 0xFF, false, .any⟩,
  ⟨0x4C000D, 1, 0x0, .u64, .ro, 0, false, .any⟩,
  ⟨0x4C000E, 1, 0x0, .time, .ro, 0, false, .any⟩,
  ⟨0x4C000F, 1, 0x0, .bool, .ro, 0, false, .any⟩,
  ⟨0x4C0010, 1, 0x0, .u32, .ro, 0, false, .any⟩,
  ⟨0x4C0011, 1, 0x0, .u32, .ro, 0, false, .any⟩,
  ⟨0x4C0012, 1, 0x0, .bool, .rw, 1, true, .any⟩,
  ⟨0x4C0013, 1, 0x0, .u8, .rw, 2, true, .between 1 255⟩,
  ⟨0x4C0014, 1, 0x0, .u32, .ro, 0, false, .any⟩,
  ⟨0x4C0015, 1, 0x0, .u32, .ro, 0, false, .any⟩,
  ⟨0x4C0016, 1, 0x0, .u32, .ro, 0, false, .any⟩,
  ⟨0x4C0017, 1, 0x0, .u32, .ro, 0, false, .any⟩,
  ⟨0x4C0018, 1, 0x0, .u64, .ro, 0, false, .any⟩,
  ⟨0x4C0019, 1, 0x0, .u8, .ro, 0x00, false, .any⟩,
  ⟨0x4C001A, 1, 0x0, .dom, .ro, 0, false, .any⟩,
  ⟨0x4C001B, 1, 0x0, .u16, .rw, 0xFFFF, false, .orNone 0 255 65535⟩,
  ⟨0x4C001C, 1, 0x0, .u8, .act, 0, false, .any⟩]

/-- Rows of the object maps at indices 0x50xx, piece 0. -/
def objRows50a : List ObjRow := [
  ⟨0x500001, 1, 0x0, .dom, .rw, 0, true, .any⟩,
  ⟨0x500002, 1, 0x0, .u8, .ro, 62, false, .any⟩,
  ⟨0x500003, 1, 0x0, .u64, .ro, 0x8000000080000000, false, .any⟩,
  ⟨0x500004, 1, 0x0, .u64, .ro, 0, false, .any⟩,
  ⟨0x500005, 1, 0x0, .u64, .ro, 0, false, .any⟩,
  ⟨0x500006, 1, 0x0, .u64, .ro, 1000000000000, false, .any⟩,
  ⟨0x500007, 1, 0x0, .u64, .ro, 0, false, .any⟩,
  ⟨0x500008, 1, 0x0, .u8, .ro, 0x00, false, .any⟩,
  ⟨0x500009, 1, 0x0, .dom, .ro, 0, false, .any⟩,
  ⟨0x50000A, 1, 0x0, .bool, .ro, 0, false, .any⟩,
  ⟨0x50000B, 1, 0x0, .dom, .rw, 0, true, .any⟩,
  ⟨0x50000C, 1, 0x0, .u32, .rw, 100000, true, .between 1000 100000⟩,
  ⟨0x50000D, 1, 0x0, .u8, .rw, 0x00, true, .le 2⟩,
  ⟨0x50000E, 1, 0x0, .bool, .rw, 1, true, .any⟩,
  ⟨0x50000F, 1, 0x0, .u16, .rw, 24, true, .between 1 168⟩,
  ⟨0x501001, 64, 0x100, .u8, .ro, 0, false, .any⟩,
  ⟨0x501002, 64, 0x100, .u8, .ro, 0, false, .any⟩,
  ⟨0x501003, 64, 0x100, .u32, .ro, 0, false, .any⟩,
  ⟨0x501004, 64, 0x100, .u32, .ro, 0, false, .any⟩,
  ⟨0x501005, 64, 0x100, .u32, .ro, 0, false, .any⟩,
  ⟨0x501006, 64, 0x100, .dom, .ro, 0, false, .any⟩,
  ⟨0x501007, 64, 0x100, .u8, .act, 0, false, .any⟩,
  ⟨0x501008, 64, 0x100, .u8, .ro, 0x00, false, .any⟩,
  ⟨0x501009, 64, 0x100, .u16, .ro, 0, false, .any⟩,
  ⟨0x50100A, 64, 0x100, .u16, .ro, 0, false, .any⟩,
  ⟨0x50100B, 64, 0x100, .u8, .ro, 0x00, false, .any⟩,
  ⟨0x50100C, 64, 0x100, .u8, .act, 0, false, .any⟩]

/-- Rows of the object maps at indices 0x54xx, piece 0. -/
def objRows54a : List ObjRow := [
  ⟨0x540001, 1, 0x0, .bool, .rw, 1, true, .any⟩,
  ⟨0x540002, 1, 0x0, .u8, .rw, 1, true, .between 1 64⟩,
  ⟨0x540003, 1, 0x0, .dom, .ro, 0, false, .any⟩,
  ⟨0x540004, 1, 0x0, .u64, .ro, 0, false, .any⟩,
  ⟨0x540005, 1, 0x0, .u8, .rw, 0x00, true, .mask 15⟩,
  ⟨0x540006, 1, 0x0, .dom, .ro, 0, false, .any⟩,
  ⟨0x540007, 1, 0x0, .dom, .ro, 0, false, .any⟩,
  ⟨0x540011, 8, 0x10, .u8, .rw, 0xFF, true, .orNone 0 61 255⟩,
  ⟨0x540012, 8, 0x10, .u8, .rw, 0x00, true, .le 1⟩,
  ⟨0x540013, 8, 0x10, .u32, .rw, 1024, true, .between 2 65536⟩,
  ⟨0x540014, 8, 0x10, .u32, .rw, 1024, true, .between 64 16777216⟩,
  ⟨0x540015, 8, 0x10, .u16, .rw, 0x0A02, true, .mask 3855⟩,
  ⟨0x540016, 8, 0x10, .dom, .ro, 0, false, .any⟩,
  ⟨0x548001, 1, 0x0, .dom, .rw, 0, false, .any⟩,
  ⟨0x548002, 1, 0x0, .dom, .rw, 0, false, .any⟩,
  ⟨0x548003, 1, 0x0, .u8, .ro, 0x00, false, .any⟩,
  ⟨0x544001, 64, 0x1, .u32, .rw, 0, true, .any⟩]

/-- Rows of the object maps at indices 0x58xx, piece 0. -/
def objRows58a : List ObjRow := [
  ⟨0x580001, 64, 0x100, .dom, .rwq, 0, true, .any⟩,
  ⟨0x580002, 64, 0x100, .u8, .act, 0, false, .any⟩,
  ⟨0x580003, 64, 0x100, .bool, .ro, 0, false, .any⟩,
  ⟨0x580004, 64, 0x100, .u16, .ro, 0, false, .any⟩,
  ⟨0x580005, 64, 0x100, .u32, .ro, 0, false, .any⟩,
  ⟨0x580006, 64, 0x100, .u16, .ro, 0, false, .any⟩,
  ⟨0x580007, 64, 0x100, .u32, .ro, 0, false, .any⟩,
  ⟨0x580008, 64, 0x100, .u8, .act, 0, false, .any⟩,
  ⟨0x580009, 64, 0x100, .u32, .ro, 0, false, .any⟩,
  ⟨0x58000A, 64, 0x100, .u32, .ro, 0, false, .any⟩,
  ⟨0x58000B, 64, 0x100, .u16, .ro, 0, false, .any⟩,
  ⟨0x58000C, 64, 0x100, .u16, .ro, 0xFFFF, false, .any⟩,
  ⟨0x58000D, 64, 0x100, .u32, .ro, 0, false, .any⟩,
  ⟨0x58000E, 64, 0x100, .u64, .ro, 0, false, .any⟩,
  ⟨0x584001, 64, 0x100, .dom, .rwq, 0, true, .any⟩,
  ⟨0x584002, 64, 0x100, .u8, .act, 0, false, .any⟩,
  ⟨0x584003, 64, 0x100, .bool, .ro, 0, false, .any⟩,
  ⟨0x584004, 64, 0x100, .u16, .ro, 0, false, .any⟩,
  ⟨0x584005, 64, 0x100, .u32, .ro, 0, false, .any⟩,
  ⟨0x584006, 64, 0x100, .u64, .ro, 0, false, .any⟩,
  ⟨0x584007, 64, 0x100, .u16, .ro, 0xFFFF, false, .any⟩]

/-- Rows of the object maps at indices 0x5Cxx, piece 0. -/
def objRows5Ca : List ObjRow := [
  ⟨0x5C0001, 1, 0x0, .dom, .act, 0, false, .any⟩,
  ⟨0x5C0002, 1, 0x0, .u8, .ro, 0x00, false, .any⟩,
  ⟨0x5C0003, 1, 0x0, .u8, .ro, 0xFF, false, .any⟩,
  ⟨0x5C0004, 1, 0x0, .u32, .rw, 1200000, true, .between 1000000 1250000⟩,
  ⟨0x5C0005, 1, 0x0, .u64, .rw, 0, true, .any⟩,
  ⟨0x5C0006, 1, 0x0, .logp, .rw, 0xFB00, true, .any⟩,
  ⟨0x5C0007, 1, 0x0, .dom, .rw, 0, false, .any⟩,
  ⟨0x5C0008, 1, 0x0, .dom, .rw, 0, false, .any⟩,
  ⟨0x5C0009, 1, 0x0, .dom, .rw, 0, false, .any⟩,
  ⟨0x5C000A, 1, 0x0, .u64, .rw, 0, false, .any⟩,
  ⟨0x5C000B, 1, 0x0, .i32, .rw, 0, false, .any⟩,
  ⟨0x5C000C, 1, 0x0, .u8, .act, 0, false, .any⟩,
  ⟨0x5C000D, 1, 0x0, .dom, .rw, 0, true, .any⟩,
  ⟨0x5C000E, 1, 0x0, .u8, .act, 0, false, .any⟩]

/-- Rows of the object maps at indices 0x5Exx, piece 0. -/
def objRows5Ea : List ObjRow := [
  ⟨0x5E4001, 1, 0x0, .i32, .rw, 0, true, .any⟩,
  ⟨0x5E4002, 1, 0x0, .dom, .ro, 0, false, .any⟩,
  ⟨0x5E4003, 1, 0x0, .dom, .act, 0, false, .any⟩,
  ⟨0x5E4004, 1, 0x0, .dom, .rw, 0, true, .any⟩,
  ⟨0x5E4005, 1, 0x0, .bool, .rw, 0, true, .any⟩,
  ⟨0x5E3001, 1, 0x0, .u32, .ro, 0, false, .any⟩,
  ⟨0x5E3002, 1, 0x0, .u32, .ro, 0, false, .any⟩,
  ⟨0x5E3003, 1, 0x0, .time, .ro, 0, false, .any⟩,
  ⟨0x5E3004, 1, 0x0, .u8, .ro, 0x00, false, .any⟩,
  ⟨0x5E3005, 1, 0x0, .u64, .ro, 0, false, .any⟩,
  ⟨0x5E3006, 1, 0x0, .u32, .ro, 0, false, .any⟩,
  ⟨0x5E3007, 1, 0x0, .bool, .ro, 0, false, .any⟩,
  ⟨0x5E3008, 1, 0x0, .u32, .ro, 1000, false, .any⟩,
  ⟨0x5E3009, 1, 0x0, .u8, .act, 0, false, .any⟩,
  ⟨0x5E300A, 1, 0x0, .u8, .act, 0, false, .any⟩,
  ⟨0x5E1001, 1, 0x0, .dom, .ro, 0, false, .any⟩,
  ⟨0x5E1002, 1, 0x0, .u16, .ro, 0, false, .any⟩,
  ⟨0x5E1003, 1, 0x0, .u16, .act, 0, false, .any⟩,
  ⟨0x5E1004, 1, 0x0, .u32, .ro, 0, false, .any⟩,
  ⟨0x5E0001, 1, 0x0, .dom, .ro, 0, false, .any⟩,
  ⟨0x5E0002, 1, 0x0, .dom, .ro, 0, false, .any⟩,
  ⟨0x5E0003, 1, 0x0, .u64, .ro, 0, false, .any⟩,
  ⟨0x5E0004, 1, 0x0, .u64, .ro, 0, false, .any⟩,
  ⟨0x5E0005, 1, 0x0, .u64, .ro, 0, false, .any⟩,
  ⟨0x5E0006, 1, 0x0, .u64, .ro, 0, false, .any⟩,
  ⟨0x5E0007, 1, 0x0, .u8, .act, 0, false, .any⟩,
  ⟨0x5E0008, 1, 0x0, .u8, .act, 0, false, .any⟩,
  ⟨0x5E2001, 1, 0x0, .dom, .ro, 0, false, .any⟩,
  ⟨0x5E2002, 1, 0x0, .dom, .ro, 0, false, .any⟩,
  ⟨0x5E2003, 1, 0x0, .dom, .ro, 0, false, .any⟩,
  ⟨0x5E2004, 1, 0x0, .u32, .ro, 0, false, .any⟩,
  ⟨0x5E2005, 1, 0x0, .u32, .ro, 0, false, .any⟩,
  ⟨0x5E2006, 1, 0x0, .dom, .ro, 0, false, .any⟩,
  ⟨0x5E2007, 1, 0x0, .u32, .ro, 0, false, .any⟩]

/-- Rows of the object maps at indices 0x5Fxx, piece 0. -/
def objRows5Fa : List ObjRow := [
  ⟨0x5F0001, 1, 0x0, .dom, .rw, 0, true, .any⟩,
  ⟨0x5F0002, 1, 0x0, .u8, .rw, 0xFF, true, .le 7⟩,
  ⟨0x5F0003, 1, 0x0, .u32, .rw, 32, true, .between 1 65535⟩,
  ⟨0x5F0004, 1, 0x0, .u8, .rw, 0x00, true, .any⟩,
  ⟨0x5F0005, 1, 0x0, .bool, .rw, 0, true, .any⟩,
  ⟨0x5F0006, 1, 0x0, .u8, .ro, 0x00, false, .any⟩,
  ⟨0x5F0007, 1, 0x0, .u32, .ro, 0, false, .any⟩,
  ⟨0x5F0008, 1, 0x0, .u8, .act, 0, false, .any⟩,
  ⟨0x5F0009, 1, 0x0, .u8, .ro, 0x00, false, .any⟩,
  ⟨0x5F000A, 1, 0x0, .u8, .ro, 0x00, false, .any⟩,
  ⟨0x5F000B, 1, 0x0, .u8, .ro, 0x00, false, .any⟩,
  ⟨0x5F000C, 1, 0x0, .i64, .ro, 0, false, .any⟩,
  ⟨0x5F000D, 1, 0x0, .dom, .ro, 0, false, .any⟩,
  ⟨0x5F000E, 1, 0x0, .dom, .ro, 0, false, .any⟩,
  ⟨0x5F000F, 1, 0x0, .u8, .act, 0, false, .any⟩]

/-- All rows of the object maps, in ascending index order. -/
def objRows : List ObjRow :=
  objRows10a ++ objRows20a ++ objRows21a ++ objRows22a ++ objRows24a ++ objRows24b ++ objRows26a ++ objRows28a ++ objRows30a ++ objRows30b ++ objRows38a ++ objRows40a ++ objRows40b ++ objRows42a ++ objRows44a ++ objRows46a ++ objRows48a ++ objRows48b ++ objRows4Ca ++ objRows50a ++ objRows54a ++ objRows58a ++ objRows5Ca ++ objRows5Ea ++ objRows5Fa
/-- The rows that can hold a key. -/
def objRowsAt (k : Nat) : List ObjRow :=
  match k / 0x10000 with
  | 0x10 => objRows10a
  | 0x20 => objRows20a
  | 0x21 => objRows21a
  | 0x22 => objRows22a
  | 0x24 => objRows24a ++ objRows24b
  | 0x26 => objRows26a
  | 0x28 => objRows28a
  | 0x30 | 0x31 | 0x32 | 0x33 | 0x34 | 0x35 | 0x36 | 0x37 => objRows30a ++ objRows30b
  | 0x38 => objRows38a
  | 0x40 => objRows40a ++ objRows40b
  | 0x42 => objRows42a
  | 0x44 => objRows44a
  | 0x46 => objRows46a
  | 0x48 => objRows48a ++ objRows48b
  | 0x4C => objRows4Ca
  | 0x50 => objRows50a
  | 0x54 => objRows54a
  | 0x58 => objRows58a
  | 0x5C => objRows5Ca
  | 0x5E => objRows5Ea
  | 0x5F => objRows5Fa
  | _ => []
/-- The octets of an ISO 646 string. -/
def leStr (x : String) : Bytes := x.toList.map fun c => BitVec.ofNat 8 c.toNat

/-- The default interleave masks (12_memory.md R312): Stack, PC4-PC0, BA1, BA0, BG1, BG0. -/
def maskDefault : Bytes :=
  ([2 ^ 33, 2 ^ 32, 2 ^ 31, 2 ^ 30, 2 ^ 29, 2 ^ 28, 2 ^ 13 + 2 ^ 17 + 2 ^ 21 + 2 ^ 25, 2 ^ 12 + 2 ^ 16 + 2 ^ 20 + 2 ^ 24,
    2 ^ 11 + 2 ^ 15 + 2 ^ 19 + 2 ^ 23, 2 ^ 10 + 2 ^ 14 + 2 ^ 18 + 2 ^ 22] : List Nat).flatMap fun m => leBytes 8 m

/-- Lengths of the DOMAINs whose Default is zeros. -/
def zeroDoms : List (Nat × Nat × Nat × Nat) := [
  (0x24100D, 1, 0x0, 12),
  (0x24100E, 1, 0x0, 24),
  (0x404001, 16, 0x100, 32),
  (0x404002, 16, 0x100, 32),
  (0x406001, 1, 0x0, 32),
  (0x406002, 1, 0x0, 1024),
  (0x406003, 1, 0x0, 2048),
  (0x406004, 1, 0x0, 2048),
  (0x406005, 1, 0x0, 32),
  (0x406007, 1, 0x0, 1024),
  (0x406009, 1, 0x0, 32),
  (0x440041, 1, 0x0, 512),
  (0x440042, 1, 0x0, 512),
  (0x500009, 1, 0x0, 4),
  (0x486025, 1, 0x0, 48),
  (0x26400B, 4, 0x100, 8),
  (0x264016, 4, 0x100, 64),
  (0x5F000D, 1, 0x0, 32),
  (0x5F000E, 1, 0x0, 64),
  (0x24400D, 16, 0x100, 4),
  (0x246008, 4, 0x10, 48),
  (0x22200C, 1, 0x0, 16),
  (0x221003, 1, 0x0, 36),
  (0x210015, 1, 0x0, 16),
  (0x201006, 1, 0x0, 6528),
  (0x5E0001, 1, 0x0, 56),
  (0x5E0002, 1, 0x0, 56),
  (0x5E2001, 1, 0x0, 64),
  (0x5E2003, 1, 0x0, 36),
  (0x5E2006, 1, 0x0, 32),
  (0x540003, 1, 0x0, 256),
  (0x540006, 1, 0x0, 40),
  (0x540007, 1, 0x0, 32),
  (0x540016, 8, 0x10, 40),
  (0x5C0007, 1, 0x0, 128),
  (0x5C0008, 1, 0x0, 128),
  (0x5C0009, 1, 0x0, 256),
  (0x260003, 36, 0x100, 4),
  (0x260006, 36, 0x100, 16)]

/-- The Default of a DOMAIN or string: zeros of its length, a fixed string, or empty. -/
def domDefault (k : Nat) : Bytes :=
  if k = 0x200001 then (leStr "TN1024-H48")
  else if k = 0x100800 then (leStr "TN1024-H48")
  else if k = 0x100900 then (leStr "B")
  else if k = 0x100A00 then Config.softwareVersion
  else if k = 0x500001 then maskDefault
  else if k = 0x222006 then (leBytes 2 800 ++ leBytes 2 720 ++ leBytes 2 650)
  else if k = 0x548001 then Config.hkOffsets
  else if k = 0x548002 then Config.hkGains
  else match zeroDoms.find? (fun r => if r.2.1 = 1 then k == r.1 else decide (r.1 ≤ k) && (k - r.1) % r.2.2.1 == 0
      && decide ((k - r.1) / r.2.2.1 < r.2.1)) with
    | some r => List.replicate r.2.2.2 0
    | none => []


/-- Function and Die of a lane quad (R19, R567). -/
def quadFunctionOf (q : Nat) : Nat :=
  if q < 16 then 1 else if q < 20 then 2 else if q < 26 then 3 else if q < 34 then 4 else if q = 34 then 5 else 6
def quadDieOf (q : Nat) : Nat := if (8 ≤ q ∧ q < 16) ∨ (20 ≤ q ∧ q < 26) ∨ (30 ≤ q ∧ q < 34) then 1 else 0

/-- The row of a key, if the object exists (R446). -/
def objRow (k : Nat) : Option ObjRow := (objRowsAt k).find? fun r => r.holds k

/-- The Default of a key: what it holds after power-up when nothing has been restored; 0 where the map gives none. -/
def objDefault (k : Nat) : Nat :=
  if 0x501000 ≤ k ∧ k < 0x505000 ∧ k % 256 = 2 ∧ (k - 0x501002) / 256 % 32 ≠ 31 then (k - 0x501002) / 256
  else if k = 0x502F01 ∨ k = 0x504F01 then 1
  else if k = 0x502F02 ∨ k = 0x504F02 then 0xFF
  else if 0x260000 ≤ k ∧ k < 0x262400 ∧ k % 256 = 1 then quadFunctionOf ((k - 0x260000) / 256)
  else if 0x260000 ≤ k ∧ k < 0x262400 ∧ k % 256 = 2 then quadDieOf ((k - 0x260000) / 256)
  else match objRow k with
  | some r => r.dflt
  | none => 0

/-- Does the index exist (R446)? -/
def indexExists (ix : Nat) : Bool :=
  (objRowsAt (ix * 256)).any fun r =>
    if r.count = 1 then r.base / 256 == ix
    else if r.stride < 256 then r.base / 256 == ix
    else decide (r.base / 256 ≤ ix) && (ix - r.base / 256) % (r.stride / 256) == 0
      && decide ((ix - r.base / 256) / (r.stride / 256) < r.count)

/-- The highest subindex of an index (R446, subindex 0x00). -/
def highestSub (ix : Nat) : Nat :=
  (objRowsAt (ix * 256)).foldl (fun m r =>
    if r.count = 1 then (if r.base / 256 == ix then max m (r.base % 256) else m)
    else if r.stride < 256 then
      (if r.base / 256 == ix then max m (r.base % 256 + (r.count - 1) * r.stride) else m)
    else if decide (r.base / 256 ≤ ix) && (ix - r.base / 256) % (r.stride / 256) == 0
      && decide ((ix - r.base / 256) / (r.stride / 256) < r.count) then max m (r.base % 256) else m) 0

end Sys2Proof.Machine
end

