-- ==== Sys2Proof/Machine/TimeState.lean ====
section
/-! DEFINITION. State of device time, of the timing stream, of the TDCs and of SYN-T that no dictionary object holds (spec/16_clocks.md, spec/17_time_tdc.md). -/

namespace Sys2Proof.Machine

/-- One message of the timing stream (R435). -/
structure StreamMsg where
  seconds : Nat
  milli : Nat
  quality : Nat
  epoch : Nat
  descriptor : Nat
  deriving DecidableEq, Repr

/-- Device time (R426-R437): the axis counts u_T and never steps; device time is the axis plus an offset while it counts
(R430) and a held value otherwise. -/
structure TimeState where
  /-- device time minus axis, while device time counts -/
  offset : Int := 0
  /-- device time counts (R430) -/
  counting : Bool := false
  /-- last value device time held, u_T -/
  held : Nat := 0
  /-- Class of Quality (R427) -/
  cls : Nat := 0
  /-- SYN-T is Locked after power-up or an Apply and device time waits for the RTC's second boundary (R430) -/
  awaitRtc : Bool := false
  /-- pending SetSeconds (R431) -/
  setPending : Option Nat := none
  /-- what a read of SetSeconds returns; none before any (R450) -/
  setStatus : Option Nat := none
  /-- Seconds of the sentinel's RTC -/
  rtcSeconds : Nat := 0
  /-- the RTC is to be realigned at the next second boundary of device time (R430) -/
  rtcRealign : Bool := false
  /-- axis time of the latest stamped SYNC_IN edge (R432) -/
  syncEdgeAt : Option Nat := none
  /-- axis time of a SYNC_IN edge with a residual within SyncTolerance (R428) -/
  syncGoodAt : Option Nat := none
  /-- axis time of the arm (R433) -/
  syncArmedAt : Nat := 0
  /-- consecutive valid Marks (R436) -/
  marks : Nat := 0
  /-- the message of the latest valid Mark -/
  lastMsg : Option StreamMsg := none
  /-- axis time of the latest valid Mark -/
  lastMarkAt : Option Nat := none
  /-- residuals of the last 64 valid Marks, newest first (R436) -/
  residuals : List Int := []
  /-- the lane Q35.2 has block lock -/
  streamLock : Bool := false
  /-- the stream confirms time unless it mismatched (R437) -/
  streamConfirms : Bool := true
  /-- Quality of the array lead, on a follower (R428) -/
  leadQuality : Option Nat := none
  deriving DecidableEq, Repr

/-- One TDC channel (R438-R443). -/
structure TdcState where
  /-- front buffer, oldest first: stamp in u_T of device time, falling edge, Uncal, LossBefore -/
  front : List (Nat × Bool × Bool × Bool) := []
  /-- queue of entries (R439), oldest first -/
  queue : List Nat := []
  /-- axis times of the latest stamped rising and falling edges (dead time) -/
  lastRise : Option Nat := none
  lastFall : Option Nat := none
  /-- an edge was lost since the latest entry formed -/
  lossPending : Bool := false
  /-- a queue drop occurred since the latest entry entered -/
  dropPending : Bool := false
  /-- the active delay line, 0 or 1 -/
  active : Nat := 0
  /-- bias codes of the two lines (ControlValue) -/
  control0 : Nat := 0
  control1 : Nat := 0
  /-- error below 1 u_T, per line -/
  locked0 : Bool := false
  locked1 : Bool := false
  /-- the line has a table of tap widths -/
  table0 : List Nat := []
  table1 : List Nat := []
  /-- entries the latest PopBlock removed -/
  popped : Option (List Nat) := none
  deriving DecidableEq, Repr

/-- One statistics unit (R442). -/
structure StatState where
  running : Bool := false
  n : Nat := 0
  s1 : Int := 0
  s2 : Int := 0
  vmin : Int := 0
  vmax : Int := 0
  /-- open ChannelA stamp (Interval), preceding rising stamp (Period, Width) -/
  openA : Option Nat := none
  /-- an Uncal stamp opened the value in progress -/
  openUncal : Bool := false
  lost : Bool := false
  unlocked : Bool := false
  uncal : Bool := false
  deriving DecidableEq, Repr

/-- One clock output of SYN-T: 0-7 DCLK_OUT, 8-15 SREF_OUT (R419-R421). -/
structure ClkOut where
  /-- the first edge of the sequence that starts the output, axis-free device time -/
  startAt : Option Nat := none
  /-- pulses of a burst still to send, while one is waiting or being sent -/
  burst : Nat := 0
  /-- disabled and completing its last low phase, pulse or burst -/
  stopping : Bool := false
  deriving DecidableEq, Repr

/-- SYN-T (R411-R418). -/
structure SynState where
  /-- what a read of Apply returns; none before any -/
  applyResult : Option Nat := none
  /-- the SYN-T source in force: 0 REFCLK_IN, 1 timing stream -/
  source : Nat := 0
  /-- f_ref in force, Hz -/
  fRef : Nat := 0
  /-- f_T that Locked will give, Hz -/
  fTNext : Nat := 0
  /-- f_inj rounded down, Hz -/
  fInjNext : Nat := 0
  /-- a first Locked since the latest Apply has happened -/
  lockedOnce : Bool := false
  /-- axis time at which Holdover was entered -/
  lostAt : Nat := 0
  /-- the reference has requalified and f_T is being slewed (R417) -/
  slewing : Bool := false
  /-- SrefFire outputs ignored by the latest fire; none before any -/
  fireIgnored : Option Nat := none
  deriving DecidableEq, Repr

end Sys2Proof.Machine
end

