-- ==== Sys2Proof/Machine/OutState.lean ====
section
/-! DEFINITION. What the device puts on its pins and links in one command. -/

namespace Sys2Proof.Machine

/-- One thing put out: a message, a frame, a level or a posted write. `Out` messages are those of the latest command only
(log entry 5). -/
inductive Out where
  /-- MSI-X vector (R358) -/
  | msix (vector : Nat)
  /-- a CAN FD frame: port, identifier, data (R459-R463) -/
  | can (port ident : Nat) (data : Bytes)
  /-- TRIG_OUT[k] takes a level at a device time (R147) -/
  | trigOut (k : Nat) (level : Bool) (time : Nat)
  /-- a slot of a stream lane that carries a primitive: lane, its two 64B/66B data blocks as they stand before scrambling (DESIGN CHOICE, log entry 167), Polarity
  inverts them, device time of the first bit (R148-R150, R153) -/
  | primitive (lane first second : Nat) (inverted : Bool) (time : Nat)
  /-- a slot of a stream lane without a primitive: idle control blocks (R148) -/
  | laneIdle (lane : Nat) (inverted : Bool)
  /-- a slot of a stream lane under TestPattern: PRBS31 in place of primitives (R153) -/
  | lanePrbs (lane : Nat) (inverted : Bool)
  /-- a Mark: its control block, block type first, and the four data blocks of its time message, bits [255:192] first, as they stand before
  scrambling (R434, R435, log entry 167) -/
  | mark (control message : Nat)
  /-- a flit sent by an engine: engine, flow, Kind of the flow, on a stage flow the engine of the target stage whose turn the frame is, tag, index and
  flags beside the first flit of a frame, 16 elements (R270, R288, R293) -/
  | flit (engine flow kind : Nat) (target : Option Nat) (frame : Option (Nat × Nat × Nat)) (words : List Nat)
  /-- the answer to a debug access: engine, offset, value, made or refused with an access error (R248) -/
  | debug (engine offset value : Nat) (ok : Bool)
  /-- completion of a window B read: client, tag, success or Completer Abort, data (R324, R357) -/
  | complete (client tag : Nat) (ok : Bool) (data : Bytes)
  /-- a posted write to host memory -/
  | hostWrite (addr : Nat) (data : Bytes)
  /-- a read of host memory -/
  | hostRead (addr len : Nat)
  /-- a command to a drive: port, opcode, first block, block count, Force Unit Access (R369) -/
  | nvme (port opcode lba blocks : Nat) (fua : Bool)
  /-- the octets that write commands to a drive carry: port, first LBA, data -/
  | driveData (port lba : Nat) (data : Bytes)
  /-- a bounded message on a join port (R383) -/
  | bounded (port word : Nat)
  /-- a capability record and its CRC-32 on a join port (R388) -/
  | exchange (port : Nat) (record : Bytes)
  /-- a bulk frame's acknowledgement on a join port: port, sequence, positive (R385) -/
  | bulkAck (port seq : Nat) (ok : Bool)
  /-- a forwarded request or response: position, header word, data (R465) -/
  | forward (position header : Nat) (data : Bytes)
  /-- an AVSBus write of VCORE, mV (R479) -/
  | avs (mV : Nat)
  /-- the AVSBus write of the transition rate, mV per µs (R479) -/
  | avsRate (slew : Nat)
  /-- a display buffer shown (R547) -/
  | scanout (buffer : Nat)
  /-- a register of the test access port shifted out (R566) -/
  | tdo (word : Nat)
  /-- the pins under the test access port: instruction and driven values (R566) -/
  | pins (instr : Nat) (cells : List Bool)
  /-- PWR_GOOD_OUT takes a level (R473) -/
  | pwrGood (level : Bool)
  /-- a drive gets the shutdown notification (R369, R489) -/
  | driveShutdown (port : Nat)
  /-- an AUX_LDO output is switched (R495) -/
  | auxLdo (k : Nat) (on : Bool)
  deriving DecidableEq, Repr

end Sys2Proof.Machine
end

