-- ==== Sys2Proof/Machine/RecordState.lean ====
section
/-! DEFINITION. State of rings, record consumers and the modes' per-pipeline work that no dictionary object holds (spec/04_spectrum.md, spec/06_density.md to spec/09_records.md). -/

namespace Sys2Proof.Machine

/-- A completed record before it is offered (R219): `body` is what follows the 64-octet header; `input` is its channel or
input for the commit order. -/
structure Rec where
  kind : Nat
  slot : Nat
  epoch : Nat
  time : Nat
  flags : Nat
  gapLength : Nat := 0
  input : Nat := 0
  /-- the network cycle in which it completed (R222) -/
  cycle : Nat := 0
  body : Bytes
  deriving DecidableEq, Repr

/-- A record in a ring: its position, length, Sequence, and what its header says. -/
structure RingRec where
  pos : Nat
  len : Nat
  seq : Nat
  kind : Nat
  time : Nat
  flags : Nat
  input : Nat
  deriving DecidableEq, Repr

/-- A consumer of a ring (R225): 0 stream, 1 storage, 2 host, 3 + n Replay slot n. -/
structure RConsumer where
  who : Nat
  hold : Nat
  attached : Bool := true
  /-- records offered and not yet taken, oldest first: position, length -/
  queue : List (Nat × Nat) := []
  /-- octets of the first queued record already taken -/
  taken : Nat := 0
  deriving DecidableEq, Repr

/-- An extent of a ring: window B offset / 2 MiB, Frozen, Skipped (R223, R229). -/
structure Extent where
  unit : Nat
  frozen : Bool := false
  skipped : Bool := false
  deriving DecidableEq, Repr

/-- A chunk of a Record pipeline (R231-R233): its number, the stamp of its first sample in u_T, flags as the record header's, epoch,
whether a decimated sample was clamped, and the r16 or c16 words, oldest first. -/
structure Chunk where
  num : Nat
  tag : Nat
  flags : Nat := 0
  epoch : Nat
  sat : Bool := false
  samples : List Nat := []
  deriving DecidableEq, Repr

/-- One ring (R223-R229), held at the slot base of its owner. -/
structure RingState where
  present : Bool := false
  kept : Bool := false
  bytes : Nat := 0
  overwrite : Bool := false
  lookback : Nat := 0
  /-- 2 MiB units of the lookback area (R234) -/
  lookUnits : List Nat := []
  extents : List Extent := []
  /-- records in the ring, oldest first -/
  recs : List RingRec := []
  /-- records dropped at the ring since the last written record -/
  dropsBefore : Nat := 0
  consumers : List RConsumer := []
  /-- bounded capture: chunks committed per slot * 64 + channel, and the tag at which a rearmed capture restarts (R235) -/
  chunks : Tab Nat := []
  rearmAt : Option Nat := none
  /-- chunks of the lookback area: slot * 64 + channel, and chunk (R234), oldest first -/
  look : List (Nat × Chunk) := []
  /-- windows that triggers retain: slot * 64 + channel, first and last chunk number, t_trig, unit -/
  retain : List (Nat × Nat × Nat × Nat × Nat) := []
  deriving DecidableEq, Repr

/-- An accumulation of one channel or output: a trace block (R117, R118), a power interval (R183), a level block (R187) or the samples of a
record in progress (R184). -/
structure Trace where
  count : Nat := 0
  firstIndex : Nat := 0
  firstTag : Nat := 0
  epoch : Nat := 0
  /-- bits [3:0] as R121, bit 4 Damaged, bit 5 Gap, bit 6 Clamped or Saturated -/
  flags : Nat := 0
  values : List Int := []
  deriving DecidableEq, Repr

/-- A source channel of a Replay (R237, R238): its type and rate, the stamp due next, and the samples taken and not yet fed, each its
stamp, word and flags. -/
structure ReplayChan where
  cplx : Bool := false
  rate : Nat := 0
  next : Option Nat := none
  samples : List (Nat × Nat × Nat) := []
  deriving DecidableEq, Repr

/-- A unit of routed samples (R188): stamp, epoch, flags (bits [3:0] as R121, bit 4 Damaged, bit 5 Gap, bit 6 clamped) of each sample, and words. -/
structure RoutedUnit where
  epoch : Nat
  samples : List (Nat × Nat × Nat)
  deriving DecidableEq, Repr

/-- The work of one pipeline. -/
structure Pipe where
  /-- completed records that wait to be offered, in commit order -/
  recQ : List Rec := []
  /-- an uncorrectable pool or Polder error hit data that the next record carries (R26) -/
  damaged : Bool := false
  /-- Record mode: input samples counted from sample 0, and the chunk in progress, per channel -/
  capIdx : Tab Nat := []
  chunk : Tab (Option Chunk) := []
  /-- next frame index per channel or input (Pulse: select i, measure 256 + i) -/
  frame : Tab Nat := []
  /-- sample index and stamp of sample 0 of the grid per channel or input, once known -/
  origin : Tab (Option (Nat × Nat)) := []
  /-- trace blocks or power intervals per channel -/
  trace : Tab Trace := []
  /-- pool trace or power table: copies written so far, per channel -/
  poolSeq : Tab Nat := []
  /-- Channelize: samples kept from earlier frames per channel (R172) -/
  hist : Tab (List (Nat × Nat × Nat)) := []
  /-- Channelize: record samples per channel * 4096 + j, level blocks per entry, samples clamped (R178) -/
  samp : Tab Trace := []
  level : Tab Trace := []
  saturated : Nat := 0
  /-- Channelize: the unit in progress per route, and the bound of R188 -/
  unit : Tab (List (Nat × Nat × Nat)) := []
  /-- Pulse: routed units received per input, and the samples dropped before them -/
  routed : Tab (List RoutedUnit) := []
  routedBase : Tab Nat := []
  /-- Pulse: accepted triggers per input, each its sample and whether it is recorded -/
  trigs : Tab (List (Nat × Bool)) := []
  /-- Pulse: the first sample that a Successor on the grid of the slot it replaces judges, per input (R217) -/
  begin : Tab Nat := []
  /-- Pulse counters (R213): input * 8 + 0 accepted, 1 recorded, 2 guarded, 3 pile-ups, 4 saturations -/
  counts : Tab Nat := []
  /-- Replay: source channels, the ring position or record read next, and whether the source has ended -/
  replay : Tab ReplayChan := []
  replaySeq : Nat := 0
  replayFed : Nat := 0
  replayDone : Bool := false
  deriving DecidableEq, Repr

/-- What a frame or a measurement block gives a map (R159, R160): channel or input, frame index, tag, flags, and the logp16 words of the
delivered bins or the measurements of R160 in code order. -/
structure MapIn where
  ch : Nat
  frame : Nat
  tag : Nat
  flags : Nat
  values : List Int
  deriving DecidableEq, Repr

/-- A slice of a map (R157, R158); offsets are octets in the cluster's pool. -/
structure Slice where
  cluster : Nat
  first : Nat
  count : Nat
  live : Nat
  shadow : Nat := 0
  reset : Bool := false
  deriving DecidableEq, Repr

/-- One density map (R155-R170). -/
structure MapState where
  slices : List Slice := []
  columns : Nat := 0
  /-- updates that wait, oldest first -/
  queue : List MapIn := []
  /-- A of R161, and the number m of the next tick -/
  anchor : Nat := 0
  tick : Nat := 0
  /-- requested times of a pending snapshot and clear -/
  snapAt : Option Nat := none
  clearAt : Option Nat := none
  /-- the tick whose snapshot is being copied, and the tick of the latest complete one -/
  copying : Option Nat := none
  /-- SnapshotSeq being rendered, and the shadow cells it draws, column by column -/
  rendering : Option Nat := none
  shot : List Nat := []
  /-- tick 0 of this schedule clears the cells (ClearAtCommit, R163) -/
  clearFirst : Bool := false
  /-- frames of the trigger not yet complete: frame index, channels applied, h so far, largest tag (R166) -/
  open' : List (Nat × List Nat × Nat × Nat) := []
  /-- decided frame indices of the latest Window and their h, newest first -/
  window : List (Nat × Nat) := []
  deriving DecidableEq, Repr

end Sys2Proof.Machine
end

