-- ==== Sys2Proof/Machine/ServiceState.lean ====
section
/-! DEFINITION. State of the housekeeping sequencer and its filter units, of the calibrations, of the test access port and of the eye scans that no dictionary object holds (spec/21_calibration_housekeeping.md, spec/23_package_electrical.md). -/

namespace Sys2Proof.Machine

/-- One filter unit (R529): the settings in force, and the values of its window or block, newest first. -/
structure FilterUnit where
  chan : Nat := 0xFF
  mode : Nat := 0
  length : Nat := 1024
  interval : Nat := 1024
  attack : Nat := 2
  release : Nat := 10
  /-- a setting was written since the settings in force began (R95) -/
  written : Bool := false
  window : List Int := []
  freshN : Nat := 0
  /-- conversions of the interval or block taken so far -/
  pos : Nat := 0
  top : Int := 0
  low : Int := 0
  /-- envelope with 8 fraction bits (R93) -/
  envQ : Nat := 0
  deriving DecidableEq, Repr

/-- The sequencer (R528): the entries of the pass in progress, the current one, its conversions done, and the axis time before which its
next conversion does not come. -/
structure HkState where
  pass : List Nat := [0]
  entry : Nat := 0
  done : Nat := 0
  waitUntil : Nat := 0
  filters : Tab FilterUnit := []
  deriving DecidableEq, Repr

/-- What a correlator found for one channel (R533): gain in logp16 counts and phase, none without a tone; the offsets; plausible. -/
structure PathResult where
  gain : Int
  phase : Nat
  offI : Int
  offQ : Int
  good : Bool
  deriving DecidableEq, Repr

/-- The calibration in progress (R530-R535). -/
structure CalState where
  /-- kind that runs: 0 none, 1 Reference, 2 Clock, 3 SignalPath -/
  kind : Nat := 0
  mask : Nat := 0
  /-- StartAt, device time in u_T -/
  startAt : Nat := 0
  /-- place of the current channel in ascending order, and of its window: 0 before it, 1 substituting, 2 measuring, 3 measured -/
  index : Nat := 0
  phase : Nat := 0
  /-- the channel's link lost lock in its window (R539) -/
  lost : Bool := false
  /-- samples of the measurement interval, oldest first: stamp, presented word -/
  samples : List (Nat × Nat) := []
  result : Option PathResult := none
  /-- the first item that failed, and its Result code -/
  failed : Option (Nat × Nat) := none
  /-- what a read of Reapply returns; none before any -/
  reapply : Option Nat := none
  /-- a calibration has been started since power-up -/
  started : Bool := false
  deriving DecidableEq, Repr

/-- The test access port (R566). -/
structure TapState where
  /-- the instruction in force; IDCODE after Test-Logic-Reset (PRESUMED from IEEE 1149.1, log entry 30) -/
  instr : Nat := 0x01
  /-- the last EXTEST-class instruction was not accepted: the next capture reads 0b0000_0101 -/
  refused : Bool := false
  /-- the values the boundary cells hold for driving -/
  cells : List Bool := []
  /-- clusters a debug session has been used on since DEBUG was loaded (R475) -/
  sessions : List Nat := []
  deriving DecidableEq, Repr

/-- The eye scan of a lane quad (R567): the mask of the scan that runs; what a read of MarginScan returns, none before any. -/
structure QuadScan where
  running : Option Nat := none
  result : Option Nat := none
  deriving DecidableEq, Repr

end Sys2Proof.Machine
end

