-- ==== Sys2Proof/Machine/State.lean ====
section
/-! DEFINITION. The state of the device as plain data, and the state after reset. -/

namespace Sys2Proof.Machine

open Sys2Proof

/-- The reasons a step can stop with a fault. -/
inductive Fault where
  /-- Raised by no command: every command of this device has an effect the spec gives. Safe. -/
  | none
  deriving DecidableEq, Repr

/-- The reasons a command can have no meaning. -/
inductive Refusal where
  /-- Raised by the dispatcher for a command whose meaning is not written. Safe. -/
  | notModelled (mnemonic : String)
  deriving DecidableEq, Repr

/-- The state of the device. -/
structure State where
  /-- commands waiting, first in, first out -/
  pending : List Instr := []
  /-- axis time of the latest command, u_T (log entry 1) -/
  now : Nat := 0
  /-- what the latest command put out (log entry 5) -/
  out : List Out := []
  /-- free values taken so far (the model's own field, log entry 6) -/
  fresh : Nat := 0
  /-- the dictionary's numbers, by key index * 256 + subindex -/
  regs : Tab Nat := []
  /-- the dictionary's DOMAINs and strings, by key -/
  doms : Tab Bytes := []
  time : TimeState := {}
  syn : SynState := {}
  clk : Tab ClkOut := []
  tdc : Tab TdcState := []
  stat : Tab StatState := []
  dict : DictState := {}
  pantry : PantryState := {}
  steward : StewardState := {}
  life : LifeState := {}
  power : PowerState := {}
  slots : Tab Slot := []
  link : Tab LinkState := []
  chan : Tab ChanState := []
  line : Tab Line := []
  pat : Tab PatState := []
  trig : Tab TrigOutState := []
  lane : Tab LaneStream := []
  weir : Tab WeirState := []
  /-- the trigger log, oldest first: entries of 32 octets (R145) -/
  trigLog : List Bytes := []
  /-- engines by cluster * 17 + slot -/
  engine : Tab Engine := []
  ring : Tab RingState := []
  pipe : Tab Pipe := []
  map : Tab MapState := []
  /-- HBM contents by location (R311, R312), and pool contents by cluster * 163840 + octet -/
  hbm : Tab Byte := []
  pool : Tab Byte := []
  /-- HBM banks by ((logical pseudo-channel * 3 + SID) * 16 + bank group * 4 + bank), physical pseudo-channels, and the latency
  tolerance in ns that a requester has declared for a logical pseudo-channel (R329) -/
  bank : Tab Bank := []
  pc : Tab PcState := []
  tolerance : Tab Nat := []
  disp : DisplayState := {}
  xfer : Tab XferCh := []
  stream : Tab StreamState := []
  host : HostState := {}
  drive : Tab DriveState := []
  store : StoreSetState := {}
  join : Tab JoinPort := []
  posn : Tab PosState := []
  arr : ArrayState := {}
  hk : HkState := {}
  cal : CalState := {}
  tap : TapState := {}
  /-- eye scans by lane quad -/
  scan : Tab QuadScan := []
  deriving DecidableEq, Repr

/-- The machine right after reset (log entry 7). -/
def State.reset : State := {}

end Sys2Proof.Machine
end

