-- ==== Sys2Proof/Machine/Ops.lean ====
section
/-! DEFINITION. The named operations over the state: dictionary registers, time, responses, interrupts, the fault log. Every meaning reads and writes through them. -/

namespace Sys2Proof.Machine

open Sys2Proof

/-- The outcome type of every meaning. -/
abbrev Outcome := Host.Outcome State Fault Refusal

/-! ### Registers -/

/-- Read a number of the dictionary's register file. -/
def State.rd (s : State) (k : Nat) : Nat := tget objDefault s.regs k

/-- Write a number of the register file. -/
def State.wr (s : State) (k v : Nat) : State := { s with regs := tset objDefault s.regs k v }

/-- Read a stored DOMAIN or string. -/
def State.dom (s : State) (k : Nat) : Bytes := tget domDefault s.doms k

/-- Write a stored DOMAIN or string. -/
def State.setDom (s : State) (k : Nat) (b : Bytes) : State :=
  { s with doms := tset domDefault s.doms k b }

/-- The width in bits of a dictionary number. -/
def keyWidth (k : Nat) : Nat :=
  match objRow k with
  | some r => match r.ty.size with
    | some n => 8 * n
    | none => 64
  | none => 64

/-- Count a register up by `n`; past the top of its width the spec states no result (log entry 4). -/
def State.bumpBy (s : State) (k n : Nat) : State :=
  if s.rd k + n < 2 ^ keyWidth k then s.wr k (s.rd k + n)
  else s.wr k (Config.counterPastTop k % 2 ^ keyWidth k)

/-- Count a register up by one. -/
def State.bump (s : State) (k : Nat) : State := s.bumpBy k 1

/-- Is a BOOLEAN register TRUE? -/
def State.rdB (s : State) (k : Nat) : Bool := s.rd k != 0

/-- Write a list of (key, value) pairs. -/
def State.wrs (s : State) : List (Nat × Nat) → State
  | [] => s
  | (k, v) :: l => (s.wr k v).wrs l

/-- Return an object to its Default. -/
def State.clr (s : State) (k : Nat) : State := s.wr k (objDefault k)

/-- Take a free value (log entry 6): `tag` names the place that reads it. -/
def State.free (s : State) (tag : Nat) : Nat × State :=
  (Config.free tag s.fresh, { s with fresh := s.fresh + 1 })

/-- Put something on a pin or a link. -/
def State.emit (s : State) (o : Out) : State := { s with out := s.out ++ [o] }

/-- Raise an MSI-X vector (R358): 0xFFFF names none, and while Bus Master Enable is clear the device issues no write (R353). -/
def State.msix (s : State) (v : Nat) : State := if v < 256 && s.host.bme then s.emit (.msix v) else s

/-! ### Time -/

/-- The command happens at axis time `t`: the axis never runs back, and the previous command's outputs are gone. -/
def State.advance (s : State) (t : Nat) : State := { s with now := max s.now t, out := [], dict := { s.dict with abortWith := none } }

/-- f_T in hertz, 0 while there is none (R414). -/
def State.fT (s : State) : Nat := s.rd Ob.synFT

/-- One second in u_T of the axis: 256 * f_T (R13); 256 GHz while there is no f_T (log entry 1). -/
def State.second (s : State) : Nat := if s.fT = 0 then 256000000000 else 256 * s.fT

/-- ceil(us microseconds) in u_T. -/
def State.us (s : State) (n : Nat) : Nat := ceilDiv (n * s.second) 1000000

/-- Device time at axis time `a`, in u_T (R430). -/
def State.devAt (s : State) (a : Nat) : Nat :=
  if s.time.counting then ((a : Int) + s.time.offset).toNat else s.time.held

/-- Device time now. -/
def State.devNow (s : State) : Nat := s.devAt s.now

/-- Device time counts (R430). -/
def State.counts (s : State) : Bool := s.time.counting

/-- SYN-T is Locked or in Holdover. -/
def State.synRuns (s : State) : Bool := s.rd Ob.synState == 3 || s.rd Ob.synState == 4

/-- The axis times since which the confirmation sources of R428 that are absent now have been absent. -/
def State.absentTimes (s : State) : List Nat :=
  (if s.rd Ob.synState = 3 then [] else [s.syn.lostAt])
  ++ (if s.time.cls = 3 then
        match s.time.lastMarkAt with
        | some a =>
          (if a + s.us 10000 < s.now then [a + s.us 10000] else [])
            ++ (if s.time.streamConfirms then [] else [a])
        | none => [0]
      else [])
  ++ (if s.rd Ob.timeSyncMode = 3 then
        match s.time.syncGoodAt with
        | some a => if a + s.us 1100000 < s.now then [a + s.us 1100000] else []
        | none => [0]
      else [])

/-- Quality before the comparison with an upstream or a lead (R427, R428). -/
def State.ownQuality (s : State) : Nat :=
  match s.absentTimes with
  | [] => s.time.cls * 32 + 16 + 15
  | a :: l =>
    let a0 := l.foldl min a
    let ms := (s.now - a0) * 1000 / s.second
    s.time.cls * 32 + (15 - min 15 (flog2 (1 + ms)))

/-- The Quality reported (R428): the smaller of the own value and the stream's or the lead's. -/
def State.quality (s : State) : Nat :=
  let q := s.ownQuality
  let q := if s.time.cls = 3 then min q (s.rd Ob.timeUpstreamQuality) else q
  match s.time.leadQuality with
  | some l => min q l
  | none => q

/-- The Descriptor (R429). -/
def State.descriptor (s : State) : Nat := s.syn.source * 2 ^ 31 + s.fT % 2 ^ 31

/-- TIME128 (R14) of device time `T` in u_T. -/
def State.stamp (s : State) (T : Nat) : Nat :=
  (T / s.second % 2 ^ 48) * 2 ^ 80 + (T % s.second) * 2 ^ 40 + s.quality * 2 ^ 32 + s.descriptor

/-- TIME128 of now. -/
def State.stampNow (s : State) : Nat := s.stamp s.devNow

/-- The device time a TIME128 names, in u_T. -/
def State.unstamp (s : State) (x : Nat) : Nat := bits x 127 80 * s.second + bits x 79 40

/-! ### HBM addressing (spec/12_memory.md R311, R312) -/

/-- Mask `i` of InterleaveMasks: 0 Stack, 1-5 PC4-PC0, 6 BA1, 7 BA0, 8 BG1, 9 BG0. -/
def State.mask (s : State) (i : Nat) : Nat := leAt (s.dom Ob.hbmInterleaveMasks) (8 * i) 8

/-- The home bit of interleave bit `i`. -/
def homeBit (i : Nat) : Nat := if i < 6 then 33 - i else 19 - i

/-- The XOR of the bits of `da` set in a mask. -/
def parity (m da : Nat) : Bool := popcount 36 (m &&& da) % 2 == 1

/-- The location of a device address: its home bits replaced by the interleave bits (R312). -/
def State.hbmLoc (s : State) (da : Nat) : Nat :=
  (List.range 10).foldl (fun a i => setBit a (homeBit i) (parity (s.mask i) da)) da

/-- The logical pseudo-channel of a device address, stack * 32 + pc. -/
def State.pcOf (s : State) (da : Nat) : Nat := bits (s.hbmLoc da) 33 28

/-- Read an octet of HBM; one that nothing has written reads as 0 (log entry 17). -/
def State.hbmByte (s : State) (da : Nat) : Byte := tget (dconst 0) s.hbm (s.hbmLoc da)

/-- Write an octet of HBM. -/
def State.setHbm (s : State) (da : Nat) (b : Byte) : State :=
  { s with hbm := tset (dconst 0) s.hbm (s.hbmLoc da) b }

/-- Read octets. -/
def State.hbmRead (s : State) (da n : Nat) : Bytes := (List.range n).map fun i => s.hbmByte (da + i)

/-- Write octets. -/
def State.hbmWrite (s : State) : Nat → Bytes → State
  | _, [] => s
  | da, b :: bs => (s.setHbm da b).hbmWrite (da + 1) bs

/-! ### Slots -/

/-- The runtime state of slot `n`. -/
def State.slot (s : State) (n : Nat) : Slot := tget (dconst Slot.empty) s.slots n

/-- Write the runtime state of slot `n`. -/
def State.setSlot (s : State) (n : Nat) (x : Slot) : State :=
  { s with slots := tset (dconst Slot.empty) s.slots n x }

/-- Change the runtime state of slot `n`. -/
def State.modSlot (s : State) (n : Nat) (f : Slot → Slot) : State := s.setSlot n (f (s.slot n))

/-- Slot `n` is in a state other than Empty or Described. -/
def State.active (s : State) (n : Nat) : Bool := decide (2 ≤ s.rd (Ob.slotState n))

/-- Some pipeline is in a state other than Empty or Described. -/
def State.anyActive (s : State) : Bool := (List.range 64).any fun n => s.active n

/-- Some pipeline is admitted (R33, R413): in any state other than Empty or Described (log entry 8). -/
def State.anyAdmitted (s : State) : Bool := s.anyActive

/-- A TDC channel is enabled. -/
def State.anyTdc (s : State) : Bool := (List.range 16).any fun c => s.rdB (Ob.tdcEnable c)

/-- A DCLK_OUT or SREF_OUT is enabled (R421). -/
def State.anyClkOut (s : State) : Bool :=
  (List.range 8).any fun k => bit (s.rd (Ob.clkDclkConfig k)) 63 || bit (s.rd (Ob.clkSrefConfig k)) 63

/-- A step of device time is forbidden (R430), but for the Apply that forms an array. -/
def State.stepForbiddenBase (s : State) : Bool :=
  s.anyActive || s.anyTdc || s.anyClkOut || s.rd Ob.primEnable != 0 || s.rdB Ob.timeStreamOutEnable

/-- A step of device time is forbidden (R430). -/
def State.stepForbidden (s : State) : Bool := s.stepForbiddenBase || s.rd Ob.arrArrayState != 0

/-- What becomes true before a pending step voids it (R430, R431): an armed SYNC_IN Set is disarmed, a pending SetSeconds is
voided. -/
def State.settle (s : State) : State :=
  if s.stepForbidden then
    let s1 := if s.rd Ob.timeSyncState = 1 then s.wr Ob.timeSyncState 3 else s
    match s1.time.setPending with
    | some _ => { s1 with time := { s1.time with setPending := none, setStatus := some 2 } }
    | none => s1
  else s

/-- TimeEpoch of the device's own steps (R430). -/
def State.ownEpoch (s : State) : Nat :=
  Config.serialNumber.toNat % 65536 * 65536 + s.rd Ob.timeStepCount % 65536

/-- A step of device time (R430): device time reads `T` now. Every step counts StepCount, sets TimeEpoch, and voids a pending
SetSeconds and an armed SYNC_IN Set (R431, R445); all but the first-Locked step have the RTC realigned. -/
def State.step430 (s : State) (T : Int) (cls : Nat) (epoch : Option Nat) (realign : Bool) : State :=
  let s1 := s.bump Ob.timeStepCount
  let s2 := s1.wr Ob.timeTimeEpoch (match epoch with
    | some e => e
    | none => s1.ownEpoch)
  let s3 := if s2.rd Ob.timeSyncState = 1 then s2.wr Ob.timeSyncState 3 else s2
  { s3 with time := { s3.time with
      offset := T - (s3.now : Int)
      counting := true
      cls := cls
      awaitRtc := false
      rtcRealign := realign
      setPending := none
      setStatus := match s3.time.setPending with
        | some _ => some 2
        | none => s3.time.setStatus } }

/-! ### Fault log (R520, R521) -/

/-- The 32 octets of a FaultLog entry (R520). -/
def FaultEntry.bytes (e : FaultEntry) : Bytes :=
  leBytes 32 (e.time * 2 ^ 128 + e.detail % 2 ^ 32 * 2 ^ 96 + e.seq % 65536 * 2 ^ 80 + e.flags % 256 * 2 ^ 72
    + e.slot % 256 * 2 ^ 64 + e.unit % 2 ^ 24 * 2 ^ 16 + e.cause % 256 * 2 ^ 8 + e.cls % 256)

/-- An entry waits for its EMCY frame (R462): at most 16 wait, and beyond that the oldest is dropped. -/
def State.emcy (s : State) (e : FaultEntry) : State :=
  if bit (s.rd Ob.comEmcyCobId) 31 then s
  else
    let q := s.dict.emcyQueue ++ [e]
    { s with dict := { s.dict with emcyQueue := if 16 < q.length then q.drop 1 else q } }

/-- Make a FaultLog entry (R520, R521): the log holds 256 entries and overwrites its oldest, Unread counts it, 0x1001 bit 0 is
set, and an EMCY frame follows (R462). -/
def State.faultLog (s : State) (cls cause unit slot flags detail : Nat) : State :=
  let e : FaultEntry := { time := s.stampNow, detail := detail, seq := s.life.faultCount % 65536, flags := flags,
                          slot := slot, unit := unit, cause := cause, cls := cls }
  let full := decide (256 ≤ s.life.faultLog.length)
  let s1 := { s with life := { s.life with
      faultLog := (if full then s.life.faultLog.drop 1 else s.life.faultLog) ++ [e]
      faultCount := s.life.faultCount + 1 } }
  let s2 := if full then s1.bump Ob.fltOverwrites else s1
  let s3 := s2.wr Ob.fltUnread ((s2.life.faultCount - s2.life.acked) % 65536)
  let s4 := s3.wr Ob.comErrorRegister (setBit (s3.rd Ob.comErrorRegister) 0 true)
  (s4.emcy e).msix 1

/-- Assumption `k` of R66 is seen violated: its bit of AssumptionFlags, and AvailabilityFlags bit 2 (R522); assumption 6 also
bit 0. -/
def State.assume (s : State) (k : Nat) : State :=
  let s1 := s.wr Ob.admAssumptionFlags (setBit (s.rd Ob.admAssumptionFlags) (k - 1) true)
  let a := setBit (s1.rd Ob.lifeAvailabilityFlags) 2 true
  let s2 := s1.wr Ob.lifeAvailabilityFlags (if k = 6 then setBit a 0 true else a)
  if bit (s.rd Ob.admAssumptionFlags) (k - 1) then s2 else s2.msix 1

/-- Assumption `k` is no longer seen violated (R66). -/
def State.assumeEnds (s : State) (k : Nat) : State := s.wr Ob.admAssumptionFlags (setBit (s.rd Ob.admAssumptionFlags) (k - 1) false)

/-- The bit of assumption `k` follows whether its violation is seen (R66). -/
def State.assumeIs (s : State) (k : Nat) (v : Bool) : State :=
  if v then (if bit (s.rd Ob.admAssumptionFlags) (k - 1) then s else s.assume k) else s.assumeEnds k

/-- The environment is outside its specification (assumption 6): a rail is out of its window (R474) or a base die above 95 degC (R317). -/
def State.outside (s : State) : Bool :=
  s.power.railsOut != 0 || (List.range 2).any fun i => decide (1520 < sint 16 (leAt (s.dom Ob.hbmBaseDieTemp) (2 * i) 2))

/-- A corrected error of shared structure `i` (R26; 0 Polder, 1 pools, 2 network, 3 bridges, 4 steward memory, 5 engine
memories, 6 fabric). -/
def State.countCorrected (s : State) (i : Nat) : State :=
  { s with life := { s.life with corrected := tmod (dconst 0) s.life.corrected i (· + 1) } }

/-- An uncorrectable error of shared structure `i`. -/
def State.countUncorrected (s : State) (i : Nat) : State :=
  { s with life := { s.life with uncorrected := tmod (dconst 0) s.life.uncorrected i (· + 1) } }

/-! ### Lane quads (R521) -/

/-- QuadState (R521): 0 normal, 1 faulted, 2 recovering. -/
def State.setQuad (s : State) (q v : Nat) : State :=
  { s with life := { s.life with quadState := tset (dconst 0) s.life.quadState q v } }

/-- Quads have recovered. -/
def State.quadsUp (s : State) (l : List Nat) : State := l.foldl (fun s q => s.setQuad q 0) s

/-! ### Calibration and test access (R532, R535, R539, R566, R569) -/

/-- The channel whose SignalPath window comes or runs (R532). -/
def State.calChannel (s : State) : Option Nat := (bitsSet 64 s.cal.mask)[s.cal.index]?

/-- The current channel's substitution by the calibration ends at a block boundary (R532). -/
def State.calRelease (s : State) : State :=
  match s.calChannel with
  | some k =>
    if s.cal.kind = 3 ∧ s.cal.phase ≠ 0 then
      { s with chan := tmod (dconst ({} : ChanState)) s.chan k fun c => { c with calSubst := false, toBoundary := c.calSubst || c.toBoundary } }
    else s
  | none => s

/-- The calibration that runs ends with a Result (R535). -/
def State.calEnd (s : State) (code : Nat) (item : Option Nat) : State :=
  if s.cal.kind = 0 then s
  else
    let s1 := s.calRelease.wr Ob.calibResult code
    let s2 := match item with
      | some i => s1.wr Ob.calibFailedItem i
      | none => s1
    { s2 with cal := { s2.cal with kind := 0, phase := 0, samples := [], result := none, lost := false, failed := none } }

/-- SYN-T leaves Locked: a Clock calibration ends (R539). -/
def State.calUnlock (s : State) : State := if s.cal.kind = 2 then s.calEnd 4 none else s

/-- Link `j` loses lock: the channel in its SignalPath window is unavailable (R539). -/
def State.calLinkLost (s : State) (j : Nat) : State :=
  match s.calChannel with
  | some k =>
    if s.cal.kind = 3 ∧ s.cal.phase ≠ 0 ∧ s.rd (Ob.chanSourceLink k) = j then { s with cal := { s.cal with lost := true } } else s
  | none => s

/-- The presented sample of channel `k` goes to the correlator while its measurement runs (R532). -/
def State.calSample (s : State) (k st w : Nat) : State :=
  if s.cal.kind = 3 ∧ s.cal.phase = 2 ∧ s.calChannel = some k then { s with cal := { s.cal with samples := s.cal.samples ++ [(st, w)] } } else s

/-- An EXTEST-class instruction holds the pins (R566). -/
def State.tapHolds (s : State) : Bool := [0x00, 0x03, 0x04, 0x05, 0x06].contains s.tap.instr

/-- A debug session on cluster `c` is open from its first access until DEBUG leaves the instruction register (R475, R566). -/
def State.debugTouch (s : State) (c : Nat) : State :=
  if s.tap.instr = 0x10 then { s with tap := { s.tap with sessions := if s.tap.sessions.contains c then s.tap.sessions else c :: s.tap.sessions } } else s

/-- Power work is possible: Run with every rail connected. -/
def State.powered (s : State) : Bool := s.power.run && s.power.rails == 8

/-- Stop entry runs (R489): Admit, transfer Start and keeps abort. -/
def State.stopping (s : State) : Bool := s.power.stopEntry.isSome

/-- An act object whose result no register holds has been started (R450). -/
def State.noted (s : State) (k : Nat) : State :=
  if s.dict.acted.contains k then s else { s with dict := { s.dict with acted := k :: s.dict.acted } }

/-! ### Serving a dictionary action (R451) -/

/-- Abort codes of R456. -/
def Abort.timeout : Nat := 0x05040000
def Abort.spec : Nat := 0x05040001
def Abort.memory : Nat := 0x05040005
def Abort.readWo : Nat := 0x06010001
def Abort.writeRo : Nat := 0x06010002
def Abort.noObject : Nat := 0x06020000
def Abort.length : Nat := 0x06070010
def Abort.noSub : Nat := 0x06090011
def Abort.range : Nat := 0x06090030
def Abort.tag : Nat := 0x08000000
def Abort.state : Nat := 0x08000022
def Abort.noData : Nat := 0x08000024

/-- The checked effect of a dictionary write: the state after, or the abort code of a write that changes nothing. -/
abbrev Act := State → Except Nat State

/-- The checkpoint after a completed transaction (R28); an answer during a restart completes none (R29). -/
def State.checkpoint (s : State) : State :=
  { s with steward := { s.steward with checkpointAt := if s.steward.restarting then s.steward.checkpointAt else s.now } }

/-- The response of a transaction: its abort code, 0 for success. A completed transaction is followed by a checkpoint (R28). -/
def State.respond (s : State) (code : Nat) : State :=
  ({ s with dict := { s.dict with response := some { transport := 0, client := 0, code := code } } } : State).checkpoint

/-- A write is accepted (R451): what it makes true voids a pending step, and its response is success (R457). -/
def State.complete (s : State) : State := s.settle.respond 0

/-- Serve one write that starts an action, from any client (R451, R454): no response while the steward does not serve the
dictionary; 0x0800_0022 while it restarts (R29) or while RestoreState is not Complete (R453); otherwise the action's own
checks. A completed transaction is a checkpoint (R28). -/
def State.serve (s : State) (t : Nat) (f : Act) : State :=
  let s0 := s.advance t
  if !s0.power.stewardUp then s0
  else if s0.steward.restarting then s0.respond Abort.state
  else if s0.rd Ob.devRestoreState != 3 then s0.respond Abort.state
  else match f s0 with
    | .ok s1 => s1.complete
    | .error c => s0.respond c

/-- The outcome of an action that may abort and leave a readout behind (R544). -/
def State.closing (s : State) : State :=
  match s.dict.abortWith with
  | some c => ({ s with dict := { s.dict with abortWith := none } } : State).respond c
  | none => s.complete

/-- Serve a write whose action may abort and leave a readout behind. -/
def State.serveNoting (s : State) (t : Nat) (f : Act) : State :=
  let s0 := s.advance t
  if !s0.power.stewardUp then s0
  else if s0.steward.restarting then s0.respond Abort.state
  else if s0.rd Ob.devRestoreState != 3 then s0.respond Abort.state
  else match f s0 with
    | .ok s1 => s1.closing
    | .error c => s0.respond c

/-- A write aborts with a code and leaves a readout behind (R544). -/
def State.abortAs (s : State) (c : Nat) : State := { s with dict := { s.dict with abortWith := some c } }

/-- Write `true` checks. -/
def guardAbort (c : Bool) (code : Nat) : Except Nat Unit := if c then .error code else .ok ()

end Sys2Proof.Machine
end

