-- ==== Sys2Proof/Machine/Routes.lean ====
section
/-! DEFINITION. The wiring and the routes of an array, join delays, and bounded messages on their way out (spec/15_arrays.md R383, R393-R395, R403, R404). -/

namespace Sys2Proof.Machine

open Sys2Proof

def State.portS (s : State) (k : Nat) : JoinPort := tget (dconst ({} : JoinPort)) s.join k
def State.setPort (s : State) (k : Nat) (x : JoinPort) : State := { s with join := tset (dconst ({} : JoinPort)) s.join k x }
def State.posS (s : State) (o : Nat) : PosState := tget (dconst ({} : PosState)) s.posn o
def State.setPos (s : State) (o : Nat) (x : PosState) : State := { s with posn := tset (dconst ({} : PosState)) s.posn o x }

/-! ### ArrayConfig (R393, R394) -/

def cfgTopology (c : Bytes) : Nat := fieldOf (c.take 16) 127 120
def cfgCount (c : Bytes) : Nat := fieldOf (c.take 16) 119 112
def cfgProtected (c : Bytes) : Bool := fieldOf (c.take 16) 111 111 == 1
def cfgSerial (c : Bytes) (p : Nat) : Nat := leAt c (16 + 8 * p) 8

/-- The lines that position `p` exports, in ascending order. -/
def cfgExports (c : Bytes) (p : Nat) : List Nat :=
  let m := leAt c (80 + 32 * p) 32
  (List.range 256).filter fun l => bit m l

/-- The partner of port `k` of device `p` and its port (R393). -/
def wire (topo n p k : Nat) : Option (Nat × Nat) :=
  if topo = 1 ∨ topo = 2 then
    if k = 0 then some ((p + 1) % n, 1)
    else if k = 1 then some ((p + n - 1) % n, 0)
    else if k = 2 ∧ topo = 2 then some ((p + n / 2) % n, 2)
    else none
  else if topo = 3 then
    if k = 0 then some (p / 4 * 4 + (p + 1) % 4, 1)
    else if k = 1 then some (p / 4 * 4 + (p + 3) % 4, 0)
    else if k = 2 then some ((p + 4) % 8, 3)
    else if k = 3 then some ((p + 4) % 8, 2)
    else none
  else none

/-- The topology and DeviceCount agree with R393. -/
def topologyOk (topo n : Nat) : Bool :=
  (topo == 1 && decide (2 ≤ n) && decide (n ≤ 8)) || (topo == 2 && (n == 4 || n == 6 || n == 8)) || (topo == 3 && n == 8)

/-- The first path of exactly `len` hops, lowest ports first, that uses no link direction of `avoid` (R395): hops are (position, port). -/
def pathOf (topo n d : Nat) (avoid : List (Nat × Nat)) : Nat → Nat → Option (List (Nat × Nat))
  | 0, o => if o = d then some [] else none
  | len + 1, o => [0, 1, 2, 3].findSome? fun k =>
      match wire topo n o k with
      | some q => if avoid.contains (o, k) then none else (pathOf topo n d avoid len q.1).map fun l => (o, k) :: l
      | none => none

/-- The shortest such path, of at most 7 hops. -/
def shortest (topo n o d : Nat) (avoid : List (Nat × Nat)) : Option (List (Nat × Nat)) :=
  [1, 2, 3, 4, 5, 6, 7].findSome? fun len => pathOf topo n d avoid len o

/-- The paths of the route from `o` to `d`: one, or two with Protected (R395). -/
def routePaths (c : Bytes) (o d : Nat) : List (List (Nat × Nat)) :=
  match shortest (cfgTopology c) (cfgCount c) o d [] with
  | none => []
  | some p =>
    if cfgProtected c then
      match shortest (cfgTopology c) (cfgCount c) o d p with
      | some q => [p, q]
      | none => [p]
    else [p]

/-- Every path of the routes from `o`. -/
def pathsFrom (c : Bytes) (o : Nat) : List (List (Nat × Nat)) :=
  ((List.range (cfgCount c)).filter fun d => d != o).flatMap fun d => routePaths c o d

/-- n_h of a link direction (R404): exported lines whose routes cross it. -/
def linesOver (c : Bytes) (p k : Nat) : Nat :=
  (List.range (cfgCount c)).foldl (fun a o => if (pathsFrom c o).any fun l => l.contains (p, k) then a + (cfgExports c o).length else a) 0

/-! ### This device's part -/

/-- An array configuration is applied. -/
def State.inArray (s : State) : Bool := s.rd Ob.arrArrayState != 0

/-- Lead device: position 0, or a device in no array. -/
def State.isLead (s : State) : Bool := s.inArray && s.arr.pos == 0

/-- The partner of own port `k` under the applied configuration. -/
def State.partner (s : State) (k : Nat) : Option (Nat × Nat) :=
  if s.inArray then wire (cfgTopology s.arr.config) (cfgCount s.arr.config) s.arr.pos k else none

/-- The last hop of a path to this device: its own port. -/
def State.inPort (s : State) (path : List (Nat × Nat)) : Option Nat :=
  match path.getLast? with
  | some h => (wire (cfgTopology s.arr.config) (cfgCount s.arr.config) h.1 h.2).map fun q => q.2
  | none => none

/-- The parent's port on this device (R395, R399): the last hop of the first path from position 0. -/
def State.parentPort (s : State) : Option Nat :=
  if !s.inArray || s.arr.pos == 0 then none
  else match routePaths s.arr.config 0 s.arr.pos with
    | p :: _ => s.inPort p
    | [] => none

/-- Own port `k` is the parent's end of a time-tree hop. -/
def State.childPort (s : State) (k : Nat) : Bool :=
  s.inArray && ((List.range (cfgCount s.arr.config)).any fun d => d != s.arr.pos && d != 0 &&
    (match routePaths s.arr.config 0 d with
      | p :: _ => p.contains (s.arr.pos, k)
      | [] => false))

/-- Port `k` carries a route or a time-tree hop in either direction (R390, R392, R402, R408). -/
def State.joinUsed (s : State) (k : Nat) : Bool :=
  s.inArray && ((List.range (cfgCount s.arr.config)).any fun o => (pathsFrom s.arr.config o).any fun p =>
    p.contains (s.arr.pos, k) || (match s.partner k with
      | some q => p.contains q
      | none => false))

/-- The bound of a hop: CableBound of the own port, or of a hop measured elsewhere. -/
def State.hopBound (s : State) (h : Nat × Nat) : Nat :=
  let own := match wire (cfgTopology s.arr.config) (cfgCount s.arr.config) h.1 h.2 with
    | some q => if q.1 = s.arr.pos then some q.2 else if h.1 = s.arr.pos then some h.2 else none
    | none => none
  match own with
  | some k => if s.rd (Ob.joinCableBound k) = 0 then Config.remoteBound h.1 h.2 else s.rd (Ob.joinCableBound k)
  | none => Config.remoteBound h.1 h.2

/-- J_h (R404). -/
def State.hopDelay (s : State) (h : Nat × Nat) : Nat :=
  ceilDiv ((225 + 33 * linesOver s.arr.config h.1 h.2) * s.second) 4000000000 + s.hopBound h

/-- JoinDelay from position `o` (R404). -/
def State.joinDelay (s : State) (o : Nat) : Nat :=
  if s.inArray && o != s.arr.pos && decide (o < cfgCount s.arr.config) then
    (routePaths s.arr.config o s.arr.pos).foldl (fun m p => max m (p.map s.hopDelay).sum) 0
  else 0

/-- Position `o` is reachable (R406): some path of its route to this device has its port Active, as far as this device's own ports show. -/
def State.reachable (s : State) (o : Nat) : Bool :=
  s.inArray && decide (o < cfgCount s.arr.config) && (o == s.arr.pos ||
    (routePaths s.arr.config o s.arr.pos).any fun p => match s.inPort p with
      | some k => s.rd (Ob.joinState k) == 6
      | none => false)

/-- Does an exported line of this device with a spacing keep the rule of R404 on every direction it crosses? -/
def exportSpacingOk (second : Nat) (c : Bytes) (p spacing : Nat) : Bool :=
  ((pathsFrom c p).flatMap fun l => l).all fun h => decide ((linesOver c h.1 h.2 + 1) * 33 * second ≤ spacing * 4000000000)

/-! ### Bounded messages (R383) -/

/-- The CRC-16 over [127:16] of a message, from bit 127 down. -/
def bmsgCrc (w : Nat) : Nat := crcMsb 16 0x1021 0xFFFF ((leBytes 16 w).drop 2).reverse

/-- A message with its CRC. -/
def bmsg (ty origin target : Nat) (cast : Bool) (sq payload : Nat) : Nat :=
  let w := ty * 2 ^ 124 + origin % 8 * 2 ^ 121 + target % 8 * 2 ^ 118 + b2n cast * 2 ^ 117 + sq % 256 * 2 ^ 109 + payload % 2 ^ 93 * 2 ^ 16
  w + bmsgCrc w

def bmsgOk (w : Nat) : Bool := decide (w < 2 ^ 128) && bmsgCrc w == w % 65536

def bType (w : Nat) : Nat := bits w 127 124
def bOrigin (w : Nat) : Nat := bits w 123 121
def bTarget (w : Nat) : Nat := bits w 120 118
def bCast (w : Nat) : Bool := bit w 117
def bSeq (w : Nat) : Nat := bits w 116 109

/-- Send a word on own port `k` if it is Active. -/
def State.sendOn (s : State) (w k : Nat) : State := if s.rd (Ob.joinState k) = 6 then s.emit (.bounded k w) else s

/-- The own ports on which a message of `o` leaves this device, having come in on port `inp` (none for its own messages). -/
def State.outPorts (s : State) (o : Nat) (inp : Option Nat) (dests : List Nat) : List Nat :=
  let c := s.arr.config
  let step := fun (path : List (Nat × Nat)) => (List.range path.length).filterMap fun i =>
    match path[i]? with
    | some h =>
      let cameIn := if i = 0 then none else s.inPort (path.take i)
      if h.1 = s.arr.pos ∧ cameIn = inp then some h.2 else none
    | none => none
  (dests.flatMap fun d => (routePaths c o d).flatMap step).dedup

/-- The next Sequence of a Type. -/
def State.nextSeq (s : State) (ty : Nat) : Nat × State :=
  let n := tget (dconst 0) s.arr.tx ty
  (n, { s with arr := { s.arr with tx := tset (dconst 0) s.arr.tx ty ((n + 1) % 256) } })

/-- Send an own message to every position (R395, R403). -/
def State.broadcast (s : State) (ty payload : Nat) : State :=
  let r := s.nextSeq ty
  let dests := (List.range (cfgCount s.arr.config)).filter fun d => d != s.arr.pos
  (s.outPorts s.arr.pos none dests).foldl (fun s k => s.sendOn (bmsg ty s.arr.pos 0 true r.1 payload) k) r.2

/-- Send an own message to position `d` along its route. -/
def State.sendTo (s : State) (d ty payload : Nat) : State :=
  let r := s.nextSeq ty
  (s.outPorts s.arr.pos none [d]).foldl (fun s k => s.sendOn (bmsg ty s.arr.pos d false r.1 payload) k) r.2

/-- SecondsLow and Fine of a device time. -/
def State.timeLow (s : State) (T : Nat) : Nat := T / s.second % 256 * 2 ^ 40 + T % s.second

/-- The device time nearest to now with a SecondsLow and a Fine (R403). -/
def State.timeNear (s : State) (low fine : Nat) : Nat :=
  let sec := s.devNow / s.second
  let base := sec / 256 * 256 + low
  let cands := [base, base + 256] ++ (if 256 ≤ base then [base - 256] else [])
  let dist := fun (x : Nat) => let T := x * s.second + fine
    if T ≤ s.devNow then s.devNow - T else T - s.devNow
  (cands.foldl (fun b x => if dist x < dist b then x else b) base) * s.second + fine

/-- A change of an exported line leaves as a LineChange (R403). -/
def State.exportChange (s : State) (l t : Nat) (v : Bool) : State :=
  if s.inArray && (cfgExports s.arr.config s.arr.pos).contains l then
    s.broadcast 1 (l * 2 ^ 85 + b2n v * 2 ^ 84 + s.timeLow t * 2 ^ 36)
  else s

end Sys2Proof.Machine
end

