-- ==== Sys2Proof/Machine/Lines.lean ====
section
/-! DEFINITION. Condition lines, horizons, and the checks that R147, R151 and R152 make (spec/05_triggers.md). -/

namespace Sys2Proof.Machine

open Sys2Proof

def State.lineS (s : State) (l : Nat) : Line := tget (dconst ({} : Line)) s.line l

def State.setLine (s : State) (l : Nat) (x : Line) : State :=
  { s with line := tset (dconst ({} : Line)) s.line l x }

/-- The value of a line at condition time `t` (R128): that of its latest change at or before `t`, 0 without one. -/
def Line.at (x : Line) (t : Nat) : Bool :=
  match x.changes.find? (fun c => decide (c.1 ≤ t)) with
  | some c => c.2
  | none => false

/-- The value after every change so far. -/
def Line.value (x : Line) : Bool :=
  match x.changes with
  | c :: _ => c.2
  | [] => false

/-- Was the line marked Untimed at condition time `t` (R143, R154)? -/
def Line.untimedAt (x : Line) (t : Nat) : Bool :=
  match x.untimedLog.find? (fun c => decide (c.1 ≤ t)) with
  | some c => c.2
  | none => false

/-- The line's Untimed mark takes a value at condition time `t`. -/
def Line.mark (x : Line) (t : Nat) (v : Bool) : Line :=
  if x.untimed = v then x else { x with untimed := v, untimedLog := (t, v) :: x.untimedLog }

/-- A change of a line at condition time `t` (R128): only a change of value is one; a rising edge is counted. Every change stays, since a
reader with a longer horizon reads it later (R142). -/
def Line.change (x : Line) (t : Nat) (v : Bool) : Line :=
  if x.value = v then x
  else { x with
    changes := (t, v) :: x.changes
    edges := if v then (x.edges + 1) % 2 ^ 32 else x.edges
    lastRise := if v then some t else x.lastRise }

/-- A change that both copies carry reaches the fabric (R128, R133); that of an exported line goes to the other devices (R403). -/
def State.lineChange (s : State) (l t : Nat) (v : Bool) : State :=
  let s1 := s.setLine l ((s.lineS l).change t v)
  if (s.lineS l).value = v then s1 else s1.exportChange l t v

/-- The two copies of a line disagree at `t` (R26, R133): the Fault flag is set, the disagreement is counted, and the line
reads 1 until the next change on which both agree. -/
def State.lineDisagree (s : State) (l t : Nat) : State :=
  let x := (s.lineS l).change t true
  let s1 := (s.setLine l { x with fault := true }).countCorrected 6
  if (s.lineS l).value then s1 else s1.exportChange l t true

/-- May the source raise the line at condition time `t` under TrigHold (R130)? -/
def Line.holdOver (x : Line) (hold t : Nat) : Bool :=
  match x.lastRise with
  | some r => decide (r + hold ≤ t)
  | none => true

/-- The source of a line: class, number, L_line and LineSpacing. -/
def State.setSource (s : State) (l cls src latency spacing : Nat) : State :=
  s.setLine l { s.lineS l with cls := cls, src := src, latency := latency, spacing := spacing }

/-- A source ends at condition time `t` (R133): what it said of later times is dropped, its line falls and has no source. -/
def State.endSource (s : State) (l t : Nat) : State :=
  let x := s.lineS l
  let s1 := (s.setLine l { x with changes := x.changes.filter fun c => decide (c.1 ≤ t) }).lineChange l t false
  s1.setLine l { s1.lineS l with cls := 0, src := 0, latency := 0, spacing := 0, untimed := false, untimedLog := [] }

/-- Bit `l` of a 32-octet bit map (R132). -/
def mapBit (b : Bytes) (l : Nat) : Bool :=
  match b[l / 8]? with
  | some x => bit x.toNat (l % 8)
  | none => false

/-- The lines set in a bit map. -/
def mapLines (b : Bytes) : List Nat := (List.range 256).filter fun l => mapBit b l

/-- A bit map of 256 lines from a predicate. -/
def mapOf (p : Nat → Bool) : Bytes :=
  (List.range 32).map fun i => BitVec.ofNat 8 ((List.range 8).foldl (fun n j => n + b2n (p (8 * i + j)) * 2 ^ j) 0)

/-- The horizon of a care map (R142). -/
def State.horizonOf (s : State) (care : Bytes) : Nat :=
  (mapLines care).foldl (fun m l => max m (s.lineS l).latency) 0

/-- Horizons follow the sources (R142). -/
def State.horizons (s : State) : State :=
  (List.range 16).foldl (fun s u => s.wr (Ob.patHorizon u) (s.horizonOf (s.dom (Ob.patCare u)))) s

/-- A pattern unit that is enabled and routed to output bit `b` of Outputs. -/
def State.routed (s : State) (u b : Nat) : Bool := s.rdB (Ob.patEnable u) && bit (s.rd (Ob.patOutputs u)) b

/-- A fixed-delay TRIG_OUT whose Delay is below H_u + 24 ns for an enabled routed unit (R147): output, least delay, delay in
force, both in u_T. -/
def State.trigOutBreak (s : State) : Option (Nat × Nat × Nat) :=
  (List.range 8).findSome? fun k =>
    let c := s.rd (Ob.condTrigOutConfig k)
    if bit c 63 && !bit c 60 then
      let h := (List.range 16).foldl (fun m u => if s.routed u k then max m (s.rd (Ob.patHorizon u) + 1) else m) 0
      let need := h - 1 + ceilDiv (24 * s.second) 1000000000
      if h != 0 && decide (bits c 15 0 * 256 < need) then some (k, need, bits c 15 0 * 256) else none
    else none

/-- Slot time of a lane in picoseconds (R148). -/
def slotPs (rate : Nat) : Nat := if rate = 0 then 12800 else 5120

/-- Content and line base of a lane (R153). -/
def State.laneContent (s : State) (i : Nat) : Nat := if i = 0 then s.rd Ob.primContentA else s.rd Ob.primContentB
def State.laneBase (s : State) (i : Nat) : Nat := if i = 0 then s.rd Ob.primLineBaseA else s.rd Ob.primLineBaseB

/-- H_max of one lane times 10^12 (R151): the largest L_line of its HitMap window, or H_u + 8 ns of its routed units. -/
def State.laneH (s : State) (i : Nat) : Nat :=
  if s.laneContent i = 2 then
    (List.range 64).foldl (fun m k => max m ((s.lineS (s.laneBase i + k)).latency * 1000000000000)) 0
  else
    (List.range 16).foldl (fun m u =>
      if s.routed u (8 + i) then max m (s.rd (Ob.patHorizon u) * 1000000000000 + 8000 * s.second) else m) 0

/-- MinD over a set of lanes, as bits (R151). -/
def State.minD (s : State) (lanes : Nat) : Nat :=
  let h := max (if bit lanes 0 then s.laneH 0 else 0) (if bit lanes 1 then s.laneH 1 else 0)
  ceilDiv (h + (slotPs (s.rd Ob.primLineRate) + 32000) * s.second) 1000000000000

/-- The sum of two fractions. -/
def fracAdd (a b : Nat × Nat) : Nat × Nat := (a.1 * b.2 + b.1 * a.2, a.2 * b.2)

/-- The worst-case rate of a lane's sources, events per second as a fraction (R152). -/
def State.laneRate (s : State) (i : Nat) : Nat × Nat :=
  let ps := slotPs (s.rd Ob.primLineRate)
  if s.laneContent i = 2 then
    (List.range 64).foldl (fun a k =>
      let sp := (s.lineS (s.laneBase i + k)).spacing
      if sp = 0 then a else fracAdd a (s.second, sp)) (0, 1)
  else
    (List.range 16).foldl (fun a u =>
      if s.routed u (8 + i) then
        let h := s.rd (Ob.patHoldOff u)
        if ps * s.second ≤ h * 1000000000000 then fracAdd a (s.second, h) else fracAdd a (1000000000000, ps)
      else a) (0, 1)

/-- The charge of a lane: the smaller of its tick rate and its sources' rate (R152), rounded up. -/
def State.laneCharge (s : State) (i : Nat) : Nat :=
  let r := s.laneRate i
  min (1000000000000 / slotPs (s.rd Ob.primLineRate)) (ceilDiv r.1 r.2)

/-- The limit of a lane (R54). -/
def laneLimit (rate : Nat) : Nat := if rate = 0 then 76000000 else 190000000

/-- An enabled lane whose charge exceeds its limit (R152). -/
def State.chargeBreak (s : State) : Option (Nat × Nat × Nat) :=
  [0, 1].findSome? fun i =>
    if bit (s.rd Ob.primEnable) i && decide (laneLimit (s.rd Ob.primLineRate) < s.laneCharge i) then
      some (i, s.laneCharge i, laneLimit (s.rd Ob.primLineRate)) else none

/-- MinD of the enabled lanes exceeds DelayD (R151): lane, MinD, DelayD. -/
def State.minDBreak (s : State) : Option (Nat × Nat × Nat) :=
  let en := s.rd Ob.primEnable
  if en % 4 != 0 && decide (s.rd Ob.primDelayD < s.minD en) then
    some (if bit en 0 && decide (s.rd Ob.primDelayD < s.minD 1) then 0 else 1, s.minD en, s.rd Ob.primDelayD)
  else none

/-- The readouts that follow the sources, units and lanes: Horizon, MinD, and the charges of the enabled lanes (R142, R151, R152). -/
def State.refreshFabric (s : State) : State :=
  let s1 := s.horizons
  let en := s1.rd Ob.primEnable % 4
  ((s1.wr Ob.primMinD (s1.minD (if en = 0 then 3 else en))).wr Ob.primChargeA (if bit en 0 then s1.laneCharge 0 else 0)).wr Ob.primChargeB
    (if bit en 1 then s1.laneCharge 1 else 0)

/-- Some check of R147, R151 or R152 fails. -/
def State.fabricBroken (s : State) : Bool :=
  s.trigOutBreak.isSome || s.minDBreak.isSome || s.chargeBreak.isSome

/-- The refusal that R147 and R151 (0x4A), then R152 (0x48) give, as R582 fills it. -/
def State.fabricRefusal (s : State) : Option Refusal4x :=
  match s.trigOutBreak with
  | some (k, need, have') => some { code := 0x4A, unit := 0x0C * 2 ^ 24 + k, need := need, avail := have' }
  | none => match s.minDBreak with
    | some (i, need, have') => some { code := 0x4A, unit := 0x0D * 2 ^ 24 + i, need := need, avail := have' }
    | none => match s.chargeBreak with
      | some (i, need, have') => some { code := 0x48, unit := 0x0D * 2 ^ 24 + i, need := need, avail := have' }
      | none => none

/-- An exported line of this device that has a source breaks the spacing rule (R404): the line, the spacing needed and the line's. -/
def State.exportBreak (s : State) : Option (Nat × Nat × Nat) :=
  if !s.inArray then none
  else (cfgExports s.arr.config s.arr.pos).findSome? fun l =>
    let x := s.lineS l
    if x.cls != 0 && !exportSpacingOk s.second s.arr.config s.arr.pos x.spacing then
      let n := ((pathsFrom s.arr.config s.arr.pos).flatMap fun p => p).foldl (fun m h => max m (linesOver s.arr.config h.1 h.2)) 0
      some (l, ceilDiv ((n + 1) * 33 * s.second) 4000000000, x.spacing)
    else none

end Sys2Proof.Machine
end

