-- ==== Sys2Proof/Machine/Clock.lean ====
section
/-! DEFINITION. Clock synthesis: SYN-T, the clock outputs and the engine clock ratio (spec/16_clocks.md). -/

namespace Sys2Proof.Machine

open Sys2Proof

/-- The largest fraction a/b not above p/q with a and b at most `n`, in lowest terms, by descent between the neighbours
lo = a/b and hi = c/d (R423). -/
def bestBelow (n p q : Nat) : Nat → Nat → Nat → Nat → Nat → Nat × Nat
  | 0, a, b, _, _ => (a, b)
  | fuel + 1, a, b, c, d =>
    let gapLo := p * b - a * q
    let gapHi := c * q - p * d
    if gapLo = 0 then (a, b)
    else
      let room := fun (x y dx dy : Nat) =>
        min (if dx = 0 then n else (n - x) / dx) (if dy = 0 then n else (n - y) / dy)
      let k := min (gapLo / gapHi) (room a b c d)
      let a1 := a + k * c
      let b1 := b + k * d
      let gapLo1 := p * b1 - a1 * q
      if gapLo1 = 0 then (a1, b1)
      else
        let m := min ((gapHi - 1) / gapLo1) (room c d a1 b1)
        if k = 0 ∧ m = 0 then (a1, b1)
        else bestBelow n p q fuel a1 b1 (c + m * a1) (d + m * b1)

/-- A and B of one operating point: f_E = f_T * A / B, the largest not above the nominal clock (R423). -/
def engineRatio (fT nominal : Nat) : Nat × Nat :=
  if fT = 0 then (0, 0) else bestBelow 65535 nominal fT 64 0 1 1 0

/-- The nominal engine clock of P0, P1, P2 (R34). -/
def nominalClock : Nat → Nat
  | 0 => 1600000000
  | 1 => 1200000000
  | _ => 800000000

/-- f_E of a point in hertz, rounded down, for the f_T in force (R423; log entry 9). -/
def engineClock (fT point : Nat) : Nat :=
  let r := engineRatio fT (nominalClock point)
  if r.2 = 0 then 0 else fT * r.1 / r.2

/-- EngineRatio and EngineClock of f_T (0x2410:0D, :0E). -/
def engineRatioBytes (fT : Nat) : Bytes :=
  (List.range 3).flatMap fun p =>
    let r := engineRatio fT (nominalClock p)
    leBytes 2 r.1 ++ leBytes 2 r.2

def engineClockBytes (fT : Nat) : Bytes := (List.range 3).flatMap fun p => leBytes 8 (engineClock fT p)

/-- f_ref of a source in hertz (R412). -/
def State.fRefOf (s : State) (source : Nat) : Nat :=
  if source = 0 then s.rd Ob.synRefFreq
  else if s.rd Ob.timeStreamInRate = 0 then 156250000 else 390625000

/-- Twice f_inj = r * f_ref (R411): RefMode 0 is x1, 1 is x2, 2 is divided by 2. -/
def twiceInj (fRef mode : Nat) : Nat := if mode = 0 then 2 * fRef else if mode = 1 then 4 * fRef else fRef

/-- Twice f_T: the injection frequency times M in MDLL mode, itself in DLL mode (R411). -/
def twiceFT (finj2 loop m : Nat) : Nat := if loop = 0 then m * finj2 else finj2

/-- The limits of R412 hold for the settings, and f_T is a whole number of hertz. -/
def synLimits (fRef mode loop m : Nat) : Bool :=
  let i2 := twiceInj fRef mode
  let t2 := twiceFT i2 loop m
  decide (10000000 ≤ fRef) && decide (fRef ≤ 1600000000)
  && (if loop = 0 then
        decide (31250000 ≤ i2) && decide (i2 ≤ 800000000) && decide (4 ≤ m) && decide (m ≤ 64)
      else decide (2000000000 ≤ i2) && decide (i2 ≤ 3200000000))
  && decide (2000000000 ≤ t2) && decide (t2 ≤ 3200000000) && t2 % 2 == 0

/-- Apply aborts while any of R413 holds. -/
def State.synBusy (s : State) : Bool :=
  s.anyAdmitted || s.anyTdc || s.anyClkOut || s.rd Ob.primEnable != 0
  || ((List.range 16).any fun j => s.rd (Ob.linkLinkState j) != 0)
  || s.rd Ob.arrArrayState != 0

/-- Apply of the SYN-T settings (R412, R413, R415, R569). -/
def synApply : Act := fun s =>
  if s.synBusy || s.tapHolds then .error Abort.state
  else
    let source := s.rd Ob.synSource
    let fRef := s.fRefOf source
    let mode := s.rd Ob.synRefMode
    let loop := s.rd Ob.synLoopMode
    let m := s.rd Ob.synMultiplier
    if !synLimits fRef mode loop m then
      .ok { s with syn := { s.syn with applyResult := some 0x4F } }
    else
      let held := s.devNow
      let s1 := s.calUnlock.wr Ob.synState 1
      .ok { s1 with
        time := { s1.time with counting := false, held := held, awaitRtc := false }
        syn := { s1.syn with
          applyResult := some 0
          source := source
          fRef := fRef
          fInjNext := twiceInj fRef mode / 2
          fTNext := twiceFT (twiceInj fRef mode) loop m / 2
          lockedOnce := false
          lostAt := s1.now
          slewing := false } }

/-- SYNT_APPLY (R415). -/
def execSyntApply (t : Nat) (s : State) : Outcome := .next (s.serve t synApply)

/-- SYNT_QUALIFIED: the measured reference lies within 1,000 ppm of the expected one, and injection starts (R415). -/
def execSyntQualified (t measured : Nat) (s : State) : Outcome :=
  let s := s.advance t
  let f := s.syn.fRef
  let diff := if f ≤ measured then measured - f else f - measured
  .next (if s.rd Ob.synState = 1 ∧ diff * 1000 ≤ f then
      (s.wr Ob.synRefMeasured measured).wr Ob.synState 2
    else s)

/-- SYNT_QUALIFY_TIMEOUT (R415). -/
def execSyntQualifyTimeout (t : Nat) (s : State) : Outcome :=
  let s := s.advance t
  .next (if s.rd Ob.synState = 1 then s.wr Ob.synState 5 else s)

/-- A held device time keeps its Seconds and Fine when f_T changes (R430). -/
def reheld (held oldSecond newSecond : Nat) : Nat := held / oldSecond * newSecond + held % oldSecond

/-- SYNT_LOCKED: FT and InjectionFreq are valid and the engine clock starts (R415, R423); after the first Locked device time
waits for the RTC's next second boundary (R430). -/
def execSyntLocked (t : Nat) (s : State) : Outcome :=
  let s := s.advance t
  .next (if s.rd Ob.synState = 2 then
      let old := s.second
      let s1 := (((s.wr Ob.synState 3).wr Ob.synFT s.syn.fTNext).wr Ob.synInjectionFreq s.syn.fInjNext)
      let s2 := ((s1.setDom Ob.synEngineRatio (engineRatioBytes s.syn.fTNext)).setDom Ob.synEngineClock
        (engineClockBytes s.syn.fTNext)).refreshFabric
      if s2.syn.lockedOnce then s2
      else { s2 with
        time := { s2.time with held := reheld s2.time.held old s2.second, awaitRtc := true }
        syn := { s2.syn with lockedOnce := true } }
    else s)

/-- Every running statistics block has seen SYN-T leave Locked (R442 Flags bit 1). -/
def State.statsUnlocked (s : State) : State :=
  (List.range 4).foldl (fun s u =>
    let x := tget (dconst ({} : StatState)) s.stat u
    if x.running then { s with stat := tset (dconst ({} : StatState)) s.stat u { x with unlocked := true } } else s) s

/-- REFERENCE_LOSS: Locked goes to Holdover (R416); during Acquiring, State returns to Qualifying (R425); in Holdover a return that has begun ends. -/
def execReferenceLoss (t : Nat) (s : State) : Outcome :=
  let s := s.advance t
  .next (if s.rd Ob.synState = 3 then
      let s1 := (((s.wr Ob.synState 4).bump Ob.synLossCount).wr Ob.synHoldoverTime 0).statsUnlocked
      ({ s1 with syn := { s1.syn with lostAt := s1.now, slewing := false } } : State).calUnlock
    else if s.rd Ob.synState = 2 then s.wr Ob.synState 1
    else if s.rd Ob.synState = 4 then { s with syn := { s.syn with slewing := false } }
    else s)

/-- REFERENCE_REQUALIFIED: SYN-T re-injects and slews f_T (R417). -/
def execReferenceRequalified (t : Nat) (s : State) : Outcome :=
  let s := s.advance t
  .next (if s.rd Ob.synState = 4 then { s with syn := { s.syn with slewing := true } } else s)

/-- HoldoverTime in milliseconds, of the current or the latest Holdover (R417). -/
def State.holdoverMs (s : State) : Nat :=
  if s.rd Ob.synState = 4 then (s.now - s.syn.lostAt) * 1000 / s.second % 2 ^ 32 else s.rd Ob.synHoldoverTime

/-- SYNT_RELOCK: SYN-T returns to Locked; the return is no step (R417, R430). -/
def execSyntRelock (t : Nat) (s : State) : Outcome :=
  let s := s.advance t
  .next (if s.rd Ob.synState = 4 ∧ s.syn.slewing then
      let s1 := (s.wr Ob.synHoldoverTime s.holdoverMs).wr Ob.synState 3
      { s1 with syn := { s1.syn with slewing := false } }
    else s)

/-! ### Clock outputs -/

/-- The runtime state of clock output `i`: 0-7 DCLK_OUT, 8-15 SREF_OUT. -/
def State.clkOut (s : State) (i : Nat) : ClkOut := tget (dconst ({} : ClkOut)) s.clk i

def State.setClkOut (s : State) (i : Nat) (x : ClkOut) : State :=
  { s with clk := tset (dconst ({} : ClkOut)) s.clk i x }

/-- The first time of the sequence base + m * period, m any integer, at or after `x`; the sequence holds no negative time
(device time has none). -/
def firstEdge (base period x : Nat) : Nat :=
  let r := base % period
  if x ≤ r then r else r + period * ceilDiv (x - r) period

/-- Edge sequence of DCLK_OUT[k]: T = 128 * (m * D + Coarse) + Fine (R419). -/
def dclkFirst (cfg x : Nat) : Nat :=
  firstEdge (128 * bits cfg 17 8 + bits cfg 6 0) (128 * bits cfg 41 32) x

/-- Edge sequence of SREF_OUT[k]: T = 128 * (Offset + m * Period) + Fine (R419). -/
def srefFirst (cfg offset x : Nat) : Nat :=
  firstEdge (128 * offset + bits cfg 6 0) (128 * bits cfg 47 16) x

/-- Reserved bits of DclkConfig and SrefConfig. -/
def dclkReserved (v : Nat) : Bool := bits v 59 42 != 0 || bits v 31 18 != 0 || bit v 7
def srefReserved (v : Nat) : Bool := bits v 50 48 != 0 || bit v 7

/-- The values with which DCLK_OUT[k] may be enabled (R421): f_V / D = 2 f_T / D is at most 2.0 GHz. -/
def dclkOk (fT v : Nat) : Bool :=
  let d := bits v 41 32
  decide (1 ≤ d) && decide (2 * fT ≤ 2000000000 * d)

/-- The values with which SREF_OUT[k] may be enabled (R421). -/
def srefOk (dclk v offset : Nat) : Bool :=
  let p := bits v 47 16
  let w := bits v 15 8
  let d := bits dclk 41 32
  decide (16 ≤ p) && (d == 0 || p % d == 0) && decide (w < p) && decide (offset < p)
  && (!bit v 59 || bits v 58 51 != 0)

/-- Is channel `k` of link `j` used by slot `n`: its ChannelMask names it and its SourceLink is the link? -/
def State.slotUsesLink (s : State) (n j : Nat) : Bool :=
  (List.range 64).any fun k => bit (s.rd (Ob.slotChannelMask n)) k && s.rd (Ob.chanSourceLink k) == j

/-- Link `j` has an owning pipeline in a state other than Empty or Described. -/
def State.linkOwned (s : State) (j : Nat) : Bool :=
  (List.range 64).any fun n => s.active n && s.slotUsesLink n j

/-- SREF_OUT[k] is the SysrefSource of a subclass 1 link with owning pipelines (R421). -/
def State.srefInUse (s : State) (k : Nat) : Bool :=
  (List.range 16).any fun j =>
    s.rd (Ob.linkSubclass j) == 1 && s.rd (Ob.linkSysrefSource j) == k && s.linkOwned j

/-- The start of an output: the first edge of its sequence at least 2 us after the write (R420). -/
def State.clkStart (s : State) (i cfg offset : Nat) : Nat :=
  let x := s.devNow + s.us 2
  if i < 8 then dclkFirst cfg x else srefFirst cfg offset x

/-- A DclkConfig or SrefConfig write enables, disables or configures output `i` (R420, R421). -/
def clkConfigWrite (i v : Nat) : Act := fun s =>
  let k := i % 8
  let key := if i < 8 then Ob.clkDclkConfig k else Ob.clkSrefConfig k
  let old := s.rd key
  let en := bit old 63
  let en' := bit v 63
  let dclk := if i < 8 then v else s.rd (Ob.clkDclkConfig k)
  let x := s.clkOut i
  if en && v % 2 ^ 63 != old % 2 ^ 63 then .error Abort.state
  else if en && !en' && decide (8 ≤ i) && s.srefInUse k then .error Abort.state
  else if !en && en' && !s.counts then .error Abort.state
  else if decide (2 ^ 64 ≤ v) || (if i < 8 then dclkReserved v else srefReserved v) then .error Abort.range
  else if !en && en' && !(if i < 8 then dclkOk s.fT v else srefOk dclk v (s.rd (Ob.clkSrefOffset k))) then
    .error Abort.range
  else if decide (i < 8) && bits v 41 32 != 0 && bit (s.rd (Ob.clkSrefConfig k)) 63
      && bits (s.rd (Ob.clkSrefConfig k)) 47 16 % bits v 41 32 != 0 then .error Abort.range
  else
    let s1 := s.wr key v
    if !en && en' then
      let burst := decide (8 ≤ i) && bit v 59
      .ok (s1.setClkOut i { x with
        startAt := if burst then none else some (s.clkStart i v (s.rd (Ob.clkSrefOffset k)))
        burst := 0
        stopping := false })
    else if en && !en' then
      let running := bit (s.rd Ob.clkOutputState) i
      .ok (s1.setClkOut i { x with startAt := none, burst := if running then x.burst else 0, stopping := running })
    else .ok s1

/-- A write of SrefOffset[k] (R421: no field but Enable of an enabled output changes). -/
def clkOffsetWrite (k v : Nat) : Act := fun s =>
  if bit (s.rd (Ob.clkSrefConfig k)) 63 && v != s.rd (Ob.clkSrefOffset k) then .error Abort.state
  else if 2 ^ 32 ≤ v then .error Abort.range
  else .ok (s.wr (Ob.clkSrefOffset k) v)

/-- A write to 0x2420:01 to :18. -/
def clkWrite (sub v : Nat) : Act := fun s =>
  if sub = 0 then .error Abort.writeRo
  else if sub ≤ 0x10 then clkConfigWrite (sub - 1) v s
  else if sub ≤ 0x18 then clkOffsetWrite (sub - 0x11) v s
  else if sub = 0x1A then .error Abort.writeRo
  else .error Abort.noSub

/-- CLOCK_OUTPUT_WRITE (R421). -/
def execClockOutputWrite (t sub value : Nat) (s : State) : Outcome := .next (s.serve t (clkWrite sub value))

/-- A fire reaches SREF_OUT[k]: a burst starts on a selected one that is enabled in burst mode and idle, and is noted as ignored on one that
still waits or sends. -/
def fireStep (mask : Nat) (p : State × Nat) (k : Nat) : State × Nat :=
  let cfg := p.1.rd (Ob.clkSrefConfig k)
  let x := p.1.clkOut (8 + k)
  if bit mask k && bit cfg 63 && bit cfg 59 then
    if x.burst = 0 then
      (p.1.setClkOut (8 + k) { x with
        startAt := some (p.1.clkStart (8 + k) cfg (p.1.rd (Ob.clkSrefOffset k)))
        burst := bits cfg 58 51 }, p.2)
    else (p.1, setBit p.2 k true)
  else p

/-- SrefFire (R420): a burst on each selected SREF_OUT that is enabled in burst mode; a fire on an output still waiting or
sending is ignored and reported. -/
def srefFire (mask : Nat) : Act := fun s =>
  if 256 ≤ mask then .error Abort.range
  else
    let r := (List.range 8).foldl (fireStep mask) (s, 0)
    .ok { r.1 with syn := { r.1.syn with fireIgnored := some r.2 } }

/-- SREF_FIRE (R420). -/
def execSrefFire (t mask : Nat) (s : State) : Outcome := .next (s.serve t (srefFire mask))

/-- OUTPUT_START: an enabled output starts at its first edge time (R420). -/
def execOutputStart (t : Nat) (output : Fin 16) (s : State) : Outcome :=
  let s := s.advance t
  let x := s.clkOut output
  .next (match x.startAt with
    | some T =>
      if T ≤ s.devNow then
        (s.wr Ob.clkOutputState (setBit (s.rd Ob.clkOutputState) output true)).setClkOut output { x with startAt := none }
      else s
    | none => s)

/-- OUTPUT_STOP: a disabled output stops after its last complete phase or pulse, and a burst ends with its last pulse (R420). -/
def execOutputStop (t : Nat) (output : Fin 16) (s : State) : Outcome :=
  let s := s.advance t
  let x := s.clkOut output
  .next (if (x.stopping || x.burst != 0) && bit (s.rd Ob.clkOutputState) output then
      (s.wr Ob.clkOutputState (setBit (s.rd Ob.clkOutputState) output false)).setClkOut output {}
    else s)

end Sys2Proof.Machine
end

