-- ==== Sys2Proof/Machine/Flags.lean ====
section
/-! DEFINITION. The engine's registers, its status flags and the overflow record (spec/10_engines.md R251-R255, R262). -/

namespace Sys2Proof.Machine

/-- Register values at their reset (R251): ctl is 0xC000, the others 0. -/
def regReset (c : Nat) : Nat := if c = 0x17 then 0xC000 else 0

/-- Width of a register (R251). -/
def regWidth (c : Nat) : Nat :=
  if c < 8 then 12 else if c < 12 then 64 else if c = 0x18 then 32 else if c = 0x1A then 64 else 16

/-- The bits of a register that a write changes: reserved fields stay 0 (R12), st takes only LDEPTH, SOV and AOV (R252). -/
def regMask (c : Nat) : Nat :=
  if 8 ≤ c ∧ c < 12 then 2 ^ 64 - 1 - 3 * 2 ^ 32 else if c = 0x17 then 0xF800 else if c = 0x18 then 0xE000FFFF
  else if c = 0x16 then 0x1F00 else 2 ^ regWidth c - 1

/-- A stored register. -/
def Engine.raw (e : Engine) (c : Nat) : Nat := tget regReset e.r c

/-- Store a register. -/
def Engine.put (e : Engine) (c v : Nat) : Engine := { e with r := tset regReset e.r c v }

/-- st as it reads (R252): EV, SIDLE and RXAV stand beside the stored bits; SIDLE becomes 1 at entry into Running, and a Halted engine keeps it. -/
def Engine.status (e : Engine) : Nat :=
  b2n e.ev * 2 ^ 15 + b2n ((e.st == 2 || e.st == 3) && e.sends.isEmpty) * 2 ^ 14 + b2n (e.raw 0x19 != 0) * 2 ^ 13 + bits (e.raw 0x16) 12 2 * 4

/-- A register as it reads. -/
def Engine.reg (e : Engine) (c : Nat) : Nat := if c = 0x16 then e.status else e.raw c

/-- A write to a register (R284): the value's low bits; st keeps its other bits (R252); LDEPTH 5-7 act as 4. -/
def Engine.writeReg (e : Engine) (c v : Nat) : Engine :=
  if c = 0x16 then
    let d := min 4 (bits v 12 10)
    e.put 0x16 (setBits (setBits (e.raw 0x16) 12 10 d) 9 8 (bits v 9 8))
  else if c = 0x19 ∨ c = 0x1A ∨ 0x1A < c then e
  else e.put c (v &&& regMask c)

/-- LDEPTH (R252). -/
def Engine.ldepth (e : Engine) : Nat := min 4 (bits (e.raw 0x16) 12 10)

/-- Sticky overflow and store-saturation bits. -/
def Engine.aov (e : Engine) : Bool := bit (e.raw 0x16) 8
def Engine.sov (e : Engine) : Bool := bit (e.raw 0x16) 9

/-- The two components of an accumulator. -/
def Engine.accRe (e : Engine) (k : Nat) : Int := if k = 0 then e.acc0re else e.acc1re
def Engine.accIm (e : Engine) (k : Nat) : Int := if k = 0 then e.acc0im else e.acc1im

/-- N_k and Z_k follow a write of acc_k (R252). -/
def Engine.setAcc (e : Engine) (k : Nat) (re im : Int) : Engine :=
  let e1 := if k = 0 then { e with acc0re := re, acc0im := im } else { e with acc1re := re, acc1im := im }
  let n := decide (re < 0)
  let z := decide (re = 0) && decide (im = 0)
  e1.put 0x16 (if k = 0 then setBit (setBit (e.raw 0x16) 5 n) 4 z else setBit (setBit (e.raw 0x16) 7 n) 6 z)

/-- G_k (R252). -/
def Engine.setG (e : Engine) (k : Nat) (v : Bool) : Engine := e.put 0x16 (setBit (e.raw 0x16) (2 + k) v)

/-- Accumulator limits (R262). -/
def accMax : Int := 2 ^ 47 - 1
def accMin : Int := -(2 ^ 47)

/-- Does an exact sum overflow (R262)? -/
def accOver (v : Int) : Bool := decide (v < accMin) || decide (accMax < v)

/-- The component that an exact sum gives: clamped in saturate mode, modulo 2^48 in wrap mode (R262). -/
def accFit (sat : Bool) (v : Int) : Int := if sat then clampI accMin accMax v else sint 48 (uint 48 v)

/-- SAT_k of ctl (R253). -/
def satOf (ctl k : Nat) : Bool := bit ctl (14 + k)

/-- One overflow record (R255). -/
def ovfRecord (acc comp term : Nat) : Nat := 2 ^ 31 + acc * 2 ^ 30 + comp * 2 ^ 29 + term % 65536

/-- Overflows of one cycle, as (accumulator, component, term count), in the order of R262: AOV is set, and ovf_at takes the first
when AOV was clear. -/
def Engine.overflow (e : Engine) (l : List (Nat × Nat × Nat)) : Engine :=
  match l with
  | [] => e
  | (a, c, t) :: _ =>
    let e1 := if e.aov then e else e.put 0x18 (ovfRecord a c t)
    e1.put 0x16 (setBit (e1.raw 0x16) 8 true)

/-- A store saturated (R265). -/
def Engine.storeSat (e : Engine) (v : Bool) : Engine := if v then e.put 0x16 (setBit (e.raw 0x16) 9 true) else e

end Sys2Proof.Machine
end

