-- ==== Sys2Proof/Machine/Operands.lean ====
section
/-! DEFINITION. The engine's operand forms: nanoword fields, data formats, address generation, product forms, rounding (spec/10_engines.md R246-R250, R256-R266; spec/11_microcode.md R276-R284). -/

namespace Sys2Proof.Machine

/-! ### Memory -/

/-- One element of a bank, 0 X or 1 Y; addresses wrap modulo 4,096 (R246). -/
def Engine.elem (e : Engine) (bank a : Nat) : Nat :=
  if bank = 0 then tget (dconst 0) e.x (a % 4096) else tget (dconst 0) e.y (a % 4096)

def Engine.setElem (e : Engine) (bank a v : Nat) : Engine :=
  if bank = 0 then { e with x := tset (dconst 0) e.x (a % 4096) (v % 2 ^ 32) }
  else { e with y := tset (dconst 0) e.y (a % 4096) (v % 2 ^ 32) }

/-- The 64-bit word of element `a` (R246): bit 0 of the address is ignored. -/
def Engine.word (e : Engine) (bank a : Nat) : Nat :=
  e.elem bank (a / 2 * 2) + e.elem bank (a / 2 * 2 + 1) * 2 ^ 32

def Engine.setWord (e : Engine) (bank a v : Nat) : Engine :=
  (e.setElem bank (a / 2 * 2) v).setElem bank (a / 2 * 2 + 1) (v / 2 ^ 32)

/-- Write consecutive elements. -/
def Engine.setElems (e : Engine) (bank a : Nat) : List Nat → Engine
  | [] => e
  | v :: vs => (e.setElem bank a v).setElems bank (a + 1) vs

/-! ### Formats (R249) -/

def loEl (w : Nat) : Nat := w % 2 ^ 32
def hiEl (w : Nat) : Nat := w / 2 ^ 32 % 2 ^ 32
/-- The element of a word that address `a` names. -/
def elOf (w a : Nat) : Nat := if a % 2 = 0 then loEl w else hiEl w
/-- c16: I and Q. -/
def c16re (el : Nat) : Int := sint 16 el
def c16im (el : Nat) : Int := sint 16 (el / 65536)
/-- r18. -/
def r18 (el : Nat) : Int := sint 18 el
/-- r16x2 lane 0 or 1. -/
def lane (el i : Nat) : Int := sint 16 (el / 65536 ^ i)

/-! ### Nanoword fields (R281) -/

def nArith (n : Nat) : Nat := bits n 191 188
def nAcc (n : Nat) : Nat := bits n 187 186
def nForm (n : Nat) : Nat := bits n 185 183
def nConj (n : Nat) : Bool := bit n 182
def nSqr (n : Nat) : Bool := bit n 181
def nXRead (n : Nat) : Nat := bits n 169 168
def nXPtr (n : Nat) : Nat := bits n 167 166
def nXIx (n : Nat) : Nat := bits n 165 165
def nXLoad (n : Nat) : Nat := bits n 164 159
def nYRead (n : Nat) : Nat := bits n 158 157
def nYPtr (n : Nat) : Nat := 4 + bits n 156 155
def nYIx (n : Nat) : Nat := bits n 154 154
def nYLoad (n : Nat) : Nat := bits n 153 148
def nStore (n : Nat) : Nat := bits n 147 145
def nStBank (n : Nat) : Nat := bits n 144 144
def nStPtr (n : Nat) : Nat := bits n 143 142 + 4 * nStBank n
def nStMod (n : Nat) : Nat := bits n 141 139
def nStIx (n : Nat) : Nat := bits n 138 138
def nStFmt (n : Nat) : Nat := bits n 137 135
def nStShift (n : Nat) : Nat := bits n 134 129
def nStRnd (n : Nat) : Nat := bits n 128 127
def nStSat (n : Nat) : Bool := bit n 126
def nStAcc (n : Nat) : Nat := bits n 125 125
def nStComp (n : Nat) : Nat := bits n 124 124
def nStReg (n : Nat) : Nat := bits n 123 118
def nRtOp (n : Nat) : Nat := bits n 117 116
def nRtDst (n : Nat) : Nat := bits n 115 110
def nRtSrc (n : Nat) : Nat := bits n 109 104
def nRtImm (n : Nat) : Nat := bits n 103 72
def nRtHigh (n : Nat) : Bool := bit n 71
def nCtl (n : Nat) : Nat := bits n 70 69
def nSendPtr (n : Nat) : Nat := bits n 68 66
def nCount (n : Nat) : Nat := bits n 65 60 + 1
def nFlow (n : Nat) : Nat := bits n 59 56

/-! ### Address generation (R254, R256) -/

/-- Reverse the low `k` bits. -/
def revBits : Nat → Nat → Nat
  | 0, _ => 0
  | k + 1, n => n % 2 * 2 ^ k + revBits k (n / 2)

/-- ceil(log2(n)) for n ≥ 1. -/
def clog2 (n : Nat) : Nat := if n ≤ 1 then 0 else Nat.log2 (n - 1) + 1

/-- The address of an access: the pointer, and in stride mode p + ix * Inc. -/
def accessAddr (p m ix : Nat) : Nat :=
  if bits m 63 62 = 3 then (((p : Int) + ix * sint 16 m) % 4096).toNat else p % 4096

/-- The update of R256: pointer, modifier and index register after the access. -/
def updatePtr (p m ix : Nat) : Nat × Nat × Nat :=
  let mode := bits m 63 62
  let len := bits m 61 48
  let inc := sint 16 m
  if mode = 0 then (uint 12 ((p : Int) + inc), m, ix)
  else if mode = 1 then
    let l := max len 1
    let base := p - p % 2 ^ clog2 l
    let q := (p : Int) + inc
    let q1 := if (base : Int) + len ≤ q then q - len else q
    let q2 := if q1 < (base : Int) then q1 + len else q1
    (uint 12 q2, m, ix)
  else if mode = 2 then
    let k := min (max len 1) 12
    let r := revBits k (p % 2 ^ k) + revBits k (uint k inc)
    (p - p % 2 ^ k + revBits k (r % 2 ^ k), m, ix)
  else if max len 1 ≤ bits m 47 34 + 1 then
    (uint 12 ((p : Int) + sint 16 (m / 65536)), setBits m 47 34 0, 0)
  else (p, setBits m 47 34 (bits m 47 34 + 1), (ix + 1) % 65536)

/-! ### Product forms (R259, R260) -/

/-- A complex number in integers. -/
structure Cx where
  re : Int
  im : Int
  deriving DecidableEq, Repr

/-- (a + ib)(c + id), with d negated for Conj (R259). -/
def Cx.mul (conj : Bool) (x y : Cx) : Cx :=
  let d := if conj then -y.im else y.im
  { re := x.re * y.re - x.im * d, im := x.re * d + x.im * y.re }

def Cx.add (x y : Cx) : Cx := { re := x.re + y.re, im := x.im + y.im }
def Cx.sub (x y : Cx) : Cx := { re := x.re - y.re, im := x.im - y.im }
def Cx.shl (x : Cx) (k : Nat) : Cx := { re := x.re * 2 ^ k, im := x.im * 2 ^ k }
def cxC16 (el : Nat) : Cx := { re := c16re el, im := c16im el }
def cxC18 (w : Nat) : Cx := { re := r18 (loEl w), im := r18 (hiEl w) }

/-- What a form gives one accumulator: the product term, the count, and whether im takes part (RDOT leaves it). -/
structure FormOut where
  p : Cx
  n : Nat
  im : Bool := true
  deriving DecidableEq, Repr

/-- P_k and n_k of a form (R260); none for an accumulator that the form leaves out. -/
def formOut (form : Nat) (conj sqr : Bool) (xw yw acc k : Nat) : Option FormOut :=
  let x0 := loEl xw
  let x1 := hiEl xw
  let y0 := if sqr then x0 else loEl yw
  let y1 := if sqr then x1 else hiEl yw
  let cj := conj || sqr
  if form = 0 then
    some { p := Cx.mul cj (cxC16 (if k = 0 then x0 else x1)) (cxC16 (if k = 0 then y0 else y1)), n := 1 }
  else if form = 1 then some { p := Cx.mul cj (cxC16 (if k = 0 then x0 else x1)) (cxC18 yw), n := 1 }
  else if form = 2 then
    if k = 0 then some { p := (Cx.mul cj (cxC16 x0) (cxC16 y0)).add (Cx.mul cj (cxC16 x1) (cxC16 y1)), n := 2 } else none
  else if form = 3 then
    some { p := Cx.mul false (cxC16 (if k = 0 then x0 else x1)) { re := r18 (if k = 0 then loEl yw else hiEl yw), im := 0 }
           n := 1 }
  else if form = 4 then
    let x := if k = 0 then x0 else x1
    some { p := { re := lane x 0 * r18 (loEl yw) + lane x 1 * r18 (hiEl yw), im := 0 }, n := 2, im := false }
  else if form = 5 then
    if bit acc k then some { p := Cx.mul cj (cxC18 xw) (cxC18 yw), n := 1 } else none
  else if form = 6 then
    let q := Cx.mul cj (cxC16 x1) (cxC18 yw)
    let a := (cxC16 x0).shl 17
    some { p := if k = 0 then a.add q else a.sub q, n := 1 }
  else none

/-! ### Rounding and limiting (R264, R265) -/

/-- round_shift of R264: 0 FLOOR, 1 HALF_UP, 2 HALF_AWAY, 3 HALF_EVEN. -/
def roundShift (v : Int) (s rnd : Nat) : Int :=
  if s = 0 then v
  else
    let q := asr v s
    let f := v - q * 2 ^ s
    let h : Int := 2 ^ (s - 1)
    let up := if rnd = 0 then false else if rnd = 1 then decide (h ≤ f)
      else if rnd = 2 then decide (h < f) || (decide (f = h) && decide (0 ≤ v))
      else decide (h < f) || (decide (f = h) && decide (q % 2 ≠ 0))
    if up then q + 1 else q

/-- The width of a store format (R264): c16, r16x2 lane 0 and 1, r18, c18, s32. -/
def fmtWidth (fmt : Nat) : Nat := if fmt ≤ 2 then 16 else if fmt ≤ 4 then 18 else 32

/-- Limit a rounded component to `w` bits: the value, and whether it saturated (R265). -/
def limitTo (w : Nat) (sat ssym : Bool) (v : Int) : Int × Bool :=
  let hi : Int := 2 ^ (w - 1) - 1
  let lo : Int := if ssym then -hi else -hi - 1
  if sat then (if hi < v then (hi, true) else if v < lo then (lo, true) else (v, false))
  else (sint w (uint w v), false)

/-- One component as it is stored (R264, R265). -/
def storeComp (n ctl : Nat) (v : Int) : Int × Bool :=
  limitTo (fmtWidth (nStFmt n)) (nStSat n) (bit ctl 13) (roundShift v (nStShift n) (nStRnd n))

end Sys2Proof.Machine
end

