-- ==== Sys2Proof/Machine/Engine.lean ====
section
/-! DEFINITION. One cycle of an engine: the six stages, each reading what the cycle began with (spec/10_engines.md R256-R274; spec/11_microcode.md R276-R288). -/

namespace Sys2Proof.Machine

/-- What a cycle can bring about outside the datapath. -/
inductive EngOut where
  /-- the engine halts, with its fault cause (R243, R521) -/
  | halted (cause : Nat)
  /-- a yield ended the frame (R288) -/
  | yielded
  /-- SAVESTATE was acknowledged before this yield (R503) -/
  | saved
  /-- the engine left Running (R287) -/
  | stopped
  deriving DecidableEq, Repr

/-! ### Stage M2 (R260-R268) -/

/-- The exact sum of R260: kind 1 SET, 2 ADD, 3 SUB. -/
def combine (kind : Nat) (old p : Int) : Int := if kind = 1 then p else if kind = 2 then old + p else old - p

/-- One accumulator operation on acc_k; a form without an imaginary part leaves im. The overflows it makes follow. -/
def Engine.accOp (e : Engine) (k kind ctl : Nat) (f : FormOut) : Engine × List (Nat × Nat × Nat) :=
  let re := combine kind (e.accRe k) f.p.re
  let im := combine kind (e.accIm k) f.p.im
  let tc := min 65535 (if kind = 1 then f.n else e.raw (0x12 + k) + f.n)
  let e1 := (e.setAcc k (accFit (satOf ctl k) re) (if f.im then accFit (satOf ctl k) im else e.accIm k)).put (0x12 + k) tc
  (e1, (if accOver re then [(k, 0, tc)] else []) ++ (if f.im && accOver im then [(k, 1, tc)] else []))

/-- SET, ADD and SUB (R260): acc0 before acc1. -/
def Engine.arith (e : Engine) (u : Uop) : Engine × List (Nat × Nat × Nat) :=
  let n := u.nano
  let kind := nArith n
  let out := fun (k : Nat) => formOut (nForm n) (nConj n) (nSqr n) u.xw u.yw (nAcc n) k
  let r0 := match out 0 with
    | some f => e.accOp 0 kind u.ctl f
    | none => (e, [])
  match out 1 with
  | some f =>
    let r1 := r0.1.accOp 1 kind u.ctl f
    (r1.1, r0.2 ++ r1.2)
  | none => r0

/-- CLR (R263). -/
def Engine.clrAcc (e : Engine) (k : Nat) : Engine := (e.setAcc k 0 0).put (0x12 + k) 0

/-- The two search values of a source (R267, R282). -/
def srchValues (n xw : Nat) : Int × Int :=
  let src := bits n 183 182
  if src = 0 then (lane (loEl xw) 0, lane (loEl xw) 1)
  else if src = 1 then (lane (hiEl xw) 0, lane (hiEl xw) 1)
  else (r18 (loEl xw), r18 (hiEl xw))

/-- One search step of unit k (R267); the flag says whether the value was taken. -/
def Engine.srchStep (e : Engine) (k : Nat) (minDir : Bool) (ctl : Nat) (v : Int) : Engine × Bool :=
  let best := e.accRe k
  let better := if minDir then decide (v < best) else decide (best < v)
  let take := better || (decide (v = best) && bit ctl (11 + k))
  let sn := e.raw (0x14 + k)
  let e1 := if take then (e.setAcc k v (e.accIm k)).put (0x10 + k) sn else e
  (e1.put (0x14 + k) ((sn + 1) % 65536), take)

/-- SRCH (R267): dual mode feeds one unit two values, split mode each unit one. -/
def Engine.srch (e : Engine) (u : Uop) : Engine :=
  let n := u.nano
  let v := srchValues n u.xw
  let mn := bit n 185
  if bit n 184 then
    let a := e.srchStep 0 mn u.ctl v.1
    let b := a.1.srchStep 1 mn u.ctl v.2
    (b.1.setG 0 a.2).setG 1 b.2
  else
    let k := if nAcc n = 2 then 1 else 0
    let a := e.srchStep k mn u.ctl v.1
    let b := a.1.srchStep k mn u.ctl v.2
    b.1.setG k (a.2 || b.2)

/-- SINIT (R267). -/
def Engine.sinit (e : Engine) (n k : Nat) : Engine :=
  ((((e.setAcc k (if bit n 185 then accMax else accMin) 0).put (0x10 + k) 0).put (0x14 + k) 0)).setG k false

/-- The largest s from `s` down with both components in range (R268). -/
def normShift (re im : Int) : Nat → Nat
  | 0 => 0
  | s + 1 =>
    let b : Int := 2 ^ (47 - (s + 1))
    if -b ≤ re ∧ re < b ∧ -b ≤ im ∧ im < b then s + 1 else normShift re im s

/-- NORM (R268). -/
def Engine.norm (e : Engine) (k : Nat) : Engine := e.put (0x10 + k) (normShift (e.accRe k) (e.accIm k) 47)

/-- LDX (R263). -/
def Engine.ldx (e : Engine) (u : Uop) (k : Nat) : Engine :=
  let n := u.nano
  let w := if bit n 185 then u.yw else u.xw
  let v := if bit n 184 then cxC18 w else cxC16 (if bit n 183 then hiEl w else loEl w)
  let x := v.shl (bits n 182 178)
  (e.setAcc k x.re x.im).put (0x12 + k) 1

/-- RESTORE (R266): one component from raw48; tc, AOV and ovf_at stay. -/
def Engine.restore (e : Engine) (u : Uop) (k : Nat) : Engine :=
  let n := u.nano
  let v := sint 48 (if bit n 185 then u.yw else u.xw)
  if bit n 184 then e.setAcc k (e.accRe k) v else e.setAcc k v (e.accIm k)

/-- Apply an operation to each accumulator that ArithAcc names. -/
def Engine.eachAcc (e : Engine) (acc : Nat) (f : Engine → Nat → Engine) : Engine :=
  let e0 := if bit acc 0 then f e 0 else e
  if bit acc 1 then f e0 1 else e0

/-- The stage M2. -/
def Engine.stageM2 (e : Engine) (u : Uop) : Engine × List (Nat × Nat × Nat) :=
  let n := u.nano
  let op := nArith n
  if 1 ≤ op ∧ op ≤ 3 then e.arith u
  else if op = 4 then (e.eachAcc (nAcc n) fun e k => e.clrAcc k, [])
  else if op = 5 then (e.eachAcc (nAcc n) fun e k => e.ldx u k, [])
  else if op = 6 then (e.eachAcc (nAcc n) fun e k => e.restore u k, [])
  else if op = 7 then (e.srch u, [])
  else if op = 8 then (e.eachAcc (nAcc n) fun e k => e.sinit n k, [])
  else if op = 9 then (e.eachAcc (nAcc n) fun e k => e.norm k, [])
  else (e, [])

/-! ### Stage WB (R264-R266, R284) -/

/-- A store of one accumulator in its format; the flag says whether a component saturated. -/
def Engine.storeOne (e0 e : Engine) (u : Uop) : Engine × Bool :=
  let n := u.nano
  let k := nStAcc n
  let bank := nStBank n
  let re := storeComp n u.ctl (e0.accRe k)
  let im := storeComp n u.ctl (e0.accIm k)
  let c := if nStComp n = 0 then re else im
  let fmt := nStFmt n
  if fmt = 0 then (e.setElem bank u.sa (uint 16 re.1 + uint 16 im.1 * 65536), re.2 || im.2)
  else if fmt = 1 then (e.setElem bank u.sa (e0.elem bank u.sa / 65536 * 65536 + uint 16 c.1), c.2)
  else if fmt = 2 then (e.setElem bank u.sa (e0.elem bank u.sa % 65536 + uint 16 c.1 * 65536), c.2)
  else if fmt = 4 then (e.setWord bank u.sa (uint 32 re.1 + uint 32 im.1 * 2 ^ 32), re.2 || im.2)
  else (e.setElem bank u.sa (uint 32 c.1), c.2)

/-- A pair store (R264): acc0 to the even element, acc1 to the odd one, both c16 or both r18. -/
def Engine.storePair (e0 e : Engine) (u : Uop) : Engine × Bool :=
  let n := u.nano
  let part := fun (k : Nat) =>
    let re := storeComp n u.ctl (e0.accRe k)
    let im := storeComp n u.ctl (e0.accIm k)
    if nStFmt n = 0 then (uint 16 re.1 + uint 16 im.1 * 65536, re.2 || im.2)
    else if nStComp n = 0 then (uint 32 re.1, re.2) else (uint 32 im.1, im.2)
  (e.setWord (nStBank n) u.sa ((part 0).1 + (part 1).1 * 2 ^ 32), (part 0).2 || (part 1).2)

/-- A raw save (R266). -/
def Engine.rawSave (e0 e : Engine) (u : Uop) : Engine :=
  let n := u.nano
  e.setWord (nStBank n) u.sa (uint 64 (if nStComp n = 0 then e0.accRe (nStAcc n) else e0.accIm (nStAcc n)))

/-- A register store (R284). -/
def Engine.regStore (e : Engine) (u : Uop) : Engine :=
  let n := u.nano
  let r := nStReg n
  if (8 ≤ r ∧ r < 12) ∨ r = 0x1A then e.setWord (nStBank n) u.sa u.sampled
  else e.setElem (nStBank n) u.sa u.sampled

/-- The stage WB: memory after it, and whether a component saturated. -/
def Engine.stageWB (e0 e : Engine) (u : Uop) : Engine × Bool :=
  let op := nStore u.nano
  if op = 1 then Engine.storeOne e0 e u
  else if op = 2 then Engine.storePair e0 e u
  else if op = 3 then (Engine.rawSave e0 e u, false)
  else if op = 4 then (e.regStore u, false)
  else (e, false)

/-! ### Stage OF (R246, R271) -/

/-- The value a register load reads (R284). -/
def Engine.loadValue (e0 : Engine) (bank a r : Nat) : Nat :=
  if 8 ≤ r ∧ r < 12 then e0.word bank a else e0.elem bank a

/-- The words and the register loads of the stage OF: (register, value). -/
def Engine.ofLoads (e0 : Engine) (u : Uop) : List (Nat × Nat) :=
  (if nXRead u.nano = 2 then [(nXLoad u.nano, e0.loadValue 0 u.xa (nXLoad u.nano))] else [])
  ++ (if nYRead u.nano = 2 then [(nYLoad u.nano, e0.loadValue 1 u.ya (nYLoad u.nano))] else [])

/-- The microword with its operands. -/
def Engine.ofRead (e0 : Engine) (u : Uop) : Uop :=
  { u with xw := if nXRead u.nano = 1 then e0.word 0 u.xa else 0
           yw := if nYRead u.nano = 1 then e0.word 1 u.ya else 0 }

/-! ### Stage NF (R256, R258, R269, R270, R273, R281) -/

/-- One access through pointer `p` with modifier `m` and index register `ix`: pointer, modifier and index advance (R256). -/
def Engine.advancePtr (e : Engine) (p m ix : Nat) : Engine :=
  let r := updatePtr (e.raw p) (e.raw (8 + m)) (e.raw (0x10 + ix))
  ((e.put p r.1).put (8 + m) r.2.1).put (0x10 + ix) r.2.2

/-- The accesses of one bank: read, then store; a store through the read's pointer does not advance it again (R258). -/
def Engine.advanceBank (e : Engine) (rd : Bool) (p m ix : Nat) (stv : Bool) (sp sm six : Nat) : Engine :=
  let e1 := if rd then e.advancePtr p m ix else e
  if stv && !(rd && sp == p) then e1.advancePtr sp sm six else e1

/-- The modifier of the store access (R281); the reserved values 5 to 7, which no verified image holds, name m1 to m3 (log entry 43). -/
def stMod (u : Uop) : Nat :=
  if nStMod u.nano = 4 then (if nStBank u.nano = 0 then u.xmod else u.ymod) else nStMod u.nano % 4

/-- The value of the register transfer, from what the cycle began with. -/
def Engine.rtValue (e0 : Engine) (n : Nat) : Nat :=
  let d := nRtDst n
  if nRtOp n = 2 then e0.reg (nRtSrc n)
  else if 8 ≤ d ∧ d < 12 then
    if nRtHigh n then e0.raw d % 2 ^ 32 + nRtImm n * 2 ^ 32 else e0.raw d / 2 ^ 32 * 2 ^ 32 + nRtImm n
  else nRtImm n

/-- The pointers, modifiers and index registers after the accesses of a microword (R256, R258). -/
def Engine.nfPointers (e : Engine) (u : Uop) : Engine :=
  let n := u.nano
  let stOn := nStore n != 0
  (e.advanceBank (nXRead n != 0) (nXPtr n) u.xmod (nXIx n) (stOn && nStBank n == 0) (nStPtr n) (stMod u) (nStIx n)).advanceBank
    (nYRead n != 0) (nYPtr n) u.ymod (nYIx n) (stOn && nStBank n == 1) (nStPtr n) (stMod u) (nStIx n)

/-- The register transfer (R281). -/
def Engine.nfTransfer (e0 e : Engine) (u : Uop) : Engine :=
  if nRtOp u.nano != 0 then e.writeReg (nRtDst u.nano) (e0.rtValue u.nano) else e

/-- A SEND moves its pointer past its flits (R270). -/
def Engine.sendPointer (e : Engine) (n : Nat) : Engine :=
  if nCtl n = 1 then e.put (nSendPtr n) (uint 12 ((e.raw (nSendPtr n) : Int) + 16 * nCount n)) else e

/-- What a microword's updates make of pointers, modifiers and index registers, from what the cycle began with (R273); a register that they leave alone
stays as `e` has it. -/
def Engine.nfUpdates (e0 e : Engine) (u : Uop) : Engine :=
  let f := (e0.nfPointers u).sendPointer u.nano
  (List.range 0x12).foldl (fun (e : Engine) c => if f.raw c = e0.raw c then e else e.put c (f.raw c)) e

/-- A SEND joins the queue with the frame of its microword (R270, R288). -/
def Engine.nfSend (e0 e : Engine) (u : Uop) : Engine :=
  let n := u.nano
  let key := u.frame.map fun f => (f.tag, f.index)
  if 8 ≤ e0.sends.length then e
  else
    { e with
      begun := tset (dconst none) e.begun (nFlow n) key
      sends := e.sends ++ [{ bank := nSendPtr n / 4, elem := e0.raw (nSendPtr n), left := nCount n, total := nCount n, flow := nFlow n
                             frame := u.frame, lead := tget (dconst none) e.begun (nFlow n) != key, cycle := e0.raw 0x1A }] }

/-- RXFREE releases units, at most those that rxn counts (R269). -/
def Engine.nfRxfree (e : Engine) (n : Nat) : Engine :=
  { e.put 0x19 (e.raw 0x19 - min (nCount n) (e.raw 0x19)) with unreleased := e.unreleased - min (nCount n) (e.raw 0x19) }

/-- An event has the code `c`. -/
def isEvent (v : Option Event) (c : Nat) : Bool :=
  match v with
  | some v => v.code == c
  | none => false

/-- EVACK takes the event: STOP and SAVESTATE are acknowledged (R287). -/
def Engine.nfEvack (e0 e : Engine) : Engine :=
  { e with
    ev := false
    event := none
    stopping := e.stopping || isEvent e0.event 3
    saving := e.saving || isEvent e0.event 4 }

/-- Ctl (R281). -/
def Engine.nfCtl (e0 e : Engine) (u : Uop) : Engine :=
  let n := u.nano
  if nCtl n = 1 then Engine.nfSend e0 e u
  else if nCtl n = 2 then e.nfRxfree n
  else if nCtl n = 3 then Engine.nfEvack e0 e
  else e

/-- What a microword latches in NF: its addresses, the register that a register store samples, and ctl as its own NF leaves it (R271,
R273). -/
def Engine.nfLatch (e0 : Engine) (u : Uop) (ctl : Nat) : Uop :=
  let n := u.nano
  let addr := fun (p m ix : Nat) => accessAddr (e0.raw p) (e0.raw (8 + m)) (e0.raw (0x10 + ix))
  { u with
    xa := addr (nXPtr n) u.xmod (nXIx n)
    ya := addr (nYPtr n) u.ymod (nYIx n)
    sa := addr (nStPtr n) (stMod u) (nStIx n)
    sampled := e0.reg (nStReg n)
    ctl := ctl }

/-- The stage NF: addresses latched from what the cycle began with, pointers updated, the register transfer, which stands over an update of the same
register (R258), and Ctl. A send into a full queue halts (R270). -/
def Engine.stageNF (e0 e : Engine) (u : Uop) : Engine × Uop × Bool :=
  let e4 := Engine.nfCtl e0 (Engine.nfTransfer e0 (Engine.nfUpdates e0 e u) u) u
  (e4, e0.nfLatch u (e4.raw 0x17), nCtl u.nano == 1 && decide (8 ≤ e0.sends.length))

/-! ### Stage MF (R277-R279, R285, R288) -/

def mNano (w : Nat) : Nat := bits w 31 24
def mNext (w : Nat) : Nat := bits w 23 13
def mCond (w : Nat) : Nat := bits w 12 9
def mXMod (w : Nat) : Nat := bits w 8 7
def mYMod (w : Nat) : Nat := bits w 6 5
def mSafe (w : Nat) : Bool := bit w 4
def mLoop (w : Nat) : Nat := bits w 3 1
def mYield (w : Nat) : Bool := bit w 0

/-- The condition of R278. -/
def Engine.cond (e : Engine) (c : Nat) : Bool :=
  let s := e.status
  if c = 0 then true else if c = 1 then bit s 13 else if c = 2 then !bit s 13 else if c = 3 then bit s 14
  else if c = 4 then !bit s 14 else if c = 5 then bit s 5 else if c = 6 then bit s 4 else if c = 7 then !bit s 4
  else if c = 8 then bit s 7 else if c = 9 then bit s 6 else if c = 10 then bit s 2 else if c = 11 then bit s 3
  else if c = 12 then bit s 8 else if c = 13 then bit s 9 else false

/-- The next address by Cond alone (R277). -/
def Engine.nextByCond (e : Engine) (w : Nat) : Nat :=
  if mCond w = 14 then e.ret
  else if e.cond (mCond w) then mNext w else (e.pc + 1) % 2048

/-- Set LDEPTH. -/
def Engine.setLdepth (e : Engine) (d : Nat) : Engine := e.put 0x16 (setBits (e.raw 0x16) 12 10 d)

/-- Loop control and the next address (R277, R279). -/
def Engine.sequence (e : Engine) (w : Nat) : Engine × Nat :=
  let d := e.ldepth
  let c := 0x0C + (d - 1)
  if mLoop w = 1 then (e.setLdepth (min 4 (d + 1)), e.nextByCond w)
  else if mLoop w = 2 then
    if d = 0 then (e, (e.pc + 1) % 2048)
    else if 1 < e.raw c then (e.put c (e.raw c - 1), mNext w)
    else ((e.put c 0).setLdepth (d - 1), (e.pc + 1) % 2048)
  else if mLoop w = 3 then
    if d = 0 then (e, e.nextByCond w) else ((e.put c 0).setLdepth (d - 1), e.nextByCond w)
  else (e, e.nextByCond w)

/-- Element `k` of the event area (R286). -/
def Engine.setEvent (e : Engine) (k v : Nat) : Engine := e.setElem e.evBank (e.evBase + k) v

/-- The frame state of R288 is written and the units of the frame are counted in rxn; the bank follows the tag (R288). -/
def Engine.startFrame (e : Engine) : Engine :=
  match e.frames with
  | f :: _ =>
    if e.busy || f.units = 0 then e
    else
      let e0 := match e.armed with
        | some (tc, b) => if tc / 2 ^ 40 ≤ f.tag / 2 ^ 40 then { e with bank := b, armed := none } else e
        | none => e
      let e1 := e0.setElems e0.evBank (e0.evBase + 16)
        [f.tag, f.tag / 2 ^ 32, f.tag / 2 ^ 64, f.tag / 2 ^ 96, f.index, f.index / 2 ^ 32,
         f.epoch * 65536 + f.flags % 16, e0.paramBase + e0.bank * e0.paramLength, f.input]
      { e1.put 0x19 ((e1.raw 0x19 + f.units) % 65536) with busy := true }
  | [] => e

/-- Deliver an event: the descriptor first, then EV (R287). -/
def Engine.deliver (e : Engine) (v : Event) : Engine :=
  let e1 := e.setElems e.evBank e.evBase
    [v.code * 2 ^ 24 + e.evSeq % 256 * 65536, v.tc, v.tc / 2 ^ 32, v.tc / 2 ^ 64, v.tc / 2 ^ 96, v.bank]
  { e1 with ev := true, event := some v, evSeq := (e.evSeq + 1) % 256 }

/-- Issue an event: it is delivered now, or after those that wait. -/
def Engine.issue (e : Engine) (v : Event) : Engine :=
  if e.ev || !e.events.isEmpty then { e with events := e.events ++ [v] } else e.deliver v

/-- The stage MF of a microword `w` at pc. -/
def Engine.stageMF (e : Engine) (w : Nat) : Engine × List EngOut :=
  let r := e.sequence w
  let e1 := r.1
  let ret := mCond w == 14 && mLoop w != 2
  let serve := mSafe w && e.ev && !e.service
  let e3 := if serve then { e1.setEvent 6 r.2 with ret := r.2, service := true, pc := e.svcEntry }
    else { e1 with pc := r.2, service := e.service && !ret }
  let e4 := { e3 with
    nf := some { nano := tget (dconst 0) e.nano (mNano w), xmod := mXMod w, ymod := mYMod w, frame := if e.busy then e.frames.head? else none }
    sinceSafe := if mSafe w && !e.service then 0 else e.sinceSafe + 1 }
  (e4, if mYield w then .yielded :: (if e.saving then [.saved] else []) ++ (if e.stopping then [.stopped] else []) else [])

/-! ### The cycle -/

/-- M2 of the cycle. -/
def Engine.runM2 (e0 : Engine) : Engine × List (Nat × Nat × Nat) :=
  match e0.m2 with
  | some u => e0.stageM2 u
  | none => (e0, [])

/-- OF of the cycle: the register loads. -/
def Engine.runOF (e0 e : Engine) (young : Bool) : Engine :=
  match e0.of with
  | some u => if young then (e0.ofLoads u).foldl (fun e l => e.writeReg l.1 l.2) e else e
  | none => e

/-- NF of the cycle: the engine, the microword that goes on to OF, and whether a send meets a full queue. -/
def Engine.runNF (e0 e : Engine) (young : Bool) : Engine × Option Uop × Bool :=
  match e0.nf with
  | some u => if young then ((Engine.stageNF e0 e u).1, some (Engine.stageNF e0 e u).2.1, (Engine.stageNF e0 e u).2.2) else (e, none, false)
  | none => (e, none, false)

/-- WB of the cycle, and whether a component saturated. -/
def Engine.runWB (e0 e : Engine) : Engine × Bool :=
  match e0.wb with
  | some u => Engine.stageWB e0 e u
  | none => (e, false)

/-- The microwords move on, and NF is left empty. -/
def Engine.shift (e e0 : Engine) (of : Option Uop) (young : Bool) : Engine :=
  { e with
    nf := none
    of := of
    m1 := if young then e0.of.map e0.ofRead else none
    m2 := e0.m1
    wb := e0.m2 }

/-- The stages M2, OF, NF and WB of one cycle, each on what the cycle began with; the pipeline moves on, and NF is left empty. The
flag says that a send into a full queue halts the engine. With `young` false, OF and NF do nothing and their microwords are lost. -/
def Engine.stages (e0 : Engine) (young : Bool) : Engine × Bool :=
  let em := e0.runM2
  let en := Engine.runNF e0 (Engine.runOF e0 em.1 young) young
  let ew := Engine.runWB e0 en.1
  (((ew.1.overflow em.2).storeSat ew.2).shift e0 en.2.1 young, en.2.2)

/-- Run the stages of the microwords already issued until none is left. -/
def Engine.drain (young : Bool) : Nat → Engine → Engine
  | 0, e => e
  | k + 1, e => Engine.drain young k (e.stages young).1

/-- The engine halts (R247): the microword at fault and every later one do no more; those before it complete. -/
def Engine.halt (e : Engine) : Engine :=
  { Engine.drain false 4 { e with nf := none, of := none } with st := 3 }

/-- The registers that the microwords in OF and NF write in this cycle; what they write stands over the loop control of the same
cycle, which is that of a later microword than R273 lets see it (log entry 12). -/
def Engine.written (e : Engine) : List Nat :=
  (match e.of with
    | some u => (e.ofLoads u).map Prod.fst
    | none => [])
  ++ (match e.nf with
    | some u => if nRtOp u.nano = 0 then [] else [nRtDst u.nano]
    | none => [])

/-- The loop counters and LDEPTH after a cycle: those of the microword in MF, but for what OF and NF wrote. -/
def Engine.mergeLoops (e e0 m : Engine) : Engine :=
  let lc := (List.range 4).foldl (fun (e : Engine) i =>
    if e0.written.contains (0x0C + i) then e else e.put (0x0C + i) (m.raw (0x0C + i))) e
  if e0.written.contains 0x16 then lc else lc.setLdepth m.ldepth

/-- The sequencer's part of a cycle: `m` is what the stage MF made of the engine that the cycle began with. -/
def Engine.sequenced (e e0 m : Engine) (w : Nat) : Engine :=
  let e2 := { e.mergeLoops e0 m with pc := m.pc, ret := m.ret, service := m.service, nf := m.nf, sinceSafe := m.sinceSafe }
  if mSafe w && e0.ev && !e0.service then e2.setEvent 6 m.ret else e2

/-- The end of the current frame, if there is one, at a yield (R288); a SAVESTATE acknowledged before the cycle is done with (R287). -/
def Engine.nextFrame (e0 e : Engine) : Engine :=
  ({ e with
    frames := if e.busy then e.frames.drop 1 else e.frames
    busy := false
    saving := e.saving && !e0.saving } : Engine).startFrame

/-- The cycle counter (R251). -/
def Engine.countCycle (e : Engine) : Engine := e.put 0x1A ((e.raw 0x1A + 1) % 2 ^ 64)

/-- An event that waited is delivered once EV has been clear (R287). -/
def Engine.nextEvent (e e0 : Engine) : Engine :=
  match e0.ev, e.ev, e.events with
  | false, false, v :: vs => { e with events := vs }.deliver v
  | _, _, _ => e

/-- The engine leaves Running after an acknowledged STOP (R287); what it has queued is still sent for its slot. -/
def Engine.stopped (e : Engine) : Engine :=
  let x := Engine.drain true 5 e
  { x with st := 0, slot := if x.sends.isEmpty then none else x.slot, frames := [], busy := false, stopping := false, events := [], ev := false }

/-- One cycle of a Running engine (R244, R271). `rdErr` is an uncorrectable error of an OF read, `fetchErr` of the microword or the
nanoword fetched (R247). -/
def Engine.cycle (e0 : Engine) (rdErr fetchErr : Bool) : Engine × List EngOut :=
  if rdErr then (({ e0 with of := none, nf := none } : Engine).halt, [.halted 2])
  else
    let w := tget (dconst 0) e0.micro e0.pc
    let s := e0.stages true
    if s.2 then (s.1.halt, [.halted 4])
    else if fetchErr then ({ Engine.drain true 5 s.1 with st := 3 }, [.halted 2])
    else
      let m := e0.stageMF w
      let e3 := s.1.sequenced e0 m.1 w
      let e4 := if mYield w then Engine.nextFrame e0 e3 else e3
      let e6 := e4.countCycle.nextEvent e0
      (if m.2.contains .stopped then e6.stopped else e6, m.2)

end Sys2Proof.Machine
end

