-- ==== Sys2Proof/Machine/RingOps.lean ====
section
/-! DEFINITION. Records, rings and their consumers (spec/09_records.md R219-R230). -/

namespace Sys2Proof.Machine

open Sys2Proof

def State.ringS (s : State) (n : Nat) : RingState := tget (dconst ({} : RingState)) s.ring n

def State.setRing (s : State) (n : Nat) (x : RingState) : State :=
  { s with ring := tset (dconst ({} : RingState)) s.ring n x }

def State.pipeS (s : State) (n : Nat) : Pipe := tget (dconst ({} : Pipe)) s.pipe n

def State.setPipe (s : State) (n : Nat) (x : Pipe) : State :=
  { s with pipe := tset (dconst ({} : Pipe)) s.pipe n x }

/-- The largest record, octets (R222). -/
def maxRecord : Nat := 262272

/-- The marker reserve of a ring, octets (R223). -/
def markerReserve : Nat := 4096

/-- The consumer number of the Replay in slot `n` on its source ring (R225). -/
def replayWho (n : Nat) : Nat := 3 + n

/-- The slot at whose base the ring of slot `n`'s records stands: until a replaced slot becomes Empty it holds the ring of its
Successor (R578). -/
def State.ringOwner (s : State) (n : Nat) : Nat :=
  match (s.slot n).replacing with
  | some m => if (s.ringS n).present then n else m
  | none => n

/-- Octets of a record (R219): the header and the body, padded to a multiple of 64. -/
def Rec.length (r : Rec) : Nat := 64 * ceilDiv (64 + r.body.length) 64

/-- ArrayPosition of the record header: 0xFF outside an array (R219). -/
def State.arrayPosition (s : State) : Nat :=
  if s.rd Ob.arrArrayState = 0 then 0xFF else s.rd Ob.arrPosition

/-- The 64-octet record header as a number, Crc32 as given (R219). -/
def State.recHeader (s : State) (r : Rec) (seq drops crc : Nat) : Nat :=
  r.kind * 2 ^ 504 + r.slot * 2 ^ 496 + r.epoch * 2 ^ 480 + r.length * 2 ^ 448 + r.time * 2 ^ 320 + seq % 2 ^ 64 * 2 ^ 256
    + min drops (2 ^ 32 - 1) * 2 ^ 224 + r.flags % 65536 * 2 ^ 208 + r.gapLength % 2 ^ 32 * 2 ^ 176 + 1 * 2 ^ 168
    + s.arrayPosition * 2 ^ 160 + crc * 2 ^ 128 + Config.serialNumber.toNat % 2 ^ 32 * 2 ^ 96

/-- The octets of a record, with its CRC-32 over all of them, the field taken as zero (R222). -/
def State.recBytes (s : State) (r : Rec) (seq drops : Nat) : Bytes :=
  let tail := r.body ++ List.replicate (r.length - 64 - r.body.length) 0
  let crc := crc32 (leBytes 64 (s.recHeader r seq drops 0) ++ tail)
  leBytes 64 (s.recHeader r seq drops crc) ++ tail

/-- The device address of ring position `q` (R224): extents of 2 MiB in ring order. -/
def RingState.addr (x : RingState) (q : Nat) : Nat :=
  let o := if x.bytes = 0 then q else q % x.bytes
  match x.extents[o / 2097152]? with
  | some e => e.unit * 2097152 + o % 2097152
  | none => o

/-- Write octets at ring position `q`, octet by octet through the extents. -/
def State.ringWrite (s : State) (x : RingState) : Nat → Bytes → State
  | _, [] => s
  | q, b :: bs =>
    (s.setHbm (x.addr q) b).ringWrite x (q + 1) bs

/-- The first position at or after `q` at which `len` octets lie in extents that are not Frozen (R229); the extents passed over
are marked Skipped, a usable extent reached clears Skipped. -/
def RingState.usable (x : RingState) (len : Nat) : Nat → Nat → Nat × RingState
  | 0, q => (q, x)
  | fuel + 1, q =>
    let ext := fun (p : Nat) => p % x.bytes / 2097152
    let bad := fun (i : Nat) => match x.extents[i]? with
      | some e => e.frozen
      | none => false
    if x.bytes = 0 then (q, x)
    else
      let mark := fun (x : RingState) (i : Nat) (v : Bool) =>
        { x with extents := x.extents.mapIdx fun j e => if j = i then { e with skipped := v } else e }
      if bad (ext q) then
        RingState.usable (mark x (ext q) true) len fuel ((q / 2097152 + 1) * 2097152)
      else if bad (ext (q + len - 1)) then
        RingState.usable (mark x (ext (q + len - 1)) true) len fuel (((q + len - 1) / 2097152 + 1) * 2097152)
      else (q, mark x (ext q) false)

/-- Where a consumer stands (R225, R226): the start of its first record offered and not passed, which it passes with the last octet (R362); past
everything it was not offered. -/
def RConsumer.readPos (c : RConsumer) (writePos : Nat) : Nat :=
  match c.queue with
  | (p, _) :: _ => p
  | [] => writePos

/-- Octets offered and not yet passed. -/
def RConsumer.backlog (c : RConsumer) : Nat :=
  match c.queue, c.queue.getLast? with
  | (p, _) :: _, some (q, len) => q + len - p
  | _, _ => 0

/-- HostRead is the read position of the host consumer (R225): it passes the records that were not offered to it (R239). -/
def State.hostFollow (s : State) (n : Nat) : State :=
  match (s.ringS n).consumers.find? fun c => c.who == 2 with
  | some c => s.wr (Ob.slotHostRead n) (max (s.rd (Ob.slotHostRead n)) (c.readPos (s.rd (Ob.slotWritePos n))))
  | none => s

/-- In Hold policy OldestPos is the smallest read position of the consumers, a detached one's being WritePos; without a consumer it stays (R224). -/
def State.ringOldest (s0 : State) (n : Nat) : State :=
  let s := s0.hostFollow n
  let x := s.ringS n
  let w := s.rd (Ob.slotWritePos n)
  if x.overwrite then s
  else match x.consumers with
    | [] => s
    | c :: cs =>
      let o := cs.foldl (fun m c => min m (c.readPos w)) (c.readPos w)
      if s.rd (Ob.slotOldestPos n) < o then
        (s.wr (Ob.slotOldestPos n) o).setRing n { x with recs := x.recs.filter fun r => decide (o < r.pos + r.len) }
      else s

/-- The counter a consumer's drops are counted in (R223). -/
def dropKey (n who : Nat) : Nat :=
  if who = 0 then Ob.slotStreamDropped n else if who = 1 then Ob.slotStorageDropped n
  else if who = 2 then Ob.slotHostDropped n else Ob.slotReplayDropped n

/-- Rule 1 of R226: is a record of `len` octets offered to the consumer? Markers are, whatever the hold limit; a detached
consumer is offered nothing (R228). -/
def RConsumer.takes (c : RConsumer) (len : Nat) (marker : Bool) : Bool :=
  c.attached && (marker || decide (c.backlog + len ≤ c.hold))

/-- Release whole records from OldestPos until `len` octets fit (R227). -/
def State.releaseOldest (s : State) (n len : Nat) : Nat → State
  | 0 => s
  | fuel + 1 =>
    let x := s.ringS n
    if s.rd (Ob.slotWritePos n) + len - s.rd (Ob.slotOldestPos n) ≤ x.bytes - markerReserve then s
    else match x.recs with
      | [] => s
      | r :: rs =>
        (((s.setRing n { x with recs := rs }).wr (Ob.slotOldestPos n) (match rs with
            | q :: _ => q.pos
            | [] => r.pos + r.len)).bump (Ob.slotOverwritten n)).releaseOldest n len fuel

/-- The smallest read position that holds the ring back (R226 rule 2). -/
def State.ringFloor (s : State) (n : Nat) : Nat :=
  let w := s.rd (Ob.slotWritePos n)
  (s.ringS n).consumers.foldl (fun m c => min m (c.readPos w)) (s.rd (Ob.slotOldestPos n))

/-- The position at which a record of `len` octets goes into the ring (R229). -/
def State.ringPlace (s : State) (n len : Nat) : Nat × RingState :=
  let x := s.ringS n
  x.usable len (x.extents.length + 1) (s.rd (Ob.slotWritePos n))

/-- Write a record at the write position and offer it to the consumers chosen (R224, R226). -/
def State.commitRecord (s : State) (n : Nat) (r : Rec) (seq : Nat) (offer : List Bool) : State :=
  let x0 := s.ringS n
  let len := r.length
  let u := s.ringPlace n len
  let q := u.1
  let x1 := u.2
  let s1 := s.ringWrite x1 q (s.recBytes r seq x0.dropsBefore)
  let cons := x1.consumers.zipWith (fun c o => if o then { c with queue := c.queue ++ [(q, len)] } else c) offer
  let s2 := s1.setRing n { x1 with
    dropsBefore := 0
    consumers := cons
    recs := x1.recs ++ [{ pos := q, len := len, seq := seq, kind := r.kind, time := r.time, flags := r.flags, input := r.input }] }
  let s3 := s2.wr (Ob.slotWritePos n) (q + len)
  let s4 := s3.ringOldest n
  let fill := s4.rd (Ob.slotWritePos n) - s4.rd (Ob.slotOldestPos n)
  if s4.rd (Ob.slotPeakFill n) < fill then s4.wr (Ob.slotPeakFill n) fill else s4

/-- A completed record of slot `m` is offered and written, or dropped (R226). -/
def State.completeRecord (s : State) (m : Nat) (r : Rec) : State :=
  let n := s.ringOwner m
  let x := s.ringS n
  if !x.present then s
  else
    let seq := s.rd (Ob.slotProduced n)
    let marker := r.kind == 0x0F
    let len := r.length
    let offer := x.consumers.map fun c => c.takes len marker
    let at' := (s.ringPlace n len).1
    let written := marker || x.overwrite || decide (at' + len - s.ringFloor n ≤ x.bytes - markerReserve)
    let s1 := s.bump (Ob.slotProduced n)
    -- rule 1 counts what an attached consumer is not offered; a detached one is counted the records committed (R228)
    let s2 := (x.consumers.zip offer).foldl (fun s p => if !p.2 && (p.1.attached || written) then s.bump (dropKey n p.1.who) else s) s1
    if !written then
      let s3 := s2.bump (Ob.slotDropped n)
      s3.setRing n { s3.ringS n with dropsBefore := (s3.ringS n).dropsBefore + 1 }
    else (if x.overwrite && !marker then s2.releaseOldest n (at' + len - s.rd (Ob.slotWritePos n)) x.recs.length else s2).commitRecord n r seq offer

/-- A Marker record (R220, R230). -/
def State.marker (s : State) (n epoch time flags gapLength : Nat) : State :=
  s.completeRecord n { kind := 0x0F, slot := n, epoch := epoch, time := time, flags := flags, gapLength := gapLength, body := [] }

/-- f_T periods between two device times, rounded up (R230). -/
def gapPeriods (a b : Nat) : Nat := ceilDiv (b - a) 256

/-- The network cycle (R34) of the current device time. -/
def State.netCycle (s : State) : Nat := s.devNow * engineClock s.fT (s.rd Ob.opCurrent) / s.second

/-- Queue a completed record of slot `n` for its offer, in the commit order of R222: as they complete; in one network cycle lower Time, then lower
input, then lower Kind. -/
def Rec.before (a b : Rec) : Bool :=
  decide (a.cycle < b.cycle) || (a.cycle == b.cycle &&
    (decide (a.time < b.time) || (a.time == b.time && (decide (a.input < b.input) || (a.input == b.input && decide (a.kind < b.kind))))))

def insertRec (r : Rec) : List Rec → List Rec
  | [] => [r]
  | x :: l => if Rec.before r x then r :: x :: l else x :: insertRec r l

/-- A record of slot `n` completes and waits to be offered; without OutputMask bit 0 there is none. -/
def State.queueRecord (s : State) (n : Nat) (r : Rec) : State :=
  if bit (s.rd (Ob.slotOutputMask n)) 0 then
    s.setPipe n { s.pipeS n with recQ := insertRec { r with cycle := s.netCycle } (s.pipeS n).recQ }
  else s

/-- Octets taken of a queue of records: whole records leave it. -/
def takeOctets : List (Nat × Nat) → Nat → Nat → List (Nat × Nat) × Nat
  | [], _, _ => ([], 0)
  | (p, len) :: l, taken, k => if len ≤ taken + k then takeOctets l 0 (taken + k - len) else ((p, len) :: l, taken + k)

/-- A consumer takes `k` octets of its records; a record is passed when all of it is taken. -/
def RConsumer.advance (c : RConsumer) (k : Nat) : RConsumer :=
  let r := takeOctets c.queue c.taken k
  { c with queue := r.1, taken := r.2 }

/-- Consumer `who` of the ring at slot base `n` takes octets. -/
def State.consumerTake (s : State) (n who k : Nat) : State :=
  let x := s.ringS n
  (s.setRing n { x with consumers := x.consumers.map fun c => if c.who = who then c.advance k else c }).ringOldest n

/-- A consumer is detached (R228): every record it held is dropped for it and its read position is WritePos. -/
def State.detachConsumer (s : State) (n who : Nat) : State :=
  let x := s.ringS n
  let held := ((x.consumers.filter fun c => c.who == who).map fun c => c.queue.length).sum
  let s1 := s.setRing n { x with consumers := x.consumers.map fun c =>
    if c.who = who then { c with attached := false, queue := [], taken := 0 } else c }
  ((s1.bumpBy (dropKey n who) held).bump (Ob.slotDetaches n)).ringOldest n

end Sys2Proof.Machine
end

