-- ==== Sys2Proof/Machine/Maps.lean ====
section
/-! DEFINITION. Pools, and what a pipeline holds of the Weirs and density maps (spec/05_triggers.md R134, R138; spec/06_density.md R156-R158, R169; spec/12_memory.md R305). -/

namespace Sys2Proof.Machine

open Sys2Proof

/-! ### Pools -/

/-- Write octets of a pool. -/
def State.poolWrite (s : State) : Nat → Bytes → State
  | _, [] => s
  | a, b :: bs => ({ s with pool := tset (dconst 0) s.pool a b } : State).poolWrite (a + 1) bs

/-- Read octets of a pool as a number. -/
def State.poolNat (s : State) (a len : Nat) : Nat := leNat ((List.range len).map fun i => tget (dconst 0) s.pool (a + i))

/-- Pool lines that are freed are zeroed (R305). -/
def State.zeroRegions (s : State) (l : List PlRegion) : State :=
  { s with pool := s.pool.filter fun p => !l.any fun r =>
      decide (r.cluster * 163840 + 64 * r.firstLine ≤ p.1) && decide (p.1 < r.cluster * 163840 + 64 * (r.firstLine + r.lineCount)) }

/-! ### Maps -/

def State.mapS (s : State) (k : Nat) : MapState := tget (dconst ({} : MapState)) s.map k
def State.setMap (s : State) (k : Nat) (x : MapState) : State := { s with map := tset (dconst ({} : MapState)) s.map k x }

/-- The pool octet of cell (c, r), live or shadow (R157, R158). -/
def MapState.cell (x : MapState) (rows c r : Nat) (shadow : Bool) : Option Nat :=
  (x.slices.find? fun i => decide (i.first ≤ c) && decide (c < i.first + i.count)).map fun i =>
    i.cluster * 163840 + (if shadow then i.shadow else i.live) + 4 * ((c - i.first) * rows + r)

/-- The SliceTable of a map (R158). -/
def State.sliceBytes (s : State) (k : Nat) : Bytes :=
  let x := s.mapS k
  let n := x.slices.length
  (x.slices.zipIdx).flatMap fun p =>
    let i := p.1
    let fl := b2n (p.2 + 1 == n && s.rdB (Ob.mapTrigEnable k)) + 2 * b2n i.reset
    let off := fun (o : Nat) => 0xC00000000 + i.cluster * 0x40000 + o
    leBytes 16 (i.cluster * 2 ^ 120 + i.first * 2 ^ 104 + i.count * 2 ^ 88 + fl * 2 ^ 80 + off i.live * 2 ^ 44
      + (if s.rdB (Ob.mapSnapshotEnable k) then off i.shadow else 0) * 2 ^ 8)

/-- The SliceTable readout follows the slices. -/
def State.sliceTable (s : State) (k : Nat) : State := s.setDom (Ob.mapSliceTable k) (s.sliceBytes k)

/-- The live cells of a map, as pool octets. -/
def State.cells (s : State) (k : Nat) : List Nat :=
  let x := s.mapS k
  let rows := s.rd (Ob.mapRows k)
  (List.range x.columns).flatMap fun c => (List.range rows).filterMap fun r => x.cell rows c r false

/-- Change every live cell. -/
def State.sweep (s : State) (k : Nat) (f : Nat → Nat) : State :=
  (s.cells k).foldl (fun s a => s.poolWrite a (leBytes 4 (f (s.poolNat a 4)))) s

/-- The maps bound to slot `n`. -/
def State.mapsOf (s : State) (n : Nat) : List Nat := (List.range 4).filter fun k => s.rd (Ob.mapBoundSlot k) == n

/-- The slices of map `k` are released (R169): their cells cease to be readable, and a snapshot that runs ends without a result. -/
def State.mapRelease (s : State) (k : Nat) : State :=
  let odd := s.rd (Ob.mapSnapshotSeq k) % 2
  ((((s.sweep k fun _ => 0).setMap k {}).clr (Ob.mapBoundSlot k)).wrs
    [(Ob.mapSnapshotState k, 0), (Ob.mapSnapshotSeq k, (s.rd (Ob.mapSnapshotSeq k) + odd) % 2 ^ 32)]).sliceTable k

/-- A map is bound to slot `n` with its slices, its schedule from `anchor` (R156, R158, R161): its updates count from here. -/
def State.mapBind (s : State) (k n columns anchor : Nat) (slices : List Slice) : State :=
  ((s.setMap k { slices := slices, columns := columns, anchor := anchor }).wrs [(Ob.mapBoundSlot k, n), (Ob.mapUpdates k, 0)]).sliceTable k

/-! ### Weirs -/

/-- The state of Weir `w` for channel `k` of slot `n`: an overlap has one for each of its slots (R69). -/
def State.weirS (s : State) (n w k : Nat) : WeirState := tget (dconst ({} : WeirState)) s.weir (n * 1024 + w * 64 + k)
def State.setWeir (s : State) (n w k : Nat) (x : WeirState) : State :=
  { s with weir := tset (dconst ({} : WeirState)) s.weir (n * 1024 + w * 64 + k) x }

/-- Weir `w` is bound to slot `n`, or to none with 0xFF (R138). -/
def State.weirBind (s : State) (w n : Nat) : State := s.wrs [(Ob.weirBoundSlot w, n), (Ob.weirViolating w, 0)]

/-- The Weir states of slot `n` end with it. -/
def State.weirClear (s : State) (n : Nat) : State :=
  { s with weir := s.weir.filter fun p => !(decide (n * 1024 ≤ p.1) && decide (p.1 < (n + 1) * 1024)) }

/-- The Weirs and maps bound to slot `n` are unbound, the maps' slices released (R169). -/
def State.unbind (s : State) (n : Nat) : State :=
  let s1 := ((List.range 16).filter fun w => s.rd (Ob.weirBoundSlot w) == n).foldl (fun s w => s.weirBind w 0xFF) s
  (s1.mapsOf n).foldl (fun s k => s.mapRelease k) (s1.weirClear n)

end Sys2Proof.Machine
end

