-- ==== Sys2Proof/Machine/SlotOps.lean ====
section
/-! DEFINITION. What ends or changes a pipeline slot, shared by withdrawal, replacement and faults (spec/02_contracts.md R44-R49, R575; spec/09_records.md R223), and the engine file of the state. -/

namespace Sys2Proof.Machine

open Sys2Proof

/-! ### Engines -/

/-- Engine `e` (cluster * 17 + slot). -/
def State.eng (s : State) (e : Nat) : Engine := tget engineDefault s.engine e

def State.setEng (s : State) (e : Nat) (x : Engine) : State := { s with engine := tset engineDefault s.engine e x }

/-- The engines that slot `n` holds by its Placement. -/
def State.placed (s : State) (n : Nat) : List Nat := (s.slot n).placement.engines.map fun p => p.physical

/-- The slots in use that hold one of the engines. -/
def State.slotsOn (s : State) (es : List Nat) : List Nat :=
  (List.range 64).filter fun n => s.active n && (s.placed n).any fun e => es.contains e

/-- The engine that is the spare of cluster `c`, if the cluster has one (R242). -/
def State.spareEngine (s : State) (c : Nat) : Nat := c * 17 + tget (dconst 16) s.life.spareSlot c

/-- An engine that its pipeline leaves (R243): Free, and Spare for the spare of a cluster (R242). -/
def State.freeEngine (s : State) (e : Nat) : State :=
  let x := s.eng e
  if x.st = 3 ∨ x.st = 5 then s.setEng e { x with slot := none }
  else s.setEng e { st := if e == s.spareEngine (e / 17) && bit (s.rd Ob.lifeEngineSpareMap) (e / 17) then 4 else 0 }

/-- The engines of slot `n` are freed. -/
def State.releaseEngines (s : State) (n : Nat) : State :=
  let s1 := (s.placed n).foldl (fun s e => if (s.eng e).slot = some n then s.freeEngine e else s) s
  (s.slot n).borrowed.foldl (fun s e => if (s.eng e).slot = some n then s.freeEngine e else s) s1

/-! ### Polder consumers (R97-R99) -/

def State.chanS (s : State) (k : Nat) : ChanState := tget (dconst ({} : ChanState)) s.chan k

def State.setChan (s : State) (k : Nat) (x : ChanState) : State :=
  { s with chan := tset (dconst ({} : ChanState)) s.chan k x }

/-- The pipelines that own channel `k` (R81, R88): Admitted, Successor, Retiring, Withdrawing or InGap, with the channel in
ChannelMask; a Replay from a ring or from drives takes no channel. -/
def State.chanOwners (s : State) (k : Nat) : List Nat :=
  (List.range 64).filter fun n => s.active n && bit (s.rd (Ob.slotChannelMask n)) k

/-- A channel is written to the Polder only while it has an owner (R97); then the ring is emptied. -/
def State.releasePolder (s : State) (n : Nat) : State :=
  (List.range 64).foldl (fun s k =>
    let c := s.chanS k
    let rest := c.consumers.filter fun x => x.slot != n
    if rest.length = c.consumers.length then s
    else if rest.isEmpty then
      s.setChan k { c with consumers := [], ring := [], filled := [], partial64 := [], partialHot := [], blockFlags := 0, toBoundary := false, written := 0, granules := 0 }
    else s.setChan k { c with consumers := rest }) s

/-! ### Charges -/

/-- Planned VCORE of a point, mV (R478). -/
def State.plannedVcore (s : State) (p : Nat) : Nat := leAt (s.dom Ob.opPlannedVcore) (2 * p) 2

/-- The static charge of a point at its planned VCORE (R57, R478), with BestEffortAllowance (R486). -/
def State.staticAt (s : State) (pt : Nat) : Nat := Config.staticBase pt (s.plannedVcore pt) + s.rd Ob.penvBestEffortAllowance

/-- StaticCharge (R57, R486): that of the operating point. -/
def State.staticCharge (s : State) : Nat := s.staticAt (s.rd Ob.opCurrent)

/-- The production ceiling of a coefficient at the planned VCORE (R58). -/
def State.ceiling (s : State) (term point : Nat) : Nat := Config.coeffCeiling term point (s.plannedVcore point)

/-- A coefficient of R57 in force (R58): fJ per event, uW per lane; term 0 engine cycles, 1 memory accesses, 2 network flits, 3 HBM
bytes, 4 active lanes. -/
def State.coeff (s : State) (term point : Nat) : Nat :=
  (tget (dconst none) s.power.coeff (term * 3 + point)).getD (s.ceiling term point)

/-- f_E of a point, Hz (R34, R423). -/
def State.clockOf (s : State) (point : Nat) : Nat := engineClock s.fT point

/-- What a slot's own list charges on a unit for a quantity of R577 at a point. -/
def Slot.chargeOn (x : Slot) (q point cls unit : Nat) : Nat :=
  (x.charges.filter fun c => c.q == q && c.point == point && c.cls == cls && c.unit == unit).foldl (fun a c => a + c.amount) 0

/-- What slot `n` charges on a unit: a gap replacement, admitted against the resources of the slot it replaces, charges only what it
needs beyond them (R76). -/
def State.slotCharge (s : State) (n q point cls unit : Nat) : Nat :=
  let x := s.slot n
  if !s.active n then 0
  else if x.gap then
    x.chargeOn q point cls unit - (match x.replacing with
      | some o => (s.slot o).chargeOn q point cls unit
      | none => 0)
  else x.chargeOn q point cls unit

/-- What the contracts in force charge on a unit for a quantity of R577 at a point. -/
def State.chargedOn (s : State) (q point cls unit : Nat) : Nat :=
  (List.range 64).foldl (fun a n => a + s.slotCharge n q point cls unit) 0

/-- What the contracts charge on every unit of a quantity at a point. -/
def State.chargedAll (s : State) (q point : Nat) : Nat :=
  (List.range 64).foldl (fun a n =>
    if s.active n then ((s.slot n).charges.filter fun c => c.q == q && c.point == point).foldl (fun a c => a + c.amount) a else a) 0

/-- Bursts per schedule period of a rate in bytes per second (R314). -/
def State.burstsOf (s : State) (rate : Nat) : Nat := ceilDiv (rate * 4096) (64 * s.clockOf (s.rd Ob.opCurrent))

/-- Admitted bursts of every physical pseudo-channel (R332). -/
def State.burstCounts (s : State) : State :=
  (List.range 64).foldl (fun s q =>
    let l := s.rd (Ob.hpcServes q)
    s.wr (Ob.hpcAdmittedBursts q) (if l < 64 then s.burstsOf (s.chargedOn 13 (s.rd Ob.opCurrent) 5 l) else 0)) s

/-- What StateDigest identifies (R52): the states of the slots, what each holds (engines, pool regions, Polder shares, pseudo-channels, lanes, transfer
channels, charges, ring and lookback extents), the pseudo-channels in service, the states of the engines, and the operating point. -/
def State.digestOf (s : State) : List Nat :=
  let place := fun (p : Placement) =>
    [p.engines.length, p.regions.length, p.shares.length, p.pcs.length, p.lanes.length, p.xfers.length]
      ++ p.engines.flatMap (fun e => [e.logical, e.physical, e.stage, e.channel, e.rotation])
      ++ p.regions.flatMap (fun r => [r.cluster, r.firstLine, r.lineCount, r.kind, r.channel])
      ++ p.shares.flatMap (fun x => [x.channel, x.half, x.granules, x.ports, b2n x.recordDrain])
      ++ p.pcs.flatMap (fun x => [x.pc, x.bursts, x.extents])
      ++ p.lanes.flatMap (fun x => [x.quad, x.lanes]) ++ p.xfers.flatMap (fun x => [x.chan, x.role, x.slots])
  let slot := fun (n : Nat) =>
    let x := s.slot n
    let r := s.ringS n
    [s.rd (Ob.slotState n), x.charges.length, r.extents.length, r.lookUnits.length] ++ place x.placement
      ++ x.charges.flatMap (fun c => [c.q, c.point, c.cls, c.unit, c.amount]) ++ (r.extents.map fun e => e.unit) ++ r.lookUnits
  (List.range 64).flatMap slot ++ (List.range 64).map (fun q => s.rd (Ob.hpcServes q)) ++ (List.range 1088).map (fun e => (s.eng e).st)
    ++ [s.rd Ob.opCurrent, s.rd Ob.lifeEngineSpareMap, s.disp.charge]

/-- The readouts of what is charged: ChargedPower is the static charge, every WorstPower and the display's (R60, R544); the HBM,
transfer and host-link totals; StateDigest. -/
def State.recharge (s : State) : State :=
  let w := (List.range 64).foldl (fun a n => a + s.rd (Ob.slotWorstPower n)) s.disp.powerMw
  let rings := (List.range 32).foldl (fun a r => a + s.rd (Ob.ringChargedRate r)) 0
  let s1 := s.wrs [(Ob.penvStaticCharge, s.staticCharge), (Ob.admChargedPower, s.staticCharge + w),
    (Ob.pulseBlockRateCharged, s.chargedOn 24 0 0 0),
    (Ob.hbmAdmittedCharged, s.chargedAll 13 (s.rd Ob.opCurrent) + s.disp.charge),
    (Ob.xferAllChargedRate, (s.xfer.map fun p => p.2.rate).sum), (Ob.hlinkLinkCharged, rings)]
  s1.burstCounts.wr Ob.admStateDigest (Config.stateDigest s.digestOf).toNat

/-- The regions of HostReserve, base and length (R331). -/
def reserveRegions (b : Bytes) : List (Nat × Nat) :=
  (List.range (b.length / 16)).map fun k => (leAt b (16 * k + 8) 8, leAt b (16 * k) 8)

/-! ### Frame buffers (R541, R542) -/

/-- Timing as one number of 256 bits. -/
def State.timing (s : State) : Nat := leNat (s.dom Ob.dispTiming)

def hActive (t : Nat) : Nat := bits t 255 244
def hTotal (t : Nat) : Nat := bits t 243 230
def vActive (t : Nat) : Nat := bits t 207 196
def vTotal (t : Nat) : Nat := bits t 195 182
/-- PixelClock, kHz. -/
def pixelClock (t : Nat) : Nat := bits t 159 128

/-- A buffer descriptor (R542). -/
structure BufDesc where
  addr : Nat
  stride : Nat
  format : Nat
  valid : Bool
  reserved : Nat
  deriving DecidableEq, Repr

/-- Descriptor `k` of a Buffers value. -/
def bufDesc (b : Bytes) (k : Nat) : BufDesc :=
  let n := leAt b (16 * k) 16
  { addr := bits n 127 92, stride := bits n 91 76 * 64, format := bits n 75 74, valid := bit n 73, reserved := bits n 72 0 }

/-- Octets of a pixel. -/
def pixelBytes (format : Nat) : Nat := if format = 0 then 2 else if format = 1 then 3 else 4

/-- The octets a full screen spans from the descriptor's address. -/
def BufDesc.span (d : BufDesc) (t : Nat) : Nat := d.stride * (vActive t - 1) + hActive t * pixelBytes d.format

/-- The valid descriptors. -/
def State.validBufs (s : State) : List BufDesc :=
  ((List.range 4).map fun k => bufDesc (s.dom Ob.dispBuffers) k).filter fun d => d.valid

/-- The logical pseudo-channels that hold a buffer, by its 2 MiB units. -/
def State.bufPcs (s : State) (d : BufDesc) : List Nat :=
  let a := d.addr / 2097152
  let e := (d.addr + d.span s.timing - 1) / 2097152
  ((List.range (e + 1 - a)).map fun i => s.pcOf ((a + i) * 2097152)).dedup

/-- The display's charge on a logical pseudo-channel (R544). -/
def State.displayOn (s : State) (l : Nat) : Nat := if (s.validBufs.any fun d => (s.bufPcs d).contains l) then s.disp.charge else 0

/-- Extents of rings on every physical pseudo-channel (R332). -/
def State.extentCounts (s : State) : State :=
  let used := (List.range 64).flatMap fun n => if (s.ringS n).present then ((s.ringS n).extents.map fun e => s.pcOf (e.unit * 2097152)) ++ (s.ringS n).lookUnits.map fun u => s.pcOf (u * 2097152) else []
  (List.range 64).foldl (fun s q => s.wr (Ob.hpcAllocatedExtents q) (used.count (s.rd (Ob.hpcServes q)))) s

/-- AllocatedBytes, FreeBytes and KeptRings of the record store (R37, R223, R331). -/
def State.recount (s : State) : State :=
  let used := (List.range 64).foldl (fun a n =>
    let x := s.ringS n
    if x.present then a + x.bytes + x.lookback + markerReserve else a)
    ((reserveRegions (s.dom Ob.hbmHostReserve)).foldl (fun a r => a + r.2) 0)
  let kept := (List.range 64).foldl (fun a n => a + b2n ((s.ringS n).present && (s.ringS n).kept) * 2 ^ n) 0
  ((s.extentCounts.wr Ob.storeAllocatedBytes used).wr Ob.storeFreeBytes (s.rd Ob.hbmInServiceCount * 805306368 - used)).wr
    Ob.storeKeptRings kept

/-! ### Contract objects (R47) and the end of a slot -/

/-- StagedChanged and the idle or staged SluiceState follow the staged copy (R46, R70). -/
def State.stagedFollow (s : State) (n : Nat) : State :=
  let x := s.slot n
  let ch := x.staged.any (fun p => p.2 != s.rd p.1) || x.stagedDom.any fun p => p.2 != s.dom p.1
  let s1 := s.wr (Ob.slotStagedChanged n) (b2n ch)
  let st := s.rd (Ob.slotSluiceState n)
  if st = 0 ∧ ch = true then s1.wr (Ob.slotSluiceState n) 1 else if st = 1 ∧ ch = false then s1.wr (Ob.slotSluiceState n) 0 else s1

/-- A value goes to the staged copy of slot `n` (R46). -/
def State.stageNum (s : State) (n k v : Nat) : State :=
  (s.modSlot n fun x => { x with staged := tput x.staged k v }).stagedFollow n
def State.stageDom (s : State) (n k : Nat) (b : Bytes) : State :=
  (s.modSlot n fun x => { x with stagedDom := tput x.stagedDom k b }).stagedFollow n

/-- The numbers of the contract objects and the Sluice status of slot `n`. -/
def contractKeys (n : Nat) : List Nat :=
  [Ob.slotEpoch n, Ob.slotLatencyBound n, Ob.slotTriggerLatencyBound n, Ob.slotInputRate n, Ob.slotOutputRate n,
   Ob.slotWorstPower n, Ob.slotValidDownTo n, Ob.slotPolderResidence n, Ob.slotAdmittedAt n, Ob.slotEngineCount n,
   Ob.slotSluiceState n, Ob.slotGapBound n, Ob.slotStagedChanged n, Ob.slotCommitCount n, Ob.slotWarmUpFrames n]

/-- Every contract object returns to its Default; Placement and ResourceVector read empty (R47). -/
def State.clearContract (s : State) (n : Nat) : State :=
  let s1 := (contractKeys n).foldl (fun s k => s.clr k) s
  let sl := s1.slot n
  s1.setSlot n { ({} : Slot) with admitResult := sl.admitResult }

/-- Status objects of a ring (R223). -/
def ringKeys (n : Nat) : List Nat :=
  [Ob.slotWritePos n, Ob.slotOldestPos n, Ob.slotProduced n, Ob.slotDropped n, Ob.slotOverwritten n, Ob.slotStreamDropped n,
   Ob.slotStorageDropped n, Ob.slotHostDropped n, Ob.slotReplayDropped n, Ob.slotDetaches n, Ob.slotPeakFill n,
   Ob.slotCaptureState n, Ob.slotLookbackBytes n, Ob.slotHostRead n]

/-- The ring of slot `n` is freed: its status objects return to their Default. -/
def State.dropRing (s : State) (n : Nat) : State :=
  (((ringKeys n).foldl (fun s k => s.clr k) s).setRing n {}).recount

/-- The ring at the end of a slot (R223): kept with KeepOnWithdraw, else freed. -/
def State.endRing (s : State) (n : Nat) : State :=
  let x := s.ringS n
  if !x.present then s
  else if s.rdB (Ob.slotKeepOnWithdraw n) then
    (s.setRing n { x with kept := true, consumers := x.consumers.filter fun c => decide (3 ≤ c.who) }).recount
  else s.dropRing n

/-- The lines that slot `n` drives. -/
def State.linesOf (s : State) (n : Nat) : List Nat :=
  (List.range 256).filter fun l => (s.lineS l).cls == 1 && (s.lineS l).src == n

/-- The lines of slot `n` end at condition time `t` (R133). -/
def State.endLines (s : State) (n t : Nat) : State :=
  ((s.linesOf n).foldl (fun s l => s.endSource l t) s).refreshFabric

/-- The pools, Polder share and engines of slot `n` are freed, its contract objects return to their Default, and its state
becomes `st`. -/
def State.endContract (s : State) (n st : Nat) : State :=
  let s1 := ((s.releaseEngines n).releasePolder n).clearContract n
  let s2 := s1.setPipe n {}
  (s2.wr (Ob.slotState n) st).recharge

/-- A Replay leaves its source ring and its own Polder shares. -/
def State.closeReplay (s : State) (n : Nat) : State :=
  let s1 := (List.range 64).foldl (fun s m =>
    let x := s.ringS m
    if x.consumers.any fun c => c.who == replayWho n then
      (s.setRing m { x with consumers := x.consumers.filter fun c => c.who != replayWho n }).ringOldest m
    else s) s
  (List.range 64).foldl (fun s k => s.setChan (64 + 64 * n + k) {}) s1

/-- The slot's route bound (R178) is none. -/
def State.clearRoutes (s : State) (n : Nat) : State :=
  let b := s.dom Ob.sieveRouteLatency
  if 8 * n < b.length then s.setDom Ob.sieveRouteLatency (b.take (8 * n) ++ leBytes 8 0 ++ b.drop (8 * n + 8)) else s

/-! ### Clusters (R242, R500, R521) -/

/-- ClusterState (R521). -/
def State.clusterState (s : State) (c : Nat) : Nat := tget (dconst 0) s.life.clusterState c
def State.setCluster (s : State) (c v : Nat) : State :=
  { s with life := { s.life with clusterState := tset (dconst 0) s.life.clusterState c v } }

/-- The migration of slot `n` in cluster `c`. -/
def State.migration (s : State) (c n : Nat) : Option Migration := tget (dconst none) s.life.migrations (c * 64 + n)
def State.setMigration (s : State) (c n : Nat) (m : Option Migration) : State :=
  { s with life := { s.life with migrations := tset (dconst none) s.life.migrations (c * 64 + n) m } }

/-- The engines of cluster `c`. -/
def clusterEngines (c : Nat) : List Nat := (List.range 17).map fun i => c * 17 + i

/-- ClusterState of a cluster with no migration and no test in it: normal, without a spare, or retired (R521). -/
def State.clusterSettle (s : State) (c : Nat) : State :=
  let mig := (List.range 64).any fun n => (s.migration c n).isSome
  let test := (clusterEngines c).any fun e => tget (dconst 0) s.life.testing e != 0
  let gone := (clusterEngines c).all fun e => (s.eng e).st == 5
  s.setCluster c (if gone then 4 else if mig then 1 else if test then 2 else if bit (s.rd Ob.lifeEngineSpareMap) c then 0 else 3)

/-- Migrations of slot `n` that still run end with it. -/
def State.dropMigrations (s : State) (n : Nat) : State :=
  let mine := (List.range 64).filter fun c => (s.migration c n).isSome
  mine.foldl (fun s c => s.clusterSettle c) { s with life := { s.life with migrations := s.life.migrations.filter fun p => p.1 % 64 != n } }

/-! ### Commits that end without effect (R41, R71, R75, R78) -/

/-- The Sluice message: operation, commit id, T_c, epoch, code. -/
def State.sluicePayload (s : State) (op c tc epoch code : Nat) : Nat :=
  op * 2 ^ 89 + c % 256 * 2 ^ 81 + tc / s.second % 65536 * 2 ^ 65 + tc % s.second * 2 ^ 25 + epoch * 2 ^ 9 + code * 2

/-- The bank that a commit of slot `n` has armed does not come into force on its engines (R288). -/
def State.unarm (s : State) (n : Nat) : State :=
  (s.placed n).foldl (fun s e => s.setEng e { s.eng e with armed := none }) s

/-- An applied commit of slot `n`: the bank that its ARM named is in force on every engine (R288). -/
def State.settleBanks (s : State) (n : Nat) : State :=
  (s.placed n).foldl (fun s e => match (s.eng e).armed with
    | some (_, b) => s.setEng e { s.eng e with bank := b, armed := none }
    | none => s) s

/-- An armed or withheld commit of slot `n` is disarmed with a result; the staged copy stays. -/
def State.disarm (s : State) (n code : Nat) : State :=
  let s1 := ((s.unarm n).modSlot n fun x => { x with armed := none, withheld := none, awaitConfirm := false, bankLoaded := false, group := 0 }).wr
    (Ob.slotCommitResult n) code
  if s.rd (Ob.slotState n) = 3 then s1.wr (Ob.slotSluiceState n) 3
  else s1.wr (Ob.slotSluiceState n) (b2n (s1.rdB (Ob.slotStagedChanged n)))

/-- A commit of the slot is armed or withheld. -/
def Slot.holds (x : Slot) : Bool := x.armed.isSome || x.withheld.isSome

/-- The slots whose commit is one with that of slot `n` (R71): its own, and those of its group. -/
def State.together (s : State) (n : Nat) : List Nat :=
  let g := (s.slot n).group
  if g = 0 then [n] else (bitsSet 64 g).filter fun m => (s.slot m).group == g && (s.slot m).holds

/-- An array commit that covers slot `n` and is not decided cannot stand (R71, R77): the lead cancels it, a follower takes back its Armed. -/
def State.leaveArray (s : State) (n code : Nat) : State :=
  match s.arr.commit with
  | some c =>
    if !bit c.slots n || c.decided then s
    else
      let s1 : State := { s with arr := { s.arr with commit := none } }
      if s.isLead then c.members.foldl (fun s m => s.sendTo m.1 4 (s.sluicePayload 5 c.ident c.tc 0 0)) s1
      else s1.sendTo 0 4 (s1.sluicePayload 3 c.ident c.tc 0 code)
  | none => s

/-- The commit that holds slot `n` ends with a result on every slot it covers (R71; DEDUCED, log entry 180); nothing changes where none does. -/
def State.cancelCommit (s : State) (n code : Nat) : State :=
  if (s.slot n).holds then ((s.together n).foldl (fun s m => s.disarm m code) s).leaveArray n code else s

/-- A Successor is withdrawn (R75): it frees what it holds and becomes Described; the slot it replaces continues. -/
def State.endSuccessor (s : State) (m code : Nat) : State :=
  match (s.slot m).replacing with
  | some n =>
    let s0 := s.cancelCommit m code
    let s1 := (((((s0.unbind m).closeReplay m).clearRoutes m).zeroRegions (s.slot m).placement.regions).dropMigrations m).endContract m 1
    (s1.wr (Ob.slotCommitResult m) code).modSlot n fun x => { x with replacedBy := none }
  | none => s

/-- Start of a withdrawal at boundary `tw` (R575): a Successor in overlap is withdrawn first, an armed or withheld commit is cancelled
with every slot it covers (R71, R78). -/
def State.beginWithdraw (s : State) (n tw : Nat) : State :=
  let s1 := match (s.slot n).replacedBy with
    | some m => s.endSuccessor m 2
    | none => s
  (((s1.cancelCommit n 2).modSlot n fun x => { x with withdrawAt := some tw, staged := [], stagedDom := [] }).wrs
    [(Ob.slotSluiceState n, 0), (Ob.slotStagedChanged n, 0), (Ob.slotState n, 5)])

end Sys2Proof.Machine
end

