-- ==== Sys2Proof/Machine/Images.lean ====
section
/-! DEFINITION. Microimages and nanoimages: their formats, the checks of Load, and the loading of an engine (spec/11_microcode.md R294-R300). -/

namespace Sys2Proof.Machine

open Sys2Proof

/-! ### Headers (R294-R296) -/

/-- A field of the microimage header. -/
def mHdr (b : Bytes) (hi lo : Nat) : Nat := bits (leNat (b.take 64)) hi lo

def iWordCount (b : Bytes) : Nat := mHdr b 463 452
def iEntry (b : Bytes) : Nat := mHdr b 451 441
def iService (b : Bytes) : Nat := mHdr b 440 430
def iFlowCount (b : Bytes) : Nat := mHdr b 429 425
def iBoundCount (b : Bytes) : Nat := mHdr b 424 419
def iWorst (b : Bytes) : Nat := mHdr b 418 395
def iSvcCycles (b : Bytes) : Nat := mHdr b 394 379
def iCond (b : Bytes) : Nat := mHdr b 378 355
def iRxBank (b : Bytes) : Nat := mHdr b 354 354
def iRxBase (b : Bytes) : Nat := mHdr b 353 342
def iRxUnitFlits (b : Bytes) : Nat := mHdr b 341 335
def iRxUnits (b : Bytes) : Nat := mHdr b 334 327
def iEvBank (b : Bytes) : Nat := mHdr b 326 326
def iEvBase (b : Bytes) : Nat := mHdr b 325 314
def iParamBase (b : Bytes) : Nat := mHdr b 313 302
def iParamLength (b : Bytes) : Nat := mHdr b 301 290
def iSaveBank (b : Bytes) : Nat := mHdr b 289 289
def iSaveBase (b : Bytes) : Nat := mHdr b 288 277
def iSaveLength (b : Bytes) : Nat := mHdr b 276 269
def iStateBank (b : Bytes) : Nat := mHdr b 268 268
def iStateBase (b : Bytes) : Nat := mHdr b 267 256
def iStateLength (b : Bytes) : Nat := mHdr b 255 244
def iXUse (b : Bytes) : Nat := mHdr b 243 229
def iYUse (b : Bytes) : Nat := mHdr b 228 214
def iXInitLength (b : Bytes) : Nat := mHdr b 213 201
def iXInitBase (b : Bytes) : Nat := mHdr b 200 189
def iYInitLength (b : Bytes) : Nat := mHdr b 188 176
def iYInitBase (b : Bytes) : Nat := mHdr b 175 164
def iCrc (b : Bytes) : Nat := mHdr b 31 0

/-- Flow entry `k` (R295): flow number, Kind, target stage, flits per frame, reserved. -/
def iFlow (b : Bytes) (k : Nat) : Nat × Nat × Nat × Nat × Nat :=
  let v := leAt b (64 + 8 * k) 8
  (bits v 63 60, bits v 59 56, bits v 55 52, bits v 51 36, bits v 35 0)

def iFlows (b : Bytes) : List (Nat × Nat × Nat × Nat × Nat) := (List.range (iFlowCount b)).map (iFlow b)

/-- Bound entry `k`: element offset, Max, reserved. -/
def iBound (b : Bytes) (k : Nat) : Nat × Nat × Nat :=
  let v := leAt b (64 + 8 * iFlowCount b + 8 * k) 8
  (bits v 63 52, bits v 51 36, bits v 35 0)

def iBounds (b : Bytes) : List (Nat × Nat × Nat) := (List.range (iBoundCount b)).map (iBound b)

/-- Where the microwords begin. -/
def iWords (b : Bytes) : Nat := 64 + 8 * iFlowCount b + 8 * iBoundCount b
def iWord (b : Bytes) (k : Nat) : Nat := leAt b (iWords b + 4 * k) 4
def iXInit (b : Bytes) (k : Nat) : Nat := leAt b (iWords b + 4 * iWordCount b + 4 * k) 4
def iYInit (b : Bytes) (k : Nat) : Nat := leAt b (iWords b + 4 * iWordCount b + 4 * iXInitLength b + 4 * k) 4

/-- The length a microimage must have (R294). -/
def iLength (b : Bytes) : Nat := iWords b + 4 * iWordCount b + 4 * iXInitLength b + 4 * iYInitLength b

/-- A field of the nanoimage header (R296). -/
def nHdr (b : Bytes) (hi lo : Nat) : Nat := bits (leNat (b.take 16)) hi lo
def nWordCount (b : Bytes) : Nat := nHdr b 79 71
def nWord (b : Bytes) (k : Nat) : Nat := leAt b (16 + 24 * k) 24

/-- Crc32 of an image: over all octets, the field (octets 0-3) taken as zero (R294). -/
def imageCrc (b : Bytes) : Nat := crc32 (List.replicate 4 0 ++ b.drop 4)

/-! ### Format of a nanoword (R272, R281-R284) -/

/-- ArithAcc and ArithParam as R282 lists them. -/
def arithValid (n : Nat) : Bool :=
  let op := nArith n
  let acc := nAcc n
  let par := bits n 185 170
  let only := fun (hi lo : Nat) => setBits par (hi - 170) (lo - 170) 0 == 0
  if op = 0 then acc == 0 && par == 0
  else if op ≤ 3 then
    let f := nForm n
    let accOk := if f = 2 then acc == 1 else if f = 5 then acc == 1 || acc == 2 else acc == 3
    let conjOk := !nConj n || f == 0 || f == 1 || f == 2 || f == 5 || f == 6
    let sqrOk := !nSqr n || f == 0 || f == 2
    decide (f ≤ 6) && accOk && conjOk && sqrOk && (f != 6 || op == 1) && only 185 181
  else if op = 4 then acc != 0 && par == 0
  else if op = 5 then (acc == 1 || acc == 2) && only 185 178 && decide (bits n 182 178 ≤ 30)
  else if op = 6 then (acc == 1 || acc == 2) && only 185 184
  else if op = 7 then
    only 185 182 && decide (bits n 183 182 ≤ 2) && (if bit n 184 then acc == 3 else acc == 1 || acc == 2)
  else if op = 8 then acc != 0 && only 185 185
  else if op = 9 then (acc == 1 || acc == 2) && par == 0
  else false

/-- The operand read that LDX, RESTORE and SRCH need is present (R282). -/
def sourceRead (n : Nat) : Bool :=
  let op := nArith n
  if op = 5 ∨ op = 6 then (if bit n 185 then nYRead n == 1 else nXRead n == 1)
  else if op = 7 then nXRead n == 1 else true

/-- A register that can be written (R283, R284). -/
def regDst (c : Nat) : Bool := decide (c ≤ 0x18)
/-- A register code that exists. -/
def regCode (c : Nat) : Bool := decide (c ≤ 0x1A)

/-- A valid nanoword (R272, R281-R284), but for rxn and cyc as destinations. -/
def nanoShape (n : Nat) : Bool :=
  arithValid n && sourceRead n && nXRead n != 3 && nYRead n != 3 && decide (nStore n ≤ 4) && decide (nStMod n ≤ 4)
  && decide (nStFmt n ≤ 5) && decide (nStShift n ≤ 47) && nRtOp n != 3 && bits n 55 0 == 0
  && regCode (nXLoad n) && regCode (nYLoad n) && regCode (nStReg n) && regCode (nRtDst n) && regCode (nRtSrc n)
  && (nStore n != 2 || nStFmt n == 0 || nStFmt n == 3)

/-- No read-only register is a destination (R284, R301 check 4). -/
def nanoWrites (n : Nat) : Bool :=
  (nXRead n != 2 || regDst (nXLoad n)) && (nYRead n != 2 || regDst (nYLoad n)) && (nRtOp n == 0 || regDst (nRtDst n))

def nanoValid (n : Nat) : Bool := nanoShape n && nanoWrites n

/-! ### Load (R299) -/

/-- The format check of a microimage (R299). -/
def microFormat (b : Bytes) : Bool :=
  decide (64 ≤ b.length) && mHdr b 511 480 == 0x544E4D49 && mHdr b 479 472 == 1 && mHdr b 471 464 == 2
  && b.length == iLength b && iCrc b == imageCrc b
  && decide (iFlowCount b ≤ 16) && decide (iBoundCount b ≤ 32) && iRxBase b % 16 == 0
  && decide (1 ≤ iRxUnitFlits b) && decide (iRxUnitFlits b ≤ 64) && decide (1 ≤ iRxUnits b) && iEvBase b % 32 == 0
  && decide (iParamLength b ≤ 2048) && decide (iXUse b ≤ 16384) && decide (iYUse b ≤ 16384)
  && decide (iXInitLength b ≤ 4096) && decide (iYInitLength b ≤ 4096) && mHdr b 163 32 == 0
  && (iFlows b).all (fun f => decide (f.2.1 ≤ 4) && f.2.2.2.2 == 0) && (iBounds b).all (fun x => x.2.2 == 0)

/-- The first invalid nanoword. -/
def firstBadNano (b : Bytes) : Option Nat := (List.range (nWordCount b)).find? fun k => !nanoValid (nWord b k)

/-- The format check of a nanoimage but for its nanowords. -/
def nanoFormat (b : Bytes) : Bool :=
  decide (16 ≤ b.length) && nHdr b 127 96 == 0x544E4E49 && nHdr b 95 88 == 1 && nHdr b 87 80 == 2 && nHdr b 70 32 == 0
  && b.length == 16 + 24 * nWordCount b && nHdr b 31 0 == imageCrc b

/-- The octets of microimage `i` and nanoimage `i`; images 48-63 are the firmware's (R297). -/
def State.microImage (s : State) (i : Nat) : Bytes := if 48 ≤ i then Config.residentMicro (s.rd Ob.devFirmwareVersion) i else s.dom (Ob.mimgImage i)
def State.nanoImage (s : State) (i : Nat) : Bytes := if 48 ≤ i then Config.residentNano (s.rd Ob.devFirmwareVersion) i else s.dom (Ob.nimgImage i)

/-- The resident images are Loaded whenever the steward runs (R297). -/
def State.microLoaded (s : State) (i : Nat) : Bool := decide (48 ≤ i) || s.rdB (Ob.mimgLoaded i)
def State.nanoLoaded (s : State) (i : Nat) : Bool := decide (48 ≤ i) || s.rdB (Ob.nimgLoaded i)

/-- Load of a microimage (R299): the fields of the header, Digest and Loaded, or Loaded FALSE. -/
def State.loadMicro (s : State) (i : Nat) : State :=
  let b := s.microImage i
  let s := s.noted (Ob.mimgLoad i)
  if microFormat b then
    s.wrs [(Ob.mimgLoad i, 0), (Ob.mimgLoaded i, 1), (Ob.mimgWordCount i, iWordCount b), (Ob.mimgDeclaredWorst i, iWorst b),
      (Ob.mimgDeclaredService i, iSvcCycles b), (Ob.mimgDeclaredCond i, iCond b), (Ob.mimgDigest i, iCrc b)]
  else s.wrs [(Ob.mimgLoad i, 0x4F), (Ob.mimgLoaded i, 0)]

/-- Load of a nanoimage (R299). -/
def State.loadNano (s : State) (i : Nat) : State :=
  let b := s.nanoImage i
  let s := s.noted (Ob.nimgLoad i)
  if !nanoFormat b then s.wrs [(Ob.nimgLoad i, 0x4F), (Ob.nimgLoaded i, 0)]
  else match firstBadNano b with
    | some k => s.wrs [(Ob.nimgLoad i, 0x4F), (Ob.nimgLoaded i, 0), (Ob.nimgFirstFault i, k)]
    | none => s.wrs [(Ob.nimgLoad i, 0), (Ob.nimgLoaded i, 1), (Ob.nimgWordCount i, nWordCount b),
        (Ob.nimgDigest i, nHdr b 31 0), (Ob.nimgFirstFault i, 0xFFFF)]

/-! ### Loading an engine (R300) -/

/-- Elements of a bank written from an image. -/
def elemsFrom (f : Nat → Nat) (base : Nat) : Nat → Tab Nat → Tab Nat
  | 0, t => t
  | k + 1, t => tset (dconst 0) (elemsFrom f base k t) ((base + k) % 4096) (f k)

/-- An engine loaded with an image pair and a parameter bank 0 (R300): every other element is zero, registers at reset. -/
def loadedEngine (mi ni slot : Nat) (mb nb params : Bytes) : Engine :=
  let y0 := elemsFrom (fun k => leAt params (4 * k) 4) (iParamBase mb) (min (params.length / 4) (iParamLength mb))
    (elemsFrom (iYInit mb) (iYInitBase mb) (iYInitLength mb) [])
  { st := 1
    x := elemsFrom (iXInit mb) (iXInitBase mb) (iXInitLength mb) []
    y := y0
    micro := (List.range (iWordCount mb)).foldl (fun t k => tset (dconst 0) t k (iWord mb k)) []
    nano := (List.range (nWordCount nb)).foldl (fun t k => tset (dconst 0) t k (nWord nb k)) []
    slot := some slot
    image := mi
    nimage := ni
    pc := iEntry mb
    entry := iEntry mb
    svcEntry := iService mb
    rxBank := iRxBank mb
    rxBase := iRxBase mb
    rxUnitFlits := iRxUnitFlits mb
    rxUnits := iRxUnits mb
    evBank := iEvBank mb
    evBase := iEvBase mb
    paramBase := iParamBase mb
    paramLength := iParamLength mb
    stateBank := iStateBank mb
    stateBase := iStateBase mb
    stateLength := iStateLength mb
    flows := (iFlows mb).map fun f => (f.1, f.2.1, f.2.2.1) }

/-- Load engine `e` for slot `n` with an image pair and parameters. -/
def State.placeImage (s : State) (e n mi ni : Nat) (params : Bytes) : State :=
  s.setEng e (loadedEngine mi ni n (s.microImage mi) (s.nanoImage ni) params)

/-- Load engine `e` with what engine `from'` holds as images and parameters, state areas zero (R500, R503). -/
def State.copyEngine (s : State) (e from' : Nat) : State :=
  let x := s.eng from'
  let mb := s.microImage x.image
  let nb := s.nanoImage x.nimage
  let y0 := loadedEngine x.image x.nimage (x.slot.getD 0) mb nb []
  let copy := fun (t : Tab Nat) (k : Nat) => tset (dconst 0) t ((x.paramBase + k) % 4096) (x.elem 1 (x.paramBase + k))
  s.setEng e { y0 with
    slot := x.slot, bank := x.bank, armed := x.armed, frames := []
    y := (List.range (2 * x.paramLength)).foldl copy y0.y }

end Sys2Proof.Machine
end

