-- ==== Sys2Proof/Machine/Faults.lean ====
section
/-! DEFINITION. Cluster faults, migration, withdrawal with notice, and what an engine's cycle brings about outside it (spec/20_lifetime.md R499-R503; spec/10_engines.md R243). -/

namespace Sys2Proof.Machine

open Sys2Proof

/-- An engine that a migration has taken out of its pipeline takes no further frames (R500). -/
def State.lost (s : State) (e : Nat) : Bool :=
  s.life.migrations.any fun p => match p.2 with
    | some m => m.affected.contains e
    | none => false

/-- Set bits of Flags of the FaultLog entry with a Sequence (R501, R520). -/
def State.markFault (s : State) (sq fl : Nat) : State :=
  { s with life := { s.life with faultLog := s.life.faultLog.map fun e => if e.seq = sq then { e with flags := e.flags ||| fl } else e } }

/-- A spare budget is exhausted (R519): AvailabilityFlags bit 1 and a FaultLog entry. -/
def State.budgetOut (s : State) (unit n : Nat) : State :=
  (s.wr Ob.lifeAvailabilityFlags (setBit (s.rd Ob.lifeAvailabilityFlags) 1 true)).faultLog 0x0B 3 unit n 0 0

/-- The least of a list, or a default. -/
def leastOf (d : Nat) : List Nat → Nat
  | [] => d
  | x :: l => l.foldl min x

/-- G_s (R500): the earliest tag of the frames that the engines hold, or of what is due to them next, which is not before now. -/
def State.gsOf (s : State) (es : List Nat) : Nat :=
  leastOf s.devNow (es.flatMap fun e => (s.eng e).frames.map fun f => s.unstamp f.tag)

/-- The channels or inputs that engines serve in the stages of a placement that a predicate takes. -/
def Placement.served (p : Placement) (es : List Nat) (f : Nat → Bool) : List Nat :=
  ((p.engines.filter fun x => es.contains x.physical && f x.stage).map fun x => x.channel).dedup

/-- Is slot `n` a Replay? -/
def State.isReplay (s : State) (n : Nat) : Bool := s.rd (Ob.slotMode n) == 5

/-- The mode whose chain slot `n` runs: its Mode, or ChainMode of a Replay (R237). -/
def State.chainMode (s : State) (n : Nat) : Nat :=
  if s.isReplay n then bits (leAt (s.dom (Ob.slotGeometry n)) 0 48) 383 376 else s.rd (Ob.slotMode n)

/-- The Geometry of the chain: what follows the 48-octet prefix of a Replay. -/
def State.chainGeom (s : State) (n : Nat) : Bytes :=
  if s.isReplay n then (s.dom (Ob.slotGeometry n)).drop 48 else s.dom (Ob.slotGeometry n)

/-- Input entry `i` of Pulse (R196), the channel or route it names and whether it is a route. -/
def State.pulseEntry (s : State) (n i : Nat) : Nat := leAt (s.chainGeom n) (32 + 16 * i) 16
def enNumber (e : Nat) : Nat := bits e 15 8
def enRoute (e : Nat) : Bool := bit e 7

/-- Does a stage instance on channel or input `u` of slot `n` drain ingest channel `k`? In Pulse `u` numbers an input. -/
def State.drains (s : State) (n u k : Nat) : Bool :=
  u == 0xFFF || (if s.chainMode n = 3 then !enRoute (s.pulseEntry n u) && enNumber (s.pulseEntry n u) == k else u == k)

/-- The channel or input whose frames decide a line of slot `n`, in the order in which the modes assign their lines (R131, R187, R201); none for a map
that every channel feeds and for custom microcode. -/
def State.lineInput (s : State) (n l : Nat) : Option Nat :=
  let chs := bitsSet 64 (s.rd (Ob.slotChannelMask n))
  let k := l - s.rd (Ob.slotConditionFirst n)
  let c := s.chainMode n
  let b := s.chainGeom n
  let h := leAt b 0 32
  if c = 1 then
    let g := leNat b
    let w := (bitsSet 16 (bits g 55 40)).length * chs.length
    if k < w then chs[k % chs.length]?
    else match ((bitsSet 4 (bits g 39 36)).filter fun m => s.rdB (Ob.mapTrigEnable m))[k - w]? with
      | some m => if s.rd (Ob.mapChannel m) < 64 then some (s.rd (Ob.mapChannel m)) else none
      | none => none
  else if c = 2 then some (bits (leAt b (32 + 8 * k) 8) 63 56)
  else if c = 3 then ((List.range (bits h 255 240)).filter fun i => bit (leAt b (32 + 16 * i) 16) 61)[k]?
  else none

/-- A line reads 0 from condition time `t` (R133): what was already said of later times is dropped. -/
def State.cutLine (s : State) (l t : Nat) : State :=
  let x := s.lineS l
  (s.setLine l { x with changes := x.changes.filter fun c => decide (c.1 ≤ t) }).lineChange l t false

/-- The lines of slot `n` that the channels or inputs decide read 0 from condition time `gs` (R133). -/
def State.dropLines (s : State) (n gs : Nat) (chs : List Nat) : State :=
  (s.linesOf n).foldl (fun s l => match s.lineInput n l with
    | some c => if chs.contains c || chs.contains 0xFFF then s.cutLine l gs else s
    | none => if chs.isEmpty then s else s.cutLine l gs) s

/-- An armed commit of one slot is withheld; it still reads armed, and its bank does not come into force. -/
def State.withholdOne (s : State) (n : Nat) : State :=
  match (s.slot n).armed with
  | some tc => (s.unarm n).modSlot n fun x => { x with armed := none, withheld := some tc, bankLoaded := false }
  | none => s

/-- A fault migration touches slot `n` (R41): a commit that covers it, its own or that of its Successor, is withheld on every slot it covers; one
across an array that is not decided ends with 0x4E. -/
def State.withhold (s : State) (n : Nat) : State :=
  let hit := n :: (s.slot n).replacedBy.toList
  hit.foldl (fun s m =>
    if !(s.slot m).holds then s
    else match s.arr.commit with
      | some c => if bit c.slots m && !c.decided then s.cancelCommit m 0x4E else (s.together m).foldl (fun s k => s.withholdOne k) s
      | none => (s.together m).foldl (fun s k => s.withholdOne k) s) s

/-- Withdrawal with notice of slot `n` from `gs` (R501): it enters Withdrawing; WITHDRAWAL_COMPLETE does the rest. -/
def State.noticeWithdraw (s : State) (n gs sq : Nat) : State :=
  let s1 := (s.dropLines n gs [0xFFF]).beginWithdraw n gs
  s1.modSlot n fun x => { x with notice := some sq, gapFrom := some gs }

/-- Migration of what slot `n` has in cluster `c` (R500), `whole` with its map slices there; with one already running, the sets merge
and G_s is the earlier (R523). -/
def State.startMigration (s : State) (c n : Nat) (es : List Nat) (gs sq : Nat) (whole : Bool) : State :=
  -- in Pulse the loss of a measure engine costs records only (R216)
  let measures := fun (st : Nat) => s.chainMode n == 3 && st == 1
  let chs := (s.slot n).placement.served es fun st => !measures st
  let ms := (s.slot n).placement.served es measures
  let m : Migration := match s.migration c n with
    | some m => { m with affected := (m.affected ++ es).dedup, gs := min m.gs gs, channels := (m.channels ++ chs).dedup
                         measure := (m.measure ++ ms).dedup, targets := m.targets.filter fun p => !es.contains p.2, ge := none
                         whole := m.whole || whole }
    | none => { slot := n, affected := es, gs := gs, channels := chs, measure := ms, entry := sq, targets := [], ge := none, whole := whole }
  let s1 := ((s.setMigration c n (some m)).dropLines n gs chs).withhold n
  s1.modSlot n fun x => { x with gapFrom := some (match x.gapFrom with
    | some g => min g gs
    | none => gs) }

/-- A cluster fault (R500): the FaultLog entry, ClusterState 0x01, the end of Successors that borrow the cluster's spare (R75), a
planned retirement of an affected engine, or onto one, ends with 0x4E and frees its target (R519, R523), and the migration of every pipeline that holds an affected
engine. -/
def State.clusterFault (s : State) (c cause unit : Nat) (es : List Nat) : State :=
  let users := s.slotsOn es
  let sq := s.life.faultCount % 65536
  let s1 := (s.faultLog 1 cause unit (users.headD 0xFF) 0 0).setCluster c 1
  let s2 := (List.range 64).foldl (fun s n =>
    if (s.slot n).borrowed.contains (s.spareEngine c) && s.rd (Ob.slotState n) == 3 && (s.slot n).switchAt.isNone then s.endSuccessor n 0x4E else s) s1
  let dead := s2.life.retiring.filter fun p => es.contains p.1 || es.contains p.2
  let s3 := if dead.isEmpty then s2
    else dead.foldl (fun s p => s.freeEngine p.2)
      { s2 with life := { s2.life with retiring := s2.life.retiring.filter (fun p => !dead.contains p), retireResult := some 0x4E } }
  users.foldl (fun s n => s.startMigration c n (es.filter fun e => (s.placed n).contains e)
    (s.gsOf (es.filter fun e => (s.placed n).contains e)) sq (cause == 6)) s3

/-- The spare of cluster `c` is used up. -/
def State.spareUsed (s : State) (c : Nat) : State :=
  s.wr Ob.lifeEngineSpareMap (setBit (s.rd Ob.lifeEngineSpareMap) c false)

/-- Engine `e` is Retired (R242): the cluster's spare, if it has one, takes over its role, and the cluster is left without. -/
def State.retireMark (s : State) (e : Nat) : State :=
  let c := e / 17
  let s1 := (s.setEng e { st := 5 }).bump Ob.lifeRetiredEngines
  if bit (s1.rd Ob.lifeEngineSpareMap) c then
    let s2 := s1.spareUsed c
    let sp := s.spareEngine c
    if (s2.eng sp).st = 4 then s2.setEng sp { st := 0 } else s2
  else s1

/-- An engine's role moves to another in a Placement: logical number, stage and rotation stay. -/
def State.moveRole (s : State) (n e target : Nat) : State :=
  s.modSlot n fun x => { x with placement := { x.placement with
    engines := x.placement.engines.map fun p => if p.physical = e then { p with physical := target } else p } }

/-- End of a planned retirement (R503): the state area is copied to the target, the target takes the logical number, the engine is
Retired. -/
def State.finishRetire (s : State) (e target : Nat) : State :=
  let x := s.eng e
  let y := s.eng target
  let moved := (List.range x.stateLength).foldl (fun (y : Engine) k =>
    y.setElem x.stateBank (x.stateBase + k) (x.elem x.stateBank (x.stateBase + k))) y
  let s1 := s.setEng target { moved with st := 2, slot := x.slot, pc := x.entry, frames := x.frames }.startFrame
  let s2 := match x.slot with
    | some n => s1.moveRole n e target
    | none => s1
  let s3 := if target = s2.spareEngine (target / 17) then s2.spareUsed (target / 17) else s2
  let s4 := (s3.retireMark e).faultLog 0x0B 1 e (x.slot.getD 0xFF) 4 0
  { s4 with life := { s4.life with retiring := s4.life.retiring.filter (fun p => p.1 != e), retireResult := some 0 } }

/-- What a cycle of engine `e` brings about outside it. -/
def State.engineOut (s : State) (e : Nat) (o : EngOut) : State :=
  match o with
  | .halted cause => s.clusterFault (e / 17) cause e [e]
  | .saved => match s.life.retiring.find? fun p => p.1 == e with
    | some (_, t) => s.finishRetire e t
    | none => s
  | .yielded => s
  | .stopped =>
    if e == s.spareEngine (e / 17) && bit (s.rd Ob.lifeEngineSpareMap) (e / 17) then s.setEng e { s.eng e with st := 4 } else s

/-- One cycle of engine `e`, if it is Running (R244). -/
def State.engineCycle (s : State) (e : Nat) (rdErr fetchErr : Bool) : State :=
  let x := s.eng e
  if x.st != 2 then s
  else
    let r := x.cycle rdErr fetchErr
    r.2.foldl (fun s o => s.engineOut e o) (s.setEng e r.1)

/-! ### What becomes of a frame by its tag (R67, R74, R76, R500, R575) -/

/-- What becomes of a frame by its tag. -/
inductive Gate where
  /-- an event at the boundary comes first, or the slot takes no frames -/
  | wait
  /-- the frame is passed over without work -/
  | skip
  /-- a Successor runs it with outputs suppressed (R74) -/
  | mute
  | live
  deriving DecidableEq, Repr

/-- The declared gap of a migration covers a tag. -/
def Migration.covers (m : Migration) (tag : Nat) : Bool :=
  decide (m.gs ≤ tag) && (match m.ge with
    | some g => decide (tag < g)
    | none => true)

/-- A declared gap of a migration covers channel or input `k` of slot `n` at `tag` (R500). -/
def State.inGap (s : State) (n k tag : Nat) : Bool :=
  s.life.migrations.any fun p => match p.2 with
    | some m => m.slot == n && (m.channels.contains k || m.channels.contains 0xFFF) && m.covers tag
    | none => false

/-- A declared gap covers the measure stage of Pulse input `k` of slot `n` at `tag` (R216). -/
def State.inMeasureGap (s : State) (n k tag : Nat) : Bool :=
  s.inGap n k tag || s.life.migrations.any fun p => match p.2 with
    | some m => m.slot == n && (m.measure.contains k || m.measure.contains 0xFFF) && m.covers tag
    | none => false

/-- The boundary of an ending or switched slot. -/
def Slot.bound (x : Slot) : Option Nat :=
  match x.withdrawAt, x.switchAt with
  | some a, some b => some (min a b)
  | some a, none => some a
  | none, b => b

/-- What becomes of a frame of slot `n` on channel or input `k` with a tag: `at'` gives the boundary of a switch on the frame grid, and `gap` says
that a declared gap covers the frame. -/
def State.gateBy (s : State) (n tag : Nat) (at' : Nat → Nat) (gap : Bool) : Gate :=
  let y := s.slot n
  let x := { y with switchAt := y.switchAt.map at' }
  let st := s.rd (Ob.slotState n)
  let late := match x.bound with
    | some b => decide (b ≤ tag)
    | none => false
  let armed := match x.armed with
    | some tc => decide (tc ≤ tag)
    | none => false
  if st ≤ 1 then .wait
  else if st = 3 then
    if x.gap then .skip
    else match x.switchAt with
      | some T => if tag < T then .mute else .live
      | none => if armed then .wait else .mute
  else if st = 6 then
    match x.gapTo with
    | some g => if tag < g then .skip else .wait
    | none => .skip
  else if st = 2 then
    if armed then .wait else if gap then .skip else .live
  -- a slot withdrawn in its replacement's gap processes no frame (R575)
  else if late || gap || x.gap then .skip else .live

/-- What becomes of a frame of slot `n` on channel or input `k` with a tag. -/
def State.gate (s : State) (n k tag : Nat) : Gate := s.gateBy n tag (fun T => T) (s.inGap n k tag)

/-- A Successor's frame waits for the frames before the switch of the slot it replaces on the same channel or input, whose next tag `next` gives:
lines, Weirs and maps are decided in order (R133, R139). -/
def State.inTurn (s : State) (n : Nat) (next : Nat → Option Nat) (g : Gate) : Gate :=
  match g, (s.slot n).replacing, (s.slot n).switchAt with
  | .live, some o, some T => match next o with
    | some t => if s.rd (Ob.slotState o) = 4 ∧ t < T then .wait else g
    | none => g
  | _, _, _ => g

/-- The epoch after `e` (R68). -/
def epochAfter (e : Nat) : Nat := if e = 0xFFFF then 1 else e + 1

/-- The epoch of the frames of slot `n` after its armed commit or switch (R68, R74). -/
def State.nextEpoch (s : State) (n : Nat) : Nat :=
  match (s.slot n).replacing with
  | some o => epochAfter (s.rd (Ob.slotEpoch o))
  | none => epochAfter (s.rd (Ob.slotEpoch n))

end Sys2Proof.Machine
end

