-- ==== Sys2Proof/Machine/XferOps.lean ====
section
/-! DEFINITION. Shared operations of the transfer channels (spec/13_transfer.md R333-R349). -/

namespace Sys2Proof.Machine

open Sys2Proof

def State.xf (s : State) (c : Nat) : XferCh := tget (dconst ({} : XferCh)) s.xfer c
def State.setXf (s : State) (c : Nat) (x : XferCh) : State := { s with xfer := tset (dconst ({} : XferCh)) s.xfer c x }

/-- State of channel `c` (R339). -/
def State.xst (s : State) (c : Nat) : Nat := s.rd (Ob.xferState c)

/-- Owner of channel `c`: 0 free, 1 pipeline, 2 display, 3 host (R336). -/
def State.xowner (s : State) (c : Nat) : Nat := s.rd (Ob.xferOwner c) / 256

/-- The lowest-numbered free channel (R335). -/
def State.freeChannel (s : State) : Option Nat := (List.range 32).find? fun c => s.xowner c == 0

/-- A channel ends in a state (R338, R343, R349): its vector is raised. -/
def State.xferEnd (s : State) (c st : Nat) : State :=
  (s.wrs [(Ob.xferState c, st), (Ob.xferStagedBytes c, 0)]).msix (s.rd (Ob.xferCompletionVector c))

/-- What is in flight and staged is discarded; the counters describe the last octet written (R343, R349). -/
def State.xferDrop (s : State) (c : Nat) : State :=
  let gone := s.rd (Ob.xferLength c) - s.rd (Ob.xferRemaining c)
  let x := s.xf c
  (s.wr (Ob.xferSourceNow c) (s.rd (Ob.xferSource c) + gone)).setXf c { x with
    reads := [], staged := [], toRead := 0, aborting := false, burst := 0, req := none }

/-- A host channel ends in Error (R349). -/
def State.xferError (s : State) (c code : Nat) : State :=
  ((s.xferDrop c).wr (Ob.xferErrorCode c) code).xferEnd c 8

/-- Reads complete into the staging buffer in the order they were issued. -/
def absorb : List XRead → Bytes → List XRead × Bytes
  | [], b => ([], b)
  | r :: rs, b => match r.data with
    | some d => absorb rs (b ++ d)
    | none => (r :: rs, b)

/-- A channel follows what has completed: Done when the last write has (R339), Aborted when no read or write is in flight (R343), Paused when
nothing is in flight or staged (R342). -/
def State.xferSettle (s : State) (c : Nat) : State :=
  let x0 := s.xf c
  let a := absorb x0.reads x0.staged
  let x := { x0 with reads := a.1, staged := a.2 }
  let s1 := (s.setXf c x).wr (Ob.xferStagedBytes c) x.staged.length
  let st := s1.xst c
  if st = 0 ∨ 5 ≤ st then s1
  else if x.aborting then
    if x.reads.isEmpty ∧ x.writes = 0 then (s1.xferDrop c).xferEnd c 7 else s1
  else if s1.rd (Ob.xferRemaining c) = 0 ∧ x.writes = 0 ∧ s1.xowner c = 3 then s1.xferEnd c 6
  else if st = 4 ∧ x.reads.isEmpty ∧ x.staged.isEmpty ∧ x.writes = 0 then s1.wr (Ob.xferState c) 5
  else s1

/-- The data of a read of channel `c` from `addr` arrive. -/
def fillRead (addr : Nat) (d : Bytes) : List XRead → List XRead
  | [] => []
  | r :: rs => if r.addr = addr ∧ r.data.isNone then { r with data := some (d.take r.len) } :: rs else r :: fillRead addr d rs

/-- A read in flight completes, or ends in an error with a code of R349. -/
def State.xferData (s : State) (c addr : Nat) (code : Nat) (d : Bytes) : State :=
  let x := s.xf c
  if x.reads.any fun r => r.addr == addr && r.data.isNone then
    if code = 0 then (s.setXf c { x with reads := fillRead addr d x.reads }).xferSettle c
    else s.xferError c code
  else s

/-- A queued write of channel `c` has been issued to its bank. -/
def State.xferWritten (s : State) (c : Nat) : State :=
  let x := s.xf c
  (s.setXf c { x with writes := x.writes - 1 }).xferSettle c

/-- Pause takes effect (R342): Active, Preempted or Waiting goes to Pausing. -/
def State.xferPausing (s : State) (c : Nat) : State :=
  let st := s.xst c
  if st = 1 ∨ st = 2 ∨ st = 3 then (s.wr (Ob.xferState c) 4).xferSettle c else s

/-- A Paused or Pausing channel resumes when no cause is left (R342, R348). -/
def State.xferResume (s : State) (c : Nat) : State :=
  let st := s.xst c
  if s.rd (Ob.xferPauseCause c) = 0 ∧ (st = 4 ∨ st = 5) then
    s.wr (Ob.xferState c) (if s.rd (Ob.xferRequestLine c) ≠ 0xFF ∧ (s.xf c).burst = 0 then 1 else 2)
  else s

/-- Set or clear a pause cause: bit 0 Pause, bit 1 domain power-down. -/
def State.xferCause (s : State) (c b : Nat) (v : Bool) : State :=
  let s1 := s.wr (Ob.xferPauseCause c) (setBit (s.rd (Ob.xferPauseCause c)) b v)
  if v then s1.xferPausing c else s1.xferResume c

/-- Give channel `c` to a device owner: kind 1 pipeline, 2 display; slot; role and target; charged rate; request line (R335, R346). -/
def State.bindChannel (s : State) (c kind slot role target rate line : Nat) : State :=
  (s.wrs [(Ob.xferOwner c, kind * 256 + slot), (Ob.xferState c, 1), (Ob.xferRequestLine c, line), (Ob.xferSourceNow c, 0),
    (Ob.xferDestNow c, 0), (Ob.xferRemaining c, 0), (Ob.xferStagedBytes c, 0), (Ob.xferErrorCode c, 0)]).setXf c
    { role := role, target := target, rate := rate }

/-- A device-owned channel is released. -/
def State.unbindChannel (s : State) (c : Nat) : State :=
  (s.wrs [(Ob.xferOwner c, 0), (Ob.xferState c, 0), (Ob.xferRequestLine c, 0xFF)]).setXf c {}

/-- The channels a slot owns. -/
def State.channelsOf (s : State) (n : Nat) : List Nat :=
  (List.range 32).filter fun c => s.rd (Ob.xferOwner c) == 256 + n

/-- Is [a, a + n) inside one HostReserve region (R331, R338)? -/
def State.inReserve (s : State) (a n : Nat) : Bool :=
  (reserveRegions (s.dom Ob.hbmHostReserve)).any fun r => decide (r.1 ≤ a) && decide (a + n ≤ r.1 + r.2)

/-- Where a window B offset lies (R308): 1 HBM, 2 a pool, 0 reserved. -/
def winB (o : Nat) : Nat :=
  if o < 0xC00000000 then 1
  else if o < 0xC00000000 + 0x40000 * 64 ∧ (o - 0xC00000000) % 0x40000 < 163840 then 2
  else 0

/-- 2 MiB units that a range of window B touches. -/
def unitsOf (a n : Nat) : List Nat := (List.range ((a + n - 1) / 2097152 + 1 - a / 2097152)).map fun i => a / 2097152 + i

/-- A range of device addresses touches a stack. -/
def State.inStack (s : State) (k a n : Nat) : Bool :=
  n != 0 && winB a == 1 && (unitsOf a n).any fun u => s.pcOf (u * 2097152) / 32 == k

/-- A range of a host channel lies in a domain. -/
def State.rangeIn (s : State) (d space a n : Nat) : Bool :=
  space == 0 && (if d < 64 then winB a == 2 && (a - 0xC00000000) / 0x40000 == d else decide (d < 66) && s.inStack (d - 64) a n)

/-- An octet of a pool by its window B offset. -/
def State.poolByte (s : State) (o : Nat) : Byte :=
  tget (dconst 0) s.pool ((o - 0xC00000000) / 0x40000 * 163840 + (o - 0xC00000000) % 0x40000)

/-- Cut [a, a + n) at multiples of 64. -/
def pieces64 : Nat → Nat → Nat → List (Nat × Nat)
  | 0, _, _ => []
  | fuel + 1, a, n =>
    if n = 0 then []
    else
      let k := min n (64 - a % 64)
      (a, k) :: pieces64 fuel (a + k) (n - k)

/-- A fault of a lane quad (R499, R568): FaultCode, FaultCount and a FaultLog entry of class 0x03; the quad recovers. -/
def State.quadFault (s : State) (q code : Nat) : State :=
  (((s.wr (Ob.quadFaultCode q) code).bump (Ob.quadFaultCount q)).faultLog 3 code q 0xFF 0 0).setQuad q 2

end Sys2Proof.Machine
end

