-- ==== Sys2Proof/Machine/Hbm.lean ====
section
/-! DEFINITION. Cluster pools and HBM: scrubbing, bank queues, errors, freeze, test, retirement, refresh and sleep (spec/12_memory.md R303-R332). -/

namespace Sys2Proof.Machine

open Sys2Proof

/-! ### Pseudo-channels -/

def State.pcS (s : State) (q : Nat) : PcState := tget (dconst ({} : PcState)) s.pc q
def State.setPc (s : State) (q : Nat) (x : PcState) : State := { s with pc := tset (dconst ({} : PcState)) s.pc q x }

/-- State of physical pseudo-channel `q` (R332): 0 InService, 1 Spare, 2 Frozen, 3 Testing, 4 Migrating, 5 Retired. -/
def State.pcState (s : State) (q : Nat) : Nat := s.rd (Ob.hpcState q)

/-- The physical pseudo-channel that serves a logical number. -/
def State.physOf (s : State) (l : Nat) : Option Nat := (List.range 64).find? fun q => s.rd (Ob.hpcServes q) == l && s.pcState q != 5

/-- The stack's spare, if it has one. -/
def State.spareOf (s : State) (stack : Nat) : Option Nat :=
  (List.range 32).findSome? fun i => if s.pcState (32 * stack + i) = 1 then some (32 * stack + i) else none

/-- The maps of R330 follow the states. -/
def State.pcMaps (s : State) : State :=
  let mapBits := fun (p : Nat → Bool) => (List.range 64).foldl (fun a q => a + b2n (p (s.pcState q)) * 2 ^ q) 0
  s.wrs [(Ob.hbmSpareMap, mapBits (· == 1)), (Ob.hbmRetiredMap, mapBits (· == 5)),
    (Ob.hbmFrozenMap, mapBits fun v => v == 2 || v == 3)]

def State.setPcState (s : State) (q v : Nat) : State := (s.wr (Ob.hpcState q) v).pcMaps

/-- An access to a device address may be made: its pseudo-channel serves (R324). -/
def State.daServed (s : State) (da : Nat) : Bool :=
  match s.physOf (s.pcOf da) with
  | some q => s.pcState q == 0 || s.pcState q == 4
  | none => false

/-! ### Banks (R318-R320) -/

/-- The bank of a device address. -/
def State.bankOf (s : State) (da : Nat) : Nat :=
  let l := s.hbmLoc da
  (bits l 33 28 * 3 + bits l 35 34) * 16 + bits l 11 10 * 4 + bits l 13 12

/-- The row of a device address. -/
def rowOf (da : Nat) : Nat := bits da 27 14

def State.bankS (s : State) (b : Nat) : Bank := tget (dconst ({} : Bank)) s.bank b
def State.setBank (s : State) (b : Nat) (x : Bank) : State := { s with bank := tset (dconst ({} : Bank)) s.bank b x }

/-- The pseudo-channel of a bank. -/
def bankPc (b : Nat) : Nat := b / 48

/-- Queue a best-effort access: a read whose row matches an earlier queued write puts the queue in in-order mode (R320). -/
def State.enqueue (s : State) (a : BAccess) : State :=
  let b := s.bankOf a.da
  let x := s.bankS b
  let hit := a.write.isNone && x.queue.any fun w => w.write.isSome && rowOf w.da == rowOf a.da
  s.setBank b { x with queue := x.queue ++ [{ a with hazard := hit }], inOrder := x.inOrder || hit }

/-- The access of the greatest age, among equals that of the lowest requester, and of one requester the first to have come (R65). -/
def eldest : List BAccess → Option BAccess
  | [] => none
  | a :: l => match eldest l with
    | none => some a
    | some b => if a.age < b.age ∨ (a.age = b.age ∧ b.client < a.client) then some b else some a

/-- The access that the queue issues next (R318): in order in in-order mode; else the oldest to the open row, else the oldest; writes
to one 64-octet address, and a read of one written before, keep their order (R321). -/
def Bank.pick (x : Bank) : Option BAccess :=
  if x.inOrder then x.queue.head?
  else
    let free := fun (c : BAccess) => !(x.queue.takeWhile fun d => d != c).any fun d =>
      d.da / 64 == c.da / 64 && (d.write.isSome || c.write.isSome)
    let l := x.queue.filter free
    match eldest (l.filter fun c => some (rowOf c.da) == x.row) with
    | some c => some c
    | none => eldest l

/-- The queue without the access that is issued: the others have lost once more (R65). -/
def Bank.issued (x : Bank) (a : BAccess) : Bank := { x with queue := (x.queue.erase a).map fun c => { c with age := c.age + 1 } }

/-- In-order mode lasts while a write stands before a read that matched one (R320). -/
def inOrderStill : List BAccess → Bool
  | [] => false
  | a :: l => (a.write.isSome && l.any fun r => r.hazard) || inOrderStill l

/-- Whether the row stays open after an access (R319) under PagePolicy. -/
def Bank.keepOpen (x : Bank) (policy row : Nat) : Bool :=
  if policy = 1 then false else if policy = 2 then true
  else x.queue.any (fun a => rowOf a.da == row) || decide (2 ≤ popcount 4 x.hist)

/-- The bank after an access to `row` at axis time `now`. -/
def Bank.touch (x : Bank) (policy row now : Nat) : Bank :=
  let h := (x.hist * 2 + b2n (x.row == some row)) % 16
  let y := { x with hist := h, lastAt := now }
  { y with row := if y.keepOpen policy row then some row else none }

/-! ### Freeze and retirement (R324-R327) -/

/-- Change the extents of every ring that lie on logical pseudo-channel `l`. -/
def State.mapExtents (s : State) (l : Nat) (f : Extent → Extent) : State :=
  (List.range 64).foldl (fun s n =>
    let x := s.ringS n
    if x.present && x.extents.any fun e => s.pcOf (e.unit * 2097152) == l then
      s.setRing n { x with extents := x.extents.map fun e => if s.pcOf (e.unit * 2097152) = l then f e else e }
    else s) s

/-- A ring with frozen extents on another pseudo-channel falls outside R223 (R327). -/
def State.twoFrozen (s : State) (n l : Nat) : Bool :=
  let x := s.ringS n
  x.present && x.extents.any (fun e => s.pcOf (e.unit * 2097152) == l)
    && x.extents.any fun e => e.frozen && s.pcOf (e.unit * 2097152) != l

/-- LastError of R332. -/
def lastError (time da kind syndrome : Nat) : Bytes :=
  leBytes 32 (time * 2 ^ 128 + da % 2 ^ 36 * 2 ^ 92 + kind * 2 ^ 84 + syndrome % 256 * 2 ^ 76)

/-- A best-effort access is answered: client 0 is the host's window B, client 1 + c transfer channel c; code 0 done, else the error
of R349. -/
def State.answer (s : State) (a : BAccess) (code : Nat) (d : Bytes) : State :=
  match a.write with
  | some _ =>
    if a.client = 0 then (if code = 0 then s else s.bump Ob.diagDiscardedHostWrites) else s.xferWritten (a.client - 1)
  | none =>
    if a.client = 0 then s.emit (.complete 0 a.tag (code == 0) d) else s.xferData (a.client - 1) a.da code d

/-- Best-effort accesses that wait for a frozen pseudo-channel: reads complete with Completer Abort, window B writes are discarded (R324); the writes of
transfer channels wait, as the controller issues nothing to it. -/
def State.flushQueues (s : State) (l : Nat) : State :=
  (List.range 48).foldl (fun s i =>
    let b := l * 48 + i
    let x := s.bankS b
    let waits := fun (a : BAccess) => a.write.isSome && a.client != 0
    let s1 := (x.queue.filter fun a => !waits a).foldl (fun s a => s.answer a 2 []) s
    s1.setBank b { x with queue := x.queue.filter waits, inOrder := false, row := none }) s

/-- A planned retirement that uses spare `q` ends with 0x4E when the spare fails (R328), or takes the role of another pseudo-channel (DEDUCED, log entry 168). -/
def State.abandonMoves (s : State) (q : Nat) : State :=
  if s.pcState q != 1 then s
  else (List.range 32).foldl (fun s i =>
    let p := q / 32 * 32 + i
    if s.pcState p = 4 then (s.setPcState p 0).setPc p { s.pcS p with retireResult := some 0x4E } else s) s

/-- The first pipeline whose ring has extents on logical pseudo-channel `l`; 0xFF none (R520). -/
def State.firstOn (s : State) (l : Nat) : Nat :=
  ((List.range 64).filter fun n => (s.ringS n).present && (s.ringS n).extents.any fun e => s.pcOf (e.unit * 2097152) == l).headD 0xFF

/-- The spare takes the logical number of `q` (R326): `q` is Retired for life. -/
def State.bindSpare (s : State) (q sp : Nat) : State :=
  let l := s.rd (Ob.hpcServes q)
  let s1 := s.wrs [(Ob.hpcServes q, 0xFF), (Ob.hpcServes sp, l), (Ob.hpcState q, 5), (Ob.hpcState sp, 0),
    (Ob.hpcAdmittedBursts sp, s.rd (Ob.hpcAdmittedBursts q)), (Ob.hpcAllocatedExtents sp, s.rd (Ob.hpcAllocatedExtents q)),
    (Ob.hpcAdmittedBursts q, 0), (Ob.hpcAllocatedExtents q, 0)]
  s1.pcMaps.faultLog 0x0B 2 q (s.firstOn l) 4 0

/-- The records of a ring that lie at least partly in an extent on logical pseudo-channel `l`. -/
def State.recsOn (s : State) (x : RingState) (l : Nat) (r : RingRec) : Bool :=
  let hit := fun (p : Nat) => s.pcOf (x.addr p / 2097152 * 2097152) == l
  hit r.pos || hit (r.pos + r.len - 1)

/-- Records on a pseudo-channel that is retired after a failed test are dropped for every consumer that had not taken them (R229,
R326). -/
def State.dropRecords (s : State) (l : Nat) : State :=
  (List.range 64).foldl (fun s n =>
    let x := s.ringS n
    if !x.present then s
    else
      let bad := (x.recs.filter fun r => s.recsOn x l r).map fun r => r.pos
      let s1 := x.consumers.foldl (fun s c => s.bumpBy (dropKey n c.who) (c.queue.filter fun p => bad.contains p.1).length) s
      s1.setRing n { s1.ringS n with consumers := x.consumers.map fun c =>
        { c with queue := c.queue.filter fun p => !bad.contains p.1
                 taken := match c.queue with
                   | p :: _ => if bad.contains p.1 then 0 else c.taken
                   | [] => 0 } }) s

/-- Memory of a logical pseudo-channel that a spare takes over without a copy holds what the spare holds: nothing written. -/
def State.clearPc (s : State) (l : Nat) : State := { s with hbm := s.hbm.filter fun p => bits p.1 33 28 != l }

/-- AdmittedCeiling (R327). -/
def State.ceilings (s : State) : State :=
  (s.wr Ob.hbmAdmittedCeiling (min 1000000000000 (s.rd Ob.hbmInServiceCount * 16130000000))).recount

/-- Extents in use on a logical pseudo-channel, as unit numbers. -/
def State.usedUnits (s : State) : List Nat :=
  (List.range 64).flatMap fun n => if (s.ringS n).present then ((s.ringS n).extents.map fun e => e.unit) ++ (s.ringS n).lookUnits else []

/-- Free extents of a logical pseudo-channel, lowest first. -/
def State.freeExtents (s : State) (l : Nat) : List Nat :=
  let used := s.usedUnits
  let res := reserveRegions (s.dom Ob.hbmHostReserve)
  (List.range 24576).filter fun u => s.pcOf (u * 2097152) == l && !used.contains u
    && res.all fun r => decide ((u + 1) * 2097152 ≤ r.1) || decide (r.1 + r.2 ≤ u * 2097152)

/-- The logical pseudo-channels that take new allocations and charges (R328). -/
def State.openPcs (s : State) : List Nat := (List.range 64).filter fun l => match s.physOf l with
  | some q => s.pcState q == 0
  | none => false

/-- What admitted traffic may charge on logical pseudo-channel `l` at every point beside the other contracts and the display (R37, R50, R544). -/
def State.pcRoom (s : State) (n l : Nat) : Nat :=
  16130000000 - s.displayOn l - ([0, 1, 2].foldl (fun m p => max m (s.chargedOn 13 p 5 l - s.slotCharge n 13 p 5 l)) 0)

/-- What slot `n` charges on logical pseudo-channel `l`, at the point where it is largest. -/
def State.pcCharge (s : State) (n l : Nat) : Nat := [0, 1, 2].foldl (fun m p => max m (s.slotCharge n 13 p 5 l)) 0

/-- What ring `n` has on pseudo-channel `l` goes to the units `us` in turn; its contract's charges and pseudo-channels follow by `f` and `g` (R327). -/
def State.reseat (s : State) (n l : Nat) (us : List Nat) (f : Charge → Option Charge) (g : PlPc → Option PlPc) : State :=
  let x := s.ringS n
  let on := fun (u : Nat) => s.pcOf (u * 2097152) == l
  let e := x.extents.foldl (fun (p : List Extent × List Nat) e =>
    if on e.unit then (p.1 ++ [{ unit := p.2.headD e.unit }], p.2.drop 1) else (p.1 ++ [e], p.2)) ([], us)
  let k := x.lookUnits.foldl (fun (p : List Nat × List Nat) u =>
    if on u then (p.1 ++ [p.2.headD u], p.2.drop 1) else (p.1 ++ [u], p.2)) ([], e.2)
  ((s.setRing n { x with extents := e.1, lookUnits := k.1 }).modSlot n fun y => { y with
    charges := y.charges.filterMap fun c => if c.q = 13 ∧ c.cls = 5 then f c else some c
    placement := { y.placement with pcs := y.placement.pcs.filterMap g } }).recount.recharge

/-- Move what ring `n` has on logical pseudo-channel `l` to others where the resources of R223 allow (R327): to one that the ring does not use and that
carries the charge, or else over the ring's others, each at the charge of one pseudo-channel less; none where neither fits. -/
def State.moveExtents (s : State) (n l : Nat) : Option State :=
  let x := s.ringS n
  let all := (x.extents.map fun e => e.unit) ++ x.lookUnits
  let own := ((all.map fun u => s.pcOf (u * 2097152)).dedup).filter fun p => p != l
  let need := (all.filter fun u => s.pcOf (u * 2097152) == l).length
  let rate := s.pcCharge n l
  match s.openPcs.find? fun k => !own.contains k && decide (rate ≤ s.pcRoom n k) && decide (need ≤ (s.freeExtents k).length) with
  | some k => some (s.reseat n l (s.freeExtents k) (fun c => some (if c.unit = l then { c with unit := k } else c))
      fun p => some (if p.pc = l then { p with pc := k } else p))
  | none =>
    let p := own.length
    let more := fun (a : Nat) => ceilDiv (a * p) (p - 1)
    let us := (List.range need).filterMap fun i => (s.freeExtents (own.getD (i % p) 0))[i / p]?
    if 2 ≤ p ∧ us.length = need ∧ own.all (fun k => s.openPcs.contains k && decide (more rate ≤ s.pcRoom n k)) then
      some (s.reseat n l us (fun c => if c.unit = l then none else some { c with amount := more c.amount })
        fun y => if y.pc = l then none else some { y with bursts := s.burstsOf (more rate), extents := y.extents + ceilDiv need p })
    else none

/-- Retirement after a failed test (R326, R327). -/
def State.failPc (s : State) (q : Nat) : State :=
  let l := s.rd (Ob.hpcServes q)
  if l = 0xFF then (s.setPcState q 5).faultLog 0x0B 2 q 0xFF 4 0
  else
    let s1 := s.dropRecords l
    match s1.spareOf (q / 32) with
    | some sp => (((s1.abandonMoves sp).bindSpare q sp).clearPc l).mapExtents l fun e => { e with frozen := false }
    | none =>
      let s2 := ((s1.wr (Ob.hpcServes q) 0xFF).setPcState q 5).faultLog 0x0B 2 q (s.firstOn l) 4 0
      let s3 := ((s2.wr Ob.hbmInServiceCount (s2.rd Ob.hbmInServiceCount - 1)).ceilings).budgetOut q 0xFF
      (List.range 64).foldl (fun s n =>
        let x := s.ringS n
        if x.present && x.extents.any fun e => s.pcOf (e.unit * 2097152) == l then
          match s.moveExtents n l with
          | some s' => s'
          | none => if s.active n then s.noticeWithdraw n s.devNow ((s.life.faultCount - 1) % 65536) else s
        else s) s3

/-- An axis time of less than 30 days ago (R325, R502). -/
def State.within30 (s : State) (a : Nat) : Bool := decide (s.now - a < 30 * 86400 * s.second)

/-- A pseudo-channel frozen again within 30 days of a pass fails without a test (R325). -/
def State.refailed (s : State) (q : Nat) : State :=
  match (s.pcS q).passedAt with
  | some a => if s.within30 a then s.failPc q else s
  | none => s

/-- The records that are being written into pseudo-channel `l`, each the next to complete in its ring, are written again whole elsewhere, with Affected
set (R229; DEDUCED, log entry 150). -/
def State.rewriteOn (s : State) (l : Nat) : State :=
  (List.range 64).foldl (fun s n =>
    let p := s.pipeS n
    let nb := s.ringOwner n
    match p.recQ with
    | r :: rest =>
      let q := (s.ringPlace nb r.length).1
      let on := fun (a : Nat) => s.pcOf ((s.ringS nb).addr a) == l
      if (s.ringS nb).present && (on q || on (q + r.length - 1)) then
        s.setPipe n { p with recQ := { r with flags := setBit r.flags 14 true } :: rest }
      else s
    | [] => s) s

/-- Freeze of physical pseudo-channel `q` (R323, R324), kind 1 data, 2 command, 0 a detached record drain (R99); one that freezes again within 30 days of a pass is retired without a test
(R325); a second frozen pseudo-channel of one ring ends its pipeline with notice (R327). -/
def State.freeze (s : State) (q da kind syndrome : Nat) : State :=
  let s0 := if kind = 2 then s.bump (Ob.hpcCommandErrors q) else if kind = 1 then s.bump (Ob.hpcUncorrectableCount q) else s
  if s0.pcState q = 2 ∨ s0.pcState q = 3 ∨ s0.pcState q = 5 then s0
  else
    let l := s0.rd (Ob.hpcServes q)
    let s0' := if kind = 0 then s0 else s0.setDom (Ob.hpcLastError q) (lastError s0.stampNow da kind syndrome)
    let s1 := s0'.faultLog 2 kind q (s0.firstOn l) 0 0
    let sq := (s1.life.faultCount - 1) % 65536
    let s2 := s1.abandonMoves q
    let s3 := if s2.pcState q = 4 then s2.setPc q { s2.pcS q with retireResult := some 0x4E } else s2
    let s4 := (s3.setPcState q 2).setPc q { s3.pcS q with frozenAt := s3.now }
    let hit := (List.range 64).filter fun n => s4.active n && s4.twoFrozen n l
    let s5 := ((s4.rewriteOn l).mapExtents l fun e => { e with frozen := true }).flushQueues l
    (hit.foldl (fun s n => s.noticeWithdraw n s.devNow sq) s5).refailed q

/-- Set bits of the Flags of a record that stands in a ring and recompute its Crc32 (R229). -/
def State.remark (s : State) (n : Nat) (r : RingRec) (fl : Nat) : State :=
  let x := s.ringS n
  let old := (List.range r.len).map fun i => s.hbmByte (x.addr (r.pos + i))
  let h := leNat (old.take 64)
  let h1 := setBits (setBits h 223 208 (bits h 223 208 ||| fl)) 159 128 0
  let crc := crc32 (leBytes 64 h1 ++ old.drop 64)
  let s1 := s.ringWrite x r.pos (leBytes 64 (setBits h1 159 128 crc))
  s1.setRing n { s1.ringS n with recs := (s1.ringS n).recs.map fun y => if y.pos = r.pos then { y with flags := y.flags ||| fl } else y }

/-- A passed test (R324, R325): the pseudo-channel returns, records on it are Affected, those that held one of the words `bad` (device
addresses) are Damaged too, and the words are zero. -/
def State.passPc (s : State) (q : Nat) (bad : List Nat) : State :=
  let l := s.rd (Ob.hpcServes q)
  let s1 := bad.foldl (fun s da => s.hbmWrite (da / 8 * 8) (List.replicate 8 0)) s
  let s2 := (List.range 64).foldl (fun s n =>
    let x := s.ringS n
    (x.recs.filter fun r => s.recsOn x l r).foldl (fun s r =>
      let dmg := (List.range (r.len / 8)).any fun i => bad.any fun da => da / 8 == x.addr (r.pos + 8 * i) / 8
      s.remark n r (if dmg then 2 ^ 14 + 2 ^ 15 else 2 ^ 14)) s) s1
  let s3 := s2.mapExtents l fun e => { e with frozen := false }
  (s3.setPcState q (if l = 0xFF then 1 else 0)).setPc q { s3.pcS q with passedAt := some s3.now }

/-! ### Commands -/

/-- POOL_SCRUB_ACCESS (R304): the Scrub port reads a word; 1 corrected and rewritten, 2 uncorrectable: rewritten with zero and
logged, and what is read from it later carries no data. -/
def execPoolScrubAccess (t : Nat) (cluster : Fin 64) (word : Fin 20480) (err : Fin 3) (s : State) : Outcome :=
  let s := s.advance t
  let base := cluster.val * 163840 + 8 * word.val
  .next (if err.val = 1 then s.countCorrected 1
    else if err.val = 2 then
      let s1 := { s with pool := tsetRange (dconst 0) s.pool base (List.replicate 8 0) }
      let users := (List.range 64).filter fun n => s.active n && (s.slot n).placement.regions.any fun r =>
        r.cluster == cluster.val && decide (r.firstLine ≤ word.val / 8) && decide (word.val / 8 < r.firstLine + r.lineCount)
      let s2 := users.foldl (fun s n => s.setPipe n { s.pipeS n with damaged := true }) s1
      (s2.countUncorrected 1).faultLog 6 2 cluster.val (users.headD 0xFF) 0 (8 * word.val)
    else s)

/-- An error on an access to a device address: 1 corrected (R322), 2 uncorrectable data, 3 command or address parity (R323). -/
def State.hbmError (s : State) (da err syndrome : Nat) : State :=
  match s.physOf (s.pcOf da) with
  | some q => if err = 1 then s.wr (Ob.hpcCorrectedCount q) ((s.rd (Ob.hpcCorrectedCount q) + 1) % 2 ^ 32)
    else if err = 2 then s.freeze q da 1 syndrome else if err = 3 then s.freeze q da 2 syndrome else s
  | none => s

/-- A request wakes a sleeping pseudo-channel (R329). -/
def State.wakePc (s : State) (l : Nat) : State :=
  match s.physOf l with
  | some q => (s.wr (Ob.hpcPowerState q) 0).setPc q { s.pcS q with usedAt := s.now }
  | none => s

/-- HBM_ADMITTED_BURST (R314): closed-page: the bank's row is precharged afterwards. Its data moved when its record was committed. -/
def execHbmAdmittedBurst (t : Nat) (da : Nat) (err : Fin 4) (syndrome : Nat) (s : State) : Outcome :=
  let s := s.advance t
  .next (if s.daServed da then
      let s1 := s.wakePc (s.pcOf da)
      let b := s1.bankOf da
      (s1.setBank b { s1.bankS b with row := none }).hbmError da err syndrome
    else s)

/-- HBM_BEST_EFFORT_ACCESS (R318-R323): a bank queue issues its next access. Data errors are met on reads, parity errors on both. -/
def execHbmBestEffortAccess (t : Nat) (bank : Fin 3072) (err : Fin 4) (syndrome : Nat) (s : State) : Outcome :=
  let s := s.advance t
  let x := s.bankS bank
  let serves := match s.physOf (bankPc bank) with
    | some q => s.pcState q == 0 || s.pcState q == 4
    | none => false
  .next (match if serves then x.pick else none with
    | none => s
    | some a =>
      let y := x.issued a
      let z := { y with inOrder := y.inOrder && inOrderStill y.queue }.touch (s.rd Ob.hbmPagePolicy) (rowOf a.da) s.now
      let s1 := (s.wakePc (bankPc bank)).setBank bank z
      match a.write with
      | some d => ((s1.hbmWrite a.da d).answer a 0 []).hbmError a.da (if err.val = 3 then 3 else 0) syndrome
      | none =>
        if err.val ≤ 1 then (s1.answer a 0 (s1.hbmRead a.da a.len)).hbmError a.da err syndrome
        else (s1.answer a 3 []).hbmError a.da err syndrome)

/-- The freeze of `q` ends and its test starts (R324). -/
def State.startTest (s : State) (q : Nat) : State := s.setPcState q 3

/-- HBM_FREEZE_HOLD_EXPIRY (R324). -/
def execHbmFreezeHoldExpiry (t : Nat) (q : Fin 64) (s : State) : Outcome :=
  let s := s.advance t
  .next (if s.pcState q == 2 && decide ((s.pcS q).frozenAt + s.us (s.rd Ob.hbmFreezeHold) ≤ s.now) then s.startTest q else s)

/-- Release (R332): aborts unless Frozen (R328). -/
def hbmRelease (q : Nat) : Act := fun s => if s.pcState q != 2 then .error Abort.state else .ok (s.startTest q)

/-- HBM_RELEASE. -/
def execHbmRelease (t : Nat) (q : Fin 64) (s : State) : Outcome := .next (s.serve t (hbmRelease q))

/-- Each word that step 1 of the test finds uncorrectable is logged (R325). -/
def State.logWords (s : State) (q : Nat) (bad : List Nat) : State :=
  bad.foldl (fun s da => ((s.bump (Ob.hpcUncorrectableCount q)).setDom (Ob.hpcLastError q) (lastError s.stampNow da 3 0)).faultLog 2 3 q
    (s.firstOn (s.rd (Ob.hpcServes q))) 0 (da / 64 % 2 ^ 32)) s

/-- HBM_TEST_COMPLETE (R325, R326): `bad` are the words found uncorrectable in step 1; Detail of their entries is the burst number (DESIGN CHOICE, log entry 169). -/
def execHbmTestComplete (t : Nat) (q : Fin 64) (pass : Bool) (bad : List Nat) (s : State) : Outcome :=
  let s := s.advance t
  .next (if s.pcState q != 3 then s
    else
      let s1 := s.logWords q bad
      if pass then (s1.wr (Ob.hpcTestResult q) 1).passPc q bad
      else (((s1.wr (Ob.hpcTestResult q) 2).setDom (Ob.hpcLastError q) (lastError s.stampNow (bad.headD 0) 3 0)).faultLog 2 3 q
        (s.firstOn (s.rd (Ob.hpcServes q))) 0 0).failPc q)

/-- Start of a planned retirement of `q` (R326): Migrating, or 0x4E without a spare in the stack that no other
retirement is using. -/
def State.startRetire (s : State) (q : Nat) : State :=
  let taken := (List.range 32).any fun i => s.pcState (q / 32 * 32 + i) == 4
  match if taken then none else s.spareOf (q / 32) with
  | some _ => (s.setPcState q 4).setPc q { s.pcS q with retireResult := some 1 }
  | none => (s.setPc q { s.pcS q with retireResult := some 0x4E }).budgetOut q 0xFF

/-- Retire (R332); only a pseudo-channel in service has contents to move (log entry 18). -/
def hbmRetire (q : Nat) : Act := fun s => if s.pcState q != 0 then .error Abort.state else .ok (s.startRetire q)

/-- HBM_RETIRE. -/
def execHbmRetire (t : Nat) (q : Fin 64) (s : State) : Outcome := .next (s.serve t (hbmRetire q))

/-- HBM_RETIRE_SWITCH (R326): the remap switches at a schedule-period boundary after the copy. -/
def execHbmRetireSwitch (t : Nat) (q : Fin 64) (s : State) : Outcome :=
  let s := s.advance t
  .next (if s.pcState q != 4 then s
    else match s.spareOf (q.val / 32) with
      | some sp => (s.bindSpare q sp).setPc q { s.pcS q with retireResult := some 0 }
      | none => s)

/-- Close the open rows of a logical pseudo-channel. -/
def State.closeRows (s : State) (l : Nat) : State :=
  (List.range 48).foldl (fun s i => s.setBank (l * 48 + i) { s.bankS (l * 48 + i) with row := none }) s

/-- HBM_REFRESH (R316, R319): a refresh closes the rows that stand open. -/
def execHbmRefresh (t : Nat) (q : Fin 64) (s : State) : Outcome :=
  let s := s.advance t
  .next (if s.rd (Ob.hpcServes q) < 64 then s.closeRows (s.rd (Ob.hpcServes q)) else s)

/-- HBM_TEMP_CROSS (R316, R317): the base-die temperature of a stack, in 1/16 degC, rises to or falls below a limit: hot rate from
85 degC, normal rate below 82 degC; above 95 degC OverTemp and assumption 6, whose bit is clear once nothing is out of its limits (R66). -/
def execHbmTempCross (t : Nat) (stack : Fin 2) (temp : Int) (s : State) : Outcome :=
  let s := s.advance t
  let b := s.dom Ob.hbmBaseDieTemp
  let w := leBytes 2 (uint 16 temp)
  let s1 := s.setDom Ob.hbmBaseDieTemp (if stack.val = 0 then w ++ b.drop 2 else b.take 2 ++ w)
  let hot := s1.rd Ob.hbmHotRefresh
  let s2 := if 1360 ≤ temp then s1.wr Ob.hbmHotRefresh (setBit hot stack true)
    else if temp < 1312 then s1.wr Ob.hbmHotRefresh (setBit hot stack false) else s1
  .next (if 1520 < temp then ((s2.wr Ob.hbmOverTemp 1).faultLog 7 1 stack 0xFF 0 0).assume 6 else if s2.outside then s2 else s2.assumeEnds 6)

/-- HBM_PATROL_SCRUB (R322): a word is read; 1 corrected and written back, 2 uncorrectable. -/
def execHbmPatrolScrub (t : Nat) (da : Nat) (err : Fin 3) (syndrome : Nat) (s : State) : Outcome :=
  let s := s.advance t
  .next (if s.daServed da then s.hbmError da err syndrome else s)

/-- HBM_ROW_IDLE_CLOSE (R319): a row without an access for 2 us is closed. -/
def execHbmRowIdleClose (t : Nat) (bank : Fin 3072) (s : State) : Outcome :=
  let s := s.advance t
  let x := s.bankS bank
  .next (if x.lastAt + s.us 2 ≤ s.now then s.setBank bank { x with row := none } else s)

/-- May logical pseudo-channel `l`, served by `q`, sleep (R329)? 1 PowerDown, 2 SelfRefresh. -/
def State.maySleep (s : State) (q l v : Nat) : Bool :=
  let idle := (List.range 48).all fun i => (s.bankS (l * 48 + i)).queue.isEmpty
  let tol := tget (dconst 0) s.tolerance l
  s.rdB Ob.hbmSleepEnable && idle && (v == 1 || (s.rd (Ob.hpcAdmittedBursts q) == 0
    && decide ((s.pcS q).usedAt + s.us 10 ≤ s.now) && (tol == 0 || decide (1700 ≤ tol))))

/-- HBM_POWER_STATE_ENTRY (R329): 1 PowerDown, 2 SelfRefresh. -/
def execHbmPowerStateEntry (t : Nat) (q : Fin 64) (power : Fin 3) (s : State) : Outcome :=
  let s := s.advance t
  .next (if power.val = 0 then s
    else if s.maySleep q (s.rd (Ob.hpcServes q)) power then s.wr (Ob.hpcPowerState q) power else s)

/-- HBM_WAKE (R329). -/
def execHbmWake (t : Nat) (q : Fin 64) (s : State) : Outcome :=
  let s := s.advance t
  .next ((s.wr (Ob.hpcPowerState q) 0).setPc q { s.pcS q with usedAt := s.now })

/-- Is mask `i` of a set acceptable (R312)? -/
def maskOk (i m : Nat) : Bool :=
  let h := homeBit i
  let homes := [33, 32, 31, 30, 29, 28, 13, 12, 11, 10]
  let others := (bitsSet 64 m).filter fun b => b != h
  bit m h && decide (popcount 64 m ≤ 8) && others.all fun b => !homes.contains b
    && (if i < 6 then (decide (21 ≤ b) && decide (b ≤ 27)) || b == 34 || b == 35
        else (decide (6 ≤ b) && decide (b ≤ 9)) || (decide (14 ≤ b) && decide (b ≤ 27)) || b == 34 || b == 35)

/-- The write of InterleaveMasks (R312, R330). -/
def masksWrite (b : Bytes) : Act := fun s =>
  if b.length ≠ 80 then .error Abort.length
  else if s.rd Ob.storeAllocatedBytes != 0 || !(s.dom Ob.hbmHostReserve).isEmpty then .error Abort.state
  else if (List.range 10).all fun i => maskOk i (leAt b (8 * i) 8) then .ok (s.setDom Ob.hbmInterleaveMasks b)
  else .error Abort.range

/-- INTERLEAVE_MASKS_WRITE. -/
def execInterleaveMasksWrite (t : Nat) (data : List (BitVec 8)) (s : State) : Outcome := .next (s.serve t (masksWrite data))

end Sys2Proof.Machine
end

