-- ==== Sys2Proof/Machine/StreamOps.lean ====
section
/-! DEFINITION. Stream rings (spec/14_host_storage.md R359-R367). -/

namespace Sys2Proof.Machine

open Sys2Proof

def State.streamS (s : State) (r : Nat) : StreamState := tget (dconst ({} : StreamState)) s.stream r
def State.setStream (s : State) (r : Nat) (x : StreamState) : State :=
  { s with stream := tset (dconst ({} : StreamState)) s.stream r x }

/-- P of ring `r` (R359). -/
def State.pageBytes (s : State) (r : Nat) : Nat := 2 ^ (s.rd (Ob.ringPageSizeCode r) + 12)

/-- Bus address of page number `n`. -/
def State.pageAddr (s : State) (r n : Nat) : Nat :=
  leAt (s.dom (Ob.ringPageAddrs r)) (8 * (n % max 1 (s.rd (Ob.ringPageCount r)))) 8

/-- Page header (R360) with HeaderCrc32 over itself; `open` writes only what R361 step 1 names. -/
def State.pageHeader (s : State) (r : Nat) (p : OpenPage) (open' : Bool) (flags : Nat) : Bytes :=
  let h0 := p.num % 2 ^ 64 * 2 ^ 960 + r * 2 ^ 952 + s.rd (Ob.ringOwner r) * 2 ^ 944 + flags * 2 ^ 936
    + s.rd (Ob.ringPageSizeCode r) * 2 ^ 932
  if open' then leBytes 128 h0
  else
    let h := h0 + p.payload.length * 2 ^ 896 + (p.firstOffset.getD 0xFFFFFFFF) * 2 ^ 864 + p.starts * 2 ^ 832
      + p.firstSeq % 2 ^ 64 * 2 ^ 768 + p.firstTime * 2 ^ 640 + min p.drops (2 ^ 32 - 1) * 2 ^ 608 + crc32 p.payload * 2 ^ 576
    leBytes 128 (h + crc32 (leBytes 128 h))

/-- Flags of a page. -/
def OpenPage.flags (p : OpenPage) (into abandon : Bool) : Nat :=
  b2n p.continuedFrom + 2 * b2n into + 8 * b2n abandon + 16 * b2n p.restart

/-- Is page `n` free (R362)? -/
def State.pageFree (s : State) (r n : Nat) : Bool := decide (n < s.rd (Ob.ringConsumedPages r) + s.rd (Ob.ringPageCount r))

/-- Open the next page (R361 step 1). -/
def State.openPage (s : State) (r : Nat) (continued : Bool) : State :=
  let x := s.streamS r
  let p : OpenPage := { num := s.rd (Ob.ringWrittenPages r), continuedFrom := continued, restart := x.fresh, drops := x.carry }
  (s.emit (.hostWrite (s.pageAddr r p.num) (s.pageHeader r p true (4 + p.flags false false)))).setStream r
    { x with page := some p, fresh := false, carry := 0 }

/-- Close the open page (R361 step 3): its final header, WrittenPages, and the vector every IrqEvery-th close. -/
def State.closePage (s : State) (r : Nat) (into abandon : Bool) : State :=
  let x := s.streamS r
  match x.page with
  | none => s
  | some p =>
    let s1 := (s.emit (.hostWrite (s.pageAddr r p.num) (s.pageHeader r p false (p.flags into abandon)))).bump (Ob.ringWrittenPages r)
    let u := x.unsignalled + 1
    let y := { x with page := none, abandon := false, unsignalled := u, since := if x.unsignalled = 0 then s.now else x.since }
    if s1.rd (Ob.ringWrittenPages r) % max 1 (s.rd (Ob.ringIrqEvery r)) = 0 then
      (s1.setStream r { y with unsignalled := 0 }).msix (s.rd (Ob.ringVector r))
    else s1.setStream r y

/-- The record at the head of a consumer's queue. -/
def RingState.recAt (x : RingState) (p : Nat) : Option RingRec := x.recs.find? fun r => r.pos == p

/-- Consumer `who` of a ring. -/
def RingState.consumer (x : RingState) (who : Nat) : Option RConsumer := x.consumers.find? fun c => c.who == who

/-- The octet of the consumer's stream at offset `o` after its read position lies in no Frozen extent: the device address. -/
def streamAddr (x : RingState) : List (Nat × Nat) → Nat → Option Nat
  | [], _ => none
  | (p, len) :: l, o =>
    if o < len then
      match x.extents[(p + o) % max 1 x.bytes / 2097152]? with
      | some e => if e.frozen then none else some (x.addr (p + o))
      | none => none
    else streamAddr x l (o - len)

/-- `k` octets of a consumer's stream from offset `o`; shorter where it ends or is frozen. -/
def State.streamOctets (s : State) (x : RingState) (q : List (Nat × Nat)) (o : Nat) : Nat → Bytes
  | 0 => []
  | k + 1 => match streamAddr x q o with
    | some a => s.hbmByte a :: s.streamOctets x q (o + 1) k
    | none => []

/-- A page or unit takes octets of a record; `start` when the record begins with them. -/
def OpenPage.take (p : OpenPage) (d : Bytes) (start : Option (Nat × Nat)) (drops : Nat) : OpenPage :=
  match start with
  | none => { p with payload := p.payload ++ d }
  | some (seq, time) =>
    let first := p.firstOffset.isNone
    { p with
      payload := p.payload ++ d
      firstOffset := some (p.firstOffset.getD p.payload.length)
      starts := p.starts + 1
      firstSeq := if first then seq else p.firstSeq
      firstTime := if first then time else p.firstTime
      drops := p.drops + drops }

/-- Records that a consumer was not offered before the record with Sequence `seq`. -/
def seqGap (last : Option Nat) (seq : Nat) : Nat :=
  match last with
  | some l => seq - l - 1
  | none => seq

/-- Assumption 1 is no longer seen violated once no ring waits for credits (R66, R363). -/
def State.creditsBack (s : State) : State := if (List.range 32).any fun r => s.rd (Ob.ringRingState r) == 3 then s else s.assumeEnds 1

/-- The stream of ring `r`, owned by slot `n`, moves a beat (R359-R363): the state after, or none when it has nothing to move or no
free page. -/
def State.streamBeat (s : State) (r n : Nat) : Option State :=
  let nb := s.ringOwner n
  let x := s.ringS nb
  match x.consumer 0 with
  | none => none
  | some c =>
    let sr := s.streamS r
    if !c.attached || s.rd (Ob.ringRingState r) == 5 || !s.host.bme then none
    else if sr.abandon then some ((s.closePage r false true).bump (Ob.ringAbandons r))
    else match c.queue with
      | [] => none
      | (pos, len) :: _ =>
        let ready := if sr.page.isSome || s.pageFree r (s.rd (Ob.ringWrittenPages r)) then true else false
        if !ready then none
        else
          let s1 := if sr.page.isSome then s else s.openPage r (decide (c.taken ≠ 0))
          let y := s1.streamS r
          match y.page with
          | none => none
          | some p =>
            let dest := s1.pageAddr r p.num + 128 + p.payload.length
            let k := min (64 - dest % 64) (min (s1.pageBytes r - 128 - p.payload.length) (len - c.taken))
            let d := s1.streamOctets x c.queue c.taken k
            if d.isEmpty then none
            else
              let rec' := x.recAt pos
              let seq := (rec'.map RingRec.seq).getD 0
              let start := if c.taken = 0 then some (seq, (rec'.map RingRec.time).getD 0) else none
              let p1 := p.take d start (if c.taken = 0 then seqGap y.lastSeq seq else 0)
              let done := decide (len ≤ c.taken + d.length)
              let y1 := { y with page := some p1, lastSeq := if c.taken = 0 then some seq else y.lastSeq }
              let s2 := (s1.emit (.hostWrite dest d)).setStream r y1
              let s3 := (if done then s2.bump (Ob.ringRecordsStreamed r) else s2).consumerTake nb 0 d.length
              let s4 := (s3.wr (Ob.ringRingState r) 2).creditsBack
              let full := decide (s4.pageBytes r - 128 ≤ p1.payload.length)
              some (if full then s4.closePage r (!done) false
                else if done && decide (c.queue.length = 1) then s4.closePage r false false else s4)

/-- The stream consumer of slot `n` is detached (R228, R364): what it held is dropped, a page left Open is marked for Abandon. -/
def State.streamDetach (s : State) (r n st : Nat) : State :=
  let nb := s.ringOwner n
  let x := s.ringS nb
  let sr := s.streamS r
  let seqs : List Nat := match x.consumer 0 with
    | some c => c.queue.filterMap fun (q : Nat × Nat) => (x.recAt q.1).map RingRec.seq
    | none => []
  let fresh := seqs.filter fun q => match sr.lastSeq with
    | some l => decide (l < q)
    | none => true
  let y := match seqs.getLast? with
    | some z => { sr with carry := sr.carry + (seqGap sr.lastSeq z + 1 - fresh.length), lastSeq := some z }
    | none => sr
  let z := if st = 5 then { y with page := none, abandon := false } else { y with abandon := sr.page.isSome }
  ((s.setStream r z).detachConsumer nb 0).wr (Ob.ringRingState r) st

/-- A consumer reattaches from the next committed record (R228). -/
def State.reattach (s : State) (nb who : Nat) : State :=
  let x := s.ringS nb
  s.setRing nb { x with consumers := x.consumers.map fun c => if c.who = who then { c with attached := true } else c }

/-- A ring of a slot: r and the slot; none without a stream consumer (R366). -/
def State.streamRingOf (s : State) (n : Nat) : Option Nat :=
  (List.range 32).find? fun r => s.rd (Ob.ringOwner r) == n

/-- RingState as it is read: a Streaming ring that holds records and whose next page is not free is Stalled at a page boundary (R363). -/
def State.ringStateShown (s : State) (r : Nat) : Nat :=
  let waits := match (s.ringS (s.ringOwner (s.rd (Ob.ringOwner r)))).consumer 0 with
    | some c => c.attached && !c.queue.isEmpty
    | none => false
  if s.rd (Ob.ringRingState r) = 2 ∧ ((s.streamS r).page.isNone && waits && !s.pageFree r (s.rd (Ob.ringWrittenPages r))) = true then 3
  else s.rd (Ob.ringRingState r)

/-- Every configured ring is suspended (R365). -/
def State.suspendRings (s : State) : State :=
  (List.range 32).foldl (fun s r =>
    if s.rd (Ob.ringRingState r) = 0 then s
    else if s.rd (Ob.ringOwner r) < 64 then s.streamDetach r (s.rd (Ob.ringOwner r)) 5
    else (s.setStream r { s.streamS r with page := none, abandon := false }).wr (Ob.ringRingState r) 5) s

/-- The stream charge of R367: record rate as a fraction (records, per seconds), octet rate w likewise, rounded up. -/
def streamCharge (recNum recDen wNum wDen page : Nat) : Nat :=
  -- w + 256 * (rho + w / (P - 128))
  ceilDiv (wNum * recDen * (page - 128) + 256 * (recNum * wDen * (page - 128) + wNum * recDen)) (wDen * recDen * (page - 128))

end Sys2Proof.Machine
end

