-- ==== Sys2Proof/Machine/StoreOps.lean ====
section
/-! DEFINITION. Storage ports, units and recordings (spec/14_host_storage.md R368-R379). -/

namespace Sys2Proof.Machine

open Sys2Proof

def State.driveS (s : State) (k : Nat) : DriveState := tget (dconst ({} : DriveState)) s.drive k
def State.setDrive (s : State) (k : Nat) (x : DriveState) : State := { s with drive := tset (dconst ({} : DriveState)) s.drive k x }

/-- DriveState of port `k` (R379); every change raises the port's vector and vector 1 (R358). -/
def State.setDriveState (s : State) (k v : Nat) : State :=
  if s.rd (Ob.storDriveState k) = v then s
  else ((s.wr (Ob.storDriveState k) v).msix 1).msix (s.rd (Ob.storVector k))

def State.recording (s : State) (n : Nat) : Option Recording := tget (dconst none) s.store.recordings n
def State.setRecording (s : State) (n : Nat) (x : Option Recording) : State :=
  { s with store := { s.store with recordings := tset (dconst none) s.store.recordings n x } }

/-- The drives that are members of the set. -/
def State.members (s : State) : List Nat := bitsSet 6 (s.rd Ob.ssetSetMembers)

/-- Octets of record stream in a unit, and LBAs of a unit (R373). -/
def unitOctets : Nat := 1044480
def unitBlocks : Nat := 256

/-- At most 16 commands are outstanding per drive (R369). -/
def State.issue (s : State) (k : Nat) (c : NCmd) : State :=
  let d := s.driveS k
  if d.out.length < 16 then
    (s.emit (.nvme k c.op c.lba c.blocks c.fua)).setDrive k { d with out := d.out ++ [c] }
  else s.setDrive k { d with queue := d.queue ++ [c] }

def State.issueAll (s : State) (k : Nat) (l : List NCmd) : State := l.foldl (fun s c => s.issue k c) s

/-- The commands of a range, 32 LBAs each. -/
def rangeCmds (op slot unit : Nat) : Nat → Nat → Nat → List NCmd
  | 0, _, _ => []
  | fuel + 1, lba, n =>
    if n = 0 then []
    else { op := op, lba := lba, blocks := min n 32, slot := slot, unitIndex := unit } :: rangeCmds op slot unit fuel (lba + 32) (n - 32)

/-- Units of a drive that the log holds: those of the oldest recording that is not Deleted and of all later ones (R377). -/
def State.usedUnitsOn (s : State) (k : Nat) : Nat :=
  let live := (s.store.directory.filter fun e => e.st != 4).map fun e => e.number
  match live with
  | [] => 0
  | a :: l =>
    let old := l.foldl min a
    ((s.store.directory.filter fun e => decide (old ≤ e.number)).map fun e => ((e.extents[k]?).getD (0, 0)).2).sum

/-- Free units of a drive, and the FreeUnits object. -/
def State.freeUnitsOn (s : State) (k : Nat) : Nat := (s.driveS k).units - s.usedUnitsOn k
def State.freeUnits (s : State) : State :=
  s.setDom Ob.ssetFreeUnits ((List.range 6).flatMap fun k => leBytes 8 (s.freeUnitsOn k))

/-- next_drive of R374 over the ports with room: the port and the credits after. -/
def nextDrive (credit : Tab Int) (ports : List (Nat × Nat)) : Option (Nat × Tab Int) :=
  let c1 := ports.foldl (fun c p => tmod (dconst 0) c p.1 fun v => v + (p.2 : Int)) credit
  let sum := (ports.map fun p => p.2).sum
  match ports.map fun p => p.1 with
  | [] => none
  | k :: ks =>
    let best := ks.foldl (fun b j => if tget (dconst 0) c1 b < tget (dconst 0) c1 j then j else b) k
    some (best, tmod (dconst 0) c1 best fun v => v - (sum : Int))

/-- Replace the directory entry of a recording. -/
def State.modEntry (s : State) (num : Nat) (f : DirEntry → DirEntry) : State :=
  { s with store := { s.store with directory := s.store.directory.map fun e => if e.number = num then f e else e } }

/-- The octets of a directory entry (R372). -/
def DirEntry.bytes (e : DirEntry) : Bytes :=
  let ext := (List.range 6).foldl (fun a k =>
    let x := (e.extents[k]?).getD (0, 0)
    a + (x.1 * 2 ^ 64 + x.2 * 2 ^ 32) * 2 ^ (1152 - 128 * k)) 0
  let n := e.number * 2 ^ 2016 + e.st * 2 ^ 2008 + e.slot * 2 ^ 2000 + e.ports * 2 ^ 1992 + e.lost * 2 ^ 1984 + e.admittedAt * 2 ^ 1856
    + e.firstTime * 2 ^ 1728 + e.lastTime * 2 ^ 1600 + e.units * 2 ^ 1536 + e.firstSeq * 2 ^ 1472 + e.lastSeq * 2 ^ 1408
    + e.dropped * 2 ^ 1344 + e.entrySeq * 2 ^ 1280 + ext
  leBytes 256 (n + crc32 (leBytes 256 n))

/-- Write the directory entry of recording `num` to both copies on every member (R372). -/
def State.writeEntry (s : State) (num : Nat) : State :=
  let s1 := s.modEntry num fun e => { e with entrySeq := e.entrySeq + 1 }
  match s1.store.directory.findIdx? fun e => e.number == num with
  | none => s1
  | some i =>
    (s1.members.filter fun k => s1.rd (Ob.storDriveState k) != 6).foldl (fun s k =>
      let block := (List.range 16).flatMap fun j => match s.store.directory[i / 16 * 16 + j]? with
        | some e => e.bytes
        | none => List.replicate 256 0
      ((s.issue k { op := 1, lba := 256 + i / 16, blocks := 1, fua := true }).issue k { op := 1, lba := 512 + i / 16, blocks := 1, fua := true }).emit
        (.driveData k (256 + i / 16) block)) s1

/-- The directory with room for one more entry: of 4,096, the oldest Deleted one whose units are free again gives its place (R371, R377; DESIGN CHOICE, log entry 171);
none without such a one. -/
def State.roomFor (s : State) : Option (List DirEntry) :=
  let d := s.store.directory
  if d.length < 4096 then some d
  else match d.find? fun e => e.st == 4 && d.all fun f => f.st == 4 || decide (e.number < f.number) with
    | some e => some (d.erase e)
    | none => none

/-- Open a recording for slot `n` (R373): its number and its directory entry. Without room in the directory there is none, and its records are dropped
for storage. -/
def State.storeOpen (s : State) (n ports : Nat) : State :=
  match s.roomFor with
  | none => s.detachConsumer (s.ringOwner n) 1
  | some d =>
    let num := s.rd Ob.ssetNextRecording
    let e : DirEntry := { number := num, st := 1, slot := n, ports := ports, admittedAt := s.rd (Ob.slotAdmittedAt n) }
    let s1 := (s.wr Ob.ssetNextRecording ((num + 1) % 2 ^ 32)).setRecording n (some { number := num, ports := bitsSet 6 ports, recordAt := s.now })
    let s2 := { s1 with store := { s1.store with directory := d ++ [e] } }
    s2.writeEntry num

/-- What the entry of a recording says follows the recording. -/
def State.entryFollow (s : State) (n : Nat) : State :=
  match s.recording n with
  | none => s
  | some x => s.modEntry x.number fun e => { e with
      firstTime := ((x.first.map fun p => p.2)).getD e.firstTime, firstSeq := ((x.first.map fun p => p.1)).getD e.firstSeq
      lastTime := ((x.latest.map fun p => p.2)).getD e.lastTime, lastSeq := ((x.latest.map fun p => p.1)).getD e.lastSeq
      dropped := s.rd (Ob.slotStorageDropped (s.ringOwner n)) }

/-- The recording of slot `n` ends in a state (2 Closed, 3 Interrupted): Flush, then the closing directory write (R376). -/
def State.recordingEnd (s : State) (n st : Nat) : State :=
  match s.recording n with
  | none => s
  | some x =>
    let s1 := (s.entryFollow n).modEntry x.number fun e => { e with st := st }
    let s2 := (x.ports.filter fun k => s1.rd (Ob.storDriveState k) != 6).foldl (fun s k => s.issue k { op := 0 }) s1
    (s2.writeEntry x.number).setRecording n none

/-- The unit header of R373, for the octets a drive receives. -/
def unitHeader (num setId : Nat) (u : WUnit) : Bytes :=
  let p := u.page
  let h := 0x544E5355 * 2 ^ 992 + num * 2 ^ 960 + u.index * 2 ^ 896 + setId * 2 ^ 832 + u.port * 2 ^ 824 + u.flags * 2 ^ 816
    + 1 * 2 ^ 808 + p.payload.length * 2 ^ 768 + (p.firstOffset.getD 0xFFFFFFFF) * 2 ^ 736 + p.starts * 2 ^ 704
    + p.firstSeq % 2 ^ 64 * 2 ^ 640 + p.firstTime * 2 ^ 512 + min p.drops (2 ^ 32 - 1) * 2 ^ 480 + crc32 p.payload * 2 ^ 448
  leBytes 128 (h + crc32 (leBytes 128 h))

/-- Queue the commands that write unit `u` (header LBA and payload) at its place. -/
def State.writeUnit (s : State) (n : Nat) (u : WUnit) : State :=
  let blocks := 1 + ceilDiv u.page.payload.length 4096
  let lba := 1024 + unitBlocks * u.place
  let num := ((s.recording n).map Recording.number).getD 0
  let data := unitHeader num (s.rd Ob.ssetSetId) u ++ List.replicate 3968 0 ++ u.page.payload
  (s.emit (.driveData u.port lba data)).issueAll u.port (rangeCmds 1 n u.index 16 lba blocks)

/-- The unit of drive `p` that the log takes next is taken for recording `num` (R374). -/
def State.takePlace (s : State) (num p : Nat) : State :=
  let d := s.driveS p
  (s.setDrive p { d with next := if d.units ≤ d.next + 1 then 0 else d.next + 1 }).modEntry num fun e =>
    let old := e.extents ++ List.replicate (6 - e.extents.length) (0, 0)
    { e with extents := old.mapIdx fun k v => if k = p then (if v.2 = 0 then d.next else v.1, v.2 + 1) else v }

/-- Close the open unit of slot `n` (R373): Flags bit 1 when its last record continues, bit 2 for Last, bit 4 for Abandon. -/
def State.closeUnit (s : State) (n : Nat) (into last abandon : Bool) : State :=
  match s.recording n with
  | none => s
  | some x =>
    match x.page with
    | none => s
    | some p =>
      let d := s.driveS x.port
      let blocks := 1 + ceilDiv p.payload.length 4096
      let u : WUnit := { index := x.unitIndex, port := x.port, place := d.next, left := ceilDiv blocks 32, octets := p.payload.length
                         page := p, flags := b2n p.continuedFrom + 2 * b2n into + 4 * b2n last + 16 * b2n abandon }
      let s1 := s.takePlace x.number x.port
      let s2 := s1.setRecording n (some { x with page := none, unitIndex := x.unitIndex + 1, pendingUnits := x.pendingUnits ++ [u] })
      let s3 := s2.modEntry x.number fun e => { e with units := e.units + 1 }
      (s3.writeUnit n u).freeUnits

/-- Records of a queue with their spans in the stream from the read position: position, first octet, end. -/
def spans : List (Nat × Nat) → Nat → List (Nat × Nat × Nat)
  | [], _ => []
  | (p, len) :: l, b => (p, b, b + len) :: spans l (b + len)

/-- The drives of a recording that have room, with their weights (R374, R377). -/
def State.roomy (s : State) (ports : List Nat) : List (Nat × Nat) :=
  (ports.filter fun k => decide (0 < s.freeUnitsOn k)).map fun k => (k, s.rd (Ob.storQualifiedRate k))

/-- The recording with the drive of its next unit chosen: drives without room leave the rotation (R377); none when none has room. -/
def State.rotate (s : State) (rc : Recording) : Option Recording :=
  match rc.page with
  | some _ => some rc
  | none =>
    let l := s.roomy rc.ports
    match nextDrive rc.credit l with
    | some (p, cr) => some { rc with ports := l.map fun x => x.1, port := p, credit := cr }
    | none => none

/-- The recording takes `d`, octets of the record at `pos` whose span in the stream is [b, e), at offset `o`. -/
def State.storeTake (s : State) (n : Nat) (rc : Recording) (r : Option RingRec) (b e o : Nat) (d : Bytes) : State :=
  let p : OpenPage := rc.page.getD { num := rc.unitIndex, continuedFrom := decide (b < o), drops := rc.carry }
  let seq := (r.map RingRec.seq).getD 0
  let time := (r.map RingRec.time).getD 0
  let begins := decide (o = b)
  let p1 := p.take d (if begins then some (seq, time) else none) (if begins then seqGap rc.lastSeq seq else 0)
  let done := decide (e ≤ o + d.length)
  let rc2 : Recording := { rc with
    page := some p1, carry := if rc.page.isNone then 0 else rc.carry, ahead := rc.ahead + d.length, recordAt := s.now
    lastSeq := if begins then some seq else rc.lastSeq
    first := if begins && rc.first.isNone then some (seq, time) else rc.first
    latest := if done then some (seq, time) else rc.latest }
  let s1 := s.setRecording n (some rc2)
  let capEnd := done && (match r with
    | some q => bit q.flags 9
    | none => false)
  if decide (unitOctets ≤ p1.payload.length) || capEnd then s1.closeUnit n (!done) false false else s1

/-- Units completed in order pass their octets (R376); when a closing recording has none left it ends. -/
def State.passUnits (s : State) (n : Nat) : Nat → State
  | 0 => s
  | fuel + 1 => match s.recording n with
    | none => s
    | some x => match x.pendingUnits with
      | u :: us =>
        if u.left = 0 then
          ((s.setRecording n (some { x with pendingUnits := us, ahead := x.ahead - u.octets })).consumerTake (s.ringOwner n) 1
            u.octets).passUnits n fuel
        else s
      | [] => if x.closing then s.recordingEnd n 2 else s

/-- The recording of slot `n` stops taking records (R373, R377, R380): the open unit closes with Last. -/
def State.storeClose (s : State) (n : Nat) : State :=
  let s1 := s.closeUnit n false true false
  match s1.recording n with
  | none => s1
  | some x => (s1.setRecording n (some { x with closing := true })).passUnits n 1

/-- The storage consumer of slot `n` moves a beat into the unit being filled (R373, R374); none when it has nothing to move. -/
def State.storeBeat (s : State) (n : Nat) : Option State :=
  let nb := s.ringOwner n
  let x := s.ringS nb
  match x.consumer 1, s.recording n with
  | some c, some rc =>
    let o := c.taken + rc.ahead
    if !c.attached || rc.closing then none
    else match (spans c.queue 0).find? fun e => decide (e.2.1 ≤ o) && decide (o < e.2.2) with
      | none => none
      | some (pos, b, e) =>
        match s.rotate rc with
        | none => some ((s.storeClose n).detachConsumer nb 1)
        | some rc1 =>
          let room := unitOctets - (match rc1.page with
            | some p => p.payload.length
            | none => 0)
          let d := s.streamOctets x c.queue o (min 64 (min room (e - o)))
          if d.isEmpty then none else some (s.storeTake n rc1 (x.recAt pos) b e o d)
  | _, _ => none

/-- The slot of the first recording that uses drive `k`; 0xFF none (R520). -/
def State.firstOnDrive (s : State) (k : Nat) : Nat :=
  ((List.range 64).filter fun n => match s.recording n with
    | some x => x.ports.contains k
    | none => false).headD 0xFF

/-- A drive is declared Failed (R378). -/
def State.driveFail (s : State) (k cause : Nat) : State :=
  if s.rd (Ob.storDriveState k) = 6 then s
  else
    let s1 := (s.wr (Ob.storFailCause k) cause).setDriveState k 6
    let s2 := (s1.setDrive k { s1.driveS k with out := [], queue := [] }).faultLog 8 cause k (s.firstOnDrive k) 0 0
    (List.range 64).foldl (fun s n => match s.recording n with
      | none => s
      | some x =>
        if !x.ports.contains k then s
        else
          let ports := x.ports.filter fun p => p != k
          let s3 := s.modEntry x.number fun e => { e with lost := setBit e.lost k true }
          match ports with
          | [] =>
            let s4 := (s3.setRecording n (some { x with ports := [], pendingUnits := [], page := none })).recordingEnd n 3
            s4.detachConsumer (s4.ringOwner n) 1
          | p0 :: _ =>
            -- the unit in progress and the outstanding units of the failed drive go to the remaining drives, Rewritten
            let x1 := if x.port = k ∧ x.page.isSome then
                match nextDrive x.credit (s3.roomy ports) with
                | some (p, cr) => { x with ports := ports, port := p, credit := cr }
                | none => { x with ports := ports, port := p0 }
              else { x with ports := ports }
            x1.pendingUnits.foldl (fun s u =>
              if u.port = k ∧ u.left ≠ 0 then
                match s.recording n with
                | none => s
                | some y => match nextDrive y.credit (s.roomy ports) with
                  | none => s
                  | some (p, cr) =>
                    let u1 := { u with port := p, place := (s.driveS p).next, left := ceilDiv (1 + ceilDiv u.octets 4096) 32
                                       flags := setBit u.flags 3 true }
                    let s5 := s.takePlace y.number p
                    let units := y.pendingUnits.map fun v => if v.index = u.index then u1 else v
                    let s6 := s5.setRecording n (some { y with credit := cr, pendingUnits := units })
                    s6.writeUnit n u1
              else s) (s3.setRecording n (some x1))) s2

/-- The recording that a Replay of slot `n` reads from the drives (R237). -/
def State.replayNumber (s : State) (n : Nat) : Nat := bits (leAt (s.dom (Ob.slotGeometry n)) 0 48) 367 336

/-- The drives that a Replay of slot `n` reads: those of its recording (R237, R372). -/
def State.replayPorts (s : State) (n : Nat) : List Nat :=
  if s.isReplay n && s.rd (Ob.slotReplaySource n) == 2 then
    match s.store.directory.find? fun e => e.number == s.replayNumber n with
    | some e => bitsSet 6 e.ports
    | none => []
  else []

/-- The storage consumer or the drive reader of a pipeline uses port `k` (R370, R374, R380). -/
def State.portUsed (s : State) (k : Nat) : Bool :=
  (List.range 64).any fun n => s.active n
    && ((bit (s.rd (Ob.slotStoragePorts n)) k && bit (s.rd (Ob.slotOutputMask n)) 4) || (s.replayPorts n).contains k)

end Sys2Proof.Machine
end

