-- ==== Sys2Proof/Machine/Display.lean ====
section
/-! DEFINITION. The display output and HostReserve (spec/22_display.md; spec/12_memory.md R331). -/

namespace Sys2Proof.Machine

open Sys2Proof

/-! ### Timing and buffers (R541, R542) -/

/-- Link rate of an index, Mb/s (R540). -/
def linkMbps (i : Nat) : Nat := ([1620, 2160, 2430, 2700, 3240, 4320, 5400, 8100][i]?).getD 0

/-- Link payload in kb/s: 4 lanes, 0.8, and 0.995 with SpreadEnable. -/
def linkPayload (i : Nat) (spread : Bool) : Nat := linkMbps i * (if spread then 3184 else 3200)

/-- The checks of R541. -/
def State.timingOk (s : State) : Bool :=
  let t := s.timing
  let ht := hTotal t
  let vt := vTotal t
  (s.dom Ob.dispTiming).length == 32 && bits t 127 0 == 0
  && decide (1 ≤ hActive t) && decide (hActive t ≤ 3840) && decide (hActive t + 32 ≤ ht)
  && decide (1 ≤ bits t 215 208) && decide (1 ≤ vActive t) && decide (vActive t ≤ 2160)
  && decide (vActive t + 3 ≤ vt) && decide (1 ≤ bits t 169 162)
  && decide (bits t 229 216 + bits t 215 208 ≤ ht) && decide (bits t 181 170 + bits t 169 162 ≤ vt)
  && decide (pixelClock t * 24 ≤ linkPayload (s.rd Ob.dispMaxLinkRate) (s.rdB Ob.dispSpreadEnable))
  && decide (s.rd Ob.dispRefreshMax * ht * vt ≤ pixelClock t * 1000000)

/-- A Buffers value satisfies R542. -/
def State.buffersOk (s : State) (b : Bytes) : Bool :=
  (List.range (b.length / 16)).all fun k =>
    let d := bufDesc b k
    d.reserved == 0 && d.format != 3
    && (!d.valid || (d.addr % 64 == 0 && decide (hActive s.timing * pixelBytes d.format ≤ d.stride) && s.inReserve d.addr (d.span s.timing)))

/-- The write of Buffers (R542, R551). -/
def buffersWrite (b : Bytes) : Act := fun s =>
  let old := s.dom Ob.dispBuffers
  let moved := fun (k : Nat) => bufDesc b k != bufDesc old k
  let shown := s.rd Ob.dispShown
  if b.length % 16 != 0 || decide (64 < b.length) then .error Abort.length
  else if (decide (shown < 4) && moved shown) || (match s.disp.pending with
      | some (k, _) => moved k
      | none => false) then .error Abort.state
  else if s.buffersOk b then .ok (s.setDom Ob.dispBuffers b) else .error Abort.range

/-! ### Enable (R544) -/

/-- BytesPerLine and c_f. -/
def State.bytesPerLine (s : State) : Nat :=
  hActive s.timing * (s.validBufs.foldl (fun m d => max m (pixelBytes d.format)) 0)
def State.fetchCharge (s : State) : Nat := s.bytesPerLine * (pixelClock s.timing * 1000) / max 1 (hTotal s.timing)

/-- The fetch's and the link lanes' worst power in mW (R57). -/
def State.fetchPower (s : State) : Nat :=
  let p := s.rd Ob.opCurrent
  ceilDiv (s.fetchCharge * s.coeff 3 p) 1000000000000 + ceilDiv (4 * s.coeff 4 p) 1000

/-- The transfer-engine limit of R54. -/
def transferLimit (point : Nat) : Nat := if point = 0 then 192000000000 else if point = 1 then 144000000000 else 96000000000

/-- The code of the first failing check of R544. -/
def State.fetchRefusal (s : State) : Option Nat :=
  let p := s.rd Ob.opCurrent
  let c := s.fetchCharge
  if (s.validBufs.flatMap fun d => s.bufPcs d).any fun l => decide (16130000000 < s.chargedOn 13 p 5 l + c) then some 0x47
  else if s.freeChannel.isNone || decide (transferLimit p < s.rd Ob.xferAllChargedRate + c) then some 0x48
  else if min (s.rd Ob.penvEnvelope) 230000 < s.rd Ob.admChargedPower + s.fetchPower then some 0x49
  else none

/-- The display is disabled: the channel is released and the charge ends. -/
def State.displayOff (s : State) : State :=
  let s1 := match (List.range 32).find? fun c => s.xowner c == 2 with
    | some c => s.unbindChannel c
    | none => s
  let d := s1.disp
  let s2 := { s1 with disp := { ({} : DisplayState) with hpd := d.hpd } }
  (s2.wrs [(Ob.dispState, 0), (Ob.dispShown, 0xFF), (Ob.dispFetchCharge, 0)]).recharge

/-- The display is enabled with a charge and a power (R544): it trains, or waits for a sink. -/
def State.displayUp (s : State) (charge power : Nat) : State :=
  let s2 := s.wrs [(Ob.dispEnable, 1), (Ob.dispState, if s.disp.hpd then 1 else 4), (Ob.dispFrameCount, 0), (Ob.dispFetchCharge, charge)]
  { s2 with disp := { s2.disp with charge := charge, powerMw := power, resume := true, trainFails := 0, closing := false } }

/-- A write of Enable (R541, R544, R552). -/
def displayEnable (on : Bool) : Act := fun s =>
  let was := s.rdB Ob.dispEnable
  if on == was then .ok s
  else if !on then
    let s1 := s.wr Ob.dispEnable 0
    if s.disp.inFrame then .ok { s1 with disp := { s1.disp with closing := true } } else .ok s1.displayOff
  else if !s.timingOk then .error Abort.range
  else match s.fetchRefusal with
    | some code => .ok ((s.wr Ob.dispLastRefusal code).abortAs Abort.state)
    | none => match s.freeChannel with
      | none => .error Abort.state
      | some c =>
        let s1 := if s.disp.closing then s else s.bindChannel c 2 0 4 0 s.fetchCharge 12
        .ok (s1.displayUp s.fetchCharge s.fetchPower).recharge

/-- DISPLAY_ENABLE. -/
def execDisplayEnable (t : Nat) (on : Bool) (s : State) : Outcome := .next (s.serveNoting t (displayEnable on))

/-! ### Frame timing (R547-R549) -/

/-- CommitLead in u_T. -/
def State.commitLead (s : State) : Nat := s.us (s.rd Ob.dispCommitLead)

/-- P_min and P_max in u_T, rounded up. -/
def State.pMin (s : State) : Nat :=
  let t := s.timing
  max (ceilDiv (1000 * s.second) (s.rd Ob.dispRefreshMax)) (ceilDiv (hTotal t * vTotal t * s.second) (pixelClock t * 1000))
def State.pMax (s : State) : Nat := ceilDiv (1000 * s.second) (s.rd Ob.dispRefreshMin)

/-- The first start of the grid S + m * P_min, m at least 1, at or after `x`. -/
def gridStart (start p x : Nat) : Nat := start + p * max 1 (ceilDiv (x - start) (max 1 p))

/-- The next frame start S_(k+1) (R547-R549), and whether the pending buffer is shown from it. -/
def State.nextStart (s : State) : Nat × Bool :=
  let d := s.disp
  match d.start with
  | none => (s.devNow, d.pending.isSome)
  | some s0 =>
    let lead := s.commitLead
    let adaptive := s.rd Ob.dispSyncMode == 1
    if s.rd Ob.dispState = 3 then
      match d.pending with
      | some (_, c) =>
        let r := if adaptive then max (c + lead) (s0 + s.pMin) else gridStart s0 s.pMin (c + lead)
        (max r s.devNow, true)
      | none => (s0 + s.pMin, false)
    else if d.resume then (s.devNow, d.pending.isSome)
    else match d.pending with
      | none => (s0 + (if adaptive then s.pMax else s.pMin), false)
      | some (_, c) =>
        if adaptive then
          if c + lead ≤ s0 + s.pMax then (max (c + lead) (s0 + s.pMin), true) else (s0 + s.pMax, false)
        else (s0 + s.pMin, decide (c + lead ≤ s0 + s.pMin))

/-- A Commit at `c` misses its window (R548). -/
def State.commitMisses (s : State) (c : Nat) : Bool :=
  match s.disp.start with
  | none => false
  | some s0 =>
    s.rd Ob.dispState == 2 && !s.disp.resume
    && decide (s0 + (if s.rd Ob.dispSyncMode = 1 then s.pMax else s.pMin) < c + s.commitLead)

/-- Commit (R547, R548). -/
def displayCommit (k : Nat) : Act := fun s =>
  if 4 ≤ k || !(bufDesc (s.dom Ob.dispBuffers) k).valid then .error Abort.range
  else
    let c := s.devNow
    let s := s.noted Ob.dispCommit
    let s1 := if s.disp.pending.isSome then s.bump Ob.dispSuperseded else s
    let s2 := if s.commitMisses c then (s1.wr Ob.dispCommitLate 1).bump Ob.dispLateCount else s1
    .ok { s2 with disp := { s2.disp with pending := some (k, c) } }

/-- DISPLAY_COMMIT. -/
def execDisplayCommit (t buffer : Nat) (s : State) : Outcome := .next (s.serve t (displayCommit buffer))

/-- A frame starts at `S` (R547): LastFrameStart, FrameCount, the buffer shown, the vector. -/
def State.frameStart (s : State) (S : Nat) (showNew : Bool) : State :=
  let d := s.disp
  let s1 := match showNew, d.pending with
    | true, some (k, _) => (s.wr Ob.dispShown k).emit (.scanout k)
    | _, _ => if s.rd Ob.dispShown < 4 then s.emit (.scanout (s.rd Ob.dispShown)) else s
  let s2 := ((s1.wr Ob.dispLastFrameStart (s1.stamp S)).bump Ob.dispFrameCount).wr Ob.dispState 2
  let fresh := showNew && d.pending.isSome
  let s3 := { s2 with disp := { d with
    start := some S, pending := if fresh then none else d.pending, resume := false, quiet := if fresh then 0 else d.quiet + 1
    inFrame := true, fetched := 0, blackLine := none, partialPx := [], crc := 0xFFFFFFFF, excluded := false } }
  s3.msix (s.rd Ob.dispVector)

/-- FRAME_START. -/
def execFrameStart (t : Nat) (s : State) : Outcome :=
  let s := s.advance t
  let n := s.nextStart
  let st := s.rd Ob.dispState
  .next (if s.rdB Ob.dispEnable && (st == 2 || (st == 3 && s.disp.pending.isSome)) && decide (n.1 ≤ s.devNow) then
      s.frameStart n.1 n.2
    else s)

/-! ### The fetch (R543, R546, R550) -/

/-- A pixel of a format as red, green, blue octets (R542). -/
def rgbOf (format : Nat) (px : Bytes) : Bytes :=
  if format = 0 then
    let n := leNat px
    let r := bits n 15 11
    let g := bits n 10 5
    let b := bits n 4 0
    [BitVec.ofNat 8 (r * 8 + r / 4), BitVec.ofNat 8 (g * 4 + g / 16), BitVec.ofNat 8 (b * 8 + b / 4)]
  else [px.getD 2 0, px.getD 1 0, px.getD 0 0]

/-- Whole pixels of a run of octets enter the CRC register; the octets of an unfinished pixel stay. -/
def crcPixels (format : Nat) : Nat → Nat → Bytes → Nat × Bytes
  | 0, crc, b => (crc, b)
  | fuel + 1, crc, b =>
    let n := pixelBytes format
    if b.length < n then (crc, b)
    else crcPixels format fuel ((rgbOf format (b.take n)).foldl (crcByte 0xEDB88320) crc) (b.drop n)

/-- The latency tolerance in ns that a fetch burst declares (R543): what the line buffer of 128 KiB still holds at the pixel clock,
less 1 us. -/
def State.fetchTolerance (s : State) (bpl : Nat) : Nat :=
  let t := s.timing
  let gone := match s.disp.start with
    | some s0 => (s.devNow - s0) * pixelClock t * 1000 / (max 1 (hTotal t) * s.second)
    | none => 0
  let held := min 131072 (s.disp.fetched - min s.disp.fetched (gone * bpl))
  held * hTotal t * 1000000 / (max 1 bpl * max 1 (pixelClock t)) - 1000

/-- The display fetch moves a beat (R543, R546); none outside a frame or when the frame is fetched. `err` is an uncorrectable word. -/
def State.fetchBeat (s : State) (err : Bool) : Option State :=
  let d := bufDesc (s.dom Ob.dispBuffers) (s.rd Ob.dispShown)
  let t := s.timing
  let bpl := hActive t * pixelBytes d.format
  let line := s.disp.fetched / max 1 bpl
  if !s.disp.inFrame || !d.valid || decide (vActive t ≤ line) then none
  else
    let o := s.disp.fetched % max 1 bpl
    let a := d.addr + line * d.stride + o
    let k := min (64 - a % 64) (bpl - o)
    let l := s.pcOf a
    let s1 := { s with tolerance := tset (dconst 0) s.tolerance l (s.fetchTolerance bpl) }
    if err || !s.daServed a then
      let s2 := if s.disp.blackLine = some line then s1 else s1.bump Ob.dispUnderruns
      let s3 := if err && s.daServed a then s2.hbmError a 2 0 else s2
      some { s3 with disp := { s3.disp with fetched := s.disp.fetched + k, blackLine := some line, excluded := true } }
    else
      let r := crcPixels d.format 64 s.disp.crc (s.disp.partialPx ++ s.hbmRead a k)
      some { s1 with disp := { s1.disp with fetched := s.disp.fetched + k, crc := r.1, partialPx := r.2 } }

/-- The link of the display retrains: State at Training, the fetch channel pauses (R550, R552). -/
def State.displayRetrain (s : State) : State :=
  let s1 := s.wr Ob.dispState 1
  let s2 := { s1 with disp := { s1.disp with mismatches := 0, trainFails := 0 } }
  match (List.range 32).find? fun c => s.xowner c == 2 with
  | some c => s2.xferCause c 0 true
  | none => s2

/-- End of a frame (R549, R550): the CRCs are published and compared; three consecutive mismatches are a fault of Q34; PSR is entered
after PsrFrames frames without a commit. -/
def State.frameEnd (s : State) (linkCrc : Nat) : State :=
  let d := s.disp
  let fetchCrc := d.crc ^^^ 0xFFFFFFFF
  let s1 := s.wrs [(Ob.dispFetchCrc, fetchCrc), (Ob.dispLinkCrc, linkCrc % 2 ^ 32)]
  let bad := !d.excluded && fetchCrc != linkCrc % 2 ^ 32
  let m := if d.excluded then d.mismatches else if bad then d.mismatches + 1 else 0
  let s2 := if bad then s1.bump Ob.dispCrcMismatches else s1
  let s3 := { s2 with disp := { d with inFrame := false, mismatches := m } }
  if d.closing then s3.displayOff
  else if 3 ≤ m then (s3.quadFault 34 1).displayRetrain
  else if s.rdB Ob.dispPsrEnable && d.psrSink && d.pending.isNone && decide (s.rd Ob.dispPsrFrames ≤ d.quiet) && s.rd Ob.dispState == 2 then
    s3.wr Ob.dispState 3
  else s3

/-- DISPLAY_FRAME_END: `linkCrc` is the CRC of the near-end monitor of Q34. -/
def execDisplayFrameEnd (t linkCrc : Nat) (s : State) : Outcome :=
  let s := s.advance t
  .next (if s.disp.inFrame then s.frameEnd linkCrc else s)

/-- HPD_CHANGE (R552). -/
def execHpdChange (t : Nat) (present : Bool) (s : State) : Outcome :=
  let s := s.advance t
  let s1 := { s with disp := { s.disp with hpd := present } }
  .next (if !s.rdB Ob.dispEnable then s1
    else if !present then s1.displayRetrain
    else if s.rd Ob.dispState = 4 then s1.wr Ob.dispState 1 else s1)

/-- The display's transfer channel. -/
def State.displayChannel (s : State) : Option Nat := (List.range 32).find? fun c => s.xowner c == 2

/-- DISPLAY_LINK_TRAINED (R540, R550): training ends; it has failed three times: Failed. `caps` are the sink's receiver capabilities,
`psr` its PSR capability, `rate` the index of the link rate reached. -/
def execDisplayLinkTrained (t : Nat) (ok : Bool) (rate : Fin 8) (caps : List (BitVec 8)) (psr : Bool) (s : State) : Outcome :=
  let s := s.advance t
  .next (if !(s.rd Ob.dispState == 1 && s.disp.hpd) then s
    else if ok then
      let s1 := (((s.wr Ob.dispState 2).setDom Ob.dispSinkCaps (caps.take 16)).setQuad 34 0)
      let s2 := { s1 with disp := { s1.disp with
        resume := true, inFrame := false, trainFails := 0, psrSink := psr, rate := min rate (s.rd Ob.dispMaxLinkRate) } }
      match s.displayChannel with
      | some c => s2.xferCause c 0 false
      | none => s2
    else
      let n := s.disp.trainFails + 1
      let s1 := { s with disp := { s.disp with trainFails := n } }
      if 3 ≤ n then s1.wr Ob.dispState 4 else s1)

/-- ClearFlags (R551). -/
def displayClear : Act := fun s => .ok (s.wrs [(Ob.dispCommitLate, 0), (Ob.dispLateCount, 0), (Ob.dispSuperseded, 0),
  (Ob.dispCrcMismatches, 0), (Ob.dispUnderruns, 0)])

/-- DISPLAY_CLEAR_FLAGS. -/
def execDisplayClearFlags (t : Nat) (s : State) : Outcome := .next (s.serve t displayClear)

/-! ### HostReserve (R331) -/

/-- [a, a + n) and [b, b + m) meet. -/
def meets (a n b m : Nat) : Bool := decide (a < b + m) && decide (b < a + n) && n != 0 && m != 0

/-- A region lies in allocatable pseudo-channels: whole 2 MiB units, none on a spare's or a retired number. -/
def State.regionOk (s : State) (r : Nat × Nat) : Bool :=
  r.1 % 2097152 == 0 && r.2 % 2097152 == 0 && r.2 != 0 && decide (r.1 + r.2 ≤ 51539607552)
  && (List.range (r.2 / 2097152)).all fun i => (s.physOf (s.pcOf (r.1 + i * 2097152))).isSome

/-- The regions of a list do not meet one another. -/
def apart : List (Nat × Nat) → Bool
  | [] => true
  | r :: l => (l.all fun q => !meets r.1 r.2 q.1 q.2) && apart l

/-- The display fetch is reading a region that a new list no longer covers. -/
def State.readRegionLost (s : State) (b : Bytes) : Bool :=
  let d := bufDesc (s.dom Ob.dispBuffers) (s.rd Ob.dispShown)
  s.rdB Ob.dispEnable && decide (s.rd Ob.dispShown < 4) && d.valid
  && !(reserveRegions b).any fun r => decide (r.1 ≤ d.addr) && decide (d.addr + d.span s.timing ≤ r.1 + r.2)

/-- A HostReserve value satisfies R331: whole, apart, in memory no pool or ring uses, and within what is free beside the old reservation. -/
def State.reserveOk (s : State) (b : Bytes) : Bool :=
  let rs := reserveRegions b
  let old := ((reserveRegions (s.dom Ob.hbmHostReserve)).map fun r => r.2).sum
  rs.all (fun r => s.regionOk r) && apart rs
    && rs.all (fun r => s.usedUnits.all fun u => !meets r.1 r.2 (u * 2097152) 2097152)
    && decide ((rs.map fun r => r.2).sum ≤ s.rd Ob.storeFreeBytes + old)

/-- A host transfer in progress whose destination is no longer reserved ends with an error (R331). -/
def State.reserveLost (s : State) (c : Nat) : State :=
  if s.xowner c == 3 && (s.xst c == 2 || s.xst c == 3 || s.xst c == 4 || s.xst c == 5) && s.rd (Ob.xferDestSpace c) == 0
      && !s.inReserve (s.rd (Ob.xferDest c)) (s.rd (Ob.xferLength c)) then s.xferError c 4 else s

/-- The write of HostReserve (R331): the capacity check leaves the old reservation out. -/
def reserveWrite (b : Bytes) : Act := fun s =>
  if b.length % 16 != 0 || decide (256 < b.length) then .error Abort.length
  else if s.readRegionLost b then .error Abort.state
  else if s.reserveOk b then .ok ((List.range 32).foldl State.reserveLost (s.setDom Ob.hbmHostReserve b).recount)
  else .error Abort.range

/-- HOST_RESERVE_WRITE. -/
def execHostReserveWrite (t : Nat) (data : List (BitVec 8)) (s : State) : Outcome := .next (s.serve t (reserveWrite data))

end Sys2Proof.Machine
end

