-- ==== Sys2Proof/Machine/Transfer.lean ====
section
/-! DEFINITION. The transfer engine's commands and window B (spec/13_transfer.md; spec/14_host_storage.md R357). -/

namespace Sys2Proof.Machine

open Sys2Proof

/-- A source or destination range of a space is one a host channel may use (R337, R338). -/
def rangeOk (space a n : Nat) : Bool :=
  if space = 1 then decide (a + n ≤ 2 ^ 64)
  else space == 0 && winB a != 0 && winB (a + n - 1) == winB a && (winB a == 1 || (a - 0xC00000000) / 0x40000 == (a + n - 1 - 0xC00000000) / 0x40000)

/-- Start (R338, R350). -/
def transferStart (c : Nat) : Act := fun s =>
  let st := s.xst c
  let ow := s.xowner c
  let len := s.rd (Ob.xferLength c)
  let ss := s.rd (Ob.xferSourceSpace c)
  let ds := s.rd (Ob.xferDestSpace c)
  let a := s.rd (Ob.xferSource c)
  let b := s.rd (Ob.xferDest c)
  if s.stopping || !(ow == 0 || (ow == 3 && decide (6 ≤ st))) then .error Abort.state
  else if len == 0 || decide (2 ≤ ss) || decide (2 ≤ ds) || !rangeOk ss a len || !rangeOk ds b len
      || (ds == 0 && !s.inReserve b len) || (ss == ds && meets a len b len) then .error Abort.range
  else
    let drain := s.power.draining.any fun d => s.rangeIn d ss a len || s.rangeIn d ds b len
    let cause := setBit (s.rd (Ob.xferPauseCause c)) 1 drain
    let paused := cause != 0
    let s1 := s.wrs [(Ob.xferPauseCause c, cause), (Ob.xferOwner c, 0x300), (Ob.xferState c, if paused then 4 else 2), (Ob.xferSourceNow c, a), (Ob.xferDestNow c, b),
      (Ob.xferRemaining c, len), (Ob.xferStagedBytes c, 0), (Ob.xferErrorCode c, 0)]
    .ok ((s1.setXf c { toRead := len, writes := (s.xf c).writes }).xferSettle c)

/-- TRANSFER_START. -/
def execTransferStart (t : Nat) (ch : Fin 32) (s : State) : Outcome := .next (s.serve t (transferStart ch))

/-- Pause (R342): aborts on a channel of a pipeline or of the display (R336). -/
def transferPause (c : Nat) (v : Bool) : Act := fun s =>
  if s.xowner c == 1 || s.xowner c == 2 then .error Abort.state
  else .ok ((s.wr (Ob.xferPause c) (b2n v)).xferCause c 0 v)

/-- TRANSFER_PAUSE_WRITE. -/
def execTransferPauseWrite (t : Nat) (ch : Fin 32) (pause : Bool) (s : State) : Outcome := .next (s.serve t (transferPause ch pause))

/-- Abort (R343); with no transfer in progress there is nothing to end. -/
def transferAbort (c : Nat) : Act := fun s =>
  if s.xowner c == 1 || s.xowner c == 2 then .error Abort.state
  else
    let st := s.xst c
    if s.xowner c == 3 && decide (1 ≤ st) && decide (st ≤ 5) then
      let s1 := s.setXf c { s.xf c with aborting := true }
      .ok (if st = 5 then (s1.xferDrop c).xferEnd c 7 else s1.xferSettle c)
    else .ok s

/-- TRANSFER_ABORT. -/
def execTransferAbort (t : Nat) (ch : Fin 32) (s : State) : Outcome := .next (s.serve t (transferAbort ch))

/-! ### Beat slots (R340, R341, R344) -/

/-- The octets of the destination beat that stands next: to the next multiple of 64 or the end. -/
def State.destSpan (s : State) (c : Nat) : Nat :=
  min (s.rd (Ob.xferRemaining c)) (64 - s.rd (Ob.xferDestNow c) % 64)

/-- A host channel can write a staged beat to a destination that accepts it: a pseudo-channel that serves, or host memory, of which `credits` says that
the host link takes a posted write. -/
def State.canWrite (s : State) (c : Nat) (credits : Bool) : Bool :=
  let st := s.xst c
  let x := s.xf c
  let n := s.destSpan c
  s.xowner c == 3 && !x.aborting && (st == 2 || st == 3 || st == 4) && n != 0
  && (decide (n ≤ x.staged.length) || (st == 4 && x.reads.isEmpty && !x.staged.isEmpty))
  && (if s.rd (Ob.xferDestSpace c) = 0 then s.daServed (s.rd (Ob.xferDestNow c)) else credits && s.host.bme)

/-- The octets of the next source read. -/
def State.sourceSpan (s : State) (c : Nat) : Nat := min (s.xf c).toRead (64 - s.rd (Ob.xferSourceNow c) % 64)

/-- A host channel can issue a read: it needs a free place in its buffer of 2 KiB. -/
def State.canRead (s : State) (c : Nat) : Bool :=
  let st := s.xst c
  let x := s.xf c
  let held := x.reads.foldl (fun a r => a + r.len) x.staged.length
  s.xowner c == 3 && !x.aborting && (st == 2 || st == 3) && s.sourceSpan c != 0 && decide (held + s.sourceSpan c ≤ 2048)
  && (s.rd (Ob.xferSourceSpace c) == 0 || s.host.bme)

/-- A write beat of a host channel (R344, R345): the whole beat, or the partial beat at head or tail. -/
def State.writeBeat (s : State) (c : Nat) : State :=
  let x := s.xf c
  let n := min (s.destSpan c) x.staged.length
  let d := x.staged.take n
  let a := s.rd (Ob.xferDestNow c)
  let s1 := ((s.wrs [(Ob.xferDestNow c, a + n), (Ob.xferRemaining c, s.rd (Ob.xferRemaining c) - n)]).bump (Ob.xferBeats c))
  let s2 := if s.rd (Ob.xferDestSpace c) = 0 then
      (s1.setXf c { x with staged := x.staged.drop n, writes := x.writes + 1 }).enqueue
        { client := 1 + c, tag := 0, da := a, len := n, write := some d }
    else (s1.setXf c { x with staged := x.staged.drop n }).emit (.hostWrite a d)
  s2.xferSettle c

/-- A read beat of a host channel: window B through the bank queues or a pool, whose word `err` says to be uncorrectable (R349), or a read of host
memory. -/
def State.readBeat (s : State) (c : Nat) (err : Bool) : State :=
  let x := s.xf c
  let n := s.sourceSpan c
  let a := s.rd (Ob.xferSourceNow c)
  let s1 := (s.wr (Ob.xferSourceNow c) (a + n)).setXf c { x with
    toRead := x.toRead - n, reads := x.reads ++ [{ addr := a, len := n, data := none }] }
  if s.rd (Ob.xferSourceSpace c) = 1 then s1.emit (.hostRead a n)
  else if winB a = 2 then s1.xferData c a (if err then 3 else 0) ((List.range n).map fun i => s.poolByte (a + i))
  else if !s.daServed a then s1.xferError c 2
  else s1.enqueue { client := 1 + c, tag := 0, da := a, len := n, write := none }

/-- A beat of a device-owned channel: its burst must have a request (R347). -/
def State.deviceBeat (s : State) (c : Nat) (err credits : Bool) : Option State :=
  let x := s.xf c
  let st := s.xst c
  let may := (x.burst != 0 || x.req.isSome) && (st == 1 || st == 2 || st == 3) && s.rd (Ob.xferPauseCause c) == 0
  if !may then none
  else if x.role = 1 then (if credits then s.streamBeat x.target (s.rd (Ob.xferOwner c) % 256) else none)
  else if x.role = 2 then s.storeBeat (s.rd (Ob.xferOwner c) % 256)
  else if x.role = 4 then s.fetchBeat err
  else some s

/-- A device-owned channel has moved a beat: the first one grants the request, the last one of the burst leaves it Waiting. -/
def State.burstBeat (s : State) (c : Nat) : State :=
  let x := s.xf c
  let left := (if x.burst = 0 then x.req.getD 1 else x.burst) - 1
  let y := { x with burst := left, req := if x.burst = 0 then none else x.req, granted := decide (left ≠ 0) }
  ((s.setXf c y).bump (Ob.xferBeats c)).wr (Ob.xferState c) (if left = 0 then 1 else 2)

/-- The state after channel `c` takes a beat slot; none when it has no beat ready. The write comes before the read. -/
def State.beatOf (s : State) (c : Nat) (err credits : Bool) : Option State :=
  if s.xowner c = 3 then
    if s.canWrite c credits then some ((if s.xst c = 3 then s.wr (Ob.xferState c) 2 else s).writeBeat c)
    else if s.canRead c then some ((if s.xst c = 3 then s.wr (Ob.xferState c) 2 else s).readBeat c err)
    else none
  else if s.xowner c = 0 then none
  else (s.deviceBeat c err credits).map fun s => s.burstBeat c

/-- Age of a channel at a port (R65). -/
def XferCh.age (x : XferCh) (port : Nat) : Nat := if port = 0 then x.age0 else x.age1
def XferCh.setAge (x : XferCh) (port v : Nat) : XferCh := if port = 0 then { x with age0 := v } else { x with age1 := v }

/-- `a` is served before `b` (R340): the smaller priority number, then the greater age, then the lower number. -/
def State.servedFirst (s : State) (port a b : Nat) : Bool :=
  let pa := s.rd (Ob.xferPriority a)
  let pb := s.rd (Ob.xferPriority b)
  let ga := (s.xf a).age port
  let gb := (s.xf b).age port
  decide (pa < pb) || (pa == pb && (decide (gb < ga) || (ga == gb && decide (a < b))))

/-- The channels other than `w` that were ready lose the slot (R341): they age, and those of lower priority that hold staged data or
reads in flight enter Preempted. -/
def State.losers (s : State) (port w : Nat) (ready : List Nat) : State :=
  (ready.filter fun c => c != w).foldl (fun s c =>
    let x := s.xf c
    let s1 := s.setXf c (x.setAge port (x.age port + 1))
    if decide (s.rd (Ob.xferPriority w) < s.rd (Ob.xferPriority c)) && s.xst c == 2 && (!x.staged.isEmpty || !x.reads.isEmpty) then
      (s1.wr (Ob.xferState c) 3).bump (Ob.xferPreemptions c)
    else s1) s

/-- Stream channels that would write into their open page and find no posted-write credits stop: RingState reads Stalled (R363). -/
def State.stallStreams (s : State) (credits : Bool) : State :=
  if credits then s
  else (List.range 32).foldl (fun s c =>
    let r := (s.xf c).target
    if s.xowner c == 1 && (s.xf c).role == 1 && (s.streamS r).page.isSome && (s.deviceBeat c false true).isSome then s.wr (Ob.ringRingState r) 3
    else s) s

/-- Channel `c` has taken a slot of the other port in this cycle (R340). -/
def State.tookOther (s : State) (c port : Nat) : Bool := match (s.xf c).took with
  | some p => p.1 != port && p.2 == s.now
  | none => false

/-- TRANSFER_BEAT_SLOT (R340): port `port` grants a beat slot, assigned to channel `owner` or to none. `err` says that a read that the
slot makes meets an uncorrectable word, `credits` that the host link takes posted writes. -/
def execTransferBeatSlot (t : Nat) (port : Fin 2) (owner : Option (Fin 32)) (err credits : Bool) (s : State) : Outcome :=
  let s := (s.advance t).stallStreams credits
  let ready := (List.range 32).filter fun c => !s.tookOther c port && (s.beatOf c err credits).isSome
  let own := match owner with
    | some c => if ready.contains c.val && s.xowner c == 1 then some c.val else none
    | none => none
  let best := match own with
    | some c => some c
    | none => match ready with
      | [] => none
      | c :: l => some (l.foldl (fun b d => if s.servedFirst port d b then d else b) c)
  .next (match best with
    | none => s
    | some w => match s.beatOf w err credits with
      | none => s
      | some s1 => (s1.setXf w { (s1.xf w).setAge port 0 with took := some (port, s.now) }).losers port w ready)

/-! ### Requests, completions (R346-R349) -/

/-- The channel that a request line paces. -/
def State.linePaces (s : State) (line : Nat) : Option Nat :=
  (List.range 32).find? fun c => s.rd (Ob.xferRequestLine c) == line && (s.xowner c == 1 || s.xowner c == 2)

/-- REQUEST_RAISE (R347): a burst of 1-64 beats; a unit raises its next request only after the grant. -/
def execRequestRaise (t : Nat) (line : Fin 48) (beats : Fin 65) (s : State) : Outcome :=
  let s := s.advance t
  .next (match s.linePaces line with
    | none => s
    | some c =>
      let x := s.xf c
      if beats.val = 0 ∨ x.req.isSome then s else s.setXf c { x with req := some beats })

/-- REQUEST_WITHDRAW (R347): before the first beat the burst is cancelled; after it the burst completes. -/
def execRequestWithdraw (t : Nat) (line : Fin 48) (s : State) : Outcome :=
  let s := s.advance t
  .next (match s.linePaces line with
    | none => s
    | some c =>
      let x := s.xf c
      if x.req.isSome then (s.setXf c { x with req := none }).bump (Ob.xferCancelledBursts c)
      else if x.burst ≠ 0 then s.bump (Ob.xferLateWithdrawCount c)
      else s)

/-- HOST_READ_COMPLETION (R349): the completion of a read of host memory by channel `ch` from `addr`. -/
def execHostReadCompletion (t : Nat) (ch : Fin 32) (addr : Nat) (ok : Bool) (data : List (BitVec 8)) (s : State) : Outcome :=
  let s := s.advance t
  .next (s.xferData ch addr (if ok then 0 else 1) data)

/-- TRANSFER_READ_TIMEOUT (R357): the oldest read of host memory in flight counts as a Completer Abort. -/
def execTransferReadTimeout (t : Nat) (ch : Fin 32) (s : State) : Outcome :=
  let s := s.advance t
  .next (match (s.xf ch).reads.find? fun r => r.data.isNone with
    | some r => if s.rd (Ob.xferSourceSpace ch) = 1 then s.xferData ch r.addr 1 [] else s
    | none => s)

/-! ### Window B (R357) -/

/-- One piece of a read through window B (R324, R357). -/
def State.windowRead (s : State) (tag : Nat) (p : Nat × Nat) : State :=
  if winB p.1 = 1 then
    if s.daServed p.1 then s.enqueue { client := 0, tag := tag, da := p.1, len := p.2, write := none }
    else s.emit (.complete 0 tag false [])
  else if winB p.1 = 2 then s.emit (.complete 0 tag true ((List.range p.2).map fun i => s.poolByte (p.1 + i)))
  else s.emit (.complete 0 tag true (List.replicate p.2 0))

/-- WINDOW_B_READ (R324, R357): HBM through its bank queue, a pool at once, a reserved offset as zero. -/
def execWindowBRead (t tag offset len : Nat) (s : State) : Outcome :=
  let s := s.advance t
  .next ((pieces64 65 offset (min len 4096)).foldl (fun s p => s.windowRead tag p) s)

/-- One piece of a write through window B that starts at `offset`. -/
def State.windowWrite (s : State) (offset : Nat) (data : Bytes) (p : Nat × Nat) : State :=
  if s.inReserve p.1 p.2 && s.daServed p.1 then
    s.enqueue { client := 0, tag := 0, da := p.1, len := p.2, write := some ((data.drop (p.1 - offset)).take p.2) }
  else s.bump Ob.diagDiscardedHostWrites

/-- WINDOW_B_WRITE (R306, R321, R324, R357): accepted inside HostReserve on a serving pseudo-channel, else discarded and counted. -/
def execWindowBWrite (t offset : Nat) (data : List (BitVec 8)) (s : State) : Outcome :=
  let s := s.advance t
  .next ((pieces64 (data.length + 1) offset data.length).foldl (fun s p => s.windowWrite offset data p) s)

end Sys2Proof.Machine
end

