-- ==== Sys2Proof/Machine/HostLink.lean ====
section
/-! DEFINITION. The host link and the commands of the stream rings (spec/14_host_storage.md R351-R367) and of ring consumers (spec/09_records.md R225, R228). -/

namespace Sys2Proof.Machine

open Sys2Proof

/-- Admitted limit of the host link (R54, R352), B/s: rate code 4, 5 or 6 and width. -/
def hostLimit (rate width : Nat) : Nat :=
  (if rate = 6 then 100000000000 else if rate = 5 then 50000000000 else if rate = 4 then 25000000000 else 0) * width / 16

/-- Events that end the endpoint's PCIe state (R353): a transaction in progress on window A ends without effect, every ring is
suspended, Bus Master Enable is clear. -/
def State.endpointReset (s : State) (down : Bool) : State :=
  let s1 := s.suspendRings.bump Ob.hlinkLinkDowns
  let s3 := { s1 with
    dict := { s1.dict with busySubmit := none, lastSubmit := 0, forwarded := s1.dict.forwarded.filter fun w => w.transport != 0 }
    host := { s1.host with bme := false, retrain := false } }
  if down then s3.wrs [(Ob.hlinkLinkRate, 0), (Ob.hlinkLinkWidth, 0), (Ob.hlinkAdmittedLinkLimit, 0)] else s3

/-- HOST_RESET (R353): 0 PERST_N, 1 hot reset, 2 Function Level Reset, 3 link down. The link is down after all but the third. -/
def execHostReset (t : Nat) (kind : Fin 4) (s : State) : Outcome :=
  let s := s.advance t
  .next (s.endpointReset (kind.val != 2))

/-- HOST_LINK_TRAINED (R352, R354): rate code 4 to 6, at most MaxLinkRate, and width; the host then enables the function (log entry
19). -/
def execHostLinkTrained (t : Nat) (rate : Fin 3) (width : Fin 5) (s : State) : Outcome :=
  let s := s.advance t
  let r := min (4 + rate.val) (s.rd Ob.hlinkMaxLinkRate)
  let w := 2 ^ width.val
  let lim := hostLimit r w
  let s1 := s.wrs [(Ob.hlinkLinkRate, r), (Ob.hlinkLinkWidth, w), (Ob.hlinkAdmittedLinkLimit, lim)]
  let s2 := ({ s1 with host := { bme := true, retrain := false } } : State).quadsUp [16, 17, 18, 19]
  let short := decide (lim < s.rd Ob.hlinkLinkCharged)
  .next (if short && !s.rdB Ob.hlinkShortfall then (s2.wr Ob.hlinkShortfall 1).msix 1 else s2.wr Ob.hlinkShortfall (b2n short))

/-- Retrain (R366). -/
def linkRetrain : Act := fun s => .ok { s with host := { s.host with retrain := true } }

/-- LINK_RETRAIN. -/
def execLinkRetrain (t : Nat) (s : State) : Outcome := .next (s.serve t linkRetrain)

/-- DOORBELL_WRITE (R356): one aligned 8-octet write; a partial write is discarded. -/
def execDoorbellWrite (t : Nat) (ring : Fin 32) (value : Nat) (whole : Bool) (s : State) : Outcome :=
  let s := s.advance t
  .next (if !whole then s
    else if s.rd (Ob.ringConsumedPages ring) ≤ value ∧ value ≤ s.rd (Ob.ringWrittenPages ring) then s.wr (Ob.ringConsumedPages ring) value
    else s.bump (Ob.ringBadDoorbells ring))

/-- BUS_MASTER_DISABLE (R365). -/
def execBusMasterDisable (t : Nat) (s : State) : Outcome :=
  let s := s.advance t
  .next ({ s.suspendRings with host := { s.host with bme := false } })

/-- STREAM_IRQ_DELAY_EXPIRY (R361). -/
def execStreamIrqDelayExpiry (t : Nat) (ring : Fin 32) (s : State) : Outcome :=
  let s := s.advance t
  let x := s.streamS ring
  .next (if x.unsignalled != 0 && decide (x.since + s.us (s.rd (Ob.ringIrqDelay ring)) ≤ s.now) then
      (s.setStream ring { x with unsignalled := 0 }).msix (s.rd (Ob.ringVector ring))
    else s)

/-- CREDIT_STALL_TIMEOUT (R363, R66 assumption 1): a mid-page stop of more than 10 us. -/
def execCreditStallTimeout (t : Nat) (ring : Fin 32) (s : State) : Outcome :=
  let s := s.advance t
  .next (if (s.streamS ring).page.isSome then
      ((((s.bump (Ob.ringCreditStalls ring)).bump Ob.hlinkCreditTimeouts)).wr (Ob.ringRingState ring) 3).assume 1
    else s)

/-- The page settings of ring `r` are valid (R359, R366). -/
def State.ringOk (s : State) (r : Nat) : Bool :=
  let n := s.rd (Ob.ringPageCount r)
  let b := s.dom (Ob.ringPageAddrs r)
  decide (s.rd (Ob.ringPageSizeCode r) ≤ 9) && decide (2 ≤ n) && decide (n ≤ 16384) && b.length == 8 * n
  && (List.range n).all fun i => leAt b (8 * i) 8 % s.pageBytes r == 0

/-- Validate (R366): a ring that has not started is Ready when its settings pass, and is Unconfigured else. -/
def ringValidate (r : Nat) : Act := fun s =>
  let ok := s.ringOk r
  let s1 := s.setStream r { s.streamS r with validated := some (if ok then 0 else 0x4F) }
  .ok (if s.rd (Ob.ringRingState r) ≤ 1 then s1.wr (Ob.ringRingState r) (b2n ok) else s1)

/-- RING_VALIDATE. -/
def execRingValidate (t : Nat) (ring : Fin 32) (s : State) : Outcome := .next (s.serve t (ringValidate ring))

/-- Restart of a Suspended ring (R365). -/
def ringRestart (r : Nat) : Act := fun s =>
  if s.rd (Ob.ringRingState r) != 5 then .error Abort.state
  else
    let n := s.rd (Ob.ringOwner r)
    let x := s.streamS r
    let s1 := (s.setStream r { x with page := none, fresh := true, abandon := false, unsignalled := 0 }).wrs
      [(Ob.ringWrittenPages r, 0), (Ob.ringConsumedPages r, 0), (Ob.ringRingState r, if n < 64 then 2 else 1)]
    let s2 := { s1 with host := { s1.host with bme := true } }
    .ok (if n < 64 then s2.reattach (s2.ringOwner n) 0 else s2)

/-- RING_RESTART. -/
def execRingRestart (t : Nat) (ring : Fin 32) (s : State) : Outcome := .next (s.serve t (ringRestart ring))

/-! ### Consumers of a ring -/

/-- CONSUMER_STALL_TIMEOUT (R228): consumer `who` of the ring of slot `n` makes no progress for StallTimeout and is detached. -/
def execConsumerStallTimeout (t : Nat) (n : Fin 64) (who : Nat) (s : State) : Outcome :=
  let s := s.advance t
  let nb := s.ringOwner n
  .next (match (s.ringS nb).consumer who with
    | none => s
    | some c =>
      if !c.attached || c.queue.isEmpty then s
      else if who = 0 then
        match s.streamRingOf n with
        | some r => s.streamDetach r n 4
        | none => s.detachConsumer nb 0
      else if who = 1 then
        let s1 := s.closeUnit n false false true
        let s2 := s1.detachConsumer nb 1
        match s2.recording n with
        | some x => s2.setRecording n (some { x with ahead := 0, pendingUnits := x.pendingUnits.map fun u => { u with octets := 0 } })
        | none => s2
      else s.detachConsumer nb who)

/-- CONSUMER_REATTACH (R228); a storage consumer whose recording is over stays detached (R377, R378). -/
def execConsumerReattach (t : Nat) (n : Fin 64) (who : Nat) (s : State) : Outcome :=
  let s := s.advance t
  let nb := s.ringOwner n
  .next (if who = 0 then
      match s.streamRingOf n with
      | some r => if s.rd (Ob.ringRingState r) = 4 then (s.reattach nb 0).wr (Ob.ringRingState r) 2 else s
      | none => s
    else if who = 1 ∧ ((s.recording n).all fun x => x.closing) = true then s
    else s.reattach nb who)

/-- HostRead (R225): a record start from the current position up to WritePos. -/
def hostReadWrite (n v : Nat) : Act := fun s =>
  let x := s.ringS n
  if !s.rdB (Ob.slotHostConsumer n) || !x.present then .error Abort.state
  else if decide (s.rd (Ob.slotWritePos n) < v) || decide (v < s.rd (Ob.slotHostRead n))
      || !(v == s.rd (Ob.slotHostRead n) || v == s.rd (Ob.slotWritePos n) || x.recs.any fun r => r.pos == v) then .error Abort.range
  else
    let s1 := (s.wr (Ob.slotHostRead n) v).setRing n { x with consumers := x.consumers.map fun c =>
      if c.who = 2 then { c with queue := c.queue.filter fun q => decide (v ≤ q.1), taken := 0 } else c }
    .ok (s1.ringOldest n)

/-- HOST_READ_WRITE. -/
def execHostReadWrite (t : Nat) (n : Fin 64) (value : Nat) (s : State) : Outcome := .next (s.serve t (hostReadWrite n value))

/-- ReleaseRing (R223). -/
def releaseRing (n : Nat) : Act := fun s =>
  if s.rd (Ob.slotState n) != 1 || !(s.ringS n).kept then .error Abort.state else .ok (s.dropRing n)

/-- RELEASE_RING. -/
def execReleaseRing (t : Nat) (n : Fin 64) (s : State) : Outcome := .next (s.serve t (releaseRing n))

end Sys2Proof.Machine
end

