-- ==== Sys2Proof/Machine/Capture.lean ====
section
/-! DEFINITION. Record mode: chunks, captures and their records (spec/09_records.md R231-R236). -/

namespace Sys2Proof.Machine

open Sys2Proof

/-- Geometry of slot `n` as a number (R106, R231). -/
def State.geom (s : State) (n : Nat) : Nat := leNat (s.dom (Ob.slotGeometry n))

/-! Record Geometry (R231) -/
def recSamples (g : Nat) : Nat := 2 ^ (bits g 255 252 + 10)
def recDecim (g : Nat) : Nat := 2 ^ bits g 251 249
def recCapture (g : Nat) : Nat := bits g 248 247
def recUnits (g : Nat) : Nat := bits g 246 231
def recPre (g : Nat) : Nat := bits g 230 215
def recPost (g : Nat) : Nat := bits g 214 199
def recChunks (g : Nat) : Nat := bits g 198 167

/-- Channel rate numbers: fs of the channel is den / num. -/
def State.chanFs (s : State) (k : Nat) : Nat × Nat :=
  let j := s.rd (Ob.chanSourceLink k)
  (64000 * s.rd (Ob.linkLaneRate j) * s.rd (Ob.linkS j), 528 * s.rd (Ob.linkF j))

/-- T_chunk of slot `n` on channel `k` in u_T times den, and den. -/
def State.chunkSpan (s : State) (n k : Nat) : Nat × Nat :=
  let g := s.geom n
  let r := s.chanFs k
  (recSamples g * recDecim g * s.second * r.2, max 1 r.1)

/-- The body of a chunk's record (R232). -/
def State.chunkBody (s : State) (n k : Nat) (c : Chunk) (trigTime trigUnit : Nat) : Bytes :=
  let g := s.geom n
  let cplx := s.rd (Ob.chanConverterQ k) != 0xFF
  let rate := s.rd (Ob.chanChannelRate k) / recDecim g
  let h := c.num * recSamples g * 2 ^ 448 + c.samples.length * 2 ^ 432 + k * 2 ^ 424 + bits g 251 249 * 2 ^ 420 + b2n cplx * 2 ^ 418
    + b2n c.sat * 2 ^ 417 + trigTime * 2 ^ 288 + trigUnit * 2 ^ 280 + rate * 2 ^ 216
  leBytes 64 h ++ c.samples.flatMap fun w => leBytes (if cplx then 4 else 2) w

/-- A chunk's record; `fl` are CaptureStart and CaptureEnd. -/
def State.chunkRec (s : State) (n k : Nat) (c : Chunk) (trigTime trigUnit fl : Nat) : Rec :=
  { kind := 7, slot := n, epoch := c.epoch, time := s.stamp c.tag, flags := c.flags + fl, input := k
    body := s.chunkBody n k c trigTime trigUnit }

/-- L_k of a triggered capture (R234), chunks. -/
def State.lookLen (s : State) (n k : Nat) : Nat :=
  let g := s.geom n
  let h := (bitsSet 16 (recUnits g)).foldl (fun m u => max m (s.rd (Ob.patHorizon u))) 0
  let t := s.chunkSpan n k
  recPre g + 2 + ceilDiv ((h * 1000000000 + 8 * s.second) * t.2) (t.1 * 1000000000)

/-- A retained window covers a chunk of a channel of a slot. -/
def covers (w : Nat × Nat × Nat × Nat × Nat) (k num : Nat) : Bool := w.1 == k && decide (w.2.1 ≤ num) && decide (num ≤ w.2.2.1)

/-- The earliest trigger that retains a chunk: t_trig and unit. -/
def earliest : List (Nat × Nat × Nat × Nat × Nat) → Option (Nat × Nat)
  | [] => none
  | w :: l => match earliest l with
    | some b => if b.1 < w.2.2.2.1 then some b else some (w.2.2.2.1, w.2.2.2.2)
    | none => some (w.2.2.2.1, w.2.2.2.2)

/-- A chunk of channel `k` of slot `n` leaves the lookback area: if a window retains it, it is copied into the ring, with the earliest of its triggers and
the ends of its run (R234). -/
def State.lookLeave (s : State) (n k : Nat) (c : Chunk) : State :=
  let key := n * 64 + k
  let ws := (s.ringS (s.ringOwner n)).retain
  match earliest (ws.filter fun w => covers w key c.num) with
  | none => s
  | some (tt, u) =>
    let first := c.num == 0 || !(ws.any fun w => covers w key (c.num - 1))
    let last := !(ws.any fun w => covers w key (c.num + 1))
    s.queueRecord n (s.chunkRec n k c (s.stamp tt) u (b2n first * 2 ^ 10 + b2n last * 2 ^ 9))

/-- Lookback chunks of channel `k` of slot `n` beyond the newest `m` leave the area (R234): by then every trigger that could retain them, or lengthen
their run, has been evaluated (DEDUCED, log entry 152); windows that reach no later chunk go. -/
def State.lookTrim (s : State) (n k m : Nat) : State :=
  let nb := s.ringOwner n
  let x := s.ringS nb
  let key := n * 64 + k
  let mine := x.look.filter fun e => e.1 == key
  let out := mine.take (mine.length - m)
  let s1 := out.foldl (fun s e => s.lookLeave n k e.2) s
  let done := (out.getLast?).map fun e => e.2.num
  s1.setRing nb { s1.ringS nb with
    look := (x.look.filter fun e => e.1 != key) ++ mine.drop (mine.length - m)
    retain := x.retain.filter fun w => w.1 != key || (match done with
      | some d => decide (d ≤ w.2.2.1)
      | none => true) }

/-- The lookback area of slot `n` at its end: what is retained is copied. -/
def State.lookFlush (s : State) (n : Nat) : State := (bitsSet 64 (s.rd (Ob.slotChannelMask n))).foldl (fun s k => s.lookTrim n k 0) s

/-- A chunk of channel `k` is complete (R231, R234, R235). -/
def State.chunkDone (s : State) (n k : Nat) (c : Chunk) : State :=
  let g := s.geom n
  let nb := s.ringOwner n
  let x := s.ringS nb
  if recCapture g = 0 then s.queueRecord n (s.chunkRec n k c 0 0xFF 0)
  else if recCapture g = 1 then
    let late := match x.rearmAt with
      | some T => decide (c.tag < T)
      | none => false
    let have' := tget (dconst 0) x.chunks (n * 64 + k)
    if s.rd (Ob.slotCaptureState nb) != 1 || late || decide (recChunks g ≤ have') then s
    else
      let fl := b2n (have' == 0) * 2 ^ 10 + b2n (have' + 1 == recChunks g) * 2 ^ 9
      (s.setRing nb { x with chunks := tset (dconst 0) x.chunks (n * 64 + k) (have' + 1) }).queueRecord n (s.chunkRec n k c 0 0xFF fl)
  else (s.setRing nb { x with look := x.look ++ [(n * 64 + k, c)] }).lookTrim n k (s.lookLen n k)

/-- A complete chunk by its tag (R67, R231): one on the far side of an ending slot's boundary, of a Successor before its switch or in a
declared gap gives nothing; one past an armed boundary carries the new epoch. -/
def State.chunkGate (s : State) (n k : Nat) (c : Chunk) : State :=
  match s.gate n k c.tag with
  | .live => s.chunkDone n k { c with epoch := s.rd (Ob.slotEpoch n) }
  | .wait => if s.rd (Ob.slotState n) = 6 then s.chunkDone n k { c with epoch := s.rd (Ob.slotEpoch n) }
    else if s.active n then s.chunkDone n k { c with epoch := s.nextEpoch n } else s
  | _ => s

/-- An output sample of channel `k` enters its chunk. -/
def State.chunkSample (s : State) (n k st w flags : Nat) (sat : Bool) : State :=
  let g := s.geom n
  let p := s.pipeS n
  let c0 : Chunk := match tget (dconst none) p.chunk k with
    | some c => c
    | none => { num := tget (dconst 0) p.capIdx k / (recSamples g * recDecim g), tag := st, epoch := s.rd (Ob.slotEpoch n) }
  let c : Chunk := { c0 with flags := c0.flags ||| flags, sat := c0.sat || sat, samples := c0.samples ++ [w] }
  if c.samples.length < recSamples g then s.setPipe n { p with chunk := tset (dconst none) p.chunk k (some c) }
  else (s.setPipe n { p with chunk := tset (dconst none) p.chunk k none }).chunkGate n k c

/-- A component of a decimated sample (R233): the filter's value, free up to twice full scale, clamped, and whether it was. -/
def decimated (v : Nat) : Nat × Bool :=
  let x : Int := ((v % 131071 : Nat) : Int) - 65535
  (uint 16 (clampI (-32767) 32767 x), decide (32767 < x.natAbs))

/-- An input sample of channel `k` for the Record pipeline of slot `n` (R232, R233): sample 0 is the first at or after AdmittedAt; the
output of the half-band cascade is a free value (log entry 22). -/
def State.capSample (s : State) (n k st w flags : Nat) : State :=
  let r := recDecim (s.geom n)
  let p := s.pipeS n
  let i := tget (dconst 0) p.capIdx k
  let cplx := s.rd (Ob.chanConverterQ k) != 0xFF
  if st < s.unstamp (s.rd (Ob.slotAdmittedAt n)) then s
  else
    let s1 := if r = 1 then s.chunkSample n k st w flags false
      else if i % r = 0 then
        let a := s.free 233
        let b := a.2.free 233
        let i := decimated a.1
        let q := decimated b.1
        b.2.chunkSample n k st (i.1 + (if cplx then q.1 * 65536 else 0)) flags (i.2 || (cplx && q.2))
      else s
    s1.setPipe n { s1.pipeS n with capIdx := tset (dconst 0) p.capIdx k (i + 1) }

/-- A block of channel `k` written to the Polder reaches the Record pipelines that own the channel. Flags as the record header's. -/
def State.captureBlock (s : State) (k : Nat) (b : PBlock) : State :=
  let fl := b.flags % 16 + b2n (bit b.flags 4) * 2 ^ 15
  ((s.chanOwners k).filter fun n => s.rd (Ob.slotMode n) == 4).foldl (fun s n =>
    b.samples.foldl (fun s x => s.capSample n k x.1 x.2 fl) s) s

/-- A record trigger of pattern unit `u` at t_trig (R234): every triggered capture whose TriggerUnits names the unit retains chunks
k0 - PreChunks to k0 + PostChunks of every channel. -/
def State.recordTrigger (s : State) (u tt : Nat) : State :=
  ((List.range 64).filter fun n => s.active n && s.rd (Ob.slotMode n) == 4 && recCapture (s.geom n) == 2 && bit (recUnits (s.geom n)) u).foldl
    (fun s n =>
      let g := s.geom n
      let nb := s.ringOwner n
      let p := s.pipeS n
      let x := s.ringS nb
      let windows := (bitsSet 64 (s.rd (Ob.slotChannelMask n))).filterMap fun k =>
        -- the chunk whose span holds t_trig, from the first stamp of a chunk that is known
        let known : Option (Nat × Nat) := match tget (dconst none) p.chunk k with
          | some c => some (c.num, c.tag)
          | none => ((x.look.filter fun l => l.1 == n * 64 + k).getLast?).map fun l => (l.2.num, l.2.tag)
        match known with
        | none => none
        | some (num, tag) =>
          let t := s.chunkSpan n k
          let back := ceilDiv ((tag - tt) * t.2) t.1
          let k0 := if tag ≤ tt then num + (tt - tag) * t.2 / t.1 else num - back
          if tag > tt ∧ num < back then none
          else some (n * 64 + k, k0 - recPre g, k0 + recPost g, tt, u)
      s.setRing nb { x with retain := x.retain ++ windows }) s

/-- A bounded capture is complete when every channel's last chunk has been committed (R235). -/
def State.captureEnd (s : State) (n : Nat) : State :=
  let nb := s.ringOwner n
  let x := s.ringS nb
  let g := s.geom n
  let chs := bitsSet 64 (s.rd (Ob.slotChannelMask n))
  if s.rd (Ob.slotMode n) == 4 && recCapture g == 1 && s.rd (Ob.slotCaptureState nb) == 1 && (s.pipeS n).recQ.isEmpty && s.rd (Ob.slotState n) != 4
      && chs.all fun k => decide (recChunks g ≤ tget (dconst 0) x.chunks (n * 64 + k)) then s.wr (Ob.slotCaptureState nb) 2
  else s

/-- RECORD_COMPLETE (R226): the record of slot `n` that is first in commit order is offered and written or dropped. -/
def execRecordComplete (t : Nat) (n : Fin 64) (s : State) : Outcome :=
  let s := s.advance t
  let p := s.pipeS n
  .next (match p.recQ with
    | [] => s
    | r :: rest =>
      let s1 := s.setPipe n { p with recQ := rest, damaged := false }
      (s1.completeRecord n (if p.damaged then { r with flags := setBit r.flags 15 true } else r)).captureEnd n)

/-- Rearm (R235). -/
def rearm (n : Nat) : Act := fun s =>
  let nb := s.ringOwner n
  let x := s.ringS nb
  if s.rd (Ob.slotCaptureState nb) != 2 || (x.consumers.any fun c => !c.queue.isEmpty) then .error Abort.state
  else .ok ((s.setRing nb { x with chunks := [], rearmAt := some (s.devNow + s.us 100) }).wr (Ob.slotCaptureState nb) 1)

/-- REARM. -/
def execRearm (t : Nat) (n : Fin 64) (s : State) : Outcome := .next (s.serve t (rearm n))

end Sys2Proof.Machine
end

