-- ==== Sys2Proof/Machine/Logp.lean ====
section
/-! DEFINITION. logp16: 640 * log10 of a power ratio, to the nearest count, halves up (spec/00_scope.md R16, spec/03_ingest.md R93, spec/04_spectrum.md R113), decided by exact integer powers. -/

namespace Sys2Proof.Machine

/-- Is 640 * log10(num / den) at least v - 1/2? It is when (num/den)^1280 is at least 10^(2v - 1). -/
def logGe (num den : Nat) (v : Int) : Bool :=
  let e := 2 * v - 1
  if 0 ≤ e then decide (den ^ 1280 * 10 ^ e.toNat ≤ num ^ 1280)
  else decide (den ^ 1280 ≤ num ^ 1280 * 10 ^ (-e).toNat)

/-- The largest v in lo..hi with logGe, given that it holds at lo. -/
def logSearch (num den : Nat) : Nat → Int → Int → Int
  | 0, lo, _ => lo
  | fuel + 1, lo, hi =>
    if hi ≤ lo then lo
    else
      let mid := Int.fdiv (lo + hi + 1) 2
      if logGe num den mid then logSearch num den fuel mid hi else logSearch num den fuel lo (mid - 1)

/-- logp16 of num / den as its 16-bit word: 0x8000 for zero power, clamped to -32,767..+32,767. -/
def logp16 (num den : Nat) : Nat :=
  if num = 0 then 0x8000 else uint 16 (logSearch num den 17 (-32767) 32767)

/-- The rank of a logp16 word: 0x8000 lies below every other value (R117). -/
def logRank (w : Nat) : Int := sint 16 w

end Sys2Proof.Machine
end

