-- ==== Sys2Proof/Machine/Ingest.lean ====
section
/-! DEFINITION. Ingest links, sample presentation, the level chain and the Polder (spec/03_ingest.md R79-R102; spec/05_triggers.md R140, R580, R581). -/

namespace Sys2Proof.Machine

open Sys2Proof

/-! ### Links -/

def State.linkS (s : State) (j : Nat) : LinkState := tget (dconst ({} : LinkState)) s.link j
def State.setLink (s : State) (j : Nat) (x : LinkState) : State := { s with link := tset (dconst ({} : LinkState)) s.link j x }

/-- 64,000 * LaneRate * S, the denominator of what follows; LaneRate in kb/s. -/
def State.linkDen (s : State) (j : Nat) : Nat := 64000 * s.rd (Ob.linkLaneRate j) * s.rd (Ob.linkS j)

/-- 1 / fs in seconds is this over linkDen (R80). -/
def State.sampleNum (s : State) (j : Nat) : Nat := 66 * 8 * s.rd (Ob.linkF j)

/-- The LEMC period in seconds is this over linkDen (R80). -/
def State.lemcNum (s : State) (j : Nat) : Nat := 256 * s.rd (Ob.linkE j) * 8 * 66 * s.rd (Ob.linkS j)

/-- fs in samples per second, rounded down. -/
def State.linkFs (s : State) (j : Nat) : Nat := s.linkDen j / max 1 (s.sampleNum j)

/-- The parameters satisfy R79 and R80. -/
def State.linkParams (s : State) (j : Nat) : Bool :=
  let L := s.rd (Ob.linkLaneCount j)
  let M := s.rd (Ob.linkM j)
  let F := s.rd (Ob.linkF j)
  let S := s.rd (Ob.linkS j)
  let N := s.rd (Ob.linkN j)
  let np := s.rd (Ob.linkNPrime j)
  let cs := s.rd (Ob.linkCS j)
  let E := s.rd (Ob.linkE j)
  let lr := s.rd (Ob.linkLaneRate j)
  decide (1 ≤ L) && decide (L ≤ 16) && decide (1 ≤ M) && decide (M ≤ 16) && decide (1 ≤ F) && decide (F ≤ 256) && decide (1 ≤ S) && decide (S ≤ 32)
  && decide (12 ≤ N) && decide (N ≤ 16) && (np == 12 || np == 16) && decide (cs ≤ 3) && decide (1 ≤ E) && decide (E ≤ 16)
  && decide (6000000 ≤ lr) && decide (lr ≤ 32500000)
  && M * S * np == 8 * F * L && 256 * E % F == 0 && decide (N + cs ≤ np) && (N != 16 || cs == 0)
  && decide (s.linkDen j ≤ 32000000000 * s.sampleNum j)

/-- The lanes of a link. -/
def State.lanesOf (s : State) (j : Nat) : List Nat :=
  (s.dom (Ob.linkLaneMap j)).map fun b => b.toNat

/-- LaneMap has L distinct entries in the link's group (R20), none used by another applied link. -/
def State.laneMapOk (s : State) (j : Nat) : Bool :=
  let l := s.lanesOf j
  l.length == s.rd (Ob.linkLaneCount j) && decide l.Nodup && l.all (fun q => decide (q < 64) && (decide (q < 32) == decide (j < 8)))
  && l.all fun q => (List.range 16).all fun i => i == j || !((s.linkS i).applied && (s.lanesOf i).contains q)

/-- SREF_OUT[SysrefSource] is enabled with a period that is a whole multiple of the LEMC period (R81). -/
def State.sysrefOk (s : State) (j : Nat) : Bool :=
  s.rd (Ob.linkSubclass j) != 1 ||
    (let c := s.rd (Ob.clkSrefConfig (s.rd (Ob.linkSysrefSource j)))
     bit c 63 && 128 * bits c 47 16 * s.linkDen j % max 1 (s.second * s.lemcNum j) == 0)

/-- BlockFill + FixedPath (R86), u_T. -/
def State.pathLatency (s : State) (j : Nat) : Nat :=
  ceilDiv (32 * s.second * s.sampleNum j) (s.linkDen j) + ceilDiv (16 * s.second) 1000000000

/-- FixedPath alone. -/
def State.fixedPath (s : State) : Nat := ceilDiv (16 * s.second) 1000000000

/-- AlignLatency of a link as R580 takes it, u_T. -/
def State.alignOf (s : State) (j : Nat) : Nat :=
  if 16 ≤ j ∨ s.rd (Ob.linkLaneCount j) = 0 then s.fixedPath
  else if s.rd (Ob.linkLinkState j) = 4 then s.rd (Ob.linkAlignLatency j)
  else match (s.linkS j).lastAlign with
    | some a => a
    | none => (s.linkS j).release + s.pathLatency j

/-- L_line of a level condition on channel `k` (R580). -/
def State.levelLine (s : State) (k : Nat) : Nat :=
  s.alignOf (s.rd (Ob.chanSourceLink k)) + ceilDiv (40 * s.second) 1000000000

/-- The smallest time between rising edges of a level condition: two intervals, in u_T (log entry 21). -/
def State.levelSpacing (s : State) (k : Nat) : Nat :=
  let c := s.chanS k
  let j := s.rd (Ob.chanSourceLink k)
  let n := if c.mode = 1 then c.length else c.interval
  if j < 16 then 2 * n * s.second * s.sampleNum j / max 1 (s.linkDen j) else 0

/-- The channels mapped to link `j`. -/
def State.mapped (s : State) (j : Nat) : List Nat := (List.range 64).filter fun k => s.rd (Ob.chanSourceLink k) == j

/-- The line of channel `k` takes the L_line of R580, with CondLatency. -/
def State.levelSource (s : State) (k : Nat) : State :=
  let l := s.rd (Ob.chanCondLine k)
  if l < 256 then
    (s.setSource l 2 k (s.levelLine k) (s.levelSpacing k)).wr (Ob.chanCondLatency k) (s.levelLine k)
  else s.wr (Ob.chanCondLatency k) 0

/-- The lines of the channels of link `j` take their L_line. -/
def State.levelSources (s : State) (j : Nat) : State :=
  ((s.mapped j).foldl (fun s k => if s.rd (Ob.chanCondLine k) < 256 then s.levelSource k else s) s).refreshFabric

/-- The rates that follow a link's parameters: SampleRate, and ChannelRate of its channels (R88). -/
def State.linkRates (s : State) (j : Nat) : State :=
  let fs := s.linkFs j
  (s.mapped j).foldl (fun s k => s.wr (Ob.chanChannelRate k) (if s.rd (Ob.chanConverterQ k) = 0xFF then fs else 2 * fs))
    (s.wr (Ob.linkSampleRate j) fs)

/-- Apply of a link (R81). -/
def linkApply (j : Nat) : Act := fun s =>
  if s.linkOwned j then .error Abort.state
  else if s.rd (Ob.linkLaneCount j) = 0 then
    let s1 := (s.setLink j { applyResult := some 0 }).wrs [(Ob.linkLinkState j, 0), (Ob.linkAlignLatency j, 0)]
    .ok ((s1.mapped j).foldl (fun s k => s.wr (Ob.chanChannelRate k) 0) (s1.wr (Ob.linkSampleRate j) 0))
  else if !s.counts then .error Abort.state
  else
    let rel := s.rd (Ob.linkReleaseDelay j)
    let x := s.linkS j
    let y : LinkState := { applyResult := some 0, applied := true, release := rel }
    let s1 := ((s.setLink j y).wrs [(Ob.linkLinkState j, 1), (Ob.linkAlignLatency j, 0), (Ob.linkArrivalSpread j, 0),
      (Ob.linkArrivalMargin j, 0)]).linkRates j
    let s2 := if rel = 0 then s1 else s1.levelSources j
    if s.linkParams j && s.laneMapOk j && s.sysrefOk j && (rel == 0 || !s2.fabricBroken) then .ok s2
    else .ok (s.setLink j { x with applyResult := some 0x4F })

/-- LINK_APPLY. -/
def execLinkApply (t : Nat) (j : Fin 16) (s : State) : Outcome := .next (s.serve t (linkApply j))

/-- ClearCounters of a link (R81). -/
def linkClear (j : Nat) : Act := fun s =>
  .ok ((s.setLink j { s.linkS j with crcWas := 0 }).wrs [(Ob.linkCrcErrors j, 0), (Ob.linkLockLosses j, 0), (Ob.linkSubstitutedSamples j, 0),
    (Ob.linkArrivalMargin j, uint 32 (((s.linkS j).release : Int) - (s.linkS j).latest))])

/-- LINK_CLEAR_COUNTERS. -/
def execLinkClearCounters (t : Nat) (j : Fin 16) (s : State) : Outcome := .next (s.serve t (linkClear j))

/-- LINK_BLOCK_LOCK (R83). -/
def execLinkBlockLock (t : Nat) (j : Fin 16) (s : State) : Outcome :=
  let s := s.advance t
  .next (if s.rd (Ob.linkLinkState j) = 1 then s.wr (Ob.linkLinkState j) 2 else s)

/-- A lane's elastic buffer of 1,024 octets in u_T (R84). -/
def State.elastic (s : State) (j : Nat) : Nat := 1024 * 8 * 66 * s.second / max 1 (64000 * s.rd (Ob.linkLaneRate j))

/-- A release at `rel` after the LEMC edge aligns lanes that arrive between `lo` and `hi` (R84). -/
def State.aligns (s : State) (j rel lo hi : Nat) : Bool := decide (hi ≤ rel) && decide (rel ≤ lo + s.elastic j)

/-- LINK_MULTIBLOCK_LOCK (R83 step 4, R84, R87): the earliest and the latest lane arrival after the converter's LEMC edge, u_T; in
subclass 0 after the earliest lane. -/
def execLinkMultiblockLock (t : Nat) (j : Fin 16) (earliest latest : Nat) (s : State) : Outcome :=
  let s := s.advance t
  .next (if s.rd (Ob.linkLinkState j) != 2 then s
    else
      let sub0 := s.rd (Ob.linkSubclass j) == 0
      let lo := if sub0 then 0 else min earliest latest
      let hi := if sub0 then latest - earliest else max earliest latest
      let x := s.linkS j
      let chosen := x.release = 0
      let rel := if chosen then 256 * ceilDiv (hi + ceilDiv (8 * s.second) 1000000000) 256 else x.release
      let s1 := ((s.setLink j { x with release := rel, latest := hi }).wr (Ob.linkArrivalSpread j) ((hi - lo) % 2 ^ 32)).wr
        (Ob.linkLinkState j) 3
      let s2 := if chosen then s1.levelSources j else s1
      if !s.aligns j rel lo hi || (decide chosen && s2.fabricBroken) then
        (s.wr (Ob.linkArrivalSpread j) ((hi - lo) % 2 ^ 32)).wr (Ob.linkLinkState j) 6
      else s2)

/-- Level settings and level conditions written take effect at an interval boundary whose condition time is `tb` (R95, R140); under new settings
no output is valid yet (R94). -/
def State.levelSettle (s : State) (k tb : Nat) : State :=
  let c := s.chanS k
  let old := c.condLine
  let c1 := { c with
    condLine := s.rd (Ob.chanCondLine k), condSource := s.rd (Ob.chanCondSource k)
    condHigh := s.rd (Ob.chanCondHigh k), condLow := s.rd (Ob.chanCondLow k) }
  let c2 := if c.written95 then { c1 with
      written95 := false
      length := s.rd (Ob.chanLevelLength k), mode := s.rd (Ob.chanLevelMode k), interval := s.rd (Ob.chanLevelInterval k)
      attack := s.rd (Ob.chanEnvAttack k), release := s.rd (Ob.chanEnvRelease k)
      window := [], freshN := 0 } else c1
  let s1 := if c.written95 then (s.setChan k c2).wr (Ob.chanFlags k) (setBit (s.rd (Ob.chanFlags k)) 7 false) else s.setChan k c2
  let s2 := if old < 256 && old != c2.condLine && (s1.lineS old).cls == 2 && (s1.lineS old).src == k then s1.endSource old tb else s1
  if old != c2.condLine || c.written95 then (s2.levelSource k).refreshFabric else s2

/-- The level chain of channel `k` counts from its next sample (R581): an interval starts there, with the settings written (R95). -/
def State.chainReset (s0 : State) (k : Nat) : State :=
  let s := s0.levelSettle k s0.devNow
  s.setChan k { s.chanS k with pos := 0, window := [], freshN := 0, peak := 0, clipLive := false, overLive := false, substIn := false }

/-- The quads whose lanes link `j` takes. -/
def State.quadsOf (s : State) (j : Nat) : List Nat := ((s.lanesOf j).map fun x => x / 4).dedup

/-- LINK_RELEASE (R83 step 5, R84, R86): every lane releases; Running. -/
def execLinkRelease (t : Nat) (j : Fin 16) (s : State) : Outcome :=
  let s := s.advance t
  .next (if s.rd (Ob.linkLinkState j) != 3 then s
    else
      let x := s.linkS j
      let al := x.release + s.pathLatency j
      let s1 := (s.setLink j { x with lastAlign := some al, tLemc := s.devNow - x.release, relinking := false }).wrs
        [(Ob.linkLinkState j, 4), (Ob.linkAlignLatency j, al), (Ob.linkArrivalMargin j, uint 32 ((x.release : Int) - x.latest))]
      ((s1.mapped j).foldl (fun s k => s.chainReset k) s1).quadsUp (s.quadsOf j))

/-- LINK_BRINGUP_TIMEOUT (R83, R100). -/
def execLinkBringupTimeout (t : Nat) (j : Fin 16) (s : State) : Outcome :=
  let s := s.advance t
  let st := s.rd (Ob.linkLinkState j)
  .next (if st = 1 ∨ st = 2 ∨ st = 3 ∨ st = 5 then (s.wr (Ob.linkLinkState j) 6).setLink j { s.linkS j with relinking := false } else s)

/-- A lane of a Running link loses lock (R100). The multiblock in which it does so counts no CRC mismatch (R102). -/
def State.lockLoss (s : State) (j : Nat) : State :=
  if s.rd (Ob.linkLinkState j) != 4 then s
  else
    let x := s.linkS j
    let s0 := if x.crcBad then s.wr (Ob.linkCrcErrors j) x.crcWas else s
    let s1 := (s0.setLink j { x with crcBad := false, crcSubst := false, relinking := s.rdB (Ob.linkAutoRelink j) }).calLinkLost j
    if s.rdB (Ob.linkAutoRelink j) then (s1.bump (Ob.linkLockLosses j)).wr (Ob.linkLinkState j) 5
    else s1.wr (Ob.linkLinkState j) 6

/-- MULTIBLOCK_RECEIVE (R100): the CRC-12 of the multiblock whose samples come next; `latest` is the latest lane arrival. A margin below 0 is a
loss of lock. -/
def execMultiblockReceive (t : Nat) (j : Fin 16) (crcOk : Bool) (latest : Nat) (s : State) : Outcome :=
  let s := s.advance t
  let x := s.linkS j
  .next (if s.rd (Ob.linkLinkState j) != 4 then s.setLink j { x with crcBad := false, crcSubst := false }
    else
      let bad := !crcOk && s.rdB (Ob.linkCrcCheck j)
      let m := (x.release : Int) - latest
      let s1 := if bad then s.bump (Ob.linkCrcErrors j) else s
      let s2 := if m < sint 32 (s.rd (Ob.linkArrivalMargin j)) then s1.wr (Ob.linkArrivalMargin j) (uint 32 m) else s1
      let s3 := s2.setLink j { x with
        latest := latest, crcBad := bad, crcSubst := bad && s.rd (Ob.linkCrcAction j) == 1, crcWas := s.rd (Ob.linkCrcErrors j) }
      if m < 0 then s3.lockLoss j else s3)

/-- LINK_LOCK_LOSS (R100). -/
def execLinkLockLoss (t : Nat) (j : Fin 16) (s : State) : Outcome := .next ((s.advance t).lockLoss j)

/-- LINK_RELINK_COMPLETE (R87, R100): the relink reaches a release point with the kept ReleaseDelay, or cannot meet it. -/
def execLinkRelinkComplete (t : Nat) (j : Fin 16) (earliest latest : Nat) (s : State) : Outcome :=
  let s := s.advance t
  .next (if s.rd (Ob.linkLinkState j) != 5 then s
    else
      let sub0 := s.rd (Ob.linkSubclass j) == 0
      let lo := if sub0 then 0 else min earliest latest
      let hi := if sub0 then latest - earliest else max earliest latest
      let x := s.linkS j
      if !s.aligns j x.release lo hi then (s.wr (Ob.linkLinkState j) 6).setLink j { x with relinking := false }
      else
        let s1 := (s.setLink j { x with latest := hi, relinking := false, lastAlign := some (x.release + s.pathLatency j),
                                        tLemc := if sub0 then s.devNow - x.release else x.tLemc }).wrs
          [(Ob.linkLinkState j, 4), (Ob.linkArrivalSpread j, (hi - lo) % 2 ^ 32), (Ob.linkArrivalMargin j, uint 32 ((x.release : Int) - hi))]
        ((s1.mapped j).foldl (fun s k => s.setChan k { s.chanS k with toBoundary := !(s.chanS k).partial64.isEmpty }) s1).quadsUp (s.quadsOf j))

/-! ### Samples -/

/-- The stamp of sample `i` of the converter's extended multiblock `em` (R85, R87), u_T rounded down. LemcOffset moves it in
subclass 1 only (DESIGN CHOICE, log entry 178). -/
def State.sampleStamp (s : State) (j em i : Nat) : Nat :=
  let k := s.rd (Ob.linkSysrefSource j)
  let base := if s.rd (Ob.linkSubclass j) = 1 then 128 * s.rd (Ob.clkSrefOffset k) + bits (s.rd (Ob.clkSrefConfig k)) 6 0
    else (s.linkS j).tLemc
  let off := if s.rd (Ob.linkSubclass j) = 1 then sint 32 (s.rd (Ob.linkLemcOffset j)) else 0
  ((base + s.second * (em * s.lemcNum j + i * s.sampleNum j) / max 1 (s.linkDen j) : Nat) + off : Int).toNat

/-- The left-justified code of an N'-bit converter word (R89): the top N bits, the most significant of them inverted for offset binary; control and
tail bits are left out. -/
def leftJustify (n np : Nat) (offsetBinary : Bool) (word : Nat) : Nat :=
  let c := word % 2 ^ np / 2 ^ (np - n)
  let c := if offsetBinary then (if bit c (n - 1) then c - 2 ^ (n - 1) else c + 2 ^ (n - 1)) else c
  c * 2 ^ (16 - n)

/-- Control bit `b` of an N'-bit converter word: the control bits follow the sample's least significant bit, bit 0 first. PRESUMED, log entry 147: R89
names no order. -/
def controlBit (n np b word : Nat) : Bool := decide (n + b < np) && bit word (np - n - 1 - b)

/-- A code is at full scale (R94). -/
def fullScale (n code : Nat) : Bool := code == 0x8000 || code == 0x8000 - 2 ^ (16 - n)

/-- Negated two's complement with -32,768 becoming +32,767 (R89). -/
def negSat (c : Nat) : Nat := if c = 0x8000 then 0x7FFF else (0x10000 - c) % 0x10000

/-- The presented sample (R89): r16, or c16 with the I-Q swap before the negation. -/
def present (cplx : Bool) (opts i q : Nat) : Nat :=
  if !cplx then i
  else
    let a := if bit opts 0 then q else i
    let b := if bit opts 0 then i else q
    (if bit opts 1 then negSat b else b) * 65536 + a

/-- p and a of a presented sample (R90). -/
def samplePower (cplx : Bool) (w : Nat) : Nat :=
  let i := (sint 16 w).natAbs
  let q := (sint 16 (w / 65536)).natAbs
  if cplx then i * i + q * q else i * i
def sampleMag (cplx : Bool) (w : Nat) : Nat := if cplx then isqrt (samplePower true w) else (sint 16 w).natAbs

/-- One step of the envelope (R93). -/
def envStep (attack release a eq : Nat) : Nat :=
  let d := (a : Int) * 256 - eq
  ((eq : Int) + (if 0 < d then asr d attack else asr d release)).toNat

/-- The length of the interval or block in force (R91, R92). -/
def ChanState.span (c : ChanState) : Nat := if c.mode = 1 then c.length else c.interval

/-- MeanSquare: the mean rounded to nearest, halves up; 0 with no sample (R91, R95). -/
def meanSquare (l : List Nat) : Nat := (2 * l.sum + l.length) / max 1 (2 * l.length)

/-- Is the channel complex? -/
def State.complex (s : State) (k : Nat) : Bool := s.rd (Ob.chanConverterQ k) != 0xFF

/-- Power in logp16 (R93). -/
def levelPower (cplx : Bool) (ms : Nat) : Nat := if cplx then logp16 ms 1073676289 else logp16 (2 * ms) 1073676289

/-- The level condition of channel `k` is decided by a valid output with LevelTime `tl` (R140). -/
def State.levelDecide (s : State) (k : Nat) (c : ChanState) (ms pk flags tl : Nat) : State :=
  if 256 ≤ c.condLine then s
  else
    let src := c.condSource % 16
    let v : Int := if src = 0 then sint 16 (levelPower (s.complex k) ms) else if src = 1 then pk else if src = 2 then ((c.envQ / 256 : Nat) : Int)
      else if src = 3 then (b2n (bit flags 0) : Int) else (b2n (bit flags 1) : Int)
    let hi : Int := if src < 3 then sint 16 c.condHigh else 1
    let lo : Int := if src < 3 then sint 16 c.condLow else 1
    let inv := bit c.condSource 7
    if !inv then
      if hi ≤ v then s.lineChange c.condLine tl true else if v < lo then s.lineChange c.condLine tl false else s
    else if v < lo then s.lineChange c.condLine tl true
    else if hi ≤ v then s.lineChange c.condLine tl false else s

/-- An interval or block ends (R91, R92, R95): outputs, Flags, the level condition, then the settings written. -/
def State.levelEnd (s : State) (k : Nat) : State :=
  let c := s.chanS k
  let ms := meanSquare c.window
  let valid := decide (c.length ≤ c.freshN) && (c.mode == 0 || !c.substIn)
  let old := s.rd (Ob.chanFlags k)
  let f1 := setBit (setBit (setBit old 7 valid) 1 c.overLive) 0 c.clipLive
  let flags := setBit (setBit f1 4 (bit f1 4 || c.overLive)) 3 (bit f1 3 || c.clipLive)
  let s1 := s.wrs [(Ob.chanMeanSquare k, ms), (Ob.chanPower k, levelPower (s.complex k) ms), (Ob.chanRms k, isqrt ms), (Ob.chanPeak k, c.peak),
    (Ob.chanEnvelope k, c.envQ / 256), (Ob.chanLevelTime k, s.stamp c.lastStamp), (Ob.chanFlags k, flags)]
  let s2 := if valid then s1.levelDecide k c ms c.peak flags c.lastStamp else s1
  let c1 := { s2.chanS k with pos := 0, peak := 0, clipLive := false, overLive := false, substIn := false }
  let c2 := if c.mode = 1 then { c1 with window := [], freshN := 0 } else c1
  (s2.setChan k c2).levelSettle k c.lastStamp

/-- An interval whose samples are all taken ends before a write that comes then: the write takes effect at the boundary after the one now
passed (R102). -/
def State.levelDue (s : State) (k : Nat) : State :=
  if (s.chanS k).span ≤ (s.chanS k).pos ∧ (s.chanS k).pos ≠ 0 then s.levelEnd k else s

/-- LEVEL_INTERVAL_END (R91). -/
def execLevelIntervalEnd (t : Nat) (ch : Fin 64) (s : State) : Outcome :=
  let s := s.advance t
  .next (s.levelDue ch)

/-- A sample enters the level chain (R90-R95): `w` presented, stamp `st`. -/
def State.levelSample (s : State) (k w st : Nat) (subst ovr clip : Bool) : State :=
  let s0 := s.levelDue k
  let c := s0.chanS k
  let cplx := s0.complex k
  let a := sampleMag cplx w
  let env := if subst then c.envQ else envStep c.attack c.release a c.envQ
  match c.restartAt with
  | some T =>
    if st < T then s0.setChan k { c with envQ := env, lastStamp := st }
    else
      let s1 := (s0.setChan k { c with restartAt := none, envQ := env }).levelSettle k st
      let d := s1.chanS k
      s1.setChan k { d with
        pos := 1, lastStamp := st, substIn := subst, clipLive := clip, overLive := ovr
        window := if subst then [] else [samplePower cplx w]
        freshN := if subst then 0 else 1, peak := if subst then 0 else a }
  | none =>
    s0.setChan k { c with
      pos := c.pos + 1, lastStamp := st, envQ := env, substIn := c.substIn || subst
      clipLive := c.clipLive || clip, overLive := c.overLive || ovr
      window := if subst then (if c.mode = 1 then c.window else [])
        else if c.mode = 1 then samplePower cplx w :: c.window else (samplePower cplx w :: c.window).take c.length
      freshN := if subst then (if c.mode = 1 then c.freshN else 0) else min (c.freshN + 1) c.length
      peak := if subst then c.peak else max c.peak a }

/-- Samples of a 64-byte block: 32 r16 or 16 c16. -/
def State.blockSamples (s : State) (k : Nat) : Nat := if s.complex k then 16 else 32

/-- A sample of a written channel enters the block being filled (R97, R100). -/
def State.polderSample (s : State) (k w st : Nat) (hot : Bool) (flags : Nat) : State :=
  if (s.chanOwners k).isEmpty then s
  else
    let c := s.chanS k
    let part := c.partial64 ++ [(st, w)]
    let fl := c.blockFlags ||| flags
    let hots := if hot then c.partialHot ++ [c.partial64.length] else c.partialHot
    if part.length < s.blockSamples k then s.setChan k { c with partial64 := part, partialHot := hots, blockFlags := fl }
    else s.setChan k { c with
      partial64 := [], partialHot := [], blockFlags := 0, toBoundary := false
      filled := c.filled ++ [{ tag := (part.headD (0, 0)).1, flags := fl, samples := part, hot := hots }] }

/-- Samples of link `j` are delivered: Running, Substituting, or Failed with owning pipelines (R82, R100). -/
def State.delivers (s : State) (j : Nat) : Bool :=
  let st := s.rd (Ob.linkLinkState j)
  st == 4 || st == 5 || (st == 6 && (s.linkS j).lastAlign.isSome && s.linkOwned j)

/-- A delivered sample counts (R94, R100): clipping, over-range, substitution not by a calibration, and the sticky flags. -/
def State.countSample (s : State) (k j : Nat) (clip ov subst crc : Bool) : State :=
  let s1 := if clip then s.wr (Ob.chanClipCount k) ((s.rd (Ob.chanClipCount k) + 1) % 2 ^ 32) else s
  let s2 := if ov then s1.wr (Ob.chanOverrangeCount k) ((s1.rd (Ob.chanOverrangeCount k) + 1) % 2 ^ 32) else s1
  let s3 := if subst && !(s.chanS k).calSubst then s2.bumpBy (Ob.linkSubstitutedSamples j) (if s.complex k then 2 else 1) else s2
  let f := s3.rd (Ob.chanFlags k)
  s3.wr (Ob.chanFlags k) (setBit (setBit f 6 (bit f 6 || crc)) 5 (bit f 5 || subst))

/-- INGEST_SAMPLE (R85, R89, R94, R100): sample `i` of extended multiblock `em` of channel `ch`: the N'-bit words of its converters, each the
sample, its control bits and its tail bits. -/
def execIngestSample (t : Nat) (ch : Fin 64) (em i wordI wordQ : Nat) (s : State) : Outcome :=
  let s := s.advance t
  let k := ch.val
  let j := s.rd (Ob.chanSourceLink k)
  .next (if 16 ≤ j || !s.delivers j then s
    else
      let c := s.chanS k
      let x := s.linkS j
      let st := s.sampleStamp j em i
      let n := s.rd (Ob.linkN j)
      let opts := s.rd (Ob.chanOptions k)
      let cplx := s.complex k
      let linkSub := s.rd (Ob.linkLinkState j) != 4
      let subst := linkSub || x.crcSubst || c.toBoundary || c.calSubst
      let np := s.rd (Ob.linkNPrime j)
      let ob := s.rd (Ob.chanOverrangeBit k)
      let ci := leftJustify n np (bit opts 2) wordI
      let cq := leftJustify n np (bit opts 2) wordQ
      let clip := !subst && (fullScale n ci || (cplx && fullScale n cq))
      let ov := !subst && decide (ob < s.rd (Ob.linkCS j)) && (controlBit n np ob wordI || (cplx && controlBit n np ob wordQ))
      let crc := x.crcBad && !linkSub
      let w := if subst then 0 else present cplx opts ci cq
      (((s.countSample k j clip ov subst crc).calSample k st (present cplx opts ci cq)).levelSample k w st subst ov clip).polderSample k w st (clip || ov) (8 * b2n ov + 4 * b2n clip + 2 * b2n subst + b2n crc))

/-! ### Commands of the level chain -/

/-- DumpRestart (R92): the interval in progress is abandoned, Valid is clear; the grid starts at the first sample with stamp at or after T. -/
def dumpRestart (k T : Nat) : Act := fun s =>
  .ok ((s.setChan k { s.chanS k with
    restartAt := some (s.unstamp T), pos := 0, window := [], freshN := 0, peak := 0, clipLive := false, overLive := false, substIn := false }).wr
      (Ob.chanFlags k) (setBit (s.rd (Ob.chanFlags k)) 7 false))

/-- DUMP_RESTART. -/
def execDumpRestart (t : Nat) (ch : Fin 64) (time : Nat) (s : State) : Outcome := .next (s.serve t (dumpRestart ch time))

/-- One entry of SnapshotData (R95). -/
def State.snapEntry (s : State) (k : Nat) : Bytes :=
  leBytes 16 (s.rd (Ob.chanFlags k) * 2 ^ 96 + s.rd (Ob.chanEnvelope k) * 2 ^ 80 + s.rd (Ob.chanPeak k) * 2 ^ 64 + s.rd (Ob.chanRms k) * 2 ^ 48
    + s.rd (Ob.chanPower k) * 2 ^ 32 + s.rd (Ob.chanMeanSquare k))

/-- Snapshot (R95). -/
def levelSnapshot : Act := fun s =>
  .ok (((s.noted Ob.levelSnapshot).wr Ob.levelSnapshotTime s.stampNow).setDom Ob.levelSnapshotData ((List.range 64).flatMap fun k => s.snapEntry k))

/-- LEVEL_SNAPSHOT. -/
def execLevelSnapshot (t : Nat) (s : State) : Outcome := .next (s.serve t levelSnapshot)

/-- ClearSticky (R94, R95): bit k clears the sticky flags of channel k. -/
def clearSticky (mask : Nat) : Act := fun s =>
  if 2 ^ 64 ≤ mask then .error Abort.range
  else .ok ((bitsSet 64 mask).foldl (fun s k => s.wr (Ob.chanFlags k) (s.rd (Ob.chanFlags k) &&& 0x87)) s)

/-- CLEAR_STICKY. -/
def execClearSticky (t mask : Nat) (s : State) : Outcome := .next (s.serve t (clearSticky mask))

/-- The level chain of a channel runs: its intervals end. -/
def State.chainRuns (s : State) (k : Nat) : Bool := decide (s.rd (Ob.chanSourceLink k) < 16) && s.delivers (s.rd (Ob.chanSourceLink k))

/-- Condition line `l` has a source other than channel `k` (R140). -/
def State.lineTaken (s : State) (l k : Nat) : Bool :=
  (s.lineS l).cls != 0 && !((s.lineS l).cls == 2 && (s.lineS l).src == k)

/-- A line that a CondLine write named, and that no boundary has put in force, loses the channel as its source. -/
def State.unname (s : State) (k v : Nat) : State :=
  let l := s.rd (Ob.chanCondLine k)
  if l < 256 ∧ l ≠ v ∧ l ≠ (s.chanS k).condLine then s.endSource l s.devNow else s

/-- A setting of the level condition of channel `k` applies at once while no chain runs, else at the chain's next boundary (R140). -/
def State.levelApplied (s : State) (k : Nat) : State := if s.chainRuns k then s else s.levelSettle k s.devNow

/-- A write to :16 to :19 of channel `k` (R140). -/
def levelConditionWrite (k sub v : Nat) : Act := fun s0 =>
  let s := s0.levelDue k
  if sub = 0x16 then
    if v != 0xFFFF && decide (256 ≤ v) then .error Abort.range
    else if v < 256 && s.lineTaken v k then .error Abort.state
    else
      let s1 := ((((s.unname k v).wr (Ob.chanCondLine k) v).levelSource k)).refreshFabric
      if v < 256 && (s1.fabricBroken || s1.exportBreak.isSome) then .error Abort.range
      else .ok (s1.levelApplied k)
  else if sub = 0x17 then
    if bits v 6 4 != 0 || decide (4 < v % 16) || decide (256 ≤ v) then .error Abort.range
    else
      let s1 := s.wr (Ob.chanCondSource k) v
      .ok (s1.levelApplied k)
  else if sub = 0x18 ∨ sub = 0x19 then
    let hi := if sub = 0x18 then v % 65536 else s.rd (Ob.chanCondHigh k)
    let lo := if sub = 0x19 then v % 65536 else s.rd (Ob.chanCondLow k)
    if sint 16 hi < sint 16 lo then .error Abort.range
    else
      let s1 := s.wrs [(Ob.chanCondHigh k, hi), (Ob.chanCondLow k, lo)]
      .ok (s1.levelApplied k)
  else .error Abort.noSub

/-- LEVEL_CONDITION_WRITE. -/
def execLevelConditionWrite (t : Nat) (ch : Fin 64) (sub value : Nat) (s : State) : Outcome :=
  .next (s.serve t (levelConditionWrite ch sub value))

/-! ### The Polder (R96-R99) -/

/-- The position in a channel's ring up to which consumer `c` has drained. -/
def State.drainTo (s : State) (k slot stage pos : Nat) : State :=
  let c := s.chanS k
  s.setChan k { c with consumers := c.consumers.map fun x =>
    if x.slot = slot ∧ x.stage = stage then { x with readPos := max x.readPos pos } else x }

/-- What Record pipelines draw from a channel is drained with the block that brings it (R233). -/
def State.drainRecord (s : State) (k : Nat) : State :=
  let c := s.chanS k
  s.setChan k { c with consumers := c.consumers.map fun x => if s.rd (Ob.slotMode x.slot) = 4 then { x with readPos := c.written } else x }

/-- A consumer whose fill exceeds its bound is detached (R99): a fault of the clusters whose engines drain it, or for the record drain of
the pseudo-channel it was writing. DEDUCED (log entry 165): no gap follows the freeze of a pseudo-channel, so the record drain goes on at the write
position at once. -/
def State.detachDrain (s : State) (k : Nat) (x : Consumer) : State :=
  let c := s.chanS k
  let s1 := s.setChan k { c with consumers := c.consumers.map fun y =>
    if y.slot = x.slot ∧ y.stage = x.stage then (if x.stage = 255 then { y with readPos := c.written } else { y with detached := true }) else y }
  if x.stage = 255 then
    let n := s1.ringOwner x.slot
    let r := s1.ringS n
    match s1.physOf (s1.pcOf (r.addr (s1.rd (Ob.slotWritePos n)) / 2097152 * 2097152)) with
    | some q => s1.freeze q 0 0 0
    | none => s1
  else
    let es := ((s1.slot x.slot).placement.engines.filter fun e => e.stage == x.stage && s1.drains x.slot e.channel k).map fun e => e.physical
    ((es.map fun e => e / 17).dedup).foldl (fun s cl => s.clusterFault cl 5 cl (es.filter fun e => e / 17 == cl)) s1

/-- A block enters the share of a channel (R97). -/
def ChanState.blockIn (c : ChanState) (b : PBlock) (rest : List PBlock) : ChanState :=
  { c with filled := rest, written := c.written + 64, ring := (c.ring ++ [b]).drop (c.ring.length + 1 - max 1 (64 * c.granules)) }

/-- Consumers of a share that lie further back than their bound are detached (R99). -/
def State.lateDrains (s : State) (k : Nat) (c : ChanState) : State :=
  (c.consumers.filter fun x => !x.detached && decide (x.bound < c.written - x.readPos)).foldl (fun s x => s.detachDrain k x) s

/-- POLDER_BLOCK_WRITE (R97, R99): the oldest filled block of channel `ch` is written in its time slot; `err` 1 is a corrected error,
2 an uncorrectable one (R26), which marks the data. -/
def execPolderBlockWrite (t : Nat) (ch : Fin 64) (err : Fin 3) (s : State) : Outcome :=
  let s := s.advance t
  let k := ch.val
  .next (match (s.chanS k).filled with
    | [] => s
    | b :: rest =>
      let b1 := if err.val = 2 then { b with flags := b.flags ||| 16 } else b
      let c1 := (s.chanS k).blockIn b1 rest
      let s1 := s.setChan k c1
      let s2 := if err.val = 1 then s1.countCorrected 0
        else if err.val = 2 then (s1.countUncorrected 0).faultLog 6 1 (s1.rd (Ob.chanSourceLink k) / 8) ((s1.chanOwners k).headD 0xFF) 0 k else s1
      let s3 := s2.lateDrains k c1
      (s3.captureBlock k b1).drainRecord k)

end Sys2Proof.Machine
end

