-- ==== Sys2Proof/Machine/Triggers.lean ====
section
/-! DEFINITION. The trigger-condition fabric, pattern units, TRIG_OUT and the primitive stream (spec/05_triggers.md). -/

namespace Sys2Proof.Machine

open Sys2Proof

/-! ### Condition flits (R293) -/

/-- The stamp of the sample `o` after the one with stamp `tag` of live channel `k` (R85): exact, from the sample's own index. -/
def State.stampAfter (s : State) (k tag o : Nat) : Nat :=
  let j := s.rd (Ob.chanSourceLink k)
  let a := ceilDiv ((tag - s.sampleStamp j 0 0) * s.linkDen j) (s.second * s.sampleNum j)
  s.sampleStamp j 0 (a + o)

/-- One change of a condition flit: elements 2c and 2c + 1. A rise within TrigHold is not made (R130). -/
def State.flitChange (s : State) (n k tag e o : Nat) (disagree : Bool) : State :=
  if !bit e 22 then s
  else
    let off := bits e 31 24
    if s.rd (Ob.slotConditionCount n) ≤ off then s.bump Ob.diagDiscardedChanges
    else
      let l := s.rd (Ob.slotConditionFirst n) + off
      let t := s.stampAfter k tag o
      let v := bit e 23
      if disagree then s.lineDisagree l t
      else if v && !(s.lineS l).holdOver (s.rd (Ob.slotTrigHold n)) t then s
      else s.lineChange l t v

/-- The changes of a flit in order. -/
def State.flitChanges (s : State) (n k tag mask : Nat) : Nat → List Nat → State
  | i, e :: o :: l => (s.flitChange n k tag e o (bit mask i)).flitChanges n k tag mask (i + 1) l
  | _, _ => s

/-- CONDITION_FLIT_RECEIVE: a flit of slot `n` about a frame of channel `k` with tag `tag` (u_T); bit c of `disagree` says that the two
copies of change c disagree (R133). A frame that the slot's boundaries give to another slot, or that lies in a declared gap, decides no line. -/
def execConditionFlitReceive (t : Nat) (n : Fin 64) (ch : Fin 64) (tag : Nat) (words : List Nat) (disagree : Nat) (s : State) : Outcome :=
  let s := s.advance t
  let g := s.gate n ch tag
  .next (if s.active n && (g == .live || g == .wait) then s.flitChanges n ch tag disagree 0 (words.take 16) else s)

/-! ### Pattern units (R142-R145) -/

def State.patS (s : State) (u : Nat) : PatState := tget (dconst ({} : PatState)) s.pat u
def State.setPat (s : State) (u : Nat) (x : PatState) : State := { s with pat := tset (dconst ({} : PatState)) s.pat u x }

/-- The care lines of a unit, and those that take part at condition time `t`: not Untimed then (R143, R154). -/
def State.careLines (s : State) (u : Nat) : List Nat := mapLines (s.dom (Ob.patCare u))
def State.effCare (s : State) (u t : Nat) : List Nat := (s.careLines u).filter fun l => !(s.lineS l).untimedAt t

/-- The unit matches at condition time `t`. -/
def State.patMatch (s : State) (u t : Nat) : Bool :=
  let c := s.effCare u t
  let v := s.dom (Ob.patValue u)
  !c.isEmpty && c.all fun l => (s.lineS l).at t == mapBit v l

/-- Insert a time into a rising list without repeats. -/
def insTime (a : Nat) : List Nat → List Nat
  | [] => [a]
  | b :: l => if a < b then a :: b :: l else if a = b then b :: l else b :: insTime a l

/-- Insert the times that lie in (lo, hi]. -/
def insTimes (lo hi : Nat) (a l : List Nat) : List Nat := l.foldl (fun a t => if lo < t ∧ t ≤ hi then insTime t a else a) a

/-- The condition times that decide the unit over (lo, hi]: the first, every change of a care line and of its Untimed mark, every boundary
at which the qualification restarts, the last. -/
def State.patTimes (s : State) (u lo hi : Nat) : List Nat :=
  let ch := (s.careLines u).foldl (fun a l =>
    insTimes lo hi (insTimes lo hi a ((s.lineS l).changes.map fun c => c.1)) ((s.lineS l).untimedLog.map fun c => c.1))
    (insTimes lo hi [] (s.patS u).restarts)
  if lo < hi then insTime (lo + 1) (insTime hi ch) else []

/-- The trigger time of an open match interval (R143). -/
def State.trigTime (s : State) (u start : Nat) (tLast : Option Nat) : Nat :=
  let q := start + s.rd (Ob.patQual u)
  match tLast with
  | some l => max q (l + s.rd (Ob.patHoldOff u))
  | none => q

/-- A pulse of unit `u` for output `k` (R147): fixed delay from t_trig, or as soon as the trigger is known. -/
def State.pulse (s : State) (k tt : Nat) : State :=
  let c := s.rd (Ob.condTrigOutConfig k)
  if !bit c 63 then s
  else
    let a := if bit c 60 then 256 * ceilDiv s.devNow 256 else tt + 256 * bits c 15 0
    let x := tget (dconst ({} : TrigOutState)) s.trig k
    { s with trig := tset (dconst ({} : TrigOutState)) s.trig k { x with waiting := x.waiting ++ [(a, a + 256 * bits c 31 16)] } }

/-- A trigger log entry takes its place (R145): by time, and among equal times by unit. -/
def logInsert (e : Bytes) : List Bytes → List Bytes
  | [] => [e]
  | a :: l =>
    if leNat (e.drop 21) * 256 + leAt e 15 1 < leNat (a.drop 21) * 256 + leAt a 15 1 then e :: a :: l else a :: logInsert e l

/-- A trigger log entry (R145). The Owner's Epoch is that at t_trig, since a boundary of the Owner waits for its units
(`State.unitsReached`). -/
def State.logTrigger (s : State) (u tt fl : Nat) : State :=
  let own := s.rd (Ob.patOwner u)
  let epoch := if own < 64 then s.rd (Ob.slotEpoch own) else 0
  let e := leBytes 32 (s.stamp tt * 2 ^ 128 + u * 2 ^ 120 + fl * 2 ^ 112 + epoch * 2 ^ 96 + s.rd (Ob.patTriggerCount u) * 2 ^ 64)
  if s.trigLog.length < 1024 then { s with trigLog := logInsert e s.trigLog }
  else ({ s with trigLog := logInsert e (s.trigLog.drop 1) } : State).bump Ob.condLogOverwrites

/-- Unit `u` triggers at `tt` (R145): every output of Outputs acts. -/
def State.patTrigger (s : State) (u tt : Nat) : State :=
  let o := s.rd (Ob.patOutputs u)
  let excl := (s.careLines u).any fun l => (s.lineS l).untimedAt tt
  let flt := (s.careLines u).any fun l => (s.lineS l).fault
  let s1 := s.wrs [(Ob.patTriggerCount u, (s.rd (Ob.patTriggerCount u) + 1) % 2 ^ 32), (Ob.patLastTrigger u, s.stamp tt)]
  let s2 := (List.range 8).foldl (fun s k => if bit o k then s.pulse k tt else s) s1
  let s3 := [0, 1].foldl (fun s i =>
    if bit o (8 + i) && bit (s.rd Ob.primEnable) i then
      let x := tget (dconst ({} : LaneStream)) s.lane i
      { s with lane := tset (dconst ({} : LaneStream)) s.lane i { x with triggers := x.triggers ++ [(u, tt, excl, flt)] } }
    else s) s2
  let s4 := if bit o 10 then s3.logTrigger u tt (b2n excl + 2 * b2n flt) else s3
  if bit o 11 then s4.recordTrigger u tt else s4

/-- A match interval open before condition time `t` triggers if its trigger time lies before `t`. -/
def State.patBefore (s : State) (u t : Nat) : State :=
  let x := s.patS u
  match x.start with
  | none => s
  | some a =>
    let tt := s.trigTime u a x.tLast
    if !x.fired && decide (tt < t) then (s.setPat u { x with fired := true, tLast := some tt }).patTrigger u tt else s

/-- A replacement's boundary at condition time `t` closes the open match interval (R69). -/
def PatState.restartAt (x : PatState) (t : Nat) : PatState :=
  if x.restarts.contains t then { x with start := none, fired := false, restarts := x.restarts.filter fun r => decide (t < r) } else x

/-- The unit evaluates condition time `t` after the changes at it are applied (R142, R154). -/
def State.patAt (s0 : State) (u t : Nat) : State :=
  let s := s0.patBefore u t
  let x := (s.patS u).restartAt t
  if s.patMatch u t then
    let a := x.start.getD t
    let fired := x.start.isSome && x.fired
    let tt := s.trigTime u a x.tLast
    let y := { x with start := some a, fired := fired, evalAt := t }
    if !fired && tt == t then (s.setPat u { y with fired := true, tLast := some tt }).patTrigger u tt else s.setPat u y
  else s.setPat u { x with start := none, fired := false, evalAt := t }

/-- The boundary of a commit armed on the Owner slot, where the unit's settings change or its qualification restarts (R69, R144). -/
def State.unitBoundary (s : State) (u : Nat) : Option Nat :=
  let own := s.rd (Ob.patOwner u)
  if own < 64 then (s.slot own).armed else none

/-- Every unit that slot `n` owns has evaluated the condition times before `T` (R67): before a boundary of the slot the old settings and
the old Epoch hold. -/
def State.unitsReached (s : State) (n T : Nat) : Bool :=
  (List.range 16).all fun u => s.rd (Ob.patOwner u) != n || !s.rdB (Ob.patEnable u) || !s.counts || decide (T ≤ (s.patS u).evalAt + 1)

/-- The units that slot `n` owns or for which it holds staged values. -/
def State.unitsOf (s : State) (n : Nat) : List Nat :=
  let x := s.slot n
  (List.range 16).filter fun u => s.rd (Ob.patOwner u) == n || (x.staged.any fun p => p.1 / 256 == Ob.patCare u / 256)
    || (x.stagedDom.any fun p => p.1 / 256 == Ob.patCare u / 256)

/-- Units evaluate anew from boundary `T` (R144): a match interval that is open closes without a trigger, and one that holds at `T` starts
there. -/
def State.restartUnits (s : State) (us : List Nat) (T : Nat) : State :=
  us.foldl (fun s u => s.setPat u { s.patS u with start := none, fired := false, evalAt := T - 1 }) s

/-- The units of slots `n` and `m` restart their qualification at the switch `T` between them (R69). -/
def State.restartAtSwitch (s : State) (n m T : Nat) : State :=
  ((List.range 16).filter fun u => s.rd (Ob.patOwner u) == n || s.rd (Ob.patOwner u) == m).foldl (fun s u =>
    s.setPat u { s.patS u with restarts := T :: (s.patS u).restarts }) s

/-- The time up to which unit `u` evaluates: device time less its horizon, and before the boundary of its Owner's armed commit. -/
def State.patUpTo (s : State) (u : Nat) : Nat :=
  let h := s.rd (Ob.patHorizon u)
  match s.unitBoundary u with
  | some T => min (s.devNow - h) (T - 1)
  | none => s.devNow - h

/-- PATTERN_UNIT_EVALUATE: unit `u` evaluates the condition times up to device time less H_u, and while its Owner has a commit armed those
before the boundary. -/
def execPatternUnitEvaluate (t : Nat) (u : Fin 16) (s : State) : Outcome :=
  let s := s.advance t
  let h := s.rd (Ob.patHorizon u)
  .next (if !s.rdB (Ob.patEnable u) || !s.counts || decide (s.devNow < h) then s
    else
      let s1 := (s.patTimes u (s.patS u).evalAt (s.patUpTo u)).foldl (fun s t => s.patAt u t) s
      s1.wr (Ob.patMatching u) (b2n (s1.patS u).start.isSome))

/-- Octets that the lookback of the triggered capture of slot `n` takes with the horizons in force (R234). -/
def State.lookNeed (s : State) (n : Nat) : Nat :=
  (bitsSet 64 (s.rd (Ob.slotChannelMask n))).foldl (fun a k =>
    a + s.lookLen n k * (128 + recSamples (s.geom n) * (if s.rd (Ob.chanConverterQ k) = 0xFF then 2 else 4))) 0

/-- L_k of every triggered capture covers the horizons in force (R234). -/
def State.lookCovered (s : State) : Bool :=
  (List.range 64).all fun n =>
    if s.active n && s.rd (Ob.slotMode n) == 4 && recCapture (s.geom n) == 2 then
      decide (s.lookNeed n ≤ s.rd (Ob.slotLookbackBytes (s.ringOwner n)))
    else true

/-- The unit takes a value: a change of Care, Value, Qual or Enable closes an open match interval without a trigger (R144), and an
enable evaluates from now on. -/
def State.patApply (s : State) (u key v : Nat) (d : Option Bytes) : State :=
  let s1 := match d with
    | some b => s.setDom key b
    | none => s.wr key v
  let closes := (match d with
    | some b => b != s.dom key
    | none => v != s.rd key) && key != Ob.patHoldOff u && key != Ob.patOutputs u && key != Ob.patOwner u
  let s2 := s1.refreshFabric
  let x := s2.patS u
  let s3 := if closes then s2.setPat u { x with start := none, fired := false } else s2
  if key = Ob.patEnable u ∧ v = 1 ∧ s.rd key = 0 then
    let y := s3.patS u
    s3.setPat u { y with evalAt := max y.evalAt (s3.devNow - s3.rd (Ob.patHorizon u)) }
  else s3

/-- Key, and range of a value, of a subindex of PatternUnit (R144). -/
def patKey (u sub : Nat) : Nat := Ob.patCare u - 1 + sub
def patRange (sub v : Nat) (d : Option Bytes) : Option Nat :=
  match d with
  | some b => if sub = 1 ∨ sub = 2 then (if b.length = 32 then none else some Abort.length) else some Abort.length
  | none =>
    if sub = 0 ∨ 11 < sub then some Abort.noSub
    else if 8 ≤ sub then some Abort.writeRo
    else if sub = 3 ∨ sub = 4 then (if v < 2 ^ 32 then none else some Abort.range)
    else if sub = 5 then (if v < 2 ^ 12 then none else some Abort.range)
    else if sub = 6 then (if v < 2 then none else some Abort.range)
    else if sub = 7 then (if v < 64 ∨ v = 0xFF then none else some Abort.range)
    else some Abort.length

/-- The unit's Owner has a commit armed or is Committing or Withdrawing (R144). -/
def State.patFrozen (s : State) (own : Nat) : Bool :=
  decide (own < 64) && ((s.slot own).holds || decide (3 ≤ s.rd (Ob.slotState own)))

/-- A write staged in its Owner slot (R144). -/
def State.patStage (s : State) (own key v : Nat) (d : Option Bytes) : State :=
  match d with
  | some b => s.stageDom own key b
  | none => s.stageNum own key v

/-- Objects of a unit whose write can lengthen what the fabric must cover (R147, R151, R152, R234). -/
def patRaises (sub v : Nat) : Bool := sub == 1 || sub == 5 || (sub == 6 && v == 1) || sub == 4

/-- A write to pattern unit `u` (R144): staged in its Owner slot, or applied at once after the checks of R147, R151, R152 and R234. -/
def patternUnitWrite (u sub v : Nat) (d : Option Bytes) : Act := fun s =>
  let key := patKey u sub
  let own := s.rd (Ob.patOwner u)
  let bad := patRange sub v d
  if bad.isSome && bad != some Abort.range then .error (bad.getD Abort.range)
  else if s.patFrozen own then .error Abort.state
  else match bad with
  | some c => .error c
  | none =>
    if own < 64 && s.rd (Ob.slotState own) == 2 then
      .ok (s.patStage own key v d)
    else
      let s1 := s.patApply u key v d
      if (decide (s.rd (Ob.patHorizon u) < s1.rd (Ob.patHorizon u)) || patRaises sub v) && (s1.fabricBroken || !s1.lookCovered) then .error Abort.range
      else .ok s1

/-- PATTERN_UNIT_WRITE. -/
def execPatternUnitWrite (t : Nat) (u : Fin 16) (sub value : Nat) (data : Option (List (BitVec 8))) (s : State) : Outcome :=
  .next (s.serve t (patternUnitWrite u sub value data))

/-! ### Condition line commands (R132) -/

/-- ClearFault: the set bits clear Fault. -/
def clearLineFault (b : Bytes) : Act := fun s =>
  if b.length ≠ 32 then .error Abort.length
  else .ok ((mapLines b).foldl (fun s l => s.setLine l { s.lineS l with fault := false }) s)

/-- CLEAR_LINE_FAULT. -/
def execClearLineFault (t : Nat) (data : List (BitVec 8)) (s : State) : Outcome := .next (s.serve t (clearLineFault data))

/-- ClearLog. -/
def clearLog : Act := fun s => .ok { s with trigLog := [] }

/-- CLEAR_LOG. -/
def execClearLog (t : Nat) (s : State) : Outcome := .next (s.serve t clearLog)

/-! ### TRIG_OUT (R146, R147) -/

def State.trigS (s : State) (k : Nat) : TrigOutState := tget (dconst ({} : TrigOutState)) s.trig k
def State.setTrig (s : State) (k : Nat) (x : TrigOutState) : State := { s with trig := tset (dconst ({} : TrigOutState)) s.trig k x }

/-- A TrigOutConfig write. -/
def trigOutConfig (k v : Nat) : Act := fun s =>
  if 2 ^ 64 ≤ v || bits v 59 32 != 0 || (bit v 63 && bits v 31 16 == 0)
      || decide (4 * s.second < bits v 15 0 * 256 * 1000000) then .error Abort.range
  else
    let s1 := s.wr (Ob.condTrigOutConfig k) v
    if s1.trigOutBreak.isSome then .error Abort.range
    else if bit v 63 then .ok s1
    else .ok (s1.setTrig k { s.trigS k with waiting := [] })

/-- TRIG_OUT_CONFIG_WRITE. -/
def execTrigOutConfigWrite (t : Nat) (k : Fin 8) (value : Nat) (s : State) : Outcome := .next (s.serve t (trigOutConfig k value))

/-- The earliest of the waiting pulses. -/
def firstPulse : List (Nat × Nat) → Option (Nat × Nat)
  | [] => none
  | p :: l => match firstPulse l with
    | some q => if q.1 < p.1 then some q else some p
    | none => some p

/-- The pulses that start less than one f_T period after `e` merge: the end after them, and the rest (R147). -/
def mergePulses : Nat → Nat → List (Nat × Nat) → Nat × List (Nat × Nat)
  | 0, e, l => (e, l)
  | fuel + 1, e, l => match l.find? fun p => decide (p.1 < e + 256) with
    | some p => mergePulses fuel (max e p.2) (l.erase p)
    | none => (e, l)

/-- The level of TRIG_OUT[k] (R146). -/
def State.trigLevel (s : State) (k : Nat) (active : Bool) : Bool := active != bit (s.rd (Ob.condTrigOutConfig k)) 61

/-- TRIG_OUT_EDGE: the earliest waiting pulse is due: its active edge, or its merging with the pulse being driven. -/
def execTrigOutEdge (t : Nat) (k : Fin 8) (s : State) : Outcome :=
  let s := s.advance t
  let x := s.trigS k
  .next (match firstPulse x.waiting with
    | none => s
    | some p =>
      if s.devNow < p.1 then s
      else
        let rest := x.waiting.erase p
        match x.active with
        | some a => if p.1 < a.2 + 256 then s.setTrig k { waiting := rest, active := some (a.1, max a.2 p.2) } else s
        | none => (s.setTrig k { waiting := rest, active := some p }).emit (.trigOut k (s.trigLevel k true) p.1))

/-- TRIG_OUT_PULSE_END: the pulse ends, unless waiting pulses prolong it. -/
def execTrigOutPulseEnd (t : Nat) (k : Fin 8) (s : State) : Outcome :=
  let s := s.advance t
  let x := s.trigS k
  .next (match x.active with
    | none => s
    | some a =>
      if s.devNow < a.2 then s
      else
        let m := mergePulses x.waiting.length a.2 x.waiting
        if a.2 < m.1 then s.setTrig k { waiting := m.2, active := some (a.1, m.1) }
        else (s.setTrig k { x with active := none }).emit (.trigOut k (s.trigLevel k false) a.2))

/-! ### The primitive stream (R148-R153) -/

def State.laneS (s : State) (i : Nat) : LaneStream := tget (dconst ({} : LaneStream)) s.lane i
def State.setLane (s : State) (i : Nat) (x : LaneStream) : State := { s with lane := tset (dconst ({} : LaneStream)) s.lane i x }

/-- Start of tick `n` of second `sec` (R148). -/
def State.tickStart (s : State) (sec n : Nat) : Nat := sec * s.second + n * slotPs (s.rd Ob.primLineRate) * s.second / 1000000000000

/-- The tick that holds device time `x`: its second and number. -/
def State.tickOf (s : State) (x : Nat) : Nat × Nat :=
  let f := x % s.second
  (x / s.second, ceilDiv ((f + 1) * 1000000000000) (slotPs (s.rd Ob.primLineRate) * s.second) - 1)

/-- Ticks per second. -/
def State.ticksPerSecond (s : State) : Nat := 1000000000000 / slotPs (s.rd Ob.primLineRate)

/-- The start and the end of the tick that holds `x`. -/
def State.tickSpan (s : State) (x : Nat) : Nat × Nat :=
  let p := s.tickOf x
  (s.tickStart p.1 p.2, if p.2 + 1 < s.ticksPerSecond then s.tickStart p.1 (p.2 + 1) else (p.1 + 1) * s.second)

/-- The events of a lane in [a, b): time, bit of the payload, Excluded, Fault (R149). -/
def State.laneEvents (s : State) (i a b : Nat) : List (Nat × Nat × Bool × Bool) :=
  if s.laneContent i = 2 then
    (List.range 64).flatMap fun k =>
      let x := s.lineS (s.laneBase i + k)
      (x.changes.filter fun c => c.2 && decide (a ≤ c.1) && decide (c.1 < b)).map fun c => (c.1, k, false, x.fault)
  else
    ((s.laneS i).triggers.filter fun e => decide (a ≤ e.2.1) && decide (e.2.1 < b)).map fun e => (e.2.1, e.1, e.2.2.1, e.2.2.2)

/-- The times of the events of a lane at or after `a`, the earliest. -/
def State.nextEvent (s : State) (i a : Nat) : Option Nat :=
  let ts := if s.laneContent i = 2 then
      (List.range 64).flatMap fun k => ((s.lineS (s.laneBase i + k)).changes.filter fun c => c.2 && decide (a ≤ c.1)).map fun c => c.1
    else ((s.laneS i).triggers.filter fun e => decide (a ≤ e.2.1)).map fun e => e.2.1
  match ts with
  | [] => none
  | t :: l => some (l.foldl min t)

/-- A primitive with its CRC-8 over [127:8], most significant bit first (R149). -/
def withCrc8 (w : Nat) : Nat := w + crcMsb 8 0x07 0 ((leBytes 16 w).drop 1).reverse

/-- The data primitive of a tick's events (R149). -/
def State.dataPrimitive (s : State) (i : Nat) (ev : List (Nat × Nat × Bool × Bool)) : Nat :=
  let t0 := leastOf 0 (ev.map fun e => e.1)
  let t1 := ev.foldl (fun m e => max m e.1) 0
  let ks := ev.map fun e => e.2.1
  let flags := 8 * b2n (ev.any fun e => e.2.2.2) + 4 * b2n (ev.any fun e => e.2.2.1) + 2 * b2n (!decide ks.Nodup)
  let m := (List.range 64).foldl (fun a k => a + b2n (ks.contains k) * 2 ^ k) 0
  let payload := if s.laneContent i = 2 then m else m % 65536 * 2 ^ 48 + min 65535 (t1 - t0) * 2 ^ 32
  withCrc8 ((if s.laneContent i = 2 then 2 else 1) * 2 ^ 124 + flags * 2 ^ 120 + t0 / s.second % 256 * 2 ^ 112 + t0 % s.second * 2 ^ 72
    + payload * 2 ^ 8)

/-- A TimeMark of the second just begun (R149, R150). -/
def State.timeMark (s : State) (sec : Nat) : Nat :=
  withCrc8 (3 * 2 ^ 124 + sec % 256 * 2 ^ 112 + (sec % 2 ^ 48 * 2 ^ 16 + s.quality * 2 ^ 8) * 2 ^ 8)

/-- The earliest tick of lane `i` not sent whose primitive is due: the start of its events, the tick's start and its end. -/
def State.laneDue (s : State) (i : Nat) : Option (Nat × Nat × Nat) :=
  let x := s.laneS i
  let next := match x.lastTick with
    | some e => max x.firstTick e
    | none => x.firstTick
  match s.nextEvent i next with
  | some e => let p := s.tickSpan e
    if p.1 + s.rd Ob.primDelayD ≤ s.devNow then some (max p.1 next, p.1, p.2) else none
  | none => none

/-- A 64B/66B data block before scrambling, bit 0 sent first: the sync header 0, 1, then the payload from its bit 0 (R148). -/
def dataBlock (payload : Nat) : Nat := 2 + payload % 2 ^ 64 * 4

/-- The slot of lane `i` at `time` carries primitive `w`: bits [127:64] in the first block, bits [63:0] in the second; Polarity inverts (R148, R153). -/
def State.sendPrimitive (s : State) (i w time : Nat) : State :=
  s.emit (.primitive i (dataBlock (w / 2 ^ 64)) (dataBlock w) (bit (s.rd Ob.primPolarity) i) time)

/-- The slot of lane `i` carries no primitive: idle control blocks, or PRBS31 under TestPattern (R148, R153). -/
def State.laneQuiet (s : State) (i : Nat) : State :=
  s.emit (if s.rd Ob.primTestPattern = 0 then .laneIdle i (bit (s.rd Ob.primPolarity) i) else .lanePrbs i (bit (s.rd Ob.primPolarity) i))

/-- PRIMITIVE_TICK (R150): the earliest tick of lane `i` not sent whose primitive is due leaves at tick start + D; with none due, the
TimeMark of the latest second goes out once; a slot without a primitive carries idle control blocks. Under TestPattern PRBS31 takes the
place of the primitives. -/
def execPrimitiveTick (t : Nat) (lane : Fin 2) (s : State) : Outcome :=
  let s := s.advance t
  let i := lane.val
  let x := s.laneS i
  .next (if !bit (s.rd Ob.primEnable) i || !s.counts then s
    else
      let s := if x.firstTick ≤ s.devNow then s.setQuad 35 0 else s
      match s.laneDue i with
      | some (a, t0, t1) =>
        let s1 := s.setLane i { x with lastTick := some t1, triggers := x.triggers.filter fun e => decide (t1 ≤ e.2.1) }
        if s.rd Ob.primTestPattern = 0 then
          (s1.sendPrimitive i (s.dataPrimitive i (s.laneEvents i a t1)) (t0 + s.rd Ob.primDelayD)).bump (if i = 0 then Ob.primCountA else Ob.primCountB)
        else s1.laneQuiet i
      | none =>
        let sec := s.devNow / s.second
        if decide (x.firstTick ≤ sec * s.second) && x.lastMark != some sec && s.rd Ob.primTestPattern == 0 then
          (s.setLane i { x with lastMark := some sec }).sendPrimitive i (s.timeMark sec) s.devNow
        else s.laneQuiet i)

/-- Lane `i` starts: its first sendable tick is the first whose start is at least MinD from now (R153). -/
def State.laneStart (s : State) (i : Nat) : State :=
  let m := s.devNow + s.rd Ob.primMinD
  let p := s.tickSpan m
  s.setLane i { firstTick := if p.1 = m then p.1 else p.2 }

/-- Lane `i` starts when its enable rises, runs on while it is set, and is dropped with it (R153). -/
def State.laneSwitch (s : State) (old v i : Nat) : State :=
  if bit v i && !bit old i then s.laneStart i else if bit v i then s else s.setLane i {}

/-- A write of Enable of the primitive stream (R151-R153). -/
def primitiveEnable (v : Nat) : Act := fun s =>
  let old := s.rd Ob.primEnable
  let starts := (bit v 0 && !bit old 0) || (bit v 1 && !bit old 1)
  if starts && !s.counts then .error Abort.state
  else if 4 ≤ v then .error Abort.range
  else
    let s1 := (s.wr Ob.primEnable v).refreshFabric
    if starts && (s1.minDBreak.isSome || s1.chargeBreak.isSome) then .error Abort.range
    else .ok ((s1.laneSwitch old v 0).laneSwitch old v 1)

/-- PRIMITIVE_STREAM_ENABLE. -/
def execPrimitiveStreamEnable (t mask : Nat) (s : State) : Outcome := .next (s.serve t (primitiveEnable mask))

end Sys2Proof.Machine
end

