-- ==== Sys2Proof/Machine/Arrays.lean ====
section
/-! DEFINITION. Join links, arrays, joined time and imported lines (spec/15_arrays.md). -/

namespace Sys2Proof.Machine

open Sys2Proof

def State.interfaceVersion (s : State) : Nat := s.rd Ob.devFirmwareVersion / 65536

/-! ### Imports (R141) -/

/-- The entries of Imports: local line, position, remote line. -/
def importList (b : Bytes) : List (Nat × Nat × Nat) :=
  (List.range (b.length / 4)).map fun i => (leAt b (4 * i + 3) 1, leAt b (4 * i + 2) 1, leAt b (4 * i + 1) 1)

def State.imports (s : State) : List (Nat × Nat × Nat) := importList (s.dom Ob.condImports)

/-- The local lines that carry lines of position `o`, with the remote lines. -/
def State.importsOf (s : State) (o : Nat) : List (Nat × Nat) := (s.imports.filter fun e => e.2.1 == o).map fun e => (e.1, e.2.2)

/-- A port on a path of the route from `o` has a CableDelay above its CableBound (R404). -/
def State.cableLate (s : State) (o : Nat) : Bool :=
  s.inArray && (routePaths s.arr.config o s.arr.pos).any fun p => match s.inPort p with
    | some k => s.rd (Ob.joinCableBound k) != 0 && decide (s.rd (Ob.joinCableBound k) < s.rd (Ob.joinCableDelay k))
    | none => false

/-- The imported lines of `o` are timed (R141, R401, R404, R406). -/
def State.lineTimed (s : State) (o : Nat) : Bool :=
  let x := s.posS o
  x.timed && s.reachable o && !x.await && !s.cableLate o

/-- Untimed follows (R401, R406). -/
def State.retime (s : State) : State :=
  s.imports.foldl (fun s e => s.setLine e.1 ((s.lineS e.1).mark s.devNow (!s.lineTimed e.2.1))) s

/-- The latest condition time that every enabled pattern unit has evaluated; with none enabled, now less the largest L_line (R132). -/
def State.evaluated (s : State) : Nat :=
  let us := (List.range 16).filter fun u => s.rdB (Ob.patEnable u)
  if us.isEmpty then s.devNow - (s.line.foldl (fun m p => max m p.2.latency) 0)
  else leastOf s.devNow (us.map fun u => (s.patS u).evalAt)

/-- The lines that Imports drives take their source, with the L_line and the spacing of R129 and R404. -/
def State.importSources (s : State) : State :=
  (List.range s.imports.length).foldl (fun s i => match s.imports[i]? with
    | some e => s.setSource e.1 3 i (Config.remoteLatency e.2.1 e.2.2 + s.joinDelay e.2.1) (Config.remoteSpacing e.2.1 e.2.2)
    | none => s) s

/-- The imports become those of `b`: lines no longer imported lose their source, the others take theirs (R141, R404). -/
def State.importsSet (s : State) (b : Bytes) : State :=
  let T := s.evaluated
  let gone := s.imports.filter fun e => !(importList b).contains e
  let s1 := gone.foldl (fun s e => s.endSource e.1 T) s
  (((s1.setDom Ob.condImports b).importSources).retime).refreshFabric

/-- A write of Imports (R141, R404). -/
def importsWrite (b : Bytes) : Act := fun s =>
  let es := importList b
  if b.length % 4 != 0 || decide (256 < b.length) then .error Abort.length
  else if (es.any fun e => (s.lineS e.1).cls == 1 || (s.lineS e.1).cls == 2) || !decide (es.map fun e => e.1).Nodup then
    .error Abort.state
  else if (List.range es.length).any fun i => leAt b (4 * i) 1 != 0 then .error Abort.range
  else if es.any fun e => decide (8 ≤ e.2.1) then .error Abort.range
  else
    let s2 := s.importsSet b
    if s2.exportBreak.isSome then .error Abort.range
    else if s2.fabricBroken then .error Abort.state
    else .ok s2

/-- IMPORTS_WRITE. -/
def execImportsWrite (t : Nat) (data : List (BitVec 8)) (s : State) : Outcome := .next (s.serve t (importsWrite data))

/-! ### Timed (R401) -/

/-- The device's own residual to the lead (R399): the mean offset of the last 64 exchanges and the parent's residual. -/
def State.ownResidual (s : State) : Int :=
  match s.parentPort with
  | some k =>
    let l := (s.portS k).offsets
    (if l.isEmpty then 0 else tdiv l.sum (l.length : Int)) +
      (match s.partner k with
        | some q => (s.posS q.1).residual
        | none => 0)
  | none => 0

def State.tolerance' (s : State) (r : Int) : Bool := decide (r.natAbs ≤ s.rd Ob.arrTimeTolerance)

/-- The device reports Timed for itself (R401). -/
def State.selfTimed (s : State) : Bool :=
  decide (s.rd Ob.arrMinQuality ≤ s.quality) && (match s.parentPort with
    | some k => s.tolerance' s.ownResidual
        && (match s.partner k with
          | some q => (s.posS q.1).epoch.getD (s.rd Ob.timeTimeEpoch) == s.rd Ob.timeTimeEpoch
          | none => false)
        && (match (s.portS k).syncAt with
          | some a => decide (s.now ≤ a + s.second / 100)
          | none => false)
    | none => s.inArray && s.arr.pos == 0)

/-- Every condition of R401 holds for position `o`; the epoch and the quality of a position without a direct link are those its own Timed
report covers (log entry 26). -/
def State.timedHolds (s : State) (o : Nat) : Bool :=
  let x := s.posS o
  if o = s.arr.pos then s.selfTimed
  else s.selfTimed && x.reported && s.tolerance' x.residual
    && x.epoch.getD (s.rd Ob.timeTimeEpoch) == s.rd Ob.timeTimeEpoch
    && decide (s.rd Ob.arrMinQuality ≤ x.quality.getD (s.rd Ob.arrMinQuality))
    && (match x.heardAt with
      | some a => decide (s.now ≤ a + ceilDiv s.second 10000)
      | none => false)

/-- Position `o` is judged; an exchange counts (R401). -/
def State.judge (s : State) (exchange : Bool) (o : Nat) : State :=
  let x := s.posS o
  if s.timedHolds o then
    let g := if exchange then min 64 (x.good + 1) else x.good
    s.setPos o { x with good := g, timed := x.timed || g == 64 || o == s.arr.pos }
  else s.setPos o { x with good := if x.timed || x.good != 64 then 0 else 64, timed := false }

/-- A member position's residual as Residuals reports it. -/
def State.residualOf (s : State) (o : Nat) : Int := if o = s.arr.pos then s.ownResidual else (s.posS o).residual

/-- The readouts of 0x5F00 and of the ports follow (R404, R406, R409), with the imported lines. -/
def State.refreshArray (s : State) : State :=
  if !s.inArray then s
  else
    let n := cfgCount s.arr.config
    let s0 := (List.range n).foldl (fun s o => if s.reachable o then s else s.setPos o { s.posS o with await := true }) s
    let reach := (List.range n).foldl (fun a o => a + b2n (s0.reachable o) * 2 ^ o) 0
    let timed := (List.range n).foldl (fun a o => a + b2n (s0.posS o).timed * 2 ^ o) 0
    let st := if s0.rd Ob.arrArrayState = 1 then 1 else if reach = 2 ^ n - 1 then 2 else 3
    let dg := s0.rd Ob.arrConfigDigest
    let agree := (List.range n).foldl (fun a o =>
      a + b2n (o == s0.arr.pos || (s0.posS o).digest.getD (Config.remoteDigest o dg) == dg) * 2 ^ o) 0
    let s1 := s0.wrs [(Ob.arrReachable, reach), (Ob.arrTimed, timed), (Ob.arrArrayState, st), (Ob.arrAgreementMap, agree)]
    let s2 := s1.setDom Ob.arrResiduals ((List.range 8).flatMap fun o => leBytes 4 (uint 32 (if o < n then s1.residualOf o else 0)))
    let s3 := s2.setDom Ob.arrJoinDelay ((List.range 8).flatMap fun o => leBytes 8 (s2.joinDelay o))
    let s4 := (List.range 4).foldl (fun s k => s.wr (Ob.joinLinesCarried k) (linesOver s.arr.config s.arr.pos k)) s3
    s4.importSources.retime.refreshFabric

def State.judgeAll (s : State) (exchange : Bool) : State :=
  ((List.range (cfgCount s.arr.config)).foldl (fun s o => s.judge exchange o) s).refreshArray

/-! ### Bring-up (R386-R389) -/

/-- The capability record of this device for port `k` (R388). -/
def State.capability (s : State) (k : Nat) : Bytes :=
  leBytes 32 (Config.serialNumber.toNat * 2 ^ 192 + s.rd Ob.devFirmwareVersion * 2 ^ 160 + s.rd Ob.devSchemaDigest * 2 ^ 128
    + s.rd Ob.arrConfigDigest * 2 ^ 96 + s.rd Ob.timeTimeEpoch * 2 ^ 64 + s.quality % 256 * 2 ^ 56
    + (if s.inArray then cfgTopology s.arr.config else 0) * 2 ^ 48 + (if s.inArray then s.arr.pos else 0xFF) * 2 ^ 40 + k * 2 ^ 32)

/-- Send the record of port `k` three times, each copy with its CRC-32 (R388). -/
def State.sendRecord (s : State) (k : Nat) : State :=
  let c := s.capability k ++ leBytes 4 (crc32 (s.capability k))
  ((s.emit (.exchange k c)).emit (.exchange k c)).emit (.exchange k c)

/-- Assumption 3 is seen violated while a port is Held because its partner is not the neighbour that the wiring of R393 expects (R66, R389; DEDUCED, log
entry 166). -/
def State.topologyFollow (s : State) : State :=
  s.assumeIs 3 ((List.range 4).any fun k => s.rd (Ob.joinState k) == 5 && s.rd (Ob.joinHoldCause k) == 3)

/-- A port leaves Active (R387, R406): an admitted bulk flow over it is a fault of its quad (R499). -/
def State.leaveActive (s : State) (k st : Nat) : State :=
  let s1 := (s.wr (Ob.joinState k) st).setPort k { s.portS k with unacked := [], replays := 0, creditBest := 64, creditAdm := 64 }
  let s2 := if s.rd (Ob.joinState k) = 6 ∧ s.rd (Ob.joinBulkCharged k) ≠ 0 then s1.quadFault (26 + 2 * k) 1 else s1
  s2.refreshArray.topologyFollow

/-- Entry into Retrain. -/
def State.retrainPort (s : State) (k : Nat) : State := (s.leaveActive k 7).bump (Ob.joinRetrains k)

/-- Calibrate goes on with its next port (R402). -/
def State.calibNext (s : State) (k : Nat) : State :=
  match s.arr.calib with
  | some (a :: l) =>
    if a = k then
      let s1 := { s with arr := { s.arr with calib := some l } }
      match l with
      | b :: _ => s1.retrainPort b
      | [] => s1
    else s
  | _ => s

/-- What a position says in its capability record is kept (R388, R396, R401). -/
def State.learn (s : State) (k : Nat) (r : Bytes) : State :=
  match s.partner k with
  | some q =>
    let s1 := s.setPos q.1 { s.posS q.1 with epoch := some (fieldOf r 95 64), quality := some (fieldOf r 63 56), digest := some (fieldOf r 127 96) }
    if s.parentPort = some k ∧ s.rd Ob.arrArrayState ≠ 1 then
      { s1 with time := { s1.time with leadQuality := some (fieldOf r 63 56) } }
    else s1
  | none => s

/-- The first disagreement of R389. -/
def State.holdCause (s : State) (k : Nat) (r : Bytes) : Nat :=
  if fieldOf r 191 176 ≠ s.interfaceVersion then 1
  else if fieldOf r 159 128 ≠ s.rd Ob.devSchemaDigest then 2
  else match s.partner k with
    | some q => if fieldOf r 47 40 = q.1 ∧ fieldOf r 39 32 = q.2 then 0 else 3
    | none => 3

/-- Every port that a route of the array uses is Active, as far as this device's own show (R410). -/
def State.portsUp (s : State) : Bool := (List.range 4).all fun k => !s.joinUsed k || s.rd (Ob.joinState k) == 6

/-- The lead's Class (R430): that of the Quality the parent's record gives. -/
def State.formClass (s : State) (k : Nat) : Nat :=
  match s.partner k with
  | some q => (s.posS q.1).quality.getD 0 / 32
  | none => 0

/-- Formation completes (R400): a follower after 64 exchanges with its parent, the lead when it has answered 64 of every child (log entry 26). -/
def State.tryForm (s : State) : State :=
  if s.rd Ob.arrArrayState ≠ 1 || !s.portsUp then s
  else match s.parentPort with
    | some k =>
      let x := s.portS k
      if x.offsets.length < 64 then s
      else
        let off := s.ownResidual
        let parent := s.partner k
        let epoch := match parent with
          | some q => (s.posS q.1).epoch
          | none => none
        let s1 := s.step430 ((s.devNow : Int) + off) (s.formClass k) epoch true
        let s2 := (s1.wrs [(Ob.arrTimeOffset, uint 64 off), (Ob.arrArrayState, 2),
          (Ob.joinCableBound k, s1.rd (Ob.joinCableDelay k) + ceilDiv (2 * s1.second) 1000000000)]).setPort k { x with offsets := [], sent := [] }
        let s3 := { s2 with time := { s2.time with leadQuality := match parent with
          | some q => (s2.posS q.1).quality
          | none => none } }
        s3.judgeAll false
    | none =>
      if (List.range 4).all fun k => !s.childPort k || decide (64 ≤ (s.portS k).answered) then
        ((s.wr Ob.arrArrayState 2).wr Ob.arrTimeOffset 0).judgeAll false
      else s

/-- The port of an enabled join port restarts at Detect after a failed attempt (R386, R387). -/
def State.joinFail (s : State) (k : Nat) : State :=
  let x := s.portS k
  ((s.leaveActive k (if 2 ≤ x.attempts then 9 else 1)).setPort k { x with attempts := x.attempts + 1, unacked := [], replays := 0 })

/-- JOIN_DETECT: a receiver is present on all eight lanes. -/
def execJoinDetect (t : Nat) (port : Fin 4) (s : State) : Outcome :=
  let s := s.advance t
  .next (if s.rd (Ob.joinState port) = 1 then s.wr (Ob.joinState port) 2 else s)

/-- JOIN_TRAINING_DONE: every figure of merit is at least 64, order and polarity are resolved and both sides agree (R387, R391). -/
def execJoinTrainingDone (t : Nat) (port : Fin 4) (foms : List Nat) (s : State) : Outcome :=
  let s := s.advance t
  let l := (List.range 8).map fun i => foms.getD i 0 % 256
  let st := s.rd (Ob.joinState port)
  .next (if (st = 2 ∨ st = 7) ∧ l.all fun f => decide (64 ≤ f) then
      (s.setDom (Ob.joinLaneFom port) (l.map fun f => BitVec.ofNat 8 f)).wr (Ob.joinState port) 3
    else s)

/-- JOIN_LOCK: block lock and stripe boundary on every lane; the exchange starts. -/
def execJoinLock (t : Nat) (port : Fin 4) (s : State) : Outcome :=
  let s := s.advance t
  .next (if s.rd (Ob.joinState port) = 3 then (s.wr (Ob.joinState port) 4).sendRecord port else s)

/-- A capability record is compared (R388, R389): each copy is 32 octets and its CRC-32, and the first that passes is taken. -/
def State.exchange (s : State) (k : Nat) (copies : List Bytes) : State :=
  match copies.find? fun c => c.length == 36 && crc32 (c.take 32) == leAt c 32 4 with
  | none => s
  | some c =>
    let r := c.take 32
    let s1 := (s.setDom (Ob.joinPartner k) r).learn k r
    let h := s1.holdCause k r
    let s2 := s1.wr (Ob.joinHoldCause k) h
    if h = 0 then
      let s3 := (s2.wr (Ob.joinState k) 6).setPort k { s2.portS k with attempts := 0 }
      (((s3.calibNext k).refreshArray.tryForm).quadsUp [26 + 2 * k, 27 + 2 * k]).topologyFollow
    else s2.leaveActive k 5

/-- JOIN_EXCHANGE: in Exchange, and again whenever the partner's record changes (R389, R410). -/
def execJoinExchange (t : Nat) (port : Fin 4) (copies : List (List (BitVec 8))) (s : State) : Outcome :=
  let s := s.advance t
  let st := s.rd (Ob.joinState port)
  .next (if st = 4 ∨ st = 6 then s.exchange port copies else s)

/-- JOIN_HELD_REEXCHANGE: a Held port sends its record again, and compares the partner's. -/
def execJoinHeldReexchange (t : Nat) (port : Fin 4) (copies : List (List (BitVec 8))) (s : State) : Outcome :=
  let s := s.advance t
  .next (if s.rd (Ob.joinState port) = 5 then (s.sendRecord port).exchange port copies else s)

/-- JOIN_STAGE_TIMEOUT: a stage did not complete within its limit. -/
def execJoinStageTimeout (t : Nat) (port : Fin 4) (s : State) : Outcome :=
  let s := s.advance t
  let st := s.rd (Ob.joinState port)
  .next (if st = 2 ∨ st = 3 ∨ st = 4 ∨ st = 7 then s.joinFail port else s)

/-- JOIN_FAILED_RETRY: Detect restarts every 1 s. -/
def execJoinFailedRetry (t : Nat) (port : Fin 4) (s : State) : Outcome :=
  let s := s.advance t
  .next (if s.rd (Ob.joinState port) = 9 then s.wr (Ob.joinState port) 1 else s)

/-- Retrain (R387). -/
def joinRetrain (k : Nat) : Act := fun s => .ok (if s.rd (Ob.joinState k) = 6 then s.retrainPort k else s)

/-- JOIN_RETRAIN. -/
def execJoinRetrain (t : Nat) (port : Fin 4) (s : State) : Outcome := .next (s.serve t (joinRetrain port))

/-- JOIN_LINK_DEGRADE: block lock is lost on a lane, or a figure of merit stays below 16 for 1 ms (R387). -/
def execJoinLinkDegrade (t : Nat) (port : Fin 4) (s : State) : Outcome :=
  let s := s.advance t
  .next (if s.rd (Ob.joinState port) = 6 then s.retrainPort port else s)

/-! ### Direction sleep (R390), adaptation and test (R392) -/

/-- A route or a time-tree hop uses the outbound or inbound direction of port `k`. -/
def State.directionUsed (s : State) (k : Nat) (rx : Bool) : Bool :=
  s.inArray && (s.parentPort == some k || s.childPort k ||
    ((List.range (cfgCount s.arr.config)).any fun o => (pathsFrom s.arr.config o).any fun p =>
      if rx then match s.partner k with
        | some q => p.contains q
        | none => false
      else p.contains (s.arr.pos, k)))

/-- DIRECTION_SLEEP: the transmitter puts its direction to sleep, or the partner's sleep pattern arrives (rx). -/
def execDirectionSleep (t : Nat) (port : Fin 4) (rx : Bool) (s : State) : Outcome :=
  let s := s.advance t
  .next (if s.rd (Ob.joinState port) ≠ 6 then s
    else if rx then s.wr (Ob.joinRxSleep port) 1
    else if s.rdB (Ob.joinSleepEnable port) && s.rd (Ob.joinBulkCharged port) == 0 && !s.directionUsed port false
        && (s.portS port).unacked.isEmpty then s.wr (Ob.joinTxSleep port) 1
    else s)

/-- DIRECTION_WAKE_COMPLETE: the direction carries data again. -/
def execDirectionWakeComplete (t : Nat) (port : Fin 4) (rx : Bool) (s : State) : Outcome :=
  let s := s.advance t
  let key := if rx then Ob.joinRxSleep port else Ob.joinTxSleep port
  .next (if rx ∨ s.rd key = 2 then s.wr key 0 else s)

/-- The bits that every locked checker of port `k` has compared: those counted so far and, while the test runs, 32 Gb/s since the lock (R381, R392). -/
def State.prbsBits (s : State) (k : Nat) : Nat :=
  s.rd (Ob.joinPrbsBits k) + (match (s.portS k).prbsSince with
    | some a => (s.now - a) * 32000000000 / s.second
    | none => 0)

/-- The test on port `k` ends, with what its checkers have counted. -/
def State.prbsStop (s : State) (k : Nat) : State :=
  (s.wr (Ob.joinPrbsBits k) (s.prbsBits k % 2 ^ 64)).setPort k { s.portS k with prbsSince := none }

/-- TestMode (R392). -/
def joinTestMode (k v : Nat) : Act := fun s =>
  if s.joinUsed k || s.rd (Ob.joinBulkCharged k) != 0 then .error Abort.state
  else if 2 ≤ v then .error Abort.range
  else if v = s.rd (Ob.joinTestMode k) then .ok s
  else if v = 1 then
    .ok ((s.leaveActive k 8).wrs [(Ob.joinTestMode k, 1), (Ob.joinPrbsLock k, 0)])
  else .ok ((s.prbsStop k).wrs [(Ob.joinTestMode k, 0), (Ob.joinPrbsLock k, 0), (Ob.joinState k, 2)])

/-- JOIN_TEST_MODE. -/
def execJoinTestMode (t : Nat) (port : Fin 4) (value : Nat) (s : State) : Outcome := .next (s.serve t (joinTestMode port value))

/-- PRBS_CHECKER_LOCK: the checker of a lane has seen 64 error-free bits, and bits are counted from the first lock on (R392; DESIGN CHOICE, log entry 173). -/
def execPrbsCheckerLock (t : Nat) (port : Fin 4) (lane : Fin 8) (s : State) : Outcome :=
  let s := s.advance t
  let x := s.portS port
  .next (if s.rd (Ob.joinState port) = 8 then
      (s.wr (Ob.joinPrbsLock port) (setBit (s.rd (Ob.joinPrbsLock port)) lane true)).setPort port { x with prbsSince := some (x.prbsSince.getD s.now) }
    else s)

/-- ClearCounters of a join port (R408). -/
def joinClear (k : Nat) : Act := fun s =>
  .ok ((s.wrs [(Ob.joinBoundedSingle k, 0), (Ob.joinBoundedLost k, 0), (Ob.joinBulkReplays k, 0), (Ob.joinRetrains k, 0),
    (Ob.joinPrbsBits k, 0)]).setDom (Ob.joinPrbsErrors k) (List.replicate 64 0) |>.setPort k
      { s.portS k with prbsSince := (s.portS k).prbsSince.map fun _ => s.now })

/-- JOIN_CLEAR_COUNTERS. -/
def execJoinClearCounters (t : Nat) (port : Fin 4) (s : State) : Outcome := .next (s.serve t (joinClear port))

/-- Some port carries a route that has no second path (R402). -/
def State.soleRoute (s : State) : Bool :=
  s.inArray && !cfgProtected s.arr.config && (List.range 4).any fun k => s.joinUsed k

/-- Calibrate (R402): each port in turn retrains. -/
def joinCalibrate : Act := fun s =>
  if s.soleRoute then .error Abort.state
  else
    let l := (List.range 4).filter fun k => s.rd (Ob.joinState k) == 6
    let s1 := { s with arr := { s.arr with calib := some l } }
    .ok (match l with
      | k :: _ => s1.retrainPort k
      | [] => s1)

/-- JOIN_CALIBRATE. -/
def execJoinCalibrate (t : Nat) (s : State) : Outcome := .next (s.serve t joinCalibrate)

/-- JOIN_ASSUMPTION_FLAG_CLEAR: 1 s with neither a second replay nor a BoundedLost count (R385). -/
def execJoinAssumptionFlagClear (t : Nat) (s : State) : Outcome :=
  let s := s.advance t
  .next (if s.arr.lossAt + s.second ≤ s.now then s.wr Ob.admAssumptionFlags (setBit (s.rd Ob.admAssumptionFlags) 4 false) else s)

/-- Assumption 5 is seen violated on a join link (R385). -/
def State.linkLoss (s : State) : State :=
  let s1 := s.assume 5
  { s1 with arr := { s1.arr with lossAt := s1.now } }

/-! ### The bulk class (R385) -/

/-- Frames of `n` octets leave on port `k`; a sleeping direction wakes first (R390). -/
def State.sendBulk (s : State) (k n : Nat) : State :=
  let x := s.portS k
  let f := ceilDiv n 64
  let s1 := s.setPort k { x with txNext := (x.txNext + f) % 65536, unacked := x.unacked ++ List.replicate f 0, creditBest := x.creditBest - f }
  if s1.rd (Ob.joinTxSleep k) = 1 then s1.wr (Ob.joinTxSleep k) 2 else s1

/-- The frames still unacknowledged after an acknowledgement, with their replays so far (R385). -/
def JoinPort.acked (x : JoinPort) (ack : Nat) : List Nat :=
  let base := (x.txNext + 65536 - x.unacked.length % 65536) % 65536
  let n := (ack + 1 + 65536 - base) % 65536
  if n ≤ x.unacked.length then x.unacked.drop n else x.unacked

/-- A good frame at the receiver: acknowledged frames leave, a negative acknowledgement replays the rest, credits return to their class, and
the frame in sequence is taken (R385, R386). -/
def JoinPort.bulkIn (x : JoinPort) (left : List Nat) (sequence credits : Nat) (admitted again : Bool) : JoinPort :=
  { x with
    unacked := left
    replays := if again then x.replays + 1 else x.replays
    creditBest := if admitted then x.creditBest else min 64 (x.creditBest + credits)
    creditAdm := if admitted then min 64 (x.creditAdm + credits) else x.creditAdm
    rxNext := if sequence == x.rxNext then (x.rxNext + 1) % 65536 else x.rxNext }

/-- What replays bring about: they are counted, a second one of a frame is a link loss, a sixteenth retrains (R385). -/
def State.replayed (s : State) (k : Nat) (left : List Nat) (again : Bool) : State :=
  let s2 := if again then s.bumpBy (Ob.joinBulkReplays k) left.length else s
  let s3 := if left.any fun c => decide (2 ≤ c) then s2.linkLoss else s2
  if left.any fun c => decide (16 ≤ c) then s3.retrainPort k else s3

/-- BULK_FRAME_RECEIVE: a frame with its header's sequence, acknowledgement, credits and class, whether its CRC passes, and whether a negative
acknowledgement came with it. -/
def execBulkFrameReceive (t : Nat) (port : Fin 4) (sequence ack credits : Nat) (admitted crcOk nack : Bool) (s : State) : Outcome :=
  let s := s.advance t
  let x := s.portS port
  .next (if s.rd (Ob.joinState port) ≠ 6 then s
    else if !crcOk then s.emit (.bulkAck port x.rxNext false)
    else
      let again := nack && !(x.acked ack).isEmpty
      let left := if again then (x.acked ack).map (· + 1) else x.acked ack
      let inOrder := sequence == x.rxNext
      ((s.setPort port (x.bulkIn left sequence credits admitted again)).emit
        (.bulkAck port (if inOrder then sequence else x.rxNext) inOrder)).replayed port left again)

/-! ### Bounded messages (R384, R395, R405) -/

/-- The imported lines of an export group (R403) of position `o`, each with its index in the group. -/
def State.groupImports (s : State) (o g : Nat) : List (Nat × Nat) :=
  let ex := cfgExports s.arr.config o
  (s.importsOf o).filterMap fun e =>
    let i := ex.findIdx fun l => l == e.2
    if ex.contains e.2 && i / 32 == g then some (e.1, i % 32) else none

/-- A loss of messages of `o` (R405): its imported lines read 1, with Fault, from the condition time of the last message. -/
def State.loseOrigin (s : State) (o : Nat) : State :=
  let x := s.posS o
  let s1 := s.setPos o { x with lost0 := some s.devNow, lost1 := some s.devNow }
  (s.importsOf o).foldl (fun s e =>
    let s2 := s.lineChange e.1 x.lastCond true
    s2.setLine e.1 { s2.lineS e.1 with fault := true }) s1

/-- The origins whose routes to this device come in on port `k`. -/
def State.originsVia (s : State) (k : Nat) : List Nat :=
  if s.inArray then (List.range (cfgCount s.arr.config)).filter fun o => o != s.arr.pos &&
    (routePaths s.arr.config o s.arr.pos).any fun p => s.inPort p == some k
  else []

/-- A message of a bounded slot in an array (R395): a relay forwards it but for a TimeSync, a receiver keeps it. -/
def State.boundedIn (s : State) (port w : Nat) : State :=
  let o := bOrigin w
  let dests := if bCast w then (List.range (cfgCount s.arr.config)).filter fun d => d != o else [bTarget w]
  let s2 := if bType w = 3 then s else (s.outPorts o (some port) dests).foldl (fun s k => s.sendOn w k) s
  if o != s.arr.pos && (bCast w || bTarget w == s.arr.pos) then
    { s2 with arr := { s2.arr with inbox := s2.arr.inbox ++ [(port, s2.devNow, w)] } }
  else s2

/-- BOUNDED_SLOT_RECEIVE: the two copies of a bounded slot (R384). A relay forwards the message (R395); a receiver keeps it for its use. -/
def execBoundedSlotReceive (t : Nat) (port : Fin 4) (copyA copyB : Nat) (s : State) : Outcome :=
  let s := s.advance t
  .next (if s.rd (Ob.joinState port) ≠ 6 then s
    else
      let a := bmsgOk copyA
      let b := bmsgOk copyB
      if (!a && !b) || (a && b && copyA != copyB) then
        (s.originsVia port).foldl (fun s o => s.loseOrigin o) (s.bump (Ob.joinBoundedLost port)).linkLoss
      else
        let w := if a then copyA else copyB
        let s1 := if a && b then s else s.bump (Ob.joinBoundedSingle port)
        if bType w = 0 || decide (4 < bType w) || !s.inArray then s1 else s1.boundedIn port w)


/-- Take the oldest kept message that satisfies a test. -/
def State.takeMsg (s : State) (p : Nat → Bool) : Option (Nat × Nat × Nat) × State :=
  match s.arr.inbox.find? fun m => p m.2.2 with
  | some m => (some m, { s with arr := { s.arr with inbox := s.arr.inbox.erase m } })
  | none => (none, s)

/-- Is the message the first copy of its Sequence (R395), and does a gap stand before it (R405)? -/
def PosState.fresh (x : PosState) (w : Nat) : Bool × Bool :=
  match tget (dconst none) x.seqs (bType w) with
  | none => (true, false)
  | some q =>
    let d := (bSeq w + 256 - q) % 256
    (d != 0 && decide (d < 128), decide (1 < d))

/-- Note the Sequence of a message of `o`. -/
def State.noteSeq (s : State) (o w : Nat) : State :=
  let x := s.posS o
  s.setPos o { x with seqs := tset (dconst none) x.seqs (bType w) (some (bSeq w)) }

/-- A LineChange of origin `o` is new: its line changes at its time wherever it is imported, unless its export group is lost (R403, R405). -/
def State.changeIn (s : State) (o w : Nat) (gap : Bool) : State :=
  let s1 := s.noteSeq o w
  let T := s1.timeNear (bits w 99 92) (bits w 91 52)
  let s2 := if gap then s1.loseOrigin o else s1
  let s3 := s2.setPos o { s2.posS o with lastCond := T }
  (s3.importsOf o).foldl (fun s e =>
    if e.2 = bits w 108 101 then
      let g := (cfgExports s.arr.config o).findIdx (fun l => l == e.2) / 32
      let lost := if g = 0 then (s.posS o).lost0 else (s.posS o).lost1
      if lost.isSome then s else s.lineChange e.1 T (bit w 100)
    else s) s3

/-- LINE_CHANGE: the oldest LineChange kept (R403, R405). -/
def execLineChange (t : Nat) (s : State) : Outcome :=
  let r := (s.advance t).takeMsg fun w => bType w == 1
  .next (match r.1 with
    | none => r.2
    | some m =>
      let o := bOrigin m.2.2
      let f := (r.2.posS o).fresh m.2.2
      if !f.1 then r.2 else r.2.changeIn o m.2.2 f.2)

/-- A LineState of origin `o` is new: its group's lines take their values at its time, unless the group was lost after it (R403, R405). -/
def State.stateIn (s : State) (o w : Nat) : State :=
  let s1 := s.noteSeq o w
  let T := s1.timeNear (bits w 75 68) (bits w 67 28)
  let g := b2n (bit w 76)
  let x := s1.posS o
  let lost := if g = 0 then x.lost0 else x.lost1
  let late := match lost with
    | some d => decide (T ≤ d)
    | none => false
  let y := { x with reported := bit w 27, heardAt := some s1.now, await := false, lastCond := max x.lastCond T }
  let y := if late then y else if g = 0 then { y with lost0 := none } else { y with lost1 := none }
  let s2 := s1.setPos o y
  let s3 := if late then s2 else (s2.groupImports o g).foldl (fun s e =>
    match (s.lineS e.1).changes with
    | c :: _ => if c.1 < T then s.lineChange e.1 T (bit w (77 + e.2)) else s
    | [] => s.lineChange e.1 T (bit w (77 + e.2))) s2
  (s3.judge false o).refreshArray

/-- LINE_STATE: the oldest LineState kept (R403, R405). -/
def execLineState (t : Nat) (s : State) : Outcome :=
  let r := (s.advance t).takeMsg fun w => bType w == 2
  .next (match r.1 with
    | none => r.2
    | some m => if !((r.2.posS (bOrigin m.2.2)).fresh m.2.2).1 then r.2 else r.2.stateIn (bOrigin m.2.2) m.2.2)

/-- The LineState of export group `g` at time `T`. -/
def State.sendGroup (s : State) (T g : Nat) : State :=
  let ex := cfgExports s.arr.config s.arr.pos
  let v := (List.range 32).foldl (fun a i => match ex[32 * g + i]? with
    | some l => a + b2n ((s.lineS l).at T) * 2 ^ i
    | none => a) 0
  s.broadcast 2 (v * 2 ^ 61 + g * 2 ^ 60 + s.timeLow T * 2 ^ 12 + b2n s.selfTimed * 2 ^ 11)

/-- The largest L_line of the exported lines. -/
def State.exportLag (s : State) : Nat := (cfgExports s.arr.config s.arr.pos).foldl (fun m l => max m (s.lineS l).latency) 0

/-- LINE_STATE_SEND: both export groups, at the latest time that every exported line's L_line has passed. -/
def execLineStateSend (t : Nat) (s : State) : Outcome :=
  let s := s.advance t
  .next (if !s.inArray then s
    else let T := s.devNow - s.exportLag; (s.sendGroup T 0).sendGroup T 1)

/-! ### Joined time (R399) -/

/-- A signed 12-bit count, saturating. -/
def sat12 (r : Int) : Nat := uint 12 (clampI (-2048) 2047 r)

/-- The payload of a TimeSync. -/
def State.syncPayload (s : State) (hold echo : Nat) : Nat :=
  s.devNow % s.second * 2 ^ 53 + s.devNow / s.second % 256 * 2 ^ 45 + hold * 2 ^ 21 + echo % 256 * 2 ^ 13
    + sat12 s.ownResidual * 2 + b2n s.selfTimed

/-- TIME_SYNC_SEND: a child sends one TimeSync to its parent. -/
def execTimeSyncSend (t : Nat) (s : State) : Outcome :=
  let s := s.advance t
  .next (match s.parentPort with
    | none => s
    | some k =>
      match s.partner k with
      | none => s
      | some q =>
        if s.rd (Ob.joinState k) ≠ 6 || !s.counts then s
        else
          let r := s.nextSeq 3
          let x := r.2.portS k
          (r.2.setPort k { x with sent := ((r.1, s.devNow) :: x.sent).take 64 }).emit
            (.bounded k (bmsg 3 s.arr.pos q.1 false r.1 (s.syncPayload 0 x.parentSeq))))

/-- The child uses an answer of its parent: delay and offset of one exchange. -/
def State.syncAnswer (s : State) (k stamp w : Nat) : State :=
  let x := s.portS k
  let y := { x with parentSeq := bSeq w, syncAt := some s.now }
  match x.sent.find? fun p => p.1 == bits w 36 29 with
  | none => s.setPort k y
  | some p =>
    let t3 : Int := s.timeNear (bits w 68 61) (bits w 108 69)
    let hold : Int := bits w 60 37
    let t2 := t3 - hold
    let delay := tdiv (((stamp : Int) - p.2) - hold) 2
    let off := (t2 - p.2) - delay - tdiv (sint 32 (s.rd (Ob.joinCableAsymmetry k))) 2
    let s1 := s.setPort k { y with offsets := (off :: x.offsets).take 64, sent := x.sent.filter fun q => q.1 != p.1 }
    s1.wr (Ob.joinCableDelay k) (uint 32 delay)

/-- What a TimeSync says of its origin: its timing, its residual, that it was heard. -/
def State.syncHeard (s : State) (o w : Nat) : State :=
  s.setPos o { s.posS o with reported := bit w 16, residual := sint 12 (bits w 28 17), heardAt := some s.now }

/-- The parent's answer to child `o` on port `k`, whose TimeSync it has held for `hold` u_T (R399). -/
def State.answerChild (s : State) (k o w hold : Nat) : State :=
  let q := s.nextSeq 3
  let x := q.2.portS k
  (q.2.setPort k { x with answered := x.answered + 1 }).emit (.bounded k (bmsg 3 s.arr.pos o false q.1 (s.syncPayload hold (bSeq w))))

/-- TIME_SYNC: the oldest TimeSync kept is answered by the parent, or used by the child. -/
def execTimeSync (t : Nat) (s : State) : Outcome :=
  let r := (s.advance t).takeMsg fun w => bType w == 3
  .next (match r.1 with
    | none => r.2
    | some m =>
      let o := bOrigin m.2.2
      let s1 := r.2.syncHeard o m.2.2
      if s1.parentPort = some m.1 then
        let s2 := s1.syncAnswer m.1 m.2.1 m.2.2
        if s2.rd Ob.arrArrayState = 1 then s2.tryForm else s2.judgeAll true
      else if s1.childPort m.1 && decide (s1.devNow - m.2.1 < 2 ^ 24) && s1.rd (Ob.joinState m.1) == 6 then
        let s2 := s1.answerChild m.1 o m.2.2 (s1.devNow - m.2.1)
        if s2.rd Ob.arrArrayState = 1 then s2.tryForm else if s2.parentPort.isNone then s2.judgeAll true else s2
      else s1)

/-- TIMED_TIMEOUT: nothing of a position has arrived for 100 us, or nothing of the parent for 10 ms. -/
def execTimedTimeout (t : Nat) (position : Fin 8) (s : State) : Outcome :=
  let s := s.advance t
  .next (if s.inArray && decide (position.val < cfgCount s.arr.config) && s.rd Ob.arrArrayState != 1 then
      (s.judge false position).refreshArray
    else s)

/-! ### Apply (R394) -/

/-- Does this device drive line `l`: a level condition or an import does, or a described or active pipeline has it among its lines (log entry 26)? -/
def State.drives (s : State) (l : Nat) : Bool :=
  (s.lineS l).cls != 0 || (List.range 64).any fun n =>
    s.rd (Ob.slotState n) != 0 && decide (s.rd (Ob.slotConditionFirst n) ≤ l) &&
      decide (l < s.rd (Ob.slotConditionFirst n) + s.rd (Ob.slotConditionCount n))

/-- The checks that answer 0x4F. -/
def State.arrayOk (s : State) (c : Bytes) (p : Nat) : Bool :=
  c.length == 336 && fieldOf (c.take 16) 110 0 == 0 && topologyOk (cfgTopology c) (cfgCount c) && decide (p < cfgCount c)
    && cfgSerial c p == Config.serialNumber.toNat
    && ((List.range (cfgCount c)).all fun o => decide ((cfgExports c o).length ≤ 64))
    && ((cfgExports c p).all fun l => s.drives l && ((s.lineS l).cls == 0 || exportSpacingOk s.second c p (s.lineS l).spacing))

/-- A join port at Apply (R394, R398, R400): its exchanges start over, sleeping directions in use wake, and an active or held port exchanges
records again. -/
def State.applyPort (s : State) (k : Nat) : State :=
  let s := s.setPort k { s.portS k with offsets := [], sent := [], answered := 0, syncAt := none }
  let s := s.wr (Ob.joinCableBound k) 0
  let s := if s.joinUsed k then
      let s := if s.rd (Ob.joinTxSleep k) = 1 then s.wr (Ob.joinTxSleep k) 2 else s
      if s.rd (Ob.joinRxSleep k) = 1 then s.wr (Ob.joinRxSleep k) 2 else s
    else s
  let st := s.rd (Ob.joinState k)
  if st = 5 ∨ st = 6 then (s.wr (Ob.joinState k) 4).sendRecord k else s

/-- Apply of the array; `fTOk` says that every member runs the same f_T (R398). -/
def arrayApply (fTOk : Bool) : Act := fun s =>
  let c := s.dom Ob.arrArrayConfig
  let p := s.rd Ob.arrPosition
  if s.anyAdmitted || s.anyTdc || !s.imports.isEmpty || s.stepForbiddenBase then .error Abort.state
  else if !s.arrayOk c p || !fTOk then .ok { s with arr := { s.arr with applyResult := some 0x4F } }
  else
    let s1 := { s with posn := [], arr := { s.arr with config := c, pos := p, applyResult := some 0, inbox := [], commit := none } }
    let s2 := s1.wrs [(Ob.arrArrayState, 1), (Ob.arrConfigDigest, crc32 c)]
    let s3 := { s2 with time := { s2.time with leadQuality := none } }
    .ok ((List.range 4).foldl State.applyPort s3).refreshArray

/-- ARRAY_APPLY. -/
def execArrayApply (t : Nat) (fTOk : Bool) (s : State) : Outcome := .next (s.serve t (arrayApply fTOk))

end Sys2Proof.Machine
end

