-- ==== Sys2Proof/Machine/Frames.lean ====
section
/-! DEFINITION. What the modes share: the chain of a slot, its input samples, and what becomes of a frame by its tag (spec/02_contracts.md R67, R74, R76, R575; spec/04_spectrum.md R104; spec/09_records.md R237; spec/20_lifetime.md R500). -/

namespace Sys2Proof.Machine

open Sys2Proof

/-- Key of the ring of channel `k` that slot `n` reads: a Replay has shares of its own. -/
def State.chanKey (s : State) (n k : Nat) : Nat := if s.isReplay n then 64 + 64 * n + k else k

/-- Is input channel `k` of slot `n` complex? -/
def State.inCplx (s : State) (n k : Nat) : Bool :=
  if s.isReplay n then (tget (dconst ({} : ReplayChan)) (s.pipeS n).replay k).cplx else s.complex k

/-- fs of input channel `k` of slot `n`, as numerator and denominator in hertz. -/
def State.inFs (s : State) (n k : Nat) : Nat × Nat :=
  if s.isReplay n then
    let c := tget (dconst ({} : ReplayChan)) (s.pipeS n).replay k
    (if c.cplx then c.rate / 2 else c.rate, 1)
  else s.chanFs k

/-- The stamp `o` samples after a stamp, at a rate. -/
def State.after (s : State) (fs : Nat × Nat) (tag o : Nat) : Nat := tag + o * s.second * fs.2 / max 1 fs.1

/-- The stamp `o` samples after a stamp on input channel `k` of slot `n`. -/
def State.stampOn (s : State) (n k tag o : Nat) : Nat := if s.isReplay n then s.after (s.inFs n k) tag o else s.stampAfter k tag o

/-- Octets of a sample in the Polder. -/
def sampleOctets (cplx : Bool) : Nat := if cplx then 4 else 2

/-- The samples of a block, each its stamp, word and flags: the block's, and bit 6 for a sample that is itself at a full-scale code or over range (R211). -/
def PBlock.flagged (b : PBlock) : List (Nat × Nat × Nat) :=
  b.samples.zipIdx.map fun x => (x.1.1, x.1.2, b.flags % 64 + 64 * b2n (b.hot.contains x.2))

/-- The samples that a ring holds, oldest first: stamp, word, flags. -/
def ChanState.samples (c : ChanState) : List (Nat × Nat × Nat) := c.ring.flatMap fun b => b.flagged

/-- The index of the oldest sample that the ring of channel `k` of slot `n` holds. -/
def State.firstIndex (s : State) (n k : Nat) : Nat :=
  let c := s.chanS (s.chanKey n k)
  (c.written - 64 * c.ring.length) / sampleOctets (s.inCplx n k)

/-- `len` samples from index `i` on: none while some has not come or is gone. -/
def State.inputAt (s : State) (n k i len : Nat) : Option (List (Nat × Nat × Nat)) :=
  let b := s.firstIndex n k
  if i < b then none
  else
    let l := ((s.chanS (s.chanKey n k)).samples.drop (i - b)).take len
    if l.length = len then some l else none

/-- OR of the flags of samples. -/
def orFlags (l : List (Nat × Nat × Nat)) : Nat := l.foldl (fun a x => a ||| x.2.2) 0

/-- OR of the flags of a frame's blocks: bits [5:0]. -/
def frameFlags (l : List (Nat × Nat × Nat)) : Nat := orFlags l % 64

/-- Flags of the record header (R221) from block flags: the input flags, Damaged, and Replay. -/
def State.headFlags (s : State) (n fl : Nat) : Nat := fl % 16 + b2n (bit fl 4) * 2 ^ 15 + b2n (s.isReplay n) * 2 ^ 11

/-- Sample 0 of the grid (R104): the first sample whose stamp is at or after AdmittedAt, for a Replay the first one fed. -/
def State.gridOrigin (s : State) (n k : Nat) : Option (Nat × Nat) :=
  match tget (dconst none) (s.pipeS n).origin k with
  | some o => some o
  | none =>
    let t0 := if s.isReplay n then 0 else s.unstamp (s.rd (Ob.slotAdmittedAt n))
    let l := (s.chanS (s.chanKey n k)).samples
    match l.findIdx? fun x => decide (t0 ≤ x.1) with
    | some i => some (s.firstIndex n k + i, (l[i]?.getD (0, 0, 0)).1)
    | none => none

/-- The consumers of the slot's stage 0 have drained channel `k` up to sample index `i`. -/
def State.drained (s : State) (n k stage i : Nat) : State :=
  s.drainTo (s.chanKey n k) n stage (i * sampleOctets (s.inCplx n k) / 64 * 64)

/-- A frame with this tag has been taken: the first one anchors a Successor's warm-up (R74). -/
def State.tookFrame (s : State) (n tag : Nat) : State :=
  s.modSlot n fun x => { x with
    firstFrame := match x.firstFrame with
      | some f => some (min f tag)
      | none => some tag
    lastFrame := some (match x.lastFrame with
      | some f => max f tag
      | none => tag) }

/-- Frame `m` of channel `k` is done: the next is `m + 1`. -/
def State.nextFrame (s : State) (n k : Nat) (o : Nat × Nat) : State :=
  let p := s.pipeS n
  s.setPipe n { p with origin := tset (dconst none) p.origin k (some o), frame := tset (dconst 0) p.frame k (tget (dconst 0) p.frame k + 1) }

/-- The pool region of a kind for a channel that Placement names (R576): pool octet of its first line. -/
def State.poolRegion (s : State) (n kind k : Nat) : Option Nat :=
  ((s.slot n).placement.regions.find? fun r => r.kind == kind && (r.channel == k || r.channel == 0xFFF)).map fun r =>
    r.cluster * 163840 + r.firstLine * 64

/-- A copy of a double-buffered pool area is rewritten (R122): the two copies in turn, Seq odd before the copy and even after it. Copy B
lies at the next multiple of 64 octets behind copy A (DESIGN CHOICE, log entry 179). -/
def State.poolCopy (s : State) (n k : Nat) (body : Bytes) : State :=
  match s.poolRegion n 1 k with
  | none => s
  | some a =>
    let p := s.pipeS n
    let c := tget (dconst 0) p.poolSeq k
    let at' := a + (c % 2) * (64 * ceilDiv (64 + body.length) 64)
    let s1 := (s.poolWrite (at' + 64) body).poolWrite at' (leBytes 8 (2 * (c + 1)))
    s1.setPipe n { s1.pipeS n with poolSeq := tset (dconst 0) p.poolSeq k (c + 1) }

/-- Free values read by one command, by index from the count of values taken so far (log entry 6). -/
def State.nth (s : State) (tag i : Nat) : Nat := Config.free tag (s.fresh + i)

/-- `k` free values have been taken. -/
def State.taken (s : State) (k : Nat) : State := { s with fresh := s.fresh + k }

end Sys2Proof.Machine
end

