-- ==== Sys2Proof/Machine/Grid.lean ====
section
/-! DEFINITION. Mode geometries and the frame grids they give: the next frame of each channel or input, and the boundaries of commits and switches (spec/02_contracts.md R67, R74; spec/04_spectrum.md R104-R106; spec/07_sieve.md R173-R175; spec/08_pulse.md R196-R199, R217). -/

namespace Sys2Proof.Machine

open Sys2Proof

/-! ### Spectrum (R106) -/

def spFirst (g : Nat) : Nat := bits g 127 112
def spBins (g : Nat) : Nat := bits g 111 96 + 1
def spM (g : Nat) : Nat := bits g 95 80
def spParam (g : Nat) : Nat := bits g 79 72
def spWindow (g : Nat) : Nat := bits g 71 68
def spDetector (g : Nat) : Nat := bits g 67 64
/-- log2 of N. -/
def spLog (g : Nat) : Nat := bits g 63 60 + 8
def spHop (g : Nat) : Nat := 2 ^ spLog g / 2 ^ bits g 59 58
def spFormat (g : Nat) : Nat := bits g 57 56
def spWeirs (g : Nat) : List Nat := bitsSet 16 (bits g 55 40)
def spMaps (g : Nat) : Nat := bits g 39 36

/-- Bins per frame (R105). -/
def binsPerFrame (cplx : Bool) (g : Nat) : Nat := if cplx then 2 ^ spLog g else 2 ^ spLog g / 2 + 1

/-! ### Channelize (R174, R175) -/

def State.sieveHead (s : State) (n : Nat) : Nat := leNat ((s.chainGeom n).take 32)

def svFirst (g : Nat) : Nat := bits g 255 240
def svCount (g : Nat) : Nat := bits g 239 224 + 1
/-- log2 of K. -/
def svLog (g : Nat) : Nat := bits g 223 220 + 4
def svTaps (g : Nat) : Nat := bits g 219 216 + 1
def svHop (g : Nat) : Nat := 2 ^ svLog g / (if bit g 215 then 2 else 1)
def svSpan (g : Nat) : Nat := 2 ^ svLog g * svTaps g
def svFormat (g : Nat) : Nat := bits g 207 204
def svShift (g : Nat) : Nat := bits g 203 200
def svRecord (g : Nat) : Nat := 2 ^ (bits g 199 196 + 4)
def svPower (g : Nat) : Nat := bits g 191 168
def svLevels (g : Nat) : Nat := bits g 159 144
def svRoutes (g : Nat) : Nat := bits g 143 128
def svPulse (g : Nat) : Nat := bits g 127 120

/-- Level entry `i` and route entry `i` (R175). -/
def State.levelEntry (s : State) (n i : Nat) : Nat := leAt (s.chainGeom n) (32 + 8 * i) 8
def State.routeEntry (s : State) (n i : Nat) : Nat := leAt (s.chainGeom n) (32 + 8 * svLevels (s.sieveHead n) + 4 * i) 4

/-! ### Pulse (R196, R197) -/

def State.pulseHead (s : State) (n : Nat) : Nat := leNat ((s.chainGeom n).take 32)

def puInputs (g : Nat) : Nat := bits g 255 240
def puLen (g : Nat) : Nat := bits g 239 228 + 1
def puPre (g : Nat) : Nat := bits g 227 216
def puNew (g : Nat) : Nat := 2 ^ (bits g 215 212 + 6)
def puGuard (g : Nat) : Nat := bits g 211 200
def puMaps (g : Nat) : Nat := bits g 161 158
def enDead (e : Nat) : Nat := bits e 91 80
def enArm (e : Nat) : Nat := bits e 79 72
def enFilter (e : Nat) : Nat := 2 ^ bits e 71 68
def enConfirm (e : Nat) : Nat := bits e 67 64 + 1
def enWidth (e : Nat) : Nat := bits e 59 48

/-- Is input `i` complex? A routed input is. -/
def State.puCplx (s : State) (n i : Nat) : Bool :=
  let e := s.pulseEntry n i
  enRoute e || s.inCplx n (enNumber e)

/-- b of R204. -/
def State.puUnit (s : State) (n i : Nat) : Nat := if s.puCplx n i then 16 else 32

/-- The Channelize slot whose routes Pulse slot `n` takes: RouteSource, or the Successor that has replaced it (R193). -/
def State.routeSource (s : State) (n : Nat) : Nat := (s.slot n).routeFrom.getD (bits (s.pulseHead n) 157 150)

/-- The stamp `o` samples after a stamp on input `i`. -/
def State.pulseStamp (s : State) (n i tag o : Nat) : Nat :=
  let e := s.pulseEntry n i
  if enRoute e then
    let c := s.routeSource n
    let g := s.sieveHead c
    let fs := s.inFs c (bits (s.routeEntry c (enNumber e)) 31 24)
    s.after fs tag (o * svHop g)
  else s.stampOn n (enNumber e) tag o

/-! ### Frame grids -/

/-- The channels or inputs of slot `n` that have a frame grid. -/
def State.gridUnits (s : State) (n : Nat) : List Nat :=
  if s.chainMode n = 3 then List.range (puInputs (s.pulseHead n)) else bitsSet 64 (s.rd (Ob.slotChannelMask n))

/-- Samples from frame to frame. -/
def State.gridStep (s : State) (n : Nat) : Nat :=
  let m := s.chainMode n
  if m = 1 then spHop (leNat (s.chainGeom n)) else if m = 2 then svHop (s.sieveHead n) else puNew (s.pulseHead n)

/-- Sample rate on the grid of channel or input `u`, numerator and denominator. -/
def State.gridFs (s : State) (n u : Nat) : Nat × Nat :=
  if s.chainMode n = 3 then
    let e := s.pulseEntry n u
    if enRoute e then
      let c := s.routeSource n
      let fs := s.inFs c (bits (s.routeEntry c (enNumber e)) 31 24)
      (fs.1, fs.2 * svHop (s.sieveHead c))
    else s.inFs n (enNumber e)
  else s.inFs n u

/-- The stamp `o` samples after a stamp on channel or input `u`. -/
def State.gridStamp (s : State) (n u a o : Nat) : Nat := if s.chainMode n = 3 then s.pulseStamp n u a o else s.stampOn n u a o

/-- The first frame start of the grid of `step` samples from a stamp that is at or after `T`. -/
def State.gridFrom (s : State) (n u a step T : Nat) : Nat :=
  let fs := s.gridFs n u
  if T ≤ a then a else s.gridStamp n u a (ceilDiv ((T - a) * fs.1) (s.second * fs.2 * step) * step)

/-- The tag of the first frame of channel or input `u` of slot `n` at or after `T`, once its grid is known; in Record mode of its first chunk. -/
def State.unitFrom (s : State) (n u T : Nat) : Option Nat :=
  if s.chainMode n = 4 then
    let t := s.chunkSpan n u
    (tget (dconst none) (s.pipeS n).chunk u).map fun c => if T ≤ c.tag then c.tag else c.tag + ceilDiv ((T - c.tag) * t.2) t.1 * t.1 / t.2
  else (tget (dconst none) (s.pipeS n).origin u).map fun o => s.gridFrom n u o.2 (s.gridStep n) T

/-- The boundary at `T` (R67): the tag of the first frame of slot `n` at or after `T`, as far as its grids are known. -/
def State.boundaryFrom (s : State) (n T : Nat) : Nat := leastOf T ((s.gridUnits n).filterMap fun u => s.unitFrom n u T)

/-- Tag of the next frame of channel or input `u` of slot `n`: none before its grid begins. -/
def State.pendingTag (s : State) (n u : Nat) : Option Nat :=
  (tget (dconst none) (s.pipeS n).origin u).map fun o => s.gridStamp n u o.2 (tget (dconst 0) (s.pipeS n).frame u * s.gridStep n)

/-- Tag of the next measure frame of input `u` of a Pulse pipeline. -/
def State.pendingBlock (s : State) (n u : Nat) : Option Nat :=
  (tget (dconst none) (s.pipeS n).origin u).map fun o => s.gridStamp n u o.2 (tget (dconst 0) (s.pipeS n).frame (256 + u) * s.gridStep n)

/-- The two slots of a replacement in which slot `n` takes part. -/
def State.pairOf (s : State) (n : Nat) : Option (Nat × Nat) :=
  match (s.slot n).replacing, (s.slot n).replacedBy with
  | some o, _ => some (o, n)
  | none, some m => some (n, m)
  | none, none => none

/-- The boundary at `T` on channel or input `u` of slot `n`: in Pulse, at a switch, the first sample at or after `T` that begins a frame of both
grids (R217). -/
def State.edgeOn (s : State) (n u T : Nat) : Nat :=
  match s.pairOf n with
  | some (o, m) =>
    if s.chainMode n = 3 && s.chainMode o == 3 && s.chainMode m == 3 && !(s.slot m).gap then
      match tget (dconst none) (s.pipeS n).origin u with
      | some a => s.gridFrom n u a.2 (Nat.lcm (puNew (s.pulseHead o)) (puNew (s.pulseHead m))) T
      | none => T
    else T
  | none => T

/-- What becomes of a frame of channel or input `u` of slot `n` with a tag, in a stage that a declared gap covers or not. -/
def State.gateOn (s : State) (n u tag : Nat) (gap : Bool) : Gate := s.gateBy n tag (s.edgeOn n u) gap

end Sys2Proof.Machine
end

