-- ==== Sys2Proof/Machine/Density.lean ====
section
/-! DEFINITION. Density maps (spec/06_density.md R155-R170). -/

namespace Sys2Proof.Machine

open Sys2Proof

/-! ### Cells (R157, R158) -/

/-- An increment; a saturated cell stays (R158). -/
def State.incCell (s : State) (k c r : Nat) : State :=
  match (s.mapS k).cell (s.rd (Ob.mapRows k)) c r false with
  | some a => s.poolWrite a (leBytes 4 (min 0xFFFFFFFF (s.poolNat a 4 + 1)))
  | none => s

/-- The position on an axis (R159, R160): inside, clamped, or none for a discarded one. -/
def axis (discard : Bool) (len : Nat) (v : Int) : Option Nat :=
  if 0 ≤ v ∧ v < len then some v.toNat else if discard then none else some (if v < 0 then 0 else len - 1)

/-- The row of a logp16 value (R159); 0x8000 is always below range. -/
def State.rowOf (s : State) (k : Nat) (v : Int) : Int :=
  if v = -32768 then s.rd (Ob.mapRows k) else fdiv (sint 16 (s.rd (Ob.mapRowTop k)) - v) (max 1 (s.rd (Ob.mapRowStep k)))

/-- The values that Combine selects (R159): column and value. -/
def selected (combine bpc : Nat) : Nat → Nat → List Int → List (Nat × Int)
  | 0, _, _ => []
  | fuel + 1, c, vs =>
    if vs.isEmpty then []
    else
      let g := vs.take (max 1 bpc)
      let pick := if combine = 0 then g.map fun v => (c, v)
        else if combine = 1 then [(c, g.foldl max (g.headD 0))] else [(c, g.foldl min (g.headD 0))]
      pick ++ selected combine bpc fuel (c + 1) (vs.drop (max 1 bpc))

/-- HistFilter skips the measurement block (R160): pile-up or saturation. -/
def State.histSkips (s : State) (k : Nat) (u : MapIn) : Bool :=
  let f := s.rd (Ob.mapHistFilter k)
  s.rd (Ob.mapSource k) != 0 && ((bit f 0 && bit u.flags 7) || (bit f 1 && bit u.flags 6))

/-- The positions that an update increments, none for a discarded value. -/
def State.positions (s : State) (k : Nat) (u : MapIn) : List (Option (Nat × Nat)) :=
  let disc := s.rd (Ob.mapOutOfRange k) == 1
  let rows := s.rd (Ob.mapRows k)
  if s.rd (Ob.mapSource k) = 0 then
    (selected (s.rd (Ob.mapCombine k)) (s.rd (Ob.mapBinsPerColumn k)) u.values.length 0 u.values).map fun p =>
      (axis disc rows (s.rowOf k p.2)).map fun r => (p.1, r)
  else
    let v := fun (i : Nat) => (u.values[i]?).getD 0
    let y := s.rd (Ob.mapYSelect k)
    let col := asr (v (s.rd (Ob.mapXSelect k)) - sint 32 (s.rd (Ob.mapXOffset k))) (s.rd (Ob.mapXShift k))
    let row : Int := if y = 0 then 0 else asr (v y - sint 32 (s.rd (Ob.mapYOffset k))) (s.rd (Ob.mapYShift k))
    [match axis disc (s.rd (Ob.mapColumns k)) col, axis disc rows row with
      | some c, some r => some (c, r)
      | _, _ => none]

/-! ### The density trigger (R166) -/

/-- The channels that feed a map of slot `n`. -/
def State.feeders (s : State) (n k : Nat) : List Nat :=
  let c := s.rd (Ob.mapChannel k)
  if c = 0xFF then bitsSet 64 (s.rd (Ob.slotChannelMask n)) else [c]

/-- The line of the density trigger of map `k` (R131): after the Weirs' lines, maps in ascending order. -/
def State.mapLine (s : State) (n k : Nat) : Nat :=
  let g := leNat (s.chainGeom n)
  s.rd (Ob.slotConditionFirst n) + (bitsSet 16 (bits g 55 40)).length * (bitsSet 64 (s.rd (Ob.slotChannelMask n))).length
    + ((bitsSet 4 (bits g 39 36)).filter fun j => decide (j < k) && s.rdB (Ob.mapTrigEnable j)).length

/-- Frame index `f` is complete: RegionCount is formed over the indices f - Window + 1 to f since the latest boundary, and the line decided. -/
def State.mapDecide (s : State) (n k f h tag : Nat) : State :=
  let x := s.mapS k
  let w := (f, h) :: x.window.filter fun p => decide (f < p.1 + s.rd (Ob.mapWindow k))
  let count := (w.map fun p => p.2).sum
  let s1 := (s.setMap k { x with window := w }).wr (Ob.mapRegionCount k) (count % 2 ^ 32)
  let l := s.mapLine n k
  if s.rd (Ob.slotConditionCount n) = 0 then s1
  else if s.rd (Ob.mapTrigHigh k) ≤ count then
    if (s1.lineS l).holdOver (s.rd (Ob.slotTrigHold n)) tag then s1.lineChange l tag true else s1
  else if count < s.rd (Ob.mapTrigLow k) then s1.lineChange l tag false else s1

/-- h(f) takes the update of one channel; a complete frame index is decided. -/
def State.mapTrigger (s : State) (n k : Nat) (u : MapIn) (h : Nat) : State :=
  if !s.rdB (Ob.mapTrigEnable k) then s
  else
    let x := s.mapS k
    let cur := (x.open'.find? fun o => o.1 == u.frame).getD (u.frame, [], 0, 0)
    let cur1 := (u.frame, u.ch :: cur.2.1, cur.2.2.1 + h, max cur.2.2.2 u.tag)
    let rest := x.open'.filter fun o => o.1 != u.frame
    if (s.feeders n k).all fun c => cur1.2.1.contains c then (s.setMap k { x with open' := rest }).mapDecide n k u.frame cur1.2.2.1 cur1.2.2.2
    else s.setMap k { x with open' := cur1 :: rest }

/-- An update is applied (R159, R160, R166); a block that HistFilter skips counts for nothing. -/
def State.mapApply (s : State) (k : Nat) (u : MapIn) : State :=
  if s.histSkips k u then s
  else
  let n := s.rd (Ob.mapBoundSlot k)
  let ps := s.positions k u
  let s1 := ps.foldl (fun s p => match p with
    | some (c, r) => s.incCell k c r
    | none => s.bump (Ob.mapDiscarded k)) s
  let cols := s.rd (Ob.mapRegionCols k)
  let rows := s.rd (Ob.mapRegionRows k)
  let h := (ps.filter fun p => match p with
    | some (c, r) => decide (cols % 65536 ≤ c) && decide (c ≤ cols / 65536) && decide (rows % 65536 ≤ r) && decide (r ≤ rows / 65536)
    | none => false).length
  (s1.bump (Ob.mapUpdates k)).mapTrigger n k u h

/-- The boundary that map `k` still has before it: that of an armed commit of its pipeline, or the end of its pipeline's frames; none for a
Successor's map after the switch. -/
def State.mapEdge (s : State) (k : Nat) : Option Nat :=
  let n := s.rd (Ob.mapBoundSlot k)
  let x := s.slot n
  let T := if s.rd (Ob.slotState n) = 3 then (if x.gap then none else x.armed) else match x.armed, x.bound with
    | some a, some b => some (min a b)
    | some a, none => some a
    | none, b => b
  T.map fun T => s.boundaryFrom n T

/-- Time of the next sweep tick of map `k` (R161): none from a boundary on that has yet to be taken. -/
def State.nextTick (s : State) (k : Nat) : Option Nat :=
  let T := (s.mapS k).anchor + (s.mapS k).tick * s.rd (Ob.mapSweepPeriod k)
  if s.rd (Ob.mapSweepPeriod k) = 0 then none
  else match s.mapEdge k with
    | some b => if b ≤ T then none else some T
    | none => some T

/-- The waiting updates tagged before a time are applied, oldest first. -/
def State.mapFlush (s : State) (k before : Nat) : State :=
  let x := s.mapS k
  let now := x.queue.filter fun u => decide (u.tag < before)
  now.foldl (fun s u => s.mapApply k u) (s.setMap k { x with queue := x.queue.filter fun u => !decide (u.tag < before) })

/-- A frame or block feeds the maps of a mask (R159, R160, R212): the maps whose channel it is, while OutputMask bit 2 is set. -/
def State.mapFeed (s : State) (n mask : Nat) (u : MapIn) : State :=
  if !bit (s.rd (Ob.slotOutputMask n)) 2 then s
  else (bitsSet 4 mask).foldl (fun s k =>
    if s.rd (Ob.mapChannel k) = 0xFF ∨ s.rd (Ob.mapChannel k) = u.ch then
      s.setMap k { s.mapS k with queue := (s.mapS k).queue ++ [u] }
    else s) s

/-- The turn of a waiting update against the sweep ticks and the boundary to come (R161, R169). -/
def State.mapTurn (s : State) (k : Nat) (u : MapIn) : Bool :=
  (match s.nextTick k with
  | some T => decide (u.tag < T)
  | none => true) && (match s.mapEdge k with
  | some b => decide (u.tag < b)
  | none => true)

/-- MAP_UPDATE: the oldest waiting update whose turn has come against the sweep ticks (R161) is applied. -/
def execMapUpdate (t : Nat) (map : Fin 4) (s : State) : Outcome :=
  let s := s.advance t
  let k := map.val
  let x := s.mapS k
  .next (match x.queue.find? (s.mapTurn k) with
    | some u => (s.setMap k { x with queue := x.queue.erase u }).mapApply k u
    | none => s)

/-! ### Sweeps (R161-R164) -/

/-- One decay step of a cell (R162). -/
def decayCell (shift : Nat) (floor : Bool) (v : Nat) : Nat :=
  if v < 2 ^ shift then (if floor then v - 1 else v) else v - v / 2 ^ shift

/-- The live cells are copied into the shadow. -/
def State.copyShadow (s : State) (k : Nat) : State :=
  let x := s.mapS k
  let rows := s.rd (Ob.mapRows k)
  (List.range x.columns).foldl (fun s c => (List.range rows).foldl (fun s r =>
    match x.cell rows c r false, x.cell rows c r true with
    | some a, some b => s.poolWrite b (leBytes 4 (s.poolNat a 4))
    | _, _ => s) s) s

/-- The shadow cells, column by column. -/
def State.shadowCells (s : State) (k : Nat) : List Nat :=
  let x := s.mapS k
  let rows := s.rd (Ob.mapRows k)
  (List.range x.columns).flatMap fun c => (List.range rows).map fun r => match x.cell rows c r true with
    | some a => s.poolNat a 4
    | none => 0

/-- A finished snapshot is rendered: enabled, asked for by the slot's outputs, and none runs (R165). -/
def State.renderStarts (s : State) (k : Nat) : Bool :=
  let n := s.rd (Ob.mapBoundSlot k)
  s.rdB (Ob.mapRenderEnable k) && decide (n < 64) && bit (s.rd (Ob.slotOutputMask n)) 5 && (s.mapS k).rendering.isNone

/-- SNAPSHOT_COPY_COMPLETE (R164, R165): the copy ends; a render starts unless one runs. -/
def execSnapshotCopyComplete (t : Nat) (map : Fin 4) (s : State) : Outcome :=
  let s := s.advance t
  let k := map.val
  let x := s.mapS k
  .next (match x.copying with
    | none => s
    | some T =>
      let q := (s.rd (Ob.mapSnapshotSeq k) + 1) % 2 ^ 32
      let render := s.renderStarts k
      ((s.setMap k { x with copying := none, slices := x.slices.map (fun i => { i with reset := false })
                            rendering := if render then some q else x.rendering
                            shot := if render then s.shadowCells k else x.shot }).wrs
        [(Ob.mapSnapshotSeq k, q), (Ob.mapSnapshotState k, 3), (Ob.mapSnapshotTime k, s.stamp T)]).sliceTable k)

/-! ### Rendering (R165) -/

/-- The palette index of a cell. -/
def cellIndex (logScale : Bool) (shift v : Nat) : Nat :=
  if logScale then (if v = 0 then 0 else min 255 (1 + Nat.log2 (v ^ 8))) else min 255 (v / 2 ^ shift)

/-- The octets of a pixel of colour `c` (XRGB8888) in a format, low octet first. -/
def pixelOf (format c : Nat) : Bytes :=
  if format = 0 then leBytes 2 (bits c 23 19 * 2 ^ 11 + bits c 15 10 * 2 ^ 5 + bits c 7 3)
  else if format = 1 then leBytes 3 c else leBytes 4 c

/-- Cell (c, r) is drawn from the shadow as the render found it. -/
def State.drawCell (s : State) (k c r : Nat) : State :=
  let g := leNat (s.dom (Ob.mapRenderTarget k))
  match (s.mapS k).shot[c * s.rd (Ob.mapRows k) + r]? with
  | none => s
  | some v =>
    let i := cellIndex (bit g 17) (bits g 16 12) v
    let px := pixelOf (bits g 19 18) (leAt (s.dom (Ob.mapPalette k)) (4 * i) 4)
    let w := bits g 27 24
    let h := bits g 23 20
    (List.range h).foldl (fun s dy => (List.range w).foldl (fun s dx =>
      s.hbmWrite (bits g 127 92 + (bits g 39 28 + r * h + dy) * bits g 91 76 * 64 + (bits g 51 40 + c * w + dx) * px.length) px) s) s

/-- Every cell of the shadow is drawn (R166). -/
def State.drawMap (s : State) (k columns : Nat) : State :=
  (List.range columns).foldl (fun s c => (List.range (s.rd (Ob.mapRows k))).foldl (fun s r => s.drawCell k c r) s) s

/-- RENDER_COMPLETE. -/
def execRenderComplete (t : Nat) (map : Fin 4) (s : State) : Outcome :=
  let s := s.advance t
  let k := map.val
  let x := s.mapS k
  .next (match x.rendering with
    | none => s
    | some q =>
      let s1 := s.drawMap k x.columns
      (s1.setMap k { s1.mapS k with rendering := none, shot := [] }).wr (Ob.mapRenderSeq k) q)

/-! ### Snapshot and Clear (R163) -/

/-- The time a TIME128 request names, 0 for the next tick. -/
def State.requested (s : State) (T : Nat) : Nat := if T = 0 then 0 else s.unstamp T

/-- Snapshot. -/
def mapSnapshot (k T : Nat) : Act := fun s =>
  let x := s.mapS k
  if 64 ≤ s.rd (Ob.mapBoundSlot k) || s.rd (Ob.mapSweepPeriod k) == 0 || !s.rdB (Ob.mapSnapshotEnable k) || x.snapAt.isSome
      || x.copying.isSome then .error Abort.state
  else .ok ((s.setMap k { x with snapAt := some (s.requested T) }).wr (Ob.mapSnapshotState k) 1)

/-- Clear. -/
def mapClear (k T : Nat) : Act := fun s =>
  if 64 ≤ s.rd (Ob.mapBoundSlot k) || s.rd (Ob.mapSweepPeriod k) == 0 then .error Abort.state
  else .ok ((s.noted (Ob.mapClear k)).setMap k { s.mapS k with clearAt := some (s.requested T) })

/-- MAP_SNAPSHOT. -/
def execMapSnapshot (t : Nat) (map : Fin 4) (time : Nat) (s : State) : Outcome := .next (s.serve t (mapSnapshot map time))

/-- MAP_CLEAR. -/
def execMapClear (t : Nat) (map : Fin 4) (time : Nat) (s : State) : Outcome := .next (s.serve t (mapClear map time))

/-- A RenderTarget that R165 accepts. -/
def State.renderOk (s : State) (k : Nat) (target : Bytes) : Bool :=
  let g := leNat target
  (target.isEmpty || (target.length == 16 && bits g 11 0 == 0 && bits g 19 18 != 3 && bits g 127 92 % 64 == 0
    && decide (1 ≤ bits g 75 64) && decide (bits g 75 64 ≤ 3840) && decide (1 ≤ bits g 63 52) && decide (bits g 63 52 ≤ 2160)
    && decide (1 ≤ bits g 27 24) && decide (bits g 27 24 ≤ 8) && decide (1 ≤ bits g 23 20) && decide (bits g 23 20 ≤ 8)
    && decide (bits g 51 40 + max (s.mapS k).columns (s.rd (Ob.mapColumns k)) * bits g 27 24 ≤ bits g 75 64)
    && decide (bits g 39 28 + s.rd (Ob.mapRows k) * bits g 23 20 ≤ bits g 63 52)))

/-! ### Boundaries (R169) -/

/-- A commit boundary `b`, the tag of the first new frame, on map `k` (R161, R163, R169): earlier updates are applied, the schedule and the trigger
window restart, and with ClearAtCommit tick 0 clears the cells, at once where the map has no ticks. -/
def State.mapBoundary (s : State) (k b : Nat) : State :=
  let s1 := s.mapFlush k b
  let clear := s1.rdB (Ob.mapClearAtCommit k)
  let ticks := s1.rd (Ob.mapSweepPeriod k) != 0
  let s2 := if clear && !ticks then s1.sweep k fun _ => 0 else s1
  s2.setMap k { s2.mapS k with anchor := b, tick := 0, window := [], open' := [], clearFirst := clear && ticks }

/-- The frame window of map `k`'s trigger starts anew after a declared gap (R69, R500). -/
def State.mapWindowRestart (s : State) (k : Nat) : State := s.setMap k { s.mapS k with window := [], open' := [] }

/-- Every sweep tick of slot `n`'s maps before `b` has been made (R161). -/
def State.ticksTo (s : State) (n b : Nat) : Bool :=
  (s.mapsOf n).all fun k => match s.nextTick k with
    | some T => decide (b ≤ T)
    | none => true

end Sys2Proof.Machine
end

