-- ==== Sys2Proof/Machine/Dsp.lean ====
section
/-! DEFINITION. Windows, prototypes and transforms in fixed point: angles are whole fractions of a turn, values are scaled by 2^80 or 2^60 (spec/04_spectrum.md R108, R109, R112; spec/07_sieve.md R177, R180). -/

namespace Sys2Proof.Machine

/-- The scale of sines and cosines while they are formed, and that of a table of them. -/
def fx : Nat := 2 ^ 80
def fy : Nat := 2 ^ 60

/-- Cosine and sine of a turn / 2^b, scaled by 2^80: the half-angle formulas from a quarter turn on. -/
def rootOf : Nat → Cx
  | 0 => { re := fx, im := 0 }
  | 1 => { re := -(fx : Int), im := 0 }
  | 2 => { re := 0, im := fx }
  | b + 3 =>
    let r := rootOf (b + 2)
    { re := isqrt (((fx : Int) + r.re).toNat * 2 ^ 79), im := isqrt (((fx : Int) - r.re).toNat * 2 ^ 79) }

/-- A product of two numbers scaled by 2^80. -/
def fxMul (x y : Cx) : Cx := { re := fdiv (x.re * y.re - x.im * y.im) fx, im := fdiv (x.re * y.im + x.im * y.re) fx }

/-- Cosine and sine of m / 2^b turns, scaled by 2^80. -/
def cisFx : Nat → Nat → Cx
  | 0, _ => { re := fx, im := 0 }
  | b + 1, m => if m % 2 = 1 then fxMul (rootOf (b + 1)) (cisFx b (m / 2)) else cisFx b (m / 2)

/-- Cosines and sines of m / 2^b turns, m below 2^b, scaled by 2^60. -/
def cisTable (b : Nat) : Array Cx :=
  (Array.range (2 ^ b)).map fun m => let c := cisFx b m; { re := fdiv c.re (2 ^ 20), im := fdiv c.im (2 ^ 20) }

/-- I0(z) scaled by 2^80 from (z/2)^2 = num / den: its power series. -/
def besselSum (num den : Nat) : Nat → Nat → Nat → Nat
  | 0, _, _ => 0
  | fuel + 1, k, term => term + besselSum num den fuel (k + 1) (term * num / (max 1 den * ((k + 1) * (k + 1))))
def besselI0 (num den : Nat) : Nat := besselSum num den 80 0 fx

/-- e^(num / den) scaled by 2^80. -/
def expSum (num den : Nat) : Nat → Nat → Nat → Nat
  | 0, _, _ => 0
  | fuel + 1, k, term => term + expSum num den fuel (k + 1) (term * num / (max 1 den * (k + 1)))
def expFx (num den : Nat) : Nat := expSum num den 80 0 fx

/-- beta of R108 times 10^4. -/
def kaiserBeta (p : Nat) : Nat := ([62832, 78540, 94248, 109956][p]?).getD 0
/-- alpha of R108 times 10. -/
def gaussAlpha (p : Nat) : Nat := ([25, 30, 35][p]?).getD 0

/-- The cosine-sum coefficients of R108 times 10^9. -/
def cosineTerms (window : Nat) : List Int :=
  if window = 1 then [500000000, 500000000]
  else if window = 2 then [215578950, 416631580, 277263158, 83578947, 6947368]
  else [358750000, 488290000, 141280000, 11680000]

/-- The Kaiser value at x = d / e, scaled by 2^80 (R108): I0(beta * sqrt(1 - x^2)). -/
def kaiserAt (p d e : Nat) : Nat :=
  besselI0 (kaiserBeta p * kaiserBeta p * (e * e - d * d)) (4 * 100000000 * (e * e))

/-- round(131,071 * num / den), halves up (log entry 23). -/
def quantize (num den : Int) : Int := Int.fdiv (2 * 131071 * num + den) (2 * den)

/-- w_q[n] of a built-in window of length 2^b (R108, R109). -/
def builtinWindow (b window param : Nat) : List Int :=
  let N : Nat := 2 ^ b
  (List.range N).map fun (n : Nat) =>
    let d := (2 * (n : Int) - N).natAbs
    if window = 0 then 131071
    else if window ≤ 3 then
      let a := cosineTerms window
      let top := a.sum
      let v : Int := (a.zipIdx.map fun (p : Int × Nat) => (if p.2 % 2 = 0 then p.1 else -p.1) * (cisFx b (p.2 * n % N)).re).sum
      quantize v (top * fx)
    else if window = 4 then quantize (kaiserAt param d N) (kaiserAt param 0 1)
    else
      let al := gaussAlpha param
      quantize (fx * fx) (fx * (expFx (al * al * d * d) (200 * N * N)))

/-- pi scaled by 2^80. -/
def piFx : Nat := 3797952473636338580787993

/-- sinc(m / (2 K)) scaled by 2^80, K = 2^kb (R177): sin(pi u) / (pi u). -/
def sincFx (kb : Nat) (m : Int) : Int :=
  if m = 0 then fx
  else
    let s := (cisFx (kb + 2) (m % (2 ^ (kb + 2) : Nat)).toNat).im
    fdiv (s * fx * 2 ^ (kb + 1)) (piFx * m.natAbs) * (if m < 0 then -1 else 1)

/-- h_q[n] of the built-in prototype of K = 2^kb branches and T taps (R177). -/
def builtinProto (kb T param : Nat) : List Int :=
  if T = 1 then builtinWindow kb 4 param
  else
    let L := 2 ^ kb * T
    let h := (List.range L).map fun n =>
      let m := 2 * (n : Int) - L + 1
      sincFx kb m * kaiserAt param m.natAbs (L - 1)
    let top := h.foldl max 1
    h.map fun v => quantize v top

/-- The coefficients of an octet block (R110): three octets each, sign-extended. -/
def coefficients : Bytes → List Int
  | a :: b :: c :: l => sint 24 (leNat [a, b, c]) :: coefficients l
  | _ => []

/-- S1, S2 and the sum of magnitudes (R109, R110). -/
def sum1 (w : List Int) : Int := w.sum
def sum2 (w : List Int) : Int := (w.map fun c => c * c).sum
def sumAbs (w : List Int) : Int := (w.map fun (c : Int) => (c.natAbs : Int)).sum

/-- The checks of R111 on a coefficient block of a length. -/
def coefficientsOk (lengthOk : Bool) (length : Nat) (b : Bytes) : Bool :=
  let w := coefficients b
  lengthOk && b.length == 3 * length && (w.all fun c => decide (-131072 ≤ c) && decide (c < 131072))
  && decide (0 < sum1 w) && decide (sumAbs w ≤ 64 * sum1 w)

/-- Sum over n of c[n] * x[n] * e^(-i 2 pi f (o + n) / 2^b), scaled by 2^60. -/
def dftAt (tab : Array Cx) (b : Nat) (f : Int) : Nat → List Int → List Cx → Cx
  | n, c :: cs, x :: xs =>
    let r := tab[((f * n) % (2 ^ b : Nat)).toNat]?.getD { re := 0, im := 0 }
    let p := Cx.mul true x r
    let rest := dftAt tab b f (n + 1) cs xs
    { re := c * p.re + rest.re, im := c * p.im + rest.im }
  | _, _, _ => { re := 0, im := 0 }

/-- The presented sample as a complex number (R112). -/
def sampleCx (cplx : Bool) (w : Nat) : Cx := { re := sint 16 w, im := if cplx then sint 16 (w / 65536) else 0 }

/-- P_ref of R15, as numerator and denominator. -/
def pRef (cplx : Bool) : Nat × Nat := (1073676289, if cplx then 1 else 2)

/-- round(num / den) with halves away from zero, times 2^-e. -/
def scaleRound (num : Int) (den : Nat) (e : Int) : Int :=
  if 0 ≤ e then roundHalfAway num (den * 2 ^ e.toNat) else roundHalfAway (num * 2 ^ (-e).toNat) den

/-- The block exponent of R114: the smallest from -24 to 8 at which every component lies in -32,767..32,767. -/
def blockExp (den : Nat) (vs : List Int) : Nat → Int → Int
  | 0, e => e
  | fuel + 1, e => if vs.all fun v => decide ((scaleRound v den e).natAbs ≤ 32767) then e else blockExp den vs fuel (e + 1)

/-- A free perturbation of magnitude at most `r`, and one of at most one count. -/
def within (r v : Nat) : Int := (v % (2 * r + 1) : Nat) - (r : Int)

end Sys2Proof.Machine
end

