-- ==== Sys2Proof/Machine/Spectrum.lean ====
section
/-! DEFINITION. Spectrum mode: frames, bins, Weirs, traces and user windows (spec/04_spectrum.md R103-R127; spec/05_triggers.md R134-R139). -/

namespace Sys2Proof.Machine

open Sys2Proof

/-- The coefficients a geometry names (R108-R110). -/
def State.windowOf (s : State) (g : Nat) : List Int :=
  if spWindow g = 6 then coefficients (s.dom (Ob.uwinCoefficients (spParam g))) else builtinWindow (spLog g) (spWindow g) (spParam g)

/-! ### Transform (R112-R115) -/

/-- What a frame gives: per delivered bin the logp16 word, whether it was clamped, the power numerator, and the c32 components. -/
structure Bin where
  word : Nat
  clamped : Bool
  power : Nat
  re : Int
  im : Int
  deriving DecidableEq, Repr

/-- A power as logp16 within one count (R113, R115), and whether it was clamped. -/
def logWithin (num den : Nat) (free : Nat) : Nat × Bool :=
  if num = 0 then (0x8000, false)
  else
    let v := clampI (-32767) 32767 (sint 16 (logp16 num den) + within 1 free)
    (uint 16 v, logGe num den 32768)

/-- Bin `j` of a frame whose first sample has index `o` from the phase reference: `noise` bounds the power that the arithmetic adds to X, its spurious
products among it (R115; DEDUCED, log entry 148), 0 for a frame of zeros (R126). -/
def binOf (cplx : Bool) (b : Nat) (tab : Array Cx) (w : List Int) (x : List Cx) (noise o : Nat) (free : Nat → Nat) (j : Nat) : Bin :=
  let n : Nat := 2 ^ b
  let f : Int := if cplx then (j : Int) - (n / 2 : Nat) else j
  let r := dftAt tab b f o w x
  let a := within (isqrt noise) (free (4 * j))
  let re := r.re + a
  let im := r.im + within (isqrt (noise - (a * a).toNat)) (free (4 * j + 1))
  let inner := !cplx && j != 0 && 2 * j != n
  let s1 := (sum1 w).toNat
  let p := (re * re + im * im).toNat * (if inner then 2 else 1)
  let l := logWithin (p * (pRef cplx).2) (s1 * s1 * fy * fy * (pRef cplx).1) (free (4 * j + 2))
  let k : Int := if inner then 2 else 1
  { word := l.1, clamped := l.2, power := p, re := k * re, im := k * im }

/-- The power that white noise of mean square 1/3 code^2 at the input adds to X through a window (R115, R181). -/
def noisePower (w : List Int) (words : List Nat) : Nat := if words.all fun v => v == 0 then 0 else (sum2 w).toNat * fy * fy / 3

/-- Every bin of a frame of words (R105). -/
def State.transform (s : State) (g : Nat) (cplx : Bool) (words : List Nat) : List Bin :=
  let w := s.windowOf g
  let x := words.map (sampleCx cplx)
  let tab := cisTable (spLog g)
  (List.range (binsPerFrame cplx g)).map fun j => binOf cplx (spLog g) tab w x (noisePower w words) 0 (s.nth 112) j

/-- The delivered bins among them. -/
def delivered (g : Nat) (l : List Bin) : List Bin := (l.drop (spFirst g)).take (spBins g)

/-- c32 words of a frame (R114): the exponent, the least that every component of the whole frame fits, and one word per delivered bin, each
component within one count. -/
def c32Of (den : Nat) (all bins : List Bin) (free : Nat → Nat) : Int × List Nat :=
  let e := blockExp den (all.flatMap fun b => [b.re, b.im]) 32 (-24)
  let comp := fun (v : Int) (i : Nat) =>
    let q := scaleRound v den e
    uint 16 (if v = 0 then 0 else clampI (-32767) 32767 (q + within 1 (free i)))
  (e, bins.zipIdx.map fun p => comp p.1.re (4 * p.2 + 3) + comp p.1.im (4 * p.2 + 1048576) * 65536)

/-! ### Weirs (R134-R139) -/

/-- Entry `i` of Limits: U and L. -/
def State.limit (s : State) (w i : Nat) : Int × Int :=
  let e := leAt (s.dom (Ob.weirLimits w)) (4 * i) 4
  (sint 16 (e / 65536), sint 16 e)

/-- The line of Weir `w` for channel `k` (R131). -/
def State.weirLine (s : State) (n g w k : Nat) : Nat :=
  let chs := bitsSet 64 (s.rd (Ob.slotChannelMask n))
  s.rd (Ob.slotConditionFirst n) + ((spWeirs g).filter fun v => decide (v < w)).length * chs.length + (chs.filter fun c => decide (c < k)).length

/-- A Weir line changes, if the slot drives lines. -/
def State.weirChange (s : State) (n g w k tag : Nat) (v : Bool) : State :=
  if s.rd (Ob.slotConditionCount n) = 0 then s else s.lineChange (s.weirLine n g w k) tag v

/-- The excess of a bin on the upper and the lower side (R136). -/
def excess (v u l : Int) : Int := max (v - u) (l - v)

/-- The bin with the largest excess, lowest first: index and excess. -/
def peakExcess : List (Int × Int × Int) → Nat → Option (Nat × Int) → Option (Nat × Int)
  | [], _, best => best
  | (v, u, l) :: rest, i, best =>
    let x := excess v u l
    peakExcess rest (i + 1) (match best with
      | some (j, y) => if y < x then some (i, x) else some (j, y)
      | none => some (i, x))

/-- The body of a Weir event (R136). -/
def State.weirBody (s : State) (g w k frame flags strict : Nat) (rows : List (Int × Int × Int)) : Nat :=
  let bad := fun (r : Int × Int × Int) => decide (r.2.1 < r.1) || decide (r.1 < r.2.2)
  let first := (rows.findIdx? bad).getD 0
  let pk := (peakExcess rows 0 none).getD (0, 0)
  let v := ((rows[pk.1]?).getD (0, 0, 0)).1
  frame * 2 ^ 192 + (spFirst g + first) * 2 ^ 176 + (spFirst g + pk.1) * 2 ^ 160 + min 65535 pk.2.toNat * 2 ^ 144 + k * 2 ^ 136 + w * 2 ^ 132
    + b2n (rows.any fun r => decide (r.1 < r.2.2)) * 2 ^ 131 + b2n (rows.any fun r => decide (r.2.1 < r.1)) * 2 ^ 130
    + strict % 65536 * 2 ^ 112 + flags % 16 * 2 ^ 104 + uint 16 v * 2 ^ 80 + s.rd (Ob.weirPersistence w) * 2 ^ 64

/-- The state in which Weir `w` takes a frame of channel `k` of slot `n`: after a boundary not violating, with the line as it stands until this first new
frame decides it (R139). -/
def State.weirStart (s : State) (n g w k : Nat) : WeirState :=
  let x := s.weirS n w k
  if x.begun then x else { begun := true, carried := s.rd (Ob.slotConditionCount n) != 0 && (s.lineS (s.weirLine n g w k)).value }

/-- Weir `w` evaluates a frame of channel `k` (R134): `vs` the logp16 values of the delivered bins. -/
def State.weirFrame (s : State) (n g w k frame tag flags : Nat) (vs : List Int) : State :=
  let H : Int := s.rd (Ob.weirHysteresis w)
  let rows := vs.zipIdx.map fun p => (p.1, s.limit w p.2)
  let strict := (rows.filter fun r => decide (r.2.1 < r.1) || decide (r.1 < r.2.2)).length
  let relaxed := (rows.filter fun r => decide (r.2.1 - H < r.1) || decide (r.1 < r.2.2 + H)).length
  let need := s.rd (Ob.weirMinBins w)
  let x := s.weirStart n g w k
  if x.violating then
    let rel := if relaxed < need then x.rel + 1 else 0
    if s.rd (Ob.weirReleaseFrames w) ≤ rel then
      ((s.setWeir n w k { begun := true }).weirChange n g w k tag false).wr (Ob.weirViolating w) (setBit (s.rd (Ob.weirViolating w)) k false)
    else s.setWeir n w k { x with rel := rel }
  else
    let run := if need ≤ strict then x.run + 1 else 0
    let s1 := (if x.carried && decide (strict < need) then s.weirChange n g w k tag false else s).wr (Ob.weirViolating w)
      (setBit (s.rd (Ob.weirViolating w)) k false)
    let carried := x.carried && decide (need ≤ strict)
    let hold := s.rd (Ob.slotConditionCount n) = 0 ∨ (s1.lineS (s1.weirLine n g w k)).holdOver (s.rd (Ob.slotTrigHold n)) tag = true
    if s.rd (Ob.weirPersistence w) ≤ run ∧ hold then
      let body := leBytes 32 (s.weirBody g w k frame flags strict rows)
      let s2 := ((s1.setWeir n w k { begun := true, violating := true }).weirChange n g w k tag true).wrs
        [(Ob.weirViolating w, setBit (s.rd (Ob.weirViolating w)) k true), (Ob.weirEventCount w, (s.rd (Ob.weirEventCount w) + 1) % 2 ^ 32)]
      let s3 := s2.setDom (Ob.weirLastEvent w) body
      if s.rdB (Ob.weirEventsToRecord w) then
        s3.queueRecord n { kind := 2, slot := n, epoch := s.rd (Ob.slotEpoch n), time := s.stamp tag, flags := s.headFlags n flags, input := k
                           body := body ++ List.replicate 32 0 }
      else s3
    else s1.setWeir n w k { x with run := run, carried := carried }

/-! ### Traces and records (R117-R122) -/

/-- The largest value of a payload and its bin, the lowest of equals (R120). -/
def peakBin : List Int → Nat → Option (Nat × Int) → Nat × Int
  | [], _, best => best.getD (0, -32768)
  | v :: l, i, best => peakBin l (i + 1) (match best with
    | some (j, b) => if b < v then some (i, v) else some (j, b)
    | none => some (i, v))

/-- The spectrum header (R120, R121); `fl` bits [3:0] input flags, bit 6 Clamped. -/
def specHeader (g k frame count : Nat) (e : Int) (fl : Nat) (logs : List Int) : Nat :=
  let pk := peakBin logs 0 none
  let flags := b2n (decide (count < spM g)) * 128 + fl % 16 + b2n (bit fl 6) * 64
  frame * 2 ^ 192 + count % 65536 * 2 ^ 176 + spFirst g * 2 ^ 160 + (spBins g - 1) * 2 ^ 144 + k * 2 ^ 136 + uint 8 e * 2 ^ 128
    + bits g 63 60 * 2 ^ 124 + bits g 59 58 * 2 ^ 122 + spFormat g * 2 ^ 120 + spWindow g * 2 ^ 116 + spDetector g * 2 ^ 112 + spParam g * 2 ^ 104
    + flags * 2 ^ 96 + uint 16 pk.2 * 2 ^ 80 + (spFirst g + pk.1) * 2 ^ 64

/-- A trace or frame goes to the record store and to the pool trace (R119, R122). -/
def State.specEmit (s : State) (n k : Nat) (x : Trace) (e : Int) (logs : List Int) (payload : Bytes) : State :=
  let g := leNat (s.chainGeom n)
  let body := leBytes 32 (specHeader g k x.firstIndex x.count e x.flags logs) ++ payload
  let s1 := s.queueRecord n { kind := 1, slot := n, epoch := x.epoch, time := s.stamp x.firstTag, flags := s.headFlags n x.flags, input := k
                              body := body }
  if bit (s.rd (Ob.slotOutputMask n)) 2 then s1.poolCopy n k body else s1

/-- The value of a trace bin from what the block accumulated (R117). -/
def traceValue (cplx : Bool) (s1 : Nat) (det count : Nat) (free v : Int) : Int :=
  if det = 3 then Int.fdiv (2 * v + count) (2 * count)
  else if det = 4 then sint 16 (logWithin (v.toNat * (pRef cplx).2) (count * s1 * s1 * fy * fy * (pRef cplx).1) free.toNat).1
  else v

/-- The block of channel `k` ends, complete or early (R118). -/
def State.traceEnd (s : State) (n k : Nat) : State :=
  let p := s.pipeS n
  let x := tget (dconst ({} : Trace)) p.trace k
  if x.count = 0 then s
  else
    let g := leNat (s.chainGeom n)
    let s1 := (sum1 (s.windowOf g)).toNat
    let logs := x.values.zipIdx.map fun v => traceValue (s.inCplx n k) s1 (spDetector g) x.count (s.nth 117 v.2) v.1
    ((s.setPipe n { p with trace := tset (dconst ({} : Trace)) p.trace k {} }).specEmit n k x 0 logs
      (logs.flatMap fun v => leBytes 2 (uint 16 v))).taken (4 * x.values.length)

/-- One frame into the block (R117): what each detector keeps. -/
def detect (det : Nat) (old : Option Int) (b : Bin) : Int :=
  let v := sint 16 b.word
  match det, old with
  | 1, some o => max o v
  | 2, some o => min o v
  | 3, _ => old.getD 0 + (if v = -32768 then -32767 else v)
  | 4, _ => old.getD 0 + b.power
  | _, _ => v

/-- A live frame of channel `k`: Weirs, maps, and the detector or the record (R112-R122). -/
def State.specFrame (s0 : State) (n k frame tag fl : Nat) (words : List Nat) : State :=
  let g := leNat (s0.chainGeom n)
  let cplx := s0.inCplx n k
  let all := s0.transform g cplx words
  let bins := delivered g all
  let c32 := c32Of ((sum1 (s0.windowOf g)).toNat * fy) all bins (s0.nth 112)
  let s := s0.taken (4 * 65536 + 1048576)
  let logs := bins.map fun b => sint 16 b.word
  let s1 := (spWeirs g).foldl (fun s w => s.weirFrame n g w k frame tag fl logs) s
  let s2 := s1.mapFeed n (spMaps g) { ch := k, frame := frame, tag := tag, flags := fl, values := logs }
  let clamped := bins.any fun b => b.clamped
  let epoch := s.rd (Ob.slotEpoch n)
  if spM g = 1 ∧ spDetector g = 0 then
    let x : Trace := { count := 1, firstIndex := frame, firstTag := tag, epoch := epoch, flags := fl ||| (64 * b2n clamped) }
    if spFormat g = 1 then s2.specEmit n k x c32.1 logs (c32.2.flatMap fun w => leBytes 4 w)
    else s2.specEmit n k x 0 logs (logs.flatMap fun v => leBytes 2 (uint 16 v))
  else
    let p := s2.pipeS n
    let x := tget (dconst ({} : Trace)) p.trace k
    let y : Trace := { count := x.count + 1
                       firstIndex := if x.count = 0 then frame else x.firstIndex
                       firstTag := if x.count = 0 then tag else x.firstTag
                       epoch := epoch
                       flags := x.flags ||| fl ||| (64 * b2n clamped)
                       values := bins.zipIdx.map fun b => detect (spDetector g) (if x.count = 0 then none else x.values[b.2]?) b.1 }
    let s3 := s2.setPipe n { p with trace := tset (dconst ({} : Trace)) p.trace k y }
    if spM g ≤ y.count then s3.traceEnd n k else s3

/-- SPECTRUM_FRAME (R104, R112): the next frame of channel `ch` of slot `n`, once all its samples are in the Polder. -/
def execSpectrumFrame (t : Nat) (n : Fin 64) (ch : Fin 64) (s : State) : Outcome :=
  let s := s.advance t
  let k := ch.val
  let g := leNat (s.chainGeom n)
  .next (if s.chainMode n != 1 || !bit (s.rd (Ob.slotChannelMask n)) k then s
    else match s.gridOrigin n k with
      | none => s
      | some o =>
        let m := tget (dconst 0) (s.pipeS n).frame k
        let i := o.1 + m * spHop g
        match s.inputAt n k i (2 ^ spLog g) with
        | none => s
        | some l =>
          let tag := (l.headD (0, 0, 0)).1
          let gate := s.inTurn n (fun o => s.pendingTag o k) (s.gate n k tag)
          if gate = .wait then s
          else
            let s1 := if gate = .live then s.specFrame n k m tag (frameFlags l) (l.map fun x => x.2.1) else s
            let s2 := if gate = .skip then s1 else s1.tookFrame n tag
            (s2.nextFrame n k o).drained n k 0 (i + spHop g))

/-! ### User windows (R110, R111) -/

/-- round(a / b), halves up. -/
def roundUp (a b : Nat) : Nat := if b = 0 then 0 else (2 * a + b) / (2 * b)

/-- Load of user window `u`. An Enbw of more than 32 bits shows its low 32 (DESIGN CHOICE, log entry 149). -/
def userWindowLoad (u : Nat) : Act := fun s =>
  let n := s.rd (Ob.uwinLength u)
  let b := s.dom (Ob.uwinCoefficients u)
  if coefficientsOk (isPow2 n && decide (256 ≤ n) && decide (n ≤ 65536)) n b then
    let w := coefficients b
    let s1 := (sum1 w).toNat
    .ok ((s.noted (Ob.uwinLoad u)).wrs [(Ob.uwinLoad u, 0), (Ob.uwinLoaded u, 1), (Ob.uwinCoherentGain u, roundUp (1000000 * s1) (131071 * n)),
      (Ob.uwinEnbw u, roundUp (1000 * n * (sum2 w).toNat) (s1 * s1)), (Ob.uwinPeakGain u, roundUp (1000 * (sumAbs w).toNat) s1)])
  else .ok ((s.noted (Ob.uwinLoad u)).wrs [(Ob.uwinLoad u, 0x4F), (Ob.uwinLoaded u, 0)])

/-- USER_WINDOW_LOAD. -/
def execUserWindowLoad (t : Nat) (u : Fin 4) (s : State) : Outcome := .next (s.serve t (userWindowLoad u))

/-! ### Boundaries (R69, R118, R139) -/

/-- The Weir states of slot `n` for some channels restart (R69, R139): not violating, each line as it is until the first new frame. -/
def State.weirRestart (s : State) (n : Nat) (chs : List Nat) : State :=
  (spWeirs (leNat (s.chainGeom n))).foldl (fun s w =>
    (chs.foldl (fun s k => s.setWeir n w k {}) s).wr (Ob.weirViolating w) (chs.foldl (fun v k => setBit v k false) (s.rd (Ob.weirViolating w)))) s

/-- A boundary of a Spectrum pipeline: trace blocks end, Weir states restart, lines that are up stay up until the first new frame. -/
def State.spectrumBoundary (s : State) (n : Nat) : State :=
  let chs := bitsSet 64 (s.rd (Ob.slotChannelMask n))
  (chs.foldl (fun s k => s.traceEnd n k) s).weirRestart n chs

end Sys2Proof.Machine
end

