-- ==== Sys2Proof/Machine/Sieve.lean ====
section
/-! DEFINITION. Channelize mode: the Sieve bank, its records, power tables, level conditions and routes (spec/07_sieve.md R171-R194). -/

namespace Sys2Proof.Machine

open Sys2Proof

/-- The coefficients of the bank (R177, R178). -/
def State.protoOf (s : State) (g : Nat) : List Int :=
  if bits g 214 212 = 0 then builtinProto (svLog g) (svTaps g) (bits g 211 208)
  else coefficients (s.dom (Ob.protoCoefficients (bits g 214 212 - 1)))

/-! ### Outputs (R180-R188) -/

/-- Replace octets of a block from an offset. -/
def patch (b : Bytes) (o : Nat) (v : Bytes) : Bytes := b.take o ++ List.replicate (o - b.length) 0 ++ v ++ b.drop (o + v.length)

/-- A fixed c16 component (R182): the value and whether it was clamped. -/
def fixedComp (den shift : Nat) (v : Int) : Int × Bool :=
  let q := scaleRound v den (-(shift : Int))
  (clampI (-32767) 32767 q, decide (32767 < q.natAbs))

/-- A fixed c16 sample: word and Saturated. -/
def fixedSample (den shift : Nat) (re im : Int) : Nat × Bool :=
  let a := fixedComp den shift re
  let b := fixedComp den shift im
  (uint 16 a.1 + uint 16 b.1 * 65536, a.2 || b.2)

/-- The channel header (R184, R185). -/
def chanHeader (g index count j k : Nat) (e : Int) (format fl power peak : Nat) : Nat :=
  index * 2 ^ 192 + count % 65536 * 2 ^ 176 + j * 2 ^ 160 + k * 2 ^ 152 + uint 8 e * 2 ^ 144 + bits g 223 220 * 2 ^ 140 + bits g 219 216 * 2 ^ 136
    + bits g 215 215 * 2 ^ 135 + bits g 214 212 * 2 ^ 132 + format * 2 ^ 128 + fl * 2 ^ 120 + power * 2 ^ 104 + svShift g * 2 ^ 100 + peak * 2 ^ 84

/-- Pairs of a flat list. -/
def pairs : List Int → List (Int × Int)
  | a :: b :: l => (a, b) :: pairs l
  | _ => []

/-- logp16 of a mean power (R183): `sum` over `count` samples of an inner or an outer Sieve channel. -/
def powerWord (cplx : Bool) (s1 sum count free : Nat) : Nat :=
  (logWithin (sum * (pRef cplx).2) (count * s1 * s1 * fy * fy * (pRef cplx).1) free).1

/-- A sample record of Sieve channel `j` ends (R184): its samples as fixed or block c16. -/
def State.sampEnd (s : State) (n k j : Nat) : State :=
  let p := s.pipeS n
  let x := tget (dconst ({} : Trace)) p.samp (k * 4096 + j)
  if x.count = 0 then s
  else
    let g := s.sieveHead n
    let cplx := s.inCplx n k
    let s1 := (sum1 (s.protoOf g)).toNat
    let den := s1 * fy
    let e : Int := if svFormat g = 2 then blockExp den x.values 32 (-24) else 0
    let words := (pairs x.values).map fun v =>
      if svFormat g = 1 then (fixedSample den (svShift g) v.1 v.2).1
      else uint 16 (scaleRound v.1 den e) + uint 16 (scaleRound v.2 den e) * 65536
    let inner := !cplx && j != 0 && 2 * j != 2 ^ svLog g
    let sum := ((pairs x.values).map fun v => (v.1 * v.1 + v.2 * v.2).toNat).sum / (if inner then 2 else 1)
    let fl := b2n (decide (x.count < svRecord g)) * 128 + b2n (bit x.flags 6) * 64 + x.flags % 16
    let body := leBytes 32 (chanHeader g x.firstIndex x.count j k e (svFormat g) fl (powerWord cplx s1 sum x.count (s.nth 184 0)) j)
      ++ words.flatMap fun w => leBytes 4 w
    ((s.setPipe n { p with samp := tset (dconst ({} : Trace)) p.samp (k * 4096 + j) {} }).queueRecord n
      { kind := 3, slot := n, epoch := x.epoch, time := s.stamp x.firstTag, flags := s.headFlags n x.flags, input := k, body := body }).taken 1

/-- A power interval of input `k` ends (R183, R184, R186). -/
def State.powerEnd (s : State) (n k : Nat) : State :=
  let p := s.pipeS n
  let x := tget (dconst ({} : Trace)) p.trace k
  if x.count = 0 then s
  else
    let g := s.sieveHead n
    let cplx := s.inCplx n k
    let s1 := (sum1 (s.protoOf g)).toNat
    let logs := x.values.zipIdx.map fun v => sint 16 (powerWord cplx s1 v.1.toNat x.count (s.nth 183 v.2))
    let pk := peakBin logs 0 none
    let fl := b2n (decide (x.count < svPower g)) * 128 + x.flags % 16
    let body := leBytes 32 (chanHeader g x.firstIndex (svCount g) (svFirst g) k 0 0 fl (uint 16 pk.2) (svFirst g + pk.1))
      ++ logs.flatMap fun v => leBytes 2 (uint 16 v)
    let s2 := ((s.setPipe n { p with trace := tset (dconst ({} : Trace)) p.trace k {} }).queueRecord n
      { kind := 4, slot := n, epoch := x.epoch, time := s.stamp x.firstTag, flags := s.headFlags n x.flags, input := k, body := body }).taken
        x.values.length
    if bit (s.rd (Ob.slotOutputMask n)) 2 then s2.poolCopy n k body else s2

/-- The block of level entry `i` ends and decides its line (R187); a block with Gap samples decides nothing (R194). -/
def State.levelBlockEnd (s : State) (n i : Nat) : State :=
  let p := s.pipeS n
  let x := tget (dconst ({} : Trace)) p.level i
  let s0 := s.setPipe n { p with level := tset (dconst ({} : Trace)) p.level i {} }
  if x.count = 0 || bit x.flags 5 || s.rd (Ob.slotConditionCount n) == 0 then s0
  else
    let e := s.levelEntry n i
    let k := bits e 63 56
    let s1 := (sum1 (s.protoOf (s.sieveHead n))).toNat
    let v := sint 16 (powerWord (s.inCplx n k) s1 (x.values.headD 0).toNat x.count (s.nth 187 0))
    let l := s.rd (Ob.slotConditionFirst n) + i
    let s2 := s0.taken 1
    if sint 16 (bits e 39 24) ≤ v then
      if (s2.lineS l).holdOver (s.rd (Ob.slotTrigHold n)) x.firstTag then s2.lineChange l x.firstTag true else s2
    else if v < sint 16 (bits e 23 8) then s2.lineChange l x.firstTag false else s2

/-- The level entries of input `k` take a frame: |y|^2 of their Sieve channels, or Gap. -/
def State.levelFrame (s : State) (n k tag : Nat) (gap : Bool) (power : Nat → Nat) : State :=
  (List.range (svLevels (s.sieveHead n))).foldl (fun s i =>
    let e := s.levelEntry n i
    if bits e 63 56 != k then s
    else
      let p := s.pipeS n
      let x := tget (dconst ({} : Trace)) p.level i
      let y : Trace := { count := x.count + 1, firstTag := tag, flags := x.flags ||| (32 * b2n gap)
                         values := [x.values.headD 0 + (power (bits e 55 40) : Nat)] }
      let s1 := s.setPipe n { p with level := tset (dconst ({} : Trace)) p.level i y }
      if 2 ^ bits e 3 0 ≤ y.count then s1.levelBlockEnd n i else s1) s

/-- The input of the Pulse pipeline in slot `m` that takes route `r` of slot `n` (R195, R197). -/
def State.routeInput (s : State) (m n r : Nat) : Option Nat :=
  let b := s.dom (Ob.slotGeometry m)
  let h := leNat (b.take 32)
  if s.rd (Ob.slotMode m) != 3 || s.routeSource m != n then none
  else (List.range (bits h 255 240)).find? fun i => let e := leAt b (32 + 16 * i) 16; bit e 7 && bits e 15 8 == r

/-- A unit of 16 routed samples is complete (R188): it goes to the consumer once that is admitted. -/
def State.unitSend (s : State) (n r : Nat) (l : List (Nat × Nat × Nat)) : State :=
  let m := svPulse (s.sieveHead n)
  if m < 64 && s.active m && !(s.slot m).gap then
    match s.routeInput m n r with
    | some i =>
      let q := s.pipeS m
      s.setPipe m { q with routed := tmod (dconst []) q.routed i (· ++ [{ epoch := s.rd (Ob.slotEpoch n), samples := l }]) }
    | none => s
  else s

/-- The routes of input `k` take an output sample: stamp, and word and flags of a Sieve channel. -/
def State.routeFrame (s : State) (n k stamp : Nat) (sample : Nat → Nat × Nat) : State :=
  (List.range (svRoutes (s.sieveHead n))).foldl (fun s r =>
    let e := s.routeEntry n r
    if bits e 31 24 != k then s
    else
      let w := sample (bits e 23 8)
      let p := s.pipeS n
      let l := tget (dconst []) p.unit r ++ [(stamp, w.1, w.2)]
      if l.length < 16 then s.setPipe n { p with unit := tset (dconst []) p.unit r l }
      else (s.setPipe n { p with unit := tset (dconst []) p.unit r [] }).unitSend n r l) s

/-- The stamp of routed output sample `m`, from the frame's tag (R202). -/
def State.routedStamp (s : State) (n k tag : Nat) : Nat :=
  let g := s.sieveHead n
  let fs := s.inFs n k
  tag + (svSpan g - 1) * s.second * fs.2 / max 1 (2 * fs.1)

/-- A live frame of input `k`. -/
def State.sieveFrame (s0 : State) (n k m tag fl : Nat) (words : List Nat) : State :=
  let g := s0.sieveHead n
  let cplx := s0.inCplx n k
  let w := s0.protoOf g
  let s1 := (sum1 w).toNat
  let noise := noisePower w words
  let tab := cisTable (svLog g)
  let x := words.map (sampleCx cplx)
  let bin := fun (j : Nat) => binOf cplx (svLog g) tab w x noise (svHop g * m) (s0.nth 180) j
  let s := s0.taken (4 * 8192)
  let outs := (List.range (svCount g)).map fun i => (svFirst g + i, bin (svFirst g + i))
  let epoch := s.rd (Ob.slotEpoch n)
  let fixed := fun (b : Bin) => fixedSample (s1 * fy) (svShift g) b.re b.im
  -- samples
  let records := bit (s.rd (Ob.slotOutputMask n)) 0 && svFormat g != 0
  let isRouted := fun (j : Nat) => (List.range (svRoutes g)).any fun r =>
    let e := s.routeEntry n r; bits e 31 24 == k && bits e 23 8 == j
  let clamps := (outs.filter fun o => ((records && svFormat g == 1) || isRouted o.1) && (fixed o.2).2).length
  let s2 := if clamps = 0 then s else
    let p := s.pipeS n
    (s.setPipe n { p with saturated := p.saturated + clamps }).setDom Ob.sieveSaturatedSamples
      (patch (s.dom Ob.sieveSaturatedSamples) (8 * n) (leBytes 8 (p.saturated + clamps)))
  let s3 := if records then outs.foldl (fun s o =>
      let p := s.pipeS n
      let q := k * 4096 + o.1
      let a := tget (dconst ({} : Trace)) p.samp q
      let sat := svFormat g == 1 && (fixed o.2).2
      let b : Trace := { count := a.count + 1
                         firstIndex := if a.count = 0 then m else a.firstIndex
                         firstTag := if a.count = 0 then tag else a.firstTag
                         epoch := epoch, flags := a.flags ||| fl ||| (64 * b2n sat), values := a.values ++ [o.2.re, o.2.im] }
      let s1 := s.setPipe n { p with samp := tset (dconst ({} : Trace)) p.samp q b }
      if svRecord g ≤ b.count then s1.sampEnd n k o.1 else s1) s2
    else s2
  -- power
  let p := s3.pipeS n
  let a := tget (dconst ({} : Trace)) p.trace k
  let b : Trace := { count := a.count + 1
                     firstIndex := if a.count = 0 then m else a.firstIndex
                     firstTag := if a.count = 0 then tag else a.firstTag
                     epoch := epoch, flags := a.flags ||| fl
                     values := outs.zipIdx.map fun o => (a.values[o.2]?).getD 0 + (o.1.2.power : Nat) }
  let s4 := s3.setPipe n { p with trace := tset (dconst ({} : Trace)) p.trace k b }
  let s5 := if svPower g ≤ b.count then s4.powerEnd n k else s4
  -- level entries and routes
  let s6 := s5.levelFrame n k tag false fun j => (bin j).power
  s6.routeFrame n k (s.routedStamp n k tag) fun j => let f := fixed (bin j); (f.1, fl % 32 + 64 * b2n f.2)

/-- A frame in a declared gap (R193, R194): routed samples are zeros marked Gap and level blocks hold Gap samples. -/
def State.sieveGap (s : State) (n k tag : Nat) : State :=
  (s.levelFrame n k tag true fun _ => 0).routeFrame n k (s.routedStamp n k tag) fun _ => (0, 32)

/-- The units of a Successor with routes follow the last unit of the slot it replaces (R193). -/
def State.routesInTurn (s : State) (n g : Nat) (x : Gate) : Gate :=
  if x = .live ∧ svRoutes g ≠ 0 ∧ (s.slot n).replacing.isSome = true then .wait else x

/-- CHANNELIZE_FRAME (R173, R180): the next bank frame of channel `ch` of slot `n`, once its new samples are in the Polder; the bank keeps
the samples of earlier frames that it needs again (R172). -/
def execChannelizeFrame (t : Nat) (n : Fin 64) (ch : Fin 64) (s : State) : Outcome :=
  let s := s.advance t
  let k := ch.val
  let g := s.sieveHead n
  .next (if s.chainMode n != 2 || !bit (s.rd (Ob.slotChannelMask n)) k then s
    else match s.gridOrigin n k with
      | none => s
      | some o =>
        let m := tget (dconst 0) (s.pipeS n).frame k
        let old := tget (dconst []) (s.pipeS n).hist k
        match s.inputAt n k (o.1 + m * svHop g + old.length) (svSpan g - old.length) with
        | none => s
        | some new =>
          let l := old ++ new
          let tag := (l.headD (0, 0, 0)).1
          let gate := s.routesInTurn n g (s.inTurn n (fun o => s.pendingTag o k) (s.gate n k tag))
          if gate = .wait then s
          else
            let s1 := if gate = .live then s.sieveFrame n k m tag (frameFlags l) (l.map fun x => x.2.1)
              else if s.inGap n k tag && gate == .skip then s.sieveGap n k tag else s
            let s2 := if gate = .skip then s1 else s1.tookFrame n tag
            let s3 := s2.setPipe n { s2.pipeS n with hist := tset (dconst []) (s2.pipeS n).hist k (l.drop (svHop g)) }
            (s3.nextFrame n k o).drained n k 0 (o.1 + m * svHop g + svSpan g))

/-- SIEVE_LOAD (R179). -/
def sieveLoad (u : Nat) : Act := fun s =>
  let n := s.rd (Ob.protoLength u)
  let b := s.dom (Ob.protoCoefficients u)
  if coefficientsOk (n % 16 == 0 && decide (16 ≤ n) && decide (n ≤ 65536)) n b then
    let w := coefficients b
    let s1 := (sum1 w).toNat
    .ok ((s.noted (Ob.protoLoad u)).wrs [(Ob.protoLoad u, 0), (Ob.protoLoaded u, 1), (Ob.protoDcGain u, s1),
      (Ob.protoEnbwTaps u, roundUp (1000 * n * (sum2 w).toNat) (s1 * s1))])
  else .ok ((s.noted (Ob.protoLoad u)).wrs [(Ob.protoLoad u, 0x4F), (Ob.protoLoaded u, 0)])

/-- SIEVE_LOAD. -/
def execSieveLoad (t : Nat) (u : Fin 4) (s : State) : Outcome := .next (s.serve t (sieveLoad u))

/-- A boundary of a Channelize pipeline (R193): records, power intervals and level blocks end; branch histories are kept. -/
def State.sieveBoundary (s : State) (n : Nat) : State :=
  let g := s.sieveHead n
  let chs := bitsSet 64 (s.rd (Ob.slotChannelMask n))
  let s1 := chs.foldl (fun s k => (List.range (svCount g)).foldl (fun s i => s.sampEnd n k (svFirst g + i)) (s.powerEnd n k)) s
  (List.range (svLevels g)).foldl (fun s i => s.levelBlockEnd n i) s1

/-- The unit in progress of every route is completed with zero samples marked Gap (R193). -/
def State.unitsClose (s : State) (n : Nat) : State :=
  (List.range (svRoutes (s.sieveHead n))).foldl (fun s r =>
    let p := s.pipeS n
    let l := tget (dconst []) p.unit r
    if l.isEmpty then s
    else (s.setPipe n { p with unit := tset (dconst []) p.unit r [] }).unitSend n r
      (l ++ List.replicate (16 - l.length) ((l.getLastD (0, 0, 0)).1, 0, 32))) s

end Sys2Proof.Machine
end

