-- ==== Sys2Proof/Machine/Pulse.lean ====
section
/-! DEFINITION. Pulse mode: the self-trigger, records, measurements and counters (spec/08_pulse.md R195-R218). -/

namespace Sys2Proof.Machine

open Sys2Proof

/-- Lookback and lookahead of the select frames (R204). -/
def State.selBack (s : State) (n i : Nat) : Nat :=
  let b := s.puUnit n i
  let e := s.pulseEntry n i
  b * ceilDiv (puGuard (s.pulseHead n) + enDead e + enArm e + enFilter e) b
def State.selAhead (s : State) (n i : Nat) : Nat :=
  let b := s.puUnit n i
  b * ceilDiv (enConfirm (s.pulseEntry n i) - 1) b

/-! ### Samples -/

/-- The routed samples of an input, oldest first. -/
def State.routedSamples (s : State) (n i : Nat) : List (Nat × Nat × Nat) :=
  (tget (dconst []) (s.pipeS n).routed i).flatMap fun u => u.samples

/-- Sample 0 of input `i` (R199): index and stamp. -/
def State.pulseOrigin (s : State) (n i : Nat) : Option (Nat × Nat) :=
  match tget (dconst none) (s.pipeS n).origin i with
  | some o => some o
  | none =>
    let e := s.pulseEntry n i
    let t0 := if s.isReplay n then 0 else s.unstamp (s.rd (Ob.slotAdmittedAt n))
    let first := fun (tags : List Nat) (base per : Nat) => (tags.findIdx? fun a => decide (t0 ≤ a)).map fun j => (base + per * j, (tags[j]?).getD 0)
    if enRoute e then
      first ((tget (dconst []) (s.pipeS n).routed i).map fun u => (u.samples.headD (0, 0, 0)).1) (tget (dconst 0) (s.pipeS n).routedBase i) 16
    else
      first ((s.chanS (s.chanKey n (enNumber e))).ring.map fun b => b.tag) (s.firstIndex n (enNumber e)) (s.puUnit n i)

/-- The input of Pulse slot `o` on the same ingest channel as input `i` of slot `n`. -/
def State.sameInput (s : State) (o n i : Nat) : Option Nat :=
  let e := s.pulseEntry n i
  if enRoute e then none
  else (List.range (puInputs (s.pulseHead o))).find? fun j => let f := s.pulseEntry o j; !enRoute f && enNumber f == enNumber e

/-- Slot `m` takes the grid origin of slot `o`, which it replaces, on input `i` (R217): its frames start at the first one at or after `t0`. -/
def State.adoptInput (s : State) (o m i t0 : Nat) : State :=
  match s.sameInput o m i with
  | none => s
  | some j => match tget (dconst none) (s.pipeS m).origin i, s.pulseOrigin o j with
    | none, some a =>
      let fs := s.gridFs m i
      let f := ceilDiv ((t0 - a.2) * fs.1) (s.second * fs.2 * puNew (s.pulseHead m))
      let p := s.pipeS m
      s.setPipe m { p with
        origin := tset (dconst none) p.origin i (some a)
        frame := tset (dconst 0) (tset (dconst 0) p.frame i f) (256 + i) f
        begin := tset (dconst 0) p.begin i (f * puNew (s.pulseHead m)) }
    | _, _ => s

/-- A Pulse Successor's inputs take the grids of the slot it replaces, in the order of the inputs, once they are known. -/
def State.pulseAdopt (s : State) (n i : Nat) : State :=
  match (s.slot n).replacing with
  | some o => if s.chainMode o = 3 && !(s.slot n).gap then s.adoptInput o n i (s.unstamp (s.rd (Ob.slotAdmittedAt n))) else s
  | none => s

/-- The grid on which input `i` of slot `n` takes frames: a Successor of a Pulse pipeline waits for that of the slot it replaces. -/
def State.pulseGrid (s : State) (n i : Nat) : Option (Nat × Nat) :=
  match (s.slot n).replacing with
  | some o => if s.chainMode o = 3 && (s.sameInput o n i).isSome then tget (dconst none) (s.pipeS n).origin i else s.pulseOrigin n i
  | none => s.pulseOrigin n i

/-- `len` samples of input `i` from index `a` on. -/
def State.pulseAt (s : State) (n i a len : Nat) : Option (List (Nat × Nat × Nat)) :=
  let e := s.pulseEntry n i
  if enRoute e then
    let base := tget (dconst 0) (s.pipeS n).routedBase i
    if a < base then none
    else
      let l := ((s.routedSamples n i).drop (a - base)).take len
      if l.length = len then some l else none
  else s.inputAt n (enNumber e) a len

/-- x[n]: the presented sample of a real input, the magnitude of a complex one (R195). -/
def pulseX (cplx : Bool) (w : Nat) : Int := if cplx then sampleMag true w else sint 16 w

/-! ### Self-trigger (R200) -/

/-- One input's rule over a window of samples: x[base ..], thresholds, polarity. -/
structure Rule where
  base : Nat
  x : Array Int
  pol : Int
  e : Nat
  guard : Nat

/-- x[n]. -/
def Rule.at (r : Rule) (n : Nat) : Int := r.x[n - r.base]?.getD 0

/-- v[n] (R200). -/
def Rule.v (r : Rule) (n : Nat) : Int :=
  let F := enFilter r.e
  if bit r.e 63 then r.pol * (r.at n - r.at (n - F))
  else r.pol * asr (((List.range F).map fun j => r.at (n - j)).sum) (bits r.e 71 68)

/-- candidate(n). -/
def Rule.candidate (r : Rule) (n : Nat) : Bool :=
  let thr := sint 18 (bits r.e 127 110)
  let rearm := sint 18 (bits r.e 109 92)
  let A := enArm r.e
  let reach := A + (if bit r.e 63 then enFilter r.e else enFilter r.e - 1)
  decide (reach ≤ n) && decide (1 ≤ n) && decide (r.base + reach ≤ n)
  && decide (r.v (n - 1) < thr) && ((List.range (enConfirm r.e)).all fun j => decide (thr ≤ r.v (n + j)))
  && ((List.range A).any fun j => decide (r.v (n - 1 - j) < rearm))

/-- accepted(n): no candidate in the dead time. -/
def Rule.accepted (r : Rule) (n : Nat) : Bool :=
  r.candidate n && ((List.range (enDead r.e)).all fun j => n < j + 1 || !r.candidate (n - 1 - j))

/-- recorded(n), RecordEnable aside: no accepted trigger in the guard. -/
def Rule.unguarded (r : Rule) (n : Nat) : Bool := (List.range r.guard).all fun j => n < j + 1 || !r.accepted (n - 1 - j)

/-- Counter `c` of input `i` (R213) counts. -/
def State.pulseCount (s : State) (n i c : Nat) : State :=
  let p := s.pipeS n
  s.setPipe n { p with counts := tmod (dconst 0) p.counts (i * 8 + c) (· + 1) }

/-- The line of input `i` (R201). -/
def State.pulseLine (s : State) (n i : Nat) : Nat :=
  s.rd (Ob.slotConditionFirst n) + ((List.range i).filter fun j => bit (s.pulseEntry n j) 61).length

/-- The line of an accepted trigger at sample `a` with stamp `st` (R201): up from its stamp, or under TrigHold from the first decision after
the hold, down at sample a + W. -/
def State.pulseRise (s : State) (n i st : Nat) : State :=
  let e := s.pulseEntry n i
  let l := s.pulseLine n i
  let hold := s.rd (Ob.slotTrigHold n)
  let up := (List.range (enWidth e)).find? fun j => (s.lineS l).holdOver hold (s.pulseStamp n i st j)
  match up with
  | some j => (s.lineChange l (s.pulseStamp n i st j) true).lineChange l (s.pulseStamp n i st (enWidth e)) false
  | none => s

/-- A select frame: the triggers among its new samples (R200, R201, R213); one that is not live is judged for the record windows that reach into
it, and counts and drives nothing. -/
def State.selectFrame (s : State) (n i : Nat) (live : Bool) (r : Rule) (first : Nat) (stamps : List Nat) : State :=
  let e := r.e
  stamps.zipIdx.foldl (fun s q =>
    let a := first + q.2
    if !r.accepted a then s
    else
      let rec' := bit e 60 && r.unguarded a
      let p := s.pipeS n
      let s0 := s.setPipe n { p with trigs := tmod (dconst []) p.trigs i (· ++ [(a, rec')]) }
      if !live then s0 else
      let s1 := s0.pulseCount n i 0
      let s2 := if rec' then s1.pulseCount n i 1 else if bit e 60 then s1.pulseCount n i 2 else s1
      if bit e 61 && s.rd (Ob.slotConditionCount n) != 0 then s2.pulseRise n i q.1 else s2) s

/-- The first new sample of the next select frame of input `i`. -/
def State.selFirst (s : State) (n i : Nat) : Nat := tget (dconst 0) (s.pipeS n).frame i * puNew (s.pulseHead n)

/-- The first sample that its rule looks back to: none before the first that the slot judges. -/
def State.selLow (s : State) (n i : Nat) : Nat := max (s.selFirst n i - s.selBack n i) (tget (dconst 0) (s.pipeS n).begin i)

/-- The samples of that frame with the ones its rule looks back and ahead to, once they are all there. -/
def State.selectIn (s : State) (n i : Nat) (o : Nat × Nat) : Option (List (Nat × Nat × Nat)) :=
  let lo := s.selLow n i
  s.pulseAt n i (o.1 + lo) (s.selFirst n i + puNew (s.pulseHead n) + s.selAhead n i - lo)

/-- The new samples among them. -/
def State.selectNew (s : State) (n i : Nat) (l : List (Nat × Nat × Nat)) : List (Nat × Nat × Nat) :=
  (l.drop (s.selFirst n i - s.selLow n i)).take (puNew (s.pulseHead n))

/-- The trigger rule of input `i` over samples from the next select frame's lookback on. -/
def State.selectRule (s : State) (n i : Nat) (l : List (Nat × Nat × Nat)) : Rule :=
  let cplx := s.puCplx n i
  let e := s.pulseEntry n i
  { base := s.selLow n i, x := (l.map fun x => pulseX cplx x.2.1).toArray
    pol := if !cplx && bit e 62 then -1 else 1, e := e, guard := puGuard (s.pulseHead n) }

/-- PULSE_SELECT_FRAME: the next select frame of input `input` of slot `n`. Frames in a declared gap of its stage lose their triggers (R216). -/
def execPulseSelectFrame (t : Nat) (n : Fin 64) (input : Fin 256) (s : State) : Outcome :=
  let s := s.advance t
  let i := input.val
  let g := s.pulseHead n
  .next (if s.chainMode n != 3 || decide (puInputs g ≤ i) then s
    else
      let s := s.pulseAdopt n i
      match s.pulseGrid n i with
      | none => s
      | some o =>
        match s.selectIn n i o with
        | none => s
        | some l =>
          let e := s.pulseEntry n i
          let mine := s.selectNew n i l
          let tag := (mine.headD (0, 0, 0)).1
          let gap := s.inGap n i tag
          let gate := s.inTurn n (fun o => (s.sameInput o n i).bind (s.pendingTag o)) (s.gateOn n i tag gap)
          if gate = .wait then s
          else
            let s1 := if gap && gate == .skip then s
              else s.selectFrame n i (gate == .live) (s.selectRule n i l) (s.selFirst n i) (mine.map fun x => x.1)
            let s2 := if gate = .skip then s1 else s1.tookFrame n tag
            let s3 := s2.nextFrame n i o
            if enRoute e then s3 else s3.drained n (enNumber e) 0 (o.1 + (s.selFirst n i + puNew g - s.selBack n i)))

/-! ### Measurements (R207-R211) -/

/-- round(a / b), b positive, halves up. -/
def roundDiv (a b : Int) : Int := Int.fdiv (2 * a + b) (2 * b)

/-- y[i] over a record. -/
structure Wave where
  y : Array Int
  peak : Nat

def Wave.at (w : Wave) (i : Nat) : Int := w.y[i]?.getD 0

/-- The last upward crossing of `c` at or before the peak, from position `i` down (R208). -/
def Wave.rise (w : Wave) (c : Int) : Nat → Option Int
  | 0 => none
  | i + 1 =>
    if w.at i < c ∧ c ≤ w.at (i + 1) then some (256 * i + fdiv (256 * (c - w.at i)) (w.at (i + 1) - w.at i)) else w.rise c i

/-- The first downward crossing of `c` from position `i` on, `fuel` positions long. -/
def Wave.fall (w : Wave) (c : Int) : Nat → Nat → Option Int
  | 0, _ => none
  | fuel + 1, i =>
    if c ≤ w.at (i - 1) ∧ w.at i < c then some (256 * (i - 1 : Nat) + fdiv (256 * (w.at (i - 1) - c)) (w.at (i - 1) - w.at i))
    else w.fall c fuel (i + 1)

/-- The interpolated upward crossings of `c`, in order. -/
def Wave.ups (w : Wave) (c : Int) : List Int :=
  (List.range (w.y.size - 1)).filterMap fun i =>
    if w.at i < c ∧ c ≤ w.at (i + 1) then some (256 * i + fdiv (256 * (c - w.at i)) (w.at (i + 1) - w.at i)) else none

/-- The lowest index from `lo` on with the largest y. -/
def peakIndex (y : List Int) (lo : Nat) : Nat := lo + (peakBin (y.drop lo) 0 none).1

/-- A difference that exists when both ends do. -/
def diffOf (a b : Option Int) : Option Int :=
  match a, b with
  | some x, some y => some (x - y)
  | _, _ => none

/-- One measurement block (R209-R211): its bits, its Flags, and the measurements in the code order of R160. -/
structure Block where
  word : Nat
  flags : Nat
  values : List Int

/-- Measure a record: `xs` the s[i], `st` the trigger's stamp in u_T, `n` its sample index, `count` the accepted triggers in the window,
`fl` input flags, `sat` Saturated. -/
def measure (g e : Nat) (second i : Nat) (pol : Int) (xs : List Int) (st n count fl : Nat) (sat : Bool) : Block :=
  let L := puLen g
  let bc := bits g 199 196
  let BL := 2 ^ bc
  let b16 : Int := if bc = 15 then 0 else roundDiv (16 * (xs.take BL).sum) BL
  let ys := xs.map fun x => pol * (16 * x - b16)
  let np := peakIndex ys (puPre g)
  let w : Wave := { y := ys.toArray, peak := np }
  let A := w.at np
  let d := w.at (np - 1) - 2 * w.at np + w.at (np + 1)
  let off : Int := if 0 ≤ d then 0 else clampI (-128) 128 (roundDiv (-(128 * (w.at (np - 1) - w.at (np + 1)))) (-d))
  let vPeak := decide (0 < np) && decide (np + 1 < L)
  let pos := decide (0 < A)
  let a10 := fdiv A 10
  let a90 := fdiv (9 * A) 10
  let cfd := if pos then w.rise (fdiv (A * bits g 195 188) 256) np else none
  let ris := if pos then diffOf (w.rise a90 np) (w.rise a10 np) else none
  let fal := if pos then diffOf (w.fall a10 (L - 1 - np) (np + 1)) (w.fall a90 (L - 1 - np) (np + 1)) else none
  let area := ((ys.drop (bits g 187 176)).take (bits g 175 164 + 1)).sum
  let tl : Int := 16 * bits e 47 32
  let up := if tl ≤ A then w.rise tl np else none
  let dn := w.fall tl (L - 1 - np) (np + 1)
  let topen := up.isSome && dn.isNone
  let tot := diffOf (some (dn.getD (256 * (L - 1 : Nat)))) up
  let ups := w.ups (16 * sint 16 (bits e 31 16))
  let per := if 2 ≤ ups.length then some (roundDiv (ups.getLastD 0 - ups.headD 0) (ups.length - 1 : Nat)) else none
  let freq := per.map fun p => min 0xFFFFFFFF (roundDiv (2 ^ 40) (max 1 p))
  let v := fun (o : Option Int) => o.getD 0
  let peakT := if vPeak then 256 * np + off else 0
  let valid := 1 + 2 + 4 * b2n vPeak + 8 * b2n cfd.isSome + 16 * b2n ris.isSome + 32 * b2n fal.isSome + 64 + 128 * b2n tot.isSome
    + 256 * b2n per.isSome + 512 * b2n freq.isSome
  let flags := 128 * b2n (decide (2 ≤ count)) + 64 * b2n sat + 32 * b2n topen + fl % 16
  { word := st / second % 65536 * 2 ^ 496 + st % second * 2 ^ 456 + i * 2 ^ 448 + uint 32 b16 * 2 ^ 416 + uint 32 A * 2 ^ 384
      + uint 24 peakT * 2 ^ 360 + uint 24 (v cfd) * 2 ^ 336 + uint 24 (v ris) * 2 ^ 312 + uint 24 (v fal) * 2 ^ 288 + uint 40 area * 2 ^ 248
      + uint 24 (v tot) * 2 ^ 224 + uint 24 (v per) * 2 ^ 200 + uint 32 (v freq) * 2 ^ 168 + min 255 ups.length * 2 ^ 160
      + min 255 count * 2 ^ 152 + valid * 2 ^ 136 + flags * 2 ^ 128 + n % 2 ^ 64 * 2 ^ 64
    flags := flags
    values := [0, A, b16, peakT, v cfd, v ris, v fal, area, v tot, v per, (i : Int)] }

/-- The record window of a trigger at sample `a`: samples from a - P on; one before sample 0 that the ring does not hold is a free value
(log entry 24). -/
def State.pulseWindow (s : State) (n i : Nat) (o : Nat × Nat) (a : Nat) : Option (List (Nat × Nat × Nat)) :=
  let g := s.pulseHead n
  let miss := puPre g - min (puPre g) (o.1 + a)
  let lo := o.1 + a - puPre g
  let held := if enRoute (s.pulseEntry n i) then tget (dconst 0) (s.pipeS n).routedBase i else s.firstIndex n (enNumber (s.pulseEntry n i))
  let gone := if a < puPre g then min (puPre g - a - miss) (held - lo) else 0
  match s.pulseAt n i (lo + gone) (puLen g - miss - gone) with
  | none => none
  | some l => some ((List.range (miss + gone)).map (fun j => (0, s.nth 206 j % 2 ^ 32, 0)) ++ l)

/-- The input flags of samples, a Gap sample counting as Substituted (R211). -/
def waveFlags (l : List (Nat × Nat × Nat)) : Nat := let f := orFlags l; f % 32 ||| (2 * b2n (bit f 5))

/-- The trigger rule over what the select stage has still to judge of the record windows of the next measure frame, from its lookback to `last`
(R206): "measured wholly under that epoch's settings", also across a boundary. -/
def State.windowRule (s : State) (n i : Nat) (o : Nat × Nat) (last : Nat) : Rule :=
  let lo := s.selLow n i
  s.selectRule n i ((s.pulseAt n i (o.1 + lo) (last + s.selAhead n i - lo)).getD [])

/-- Accepted triggers among the samples from `a` up to `b`: those the select stage has judged, and beyond them those of the rule. -/
def State.acceptedIn (s : State) (n i : Nat) (r : Rule) (a b : Nat) : Nat :=
  let judged := s.selFirst n i
  ((tget (dconst []) (s.pipeS n).trigs i).filter fun q => decide (a ≤ q.1) && decide (q.1 < min b judged)).length
    + ((List.range (b - max a judged)).filter fun j => r.accepted (max a judged + j)).length

/-- The block of one recorded trigger: window, block. -/
def State.pulseBlock (s : State) (n i : Nat) (o : Nat × Nat) (r : Rule) (a : Nat) : Option (List (Nat × Nat × Nat) × Nat × Block) :=
  match s.pulseWindow n i o a with
  | none => none
  | some l =>
    let g := s.pulseHead n
    let e := s.pulseEntry n i
    let cplx := s.puCplx n i
    let st := ((l[puPre g]?).getD (0, 0, 0)).1
    let count := s.acceptedIn n i r (a - puPre g) (a + puLen g - puPre g)
    let sat := bit (orFlags l) 6
    some (l, st, measure g e s.second i (if !cplx && bit e 62 then -1 else 1) (l.map fun x => pulseX cplx x.2.1) st a count (waveFlags l) sat)

/-- What one block does besides its record: counters and maps (R212, R213). -/
def State.blockOut (s : State) (n i st a : Nat) (b : Block) : State :=
  let e := s.pulseEntry n i
  let s1 := if bit b.flags 7 then s.pulseCount n i 3 else s
  let s2 := if bit b.flags 6 then s1.pulseCount n i 4 else s1
  s2.mapFeed n (puMaps (s.pulseHead n)) { ch := if enRoute e then 0x100 else enNumber e, frame := a, tag := st, flags := b.flags
                                          values := b.values }

/-- The first sample of the next measure frame of input `i`. -/
def State.measFirst (s : State) (n i : Nat) : Nat := tget (dconst 0) (s.pipeS n).frame (256 + i) * puNew (s.pulseHead n)

/-- A live measure frame with the recorded triggers `as` (R206). -/
def State.measureFrame (s : State) (n i : Nat) (o : Nat × Nat) (as : List Nat) : State :=
  let g := s.pulseHead n
  let epoch := s.rd (Ob.slotEpoch n)
  let r := s.windowRule n i o (s.measFirst n i + puNew g + puLen g - puPre g)
  let bs := as.filterMap fun a => (s.pulseBlock n i o r a).map fun b => (a, b)
  let s1 := (bs.foldl (fun s b => s.blockOut n i b.2.2.1 b.1 b.2.2.2) s).taken (puLen g)
  if bits g 163 162 = 0 then
    match bs with
    | [] => s1
    | b :: _ =>
      let fl := bs.foldl (fun f b => f ||| waveFlags b.2.1) 0
      s1.queueRecord n { kind := 5, slot := n, epoch := epoch, time := s.stamp b.2.2.1, flags := s.headFlags n fl, input := i
                         body := bs.flatMap fun b => leBytes 64 b.2.2.2.word }
  else bs.foldl (fun s b =>
    let w := if s.puCplx n i then 4 else 2
    s.queueRecord n { kind := 6, slot := n, epoch := epoch, time := s.stamp b.2.2.1, flags := s.headFlags n (waveFlags b.2.1), input := i
                      body := leBytes 64 b.2.2.2.word ++ b.2.1.flatMap fun x => leBytes w x.2.1 }) s1

/-- The samples that frame and its records can hold, and those to which the rule looks ahead for the triggers in them. -/
def State.measureIn (s : State) (n i : Nat) (o : Nat × Nat) : Option (List (Nat × Nat × Nat)) :=
  let g := s.pulseHead n
  let b := s.puUnit n i
  s.pulseAt n i (o.1 + s.measFirst n i) (puNew g + b * ceilDiv (puLen g - puPre g - 1) b + s.selAhead n i)

/-- The select stage has taken the frame itself: its triggers are known. -/
def State.measureDecided (s : State) (n i : Nat) : Bool :=
  decide (s.measFirst n i + puNew (s.pulseHead n) ≤ s.selFirst n i)

/-- The recorded triggers of the frame. -/
def State.measureTrigs (s : State) (n i : Nat) : List Nat :=
  ((tget (dconst []) (s.pipeS n).trigs i).filter fun q =>
    q.2 && decide (s.measFirst n i ≤ q.1) && decide (q.1 < s.measFirst n i + puNew (s.pulseHead n))).map fun q => q.1

/-- After a measure frame from sample `first`: the next frame, and what no later frame needs is dropped. -/
def State.measureNext (s : State) (n i first : Nat) (o : Nat × Nat) : State :=
  let g := s.pulseHead n
  let e := s.pulseEntry n i
  let b := s.puUnit n i
  let q := s.pipeS n
  let next := first + puNew g
  let keep := next - b * ceilDiv (puPre g) b
  let low := min keep (tget (dconst 0) q.frame i * puNew g - s.selBack n i)
  let us := tget (dconst []) q.routed i
  let base := tget (dconst 0) q.routedBase i
  let drop := if enRoute e then min us.length ((o.1 + low - base) / 16) else 0
  let s2 := s.setPipe n { q with
    frame := tset (dconst 0) q.frame (256 + i) (tget (dconst 0) q.frame (256 + i) + 1)
    trigs := tset (dconst []) q.trigs i ((tget (dconst []) q.trigs i).filter fun x => decide (next ≤ x.1 + puPre g))
    routed := tset (dconst []) q.routed i (us.drop drop)
    routedBase := tset (dconst 0) q.routedBase i (base + 16 * drop) }
  if enRoute e then s2 else s2.drained n (enNumber e) 1 (o.1 + keep)

/-- PULSE_MEASURE_FRAME: the next measure frame of input `input` of slot `n`, once its samples are there and the select stage has taken
it. A gap of its own stage, or of the select stage, loses its records (R216). -/
def execPulseMeasureFrame (t : Nat) (n : Fin 64) (input : Fin 256) (s : State) : Outcome :=
  let s := s.advance t
  let i := input.val
  .next (if s.chainMode n != 3 || decide (puInputs (s.pulseHead n) ≤ i) then s
    else match tget (dconst none) (s.pipeS n).origin i with
      | none => s
      | some o =>
        match s.measureIn n i o with
        | none => s
        | some l =>
          let tag := (l.headD (0, 0, 0)).1
          let gate := s.gateOn n i tag (s.inMeasureGap n i tag)
          if gate = .wait || !s.measureDecided n i then s
          else (if gate = .live then s.measureFrame n i o (s.measureTrigs n i) else s).measureNext n i (s.measFirst n i) o)

/-- ClearCounters (R213). -/
def pulseClearCounters (n : Nat) : Act := fun s =>
  if 64 ≤ n then .error Abort.range else .ok (s.setPipe n { s.pipeS n with counts := [] })

/-- PULSE_CLEAR_COUNTERS. -/
def execPulseClearCounters (t : Nat) (n : Nat) (s : State) : Outcome := .next (s.serve t (pulseClearCounters n))

end Sys2Proof.Machine
end

