-- ==== Sys2Proof/Machine/Sweeps.lean ====
section
/-! DEFINITION. Sweep ticks of density maps (spec/06_density.md R161-R163), which wait for the frames tagged before them. -/

namespace Sys2Proof.Machine

open Sys2Proof

/-- Every frame and record of map `k` tagged before `T` has given its update (R161). -/
def State.mapCurrent (s : State) (k T : Nat) : Bool :=
  let n := s.rd (Ob.mapBoundSlot k)
  let past := fun (o : Option Nat) => match o with
    | some t => decide (T ≤ t)
    | none => false
  if s.rd (Ob.mapSource k) = 0 then (s.feeders n k).all fun c => past (s.pendingTag n c)
  else (List.range (puInputs (s.pulseHead n))).all fun i =>
    let e := s.pulseEntry n i
    (s.rd (Ob.mapChannel k) != 0xFF && (enRoute e || enNumber e != s.rd (Ob.mapChannel k))) || past (s.pendingBlock n i)

/-- One sweep tick at time `T` (R162-R165): waiting updates before it are applied, the saturated cells are counted, a snapshot that is due
copies the map, the decay runs every MapDecayEvery ticks, and a clear that is due empties the cells. -/
def State.mapTick (s : State) (k T : Nat) : State :=
  let s1 := s.mapFlush k T
  let x := s1.mapS k
  let s2 := s1.wr (Ob.mapSaturated k) ((s1.cells k).filter fun a => s1.poolNat a 4 == 0xFFFFFFFF).length
  let due := fun (o : Option Nat) => match o with
    | some a => decide (a ≤ T)
    | none => false
  let s3 := if due x.snapAt then
      (((s2.copyShadow k).setMap k { x with snapAt := none, copying := some T }).wrs
        [(Ob.mapSnapshotState k, 2), (Ob.mapSnapshotSeq k, (s2.rd (Ob.mapSnapshotSeq k) + 1) % 2 ^ 32)])
    else s2
  let every := s.rd (Ob.mapDecayEvery k)
  let s4 := if every != 0 && x.tick != 0 && x.tick % every == 0 then
      s3.sweep k (decayCell (s.rd (Ob.mapDecayShift k)) (s.rdB (Ob.mapDecayFloor k))) else s3
  let s5 := if due x.clearAt || x.clearFirst then s4.sweep k fun _ => 0 else s4
  s5.setMap k { s5.mapS k with tick := x.tick + 1, clearFirst := false, clearAt := if due x.clearAt then none else x.clearAt }

/-- SWEEP_TICK: the next sweep tick of a map: snapshot copy, decay, clear. It waits for a copy that runs: the copy is complete no later than the
tick after the one at which it started (R164). -/
def execSweepTick (t : Nat) (map : Fin 4) (s : State) : Outcome :=
  let s := s.advance t
  let k := map.val
  .next (match s.nextTick k with
    | none => s
    | some T => if 64 ≤ s.rd (Ob.mapBoundSlot k) || decide (s.devNow < T) || (s.mapS k).copying.isSome || !s.mapCurrent k T then s else s.mapTick k T)

end Sys2Proof.Machine
end

