-- ==== Sys2Proof/Machine/Replay.lean ====
section
/-! DEFINITION. Replay: the reader, its feed and its end (spec/09_records.md R237, R238). -/

namespace Sys2Proof.Machine

open Sys2Proof

/-! ### Geometry prefix (R237) -/

def State.replayHead (s : State) (n : Nat) : Nat := leAt (s.dom (Ob.slotGeometry n)) 0 48
def rpSource (g : Nat) : Nat := bits g 375 368
def rpStart (g : Nat) : Nat := bits g 335 208
def rpEnd (g : Nat) : Nat := bits g 207 80

def State.repChan (s : State) (n k : Nat) : ReplayChan := tget (dconst ({} : ReplayChan)) (s.pipeS n).replay k
def State.setRepChan (s : State) (n k : Nat) (x : ReplayChan) : State :=
  let p := s.pipeS n
  s.setPipe n { p with replay := tset (dconst ({} : ReplayChan)) p.replay k x }

/-- Read a record of a ring. -/
def State.ringBytes (s : State) (m pos len : Nat) : Bytes :=
  (List.range len).map fun i => s.hbmByte ((s.ringS m).addr (pos + i))

/-- The Crc32 of a record matches (R222). -/
def recordGood (b : Bytes) : Bool :=
  let z := b.take 16 ++ List.replicate 4 0 ++ b.drop 20
  crc32 z == leAt b 16 4

/-- `k` zero samples with Substituted from stamp `a` (R238). -/
def State.zeros (s : State) (rate : Nat × Nat) (a k : Nat) : List (Nat × Nat × Nat) := (List.range k).map fun i => (s.after rate a i, 0, 2)

/-- Zero samples on the grid of a stamp `b`, from `a` up to it. -/
def State.zerosTo (s : State) (rate : Nat × Nat) (a b : Nat) : List (Nat × Nat × Nat) :=
  let k := (b - a) * rate.1 / max 1 (s.second * rate.2)
  (List.range k).map fun i => (b - (k - i) * s.second * rate.2 / max 1 rate.1, 0, 2)

/-- A Record-mode record reaches the reader: its samples join those of its channel, zeros stand in for what is missing before it; samples
outside StartTime..EndTime are not taken. -/
def State.takeRecord (s : State) (n : Nat) (b : Bytes) : State :=
  let h := leAt b 0 64
  let c := leAt b 64 64
  let k := bits c 431 424
  if bits h 511 504 != 7 || !bit (s.rd (Ob.slotChannelMask n)) k || !recordGood b then s
  else
    let x := s.repChan n k
    let g := s.replayHead n
    let fs := s.inFs n k
    let w := if x.cplx then 4 else 2
    let t0 := s.unstamp (bits h 447 320)
    let fl := bits h 223 208 % 16 + 16 * bits h 223 223
    let mine := (List.range (bits c 447 432)).map fun i => (s.after fs t0 i, leAt b (128 + w * i) w, fl)
    let gap := match x.next with
      | some a => if a < t0 then s.zeros fs a ((2 * (t0 - a) * fs.1 + s.second * fs.2) / max 1 (2 * s.second * fs.2)) else []
      | none => if rpStart g = 0 then [] else s.zerosTo fs (s.unstamp (rpStart g)) t0
    let inside := fun (q : Nat × Nat × Nat) =>
      (rpStart g == 0 || decide (s.unstamp (rpStart g) ≤ q.1)) && (rpEnd g == 0 || decide (q.1 ≤ s.unstamp (rpEnd g)))
    s.setRepChan n k { x with
      next := some (s.after fs t0 mine.length)
      samples := x.samples ++ (gap ++ mine).filter inside }

/-- Position `p` of a ring lies in a Frozen extent. -/
def RingState.frozenAt (x : RingState) (p : Nat) : Bool :=
  match x.extents[p % max 1 x.bytes / 2097152]? with
  | some e => e.frozen
  | none => false

/-- The reader takes records of its source ring until every selected channel has samples. -/
def State.readRing (s : State) (n m : Nat) : Nat → State
  | 0 => s
  | fuel + 1 =>
    if (bitsSet 64 (s.rd (Ob.slotChannelMask n))).all fun k => !(s.repChan n k).samples.isEmpty then s
    else match ((s.ringS m).consumers.find? fun c => c.who == replayWho n) with
      | none => s
      | some c => match c.queue with
        | [] => s
        | (p, len) :: _ =>
          -- a record in a Frozen extent waits until the freeze ends (R229)
          if (s.ringS m).frozenAt p || (s.ringS m).frozenAt (p + len - 1) then s else ((s.takeRecord n (s.ringBytes m p len)).consumerTake m (replayWho n) len).readRing n m fuel

/-- The channel whose next sample has the earliest stamp. -/
def State.earliestChan (s : State) (n : Nat) : Option Nat :=
  ((bitsSet 64 (s.rd (Ob.slotChannelMask n))).foldl (fun (best : Option (Nat × Nat)) k => match (s.repChan n k).samples with
    | [] => best
    | q :: _ => match best with
      | some (t, j) => if t ≤ q.1 then some (t, j) else some (q.1, k)
      | none => some (q.1, k)) none).map fun p => p.2

/-- Every consumer of a share has room for one more block. -/
def ChanState.room (c : ChanState) : Bool := c.consumers.all fun x => x.detached || decide (c.written + 64 - x.readPos ≤ x.bound)

/-- One block of channel `k` goes into its Polder share. -/
def State.feedBlock (s : State) (n k : Nat) : State :=
  let x := s.repChan n k
  let b := if x.cplx then 16 else 32
  let key := 64 + 64 * n + k
  let c := s.chanS key
  if x.samples.length < b || !c.room then s
  else
    let l := x.samples.take b
    let blk : PBlock := { tag := (l.headD (0, 0, 0)).1, flags := orFlags l, samples := l.map fun q => (q.1, q.2.1) }
    (s.setRepChan n k { x with samples := x.samples.drop b }).setChan key { c with
      written := c.written + 64, ring := (c.ring ++ [blk]).drop (c.ring.length + 1 - max 1 (64 * c.granules)) }

/-- The reader of slot `n` takes from its source ring, or the record that came from the drives. -/
def State.replayRead (s : State) (n : Nat) (source : Bytes) : State :=
  let m := rpSource (s.replayHead n)
  if s.rd (Ob.slotReplaySource n) = 1 then
    s.readRing n m (((s.ringS m).consumers.find? fun c => c.who == replayWho n).map (fun c => c.queue.length) |>.getD 0)
  else if source.isEmpty then s else s.takeRecord n source

/-- The source of slot `n` has nothing more to give: EndTime is passed on every channel, or a finished ring is read out; drives without an EndTime end
with the event. -/
def State.sourceEnded (s : State) (n : Nat) : Bool :=
  let g := s.replayHead n
  let m := rpSource g
  let passed := rpEnd g != 0 && (bitsSet 64 (s.rd (Ob.slotChannelMask n))).all fun k => match (s.repChan n k).next with
    | some a => decide (s.unstamp (rpEnd g) < a)
    | none => false
  passed || (s.rd (Ob.slotReplaySource n) == 1 && !s.active m && ((s.ringS m).consumers.all fun c => c.who != replayWho n || c.queue.isEmpty))

/-- At the end of its source every channel is completed with zeros, once (R238): up to EndTime, and to a whole 64-octet block (DEDUCED,
log entry 151). -/
def State.sourceFill (s0 : State) (n : Nat) : State :=
  let g := s0.replayHead n
  let s := s0.setPipe n { s0.pipeS n with replayDone := true }
  if (s0.pipeS n).replayDone then s0 else
  (bitsSet 64 (s.rd (Ob.slotChannelMask n))).foldl (fun s k =>
    let x := s.repChan n k
    match x.next with
    | none => s
    | some a =>
      let fs := s.inFs n k
      let e := s.unstamp (rpEnd g)
      let more := if rpEnd g = 0 ∨ e < a then [] else s.zeros fs a ((e - a) * fs.1 / max 1 (s.second * fs.2) + 1)
      let l := x.samples ++ more
      let b := if x.cplx then 16 else 32
      let short := (b - l.length % b) % b
      s.setRepChan n k { x with next := some (s.after fs a (more.length + short)), samples := l ++ s.zeros fs (s.after fs a more.length) short }) s

/-- REPLAY_FEED (R238): the reader of slot `n` feeds the block that is next in source-time order. `source` holds the next record read from
the drives (ReplaySource 0x02), empty when none has come. -/
def execReplayFeed (t : Nat) (n : Fin 64) (source : List (BitVec 8)) (s : State) : Outcome :=
  let s := s.advance t
  .next (if !s.isReplay n || !s.active n then s
    else
      let s1 := s.replayRead n source
      let s2 := if s1.sourceEnded n then s1.sourceFill n else s1
      match s2.earliestChan n with
      | some k => s2.feedBlock n k
      | none => s2)

/-- Everything of the source of slot `n` has been fed. -/
def State.sourceDone (s : State) (n : Nat) : Bool :=
  (s.pipeS n).replayDone && ((bitsSet 64 (s.rd (Ob.slotChannelMask n))).all fun k => (s.repChan n k).samples.isEmpty)

/-- The chain of slot `n` has no frame left whose samples are there. -/
def State.chainIdle (s : State) (n : Nat) : Bool :=
  let m := s.chainMode n
  let frame := fun (k : Nat) => tget (dconst 0) (s.pipeS n).frame k
  if m = 3 then (List.range (puInputs (s.pulseHead n))).all fun i => match s.pulseGrid n i with
    | none => true
    | some o => (s.selectIn n i o).isNone && ((s.measureIn n i o).isNone || !s.measureDecided n i)
  else (bitsSet 64 (s.rd (Ob.slotChannelMask n))).all fun k => match s.gridOrigin n k with
    | none => true
    | some o =>
      if m = 1 then
        let g := leNat (s.chainGeom n)
        (s.inputAt n k (o.1 + frame k * spHop g) (2 ^ spLog g)).isNone
      else
        let g := s.sieveHead n
        let old := (tget (dconst []) (s.pipeS n).hist k).length
        (s.inputAt n k (o.1 + frame k * svHop g + old) (svSpan g - old)).isNone

/-- The last outputs of the chain of slot `n` are emitted as Partial (R69, R118, R185); a triggered capture copies what is retained (R234). -/
def State.chainFlush (s : State) (n : Nat) : State :=
  if s.chainMode n = 1 then s.spectrumBoundary n else if s.chainMode n = 2 then s.sieveBoundary n
  else if s.chainMode n = 4 then s.lookFlush n else s

/-- REPLAY_END (R238): the source of slot `n` has no more. Once all of it has been fed and its frames are done, the last outputs are emitted as Partial,
then a Marker with Replay and CaptureEnd, whose Time the spec does not state (log entry 25), and the slot is withdrawn. -/
def execReplayEnd (t : Nat) (n : Fin 64) (s : State) : Outcome :=
  let s := s.advance t
  .next (if !s.isReplay n || s.rd (Ob.slotState n) != 2 || !(s.sourceEnded n || s.rd (Ob.slotReplaySource n) == 2) then s
    else
      let s0 := s.sourceFill n
      if !s0.sourceDone n || !s0.chainIdle n then s0
      else
        let s1 := s0.chainFlush n
        let p := s1.pipeS n
        let mk : Rec := { kind := 0x0F, slot := n, epoch := s1.rd (Ob.slotEpoch n), time := s1.nth 238 0 % 2 ^ 128, flags := 2 ^ 11 + 2 ^ 9
                          cycle := s1.netCycle, body := [] }
        ((s1.setPipe n { p with recQ := if bit (s1.rd (Ob.slotOutputMask n)) 0 then p.recQ ++ [mk] else p.recQ }).taken 1).beginWithdraw
          n s1.devNow)

end Sys2Proof.Machine
end

