-- ==== Sys2Proof/Machine/Storage.lean ====
section
/-! DEFINITION. The commands of the storage ports (spec/14_host_storage.md R368-R379). -/

namespace Sys2Proof.Machine

open Sys2Proof

/-- Qualify (R370): aborts while a pipeline uses the port; refused with 0x4F without a usable drive of that size. -/
def qualify (k : Nat) : Act := fun s =>
  if s.portUsed k then .error Abort.state
  else
    let st := s.rd (Ob.storDriveState k)
    let d := s.driveS k
    let ok := (st == 1 || st == 3 || st == 4 || st == 5) && decide (s.rd (Ob.storQualifyBytes k) ≤ s.rd (Ob.storCapacity k))
    if ok then .ok ((s.setDrive k { d with qualifyResult := some 1 }).setDriveState k 3)
    else .ok (s.setDrive k { d with qualifyResult := some 0x4F })

/-- QUALIFY. -/
def execQualify (t : Nat) (port : Fin 6) (s : State) : Outcome := .next (s.serve t (qualify port))

/-- A qualified rate of R370 for a measured rate in octets per second. -/
def qualifiedRate (m : Nat) : Nat := 9 * m * 1044480 / (10 * 1048576) - 16384

/-- QUALIFY_COMPLETE (R370): the lowest rates over any 100 ms window in the last 80 % of the write and the read phase; the data area
is destroyed and the drive is no member until it is formed in again. -/
def execQualifyComplete (t : Nat) (port : Fin 6) (mWrite mRead : Nat) (s : State) : Outcome :=
  let s := s.advance t
  let k := port.val
  .next (if s.rd (Ob.storDriveState k) != 3 then s
    else
      let s1 := s.wrs [(Ob.storQualifiedRate k, qualifiedRate mWrite), (Ob.storQualifiedReadRate k, qualifiedRate mRead),
        (Ob.storQualifiedAt k, s.stampNow), (Ob.storPosition k, 0xFF),
        (Ob.ssetSetMembers, setBit (s.rd Ob.ssetSetMembers) k false)]
      let s2 := s1.setDrive k { s1.driveS k with qualifyResult := some 0, next := 0 }
      ((s2.issue k { op := 9, lba := 1024, blocks := s2.rd (Ob.storQualifyBytes k) / 4096 }).setDriveState k 4).freeUnits)

/-- Any pipeline uses storage (R371). -/
def State.storageUsed (s : State) : Bool := (List.range 6).any fun k => s.portUsed k

/-- The volume label (R371). -/
def State.label (s : State) (pos mask setId units : Nat) : Bytes :=
  let n := 0x544E5356 * 2 ^ 480 + 1 * 2 ^ 472 + pos * 2 ^ 464 + mask * 2 ^ 456 + setId * 2 ^ 392 + Config.serialNumber.toNat * 2 ^ 328
    + s.stampNow * 2 ^ 200 + units * 2 ^ 136
  leBytes 64 (n + crc32 (leBytes 64 n))

/-- Port `k` holds a drive that FormSet can take: not absent, unsupported, in qualification or failed. -/
def State.formable (s : State) (k : Nat) : Bool :=
  !(s.rd (Ob.storDriveState k) == 0 || s.rd (Ob.storDriveState k) == 2 || s.rd (Ob.storDriveState k) == 3 || s.rd (Ob.storDriveState k) == 6)

/-- One port at FormSet (R371): a member gets its Position, its label in both places and an empty directory in both copies; a drive that is no longer a
member waits Qualified, or Identified when it has not been qualified. -/
def State.formPort (mask setId : Nat) (s : State) (k : Nat) : State :=
  let ports := bitsSet 6 mask
  if ports.contains k then
    let pos := (ports.takeWhile fun p => p != k).length
    let d := s.driveS k
    (((((((s.wr (Ob.storPosition k) pos).setDrive k { d with next := 0 }).emit
      (.driveData k 0 (s.label pos mask setId d.units))).issue k { op := 1, lba := 0, blocks := 1 }).issue k
        { op := 1, lba := 128, blocks := 1 }).emit (.driveData k 256 (List.replicate 2097152 0))).issueAll k
          ((rangeCmds 1 0xFF 0 16 256 512).map fun c => { c with fua := true })).setDriveState k 5
  else if s.rd (Ob.storDriveState k) = 5 then
    (s.wr (Ob.storPosition k) 0xFF).setDriveState k (if s.rd (Ob.storQualifiedRate k) = 0 then 1 else 4)
  else s

/-- FormSet (R371): the drives of the mask become one set with a new SetId, a free value; every named port must hold a drive that
takes commands (log entry 20). -/
def formSet (mask : Nat) : Act := fun s =>
  if s.storageUsed then .error Abort.state
  else if 64 ≤ mask then .error Abort.range
  else if (bitsSet 6 mask).any fun k => !s.formable k then .error Abort.state
  else
    let f := s.free 371
    let setId := f.1 % 2 ^ 64
    let s1 := f.2.wrs [(Ob.ssetSetMembers, mask), (Ob.ssetSetId, setId), (Ob.ssetNextRecording, 1)]
    let s2 := { s1 with store := { s1.store with directory := [] } }
    .ok ((List.range 6).foldl (State.formPort mask setId) s2).freeUnits

/-- FORM_SET. -/
def execFormSet (t mask : Nat) (s : State) : Outcome := .next (s.serve t (formSet mask))

/-- A Replay pipeline reads recording `num` from the drives (R237, R380). -/
def State.replayReads (s : State) (num : Nat) : Bool :=
  (List.range 64).any fun n => s.active n && s.isReplay n && s.rd (Ob.slotReplaySource n) == 2 && s.replayNumber n == num

/-- The units of a recording on port `k` are deallocated (R377). -/
def State.deallocate (e : DirEntry) (s : State) (k : Nat) : State :=
  let x := (e.extents[k]?).getD (0, 0)
  if x.2 = 0 then s else s.issue k { op := 9, lba := 1024 + unitBlocks * x.1, blocks := unitBlocks * x.2 }

/-- DeleteRecording (R377, R380). -/
def deleteRecording (num : Nat) : Act := fun s =>
  match s.store.directory.find? fun e => e.number == num with
  | none => .error Abort.range
  | some e =>
    if e.st == 1 || s.replayReads num then .error Abort.state
    else
      let s1 := s.modEntry num fun e => { e with st := 4 }
      .ok ((s1.members.foldl (State.deallocate e) s1).writeEntry num).freeUnits

/-- DELETE_RECORDING. -/
def execDeleteRecording (t number : Nat) (s : State) : Outcome := .next (s.serve t (deleteRecording number))

/-- Assumption 2 is seen violated while a drive is Failed for a command that it did not complete in time (R66, R378; DEDUCED, log entry 166). -/
def State.drivesFollow (s : State) : State :=
  s.assumeIs 2 ((List.range 6).any fun k => s.rd (Ob.storDriveState k) == 6 && s.rd (Ob.storFailCause k) == 1)

/-- Reinstate (R378): on a Failed drive only; `ok` says that its label and health pass. -/
def reinstate (k : Nat) (ok : Bool) : Act := fun s =>
  if s.rd (Ob.storDriveState k) != 6 then .error Abort.state
  else
    let s1 := s.setDrive k { s.driveS k with reinstateResult := some (if ok then 0 else 0x4F) }
    let s1 := s1.emit (.nvme k 256 0 0 false)
    .ok (if ok then ((s1.wr (Ob.storFailCause k) 0).setDriveState k (if bit (s.rd Ob.ssetSetMembers) k then 5 else 4)).drivesFollow else s1)

/-- REINSTATE. -/
def execReinstate (t : Nat) (port : Fin 6) (labelOk : Bool) (s : State) : Outcome := .next (s.serve t (reinstate port labelOk))

/-- A place in the queue is free: the next waiting command is issued. -/
def State.issueNext (s : State) (k : Nat) : State :=
  let d := s.driveS k
  match d.queue with
  | c :: l => if d.out.length < 16 then (s.setDrive k { d with queue := l }).issue k c else s
  | [] => s

/-- A write command of a unit has completed (R376). -/
def State.unitWritten (s : State) (c : NCmd) : State :=
  match s.recording c.slot with
  | none => s
  | some x =>
    let u := x.pendingUnits.map fun u => if u.index = c.unitIndex then { u with left := u.left - 1 } else u
    (s.setRecording c.slot (some { x with pendingUnits := u })).passUnits c.slot (u.length + 1)

/-- NVME_COMPLETION (R369, R376): command `cid` of those outstanding on the port completes; `status` 0 is success, 1 an error status,
2 fatal controller status. A write is retried once; a log page read becomes Health. -/
def execNvmeCompletion (t : Nat) (port : Fin 6) (cid : Nat) (status : Fin 3) (data : List (BitVec 8)) (s : State) : Outcome :=
  let s := s.advance t
  let k := port.val
  let d := s.driveS k
  .next (if status.val = 2 then s.driveFail k 2
    else match d.out[cid]? with
      | none => s
      | some c =>
        let s1 := s.setDrive k { d with out := d.out.eraseIdx cid }
        if status.val = 0 then
          let s2 := if c.op = 1 then s1.bumpBy (Ob.storWrittenBytes k) (4096 * c.blocks)
            else if c.op = 258 then s1.setDom (Ob.storHealth k) (data.take 512) else s1
          (if c.op = 1 ∧ c.slot < 64 then s2.unitWritten c else s2).issueNext k
        else
          let s2 := s1.bump (Ob.storErrorStatuses k)
          if c.op = 1 then
            if c.retried then s2.driveFail k 4
            else (s2.issue k { c with retried := true }).issue k { op := 257 }
          else (s2.issue k { op := 257 }).issueNext k)

/-- NVME_COMMAND_TIMEOUT (R378, R66 assumption 2). -/
def execNvmeCommandTimeout (t : Nat) (port : Fin 6) (s : State) : Outcome :=
  let s := s.advance t
  .next (if (s.driveS port).out.isEmpty then s
    else ((s.bump (Ob.storCommandTimeouts port)).assume 2).driveFail port 1)

/-- DRIVE_LINK_LOSS (R378): the link stays down for more than 100 ms, or the drive is removed. -/
def execDriveLinkLoss (t : Nat) (port : Fin 6) (removed : Bool) (s : State) : Outcome :=
  let s := s.advance t
  let s1 := s.wr (Ob.storLinkState port) 0
  .next (if s.rd (Ob.storDriveState port) = 0 ∨ s.rd (Ob.storDriveState port) = 6 then s1
    else s1.driveFail port (if removed then 5 else 3))

/-- UNIT_IDLE_TIMEOUT (R373): 100 ms pass without a record. -/
def execUnitIdleTimeout (t : Nat) (n : Fin 64) (s : State) : Outcome :=
  let s := s.advance t
  .next (match s.recording n with
    | some x => if x.recordAt + s.us 100000 ≤ s.now then s.closeUnit n false false false else s
    | none => s)

/-- DIRECTORY_UPDATE (R372): the entry of an open recording is rewritten. -/
def execDirectoryUpdate (t : Nat) (n : Fin 64) (s : State) : Outcome :=
  let s := s.advance t
  .next (match s.recording n with
    | some x => (s.entryFollow n).writeEntry x.number
    | none => s)

/-- HEALTH_LOG_POLL (R369): the error and the SMART log page are read. Opcodes above 256 are admin commands: 257 error log, 258
SMART. -/
def execHealthLogPoll (t : Nat) (port : Fin 6) (s : State) : Outcome :=
  let s := s.advance t
  let st := s.rd (Ob.storDriveState port)
  .next (if st = 0 ∨ st = 2 ∨ st = 6 then s else (s.issue port { op := 257 }).issue port { op := 258 })

/-- A directory entry as a drive holds it (R372); an entry left Open becomes Interrupted (R379). -/
def entryOf (b : Bytes) : DirEntry :=
  let n := leNat (b.take 256)
  { number := bits n 2047 2016, st := if bits n 2015 2008 = 1 then 3 else bits n 2015 2008, slot := bits n 2007 2000
    ports := bits n 1999 1992, lost := bits n 1991 1984, admittedAt := bits n 1983 1856, firstTime := bits n 1855 1728
    lastTime := bits n 1727 1600, units := bits n 1599 1536, firstSeq := bits n 1535 1472, lastSeq := bits n 1471 1408
    dropped := bits n 1407 1344, entrySeq := bits n 1343 1280
    extents := (List.range 6).map fun k => (bits n (1279 - 128 * k) (1216 - 128 * k), bits n (1215 - 128 * k) (1184 - 128 * k)) }

/-- An entry's Crc32 matches (R372). -/
def entryGood (b : Bytes) : Bool :=
  let n := leNat (b.take 256)
  bits n 31 0 == crc32 (leBytes 256 (n - bits n 31 0))

/-- The entries of a directory read from a drive: those in use whose Crc32 matches. -/
def entriesOf : Nat → Bytes → List DirEntry
  | 0, _ => []
  | fuel + 1, b =>
    if b.isEmpty then []
    else if entryGood b && (entryOf b).number != 0 then entryOf b :: entriesOf fuel (b.drop 256) else entriesOf fuel (b.drop 256)

/-- Of two copies of a directory, every entry with the larger EntrySeq (R372). -/
def mergeDir (a b : List DirEntry) : List DirEntry :=
  (a.map fun e => match b.find? fun f => f.number == e.number with
    | some f => if e.entrySeq < f.entrySeq then f else e
    | none => e) ++ b.filter fun f => !a.any fun e => e.number == f.number

/-- The unit after the last one that a directory says to be written on drive `k` (R374). -/
def nextPlace (es : List DirEntry) (k units : Nat) : Nat :=
  let l := es.filter fun e => ((e.extents[k]?).getD (0, 0)).2 != 0
  match l with
  | [] => 0
  | e :: l =>
    let x := l.foldl (fun m e => if m.number < e.number then e else m) e
    let v := (x.extents[k]?).getD (0, 0)
    (v.1 + v.2) % max 1 units

/-- A drive with a label joins the set whose member its port is (R371, R379): the first one gives the set its mask and SetId, and each adds what its
directory copy has newer; a drive of another set, or of none, is Qualified or Identified. -/
def State.adoptLabel (s1 : State) (k pos mask setId : Nat) (es : List DirEntry) : State :=
  let first := s1.rd Ob.ssetSetMembers == 0
  let mem := bit mask k && (first || setId % 2 ^ 64 == s1.rd Ob.ssetSetId)
  if mem then
    let dir := mergeDir s1.store.directory es
    let s2 := s1.wrs [(Ob.storPosition k, pos % 256), (Ob.ssetSetMembers, if first then mask % 64 else s1.rd Ob.ssetSetMembers),
      (Ob.ssetSetId, setId % 2 ^ 64), (Ob.ssetNextRecording, dir.foldl (fun m e => max m (e.number + 1)) 1)]
    let s3 := { s2 with store := { s2.store with directory := dir } }
    ((s3.setDrive k { s3.driveS k with next := nextPlace dir k (s3.driveS k).units }).setDriveState k 5).freeUnits
  else (s1.wr (Ob.storPosition k) (pos % 256)).setDriveState k (if s1.rd (Ob.storQualifiedRate k) = 0 then 1 else 4)

/-- DRIVE_ATTACH (R369, R379): Identify answers: whether the drive is supported, its name and capacity, and the label it carries:
Position, member mask, SetId, data units; and the directory. Link rate code and width. -/
def execDriveAttach (t : Nat) (port : Fin 6) (supported : Bool) (rate width capacity units : Nat) (name : List (BitVec 8))
    (label : Option (Nat × Nat × Nat)) (directory : List (BitVec 8)) (s : State) : Outcome :=
  let s := s.advance t
  let k := port.val
  let st := s.rd (Ob.storDriveState k)
  .next (if !s.rdB (Ob.storEnable k) || st == 6 then s
    else
      let s1 := (((s.setQuad (20 + k) 0).wrs [(Ob.storLinkState k, rate % 256 * 256 + width % 256), (Ob.storCapacity k, capacity % 2 ^ 64)]).setDom
        (Ob.storDriveId k) name).setDrive k { s.driveS k with units := units, out := [], queue := [] }
      let s1 := (s1.emit (.nvme k 256 0 0 false)).emit (.nvme k 259 0 0 false)
      if !supported then s1.setDriveState k 2
      else match label with
        | none => s1.setDriveState k (if s.rd (Ob.storQualifiedRate k) = 0 then 1 else 4)
        | some (pos, mask, setId) =>
          s1.adoptLabel k pos mask setId (entriesOf 4096 directory))

/-- A write of Enable of a storage port (R369, R379): at its disable the queues are deleted and the drive is shut down. -/
def storageEnable (k : Nat) (v : Bool) : Act := fun s =>
  if s.portUsed k then .error Abort.state
  else
    let s1 := s.wr (Ob.storEnable k) (b2n v)
    if v then .ok s1
    else
      let s2 := if s.rd (Ob.storDriveState k) = 0 then s1 else (s1.emit (.nvme k 260 0 0 false)).emit (.driveShutdown k)
      .ok ((((s2.setDrive k { s2.driveS k with out := [], queue := [] }).wr (Ob.storLinkState k) 0).setDriveState k 0).drivesFollow)

end Sys2Proof.Machine
end

