-- ==== Sys2Proof/Machine/Verify.lean ====
section
/-! DEFINITION. What admission verifies of an image pair: the checks of R301 by a walk over every path of the control graph with each loop at its largest count (spec/11_microcode.md R289, R291, R301, R302). -/

namespace Sys2Proof.Machine

open Sys2Proof

/-- What a register is known to hold: a number, ActiveParam plus an offset, or nothing. -/
inductive AVal where
  | unk
  | num (n : Nat)
  | act (off : Nat)
  deriving DecidableEq, Repr

/-- The part of a microword's work that a later one can read: a register, the parts of st, an accumulator, memory. -/
inductive Res where
  | reg (c : Nat)
  | ldepth
  | cond (bit : Nat)
  | acc (k : Nat)
  | mem (bank : Nat) (word : AVal)
  deriving DecidableEq, Repr

/-- A result still on its way: what, the stage that writes it (0 MF, 1 NF, 2 OF, 4 M2, 5 WB), how many microwords ago, and whether
a safe point lies between. -/
structure Fly where
  res : Res
  stage : Nat
  age : Nat
  crossed : Bool
  deriving DecidableEq, Repr

/-- The walk's knowledge of the machine at one microword. -/
structure AM where
  pc : Nat
  depth : Option Nat
  r : Tab AVal := []
  fly : List Fly := []
  /-- in the service routine -/
  svc : Bool := false
  /-- microwords of the frame path so far; none outside a frame path -/
  frame : Option Nat := none
  /-- microwords since the latest safe point -/
  since : Nat := 0
  deriving DecidableEq, Repr

/-- What a walk finds: the longest frame path, the longest to a condition SEND, the largest spacing, and the states at which a
wait for data was left. -/
structure Found where
  worst : Nat := 0
  cond : Nat := 0
  spacing : Nat := 0
  service : Nat := 0
  waits : List AM := []
  deriving DecidableEq, Repr

def Found.join (a b : Found) : Found :=
  { worst := max a.worst b.worst, cond := max a.cond b.cond, spacing := max a.spacing b.spacing
    service := max a.service b.service, waits := a.waits ++ b.waits }

def AM.get (m : AM) (c : Nat) : AVal := tget (dconst AVal.unk) m.r c
def AM.set (m : AM) (c : Nat) (v : AVal) : AM := { m with r := tset (dconst AVal.unk) m.r c v }

/-- May two addresses name the same word? Parameters lie in `lo ≤ a < hi` of Y. -/
def mayAlias (lo hi : Nat) : AVal → AVal → Bool
  | .num a, .num b => a / 2 == b / 2
  | .act a, .act b => a / 2 == b / 2
  | .num a, .act _ => decide (lo ≤ a) && decide (a < hi)
  | .act _, .num b => decide (lo ≤ b) && decide (b < hi)
  | _, _ => true

/-- Do two results meet? -/
def Res.meets (lo hi : Nat) : Res → Res → Bool
  | .mem b w, .mem c v => b == c && mayAlias lo hi w v
  | a, b => a == b

/-- The address of an access, as far as it is known. -/
def AM.addr (m : AM) (p md ix : Nat) : AVal :=
  match m.get (8 + md) with
  | .num w =>
    match m.get p, m.get (0x10 + ix) with
    | .num a, .num i => .num (accessAddr a w i)
    | .num a, _ => if bits w 63 62 = 3 then .unk else .num a
    | .act o, .num i => if bits w 63 62 = 3 then .act (accessAddr o w i) else .act o
    | .act o, _ => if bits w 63 62 = 3 then .unk else .act o
    | .unk, _ => .unk
  | _ => .unk

/-- A pointer, modifier and index register after an access. -/
def AM.step (m : AM) (p md ix : Nat) : AM :=
  match m.get (8 + md), m.get p, m.get (0x10 + ix) with
  | .num w, .num a, .num i =>
    let u := updatePtr a w i
    ((m.set p (.num u.1)).set (8 + md) (.num u.2.1)).set (0x10 + ix) (.num u.2.2)
  | .num w, .num a, _ =>
    if bits w 63 62 = 3 then ((m.set p .unk).set (8 + md) .unk).set (0x10 + ix) .unk
    else m.set p (.num (updatePtr a w 0).1)
  | .num w, .act o, _ =>
    if bits w 63 62 = 0 then m.set p (.act (uint 12 ((o : Int) + sint 16 w)))
    else ((m.set p .unk).set (8 + md) .unk).set (0x10 + ix) .unk
  | _, _, _ => ((m.set p .unk).set (8 + md) .unk).set (0x10 + ix) .unk

/-- The image pair under check. -/
structure Pair where
  mb : Bytes
  nb : Bytes
  user : Bool
  deriving DecidableEq, Repr

def Pair.word (q : Pair) (a : Nat) : Nat := iWord q.mb a
def Pair.nanow (q : Pair) (a : Nat) : Nat := nWord q.nb (mNano (q.word a))

/-- An access through modifier `md` may be one in stride mode, the only one that reads and advances Cnt and the index register (R256). -/
def AM.stride (m : AM) (md : Nat) : Bool :=
  match m.get (8 + md) with
  | .num w => bits w 63 62 == 3
  | _ => true

/-- The registers that form the address of an access. -/
def AM.addrReads (m : AM) (p md ix : Nat) : List (Res × Nat) :=
  [(.reg p, 1), (.reg (8 + md), 1)] ++ (if m.stride md then [(.reg (0x10 + ix), 1)] else [])

/-- What a microword reads, with the stage that reads it. -/
def AM.reads (m : AM) (w n : Nat) : List (Res × Nat) :=
  let uop : Uop := { nano := n, xmod := mXMod w, ymod := mYMod w }
  let xa := m.addr (nXPtr n) (mXMod w) (nXIx n)
  let ya := m.addr (nYPtr n) (mYMod w) (nYIx n)
  let c := mCond w
  List.flatten [
    (if c = 0 ∨ 14 ≤ c then [] else if c ≤ 2 then [(.reg 0x19, 0)] else if c ≤ 4 then []
    else [(.cond (if c = 5 then 5 else if c ≤ 7 then 4 else if c = 8 then 7 else if c = 9 then 6 else if c = 10 then 2
      else if c = 11 then 3 else if c = 12 then 8 else 9), 0)]),
    (if mLoop w = 0 then [] else [(.ldepth, 0)] ++ (match m.depth with
      | some d => if mLoop w = 2 ∧ 0 < d then [(.reg (0x0B + d), 0)] else []
      | none => [])),
    (if nXRead n = 0 then [] else m.addrReads (nXPtr n) (mXMod w) (nXIx n) ++ [(.mem 0 xa, 2)]),
    (if nYRead n = 0 then [] else m.addrReads (nYPtr n) (mYMod w) (nYIx n) ++ [(.mem 1 ya, 2)]),
    (if nStore n = 0 then [] else m.addrReads (nStPtr n) (stMod uop) (nStIx n)),
    (if nStore n = 4 then [(.reg (nStReg n), 1)] ++ (if nStReg n = 0x16 then
        [(.ldepth, 1)] ++ (List.range 8).map fun b => (Res.cond (b + 2), 1) else [])
      else if nStore n = 2 then [(.acc 0, 5), (.acc 1, 5)]
      else if nStore n = 0 then [] else [(.acc (nStAcc n), 5)]),
    (if nRtOp n = 2 then [(.reg (nRtSrc n), 1)] ++ (if nRtSrc n = 0x16 then
        [(.ldepth, 1)] ++ (List.range 8).map fun b => (Res.cond (b + 2), 1) else []) else []),
    (if nCtl n = 1 then [(.reg (nSendPtr n), 1)] else []),
    (let op := nArith n
      let a := nAcc n
      let both := (if bit a 0 then [(Res.acc 0, 4)] else []) ++ (if bit a 1 then [(Res.acc 1, 4)] else [])
      if op = 2 ∨ op = 3 ∨ op = 6 ∨ op = 7 ∨ op = 9 then both else [])]

/-- What a microword writes, with the stage that writes it. -/
def AM.writes (m : AM) (w n : Nat) : List (Res × Nat) :=
  let uop : Uop := { nano := n, xmod := mXMod w, ymod := mYMod w }
  let ptr := fun (p md ix : Nat) => (Res.reg p, 1) :: (if m.stride md then [(Res.reg (8 + md), 1), (Res.reg (0x10 + ix), 1)] else [])
  let dst := fun (c st : Nat) => if c = 0x16 then [(Res.ldepth, st), (Res.cond 8, st), (Res.cond 9, st)] else [(Res.reg c, st)]
  let sa := m.addr (nStPtr n) (stMod uop) (nStIx n)
  let op := nArith n
  let a := nAcc n
  List.flatten [
    (if mLoop w = 0 then [] else [(.ldepth, 0)] ++ (match m.depth with
      | some d => if 2 ≤ mLoop w ∧ 0 < d then [(.reg (0x0B + d), 0)] else []
      | none => [])),
    (if nXRead n = 0 then [] else ptr (nXPtr n) (mXMod w) (nXIx n)),
    (if nYRead n = 0 then [] else ptr (nYPtr n) (mYMod w) (nYIx n)),
    (if nStore n = 0 then [] else ptr (nStPtr n) (stMod uop) (nStIx n) ++ [(.mem (nStBank n) sa, 5)]
      ++ (if nStore n ≤ 2 ∧ nStSat n = true then [(.cond 9, 5)] else [])),
    (if nXRead n = 2 then dst (nXLoad n) 2 else []) ++ (if nYRead n = 2 then dst (nYLoad n) 2 else []),
    (if nRtOp n = 0 then [] else dst (nRtDst n) 1),
    (if nCtl n = 1 then [(.reg (nSendPtr n), 1)] else if nCtl n = 2 then [(.reg 0x19, 1)] else []),
    ([0, 1].flatMap fun k => if op = 0 ∨ bit a k = false then [] else
      (if op = 9 then [(Res.reg (0x10 + k), 4)] else [(.acc k, 4), (.reg (0x12 + k), 4), (.cond (5 + 2 * k), 4), (.cond (4 + 2 * k), 4)])
      ++ (if op ≤ 3 then [(.cond 8, 4), (.reg 0x18, 4)] else [])
      ++ (if op = 7 ∨ op = 8 then [(.reg (0x10 + k), 4), (.reg (0x14 + k), 4), (.cond (2 + k), 4)] else []))]

/-- A read that would see the previous value across a safe point (R289, R273): distance + read stage ≤ write stage. -/
def Fly.breaks (lo hi : Nat) (f : Fly) (r : Res × Nat) : Bool :=
  f.crossed && Res.meets lo hi f.res r.1 && decide (f.age + r.2 ≤ f.stage)

/-- The value a load reads, as far as it is known: ActiveParam from element 23 of the event area, Max of a bound entry from a
parameter element. -/
def Pair.loaded (q : Pair) (bank : Nat) (a : AVal) : AVal :=
  match a with
  | .num x => if bank = iEvBank q.mb ∧ x = iEvBase q.mb + 23 then .act 0 else .unk
  | .act o => if bank = 1 then (match (iBounds q.mb).find? fun b => b.1 == o with
      | some b => .num b.2.1
      | none => .unk) else .unk
  | .unk => .unk

/-- The registers after a microword's datapath work. -/
def AM.work (q : Pair) (m : AM) (w n : Nat) : AM :=
  let uop : Uop := { nano := n, xmod := mXMod w, ymod := mYMod w }
  let xa := m.addr (nXPtr n) (mXMod w) (nXIx n)
  let ya := m.addr (nYPtr n) (mYMod w) (nYIx n)
  let stOn := nStore n != 0
  let m1 := if nXRead n = 0 then m else m.step (nXPtr n) (mXMod w) (nXIx n)
  let m2 := if nYRead n = 0 then m1 else m1.step (nYPtr n) (mYMod w) (nYIx n)
  let same := (nXRead n != 0 && nXPtr n == nStPtr n) || (nYRead n != 0 && nYPtr n == nStPtr n)
  let m3 := if stOn && !same then m2.step (nStPtr n) (stMod uop) (nStIx n) else m2
  let wr := fun (m : AM) (c : Nat) (v : AVal) =>
    if c = 0x16 then { m with depth := match v with
      | .num x => some (min 4 (bits x 12 10))
      | _ => none } else m.set c v
  let m4 := if nXRead n = 2 then wr m3 (nXLoad n) (q.loaded 0 xa) else m3
  let m5 := if nYRead n = 2 then wr m4 (nYLoad n) (q.loaded 1 ya) else m4
  let d := nRtDst n
  let m6 := if nRtOp n = 0 then m5
    else if nRtOp n = 2 then wr m5 d (if nRtSrc n = 0x16 then .unk else m.get (nRtSrc n))
    else if 8 ≤ d ∧ d < 12 then
      match m.get d with
      | .num x => wr m5 d (.num ((if nRtHigh n then x % 2 ^ 32 + nRtImm n * 2 ^ 32 else x / 2 ^ 32 * 2 ^ 32 + nRtImm n) &&& regMask d))
      | _ => m5
    else wr m5 d (.num (if d = 0x16 then nRtImm n else nRtImm n &&& regMask d))
  let m7 := if nCtl n = 1 then (match m6.get (nSendPtr n) with
      | .num x => m6.set (nSendPtr n) (.num ((x + 16 * nCount n) % 4096))
      | .act o => m6.set (nSendPtr n) (.act ((o + 16 * nCount n) % 4096))
      | .unk => m6) else m6
  [0, 1].foldl (fun m k => if bit (nAcc n) k && decide (7 ≤ nArith n) then m.set (0x10 + k) .unk else m) m7

/-- A failing check: its code and the microword at fault. -/
abbrev VErr := Nat × Nat

/-- A wait point (R278): Next its own address, Cond NRXAV or NSIDLE, Safe. -/
def waitPoint (w a : Nat) : Bool := mNext w == a && (mCond w == 2 || mCond w == 4) && mSafe w && mLoop w == 0

/-- Check 2 of R301 for one microword. -/
def Pair.wordOk (q : Pair) (m : AM) (w n : Nat) : Bool :=
  decide (m.pc < iWordCount q.mb) && decide (mNano w < nWordCount q.nb) && mCond w != 15 && decide (mLoop w ≤ 3)
  && (mLoop w != 2 || mCond w == 0) && (mCond w != 14 || (mLoop w == 0 && !mSafe w && m.svc)) && (!mYield w || mSafe w)
  && (!m.svc || (!mSafe w && !mYield w))
  && (m.pc != 2047 || mCond w == 0 || mCond w == 14) && (m.pc != 2047 || mLoop w != 2)
  && (nCtl n != 1 || (iFlows q.mb).any fun f => f.1 == nFlow n && (!q.user || (f.2.1 != 2 && f.2.1 != 4)))
  && (mLoop w == 0 || mNext w != m.pc || mLoop w == 2)

/-- The kind of the flow of a SEND. -/
def Pair.flowKind (q : Pair) (f : Nat) : Nat :=
  match (iFlows q.mb).find? fun x => x.1 == f with
  | some x => x.2.1
  | none => 5

/-- Walk every path from `m`; with no fuel left the graph is not bounded (R302). A wait for data ends the walk and reports the state
in which it is left. -/
def Pair.walk (q : Pair) : Nat → AM → Except VErr Found
  | 0, m => .error (0x4F, m.pc)
  | fuel + 1, m =>
    let w := q.word m.pc
    let n := q.nanow m.pc
    let lo := iParamBase q.mb
    let hi := lo + 2 * iParamLength q.mb
    if !q.wordOk m w n then .error (0x4F, m.pc)
    else if m.svc && m.since < 3 && (nArith n != 0 || nXRead n != 0 || nYRead n != 0 || nStore n != 0 || nRtOp n != 0 || nCtl n != 0)
      then .error (0x4F, m.pc)
    else if (m.reads w n).any fun r => m.fly.any fun f => f.breaks lo hi r then .error (0x4F, m.pc)
    else if !nanoWrites n then .error (0x4F, m.pc)
    else
      let fly1 := (m.fly.map fun f => { f with age := f.age + 1, crossed := f.crossed || mSafe w })
        ++ (m.writes w n).map fun r => { res := r.1, stage := r.2, age := 1, crossed := mSafe w }
      let m1 := { m.work q w n with
        fly := fly1.filter fun f => decide (f.age ≤ 5)
        frame := m.frame.map (· + 1)
        since := if mSafe w then 1 else m.since + 1 }
      let here : Found :=
        { worst := if mYield w then (m1.frame.getD 0) else 0
          cond := if nCtl n = 1 ∧ q.flowKind (nFlow n) = 3 then (m1.frame.getD 0) else 0
          spacing := if mSafe w then m.since else 0
          service := if mCond w = 14 then m.since + 1 else 0 }
      let m2 := if mYield w then { m1 with frame := none } else m1
      let next := fun (a : Nat) (m : AM) => (q.walk fuel { m with pc := a }).map here.join
      let fall := m.pc + 1
      if mCond w = 14 then
        -- the microword at the return address must see every result (R289)
        if m2.fly.any fun f => decide (f.age + (match f.res with
            | .acc _ => 4
            | .mem _ _ => 2
            | .reg c => if 0x0C ≤ c ∧ c < 0x10 ∨ c = 0x19 then 0 else 1
            | _ => 0) ≤ f.stage) then .error (0x4F, m.pc)
        else .ok here
      else if waitPoint w m.pc then
        if mCond w = 2 then .ok { here with waits := [{ m2 with pc := fall, frame := some 0 }] }
        else next fall m2
      else if mLoop w = 2 then
        match m.depth with
        | none => .error (0x4F, m.pc)
        | some 0 => .error (0x4F, m.pc)
        | some (d + 1) =>
          match m.get (0x0C + d) with
          | .num c =>
            if 1 < c then next (mNext w) (m2.set (0x0C + d) (.num (c - 1)))
            else next fall { m2.set (0x0C + d) (.num 0) with depth := some d }
          | _ => .error (0x4F, m.pc)
      else
        let m3 : Except VErr AM :=
          if mLoop w = 1 then (match m.depth with
            | some d => if d < 4 then .ok { m2 with depth := some (d + 1) } else .error (0x4F, m.pc)
            | none => .error (0x4F, m.pc))
          else if mLoop w = 3 then (match m.depth with
            | some (d + 1) => .ok { m2.set (0x0C + d) (.num 0) with depth := some d }
            | _ => .error (0x4F, m.pc))
          else .ok m2
        match m3 with
        | .error e => .error e
        | .ok m4 =>
          if mCond w = 0 then next (mNext w) m4
          else match q.walk fuel { m4 with pc := mNext w }, q.walk fuel { m4 with pc := fall } with
            | .ok a, .ok b => .ok (here.join (a.join b))
            | .error e, _ => .error e
            | _, .error e => .error e

/-- Two states at one wait point, as far as they agree. -/
def AM.meet (a b : AM) : AM :=
  { a with
    depth := if a.depth = b.depth then a.depth else none
    r := a.r.filter fun p => b.get p.1 == p.2
    fly := a.fly ++ b.fly.filter fun f => !a.fly.contains f
    since := max a.since b.since }

/-- Add a state to those known; the flag says whether something new was learnt. -/
def addWait (l : List AM) (m : AM) : List AM × Bool :=
  match l.find? fun a => a.pc == m.pc with
  | some a =>
    let j := a.meet m
    if j = a then (l, false) else (l.map fun x => if x.pc = m.pc then j else x, true)
  | none => (l ++ [m], true)

/-- The longest path any walk may take: the largest count a header can declare. -/
def walkFuel : Nat := 2 ^ 24

/-- Walk from every wait point until nothing new is learnt. -/
def Pair.settleWalk (q : Pair) : Nat → List AM → Found → Except VErr Found
  | 0, _, f => .ok f
  | fuel + 1, ws, f =>
    match ws.foldl (fun (r : Except VErr Found) m => match r with
      | .error e => .error e
      | .ok a => (q.walk walkFuel m).map a.join) (.ok { f with waits := [] }) with
    | .error e => .error e
    | .ok g =>
      let r := g.waits.foldl (fun (p : List AM × Bool) m => let x := addWait p.1 m; (x.1, p.2 || x.2)) (ws, false)
      if r.2 then q.settleWalk fuel r.1 g else .ok g

/-- Registers at reset, with ctl as R251 gives it. -/
def entryRegs : Tab AVal := (List.range 0x18).map fun c => (c, AVal.num (regReset c))

/-- The service routine counts as following any microword (R289): every result may be one microword old. -/
def anyFly : List Fly :=
  ((List.range 0x19).map fun c =>
    { res := .reg c, stage := if 0x10 ≤ c ∧ c < 0x16 ∨ c = 0x18 then 4 else 2, age := 1, crossed := true })
  ++ ((List.range 8).map fun b => { res := .cond (b + 2), stage := if b = 7 then 5 else 4, age := 1, crossed := true })
  ++ [{ res := .ldepth, stage := 2, age := 1, crossed := true }, { res := .acc 0, stage := 4, age := 1, crossed := true },
      { res := .acc 1, stage := 4, age := 1, crossed := true }, { res := .mem 0 .unk, stage := 5, age := 1, crossed := true },
      { res := .mem 1 .unk, stage := 5, age := 1, crossed := true }]

/-- What the whole verification finds, or the first failing check among 2 to 4. -/
def Pair.found (q : Pair) : Except VErr Found :=
  match q.walk walkFuel { pc := iEntry q.mb, depth := some 0, r := entryRegs } with
  | .error e => .error e
  | .ok f0 =>
    match q.settleWalk 65536 f0.waits f0 with
    | .error e => .error e
    | .ok f =>
      match q.walk walkFuel { pc := iService q.mb, depth := none, svc := true, fly := anyFly } with
      | .error e => .error e
      | .ok g => .ok { f with service := g.service }

/-- Two areas of one bank overlap. -/
def overlaps (a b : Nat × Nat × Nat) : Bool :=
  a.1 == b.1 && decide (a.2.1 < b.2.1 + b.2.2) && decide (b.2.1 < a.2.1 + a.2.2)

/-- The safe-point spacing (R291): the worst path between safe points plus DeclaredService, which the walked service does not exceed. -/
def Pair.spacing (q : Pair) (f : Found) : Nat := f.spacing + iSvcCycles q.mb

/-- The areas of the header: bank, base, length in elements (R301 check 8). -/
def areas (b : Bytes) : List (Nat × Nat × Nat) :=
  [(iRxBank b, iRxBase b, 16 * iRxUnitFlits b * iRxUnits b), (iEvBank b, iEvBase b, 32), (1, iParamBase b, 2 * iParamLength b),
   (iSaveBank b, iSaveBase b, iSaveLength b), (iStateBank b, iStateBase b, iStateLength b)]

/-- Check 8: the areas lie within X and Y, do not overlap, and fit XUse and YUse. -/
def areasOk (b : Bytes) : Bool :=
  let l := areas b
  let use := fun (bank : Nat) => if bank = 0 then iXUse b else iYUse b
  l.all (fun a => a.2.2 == 0 || (decide (a.2.1 + a.2.2 ≤ 4096) && decide (4 * (a.2.1 + a.2.2) ≤ use a.1)))
  && (List.range 5).all fun i => (List.range i).all fun j =>
    match l[i]?, l[j]? with
    | some x, some y => !overlaps x y
    | _, _ => true

/-- The result of the checks of R301 on a loaded pair: 0 or the code, the microword at fault, and what was found. `last` is the
number of the last check to run. -/
def Pair.verify (q : Pair) (last : Nat) : Nat × Nat × Found :=
  match q.found with
  | .error e => (e.1, e.2, {})
  | .ok f =>
    if iWorst q.mb < f.worst ∨ iSvcCycles q.mb < f.service ∨ iCond q.mb < f.cond then (0x4F, 0xFFFF, f)
    else if 2048 < iWordCount q.mb ∨ 256 < nWordCount q.nb then (0x43, 0xFFFF, f)
    else if last ≤ 6 then (0, 0xFFFF, f)
    else if 4096 < q.spacing f then (0x4B, 0xFFFF, f)
    else if !areasOk q.mb then (0x42, 0xFFFF, f)
    else (0, 0xFFFF, f)

/-- The pair of microimage `i` and nanoimage `j`. -/
def State.pair (s : State) (i j : Nat) : Pair := { mb := s.microImage i, nb := s.nanoImage j, user := decide (i < 48) }

/-- Run the checks and state the verified counts on the microimage (R297, R302). -/
def State.verifyPair (s : State) (i j last : Nat) : Nat × State :=
  if !s.microLoaded i || !s.nanoLoaded j then (0x4F, s.wr (Ob.mimgFirstFault i) 0xFFFF)
  else
    let r := (s.pair i j).verify last
    (r.1, s.wrs [(Ob.mimgFirstFault i, r.2.1), (Ob.mimgVerifiedWorst i, r.2.2.worst), (Ob.mimgVerifiedCond i, r.2.2.cond),
      (Ob.mimgVerifiedSpacing i, min 65535 ((s.pair i j).spacing r.2.2))])

end Sys2Proof.Machine
end

