-- ==== Sys2Proof/Machine/Plan.lean ====
section
/-! DEFINITION. What a described pipeline asks for: its inputs, stages, flows, Polder drains and condition sources, mode by mode (spec/02_contracts.md R50-R56; spec/04_spectrum.md R123-R125; spec/06_density.md R157-R168; spec/07_sieve.md R189-R191; spec/08_pulse.md R203-R215; spec/09_records.md R233-R238; spec/21_calibration_housekeeping.md R538). -/

namespace Sys2Proof.Machine

open Sys2Proof

/-! ### Rates -/

/-- A rate per second, or a time in seconds, as a fraction. -/
abbrev Rate := Nat × Nat

def rTimes (r : Rate) (k : Nat) : Rate := (r.1 * k, r.2)
def rOver (r : Rate) (k : Nat) : Rate := (r.1, r.2 * k)
/-- Rounded up. -/
def rUp (r : Rate) : Nat := ceilDiv r.1 (max 1 r.2)
def rSum (l : List Rate) : Rate := l.foldl fracAdd (0, 1)
def rLe (a b : Rate) : Bool := decide (a.1 * b.2 ≤ b.1 * a.2)
/-- The time of `n` samples at a rate, seconds. -/
def rTime (n : Nat) (fs : Rate) : Rate := (n * fs.2, max 1 fs.1)

/-- A time in u_T, rounded up. -/
def State.utUp (s : State) (t : Rate) : Nat := ceilDiv (t.1 * s.second) (max 1 t.2)
/-- A time in u_T, rounded down. -/
def State.utDown (s : State) (t : Rate) : Nat := t.1 * s.second / max 1 t.2

/-! ### Plans -/

/-- An end of a flow. -/
inductive FEnd where
  /-- the eight mesh drain ports of a Polder half (R98) -/
  | polder (half : Nat)
  | stage (st ch : Nat)
  /-- pools of the clusters of a stage; the pool of the frame's own engine; the first of them -/
  | pool (st ch : Nat)
  | ownPool (st ch : Nat)
  | firstPool (st ch : Nat)
  /-- engine `j` of each team of a stage; the stage's engines in one cluster -/
  | member (st ch j : Nat)
  | part (st ch c : Nat)
  | engines (es : List Nat)
  /-- map-update unit of slice `i` of map `k`; the last slice -/
  | slice (k i : Nat)
  | lastSlice (k : Nat)
  /-- HBM ports of the ring -/
  | hbm
  deriving DecidableEq, Repr

/-- A flow: its rate in flits per second, for each engine of a team or of a split stage. -/
structure Flow where
  src : FEnd
  dst : FEnd
  rate : Rate
  deriving DecidableEq, Repr

/-- What the frames of a stage read from and write to the pool of their engine's own cluster (R241; log entry 99). -/
def ownPoolFlows (st ch : Nat) (rate : Rate) (flits : Nat) : List Flow :=
  if flits = 0 then [] else [⟨.stage st ch, .ownPool st ch, rTimes rate flits⟩, ⟨.ownPool st ch, .stage st ch, rTimes rate flits⟩]

/-- The exchange of a team of `team` engines over the cluster crossbar: every engine sends and takes `flits` a frame (R123, R241; log
entry 99). -/
def teamFlows (st ch team : Nat) (rate : Rate) (flits : Nat) : List Flow :=
  if team ≤ 1 then [] else (List.range team).map fun j => ⟨.member st ch j, .member st ch ((j + 1) % team), rTimes rate flits⟩

/-- A stage of a pipeline for one channel or input (R55, R123, R189, R203, R236, R298): `count` engines at the lowest point that R50
checks. -/
structure StageP where
  stage : Nat
  chan : Nat
  image : Nat
  nimage : Nat
  params : Bytes := []
  /-- frames, traces or intervals per second -/
  rate : Rate
  worst : Nat
  svc : Nat := 96
  cond : Nat := 0
  drives : Bool := false
  preds : List (Nat × Nat) := []
  count : Nat
  team : Nat := 1
  /-- every engine processes every frame (stage F, R189) -/
  split : Bool := false
  packed : Bool := false
  /-- flits taken from the Polder or a route, flits sent, per frame (R56, R214) -/
  inFlits : Nat := 0
  outFlits : Nat := 0
  /-- t0 of R56 but for the residence; RouteLatency for a routed input (R205) -/
  t0 : Nat := 0
  routed : Bool := false
  x : Nat := 0
  y : Nat := 0
  /-- pool regions: kind of R576, octets, in every cluster of the stage or only the first -/
  pools : List (Nat × Nat × Bool) := []
  deriving DecidableEq, Repr

/-- A consumer of a channel ring (R98). -/
structure Drain where
  key : Nat
  chan : Nat
  stage : Nat
  half : Nat
  /-- octets per second into the ring, W, flits of a unit, units per second -/
  inflow : Rate
  span : Rate
  flits : Nat
  units : Rate
  deriving DecidableEq, Repr

/-- A condition source of a pipeline (R129-R131): what L_line adds to TriggerLatencyBound, and the least time between rises, u_T. -/
structure LineSrc where
  span : Nat
  spacing : Nat
  deriving DecidableEq, Repr

/-- A map of a pipeline (R155-R168): the stage that feeds it, the feeding channels or inputs, their frames per second together. -/
structure MapP where
  k : Nat
  pulse : Bool
  stage : Nat
  feeders : List Nat
  rate : Rate
  bins : Nat
  columns : Nat
  deriving DecidableEq, Repr

/-- What a pipeline asks for. -/
structure Plan where
  stages : List StageP := []
  flows : List Flow := []
  drains : List Drain := []
  maps : List MapP := []
  /-- records and their octets per second (R367), further HBM traffic of the mode, and octets written to pools -/
  records : Rate := (0, 1)
  octets : Rate := (0, 1)
  hbmMore : Rate := (0, 1)
  poolOut : Rate := (0, 1)
  /-- octets per second on each record-drain port -/
  drain0 : Rate := (0, 1)
  drain1 : Rate := (0, 1)
  input : Rate := (0, 1)
  /-- block rate of R215 -/
  blocks : Rate := (0, 1)
  sources : List LineSrc := []
  /-- a stage for which no engine count meets the cycles of the period (R190) -/
  noCount : Bool := false
  deriving DecidableEq, Repr

/-! ### Inputs -/

/-- A channel or input of a pipeline: number, type, sample rate, Polder half, t0 of R56 but for the residence. -/
structure ChanIn where
  k : Nat
  cplx : Bool
  fs : Rate
  half : Nat := 0
  t0 : Nat := 0
  deriving DecidableEq, Repr

/-- Octets per second into the Polder (R36). -/
def ChanIn.inflow (c : ChanIn) : Rate := rTimes c.fs (sampleOctets c.cplx)

/-- The capture headers of the newest Record-mode records in the ring of slot `m`, per selected channel: channel, SampleRate, complex
(R232, R237). -/
def State.ringFeed (s : State) (m mask : Nat) : List (Nat × Nat × Bool) :=
  let nb := s.ringOwner m
  (bitsSet 64 mask).filterMap fun k =>
    match ((s.ringS nb).recs.filter fun r => r.kind == 7 && r.input == k).getLast? with
    | some r =>
      let h := leAt (s.ringBytes nb (r.pos + 64) 64) 0 64
      some (k, bits h 279 216, bits h 419 418 == 1)
    | none => none

/-- The source channels of a Replay; what a recording on drives holds comes with the command (R237). -/
def State.feed (s : State) (n : Nat) (drive : List (Nat × Nat × Bool)) : List (Nat × Nat × Bool) :=
  let mask := s.rd (Ob.slotChannelMask n)
  if s.rd (Ob.slotReplaySource n) = 1 then s.ringFeed (rpSource (s.replayHead n)) mask
  else (bitsSet 64 mask).filterMap fun k => drive.find? fun d => d.1 == k

/-- The Polder half of a Replay's share: placement chooses it (log entry 27). -/
def State.replayHalf (s : State) (n : Nat) : Nat := Config.choice (s.rd Ob.admStateDigest) n 1 0 % 2

/-- The ingest channels of slot `n`; those of a Replay at the feed rates of R238. -/
def State.chanIns (s : State) (n : Nat) (drive : List (Nat × Nat × Bool)) : List ChanIn :=
  if s.isReplay n then
    let l := s.feed n drive
    let all := (l.map fun d => d.2.1).sum
    l.map fun d => { k := d.1, cplx := d.2.2, half := s.replayHalf n
                     fs := (d.2.1 * s.rd (Ob.slotReplayRate n), max 1 all * (if d.2.2 then 2 else 1)) }
  else (bitsSet 64 (s.rd (Ob.slotChannelMask n))).map fun k =>
    let j := s.rd (Ob.chanSourceLink k)
    { k := k, cplx := s.complex k, fs := s.chanFs k, half := if j < 8 then 0 else 1, t0 := s.rd (Ob.linkAlignLatency j) }

/-! ### Counts -/

/-- Engines for a stage of `cycles` at `rate` (R124): the period less 1/64, rounded up to whole teams. -/
def enginesFor (fE : Nat) (rate : Rate) (cycles team : Nat) : Nat :=
  ceilDiv (ceilDiv (rate.1 * cycles * 64) (max 1 (rate.2 * fE * 63))) team * team

/-- Octets of a record with a body. -/
def recordOctets (body : Nat) : Nat := 64 * ceilDiv (64 + body) 64

/-- K_c: clusters that hold a stage's engines, per channel; before placement the least that R124 gives. -/
abbrev Kc := Nat → Option Nat

/-! ### Spectrum (R123-R125) -/

def spPartial (g : Nat) : Nat := if spDetector g ≤ 2 then 2 else if spDetector g = 3 then 4 else 8
def spBody (g : Nat) : Nat := spBins g * (if spFormat g = 1 then 4 else 2)
def spTrace (g : Nat) : Bool := decide (1 < spM g) || spDetector g != 0

/-- C_T of R123. -/
def spCycles (cplx : Bool) (g : Nat) : Nat :=
  let b := spLog g
  let n := 2 ^ b
  let single := if cplx then n * b / 2 + n / 2 + 144 else n * b / 4 + n / 4 + 144
  let c := if b ≤ 12 then single else ceilDiv single (n / 4096) + 2 * (if cplx then n else n / 2) / (n / 4096) + 256
  c + (if spFormat g = 1 ∧ (spWeirs g ≠ [] ∨ spMaps g ≠ 0) then spBins g else 0)

/-- The stages, flows and drain of one Spectrum channel. -/
def spectrumChan (om key g fE : Nat) (kc : Kc) (c : ChanIn) : List StageP × List Flow × Drain :=
  let b := spLog g
  let n := 2 ^ b
  let nc := if c.cplx then n else n / 2
  let team := if b ≤ 12 then 1 else n / 4096
  let bins := spBins g
  let w := (spWeirs g).length
  let tr := spTrace g
  let a := spPartial g
  let fr : Rate := rOver c.fs (spHop g)
  let ft := rOver fr (max 1 (spM g))
  let inFl := ceilDiv (n * sampleOctets c.cplx) 64
  let td := ceilDiv (bins * 2) 64 + (if spFormat g = 1 then ceilDiv (bins * 4) 64 else 0)
  let rec' := recordOctets (32 + spBody g) / 64
  let d := if !tr then 0 else if spDetector g = 4 then 2 else 1
  let cD := 80 + bins * (w + d) + 27 * w
  let eD := enginesFor fE fr (cD + 96) 1
  let k := (kc c.k).getD (max 1 (ceilDiv eD 16))
  let cT := spCycles c.cplx g
  let cP := 120 + bins * k
  let pool : List (Nat × Nat × Bool) := if bit om 2 then [(1, 2 * (128 + spBody g), false)] else []
  let last := if tr then 2 else 1
  let rl := if tr then ft else fr
  let out : List Flow := (if bit om 0 then [⟨.stage last c.k, .hbm, rTimes rl rec'⟩] else [])
    ++ (if bit om 2 then [⟨.stage last c.k, .firstPool last c.k, rTimes rl (ceilDiv (128 + spBody g) 64)⟩] else [])
  let stT : StageP := { stage := 0, chan := c.k, image := 48, nimage := 48, rate := fr, worst := cT, team := team
                        count := enginesFor fE fr (cT + 96) team, inFlits := inFl, outFlits := td, t0 := c.t0
                        x := 4 * nc / team, y := (if spWindow g = 6 then 4 else 3) * n / team }
  let stD : StageP := { stage := 1, chan := c.k, image := 49, nimage := 49, rate := fr, worst := cD, cond := (bins + 27) * w
                        drives := bit om 1 && w != 0, preds := [(0, c.k)], count := eD, packed := true, t0 := c.t0
                        outFlits := if tr then ceilDiv (bins * a) 64 else if bit om 0 then rec' else 0, x := 4096, y := 1024
                        pools := [(2, 2 * bins * a, true)] ++ (if w = 0 then [] else [(3, 4 * bins * w, true)])
                          ++ (if tr then [] else pool) }
  let stP : StageP := { stage := 2, chan := c.k, image := 50, nimage := 50, rate := ft, worst := cP, preds := [(1, c.k)]
                        count := enginesFor fE ft (cP + 96) 1, t0 := c.t0, outFlits := if bit om 0 then rec' else 0, x := 4096, y := 1024, pools := pool }
  (stT :: stD :: (if tr then [stP] else []),
    [⟨.polder c.half, .stage 0 c.k, rTimes fr (ceilDiv inFl team)⟩, ⟨.stage 0 c.k, .stage 1 c.k, rTimes fr (ceilDiv td team)⟩]
      ++ teamFlows 0 c.k team fr (ceilDiv (4 * nc) (64 * team))
      ++ (if tr then ownPoolFlows 1 c.k fr (ceilDiv (bins * a) 64) else []) ++ ownPoolFlows 1 c.k fr (ceilDiv (4 * bins * w) 64)
      ++ (if tr then [⟨.pool 1 c.k, .stage 2 c.k, rTimes ft (k * ceilDiv (bins * a) 64)⟩] else []) ++ out,
    { key := key, chan := c.k, stage := 0, half := c.half, inflow := c.inflow, span := rTime (n - 1) c.fs, flits := inFl, units := fr })

/-- The channels that feed a map (R159, R160). -/
def State.mapFeeds (s : State) (k : Nat) (chs : List Nat) : List Nat :=
  if s.rd (Ob.mapChannel k) = 0xFF then chs else chs.filter fun c => c == s.rd (Ob.mapChannel k)

/-- Columns of a Spectrum map (R159). -/
def State.mapCols (s : State) (k bins : Nat) : Nat := ceilDiv bins (max 1 (s.rd (Ob.mapBinsPerColumn k)))

def State.spectrumPlan (s : State) (n fE : Nat) (kc : Kc) (ins : List ChanIn) : Plan :=
  let g := leNat (s.chainGeom n)
  let om := s.rd (Ob.slotOutputMask n)
  let l := ins.map fun c => spectrumChan om (s.chanKey n c.k) g fE kc c
  let maps := (bitsSet 4 (spMaps g)).map fun k =>
    let fe := s.mapFeeds k (ins.map fun c => c.k)
    { k := k, pulse := false, stage := 1, feeders := fe, bins := spBins g, columns := s.mapCols k (spBins g)
      rate := rSum ((ins.filter fun c => fe.contains c.k).map fun c => rOver c.fs (spHop g)) : MapP }
  let out := rSum (ins.map fun c => rOver c.fs (spHop g * (if spTrace g then max 1 (spM g) else 1)))
  let hopOf := fun (c : ChanIn) (k : Nat) => s.utDown (rTime (k * spHop g) c.fs)
  let weirs := (spWeirs g).flatMap fun w => ins.map fun c =>
    ({ span := s.utUp (rTime (2 ^ spLog g - 1) c.fs)
       spacing := hopOf c (s.rd (Ob.weirReleaseFrames w) + s.rd (Ob.weirPersistence w)) } : LineSrc)
  let trigs := (maps.filter fun m => s.rdB (Ob.mapTrigEnable m.k)).map fun m =>
    match ins.find? (fun c => m.feeders.contains c.k) with
    | some c => ({ span := s.utUp (rTime (2 ^ spLog g) c.fs), spacing := hopOf c 2 } : LineSrc)
    | none => { span := 0, spacing := 0 }
  { stages := l.flatMap fun x => x.1
    flows := l.flatMap fun x => x.2.1
    drains := l.map fun x => x.2.2
    maps := maps
    records := if bit om 0 then out else (0, 1)
    octets := if bit om 0 then rTimes out (recordOctets (32 + spBody g)) else (0, 1)
    poolOut := if bit om 2 then rTimes out (96 + spBody g) else (0, 1)
    sources := if s.isReplay n then [] else weirs ++ trigs }

/-! ### Channelize (R189-R191) -/

/-- C_F of R189. -/
def svFilter (g eF : Nat) (cplx : Bool) : Nat := 64 + ceilDiv (svSpan g) (eF * (if cplx then 2 else 4))

/-- E_F: the smallest power of two that meets the period (R190). -/
def svSplit (g fE : Nat) (fr : Rate) (cplx : Bool) : Option Nat :=
  ((List.range (svLog g - 3)).map fun i => 2 ^ i).find? fun e =>
    decide (fr.1 * (svFilter g e cplx + 96) * 64 ≤ fr.2 * fE * 63)

/-- The stages, flows and drain of one Channelize input with `l` level and `r` route entries. -/
def sieveChan (om key g fE l r : Nat) (kc : Kc) (c : ChanIn) : List StageP × List Flow × Drain :=
  let b := svLog g
  let k := 2 ^ b
  let fr : Rate := rOver c.fs (svHop g)
  let fi := rOver fr (max 1 (svPower g))
  let so := sampleOctets c.cplx
  let eF := (svSplit g fE fr c.cplx).getD (k / 16)
  let inFl := ceilDiv (svHop g * so) 64
  let cnt := svCount g
  let f := b2n (svFormat g != 0)
  let cX := k * b / 2 + k / 2 + 144
  let cO := 80 + cnt * (1 + f) + 3 * l + 2 * r
  let eO := enginesFor fE fr (cO + 96) 1
  let kO := (kc c.k).getD (max 1 (ceilDiv eO 16))
  let cM := 120 + cnt * kO
  let fx := ceilDiv (4 * k) (64 * eF)
  let xo := ceilDiv (4 * k) 64
  let sampRec := recordOctets (32 + 4 * svRecord g)
  let powRec := recordOctets (32 + 2 * cnt)
  let sampRate := rOver (rTimes fr (cnt * f)) (svRecord g)
  let out : List Flow := if bit om 0 then
      (if f = 1 then [⟨.stage 2 c.k, .hbm, rTimes sampRate (sampRec / 64)⟩] else []) ++ [⟨.stage 3 c.k, .hbm, rTimes fi (powRec / 64)⟩]
    else []
  let table : List Flow := if bit om 2 then [⟨.stage 3 c.k, .firstPool 3 c.k, rTimes fi (ceilDiv (128 + 2 * cnt) 64)⟩] else []
  ([{ stage := 0, chan := c.k, image := 51, nimage := 51, rate := fr, worst := svFilter g eF c.cplx, count := eF, split := true, packed := true
      inFlits := inFl, outFlits := fx, t0 := c.t0
      x := so * svSpan g / eF + 2 * so * svHop g / eF, y := 4 * svSpan g / eF },
    { stage := 1, chan := c.k, image := 52, nimage := 52, rate := fr, worst := cX, preds := [(0, c.k)]
      count := enginesFor fE fr (cX + 96) 1, t0 := c.t0, outFlits := xo, x := 4 * k, y := 3 * k },
    { stage := 2, chan := c.k, image := 53, nimage := 53, rate := fr, worst := cO, cond := 80 + 3 * l, drives := bit om 1 && l != 0
      preds := [(1, c.k)], count := eO, packed := true, t0 := c.t0, outFlits := max (if f = 1 then sampRec / 64 else 0) (max (ceilDiv (8 * cnt) 64) (b2n (r != 0)))
      x := 4096, y := 1024, pools := (2, 8 * cnt, true) :: (if l = 0 then [] else [(5, 8 * l, true)]) },
    { stage := 3, chan := c.k, image := 54, nimage := 54, rate := fi, worst := cM, preds := [(2, c.k)]
      count := enginesFor fE fi (cM + 96) 1, t0 := c.t0, outFlits := if bit om 0 then powRec / 64 else 0, x := 4096, y := 1024
      pools := if bit om 2 then [(1, 2 * (128 + 2 * cnt), false)] else [] }],
    [⟨.polder c.half, .stage 0 c.k, rTimes fr (ceilDiv inFl eF)⟩, ⟨.stage 0 c.k, .stage 1 c.k, rTimes fr fx⟩,
     ⟨.stage 1 c.k, .stage 2 c.k, rTimes fr xo⟩, ⟨.pool 2 c.k, .stage 3 c.k, rTimes fi (kO * ceilDiv (8 * cnt) 64)⟩]
      ++ ownPoolFlows 2 c.k fr (ceilDiv (8 * cnt) 64) ++ ownPoolFlows 2 c.k fr (ceilDiv (8 * l) 64) ++ table ++ out,
    { key := key, chan := c.k, stage := 0, half := c.half, inflow := c.inflow, span := rTime (svHop g - 1) c.fs, flits := inFl, units := fr })

def State.sievePlan (s : State) (n fE : Nat) (kc : Kc) (ins : List ChanIn) : Plan :=
  let g := s.sieveHead n
  let om := s.rd (Ob.slotOutputMask n)
  let lev := (List.range (svLevels g)).map fun i => s.levelEntry n i
  let rou := (List.range (svRoutes g)).map fun i => s.routeEntry n i
  let l := ins.map fun c => sieveChan om (s.chanKey n c.k) g fE (lev.countP fun e => bits e 63 56 == c.k)
    (rou.countP fun e => bits e 31 24 == c.k) kc c
  let f := b2n (svFormat g != 0)
  let sums := rSum (ins.map fun c => rOver c.fs (svHop g))
  let samp := rOver (rTimes sums (svCount g * f)) (svRecord g)
  let pow := rOver sums (max 1 (svPower g))
  let src := lev.map fun e => match ins.find? (fun c => c.k == bits e 63 56) with
    | some c => ({ span := s.utUp (rTime (svSpan g - 1) c.fs), spacing := s.utDown (rTime (2 * 2 ^ bits e 3 0 * svHop g) c.fs) } : LineSrc)
    | none => { span := 0, spacing := 0 }
  { stages := l.flatMap fun x => x.1
    flows := l.flatMap fun x => x.2.1
    drains := l.map fun x => x.2.2
    records := if bit om 0 then fracAdd samp pow else (0, 1)
    octets := if bit om 0 then fracAdd (rTimes samp (recordOctets (32 + 4 * svRecord g))) (rTimes pow (recordOctets (32 + 2 * svCount g)))
      else (0, 1)
    poolOut := if bit om 2 then rTimes pow (96 + 2 * svCount g) else (0, 1)
    sources := if s.isReplay n then [] else src
    noCount := ins.any fun c => (svSplit g fE (rOver c.fs (svHop g)) c.cplx).isNone }

/-! ### Pulse (R203-R215) -/

/-- Samples in a 64-octet unit. -/
def puB (cplx : Bool) : Nat := if cplx then 16 else 32
def puSelect (g e : Nat) (cplx : Bool) : Nat :=
  let b := puB cplx
  b * ceilDiv (puGuard g + enDead e + enArm e + enFilter e) b + puNew g + b * ceilDiv (enConfirm e - 1) b
def puMeasure (g : Nat) (cplx : Bool) : Nat :=
  let b := puB cplx
  b * ceilDiv (puPre g) b + puNew g + b * ceilDiv (puLen g - puPre g - 1) b

/-- The O engines that form a routed input of slot `m`, route `r`, and the channel it is of. -/
def State.routeEngines (s : State) (m r : Nat) : List Nat :=
  ((s.slot m).placement.engines.filter fun p => p.stage == 2 && p.channel == bits (s.routeEntry m r) 31 24).map fun p => p.physical

/-- The inputs of a Pulse pipeline: number, type, sample rate, half and t0 (R195, R205); a routed input takes RouteLatency. -/
def State.pulseIns (s : State) (n : Nat) (chs : List ChanIn) : List ChanIn :=
  let g := s.pulseHead n
  (List.range (puInputs g)).map fun i =>
    let e := s.pulseEntry n i
    if enRoute e then
      let m := s.routeSource n
      let f := s.chanFs (bits (s.routeEntry m (enNumber e)) 31 24)
      { k := i, cplx := true, fs := rOver f (svHop (s.sieveHead m)), t0 := leAt (s.dom Ob.sieveRouteLatency) (8 * m) 8 }
    else match chs.find? (fun c => c.k == enNumber e) with
      | some c => { c with k := i }
      | none => { k := i, cplx := false, fs := (0, 1) }

/-- Block rate of an input (R215). -/
def puBlocks (g e : Nat) (fs : Rate) : Rate := if bit e 60 then rOver fs (max (puGuard g) (enDead e) + 1) else (0, 1)

/-- Record octets per second of an input (R214). -/
def puOctets (g e : Nat) (c : ChanIn) : Rate :=
  let b := puBlocks g e c.fs
  if bits g 163 162 = 1 then rTimes b (128 + 64 * ceilDiv (puLen g * sampleOctets c.cplx) 64)
  else
    let rf := if bit e 60 then ceilDiv (puNew g) (max (puGuard g) (enDead e) + 1) else 0
    let a := rTimes (rOver c.fs (puNew g)) (if rf = 0 then 0 else 64 + 64 * rf)
    if rLe a (rTimes b 128) then a else rTimes b 128

/-- Records per second of an input at worst. -/
def puRecords (g e : Nat) (c : ChanIn) : Rate :=
  let b := puBlocks g e c.fs
  let a := rOver c.fs (puNew g)
  if bits g 163 162 = 1 then b else if rLe b a then b else a

/-- The stages, flows and drains of one Pulse input. -/
def State.pulseChan (s : State) (n fE : Nat) (c : ChanIn) : List StageP × List Flow × List Drain :=
  let g := s.pulseHead n
  let om := s.rd (Ob.slotOutputMask n)
  let e := s.pulseEntry n c.k
  let u := puNew g
  let fr : Rate := rOver c.fs u
  let so := sampleOctets c.cplx
  let nS := puSelect g e c.cplx
  let nM := puMeasure g c.cplx
  let rf := if bit e 60 then ceilDiv u (max (puGuard g) (enDead e) + 1) else 0
  let cS := 64 + ceilDiv (nS * (if c.cplx then 2 else 1)) 2 + 16 * ceilDiv u (enDead e + 1)
  let cM := 64 + rf * (160 + (if c.cplx then 4 else 3) * puLen g)
  let list := ceilDiv (ceilDiv u (enDead e + 1)) 4 * ceilDiv (u + puLen g - puPre g - 1) u
  let src : FEnd := if enRoute e then .engines (s.routeEngines (s.routeSource n) (enNumber e)) else .polder c.half
  let inS := rTimes fr (nS * so / 64)
  let inM := rTimes fr (nM * so / 64)
  let oct := puOctets g e c
  ([{ stage := 0, chan := c.k, image := 55, nimage := 55, rate := fr, worst := cS, cond := cS, drives := bit om 1 && bit e 61
      count := enginesFor fE fr (cS + 96) 1, inFlits := nS * so / 64, outFlits := list, t0 := c.t0, routed := enRoute e
      x := nS * so, y := 1024 },
    { stage := 1, chan := c.k, image := 56, nimage := 56, rate := fr, worst := cM, preds := [(0, c.k)], count := enginesFor fE fr (cM + 96) 1
      inFlits := nM * so / 64, t0 := c.t0, routed := enRoute e, x := nM * so + 512, y := 4 * puLen g
      outFlits := if rf = 0 then 0 else if bits g 163 162 = 1 then recordOctets (64 + puLen g * so) / 64 else 1 + rf }],
    [⟨src, .stage 0 c.k, inS⟩, ⟨src, .stage 1 c.k, inM⟩, ⟨.stage 0 c.k, .stage 1 c.k, rTimes fr list⟩]
      ++ (if bit om 0 && rf != 0 then [⟨.stage 1 c.k, .hbm, rOver oct 64⟩] else []),
    if enRoute e then [] else
      let d : Drain := { key := s.chanKey n (enNumber e), chan := enNumber e, stage := 0, half := c.half, inflow := c.inflow
                         span := rTime (nS - 1) c.fs, flits := nS * so / 64, units := fr }
      [d, { d with stage := 1, span := rTime (nM - 1) c.fs, flits := nM * so / 64 }])

def State.pulsePlan (s : State) (n fE : Nat) (chs : List ChanIn) : Plan :=
  let g := s.pulseHead n
  let om := s.rd (Ob.slotOutputMask n)
  let ins := s.pulseIns n chs
  let l := ins.map fun c => s.pulseChan n fE c
  let blocks := rSum (ins.map fun c => puBlocks g (s.pulseEntry n c.k) c.fs)
  let src := (ins.filter fun c => bit (s.pulseEntry n c.k) 61).map fun c =>
    let e := s.pulseEntry n c.k
    ({ span := s.utUp (rTime (puNew g - 1 + puB c.cplx * ceilDiv (enConfirm e - 1) (puB c.cplx)) c.fs)
       spacing := s.utUp (rTime (enDead e + 1) c.fs) } : LineSrc)
  { stages := l.flatMap fun x => x.1
    flows := l.flatMap fun x => x.2.1
    drains := l.flatMap fun x => x.2.2
    maps := (bitsSet 4 (puMaps g)).map fun k =>
      let fe := (ins.map fun c => c.k).filter fun i =>
        s.rd (Ob.mapChannel k) == 0xFF || (!enRoute (s.pulseEntry n i) && enNumber (s.pulseEntry n i) == s.rd (Ob.mapChannel k))
      { k := k, pulse := true, stage := 1, feeders := fe, rate := blocks, bins := 0, columns := s.rd (Ob.mapColumns k) }
    records := if bit om 0 then rSum (ins.map fun c => puRecords g (s.pulseEntry n c.k) c) else (0, 1)
    octets := if bit om 0 then rSum (ins.map fun c => puOctets g (s.pulseEntry n c.k) c) else (0, 1)
    blocks := blocks
    sources := if s.isReplay n then [] else src }

/-! ### Record (R233-R236) -/

/-- The retained fraction of a triggered capture (R236). -/
def State.retained (s : State) (n k : Nat) : Rate :=
  let g := s.geom n
  let t := s.chunkSpan n k
  let one := fun (u : Nat) =>
    let h := s.rd (Ob.patHoldOff u) * t.2
    ((recPre g + recPost g + 1) * t.1, max 1 (max h t.1))
  let r := rSum ((bitsSet 16 (recUnits g)).map one)
  if rLe (1, 1) r then (1, 1) else r

def State.recordChan (s : State) (n fE : Nat) (c : ChanIn) : List StageP × List Flow × Drain × Rate :=
  let g := s.geom n
  let r := recDecim g
  let so := sampleOctets c.cplx
  let sc := recSamples g
  let w : Rate := rOver (rTimes c.fs (sc * so + 128)) (r * sc)
  if r = 1 then
    ([], [], { key := c.k, chan := c.k, stage := 255, half := c.half, inflow := c.inflow, span := rTime (puB c.cplx - 1) c.fs, flits := 1
               units := rOver c.fs (puB c.cplx) }, w)
  else
    let nZ := 2048 + puB c.cplx * ceilDiv (24 * r) (puB c.cplx)
    let cZ := 64 + ceilDiv (3 * (if c.cplx then 2 else 1) * nZ * (r - 1)) r
    let fr : Rate := rOver c.fs 2048
    let out := ceilDiv (2048 * so) (64 * r)
    ([{ stage := 0, chan := c.k, image := 57, nimage := 57, rate := fr, worst := cZ, count := enginesFor fE fr (cZ + 96) 1
        inFlits := nZ * so / 64, outFlits := out + 2, t0 := c.t0, x := nZ * so, y := 1024 }],
      [⟨.polder c.half, .stage 0 c.k, rTimes fr (nZ * so / 64)⟩,
       ⟨.stage 0 c.k, .hbm, fracAdd (rTimes fr out) (rTimes (rOver c.fs (r * sc)) 2)⟩],
      { key := c.k, chan := c.k, stage := 0, half := c.half, inflow := c.inflow, span := rTime (nZ - 1) c.fs, flits := nZ * so / 64, units := fr }, w)

/-- The plan of a Record pipeline. Raw samples take the record drain, decimated ones the mesh HBM ports as R233 has it, where R25 names the
drain for both (DESIGN CHOICE, log entry 153). -/
def State.recordPlan (s : State) (n fE : Nat) (ins : List ChanIn) : Plan :=
  let g := s.geom n
  let l := ins.map fun c => (c, s.recordChan n fE c)
  let trig := recCapture g == 2
  let part := fun (c : ChanIn) (r : Rate) => if trig then let q := s.retained n c.k; (r.1 * q.1, r.2 * q.2) else r
  let raw := recDecim g == 1
  let perRec := fun (c : ChanIn) => rOver c.fs (recDecim g * recSamples g)
  { stages := l.flatMap fun x => x.2.1
    flows := l.flatMap fun x => x.2.2.1
    drains := l.map fun x => x.2.2.2.1
    records := rSum (l.map fun x => part x.1 (perRec x.1))
    octets := rSum (l.map fun x => part x.1 x.2.2.2.2)
    hbmMore := if trig then rSum (l.map fun x => fracAdd x.2.2.2.2 (part x.1 x.2.2.2.2)) else (0, 1)
    drain0 := if raw then rSum ((l.filter fun x => x.1.half == 0).map fun x => x.2.2.2.2) else (0, 1)
    drain1 := if raw then rSum ((l.filter fun x => x.1.half == 1).map fun x => x.2.2.2.2) else (0, 1) }

/-! ### Service (R298, R538) -/

/-- Stage entry `i` of Stages (R298). -/
def State.stageEntry (s : State) (n i : Nat) : Nat := leAt (s.dom (Ob.slotStages n)) (8 * i) 8
def seMicro (e : Nat) : Nat := bits e 59 54
def seNano (e : Nat) : Nat := bits e 53 48
def seInput (e : Nat) : Bool := bit e 47

def svcN (g : Nat) : Nat := 2 ^ (bits g 127 124 + 6)
def svcHop (g : Nat) : Nat := svcN g / 2 ^ bits g 123 122
def svcPeriod (g : Nat) : Nat := bits g 121 90

/-- Frames per second of a Service pipeline on one channel, or without channels. -/
def State.svcRate (s : State) (g : Nat) (c : Option ChanIn) : Rate :=
  match c with
  | some c => rOver c.fs (svcHop g)
  | none => (s.fT, max 1 (svcPeriod g))

/-- The stages of a Service pipeline for one channel, or for none. -/
def State.serviceChan (s : State) (n fE : Nat) (c : Option ChanIn) : List StageP × List Flow × List Drain :=
  let g := s.geom n
  let fr := s.svcRate g c
  let ch := match c with
    | some c => c.k
    | none => 0xFFF
  let params := s.dom (Ob.slotStageParams n)
  let cnt := (s.dom (Ob.slotStages n)).length / 8
  let es := (List.range cnt).map fun i => (i, s.stageEntry n i)
  let flowsOf := fun (e : Nat) => iFlows (s.microImage (seMicro e))
  let stages := es.map fun p =>
    let e := p.2
    let mb := s.microImage (seMicro e)
    let preds := (es.filter fun q => (flowsOf q.2).any fun f => f.2.1 == 0 && f.2.2.1 == p.1).map fun q => (q.1, ch)
    let inp := seInput e && c.isSome
    let st : StageP := {
      stage := p.1, chan := ch, image := seMicro e, nimage := seNano e, params := (params.drop (bits e 31 16)).take (bits e 15 0)
      rate := fr, worst := iWorst mb, svc := iSvcCycles mb, cond := iCond mb
      drives := (flowsOf e).any fun f => f.2.1 == 3
      preds := preds.filter fun q => q.1 < p.1
      count := enginesFor fE fr (iWorst mb + iSvcCycles mb) 1
      inFlits := if inp then iRxUnitFlits mb else 0
      outFlits := (flowsOf e).foldl (fun m f => max m f.2.2.2.1) 0
      t0 := match c with
        | some c => c.t0
        | none => 0
      x := iXUse mb, y := iYUse mb }
    st
  let flows := es.flatMap fun p =>
    (match c with
      | some c => if seInput p.2 then [(⟨.polder c.half, .stage p.1 ch, rTimes fr (iRxUnitFlits (s.microImage (seMicro p.2)))⟩ : Flow)] else []
      | none => []) ++
    (flowsOf p.2).filterMap fun f =>
      if f.2.1 = 0 then some (⟨.stage p.1 ch, .stage f.2.2.1 ch, rTimes fr f.2.2.2.1⟩ : Flow)
      else if f.2.1 = 1 ∧ bit (s.rd (Ob.slotOutputMask n)) 0 then some (⟨.stage p.1 ch, .hbm, rTimes fr f.2.2.2.1⟩ : Flow)
      else none
  let drains := match c with
    | some c => (es.filter fun p => seInput p.2).map fun p =>
        ({ key := c.k, chan := c.k, stage := p.1, half := c.half, inflow := c.inflow, span := rTime (svcN g - 1) c.fs
           flits := iRxUnitFlits (s.microImage (seMicro p.2)), units := fr } : Drain)
    | none => []
  (stages, flows, drains)

def State.servicePlan (s : State) (n fE : Nat) (ins : List ChanIn) : Plan :=
  let g := s.geom n
  let l := match ins with
    | [] => [s.serviceChan n fE none]
    | _ => ins.map fun c => s.serviceChan n fE (some c)
  let hbm := (l.flatMap fun x => x.2.1).filter fun f => f.dst == .hbm
  let fl := rSum (hbm.map fun f => f.rate)
  let span := match ins with
    | c :: _ => s.utUp (rTime (svcN g - 1) c.fs)
    | [] => svcPeriod g * 256
  let gap := match ins with
    | c :: _ => s.utDown (rTime 2 c.fs)
    | [] => 512
  { stages := l.flatMap fun x => x.1
    flows := l.flatMap fun x => x.2.1
    drains := l.flatMap fun x => x.2.2
    -- a record is at least one flit
    records := fl
    octets := rTimes fl 64
    sources := if bit (s.rd (Ob.slotOutputMask n)) 1 then
      (List.range (s.rd (Ob.slotConditionCount n))).map fun _ => { span := span, spacing := gap } else [] }

/-! ### Every mode -/

/-- What slot `n` asks for, with the engines counted at clock `fE`. -/
def State.plan (s : State) (n fE : Nat) (kc : Kc) (drive : List (Nat × Nat × Bool)) : Plan :=
  let ins := s.chanIns n drive
  let m := s.chainMode n
  let p := if m = 1 then s.spectrumPlan n fE kc ins else if m = 2 then s.sievePlan n fE kc ins
    else if m = 3 then s.pulsePlan n fE ins else if m = 4 then s.recordPlan n fE ins
    else if m = 6 then s.servicePlan n fE ins else {}
  let routed := if m = 3 then ((s.pulseIns n ins).filter fun c => enRoute (s.pulseEntry n c.k)).map fun c => rTimes c.fs 2 else []
  let live := if s.isReplay n then [(s.rd (Ob.slotReplayRate n), 1)]
    else (ins.map fun c => (s.rd (Ob.chanChannelRate c.k), 1)) ++ routed
  let p1 := { p with input := rSum live }
  -- admission places best-effort work on no engine and charges it nothing past term 5 (R51)
  if s.isReplay n && s.rd (Ob.slotReplayClass n) == 1 then
    { p1 with input := (0, 1), stages := p1.stages.map fun x => { x with count := 0 } } else p1

end Sys2Proof.Machine
end

