-- ==== Sys2Proof/Machine/Valid.lean ====
section
/-! DEFINITION. Descriptor validity, term 1 of R50: the rules of every mode (spec/02_contracts.md R50, R73, R131; spec/03_ingest.md R87, R88; spec/04_spectrum.md R103-R107; spec/05_triggers.md R131, R137; spec/06_density.md R155-R159, R165, R169; spec/07_sieve.md R174-R176, R193; spec/08_pulse.md R196-R198; spec/09_records.md R223-R238; spec/11_microcode.md R295-R301; spec/14_host_storage.md R366, R375; spec/21_calibration_housekeeping.md R538). -/

namespace Sys2Proof.Machine

open Sys2Proof

/-! ### Channels (R87, R88, R102, R103) -/

/-- The converters of channel `k`. -/
def State.converters (s : State) (k : Nat) : List Nat :=
  s.rd (Ob.chanConverterI k) :: (if s.complex k then [s.rd (Ob.chanConverterQ k)] else [])

/-- May a pipeline take channel `k` (R88, R102)? -/
def State.channelOk (s : State) (k : Nat) : Bool :=
  let j := s.rd (Ob.chanSourceLink k)
  let cs := s.converters k
  let ob := s.rd (Ob.chanOverrangeBit k)
  decide (j < 16) && s.rd (Ob.linkLinkState j) == 4 && (cs.all fun c => decide (c < s.rd (Ob.linkM j)))
  && (cs.length == 1 || cs[0]? != cs[1]?) && (ob == 0xFF || decide (ob < s.rd (Ob.linkCS j)))
  && (List.range 64).all fun k2 => k2 == k || s.rd (Ob.chanSourceLink k2) != j || !(s.converters k2).any fun c => cs.contains c

/-- The links of a set of channels. -/
def State.linksOfMask (s : State) (mask : Nat) : List Nat := ((bitsSet 64 mask).map fun k => s.rd (Ob.chanSourceLink k)).dedup

/-- The channels of a live pipeline (R87, R88). -/
def State.channelsOk (s : State) (n : Nat) : Bool :=
  let mask := s.rd (Ob.slotChannelMask n)
  let links := s.linksOfMask mask
  let sub0 := links.any fun j => s.rd (Ob.linkSubclass j) == 0
  let cross := s.rd (Ob.slotArrayPeers n) &&& (2 ^ 8 - 1 - 2 ^ (s.arr.pos % 8)) != 0
  ((bitsSet 64 mask).all fun k => s.channelOk k) && (!sub0 || (decide (links.length ≤ 1) && !cross))

/-- Every selected channel has one type and one rate (R103, R171, R237). -/
def State.uniform (s : State) (n : Nat) (drive : List (Nat × Nat × Bool)) : Bool :=
  let l := if s.isReplay n then s.feed n drive
    else (bitsSet 64 (s.rd (Ob.slotChannelMask n))).map fun k => (k, s.rd (Ob.chanChannelRate k), s.complex k)
  match l with
  | [] => true
  | c :: cs => cs.all fun d => d.2 == c.2

/-! ### Weirs and maps (R107, R137, R155-R159, R165, R169) -/

/-- A Weir or map is free for slot `n`, or bound to the slot it replaces. -/
def unbound (b : Nat) (rep : Option Nat) : Bool := b == 0xFF || some b == rep

/-- The settings of a Weir fit the delivered bins (R137). -/
def State.weirOk (s : State) (w bins : Nat) : Bool :=
  let b := s.dom (Ob.weirLimits w)
  b.length == 4 * bins && decide (s.rd (Ob.weirMinBins w) ≤ bins)
  && (List.range bins).all fun i => let e := leAt b (4 * i) 4; decide (sint 16 e ≤ sint 16 (e / 65536))

/-- The settings of a map fit (R156). -/
def State.mapFits (s : State) (k cols : Nat) (pulse : Bool) : Bool :=
  let rows := s.rd (Ob.mapRows k)
  let rc := s.rd (Ob.mapRegionCols k)
  let rr := s.rd (Ob.mapRegionRows k)
  decide (rc / 65536 < cols) && decide (rc % 65536 < cols) && decide (rr / 65536 < rows) && decide (rr % 65536 < rows)
  && decide (s.rd (Ob.mapTrigLow k) ≤ s.rd (Ob.mapTrigHigh k))
  && (!pulse || (!s.rdB (Ob.mapTrigEnable k) && (s.rd (Ob.mapYSelect k) != 0 || rows == 1)))

/-- Every map of a mask may be bound (R107, R155-R159, R165, R169). -/
def State.mapsOk (s : State) (n mask bins : Nat) (pulse : Bool) (rep : Option Nat) : Bool :=
  let om := s.rd (Ob.slotOutputMask n)
  (mask == 0 || bit om 2) && (!bit om 5 || (bit om 2 && mask != 0))
  && (bitsSet 4 mask).all fun k =>
    let cols := if pulse then s.rd (Ob.mapColumns k) else s.mapCols k bins
    unbound (s.rd (Ob.mapBoundSlot k)) rep && s.rd (Ob.mapSource k) == b2n pulse
    && (s.rd (Ob.mapChannel k) == 0xFF || bit (s.rd (Ob.slotChannelMask n)) (s.rd (Ob.mapChannel k)))
    && (if pulse then decide (1 ≤ cols) else s.rd (Ob.mapColumns k) == 0) && decide (cols ≤ 2048) && s.mapFits k cols pulse
    && (s.rd (Ob.mapBoundSlot k) == 0xFF || (s.mapS k).columns == cols)

/-! ### Modes -/

/-- Spectrum (R103, R106, R107, R137). -/
def State.spectrumOk (s : State) (n : Nat) (ins : List ChanIn) (rep : Option Nat) : Bool :=
  let b := s.chainGeom n
  let g := leNat b
  let w := spWindow g
  b.length == 16 && bits g 35 0 == 0 && decide (1 ≤ spM g) && decide (w ≤ 6) && decide (spDetector g ≤ 4) && decide (bits g 63 60 ≤ 8)
  && decide (spFormat g ≤ 1) && decide (spParam g ≤ (if w = 4 ∨ w = 6 then 3 else if w = 5 then 2 else 0))
  && (ins.all fun c => decide (spFirst g + spBins g ≤ binsPerFrame c.cplx g))
  && (spFormat g == 0 || (spDetector g == 0 && spM g == 1))
  && (w != 6 || (s.rdB (Ob.uwinLoaded (spParam g)) && s.rd (Ob.uwinLength (spParam g)) == 2 ^ spLog g))
  && ((spWeirs g).all fun k => unbound (s.rd (Ob.weirBoundSlot k)) rep && s.weirOk k (spBins g))
  && s.mapsOk n (spMaps g) (spBins g) false rep

/-- j lies in the delivered range. -/
def svDelivered (g j : Nat) : Bool := decide (svFirst g ≤ j) && decide (j < svFirst g + svCount g)

/-- Channelize (R174-R176, R193). -/
def State.sieveOk (s : State) (n : Nat) (ins : List ChanIn) : Bool :=
  let b := s.chainGeom n
  let g := s.sieveHead n
  let pr := bits g 214 212
  let mask := s.rd (Ob.slotChannelMask n)
  let inside := fun (ch j : Nat) => decide (ch < 64) && bit mask ch && svDelivered g j
  let rou := (List.range (svRoutes g)).map fun i => s.routeEntry n i
  decide (32 ≤ b.length) && b.length == 32 + 8 * svLevels g + 4 * svRoutes g && bits g 195 192 == 0 && bits g 167 160 == 0 && bits g 119 0 == 0
  && decide (bits g 223 220 ≤ 8) && decide (pr ≤ 4) && decide (bits g 211 208 ≤ (if pr = 0 then 3 else 0)) && decide (svFormat g ≤ 2)
  && decide (bits g 199 196 ≤ 8) && decide (1 ≤ svPower g) && decide (svLevels g ≤ 256) && decide (svRoutes g ≤ 256)
  && (svPulse g == 0xFF || decide (svPulse g < 64))
  && (ins.all fun c => decide (svFirst g + svCount g ≤ (if c.cplx then 2 ^ svLog g else 2 ^ svLog g / 2 + 1)))
  && ((List.range (svLevels g)).all fun i =>
    let e := s.levelEntry n i
    inside (bits e 63 56) (bits e 55 40) && decide (sint 16 (bits e 23 8) ≤ sint 16 (bits e 39 24)) && bits e 7 4 == 0 && decide (bits e 3 0 ≤ 12))
  && (rou.all fun e => inside (bits e 31 24) (bits e 23 8) && bits e 7 0 == 0) && decide rou.Nodup
  && (if rou.isEmpty then svPulse g == 0xFF else svPulse g != 0xFF && svPulse g != n)
  && (pr == 0 || (s.rdB (Ob.protoLoaded (pr - 1)) && s.rd (Ob.protoLength (pr - 1)) == svSpan g))
  && !bit (s.rd (Ob.slotOutputMask n)) 5

/-- The Successor of a pipeline with routes keeps K, Oversample, the route entries and PulseSlot (R193). -/
def State.routesKept (s : State) (n : Nat) (rep : Option Nat) : Bool :=
  match rep with
  | some o =>
    let h := s.sieveHead o
    let g := s.sieveHead n
    s.chainMode o != 2 || svRoutes h == 0 || (s.chainMode n == 2 && svLog h == svLog g && bit h 215 == bit g 215 && svPulse h == svPulse g
      && svRoutes h == svRoutes g && (List.range (svRoutes h)).all fun i => s.routeEntry n i == s.routeEntry o i)
  | none => true

/-- Pulse (R196-R198). -/
def State.pulseOk (s : State) (n : Nat) (rep : Option Nat) : Bool :=
  let b := s.chainGeom n
  let g := s.pulseHead n
  let cnt := puInputs g
  let es := (List.range cnt).map fun i => s.pulseEntry n i
  let mask := s.rd (Ob.slotChannelMask n)
  let lr := puLen g
  let bl := bits g 199 196
  let m := bits g 157 150
  let src := decide (m < 64) && s.rd (Ob.slotState m) == 2 && s.rd (Ob.slotMode m) == 2 && svPulse (s.sieveHead m) == n
  decide (32 ≤ b.length) && b.length == 32 + 16 * cnt && decide (1 ≤ cnt) && decide (cnt ≤ 256) && decide (16 ≤ lr) && decide (puPre g < lr)
  && decide (bits g 215 212 ≤ 6) && (decide (bl ≤ 12) || bl == 15) && decide (1 ≤ bits g 195 188) && decide (bits g 163 162 ≤ 1)
  && bits g 149 0 == 0 && (m == 0xFF || src)
  && (es.all fun e =>
    decide (sint 18 (bits e 109 92) ≤ sint 18 (bits e 127 110)) && decide (1 ≤ enDead e) && decide (1 ≤ enArm e) && decide (bits e 71 68 ≤ 4)
    && decide (enConfirm e ≤ enDead e) && decide (1 ≤ enWidth e) && decide (enWidth e ≤ enDead e) && bits e 6 0 == 0
    && (if enRoute e then m != 0xFF && decide (enNumber e < svRoutes (s.sieveHead m)) else decide (enNumber e < 64) && bit mask (enNumber e)))
  && decide (es.map fun e => (enRoute e, enNumber e)).Nodup
  && ((bitsSet 64 mask).all fun k => es.any fun e => !enRoute e && enNumber e == k)
  && (bl == 15 || decide (2 ^ bl ≤ puPre g)) && decide (bits g 187 176 + bits g 175 164 < lr)
  && s.mapsOk n (puMaps g) 0 true rep

/-- Record (R231). -/
def State.recordOk (s : State) (n : Nat) : Bool :=
  let b := s.dom (Ob.slotGeometry n)
  let g := leNat b
  let om := s.rd (Ob.slotOutputMask n)
  b.length == 32 && bits g 166 0 == 0 && decide (bits g 255 252 ≤ 4) && decide (bits g 251 249 ≤ 6) && decide (recCapture g ≤ 2)
  && (recCapture g != 1 || decide (1 ≤ recChunks g)) && s.rd (Ob.slotConditionCount n) == 0
  && bit om 0 && !bit om 1 && !bit om 2 && !bit om 5 && (recCapture g != 2 || recUnits g != 0)

/-- Parameters keep the declared bounds (R295). -/
def boundsKept (mb params : Bytes) : Bool := (iBounds mb).all fun x => decide (leAt params (4 * x.1) 4 ≤ x.2.1)

/-- Service (R295, R298, R538); the checks of R301 come apart. -/
def State.serviceOk (s : State) (n : Nat) (ins : List ChanIn) : Bool :=
  let b := s.dom (Ob.slotGeometry n)
  let g := leNat b
  let st := s.dom (Ob.slotStages n)
  let params := s.dom (Ob.slotStageParams n)
  b.length == 16 && bits g 89 0 == 0 && decide (bits g 127 124 ≤ 6)
  && (if s.rd (Ob.slotChannelMask n) = 0 then decide (64 ≤ svcPeriod g) else svcPeriod g == 0)
  && decide (8 ≤ st.length) && decide (st.length ≤ 128) && st.length % 8 == 0
  && ((List.range (st.length / 8)).all fun i =>
    let e := s.stageEntry n i
    let mb := s.microImage (seMicro e)
    bits e 63 60 == i && bits e 46 32 == 0 && bits e 15 0 == 4 * iParamLength mb
    && decide (bits e 31 16 + bits e 15 0 ≤ params.length) && boundsKept mb ((params.drop (bits e 31 16)).take (bits e 15 0))
    && (!seInput e || ins.all fun c => iRxUnitFlits mb == ceilDiv (svcN g * sampleOctets c.cplx) 64))
  && !bit (s.rd (Ob.slotOutputMask n)) 5

/-- Replay (R237, R238); its reader is a consumer of R225, which an Overwrite ring does not take (R223). -/
def State.replayOk (s : State) (n : Nat) (drive : List (Nat × Nat × Bool)) : Bool :=
  let b := s.dom (Ob.slotGeometry n)
  let g := s.replayHead n
  let src := s.rd (Ob.slotReplaySource n)
  let m := bits g 383 376
  let have' := (s.feed n drive).map fun d => d.1
  let rb := s.rd (Ob.slotRingBytes n)
  decide (48 ≤ b.length) && bits g 79 0 == 0 && decide (1 ≤ m) && decide (m ≤ 3) && src != 0
  && (src != 1 || (decide (rpSource g < 64) && (s.ringS (s.ringOwner (rpSource g))).present && !(s.ringS (s.ringOwner (rpSource g))).overwrite))
  && ((bitsSet 64 (s.rd (Ob.slotChannelMask n))).all fun k => have'.contains k)
  && s.uniform n drive && s.rd (Ob.slotConditionCount n) == 0
  && (s.rd (Ob.slotReplayClass n) != 1 || (rb != 0 && decide (rb ≤ s.rd Ob.storeFreeBytes)))

/-! ### Rings, consumers, drives (R223, R225, R366, R375) -/

/-- The smallest ring (R223): two extents. -/
def minRing : Nat := 4194304

/-- RingBytes in force (R223). -/
def State.ringBytesOf (s : State) (n : Nat) : Nat := if s.rd (Ob.slotRingBytes n) = 0 then minRing else s.rd (Ob.slotRingBytes n)

/-- The largest hold limit of a ring (R225). -/
def maxHold (bytes : Nat) : Nat := bytes - maxRecord - markerReserve

def State.ringAskOk (s : State) (n : Nat) : Bool :=
  let om := s.rd (Ob.slotOutputMask n)
  let rb := s.ringBytesOf n
  let hold := fun (h : Nat) => h == 0 || (decide (2 * maxRecord ≤ h) && decide (h ≤ maxHold rb))
  !bit om 0 || (decide (minRing ≤ rb) && rb % 2097152 == 0 && hold (s.rd (Ob.slotStreamHold n)) && hold (s.rd (Ob.slotStorageHold n))
    && (s.rd (Ob.slotPolicy n) == 0 || (!bit om 3 && !bit om 4 && !s.rdB (Ob.slotHostConsumer n))))

def State.consumersOk (s : State) (n : Nat) (rep : Option Nat) : Bool :=
  let om := s.rd (Ob.slotOutputMask n)
  let r := s.rd (Ob.slotStreamRing n)
  let st := s.rd (Ob.ringRingState r)
  (!bit om 3 || ((st == 1 || st == 2) && unbound (s.rd (Ob.ringOwner r)) rep))
  && (!bit om 4 || (bitsSet 6 (s.rd (Ob.slotStoragePorts n))).all fun k => s.rd (Ob.storDriveState k) == 5)

/-! ### Condition lines and replacement (R73, R131) -/

/-- The lines of slot `n` (R131). -/
def State.lineRange (s : State) (n : Nat) : List Nat :=
  (List.range (s.rd (Ob.slotConditionCount n))).map fun i => s.rd (Ob.slotConditionFirst n) + i

def State.linesOk (s : State) (n sources : Nat) (rep : Option Nat) : Bool :=
  let cnt := s.rd (Ob.slotConditionCount n)
  cnt == sources && (bit (s.rd (Ob.slotOutputMask n)) 1 || cnt == 0) && decide (s.rd (Ob.slotConditionFirst n) + cnt ≤ 256)
  && (s.lineRange n).all fun l =>
    let x := s.lineS l
    x.cls == 0 || (x.cls == 1 && some x.src == rep)

/-- The outputs of B+0x03 (R73). -/
def outputKeys (n : Nat) : List Nat :=
  [Ob.slotOutputMask n, Ob.slotStreamRing n, Ob.slotStoragePorts n, Ob.slotConditionFirst n, Ob.slotConditionCount n]

def State.replacesOk (s : State) (n : Nat) (rep : Option Nat) : Bool :=
  match rep with
  | none => true
  | some o => o != n && decide (o < 64) && s.rd (Ob.slotState o) == 2 && (s.slot o).replacedBy.isNone
    && (outputKeys n).map s.rd == (outputKeys o).map s.rd

/-- The slot that `n` replaces. -/
def State.replaces (s : State) (n : Nat) : Option Nat := if s.rd (Ob.slotReplaces n) = 0xFF then none else some (s.rd (Ob.slotReplaces n))

/-- The codes of the image checks of R301, stage by stage. -/
def State.imageCodes (s : State) (n : Nat) : List Nat :=
  if s.rd (Ob.slotMode n) != 6 then []
  else (List.range ((s.dom (Ob.slotStages n)).length / 8)).map fun i =>
    let e := s.stageEntry n i
    (s.verifyPair (seMicro e) (seNano e) 8).1

/-- Term 1 of R50: the descriptor of slot `n` is valid. -/
def State.valid (s : State) (n : Nat) (drive : List (Nat × Nat × Bool)) : Bool :=
  let m := s.rd (Ob.slotMode n)
  let cm := s.chainMode n
  let rep := s.replaces n
  let ins := s.chanIns n drive
  let stagesOk := m == 6 || (s.dom (Ob.slotStages n)).isEmpty
  let modeOk := if cm = 1 then s.spectrumOk n ins rep else if cm = 2 then s.sieveOk n ins else if cm = 3 then s.pulseOk n rep
    else if cm = 4 then s.recordOk n else if cm = 6 then s.serviceOk n ins else false
  decide (1 ≤ m) && decide (m ≤ 6) && s.rd (Ob.slotOutputMask n) < 64 && stagesOk && s.replacesOk n rep
  && !((s.ringS n).present && (s.ringS n).kept)
  && (if m = 5 then s.replayOk n drive else s.channelsOk n && (cm == 3 || cm == 4 || s.uniform n drive))
  && modeOk && s.routesKept n rep && s.ringAskOk n && s.consumersOk n rep
  && s.linesOk n (s.plan n (s.clockOf (s.rd Ob.opCurrent)) (fun _ => none) drive).sources.length rep
  && !(s.imageCodes n).contains 0x4F

end Sys2Proof.Machine
end

