-- ==== Sys2Proof/Machine/Place.lean ====
section
/-! DEFINITION. Where an admission places a pipeline: engines, pool regions, map slices, Polder shares and the routes of its flows (spec/02_contracts.md R52, R53, R579; spec/03_ingest.md R97, R98; spec/04_spectrum.md R124, R125; spec/06_density.md R157, R158, R167, R168; spec/10_engines.md R240-R243). What the spec leaves to the placement algorithm is `Config.choice` (log entry 27). -/

namespace Sys2Proof.Machine

open Sys2Proof

/-- One admission attempt: the slot, what drives hold for a Replay, the points checked, the slot whose resources count as free (R76), and
whether cluster spares may be borrowed (R74). -/
structure Ask where
  n : Nat
  drive : List (Nat × Nat × Bool) := []
  pts : List Nat
  skip : Option Nat := none
  spares : Bool := false
  deriving DecidableEq, Repr

/-- Is slot `n` a best-effort Replay (R51)? It is charged terms 1 to 5 only and receives no contract. -/
def State.bestEffort (s : State) (n : Nat) : Bool := s.isReplay n && s.rd (Ob.slotReplayClass n) == 1

/-- The points R50 checks for slot `n`: from the current one down to EnergyClass. -/
def State.pointsOf (s : State) (n : Nat) : List Nat :=
  let c := s.rd Ob.opCurrent
  (List.range 3).filter fun p => decide (c ≤ p) && decide (p ≤ max c (s.rd (Ob.slotEnergyClass n)))

/-- The lowest of them. -/
def Ask.low (a : Ask) : Nat := a.pts.getLastD 0

/-- A placement choice. -/
def State.choose (s : State) (n tag i : Nat) : Nat := Config.choice (s.rd Ob.admStateDigest) n tag i

def insertOn {α : Type} (f : α → Nat) (x : α) : List α → List α
  | [] => [x]
  | y :: l => if f x ≤ f y then x :: y :: l else y :: insertOn f x l

/-- A list in ascending order of a key. -/
def sortOn {α : Type} (f : α → Nat) (l : List α) : List α := l.foldr (insertOn f) []

/-- Charges on other contracts' account. -/
def State.usedOn (s : State) (a : Ask) (q point cls unit : Nat) : Nat :=
  s.chargedOn q point cls unit - (match a.skip with
    | some o => s.slotCharge o q point cls unit
    | none => 0)

/-- Charges on one unit joined. -/
def addCharge (c : Charge) : List Charge → List Charge
  | [] => [c]
  | d :: l => if d.q = c.q ∧ d.point = c.point ∧ d.cls = c.cls ∧ d.unit = c.unit then { d with amount := d.amount + c.amount } :: l
    else d :: addCharge c l

def mergeCharges (l : List Charge) : List Charge := (l.filter fun c => c.amount != 0).foldl (fun a c => addCharge c a) []

/-- The first charge that does not fit at a checked point (R50, R582). -/
def State.overrun (s : State) (a : Ask) (code : Nat) (limit : Charge → Nat) (l : List Charge) : Option Refusal4x :=
  l.findSome? fun c =>
    if a.pts.contains c.point then
      let used := s.usedOn a c.q c.point c.cls c.unit
      if limit c < used + c.amount then
        some { code := code, unit := c.cls * 2 ^ 24 + c.unit, need := c.amount, avail := limit c - used, point := c.point }
      else none
    else none

/-! ### Engines (term 6) -/

/-- Engines that contracts hold. -/
def State.heldEngines (s : State) (skip : Option Nat) : List Nat :=
  (List.range 64).flatMap fun n => if s.active n && some n != skip then s.placed n ++ (s.slot n).borrowed else []

/-- Engines that an admission may place on (R50 term 6, R52, R74, R242). -/
def State.openEngines (s : State) (a : Ask) : List Nat :=
  let held := s.heldEngines a.skip
  let mine := match a.skip with
    | some o => s.placed o
    | none => []
  (List.range 1088).filter fun e =>
    let x := s.eng e
    !held.contains e && (s.life.retiring.all fun p => p.2 != e)
    && ((x.st == 0 && x.sends.isEmpty) || (mine.contains e && (x.st == 1 || x.st == 2)) || (a.spares && x.st == 4 && bit (s.rd Ob.lifeEngineSpareMap) (e / 17)))

/-- Whole teams taken from clusters in order. -/
def takeTeams (team : Nat) : List (List Nat) → Nat → List Nat × Nat
  | [], need => ([], need)
  | es :: l, need =>
    let k := min (es.length / max 1 team * max 1 team) need
    let r := takeTeams team l (need - k)
    (es.take k ++ r.1, r.2)

/-- A stage with the engines it got and how many it lacks. -/
structure Placed where
  stage : StageP
  engines : List Nat
  lack : Nat
  deriving DecidableEq, Repr

/-- Engines for one stage: clusters in the order chosen, packed stages in clusters with the most free engines first (R124, R190). -/
def State.placeStage (s : State) (n : Nat) (free : List Nat) (p : StageP) : Placed :=
  let tag := 16 * (p.stage + 16 * p.chan) + 2
  let at' := fun (c : Nat) => free.filter fun e => e / 17 == c
  let key := fun (c : Nat) => (if p.packed then (17 - (at' c).length) * 2 ^ 32 else 0) + s.choose n tag c % 2 ^ 32
  let cl := (sortOn key (List.range 64)).map fun c => sortOn (fun e => s.choose n (tag + 1) e) (at' c)
  let r := takeTeams p.team cl p.count
  { stage := p, engines := r.1, lack := r.2 }

def State.placeStages (s : State) (n : Nat) (free : List Nat) : List StageP → List Placed
  | [] => []
  | p :: l =>
    let x := s.placeStage n free p
    x :: s.placeStages n (free.filter fun e => !x.engines.contains e) l

/-- Clusters of a list of engines. -/
def clustersOf (es : List Nat) : List Nat := (es.map fun e => e / 17).dedup

/-- K_c of a placement (R124, R190): clusters of the stage whose partials the next stage takes, at least one for every 16 engines. -/
def kcOf (mode : Nat) (l : List Placed) : Kc := fun ch =>
  let st := if mode = 2 then 2 else 1
  match l.find? fun p => p.stage.stage == st && p.stage.chan == ch with
  | some p => if p.engines.isEmpty then none else some (max (clustersOf p.engines).length (ceilDiv p.engines.length 16))
  | none => none

/-- Stages in the order placed. -/
def stageOrder (l : List StageP) : List StageP := sortOn (fun p => p.stage * 4096 + p.chan) l

/-- The plan and its engines: counts that depend on K_c are taken with the clusters of the placement. -/
def State.planPlaced (s : State) (a : Ask) : Plan × List Placed :=
  let f := s.clockOf a.low
  let free := s.openEngines a
  let p0 := s.plan a.n f (fun _ => none) a.drive
  let kc := kcOf (s.chainMode a.n) (s.placeStages a.n free (stageOrder p0.stages))
  let p := s.plan a.n f kc a.drive
  (p, s.placeStages a.n free (stageOrder p.stages))

/-- Term 6 (R50, R53, R124, R190, R215). What is needed and what there is are in cycles per second, for whole engines at 63/64 of the clock
(R582, R577 quantity 7; DEDUCED, log entry 154). -/
def State.engineRefusal (s : State) (a : Ask) (p : Plan) (l : List Placed) : Option Refusal4x :=
  let need := (l.map fun x => x.stage.count).sum
  let free := (s.openEngines a).length
  let all := s.rd Ob.pulseBlockRateCharged - (match a.skip with
    | some o => (s.slot o).chargeOn 24 0 0 0
    | none => 0)
  let per := s.clockOf a.low * 63 / 64
  if p.noCount || decide (free < need) then
    some { code := 0x41, unit := 0x02 * 2 ^ 24, need := max need (free + 1) * per, avail := free * per, point := a.low }
  else match l.find? fun x => x.lack != 0 with
    | some x =>
      let c := s.choose a.n (16 * (x.stage.stage + 16 * x.stage.chan) + 2) 64 % 64
      some { code := 0x41, unit := 0x02 * 2 ^ 24 + 17 * c, need := x.stage.team * per, avail := (x.stage.team - 1) * per, point := a.low }
    | none =>
      if 200000000 < all + rUp p.blocks then some { code := 0x41, need := rUp p.blocks, avail := 200000000 - all, point := a.low } else none

/-- Logical numbers (R242): each new engine takes the lowest that no placed engine holds. -/
def State.freeLogical (s : State) : List Nat :=
  let used := (List.range 64).flatMap fun n => if s.active n then (s.slot n).placement.engines.map fun e => e.logical else []
  (List.range 1024).filter fun i => !used.contains i

/-- The engine entries of Placement (R576). -/
def State.engineEntries (s : State) (l : List Placed) : List PlEngine :=
  let es := l.flatMap fun p => p.engines.zipIdx.map fun (e : Nat × Nat) =>
    ({ logical := 0, physical := e.1, stage := p.stage.stage, channel := p.stage.chan, rotation := e.2 / max 1 p.stage.team } : PlEngine)
  es.zipWith (fun e i => { e with logical := i }) (s.freeLogical ++ List.range es.length)

/-! ### Cluster pools (term 7) -/

/-- Pool regions that contracts hold; those of the maps of a replaced slot pass on (R74). What best-effort work has placed is not charged and
makes way (R51; DEDUCED, log entry 155). -/
def State.heldRegions (s : State) (skip : Option Nat) : List PlRegion :=
  (List.range 64).flatMap fun n => if s.active n && !s.bestEffort n then
    (if some n == skip then (s.slot n).placement.regions.filter fun r => r.kind == 4 else (s.slot n).placement.regions) else []

/-- Two regions have a line in common. -/
def PlRegion.overlaps (r x : PlRegion) : Bool :=
  r.cluster == x.cluster && decide (r.firstLine < x.firstLine + x.lineCount) && decide (x.firstLine < r.firstLine + r.lineCount)

/-- Best-effort work gives up the pool lines that an admission takes (R51). -/
def State.makeWay (s : State) (l : List PlRegion) : State :=
  ((List.range 64).filter fun n => s.active n && s.bestEffort n).foldl (fun s n =>
    let gone := (s.slot n).placement.regions.filter fun r => l.any r.overlaps
    let s1 := s.modSlot n fun x => { x with placement := { x.placement with regions := x.placement.regions.filter fun r => !gone.contains r } }
    (s1.mapsOf n).foldl (fun s k =>
      let y := s.mapS k
      (s.setMap k { y with slices := y.slices.filter fun i => !gone.any fun r => r.cluster == i.cluster && i.live == 64 * r.firstLine + 64 }).sliceTable k) s1) s

/-- Octets of a pool that a list of regions leaves. -/
def poolLeft (regs : List PlRegion) (c : Nat) : Nat := 163840 - 64 * ((regs.filter fun r => r.cluster == c).map fun r => r.lineCount).sum

/-- A run of `lines` free lines of the pool of cluster `c`: at line 0 or behind a region. -/
def poolFit (regs : List PlRegion) (c lines key : Nat) : Option Nat :=
  let mine := regs.filter fun r => r.cluster == c
  let starts := (0 :: mine.map fun r => r.firstLine + r.lineCount).filter fun f =>
    decide (f + lines ≤ 2560) && mine.all fun r => decide (f + lines ≤ r.firstLine) || decide (r.firstLine + r.lineCount ≤ f)
  starts[key % max 1 starts.length]?

/-- What the stages ask of pools: cluster, kind, channel, octets. -/
def poolNeeds (l : List Placed) : List (Nat × Nat × Nat × Nat) :=
  l.flatMap fun p => p.stage.pools.flatMap fun q =>
    let cl := if p.engines.isEmpty then [0] else clustersOf p.engines
    (if q.2.2 then cl else cl.take 1).map fun c => (c, q.1, p.stage.chan, q.2.1)

/-- Regions for a list of needs, or the cluster that lacks room. -/
def State.placePools (s : State) (n : Nat) (regs : List PlRegion) : List (Nat × Nat × Nat × Nat) → Except (Nat × Nat) (List PlRegion)
  | [] => .ok []
  | (c, kind, ch, oct) :: l =>
    let lines := ceilDiv oct 64
    match poolFit regs c lines (s.choose n (4 + 16 * kind) (c + 64 * ch)) with
    | none => .error (c, oct)
    | some f =>
      let r : PlRegion := { cluster := c, firstLine := f, lineCount := lines, kind := kind, channel := ch }
      match s.placePools n (r :: regs) l with
      | .ok rs => .ok (r :: rs)
      | .error e => .error e

/-- Octets of a slice of `count` columns (R168). -/
def State.sliceOctets (s : State) (k count : Nat) (last : Bool) : Nat :=
  let cells := 4 * count * s.rd (Ob.mapRows k)
  64 + cells + (if s.rdB (Ob.mapSnapshotEnable k) then cells else 0)
    + (if last && s.rdB (Ob.mapTrigEnable k) then 4 * s.rd (Ob.mapWindow k) else 0)

/-- b_s: delivered bins of columns `first` on. -/
def State.sliceBins (s : State) (m : MapP) (first count : Nat) : Nat :=
  let bpc := max 1 (s.rd (Ob.mapBinsPerColumn m.k))
  min m.bins ((first + count) * bpc) - min m.bins (first * bpc)

/-- Update-unit cycles per second of a slice (R168). -/
def State.sliceCycles (s : State) (m : MapP) (first count : Nat) : Nat :=
  let k := m.k
  let upd := if m.pulse then m.rate else rTimes m.rate (ceilDiv (s.sliceBins m first count) 2)
  let cells := count * s.rd (Ob.mapRows k)
  let swp := ceilDiv cells 2 * (if s.rdB (Ob.mapSnapshotEnable k) then 2 else 1)
  let per := s.rd (Ob.mapSweepPeriod k)
  rUp (if per = 0 then upd else fracAdd upd (swp * s.second, per))

/-- A slice placed: its map, its region, its update cycles. -/
structure PSlice where
  k : Nat
  slice : Slice
  region : PlRegion
  cycles : Nat
  deriving DecidableEq, Repr

/-- Update cycles that a cluster has left at the lowest clock of the points checked. -/
def State.unitLeft (s : State) (a : Ask) (c : Nat) : Nat := s.clockOf a.low * 63 / 64 - s.usedOn a 9 a.low 1 c

/-- Place slice `i` of `cols` columns each on, one cluster after another. -/
def State.placeSlices (s : State) (a : Ask) (m : MapP) (width : Nat) (regs : List PlRegion) (done : List PSlice) :
    Nat → Nat → Except (Nat × Nat) (List PSlice)
  | 0, _ => .ok []
  | left + 1, first =>
    let count := min width (m.columns - first)
    let last := decide (m.columns ≤ first + width)
    let oct := s.sliceOctets m.k count last
    let cyc := s.sliceCycles m first count
    let free := fun (c : Nat) => s.unitLeft a c - ((done.filter fun x => x.region.cluster == c).map fun x => x.cycles).sum
    let order := sortOn (fun c => s.choose a.n (5 + 16 * m.k) (c + 64 * first)) (List.range 64)
    match order.findSome? fun c => if cyc ≤ free c then (poolFit regs c (ceilDiv oct 64) 0).map fun f => (c, f) else none with
    | none => .error (order.headD 0, oct)
    | some (c, f) =>
      let r : PlRegion := { cluster := c, firstLine := f, lineCount := ceilDiv oct 64, kind := 4, channel := 0xFFF }
      let sl : Slice := { cluster := c, first := first, count := count, live := 64 * f + 64
                          shadow := if s.rdB (Ob.mapSnapshotEnable m.k) then 64 * f + 64 + 4 * count * s.rd (Ob.mapRows m.k) else 0 }
      let x : PSlice := { k := m.k, slice := sl, region := r, cycles := cyc }
      if last then .ok [x]
      else match s.placeSlices a m width (r :: regs) (x :: done) left (first + width) with
        | .ok l => .ok (x :: l)
        | .error e => .error e

/-- The smallest S for which every slice is placed (R157). -/
def State.placeMap (s : State) (a : Ask) (m : MapP) (regs : List PlRegion) (done : List PSlice) : Nat → Nat → Except (Nat × Nat) (List PSlice)
  | 0, _ => .error (0, s.sliceOctets m.k 1 true)
  | fuel + 1, S =>
    match s.placeSlices a m (ceilDiv m.columns S) regs done m.columns 0 with
    | .ok l => .ok l
    | .error e => if m.columns ≤ S then .error e else s.placeMap a m regs done fuel (S + 1)

/-- A map of the replaced slot keeps its slices (R169); its own update rate is charged on them. -/
def State.keptSlices (s : State) (m : MapP) : List PSlice :=
  (s.mapS m.k).slices.map fun x => { k := m.k, slice := x, cycles := s.sliceCycles m x.first x.count
                                     region := { cluster := x.cluster, firstLine := x.live / 64 - 1, lineCount := 0, kind := 4, channel := 0xFFF } }

def State.placeMaps (s : State) (a : Ask) (regs : List PlRegion) (done : List PSlice) : List MapP → Except (Nat × Nat) (List PSlice)
  | [] => .ok done
  | m :: l =>
    if s.rd (Ob.mapBoundSlot m.k) ≠ 0xFF then s.placeMaps a regs (done ++ s.keptSlices m) l
    else match s.placeMap a m regs done m.columns 1 with
      | .ok xs => s.placeMaps a ((xs.map fun x => x.region) ++ regs) (done ++ xs) l
      | .error e => .error e

/-! ### The Polder (term 8) -/

/-- Holding time of R35, u_T. -/
def State.holdTime (s : State) : Nat := 4194304 * s.second / 128000000000

/-- Res_c of a consumer (R98): the slot schedule fixes it; placement chooses the schedule. -/
def State.residence (s : State) (n : Nat) (d : Drain) : Nat := s.choose n (6 + 16 * d.stage) d.chan % (s.holdTime + 1)

/-- B_c (R98), octets. -/
def State.boundOf (s : State) (a : Ask) (d : Drain) : Nat :=
  let t := fracAdd d.span (fracAdd (d.flits, s.clockOf a.low) (s.residence a.n d, s.second))
  64 * ceilDiv (d.inflow.1 * t.1) (64 * max 1 (d.inflow.2 * t.2))

/-- The shares of a pipeline: channel, half, granules; the record drain's among them. -/
def State.sharesOf (s : State) (a : Ask) (ds : List Drain) : List (Nat × PlShare) :=
  ((ds.map fun d => d.key).dedup).filterMap fun key =>
    let mine := ds.filter fun d => d.key == key
    match mine with
    | [] => none
    | d :: _ => some (key, {
        channel := d.key % 64, half := d.half
        granules := ceilDiv (mine.foldl (fun m x => max m (s.boundOf a x)) 0) 4096
        ports := if mine.any fun x => x.stage != 255 then 0xFF else 0
        recordDrain := mine.any fun x => x.stage == 255 })

/-- The shares that contracts hold, with their ring keys. -/
def State.heldShares (s : State) : List (Nat × PlShare) :=
  (List.range 64).flatMap fun n => if s.active n && !s.bestEffort n then (s.slot n).placement.shares.map fun x => (s.chanKey n x.channel, x) else []

/-- Granules of the rings of a half: a ring is the largest of its consumers' (R98). -/
def granulesIn (l : List (Nat × PlShare)) (half : Nat) : Nat :=
  let mine := l.filter fun x => x.2.half == half
  (((mine.map fun x => x.1).dedup).map fun k => (mine.filter fun x => x.1 == k).foldl (fun m x => max m x.2.granules) 0).sum

/-- ChannelRate over the written channels, and the rates of admitted Replays (R98, R238). -/
def State.writtenRate (s : State) (a : Ask) (withMine : Bool) : Nat :=
  let on := fun (n : Nat) => (s.active n && some n != a.skip) || (withMine && n == a.n)
  let chs := (List.range 64).filter fun k => (List.range 64).any fun n => on n && !s.isReplay n && bit (s.rd (Ob.slotChannelMask n)) k
  (chs.map fun k => s.rd (Ob.chanChannelRate k)).sum
    + (((List.range 64).filter fun n => on n && s.isReplay n && s.rd (Ob.slotReplayClass n) == 0).map fun n => s.rd (Ob.slotReplayRate n)).sum

/-- Drain-port charges: each mesh drain port carries an eighth of a consumer's units (R98), the record drain all (term 10). -/
def State.drainCharges (s : State) (p : Plan) (pt : Nat) : List Charge :=
  let f := s.clockOf pt
  (p.drains.filter fun d => d.stage != 255).flatMap (fun d => (List.range 8).map fun i =>
    ({ q := 11, point := pt, cls := 4, unit := 8 * d.half + i, amount := rUp (rOver (rTimes d.units (d.flits * 1024)) (8 * f)) } : Charge))
  ++ [{ q := 15, point := pt, cls := 6, unit := 16, amount := rUp (rOver (rTimes p.drain0 1024) (64 * f)) },
      { q := 15, point := pt, cls := 6, unit := 17, amount := rUp (rOver (rTimes p.drain1 1024) (64 * f)) }]

/-- Term 8 but for the drain ports. -/
def State.polderRefusal (s : State) (a : Ask) (sh : List (Nat × PlShare)) : Option Refusal4x :=
  let held := s.heldShares
  match [0, 1].find? fun h => decide (512 < granulesIn (held ++ sh) h) with
  | some h => some { code := 0x45, unit := 0x0B * 2 ^ 24 + h, need := 4096 * (granulesIn (held ++ sh) h - granulesIn held h)
                     avail := 4096 * (512 - granulesIn held h), point := a.low }
  | none =>
    let w := s.writtenRate a false
    let v := s.writtenRate a true
    if 64000000000 < v then some { code := 0x45, need := v - w, avail := 64000000000 - w, point := a.low } else none

/-! ### The network (term 9) -/

/-- A sender or receiver: its router, and its crossbar path without the direction (R61, R241). -/
structure Node where
  router : Nat
  path : Option Nat := none
  deriving DecidableEq, Repr

def engineNode (e : Nat) : Node := { router := e / 17, path := some (e / 17 * 40 + 2 * (e % 17)) }
def poolNode (c : Nat) : Node := { router := c, path := some (c * 40 + 34) }
def unitNode (c : Nat) : Node := { router := c, path := some (c * 40 + 36) }
/-- Polder drain port `p` of a half: at the west or east end of mesh row `p`. -/
def drainNode (half p : Nat) : Node := { router := 8 * p + 7 * half }
/-- HBM mesh port `i`: at the north or south edge. -/
def hbmNode (i : Nat) : Node := { router := if i < 8 then i else 48 + i }

/-- Engine `j` of every team of a stage, in rotation. -/
def teamMember (p : Placed) (j : Nat) : List Node :=
  ((p.engines.zipIdx.filter fun e => e.2 % max 1 p.stage.team == j).map fun e => engineNode e.1)

/-- The rotations of an end of a flow: one list of nodes for each engine that has a part in every frame. The frames of a team stage go to its
teams in rotation, every engine of the team with its share (R124). -/
def endNodes (l : List Placed) (sl : List PSlice) (pcs : List Nat) : FEnd → List (List Node)
  | .polder h => [(List.range 8).map (drainNode h)]
  | .stage st ch => match l.find? fun p => p.stage.stage == st && p.stage.chan == ch with
    | some p =>
      if p.stage.split then p.engines.map fun e => [engineNode e]
      else (List.range (max 1 p.stage.team)).map fun j => teamMember p j
    | none => []
  | .member st ch j => match l.find? fun p => p.stage.stage == st && p.stage.chan == ch with
    | some p => [teamMember p j]
    | none => []
  | .part st ch c => match l.find? fun p => p.stage.stage == st && p.stage.chan == ch with
    | some p => [(p.engines.filter fun e => e / 17 == c).map engineNode]
    | none => []
  | .ownPool st ch => match l.find? fun p => p.stage.stage == st && p.stage.chan == ch with
    | some p => [p.engines.map fun e => poolNode (e / 17)]
    | none => []
  | .firstPool st ch => match l.find? fun p => p.stage.stage == st && p.stage.chan == ch with
    | some p => [((clustersOf p.engines).take 1).map poolNode]
    | none => []
  | .pool st ch => match l.find? fun p => p.stage.stage == st && p.stage.chan == ch with
    | some p => [(clustersOf p.engines).map poolNode]
    | none => []
  | .engines es => [es.map engineNode]
  | .slice k i => match (sl.filter fun x => x.k == k)[i]? with
    | some x => [[unitNode x.slice.cluster]]
    | none => []
  | .lastSlice k => match (sl.filter fun x => x.k == k).getLast? with
    | some x => [[unitNode x.slice.cluster]]
    | none => []
  | .hbm => [pcs.map fun l => hbmNode (l / 4)]

/-- Mesh links from router to router, X first (R64): router * 5 + port. -/
def meshLinks : Nat → Nat → Nat → List Nat
  | 0, _, _ => []
  | fuel + 1, a, b =>
    if a % 8 < b % 8 then (a * 5 + 1) :: meshLinks fuel (a + 1) b
    else if b % 8 < a % 8 then (a * 5 + 3) :: meshLinks fuel (a - 1) b
    else if a / 8 < b / 8 then (a * 5 + 2) :: meshLinks fuel (a + 8) b
    else if b / 8 < a / 8 then a * 5 :: meshLinks fuel (a - 8) b
    else []

/-- Of lcm frames dealt in fixed rotation to sides of `la` and `lb`, those that pass between the places chosen on either side (R579). -/
def dealt (a b : List Bool) : Nat :=
  let g := Nat.gcd a.length b.length
  (List.range g).foldl (fun n r =>
    let c := fun (l : List Bool) => ((l.zipIdx).filter fun x => x.1 && x.2 % g == r).length
    n + c a * c b) 0

/-- A route of R579 from router to router: units it crosses with their slots per slot frame at a clock. -/
structure Route where
  src : FEnd
  dst : FEnd
  slots : Nat
  hops : Nat
  units : List (Nat × Nat × Nat)
  deriving DecidableEq, Repr

/-- The routes of a flow between two rotations, at clock `f`. -/
def routesOf (fl : Flow) (A B : List Node) (f : Nat) : List Route :=
  let l := Nat.lcm A.length B.length
  let slotsOf := fun (a b : Node → Bool) => rUp (rOver (rTimes fl.rate (dealt (A.map a) (B.map b) * 1024)) (max 1 (l * f)))
  ((A.map fun x => x.router).dedup).flatMap fun ra => ((B.map fun x => x.router).dedup).filterMap fun rb =>
    let fromA := fun (x : Node) => x.router == ra
    let toB := fun (x : Node) => x.router == rb
    let n := slotsOf fromA toB
    let ins := A.any fun x => x.router == ra && x.path.isSome
    let outs := B.any fun x => x.router == rb && x.path.isSome
    let away := ra != rb || !ins || !outs
    let own := ((A.filter fromA).dedup.filterMap fun x => x.path.map fun q => (0x0E, q + 1, slotsOf (· == x) toB))
      ++ ((B.filter toB).dedup.filterMap fun x => x.path.map fun q => (0x0E, q, slotsOf fromA (· == x)))
    let leave := if ins && away then [(0x0E, ra * 40 + 38, n)] else []
    let enter := if outs && away then [(0x0E, rb * 40 + 39, n), (0x03, rb * 5 + 4, n)] else []
    if n = 0 then none
    else some { src := fl.src, dst := fl.dst, slots := n, hops := (meshLinks 16 ra rb).length
                units := own ++ leave ++ enter ++ ((meshLinks 16 ra rb).map fun k => (0x03, k, n))
                  ++ (if fl.dst = .hbm then [(0x06, if rb < 8 then rb else rb - 48, n)] else []) }

def allRoutes (fls : List Flow) (nodes : FEnd → List (List Node)) (f : Nat) : List Route :=
  fls.flatMap fun fl => (nodes fl.src).flatMap fun A => (nodes fl.dst).flatMap fun B => routesOf fl A B f

/-- Slots charged by routes: quantity 12, and 14 on the HBM ports. -/
def routeCharges (pt : Nat) (l : List Route) : List Charge :=
  l.flatMap fun r => r.units.map fun u =>
    { q := if u.1 = 6 then 14 else 12, point := pt, cls := u.1, unit := u.2.1, amount := u.2.2 }

/-- out_slot_wait of R56 for a route with `k` slots: the schedule fixes it, at most 1,024 and no shorter than an even spacing. -/
def State.slotWait (s : State) (n tag k : Nat) : Nat :=
  let lo := ceilDiv 1024 (max 1 k)
  lo + s.choose n 7 tag % (1025 - min 1024 lo)

/-- The flows of maps (R168): from the frames' detect engines to each slice, at Q/16 on each route from the measure engines, and with a
trigger from every slice to the last. -/
def State.mapFlows (s : State) (p : Plan) (l : List Placed) (sl : List PSlice) : List Flow :=
  p.maps.flatMap fun m =>
    let mine := sl.filter fun x => x.k == m.k
    let fr := fun (c : Nat) => match p.stages.find? fun x => x.stage == m.stage && x.chan == c with
      | some x => x.rate
      | none => (0, 1)
    mine.zipIdx.flatMap fun x =>
      (m.feeders.flatMap fun c =>
        if m.pulse then
          (clustersOf ((l.filter fun p => p.stage.stage == m.stage && p.stage.chan == c).flatMap fun p => p.engines)).map fun q =>
            ({ src := .part m.stage c q, dst := .slice m.k x.2, rate := rOver m.rate 16 } : Flow)
        else [({ src := .stage m.stage c, dst := .slice m.k x.2
                 rate := rTimes (fr c) (ceilDiv (2 * s.sliceBins m x.1.slice.first x.1.slice.count) 64) } : Flow)])
      ++ (if s.rdB (Ob.mapTrigEnable m.k) && decide (x.2 + 1 < mine.length) then
          [({ src := .slice m.k x.2, dst := .lastSlice m.k, rate := m.rate } : Flow)] else [])

/-- The stages with what they send a frame: a detect stage also sends each slice its bins (R167, R168). -/
def State.withMapFlits (s : State) (p : Plan) (sl : List PSlice) : List StageP :=
  p.stages.map fun x =>
    let f := (p.maps.filter fun m => !m.pulse && m.stage == x.stage && m.feeders.contains x.chan).map fun m =>
      ((sl.filter fun y => y.k == m.k).map fun y => ceilDiv (2 * s.sliceBins m y.slice.first y.slice.count) 64).sum
    { x with outFlits := x.outFlits + f.sum }

/-- The engines that have a part in every frame of an end of a flow: all of a split stage, every engine of a team. -/
def Plan.parts (p : Plan) : FEnd → Nat
  | .stage st ch => match p.stages.find? fun x => x.stage == st && x.chan == ch with
    | some x => if x.split then x.count else x.team
    | none => 1
  | _ => 1

end Sys2Proof.Machine
end

