-- ==== Sys2Proof/Machine/Admission.lean ====
section
/-! DEFINITION. Admission: the terms of R50 in order, the bounds of R56, the contract and what an admitted pipeline holds (spec/02_contracts.md R45-R62, R73, R76, R576, R577, R582). -/

namespace Sys2Proof.Machine

open Sys2Proof

/-- What an admission gives. -/
structure Grant where
  plan : Plan := {}
  placed : List Placed := []
  regions : List PlRegion := []
  slices : List PSlice := []
  shares : List (Nat × PlShare) := []
  /-- logical pseudo-channels of the ring, units of its extents and of its lookback area -/
  pcs : List Nat := []
  units : List Nat := []
  look : List Nat := []
  lookBytes : Nat := 0
  charges : List Charge := []
  residence : Nat := 0
  latency : Nat := 0
  trigger : Nat := 0
  power : Nat := 0
  /-- by point checked: LatencyBound and TriggerLatencyBound, worst power -/
  bounds : List (Nat × Nat × Nat) := []
  powers : List (Nat × Nat) := []
  deriving DecidableEq, Repr

/-! ### Record store and transfer (terms 10-12) -/

/-- The slot whose ring takes the records: a replacement uses that of the slot it replaces (R74). -/
def State.ringSource (s : State) (n : Nat) : Option Nat := (s.replaces n).map s.ringOwner

/-- Octets of the lookback area of slot `n` (R234, R236). -/
def State.lookBytesOf (s : State) (n : Nat) (chs : List ChanIn) : Nat :=
  let g := s.geom n
  if s.rd (Ob.slotMode n) = 4 ∧ recCapture g = 2 then
    (chs.map fun c => s.lookLen n c.k * recordOctets (64 + recSamples g * sampleOctets c.cplx)).sum
  else 0

/-- What a pseudo-channel has left of R37's rate at every point checked. -/
def State.pcLeft (s : State) (a : Ask) (l : Nat) : Nat :=
  16130000000 - s.displayOn l - a.pts.foldl (fun m p => max m (s.usedOn a 13 p 5 l)) 0

/-- The rate of a pipeline's HBM traffic: records, the reads of their stream and storage consumers, and what the mode adds (R236). -/
def State.hbmRate (s : State) (n : Nat) (p : Plan) : Nat :=
  let om := s.rd (Ob.slotOutputMask n)
  rUp (fracAdd (rTimes p.octets (1 + b2n (bit om 3) + b2n (bit om 4))) p.hbmMore)

/-- Pseudo-channels and extents for a new ring (R223): p of them where the rate over p - 1 fits, p among the feasible numbers as chosen. -/
def State.placeRing (s : State) (a : Ask) (rate units look : Nat) : Except Refusal4x (List Nat × List Nat × List Nat) :=
  let n := a.n
  let serve := (List.range 64).filter fun l => match s.physOf l with
    | some q => s.pcState q == 0
    | none => false
  let order := sortOn (fun l => s.choose n 8 l) serve
  let free := order.map fun l => (l, s.freeExtents l)
  let good := fun (p : Nat) => free.filter fun x =>
    decide (ceilDiv rate (p - 1) ≤ s.pcLeft a x.1) && decide (ceilDiv (units + look) p ≤ x.2.length)
  let ps := ((List.range (min order.length units + 1)).drop 2).filter fun p => decide (p ≤ (good p).length)
  match ps[s.choose n 9 0 % max 1 ps.length]? with
  | none =>
    let l := order.headD 0
    .error { code := 0x47, unit := 0x05 * 2 ^ 24 + l, need := ceilDiv rate (order.length - 1), avail := s.pcLeft a l, point := a.low }
  | some p =>
    let l := (good p).take p
    let u := (List.range (units + look)).filterMap fun i => match l[i % p]? with
      | some x => x.2[i / p]?
      | none => none
    .ok (l.map fun x => x.1, u.take units, u.drop units)

/-- The ring of slot `n`: none without record output, the replaced slot's for a replacement. -/
def State.ringFor (s : State) (a : Ask) (p : Plan) (chs : List ChanIn) : Except Refusal4x (List Nat × List Nat × List Nat) :=
  let n := a.n
  if !bit (s.rd (Ob.slotOutputMask n)) 0 then .ok ([], [], [])
  else match s.ringSource n with
    | some o => .ok (((s.ringS o).extents.map fun e => s.pcOf (e.unit * 2097152)).dedup, [], [])
    | none =>
      let look := s.lookBytesOf n chs
      let need := s.ringBytesOf n + look + markerReserve
      if s.rd Ob.storeFreeBytes < need then .error { code := 0x47, need := need, avail := s.rd Ob.storeFreeBytes, point := a.low }
      else s.placeRing a (s.hbmRate n p) (s.ringBytesOf n / 2097152) (ceilDiv look 2097152)

/-- Charges on pseudo-channels: the ring's traffic over p - 1 of them, and a Replay's reads on its source ring (R223, R238). -/
def State.hbmCharges (s : State) (n : Nat) (p : Plan) (pcs : List Nat) (pt : Nat) : List Charge :=
  let on := fun (l : List Nat) (rate : Nat) => l.map fun q =>
    ({ q := 13, point := pt, cls := 5, unit := q, amount := ceilDiv rate (max 1 (l.length - 1)) } : Charge)
  let src := if s.isReplay n && s.rd (Ob.slotReplaySource n) == 1 then
      ((s.ringS (s.ringOwner (rpSource (s.replayHead n)))).extents.map fun e => s.pcOf (e.unit * 2097152)).dedup else []
  on pcs (s.hbmRate n p) ++ on src (2 * s.rd (Ob.slotReplayRate n))

/-- The admitted HBM ceiling at a point (R34, R37). -/
def State.hbmCeiling (s : State) (pt : Nat) : Nat := min (s.rd Ob.hbmAdmittedCeiling) (18 * 64 * s.clockOf pt)

/-- c of R367 for slot `n`. -/
def State.streamRate (s : State) (n : Nat) (p : Plan) : Nat :=
  streamCharge p.records.1 p.records.2 p.octets.1 p.octets.2 (s.pageBytes (s.rd (Ob.slotStreamRing n)))

/-- Selected storage ports with their qualified rates. -/
def State.portRates (s : State) (n : Nat) : List (Nat × Nat) :=
  if bit (s.rd (Ob.slotOutputMask n)) 4 then (bitsSet 6 (s.rd (Ob.slotStoragePorts n))).map fun k => (k, s.rd (Ob.storQualifiedRate k)) else []

def sumQ (l : List (Nat × Nat)) : Nat := (l.map fun x => x.2).sum

/-- The drives that a Replay reads. -/
def State.readPorts (s : State) (n : Nat) : List (Nat × Nat) :=
  (s.replayPorts n).map fun k => (k, s.rd (Ob.storQualifiedReadRate k))

/-- Transfer channels of slot `n`: role, target, rate, request line (R334, R346). -/
def State.channelPlan (s : State) (n : Nat) (p : Plan) : List (Nat × Nat × Nat × Nat) :=
  let om := s.rd (Ob.slotOutputMask n)
  let r := s.rd (Ob.slotStreamRing n)
  (if bit om 3 then [(1, r, s.streamRate n p, 16 + r)] else [])
    ++ (match s.portRates n with
      | [] => []
      | (k, _) :: _ => [(2, n, rUp p.octets, 2 * k)])
    ++ (match s.readPorts n with
      | [] => []
      | (k, _) :: _ => [(3, n, 2 * s.rd (Ob.slotReplayRate n), 2 * k + 1)])

/-- Beat slots of a rate at a point (R334). -/
def State.beatSlots (s : State) (pt rate : Nat) : Nat := ceilDiv (rate * 1024) (64 * s.clockOf pt)

/-- Octets per second that channel `k` takes of its link: N' bits of every sample of its converters (R54, R81). -/
def State.linkOctets (s : State) (k : Nat) : Rate :=
  let f := s.chanFs k
  (f.1 * s.rd (Ob.linkNPrime (s.rd (Ob.chanSourceLink k))) * (if s.complex k then 2 else 1), f.2 * 8)

/-- What channels take of ingest quad `q`: the octets of a link lie evenly on its lanes (R54). -/
def State.ingestOn (s : State) (q : Nat) (chs : List Nat) : Nat :=
  rUp (rSum (chs.map fun k =>
    let l := s.lanesOf (s.rd (Ob.chanSourceLink k))
    rOver (rTimes (s.linkOctets k) (l.countP fun x => x / 4 == q)) (max 1 l.length)))

/-- The channels that live pipelines in force take, but for those of slot `o`. -/
def State.takenChannels (s : State) (skip : Option Nat) : List Nat :=
  (List.range 64).filter fun k => (List.range 64).any fun n =>
    s.active n && some n != skip && !s.isReplay n && bit (s.rd (Ob.slotChannelMask n)) k

/-- The channels of slot `n`; a Replay has none. -/
def State.liveChannels (s : State) (n : Nat) : List Nat := if s.isReplay n then [] else bitsSet 64 (s.rd (Ob.slotChannelMask n))

/-- The ingest quads of slot `n`. -/
def State.ingestQuads (s : State) (n : Nat) : List Nat :=
  (((s.liveChannels n).flatMap fun k => s.lanesOf (s.rd (Ob.chanSourceLink k))).map fun x => x / 4).dedup

/-- The limit of ingest quad `q`: the lanes of applied links, at 64/66 of their rate (R54). -/
def State.ingestLimit (s : State) (q : Nat) : Nat :=
  ((List.range 16).map fun j => if (s.linkS j).applied then
    ((s.lanesOf j).countP fun x => x / 4 == q) * (s.rd (Ob.linkLaneRate j) * 1000 * 64 / 528) else 0).sum

/-- Term 11 on the ingest links: a channel that several pipelines take is carried once (R54). -/
def State.ingestRefusal (s : State) (a : Ask) : Option Refusal4x :=
  let held := s.takenChannels a.skip
  (s.ingestQuads a.n).findSome? fun q =>
    let used := s.ingestOn q held
    let all := s.ingestOn q (held ++ (s.liveChannels a.n).filter fun k => !held.contains k)
    if s.ingestLimit q < all then
      some { code := 0x48, unit := 0x07 * 2 ^ 24 + q, need := all - used, avail := s.ingestLimit q - used, point := a.low }
    else none

/-- Charges of terms 11 and 12 (R54, R334, R367, R375). -/
def State.transferCharges (s : State) (n : Nat) (p : Plan) (pt : Nat) : List Charge :=
  let w := rUp p.octets
  let ports := s.portRates n
  let reads := s.readPorts n
  let r := 2 * s.rd (Ob.slotReplayRate n)
  let link : List Charge := if bit (s.rd (Ob.slotOutputMask n)) 3 then
      [{ q := 17, point := pt, cls := 7, unit := 16, amount := s.streamRate n p }] else []
  link
    ++ ((s.ingestQuads n).map fun q => { q := 17, point := pt, cls := 7, unit := q, amount := s.ingestOn q (s.liveChannels n) })
    ++ (ports.map fun x => { q := 17, point := pt, cls := 7, unit := 20 + x.1, amount := ceilDiv (w * x.2) (max 1 (sumQ ports)) })
    ++ ((s.channelPlan n p).map fun c => { q := 18, point := pt, cls := 9, unit := 0, amount := s.beatSlots pt c.2.2.1 })
    ++ (ports.map fun x => { q := 19, point := pt, cls := 8, unit := x.1, amount := ceilDiv (w * 1000000) (max 1 (sumQ ports)) })
    ++ (reads.map fun x => { q := 19, point := pt, cls := 8, unit := x.1, amount := ceilDiv (r * 1000000) (max 1 (sumQ reads)) })

/-- The rate limit of a lane group (R54, R352): an ingest quad by its lanes; the host link as trained, none while Shortfall holds (R354); a
storage port by its rate and width; a join port's bulk class, which no flow of a pipeline takes. -/
def State.linkLimit (s : State) (unit : Nat) : Nat :=
  if unit < 16 then s.ingestLimit unit
  else if 26 ≤ unit then 24000000000
  else if unit = 16 then (if s.rdB Ob.hlinkShortfall then 0 else s.rd Ob.hlinkAdmittedLinkLimit)
  else
    let x := s.rd (Ob.storLinkState (unit - 20))
    25000000000 * (x % 256) / 4 / (if x / 256 = 6 then 1 else if x / 256 = 5 then 2 else 4)

/-- The limit of a quantity on a unit (R50, R577). -/
def State.limitOf (s : State) (c : Charge) : Nat :=
  match c.q with
  | 7 => s.clockOf c.point * 63 / 64
  | 8 => 163840
  | 9 => s.clockOf c.point * 63 / 64
  | 10 => 2097152
  | 11 => 960
  | 12 => 960
  | 13 => 16130000000 - s.displayOn c.unit
  | 14 => 960
  | 15 => 1024
  | 17 => s.linkLimit c.unit
  | 18 => 1920 - s.beatSlots c.point s.disp.charge
  | _ => 1000000

/-- A port that another storage consumer uses (R374). -/
def State.portTaken (s : State) (a : Ask) : Option Nat :=
  let rep := s.replaces a.n
  ((s.portRates a.n).map fun x => x.1).find? fun k => (List.range 64).any fun m =>
    m != a.n && some m != rep && s.active m && some m != (rep.bind fun o => (s.slot o).replacedBy)
      && bit (s.rd (Ob.slotOutputMask m)) 4 && bit (s.rd (Ob.slotStoragePorts m)) k

/-- Is the capture of slot `n` bounded (R235)? -/
def State.bounded (s : State) (n : Nat) : Bool := s.rd (Ob.slotMode n) == 4 && recCapture (s.geom n) == 1

/-- R235 for a consumer of charged rate `e` and hold limit `h`: what is needed and what there is, when it fails. -/
def State.captureBreak (s : State) (n e h latency : Nat) (p : Plan) (chs : List ChanIn) : Option (Nat × Nat) :=
  let g := s.geom n
  let w := rUp p.octets
  if s.rd (Ob.slotMode n) ≠ 4 then none
  else if s.bounded n then
    let cap := (chs.map fun c => recChunks g * recordOctets (64 + recSamples g * sampleOctets c.cplx)).sum
    let span := chs.foldl (fun m c => max m (s.utDown (rTime (recChunks g * recSamples g * recDecim g) c.fs))) 0
    let all := cap + ceilDiv (e * latency) s.second + 262272
    let gone := e * span / s.second
    let have' := min (s.ringBytesOf n - 4096) h
    if have' + gone < all then some (all - gone, have') else none
  else if e < w then some (w, e)
  else none

/-- H_c (R225). -/
def State.holdOf (s : State) (n hold : Nat) : Nat := if hold = 0 then maxHold (s.ringBytesOf n) else hold

/-! ### Bounds (R56) -/

/-- Cycles at a clock in u_T, rounded up. -/
def State.cyc (s : State) (c f : Nat) : Nat := ceilDiv (c * s.second) (max 1 f)

/-- c of R56 for a stage but for in_flits, worst and service cycles: the slots, hops and flits of what it sends. -/
def State.outCycles (s : State) (n pt : Nat) (p : StageP) (routes : List Route) : Nat :=
  let mine := routes.filter fun r => r.src == .stage p.stage p.chan || r.src == .pool p.stage p.chan
  if mine.isEmpty then p.outFlits
  else
    let wait := mine.foldl (fun m r => max m (s.slotWait n (pt + 4 * (p.stage + 16 * p.chan)) r.slots)) 0
    wait + 3 * (mine.foldl (fun m r => max m r.hops) 0) + p.outFlits

/-- `done` and t_cond, stage by stage; out_flits is the sum of a stage's flows (log entry 183). start_wait is 0: a stage has the engines that its frames need, dealt in rotation, so a free one waits
(DEDUCED from R124 and R190, log entry 156). A routed input's frames start at RouteLatency, every other stage no earlier than the Polder. -/
def State.stageTimes (s : State) (n pt res : Nat) (routes : List Route) :
    List StageP → List ((Nat × Nat) × Nat) → Nat → List ((Nat × Nat) × Nat) × Nat
  | [], done, tc => (done, tc)
  | p :: l, done, tc =>
    let f := s.clockOf pt
    let at' := fun (q : Nat × Nat) => match done.find? fun d => d.1 == q with
      | some d => d.2
      | none => 0
    let start := p.preds.foldl (fun m q => max m (at' q)) (p.t0 + (if p.routed then 0 else res))
    let d := start + s.cyc (p.inFlits + p.worst + p.svc + s.outCycles n pt p routes) f
    let c := start + s.cyc (p.inFlits + p.cond + p.svc) f + ceilDiv (24 * s.second) 1000000000
    s.stageTimes n pt res routes l (((p.stage, p.chan), d) :: done) (if p.drives then max tc c else tc)

/-- The map stage of R167: its `done` and condition time. -/
def State.mapTimes (s : State) (pt : Nat) (m : MapP) (sl : List PSlice) (done : List ((Nat × Nat) × Nat)) : Nat × Nat :=
  let f := s.clockOf pt
  let mine := sl.filter fun x => x.k == m.k
  let bmax := mine.foldl (fun b x => max b (s.sliceBins m x.slice.first x.slice.count)) 0
  let home := match mine.getLast? with
    | some x => x.slice.cluster
    | none => 0
  let hmax := mine.foldl (fun h x => max h (meshLinks 16 x.slice.cluster home).length) 0
  let start := m.feeders.foldl (fun t c => max t (match done.find? fun d => d.1 == (m.stage, c) with
    | some d => d.2
    | none => 0)) 0
  let w := 40 + ceilDiv bmax 2
  (start + s.cyc w f, if s.rdB (Ob.mapTrigEnable m.k) then start + s.cyc (w + 3 * hmax + 1) f + ceilDiv (24 * s.second) 1000000000 else 0)

/-- LatencyBound and TriggerLatencyBound at a point (R56). -/
def State.boundsAt (s : State) (n pt res : Nat) (p : Plan) (sl : List PSlice) (routes : List Route) : Nat × Nat :=
  let f := s.clockOf pt
  let r := s.stageTimes n pt res routes (stageOrder (s.withMapFlits p sl)) [] 0
  let maps := p.maps.map fun m => s.mapTimes pt m sl r.1
  let finals := r.1.filter fun d => !p.stages.any fun q => q.preds.contains d.1
  -- without a stage the samples leave the Polder as they are (R233)
  let t0 := if p.stages.isEmpty then (s.chanIns n []).foldl (fun m c => max m (c.t0 + res)) 0 else 0
  let out0 := maps.foldl (fun m x => max m x.1) (finals.foldl (fun m d => max m d.2) t0)
  let tc := maps.foldl (fun m x => max m x.2) r.2
  let lp := s.rd (Ob.slotLatencyPoint n)
  let out := if lp = 2 then out0 + s.cyc 64 f
    else
      let o := out0 + s.cyc 4608 f
      if lp = 1 then o + s.pageBytes (s.rd (Ob.slotStreamRing n)) * ceilDiv s.second (max 1 (s.streamRate n p)) + s.us 12 else o
  (out, tc)

/-! ### Power (R57) -/

/-- Lanes of a pipeline: the ingest lanes of its links, the host link's and the storage ports' (R576). -/
def State.lanesFor (s : State) (n : Nat) : List PlLane :=
  let om := s.rd (Ob.slotOutputMask n)
  let ing := if s.isReplay n then [] else ((s.linksOfMask (s.rd (Ob.slotChannelMask n))).flatMap s.lanesOf).dedup
  let quads := ((ing.map fun x => x / 4).dedup).map fun q =>
    ({ quad := q, lanes := (ing.filter fun x => x / 4 == q).foldl (fun m x => m + 2 ^ (x % 4)) 0 } : PlLane)
  let more := (if bit om 3 then [16, 17, 18, 19] else []) ++ ((s.portRates n).map fun x => 20 + x.1)
  sortOn (fun x => x.quad) (quads ++ more.map fun q => ({ quad := q, lanes := 15 } : PlLane))

/-- Worst power at a point, mW (R57): every engine of a team or a split stage works on every frame, and the update units of map slices have
their cycles and pool accesses (R168; image 0xFF stands for the update unit, log entry 26). -/
def State.powerAt (s : State) (n pt : Nat) (p : Plan) (sl : List PSlice) (flows : List Flow) (hbm : Nat) : Nat :=
  let part := fun (x : StageP) => if x.split then x.count else x.team
  let upd := (sl.map fun x => x.cycles).sum
  let cycles := rSum ((upd, 1) :: p.stages.map fun x => rTimes x.rate ((x.worst + x.svc) * part x))
  let access := rSum ((Config.memoryAccesses 0xFF upd, 1) :: p.stages.map fun x => rTimes x.rate (Config.memoryAccesses x.image x.worst * part x))
  let flits := rSum (flows.map fun f => rTimes f.rate (p.parts f.src * p.parts f.dst))
  let lanes := ((s.lanesFor n).map fun x => popcount 4 x.lanes).sum
  ceilDiv (rUp cycles * s.coeff 0 pt + rUp access * s.coeff 1 pt + rUp flits * s.coeff 2 pt + hbm * s.coeff 3 pt) 1000000000000
    + ceilDiv (lanes * s.coeff 4 pt) 1000

/-! ### What the contracts in force take (R40, R59) -/

/-- What drives hold for a Replay in force, as its contract found it (R237). -/
def State.feedHeld (s : State) (n : Nat) : List (Nat × Nat × Bool) :=
  (bitsSet 64 (s.rd (Ob.slotChannelMask n))).map fun k => let x := s.repChan n k; (k, x.rate, x.cplx)

/-- Stages with the engines that slot `n` holds for them. -/
def State.heldPlaced (s : State) (n : Nat) (l : List StageP) : List Placed := l.map fun p =>
  let es := ((s.slot n).placement.engines.filter fun e => e.stage == p.stage && e.channel == p.chan).map fun e => e.physical
  { stage := p, engines := es, lack := p.count - es.length }

/-- The plan of slot `n` at a point, on the engines it holds. -/
def State.heldPlan (s : State) (n pt : Nat) : Plan × List Placed :=
  let f := s.clockOf pt
  let d := s.feedHeld n
  let p0 := s.plan n f (fun _ => none) d
  let p := s.plan n f (kcOf (s.chainMode n) (s.heldPlaced n (stageOrder p0.stages))) d
  (p, s.heldPlaced n (stageOrder p.stages))

/-- Slots with a contract that charges. -/
def State.charging (s : State) : List Nat := (List.range 64).filter fun n => s.active n && !s.bestEffort n

/-- Worst power of slot `n` at a point with the coefficients in force now (R57). -/
def State.heldPower (s : State) (n pt : Nat) : Nat :=
  let (p, l) := s.heldPlan n pt
  let sl := p.maps.flatMap s.keptSlices
  s.powerAt n pt p sl (p.flows ++ s.mapFlows p l sl) (s.hbmRate n p)

/-- The recomputed charge of the admitted work exceeds the envelope (R59). -/
def State.exceeds (s : State) : Bool :=
  let one := fun (n : Nat) =>
    let pts := (List.range 3).filter fun p => decide (s.rd Ob.opCurrent ≤ p) && decide (p ≤ max (s.rd Ob.opCurrent) (s.rd (Ob.slotValidDownTo n)))
    pts.foldl (fun m p => max m (s.heldPower n p)) 0
  decide (min (s.rd Ob.penvEnvelope) 230000 < s.staticCharge + s.disp.powerMw + (s.charging.map one).sum)

/-- EnvelopeOvercommit (R59): a correction made the recomputed charge exceed the envelope, and it does not fit again yet. -/
def State.overcommit (s : State) : Bool := s.rdB Ob.admEnvelopeOvercommit && s.exceeds

/-! ### The terms in order (R50) -/

def refuseIf (r : Option Refusal4x) : Except Refusal4x Unit :=
  match r with
  | some x => .error x
  | none => .ok ()

/-- Term 2 (R396). -/
def State.peerRefusal (s : State) (n : Nat) : Option Refusal4x :=
  let dg := s.rd Ob.arrConfigDigest
  ((bitsSet 8 (s.rd (Ob.slotArrayPeers n))).find? fun o => o != s.arr.pos &&
    (!s.inArray || (s.posS o).digest.getD (Config.remoteDigest o dg) != dg || !s.reachable o || !(s.posS o).timed)).map fun o =>
      { code := 0x4D, unit := 0x0A * 2 ^ 24 + o, need := s.rd (Ob.slotArrayPeers n) }

/-- Terms 3 to 5: image checks of R301, and the local memory of the resident stages. -/
def State.imageRefusal (s : State) (a : Ask) (p : Plan) : Option Refusal4x :=
  let codes := s.imageCodes a.n
  let worst := fun (f : StageP → Nat) => p.stages.foldl (fun m x => max m (f x)) 0
  let eng := 0x02 * 2 ^ 24
  let words := worst fun x => iWordCount (s.microImage x.image)
  let nano := worst fun x => nWordCount (s.nanoImage x.nimage)
  let x := worst fun x => x.x
  let y := worst fun x => x.y
  if decide (2048 < words) then some { code := 0x43, unit := eng, need := words, avail := 2048, point := a.pts.headD 0 }
  else if codes.contains 0x43 || decide (256 < nano) then some { code := 0x43, unit := eng, need := nano, avail := 256, point := a.pts.headD 0 }
  else if codes.contains 0x4B then
    some { code := 0x4B, unit := eng, avail := 4096, point := a.pts.headD 0
           need := worst fun x => let q := s.pair x.image x.nimage; q.spacing (q.verify 8).2.2 }
  else if codes.contains 0x42 || decide (16384 < x) || decide (16384 < y) then
    some { code := 0x42, unit := eng, need := max x y, avail := 16384, point := a.pts.headD 0 }
  else none

/-- The sources of a pipeline on a copy of the state, for the checks of R147, R151, R152 and R404: L_line and LineSpacing. -/
def State.withSources (s : State) (n : Nat) (p : Plan) (trigger : Nat) : State :=
  ((s.lineRange n).zip p.sources).foldl (fun s x =>
    s.setSource x.1 1 n (trigger + x.2.span) (max x.2.spacing (s.rd (Ob.slotTrigHold n)))) s

/-- R152 and R404, under term 11. -/
def State.spacingRefusal (s : State) (t : State) : Option Refusal4x :=
  match t.chargeBreak with
  | some (i, need, have') => if s.chargeBreak.isSome then none else some { code := 0x48, unit := 0x0D * 2 ^ 24 + i, need := need, avail := have' }
  | none => match t.exportBreak with
    | some (_, need, have') => if s.exportBreak.isSome then none else some { code := 0x48, need := need, avail := have' }
    | none => none

/-- R147 and R151, under term 14. -/
def State.delayRefusal (t : State) : Option Refusal4x :=
  match t.fabricRefusal with
  | some r => if r.code = 0x4A then some r else none
  | none => none

/-- Term 13 (R57, R59): what the envelope leaves. -/
def State.powerLeft (s : State) (a : Ask) : Nat :=
  let skip := match a.skip with
    | some o => s.rd (Ob.slotWorstPower o)
    | none => 0
  min (s.rd Ob.penvEnvelope) 230000 - (s.rd Ob.admChargedPower - skip)

/-- Admission of one pipeline against the resources of an attempt: the first term that fails, or what it gets. The ceiling of 1.0 TB/s is
compared with the sum of what the pseudo-channels are charged, each with its ring's rate over p - 1 (DESIGN CHOICE, log entry 157). Where the
transfer channels run out, LastNeed and LastAvail count channels (DESIGN CHOICE, log entry 158). -/
def State.evaluate (s : State) (a : Ask) : Except Refusal4x Grant := do
  let n := a.n
  let best := s.bestEffort n
  let chk := fun (r : Option Refusal4x) => if best then .ok () else refuseIf r
  if !s.valid n a.drive then .error { code := 0x4F }
  refuseIf (s.peerRefusal n)
  let (p, l) := s.planPlaced a
  refuseIf (s.imageRefusal a p)
  chk (s.engineRefusal a p l)
  -- term 7
  let regs := s.heldRegions a.skip
  let rr ← match s.placePools n regs (poolNeeds l) with
    | .ok r => .ok r
    | .error (c, oct) => if best then .ok [] else
        .error { code := 0x44, unit := 0x01 * 2 ^ 24 + c, need := oct, avail := poolLeft regs c, point := a.low }
  let sl ← match s.placeMaps a (rr ++ regs) [] p.maps with
    | .ok r => .ok r
    | .error (c, oct) => if best then .ok [] else
        .error { code := 0x44, unit := 0x01 * 2 ^ 24 + c, need := oct, avail := poolLeft (rr ++ regs) c, point := a.low }
  let ch9 := mergeCharges ([0, 1, 2].flatMap fun pt => sl.map fun x =>
    ({ q := 9, point := pt, cls := 1, unit := x.slice.cluster, amount := x.cycles } : Charge))
  chk (s.overrun a 0x44 s.limitOf ch9)
  -- term 8
  let sh := s.sharesOf a p.drains
  chk (s.polderRefusal a sh)
  let chD := mergeCharges ([0, 1, 2].flatMap fun pt => s.drainCharges p pt)
  chk (s.overrun a 0x45 s.limitOf (chD.filter fun c => c.q == 11))
  -- term 9; the ring's ports come with its place
  let chs := s.chanIns n a.drive
  let ring := s.ringFor a p chs
  let pcs := match ring with
    | .ok r => r.1
    | .error _ => []
  let flows := p.flows ++ s.mapFlows p l sl
  let nodes := endNodes l sl pcs
  let routes := fun (pt : Nat) => allRoutes flows nodes (s.clockOf pt)
  let chR := mergeCharges ([0, 1, 2].flatMap fun pt => routeCharges pt (routes pt))
  chk (s.overrun a 0x46 s.limitOf (chR.filter fun c => c.q == 12))
  -- term 10
  let r ← if best then (match ring with
      | .ok r => .ok r
      | .error _ => .error { code := 0x4F }) else ring
  let chH := mergeCharges ([0, 1, 2].flatMap fun pt => s.hbmCharges n p pcs pt)
  chk (s.overrun a 0x47 s.limitOf chH)
  chk (a.pts.findSome? fun pt =>
    let mine := ((chH.filter fun c => c.point == pt).map fun c => c.amount).sum
    let used := s.chargedAll 13 pt + s.disp.charge
    if s.hbmCeiling pt < used + mine then some { code := 0x47, need := mine, avail := s.hbmCeiling pt - used, point := pt } else none)
  chk (s.overrun a 0x47 s.limitOf ((chR ++ chD).filter fun c => c.q == 14 || c.q == 15))
  -- terms 11 and 12
  let chT := mergeCharges ([0, 1, 2].flatMap fun pt => s.transferCharges n p pt)
  let want := if (s.replaces n).isSome then 0 else (s.channelPlan n p).length
  let freeCh := ((List.range 32).filter fun c => s.xowner c == 0).length
  chk (s.ingestRefusal a)
  chk (s.overrun a 0x48 s.limitOf (chT.filter fun c => c.q == 17 && decide (16 ≤ c.unit)))
  chk (if freeCh < want then some { code := 0x48, unit := 0x09 * 2 ^ 24, need := want, avail := freeCh, point := a.low } else none)
  chk (s.overrun a 0x48 s.limitOf (chT.filter fun c => c.q == 18))
  let res := (p.drains.map fun d => s.residence n d).foldl max 0
  let bs := a.pts.map fun pt => (pt, s.boundsAt n pt res p sl (routes pt))
  let lat := bs.foldl (fun m x => max m x.2.1) 0
  let trig := if s.rd (Ob.slotConditionCount n) = 0 then 0 else bs.foldl (fun m x => max m x.2.2) 0
  chk (s.spacingRefusal (s.withSources n p trig))
  let om := s.rd (Ob.slotOutputMask n)
  chk (if bit om 3 then (s.captureBreak n (s.streamRate n p) (s.holdOf n (s.rd (Ob.slotStreamHold n))) lat p chs).map fun x =>
      { code := 0x48, unit := 0x07 * 2 ^ 24 + 16, need := x.1, avail := x.2, point := a.low } else none)
  chk ((s.portTaken a).map fun k => { code := 0x4C, unit := 0x08 * 2 ^ 24 + k, point := a.low,
                                            need := ceilDiv (rUp p.octets * 1000000) (max 1 (sumQ (s.portRates n))) })
  chk (s.overrun a 0x4C s.limitOf (chT.filter fun c => c.q == 19))
  chk (if bit om 4 then (s.captureBreak n (sumQ (s.portRates n)) (s.holdOf n (s.rd (Ob.slotStorageHold n))) lat p chs).map fun x =>
      { code := 0x4C, unit := 0x08 * 2 ^ 24 + ((s.portRates n).headD (0, 0)).1, need := x.1, avail := x.2, point := a.low } else none)
  -- term 13
  let pw := a.pts.map fun pt => (pt, s.powerAt n pt p sl flows (s.hbmRate n p))
  let worst := pw.foldl (fun m x => max m x.2) 0
  let wpt := match pw.find? fun x => x.2 == worst with
    | some x => x.1
    | none => 0
  chk (if s.overcommit || decide (s.powerLeft a < worst) then
    some { code := 0x49, need := worst, avail := s.powerLeft a, point := wpt } else none)
  -- term 14
  let late := fun (target : Nat) (f : Nat × Nat → Nat) => match bs.find? fun x => target != 0 && decide (target < f x.2) with
    | some x => some { code := 0x4A, need := f x.2, avail := target, point := x.1 : Refusal4x }
    | none => none
  chk (late (s.rd (Ob.slotLatencyTarget n)) fun x => x.1)
  chk (late (s.rd (Ob.slotTriggerLatencyTarget n)) fun x => x.2)
  chk ((s.withSources n p trig).delayRefusal)
  let blocks : Charge := { q := 24, point := 0, cls := 0, unit := 0, amount := rUp p.blocks }
  .ok { plan := p, placed := l, regions := rr, slices := sl, shares := sh, pcs := pcs, units := r.2.1, look := r.2.2
        lookBytes := if r.2.2.isEmpty then 0 else s.lookBytesOf n chs
        charges := if best then [] else ch9 ++ chD ++ chR ++ chH ++ chT ++ [blocks]
        residence := if best then 0 else res, latency := if best then 0 else lat, trigger := if best then 0 else trig
        power := if best then 0 else worst, bounds := bs, powers := pw }

/-! ### Overlap (term 15) -/

/-- Cluster spares free for an overlap. -/
def State.freeSpares (s : State) : Nat :=
  ((List.range 64).filter fun c => bit (s.rd Ob.lifeEngineSpareMap) c && (s.eng (s.spareEngine c)).st == 4).length

/-- GapBound of R76, µs: the load of every engine's images, and 100 µs beside it for the switch and the first frame (DESIGN CHOICE, log
entry 159). -/
def gapBoundOf (g : Grant) : Nat := ceilDiv ((g.placed.map fun x => x.engines.length).sum) 64 * 12 + 100

/-- The refusal of a replacement that the overlap resources do not suffice for (R73, R582): quantity 23, the spares it needs beyond the free
engines and the spares free (DESIGN CHOICE, log entry 182). -/
def State.overlapRefusal (s : State) (a : Ask) : Refusal4x :=
  let need := ((s.plan a.n (s.clockOf a.low) (fun _ => none) a.drive).stages.map fun x => x.count).sum
  let free := (s.openEngines { a with spares := false }).length
  { code := 0x4E, need := need - free, avail := s.freeSpares, point := a.low }

/-- Admission of slot `n` as R50, R73 and R76 order it: the grant, and whether it is a gap replacement. -/
def State.decideAdmission (s : State) (n : Nat) (drive : List (Nat × Nat × Bool)) : Except Refusal4x (Grant × Bool) :=
  let a : Ask := { n := n, drive := drive, pts := s.pointsOf n }
  match s.replaces n with
  | none => (s.evaluate a).map fun g => (g, false)
  | some o =>
    match s.evaluate { a with spares := true } with
    | .ok g => .ok (g, false)
    | .error e =>
      let own := [0x4F, 0x4D, 0x43, 0x4B, 0x42, 0x4A]
      if own.contains e.code then .error e
      else if !s.rdB (Ob.slotGapPermitted n) then .error (s.overlapRefusal a)
      else match s.evaluate { a with skip := some o } with
        | .error x => .error (if own.contains x.code then x else s.overlapRefusal a)
        | .ok g => if gapBoundOf g ≤ 20000 then .ok (g, true) else .error (s.overlapRefusal a)

/-- The Last objects take a refusal (R60, R582). -/
def State.noteRefusal (s : State) (n : Nat) (r : Refusal4x) : State :=
  s.wrs [(Ob.admLastCode, r.code), (Ob.admLastSlot, n), (Ob.admLastUnit, r.unit), (Ob.admLastNeed, r.need), (Ob.admLastAvail, r.avail),
    (Ob.admLastPoint, r.point)]

/-! ### ResourceVector (R577) -/

/-- The entry with the largest fraction of its limit; without limits the largest amount. -/
def rvBest (x : RvEntry) (l : List RvEntry) : RvEntry :=
  l.foldl (fun (b : RvEntry) (y : RvEntry) =>
    if (if b.limit = 0 ∧ y.limit = 0 then decide (b.amount < y.amount) else decide (b.amount * y.limit < y.amount * b.limit)) then y else b) x

/-- The entry of a quantity: the unit and point with the largest fraction of its limit, and the total at that point. -/
def rvPick (total : Nat → Nat) : List RvEntry → RvEntry
  | [] => {}
  | x :: l => let b := rvBest x l; { b with total := total b.point }

/-- The entries of every quantity, in order. -/
def State.vectorAll (s : State) (a : Ask) (g : Grant) (spares : Nat) : List RvEntry :=
  let one := fun (pt cls unit amount limit : Nat) => ({ point := pt, unitClass := cls, unitNumber := unit, amount := amount, limit := limit } : RvEntry)
  let pt0 := a.pts.headD 0
  let eng := fun (x : Placed) => x.engines.headD 0
  let stageQ := fun (f : StageP → Nat) (limit : Nat) =>
    rvPick (fun _ => (g.placed.map fun x => f x.stage * x.engines.length).sum) (g.placed.map fun x => one pt0 2 (eng x) (f x.stage) limit)
  let chg := fun (q : Nat) =>
    let l := g.charges.filter fun c => c.q == q && a.pts.contains c.point
    rvPick (fun pt => ((l.filter fun c => c.point == pt).map fun c => c.amount).sum) (l.map fun c => one c.point c.cls c.unit c.amount (s.limitOf c))
  let cl := ((g.regions ++ g.slices.map fun x => x.region).map fun r => r.cluster).dedup
  let poolIn := fun (c : Nat) => 64 * (((g.regions ++ g.slices.map fun x => x.region).filter fun r => r.cluster == c).map fun r => r.lineCount).sum
  let half := fun (h : Nat) => 4096 * granulesIn g.shares h
  let ringB := if g.units.isEmpty then 0 else 2097152 * g.units.length + g.lookBytes + markerReserve
  let perEngine := fun (x : Placed) => rUp (rOver (rTimes x.stage.rate (x.stage.worst + x.stage.svc)) (if x.stage.split then 1 else max 1 x.engines.length))
  [{}, { amount := s.rd (Ob.slotArrayPeers a.n), total := s.rd (Ob.slotArrayPeers a.n), unitClass := if s.rd (Ob.slotArrayPeers a.n) = 0 then 0 else 0x0A
         unitNumber := if s.rd (Ob.slotArrayPeers a.n) = 0 then 0 else s.arr.pos },
    stageQ (fun x => iWordCount (s.microImage x.image)) 2048,
    stageQ (fun x => nWordCount (s.nanoImage x.nimage)) 256,
    stageQ (fun x => let q := s.pair x.image x.nimage; q.spacing (q.verify 8).2.2) 4096,
    stageQ (fun x => x.x) 16384, stageQ (fun x => x.y) 16384,
    rvPick (fun _ => (g.placed.map fun x => x.engines.length).sum)
      (a.pts.flatMap fun pt => g.placed.map fun x => one pt 2 (eng x) (perEngine x) (s.clockOf pt * 63 / 64)),
    rvPick (fun _ => (cl.map poolIn).sum) (cl.map fun c => one pt0 1 c (poolIn c) 163840),
    chg 9, rvPick (fun _ => half 0 + half 1) (if g.shares.isEmpty then [] else [one a.low 0x0B 0 (half 0) 2097152, one a.low 0x0B 1 (half 1) 2097152]),
    chg 11, chg 12, chg 13, chg 14, chg 15,
    rvPick (fun _ => ringB) (if ringB = 0 then [] else [one pt0 0 0 ringB (s.rd Ob.hbmInServiceCount * 805306368)]),
    chg 17, chg 18, chg 19,
    rvPick (fun _ => g.power) (g.powers.map fun x => one x.1 0 0 x.2 (min (s.rd Ob.penvEnvelope) 230000 - s.staticCharge)),
    rvPick (fun _ => g.latency) (g.bounds.map fun x => one x.1 0 0 x.2.1 (s.rd (Ob.slotLatencyTarget a.n))),
    (if g.trigger = 0 then {} else rvPick (fun _ => g.trigger) (g.bounds.map fun x => one x.1 0 0 x.2.2 (s.rd (Ob.slotTriggerLatencyTarget a.n)))),
    if spares = 0 then {} else rvPick (fun _ => spares) [one pt0 0 0 spares s.freeSpares]]

/-- ResourceVector of a grant. Best-effort work is charged terms 1 to 5 alone, so the quantities of the other terms stay empty (R51). -/
def State.vectorOf (s : State) (a : Ask) (g : Grant) (spares : Nat) : List RvEntry :=
  let l := s.vectorAll a g spares
  if s.bestEffort a.n then l.take 7 ++ List.replicate (l.length - 7) ({} : RvEntry) else l

end Sys2Proof.Machine
end

