-- ==== Sys2Proof/Machine/Contracts.lean ====
section
/-! DEFINITION. ADMIT and CHECK: what an admitted pipeline takes hold of, and its contract (spec/02_contracts.md R44-R47, R60-R62, R68, R73, R74, R76, R575, R576; spec/03_ingest.md R97; spec/09_records.md R223, R225). -/

namespace Sys2Proof.Machine

open Sys2Proof

/-- Placement of a grant (R576). -/
def State.placementOf (s : State) (n : Nat) (g : Grant) (chans : List Nat) : Placement :=
  let p := s.channelPlan n g.plan
  { engines := s.engineEntries g.placed
    regions := sortOn (fun r => r.cluster * 4096 + r.firstLine) (g.regions ++ ((g.slices.map fun x => x.region).filter fun r => r.lineCount != 0))
    shares := sortOn (fun x => x.channel) (g.shares.map fun x => x.2)
    pcs := (sortOn id g.pcs).map fun l =>
      { pc := l, bursts := s.burstsOf (((g.charges.filter fun c => c.q == 13 && c.unit == l && c.point == s.rd Ob.opCurrent).map fun c => c.amount).sum)
        extents := ((g.units ++ g.look).filter fun u => s.pcOf (u * 2097152) == l).length }
    lanes := s.lanesFor n
    xfers := (chans.zip p).map fun x => { chan := x.1, role := x.2.1, slots := s.beatSlots (s.rd Ob.opCurrent) x.2.2.2.1 } }

/-- The images of the stages go into their engines (R300). -/
def State.loadEngines (s : State) (n : Nat) (l : List Placed) : State :=
  l.foldl (fun s x => x.engines.foldl (fun s e => s.placeImage e n x.stage.image x.stage.nimage x.stage.params) s) s

/-- The consumers of slot `n` join their channel rings at the write position (R97, R98). -/
def State.joinPolder (s : State) (a : Ask) (shares : List (Nat × PlShare)) (drains : List Drain) : State :=
  let s1 := shares.foldl (fun s x => s.setChan x.1 { s.chanS x.1 with granules := max (s.chanS x.1).granules x.2.granules }) s
  drains.foldl (fun s d =>
    let c := s.chanS d.key
    s.setChan d.key { c with consumers := c.consumers ++
      [{ slot := a.n, stage := d.stage, bound := s.boundOf a d, readPos := c.written }] }) s1

/-- The free Weirs and maps that slot `n` names are bound to it (R107, R138, R155, R169), with new maps at zero; those of the slot it replaces pass
later (R74). -/
def State.bindUnits (s : State) (n : Nat) (g : Grant) : State :=
  let w := if s.chainMode n = 1 then spWeirs (leNat (s.chainGeom n)) else []
  let s1 := (w.filter fun k => s.rd (Ob.weirBoundSlot k) == 0xFF).foldl (fun s k => s.weirBind k n) s
  (g.plan.maps.filter fun m => s.rd (Ob.mapBoundSlot m.k) == 0xFF).foldl (fun s m =>
    s.mapBind m.k n m.columns (s.unstamp (s.rd (Ob.slotAdmittedAt n))) ((g.slices.filter fun x => x.k == m.k).map fun x => x.slice)) s1

/-- A new ring (R223-R225). -/
def State.openRing (s : State) (n : Nat) (g : Grant) : State :=
  let om := s.rd (Ob.slotOutputMask n)
  let one := fun (on : Bool) (who hold : Nat) => if on then [({ who := who, hold := s.holdOf n hold } : RConsumer)] else []
  let x : RingState := {
    present := true, bytes := s.ringBytesOf n, overwrite := s.rd (Ob.slotPolicy n) == 1, lookback := g.lookBytes, lookUnits := g.look
    extents := g.units.map fun u => { unit := u }
    consumers := one (bit om 3) 0 (s.rd (Ob.slotStreamHold n)) ++ one (bit om 4) 1 (s.rd (Ob.slotStorageHold n))
      ++ one (s.rdB (Ob.slotHostConsumer n)) 2 0 }
  ((s.setRing n x).wrs [(Ob.slotLookbackBytes n, g.lookBytes), (Ob.slotCaptureState n, b2n (s.bounded n)), (Ob.slotHostRead n, 0)]).recount

/-- The stream ring takes an owner (R366, R367). -/
def State.openStream (s : State) (n : Nat) (g : Grant) : State :=
  let r := s.rd (Ob.slotStreamRing n)
  if bit (s.rd (Ob.slotOutputMask n)) 3 then
    (s.setStream r { s.streamS r with fresh := true, lastSeq := none, carry := 0 }).wrs
      [(Ob.ringOwner r, n), (Ob.ringChargedRate r, s.streamRate n g.plan), (Ob.ringRingState r, 2)]
  else s

/-- Transfer channels of slot `n` (R334, R346). -/
def State.openChannels (s : State) (n : Nat) (g : Grant) (chans : List Nat) : State :=
  (chans.zip (s.channelPlan n g.plan)).foldl (fun s x => s.bindChannel x.1 1 n x.2.1 x.2.2.1 x.2.2.2.1 x.2.2.2.2) s

/-- The reader of a Replay (R225, R237, R238): its source channels, and its place among the consumers of its source ring. -/
def State.openReplay (s : State) (n : Nat) (drive : List (Nat × Nat × Bool)) : State :=
  if !s.isReplay n then s
  else
    let s1 := (s.feed n drive).foldl (fun s d => s.setRepChan n d.1 { cplx := d.2.2, rate := d.2.1 }) s
    if s.rd (Ob.slotReplaySource n) = 1 then
      let m := s.ringOwner (rpSource (s.replayHead n))
      let x := s1.ringS m
      s1.setRing m { x with consumers := x.consumers ++ [{ who := replayWho n, hold := maxHold x.bytes, queue := x.recs.map fun r => (r.pos, r.len) }] }
    else s1

/-- RouteLatency of a Channelize pipeline (R178): `done` of stage O, the largest at the points checked. -/
def State.routeLatencyOf (s : State) (a : Ask) (g : Grant) : Nat :=
  let flows := g.plan.flows ++ s.mapFlows g.plan g.placed g.slices
  a.pts.foldl (fun m pt =>
    let r := allRoutes flows (endNodes g.placed g.slices g.pcs) (s.clockOf pt)
    let t := (s.stageTimes a.n pt g.residence r (stageOrder (s.withMapFlits g.plan g.slices)) [] 0).1
    (t.filter fun d => d.1.1 == 2).foldl (fun m d => max m d.2) m) 0

/-- A Channelize pipeline's entries of RouteLatency and SaturatedSamples (R178): its bound, and no sample yet. -/
def State.noteRoutes (s : State) (a : Ask) (g : Grant) : State :=
  if s.chainMode a.n = 2 then
    (s.setDom Ob.sieveRouteLatency (patch (s.dom Ob.sieveRouteLatency) (8 * a.n) (leBytes 8 (s.routeLatencyOf a g)))).setDom Ob.sieveSaturatedSamples
      (patch (s.dom Ob.sieveSaturatedSamples) (8 * a.n) (leBytes 8 0))
  else s

/-- OutputRate: every output together (R47). -/
def State.outputRate (s : State) (n : Nat) (p : Plan) : Nat :=
  let om := s.rd (Ob.slotOutputMask n)
  rUp (fracAdd (rTimes p.octets (b2n (bit om 0) + b2n (bit om 3) + b2n (bit om 4))) p.poolOut)

/-- The contract objects (R47), and the state of the slot. `at'` is the device time of admission. Best-effort work has InputRate 0 and no other
value of a contract (R51). -/
def State.writeContract (s : State) (a : Ask) (g : Grant) (gap : Bool) (at' warm : Nat) : State :=
  let n := a.n
  let rep := s.replaces n
  s.wrs [(Ob.slotState n, if rep.isSome then 3 else 2), (Ob.slotEpoch n, 1), (Ob.slotLatencyBound n, g.latency),
    (Ob.slotTriggerLatencyBound n, g.trigger), (Ob.slotInputRate n, g.plan.input.1 / max 1 g.plan.input.2),
    (Ob.slotOutputRate n, if s.bestEffort n then 0 else s.outputRate n g.plan), (Ob.slotWorstPower n, g.power), (Ob.slotValidDownTo n, if s.bestEffort n then 0 else a.low),
    (Ob.slotPolderResidence n, g.residence), (Ob.slotAdmittedAt n, s.stamp at'), (Ob.slotEngineCount n, (g.placed.map fun x => x.engines.length).sum),
    (Ob.slotSluiceState n, if rep.isSome then 3 else 0), (Ob.slotGapBound n, if gap then gapBoundOf g else 0),
    (Ob.slotCommitCount n, 0), (Ob.slotWarmUpFrames n, if rep.isSome && !gap then warm else 0)]

/-- Slot `a.n` is admitted with a grant. A gap replacement loads its images and takes its samples after the switch (R76). -/
def State.install (s : State) (a : Ask) (g : Grant) (gap : Bool) : State :=
  let n := a.n
  let rep := s.replaces n
  let es := g.placed.flatMap fun x => x.engines
  let borrowed := es.filter fun e => (s.eng e).st == 4
  let span := s.us 2000 + s.us 20 + s.us (ceilDiv es.length 64 * 12)
  let at' := s.devNow + s.nth 47 0 % (span + 1)
  let chans := if rep.isSome then [] else ((List.range 32).filter fun c => s.xowner c == 0).take (s.channelPlan n g.plan).length
  let s1 := ((s.setPipe n {}).writeContract a g gap at' (s.nth 74 1 % 2 ^ 32)).taken 2
  let s2 := s1.setSlot n { ({} : Slot) with
    admitResult := some 0, replacing := rep, gap := gap, borrowed := borrowed, charges := g.charges
    placement := s.placementOf n g chans, vector := s.vectorOf a g borrowed.length }
  let s3 := match rep with
    | some o => s2.modSlot o fun x => { x with replacedBy := some n }
    | none => ((s2.withSources n g.plan g.trigger).openStream n g).openChannels n g chans
  let s4 := if rep.isNone && bit (s.rd (Ob.slotOutputMask n)) 0 then s3.openRing n g else s3
  let s5 := if rep.isNone && bit (s.rd (Ob.slotOutputMask n)) 4 then s4.storeOpen n (s.rd (Ob.slotStoragePorts n)) else s4
  let s5 := (if s.bestEffort n then s5 else s5.makeWay (g.regions ++ g.slices.map fun x => x.region)).bindUnits n g
  let s6 := if gap then s5 else ((s5.loadEngines n g.placed).joinPolder a g.shares g.plan.drains).openReplay n a.drive
  let s7 := (s6.noteRoutes a g).wrs [(Ob.admLastCode, 0), (Ob.admEnvelopeOvercommit, b2n s.overcommit)]
  (List.range 16).foldl (fun s i => if i * 8 < (s.dom (Ob.slotStages n)).length then
    let e := s.stageEntry n i
    (s.verifyPair (seMicro e) (seNano e) 8).2 else s) s7.refreshFabric.recharge

/-- The slot's state and result after a refusal (R62). -/
def State.refuse (s : State) (n : Nat) (r : Refusal4x) : State :=
  (s.noteRefusal n r).modSlot n fun x => { x with admitResult := some r.code }

/-- Admit on slot `n` (R575): `drive` says which channels with which rates and types the drives hold for a Replay from them (R237). -/
def admitAction (n : Nat) (drive : List (Nat × Nat × Bool)) : Act := fun s =>
  if s.stopping || decide (2 ≤ s.rd (Ob.slotState n)) then .error Abort.state
  else if s.rd (Ob.slotState n) = 0 then .ok (s.refuse n { code := 0x4F })
  else match s.decideAdmission n drive with
    | .error r => .ok (s.refuse n r)
    | .ok (g, gap) =>
      .ok (s.install { n := n, drive := drive, pts := s.pointsOf n, skip := if gap then s.replaces n else none, spares := (s.replaces n).isSome && !gap } g gap)

/-- ADMIT. -/
def execAdmitSlot (t : Nat) (n : Fin 64) (drive : List (Nat × Nat × Bool)) (s : State) : Outcome := .next (s.serve t (admitAction n drive))

/-- Check (R60, R62): the admission of a slot runs, and only the Last objects change. A slot that holds a contract is evaluated on top of it (DESIGN
CHOICE, log entry 160). -/
def checkAction (n : Nat) (drive : List (Nat × Nat × Bool)) : Act := fun s =>
  if 64 ≤ n then .error Abort.range
  else
    let r : Option Refusal4x :=
      if s.rd (Ob.slotState n) = 0 then some { code := 0x4F }
      else match s.decideAdmission n drive with
        | .error r => some r
        | .ok _ => none
    let s1 := match r with
      | some r => s.noteRefusal n r
      | none => s.wr Ob.admLastCode 0
    .ok { s1 with life := { s1.life with checkResult := some (match r with
      | some r => r.code
      | none => 0) } }

/-- CHECK. -/
def execCheck (t n : Nat) (drive : List (Nat × Nat × Bool)) (s : State) : Outcome := .next (s.serve t (checkAction n drive))

end Sys2Proof.Machine
end

