-- ==== Sys2Proof/Machine/Sluice.lean ====
section
/-! DEFINITION. The Sluice: withdrawal, commits, replacements and commits across an array (spec/02_contracts.md R67-R78, R575, R578; spec/08_pulse.md R199; spec/15_arrays.md R407). -/

namespace Sys2Proof.Machine

open Sys2Proof

/-! ### Boundaries -/

/-- The longest frame period of slot `n`, u_T. -/
def State.framePeriod (s : State) (n : Nat) : Nat :=
  (s.plan n (s.clockOf (s.rd Ob.opCurrent)) (fun _ => none) []).stages.foldl (fun m p => max m (s.utUp (p.rate.2, p.rate.1))) 0

/-- The frames of channel or input `u` of slot `n` tagged before the boundary at `T` have been taken. -/
def State.unitPast (s : State) (n u T : Nat) : Bool :=
  let past := fun (o : Option Nat) => match o with
    | some t => decide (s.edgeOn n u T ≤ t)
    | none => true
  past (s.pendingTag n u) && (s.chainMode n != 3 || past (s.pendingBlock n u))

/-- Every frame or chunk of slot `n` tagged before the boundary at `T` has been taken. -/
def State.framesPast (s : State) (n T : Nat) : Bool :=
  let m := s.chainMode n
  if m = 4 then (bitsSet 64 (s.rd (Ob.slotChannelMask n))).all fun k => match tget (dconst none) (s.pipeS n).chunk k with
    | some c => decide (T ≤ c.tag)
    | none => true
  else if m ≤ 3 then (s.gridUnits n).all fun u => s.unitPast n u T
  else (s.placed n).all fun e => ((s.eng e).frames.map fun f => s.unstamp f.tag).all (fun t => decide (T ≤ t))
    && (s.eng e).sends.all fun q => q.frame.elim true fun f => decide (T ≤ s.unstamp f.tag)

/-- The frames of slot `n` tagged before `T` have given their outputs, and the sweep ticks of its maps before the boundary are made; a Replay's tags lie
in its source's time. -/
def State.finished (s : State) (n T : Nat) : Bool :=
  decide (T ≤ s.devNow) && (s.pipeS n).recQ.isEmpty && (s.isReplay n || s.framesPast n T) && s.ticksTo n (s.boundaryFrom n T)

/-- Accumulations end at the boundary of a commit, under the settings in force (R69); a triggered capture goes on (R239). -/
def State.endAccumulations (s : State) (n : Nat) : State := if s.chainMode n = 4 then s else s.chainFlush n

/-- Every record that waits is offered, in commit order. -/
def State.flushRecords (s : State) (n : Nat) : State :=
  let p := s.pipeS n
  let s1 := s.setPipe n { p with recQ := [], damaged := false }
  p.recQ.foldl (fun s r => (s.completeRecord n (if p.damaged then { r with flags := setBit r.flags 15 true } else r)).captureEnd n) s1

/-! ### Withdrawal (R575) -/

/-- A Channelize slot whose consumer is Admitted (R188): the Pulse pipeline that takes its routes, its own or those of a slot it has replaced. -/
def State.feedsPulse (s : State) (n : Nat) : Bool :=
  let g := s.sieveHead n
  let c := svPulse g
  s.chainMode n == 2 && svRoutes g != 0 && decide (c < 64) && s.rd (Ob.slotState c) == 2 && s.chainMode c == 3 && s.routeSource c == n

/-- Successor `m` can still be withdrawn (R75): once it has switched, the slot it replaces is ending and nothing could continue (DESIGN CHOICE, log
entry 161). -/
def State.unswitched (s : State) (m : Nat) : Bool := (s.slot m).switchAt.isNone

/-- Withdraw (R575). -/
def withdrawAction (n : Nat) : Act := fun s =>
  let st := s.rd (Ob.slotState n)
  if (st = 2 ∨ st = 6) ∧ s.feedsPulse n = true then .error Abort.state
  else if st = 2 then .ok (s.beginWithdraw n (s.boundaryFrom n (s.devNow + s.us 100)))
  else if st = 3 ∧ s.unswitched n = true then .ok (s.endSuccessor n 2)
  else if st = 6 then .ok (s.beginWithdraw n s.devNow)
  else .error Abort.state

/-- WITHDRAW. -/
def execWithdraw (t : Nat) (n : Fin 64) (s : State) : Outcome := .next (s.serve t (withdrawAction n))

/-- The Weirs and maps of slot `n` are unbound at `T`, the updates tagged before it applied (R169). -/
def State.unbindUnits (s : State) (n T : Nat) : State := ((s.mapsOf n).foldl (fun s k => s.mapFlush k T) s).unbind n

/-- The stream ring, recording and transfer channels of slot `n` are released. -/
def State.closeOutputs (s : State) (n : Nat) : State :=
  let s1 := match s.streamRingOf n with
    | some r => (s.streamDetach r n 1).wrs [(Ob.ringOwner r, 0xFF), (Ob.ringChargedRate r, 0)]
    | none => s
  let s2 := (s1.recording n).elim s1 fun _ => s1.storeClose n
  (s2.channelsOf n).foldl (fun s c => s.unbindChannel c) s2

/-- The last outputs of slot `n`, withdrawn at boundary `T`: what accumulates is emitted as Partial (R118), then the marker of a withdrawal with notice
(R501), once. -/
def State.lastOutputs (s : State) (n T : Nat) : State :=
  let x := s.slot n
  let s1 := (s.chainFlush n).flushRecords n
  match x.notice, x.gapFrom with
  | some _, some _ => (s1.marker n (s1.rd (Ob.slotEpoch n)) (s1.stamp T) (2 ^ 13) 0xFFFFFFFF).modSlot n fun x => { x with gapFrom := none }
  | _, _ => s1

/-- Every consumer of the ring of slot `n` has caught up or is detached (R239). -/
def State.caughtUp (s : State) (n : Nat) : Bool := (s.ringS n).consumers.all fun c => !c.attached || c.queue.isEmpty

/-- Everything slot `n` holds is freed, and a withdrawal with notice is noted as done (R501). -/
def State.endSlot (s : State) (n T : Nat) : State :=
  let x := s.slot n
  let s3 := ((((s.endLines n T).unbindUnits n T).closeOutputs n).closeReplay n).clearRoutes n
  let s4 := ((s3.endRing n).zeroRegions x.placement.regions).dropMigrations n
  let s5 := (s4.endContract n 1).refreshFabric
  match x.notice with
  | some sq =>
    let s6 := (s5.markFault sq 1).bump Ob.dikeNoticeWithdrawals
    let s7 := s6.wr Ob.lifeAvailabilityFlags (setBit (s6.rd Ob.lifeAvailabilityFlags) 1 true)
    (match s7.life.faultLog.find? (fun (e : FaultEntry) => e.seq == sq) with
      | some e => s7.emcy e
      | none => s7).msix 1
  | none => s5

/-- A withdrawal whose frames are done: the last outputs, then, once no consumer holds a record of the ring (R239), the end of the slot. A slot that took
over from a retiring one first receives what that one holds (R74). -/
def State.withdrawn (s : State) (n T : Nat) : State :=
  let s1 := s.lastOutputs n T
  if s1.caughtUp n && (s1.slot n).replacing.isNone then s1.endSlot n T else s1

/-- WITHDRAWAL_COMPLETE. -/
def execWithdrawalComplete (t : Nat) (n : Fin 64) (s : State) : Outcome :=
  let s := s.advance t
  .next (match (s.slot n).withdrawAt with
    | some T => if s.rd (Ob.slotState n) = 5 && s.finished n T then s.withdrawn n T else s
    | none => s)

/-! ### Checks of a commit (R70, R72) -/

/-- The staged copy of slot `n` takes effect; pattern units follow R144. -/
def State.applyStaged (s : State) (n : Nat) : State :=
  let x := s.slot n
  let unitOf := fun (k : Nat) => (List.range 16).find? fun u => Ob.patCare u / 256 == k / 256
  let s1 := x.staged.foldl (fun s p => match unitOf p.1 with
    | some u => s.patApply u p.1 p.2 none
    | none => s.wr p.1 p.2) s
  x.stagedDom.foldl (fun s p => match unitOf p.1 with
    | some u => s.patApply u p.1 0 (some p.2)
    | none => s.setDom p.1 p.2) s1

/-- Octets that the last slice of a map of slot `n` lacks in its pool for a longer Window (R168). -/
def State.windowLack (s t : State) (n : Nat) : Option (Nat × Nat × Nat) :=
  (s.mapsOf n).findSome? fun k => match (s.mapS k).slices.getLast? with
    | some x =>
      let need := t.sliceOctets k x.count true
      let left := poolLeft (s.heldRegions none) x.cluster + s.sliceOctets k x.count true
      if left < need then some (x.cluster, need, left) else none
    | none => none

/-- The lookback of a capture that the settings of `t` outgrow (R234, R582): the octets it would take, against those it has. -/
def State.lookRefusal (s t : State) : Refusal4x :=
  let bad := (List.range 64).find? fun n => s.active n && s.rd (Ob.slotMode n) == 4 && recCapture (s.geom n) == 2
    && decide (s.rd (Ob.slotLookbackBytes (s.ringOwner n)) < t.lookNeed n)
  match bad with
  | some n => { code := 0x4A, need := t.lookNeed n, avail := s.rd (Ob.slotLookbackBytes (s.ringOwner n)) }
  | none => { code := 0x4A }

/-- The check of the staged contract of slot `n`. -/
def State.stagedRefusal (s : State) (n : Nat) : Option Refusal4x :=
  let f := s.clockOf (s.rd Ob.opCurrent)
  let p := s.plan n f (fun _ => none) []
  let t0 := s.applyStaged n
  let t := (t0.withSources n (t0.plan n f (fun _ => none) []) (s.rd (Ob.slotTriggerLatencyBound n))).refreshFabric
  let g := leNat (s.chainGeom n)
  let settings := (s.chainMode n != 1 || (spWeirs g).all fun w => t.weirOk w (spBins g))
    && (p.maps.all fun m => t.mapFits m.k (s.mapS m.k).columns m.pulse)
    && (s.rd (Ob.slotMode n) != 6 || (List.range ((s.dom (Ob.slotStages n)).length / 8)).all fun i =>
      let e := s.stageEntry n i
      boundsKept (s.microImage (seMicro e)) (((t.dom (Ob.slotStageParams n)).drop (bits e 31 16)).take (bits e 15 0))
        && decide (bits e 31 16 + bits e 15 0 ≤ (t.dom (Ob.slotStageParams n)).length))
  if !settings then some { code := 0x4F }
  else match s.windowLack t n with
    | some (c, need, left) => some { code := 0x44, unit := 0x01 * 2 ^ 24 + c, need := need, avail := left, point := s.rd Ob.opCurrent }
    | none =>
      let raises := (s.mapsOf n).any fun k => decide (s.rd (Ob.mapWindow k) < t.rd (Ob.mapWindow k))
      if s.overcommit && raises then
        some { code := 0x49, need := s.rd (Ob.slotWorstPower n), point := s.rd Ob.opCurrent }
      else match s.spacingRefusal t with
        | some r => some r
        | none => match (if s.fabricBroken then none else t.delayRefusal) with
          | some r => some r
          | none => if s.lookCovered && !t.lookCovered then some (s.lookRefusal t) else none

/-- The earliest T_c of slot `n` when its checks end at `done` (R70, R74). For a Successor that has had no frame yet t1 is its admission (DESIGN CHOICE,
log entry 162). -/
def State.earliestCommit (s : State) (n done lead : Nat) : Nat :=
  let x := s.slot n
  if s.rd (Ob.slotState n) = 3 ∧ x.gap = false then
    let t1 := x.firstFrame.getD (s.unstamp (s.rd (Ob.slotAdmittedAt n)))
    max (done + lead) (t1 + s.rd (Ob.slotWarmUpFrames n) * s.framePeriod n)
  else done + lead

/-- What a commit of slot `n` at `tc` (0: the earliest) comes to: its result and T_c, or the refusal. That of a Successor is moved to the earliest
permitted time (R74). -/
def State.commitDecision (s : State) (n tc done lead : Nat) : Except Refusal4x (Nat × Nat) :=
  let st := s.rd (Ob.slotState n)
  let early := s.earliestCommit n done lead
  if st = 3 && s.unswitched n then .ok (1, max tc early)
  else if st ≠ 2 || s.rd (Ob.slotStagedChanged n) = 0 then .ok (4, 0)
  else match s.stagedRefusal n with
    | some r => .error r
    | none => if tc = 0 then .ok (1, early) else if tc < early then .ok (3, 0) else .ok (1, tc)

/-- A commit of slot `n` is armed at `T`, with the slots of `group` (R71). Boundary reads T_c, at a switch between Pulse pipelines its first edge
(R217; log entry 184). -/
def State.armCommit (s : State) (n T group : Nat) (await : Bool) : State :=
  (s.modSlot n fun x => { x with armed := some T, withheld := none, awaitConfirm := await, bankLoaded := false, group := group }).wrs
    [(Ob.slotCommitResult n, 1), (Ob.slotSluiceState n, 2), (Ob.slotBoundary n, s.stamp (leastOf T ((s.gridUnits n).map fun u => s.edgeOn n u T)))]

/-- A commit that ends without arming. A result that is no refusal names its slot, and no unit (R71, R582). -/
def State.commitResult (s : State) (n : Nat) (r : Except Refusal4x (Nat × Nat)) : State :=
  match r with
  | .error e => (s.noteRefusal n e).wr (Ob.slotCommitResult n) e.code
  | .ok (code, _) => s.wr (Ob.slotCommitResult n) code

/-- The failing member of a group: LastSlot and LastUnit name it (R71), unit 0 where no resource lacks (DESIGN CHOICE, log entry 181). -/
def State.memberFails (s : State) (n : Nat) (r : Except Refusal4x (Nat × Nat)) : State :=
  match r with
  | .error _ => s.commitResult n r
  | .ok _ => (s.commitResult n r).wrs [(Ob.admLastSlot, n), (Ob.admLastUnit, 0)]

/-- Commit of T_c (TIME128, 0 the earliest) on slot `n` (R70): the checks take up to 2 ms (R72). -/
def commitAction (n tc : Nat) : Act := fun s =>
  if (s.slot n).holds then .error Abort.state
  else
    let done := s.devNow + s.nth 70 0 % (s.us 2000 + 1)
    let s0 := s.taken 1
    let r := s0.commitDecision n (if tc = 0 then 0 else s.unstamp tc) done (s.us 100)
    .ok (match r with
      | .ok (1, T) => (s0.armCommit n T 0 false).wr Ob.admLastCode 0
      | _ => s0.commitResult n r)

/-- COMMIT. -/
def execCommit (t : Nat) (n : Fin 64) (tc : Nat) (s : State) : Outcome := .next (s.serve t (commitAction n tc))

/-- Cancel (R70, R75): a Successor that has not switched is withdrawn; an armed or withheld commit is cancelled with every slot it covers (R71); with
neither, nothing changes (DEDUCED, log entry 115). -/
def cancelAction (n : Nat) : Act := fun s =>
  if s.rd (Ob.slotState n) = 3 then (if s.unswitched n then .ok (s.endSuccessor n 2) else .error Abort.state)
  else .ok (s.cancelCommit n 2)

/-- CANCEL. -/
def execCancel (t : Nat) (n : Fin 64) (s : State) : Outcome := .next (s.serve t (cancelAction n))

/-! ### Group and array commits (R71, R77, R407) -/

def sluiceOp (w : Nat) : Nat := bits w 108 105
def sluiceId (w : Nat) : Nat := bits w 104 97

/-- The device time nearest to now with a Seconds[15:0] and a Fine. -/
def State.sluiceTime (s : State) (w : Nat) : Nat :=
  let low := bits w 96 81
  let sec := s.devNow / s.second
  let base := sec / 65536 * 65536 + low
  let x := if base + 32768 < sec then base + 65536 else if sec + 32768 ≤ base ∧ 65536 ≤ base then base - 65536 else base
  x * s.second + bits w 80 41

/-- The slots of a bit map. -/
def slotsIn (mask : Nat) : List Nat := bitsSet 64 mask

/-- What a group of slots comes to at one T_c: the first member that would not be armed, or the common T_c. -/
def State.groupDecision (s : State) (l : List Nat) (tc done lead : Nat) : Except (Nat × Except Refusal4x (Nat × Nat)) Nat :=
  let T0 := if tc = 0 then l.foldl (fun m n => max m (s.earliestCommit n done lead)) 0 else tc
  let each := fun (T : Nat) => l.map fun n => (n, s.commitDecision n T done lead)
  let T := (each T0).foldl (fun m x => match x.2 with
    | .ok (1, u) => max m u
    | _ => m) T0
  match (each T).find? fun x => match x.2 with
    | .ok (1, _) => false
    | _ => true with
  | some x => .error x
  | none => .ok T

/-- The lead's array commit at `T` stands, and every other member is sent its slots and an Arm (R77, R407). -/
def State.askMembers (s1 : State) (T slots : Nat) (far : List (Nat × Nat)) : State :=
  let c := s1.arr.nextCommit % 256
  let s2 : State := { s1 with arr := { s1.arr with
    nextCommit := (c + 1) % 256, commit := some { ident := c, tc := T, slots := slots, members := far } } }
  far.foldl (fun s o => (s.emit (.forward o.1 c (leBytes 8 o.2))).sendTo o.1 4 (s.sluicePayload 1 c T 0 0)) s2

/-- GroupCommit: T_c (TIME128, 0 the earliest), own slots, and on a lead the other positions with their slots (bit maps). -/
def groupAction (tc slots : Nat) (others : List (Nat × Nat)) : Act := fun s =>
  let l := slotsIn slots
  let far := others.filter fun o => o.1 != s.arr.pos
  let T := if tc = 0 then 0 else s.unstamp tc
  if l.any fun n => (s.slot n).holds then .error Abort.state
  else if !far.isEmpty && (!s.isLead || s.arr.commit.isSome) then .error Abort.state
  else if !far.isEmpty && (T != 0 && decide (s.devNow + 32767 * s.second < T)) then
    .ok (l.foldl (fun s n => s.wr (Ob.slotCommitResult n) 0x4F) (s.noteRefusal (l.headD 0xFF) { code := 0x4F }))
  else
    let lead := if far.isEmpty then s.us 100 else s.us 1000
    let done := s.devNow + s.nth 71 0 % (s.us 2000 + 1)
    let s0 := s.taken 1
    match s0.groupDecision l T done lead with
    | .error (n, r) => .ok (s0.memberFails n r)
    | .ok T =>
      let T := if T = 0 then done + lead else T
      let s1 := (l.foldl (fun s n => s.armCommit n T slots (!far.isEmpty)) s0).wr Ob.admLastCode 0
      .ok (if far.isEmpty then s1 else s1.askMembers T slots far)

/-- GROUP_COMMIT. -/
def execGroupCommit (t tc slots : Nat) (others : List (Nat × Nat)) (s : State) : Outcome := .next (s.serve t (groupAction tc slots others))

/-- Take the oldest Sluice message with an operation, if it is the first copy of its Sequence. -/
def State.takeSluice (s : State) (op : Nat) : Option Nat × State :=
  let r := s.takeMsg fun w => bType w == 4 && sluiceOp w == op
  match r.1 with
  | none => (none, r.2)
  | some m =>
    let w := m.2.2
    if ((r.2.posS (bOrigin w)).fresh w).1 then (some w, r.2.noteSeq (bOrigin w) w) else (none, r.2)

/-- A follower's slots are armed, and it answers Armed (R407). -/
def State.followArm (s2 : State) (c T slots : Nat) : State :=
  let s3 := ((slotsIn slots).foldl (fun s n => s.armCommit n T slots true) s2).wr Ob.admLastCode 0
  ({ s3 with arr := { s3.arr with commit := some { ident := c, tc := T, slots := slots } } } : State).sendTo 0 4 (s3.sluicePayload 2 c T 0 0)

/-- The code a follower refuses with: the refused admission's, or the commit's own. -/
def refusalCode (d : Except Refusal4x (Nat × Nat)) : Nat :=
  match d with
  | .error e => e.code
  | .ok x => x.1

/-- An array commit of this device is unfinished: one of its slots still holds it. -/
def State.arrayBusy (s : State) : Bool :=
  match s.arr.commit with
  | some c => (slotsIn c.slots).any fun n => (s.slot n).holds
  | none => false

/-- SLUICE_ARM: a follower checks the slots that the lead forwarded to it under the commit id, and answers. While one of them, or an earlier array
commit, holds a commit it answers Refused with code 0x01 (DESIGN CHOICE, log entry 163). -/
def execSluiceArm (t slots : Nat) (s : State) : Outcome :=
  let r := (s.advance t).takeSluice 1
  .next (match r.1 with
    | none => r.2
    | some w =>
      let s1 := r.2
      let c := sluiceId w
      let T := s1.sluiceTime w
      let l := slotsIn slots
      let s2 := s1.taken 1
      match s2.groupDecision l T (s1.devNow + s1.nth 407 0 % (s1.us 2000 + 1)) (s2.us 100) with
      | .error (n, d) => (s2.memberFails n d).sendTo 0 4 (s2.sluicePayload 3 c T 0 (refusalCode d))
      | .ok U =>
        if (l.any fun n => (s2.slot n).holds) || s2.arrayBusy then s2.sendTo 0 4 (s2.sluicePayload 3 c T 0 1)
        else if U = T then s2.followArm c T slots
        else s2.sendTo 0 4 (s2.sluicePayload 3 c T 0 3))

/-- The lead notes an answer of a member to the commit in progress. -/
def State.noteAnswer (s : State) (w code : Nat) : State :=
  match s.arr.commit with
  | some c =>
    if c.ident = sluiceId w ∧ !c.decided ∧ c.members.any (fun m => m.1 == bOrigin w) then
      { s with arr := { s.arr with commit := some { c with answers := (bOrigin w, code) :: c.answers.filter fun a => a.1 != bOrigin w } } }
    else s
  | none => s

/-- SLUICE_ARMED. -/
def execSluiceArmed (t : Nat) (s : State) : Outcome :=
  let r := (s.advance t).takeSluice 2
  .next (match r.1 with
    | none => r.2
    | some w => r.2.noteAnswer w 0)

/-- SLUICE_REFUSED. -/
def execSluiceRefused (t : Nat) (s : State) : Outcome :=
  let r := (s.advance t).takeSluice 3
  .next (match r.1 with
    | none => r.2
    | some w => r.2.noteAnswer w (bits w 24 17))

/-- Why an array commit cannot stand: a member's refusal, or 0x4D for one that has not answered; none when all have armed. -/
def ArrCommit.failing (c : ArrCommit) : Option Nat :=
  c.members.findSome? fun m => match (c.answers.find? fun a => a.1 == m.1).map fun a => a.2 with
    | some 0 => none
    | some code => some code
    | none => some 0x4D

/-- The first refusal that came. -/
def ArrCommit.firstRefusal (c : ArrCommit) : Option Nat := (c.answers.reverse.find? fun a => a.2 != 0).map fun a => a.2

/-- The device's own slots of an array commit no longer wait for its confirmation. -/
def State.confirmOwn (s : State) (c : ArrCommit) : State :=
  let s1 := (slotsIn c.slots).foldl (fun s n => s.modSlot n fun x => { x with awaitConfirm := false }) s
  { s1 with arr := { s1.arr with commit := some { c with decided := true, confirmed := true } } }

/-- The lead confirms an array commit to every member (R407). -/
def State.confirmArray (s : State) (c : ArrCommit) : State :=
  c.members.foldl (fun s m => s.sendTo m.1 4 (s.sluicePayload 4 c.ident c.tc 0 0)) (s.confirmOwn c)

/-- The first member that refused or has not answered, and its first slot. -/
def ArrCommit.firstFailing (c : ArrCommit) : Option (Nat × Nat) :=
  match c.answers.reverse.find? fun a => a.2 != 0 with
  | some a => some (a.1, match c.members.find? fun m => m.1 == a.1 with
    | some m => (slotsIn m.2).headD 0xFF
    | none => 0xFF)
  | none => (c.members.find? fun m => !c.answers.any fun a => a.1 == m.1).map fun m => (m.1, (slotsIn m.2).headD 0xFF)

/-- The lead cancels an array commit, its own slots with a code (R407); LastSlot and LastUnit name the first failing member, a position of the array
(R71, R61). -/
def State.cancelArray (s0 : State) (c : ArrCommit) (code : Nat) : State :=
  let s := match c.firstFailing with
    | some (p, n) => s0.wrs [(Ob.admLastCode, code), (Ob.admLastSlot, n), (Ob.admLastUnit, 0x0A * 2 ^ 24 + p)]
    | none => s0
  let s1 := (slotsIn c.slots).foldl (fun s n => s.disarm n code) s
  c.members.foldl (fun s m => s.sendTo m.1 4 (s.sluicePayload 5 c.ident c.tc 0 0)) { s1 with arr := { s1.arr with commit := none } }

/-- ARRAY_CONFIRM_DEADLINE: at T_c - 400 us the lead decides. -/
def execArrayConfirmDeadline (t : Nat) (s : State) : Outcome :=
  let s := s.advance t
  .next (match s.arr.commit with
    | some c =>
      if !s.isLead || c.decided || decide (s.devNow + s.us 400 < c.tc) then s
      else match c.failing with
        | none => s.confirmArray c
        | some code => s.cancelArray c (c.firstRefusal.getD code)
    | none => s)

/-- SLUICE_CONFIRM: the armed commit stands. -/
def execSluiceConfirm (t : Nat) (s : State) : Outcome :=
  let r := (s.advance t).takeSluice 4
  .next (match r.1, r.2.arr.commit with
    | some w, some c => if c.ident = sluiceId w then r.2.confirmOwn c else r.2
    | _, _ => r.2)

/-- Every slot of the array commit is disarmed. -/
def State.disarmArray (s : State) (c : ArrCommit) : State :=
  let s1 := (slotsIn c.slots).foldl (fun s n => if (s.slot n).holds then s.disarm n 2 else s) s
  { s1 with arr := { s1.arr with commit := none } }

/-- SLUICE_CANCEL. -/
def execSluiceCancel (t : Nat) (s : State) : Outcome :=
  let r := (s.advance t).takeSluice 5
  .next (match r.1, r.2.arr.commit with
    | some w, some c => if c.ident = sluiceId w then r.2.disarmArray c else r.2
    | _, _ => r.2)

/-- ARRAY_COMMIT_DISARM: neither Confirm nor Cancel by T_c - 200 us (R77). -/
def execArrayCommitDisarm (t : Nat) (s : State) : Outcome :=
  let s := s.advance t
  .next (match s.arr.commit with
    | some c => if c.confirmed || decide (s.devNow + s.us 200 < c.tc) then s else s.disarmArray c
    | none => s)

/-- The lead's own slots state a disagreement (R77); one that has yet to apply the commit states it then. -/
def State.disagree (s : State) (c : ArrCommit) : State := (slotsIn c.slots).foldl (fun s n => s.wr (Ob.slotCommitResult n) 0x4D) s

/-- CommitResult of slot `n` once its commit is applied: a disagreement that came before stands (R77). -/
def State.appliedResult (s : State) (n : Nat) : Nat := if s.rd (Ob.slotCommitResult n) = 0x4D then 0x4D else 0

/-- The epoch that the lead's first slot applies. -/
def State.leadEpoch (s : State) (c : ArrCommit) : Option Nat :=
  (slotsIn c.slots).head?.map fun n => if (s.slot n).holds then s.nextEpoch n else s.rd (Ob.slotEpoch n)

/-- A member's Report at the lead: the commit ends with the last one, and epochs that differ are noted (R407). -/
def State.reportIn (s : State) (c : ArrCommit) (w : Nat) : State :=
  let c1 := { c with reports := (bOrigin w, bits w 40 25) :: c.reports }
  let done := c.members.all fun m => c1.reports.any fun x => x.1 == m.1
  let s1 : State := { s with arr := { s.arr with commit := if done then none else some c1 } }
  match s.leadEpoch c with
  | some e => if e = bits w 40 25 then s1 else s1.disagree c
  | none => s1

/-- SLUICE_REPORT. -/
def execSluiceReport (t : Nat) (s : State) : Outcome :=
  let r := (s.advance t).takeSluice 6
  .next (match r.1, r.2.arr.commit with
    | some w, some c => if c.ident = sluiceId w ∧ r.2.isLead then r.2.reportIn c w else r.2
    | _, _ => r.2)

/-- ARRAY_COMMIT_REPORT_TIMEOUT: a Report is missing 1 ms after T_c. -/
def execArrayCommitReportTimeout (t : Nat) (s : State) : Outcome :=
  let s := s.advance t
  .next (match s.arr.commit with
    | some c =>
      if s.isLead && c.confirmed && decide (c.tc + s.us 1000 ≤ s.devNow) then ({ s with arr := { s.arr with commit := none } } : State).disagree c
      else s
    | none => s)

/-- A follower reports the epoch it applied once every slot of the commit has it: that of its lowest-numbered slot (DESIGN CHOICE, log entry 164). -/
def State.reportCommit (s : State) : State :=
  match s.arr.commit with
  | some c =>
    if s.isLead || !c.confirmed || (slotsIn c.slots).any (fun n => (s.slot n).holds) then s
    else
      let n := (slotsIn c.slots).headD 0
      ({ s with arr := { s.arr with commit := none } } : State).sendTo 0 4
        (s.sluicePayload 6 c.ident c.tc (s.rd (Ob.slotEpoch n)) (s.rd (Ob.slotCommitResult n)))
  | none => s

/-! ### Applying a parameter commit (R72) -/

/-- The gate writes the staged parameters into the bank that engine `e` does not use, and raises ARM (R287). -/
def State.gateEngine (s : State) (n T : Nat) (p : PlEngine) : State :=
  let x := s.eng p.physical
  let b := 1 - x.bank
  let params := match (s.slot n).stagedDom.find? fun d => d.1 == Ob.slotStageParams n with
    | some d => d.2
    | none => s.dom (Ob.slotStageParams n)
  let e := s.stageEntry n p.stage
  let mine := (params.drop (bits e 31 16)).take (bits e 15 0)
  let x1 := if s.rd (Ob.slotMode n) = 6 then
      x.setElems 1 (x.paramBase + b * x.paramLength) ((List.range (min x.paramLength (mine.length / 4))).map fun k => leAt mine (4 * k) 4)
    else x
  let x2 : Engine := { x1 with armed := some (s.stamp T, b) }
  s.setEng p.physical (if x.st = 2 then x2.issue { code := 1, tc := s.stamp T, bank := b } else if x.st = 1 then x2 else x)

/-- SLUICE_GATE_ARM: at T_c - 50 us. -/
def execSluiceGateArm (t : Nat) (n : Fin 64) (s : State) : Outcome :=
  let s := s.advance t
  let x := s.slot n
  .next (match x.armed with
    | some T =>
      if x.bankLoaded || x.awaitConfirm || decide (s.devNow + s.us 50 < T) || s.rd (Ob.slotState n) ≠ 2 then s
      else (x.placement.engines.foldl (fun s p => s.gateEngine n T p) s).modSlot n fun x => { x with bankLoaded := true }
    | none => s)

/-- The staged values of slot `n` take effect at `T` (R69, R71, R73): accumulations end, records leave, map schedules and the qualification of its pattern
units restart at the boundary, the Epoch, Boundary and CommitCount follow. -/
def State.commitApply (s : State) (n T : Nat) : State :=
  let b := s.boundaryFrom n T
  let us := s.unitsOf n
  let s1 := (s.mapsOf n).foldl (fun s k => s.mapBoundary k b) ((s.endAccumulations n).flushRecords n)
  let s2 := (s1.applyStaged n).restartUnits us T
  let s3 := (s2.withSources n (s2.plan n (s2.clockOf (s2.rd Ob.opCurrent)) (fun _ => none) []) (s2.rd (Ob.slotTriggerLatencyBound n))).refreshFabric
  let s4 := (s3.settleBanks n).modSlot n fun x => { x with armed := none, bankLoaded := false, group := 0, staged := [], stagedDom := [] }
  ((s4.wrs [(Ob.slotEpoch n, epochAfter (s.rd (Ob.slotEpoch n))), (Ob.slotBoundary n, s.stamp b), (Ob.slotCommitResult n, s.appliedResult n),
    (Ob.slotSluiceState n, 0), (Ob.slotStagedChanged n, 0)]).bump (Ob.slotCommitCount n)).recharge.reportCommit

/-- The commit of slot `n` armed at `T` may be applied: the gate has loaded the banks, the frames before it have given their outputs, and the pattern
units concerned have evaluated the condition times before it (R67, R72). -/
def State.commitDue (s : State) (n T : Nat) : Bool :=
  s.rd (Ob.slotState n) == 2 && (s.slot n).bankLoaded && s.finished n T && s.unitsReached n T

/-- COMMIT_APPLIED: after the outputs of the last frame before T_c. -/
def execCommitApplied (t : Nat) (n : Fin 64) (s : State) : Outcome :=
  let s := s.advance t
  .next (match (s.slot n).armed with
    | some T => if s.commitDue n T then s.commitApply n T else s
    | none => s)

/-! ### Replacement (R74, R76, R578) -/

/-- A bounded capture of Successor `m` that takes the ring of another capture starts to run (R235). -/
def State.captureStarts (s : State) (m : Nat) : State :=
  let nb := s.ringOwner m
  if s.bounded m = true ∧ (s.ringS nb).present = true then
    (s.setRing nb { s.ringS nb with rearmAt := none }).wr (Ob.slotCaptureState nb) 1
  else s

/-- At T_c Successor `m` takes over from slot `n` (R74, R75): the old slot retires, the new one has the next Epoch; what has accumulated in
the overlap gives no output. -/
def State.successorTakes (s : State) (m n T : Nat) : State :=
  let e := epochAfter (s.rd (Ob.slotEpoch n))
  let b := s.boundaryFrom m T
  let s1 := s.cancelCommit n 2
  let s2 := (s1.modSlot n fun x => { x with switchAt := some T }).modSlot m fun x => { x with switchAt := some T, armed := none, group := 0 }
  let p := s2.pipeS m
  let s3 := s2.setPipe m { p with trace := [], samp := [], level := [], recQ := [] }
  let s4 := ((s3.mapsOf m).foldl (fun s k => s.mapBoundary k b) s3).restartAtSwitch n m T
  let s5 := (s4.withSources m (s4.plan m (s4.clockOf (s4.rd Ob.opCurrent)) (fun _ => none) []) (s4.rd (Ob.slotTriggerLatencyBound m))).captureStarts m
  ((s5.wrs [(Ob.slotState n, 4), (Ob.slotEpoch m, e), (Ob.slotCommitResult m, s.appliedResult m), (Ob.slotSluiceState m, 3),
    (Ob.slotBoundary m, s.stamp b)]).bump (Ob.slotCommitCount m)).refreshFabric.reportCommit

/-- SUCCESSOR_SWITCH: at T_c of slot `m`. -/
def execSuccessorSwitch (t : Nat) (m : Fin 64) (s : State) : Outcome :=
  let s := s.advance t
  let x := s.slot m
  .next (match x.armed, x.replacing with
    | some T, some n => if s.rd (Ob.slotState m) ≠ 3 || x.awaitConfirm || decide (s.devNow < T) then s else s.successorTakes m n T
    | _, _ => s)

/-- The ring of slot `n` and its objects stand at slot `m` (R578). -/
def State.passRing (s : State) (n m : Nat) : State :=
  if (s.ringS n).present then
    let s1 := ((ringKeys n).zip (ringKeys m)).foldl (fun s k => (s.wr k.2 (s.rd k.1)).clr k.1) s
    (s1.setRing m (s.ringS n)).setRing n {}
  else s

/-- Stream ring, recording and transfer channels pass (R74, R578). -/
def State.passOutputs (s : State) (n m : Nat) : State :=
  let p := s.plan m (s.clockOf (s.rd Ob.opCurrent)) (fun _ => none) []
  let s1 := match s.streamRingOf n with
    | some r => s.wrs [(Ob.ringOwner r, m), (Ob.ringChargedRate r, s.streamRate m p)]
    | none => s
  let own := fun (c : NCmd) => if c.slot = n then { c with slot := m } else c
  let s2 := (List.range 6).foldl (fun s k => s.setDrive k { s.driveS k with out := (s.driveS k).out.map own, queue := (s.driveS k).queue.map own })
    ((s1.setRecording m (s1.recording n)).setRecording n none)
  let cs := s2.channelsOf n
  let s3 := cs.foldl (fun s c =>
    let y := s.xf c
    let role := (s.channelPlan m p).find? fun q => q.1 == y.role
    (s.wr (Ob.xferOwner c) (256 + m)).setXf c { y with
      target := if y.role = 2 ∨ y.role = 3 then m else y.target
      rate := match role with
        | some q => q.2.2.1
        | none => y.rate }) s2
  let xs := (s3.slot n).placement.xfers
  s3.modSlot m fun x => { x with placement := { x.placement with xfers := xs } }

/-- The regions of the kept slices of slot `n`'s maps. -/
def State.sliceRegions (s : State) (n : Nat) (ks : List Nat) : List PlRegion :=
  (s.slot n).placement.regions.filter fun r => r.kind == 4 && ks.any fun k =>
    (s.mapS k).slices.any fun x => x.cluster == r.cluster && x.live == 64 * r.firstLine + 64

/-- Weirs and maps of slot `n` that slot `m` names pass to it, with the regions of their slices; the others are released (R74, R169). Those that only `m`
names have been bound to it since its admission (R107). -/
def State.passUnits' (s : State) (n m T : Nat) : State :=
  let g := leNat (s.chainGeom m)
  let ws := if s.chainMode m = 1 then spWeirs g else []
  let ks := if s.chainMode m = 1 then bitsSet 4 (spMaps g) else if s.chainMode m = 3 then bitsSet 4 (puMaps (s.pulseHead m)) else []
  let keep := (s.mapsOf n).filter fun k => ks.contains k
  let regs := s.sliceRegions n keep
  let b := s.boundaryFrom n T
  let s1 := keep.foldl (fun s k => (s.mapBoundary k b).wr (Ob.mapBoundSlot k) m) s
  let s2 := ((List.range 16).filter fun w => s.rd (Ob.weirBoundSlot w) == n && ws.contains w).foldl (fun s w => s.wr (Ob.weirBoundSlot w) m) s1
  let s3 := s2.unbindUnits n T
  let s4 := s3.modSlot n fun x => { x with placement := { x.placement with regions := x.placement.regions.filter fun r => !regs.contains r } }
  s4.modSlot m fun x => { x with placement := { x.placement with regions := sortOn (fun r => r.cluster * 4096 + r.firstLine) (x.placement.regions ++ regs) } }

/-- The images of slot `m` go into the engines of its Placement. -/
def State.loadPlaced (s : State) (m : Nat) : State :=
  let p := s.plan m (s.clockOf (s.rd Ob.opCurrent)) (fun _ => none) []
  (s.slot m).placement.engines.foldl (fun s e => match p.stages.find? fun x => x.stage == e.stage && x.chan == e.channel with
    | some x => s.placeImage e.physical m x.image x.nimage x.params
    | none => s) s

/-- The Pulse consumer of the routes of slot `n` takes them from its Successor `m` (R193). -/
def State.passRoutes (s : State) (n m : Nat) : State :=
  let c := svPulse (s.sieveHead n)
  if s.chainMode n = 2 ∧ svRoutes (s.sieveHead n) ≠ 0 ∧ c < 64 ∧ s.active c = true ∧ s.routeSource c = n then
    s.modSlot c fun x => { x with routeFrom := some m }
  else s

/-- The frame grid of channel or input `u` of gap replacement `m`, which takes its samples from now on: that of the first sample at or after its admission,
reckoned back from the newest one in the Polder, and the first frame at or after `g` of which no sample is gone (R76, R104). -/
def State.startUnit (s : State) (o m g u : Nat) : State :=
  let p := s.pipeS m
  if s.chainMode m = 3 ∧ enRoute (s.pulseEntry m u) = true then s
  else if s.chainMode m = 3 ∧ s.chainMode o = 3 ∧ (s.sameInput o m u).isSome = true then s.adoptInput o m u g
  else
    let k := if s.chainMode m = 3 then enNumber (s.pulseEntry m u) else u
    let c := s.chanS (s.chanKey m k)
    match c.samples.getLast? with
    | none => s
    | some x =>
      let fs := s.inFs m k
      let last := s.firstIndex m k + c.samples.length - 1
      let d := (x.1 - s.unstamp (s.rd (Ob.slotAdmittedAt m))) * fs.1 / max 1 (s.second * fs.2)
      let al := if s.chainMode m = 3 then s.puUnit m u else 1
      if last < d then s
      else
        let i0 := ceilDiv (last - d) al * al
        let a := (i0, x.1 - (last - i0) * s.second * fs.2 / max 1 fs.1)
        let st := s.gridStep m
        let f := max (ceilDiv ((g - a.2) * fs.1) (s.second * fs.2 * st)) (ceilDiv (last + 1 - i0) st)
        s.setPipe m { p with
          origin := tset (dconst none) p.origin u (some a)
          frame := tset (dconst 0) (tset (dconst 0) p.frame u f) (256 + u) f
          begin := tset (dconst 0) p.begin u (f * st) }

/-- The gap replacement of slot `o` starts its grids (R76). -/
def State.startGrids (s : State) (o m g : Nat) : State :=
  if s.isReplay m || decide (3 < s.chainMode m) then s else (s.gridUnits m).foldl (fun s u => s.startUnit o m g u) s

/-- Gap replacement `m` takes hold (R76): its images are loaded, its consumers join the Polder or its reader the source, and its grids start; the gap ends at
its first frame at or after `g`. -/
def State.enterGap (s : State) (o m g a : Nat) : State :=
  let p := s.plan m (s.clockOf (s.rd (Ob.slotValidDownTo m))) (fun _ => none) (s.feedHeld m)
  let ask : Ask := { n := m, pts := [s.rd (Ob.slotValidDownTo m)] }
  let shares := (s.slot m).placement.shares.map fun x => (s.chanKey m x.channel, x)
  let s1 := (((s.loadPlaced m).joinPolder ask shares p.drains).openReplay m (s.feedHeld m)).startGrids o m g
  let s2 := s1.modSlot m fun x => { x with gapFrom := some a, gapTo := some (s1.boundaryFrom m g) }
  if s.rd (Ob.slotState m) = 3 then s2.wrs [(Ob.slotState m, 6), (Ob.slotSluiceState m, 4)] else s2

/-- The retiring slot `n` has given its last outputs (R74, R76, R578): its ring, outputs and units pass to `m`, with a gap marker where the
replacement has a gap, and it becomes Empty. A slot `m` that is being withdrawn meanwhile stays so. -/
def State.retiredTo (s : State) (n m T : Nat) : State :=
  let gap := (s.slot m).gap
  let s1 := ((s.chainFlush n).unitsClose n).flushRecords n
  let g := T + s1.us (s1.rd (Ob.slotGapBound m))
  let a := s1.boundaryFrom n T
  let s2 := if gap then s1.enterGap n m g a else s1
  let b := (s2.slot m).gapTo.getD g
  let s3 := if gap then s2.marker n (s2.rd (Ob.slotEpoch n)) (s2.stamp a) (2 ^ 13) (gapPeriods a b) else s2
  let s4 := (((((s3.passRing n m).passOutputs n m).passUnits' n m T).closeReplay n).passRoutes n m).clearRoutes n
  let s5 := ((s4.zeroRegions (s4.slot n).placement.regions).dropMigrations n).endContract n 0
  let s6 := (s5.wr (Ob.slotMode n) 0).modSlot m fun x => { x with replacing := none, switchAt := none }
  let s7 := if s6.rd (Ob.slotMode m) = 4 ∧ s6.bounded m = false then s6.wr (Ob.slotCaptureState m) 0 else s6
  (if s7.rd (Ob.slotState m) = 3 then s7.wrs [(Ob.slotState m, 2), (Ob.slotSluiceState m, 0)] else s7).recount.recharge

/-- RETIRING_COMPLETE: slot `n` becomes Empty and its outputs pass to its Successor, which enters Admitted, or InGap. -/
def execRetiringComplete (t : Nat) (n : Fin 64) (s : State) : Outcome :=
  let s := s.advance t
  let x := s.slot n
  .next (match x.switchAt, x.replacedBy with
    | some T, some m =>
      if s.rd (Ob.slotState n) ≠ 4 || !s.finished n T || (!(s.slot m).gap && s.rd (Ob.slotState m) == 3 && !s.framesPast m T) then s
      else s.retiredTo n m T
    | _, _ => s)

/-- The gap of slot `m` ends at its first frame, tagged `b` (R76): a marker with the length that the marker of its start gave (R230), and the slot is
Admitted. -/
def State.gapEnd (s : State) (m b : Nat) : State :=
  let s1 := s.marker m (s.rd (Ob.slotEpoch m)) (s.stamp b) (2 ^ 12) (gapPeriods ((s.slot m).gapFrom.getD b) b)
  ((s1.modSlot m fun x => { x with gap := false, gapTo := none, gapFrom := none }).wrs [(Ob.slotState m, 2), (Ob.slotSluiceState m, 0)]).recharge

/-- GAP_FRAME_RESUME: slot `m` processes its first frame with tag at or after T_c + GapBound. -/
def execGapFrameResume (t : Nat) (m : Fin 64) (s : State) : Outcome :=
  let s := s.advance t
  .next (match (s.slot m).gapTo with
    | some g => if s.rd (Ob.slotState m) ≠ 6 || decide (s.devNow < g) || !s.framesPast m g then s else s.gapEnd m g
    | none => s)

end Sys2Proof.Machine
end

