-- ==== Sys2Proof/Machine/Trig.lean ====
section
/-! DEFINITION. Sines and cosines of rational parts of a turn in fixed point with 64 fraction bits, from their Taylor series in 96 (spec/21_calibration_housekeeping.md R533; log entry 32). -/

namespace Sys2Proof.Machine

/-- 2 * pi with 96 fraction bits. -/
def twoPi96 : Nat := 497805226624462170461043889244

/-- Terms of a Taylor series: `x2` is the square of the argument with 96 fraction bits, `t` the term, `k` its degree. -/
def taylorSum (x2 : Nat) : Nat → Nat → Int → Int
  | 0, _, t => t
  | fuel + 1, k, t => t + taylorSum x2 fuel (k + 2) (-(Int.fdiv (t * x2) (2 ^ 96 * ((k + 1) * (k + 2)) : Nat)))

/-- cos and sin, with 96 fraction bits, of the angle num / den of a turn, at most a quarter. -/
def quarterTrig (num den : Nat) : Int × Int :=
  let x := twoPi96 * num / max 1 den
  let x2 := x * x / 2 ^ 96
  (taylorSum x2 24 0 (2 ^ 96), taylorSum x2 24 1 x)

/-- cos and sin, with 64 fraction bits, of num / den of a turn. -/
def turnTrig (num den : Nat) : Int × Int :=
  let m := num % max 1 den
  let q := 4 * m / max 1 den
  let r := 4 * m - q * den
  let t := quarterTrig r (4 * den)
  let c := asr t.1 32
  let s := asr t.2 32
  if q = 0 then (c, s) else if q = 1 then (-s, c) else if q = 2 then (-c, -s) else (s, -c)

/-- Is the angle of (re, im), in 0 up to a turn, at least num / den of a turn? -/
def angleAtLeast (re im : Int) (num den : Nat) : Bool :=
  let upper := decide (0 < im) || (decide (im = 0) && decide (0 ≤ re))
  let half := decide (2 * num < den)
  if upper && !half then false
  else if !upper && half then true
  else
    let t := turnTrig num den
    decide (0 ≤ t.1 * im - t.2 * re)

/-- The largest k below 2 ^ fuel + lo whose angle (2k - 1) / 131072 is not above that of (re, im). -/
def angleSearch (re im : Int) : Nat → Nat → Nat
  | 0, lo => lo
  | fuel + 1, lo =>
    if angleAtLeast re im (2 * (lo + 2 ^ fuel) - 1) 131072 then angleSearch re im fuel (lo + 2 ^ fuel) else angleSearch re im fuel lo

/-- round(65536 * arg / 2 pi) mod 65536 (R533). -/
def phase16 (re im : Int) : Nat := if angleAtLeast re im 131071 131072 then 0 else angleSearch re im 16 0

end Sys2Proof.Machine
end

