-- ==== Sys2Proof/Machine/Housekeeping.lean ====
section
/-! DEFINITION. The housekeeping converter, its sequencer and filter units (spec/21_calibration_housekeeping.md R524-R529). -/

namespace Sys2Proof.Machine

open Sys2Proof

/-- 16-bit entry `i` of a DOMAIN, replaced. -/
def patch16 (b : Bytes) (i : Nat) (v : Int) : Bytes := patch b (2 * i) (leBytes 2 (uint 16 v))

/-- round(a / b), halves up, b positive (log entry 29). -/
def roundUpHalf (a : Int) (b : Nat) : Int := Int.fdiv (2 * a + b) (2 * b)

/-- A single-ended or monitor channel: its reading is corrected as a voltage (R526). -/
def hkVoltage (c : Nat) : Bool := decide (c < 20) || (decide (24 ≤ c) && decide (c < 42))

/-- The corrected code of channel `c` (R526). -/
def State.hkCorrected (s : State) (c raw : Nat) : Nat :=
  let off := sint 16 (leAt (s.dom Ob.hkcOffsets) (2 * c) 2)
  let gain := leAt (s.dom Ob.hkcGains) (2 * c) 2
  (clampI 0 65535 (Int.fdiv (((raw : Int) - off) * gain + 16384) 32768)).toNat

/-- v of a filter unit (R529): the corrected code, or the signed differential code. -/
def State.hkValue (s : State) (c raw : Nat) : Int := if 20 ≤ c ∧ c < 24 then sint 16 raw else s.hkCorrected c (raw % 65536)

/-- The 32-bit result word (R527). -/
def State.hkWord (s : State) (c raw : Nat) : Nat :=
  if 20 ≤ c ∧ c < 24 then
    if bit (s.rd Ob.hkDiffFormat) (c - 20) then raw % 65536 * 65536 else uint 32 (sint 16 raw)
  else s.hkCorrected c (raw % 65536)

/-! ### Filter units (R529) -/

def State.filterS (s : State) (u : Nat) : FilterUnit := tget (dconst ({} : FilterUnit)) s.hk.filters u

def State.setFilter (s : State) (u : Nat) (x : FilterUnit) : State :=
  { s with hk := { s.hk with filters := tset (dconst ({} : FilterUnit)) s.hk.filters u x } }

/-- Settings written take effect at an interval boundary: the sum and the grid restart, the envelope stays (R95), and Valid is clear until an output
follows them (R94). -/
def State.filterSettle (s : State) (u : Nat) : State :=
  let x := s.filterS u
  if x.written then
    let e := s.rd (Ob.filtFilterEnv u)
    let out := s.dom (Ob.filtFilterOut u)
    (s.setDom (Ob.filtFilterOut u) (patch out 0 (leBytes 1 (setBit (leAt out 0 1) 7 false)))).setFilter u { x with
      written := false, window := [], freshN := 0, pos := 0, top := 0, low := 0
      chan := s.rd (Ob.filtFilterChannel u), mode := s.rd (Ob.filtFilterMode u), length := s.rd (Ob.filtFilterLength u)
      interval := s.rd (Ob.filtFilterInterval u), attack := e % 256, release := e / 256 }
  else s

/-- A setting of unit `u` was written: a unit that is off takes it at once. -/
def State.filterWritten (s : State) (u : Nat) : State :=
  let s1 := s.setFilter u { s.filterS u with written := true }
  if (s.filterS u).chan = 0xFF then s1.filterSettle u else s1

/-- FilterOut at the end of an interval or block, with `t` the stamp of its last conversion. -/
def filterOut (x : FilterUnit) (t : Nat) : Bytes :=
  let n := x.window.length
  let mean := roundUpHalf x.window.sum (max 1 n)
  let rms := isqrt ((x.window.map fun v => v.natAbs * v.natAbs).sum / max 1 n)
  leBytes 40 (t * 2 ^ 192 + uint 32 mean * 2 ^ 160 + rms % 2 ^ 32 * 2 ^ 128 + uint 32 x.top * 2 ^ 96 + uint 32 x.low * 2 ^ 64
    + x.envQ / 256 % 2 ^ 32 * 2 ^ 32 + b2n (decide (x.length ≤ x.freshN)) * 128)

/-- One conversion of value `v` enters unit `u`; at the end of its interval the unit publishes its output. -/
def State.filterTake (s : State) (u : Nat) (v : Int) : State :=
  let x := s.filterS u
  let win := if x.mode = 1 then v :: x.window else (v :: x.window).take x.length
  let y := { x with
    window := win, freshN := min (x.freshN + 1) x.length, pos := x.pos + 1
    top := if x.pos = 0 then v else max x.top v, low := if x.pos = 0 then v else min x.low v
    envQ := envStep x.attack x.release v.natAbs x.envQ }
  if y.pos < (if x.mode = 1 then x.length else x.interval) then s.setFilter u y
  else
    let s1 := s.setDom (Ob.filtFilterOut u) (filterOut y s.stampNow)
    let z := if x.mode = 1 then { y with pos := 0, window := [], freshN := 0 } else { y with pos := 0 }
    (s1.setFilter u z).filterSettle u

/-! ### Conversions (R524-R528) -/

/-- What a conversion of channel `c` with raw code `raw` gives: Latest, Temperatures and BaseDieTemp, Supplies, and the filter units. -/
def State.hkResult (s : State) (c raw : Nat) : State :=
  let code := s.hkCorrected c (raw % 65536)
  let s1 := s.setDom Ob.hkLatest (patch (s.dom Ob.hkLatest) (4 * c) (leBytes 4 (s.hkWord c raw)))
  let s2 := if 42 ≤ c ∧ c < 62 then
      let temp := Config.sensorCurve c code
      let t := s1.setDom Ob.hkTemperatures (patch16 (s1.dom Ob.hkTemperatures) (c - 42) temp)
      if c = 54 then t.setDom Ob.hbmBaseDieTemp (patch16 (t.dom Ob.hbmBaseDieTemp) 0 temp)
      else if c = 56 then t.setDom Ob.hbmBaseDieTemp (patch16 (t.dom Ob.hbmBaseDieTemp) 1 temp) else t
    else if 26 ≤ c ∧ c < 42 then
      s1.setDom Ob.hkSupplies (patch16 (s1.dom Ob.hkSupplies) (c - 26) (Config.supplyMillivolts c code))
    else s1
  (List.range 8).foldl (fun s u => if (s.filterS u).chan = c then s.filterTake u (s.hkValue c raw) else s) s2

/-- The entries that a pass runs (R528): 0 to SequenceLength - 1. -/
def State.sequence (s : State) : List Nat := (List.range (s.rd Ob.hkSequenceLength)).map fun k => s.rd (Ob.hkSequencerTable k)

def seqChannel (e : Nat) : Nat := bits e 29 24
def seqRepeat (e : Nat) : Nat := bits e 23 16 + 1
def seqDelay (e : Nat) : Nat := bits e 15 0

/-- The sequencer steps on after a conversion: the entry again, the next one after its Delay, or a new pass with what has been written. -/
def State.sequenceStep (s : State) : State :=
  let h := s.hk
  let e := h.pass.getD h.entry 0
  if h.done + 1 < seqRepeat e then { s with hk := { h with done := h.done + 1 } }
  else
    let wait := s.now + s.us (seqDelay e)
    if h.entry + 1 < h.pass.length then { s with hk := { h with entry := h.entry + 1, done := 0, waitUntil := wait } }
    else { s with hk := { h with pass := s.sequence, entry := 0, done := 0, waitUntil := wait } }

/-- HK_CONVERSION (R524): a conversion with raw code `raw`, of the channel that `ledger` names in a slot of the ledger (R484), or of the
sequencer's current entry in one of its own. A Reference calibration holds the sequencer (R531). -/
def execHkConversion (t : Nat) (ledger : Option (Fin 64)) (raw : Nat) (s : State) : Outcome :=
  let s := s.advance t
  .next (if !s.powered then s
    else match ledger with
      | some c => if c.val < 62 then s.hkResult c.val raw else s
      | none =>
        if !s.rdB Ob.hkEnable || s.cal.kind == 1 || decide (s.now < s.hk.waitUntil) then s
        else
          let c := seqChannel (s.hk.pass.getD s.hk.entry 0)
          ((s.hkResult c raw).bump Ob.hkConversions).sequenceStep)

end Sys2Proof.Machine
end

