-- ==== Sys2Proof/Machine/Calibrate.lean ====
section
/-! DEFINITION. The calibrations: reference, clock and signal path, and the stored set (spec/21_calibration_housekeeping.md R530-R536, R539). -/

namespace Sys2Proof.Machine

open Sys2Proof

/-! ### Start (R530) -/

/-- A calibration of a kind starts, with ChannelMask and StartAt (TIME128). -/
def calStart (kind mask startAt : Nat) : Act := fun s =>
  if s.cal.kind ≠ 0 then .error Abort.state
  else if kind = 0 ∨ 3 < kind ∨ (kind ≠ 3 ∧ startAt ≠ 0) then .error Abort.range
  else
    let T := s.unstamp startAt
    let s1 := (s.wr Ob.calibResult 1).clr Ob.calibFailedItem
    let s2 : State := { s1 with cal := { kind := kind, mask := mask, startAt := T, reapply := s1.cal.reapply, started := true } }
    .ok (if kind = 2 ∧ s.rd Ob.synState ≠ 3 then s2.calEnd 4 none
      else if kind = 3 ∧ T < s.devNow + s.us 1000 then s2.calEnd 3 none
      else if kind = 3 ∧ mask % 2 ^ 64 = 0 then s2.calEnd 0 none
      else s2)

/-- CALIBRATE_REFERENCE. -/
def execCalibrateReference (t mask startAt : Nat) (s : State) : Outcome := .next (s.serve t (calStart 1 mask startAt))
/-- CALIBRATE_CLOCK. -/
def execCalibrateClock (t mask startAt : Nat) (s : State) : Outcome := .next (s.serve t (calStart 2 mask startAt))
/-- CALIBRATE_SIGNAL_PATH. -/
def execCalibrateSignalPath (t mask startAt : Nat) (s : State) : Outcome := .next (s.serve t (calStart 3 mask startAt))

/-! ### Reference and clock (R531) -/

/-- The voltage channels, 0-19 and 24-41. -/
def voltageChannels : List Nat := (List.range 42).filter hkVoltage

/-- An offset and a gain are plausible (R526). -/
def hkPlausible (off gain : Int) : Bool :=
  decide (-512 ≤ off) && decide (off ≤ 512) && decide (31130 ≤ gain) && decide (gain ≤ 34406)

/-- The gain of R531 from Offset_25 and the sum of 1,024 conversions of VREF_EXT; none where it has no value. -/
def State.vrefGain (s : State) (off25 : Int) (sum : Nat) : Option Int :=
  let iv := roundUpHalf (s.rd Ob.calibVrefValue * 65536 : Nat) 1250000
  let d := (sum : Int) - 1024 * off25
  if 0 < d then some (roundUpHalf (32768 * 1024 * iv) d.toNat) else none

/-- CAL_REFERENCE_COMPLETE (R531, R535): the sums of 64 conversions of each voltage channel's short, in ascending order, and of 1,024
conversions of VREF_EXT; none when the reference is unavailable. -/
def execCalReferenceComplete (t : Nat) (shorts : List Nat) (vref : Option Nat) (s : State) : Outcome :=
  let s := s.advance t
  let offs := voltageChannels.zipIdx.map fun (c : Nat × Nat) => (c.1, roundUpHalf (shorts.getD c.2 0) 64)
  let off25 := match offs.find? fun x => x.1 == 25 with
    | some x => x.2
    | none => 0
  .next (if s.cal.kind != 1 then s
    else match vref with
      | none => s.calEnd 4 (some 25)
      | some v => match s.vrefGain off25 v with
        | none => s.calEnd 2 (some 0)
        | some g => match offs.find? fun x => !hkPlausible x.2 g with
          | some x => s.calEnd 2 (some x.1)
          | none =>
            let s1 := s.setDom Ob.hkcOffsets (offs.foldl (fun b x => patch16 b x.1 x.2) (s.dom Ob.hkcOffsets))
            let s2 := s1.setDom Ob.hkcGains (offs.foldl (fun b x => patch16 b x.1 g) (s.dom Ob.hkcGains))
            (s2.wr Ob.hkcOrigin 1).calEnd 0 none)

/-- CAL_CLOCK_COMPLETE (R531): RTC ticks counted in 10 s of device time. -/
def execCalClockComplete (t ticks : Nat) (s : State) : Outcome :=
  let s := s.advance t
  let trim := roundUpHalf (((ticks : Int) - 327680) * 100000000) 327680
  .next (if s.cal.kind != 2 then s
    else if decide (-10000 ≤ trim) && decide (trim ≤ 10000) then (s.wr Ob.calibRtcTrim (uint 32 trim)).calEnd 0 none
    else s.calEnd 2 none)

/-! ### Signal path (R532, R533) -/

/-- T_i plus a number of units of 0.25 ms. -/
def State.calTime (s : State) (quarters : Nat) : Nat := s.cal.startAt + ceilDiv ((s.cal.index * 10 + quarters) * s.second) 4000

/-- The next channel's window, or the end: the Result is that of the first item that failed (R535). -/
def State.calNext (s : State) (failed : Option (Nat × Nat)) : State :=
  let f := match s.cal.failed with
    | some x => some x
    | none => failed
  let s1 := s.calRelease
  let s2 : State := { s1 with cal := { s1.cal with
    index := s1.cal.index + 1, phase := 0, lost := false, samples := [], result := none, failed := f } }
  match s2.calChannel with
  | some _ => s2
  | none => match f with
    | some (k, code) => s2.calEnd code (some k)
    | none => s2.calEnd 0 none

/-- SIGNAL_PATH_WINDOW_START: substitution starts; a channel whose link is not Running is skipped. -/
def execSignalPathWindowStart (t : Nat) (s : State) : Outcome :=
  let s := s.advance t
  .next (match s.calChannel with
    | some k =>
      if s.cal.kind != 3 || s.cal.phase != 0 || decide (s.devNow < s.calTime 0) then s
      else
        let j := s.rd (Ob.chanSourceLink k)
        if 16 ≤ j || s.rd (Ob.linkLinkState j) != 4 then s.calNext (some (k, 4))
        else
          let s1 := s.setChan k { s.chanS k with calSubst := true }
          { s1 with cal := { s1.cal with phase := 1, lost := false, samples := [], result := none } }
    | none => s)

/-- SIGNAL_PATH_MEASURE_START. -/
def execSignalPathMeasureStart (t : Nat) (s : State) : Outcome :=
  let s := s.advance t
  .next (if s.cal.kind == 3 && s.cal.phase == 1 && decide (s.calTime 1 ≤ s.devNow) then { s with cal := { s.cal with phase := 2 } } else s)

/-- x_n - d of a sample. -/
def offCentre (cplx : Bool) (dI dQ : Int) (w : Nat) : Cx :=
  { re := sint 16 w - dI, im := if cplx then sint 16 (w / 65536) - dQ else 0 }

/-- cos and sin of 2 pi f t_n, with f in mHz and t_n in u_T. -/
def toneTrig (f : Int) (second st : Nat) : Int × Int := turnTrig (f * st % (1000 * second : Nat)).toNat (1000 * second)

/-- The correlator's results over the samples of a measurement interval (R533). -/
def correlate (cplx : Bool) (f level : Int) (second : Nat) (l : List (Nat × Nat)) : PathResult :=
  let m := l.length
  let dI := roundUpHalf (l.map fun x => sint 16 x.2).sum (max 1 m)
  let dQ := if cplx then roundUpHalf (l.map fun x => sint 16 (x.2 / 65536)).sum (max 1 m) else 0
  let term := fun (x : Nat × Nat) =>
    let a := offCentre cplx dI dQ x.2
    let e := toneTrig f second x.1
    ({ re := a.re * e.1 + a.im * e.2, im := a.im * e.1 - a.re * e.2 } : Cx)
  let X := l.foldl (fun acc x => acc.add (term x)) ({ re := 0, im := 0 } : Cx)
  let X2 := (X.re * X.re + X.im * X.im).toNat
  let rest := fun (x : Nat × Nat) =>
    let a := offCentre cplx dI dQ x.2
    let e := toneTrig f second x.1
    let k : Int := (m * 2 ^ 128 : Nat)
    let u := a.re * k - (if cplx then X.re * e.1 - X.im * e.2 else 2 * (X.re * e.1 - X.im * e.2))
    let v := if cplx then a.im * k - (X.re * e.2 + X.im * e.1) else 0
    (u * u + v * v).toNat
  let Q := (l.map rest).sum
  let P := (if cplx then 1 else 2) * X2
  let gain := sint 16 (logp16 ((if cplx then 1 else 4) * X2) (m * m * 32767 * 32767 * 2 ^ 128)) - level
  let small := fun (v : Int) => decide (v.natAbs ≤ 2048)
  { gain := gain, phase := phase16 X.re X.im, offI := dI, offQ := dQ
    good := X2 != 0 && decide (gain.natAbs ≤ 384) && decide (10000 * Q ≤ P * 2 ^ 128 * m) && small dI && small dQ }

/-- SIGNAL_PATH_MEASURE_END. -/
def execSignalPathMeasureEnd (t : Nat) (s : State) : Outcome :=
  let s := s.advance t
  .next (match s.calChannel with
    | some k =>
      if s.cal.kind != 3 || s.cal.phase != 2 || decide (s.devNow < s.calTime 9) then s
      else
        let cplx := s.complex k
        let f : Int := if cplx then sint 64 (s.rd Ob.calibToneFreq) else s.rd Ob.calibToneFreq
        let r := correlate cplx f (sint 16 (s.rd Ob.calibToneLevel)) s.second s.cal.samples
        { s with cal := { s.cal with phase := 3, result := some r, samples := [] } }
    | none => s)

/-- A channel's plausible results replace the old ones (R533). -/
def State.calApply (s : State) (k : Nat) (r : PathResult) : State :=
  let s1 := s.setDom Ob.calibPathGain (patch16 (s.dom Ob.calibPathGain) k r.gain)
  let s2 := s1.setDom Ob.calibPathPhase (patch16 (s1.dom Ob.calibPathPhase) k r.phase)
  let s3 := s2.setDom Ob.calibPathOffset (patch16 (patch16 (s2.dom Ob.calibPathOffset) (2 * k) r.offI) (2 * k + 1) r.offQ)
  s3.wr Ob.calibPathValid (setBit (s3.rd Ob.calibPathValid) k true)

/-- SIGNAL_PATH_WINDOW_END. -/
def execSignalPathWindowEnd (t : Nat) (s : State) : Outcome :=
  let s := s.advance t
  .next (match s.calChannel with
    | some k =>
      if s.cal.kind != 3 || s.cal.phase != 3 || decide (s.devNow < s.calTime 10) then s
      else if s.cal.lost then s.calNext (some (k, 4))
      else match s.cal.result with
        | some r => if r.good then (s.calApply k r).calNext none else s.calNext (some (k, 2))
        | none => s.calNext (some (k, 2))
    | none => s)

/-! ### The stored set (R536) -/

/-- The calibration values with their lengths, in the order they are stored. -/
def calDoms : List (Nat × Nat) :=
  [(Ob.hkcOffsets, 128), (Ob.hkcGains, 128), (Ob.calibPathGain, 128), (Ob.calibPathPhase, 128), (Ob.calibPathOffset, 256)]

/-- A value of a calibration object is within its plausibility limits (R526, R530, R533). -/
def calValueOk (k : Nat) (b : Bytes) : Bool :=
  let each := fun (n lim : Nat) => (List.range n).all fun i => decide ((sint 16 (leAt b (2 * i) 2)).natAbs ≤ lim)
  if k = Ob.calibPathGain then each 64 384
  else if k = Ob.calibPathOffset then each 128 2048
  else if k = Ob.hkcOffsets then voltageChannels.all fun c => hkPlausible (sint 16 (leAt b (2 * c) 2)) 32768
  else if k = Ob.hkcGains then voltageChannels.all fun c => hkPlausible 0 (leAt b (2 * c) 2)
  else true

/-- StoredSet as Capture writes it. -/
def State.calSet (s : State) : Bytes :=
  let body := (calDoms.flatMap fun d => (s.dom d.1).take d.2 ++ List.replicate (d.2 - (s.dom d.1).length) 0)
    ++ leBytes 8 (s.rd Ob.calibPathValid) ++ leBytes 4 (s.rd Ob.calibRtcTrim)
  let n := 16 + body.length
  let head := fun (crc : Nat) => leBytes 16 (0x544E434C * 2 ^ 96 + Config.serialNumber.toNat % 2 ^ 32 * 2 ^ 64 + n * 2 ^ 32 + crc)
  head (crc32 (head 0 ++ body)) ++ body

/-- Capture. -/
def calCapture : Act := fun s => .ok (s.setDom Ob.calibStoredSet s.calSet)

/-- CAPTURE. -/
def execCapture (t : Nat) (s : State) : Outcome := .next (s.serve t calCapture)

/-- The stored set's header passes. -/
def calHeaderOk (b : Bytes) : Bool :=
  decide (b.length = 796) && leAt b 12 4 == 0x544E434C && leAt b 8 4 == Config.serialNumber.toNat % 2 ^ 32 && leAt b 4 4 == b.length
    && crc32 (List.replicate 4 0 ++ b.drop 4) == leAt b 0 4

/-- The stored values at their places. -/
def calParts (b : Bytes) : List (Nat × Bytes) :=
  (calDoms.foldl (fun (a : Nat × List (Nat × Bytes)) d => (a.1 + d.2, a.2 ++ [(d.1, (b.drop a.1).take d.2)])) (16, [])).2

/-- Reapply: the whole set, or on any failure nothing. -/
def calReapply : Act := fun s =>
  let b := s.dom Ob.calibStoredSet
  let note := fun (s : State) (code : Nat) => ({ s with cal := { s.cal with reapply := some code } } : State)
  let trim := sint 32 (leAt b 792 4)
  if s.cal.kind ≠ 0 then .error Abort.state
  else if !calHeaderOk b then .ok (note s 6)
  else if !((calParts b).all fun p => calValueOk p.1 p.2) || decide (10000 < trim.natAbs) then .ok (note s 2)
  else
    let s1 := (calParts b).foldl (fun (s : State) p => s.setDom p.1 p.2) s
    .ok (note (s1.wrs [(Ob.calibPathValid, leAt b 784 8), (Ob.calibRtcTrim, leAt b 792 4), (Ob.hkcOrigin, 2)]) 0)

/-- REAPPLY. -/
def execReapply (t : Nat) (s : State) : Outcome := .next (s.serve t calReapply)

end Sys2Proof.Machine
end

