-- ==== Sys2Proof/Machine/Calendar.lean ====
section
/-! DEFINITION. The calendar (spec/18_dictionary.md R468): the Gregorian dates of 2000 to 2399, and the seconds they name. -/

namespace Sys2Proof.Machine

open Sys2Proof

/-- A leap year (R468). -/
def isLeap (y : Nat) : Bool := y % 4 == 0 && (y % 100 != 0 || y % 400 == 0)

/-- Days of a year and of a month. -/
def yearDays (y : Nat) : Nat := if isLeap y then 366 else 365
def monthDays (y m : Nat) : Nat :=
  match m with
  | 2 => if isLeap y then 29 else 28
  | 4 | 6 | 9 | 11 => 30
  | _ => 31

/-- Days from 2000-01-01 to the first day of year `y`, and from there to the first day of month `m`. -/
def daysBeforeYear (y : Nat) : Nat := ((List.range (y - 2000)).map fun i => yearDays (2000 + i)).sum
def daysBeforeMonth (y m : Nat) : Nat := ((List.range (m - 1)).map fun i => monthDays y (i + 1)).sum

/-- Seconds of the calendar range (R468). -/
def calendarSpan : Nat := 146097 * 86400

/-- The fields of a date of 8 octets are in their ranges. -/
def dateOk (x : Nat) : Bool :=
  let y := bits x 63 48
  let mo := bits x 47 40
  let d := bits x 39 32
  decide (2000 ≤ y) && decide (y ≤ 2399) && decide (1 ≤ mo) && decide (mo ≤ 12) && decide (1 ≤ d) && decide (d ≤ monthDays y mo)
    && decide (bits x 31 24 ≤ 23) && decide (bits x 23 16 ≤ 59) && decide (bits x 15 8 ≤ 59)

/-- Calendar seconds of a date since 2000-01-01 00:00:00; the Weekday of a write is ignored. -/
def dateSeconds (x : Nat) : Nat :=
  (daysBeforeYear (bits x 63 48) + daysBeforeMonth (bits x 63 48) (bits x 47 40) + (bits x 39 32 - 1)) * 86400
    + bits x 31 24 * 3600 + bits x 23 16 * 60 + bits x 15 8

/-- The last of the places 0 .. n - 1 at which a rising `f` is at most `d`. -/
def lastPlace (f : Nat → Nat) (d : Nat) : Nat → Nat
  | 0 => 0
  | n + 1 => if f n ≤ d then n else lastPlace f d n

/-- The date of a number of calendar seconds, as the layout of R468 holds it. -/
def dateOf (secs : Nat) : Nat :=
  let day := secs / 86400
  let y := 2000 + lastPlace (fun i => daysBeforeYear (2000 + i)) day 400
  let inYear := day - daysBeforeYear y
  let mo := 1 + lastPlace (fun i => daysBeforeMonth y (i + 1)) inYear 12
  let d := 1 + (inYear - daysBeforeMonth y mo)
  let r := secs % 86400
  y * 2 ^ 48 + mo * 2 ^ 40 + d * 2 ^ 32 + r / 3600 * 2 ^ 24 + r / 60 % 60 * 2 ^ 16 + r % 60 * 2 ^ 8 + ((day + 5) % 7 + 1)

/-- UtcOffset. -/
def State.utc (s : State) : Int := sint 32 (s.rd Ob.calUtcOffset)

/-- The Seconds a written date names: the date less UtcOffset, none where the date is not valid (R468). -/
def State.dateToSeconds (s : State) (b : Bytes) : Option Nat :=
  let x := leNat b
  let v := (dateSeconds x : Int) - s.utc
  if dateOk x ∧ 0 ≤ v ∧ v < 2 ^ 48 then some v.toNat else none

/-- The date of a number of Seconds with the UtcOffset in force; none outside the calendar range. -/
def State.secondsToDate (s : State) (secs : Nat) : Option Bytes :=
  let v := (secs : Int) + s.utc
  if 0 ≤ v ∧ v < calendarSpan then some (leBytes 8 (dateOf v.toNat)) else none

/-- A write of AlarmTime holds its Seconds (log entry 39). -/
def alarmWrite (b : Bytes) : Act := fun s =>
  match s.dateToSeconds b with
  | some v => .ok (s.wr Ob.calAlarmTime v)
  | none => .error Abort.range

/-- What AlarmTime reads as, and a keep stores: 8 octets; none outside the calendar range. -/
def State.alarmDate (s : State) : Option Bytes := s.secondsToDate (s.rd Ob.calAlarmTime)

end Sys2Proof.Machine
end

