-- ==== Sys2Proof/Machine/Microcode.lean ====
section
/-! DEFINITION. The commands of the analysis engines. One command of a microword operation is one cycle of the engine in which that operation stands in its stage (log entry 16); where the stage does not hold it, nothing happens. -/

namespace Sys2Proof.Machine

open Sys2Proof

/-- The microword that enters MF satisfies `p`, in a Running engine. -/
def State.atMF (s : State) (e : Nat) (p : Engine → Nat → Bool) : Bool :=
  let x := s.eng e
  x.st == 2 && p x (tget (dconst 0) x.micro x.pc)

/-- The nanoword of the microword in a stage satisfies `p`, in a Running engine. -/
def State.atStage (s : State) (e : Nat) (f : Engine → Option Uop) (p : Nat → Bool) : Bool :=
  let x := s.eng e
  x.st == 2 && (match f x with
    | some u => p u.nano
    | none => false)

/-- The cycle, when the operation stands in its stage. -/
def State.cycleIf (s : State) (c : Bool) (e : Nat) : State := if c then s.engineCycle e false false else s

/-- A memory error in a read of the engine: 1 corrected, written back and counted; 2 uncorrectable (R247; log entry 186). -/
def State.memError (s : State) (err : Nat) : State :=
  if err = 1 then s.countCorrected 5 else if err = 2 then s.countUncorrected 5 else s

/-! ### Sequencing -/

/-- BRANCH (R277): the sequencer chooses by Cond. `err` as R247 on the microword or nanoword fetched. -/
def execBranch (t : Nat) (e : Fin 1088) (err : Fin 3) (s : State) : Outcome :=
  let s := s.advance t
  .next (if s.atMF e (fun _ w => mLoop w != 2 && mCond w != 14) then
      (s.memError err).engineCycle e false (err.val == 2) else s)

/-- LOOP_ENTER (R279). -/
def execLoopEnter (t : Nat) (e : Fin 1088) (s : State) : Outcome :=
  let s := s.advance t
  .next (s.cycleIf (s.atMF e fun _ w => mLoop w == 1) e)

/-- LOOP_END (R279). `err` as R247 on the microword or nanoword fetched. -/
def execLoopEnd (t : Nat) (e : Fin 1088) (err : Fin 3) (s : State) : Outcome :=
  let s := s.advance t
  .next (if s.atMF e fun _ w => mLoop w == 2 then (s.memError err).engineCycle e false (err.val == 2) else s)

/-- LOOP_BREAK (R279). -/
def execLoopBreak (t : Nat) (e : Fin 1088) (s : State) : Outcome :=
  let s := s.advance t
  .next (s.cycleIf (s.atMF e fun _ w => mLoop w == 3) e)

/-- SAFE_POINT (R285): EV is sampled outside the service routine. -/
def execSafePoint (t : Nat) (e : Fin 1088) (s : State) : Outcome :=
  let s := s.advance t
  .next (s.cycleIf (s.atMF e fun x w => mSafe w && !x.service) e)

/-- RETURN (R285). `err` as R247 on the microword or nanoword fetched. -/
def execRet (t : Nat) (e : Fin 1088) (err : Fin 3) (s : State) : Outcome :=
  let s := s.advance t
  .next (if s.atMF e fun _ w => mCond w == 14 && mLoop w != 2 then (s.memError err).engineCycle e false (err.val == 2) else s)

/-- YIELD (R288). -/
def execYield (t : Nat) (e : Fin 1088) (s : State) : Outcome :=
  let s := s.advance t
  .next (s.cycleIf (s.atMF e fun _ w => mYield w) e)

/-! ### The datapath -/

/-- OPERAND_READ (R246): 64 bits from X or Y in stage OF; `err` as R247. -/
def execOperandRead (t : Nat) (e : Fin 1088) (err : Fin 3) (s : State) : Outcome :=
  let s := s.advance t
  .next (if s.atStage e Engine.of (fun n => nXRead n == 1 || nYRead n == 1) then
      (s.memError err).engineCycle e (err.val == 2) false else s)

/-- REGISTER_LOAD (R284): a register from memory in stage OF; `err` as R247. -/
def execRegisterLoad (t : Nat) (e : Fin 1088) (err : Fin 3) (s : State) : Outcome :=
  let s := s.advance t
  .next (if s.atStage e Engine.of (fun n => nXRead n == 2 || nYRead n == 2) then
      (s.memError err).engineCycle e (err.val == 2) false else s)

/-- SET (R260). -/
def execSetAcc (t : Nat) (e : Fin 1088) (s : State) : Outcome :=
  let s := s.advance t
  .next (s.cycleIf (s.atStage e Engine.m2 fun n => nArith n == 1) e)

/-- ADD (R260). -/
def execAdd (t : Nat) (e : Fin 1088) (s : State) : Outcome :=
  let s := s.advance t
  .next (s.cycleIf (s.atStage e Engine.m2 fun n => nArith n == 2) e)

/-- SUB (R260). -/
def execSub (t : Nat) (e : Fin 1088) (s : State) : Outcome :=
  let s := s.advance t
  .next (s.cycleIf (s.atStage e Engine.m2 fun n => nArith n == 3) e)

/-- CLR (R263). -/
def execClr (t : Nat) (e : Fin 1088) (s : State) : Outcome :=
  let s := s.advance t
  .next (s.cycleIf (s.atStage e Engine.m2 fun n => nArith n == 4) e)

/-- LDX (R263). -/
def execLdx (t : Nat) (e : Fin 1088) (s : State) : Outcome :=
  let s := s.advance t
  .next (s.cycleIf (s.atStage e Engine.m2 fun n => nArith n == 5) e)

/-- RESTORE (R266). -/
def execRestore (t : Nat) (e : Fin 1088) (s : State) : Outcome :=
  let s := s.advance t
  .next (s.cycleIf (s.atStage e Engine.m2 fun n => nArith n == 6) e)

/-- SRCH (R267). -/
def execSrch (t : Nat) (e : Fin 1088) (s : State) : Outcome :=
  let s := s.advance t
  .next (s.cycleIf (s.atStage e Engine.m2 fun n => nArith n == 7) e)

/-- SINIT (R267). -/
def execSinit (t : Nat) (e : Fin 1088) (s : State) : Outcome :=
  let s := s.advance t
  .next (s.cycleIf (s.atStage e Engine.m2 fun n => nArith n == 8) e)

/-- NORM (R268). -/
def execNorm (t : Nat) (e : Fin 1088) (s : State) : Outcome :=
  let s := s.advance t
  .next (s.cycleIf (s.atStage e Engine.m2 fun n => nArith n == 9) e)

/-- STORE (R264, R265). -/
def execStore (t : Nat) (e : Fin 1088) (s : State) : Outcome :=
  let s := s.advance t
  .next (s.cycleIf (s.atStage e Engine.wb fun n => nStore n == 1) e)

/-- PAIR_STORE (R264). -/
def execPairStore (t : Nat) (e : Fin 1088) (s : State) : Outcome :=
  let s := s.advance t
  .next (s.cycleIf (s.atStage e Engine.wb fun n => nStore n == 2) e)

/-- RAW_SAVE (R266). -/
def execRawSave (t : Nat) (e : Fin 1088) (s : State) : Outcome :=
  let s := s.advance t
  .next (s.cycleIf (s.atStage e Engine.wb fun n => nStore n == 3) e)

/-- REGISTER_STORE (R284). -/
def execRegisterStore (t : Nat) (e : Fin 1088) (s : State) : Outcome :=
  let s := s.advance t
  .next (s.cycleIf (s.atStage e Engine.wb fun n => nStore n == 4) e)

/-- REGISTER_TRANSFER_IMMEDIATE (R281). -/
def execRegisterTransferImmediate (t : Nat) (e : Fin 1088) (s : State) : Outcome :=
  let s := s.advance t
  .next (s.cycleIf (s.atStage e Engine.nf fun n => nRtOp n == 1) e)

/-- REGISTER_TRANSFER (R281). -/
def execRegisterTransfer (t : Nat) (e : Fin 1088) (s : State) : Outcome :=
  let s := s.advance t
  .next (s.cycleIf (s.atStage e Engine.nf fun n => nRtOp n == 2) e)

/-- SEND (R270). -/
def execSend (t : Nat) (e : Fin 1088) (s : State) : Outcome :=
  let s := s.advance t
  .next (s.cycleIf (s.atStage e Engine.nf fun n => nCtl n == 1) e)

/-- RXFREE (R269). -/
def execRxfree (t : Nat) (e : Fin 1088) (s : State) : Outcome :=
  let s := s.advance t
  .next (s.cycleIf (s.atStage e Engine.nf fun n => nCtl n == 2) e)

/-- EVACK (R287). -/
def execEvack (t : Nat) (e : Fin 1088) (s : State) : Outcome :=
  let s := s.advance t
  .next (s.cycleIf (s.atStage e Engine.nf fun n => nCtl n == 3) e)

/-! ### Receive and send (R269, R270, R274, R293) -/

/-- Does the store about to be written meet an element (R274)? -/
def Engine.storeMeets (x : Engine) (bank a : Nat) : Bool :=
  match x.wb with
  | some u =>
    let n := u.nano
    let wide := nStore n == 2 || nStore n == 3 || (nStore n == 1 && nStFmt n == 4)
      || (nStore n == 4 && ((decide (8 ≤ nStReg n) && decide (nStReg n < 12)) || nStReg n == 0x1A))
    nStore n != 0 && nStBank n == bank && (if wide then u.sa / 2 == a / 2 else u.sa == a)
  | none => false

/-- The words of a flit go into the receive area; a word that meets a store is discarded and counted. -/
def Engine.takeFlit (x : Engine) (base : Nat) : Nat → List Nat → Engine × Nat
  | _, [] => (x, 0)
  | k, w :: ws =>
    let a := (base + k) % 4096
    let y := if x.storeMeets x.rxBank a then x else x.setElem x.rxBank a w
    let r := y.takeFlit base (k + 1) ws
    (r.1, r.2 + b2n (x.storeMeets x.rxBank a))

/-- A complete unit (R269, R288): counted in rxn when its frame is the one being worked on. -/
def Engine.unitDone (x : Engine) : Engine :=
  let cur := x.busy && x.frames.length == 1
  let fs := match x.frames.getLast? with
    | some f => x.frames.dropLast ++ [{ f with units := f.units + 1 }]
    | none => []
  let y := { x with rxFlits := 0, rxSlot := (x.rxSlot + 1) % max 1 x.rxUnits, unreleased := x.unreleased + 1, frames := fs }
  if cur then y.put 0x19 ((y.raw 0x19 + 1) % 65536) else y.startFrame

/-- An error that a flit met on its way to engine `e` (R26): 1 and 2 in the network, 3 and 4 in a die-to-die bridge, the odd ones corrected; one that is
not corrected marks the records of the pipeline that carry the data as damaged. -/
def State.flitError (s : State) (e err : Nat) : State :=
  let i := if err ≤ 2 then 2 else 3
  if err = 0 then s
  else if err % 2 = 1 then s.countCorrected i
  else
    let s1 := match (s.eng e).slot with
      | some n => s.setPipe n { s.pipeS n with damaged := true }
      | none => s
    (s1.countUncorrected i).faultLog 6 (i + 1) (e / 17) ((s.eng e).slot.getD 0xFF) 0 0

/-- RECEIVE_FLIT (R269): 16 elements arrive; `frame` is given with the first flit of a frame: tag (TIME128), index, input flags,
input, epoch; `err` is an error on the way (R26). -/
def execReceiveFlit (t : Nat) (e : Fin 1088) (words : List Nat) (frame : Option (Nat × Nat × Nat × Nat × Nat)) (err : Fin 5) (s : State) :
    Outcome :=
  let s := (s.advance t).flitError e err
  let x := s.eng e
  .next (if x.st != 2 || s.lost e then s
    else if x.rxFlits == 0 && decide (x.rxUnits ≤ x.unreleased) then
      (s.setEng e x.halt).clusterFault (e / 17) 3 e [e.val]
    else
      let x1 : Engine := match frame with
        | some (tag, ix, fl, inp, ep) =>
          { x with frames := x.frames ++ [{ tag := tag, index := ix, flags := fl, input := inp, epoch := ep }] }
        | none => x
      let r := x1.takeFlit (x.rxBase + 16 * (x.rxSlot * x.rxUnitFlits + x.rxFlits)) 0 (words.take 16)
      let x2 : Engine := { r.1 with rxFlits := x.rxFlits + 1 }
      (s.bumpBy Ob.diagReceiveCollisions r.2).setEng e (if x2.rxFlits < x2.rxUnitFlits then x2 else x2.unitDone))

/-- The Kind of an engine's flow; 5 for one its image does not declare. -/
def Engine.flowKind (x : Engine) (f : Nat) : Nat :=
  match x.flows.find? fun y => y.1 == f with
  | some y => y.2.1
  | none => 5

/-- The octets of elements. -/
def elemBytes (l : List Nat) : Bytes := l.flatMap fun w => leBytes 4 w

/-- The record that a complete SEND on a record flow carries (R293); none when its flit count is not Length / 64. -/
def sentRecord (n epoch flits : Nat) (b : Bytes) : Option Rec :=
  let h := leNat (b.take 64)
  if bits h 479 448 = 64 * flits then
    some { kind := bits h 511 504, slot := n, epoch := epoch, time := bits h 447 320, flags := bits h 223 208
           gapLength := bits h 207 176, body := b.drop 64 }
  else none

/-- An uncorrectable error in the send unit's read of a SEND (R247, R274): the SEND's microword and every later one do no more; those before it complete
(DEDUCED, log entry 185). -/
def Engine.haltSend (x : Engine) (q : SendReq) : Engine :=
  let d := (x.raw 0x1A + 2 ^ 64 - q.cycle) % 2 ^ 64
  ({ x with
    m1 := if 2 ≤ d then none else x.m1
    m2 := if 3 ≤ d then none else x.m2
    wb := if 4 ≤ d then none else x.wb } : Engine).halt

/-- The engine of the target stage of a stage flow that takes a frame, in the admitted rotation (R269, R293). -/
def State.flowTarget (s : State) (e : Nat) (q : SendReq) : Option Nat :=
  let x := s.eng e
  match x.slot, x.flows.find? fun y => y.1 == q.flow with
  | some n, some fl =>
    let l := (s.slot n).placement.engines
    let own := ((l.find? fun p => p.physical == e).map fun p => p.channel).getD 0xFFF
    let ts := l.filter fun p => p.stage == fl.2.2 && (p.channel == own || p.channel == 0xFFF || own == 0xFFF)
    let turn := (q.frame.elim 0 fun f => f.index) % max 1 ts.length
    (ts.find? fun p => p.rotation == turn).map fun p => p.physical
  | _, _ => none

/-- No output of a frame tagged in a declared gap is produced (R500). -/
def State.sendLost (s : State) (x : Engine) (q : SendReq) : Bool :=
  match x.slot, q.frame with
  | some n, some f => s.inGap n f.input (s.unstamp f.tag)
  | _, _ => false

/-- A record SEND is complete: the record takes the epoch of its frame (R68), or it is discarded and counted. -/
def State.sendTaken (s : State) (x : Engine) (q : SendReq) : State :=
  match x.slot with
  | some n => match sentRecord n (q.frame.elim (s.rd (Ob.slotEpoch n)) fun f => f.epoch) q.total (elemBytes q.sent) with
    | some r => s.queueRecord n r
    | none => s.bump Ob.diagDiscardedSends
  | none => s

/-- The send queue of an engine; with the last request of a stopped engine its slot goes (R243). -/
def Engine.withSends (x : Engine) (l : List SendReq) : Engine :=
  { x with sends := l, slot := if l.isEmpty && x.st != 1 && x.st != 2 then none else x.slot }

/-- The send unit reads and sends the next flit of request `q`. -/
def State.sendNext (s : State) (e : Nat) (q : SendReq) (qs : List SendReq) : State :=
  let x := s.eng e
  let words := (List.range 16).map fun k => x.elem q.bank (q.elem + k)
  let kind := x.flowKind q.flow
  let q1 := { q with elem := (q.elem + 16) % 4096, left := q.left - 1, sent := if kind = 1 then q.sent ++ words else [], lead := false }
  let s1 := s.setEng e (x.withSends (if q1.left = 0 then qs else q1 :: qs))
  if s.sendLost x q then s1
  else if kind = 1 then (if q1.left = 0 then s1.sendTaken x q1 else s1)
  else s1.emit (.flit e q.flow kind (if kind = 0 then s.flowTarget e q else none)
    (if q.lead then q.frame.map fun f => (f.tag, f.index, f.flags) else none) words)

/-- SEND_FLIT (R270): the next flit of the oldest request is read and sent; a record whose SEND has the wrong length is discarded and
counted (R293). `err` as R247 on the read. -/
def execSendFlit (t : Nat) (e : Fin 1088) (err : Fin 3) (s : State) : Outcome :=
  let s := s.advance t
  let x := s.eng e
  .next (match x.sends with
    | [] => s
    | q :: qs =>
      let s0 := s.memError err
      if err.val ≠ 2 then s0.sendNext e q qs
      else if x.st = 2 then (s0.setEng e (({ x with sends := qs } : Engine).haltSend q)).clusterFault (e / 17) 2 e [e.val]
      else s0.setEng e (x.withSends qs))

/-! ### Faults, events and start -/

/-- A watchdog has tripped: assumption 4 is seen violated until the engine's diagnosis (DEDUCED, log entry 166). -/
def State.trip (s : State) (e : Nat) : State :=
  let s1 := s.assume 4
  { s1 with life := { s1.life with tripped := e :: s1.life.tripped } }

/-- WATCHDOG_TRIP (R66): an engine past 4,160 cycles without a safe point halts; assumption 4 is seen violated. -/
def execWatchdogTrip (t : Nat) (e : Fin 1088) (s : State) : Outcome :=
  let s := s.advance t
  let x := s.eng e
  .next (if x.st == 2 && decide (4160 ≤ x.sinceSafe) then
      ((s.setEng e x.halt).trip e).clusterFault (e / 17) 1 e [e.val] else s)

/-- EVENT_CANCEL (R287): the armed commit at `tc` (TIME128) is withdrawn; a Loaded engine, which has no routine running, only forgets it. -/
def execEventCancel (t : Nat) (e : Fin 1088) (tc : Nat) (s : State) : Outcome :=
  let s := s.advance t
  let x := s.eng e
  .next (if x.st == 1 then s.setEng e { x with armed := none } else if x.st != 2 then s
    else s.setEng e (({ x with armed := none } : Engine).issue { code := 2, tc := tc, bank := 1 - x.bank }))

/-- EVENT_STOP (R287): the engine leaves Running at its next yield after the acknowledgement. -/
def execEventStop (t : Nat) (e : Fin 1088) (s : State) : Outcome :=
  let s := s.advance t
  let x := s.eng e
  .next (if x.st != 2 then s else s.setEng e (x.issue { code := 3 }))

/-- EVENT_SAVESTATE (R287). -/
def execEventSavestate (t : Nat) (e : Fin 1088) (s : State) : Outcome :=
  let s := s.advance t
  let x := s.eng e
  .next (if x.st != 2 then s else s.setEng e (x.issue { code := 4 }))

/-- ENGINE_START (R300): a Loaded engine starts Running at Entry with its registers at reset, when the first frame of its stage is
due. -/
def execEngineStart (t : Nat) (e : Fin 1088) (s : State) : Outcome :=
  let s := s.advance t
  let x := s.eng e
  .next (if x.st != 1 then s else s.setEng e { x with st := 2, pc := x.entry, r := [], sinceSafe := 0 }.startFrame)

/-! ### Debug access (R248) -/

/-- A 32-bit word of the engine's aperture. -/
def Engine.aperture (x : Engine) (o : Nat) : Nat :=
  let half := fun (v : Nat) => if o % 8 < 4 then v % 2 ^ 32 else v / 2 ^ 32 % 2 ^ 32
  if o < 0x4000 then x.elem 0 (o / 4)
  else if o < 0x8000 then x.elem 1 (o / 4)
  else if o < 0xA000 then tget (dconst 0) x.micro ((o - 0x8000) / 4)
  else if o < 0xB800 then tget (dconst 0) x.nano ((o - 0xA000) / 24) / 2 ^ (8 * ((o - 0xA000) % 24 / 4 * 4)) % 2 ^ 32
  else if o < 0xC000 then 0
  else if o < 0xC020 then x.raw ((o - 0xC000) / 4)
  else if o < 0xC040 then half (x.raw (8 + (o - 0xC020) / 8))
  else if o < 0xC050 then x.raw (0x0C + (o - 0xC040) / 4)
  else if o < 0xC068 then x.raw (0x10 + (o - 0xC050) / 4)
  else if o < 0xC06C then x.status
  else if o < 0xC070 then x.raw 0x17
  else if o < 0xC074 then x.raw 0x18
  else if o < 0xC078 then x.raw 0x19
  else if 0xC080 ≤ o ∧ o < 0xC0A0 then
    let k := (o - 0xC080) / 16
    half (uint 64 (if o % 16 < 8 then x.accRe k else x.accIm k))
  else if 0xC0A0 ≤ o ∧ o < 0xC0A8 then half (x.raw 0x1A)
  else 0

/-- Write a 32-bit word of the aperture. -/
def Engine.setAperture (x : Engine) (o v : Nat) : Engine :=
  let w := v % 2 ^ 32
  let half := fun (old : Nat) => if o % 8 < 4 then old / 2 ^ 32 * 2 ^ 32 + w else old % 2 ^ 32 + w * 2 ^ 32
  if o < 0x4000 then x.setElem 0 (o / 4) w
  else if o < 0x8000 then x.setElem 1 (o / 4) w
  else if o < 0xA000 then { x with micro := tset (dconst 0) x.micro ((o - 0x8000) / 4) w }
  else if o < 0xB800 then
    let k := (o - 0xA000) % 24 / 4
    let old := tget (dconst 0) x.nano ((o - 0xA000) / 24)
    { x with nano := tset (dconst 0) x.nano ((o - 0xA000) / 24) (setBits old (32 * k + 31) (32 * k) w) }
  else if o < 0xC000 then x
  else if o < 0xC020 then x.writeReg ((o - 0xC000) / 4) w
  else if o < 0xC040 then x.writeReg (8 + (o - 0xC020) / 8) (half (x.raw (8 + (o - 0xC020) / 8)))
  else if o < 0xC050 then x.writeReg (0x0C + (o - 0xC040) / 4) w
  else if o < 0xC068 then x.writeReg (0x10 + (o - 0xC050) / 4) w
  else if o < 0xC06C then x.writeReg 0x16 w
  else if o < 0xC070 then x.writeReg 0x17 w
  else if o < 0xC074 then x.writeReg 0x18 w
  else if 0xC080 ≤ o ∧ o < 0xC0A0 then
    let k := (o - 0xC080) / 16
    if o % 16 < 8 then x.setAcc k (sint 48 (half (uint 64 (x.accRe k)))) (x.accIm k)
    else x.setAcc k (x.accRe k) (sint 48 (half (uint 64 (x.accIm k))))
  else x

/-- An admitted pipeline holds the engine. -/
def State.held (s : State) (e : Nat) : Bool := !(s.slotsOn [e]).isEmpty

/-- DEBUG_READ (R248): a 32-bit read through the aperture. -/
def execDebugRead (t : Nat) (e : Fin 1088) (offset : Nat) (s : State) : Outcome :=
  let s := s.advance t
  .next ((s.debugTouch (e.val / 17)).emit (.debug e offset ((s.eng e).aperture (offset % 65536)) true))

/-- DEBUG_WRITE (R248): made on an engine in Free, Loaded or Halted that no admitted pipeline holds, else discarded with an access
error. -/
def execDebugWrite (t : Nat) (e : Fin 1088) (offset value : Nat) (s : State) : Outcome :=
  let s := (s.advance t).debugTouch (e.val / 17)
  let x := s.eng e
  .next (if !s.held e && (x.st == 0 || x.st == 1 || x.st == 3) then
      (s.setEng e (x.setAperture (offset % 65536) value)).emit (.debug e offset value true)
    else s.emit (.debug e offset value false))

/-! ### Images (R297, R299, R301) -/

/-- The stage entries of a slot (R298). -/
def State.stageList (s : State) (n : Nat) : List Nat :=
  let b := s.dom (Ob.slotStages n)
  (List.range (b.length / 8)).map fun k => leAt b (8 * k) 8

/-- An engine that slot `n` holds satisfies `p`. -/
def State.runsOn (s : State) (n : Nat) (p : Engine → Bool) : Bool := (s.placed n).any fun e => (s.eng e).slot == some n && p (s.eng e)

/-- The pipelines in use whose stages use microimage `i`, a user image or a resident one (R297). -/
def State.microUsers (s : State) (i : Nat) : List Nat :=
  (List.range 64).filter fun n => s.active n
    && ((s.rd (Ob.slotMode n) == 6 && (s.stageList n).any fun v => bits v 59 54 == i) || s.runsOn n fun x => x.image == i)

/-- The same of nanoimage `i`. -/
def State.nanoUsers (s : State) (i : Nat) : List Nat :=
  (List.range 64).filter fun n => s.active n
    && ((s.rd (Ob.slotMode n) == 6 && (s.stageList n).any fun v => bits v 53 48 == i) || s.runsOn n fun x => x.nimage == i)

/-- Load of a microimage: aborts while the image has owning pipelines (R299). -/
def microLoad (i : Nat) : Act := fun s =>
  if !(s.microUsers i).isEmpty then .error Abort.state else .ok (s.loadMicro i)

/-- MICROIMAGE_LOAD (R299). -/
def execMicroimageLoad (t : Nat) (image : Fin 64) (s : State) : Outcome := .next (s.serve t (microLoad image))

/-- Load of a nanoimage (R299). -/
def nanoLoad (i : Nat) : Act := fun s =>
  if !(s.nanoUsers i).isEmpty then .error Abort.state else .ok (s.loadNano i)

/-- NANOIMAGE_LOAD (R299). -/
def execNanoimageLoad (t : Nat) (image : Fin 64) (s : State) : Outcome := .next (s.serve t (nanoLoad image))

/-- Verify (R297, R301): checks 1 to 6 on microimage `i` with nanoimage `j`. -/
def imageVerify (i j : Nat) : Act := fun s =>
  if 63 < j then .error Abort.range
  else
    let r := s.verifyPair i j 6
    .ok ((r.2.noted (Ob.mimgVerify i)).wr (Ob.mimgVerify i) r.1)

/-- IMAGE_VERIFY (R301). -/
def execImageVerify (t : Nat) (image : Fin 64) (nano : Nat) (s : State) : Outcome :=
  .next (s.serve t (imageVerify image nano))

end Sys2Proof.Machine
end

