-- ==== Sys2Proof/Machine/TimeBase.lean ====
section
/-! DEFINITION. Device time: steps, SYNC_IN, the timing stream (spec/17_time_tdc.md R426-R437). -/

namespace Sys2Proof.Machine

open Sys2Proof

/-- SetSeconds (R431): pending for the next second boundary; a later write replaces a pending value. -/
def setSeconds (v : Nat) : Act := fun s =>
  if !s.counts || s.stepForbidden then .error Abort.state
  else if 2 ^ 48 ≤ v then .error Abort.range
  else .ok { s with time := { s.time with setPending := some v, setStatus := some 0 } }

/-- SET_SECONDS (R431). -/
def execSetSeconds (t value : Nat) (s : State) : Outcome := .next (s.serve t (setSeconds value))

/-- The RTC's second boundary: it counts, and the first Locked's step happens at it (R430). -/
def State.rtcSecond (s : State) : State :=
  let r := s.time.rtcSeconds + 1
  let s1 := { s with time := { s.time with rtcSeconds := r } }
  if s1.time.awaitRtc && s1.synRuns then s1.step430 ((r * s1.second : Nat) : Int) 0 none false else s1

/-- The pending SetSeconds takes effect (R431): a step of Class 1. -/
def State.takeSeconds (s : State) (v : Nat) : State :=
  let s1 := s.step430 ((v * s.second + s.devNow % s.second : Nat) : Int) 1 none true
  { s1 with time := { s1.time with setStatus := some 1 } }

/-- A second boundary of device time: a pending SetSeconds takes effect (R430, R431), and an RTC that awaits realignment takes the Seconds
of the second just begun. -/
def State.deviceSecond (s : State) : State :=
  if !s.counts then s
  else
    let s1 := match s.time.setPending with
      | some v => s.takeSeconds v
      | none => s
    if s.time.rtcRealign then
      { s1 with time := { s1.time with
          rtcSeconds := s1.devNow / s1.second
          rtcRealign := decide (s.time.setPending ≠ none) } }
    else s1

/-- SECOND_BOUNDARY of the RTC or of device time (R430, R431). -/
def execSecondBoundary (t : Nat) (rtc : Bool) (s : State) : Outcome :=
  let s := s.advance t
  .next (if rtc then s.rtcSecond else s.deviceSecond)

/-- Fine read as signed about 0: above half a second it counts as Fine - 256 * f_T (R432). -/
def signedFine (second fine : Nat) : Int := if second < 2 * fine then (fine : Int) - second else fine

/-- A stamped SYNC_IN edge (R432, R433); `st` is the stamp at the ball less SyncDelay, in u_T. -/
def State.syncEdge (s : State) (st : Nat) : State :=
  let s0 := { s with time := { s.time with syncEdgeAt := some s.now } }
  let mode := s.rd Ob.timeSyncMode
  if mode = 1 then s0.wr Ob.timeSyncLast (s.stamp st)
  else if mode = 2 then
    if s.rd Ob.timeSyncState = 1 ∧ s.time.syncArmedAt + s.us 1000 ≤ s.now then
      if s.stepForbidden then s0.wr Ob.timeSyncState 3
      else
        let edge := s.rd Ob.timeSyncSeconds * s.second
        let s1 := s0.step430 ((edge : Int) + sint 32 (s.rd Ob.timeSyncDelay)) 2 none true
        ((s1.wr Ob.timeSyncState 2).wr Ob.timeSyncMode 3).wr Ob.timeSyncLast (s1.stamp edge)
    else s0.wr Ob.timeSyncLast (s.stamp st)
  else
    let r := signedFine s.second (st % s.second)
    let s1 := (s0.wr Ob.timeSyncLast (s.stamp st)).wr Ob.timeSyncResidual (uint 64 r)
    if r.natAbs ≤ s.rd Ob.timeSyncTolerance then { s1 with time := { s1.time with syncGoodAt := some s.now } } else s1

/-- Less than 100 ms have passed since the previous stamped edge. -/
def State.syncSoon (s : State) : Bool :=
  match s.time.syncEdgeAt with
  | some a => decide (s.now < a + s.us 100000)
  | none => false

/-- SYNC_IN_EDGE (R432): no stamp with SyncMode Off, within 100 ms of the previous stamped edge, or while device time does not
count. -/
def execSyncInEdge (t : Nat) (s : State) : Outcome :=
  let s := s.advance t
  .next (if s.rd Ob.timeSyncMode == 0 || s.syncSoon || !s.counts then s
    else s.syncEdge ((s.devNow : Int) - sint 32 (s.rd Ob.timeSyncDelay)).toNat)

/-- SyncArm (R433, R430). -/
def syncArm : Act := fun s =>
  if s.rd Ob.timeSyncMode != 2 || s.stepForbidden then .error Abort.state
  else
    let s1 := s.wr Ob.timeSyncState 1
    .ok { s1 with time := { s1.time with syncArmedAt := s1.now } }

/-- SYNC_ARM (R433). -/
def execSyncArm (t : Nat) (s : State) : Outcome := .next (s.serve t syncArm)

/-! ### Timing stream -/

/-- Sender time of a message, in u_T of this device (R434: a millisecond holds a whole number of blocks). -/
def State.msgTime (s : State) (m : StreamMsg) : Nat := m.seconds * s.second + m.milli * s.second / 1000

/-- The millisecond that follows a message's (R436). -/
def StreamMsg.follows (m p : StreamMsg) : Bool :=
  m.seconds * 1000 + m.milli == p.seconds * 1000 + p.milli + 1

/-- The mean of a list of residuals, rounded down (log entry 10). -/
def meanInt (l : List Int) : Int := if l.length = 0 then 0 else Int.fdiv l.sum l.length

/-- In Valid, a Mark's residual enters the last 64 and StreamResidual is their mean (R436); after Adopt, StreamMismatch
follows StreamTolerance (R437). -/
def State.markResidual (s : State) (m : StreamMsg) : State :=
  let r := (s.devNow : Int) - (s.msgTime m : Int) - sint 32 (s.rd Ob.timeStreamInDelay)
  let l := (r :: s.time.residuals).take 64
  let mean := meanInt l
  let s1 := s.wr Ob.timeStreamResidual (uint 32 mean)
  let tol := s.rd Ob.timeStreamTolerance
  let s2 := { s1 with time := { s1.time with residuals := l } }
  if s.time.cls = 3 then
    if tol < mean.natAbs then
      (s2.wr Ob.timeStreamMismatch 1 : State) |> fun s => { s with time := { s.time with streamConfirms := false } }
    else if 2 * mean.natAbs ≤ tol then
      (s2.wr Ob.timeStreamMismatch 0 : State) |> fun s => { s with time := { s.time with streamConfirms := true } }
    else s2
  else s2

/-- The message names the millisecond after the latest valid Mark's, or there is none yet. -/
def State.inSequence (s : State) (m : StreamMsg) : Bool :=
  match s.time.lastMsg with
  | some p => m.follows p
  | none => true

/-- A valid Mark is taken (R436): it counts, the sixteenth makes the stream Valid, and in Valid it enters the residual while time counts. -/
def State.takeMark (s : State) (m : StreamMsg) : State :=
  let s1 := { s with time := { s.time with marks := s.time.marks + 1, lastMsg := some m, lastMarkAt := some s.now } }
  let s2 := s1.wr Ob.timeUpstreamQuality (m.quality % 256)
  let s3 := if s2.rd Ob.timeStreamState = 1 ∧ 16 ≤ s2.time.marks then s2.wr Ob.timeStreamState 2 else s2
  if s3.rd Ob.timeStreamState = 2 ∧ s3.counts then s3.markResidual m else s3

/-- STREAM_MARK_RECEIVE (R436): a Mark is valid when its CRC passes and it names the millisecond after the previous valid
one; 16 consecutive valid Marks make the stream Valid. -/
def execStreamMarkReceive (t seconds milli quality epoch descriptor : Nat) (crcOk : Bool) (s : State) : Outcome :=
  let s := s.advance t
  let m : StreamMsg := { seconds := seconds, milli := milli, quality := quality, epoch := epoch, descriptor := descriptor }
  let st := s.rd Ob.timeStreamState
  .next (if !s.rdB Ob.timeStreamInEnable || (st != 1 && st != 2) then s
    else
      if crcOk && s.inSequence m then s.takeMark m
      else if crcOk then { s with time := { s.time with marks := 0, lastMsg := some m } }
      else { s with time := { s.time with marks := 0 } })

/-- The time message of a Mark sent now (R435). -/
def State.timeMsg (s : State) : StreamMsg :=
  { seconds := s.devNow / s.second % 2 ^ 48
    milli := s.devNow % s.second * 1000 / s.second
    quality := s.quality
    epoch := s.rd Ob.timeTimeEpoch
    descriptor := s.descriptor }

/-- The time message of R435, 256 bits; its Crc32 is taken over the octets of [255:32] as they are stored. -/
def StreamMsg.word (m : StreamMsg) : Nat :=
  let body := m.seconds % 2 ^ 48 * 2 ^ 208 + m.milli * 2 ^ 198 + m.quality % 256 * 2 ^ 190 + m.epoch % 2 ^ 32 * 2 ^ 158
    + m.descriptor % 2 ^ 32 * 2 ^ 126
  body + crc32 (leBytes 28 (body / 2 ^ 32))

/-- The control block of a Mark (R435): block type 0x4B, then the 56-bit constant. -/
def markBlock : Nat := 0x4B * 2 ^ 56 + 0x54_4E54_4D00_0000

/-- STREAM_MARK_SEND (R435). -/
def execStreamMarkSend (t : Nat) (s : State) : Outcome :=
  let s := s.advance t
  .next (if s.rdB Ob.timeStreamOutEnable && s.counts then s.emit (.mark markBlock s.timeMsg.word) else s)

/-- STREAM_LOST_TIMEOUT: Valid ends because no valid Mark arrived for 10 ms (R436). -/
def execStreamLostTimeout (t : Nat) (s : State) : Outcome :=
  let s := s.advance t
  .next (if s.rd Ob.timeStreamState = 2 then
      let s1 := s.wr Ob.timeStreamState 3
      { s1 with time := { s1.time with marks := 0, lastMsg := none, residuals := [], streamLock := false } }
    else s)

/-- TIMING_STREAM_BLOCK_LOCK: Absent or Lost goes to Locking (R436). -/
def execTimingStreamBlockLock (t : Nat) (s : State) : Outcome :=
  let s := s.advance t
  .next (if s.rdB Ob.timeStreamInEnable ∧ (s.rd Ob.timeStreamState = 0 ∨ s.rd Ob.timeStreamState = 3) then
      let s1 := (s.wr Ob.timeStreamState 1).setQuad 35 0
      { s1 with time := { s1.time with marks := 0, lastMsg := none, residuals := [], streamLock := true } }
    else s)

/-- StreamState becomes Absent (R436). -/
def State.streamAbsent (s : State) : State :=
  let s1 := s.wr Ob.timeStreamState 0
  { s1 with time := { s1.time with marks := 0, lastMsg := none, residuals := [], streamLock := false } }

/-- TIMING_STREAM_SIGNAL_LOSS (R436). -/
def execTimingStreamSignalLoss (t : Nat) (s : State) : Outcome := .next (s.advance t).streamAbsent

/-- Adopt (R437): device time steps so that StreamResidual becomes zero, and takes the sender's TimeEpoch. -/
def adopt : Act := fun s =>
  if s.rd Ob.timeStreamState != 2 || !s.counts || s.stepForbidden then .error Abort.state
  else match s.time.lastMsg with
    | none => .error Abort.state
    | some m =>
      let s1 := s.step430 ((s.devNow : Int) - sint 32 (s.rd Ob.timeStreamResidual)) 3 (some m.epoch) true
      let s2 := (s1.wr Ob.timeStreamResidual 0).wr Ob.timeStreamMismatch 0
      .ok { s2 with time := { s2.time with residuals := [], streamConfirms := true } }

/-- ADOPT (R437). -/
def execAdopt (t : Nat) (s : State) : Outcome := .next (s.serve t adopt)

end Sys2Proof.Machine
end

