-- ==== Sys2Proof/Machine/Package.lean ====
section
/-! DEFINITION. The test access port and the lane quads (spec/23_package_electrical.md R566-R569), the diagnostics commands (spec/20_lifetime.md R521). -/

namespace Sys2Proof.Machine

open Sys2Proof

/-! ### Boundary scan (R566) -/

/-- An EXTEST-class instruction is accepted: every slot Empty or Described, every ingest link Disabled, SYN-T Off. -/
def State.tapFree (s : State) : Bool :=
  !s.anyActive && ((List.range 16).all fun j => s.rd (Ob.linkLinkState j) == 0) && s.rd Ob.synState == 0

/-- An instruction is loaded. An EXTEST-class one that is not accepted gives BYPASS, and the next capture says so. -/
def State.tapLoad (s : State) (i : Nat) : State :=
  let hard := [0x00, 0x03, 0x04, 0x05, 0x06].contains i
  if hard && !s.tapFree then { s with tap := { s.tap with instr := 0xFF, refused := true, sessions := [] } }
  else { s with tap := { s.tap with instr := i, refused := false, sessions := if i = 0x10 then s.tap.sessions else [] } }

/-- What the instruction register captures (R566). -/
def State.tapCapture (s : State) : Nat := if s.tap.refused then 5 else 1

/-- Shift an instruction in: the capture of the previous one comes out. -/
def State.tapShift (s : State) (i : Nat) : State := (s.emit (.tdo s.tapCapture)).tapLoad i

/-- Instructions that drive the pins with what the boundary cells hold. -/
def State.tapDrive (s : State) (i : Nat) : State :=
  let s1 := s.tapShift i
  if s1.tap.instr = i then s1.emit (.pins i (if i = 0x03 then [] else s1.tap.cells)) else s1

/-- EXTEST: new values for the cells are shifted in and driven. -/
def execExtest (t : Nat) (cells : List Bool) (s : State) : Outcome :=
  let s1 := (s.advance t).tapShift 0x00
  .next (if s1.tap.instr = 0x00 then
      ({ s1 with tap := { s1.tap with cells := cells } } : State).emit (.pins 0x00 cells)
    else s1)
/-- HIGHZ. -/
def execHighz (t : Nat) (s : State) : Outcome := .next ((s.advance t).tapDrive 0x03)
/-- CLAMP. -/
def execClamp (t : Nat) (s : State) : Outcome := .next ((s.advance t).tapDrive 0x04)
/-- EXTEST_PULSE (IEEE 1149.6). -/
def execExtestPulse (t : Nat) (s : State) : Outcome := .next ((s.advance t).tapDrive 0x05)
/-- EXTEST_TRAIN (IEEE 1149.6). -/
def execExtestTrain (t : Nat) (s : State) : Outcome := .next ((s.advance t).tapDrive 0x06)
/-- IDCODE. -/
def execIdcode (t : Nat) (s : State) : Outcome := .next (((s.advance t).tapShift 0x01).emit (.tdo 0x2A4007EB))
/-- SAMPLE_PRELOAD: the cells take the values shifted in; the pins stay with the device. -/
def execSamplePreload (t : Nat) (cells : List Bool) (s : State) : Outcome :=
  let s1 := (s.advance t).tapShift 0x02
  .next { s1 with tap := { s1.tap with cells := cells } }
/-- DEBUG. -/
def execDebug (t : Nat) (s : State) : Outcome := .next ((s.advance t).tapShift 0x10)
/-- BYPASS, with any code that the table does not list. -/
def execBypass (t : Nat) (s : State) : Outcome := .next ((s.advance t).tapShift 0xFF)
/-- TAP_RESET: Test-Logic-Reset (log entry 30). -/
def execTapReset (t : Nat) (s : State) : Outcome :=
  let s := s.advance t
  .next { s with tap := {} }

/-! ### Lane quads (R567-R569) -/

def State.scanS (s : State) (q : Nat) : QuadScan := tget (dconst ({} : QuadScan)) s.scan q

def State.setScan (s : State) (q : Nat) (x : QuadScan) : State := { s with scan := tset (dconst ({} : QuadScan)) s.scan q x }

/-- LaneState of lane `l` of quad `q` (R567): 0 asleep, 1 training, 2 active, 3 faulted. -/
def State.laneState (s : State) (q l : Nat) : Nat :=
  let fault := tget (dconst 0) s.life.quadState q
  let up :=
    if q < 16 then
      match (List.range 16).find? fun j => s.rd (Ob.linkLinkState j) != 0 && (s.lanesOf j).contains (4 * q + l) with
      | some j => let st := s.rd (Ob.linkLinkState j)
        if st = 4 then 2 else if st = 6 then 3 else 1
      | none => 0
    else if q < 20 then (if 4 * (q - 16) + l < s.rd Ob.hlinkLinkWidth then 2 else if s.rd Ob.hlinkLinkWidth = 0 then 1 else 0)
    else if q < 26 then
      let k := q - 20
      if !s.rdB (Ob.storEnable k) then 0 else if l < s.rd (Ob.storLinkState k) % 256 then 2 else if s.rd (Ob.storLinkState k) = 0 then 1 else 0
    else if q < 34 then
      let k := (q - 26) / 2
      let st := s.rd (Ob.joinState k)
      if st = 0 then 0 else if st = 6 ∨ st = 5 then 2 else 1
    else if q = 34 then
      let st := s.rd Ob.dispState
      if st = 2 then 2 else if st = 1 then 1 else 0
    else if l < 2 then (if bit (s.rd Ob.primEnable) l then 2 else 0)
    else if l = 2 then (if !s.rdB Ob.timeStreamInEnable then 0 else if s.time.streamLock then 2 else 1)
    else if s.rdB Ob.timeStreamOutEnable then 2 else 0
  if fault ≠ 0 ∧ up ≠ 0 then 3 else up

/-- MarginScan of quad `q`: the lanes of a mask (R567). -/
def marginScan (q mask : Nat) : Act := fun s =>
  if (s.scanS q).running.isSome then .error Abort.state
  else if 16 ≤ mask then .error Abort.range
  else .ok (s.setScan q { running := some mask, result := some 1 })

/-- MARGIN_SCAN. -/
def execMarginScan (t : Nat) (q : Fin 36) (mask : Nat) (s : State) : Outcome := .next (s.serve t (marginScan q mask))

/-- MARGIN_SCAN_COMPLETE: 2,048 octets of counts for each lane scanned, lane 0 first; a lane that is retraining reads all ones (R569). -/
def execMarginScanComplete (t : Nat) (q : Fin 36) (counts : List (List (BitVec 8))) (s : State) : Outcome :=
  let s := s.advance t
  .next (match (s.scanS q).running with
    | some mask =>
      let lanes := bitsSet 4 mask
      let part := fun (x : Nat × Nat) =>
        if s.laneState q x.1 = 1 then List.replicate 2048 0xFF
        else let c := counts.getD x.2 []
          c.take 2048 ++ List.replicate (2048 - c.length) 0
      (s.setDom (Ob.quadScanResult q) (lanes.zipIdx.flatMap part)).setScan q { result := some 0 }
    | none => s)

/-- MARGIN_UPDATE: eye height and width of each active receiver. -/
def execMarginUpdate (t : Nat) (q : Fin 36) (eyes : List (Nat × Nat)) (s : State) : Outcome :=
  let s := s.advance t
  let one := fun (l : Nat) =>
    let e := eyes.getD l (0, 0)
    if s.laneState q l = 2 then leBytes 2 e.1 ++ leBytes 2 e.2 else List.replicate 4 0
  .next (s.setDom (Ob.quadMargin q) ((List.range 4).flatMap one))

/-- A scan of quad `q` that runs is abandoned without counts (R569). -/
def State.scanAbandon (s : State) (q : Nat) : State :=
  match (s.scanS q).running with
  | some _ => (s.setScan q { result := some 0 }).setDom (Ob.quadScanResult q) []
  | none => s

/-- LANE_QUAD_FAULT (R499, R568, R569): the fault is recorded, a scan of the quad is abandoned, and recovery follows the function: the links of
an ingest quad lose lock (R100), the host link goes down (R353), a drive's link is down (R378), a join port retrains (R406), the display
retrains, and the lanes of Q35 stop and start again. -/
def execLaneQuadFault (t : Nat) (q : Fin 36) (lane : Fin 4) (code : Fin 6) (s : State) : Outcome :=
  let s := s.advance t
  let k := q.val
  if code.val = 0 then .next s
  else
    let s1 := (s.scanAbandon k).quadFault k code
    let links := (List.range 16).filter fun j => (s1.quadsOf j).contains k
    .next (if k < 16 then links.foldl (fun s j => s.lockLoss j) s1
      else if k < 20 then s1.endpointReset true
      else if k < 26 then s1.wr (Ob.storLinkState (k - 20)) 0
      else if k < 34 then
        let p := (k - 26) / 2
        if s1.rd (Ob.joinState p) = 6 then s1.retrainPort p else s1
      else if k = 34 then (if s1.rd Ob.dispState = 2 ∨ s1.rd Ob.dispState = 3 then s1.displayRetrain else s1)
      else if lane.val < 2 then (if bit (s1.rd Ob.primEnable) lane then s1.laneStart lane else s1)
      else if lane.val = 2 then (if s1.rdB Ob.timeStreamInEnable then s1.streamAbsent else s1)
      else s1)

/-- ClearFault of a quad. -/
def quadClear (q : Nat) : Act := fun s => .ok (s.clr (Ob.quadFaultCode q))

/-- LANE_QUAD_CLEAR_FAULT. -/
def execLaneQuadClearFault (t : Nat) (q : Fin 36) (s : State) : Outcome := .next (s.serve t (quadClear q))

/-! ### Diagnostics (R521) -/

/-- ClearCounters of Diagnostics. -/
def diagClear : Act := fun s =>
  let s1 := s.wrs [(Ob.diagReceiveCollisions, 0), (Ob.diagDiscardedSends, 0), (Ob.diagDiscardedChanges, 0), (Ob.diagDiscardedHostWrites, 0)]
  .ok { s1 with life := { s1.life with corrected := [], uncorrected := [] } }

/-- DIAGNOSTICS_CLEAR_COUNTERS. -/
def execDiagnosticsClearCounters (t : Nat) (s : State) : Outcome := .next (s.serve t diagClear)

/-- ClearOverTemp. -/
def clearOverTemp : Act := fun s => .ok (s.clr Ob.hbmOverTemp)

/-- CLEAR_OVER_TEMP. -/
def execClearOverTemp (t : Nat) (s : State) : Outcome := .next (s.serve t clearOverTemp)

/-- Acknowledge of FaultLog (R521): entries up to the Sequence written count as read. -/
def faultAck (sq : Nat) : Act := fun s =>
  let unread := (s.life.faultCount - s.life.acked)
  let first := s.life.acked
  -- the entry among the unread whose Sequence is the one written
  match (List.range unread).find? fun i => (first + i) % 65536 == sq % 65536 with
  | some i =>
    let a := first + i + 1
    let s1 := ({ s with life := { s.life with acked := a } } : State).wr Ob.fltUnread ((s.life.faultCount - a) % 65536)
    .ok (s1.wr Ob.comErrorRegister (setBit (s1.rd Ob.comErrorRegister) 0 (decide (a < s.life.faultCount))))
  | none => .ok s

/-- FAULT_ACKNOWLEDGE. -/
def execFaultAcknowledge (t sq : Nat) (s : State) : Outcome := .next (s.serve t (faultAck sq))

end Sys2Proof.Machine
end

