-- ==== Sys2Proof/Machine/Point.lean ====
section
/-! DEFINITION. Operating points and power domains (spec/19_power.md R475-R483; spec/01_architecture.md R40). -/

namespace Sys2Proof.Machine

open Sys2Proof

/-! ### Checks of a change (R40, R59, R78, R328) -/

/-- The code of the first failing term for a quantity whose limit follows the clock; the others do not change with the point. -/
def clockCode (q : Nat) : Option Nat :=
  if q = 9 then some 0x44 else if q = 11 then some 0x45 else if q = 12 then some 0x46
  else if q = 14 ∨ q = 15 then some 0x47 else if q = 18 then some 0x48 else none

/-- Some unit is charged beyond its limit at a point, under a code. -/
def State.pointOverrun (s : State) (pt code : Nat) : Bool :=
  (s.charging.flatMap fun n => (s.slot n).charges).any fun c =>
    c.point == pt && clockCode c.q == some code && decide (s.limitOf c < s.chargedOn c.q c.point c.cls c.unit)

/-- The bounds of slot `n` at a point below those its contract covers exceed what the contract states. -/
def State.pointLate (s : State) (n pt : Nat) (p : Plan) (l : List Placed) : Bool :=
  let sl := p.maps.flatMap s.keptSlices
  let routes := allRoutes (p.flows ++ s.mapFlows p l sl) (endNodes l sl ((s.slot n).placement.pcs.map fun x => x.pc)) (s.clockOf pt)
  let b := s.boundsAt n pt (s.rd (Ob.slotPolderResidence n)) p sl routes
  decide (s.rd (Ob.slotValidDownTo n) < pt)
  && (decide (s.rd (Ob.slotLatencyBound n) < b.1)
    || (s.rd (Ob.slotConditionCount n) != 0 && decide (s.rd (Ob.slotTriggerLatencyBound n) < b.2)))

/-- The charge of the admitted work at a higher point is more than the envelope, or the envelope is overcommitted (R59). -/
def State.pointPower (s : State) (pt : Nat) : Bool :=
  let one := fun (n : Nat) => max (s.rd (Ob.slotWorstPower n)) (s.heldPower n pt)
  let total := s.staticAt pt + s.disp.powerMw + (s.charging.map one).sum
  decide (pt < s.rd Ob.opCurrent) && (s.overcommit || decide (min (s.rd Ob.penvEnvelope) 230000 < total))

/-- The code of the first failing resource, in the order of R50; none when every contract holds at the point. -/
def State.pointRefusal (s : State) (pt : Nat) : Option Nat :=
  let plans := s.charging.map fun n => (n, s.heldPlan n pt)
  let short := plans.any fun x => x.2.1.noCount || x.2.2.any fun p => p.lack != 0
  let ceil := decide (s.hbmCeiling pt < s.chargedAll 13 pt + s.disp.charge)
  let late := plans.any fun x => s.pointLate x.1 pt x.2.1 x.2.2
  if short then some 0x41
  else if s.pointOverrun pt 0x44 then some 0x44
  else if s.pointOverrun pt 0x45 then some 0x45
  else if s.pointOverrun pt 0x46 then some 0x46
  else if ceil || s.pointOverrun pt 0x47 then some 0x47
  else if s.pointOverrun pt 0x48 then some 0x48
  else if s.pointPower pt then some 0x49
  else if late then some 0x4A
  else none

/-- A change aborts (R78, R328, R482, R507): a commit is armed or an overlap runs, a pseudo-channel is Frozen, Testing or Migrating, Stop
entry runs or waits, the sentinel restarts, or a change runs. -/
def State.pointBusy (s : State) : Bool :=
  ((List.range 64).any fun n => (s.slot n).holds || s.rd (Ob.slotState n) == 3 || s.rd (Ob.slotState n) == 4)
  || ((List.range 64).any fun q => s.pcState q == 2 || s.pcState q == 3 || s.pcState q == 4)
  || s.stopping || s.power.stopWaits.isSome || s.steward.sentinelRestarting || s.power.change.isSome

/-! ### The regulator and the interlock (R479-R482) -/

/-- The ledger excludes the window (R485). -/
def State.exclude (s : State) : State := { s with power := { s.power with excluded := true } }

/-- An AVSBus write of VCORE; the master refuses one below the planned value of the point whose f_E is selected (R481). -/
def State.avsWrite (s : State) (mV : Nat) : State :=
  if mV < s.plannedVcore s.power.selected then s.bump Ob.opInterlockTrips
  else ({ s with power := { s.power with target := mV } } : State).emit (.avs mV)

/-- A change to a point starts (R482): raising writes VCORE first; at one point the planned value decides (R478). -/
def State.startChange (s : State) (p : Nat) : State :=
  let cur := s.rd Ob.opCurrent
  let new := s.plannedVcore p
  let up := decide (p < cur) || (p == cur && decide (s.power.target < new))
  let c : OpChange := { target := p, old := s.power.target, up := up }
  let s1 := (s.wrs [(Ob.opResult, 1), (Ob.opPhase, if up then 3 else 1)]).exclude
  let s2 := { s1 with power := { s1.power with change := some c } }
  if up then s2.avsWrite new else s2

/-- Request (R482). -/
def pointRequest (p : Nat) : Act := fun s =>
  if 3 ≤ p then .error Abort.range
  else if s.pointBusy then .error Abort.state
  else match s.pointRefusal p with
    | some code => .ok (s.wrs [(Ob.opResult, code), (Ob.opPhase, 0)])
    | none =>
      if p = s.rd Ob.opCurrent ∧ s.plannedVcore p = s.power.target then .ok (s.wrs [(Ob.opResult, 0), (Ob.opPhase, 0)])
      else .ok (s.startChange p)

/-- OP_POINT_REQUEST. -/
def execOpPointRequest (t point : Nat) (s : State) : Outcome := .next (s.serve t (pointRequest point))

/-- f_E of a point is selected (R244, R481): Current shows it, and what is charged follows. -/
def State.selectPoint (s : State) (p : Nat) : State :=
  let s1 := s.wr Ob.opCurrent p
  ({ s1 with power := { s1.power with selected := p } } : State).recharge

/-- The planner's own change at the current point, when one is needed and may run (R478, R523). -/
def State.planChange (s : State) : State :=
  let cur := s.rd Ob.opCurrent
  if s.plannedVcore cur = s.power.target then { s with life := { s.life with planPoint := false } }
  else if s.pointBusy then { s with life := { s.life with planPoint := true } }
  else ({ s with life := { s.life with planPoint := false } } : State).startChange cur

/-- A change ends with a Result; a completed one counts. -/
def State.endChange (s : State) (result : Nat) : State :=
  let s1 := (s.wrs [(Ob.opResult, result), (Ob.opPhase, 0)]).exclude
  let s2 := if result = 0 then s1.bump Ob.opTransitions else s1
  { s2 with power := { s2.power with change := none } }

/-- VCORE or VOK did not come in SettleTime (R482): the regulator's status is logged. -/
def State.changeFailed (s : State) : State := (s.endChange 2).faultLog 0x0A 2 0 0xFF 0 s.power.avsFaults

/-! ### Domains (R475, R476) -/

/-- Domain `d` of DomainState is up: 0-63 clusters, 64-65 stacks, 66-81 ingest quads, 82-87 storage ports, 88-91 join ports, 92 the
display. -/
def State.domainUp (s : State) (d : Nat) : Bool := bit (leNat (s.dom Ob.opDomainState)) d

/-- The condition of R475 under which a domain is down. -/
def State.domainIdle (s : State) (d : Nat) : Bool :=
  if d < 64 then
    (clusterEngines d).all (fun e => (s.eng e).st != 1 && (s.eng e).st != 2)
    && ((List.range 64).all fun n => !s.active n || (s.slot n).placement.regions.all fun r => r.cluster != d) && !s.tap.sessions.contains d
  else if d < 66 then
    let k := d - 64
    ((List.range 64).all fun n => !(s.ringS n).present
      || (((s.ringS n).extents.map fun e => e.unit) ++ (s.ringS n).lookUnits).all fun u => s.pcOf (u * 2097152) / 32 != k)
    && (reserveRegions (s.dom Ob.hbmHostReserve)).all fun r => !s.inStack k r.1 r.2
  else if d < 82 then
    (List.range 16).all fun j => s.rd (Ob.linkLinkState j) == 0 || (s.lanesOf j).all fun l => l / 4 != d - 66
  else if d < 88 then !s.rdB (Ob.storEnable (d - 82))
  else if d < 92 then !s.rdB (Ob.joinEnable (d - 88))
  else !s.rdB Ob.dispEnable && s.rd Ob.dispState == 0

/-- Transfer channels with their source or destination in a domain (R348). -/
def State.domainChannels (s : State) (d : Nat) : List Nat :=
  (List.range 32).filter fun c =>
    let x := s.xf c
    let n := s.rd (Ob.xferLength c)
    (s.xowner c == 3 && (s.rangeIn d (s.rd (Ob.xferSourceSpace c)) (s.rd (Ob.xferSource c)) n || s.rangeIn d (s.rd (Ob.xferDestSpace c)) (s.rd (Ob.xferDest c)) n))
    || (s.xowner c == 2 && d == 92)
    || (s.xowner c == 1 && decide (82 ≤ d) && decide (d < 88) && (x.role == 2 || x.role == 3)
      && bit (s.rd (Ob.slotStoragePorts (s.rd (Ob.xferOwner c) % 256))) (d - 82))

/-- A transfer has ended, has not begun or is Paused (R348). -/
def State.xferQuiet (s : State) (c : Nat) : Bool := s.xst c == 0 || decide (5 ≤ s.xst c)

/-- Domain `d` is being drained for its power-down, or no longer. -/
def State.drainMark (s : State) (d : Nat) (v : Bool) : State :=
  let l := s.power.draining.filter fun x => x != d
  { s with power := { s.power with draining := if v then d :: l else l } }

/-- DomainState takes a bit; the ledger excludes the window. -/
def State.setDomain (s : State) (d : Nat) (up : Bool) : State :=
  (s.setDom Ob.opDomainState (leBytes 16 (setBit (leNat (s.dom Ob.opDomainState)) d up))).exclude

/-- What a domain held is gone with its power: engine memories and pools, HBM and its bank queues (log entry 17). -/
def State.eraseDomain (s : State) (d : Nat) : State :=
  if d < 64 then
    let s1 := (clusterEngines d).foldl (fun s e => s.setEng e { st := (s.eng e).st, slot := (s.eng e).slot }) s
    { s1 with pool := s1.pool.filter fun p => p.1 / 163840 != d }
  else if d < 66 then
    { s with hbm := s.hbm.filter (fun p => bits p.1 33 33 != d - 64), bank := s.bank.filter fun p => bankPc p.1 / 32 != d - 64 }
  else s

/-- Power-down of a domain that is not in use (R348, R475): its channels drain, and it goes down once each of them is Paused. -/
def State.domainDown (s : State) (d : Nat) : State :=
  if s.domainUp d && s.domainIdle d then
    let s1 := (s.domainChannels d).foldl (fun s c => s.xferCause c 1 true) s
    if (s1.domainChannels d).all fun c => s1.xferQuiet c then ((s1.drainMark d false).eraseDomain d).setDomain d false else s1.drainMark d true
  else s

/-- Power-up of a domain that is in use again; its channels resume (R348). -/
def State.domainRaise (s : State) (d : Nat) : State :=
  if s.domainIdle d then s
  else
    let s1 := (if s.domainUp d then s else s.setDomain d true).drainMark d false
    (s1.domainChannels d).foldl (fun s c => if bit (s.rd (Ob.xferPauseCause c)) 1 then s.xferCause c 1 false else s) s1

/-- DOMAIN_POWER_DOWN. -/
def execDomainPowerDown (t : Nat) (d : Fin 93) (s : State) : Outcome :=
  let s := s.advance t
  .next (if s.powered then s.domainDown d else s)

/-- DOMAIN_POWER_UP: the domains change by the two commands alone (DEDUCED, log entry 175). -/
def execDomainPowerUp (t : Nat) (d : Fin 93) (s : State) : Outcome :=
  let s := s.advance t
  .next (if s.powered then s.domainRaise d else s)

end Sys2Proof.Machine
end

