-- ==== Sys2Proof/Machine/Pantry.lean ====
section
/-! DEFINITION. The Pantry: kept copies, root words, the sentinel's log, firmware slots (spec/20_lifetime.md R508-R516). -/

namespace Sys2Proof.Machine

open Sys2Proof

/-- An entry of the sentinel's own log: 1 thermal shutdown, 2 power-up fault, 3 AUX_LDO latch, 4 abandoned keep; and its detail. -/
def State.sentinelLog (s : State) (kind detail : Nat) : State :=
  { s with pantry := { s.pantry with log := s.pantry.log ++ [(kind, detail)] } }

/-! ### Root words (R514) -/

/-- The valid root word: the one with the larger RootSeq. -/
def PantryState.root (p : PantryState) : Option RootWord :=
  match p.rootA, p.rootB with
  | some a, some b => if a.seq < b.seq then some b else some a
  | some a, none => some a
  | none, b => b

/-- The copy that the valid root names: 0 A, 1 B, 0xFF none. -/
def PantryState.named (p : PantryState) : Nat :=
  match p.root with
  | some r => r.copy
  | none => 0xFF

/-- A kept copy by its name. -/
def PantryState.copyOf (p : PantryState) (k : Nat) : Option KeptCopy := if k = 0 then p.copyA else if k = 1 then p.copyB else none

/-- The copy that a keep writes: the one the valid root does not name. -/
def PantryState.other (p : PantryState) : Nat := if p.named = 0 then 1 else 0

/-- The confirmed firmware slot. -/
def PantryState.slotNamed (p : PantryState) : Nat :=
  match p.root with
  | some r => r.slot
  | none => 0

def State.confirmedSlot (s : State) : Nat := s.pantry.slotNamed

/-- A switch writes the other root position with RootSeq one higher. -/
def PantryState.setRoot (p : PantryState) (copy slot : Nat) : PantryState :=
  let sq := match p.root with
    | some r => r.seq + 1
    | none => 1
  let w : RootWord := { seq := sq, copy := copy, slot := slot }
  let newest : Option Bool := match p.rootA, p.rootB with
    | some a, some b => some (decide (b.seq ≤ a.seq))
    | some _, none => some true
    | none, some _ => some false
    | none, none => none
  if newest = some true then { p with rootB := some w } else { p with rootA := some w }

/-- KeptBytes, KeptSeq, KeptAt and ActiveCopy follow the valid root. -/
def State.pantryShow (s : State) : State :=
  let k := s.pantry.named
  match s.pantry.copyOf k with
  | some c => s.wrs [(Ob.panActiveCopy, k), (Ob.panKeptBytes, c.length), (Ob.panKeptSeq, c.seq), (Ob.panKeptAt, c.secs)]
  | none => s.wrs [(Ob.panActiveCopy, 0xFF), (Ob.panKeptBytes, 0), (Ob.panKeptSeq, 0), (Ob.panKeptAt, 0)]

/-! ### Keeps that end early (R515) -/

/-- A keep in progress. -/
def State.pantryBusy (s : State) : Bool := s.pantry.keeping.isSome

/-- A kept copy of which only a part was written fails its CRC. -/
def PantryState.spoil (p : PantryState) (k : Nat) : PantryState :=
  if k = 0 then { p with copyA := p.copyA.map fun c => { c with good := false } }
  else { p with copyB := p.copyB.map fun c => { c with good := false } }

/-- A keep in progress is abandoned: the root stays as it was, the copy it was writing is no longer whole. -/
def State.abandonKeep (s : State) : State :=
  if s.pantryBusy then
    let s1 := (s.bump Ob.panAbandonedKeeps).wr Ob.panKeepResult 3
    ({ s1 with pantry := { s1.pantry.spoil s1.pantry.other with keeping := none } } : State).sentinelLog 4 0
  else s

/-! ### Firmware slots (R508-R510) -/

/-- The image of a firmware slot. -/
def PantryState.image (p : PantryState) (k : Nat) : Option Bytes := if k = 0 then p.slot0 else p.slot1

/-- FirmwareVersion and SchemaDigest of what a slot holds. -/
def State.firmwareOf (s : State) (k : Nat) : Nat × Nat :=
  match s.pantry.image k with
  | some b => (Config.firmwareField 3 b % 2 ^ 32, Config.firmwareField 4 b % 2 ^ 32)
  | none => (Config.firmwareVersion.toNat, Config.schemaDigest.toNat)

/-- The steward runs the firmware of a slot: FirmwareVersion, SchemaDigest and RunningSlot show it. -/
def State.runFirmware (s : State) (k : Nat) : State :=
  let f := s.firmwareOf k
  let s1 := s.wrs [(Ob.devFirmwareVersion, f.1), (Ob.devSchemaDigest, f.2), (Ob.panRunningSlot, k)]
  { s1 with pantry := { s1.pantry with running := k } }

/-- The checks of R508 on a firmware image. -/
def firmwareOk (b : Bytes) : Bool :=
  decide (b.length ≤ 1048576) && Config.firmwareField 0 b == 0x544E4657 && Config.firmwareField 1 b == 2
  && Config.firmwareField 2 b == Config.firmwareCrc b

/-- FirmwareSlots follows the images. -/
def State.showSlots (s : State) : State :=
  let one := fun (k : Nat) => match s.pantry.image k with
    | some b => leBytes 4 (Config.firmwareField 3 b) ++ leBytes 4 (Config.firmwareField 2 b)
    | none => List.replicate 8 0
  s.setDom Ob.panFirmwareSlots (one 0 ++ one 1)

end Sys2Proof.Machine
end

