-- ==== Sys2Proof/Machine/Stop.lean ====
section
/-! DEFINITION. Stop, wake and the power-up of the rails (spec/19_power.md R471-R474, R488-R498; spec/23_package_electrical.md R561; spec/20_lifetime.md R515; spec/01_architecture.md R31). -/

namespace Sys2Proof.Machine

open Sys2Proof

/-! ### Sentinel outputs (R495) -/

/-- AuxLdoState of output `k`: 0 off, 1 soft start, 2 on, 3 latched. -/
def State.auxState (s : State) (k : Nat) : Nat := s.rd Ob.stopAuxLdoState / 4 ^ k % 4

def State.setAux (s : State) (k v : Nat) : State :=
  s.wr Ob.stopAuxLdoState (setBits (s.rd Ob.stopAuxLdoState) (2 * k + 1) (2 * k) v)

/-- AuxLdo0, AuxLdo1. -/
def auxKey (k : Nat) : Nat := if k = 0 then Ob.stopAuxLdo0 else Ob.stopAuxLdo1

/-- Output `k` is enabled for the present state. -/
def State.auxWant (s : State) (k : Nat) : Bool := s.power.vaon && bit (s.rd (auxKey k)) (if s.power.run then 15 else 14)

/-- Consecutive restarts of output `k`. -/
def State.setTries (s : State) (k v : Nat) : State :=
  { s with power := { s.power with auxTries := tset (dconst 0) s.power.auxTries k v } }

/-- Output `k` follows its enable: a soft start, or off; a latch stays. -/
def State.auxFollow (s : State) (k : Nat) : State :=
  let st := s.auxState k
  if st = 0 && s.auxWant k then (s.setAux k 1).emit (.auxLdo k true)
  else if (st == 1 || st == 2) && !s.auxWant k then ((s.setAux k 0).setTries k 0).emit (.auxLdo k false)
  else s

/-- Both outputs follow. -/
def State.auxBoth (s : State) : State := (s.auxFollow 0).auxFollow 1

/-! ### What Stop keeps (R472) -/

/-- Objects that the sentinel holds through Stop: StopControl, LastWake, RefusalLog; the counters of the Pantry log; and, until the
power-up, what the wake logic works with: the alarm and the CAN settings. -/
def sentinelHolds (k : Nat) : Bool :=
  k / 256 == 0x2230 || k / 256 == 0x2231 || k / 256 == 0x2232
def wakeHolds (k : Nat) : Bool :=
  [Ob.calAlarmTime, Ob.calAlarmEnable, Ob.devCanEnable, Ob.devNominalRate, Ob.devDataRate].contains k
/-- Objects held in the Pantry log, and what retired parts fix (log entry 33). -/
def lifeHolds (k : Nat) : Bool :=
  [Ob.lifeServiceHours, Ob.lifeHoursHot, Ob.lifeRetiredEngines, Ob.lifeAvailabilityFlags, Ob.lifeEngineSpareMap,
    Ob.hbmInServiceCount, Ob.hbmAdmittedCeiling].contains k
  || (List.range 64).any fun q => k == Ob.hpcServes q

/-- Retired engines and pseudo-channels stay retired, and their spares in their place (log entry 33). -/
def State.retiredParts (old s : State) : State :=
  let es := (List.range 1088).filter fun e => (old.eng e).st == 5
  let s1 := es.foldl (fun s e => s.setEng e { st := 5 }) s
  let s2 := (List.range 64).foldl (fun s c =>
    if (s.eng (c * 17 + 16)).st == 5 || (bit (s.rd Ob.lifeEngineSpareMap) c && s.spareEngine c == c * 17 + 16) then s else s.setEng (c * 17 + 16) { st := 0 }) s1
  let s2 := (List.range 64).foldl (fun s c =>
    if bit (s.rd Ob.lifeEngineSpareMap) c then s.setEng (s.spareEngine c) { st := 4 } else s) s2
  let back := fun (q : Nat) => let v := old.pcState q; if v = 1 ∨ v = 5 then v else 0
  ((List.range 64).foldl (fun s q => s.wr (Ob.hpcState q) (back q)) s2).pcMaps

/-- The state with everything lost but what the sentinel, its RTC and the Pantry keep: `hold` says which objects. -/
def State.coldState (s : State) (hold : Nat → Bool) : State :=
  let n : State := {
    pending := s.pending, now := s.now, out := s.out, fresh := s.fresh
    regs := s.regs.filter (fun p => hold p.1), doms := s.doms.filter (fun p => hold p.1)
    time := { rtcSeconds := s.time.rtcSeconds }
    life := { spareSlot := s.life.spareSlot, runMs := s.life.runMs, hotMs := s.life.hotMs }
    pantry := { s.pantry with restoring := [], autoStep := 0, autoItem := 0, autoAgain := false, trialRestarts := 0, swapTo := none, running := s.confirmedSlot }
    power := { vaon := s.power.vaon, run := false, pwrGood := false, rails := 0, stewardUp := false, upFaults := 0
               wakeLatched := s.power.wakeLatched, wakeFrame := s.power.wakeFrame, auxTries := s.power.auxTries } }
  ((State.retiredParts s n).runFirmware s.confirmedSlot).pantryShow.showSlots

/-- The rails are disconnected and PWR_GOOD_OUT goes low: the device is in Stop, with a cause (R472, R473, R489). -/
def State.enterStop (s : State) (cause : Nat) : State :=
  let s1 := s.coldState fun k => sentinelHolds k || wakeHolds k || lifeHolds k
  ((s1.wrs [(Ob.wakeStopSeconds, s.time.rtcSeconds), (Ob.wakeStopCause, cause)]).emit (.pwrGood false)).auxBoth

/-! ### Wake and power-up (R473, R474, R491-R494, R570) -/

/-- The power-up begins: PWR_GOOD_OUT rises, no rail is connected, volatile objects are at their Defaults. -/
def State.powerUp (s : State) : State :=
  let s1 : State := { s with
    regs := s.regs.filter (fun p => !wakeHolds p.1)
    power := { s.power with run := true, pwrGood := true, rails := 0, stewardUp := false, retryDue := false, wakeLatched := 0, wakeFrame := [] } }
  (s1.emit (.pwrGood true)).auxBoth

/-- A wake by a set of sources, bit k - 1 for source k (R493): LastWake, and the power-up. -/
def State.wake (s : State) (mask : Nat) (frame : Bytes) : State :=
  let src := match (bitsSet 5 mask).head? with
    | some k => k + 1
    | none => 0
  let others := if src = 0 then 0 else setBit (mask % 32) (src - 1) false
  let s1 := (s.wrs [(Ob.wakeSource, src), (Ob.wakeOthers, others), (Ob.wakeWakeSeconds, s.time.rtcSeconds)]).bump Ob.wakeWakeCount
  let s2 := s1.setDom Ob.wakeCanFrame frame
  ({ s2 with power := { s2.power with upFaults := 0 } } : State).powerUp

/-- Stop is reached; a source latched during the entry acts at once (R493). -/
def State.stopReached (s : State) (cause : Nat) : State :=
  let s1 := s.enterStop cause
  if s1.power.wakeLatched = 0 then s1 else s1.wake s1.power.wakeLatched s1.power.wakeFrame

/-- Rail numbers of R39 in the order of connection (R473). -/
def railOf (step : Nat) : Nat := [7, 6, 4, 5, 1, 0, 2, 3].getD step 0

/-- Step of VCORE. -/
def vcoreStep : Nat := 5

/-- A rail that had left its Run window is back in it (R66, R474). -/
def State.railBack (s : State) (step : Nat) : State :=
  let s1 : State := { s with power := { s.power with railsOut := setBit s.power.railsOut step false } }
  if s1.outside then s1 else s1.assumeEnds 6

/-- The sentinel sets VCORE over AVSBus to the planned value of P2 once the rail before it is connected (R473). -/
def State.presetVcore (s : State) : State :=
  let mV := s.plannedVcore 2
  ({ s with power := { s.power with target := mV, selected := 2 } } : State).emit (.avs mV)

/-- RAIL_IN_WINDOW (R473): the rail whose turn it is has been in its window for 200 µs and is connected. With the last rail the steward comes up (R494, R570). In Run, a rail that had left its window is back (R66). -/
def execRailInWindow (t : Nat) (step : Fin 8) (s : State) : Outcome :=
  let s := s.advance t
  .next (if s.power.run && s.power.pwrGood && s.power.rails == step.val then
      let s1 := if step.val + 1 = vcoreStep then s.presetVcore else s
      let s2 := { s1 with power := { s1.power with rails := step.val + 1 } }
      if step.val = 7 then
        ({ s2 with power := { s2.power with stewardUp := true } } : State).wr Ob.devRestoreState 1
      else s2
    else if s.powered && bit s.power.railsOut step then s.railBack step
    else s)

/-- POWERUP_RAIL_TIMEOUT (R474): the rails are disconnected; after three consecutive faults the device stays in Stop. -/
def execPowerupRailTimeout (t : Nat) (s : State) : Outcome :=
  let s := s.advance t
  .next (if s.power.run && s.power.pwrGood && decide (s.power.rails < 8) then
      let s1 := (s.bump Ob.stopPowerUpFaults).sentinelLog 2 (railOf s.power.rails)
      let n := s.power.upFaults + 1
      let s2 := ({ s1 with power := { s1.power with rails := 0, pwrGood := false, upFaults := n, retryDue := decide (n < 3) } } : State).emit (.pwrGood false)
      if n < 3 then s2
      else
        let s3 := { s2 with power := { s2.power with run := false } }
        (s3.wrs [(Ob.wakeStopSeconds, s3.time.rtcSeconds), (Ob.wakeStopCause, 6)]).auxBoth
    else s)

/-- POWERUP_RETRY (R474): 1 s after the fault. -/
def execPowerupRetry (t : Nat) (s : State) : Outcome :=
  let s := s.advance t
  .next (if s.power.run && s.power.retryDue then s.powerUp else s)

/-- A change of the operating point moves VCORE (R498). -/
def State.vcoreMoving (s : State) : Bool :=
  match s.power.change with
  | some c => if c.up then !c.vok else c.switched
  | none => false

/-- RAIL_OUT_OF_WINDOW (R474, R498): a violation of assumption 6; VCORE is not monitored while a change moves it. -/
def execRailOutOfWindow (t : Nat) (step : Fin 8) (s : State) : Outcome :=
  let s := s.advance t
  .next (if !s.powered || (step.val == vcoreStep && s.vcoreMoving) then s
    else
      let s1 := ((s.faultLog 7 2 (railOf step) 0xFF 0 0).assume 6).exclude
      { s1 with power := { s1.power with railsOut := setBit s1.power.railsOut step true } })

/-- POWER_ON (R491): VAON is first applied; the sentinel's values are at their Defaults, and it is always a wake. -/
def execPowerOn (t : Nat) (s : State) : Outcome :=
  let s := s.advance t
  .next (if s.power.vaon then s else ({ s with power := { s.power with vaon := true } } : State).wake 0 [])

/-- VAON_LOSS (R515, R561): the Pantry write in progress is secured, the rails are disconnected, and the sentinel's values and its RTC are
lost with VAON. -/
def execVaonLoss (t : Nat) (s : State) : Outcome :=
  let s := s.advance t
  .next (if !s.power.vaon then s
    else
      let s1 := s.abandonKeep.coldState lifeHolds
      let s2 : State := { s1 with
        time := {}, power := { vaon := false, run := false, pwrGood := false, rails := 0, stewardUp := false } }
      if s.power.pwrGood then s2.emit (.pwrGood false) else s2)

/-- THERMAL_SHUTDOWN (R31, R515): every rail but VAON is removed. -/
def execThermalShutdown (t : Nat) (s : State) : Outcome :=
  let s := s.advance t
  .next (if s.power.run && s.power.pwrGood then ((s.abandonKeep.sentinelLog 1 0).stopReached 5) else s)

/-! ### Stop entry (R488-R490) -/

/-- RefusalLog records a refused (1) or aborted (2) entry and who refused. -/
def State.logRefusal (s : State) (refuser kind : Nat) : State :=
  (s.bump Ob.refuCount).wrs [(Ob.refuRefuser, refuser), (Ob.refuKind, kind), (Ob.refuWhen, s.time.rtcSeconds)]

/-- A pipeline stops at its current frame: its outputs end without markers (R490). -/
def State.cutSlot (s : State) (n : Nat) : State :=
  let x := s.slot n
  let s1 := ((((s.endLines n s.devNow).unbindUnits n s.devNow).closeOutputs n).closeReplay n)
  (((s1.endRing n).zeroRegions x.placement.regions).dropMigrations n).endContract n 1

/-- Drives get the shutdown notification, the display and the join ports are disabled, a calibration ends with 0x05 (R489, R539). -/
def State.shutDown (s : State) : State :=
  let s1 := (List.range 6).foldl (fun s k => if s.rdB (Ob.storEnable k) && s.rd (Ob.storDriveState k) != 0 then s.emit (.driveShutdown k) else s) s
  let s2 := (s1.wr Ob.dispEnable 0).displayOff
  let s3 := (List.range 4).foldl (fun s k => if s.rd (Ob.joinState k) != 0 then s.leaveActive k 0 else s) s2
  let s4 := s3.calEnd 5 none
  { s4 with power := { s4.power with stopEntry := s4.power.stopEntry.map fun e => { e with down := true } } }

/-- A Force entry does not wait: pipelines, transfers and keeps end where they are (R490). -/
def State.forceStop (s : State) : State :=
  let s1 := ((List.range 64).filter fun n => s.active n).foldl (fun s n => s.cutSlot n) s
  let s2 := (List.range 32).foldl (fun s c =>
    if s.xowner c == 3 && decide (1 ≤ s.xst c) && decide (s.xst c ≤ 5) then (s.xferDrop c).xferEnd c 7 else s) s1
  s2.abandonKeep.shutDown

/-- A Stop entry is requested: 1 action, 2 action with Force, 3 STOP_REQ_N, 4 STOP_REQ_N with Force. -/
def State.stopRequest (s : State) (cause : Nat) : State :=
  let start : State := { s with power := { s.power with
    stopEntry := some { cause := cause, at0 := s.now, down := false }, stopWaits := none, stopResult := some 0, stopReqLow := false } }
  if cause = 2 ∨ cause = 4 then start.forceStop
  else match (List.range 64).find? fun n => s.active n with
    | some n =>
      let s1 := s.logRefusal (0x0100 + n) 1
      { s1 with power := { s1.power with stopWaits := none, stopResult := some 1, stopReqLow := cause == 3 } }
    | none => start

/-- A request that comes while an operating-point change or the restore runs waits for its end (R498, R574). -/
def State.stopAsk (s : State) (cause : Nat) : State :=
  if s.power.change.isSome || s.rd Ob.devRestoreState != 3 then
    { s with power := { s.power with stopWaits := some cause, stopResult := some 0 } }
  else s.stopRequest cause

/-- A Stop request that waited is served. -/
def State.stopWaiting (s : State) : State :=
  match s.power.stopWaits with
  | some c => s.stopAsk c
  | none => s

/-- Another request governs, or the sentinel restarts (R498, R507). -/
def State.stopBlocked (s : State) : Bool := s.stopping || s.power.stopWaits.isSome || s.steward.sentinelRestarting

/-- A write of Stop. -/
def stopAction (v : Nat) : Act := fun s =>
  if v != 1 && v != 2 then .error Abort.range
  else if s.stopBlocked then .error Abort.state
  else .ok (s.stopAsk v)

/-- STOP. -/
def execStop (t : Nat) (s : State) : Outcome := .next (s.serve t (stopAction 1))

/-- STOP_FORCE. -/
def execStopForce (t : Nat) (s : State) : Outcome := .next (s.serve t (stopAction 2))

/-- A request by the pin: a Force request with PinForce. -/
def State.pinStop (s : State) : State :=
  if !s.power.run || s.steward.restarting || s.stopBlocked then s else s.stopAsk (if s.rdB Ob.stopPinForce then 4 else 3)

/-- STOP_REQ_N_EDGE: a falling edge that has stayed low for 10 µs. -/
def execStopReqNEdge (t : Nat) (s : State) : Outcome := .next (s.advance t).pinStop

/-- STOP_REQ_REPEAT: one second after a refusal, with the level of STOP_REQ_N. -/
def execStopReqRepeat (t : Nat) (low : Bool) (s : State) : Outcome :=
  let s := s.advance t
  .next (if !s.power.stopReqLow then s
    else if low then s.pinStop
    else { s with power := { s.power with stopReqLow := false } })

/-- The entry is aborted by who is still busy; a pin entry repeats (R489). -/
def State.abortEntry (s : State) (cause refuser : Nat) : State :=
  let s1 := s.logRefusal refuser 2
  { s1 with power := { s1.power with stopEntry := none, stopResult := some 2, stopReqLow := cause == 3, wakeLatched := 0, wakeFrame := [] } }

/-- The first host channel with a transfer in progress. -/
def State.hostBusy (s : State) : Option Nat :=
  (List.range 32).find? fun c => s.xowner c == 3 && decide (1 ≤ s.xst c) && decide (s.xst c ≤ 5)

/-- STOP_GRACE_EXPIRY (R489): a Pantry write or a transfer of a host channel that is still in progress aborts the entry; the display's
channel ends with the display (log entry 34). -/
def execStopGraceExpiry (t : Nat) (s : State) : Outcome :=
  let s := s.advance t
  .next (match s.power.stopEntry with
    | none => s
    | some e =>
      if e.down || decide (s.now < e.at0 + s.us (1000 * s.rd Ob.stopStopGrace)) then s
      else
        if s.pantryBusy then s.abortEntry e.cause 0x0300
        else match s.hostBusy with
          | some c => s.abortEntry e.cause (0x0200 + c)
          | none => s.shutDown)

/-- STOP_REACHED. -/
def execStopReached (t : Nat) (s : State) : Outcome :=
  let s := s.advance t
  .next (match s.power.stopEntry with
    | some e => if e.down then s.stopReached e.cause else s
    | none => s)

/-- Clear of RefusalLog. -/
def refusalClear : Act := fun s => .ok (s.wr Ob.refuCount 0)

/-- REFUSAL_LOG_CLEAR. -/
def execRefusalLogClear (t : Nat) (s : State) : Outcome := .next (s.serve t refusalClear)

/-! ### Wake sources (R491-R493) -/

/-- DLC of a CAN FD frame with `n` data octets. -/
def dlcOf (n : Nat) : Nat :=
  if n ≤ 8 then n else if n ≤ 12 then 9 else if n ≤ 16 then 10 else if n ≤ 20 then 11 else if n ≤ 24 then 12 else if n ≤ 32 then 13
  else if n ≤ 48 then 14 else 15

/-- A frame matches an entry of CanWake (R492). -/
def canMatch (e port ident : Nat) (data : Bytes) : Bool :=
  bit e 63 && b2n (bit e 62) == port && ((ident ^^^ bits e 61 51) &&& bits e 50 40) == 0
  && (bits e 31 24 == 0 || match data.head? with
    | some d => ((d.toNat ^^^ bits e 39 32) &&& bits e 31 24) == 0
    | none => false)

/-- CanFrame (R494). -/
def canFrame (port ident : Nat) (data : Bytes) : Bytes :=
  leBytes 12 (port * 2 ^ 88 + ident % 2048 * 2 ^ 77 + leNat (data.take 8) * 2 ^ 8 + dlcOf data.length)

/-- A frame on a port is a wake source. -/
def State.canWakes (s : State) (f : Option (Nat × Nat × Bytes)) : Bool :=
  match f with
  | none => false
  | some (port, ident, data) =>
    bit (s.rd Ob.devCanEnable) port && (List.range 4).any fun i =>
      decide (8 * i + 8 ≤ (s.dom Ob.stopCanWake).length) && canMatch (leAt (s.dom Ob.stopCanWake) (8 * i) 8) port ident data

/-- The enabled sources that assert in a tick. `wakeIn` is an edge of WAKE_IN, TRUE for rising; `perst` the de-assertion of PERST_N; `lane`
a signal on Q35.2. -/
def State.wakeMask (s : State) (wakeIn : Option Bool) (can : Option (Nat × Nat × Bytes)) (perst lane : Bool) : Nat :=
  let en := s.rd Ob.stopWakeEnable
  let edge := match wakeIn with
    | some up => up != s.rdB Ob.stopWakeInPolarity
    | none => false
  let alarm := s.rdB Ob.calAlarmEnable && s.time.rtcSeconds == s.rd Ob.calAlarmTime
  b2n (bit en 0 && edge) + b2n (bit en 1 && s.canWakes can) * 2 + b2n (bit en 2 && perst) * 4 + b2n (bit en 3 && alarm) * 8
    + b2n (bit en 4 && lane) * 16

/-- The CAN frame that wakes (R493). -/
def wakeFrameOf (m : Nat) (can : Option (Nat × Nat × Bytes)) : Bytes :=
  match can with
  | some (p, i, d) => if bit m 1 then canFrame p i d else []
  | none => []

/-- WAKE_SAMPLE: in Stop a source wakes, during Stop entry it is latched, in Run it is ignored. -/
def execWakeSample (t : Nat) (wakeIn : Option Bool) (can : Option (Nat × Nat × List (BitVec 8))) (perst lane : Bool) (s : State) : Outcome :=
  let s := s.advance t
  let m := s.wakeMask wakeIn can perst lane
  let f := wakeFrameOf m can
  .next (if m = 0 || !s.power.vaon then s
    else if !s.power.run then s.wake m f
    else if s.stopping then
      { s with power := { s.power with wakeLatched := s.power.wakeLatched ||| m, wakeFrame := if f.isEmpty then s.power.wakeFrame else f } }
    else s)

end Sys2Proof.Machine
end

