-- ==== Sys2Proof/Machine/Power.lean ====
section
/-! DEFINITION. The events of an operating-point change, the regulator, the energy ledger, throttling and the AUX_LDO outputs (spec/19_power.md R478-R487, R495; spec/02_contracts.md R58, R59). -/

namespace Sys2Proof.Machine

open Sys2Proof

/-! ### Events of a change (R482) -/

/-- What waited for the end of a change: a Stop request (R498), then the planner's own change (R523). -/
def State.afterChange (s : State) : State :=
  let s1 := s.stopWaiting
  if s1.life.planPoint then s1.planChange else s1

/-- OP_VOK_ASSERT (R481). -/
def execOpVokAssert (t : Nat) (s : State) : Outcome :=
  let s := s.advance t
  .next (match s.power.change with
    | some c =>
      if c.up && !c.vok then
        ({ s with power := { s.power with change := some { c with vok := true } } } : State).wr Ob.opPhase 4
      else s
    | none => s)

/-- OP_FREQUENCY_SWITCH (R481, R482): at the slot-frame boundary. The selector switches up only while VOK is asserted. -/
def execOpFrequencySwitch (t : Nat) (s : State) : Outcome :=
  let s := s.advance t
  .next (match s.power.change with
    | some c =>
      if c.up then (if c.vok then ((s.selectPoint c.target).endChange 0).afterChange else s.bump Ob.opInterlockTrips)
      else if c.switched then s
      else
        let s1 := (s.selectPoint c.target).wr Ob.opPhase 2
        let s2 := { s1 with power := { s1.power with change := some { c with switched := true } } }
        s2.avsWrite (s2.plannedVcore c.target)
    | none => s)

/-- OP_VCORE_SETTLED (R482): VCORE is within 10 mV of its target after a lowering. -/
def execOpVcoreSettled (t : Nat) (s : State) : Outcome :=
  let s := s.advance t
  .next (match s.power.change with
    | some c => if !c.up && c.switched then (s.endChange 0).afterChange else s
    | none => s)

/-- OP_SETTLE_TIMEOUT (R482): without VOK the old planned VCORE is written back; a lowering that has switched stays switched. -/
def execOpSettleTimeout (t : Nat) (s : State) : Outcome :=
  let s := s.advance t
  .next (match s.power.change with
    | some c =>
      if c.up then (if c.vok then s else ((s.avsWrite c.old).changeFailed).afterChange)
      else if c.switched then s.changeFailed.afterChange else s
    | none => s)

/-! ### The regulator (R479) -/

/-- AVS_POLL: the voltage read back, the current, and every 100 ms the status; a fault bit that appears is logged. -/
def execAvsPoll (t mV mA : Nat) (status : Option Nat) (s : State) : Outcome :=
  let s := s.advance t
  .next (if !s.powered then s
    else
      let s1 := (s.wr Ob.opVcoreNow (mV % 65536))
      let s2 := { s1 with power := { s1.power with avsCurrent := mA } }
      match status with
      | none => s2
      | some st =>
        let s3 := { s2 with power := { s2.power with avsFaults := st } }
        let fresh := (List.range 16).any fun i => bit st i && !bit s.power.avsFaults i
        if fresh then s3.faultLog 0x0A 2 0 0xFF 0 st else s3)

/-! ### The ledger (R484, R487) -/

/-- Entry `c` of the ShuntMap in force: rail of R39 and shunt in uOhm; none when unused or without a shunt. -/
def State.shuntOf (s : State) (c : Nat) : Option (Nat × Nat) :=
  let e := leAt s.power.shunt (8 * c) 8
  if s.power.shunt.length < 8 * c + 8 || decide (7 < bits e 63 56) || bits e 31 0 == 0 then none
  else some (bits e 63 56, bits e 31 0)

/-- The supply monitor of a rail of R39: 26 VCORE, 28 VSRAM, 29 VSER_L, 31 VSER_H, 33 VHBM, 35 VHBMQ, 37 VPP, 38 VIO, 39 VAON (R525). -/
def railMonitor (r : Nat) : Nat := [26, 28, 29, 31, 33, 35, 37, 38, 39].getD r 26

/-- What a rail reads, mV. -/
def State.railMillivolts (s : State) (r : Nat) : Nat := leAt (s.dom Ob.hkSupplies) (2 * (railMonitor r - 26)) 2

/-- The signed code of differential channel `c` behind Latest (R527). -/
def State.diffCode (s : State) (c : Nat) : Int :=
  let w := leAt (s.dom Ob.hkLatest) (4 * (20 + c)) 4
  if bit (s.rd Ob.hkDiffFormat) c then sint 16 (w / 65536) else sint 16 w

/-- At-most current of a rail times its nominal voltage (R39), mW. -/
def atMostPower (r : Nat) : Nat := [152000, 18000, 16500, 8400, 26400, 8000, 1800, 2700].getD r Config.vaonMilliwatts

/-- Power of a rail now, mW (R484): by its shunt, for VCORE by the regulator's current, else its at-most current. The full scale of a
differential channel is 78.125 mV (R524). -/
def State.railPower (s : State) (r : Nat) : Int :=
  match (List.range 4).find? fun c => match s.shuntOf c with
    | some x => x.1 == r
    | none => false with
  | some c => match s.shuntOf c with
    | some x => roundUpHalf (s.diffCode c * 78125 * s.railMillivolts r) (32768 * x.2)
    | none => 0
  | none =>
    if r = 0 then ((s.power.avsCurrent * s.rd Ob.opVcoreNow / 1000 : Nat) : Int) else (atMostPower r : Int)

/-- LEDGER_SAMPLE (R484). -/
def execLedgerSample (t : Nat) (s : State) : Outcome :=
  let s := s.advance t
  .next (if !s.powered then s
    else
      let add := fun (s : State) (r : Nat) => { s with power := { s.power with railSum := tmod (dconst 0) s.power.railSum r (· + s.railPower r) } }
      let s1 := (List.range 9).foldl add s
      { s1 with power := { s1.power with windowN := s.power.windowN + 1 } })

/-- The averages of the window, per rail, mW. -/
def State.windowPower (s : State) : List Nat :=
  (List.range 9).map fun r => (roundUpHalf (tget (dconst 0) s.power.railSum r) s.power.windowN).toNat

/-- A window of 100 ms closes: usable for the fit unless something excluded it (R485). -/
def State.closeWindows (s : State) : State :=
  let n := s.power.windows + 1
  if n < 100 then { s with power := { s.power with windows := n } }
  else { s with power := { s.power with
    windows := 0, usable := ((!s.power.excluded) :: s.power.usable).take 64
    excluded := s.power.change.isSome || s.steward.sentinelRestarting } }

/-- The window ends: a ShuntMap written in it takes effect, and the sums begin anew. -/
def State.freshWindow (s : State) : State :=
  { s with power := { s.power with shunt := s.dom Ob.ledgShuntMap, railSum := [], windowN := 0 } }

/-- The averages are published, the energy below 1 mJ is carried, and the 100 ms windows go on (R484, R485). -/
def State.publishWindow (s : State) : State :=
  let l := s.windowPower
  let p := l.sum
  let e := s.power.energyUj + p
  let s1 := ((s.freshWindow.wrs [(Ob.ledgMeasuredPower, p), (Ob.ledgPeakPower, max p (s.rd Ob.ledgPeakPower))]).bumpBy Ob.ledgEnergy (e / 1000)).setDom
    Ob.ledgRailPower (l.flatMap fun v => leBytes 4 v)
  ({ s1 with power := { s1.power with energyUj := e % 1000 } } : State).closeWindows

/-- A window above the envelope (R487): it is counted, and the first of a second makes a FaultLog entry. -/
def State.overEnvelope (s : State) (p : Nat) : State :=
  let s1 := s.bump Ob.penvOverEnvelope
  if s1.power.overSecond = some s1.time.rtcSeconds then s1
  else ({ s1 with power := { s1.power with overSecond := some s1.time.rtcSeconds } } : State).faultLog 0x0A 1 0 0xFF 0 p

/-- A die reads more than 95 °C; the substrate is no die (R525). -/
def State.dieHot (s : State) : Bool := (List.range 18).any fun i => decide (1520 < sint 16 (leAt (s.dom Ob.hkTemperatures) (2 * i) 2))

/-- A millisecond in Run passes: ServiceHours and HoursHot count whole hours (0x2010:01, :02). -/
def State.countHours (s : State) : State :=
  let up := fun (s : State) (k ms : Nat) => if ms = 3600000 then s.bump k else s
  let a := s.life.runMs + 1
  let b := s.life.hotMs + b2n s.dieHot
  let s1 := up (up s Ob.lifeServiceHours a) Ob.lifeHoursHot b
  { s1 with life := { s1.life with runMs := a % 3600000, hotMs := b % 3600000 } }

/-- The window of 1 ms closes (R484, R487). -/
def State.ledgerWindow (s : State) : State :=
  if s.power.windowN = 0 then s.freshWindow
  else if s.windowPower.sum ≤ s.rd Ob.penvEnvelope then s.publishWindow
  else s.publishWindow.overEnvelope s.windowPower.sum

/-- LEDGER_WINDOW: 1 ms closes. -/
def execLedgerWindow (t : Nat) (s : State) : Outcome :=
  let s := s.advance t
  .next (if !s.powered then s else s.countHours.ledgerWindow)

/-- A coefficient after a fit (R58): 1.10 times the largest value fitted, no less than 0.75 times the ceiling and no more than it. -/
def coeffAfter (ceiling largest : Nat) : Nat := min ceiling (max (ceilDiv (3 * ceiling) 4) (ceilDiv (11 * largest) 10))

/-- The largest value fitted for a term at a point follows a new one, and the coefficient with it. -/
def State.fitTerm (s : State) (pt : Nat) (x : Nat × Nat) : State :=
  let k := x.2 * 3 + pt
  let m := max (tget (dconst 0) s.power.fitted k) x.1
  let c := coeffAfter (s.ceiling x.2 pt) m
  { s with power := { s.power with
    fitted := tset (dconst 0) s.power.fitted k m
    coeff := tset (dconst none) s.power.coeff k (some c) } }

/-- LEDGER_FIT (R485): `fitted` are the values that the fit gives for the five terms (log entry 35). Fewer than 16 usable windows change
nothing. -/
def execLedgerFit (t : Nat) (fitted : List Nat) (s : State) : Outcome :=
  let s := s.advance t
  .next (if !s.powered || decide ((s.power.usable.filter id).length < 16) then s
    else
      let s1 := (fitted.take 5).zipIdx.foldl (fun s x => s.fitTerm (s.rd Ob.opCurrent) x) s
      let s2 := s1.wr Ob.ledgLastFit s.stampNow
      s2.wr Ob.admEnvelopeOvercommit (b2n s2.exceeds))

/-- The estimate of R486 for the best-effort usage of 100 us: events of the four counting terms, and active lanes; mW. -/
def State.bestPower (s : State) (usage : List Nat) : Nat :=
  let pt := s.rd Ob.opCurrent
  let ev := ((List.range 4).map fun k => usage.getD k 0 * s.coeff k pt).sum
  ceilDiv ev 100000000 + ceilDiv (usage.getD 4 0 * s.coeff 4 pt) 1000

/-- THROTTLE_EVALUATE (R486). -/
def execThrottleEvaluate (t : Nat) (usage : List Nat) (s : State) : Outcome :=
  let s := s.advance t
  .next (if !s.powered then s
    else if s.bestPower usage ≤ s.rd Ob.penvBestEffortAllowance then s.wr Ob.penvThrottling 0
    else if s.rdB Ob.penvThrottling then s
    else (s.wr Ob.penvThrottling 1).bump Ob.penvThrottleEvents)

/-- ClearPeak. -/
def clearPeak : Act := fun s => .ok (s.wr Ob.ledgPeakPower 0)

/-- CLEAR_PEAK. -/
def execClearPeak (t : Nat) (s : State) : Outcome := .next (s.serve t clearPeak)

/-! ### AUX_LDO (R495) -/

/-- Output `k` latches off: AuxLdoFaults, the sentinel's log, and a FaultLog entry while the steward runs. -/
def State.auxLatch (s : State) (k : Nat) : State :=
  let s1 := (((s.setAux k 3).emit (.auxLdo k false)).bump Ob.stopAuxLdoFaults).sentinelLog 3 k
  if s1.power.stewardUp then s1.faultLog 0x0A 3 k 0xFF 0 0 else s1

/-- AUX_LDO_SOFT_START_END: 0.5 ms after the soft start, above 90 % or not. -/
def execAuxLdoSoftStartEnd (t : Nat) (k : Fin 2) (good : Bool) (s : State) : Outcome :=
  let s := s.advance t
  .next (if s.auxState k != 1 then s else if good then (s.setAux k 2).setTries k 0 else s.auxLatch k)

/-- AUX_LDO_LIMIT. -/
def execAuxLdoLimit (t : Nat) (k : Fin 2) (s : State) : Outcome :=
  let s := s.advance t
  .next (if s.power.run && s.auxState k == 2 then s.auxLatch k else s)

/-- AUX_LDO_RETRY: 10 ms after a latch, while fewer than Retries restarts have failed. -/
def execAuxLdoRetry (t : Nat) (k : Fin 2) (s : State) : Outcome :=
  let s := s.advance t
  let n := tget (dconst 0) s.power.auxTries k
  .next (if s.auxState k == 3 && s.auxWant k && decide (n < bits (s.rd (auxKey k)) 13 12) then
      ((s.setAux k 1).setTries k (n + 1)).emit (.auxLdo k true)
    else s)

/-- AuxLdoReset: bit k clears the latch of output k, which starts again if it is enabled. -/
def auxReset (mask : Nat) : Act := fun s =>
  .ok ((List.range 2).foldl (fun s k =>
    if bit mask k && s.auxState k == 3 then ((s.setAux k 0).setTries k 0).auxFollow k else s) s)

/-- AUX_LDO_RESET. -/
def execAuxLdoReset (t mask : Nat) (s : State) : Outcome := .next (s.serve t (auxReset mask))

end Sys2Proof.Machine
end

