-- ==== Sys2Proof/Machine/Tdc.lean ====
section
/-! DEFINITION. The time-to-digital converters and their statistics (spec/17_time_tdc.md R438-R443). -/

namespace Sys2Proof.Machine

open Sys2Proof

/-- The runtime state of TDC channel `c`. -/
def State.tdcCh (s : State) (c : Nat) : TdcState := tget (dconst ({} : TdcState)) s.tdc c

def State.setTdc (s : State) (c : Nat) (x : TdcState) : State :=
  { s with tdc := tset (dconst ({} : TdcState)) s.tdc c x }

/-- The runtime state of statistics unit `u`. -/
def State.statU (s : State) (u : Nat) : StatState := tget (dconst ({} : StatState)) s.stat u

def State.setStat (s : State) (u : Nat) (x : StatState) : State :=
  { s with stat := tset (dconst ({} : StatState)) s.stat u x }

/-- A stamp entry (R439). -/
def stampEntry (falling lossBefore uncal : Bool) (second st : Nat) : Nat :=
  b2n falling * 2 ^ 63 + b2n lossBefore * 2 ^ 62 + b2n uncal * 2 ^ 61 + st / second % 2 ^ 16 * 2 ^ 40 + st % second

/-- The active line is not Locked or has no table (R443). -/
def TdcState.uncal (x : TdcState) : Bool :=
  if x.active = 0 then !x.locked0 || x.table0.isEmpty else !x.locked1 || x.table1.isEmpty

/-- LockState (0x2440+c:0C): active line Locked, resting line Locked, Margin. -/
def TdcState.lockState (x : TdcState) : Nat :=
  let edge := fun (v : Nat) => decide (v ≤ 1024) || decide (65535 - 1024 ≤ v)
  b2n (if x.active = 0 then x.locked0 else x.locked1)
    + 2 * b2n (if x.active = 0 then x.locked1 else x.locked0)
    + 4 * b2n (edge x.control0 || edge x.control1)

/-- Does unit `u` use channel `c` (R442)? -/
def State.statUses (s : State) (u c : Nat) : Bool :=
  s.rd (Ob.statChannelA u) == c || (s.rd (Ob.statMode u) == 1 && s.rd (Ob.statChannelB u) == c)

/-- An edge of channel `c` is lost: Losses counts it, the next entry carries LossBefore, and running blocks on the channel
carry Flags bit 0 (R438, R439, R442). -/
def State.tdcLoss (s : State) (c : Nat) : State :=
  let s1 := (s.bump (Ob.tdcLosses c)).setTdc c { s.tdcCh c with lossPending := true }
  (List.range 4).foldl (fun s u =>
    let x := s.statU u
    if x.running && s.statUses u c then s.setStat u { x with lost := true } else s) s1

/-- An edge now falls within 1.6 ns of the latest one of its polarity. -/
def State.tdcDead (s : State) (last : Option Nat) : Bool :=
  match last with
  | some a => decide ((s.now - a) * 10000000000 < 16 * s.second)
  | none => false

/-- TDC_EDGE (R438): an edge of a selected polarity is stamped, or lost to dead time (1.6 ns) or to a full front buffer. -/
def execTdcEdge (t : Nat) (ch : Fin 16) (falling : Bool) (s : State) : Outcome :=
  let s := s.advance t
  let c := ch.val
  let f := falling != s.rdB (Ob.tdcInvert c)
  let x := s.tdcCh c
  let last := if f then x.lastFall else x.lastRise
  let dead := s.tdcDead last
  .next (if !s.rdB (Ob.tdcEnable c) || !bit (s.rd (Ob.tdcEdges c)) (b2n f) || !s.counts then s
    else if dead || decide (64 ≤ x.front.length) then s.tdcLoss c
    else
      let st := ((s.devNow : Int) - sint 32 (s.rd (Ob.tdcInputDelay c))).toNat
      let s1 := s.setTdc c { x with
        front := x.front ++ [(st, f, x.uncal, x.lossPending)]
        lastRise := if f then x.lastRise else some s.now
        lastFall := if f then some s.now else x.lastFall
        lossPending := false }
      (s1.bump (Ob.tdcStamped c)).wr (Ob.tdcLastStamp c) (stampEntry f x.lossPending x.uncal s.second st))

/-- Mean in 1/256 u_T, halves up (R442). -/
def statMean (s1 : Int) (n : Nat) : Int := Int.fdiv (512 * s1 + n) (2 * n)

/-- floor(sqrt(var256) + 1/2) (R442): var256 is the exact rational p / q. -/
def statStdDev (s1 s2 : Int) (n : Nat) : Nat :=
  let p := 65536 * ((n : Int) * s2 - s1 * s1).toNat
  let q := n * (n - 1)
  if q = 0 then 0 else (isqrt (4 * p / q) + 1) / 2

/-- The Result DOMAIN of a block (R442). -/
def statResult (mean : Int) (sd : Nat) (mn mx : Int) (flags endTime : Nat) : Bytes :=
  leBytes 16 endTime ++ leBytes 3 0 ++ leBytes 1 flags ++ leBytes 6 (uint 48 mx) ++ leBytes 6 (uint 48 mn)
    ++ leBytes 8 sd ++ leBytes 8 (uint 64 mean)

/-- A unit takes a value (R442): sums, and the Result when the block of Count values completes. -/
def State.statValue (s : State) (u : Nat) (x : StatState) (v : Int) (uncal : Bool) (st : Nat) : State :=
  let x1 := { x with
    n := x.n + 1
    s1 := x.s1 + v
    s2 := x.s2 + v * v
    vmin := if x.n = 0 then v else min x.vmin v
    vmax := if x.n = 0 then v else max x.vmax v
    uncal := x.uncal || uncal }
  if x1.n < s.rd (Ob.statCount u) then s.setStat u x1
  else
    let flags := b2n x1.lost + 2 * b2n x1.unlocked + 4 * b2n x1.uncal
    let r := statResult (statMean x1.s1 x1.n) (statStdDev x1.s1 x1.s2 x1.n) x1.vmin x1.vmax flags (s.stamp st)
    let s1 := (s.setDom (Ob.statResult u) r).bump (Ob.statResultSeq u)
    s1.setStat u { ({} : StatState) with
      running := s.rdB (Ob.statRepeat u), openA := x1.openA, openUncal := x1.openUncal }

/-- A ChannelA stamp in mode Interval: it replaces an open one. -/
def State.statOpen (s : State) (u st : Nat) (uncal : Bool) : State :=
  s.setStat u { s.statU u with openA := some st, openUncal := uncal }

/-- A stamp of channel `c` that leaves the front buffer reaches unit `u` (R442). -/
def State.statStamp (s : State) (u c st : Nat) (falling uncal : Bool) : State :=
  let x := s.statU u
  let mode := s.rd (Ob.statMode u)
  let isA := s.rd (Ob.statChannelA u) == c
  if !x.running then s
  else if mode = 1 then
    let s1 := if isA then s.statOpen u st uncal else s
    if s.rd (Ob.statChannelB u) == c then
      let x1 := s1.statU u
      match x1.openA with
      | some a =>
        if st < a then s1
        else if st - a ≤ s.rd (Ob.statWindow u) then
          s1.statValue u { x1 with openA := none } ((st : Int) - a) (uncal || x1.openUncal) st
        else (s1.setStat u { x1 with openA := none }).bump (Ob.statUnpaired u)
      | none => s1.bump (Ob.statUnpaired u)
    else s1
  else if mode = 2 then
    if isA && !falling then
      match x.openA with
      | some a => s.statValue u { x with openA := some st, openUncal := uncal } ((st : Int) - a) (uncal || x.openUncal) st
      | none => s.statOpen u st uncal
    else s
  else if mode = 3 then
    if !isA then s
    else if !falling then s.statOpen u st uncal
    else match x.openA with
      | some a => s.statValue u { x with openA := none } ((st : Int) - a) (uncal || x.openUncal) st
      | none => s
  else s

/-- LossBefore of an entry. -/
def lossMark (e : Nat) : Nat := setBit e 62 true

/-- The oldest entry left carries LossBefore. -/
def markOldest : List Nat → List Nat
  | [] => []
  | e :: l => lossMark e :: l

/-- TDC_QUEUE_PUSH: the oldest stamp of the front buffer reaches the statistics units and the queue, under QueuePolicy (R440,
R441). -/
def execTdcQueuePush (t : Nat) (ch : Fin 16) (s : State) : Outcome :=
  let s := s.advance t
  let c := ch.val
  let x := s.tdcCh c
  .next (match x.front with
    | [] => s
    | (st, f, uncal, loss) :: rest =>
      let s0 := s.setTdc c { x with front := rest }
      let s1 := (List.range 4).foldl (fun s u => s.statStamp u c st f uncal) s0
      let y := s1.tdcCh c
      let e := stampEntry f (loss || y.dropPending) uncal s.second st
      if y.queue.length < 1024 then
        (s1.setTdc c { y with queue := y.queue ++ [e], dropPending := false }).wr (Ob.tdcFill c) (y.queue.length + 1)
      else if s.rd (Ob.tdcQueuePolicy c) = 0 then
        (s1.setTdc c { y with dropPending := true }).bump (Ob.tdcQueueDrops c)
      else
        (s1.setTdc c { y with queue := markOldest (y.queue.drop 1) ++ [lossMark e], dropPending := false }).bump (Ob.tdcQueueDrops c))

/-- PopBlock (R440): min(n, fill) entries leave the queue, oldest first, as one removal. -/
def popBlock (c n : Nat) : Act := fun s =>
  if n < 1 ∨ 128 < n then .error Abort.range
  else
    let x := s.tdcCh c
    .ok ((s.setTdc c { x with queue := x.queue.drop n, popped := some (x.queue.take n) }).wr (Ob.tdcFill c)
      (x.queue.length - n))

/-- POP_BLOCK (R440). -/
def execPopBlock (t : Nat) (ch : Fin 16) (n : Nat) (s : State) : Outcome := .next (s.serve t (popBlock ch.val n))

/-- ClearQueue (R441). -/
def clearQueue (c : Nat) : Act := fun s =>
  .ok ((s.setTdc c { s.tdcCh c with queue := [] }).wr (Ob.tdcFill c) 0)

/-- CLEAR_QUEUE. -/
def execClearQueue (t : Nat) (ch : Fin 16) (s : State) : Outcome := .next (s.serve t (clearQueue ch.val))

/-- Start of a statistics unit (R442). -/
def statsStart (u : Nat) : Act := fun s =>
  let mode := s.rd (Ob.statMode u)
  if (s.statU u).running || mode == 0 || !s.rdB (Ob.tdcEnable (s.rd (Ob.statChannelA u)))
      || (mode == 1 && !s.rdB (Ob.tdcEnable (s.rd (Ob.statChannelB u)))) then .error Abort.state
  else .ok (s.setStat u { ({} : StatState) with running := true })

/-- STATS_START (R442). -/
def execStatsStart (t : Nat) (unit : Fin 4) (s : State) : Outcome := .next (s.serve t (statsStart unit.val))

/-- LockState follows the lines. -/
def State.tdcLock (s : State) (c : Nat) (x : TdcState) : State :=
  (s.setTdc c x).wr (Ob.tdcLockState c) x.lockState

/-- TDC_CONTROL_UPDATE: the control loop sets a line's bias code; `error` is the line's delay error in 1/256 u_T (R443). -/
def execTdcControlUpdate (t : Nat) (ch : Fin 16) (line : Fin 2) (control error : Nat) (s : State) : Outcome :=
  let s := s.advance t
  let x := s.tdcCh ch
  let v := min control 65535
  let ok := decide (error < 256)
  .next (s.tdcLock ch (if line.val = 0 then { x with control0 := v, locked0 := ok }
    else { x with control1 := v, locked1 := ok }))

/-- TDC_LINE_SWAP: the active and the resting line swap roles (R443). -/
def execTdcLineSwap (t : Nat) (ch : Fin 16) (s : State) : Outcome :=
  let s := s.advance t
  let x := s.tdcCh ch
  .next (s.tdcLock ch { x with active := 1 - x.active })

/-- TDC_CALIBRATION_COMPLETE: the resting line's 256-entry table of tap widths (R443). -/
def execTdcCalibrationComplete (t : Nat) (ch : Fin 16) (widths : List Nat) (s : State) : Outcome :=
  let s := s.advance t
  let x := s.tdcCh ch
  .next (if widths.length = 256 then
      s.setTdc ch (if x.active = 0 then { x with table1 := widths } else { x with table0 := widths })
    else s)

end Sys2Proof.Machine
end

