-- ==== Sys2Proof/Machine/Lifetime.lean ====
section
/-! DEFINITION. Migration, engine tests and retirement, the steward pair and the sentinel ring, keeps, firmware and the daily plan (spec/20_lifetime.md R500-R519, R523; spec/21_calibration_housekeeping.md R537). -/

namespace Sys2Proof.Machine

open Sys2Proof

/-! ### A migration's target (R500) -/

/-- What a migration candidate changes for one slot: engines moved, pool regions and map slices moved. -/
structure Move where
  engines : List (Nat × Nat)
  regions : List (PlRegion × PlRegion) := []
  slices : List (Nat × Slice × Slice) := []
  deriving DecidableEq, Repr

/-- Pool kinds that a stage of slot `n` has in its plan. -/
def stageKinds (l : List Placed) (stage chan : Nat) : List Nat :=
  match l.find? fun p => p.stage.stage == stage && p.stage.chan == chan with
  | some p => p.stage.pools.map fun q => q.1
  | none => []

/-- The parts of slot `n` in cluster `c` that have to move, stage by stage: a stage with a region in the cluster moves whole. -/
def State.movedParts (s : State) (n c : Nat) (es : List Nat) (l : List Placed) : List ((Nat × Nat) × List Nat) :=
  let pl := (s.slot n).placement
  let mine := pl.engines.filter fun x => es.contains x.physical
  let keys := (mine.map fun x => (x.stage, x.channel)).dedup
  keys.map fun k =>
    let kinds := stageKinds l k.1 k.2
    let whole := pl.regions.any fun r => r.cluster == c && r.channel == k.2 && kinds.contains r.kind
    let group := pl.engines.filter fun x => x.stage == k.1 && x.channel == k.2 && (if whole then x.physical / 17 == c else es.contains x.physical)
    (k, group.map fun x => x.physical)

/-- Free engines for the parts, each part in one other cluster, clusters tried in an order. -/
def State.placeParts (s : State) (order : List Nat) : List Nat → List ((Nat × Nat) × List Nat) → Option (List ((Nat × Nat) × List (Nat × Nat)))
  | _, [] => some []
  | free, (k, es) :: l =>
    match order.find? fun c => decide (es.length ≤ (free.filter fun e => e / 17 == c).length) with
    | none => none
    | some c =>
      let got := (free.filter fun e => e / 17 == c).take es.length
      (s.placeParts order (free.filter fun e => !got.contains e) l).map fun r => (k, es.zip got) :: r

/-- Where the regions of moved parts go: with their stage into its cluster. -/
def State.moveRegions (s : State) (n c : Nat) (l : List Placed) :
    List ((Nat × Nat) × List (Nat × Nat)) → List PlRegion → Option (List (PlRegion × PlRegion))
  | [], _ => some []
  | (k, es) :: rest, held =>
    let to' := (es.headD (0, 0)).2 / 17
    let kinds := stageKinds l k.1 k.2
    let mine := if to' = c then [] else
      (s.slot n).placement.regions.filter fun r => r.cluster == c && r.channel == k.2 && r.kind != 4 && kinds.contains r.kind
    let step := fun (a : Option (List (PlRegion × PlRegion) × List PlRegion)) (r : PlRegion) => match a with
      | none => none
      | some (done, h) => (poolFit h to' r.lineCount (s.choose n 49 r.kind)).map fun f =>
        let r' := { r with cluster := to', firstLine := f }
        (done ++ [(r, r')], r' :: h)
    match mine.foldl step (some ([], held)) with
    | none => none
    | some (done, h) => (s.moveRegions n c l rest h).map fun x => done ++ x

/-- Where the map slices of slot `n` in cluster `c` go after a whole-cluster fault: into pools with room, their cells zero (SliceReset, R158, R169). -/
def State.moveSlices (s : State) (n c : Nat) (order : List Nat) : List (Nat × Slice) → List PlRegion → Option (List (PlRegion × PlRegion) × List (Nat × Slice × Slice))
  | [], _ => some ([], [])
  | (k, x) :: rest, held =>
    match (s.slot n).placement.regions.find? fun r => r.kind == 4 && r.cluster == c && x.live == 64 * r.firstLine + 64 with
    | none => none
    | some r => match order.findSome? fun d => (poolFit held d r.lineCount 0).map fun f => (d, f) with
      | none => none
      | some (d, f) =>
        let r' := { r with cluster := d, firstLine := f }
        let x' := { x with cluster := d, reset := true, live := 64 * f + 64, shadow := if x.shadow = 0 then 0 else 64 * f + 64 + (x.shadow - x.live) }
        (s.moveSlices n c order rest (r' :: held)).map fun p => ((r, r') :: p.1, (k, x, x') :: p.2)

/-- The map slices of slot `n` in cluster `c`. -/
def State.slicesIn (s : State) (n c : Nat) : List (Nat × Slice) :=
  (s.mapsOf n).flatMap fun k => ((s.mapS k).slices.filter fun x => x.cluster == c).map fun x => (k, x)

/-- The state with a move made in Placement and in the maps. -/
def State.withMove (s : State) (n : Nat) (m : Move) : State :=
  let s1 := m.engines.foldl (fun s p => s.moveRole n p.1 p.2) s
  let swapR := fun (r : PlRegion) => match m.regions.find? fun p => p.1 == r with
    | some p => p.2
    | none => r
  let s2 := s1.modSlot n fun x => { x with placement := { x.placement with regions := sortOn (fun r => r.cluster * 4096 + r.firstLine) (x.placement.regions.map swapR) } }
  (s.mapsOf n).foldl (fun s k =>
    let swapS := fun (y : Slice) => match m.slices.find? fun p => p.1 == k && p.2.1 == y with
      | some p => p.2.2
      | none => y
    (s.setMap k { s.mapS k with slices := (s.mapS k).slices.map swapS }).sliceTable k) s2

/-- Points that the contract of slot `n` covers from the current one on. -/
def State.heldPoints (s : State) (n : Nat) : List Nat :=
  let c := s.rd Ob.opCurrent
  (List.range 3).filter fun p => decide (c ≤ p) && decide (p ≤ max c (s.rd (Ob.slotValidDownTo n)))

/-- The charges of slot `n` with what its placement changes recomputed: map updates, Polder ports, routes and crossbar paths. -/
def State.moveCharges (s : State) (n : Nat) : List Charge :=
  let one := fun (pt : Nat) =>
    let (p, l) := s.heldPlan n pt
    let sl := p.maps.flatMap s.keptSlices
    let pcs := (s.slot n).placement.pcs.map fun x => x.pc
    (sl.map fun x => ({ q := 9, point := pt, cls := 1, unit := x.slice.cluster, amount := x.cycles } : Charge))
      ++ s.drainCharges p pt ++ routeCharges pt (allRoutes (p.flows ++ s.mapFlows p l sl) (endNodes l sl pcs) (s.clockOf pt))
  ((s.slot n).charges.filter fun c => !([9, 11, 12, 14, 15] : List Nat).contains c.q) ++ mergeCharges ([0, 1, 2].flatMap one)

/-- A moved slot keeps to the free resources, its bounds and the envelope. -/
def State.moveFits (s : State) (n : Nat) (cs : List Charge) : Bool :=
  let a : Ask := { n := n, pts := s.heldPoints n, skip := some n }
  let clocked := cs.filter fun c => (clockCode c.q).isSome
  let power := a.pts.foldl (fun m p => max m (s.heldPower n p)) 0
  (s.overrun a 0x46 s.limitOf clocked).isNone
  && (a.pts.all fun pt =>
    let (p, l) := s.heldPlan n pt
    let sl := p.maps.flatMap s.keptSlices
    let b := s.boundsAt n pt (s.rd (Ob.slotPolderResidence n)) p sl
      (allRoutes (p.flows ++ s.mapFlows p l sl) (endNodes l sl ((s.slot n).placement.pcs.map fun x => x.pc)) (s.clockOf pt))
    !p.noCount && (l.all fun x => x.lack == 0) && decide (b.1 ≤ s.rd (Ob.slotLatencyBound n))
    && (s.rd (Ob.slotConditionCount n) == 0 || decide (b.2 ≤ s.rd (Ob.slotTriggerLatencyBound n))))
  && decide (power ≤ s.rd (Ob.slotWorstPower n) ∨ s.rd Ob.admChargedPower - s.rd (Ob.slotWorstPower n) + power ≤ min (s.rd Ob.penvEnvelope) 230000)

/-- The candidates in the order of R500: the cluster's spare for one engine, then free engines with the clusters in turn; `whole` after a fault of the
whole cluster, whose spare is affected too. -/
def State.candidates (s : State) (n c : Nat) (es : List Nat) (whole : Bool) : List Move :=
  let l := (s.heldPlan n (s.rd Ob.opCurrent)).2
  let spare := s.spareEngine c
  let held := s.heldRegions none ++ (if s.bestEffort n then (s.slot n).placement.regions else [])
  let one := match es with
    | [e] => if !whole && (s.eng spare).st == 4 && bit (s.rd Ob.lifeEngineSpareMap) c then [({ engines := [(e, spare)] } : Move)] else []
    | _ => []
  let free := s.openEngines { n := n, pts := [s.rd Ob.opCurrent] }
  let order := (sortOn (fun d => s.choose n 48 d) (List.range 64)).filter fun d => d != c
  let parts := s.movedParts n c es l
  let slices := if whole then s.slicesIn n c else []
  let rest := (List.range 63).filterMap fun i =>
    let ord := order.drop i ++ order.take i
    match s.placeParts ord free parts with
    | none => none
    | some g => match s.moveRegions n c l g held with
      | none => none
      | some r => (s.moveSlices n c ord slices ((r.map fun x => x.2) ++ held)).map fun x =>
        ({ engines := g.flatMap fun y => y.2, regions := r ++ x.1, slices := x.2 } : Move)
  one ++ rest

/-- The first candidate that fits, with the charges it brings. -/
def State.chooseMove (s : State) (n c : Nat) (es : List Nat) (whole : Bool) : Option (Move × List Charge) :=
  (s.candidates n c es whole).findSome? fun m =>
    let t := s.withMove n m
    let cs := t.moveCharges n
    if t.moveFits n cs then some (m, cs) else none

/-- The steward is to test engine `e` of an affected set (R502), with `whole` the crossbar and the pool too. -/
def State.testDue (s : State) (e : Nat) (whole : Bool) : State :=
  { s with life := { s.life with testing := tset (dconst 0) s.life.testing e (if whole then 2 else 1) } }

/-- Engine `e` is out of its pipeline and Halted for its test; what it has queued of the frames it has yielded is still sent. -/
def State.takeOut (s : State) (e : Nat) (whole : Bool) : State :=
  let x := s.eng e
  (s.setEng e { x with st := 3, slot := if x.sends.isEmpty then none else x.slot }).testDue e whole

/-- The move is made: targets are loaded with the images and parameters of the engines they replace, state areas zero; the engines that
faulted wait for their test, the others are freed; moved regions begin at zero. -/
def State.makeMove (s : State) (n c : Nat) (faulted : List Nat) (whole : Bool) (m : Move) (cs : List Charge) : State :=
  let s1 := m.engines.foldl (fun s p => (s.copyEngine p.2 p.1).setEng p.2 { (s.copyEngine p.2 p.1).eng p.2 with slot := some n }) s
  let s2 := (s1.withMove n m).zeroRegions (m.regions.map fun r => r.1)
  let s3 := m.engines.foldl (fun s p =>
    if faulted.contains p.1 then s.takeOut p.1 whole else s.freeEngine p.1) (s2.makeWay (m.regions.map fun r => r.2))
  let s4 := m.engines.foldl (fun s p => if p.2 = s.spareEngine c then s.spareUsed c else s) s3
  (s4.modSlot n fun x => { x with charges := cs }).recharge

/-- An engine faults within 30 days of a passed test (R502). -/
def State.relapsed (s : State) (e : Nat) : Bool :=
  match tget (dconst none) s.life.testPassed e with
  | some a => s.within30 a
  | none => false

/-- The diagnosis of engine `e` is over: assumption 4 is no longer seen violated once no watchdog's engine waits for one (R66). -/
def State.diagnosed (s : State) (e : Nat) : State :=
  if s.life.tripped.contains e then
    let l := s.life.tripped.filter fun x => x != e
    let s1 : State := { s with life := { s.life with tripped := l } }
    if l.isEmpty then s1.assumeEnds 4 else s1
  else s

/-- An engine is Retired without more (R502). -/
def State.retireNow (s : State) (e : Nat) : State :=
  let s1 := ((s.retireMark e).faultLog 0x0B 1 e 0xFF 4 0).diagnosed e
  { s1 with life := { s1.life with testing := tset (dconst 0) s1.life.testing e 0 } }

/-- No target exists for migration `m` of slot `n` (R501): a pipeline is withdrawn with notice, a Successor in overlap is withdrawn (R75), and one that ends
already goes on to its end without the engines. Those are tested, a relapsed one is retired (R502); a spare budget is exhausted (R519). -/
def State.noTarget (s : State) (n c : Nat) (m : Migration) : State :=
  let st := s.rd (Ob.slotState n)
  let s1 := if st = 3 ∧ (s.slot n).switchAt.isNone then (s.setMigration c n none).endSuccessor n 0x4E
    else if st = 4 ∨ st = 5 then s
    else (s.setMigration c n none).noticeWithdraw n m.gs m.entry
  let s2 := m.affected.foldl (fun s e => if (s.eng e).st = 5 then s else if s.relapsed e then s.retireNow e else s.takeOut e m.whole) s1
  s2.budgetOut (m.affected.headD (c * 17)) n

/-- A slot without an engine of cluster `c` but with map slices there loses the channels that feed them, and migrates too (R500). -/
def State.feedMigration (c sq : Nat) (s : State) (n : Nat) : State :=
  let chs := (((s.slicesIn n c).map fun x => x.1).dedup.flatMap fun k => s.mapFeeds k (bitsSet 64 (s.rd (Ob.slotChannelMask n)))).dedup
  let gs := s.devNow
  let m : Migration := { slot := n, affected := [], gs := gs, channels := chs, entry := sq, targets := [], ge := none, whole := true }
  ((s.setMigration c n (some m)).dropLines n gs chs).withhold n

/-- Every engine and map slice of cluster `c` is affected (R500, R502). -/
def State.wholeFault (s : State) (c : Nat) : State :=
  let es := (clusterEngines c).filter fun e => (s.eng e).st != 5
  let s1 := s.clusterFault c 6 c es
  let more := (List.range 64).filter fun n => s1.active n && !(s.slotsOn es).contains n && !(s1.slicesIn n c).isEmpty
  let s2 := more.foldl (State.feedMigration c (s.life.faultCount % 65536)) s1
  (es.filter fun e => !(s.slotsOn [e]).any fun _ => true).foldl (fun s e => s.testDue e true) s2

/-- CLUSTER_FAULT: an uncorrectable error in the crossbar, the cluster port or the update unit; every engine and map slice of the cluster is
affected. -/
def execClusterFault (t : Nat) (c : Fin 64) (s : State) : Outcome := .next ((s.advance t).wholeFault c)

/-- Migration `m` of slot `n` goes to a chosen target; G_e follows its load, and an engine that faults again within 30 days of a pass is
retired (R500, R502). -/
def State.toTarget (s : State) (n c : Nat) (m : Migration) (x : Move × List Charge) : State :=
  let ge := s.boundaryFrom n (s.devNow + s.us (12 * ceilDiv x.1.engines.length 64) + s.us 100)
  if m.gs + s.us 20000 < ge then (s.noTarget n c m).clusterSettle c
  else
    let s1 := s.makeMove n c m.affected m.whole x.1 x.2
    let s2 := s1.setMigration c n (some { m with targets := m.targets ++ x.1.engines, ge := some ge })
    (x.1.engines.filter fun p => m.affected.contains p.1 && s.relapsed p.1).foldl (fun s p => s.retireNow p.1) s2

/-- MIGRATION_TARGET_CHOSEN: the steward places what slot `n` has lost in cluster `c` and its targets load; G_e follows the load. -/
def execMigrationTargetChosen (t : Nat) (c : Fin 64) (n : Fin 64) (s : State) : Outcome :=
  let s := s.advance t
  .next (match s.migration c n with
    | none => s
    | some m =>
      if m.ge.isSome || s.steward.restarting then s
      else match s.chooseMove n c m.affected m.whole with
        | none => (s.noTarget n c m).clusterSettle c
        | some x => s.toTarget n c m x)

/-- The ingest channels of the channels or inputs of slot `n` that a gap names: in Pulse those of the inputs. -/
def State.gapChannels (s : State) (n : Nat) (us : List Nat) : List Nat :=
  let all := us.contains 0xFFF
  let chs := bitsSet 64 (s.rd (Ob.slotChannelMask n))
  if s.chainMode n = 3 then
    let is := (s.gridUnits n).filter fun i => all || us.contains i
    (is.map fun i => let e := s.pulseEntry n i; if enRoute e then bits (s.routeEntry (s.routeSource n) (enNumber e)) 31 24 else enNumber e).dedup
  else chs.filter fun k => all || us.contains k

/-- What is carried across frames on the channels of a gap ends, as at a commit boundary (R69). -/
def State.channelBoundary (s : State) (n : Nat) (chs : List Nat) : State :=
  let mine := (bitsSet 64 (s.rd (Ob.slotChannelMask n))).filter fun k => chs.contains k || chs.contains 0xFFF
  let maps := (s.mapsOf n).filter fun k => (s.feeders n k).any fun c => mine.contains c
  if s.chainMode n = 1 then
    maps.foldl (fun s k => s.mapWindowRestart k) ((mine.foldl (fun s k => s.traceEnd n k) s).weirRestart n mine)
  else if s.chainMode n = 2 then
    let g := s.sieveHead n
    let s1 := mine.foldl (fun s k => (List.range (svCount g)).foldl (fun s i => s.sampEnd n k (svFirst g + i)) (s.powerEnd n k)) s
    ((List.range (svLevels g)).filter fun i => mine.contains (bits (s.levelEntry n i) 63 56)).foldl (fun s i => s.levelBlockEnd n i) s1
  else s

/-- The detached consumers of slot `n` on the channels of a gap are re-established at the write position (R99). -/
def State.reestablish (s : State) (n : Nat) (chs : List Nat) : State :=
  chs.foldl (fun s k =>
    let key := s.chanKey n k
    let c := s.chanS key
    s.setChan key { c with consumers := c.consumers.map fun x => if x.slot = n ∧ x.detached = true then { x with detached := false, readPos := c.written } else x }) s

/-- A channel or input whose next frame has lost samples while its consumer was detached goes on with the first frame at or after `g` of which none is gone; the
frames it passes lie in the gap, and Channelize gives their routed samples as zeros marked Gap (R193). -/
def State.skipUnit (s : State) (n g u : Nat) : State :=
  let pulse := s.chainMode n == 3
  if 3 < s.chainMode n || (pulse && enRoute (s.pulseEntry n u)) then s
  else match tget (dconst none) (s.pipeS n).origin u with
    | none => s
    | some o =>
      let p := s.pipeS n
      let k := if pulse then enNumber (s.pulseEntry n u) else u
      let st := s.gridStep n
      let first := s.firstIndex n k
      let f0 := tget (dconst 0) p.frame u
      let needs := o.1 + (if pulse then s.selLow n u else f0 * st + (tget (dconst []) p.hist u).length)
      if first ≤ needs then s
      else
        let fs := s.gridFs n u
        let f := max f0 (max (ceilDiv (first - o.1) st) (ceilDiv ((g - o.2) * fs.1) (s.second * fs.2 * st)))
        let s1 := if s.chainMode n = 2 then (List.range (f - f0)).foldl (fun s j => s.sieveGap n u (s.gridStamp n u o.2 ((f0 + j) * st))) s else s
        let q := s1.pipeS n
        if pulse then
          s1.setPipe n { q with frame := tset (dconst 0) (tset (dconst 0) q.frame u f) (256 + u) f, begin := tset (dconst 0) q.begin u (f * st) }
        else s1.setPipe n { q with frame := tset (dconst 0) q.frame u f, hist := tset (dconst []) q.hist u [] }

/-- The slots of the commit that was withheld with slot `n`'s (R41): its own, its Successor's and those of their groups. -/
def State.withheldWith (s : State) (n : Nat) : List Nat :=
  ((n :: (s.slot n).replacedBy.toList).flatMap fun m => s.together m).dedup.filter fun m => (s.slot m).withheld.isSome

/-- A slot still migrates. -/
def State.migrating (s : State) (n : Nat) : Bool := (List.range 64).any fun d => (s.migration d n).isSome

/-- Commits withheld for a migration are admitted again on the new placement, once no slot that they cover migrates, or refused with 0x4E; all the slots of
one commit alike (R41, R71, R523). -/
def State.resumeCommit (s : State) (n : Nat) : State :=
  let l := s.withheldWith n
  if l.isEmpty || l.any (fun m => s.migrating m || (s.slot m).replacing.any fun o => s.migrating o) then s
  else match l.findSome? fun m => if s.rd (Ob.slotState m) = 2 then (s.stagedRefusal m).map fun r => (m, r) else none with
    | some x => (l.foldl (fun s m => s.disarm m 0x4E) (s.noteRefusal x.1 { x.2 with code := 0x4E })).leaveArray n 0x4E
    | none =>
      let T := l.foldl (fun t m => max t ((s.slot m).withheld.getD 0)) (s.devNow + s.us 100)
      l.foldl (fun s m => s.armCommit m T (s.slot m).group false) s

/-- LastGap (R521). -/
def gapOctets (n mask len gs : Nat) : Bytes := leBytes 32 (n * 2 ^ 248 + mask * 2 ^ 184 + len % 2 ^ 32 * 2 ^ 152 + gs % 2 ^ 128 * 2 ^ 24)

/-- The engines of a gap start with the first frame at G_e. -/
def State.startTargets (s : State) (l : List (Nat × Nat)) : State :=
  l.foldl (fun s p =>
    let x := s.eng p.2
    if x.st = 1 then s.setEng p.2 { x with st := 2, pc := x.entry, r := [], sinceSafe := 0 }.startFrame else s) s

/-- The declared gap [G_s, g) of a migration ends: its targets start, consumers are re-established, what was before the gap leaves ahead of the markers
(R230), LastGap and the FaultLog entry follow, and a commit withheld for the last migration of the slot is taken up (R500, R521). -/
def State.endGap (s : State) (n c : Nat) (m : Migration) (g : Nat) : State :=
  let e := s.rd (Ob.slotEpoch n)
  let len := gapPeriods m.gs g
  let us := (m.channels ++ m.measure).dedup
  let chs := s.gapChannels n us
  let s0 := ((s.startTargets m.targets).channelBoundary n m.channels).flushRecords n
  let s1 := ((s0.gridUnits n).filter fun u => us.contains 0xFFF || us.contains u).foldl (fun s u => s.skipUnit n g u) (s0.reestablish n chs)
  let s2 := (s1.marker n e (s.stamp m.gs) (2 ^ 13) len).marker n e (s.stamp g) (2 ^ 12) len
  let named := if s.chainMode n = 3 then (s.gridUnits n).filter fun u => us.contains 0xFFF || us.contains u else chs
  let mask := (named.filter (· < 64)).foldl (fun a k => setBit a k true) 0
  let s3 := (s2.setDom Ob.dikeLastGap (gapOctets n mask len (s.stamp m.gs))).bump Ob.dikeMigrations
  let s4 := (s3.markFault m.entry 2).setMigration c n none
  let noted := s4.life.faultLog.map fun (x : FaultEntry) => if x.seq = m.entry then { x with detail := len } else x
  let s5 : State := { s4 with life := { s4.life with faultLog := noted } }
  let s6 := if s5.migrating n then s5
    else ((s5.modSlot n fun x => { x with gapFrom := none }).resumeCommit n)
  s6.clusterSettle c

/-- MIGRATION_RESUME: at G_e the declared gap [G_s, G_e) ends. -/
def execMigrationResume (t : Nat) (c : Fin 64) (n : Fin 64) (s : State) : Outcome :=
  let s := s.advance t
  .next (match s.migration c n with
    | none => s
    | some m => match m.ge with
      | none => s
      | some g => if s.devNow < g then s else s.endGap n c m g)

/-! ### Engine tests (R502, R537) -/

/-- A tested engine that passed returns: Free, or Spare where its cluster has none. -/
def State.engineBack (s : State) (e : Nat) : State :=
  let c := e / 17
  let s1 := { s with life := { s.life with
    testing := tset (dconst 0) s.life.testing e 0, testPassed := tset (dconst none) s.life.testPassed e (some s.now) } }
  if (s1.eng e).st = 4 then s1
  else if bit (s1.rd Ob.lifeEngineSpareMap) c then s1.setEng e { st := 0 }
  else
    let s2 := (s1.setEng e { st := 4 }).wr Ob.lifeEngineSpareMap (setBit (s1.rd Ob.lifeEngineSpareMap) c true)
    { s2 with life := { s2.life with spareSlot := tset (dconst 16) s2.life.spareSlot c (e % 17) } }

/-- Engine `e` is in the affected set of a migration of its cluster. -/
def State.inMigration (s : State) (e : Nat) : Bool := (List.range 64).any fun n => match s.migration (e / 17) n with
  | some m => m.affected.contains e
  | none => false

/-- A crossbar or pool that fails its test retires every engine of the cluster. -/
def State.retireCluster (s : State) (c : Nat) : State :=
  (((clusterEngines c).filter fun x => (s.eng x).st != 5).foldl State.retireNow s).clusterSettle c

/-- ENGINE_TEST_COMPLETE: the test of an engine ends; `shared` says that the crossbar and the pool, tested after a whole-cluster fault, are
good. -/
def execEngineTestComplete (t : Nat) (e : Fin 1088) (pass shared : Bool) (s : State) : Outcome :=
  let s := s.advance t
  let c := e.val / 17
  let kind := tget (dconst 0) s.life.testing e
  .next (if kind = 0 || s.inMigration e && (s.eng e).st != 3 then s
    else if kind = 2 && !shared then s.retireCluster c
    else if pass then ((s.engineBack e).diagnosed e).clusterSettle c
    else (s.retireNow e).clusterSettle c)

/-- SPARE_SELF_TEST (R537): the daily test of a cluster's spare or of a spare pseudo-channel; one that fails is retired. -/
def execSpareSelfTest (t : Nat) (hbm : Bool) (unit : Fin 64) (pass : Bool) (s : State) : Outcome :=
  let s := s.advance t
  .next (if hbm then
      (if s.pcState unit != 1 || pass then s else s.failPc unit)
    else
      let e := s.spareEngine unit
      if (s.eng e).st != 4 || pass then s else (s.retireNow e).clusterSettle unit)

/-! ### Planned retirement (R503) -/

/-- The target of a planned retirement: the cluster's spare unless an overlap holds it, or a free engine whose charges fit. -/
def State.retireTarget (s : State) (n e : Nat) : Option (Nat × List Charge) :=
  let spare := s.spareEngine (e / 17)
  let sp := if (s.eng spare).st = 4 ∧ bit (s.rd Ob.lifeEngineSpareMap) (e / 17) ∧ (s.life.retiring.all fun p => p.2 != spare) then [spare] else []
  (sp ++ s.openEngines { n := n, pts := [s.rd Ob.opCurrent] }).findSome? fun x =>
    let t := s.moveRole n e x
    let cs := t.moveCharges n
    if t.moveFits n cs then some (x, cs) else none

/-- What a read of RetireEngine returns. -/
def State.retireAnswer (s : State) (v : Nat) : State := { s with life := { s.life with retireResult := some v } }

/-- The target of a planned retirement is loaded with the engine's images and banks, and SAVESTATE is raised on the engine. -/
def State.retireBegin (s : State) (n e : Nat) (x : Nat × List Charge) : State :=
  let s1 := s.copyEngine x.1 e
  let s2 := (s1.setEng e ((s1.eng e).issue { code := 4 })).modSlot n fun z => { z with charges := x.2 }
  { s2 with life := { s2.life with retiring := s2.life.retiring ++ [(e, x.1)] } }

/-- Start of the retirement of engine `e`: one without a pipeline is Retired at once; without a target it ends with 0x4E (R519). -/
def State.retireEngine (s : State) (e : Nat) : State :=
  if (s.eng e).st = 5 then s.retireAnswer 0
  else match (s.eng e).slot with
    | none => ((s.retireNow e).clusterSettle (e / 17)).retireAnswer 0
    | some n => match s.retireTarget n e with
      | none => (s.budgetOut e n).retireAnswer 0x4E
      | some x => (s.retireBegin n e x).retireAnswer 1

/-- RetireEngine. -/
def retireAction (e : Nat) : Act := fun s =>
  if 1088 ≤ e then .error Abort.range
  else if s.life.retiring.any (fun p => p.1 == e) then .error Abort.state
  else .ok (s.retireEngine e)

/-- RETIRE_ENGINE. -/
def execRetireEngine (t e : Nat) (s : State) : Outcome := .next (s.serve t (retireAction e))

/-! ### The steward pair (R28, R29, R504-R506) -/

/-- The pair restarts (1 mismatch, 2 firmware swap, 3 trial fallback, 4 Restart action): transactions that had not completed have no effect and
get no response, so that window A takes the repeat of one (R28), a keep is abandoned (R515), a calibration ends (R539). -/
def State.stewardRestart (s : State) (cause : Nat) : State :=
  let recent := s.now :: (s.steward.restartTimes.filter fun a => decide (s.now < a + s.us 60000000))
  let s1 := ((s.abandonKeep.calEnd 5 none).bump Ob.lockRestarts).wrs [(Ob.lockLastRestart, s.stampNow), (Ob.lockLastCause, cause)]
  let s2 : State := { s1 with
    steward := { s1.steward with restarting := true, restartTimes := recent.take 17 }
    dict := { s1.dict with forwarded := [], busySubmit := none }
    pantry := { s1.pantry with autoAgain := s1.pantry.autoStep != 0 } }
  if 16 < recent.length then s2.faultLog 4 3 0 0xFF 0 0 else s2

/-- The steward runs. -/
def State.stewardRuns (s : State) : Bool := s.power.stewardUp && !s.steward.restarting

/-- The firmware trial is on (R509). -/
def State.trial (s : State) : Bool := s.rd Ob.panFirmwareState == 4

/-- The trial ends: a restart into the confirmed slot. What FirmwareState reads then the spec does not say (log entry 37). -/
def State.fallBack (s : State) : State :=
  let v := s.free 120
  let s1 := (v.2.wr Ob.panFirmwareState (if v.1 % 2 = 0 then 0 else 2)).stewardRestart 3
  { s1 with pantry := { s1.pantry with swapTo := some s1.confirmedSlot, trialRestarts := 0 } }

/-- LOCKSTEP_MISMATCH: three restarts in a trial end it (R509). -/
def execLockstepMismatch (t : Nat) (s : State) : Outcome :=
  let s := s.advance t
  .next (if !s.stewardRuns then s
    else
      let s1 := (s.bump Ob.lockMismatches).faultLog 4 1 0 0xFF 0 0
      if !s.trial then s1.stewardRestart 1
      else if 3 ≤ s.pantry.trialRestarts + 1 then s1.fallBack
      else ({ s1 with pantry := { s.pantry with trialRestarts := s.pantry.trialRestarts + 1 } } : State).stewardRestart 1)

/-- The rail under test flags the injected mismatch. -/
def State.railPasses (s : State) : State := { s with steward := { s.steward with passed := min 10000 (s.steward.passed + 1) } }

/-- A rail that does not flag it: LatentFault, a test every 100 us, and the comparison continues on the other rail (R505). -/
def State.railFails (s : State) (rail : Nat) : State :=
  let s2 := (s.bump Ob.lockSelfTestFailures).wrs [(Ob.lockLatentFault, 1), (Ob.lockTestInterval, 100)]
  ({ s2 with steward := { s2.steward with passed := 0, deadRail := some rail } } : State).faultLog 4 2 rail 0xFF 0 0

/-- LOCKSTEP_SELF_TEST (R505): `flagged` says whether the rail under test flagged the injected mismatch; the rails alternate. -/
def execLockstepSelfTest (t : Nat) (flagged : Bool) (s : State) : Outcome :=
  let s := s.advance t
  let s1 := ({ s with steward := { s.steward with testRail := 1 - s.steward.testRail } } : State).bump Ob.lockSelfTests
  .next (if !s.stewardRuns then s else if flagged then s1.railPasses else s1.railFails s.steward.testRail)

/-- ClearLatent. -/
def clearLatent : Act := fun s =>
  if s.steward.passed < 10000 then .error Abort.state
  else
    let s1 := s.wrs [(Ob.lockLatentFault, 0), (Ob.lockTestInterval, 1000)]
    .ok { s1 with steward := { s1.steward with deadRail := none } }

/-- CLEAR_LATENT. -/
def execClearLatent (t : Nat) (s : State) : Outcome := .next (s.serve t clearLatent)

/-- Restart of Lockstep. -/
def restartAction : Act := fun s => .ok (s.stewardRestart 4)

/-- STEWARD_RESTART_ACTION. -/
def execStewardRestartAction (t : Nat) (s : State) : Outcome := .next (s.serve t restartAction)

/-- The firmware of slot `k` comes into force, and the join ports exchange their capabilities again (R510). -/
def State.swapIn (s : State) (k : Nat) : State :=
  let s2 := ({ s with pantry := { s.pantry with swapTo := none } } : State).runFirmware k
  (List.range 4).foldl (fun s p => if s.rd (Ob.joinState p) = 5 ∨ s.rd (Ob.joinState p) = 6 then s.sendRecord p else s) s2

/-- STEWARD_RESTART_COMPLETE: the dictionary is served again; a swap has put its firmware in force. -/
def execStewardRestartComplete (t : Nat) (s : State) : Outcome :=
  let s := s.advance t
  let s1 := ({ s with steward := { s.steward with restarting := false, checkpointAt := s.now } } : State).msix 2
  .next (if !s.steward.restarting then s
    else match s.pantry.swapTo with
      | some k => s1.swapIn k
      | none => s1)

/-- An error that the scrub of the steward memory has met (R26): 1 corrected, 2 uncorrectable. -/
def State.stewardScrub (s : State) (err : Nat) : State :=
  if err = 1 then s.countCorrected 4 else if err = 2 then (s.countUncorrected 4).faultLog 6 6 0 0xFF 0 0 else s

/-- STEWARD_CHECKPOINT (R504); `err` is what the scrub of the steward memory has met since the last one. -/
def execStewardCheckpoint (t : Nat) (err : Fin 3) (s : State) : Outcome :=
  let s := s.advance t
  .next (if s.stewardRuns then
      let s1 := s.stewardScrub err
      { s1 with steward := { s1.steward with checkpointAt := s1.now } }
    else s)

/-! ### The sentinel ring (R507) -/

/-- The sentinel controller restarts (R485, R507, R515): a keep is abandoned, the window is excluded from the fit. -/
def State.sentinelRestart (s : State) (cause : Nat) : State :=
  let s1 := ((s.abandonKeep.bump Ob.dikeSentinelRestarts).faultLog 5 cause 0 0xFF 0 0).exclude
  { s1 with steward := { s1.steward with sentinelRestarting := true } }

/-- SENTINEL_POLL: 0 good, 1 missed, 2 a failed self-check; the poll after a restart finds the sentinel back. -/
def execSentinelPoll (t : Nat) (result : Fin 3) (s : State) : Outcome :=
  let s := s.advance t
  .next (if !s.stewardRuns then s
    else if result.val = 0 then { s with steward := { s.steward with sentinelRestarting := false } }
    else s.sentinelRestart result)

/-! ### Firmware (R508, R509) -/

/-- Pantry actions that abort while a keep runs or the sentinel restarts (R507, R516). -/
def State.pantryHeld (s : State) : Bool := s.pantryBusy || s.steward.sentinelRestarting

/-- Firmware slot `k` holds an image. -/
def PantryState.setSlot (p : PantryState) (k : Nat) (b : Bytes) : PantryState := if k = 0 then { p with slot0 := some b } else { p with slot1 := some b }

/-- A write of FirmwareImage: the image goes into the slot that is not confirmed, and is checked (log entry 38). -/
def firmwareWrite (b : Bytes) : Act := fun s =>
  if s.pantryHeld then .error Abort.state
  else
    let s1 := ({ s with pantry := s.pantry.setSlot (1 - s.confirmedSlot) b } : State).showSlots
    .ok (s1.wr Ob.panFirmwareState (if firmwareOk b then 2 else 3))

/-- FIRMWARE_IMAGE_WRITE. -/
def execFirmwareImageWrite (t : Nat) (data : List (BitVec 8)) (s : State) : Outcome := .next (s.serve t (firmwareWrite data))

/-- FirmwareSwap. -/
def firmwareSwap : Act := fun s =>
  if s.pantryHeld || s.rd Ob.panFirmwareState != 2 then .error Abort.state
  else
    let s1 := (s.wr Ob.panFirmwareState 4).stewardRestart 2
    .ok { s1 with pantry := { s1.pantry with swapTo := some (1 - s1.confirmedSlot), trialRestarts := 0, trialAt := s1.now } }

/-- FIRMWARE_SWAP. -/
def execFirmwareSwap (t : Nat) (s : State) : Outcome := .next (s.serve t firmwareSwap)

/-- FirmwareConfirm. -/
def firmwareConfirm : Act := fun s =>
  if !s.trial || s.steward.sentinelRestarting then .error Abort.state
  else
    let p := s.pantry.setRoot s.pantry.named s.pantry.running
    .ok (({ s with pantry := p } : State).wr Ob.panFirmwareState 5)

/-- FIRMWARE_CONFIRM. -/
def execFirmwareConfirm (t : Nat) (s : State) : Outcome := .next (s.serve t firmwareConfirm)

/-- CONFIRM_WINDOW_EXPIRY. -/
def execConfirmWindowExpiry (t : Nat) (s : State) : Outcome :=
  let s := s.advance t
  .next (if s.stewardRuns && s.trial && decide (s.pantry.trialAt + s.rd Ob.panConfirmWindow * s.second ≤ s.now) then s.fallBack else s)

/-! ### Keeps (R512-R514) -/

/-- Keys of the kept objects in ascending order with their octets (R452, R512): the active values, never staged ones. -/
def State.keptEntries (s : State) : List (Nat × Bytes) :=
  let one := fun (r : ObjRow) => (List.range r.count).map fun i =>
    let k := r.base + i * r.stride
    (k, match r.ty.size with
      | some w => leBytes w (s.rd k)
      | none => if k = Ob.calAlarmTime then s.alarmDate.getD (List.replicate 8 0) else s.dom k)
  (objRows.flatMap fun r => if r.kept then one r else []).mergeSort fun a b => decide (a.1 ≤ b.1)

/-- Octets of a kept copy. -/
def copyLength (l : List (Nat × Bytes)) : Nat := 64 + (l.map fun e => 8 + 4 * ceilDiv e.2.length 4).sum

/-- The copy a keep writes (R512, R513): CopySeq one above the named copy's. -/
def State.keepCopy (s : State) : KeptCopy where
  seq := (s.pantry.copyOf s.pantry.named).elim 1 fun c => c.seq + 1
  digest := s.rd Ob.devSchemaDigest
  secs := s.time.rtcSeconds
  length := copyLength s.keptEntries
  entries := s.keptEntries

/-- Keep (R513). -/
def keepAction : Act := fun s =>
  if s.pantryHeld || s.stopping then .error Abort.state
  else if 2883584 < copyLength s.keptEntries then .ok (s.wr Ob.panKeepResult 2)
  else .ok (({ s with pantry := { s.pantry with keeping := some s.keepCopy } } : State).wr Ob.panKeepResult 1)

/-- KEEP. -/
def execKeep (t : Nat) (s : State) : Outcome := .next (s.serve t keepAction)

/-- The copy of a keep is in the place that the valid root does not name. -/
def PantryState.putCopy (p : PantryState) (c : KeptCopy) : PantryState :=
  { (if p.other = 0 then { p with copyA := some c } else { p with copyB := some c }) with keeping := none }

/-- KEEP_COMPLETE: the copy has been written and read back; a good one is named by a new root word. -/
def execKeepComplete (t : Nat) (good : Bool) (s : State) : Outcome :=
  let s := s.advance t
  .next (match s.pantry.keeping with
    | none => s
    | some c =>
      let p := s.pantry.putCopy { c with good := good }
      if good then (({ s with pantry := p.setRoot s.pantry.other p.slotNamed } : State).wr Ob.panKeepResult 0).pantryShow
      else ({ s with pantry := p } : State).wr Ob.panKeepResult 4)

/-- Discard (R516): a root word that names no copy. -/
def discardAction : Act := fun s =>
  if s.pantryHeld || s.stopping then .error Abort.state
  else .ok ({ s with pantry := s.pantry.setRoot 0xFF s.pantry.slotNamed } : State).pantryShow

/-- DISCARD. -/
def execDiscard (t : Nat) (s : State) : Outcome := .next (s.serve t discardAction)

/-! ### The daily plan (R517-R519) -/

/-- PlannedVcore of a point (R518): the largest needed voltage and 25 mV, up to 5 mV, within 600 to 850 mV. -/
def planOf (worst : Nat) : Nat := max 600 (min 850 (5 * ceilDiv (worst + 25) 5))

/-- The plan with v_e(p) of every engine as measured, mV: entry 3e + p. -/
def State.dailyPlan (s : State) (volts : List Nat) : State :=
  let v := fun (e p : Nat) => volts.getD (3 * e + p) 0 % 65536
  let inUse := fun (s : State) (e : Nat) => (s.eng e).st != 5 && (s.eng e).st != 4
  let rec' := (List.range 1088).flatMap fun e => [0, 1, 2].flatMap fun p => leBytes 2 (if inUse s e then v e p else 0)
  let s1 := s.setDom Ob.lifePlanRecord rec'
  let worn := (List.range 1088).filter fun e => inUse s e && decide (825 < v e 0)
  let s2 := worn.foldl (fun s e => if s.life.retiring.any (fun p => p.1 == e) then s else s.retireEngine e) s1
  let left := (List.range 1088).filter fun e => inUse s2 e && !worn.contains e
  let plan := fun (p : Nat) => planOf (left.foldl (fun m e => max m (v e p)) 0)
  let s3 := s2.setDom Ob.opPlannedVcore (leBytes 2 (plan 0) ++ leBytes 2 (plan 1) ++ leBytes 2 (plan 2))
  let rose := (List.range 64).filter fun q =>
    decide (s3.rd Ob.lifeCorrectedLimit < s3.rd (Ob.hpcCorrectedCount q) - tget (dconst 0) s3.life.corrAtPlan q) && s3.pcState q == 0
  let s4 := rose.foldl (fun s q => s.startRetire q) s3
  let s5 := (List.range 64).foldl (fun s q =>
    { s with life := { s.life with corrAtPlan := tset (dconst 0) s.life.corrAtPlan q (s.rd (Ob.hpcCorrectedCount q)) } }) s4
  let lanes := (List.range 4).any fun k => s5.rd (Ob.joinState k) == 6 && (s5.dom (Ob.joinLaneFom k)).any fun f => decide (f.toNat < 96)
  let margin := (List.range 16).any fun c => bit (s5.rd (Ob.tdcLockState c)) 2
  let s6 := s5.wrs [(Ob.lifeWearFlags, b2n lanes + 2 * b2n margin), (Ob.lifeLastPlan, s5.stampNow)]
  let s7 := s6.recharge.planChange
  s7.wr Ob.admEnvelopeOvercommit (b2n s7.exceeds)

/-- PLAN_RUN: once a day at PlanTime. -/
def execPlanRun (t : Nat) (volts : List Nat) (s : State) : Outcome :=
  let s := s.advance t
  .next (if s.stewardRuns && s.powered && s.time.rtcSeconds % 86400 == s.rd Ob.lifePlanTime then s.dailyPlan volts else s)

/-- What a read of PlanNow returns. -/
def State.planAnswer (s : State) (v : Nat) : State := { s with life := { s.life with planResult := some v } }

/-- PlanNow. -/
def planNow (volts : List Nat) : Act := fun s => .ok ((s.dailyPlan volts).planAnswer 0)

/-- PLAN_NOW. -/
def execPlanNow (t : Nat) (volts : List Nat) (s : State) : Outcome := .next (s.serve t (planNow volts))

end Sys2Proof.Machine
end

