-- ==== Sys2Proof/Machine/View.lean ====
section
/-! DEFINITION. What a read of the dictionary returns (spec/18_dictionary.md R446, R450): the registers, the readouts that are computed from the state, and the results of actions. -/

namespace Sys2Proof.Machine

open Sys2Proof

/-- A value or the abort code of its read. -/
abbrev Shown := Except Nat Bytes

/-- A DOMAIN of numbers of `w` octets each. -/
def numbers (w : Nat) (l : List Nat) : Bytes := l.flatMap fun v => leBytes w v

/-- Placement of a slot (R576). -/
def Placement.bytes (p : Placement) : Bytes :=
  leBytes 16 (p.engines.length * 2 ^ 112 + p.regions.length * 2 ^ 96 + p.shares.length * 2 ^ 88 + p.pcs.length * 2 ^ 80
    + p.lanes.length * 2 ^ 72 + p.xfers.length * 2 ^ 64)
  ++ numbers 8 (p.engines.map fun e => e.logical * 2 ^ 48 + e.physical * 2 ^ 32 + e.stage * 2 ^ 28 + e.channel * 2 ^ 16 + e.rotation)
  ++ numbers 8 (p.regions.map fun r => r.cluster * 2 ^ 56 + r.firstLine * 2 ^ 44 + r.lineCount * 2 ^ 32 + r.kind * 2 ^ 24 + r.channel * 2 ^ 12)
  ++ numbers 8 (p.shares.map fun x => x.channel * 2 ^ 56 + x.half * 2 ^ 55 + x.granules * 2 ^ 40 + x.ports * 2 ^ 32 + b2n x.recordDrain * 2 ^ 31)
  ++ numbers 8 (p.pcs.map fun x => x.pc * 2 ^ 56 + x.bursts * 2 ^ 32 + x.extents * 2 ^ 16)
  ++ numbers 4 (p.lanes.map fun x => x.quad * 2 ^ 24 + x.lanes * 2 ^ 20)
  ++ numbers 4 (p.xfers.map fun x => x.chan * 2 ^ 24 + x.role * 2 ^ 16 + x.slots)

/-- Terms of the quantities 0 to 23 (R577). -/
def quantityTerms : List Nat := [1, 2, 3, 3, 4, 5, 5, 6, 7, 7, 8, 8, 9, 10, 10, 10, 10, 11, 11, 12, 13, 14, 14, 15]

/-- ResourceVector of a slot (R577). -/
def vectorBytes (l : List RvEntry) : Bytes :=
  (l.zip ((List.range 24).zip quantityTerms)).flatMap fun x =>
    let e := x.1
    leBytes 32 (x.2.2 * 2 ^ 248 + x.2.1 * 2 ^ 240 + e.point * 2 ^ 232 + e.unitClass * 2 ^ 224 + e.unitNumber % 2 ^ 24 * 2 ^ 200
      + e.amount % 2 ^ 64 * 2 ^ 128 + e.limit % 2 ^ 64 * 2 ^ 64 + e.total % 2 ^ 64)

/-- A DOMAIN over the 256 condition lines (R132). -/
def State.lineList (s : State) (w : Nat) (f : Line → Nat) : Bytes := numbers w ((List.range 256).map fun l => f (s.lineS l))

/-- ExtentTable of a ring (R223). -/
def RingState.extentTable (x : RingState) : Bytes :=
  numbers 8 (x.extents.map fun e => e.unit * 2 ^ 21 + b2n e.frozen * 2 + b2n e.skipped)

/-- The counters that CounterSlot shows (R213): counter `c` of every input of that slot. -/
def State.pulseCounter (s : State) (c : Nat) : Bytes :=
  let n := s.rd Ob.pulseCounterSlot
  if n < 64 then
    let p := s.pipeS n
    numbers 8 ((List.range (puInputs (s.pulseHead n))).map fun i => tget (dconst 0) p.counts (8 * i + c))
  else []

/-- The coefficients in force and their ceilings (R58). -/
def State.coefficientBytes (s : State) : Bytes :=
  (List.range 5).flatMap fun term => (List.range 3).flatMap fun p => leBytes 4 (s.coeff term p) ++ leBytes 4 (s.ceiling term p)

/-- A set of slots as a bit map. -/
def slotMap (l : List Nat) : Nat := (l.map fun n => 2 ^ n).sum

/-- A header readout of microimage `i` (R297): a resident image is Loaded whenever the steward runs. -/
def State.residentOr (s : State) (i : Nat) (f : Bytes → Nat) (k : Nat) : Nat := if 48 ≤ i then f (s.microImage i) else s.rd k

/-- The readouts that are computed when they are read, by the key of their row and the element in it. -/
def readouts : List (Nat × (State → Nat → Shown)) := [
  (Ob.timeNow, fun s _ => .ok (leBytes 16 s.stampNow)),
  (Ob.timeQuality, fun s _ => .ok (leBytes 1 s.quality)),
  (Ob.timeDescriptor, fun s _ => .ok (leBytes 4 s.descriptor)),
  (Ob.synHoldoverTime, fun s _ => .ok (leBytes 4 s.holdoverMs)),
  (Ob.tdcControlValue 0, fun s c => .ok (leBytes 2 (s.tdcCh c).control0 ++ leBytes 2 (s.tdcCh c).control1)),
  (Ob.slotPlacement 0, fun s n => .ok (if s.active n then (s.slot n).placement.bytes else [])),
  (Ob.slotResourceVector 0, fun s n => .ok (if s.active n then vectorBytes (s.slot n).vector else [])),
  (Ob.slotExtentTable 0, fun s n => .ok (if (s.ringS n).present then (s.ringS n).extentTable else [])),
  (Ob.admEnvelopeOvercommit, fun s _ => .ok (leBytes 1 (b2n s.overcommit))),
  (Ob.condValues, fun s _ => .ok (let t := s.evaluated; mapOf fun l => (s.lineS l).at t)),
  (Ob.condSources, fun s _ => .ok (s.lineList 4 fun x => x.cls * 2 ^ 24 + x.src)),
  (Ob.condLineLatency, fun s _ => .ok (s.lineList 8 fun x => x.latency)),
  (Ob.condLineSpacing, fun s _ => .ok (s.lineList 8 fun x => x.spacing)),
  (Ob.condFault, fun s _ => .ok (mapOf fun l => (s.lineS l).fault)),
  (Ob.condEdgeCounts, fun s _ => .ok (s.lineList 4 fun x => x.edges)),
  (Ob.condUntimed, fun s _ => .ok (mapOf fun l => (s.lineS l).untimed)),
  (Ob.condTriggerLog, fun s _ => .ok s.trigLog.flatten),
  (Ob.sieveRouteLatency, fun s _ => .ok ((s.dom Ob.sieveRouteLatency ++ List.replicate 512 0).take 512)),
  (Ob.sieveSaturatedSamples, fun s _ => .ok ((s.dom Ob.sieveSaturatedSamples ++ List.replicate 512 0).take 512)),
  (Ob.pulseAccepted, fun s _ => .ok (s.pulseCounter 0)),
  (Ob.pulseRecorded, fun s _ => .ok (s.pulseCounter 1)),
  (Ob.pulseGuarded, fun s _ => .ok (s.pulseCounter 2)),
  (Ob.pulsePileUps, fun s _ => .ok (s.pulseCounter 3)),
  (Ob.pulseSaturations, fun s _ => .ok (s.pulseCounter 4)),
  (Ob.joinPrbsBits 0, fun s k => .ok (leBytes 8 (s.prbsBits k))),
  (Ob.ringRingState 0, fun s r => .ok (leBytes 1 (s.ringStateShown r))),
  (Ob.mimgUsers 0, fun s i => .ok (leBytes 8 (slotMap (s.microUsers i)))),
  (Ob.nimgUsers 0, fun s i => .ok (leBytes 8 (slotMap (s.nanoUsers i)))),
  (Ob.mimgLoaded 0, fun s i => .ok (leBytes 1 (b2n (s.microLoaded i)))),
  (Ob.nimgLoaded 0, fun s i => .ok (leBytes 1 (b2n (s.nanoLoaded i)))),
  (Ob.mimgWordCount 0, fun s i => .ok (leBytes 2 (s.residentOr i iWordCount (Ob.mimgWordCount i)))),
  (Ob.mimgDeclaredWorst 0, fun s i => .ok (leBytes 4 (s.residentOr i iWorst (Ob.mimgDeclaredWorst i)))),
  (Ob.mimgDeclaredService 0, fun s i => .ok (leBytes 2 (s.residentOr i iSvcCycles (Ob.mimgDeclaredService i)))),
  (Ob.mimgDeclaredCond 0, fun s i => .ok (leBytes 4 (s.residentOr i iCond (Ob.mimgDeclaredCond i)))),
  (Ob.mimgDigest 0, fun s i => .ok (leBytes 4 (s.residentOr i iCrc (Ob.mimgDigest i)))),
  (Ob.nimgWordCount 0, fun s i => .ok (leBytes 2 (if 48 ≤ i then nWordCount (s.nanoImage i) else s.rd (Ob.nimgWordCount i)))),
  (Ob.nimgDigest 0, fun s i => .ok (leBytes 4 (if 48 ≤ i then nHdr (s.nanoImage i) 31 0 else s.rd (Ob.nimgDigest i)))),
  (Ob.mimgImage 0, fun s i => .ok (s.microImage i)),
  (Ob.nimgImage 0, fun s i => .ok (s.nanoImage i)),
  (Ob.fltEntries, fun s _ => .ok (s.life.faultLog.flatMap fun e => e.bytes)),
  (Ob.diagCorrected, fun s _ => .ok (numbers 8 ((List.range 7).map fun i => tget (dconst 0) s.life.corrected i))),
  (Ob.diagUncorrected, fun s _ => .ok (numbers 8 ((List.range 7).map fun i => tget (dconst 0) s.life.uncorrected i))),
  (Ob.dikeClusterState, fun s _ => .ok (numbers 1 ((List.range 64).map s.clusterState))),
  (Ob.dikeEngineState, fun s _ => .ok (numbers 1 ((List.range 1088).map fun e => (s.eng e).st))),
  (Ob.dikeQuadState, fun s _ => .ok (numbers 1 ((List.range 36).map fun q => tget (dconst 0) s.life.quadState q))),
  (Ob.quadLaneState 0, fun s q => .ok (numbers 1 ((List.range 4).map fun l => s.laneState q l))),
  (Ob.ledgCoefficients, fun s _ => .ok s.coefficientBytes),
  (Ob.xferAllAdmittedLimit, fun s _ => .ok (leBytes 8 (transferLimit (s.rd Ob.opCurrent)))),
  (Ob.ssetDirectory, fun s _ => .ok (s.store.directory.flatMap fun e => e.bytes)),
  (Ob.ssetOpenRecordings, fun s _ => .ok (numbers 4 ((List.range 64).filterMap fun n => (s.recording n).map fun r => r.number))),
  (Ob.calCalendar, fun s _ => match s.secondsToDate (s.devNow / s.second % 2 ^ 48) with
    | some b => .ok b
    | none => .error Abort.noData),
  (Ob.calAlarmTime, fun s _ => match s.alarmDate with
    | some b => .ok b
    | none => .error Abort.noData)]

/-- A result that an action leaves, none before any start. -/
def result (w : Nat) : Option Nat → Shown
  | some v => .ok (leBytes w v)
  | none => .error Abort.noData

/-- The result that a register of the map holds: its idle value is its Default. -/
def held (w k : Nat) : State → Shown := fun s => .ok (leBytes w (s.rd k))

/-- A result that stands once the action has been started. -/
def State.since (s : State) (k v : Nat) : Shown := if s.dict.acted.contains k then .ok (leBytes 1 v) else .error Abort.noData

/-- What a read of an act object returns, by the key of its row and the element in it (R450). An act object that is not listed here has no
result, and its read aborts (log entry 40). -/
def actResults : List (Nat × (State → Nat → Shown)) := [
  (Ob.lifePlanNow, fun s _ => result 1 s.life.planResult),
  (Ob.lifeRetireEngine, fun s _ => result 2 s.life.retireResult),
  (Ob.panKeep, fun s _ => held 1 Ob.panKeepResult s),
  (Ob.opRequest, fun s _ => held 1 Ob.opResult s),
  (Ob.stopStop, fun s _ => result 1 s.power.stopResult),
  (Ob.clkSrefFire, fun s _ => result 1 s.syn.fireIgnored),
  (Ob.synApply, fun s _ => result 1 s.syn.applyResult),
  (Ob.timeSetSeconds, fun s _ => result 8 s.time.setStatus),
  (Ob.calSetCalendar, fun s _ => result 8 s.time.setStatus),
  (Ob.timeSyncArm, fun s _ => held 1 Ob.timeSyncState s),
  (Ob.tdcPopBlock 0, fun s c => match (s.tdcCh c).popped with
    | some l => .ok (numbers 8 l)
    | none => .error Abort.noData),
  (Ob.statStart 0, fun s u => .ok (leBytes 1 (b2n (s.statU u).running))),
  (Ob.quadMarginScan 0, fun s q => result 1 (s.scanS q).result),
  (Ob.linkApply 0, fun s j => result 1 (s.linkS j).applyResult),
  (Ob.levelSnapshot, fun s _ => s.since Ob.levelSnapshot 0),
  (Ob.slotAdmit 0, fun s n => result 1 (s.slot n).admitResult),
  (Ob.slotWithdraw 0, fun s n => .ok (leBytes 1 (b2n (s.rd (Ob.slotState n) == 5)))),
  (Ob.slotCommit 0, fun s n => held 1 (Ob.slotCommitResult n) s),
  (Ob.admCheck, fun s _ => result 1 s.life.checkResult),
  (Ob.mapSnapshot 0, fun s k => held 1 (Ob.mapSnapshotState k) s),
  (Ob.mapClear 0, fun s k => s.since (Ob.mapClear k) (b2n (s.mapS k).clearAt.isSome)),
  (Ob.uwinLoad 0, fun s u => s.since (Ob.uwinLoad u) (s.rd (Ob.uwinLoad u))),
  (Ob.protoLoad 0, fun s u => s.since (Ob.protoLoad u) (s.rd (Ob.protoLoad u))),
  (Ob.mimgLoad 0, fun s i => if 48 ≤ i then .ok [0] else s.since (Ob.mimgLoad i) (s.rd (Ob.mimgLoad i))),
  (Ob.nimgLoad 0, fun s i => if 48 ≤ i then .ok [0] else s.since (Ob.nimgLoad i) (s.rd (Ob.nimgLoad i))),
  (Ob.mimgVerify 0, fun s i => s.since (Ob.mimgVerify i) (s.rd (Ob.mimgVerify i))),
  (Ob.hpcRelease 0, fun s q => held 1 (Ob.hpcState q) s),
  (Ob.hpcRetire 0, fun s q => result 1 (s.pcS q).retireResult),
  (Ob.xferStart 0, fun s c => held 1 (Ob.xferState c) s),
  (Ob.ringValidate 0, fun s r => result 1 (s.streamS r).validated),
  (Ob.storQualify 0, fun s k => result 1 (s.driveS k).qualifyResult),
  (Ob.storReinstate 0, fun s k => result 1 (s.driveS k).reinstateResult),
  (Ob.arrApply, fun s _ => result 1 s.arr.applyResult),
  (Ob.arrCalibrate, fun s _ => result 1 (s.arr.calib.map fun l => b2n (!l.isEmpty))),
  (Ob.dispCommit, fun s _ => s.since Ob.dispCommit (b2n s.disp.pending.isSome)),
  (Ob.calibStart, fun s _ => if s.cal.started then held 1 Ob.calibResult s else .error Abort.noData),
  (Ob.calibReapply, fun s _ => result 1 s.cal.reapply)]

/-- Element of a row that a key is. -/
def ObjRow.elem (r : ObjRow) (k : Nat) : Nat := if r.count = 1 then 0 else (k - r.base) / r.stride

/-- The function of a list that a row has. -/
def lookRow {α : Type} (l : List (Nat × α)) (base : Nat) : Option α := (l.find? fun p => p.1 == base).map fun p => p.2

/-- The active value of an object that can be read, as R448 lays it out. -/
def State.value (s : State) (r : ObjRow) (k : Nat) : Shown :=
  match lookRow readouts r.base with
  | some f => f s (r.elem k)
  | none => match r.ty.size with
    | some w => .ok (leBytes w (s.rd k))
    | none => .ok (s.dom k)

/-- The slot whose staged copy a rw object follows (R46, R138, R144, R156), none where its writes are never staged. HostRead is a read
position, and it moves while its slot is Admitted (R225). -/
def State.stagedIn (s : State) (r : ObjRow) (k : Nat) : Option Nat :=
  let own := fun (n : Nat) => if n < 64 then some n else none
  if r.acc ≠ .rw ∨ r.base = Ob.slotHostRead 0 then none
  else if 0x300000 ≤ k ∧ k < 0x380000 then some ((k - 0x300000) / 0x2000)
  else if 0x400000 ≤ k ∧ k < 0x401000 then own (s.rd (Ob.weirBoundSlot ((k - 0x400000) / 256)))
  else if 0x402000 ≤ k ∧ k < 0x402400 then own (s.rd (Ob.mapBoundSlot ((k - 0x402000) / 256)))
  else if 0x404000 ≤ k ∧ k < 0x405000 then own (s.rd (Ob.patOwner ((k - 0x404000) / 256)))
  else none

/-- The staged value of a rw object (R46), or the value that restore has read and holds back (R453). -/
def State.stagedValue (s : State) (r : ObjRow) (k : Nat) : Option Bytes :=
  match s.pantry.restoring.find? fun p => p.1 == k with
  | some p => some p.2
  | none => match s.stagedIn r k with
    | none => none
    | some n =>
      let x := s.slot n
      match r.ty.size with
      | some w => (x.staged.find? fun p => p.1 == k).map fun p => leBytes w p.2
      | none => (x.stagedDom.find? fun p => p.1 == k).map fun p => p.2

/-- A read of the object `k` (R446, R450): its value or the abort code. -/
def State.view (s : State) (k : Nat) : Shown :=
  match objRow k with
  | none =>
    if !indexExists (k / 256) then .error Abort.noObject
    else if k % 256 = 0 then .ok (leBytes 1 (highestSub (k / 256)))
    else .error Abort.noSub
  | some r =>
    match r.acc with
    | .wo => .error Abort.readWo
    | .act => match lookRow actResults r.base with
      | some f => f s (r.elem k)
      | none => .error Abort.noData
    | _ => match s.stagedValue r k with
      | some b => .ok b
      | none => s.value r k

end Sys2Proof.Machine
end

