-- ==== Sys2Proof/Machine/Dictionary.lean ====
section
/-! DEFINITION. Writes of the dictionary (spec/18_dictionary.md R446-R452, R468): the order of the checks, ownership, staging, and what a write to each object does. -/

namespace Sys2Proof.Machine

open Sys2Proof

/-- What the surroundings answer while a write is served: the channels that the drives hold for a Replay (R237), the voltages that a plan
measures (R518), and whether a check that reads another device or a drive passes. -/
structure Ext where
  drive : List (Nat × Nat × Bool) := []
  volts : List Nat := []
  good : Bool := true

/-! ### Lengths (R449) -/

/-- The lengths that a DOMAIN or string permits, by the key of its row; one that is not listed permits any up to 1 MiB. -/
def domLengths : List (Nat × (Nat → Bool)) := [
  (Ob.devEnvelope, fun n => decide (8 ≤ n) && decide (n ≤ 1048584)),
  (Ob.ledgShuntMap, fun n => n == 0 || n == 32),
  (Ob.stopCanWake, fun n => n % 8 == 0 && decide (n ≤ 32)),
  (Ob.tdcPopBlock 0, fun n => n == 1),
  (Ob.linkLaneMap 0, fun n => decide (n ≤ 16)),
  (Ob.slotStages 0, fun n => n % 8 == 0 && decide (n ≤ 128)),
  (Ob.condClearFault, fun n => n == 32),
  (Ob.condImports, fun n => n % 4 == 0 && decide (n ≤ 256)),
  (Ob.weirLimits 0, fun n => n % 4 == 0 && decide (n ≤ 1048576)),
  (Ob.patCare 0, fun n => n == 32),
  (Ob.patValue 0, fun n => n == 32),
  (Ob.mapRenderTarget 0, fun n => n == 0 || n == 16),
  (Ob.ringPageAddrs 0, fun n => n % 8 == 0 && decide (n ≤ 131072)),
  (Ob.dispTiming, fun n => n == 0 || n == 32),
  (Ob.dispBuffers, fun n => n % 16 == 0 && decide (n ≤ 64)),
  (Ob.hbmInterleaveMasks, fun n => n == 80),
  (Ob.hbmHostReserve, fun n => n % 16 == 0 && decide (n ≤ 256)),
  (Ob.hkcOffsets, fun n => n == 128),
  (Ob.hkcGains, fun n => n == 128),
  (Ob.calibStart, fun n => n == 32),
  (Ob.calibPathGain, fun n => n == 128),
  (Ob.calibPathPhase, fun n => n == 128),
  (Ob.calibPathOffset, fun n => n == 256),
  (Ob.calSetCalendar, fun n => n == 8),
  (Ob.calAlarmTime, fun n => n == 8),
  (Ob.arrArrayConfig, fun n => n == 0 || n == 336)]

/-- Is a length permitted (R449)? -/
def ObjRow.lengthOk (r : ObjRow) (n : Nat) : Bool :=
  match r.ty.size with
  | some w => n == w
  | none => match lookRow domLengths r.base with
    | some f => f n
    | none => decide (n ≤ 1048576)

/-! ### Ownership (R46, R450) -/

/-- The active slots whose Geometry names user window `u`, or user prototype `u`, a Replay's through its chain (R110, R178, R237). -/
def State.windowUsed (s : State) (u : Nat) : Bool :=
  (List.range 64).any fun n => s.active n && s.chainMode n == 1 && spWindow (leNat (s.chainGeom n)) == 6 && spParam (leNat (s.chainGeom n)) == u
def State.prototypeUsed (s : State) (u : Nat) : Bool :=
  (List.range 64).any fun n => s.active n && s.chainMode n == 2 && bits (s.sieveHead n) 214 212 == u + 1

/-- An owning pipeline of a rwq object is in a state other than Empty or Described. -/
def State.owned (s : State) (k : Nat) : Bool :=
  let ix := k / 256
  if 0x300000 ≤ k ∧ k < 0x380000 then s.active ((k - 0x300000) / 0x2000)
  else if 0x2800 ≤ ix ∧ ix < 0x2810 then s.linkOwned (ix - 0x2800)
  else if 0x2820 ≤ ix ∧ ix < 0x2860 then !(s.chanOwners (ix - 0x2820)).isEmpty
  else if 0x4020 ≤ ix ∧ ix < 0x4024 then let b := s.rd (Ob.mapBoundSlot (ix - 0x4020)); decide (b < 64) && s.active b
  else if ix = 0x4200 then s.windowUsed (k % 256 / 16)
  else if ix = 0x4400 then s.prototypeUsed (k % 256 / 16)
  else if 0x4820 ≤ ix ∧ ix < 0x4840 then s.rd (Ob.ringOwner (ix - 0x4820)) != 0xFF && s.rd (Ob.ringRingState (ix - 0x4820)) != 5
  else if 0x5800 ≤ ix ∧ ix < 0x5840 then !(s.microUsers (ix - 0x5800)).isEmpty
  else if 0x5840 ≤ ix ∧ ix < 0x5880 then !(s.nanoUsers (ix - 0x5840)).isEmpty
  else false

/-! ### Device state and values (R451 steps 4 and 5) -/

/-- The host may not write a transfer channel's parameters now (R336, R338). -/
def State.xferHeld (s : State) (c : Nat) : Bool :=
  s.xowner c == 1 || s.xowner c == 2 || (s.xowner c == 3 && !([0, 6, 7, 8].contains (s.xst c)))

/-- A calibration of kind `k` runs and produces the values (R530). -/
def State.producing (s : State) (k : Nat) : Bool := s.cal.kind == k

/-- The device states in which a value cannot be written, by the key of the row: element and value. -/
def stateBars : List (Nat × (State → Nat → Nat → Bool)) := [
  (Ob.penvEnvelope, fun s _ v => decide (v < s.rd Ob.admChargedPower)),
  (Ob.penvBestEffortAllowance, fun s _ v => decide (s.rd Ob.penvBestEffortAllowance < v)
    && decide (s.rd Ob.penvEnvelope < s.rd Ob.admChargedPower + (v - s.rd Ob.penvBestEffortAllowance))),
  (Ob.timeStreamInRate, fun s _ _ => s.rdB Ob.timeStreamInEnable),
  (Ob.timeStreamOutRate, fun s _ _ => s.rdB Ob.timeStreamOutEnable),
  (Ob.timeStreamOutEnable, fun s _ v => v == 1 && !s.counts),
  (Ob.tdcEnable 0, fun s _ v => v == 1 && !s.counts),
  (Ob.tdcEdges 0, fun s c _ => s.rdB (Ob.tdcEnable c)),
  (Ob.tdcInvert 0, fun s c _ => s.rdB (Ob.tdcEnable c)),
  (Ob.tdcInputDelay 0, fun s c _ => s.rdB (Ob.tdcEnable c)),
  (Ob.statMode 0, fun s u _ => (s.statU u).running),
  (Ob.statChannelA 0, fun s u _ => (s.statU u).running),
  (Ob.statChannelB 0, fun s u _ => (s.statU u).running),
  (Ob.statCount 0, fun s u _ => (s.statU u).running),
  (Ob.statWindow 0, fun s u _ => (s.statU u).running),
  (Ob.primLineRate, fun s _ _ => s.rd Ob.primEnable != 0),
  (Ob.primDelayD, fun s _ _ => s.rd Ob.primEnable != 0),
  (Ob.primPolarity, fun s _ _ => s.rd Ob.primEnable != 0),
  (Ob.joinEnable 0, fun s k v => v == 0 && (s.joinUsed k || s.rd (Ob.joinBulkCharged k) != 0)),
  (Ob.xferPriority 0, fun s c _ => s.xferHeld c),
  (Ob.xferSourceSpace 0, fun s c _ => s.xferHeld c),
  (Ob.xferSource 0, fun s c _ => s.xferHeld c),
  (Ob.xferDestSpace 0, fun s c _ => s.xferHeld c),
  (Ob.xferDest 0, fun s c _ => s.xferHeld c),
  (Ob.xferLength 0, fun s c _ => s.xferHeld c),
  (Ob.dispTiming, fun s _ _ => s.rdB Ob.dispEnable),
  (Ob.dispMaxLinkRate, fun s _ _ => s.rdB Ob.dispEnable),
  (Ob.dispSpreadEnable, fun s _ _ => s.rdB Ob.dispEnable),
  (Ob.dispSyncMode, fun s _ _ => s.rdB Ob.dispEnable),
  (Ob.dispRefreshMin, fun s _ _ => s.rdB Ob.dispEnable),
  (Ob.dispRefreshMax, fun s _ _ => s.rdB Ob.dispEnable),
  (Ob.hkcOffsets, fun s _ _ => s.producing 1),
  (Ob.hkcGains, fun s _ _ => s.producing 1),
  (Ob.calibRtcTrim, fun s _ _ => s.producing 2),
  (Ob.calibPathGain, fun s _ _ => s.producing 3),
  (Ob.calibPathPhase, fun s _ _ => s.producing 3),
  (Ob.calibPathOffset, fun s _ _ => s.producing 3),
  (Ob.calibPathValid, fun s _ _ => s.producing 3)]

/-- The block clock of a timing stream in hertz (R434). -/
def blockClock (rate : Nat) : Nat := if rate = 0 then 156250000 else 390625000

/-- The block clock is an exact ratio of f_T with both terms at most 65,535 (R434). -/
def ratioOk (fT rate : Nat) : Bool :=
  let g := Nat.gcd fT (blockClock rate)
  g != 0 && decide (fT / g ≤ 65535) && decide (blockClock rate / g ≤ 65535)

/-- The entries of a ShuntMap name rails 0 to 7, each once, and hold zeros where reserved (R484). -/
def shuntOk (b : Bytes) : Bool :=
  let rails := (List.range (b.length / 8)).map fun k => leAt b (8 * k + 7) 1
  ((List.range (b.length / 8)).all fun k => leAt b (8 * k + 4) 3 == 0)
  && (rails.all fun r => decide (r < 8) || r == 0xFF)
  && decide (rails.filter fun r => r != 0xFF).Nodup

/-- CanWake entries hold zeros where reserved (R491). -/
def canWakeOk (b : Bytes) : Bool := (List.range (b.length / 8)).all fun k => leAt b (8 * k) 3 == 0

/-- A sequencer entry names a channel of R525 and holds zeros where reserved (R528). -/
def sequencerOk (v : Nat) : Bool := bits v 31 30 == 0 && decide (bits v 29 24 < 62)

/-- What a value must meet beside its range, by the key of the row: element, value, octets. -/
def valueChecks : List (Nat × (State → Nat → Nat → Bytes → Bool)) := [
  (Ob.comErrorCount, fun _ _ v _ => v == 0),
  (Ob.opStartPoint, fun _ _ v _ => decide (v ≤ 2)),
  (Ob.ledgShuntMap, fun _ _ _ b => shuntOk b),
  (Ob.stopCanWake, fun _ _ _ b => canWakeOk b),
  (Ob.timeSyncMode, fun _ _ v _ => decide (v ≤ 3)),
  (Ob.timeStreamOutEnable, fun s _ v _ => v == 0 || ratioOk s.fT (s.rd Ob.timeStreamOutRate)),
  (Ob.linkReleaseDelay 0, fun _ _ v _ => v % 256 == 0),
  (Ob.tdcQueuePolicy 0, fun _ _ v _ => decide (v ≤ 1)),
  (Ob.statMode 0, fun _ _ v _ => decide (v ≤ 3)),
  (Ob.storQualifyBytes 0, fun s k v _ => decide (17179869184 ≤ v) && (s.rd (Ob.storCapacity k) == 0 || decide (v ≤ s.rd (Ob.storCapacity k)))),
  (Ob.primDelayD, fun s _ v _ => decide (s.second ≤ 2000000 * v) && decide (1000000 * v ≤ 4 * s.second)),
  (Ob.mapRenderTarget 0, fun s k _ b => s.renderOk k b),
  (Ob.mapPalette 0, fun _ _ _ b => b.length == 1024),
  (Ob.arrArrayConfig, fun _ _ _ b => leAt b 0 16 % 2 ^ 111 == 0),
  (Ob.dispTiming, fun _ _ _ b => leNat b % 2 ^ 128 == 0),
  (Ob.dispRefreshMax, fun s _ v _ => decide (s.rd Ob.dispRefreshMin ≤ v)),
  (Ob.hkSequencerTable 0, fun _ _ v _ => sequencerOk v),
  (Ob.hkcOffsets, fun _ _ _ b => calValueOk Ob.hkcOffsets b),
  (Ob.hkcGains, fun _ _ _ b => calValueOk Ob.hkcGains b),
  (Ob.calibPathGain, fun _ _ _ b => calValueOk Ob.calibPathGain b),
  (Ob.calibPathOffset, fun _ _ _ b => calValueOk Ob.calibPathOffset b),
  (Ob.calibRtcTrim, fun _ _ v _ => decide ((sint 32 v).natAbs ≤ 10000))]

/-- Is the value in range (R451 step 5)? -/
def State.valueOk (s : State) (r : ObjRow) (k v : Nat) (b : Bytes) : Bool :=
  (match r.ty with
    | .bool => decide (v ≤ 1)
    | .str | .dom => true
    | _ => r.rng.holds v || (r.base == Ob.arrPosition && v == 0xFF))
  && (match lookRow valueChecks r.base with
    | some f => f s (r.elem k) v b
    | none => true)

/-! ### What follows a write -/

/-- ChannelRate follows the channel's link (R88). -/
def State.channelRate (s : State) (k : Nat) : State :=
  let j := s.rd (Ob.chanSourceLink k)
  let fs := if j < 16 then s.rd (Ob.linkSampleRate j) else 0
  s.wr (Ob.chanChannelRate k) (if s.rd (Ob.chanConverterQ k) = 0xFF then fs else 2 * fs)

/-- A level object was written (R95): at an interval boundary, or at once where the chain does not run. -/
def State.levelWritten (s : State) (k : Nat) : State :=
  let s1 := s.setChan k { s.chanS k with written95 := true }
  if s1.chainRuns k then s1 else s1.levelSettle k s1.devNow

/-- What a write does once its value is stored, by the key of the row: element, value. -/
def effects : List (Nat × (Nat → Nat → State → State)) := [
  (Ob.comErrorCount, fun _ _ s => s.wrs ((List.range 8).map fun i => (Ob.comErrorField i, 0))),
  (Ob.penvBestEffortAllowance, fun _ _ s => s.recharge),
  (Ob.stopAuxLdo0, fun _ _ s => s.auxBoth),
  (Ob.stopAuxLdo1, fun _ _ s => s.auxBoth),
  (Ob.timeStreamInEnable, fun _ v s => if v = 0 then s.streamAbsent else s),
  (Ob.joinEnable 0, fun k v s => if v = 0 then s.leaveActive k 0 else if s.rd (Ob.joinState k) = 0 then s.wr (Ob.joinState k) 1 else s),
  (Ob.chanLevelLength 0, fun k _ s => s.levelWritten k),
  (Ob.chanLevelMode 0, fun k _ s => s.levelWritten k),
  (Ob.chanLevelInterval 0, fun k _ s => s.levelWritten k),
  (Ob.chanEnvAttack 0, fun k _ s => s.levelWritten k),
  (Ob.chanEnvRelease 0, fun k _ s => s.levelWritten k),
  (Ob.slotMode 0, fun n v s => s.wr (Ob.slotState n) (if v = 0 then 0 else 1)),
  (Ob.uwinLength 0, fun u _ s => s.wr (Ob.uwinLoaded u) 0),
  (Ob.uwinCoefficients 0, fun u _ s => s.wr (Ob.uwinLoaded u) 0),
  (Ob.protoLength 0, fun u _ s => s.wr (Ob.protoLoaded u) 0),
  (Ob.protoCoefficients 0, fun u _ s => s.wr (Ob.protoLoaded u) 0),
  (Ob.mimgImage 0, fun i _ s => s.wr (Ob.mimgLoaded i) 0),
  (Ob.nimgImage 0, fun i _ s => s.wr (Ob.nimgLoaded i) 0),
  (Ob.filtFilterChannel 0, fun u _ s => s.filterWritten u),
  (Ob.filtFilterMode 0, fun u _ s => s.filterWritten u),
  (Ob.filtFilterLength 0, fun u _ s => s.filterWritten u),
  (Ob.filtFilterInterval 0, fun u _ s => s.filterWritten u),
  (Ob.filtFilterEnv 0, fun u _ s => s.filterWritten u),
  (Ob.hbmSleepEnable, fun _ v s => if v = 0 then (List.range 64).foldl (fun s q => s.wr (Ob.hpcPowerState q) 0) s else s),
  (Ob.hkcOffsets, fun _ _ s => s.wr Ob.hkcOrigin 2),
  (Ob.hkcGains, fun _ _ s => s.wr Ob.hkcOrigin 2)]

/-- The level objects of a channel (R95). -/
def levelRows : List Nat :=
  [Ob.chanLevelLength 0, Ob.chanLevelMode 0, Ob.chanLevelInterval 0, Ob.chanEnvAttack 0, Ob.chanEnvRelease 0]

/-- The value is stored, and what follows happens. An interval whose samples are all taken ends before a write to a level object (R102). -/
def State.keepValue (s0 : State) (r : ObjRow) (k v : Nat) (b : Bytes) : State :=
  let s := if levelRows.contains r.base then s0.levelDue (r.elem k) else s0
  let s1 := match r.ty.size with
    | some _ => s.wr k v
    | none => s.setDom k b
  match lookRow effects r.base with
  | some f => f (r.elem k) v s1
  | none => s1

/-! ### Objects whose writes have rules of their own -/

/-- What a write of 0x01 starts: the checks of the action, then the value. -/
def ones (f : Act) (v : Nat) : Act := fun s =>
  match f s with
  | .ok s1 => if v = 1 then .ok s1 else .error Abort.range
  | .error c => .error c

/-- A write of a channel's mapping (R88, R140, R581): the chain counts from its next sample, and a level line takes its new L_line. -/
def mappingWrite (r : ObjRow) (key k v : Nat) : Act := fun s =>
  if !s.valueOk r key v [] then .error Abort.range
  else
    let s1 := ((s.wr key v).channelRate k).chainReset k
    if s.rd (Ob.chanCondLine k) < 256 then
      let s2 := (s1.levelSource k).refreshFabric
      if s2.fabricBroken || s2.exportBreak.isSome then .error Abort.range else .ok s2
    else .ok s1

/-- A write of a primitive-stream parameter (R151-R153). -/
def primitiveWrite (r : ObjRow) (key v : Nat) : Act := fun s =>
  if !s.valueOk r key v [] then .error Abort.range
  else
    let s1 := (s.wr key v).refreshFabric
    if s1.minDBreak.isSome || s1.chargeBreak.isSome then .error Abort.range else .ok s1

/-- Start of a calibration (R530): kind, channel mask and StartAt; the rest is reserved. -/
def calibrationWrite (b : Bytes) : Act := fun s =>
  let x := leNat b
  match calStart (bits x 255 248) (bits x 247 184) (bits x 183 56) s with
  | .ok s1 => if bits x 55 0 = 0 then .ok s1 else .error Abort.range
  | .error c => .error c

/-- Enable of a TDC channel: Stamped counts the stamps formed since (0x2440+c:08). -/
def tdcEnableWrite (c v : Nat) : Act := fun s =>
  if 1 < v then .error Abort.range
  else .ok ((if v == 1 && !s.rdB (Ob.tdcEnable c) then s.wr (Ob.tdcStamped c) 0 else s).wr (Ob.tdcEnable c) v)

/-- SetCalendar (R430, R431, R468). -/
def setCalendar (b : Bytes) : Act := fun s =>
  if b.length ≠ 8 then .error Abort.length
  else if !s.counts || s.stepForbidden then .error Abort.state
  else match s.dateToSeconds b with
    | some v => setSeconds v s
    | none => .error Abort.range

/-- The writes that have rules of their own, by the key of the row: the row, the key, the element, the value, its octets, and the
surroundings. -/
def writers : List (Nat × (ObjRow → Nat → Nat → Nat → Bytes → Ext → Act)) := [
  (Ob.calAlarmTime, fun _ _ _ _ b _ => alarmWrite b),
  (Ob.calSetCalendar, fun _ _ _ _ b _ => setCalendar b),
  (Ob.lifePlanNow, fun _ _ _ v _ e => ones (planNow e.volts) v),
  (Ob.lifeRetireEngine, fun _ _ _ v _ _ => retireAction v),
  (Ob.panKeep, fun _ _ _ v _ _ => ones keepAction v),
  (Ob.panDiscard, fun _ _ _ v _ _ => ones discardAction v),
  (Ob.panFirmwareImage, fun _ _ _ _ b _ => firmwareWrite b),
  (Ob.panFirmwareSwap, fun _ _ _ v _ _ => ones firmwareSwap v),
  (Ob.panFirmwareConfirm, fun _ _ _ v _ _ => ones firmwareConfirm v),
  (Ob.opRequest, fun _ _ _ v _ _ => pointRequest v),
  (Ob.ledgClearPeak, fun _ _ _ v _ _ => ones clearPeak v),
  (Ob.refuClear, fun _ _ _ v _ _ => ones refusalClear v),
  (Ob.stopStop, fun _ _ _ v _ _ => stopAction v),
  (Ob.stopAuxLdoReset, fun _ _ _ v _ _ => auxReset v),
  (Ob.clkDclkConfig 0, fun _ _ k v _ _ => clkWrite (k + 1) v),
  (Ob.clkSrefConfig 0, fun _ _ k v _ _ => clkWrite (k + 9) v),
  (Ob.clkSrefOffset 0, fun _ _ k v _ _ => clkWrite (k + 0x11) v),
  (Ob.clkSrefFire, fun _ _ _ v _ _ => srefFire v),
  (Ob.synApply, fun _ _ _ v _ _ => ones synApply v),
  (Ob.timeSetSeconds, fun _ _ _ v _ _ => setSeconds v),
  (Ob.timeSyncArm, fun _ _ _ v _ _ => ones syncArm v),
  (Ob.timeAdopt, fun _ _ _ v _ _ => ones adopt v),
  (Ob.tdcEnable 0, fun _ _ c v _ _ => tdcEnableWrite c v),
  (Ob.tdcPopBlock 0, fun _ _ c v _ _ => popBlock c v),
  (Ob.tdcClearQueue 0, fun _ _ c v _ _ => ones (clearQueue c) v),
  (Ob.statStart 0, fun _ _ u v _ _ => ones (statsStart u) v),
  (Ob.joinRetrain 0, fun _ _ k v _ _ => ones (joinRetrain k) v),
  (Ob.joinTestMode 0, fun _ _ k v _ _ => joinTestMode k v),
  (Ob.joinClearCounters 0, fun _ _ k v _ _ => ones (joinClear k) v),
  (Ob.quadMarginScan 0, fun _ _ q v _ _ => marginScan q v),
  (Ob.quadClearFault 0, fun _ _ q v _ _ => ones (quadClear q) v),
  (Ob.linkApply 0, fun _ _ j v _ _ => ones (linkApply j) v),
  (Ob.linkClearCounters 0, fun _ _ j v _ _ => ones (linkClear j) v),
  (Ob.chanSourceLink 0, fun r key k v _ _ => mappingWrite r key k v),
  (Ob.chanConverterI 0, fun r key k v _ _ => mappingWrite r key k v),
  (Ob.chanConverterQ 0, fun r key k v _ _ => mappingWrite r key k v),
  (Ob.chanDumpRestart 0, fun _ _ k v _ _ => dumpRestart k v),
  (Ob.chanCondLine 0, fun _ _ k v _ _ => levelConditionWrite k 0x16 v),
  (Ob.chanCondSource 0, fun _ _ k v _ _ => levelConditionWrite k 0x17 v),
  (Ob.chanCondHigh 0, fun _ _ k v _ _ => levelConditionWrite k 0x18 v),
  (Ob.chanCondLow 0, fun _ _ k v _ _ => levelConditionWrite k 0x19 v),
  (Ob.levelSnapshot, fun _ _ _ v _ _ => ones levelSnapshot v),
  (Ob.levelClearSticky, fun _ _ _ v _ _ => clearSticky v),
  (Ob.slotAdmit 0, fun _ _ n v _ e => ones (admitAction n e.drive) v),
  (Ob.slotWithdraw 0, fun _ _ n v _ _ => ones (withdrawAction n) v),
  (Ob.slotHostRead 0, fun _ _ n v _ _ => hostReadWrite n v),
  (Ob.slotRearm 0, fun _ _ n v _ _ => ones (rearm n) v),
  (Ob.slotReleaseRing 0, fun _ _ n v _ _ => ones (releaseRing n) v),
  (Ob.slotCommit 0, fun _ _ n v _ _ => commitAction n v),
  (Ob.slotCancel 0, fun _ _ n v _ _ => ones (cancelAction n) v),
  (Ob.admCheck, fun _ _ _ v _ e => checkAction v e.drive),
  (Ob.admGroupCommit, fun _ _ _ _ b _ => groupAction (Config.groupTime b) (Config.groupSlots b) (Config.groupOthers b)),
  (Ob.condClearFault, fun _ _ _ _ b _ => clearLineFault b),
  (Ob.condClearLog, fun _ _ _ v _ _ => ones clearLog v),
  (Ob.condImports, fun _ _ _ _ b _ => importsWrite b),
  (Ob.condTrigOutConfig 0, fun _ _ k v _ _ => trigOutConfig k v),
  (Ob.patCare 0, fun _ _ u _ b _ => patternUnitWrite u 1 0 (some b)),
  (Ob.patValue 0, fun _ _ u _ b _ => patternUnitWrite u 2 0 (some b)),
  (Ob.patQual 0, fun _ _ u v _ _ => patternUnitWrite u 3 v none),
  (Ob.patHoldOff 0, fun _ _ u v _ _ => patternUnitWrite u 4 v none),
  (Ob.patOutputs 0, fun _ _ u v _ _ => patternUnitWrite u 5 v none),
  (Ob.patEnable 0, fun _ _ u v _ _ => patternUnitWrite u 6 v none),
  (Ob.patOwner 0, fun _ _ u v _ _ => patternUnitWrite u 7 v none),
  (Ob.primEnable, fun _ _ _ v _ _ => primitiveEnable v),
  (Ob.primLineRate, fun r key _ v _ _ => primitiveWrite r key v),
  (Ob.primDelayD, fun r key _ v _ _ => primitiveWrite r key v),
  (Ob.primContentA, fun r key _ v _ _ => primitiveWrite r key v),
  (Ob.primContentB, fun r key _ v _ _ => primitiveWrite r key v),
  (Ob.primLineBaseA, fun r key _ v _ _ => primitiveWrite r key v),
  (Ob.primLineBaseB, fun r key _ v _ _ => primitiveWrite r key v),
  (Ob.mapSnapshot 0, fun _ _ k v _ _ => mapSnapshot k v),
  (Ob.mapClear 0, fun _ _ k v _ _ => mapClear k v),
  (Ob.uwinLoad 0, fun _ _ u v _ _ => ones (userWindowLoad u) v),
  (Ob.protoLoad 0, fun _ _ u v _ _ => ones (sieveLoad u) v),
  (Ob.pulseClearCounters, fun _ _ _ v _ _ => pulseClearCounters v),
  (Ob.xferStart 0, fun _ _ c v _ _ => ones (transferStart c) v),
  (Ob.xferPause 0, fun _ _ c v _ _ => transferPause c (v != 0)),
  (Ob.xferAbort 0, fun _ _ c v _ _ => ones (transferAbort c) v),
  (Ob.ringValidate 0, fun _ _ r v _ _ => ones (ringValidate r) v),
  (Ob.ringRestart 0, fun _ _ r v _ _ => ones (ringRestart r) v),
  (Ob.hlinkRetrain, fun _ _ _ v _ _ => ones linkRetrain v),
  (Ob.storEnable 0, fun _ _ k v _ _ => storageEnable k (v != 0)),
  (Ob.storQualify 0, fun _ _ k v _ _ => ones (qualify k) v),
  (Ob.storReinstate 0, fun _ _ k v _ e => ones (reinstate k e.good) v),
  (Ob.ssetFormSet, fun _ _ _ v _ _ => formSet v),
  (Ob.ssetDeleteRecording, fun _ _ _ v _ _ => deleteRecording v),
  (Ob.dispEnable, fun _ _ _ v _ _ => displayEnable (v != 0)),
  (Ob.dispBuffers, fun _ _ _ _ b _ => buffersWrite b),
  (Ob.dispCommit, fun _ _ _ v _ _ => displayCommit v),
  (Ob.dispClearFlags, fun _ _ _ v _ _ => ones displayClear v),
  (Ob.hbmInterleaveMasks, fun _ _ _ _ b _ => masksWrite b),
  (Ob.hbmHostReserve, fun _ _ _ _ b _ => reserveWrite b),
  (Ob.hpcRelease 0, fun _ _ q v _ _ => ones (hbmRelease q) v),
  (Ob.hpcRetire 0, fun _ _ q v _ _ => ones (hbmRetire q) v),
  (Ob.mimgLoad 0, fun _ _ i v _ _ => ones (microLoad i) v),
  (Ob.mimgVerify 0, fun _ _ i v _ _ => imageVerify i v),
  (Ob.nimgLoad 0, fun _ _ i v _ _ => ones (nanoLoad i) v),
  (Ob.calibStart, fun _ _ _ _ b _ => calibrationWrite b),
  (Ob.calibCapture, fun _ _ _ v _ _ => ones calCapture v),
  (Ob.calibReapply, fun _ _ _ v _ _ => ones calReapply v),
  (Ob.lockClearLatent, fun _ _ _ v _ _ => ones clearLatent v),
  (Ob.lockRestart, fun _ _ _ v _ _ => ones restartAction v),
  (Ob.fltAcknowledge, fun _ _ _ v _ _ => faultAck v),
  (Ob.diagClearOverTemp, fun _ _ _ v _ _ => ones clearOverTemp v),
  (Ob.diagClearCounters, fun _ _ _ v _ _ => ones diagClear v),
  (Ob.arrApply, fun _ _ _ v _ e => ones (arrayApply e.good) v),
  (Ob.arrCalibrate, fun _ _ _ v _ _ => ones joinCalibrate v)]

/-! ### The write (R451) -/

/-- The object is const although its row is not: the resident images (R297). -/
def residentImage (r : ObjRow) (k : Nat) : Bool := (r.base == Ob.mimgImage 0 || r.base == Ob.nimgImage 0) && decide (48 ≤ r.elem k)

/-- The device's state forbids the write (R451, check 4). -/
def State.barred (s : State) (r : ObjRow) (k v : Nat) : Bool :=
  match lookRow stateBars r.base with
  | some f => f s (r.elem k) v
  | none => false

/-- The slot that would stage the value has a commit armed or does not take staged values (R46). -/
def State.stageHeld (s : State) (r : ObjRow) (k : Nat) : Bool :=
  match s.stagedIn r k with
  | some n => (s.slot n).holds || decide (3 ≤ s.rd (Ob.slotState n))
  | none => false

/-- The value is kept, or staged for an Admitted slot (R46). -/
def State.putValue (s : State) (r : ObjRow) (k v : Nat) (b : Bytes) : State :=
  match s.stagedIn r k with
  | some n =>
    if s.rd (Ob.slotState n) = 2 then (match r.ty.size with
      | some _ => s.stageNum n k v
      | none => s.stageDom n k b)
    else s.keepValue r k v b
  | none => s.keepValue r k v b

/-- Checks 4 and 5 of R451 and the effect of a write whose object, class and length have passed. -/
def writeChecked (r : ObjRow) (k v : Nat) (b : Bytes) (x : Ext) : Act := fun s =>
  if (r.acc == .rwq && s.owned k) || s.barred r k v then .error Abort.state
  else if r.ty = .bool ∧ 1 < v then .error Abort.range
  else match lookRow writers r.base with
    | some f => f r k (r.elem k) v b x s
    | none =>
      if s.stageHeld r k then .error Abort.state
      else if !s.valueOk r k v b then .error Abort.range
      else .ok (s.putValue r k v b)

/-- A write of the octets `b` to the object `k`, checked in the order of R451. -/
def dictWrite (k : Nat) (b : Bytes) (x : Ext) : Act := fun s =>
  match objRow k with
  | none => .error (if !indexExists (k / 256) then Abort.noObject else if k % 256 = 0 then Abort.writeRo else Abort.noSub)
  | some r =>
    if r.acc = .const ∨ r.acc = .ro ∨ residentImage r k = true then .error Abort.writeRo
    else if !r.lengthOk b.length then .error Abort.length
    else writeChecked r k (leNat b) b x s

/-- Target 0xFF or the device's own position (R465; on a follower too: DEDUCED, log entry 176). -/
def State.isLocal (s : State) (target : Nat) : Bool := target == 0xFF || (s.inArray && target == s.arr.pos)

/-- A write of an object's whole value; an Envelope's is one write of its inner object, whose prefix has its reserved bits zero (R12, R461). One
forwarded to another position needs a transaction (DICT_SUBMIT, USDO_REQUEST, ENVELOPE_WRITE): here it aborts (DESIGN CHOICE, log entry 177). -/
def dictWriteInner : Nat → Nat → Bytes → Ext → Act
  | 0, _, _, _ => fun _ => .error Abort.length
  | fuel + 1, k, b, x => fun s =>
    if k = Ob.devEnvelope then
      if b.length < 8 ∨ 1048584 < b.length then .error Abort.length
      else
        let p := leNat (b.take 8)
        if p % 65536 ≠ 0 then .error Abort.range
        else if !s.isLocal (bits p 39 32) then .error Abort.state
        else dictWriteInner fuel (bits p 63 48 * 256 + bits p 47 40) (b.drop 8) x s
    else dictWrite k b x s

/-- A write of an object, the Envelope included. -/
def dictWriteAny (k : Nat) (b : Bytes) (x : Ext) : Act := dictWriteInner (b.length / 8 + 2) k b x

/-- DICTIONARY_WRITE (R451). -/
def execDictionaryWrite (t key : Nat) (data : List (BitVec 8)) (drive : List (Nat × Nat × Bool)) (volts : List Nat) (good : Bool)
    (s : State) : Outcome := .next (s.serveNoting t (dictWriteAny key data { drive := drive, volts := volts, good := good }))

/-- SET_CALENDAR (R468). -/
def execSetCalendar (t : Nat) (data : List (BitVec 8)) (s : State) : Outcome := .next (s.serve t (setCalendar data))

/-- ERROR_FIELD_CLEAR (R463): 0 written to 0x1003:00 clears the list and its count. -/
def execErrorFieldClear (t value : Nat) (s : State) : Outcome :=
  .next (s.serve t (dictWrite Ob.comErrorCount (leBytes 1 value) {}))

end Sys2Proof.Machine
end

