-- ==== Sys2Proof/Machine/Transact.lean ====
section
/-! DEFINITION. Transactions of the dictionary (spec/18_dictionary.md R447, R454-R458, R461, R465, R466; spec/15_arrays.md R397): tags, segments, the latch and staging buffers, and forwarding over the array. -/

namespace Sys2Proof.Machine

open Sys2Proof

/-- A CAN port is enabled and not bus-off. -/
def State.portOpen (s : State) (p : Nat) : Bool := bit (s.rd Ob.devCanEnable) p && !bit s.dict.busOff p

/-- One request: its transport (0 PCIe, 1 CAN FD, 2 join forwarding) and client, and what the header of R457 says. -/
structure Req where
  transport : Nat
  client : Nat
  op : Nat
  key : Nat
  more : Bool := false
  tag : Nat := 0
  target : Nat := 0xFF
  offset : Nat := 0
  length : Nat := 0
  submit : Nat := 0
  data : Bytes := []
  deriving DecidableEq, Repr

/-- A request as the header of window A lays it out (R457); its data are the first Length octets. -/
def Req.ofHeader (transport client h : Nat) (data : Bytes) : Req :=
  { transport := transport, client := client, op := bits h 231 224, key := bits h 255 240 * 256 + bits h 239 232, more := bit h 216
    tag := bits h 207 192, target := bits h 191 184, offset := bits h 159 128, length := bits h 127 96, submit := bits h 31 0
    data := data.take (bits h 127 96) }

/-- A forwarded request's header (R465): the origin position and transport take the place of Target. -/
def Req.header (r : Req) (pos offset : Nat) (more : Bool) (part : Nat) : Nat :=
  r.key / 256 * 2 ^ 240 + r.key % 256 * 2 ^ 232 + r.op * 2 ^ 224 + b2n more * 2 ^ 216 + r.client % 256 * 2 ^ 208 + r.tag * 2 ^ 192
    + pos * 2 ^ 184 + r.transport * 2 ^ 176 + offset * 2 ^ 128 + part * 2 ^ 96 + r.submit

/-- A response as the header of window A lays it out (R457). -/
def Response.header (p : Response) : Nat :=
  p.code * 2 ^ 224 + p.totalLength * 2 ^ 192 + p.offset * 2 ^ 160 + p.data.length * 2 ^ 128 + p.tag * 2 ^ 112
    + (b2n p.duplicate + 2 * b2n p.more) * 2 ^ 104 + p.done

/-- Issue the response of a request: window A's raises vector 0 (R457), a forwarded one returns over the route (R397). The transaction
is complete, and a checkpoint follows (R28). -/
def State.reply (s : State) (r : Req) (p : Response) : State :=
  let p' := { p with transport := r.transport, client := r.client, tag := r.tag, offset := r.offset, done := r.submit }
  let s1 := ({ s with dict := { s.dict with response := some p' } } : State).checkpoint
  if r.transport = 0 then ({ s1 with dict := { s1.dict with busySubmit := none } } : State).msix 0
  else if r.transport = 2 then s1.emit (.forward (r.client / 65536) p'.header p'.data)
  else s1

/-- A response that only carries an abort code. -/
def aborted (c : Nat) : Response := { transport := 0, client := 0, code := c }

/-! ### Ages (R455, R458) -/

def State.latchOf (s : State) (tr : Nat) : Option Latch := tget (dconst none) s.dict.latch tr
def State.setLatch (s : State) (tr : Nat) (x : Option Latch) : State :=
  { s with dict := { s.dict with latch := tset (dconst none) s.dict.latch tr x } }
def State.stagingOf (s : State) (tr : Nat) : Option Staging := tget (dconst none) s.dict.staging tr
def State.setStaging (s : State) (tr : Nat) (x : Option Staging) : State :=
  { s with dict := { s.dict with staging := tset (dconst none) s.dict.staging tr x } }
def State.lostBy (s : State) (tr : Nat) : Option Nat := tget (dconst none) s.dict.stagingLost tr
def State.setLost (s : State) (tr : Nat) (x : Option Nat) : State :=
  { s with dict := { s.dict with stagingLost := tset (dconst none) s.dict.stagingLost tr x } }

/-- The latch of a transport is released after 1 s without a read. -/
def State.latchAge (s : State) (tr : Nat) : State :=
  match s.latchOf tr with
  | some l => if l.used + s.second ≤ s.now then s.setLatch tr none else s
  | none => s

/-- The staging buffer of a transport is emptied after 1 s without a segment from its holder. -/
def State.stagingAge (s : State) (tr : Nat) : State :=
  match s.stagingOf tr with
  | some g => if g.used + s.second ≤ s.now then (s.setStaging tr none).setLost tr (some g.client) else s
  | none => s

/-- The tags of a client that are younger than 10 s. -/
def State.tagsOf (s : State) (id : Nat) : List TagEntry :=
  (tget (dconst []) s.dict.tags id).filter fun e => decide (s.now < e.time + 10 * s.second)
def State.setTags (s : State) (id : Nat) (l : List TagEntry) : State :=
  { s with dict := { s.dict with tags := tset (dconst []) s.dict.tags id l } }

/-- The identity under which a client's tags are remembered (R447, R455). -/
def tagId (tr client : Nat) : Nat := tr * 2 ^ 32 + client

/-! ### Forwarding (R465, R466) -/

/-- May the device forward to `target`? -/
def State.canForward (s : State) (target : Nat) : Bool :=
  s.isLead && decide (target < cfgCount s.arr.config) && s.reachable target

/-- The pieces of at most 4,064 octets in which a value travels. -/
def pieces4064 : Nat → Nat → Bytes → List (Nat × Bytes)
  | 0, _, _ => []
  | f + 1, o, b => if b.length ≤ 4064 then [(o, b)] else (o, b.take 4064) :: pieces4064 f (o + 4064) (b.drop 4064)

/-- The messages of a forwarded request, header and data (R465): one for a read, the segments of R458 for a write. -/
def Req.messages (r : Req) (pos : Nat) : List (Nat × Bytes) :=
  if r.op = 1 then [(r.header pos r.offset false r.length, [])]
  else (pieces4064 (r.data.length / 4064 + 1) 0 r.data).map fun p =>
    (r.header pos p.1 (decide (p.1 + p.2.length < r.data.length)) p.2.length, p.2)

/-- The first of the messages leaves. -/
def State.emitForward (s : State) (target : Nat) (parts : List (Nat × Bytes)) : State :=
  match parts with
  | [] => s
  | p :: _ => s.emit (.forward target p.1 p.2)

/-- Forward a read, or a whole write, to another position: the lead waits for its response, and a later segment waits for that of the one
before it. -/
def State.forwardReq (s : State) (r : Req) : State :=
  if !s.canForward r.target then s.reply r (aborted Abort.state)
  else
    let parts := r.messages s.arr.pos
    let s1 := s.emitForward r.target parts
    let w : Forwarded := { target := r.target, transport := r.transport, client := r.client, submit := r.submit, read := r.op == 1,
                           tag := r.tag, sentAt := s1.now, rest := parts.drop 1 }
    { s1 with dict := { s1.dict with forwarded := s1.dict.forwarded ++ [w]
                                     busySubmit := if r.transport = 0 then some r.submit else s1.dict.busySubmit } }

/-! ### Writes (R451, R455, R461) -/

/-- The state a dictionary write leaves and the abort code it answers, 0 with none: a finished write settles the device (R430, R456). -/
def State.writeEnds (s : State) (w : Except Nat State) : State × Nat :=
  match w with
  | .ok u => match u.dict.abortWith with
    | some c => ({ u with dict := { u.dict with abortWith := none } }, c)
    | none => (u.settle, 0)
  | .error c => (s, c)

/-- The object's write, with the response it gives and what R455 remembers of it. A write that the device's state forbids as a whole, while
restore is not Complete (R453), leaves no entry. -/
def State.writeNow (s : State) (r : Req) (x : Ext) : State :=
  let id := tagId r.transport r.client
  let crc := crc32 r.data
  let old := s.tagsOf id
  match (if r.tag = 0 then none else old.find? fun e => e.tag == r.tag) with
  | some e =>
    if e.key = r.key ∧ e.crc = crc then
      (s.bump Ob.devDuplicates).reply r { transport := 0, client := 0, code := e.code, duplicate := true }
    else s.reply r (aborted Abort.tag)
  | none =>
    if s.rd Ob.devRestoreState != 3 then s.reply r (aborted Abort.state)
    else
      let p := s.writeEnds (dictWrite r.key r.data x s)
      let keep := old ++ [{ tag := r.tag, key := r.key, crc := crc, code := p.2, time := s.now }]
      let s2 := if r.tag = 0 then p.1 else p.1.setTags id (if 16 < keep.length then keep.drop 1 else keep)
      s2.reply r (aborted p.2)

/-- A whole value is written: to another position, to the inner object of an Envelope, whose prefix has its reserved bits zero (R12), or to
the object named (R461, R465). -/
def State.writeWhole : Nat → Ext → State → Req → State
  | 0, _, s, r => s.reply r (aborted Abort.length)
  | fuel + 1, x, s, r =>
    if !s.isLocal r.target then s.forwardReq r
    else if r.key = Ob.devEnvelope then
      if r.data.length < 8 ∨ 1048584 < r.data.length then s.reply r (aborted Abort.length)
      else
        let p := leNat (r.data.take 8)
        if p % 65536 ≠ 0 then s.reply r (aborted Abort.range)
        else State.writeWhole fuel x s { r with key := bits p 63 48 * 256 + bits p 47 40, target := bits p 39 32, tag := bits p 31 16, data := r.data.drop 8 }
    else s.writeNow r x

/-- The object and position that a staged value is for. -/
def Req.stageKey (r : Req) : Nat := r.target * 2 ^ 24 + r.key

/-- A write request (R458): a whole write, or a segment. -/
def State.writeReq (s0 : State) (r : Req) (x : Ext) : State :=
  let s := s0.stagingAge r.transport
  let fuel := r.data.length / 8 + 2
  if !r.more && r.offset == 0 then State.writeWhole fuel x s r
  else
    let tr := r.transport
    let forget := fun (s : State) => if s.lostBy tr = some r.client then s.setLost tr none else s
    let hold := fun (s : State) (d : Bytes) =>
      (s.setStaging tr (some { client := r.client, key := r.stageKey, data := d, used := s.now })).reply r (aborted 0)
    let add := fun (s : State) (d : Bytes) =>
      if 1048576 < d.length then (s.setStaging tr none).reply r (aborted Abort.length)
      else if r.more then hold s d
      else State.writeWhole (d.length / 8 + 2) x (s.setStaging tr none) { r with data := d }
    match s.stagingOf tr with
    | some g =>
      if g.client ≠ r.client then s.reply r (aborted Abort.memory)
      else if r.offset = 0 then add s r.data
      else if g.key = r.stageKey ∧ r.offset = g.data.length then add s (g.data ++ r.data)
      else (s.setStaging tr none).reply r (aborted Abort.range)
    | none =>
      if r.offset = 0 then add (forget s) r.data
      else if s.lostBy tr = some r.client then (s.setLost tr none).reply r (aborted Abort.timeout)
      else s.reply r (aborted Abort.range)

/-! ### Reads (R458) -/

/-- The octets of a value that a read returns, and the latch after it. -/
def State.readPart (s : State) (r : Req) (v : Bytes) : State :=
  let part := (v.drop r.offset).take r.length
  let rest := decide (r.offset + part.length < v.length)
  let s1 := s.setLatch r.transport (if rest then some { client := r.client, key := r.key, data := v, used := s.now } else none)
  s1.reply r { transport := 0, client := 0, code := 0, totalLength := v.length, more := rest, data := part }

/-- A host channel that has reached Done, Aborted or Error is released when its state has been read (R335); it keeps that State (DESIGN CHOICE, log
entry 172). -/
def State.stateRead (s : State) (k : Nat) : State :=
  match objRow k with
  | some r =>
    let c := r.elem k
    if (r.base = Ob.xferState 0 ∨ r.base = Ob.xferStart 0) ∧ s.xowner c = 3 ∧ 6 ≤ s.xst c then s.wr (Ob.xferOwner c) 0 else s
  | none => s

/-- A read request. -/
def State.readReq (s0 : State) (r : Req) : State :=
  let s := s0.latchAge r.transport
  if !s.isLocal r.target then s.forwardReq r
  else
    let own := match s.latchOf r.transport with
      | some l => l.client == r.client
      | none => false
    let drop := fun (s : State) => if own then s.setLatch r.transport none else s
    if r.offset = 0 then
      match s.view r.key with
      | .ok v => (s.readPart r v).stateRead r.key
      | .error c => (drop s).reply r (aborted c)
    else
      let miss := fun (s : State) => match s.view r.key with
        | .ok _ => s.reply r (aborted Abort.noData)
        | .error c => s.reply r (aborted c)
      match s.latchOf r.transport with
      | some l => if l.client = r.client ∧ l.key = r.key then s.readPart r l.data else miss (drop s)
      | none => miss s

/-- Op and Length are valid (R457). -/
def Req.valid (r : Req) : Bool :=
  (r.op == 1 && decide (1 ≤ r.length) && decide (r.length ≤ 4064)) || (r.op == 2 && decide (r.length ≤ 4064))

/-- The interface of the request's transport serves transactions: a CAN port that is open, in Pre-operational or Operational (R459, R460). -/
def State.serves (s : State) (r : Req) : Bool :=
  s.power.stewardUp && (r.transport != 1 || (s.portOpen (r.client / 128) && s.rd Ob.devNmtState != 4))

/-- One transaction (R454): none while the steward does not serve the dictionary, and an abort while it restarts (R29). -/
def State.transact (s : State) (r : Req) (x : Ext) : State :=
  if !s.serves r then s
  else if s.steward.restarting then s.reply r (aborted Abort.state)
  else if !r.valid then s.reply r (aborted Abort.spec)
  else if r.op = 1 then s.readReq r
  else s.writeReq r x

/-! ### Commands -/

/-- DICT_SUBMIT (R457): a Submit that differs from the previous one takes the request, unless one is being answered. -/
def execDictSubmit (t header : Nat) (data : List (BitVec 8)) (drive : List (Nat × Nat × Bool)) (volts : List Nat) (good : Bool)
    (s : State) : Outcome :=
  let s := s.advance t
  let r := Req.ofHeader 0 (bits header 215 208) header data
  .next (if r.submit = s.dict.lastSubmit ∨ s.dict.busySubmit.isSome = true ∨ !s.power.stewardUp then s
    else ({ s with dict := { s.dict with lastSubmit := r.submit } } : State).transact r { drive := drive, volts := volts, good := good })

/-- DICT_WRITE_SEGMENT (R458). -/
def execDictWriteSegment (t : Nat) (transport : Fin 2) (client key offset tag : Nat) (more : Bool) (data : List (BitVec 8)) (good : Bool)
    (s : State) : Outcome :=
  let s := s.advance t
  .next (s.transact { transport := transport, client := client, op := 2, key := key, more := more, tag := tag, offset := offset
                      length := data.length, data := data } { good := good })

/-- DICT_READ_SEGMENT (R458). -/
def execDictReadSegment (t : Nat) (transport : Fin 2) (client key offset length : Nat) (s : State) : Outcome :=
  let s := s.advance t
  .next (s.transact { transport := transport, client := client, op := 1, key := key, offset := offset, length := length } {})

/-- ENVELOPE_WRITE (R461). -/
def execEnvelopeWrite (t : Nat) (transport : Fin 2) (client : Nat) (data : List (BitVec 8)) (good : Bool) (s : State) : Outcome :=
  let s := s.advance t
  let r : Req := { transport := transport, client := client, op := 2, key := Ob.devEnvelope, length := data.length, data := data }
  .next (if !s.serves r then s
    else if s.steward.restarting then s.reply r (aborted Abort.state)
    else State.writeWhole (data.length / 8 + 2) { good := good } s r)

/-- SEGMENT_BUFFER_TIMEOUT (R458). -/
def execSegmentBufferTimeout (t : Nat) (transport : Fin 3) (s : State) : Outcome := .next ((s.advance t).stagingAge transport)

/-- READ_LATCH_TIMEOUT (R458). -/
def execReadLatchTimeout (t : Nat) (transport : Fin 3) (s : State) : Outcome := .next ((s.advance t).latchAge transport)

/-- TAG_EXPIRY (R455). -/
def execTagExpiry (t : Nat) (transport : Fin 3) (client : Nat) (s : State) : Outcome :=
  let s := s.advance t
  .next (s.setTags (tagId transport client) (s.tagsOf (tagId transport client)))

/-- The request a forwarded one answers (R465). -/
def Forwarded.req (w : Forwarded) (offset : Nat) : Req :=
  { transport := w.transport, client := w.client, op := if w.read then 1 else 2, key := 0, tag := w.tag, offset := offset, submit := w.submit }

/-- The response of another position, as its header gives it (R465). -/
def forwardedResponse (header : Nat) (data : Bytes) : Response :=
  { transport := 0, client := 0, code := bits header 255 224, totalLength := bits header 223 192
    duplicate := bit header 104, more := bit header 105, data := data.take (bits header 159 128) }

/-- A request that the lead forwards (R397): its origin and transport are part of the client's identity, and it is served here. -/
def Req.ofForward (header : Nat) (data : Bytes) : Req :=
  { (Req.ofHeader 2 ((bits header 191 184 * 256 + bits header 183 176) * 256 + bits header 215 208) header data) with target := 0xFF }

/-- The next segment of a forwarded value leaves. -/
def State.forwardNext (s : State) (w : Forwarded) : State :=
  let s1 := s.emitForward w.target w.rest
  { s1 with dict := { s1.dict with forwarded := s1.dict.forwarded.map fun v => if v = w then { w with rest := w.rest.drop 1, sentAt := s.now } else v } }

/-- The lead no longer waits for a forwarded request. -/
def State.unforward (s : State) (w : Forwarded) : State :=
  { s with dict := { s.dict with forwarded := s.dict.forwarded.erase w } }

/-- FORWARDED_REQUEST (R397, R465): `response` false, the request of `header` and `data` arrives from the lead and is served here; true, the
response of position `pos` arrives at the lead: the next segment follows a success, and a late response is discarded (R466). -/
def execForwardedRequest (t : Nat) (response : Bool) (pos : Fin 8) (header : Nat) (data : List (BitVec 8)) (drive : List (Nat × Nat × Bool))
    (volts : List Nat) (good : Bool) (s : State) : Outcome :=
  let s := s.advance t
  .next (if !s.inArray then s
    else if response then
      match s.dict.forwarded.find? fun w => w.target == pos.val with
      | none => s
      | some w =>
        if !w.rest.isEmpty && bits header 255 224 == 0 then s.forwardNext w
        else (s.unforward w).reply (w.req (bits header 191 160)) (forwardedResponse header data)
    else s.transact (Req.ofForward header data) { drive := drive, volts := volts, good := good })

/-- FORWARD_TIMEOUT (R466): no response of position `pos` within 100 ms. -/
def execForwardTimeout (t : Nat) (pos : Fin 8) (s : State) : Outcome :=
  let s := s.advance t
  .next (match s.dict.forwarded.find? fun w => w.target == pos.val && decide (w.sentAt + s.us 100000 ≤ s.now) with
    | none => s
    | some w => (s.unforward w).reply (w.req 0) (aborted Abort.timeout))

end Sys2Proof.Machine
end

