-- ==== Sys2Proof/Machine/Can.lean ====
section
/-! DEFINITION. The field network (spec/18_dictionary.md R459-R464): NMT, heartbeat, EMCY, bus errors and USDO requests on CAN0 and CAN1. -/

namespace Sys2Proof.Machine

open Sys2Proof

/-- A frame on every open port. -/
def State.frameAll (s : State) (ident : Nat) (data : Bytes) : State :=
  [0, 1].foldl (fun s p => if s.portOpen p then s.emit (.can p ident data) else s) s

/-- CanErrorState of a port, and bit 4 of ErrorRegister (R463, R464). -/
def State.canError (s : State) (p v : Nat) : State :=
  let s1 := s.wr Ob.devCanErrorState (setBits (s.rd Ob.devCanErrorState) (8 * p + 7) (8 * p) v)
  let s2 := { s1 with dict := { s1.dict with busOff := setBit s1.dict.busOff p (v == 2) } }
  s2.wr Ob.comErrorRegister (setBit (s2.rd Ob.comErrorRegister) 4 (s2.rd Ob.devCanErrorState != 0))

/-- An NMT command on a port names every node (0) or this one. -/
def State.nmtTaken (s : State) (port node : Nat) : Bool := s.power.stewardUp && s.portOpen port && (node == 0 || node == s.dict.nodeId)

/-- NMT start, stop, pre-operational (R460). -/
def State.nmt (s : State) (t port node st : Nat) : State :=
  let s := s.advance t
  if s.nmtTaken port node then s.wr Ob.devNmtState st else s

/-- NMT_START. -/
def execNmtStart (t : Nat) (port : Fin 2) (node : Nat) (s : State) : Outcome := .next (s.nmt t port node 5)

/-- NMT_STOP. -/
def execNmtStop (t : Nat) (port : Fin 2) (node : Nat) (s : State) : Outcome := .next (s.nmt t port node 4)

/-- NMT_ENTER_PRE_OPERATIONAL. -/
def execNmtEnterPreOperational (t : Nat) (port : Fin 2) (node : Nat) (s : State) : Outcome := .next (s.nmt t port node 0x7F)

/-- Reset of the interface (R460): its error counters, a changed node-ID and bit rate, Pre-operational, and the boot-up message. What waits
on the interface is dropped, and EmcyCobId follows the node-ID while it holds its Default (log entry 42). -/
def State.nmtReset (s : State) : State :=
  let new := s.rd Ob.devNodeId
  let s1 := if s.rd Ob.comEmcyCobId = 0x80 + s.dict.nodeId then s.wr Ob.comEmcyCobId (0x80 + new) else s
  let s2 := ((s1.canError 0 0).canError 1 0).wr Ob.devNmtState 0x7F
  let s3 := { s2 with dict := { s2.dict with nodeId := new, nominal := s2.rd Ob.devNominalRate, dataRate := s2.rd Ob.devDataRate,
                                             emcyQueue := [], emcyInhibit := false } }
  (((s3.setLatch 1 none).setStaging 1 none).setLost 1 none).frameAll (0x700 + new) [0]

/-- Both resets of R460. -/
def State.nmtResetCommand (s : State) (t port node : Nat) : State :=
  let s := s.advance t
  if s.nmtTaken port node then s.nmtReset else s

/-- NMT_RESET_NODE. -/
def execNmtResetNode (t : Nat) (port : Fin 2) (node : Nat) (s : State) : Outcome := .next (s.nmtResetCommand t port node)

/-- NMT_RESET_COMMUNICATION. -/
def execNmtResetCommunication (t : Nat) (port : Fin 2) (node : Nat) (s : State) : Outcome := .next (s.nmtResetCommand t port node)

/-- HEARTBEAT_SEND (R459, R463). -/
def execHeartbeatSend (t : Nat) (s : State) : Outcome :=
  let s := s.advance t
  .next (if s.power.stewardUp && s.rd Ob.comHeartbeatTime != 0 then s.frameAll (0x700 + s.dict.nodeId) (leBytes 1 (s.rd Ob.devNmtState)) else s)

/-- The oldest waiting entry's frame (R462): error code, error register and the first 5 octets of the entry; ErrorField takes the code, and
the inhibit time begins. -/
def State.emcySend (s : State) : State :=
  match s.dict.emcyQueue with
  | [] => s
  | e :: q =>
    let code := 0xFF00 + e.cls % 256
    let s1 := s.frameAll (s.rd Ob.comEmcyCobId % 2048) (leBytes 2 code ++ leBytes 1 (s.rd Ob.comErrorRegister) ++ e.bytes.take 5)
    let old := (List.range 7).map fun i => s.rd (Ob.comErrorField i)
    let s2 := s1.wrs ((Ob.comErrorField 0, code) :: (List.range 7).zipWith (fun i v => (Ob.comErrorField (i + 1), v)) old)
    let s3 := s2.wr Ob.comErrorCount (min 8 (s.rd Ob.comErrorCount + 1))
    { s3 with dict := { s3.dict with emcyQueue := q, emcyInhibit := s.rd Ob.comEmcyInhibit != 0 } }

/-- EMCY frames can be sent: not in Stopped (R460), and not within the inhibit time. -/
def State.emcyOpen (s : State) : Bool := s.power.stewardUp && s.rd Ob.devNmtState != 4 && !s.dict.emcyInhibit

/-- EMCY_SEND (R462). -/
def execEmcySend (t : Nat) (s : State) : Outcome :=
  let s := s.advance t
  .next (if s.emcyOpen then s.emcySend else s)

/-- EMCY_INHIBIT_EXPIRY (R462). -/
def execEmcyInhibitExpiry (t : Nat) (s : State) : Outcome :=
  let s := s.advance t
  let s1 := { s with dict := { s.dict with emcyInhibit := false } }
  .next (if s1.emcyOpen then s1.emcySend else s1)

/-- CAN_BUS_OFF (R459): a port goes bus-off, or is back and error-active in the NMT state it had. -/
def execCanBusOff (t : Nat) (port : Fin 2) (recovered : Bool) (s : State) : Outcome :=
  .next ((s.advance t).canError port (if recovered then 0 else 2))

/-- CAN_ERROR_PASSIVE (R464): a port becomes error-passive, or error-active again. -/
def execCanErrorPassive (t : Nat) (port : Fin 2) (passive : Bool) (s : State) : Outcome :=
  let s := s.advance t
  .next (if bit s.dict.busOff port then s else s.canError port (b2n passive))

/-- USDO_REQUEST (R447, R459): served on an open port in Pre-operational and Operational (`State.serves`); a broadcast is discarded. -/
def execUsdoRequest (t : Nat) (port : Fin 2) (node : Fin 128) (unicast write : Bool) (key offset length : Nat) (more : Bool) (data : List (BitVec 8))
    (good : Bool) (s : State) : Outcome :=
  let s := s.advance t
  let r : Req := { transport := 1, client := port * 128 + node, op := if write then 2 else 1, key := key, more := more, offset := offset
                   length := if write then data.length else length, data := data }
  .next (if unicast then s.transact r { good := good } else s)

end Sys2Proof.Machine
end

