-- ==== Sys2Proof/Machine/Startup.lean ====
section
/-! DEFINITION. Start-up (spec/18_dictionary.md R453, spec/20_lifetime.md R516, spec/24_startup.md R570-R574): restore from the Pantry and the automatic steps. -/

namespace Sys2Proof.Machine

open Sys2Proof

/-! ### Restored values (R453 steps 1 and 2) -/

/-- Values that would start hardware, and Imports, wait for the automatic steps (R453, R572). -/
def heldBack (r : ObjRow) (v : Nat) : Bool :=
  [Ob.tdcEnable 0, Ob.timeStreamInEnable, Ob.timeStreamOutEnable, Ob.joinEnable 0, Ob.storEnable 0, Ob.hkEnable, Ob.dispEnable,
    Ob.patEnable 0, Ob.primEnable, Ob.condImports].contains r.base
  || ([Ob.clkDclkConfig 0, Ob.clkSrefConfig 0, Ob.condTrigOutConfig 0].contains r.base && bit v 63)

/-- A restored value that cannot be applied (R453): its object keeps its Default. -/
def State.restoreFails (s : State) (k : Nat) (log : Bool) : State :=
  let s1 := s.bump Ob.devRestoreFailures
  if log then s1.faultLog 9 1 0 0xFF 0 k else s1

/-- Octets of an object's Default. -/
def ObjRow.defaultBytes (r : ObjRow) (k : Nat) : Bytes :=
  match r.ty.size with
  | some w => leBytes w (objDefault k)
  | none => if r.base = Ob.calAlarmTime then leBytes 8 (dateOf 0) else domDefault k

/-- One entry of a kept copy is restored. StopControl is the sentinel's while the device wakes from Stop (R472). -/
def State.restoreOne (s : State) (e : Nat × Bytes) : State :=
  let k := e.1
  let b := e.2
  match objRow k with
  | none => s.restoreFails k false
  | some r =>
    if !r.kept then s.restoreFails k false
    else if !(r.lengthOk b.length) then s.restoreFails k true
    else if b = r.defaultBytes k ∨ (k / 256 = 0x2230 ∧ s.rd Ob.wakeSource ≠ 0) then s
    else if r.acc = .ro then s.keepValue r k (leNat b) b
    else if heldBack r (leNat b) then
      if r.ty = .bool ∧ 1 < leNat b then s.restoreFails k true
      else { s with pantry := { s.pantry with restoring := s.pantry.restoring ++ [(k, b)] } }
    else match writeChecked r k (leNat b) b {} s with
      | .ok s1 => { s1 with dict := { s1.dict with abortWith := none } }
      | .error _ => s.restoreFails k true

/-- The copy that restore takes (R516): RestoreSource and the copy. -/
def PantryState.source (p : PantryState) : Nat × Option KeptCopy :=
  let good := fun (c : Option KeptCopy) => (c.map fun x => x.good).getD false
  if p.named ≤ 1 ∧ good (p.copyOf p.named) = true then (1, p.copyOf p.named)
  else if p.named ≤ 1 ∧ good (p.copyOf p.other) = true then (2, p.copyOf p.other)
  else (0, none)

/-- Node-ID and bit rates as restored come into force, and the boot-up message is sent (log entry 42). -/
def State.canStart (s : State) : State :=
  let new := s.rd Ob.devNodeId
  let s1 := if s.rd Ob.comEmcyCobId = 0xFF then s.wr Ob.comEmcyCobId (0x80 + new) else s
  let s2 := { s1 with dict := { s1.dict with nodeId := new, nominal := s1.rd Ob.devNominalRate, dataRate := s1.rd Ob.devDataRate } }
  s2.frameAll (0x700 + new) [0]

/-- The point becomes StartPoint (R483, R570): voltage before selection; only R59 can refuse it. -/
def State.startPoint (s : State) : State :=
  let p := s.rd Ob.opStartPoint
  if p = s.rd Ob.opCurrent ∨ 3 ≤ p ∨ s.pointPower p = true then s
  else (s.avsWrite (s.plannedVcore p)).selectPoint p

/-! ### The automatic steps (R453 step 3, R571) -/

/-- A step, or a part of one, fails: it is logged, and what follows runs. -/
def State.stepFails (s : State) (slot detail : Nat) : State := s.faultLog 9 2 0 slot 0 detail

/-- Run an action of an automatic step, with a test of the result it leaves. -/
def State.stepAct (s : State) (slot detail : Nat) (f : Act) (bad : State → Bool) : State :=
  match f s with
  | .ok s1 =>
    let s2 := { s1 with dict := { s1.dict with abortWith := none } }
    if s1.dict.abortWith.isSome || bad s2 then s2.stepFails slot detail else s2
  | .error _ => s.stepFails slot detail

/-- Apply the held-back value of one object. -/
def State.releaseOne (s : State) (k : Nat) : State :=
  match s.pantry.restoring.find? fun e => e.1 == k with
  | none => s
  | some e =>
    let s1 : State := { s with pantry := { s.pantry with restoring := s.pantry.restoring.filter fun x => x.1 != k } }
    match objRow k with
    | some r => s1.stepAct 0xFF k (writeChecked r k (leNat e.2) e.2 {}) fun _ => false
    | none => s1

/-- The held-back values of several objects, in order. -/
def State.releaseAll (s : State) (l : List Nat) : State := l.foldl (fun s k => s.releaseOne k) s

/-- Objects whose enables step 3 applies, in its order. -/
def enableKeys : List Nat :=
  (List.range 8).map Ob.clkDclkConfig ++ (List.range 8).map Ob.clkSrefConfig ++ (List.range 16).map Ob.tdcEnable
  ++ [Ob.timeStreamInEnable, Ob.timeStreamOutEnable] ++ (List.range 4).map Ob.joinEnable ++ (List.range 6).map Ob.storEnable
  ++ [Ob.hkEnable, Ob.dispEnable]

/-- Objects whose enables step 7 applies, in its order. -/
def triggerKeys : List Nat := (List.range 16).map Ob.patEnable ++ (List.range 8).map Ob.condTrigOutConfig ++ [Ob.primEnable]

/-- What an automatic step does when it starts. -/
def State.runStep (s : State) (n : Nat) (drive : List (Nat × Nat × Bool)) (good : Bool) : State :=
  if n = 1 then
    if s.rdB Ob.synAutoApply then s.stepAct 0xFF 1 synApply fun s => s.syn.applyResult != some 0 else s
  else if n = 2 then
    if s.rdB Ob.arrAutoApply then s.stepAct 0xFF 2 (arrayApply good) fun s => s.arr.applyResult != some 0 else s
  else if n = 3 then s.releaseAll enableKeys
  else if n = 4 then (List.range 16).foldl (fun s j =>
    if s.rd (Ob.linkLaneCount j) = 0 then s else s.stepAct 0xFF 4 (linkApply j) fun s => (s.linkS j).applyResult != some 0) s
  else if n = 5 then
    let micro := (List.range 48).foldl (fun s i =>
      if (s.dom (Ob.mimgImage i)).isEmpty then s else s.stepAct 0xFF 5 (microLoad i) fun s => !s.rdB (Ob.mimgLoaded i)) s
    (List.range 48).foldl (fun s i =>
      if (s.dom (Ob.nimgImage i)).isEmpty then s else s.stepAct 0xFF 5 (nanoLoad i) fun s => !s.rdB (Ob.nimgLoaded i)) micro
  else if n = 6 then (List.range 64).foldl (fun s k =>
    if s.rdB (Ob.slotAutoAdmit k) then s.stepAct k 6 (admitAction k drive) fun s => (s.slot k).admitResult != some 0 else s) s
  else s.releaseAll triggerKeys

/-- A step starts. -/
def State.beginStep (s : State) (n : Nat) (drive : List (Nat × Nat × Bool)) (good : Bool) : State :=
  (({ s with pantry := { s.pantry with autoStep := n, autoAt := s.now, autoAgain := false } } : State).runStep n drive good).settle

/-- Has the step that runs reached its completion condition (R571)? -/
def State.stepDone (s : State) : Bool :=
  let n := s.pantry.autoStep
  if n = 1 then !s.rdB Ob.synAutoApply || s.rd Ob.synState == 0 || s.rd Ob.synState == 5 || (s.rd Ob.synState == 3 && s.counts)
  else if n = 2 then !s.rdB Ob.arrAutoApply || s.rd Ob.arrArrayState == 0 || s.rd Ob.arrArrayState == 2
  else if n = 3 then (List.range 6).all fun k => !s.rdB (Ob.storEnable k) || [0, 2, 4, 5, 6].contains (s.rd (Ob.storDriveState k))
  else if n = 4 then (List.range 16).all fun j => s.rd (Ob.linkLaneCount j) == 0 || !(s.linkS j).applied
    || s.rd (Ob.linkLinkState j) == 4 || s.rd (Ob.linkLinkState j) == 6
  else true

/-- Limit of a step in microseconds; none for steps 5 and 7. -/
def State.stepLimit (s : State) : Option Nat :=
  let n := s.pantry.autoStep
  if n = 1 then some 1200000
  else if n = 2 then some 2000000
  else if n = 3 then some 10000000
  else if n = 4 then some 1000000
  else if n = 6 then some (2000 * ((List.range 64).filter fun k => s.rdB (Ob.slotAutoAdmit k)).length)
  else none

/-- The end of a step: Imports is written at the end of step 2 (R572); after step 7 RestoreState is Complete, and a Stop request that
waited is served (R574). -/
def State.nextStep (s : State) (drive : List (Nat × Nat × Bool)) (good : Bool) : State :=
  let n := s.pantry.autoStep
  let s1 := if n = 2 then
      match s.pantry.restoring.find? fun e => e.1 == Ob.condImports with
      | none => s
      | some e =>
        let s0 : State := { s with pantry := { s.pantry with restoring := s.pantry.restoring.filter fun x => x.1 != Ob.condImports } }
        match importsWrite e.2 s0 with
        | .ok t => t
        | .error _ => s0.restoreFails Ob.condImports true
    else s
  if n < 7 then s1.beginStep (n + 1) drive good
  else
    let s2 := s1.wr Ob.devRestoreState 3
    ({ s2 with pantry := { s2.pantry with autoStep := 0, restoring := [] } } : State).stopWaiting

/-- The values of the kept copy are restored, the regulator gets its transition rate (R479), the point becomes StartPoint, and the automatic steps begin (R453, R516, R570). -/
def State.restore (s : State) (drive : List (Nat × Nat × Bool)) (good : Bool) : State :=
  let src := s.pantry.source
  let s1 := s.wrs [(Ob.devRestoreState, 1), (Ob.panRestoreSource, src.1)]
  let s2 := if src.1 = 1 then s1 else s1.faultLog 9 3 0 0xFF 0 0
  let s3 := match src.2 with
    | some c => c.entries.foldl State.restoreOne s2
    | none => s2
  (((s3.canStart.emit (.avsRate (s3.rd Ob.opVcoreSlew))).startPoint).wr Ob.devRestoreState 2).beginStep 1 drive good

/-! ### Commands -/

/-- PANTRY_RESTORE (R453, R516, R570). -/
def execPantryRestore (t : Nat) (drive : List (Nat × Nat × Bool)) (good : Bool) (s : State) : Outcome :=
  let s := s.advance t
  .next (if !s.power.stewardUp || s.steward.restarting || decide (1 < s.rd Ob.devRestoreState) then s else s.restore drive good)

/-- RESTORE_STEP_COMPLETE (R571): the next step starts; a step that a steward restart interrupted is repeated from its start (R574). -/
def execRestoreStepComplete (t : Nat) (drive : List (Nat × Nat × Bool)) (good : Bool) (s : State) : Outcome :=
  let s := s.advance t
  .next (if !s.stewardRuns || s.rd Ob.devRestoreState != 2 then s
    else if s.pantry.autoAgain then s.beginStep s.pantry.autoStep drive good
    else if s.stepDone then s.nextStep drive good
    else s)

/-- RESTORE_STEP_TIMEOUT (R571): a step that has reached its limit is logged, and the next one starts. -/
def execRestoreStepTimeout (t : Nat) (drive : List (Nat × Nat × Bool)) (good : Bool) (s : State) : Outcome :=
  let s := s.advance t
  .next (if !s.stewardRuns || s.rd Ob.devRestoreState != 2 then s
    else match s.stepLimit with
      | none => s
      | some us =>
        if s.pantry.autoAt + s.us us ≤ s.now then (s.stepFails 0xFF s.pantry.autoStep).nextStep drive good else s)

end Sys2Proof.Machine
end

