-- ==== Sys2Proof/Machine/Dispatch.lean ====
section
/-! DEFINITION. One arm per command: a direct call of its meaning. -/

namespace Sys2Proof.Machine

open Sys2Proof

def exec (i : Instr) (s : State) : Host.Outcome State Fault Refusal :=
  match i with
  | .stewardRestartComplete t => Sys2Proof.Machine.execStewardRestartComplete t s
  | .stewardCheckpoint t err => Sys2Proof.Machine.execStewardCheckpoint t err s
  | .thermalShutdown t => Sys2Proof.Machine.execThermalShutdown t s
  | .admitSlot t n drive => Sys2Proof.Machine.execAdmitSlot t n drive s
  | .withdraw t n => Sys2Proof.Machine.execWithdraw t n s
  | .withdrawalComplete t n => Sys2Proof.Machine.execWithdrawalComplete t n s
  | .check t n drive => Sys2Proof.Machine.execCheck t n drive s
  | .commit t n tc => Sys2Proof.Machine.execCommit t n tc s
  | .cancel t n => Sys2Proof.Machine.execCancel t n s
  | .groupCommit t tc slots others => Sys2Proof.Machine.execGroupCommit t tc slots others s
  | .sluiceGateArm t n => Sys2Proof.Machine.execSluiceGateArm t n s
  | .commitApplied t n => Sys2Proof.Machine.execCommitApplied t n s
  | .successorSwitch t n => Sys2Proof.Machine.execSuccessorSwitch t n s
  | .retiringComplete t n => Sys2Proof.Machine.execRetiringComplete t n s
  | .gapFrameResume t n => Sys2Proof.Machine.execGapFrameResume t n s
  | .arrayCommitDisarm t => Sys2Proof.Machine.execArrayCommitDisarm t s
  | .arrayCommitReportTimeout t => Sys2Proof.Machine.execArrayCommitReportTimeout t s
  | .linkApply t j => Sys2Proof.Machine.execLinkApply t j s
  | .linkClearCounters t j => Sys2Proof.Machine.execLinkClearCounters t j s
  | .linkBlockLock t j => Sys2Proof.Machine.execLinkBlockLock t j s
  | .linkMultiblockLock t j earliest latest => Sys2Proof.Machine.execLinkMultiblockLock t j earliest latest s
  | .linkRelease t j => Sys2Proof.Machine.execLinkRelease t j s
  | .linkBringupTimeout t j => Sys2Proof.Machine.execLinkBringupTimeout t j s
  | .multiblockReceive t j crcOk latest => Sys2Proof.Machine.execMultiblockReceive t j crcOk latest s
  | .linkLockLoss t j => Sys2Proof.Machine.execLinkLockLoss t j s
  | .linkRelinkComplete t j earliest latest => Sys2Proof.Machine.execLinkRelinkComplete t j earliest latest s
  | .ingestSample t ch em index wordI wordQ => Sys2Proof.Machine.execIngestSample t ch em index wordI wordQ s
  | .levelIntervalEnd t ch => Sys2Proof.Machine.execLevelIntervalEnd t ch s
  | .dumpRestart t ch time => Sys2Proof.Machine.execDumpRestart t ch time s
  | .levelSnapshot t => Sys2Proof.Machine.execLevelSnapshot t s
  | .clearSticky t mask => Sys2Proof.Machine.execClearSticky t mask s
  | .polderBlockWrite t ch err => Sys2Proof.Machine.execPolderBlockWrite t ch err s
  | .spectrumFrame t n ch => Sys2Proof.Machine.execSpectrumFrame t n ch s
  | .userWindowLoad t u => Sys2Proof.Machine.execUserWindowLoad t u s
  | .conditionFlitReceive t n ch tag words disagree => Sys2Proof.Machine.execConditionFlitReceive t n ch tag words disagree s
  | .patternUnitEvaluate t u => Sys2Proof.Machine.execPatternUnitEvaluate t u s
  | .trigOutEdge t k => Sys2Proof.Machine.execTrigOutEdge t k s
  | .trigOutPulseEnd t k => Sys2Proof.Machine.execTrigOutPulseEnd t k s
  | .clearLineFault t data => Sys2Proof.Machine.execClearLineFault t data s
  | .clearLog t => Sys2Proof.Machine.execClearLog t s
  | .importsWrite t data => Sys2Proof.Machine.execImportsWrite t data s
  | .trigOutConfigWrite t k value => Sys2Proof.Machine.execTrigOutConfigWrite t k value s
  | .patternUnitWrite t u sub value data => Sys2Proof.Machine.execPatternUnitWrite t u sub value data s
  | .levelConditionWrite t ch sub value => Sys2Proof.Machine.execLevelConditionWrite t ch sub value s
  | .primitiveTick t lane => Sys2Proof.Machine.execPrimitiveTick t lane s
  | .primitiveStreamEnable t mask => Sys2Proof.Machine.execPrimitiveStreamEnable t mask s
  | .mapUpdate t map => Sys2Proof.Machine.execMapUpdate t map s
  | .sweepTick t map => Sys2Proof.Machine.execSweepTick t map s
  | .snapshotCopyComplete t map => Sys2Proof.Machine.execSnapshotCopyComplete t map s
  | .renderComplete t map => Sys2Proof.Machine.execRenderComplete t map s
  | .mapSnapshot t map time => Sys2Proof.Machine.execMapSnapshot t map time s
  | .mapClear t map time => Sys2Proof.Machine.execMapClear t map time s
  | .sieveLoad t u => Sys2Proof.Machine.execSieveLoad t u s
  | .channelizeFrame t n ch => Sys2Proof.Machine.execChannelizeFrame t n ch s
  | .pulseSelectFrame t n input => Sys2Proof.Machine.execPulseSelectFrame t n input s
  | .pulseMeasureFrame t n input => Sys2Proof.Machine.execPulseMeasureFrame t n input s
  | .pulseClearCounters t n => Sys2Proof.Machine.execPulseClearCounters t n s
  | .recordComplete t n => Sys2Proof.Machine.execRecordComplete t n s
  | .hostReadWrite t n value => Sys2Proof.Machine.execHostReadWrite t n value s
  | .consumerStallTimeout t n who => Sys2Proof.Machine.execConsumerStallTimeout t n who s
  | .consumerReattach t n who => Sys2Proof.Machine.execConsumerReattach t n who s
  | .rearm t n => Sys2Proof.Machine.execRearm t n s
  | .releaseRing t n => Sys2Proof.Machine.execReleaseRing t n s
  | .replayFeed t n source => Sys2Proof.Machine.execReplayFeed t n source s
  | .replayEnd t n => Sys2Proof.Machine.execReplayEnd t n s
  | .branch t e err => Sys2Proof.Machine.execBranch t e err s
  | .loopEnter t e => Sys2Proof.Machine.execLoopEnter t e s
  | .loopEnd t e err => Sys2Proof.Machine.execLoopEnd t e err s
  | .loopBreak t e => Sys2Proof.Machine.execLoopBreak t e s
  | .safePoint t e => Sys2Proof.Machine.execSafePoint t e s
  | .ret t e err => Sys2Proof.Machine.execRet t e err s
  | .yield t e => Sys2Proof.Machine.execYield t e s
  | .operandRead t e err => Sys2Proof.Machine.execOperandRead t e err s
  | .registerLoad t e err => Sys2Proof.Machine.execRegisterLoad t e err s
  | .setAcc t e => Sys2Proof.Machine.execSetAcc t e s
  | .add t e => Sys2Proof.Machine.execAdd t e s
  | .sub t e => Sys2Proof.Machine.execSub t e s
  | .clr t e => Sys2Proof.Machine.execClr t e s
  | .ldx t e => Sys2Proof.Machine.execLdx t e s
  | .restore t e => Sys2Proof.Machine.execRestore t e s
  | .srch t e => Sys2Proof.Machine.execSrch t e s
  | .sinit t e => Sys2Proof.Machine.execSinit t e s
  | .norm t e => Sys2Proof.Machine.execNorm t e s
  | .store t e => Sys2Proof.Machine.execStore t e s
  | .pairStore t e => Sys2Proof.Machine.execPairStore t e s
  | .rawSave t e => Sys2Proof.Machine.execRawSave t e s
  | .registerStore t e => Sys2Proof.Machine.execRegisterStore t e s
  | .registerTransferImmediate t e => Sys2Proof.Machine.execRegisterTransferImmediate t e s
  | .registerTransfer t e => Sys2Proof.Machine.execRegisterTransfer t e s
  | .send t e => Sys2Proof.Machine.execSend t e s
  | .rxfree t e => Sys2Proof.Machine.execRxfree t e s
  | .evack t e => Sys2Proof.Machine.execEvack t e s
  | .receiveFlit t e words frame err => Sys2Proof.Machine.execReceiveFlit t e words frame err s
  | .sendFlit t e err => Sys2Proof.Machine.execSendFlit t e err s
  | .watchdogTrip t e => Sys2Proof.Machine.execWatchdogTrip t e s
  | .eventCancel t e tc => Sys2Proof.Machine.execEventCancel t e tc s
  | .eventStop t e => Sys2Proof.Machine.execEventStop t e s
  | .eventSavestate t e => Sys2Proof.Machine.execEventSavestate t e s
  | .engineStart t e => Sys2Proof.Machine.execEngineStart t e s
  | .debugRead t e offset => Sys2Proof.Machine.execDebugRead t e offset s
  | .debugWrite t e offset value => Sys2Proof.Machine.execDebugWrite t e offset value s
  | .microimageLoad t image => Sys2Proof.Machine.execMicroimageLoad t image s
  | .nanoimageLoad t image => Sys2Proof.Machine.execNanoimageLoad t image s
  | .imageVerify t image nano => Sys2Proof.Machine.execImageVerify t image nano s
  | .poolScrubAccess t cluster word err => Sys2Proof.Machine.execPoolScrubAccess t cluster word err s
  | .hbmAdmittedBurst t da err syndrome => Sys2Proof.Machine.execHbmAdmittedBurst t da err syndrome s
  | .hbmBestEffortAccess t bank err syndrome => Sys2Proof.Machine.execHbmBestEffortAccess t bank err syndrome s
  | .hbmFreezeHoldExpiry t q => Sys2Proof.Machine.execHbmFreezeHoldExpiry t q s
  | .hbmRelease t q => Sys2Proof.Machine.execHbmRelease t q s
  | .hbmTestComplete t q pass bad => Sys2Proof.Machine.execHbmTestComplete t q pass bad s
  | .hbmRetire t q => Sys2Proof.Machine.execHbmRetire t q s
  | .hbmRetireSwitch t q => Sys2Proof.Machine.execHbmRetireSwitch t q s
  | .hbmRefresh t q => Sys2Proof.Machine.execHbmRefresh t q s
  | .hbmTempCross t stack temp => Sys2Proof.Machine.execHbmTempCross t stack temp s
  | .hbmPatrolScrub t da err syndrome => Sys2Proof.Machine.execHbmPatrolScrub t da err syndrome s
  | .hbmRowIdleClose t bank => Sys2Proof.Machine.execHbmRowIdleClose t bank s
  | .hbmPowerStateEntry t q power => Sys2Proof.Machine.execHbmPowerStateEntry t q power s
  | .hbmWake t q => Sys2Proof.Machine.execHbmWake t q s
  | .interleaveMasksWrite t data => Sys2Proof.Machine.execInterleaveMasksWrite t data s
  | .hostReserveWrite t data => Sys2Proof.Machine.execHostReserveWrite t data s
  | .windowBRead t tag offset len => Sys2Proof.Machine.execWindowBRead t tag offset len s
  | .windowBWrite t offset data => Sys2Proof.Machine.execWindowBWrite t offset data s
  | .transferStart t ch => Sys2Proof.Machine.execTransferStart t ch s
  | .transferPauseWrite t ch pause => Sys2Proof.Machine.execTransferPauseWrite t ch pause s
  | .transferAbort t ch => Sys2Proof.Machine.execTransferAbort t ch s
  | .transferBeatSlot t port owner err credits => Sys2Proof.Machine.execTransferBeatSlot t port owner err credits s
  | .requestRaise t line beats => Sys2Proof.Machine.execRequestRaise t line beats s
  | .requestWithdraw t line => Sys2Proof.Machine.execRequestWithdraw t line s
  | .hostReadCompletion t ch addr ok data => Sys2Proof.Machine.execHostReadCompletion t ch addr ok data s
  | .transferReadTimeout t ch => Sys2Proof.Machine.execTransferReadTimeout t ch s
  | .hostReset t kind => Sys2Proof.Machine.execHostReset t kind s
  | .hostLinkTrained t rate width => Sys2Proof.Machine.execHostLinkTrained t rate width s
  | .linkRetrain t => Sys2Proof.Machine.execLinkRetrain t s
  | .dictSubmit t header data drive volts good => Sys2Proof.Machine.execDictSubmit t header data drive volts good s
  | .doorbellWrite t ring value whole => Sys2Proof.Machine.execDoorbellWrite t ring value whole s
  | .busMasterDisable t => Sys2Proof.Machine.execBusMasterDisable t s
  | .streamIrqDelayExpiry t ring => Sys2Proof.Machine.execStreamIrqDelayExpiry t ring s
  | .creditStallTimeout t ring => Sys2Proof.Machine.execCreditStallTimeout t ring s
  | .ringValidate t ring => Sys2Proof.Machine.execRingValidate t ring s
  | .ringRestart t ring => Sys2Proof.Machine.execRingRestart t ring s
  | .qualify t port => Sys2Proof.Machine.execQualify t port s
  | .qualifyComplete t port mWrite mRead => Sys2Proof.Machine.execQualifyComplete t port mWrite mRead s
  | .formSet t mask => Sys2Proof.Machine.execFormSet t mask s
  | .deleteRecording t number => Sys2Proof.Machine.execDeleteRecording t number s
  | .reinstate t port labelOk => Sys2Proof.Machine.execReinstate t port labelOk s
  | .nvmeCompletion t port cid status data => Sys2Proof.Machine.execNvmeCompletion t port cid status data s
  | .nvmeCommandTimeout t port => Sys2Proof.Machine.execNvmeCommandTimeout t port s
  | .driveLinkLoss t port removed => Sys2Proof.Machine.execDriveLinkLoss t port removed s
  | .unitIdleTimeout t n => Sys2Proof.Machine.execUnitIdleTimeout t n s
  | .directoryUpdate t n => Sys2Proof.Machine.execDirectoryUpdate t n s
  | .healthLogPoll t port => Sys2Proof.Machine.execHealthLogPoll t port s
  | .joinDetect t port => Sys2Proof.Machine.execJoinDetect t port s
  | .joinTrainingDone t port foms => Sys2Proof.Machine.execJoinTrainingDone t port foms s
  | .joinLock t port => Sys2Proof.Machine.execJoinLock t port s
  | .joinExchange t port copies => Sys2Proof.Machine.execJoinExchange t port copies s
  | .joinStageTimeout t port => Sys2Proof.Machine.execJoinStageTimeout t port s
  | .joinHeldReexchange t port copies => Sys2Proof.Machine.execJoinHeldReexchange t port copies s
  | .joinFailedRetry t port => Sys2Proof.Machine.execJoinFailedRetry t port s
  | .joinRetrain t port => Sys2Proof.Machine.execJoinRetrain t port s
  | .joinLinkDegrade t port => Sys2Proof.Machine.execJoinLinkDegrade t port s
  | .boundedSlotReceive t port copyA copyB => Sys2Proof.Machine.execBoundedSlotReceive t port copyA copyB s
  | .lineChange t => Sys2Proof.Machine.execLineChange t s
  | .lineState t => Sys2Proof.Machine.execLineState t s
  | .timeSync t => Sys2Proof.Machine.execTimeSync t s
  | .timeSyncSend t => Sys2Proof.Machine.execTimeSyncSend t s
  | .lineStateSend t => Sys2Proof.Machine.execLineStateSend t s
  | .sluiceArm t slots => Sys2Proof.Machine.execSluiceArm t slots s
  | .sluiceArmed t => Sys2Proof.Machine.execSluiceArmed t s
  | .sluiceRefused t => Sys2Proof.Machine.execSluiceRefused t s
  | .sluiceConfirm t => Sys2Proof.Machine.execSluiceConfirm t s
  | .sluiceCancel t => Sys2Proof.Machine.execSluiceCancel t s
  | .sluiceReport t => Sys2Proof.Machine.execSluiceReport t s
  | .arrayConfirmDeadline t => Sys2Proof.Machine.execArrayConfirmDeadline t s
  | .bulkFrameReceive t port sequence ack credits admitted crcOk nack => Sys2Proof.Machine.execBulkFrameReceive t port sequence ack credits admitted crcOk nack s
  | .directionSleep t port rx => Sys2Proof.Machine.execDirectionSleep t port rx s
  | .directionWakeComplete t port rx => Sys2Proof.Machine.execDirectionWakeComplete t port rx s
  | .joinTestMode t port value => Sys2Proof.Machine.execJoinTestMode t port value s
  | .arrayApply t fTOk => Sys2Proof.Machine.execArrayApply t fTOk s
  | .joinCalibrate t => Sys2Proof.Machine.execJoinCalibrate t s
  | .joinClearCounters t port => Sys2Proof.Machine.execJoinClearCounters t port s
  | .timedTimeout t position => Sys2Proof.Machine.execTimedTimeout t position s
  | .forwardedRequest t response pos header data drive volts good => Sys2Proof.Machine.execForwardedRequest t response pos header data drive volts good s
  | .forwardTimeout t pos => Sys2Proof.Machine.execForwardTimeout t pos s
  | .syntApply t => Sys2Proof.Machine.execSyntApply t s
  | .syntQualified t measured => Sys2Proof.Machine.execSyntQualified t measured s
  | .syntQualifyTimeout t => Sys2Proof.Machine.execSyntQualifyTimeout t s
  | .syntLocked t => Sys2Proof.Machine.execSyntLocked t s
  | .referenceLoss t => Sys2Proof.Machine.execReferenceLoss t s
  | .referenceRequalified t => Sys2Proof.Machine.execReferenceRequalified t s
  | .syntRelock t => Sys2Proof.Machine.execSyntRelock t s
  | .clockOutputWrite t sub value => Sys2Proof.Machine.execClockOutputWrite t sub value s
  | .srefFire t mask => Sys2Proof.Machine.execSrefFire t mask s
  | .outputStart t output => Sys2Proof.Machine.execOutputStart t output s
  | .outputStop t output => Sys2Proof.Machine.execOutputStop t output s
  | .setSeconds t value => Sys2Proof.Machine.execSetSeconds t value s
  | .secondBoundary t rtc => Sys2Proof.Machine.execSecondBoundary t rtc s
  | .syncInEdge t => Sys2Proof.Machine.execSyncInEdge t s
  | .syncArm t => Sys2Proof.Machine.execSyncArm t s
  | .streamMarkReceive t seconds milli quality epoch descriptor crcOk => Sys2Proof.Machine.execStreamMarkReceive t seconds milli quality epoch descriptor crcOk s
  | .streamMarkSend t => Sys2Proof.Machine.execStreamMarkSend t s
  | .streamLostTimeout t => Sys2Proof.Machine.execStreamLostTimeout t s
  | .adopt t => Sys2Proof.Machine.execAdopt t s
  | .tdcEdge t ch falling => Sys2Proof.Machine.execTdcEdge t ch falling s
  | .tdcQueuePush t ch => Sys2Proof.Machine.execTdcQueuePush t ch s
  | .popBlock t ch n => Sys2Proof.Machine.execPopBlock t ch n s
  | .clearQueue t ch => Sys2Proof.Machine.execClearQueue t ch s
  | .statsStart t unit => Sys2Proof.Machine.execStatsStart t unit s
  | .tdcControlUpdate t ch line control error => Sys2Proof.Machine.execTdcControlUpdate t ch line control error s
  | .tdcLineSwap t ch => Sys2Proof.Machine.execTdcLineSwap t ch s
  | .tdcCalibrationComplete t ch widths => Sys2Proof.Machine.execTdcCalibrationComplete t ch widths s
  | .dictionaryWrite t key data drive volts good => Sys2Proof.Machine.execDictionaryWrite t key data drive volts good s
  | .dictWriteSegment t transport client key offset tag more data good => Sys2Proof.Machine.execDictWriteSegment t transport client key offset tag more data good s
  | .dictReadSegment t transport client key offset length => Sys2Proof.Machine.execDictReadSegment t transport client key offset length s
  | .segmentBufferTimeout t transport => Sys2Proof.Machine.execSegmentBufferTimeout t transport s
  | .readLatchTimeout t transport => Sys2Proof.Machine.execReadLatchTimeout t transport s
  | .tagExpiry t transport client => Sys2Proof.Machine.execTagExpiry t transport client s
  | .usdoRequest t port node unicast write key offset length more data good => Sys2Proof.Machine.execUsdoRequest t port node unicast write key offset length more data good s
  | .envelopeWrite t transport client data good => Sys2Proof.Machine.execEnvelopeWrite t transport client data good s
  | .nmtStart t port node => Sys2Proof.Machine.execNmtStart t port node s
  | .nmtStop t port node => Sys2Proof.Machine.execNmtStop t port node s
  | .nmtEnterPreOperational t port node => Sys2Proof.Machine.execNmtEnterPreOperational t port node s
  | .nmtResetNode t port node => Sys2Proof.Machine.execNmtResetNode t port node s
  | .nmtResetCommunication t port node => Sys2Proof.Machine.execNmtResetCommunication t port node s
  | .heartbeatSend t => Sys2Proof.Machine.execHeartbeatSend t s
  | .emcySend t => Sys2Proof.Machine.execEmcySend t s
  | .emcyInhibitExpiry t => Sys2Proof.Machine.execEmcyInhibitExpiry t s
  | .canBusOff t port recovered => Sys2Proof.Machine.execCanBusOff t port recovered s
  | .errorFieldClear t value => Sys2Proof.Machine.execErrorFieldClear t value s
  | .setCalendar t data => Sys2Proof.Machine.execSetCalendar t data s
  | .pantryRestore t drive good => Sys2Proof.Machine.execPantryRestore t drive good s
  | .restoreStepComplete t drive good => Sys2Proof.Machine.execRestoreStepComplete t drive good s
  | .restoreStepTimeout t drive good => Sys2Proof.Machine.execRestoreStepTimeout t drive good s
  | .opPointRequest t point => Sys2Proof.Machine.execOpPointRequest t point s
  | .opVokAssert t => Sys2Proof.Machine.execOpVokAssert t s
  | .opFrequencySwitch t => Sys2Proof.Machine.execOpFrequencySwitch t s
  | .opVcoreSettled t => Sys2Proof.Machine.execOpVcoreSettled t s
  | .opSettleTimeout t => Sys2Proof.Machine.execOpSettleTimeout t s
  | .stop t => Sys2Proof.Machine.execStop t s
  | .stopForce t => Sys2Proof.Machine.execStopForce t s
  | .stopReqNEdge t => Sys2Proof.Machine.execStopReqNEdge t s
  | .stopReqRepeat t low => Sys2Proof.Machine.execStopReqRepeat t low s
  | .stopGraceExpiry t => Sys2Proof.Machine.execStopGraceExpiry t s
  | .stopReached t => Sys2Proof.Machine.execStopReached t s
  | .wakeSample t wakeIn can perst lane => Sys2Proof.Machine.execWakeSample t wakeIn can perst lane s
  | .powerOn t => Sys2Proof.Machine.execPowerOn t s
  | .railInWindow t step => Sys2Proof.Machine.execRailInWindow t step s
  | .powerupRailTimeout t => Sys2Proof.Machine.execPowerupRailTimeout t s
  | .powerupRetry t => Sys2Proof.Machine.execPowerupRetry t s
  | .railOutOfWindow t step => Sys2Proof.Machine.execRailOutOfWindow t step s
  | .vaonLoss t => Sys2Proof.Machine.execVaonLoss t s
  | .ledgerSample t => Sys2Proof.Machine.execLedgerSample t s
  | .ledgerWindow t => Sys2Proof.Machine.execLedgerWindow t s
  | .ledgerFit t fitted => Sys2Proof.Machine.execLedgerFit t fitted s
  | .throttleEvaluate t usage => Sys2Proof.Machine.execThrottleEvaluate t usage s
  | .domainPowerDown t d => Sys2Proof.Machine.execDomainPowerDown t d s
  | .domainPowerUp t d => Sys2Proof.Machine.execDomainPowerUp t d s
  | .auxLdoSoftStartEnd t k good => Sys2Proof.Machine.execAuxLdoSoftStartEnd t k good s
  | .auxLdoLimit t k => Sys2Proof.Machine.execAuxLdoLimit t k s
  | .auxLdoRetry t k => Sys2Proof.Machine.execAuxLdoRetry t k s
  | .auxLdoReset t mask => Sys2Proof.Machine.execAuxLdoReset t mask s
  | .avsPoll t mV mA status => Sys2Proof.Machine.execAvsPoll t mV mA status s
  | .clearPeak t => Sys2Proof.Machine.execClearPeak t s
  | .refusalLogClear t => Sys2Proof.Machine.execRefusalLogClear t s
  | .clusterFault t c => Sys2Proof.Machine.execClusterFault t c s
  | .migrationTargetChosen t c n => Sys2Proof.Machine.execMigrationTargetChosen t c n s
  | .migrationResume t c n => Sys2Proof.Machine.execMigrationResume t c n s
  | .engineTestComplete t e pass shared => Sys2Proof.Machine.execEngineTestComplete t e pass shared s
  | .retireEngine t e => Sys2Proof.Machine.execRetireEngine t e s
  | .lockstepMismatch t => Sys2Proof.Machine.execLockstepMismatch t s
  | .lockstepSelfTest t flagged => Sys2Proof.Machine.execLockstepSelfTest t flagged s
  | .clearLatent t => Sys2Proof.Machine.execClearLatent t s
  | .stewardRestartAction t => Sys2Proof.Machine.execStewardRestartAction t s
  | .sentinelPoll t result => Sys2Proof.Machine.execSentinelPoll t result s
  | .firmwareImageWrite t data => Sys2Proof.Machine.execFirmwareImageWrite t data s
  | .firmwareSwap t => Sys2Proof.Machine.execFirmwareSwap t s
  | .firmwareConfirm t => Sys2Proof.Machine.execFirmwareConfirm t s
  | .confirmWindowExpiry t => Sys2Proof.Machine.execConfirmWindowExpiry t s
  | .keep t => Sys2Proof.Machine.execKeep t s
  | .keepComplete t good => Sys2Proof.Machine.execKeepComplete t good s
  | .discard t => Sys2Proof.Machine.execDiscard t s
  | .planRun t volts => Sys2Proof.Machine.execPlanRun t volts s
  | .planNow t volts => Sys2Proof.Machine.execPlanNow t volts s
  | .faultAcknowledge t sq => Sys2Proof.Machine.execFaultAcknowledge t sq s
  | .diagnosticsClearCounters t => Sys2Proof.Machine.execDiagnosticsClearCounters t s
  | .clearOverTemp t => Sys2Proof.Machine.execClearOverTemp t s
  | .hkConversion t ledger raw => Sys2Proof.Machine.execHkConversion t ledger raw s
  | .calibrateReference t mask startAt => Sys2Proof.Machine.execCalibrateReference t mask startAt s
  | .calibrateClock t mask startAt => Sys2Proof.Machine.execCalibrateClock t mask startAt s
  | .calibrateSignalPath t mask startAt => Sys2Proof.Machine.execCalibrateSignalPath t mask startAt s
  | .calReferenceComplete t shorts vref => Sys2Proof.Machine.execCalReferenceComplete t shorts vref s
  | .calClockComplete t ticks => Sys2Proof.Machine.execCalClockComplete t ticks s
  | .signalPathWindowStart t => Sys2Proof.Machine.execSignalPathWindowStart t s
  | .signalPathMeasureStart t => Sys2Proof.Machine.execSignalPathMeasureStart t s
  | .signalPathMeasureEnd t => Sys2Proof.Machine.execSignalPathMeasureEnd t s
  | .signalPathWindowEnd t => Sys2Proof.Machine.execSignalPathWindowEnd t s
  | .capture t => Sys2Proof.Machine.execCapture t s
  | .reapply t => Sys2Proof.Machine.execReapply t s
  | .spareSelfTest t hbm unit pass => Sys2Proof.Machine.execSpareSelfTest t hbm unit pass s
  | .displayEnable t on => Sys2Proof.Machine.execDisplayEnable t on s
  | .displayCommit t buffer => Sys2Proof.Machine.execDisplayCommit t buffer s
  | .frameStart t => Sys2Proof.Machine.execFrameStart t s
  | .displayFrameEnd t linkCrc => Sys2Proof.Machine.execDisplayFrameEnd t linkCrc s
  | .hpdChange t present => Sys2Proof.Machine.execHpdChange t present s
  | .displayLinkTrained t ok rate caps psr => Sys2Proof.Machine.execDisplayLinkTrained t ok rate caps psr s
  | .displayClearFlags t => Sys2Proof.Machine.execDisplayClearFlags t s
  | .extest t cells => Sys2Proof.Machine.execExtest t cells s
  | .idcode t => Sys2Proof.Machine.execIdcode t s
  | .samplePreload t cells => Sys2Proof.Machine.execSamplePreload t cells s
  | .highz t => Sys2Proof.Machine.execHighz t s
  | .clamp t => Sys2Proof.Machine.execClamp t s
  | .extestPulse t => Sys2Proof.Machine.execExtestPulse t s
  | .extestTrain t => Sys2Proof.Machine.execExtestTrain t s
  | .debug t => Sys2Proof.Machine.execDebug t s
  | .bypass t => Sys2Proof.Machine.execBypass t s
  | .tapReset t => Sys2Proof.Machine.execTapReset t s
  | .marginScan t q mask => Sys2Proof.Machine.execMarginScan t q mask s
  | .marginScanComplete t q counts => Sys2Proof.Machine.execMarginScanComplete t q counts s
  | .marginUpdate t q eyes => Sys2Proof.Machine.execMarginUpdate t q eyes s
  | .laneQuadFault t q lane code => Sys2Proof.Machine.execLaneQuadFault t q lane code s
  | .laneQuadClearFault t q => Sys2Proof.Machine.execLaneQuadClearFault t q s
  | .timingStreamBlockLock t => Sys2Proof.Machine.execTimingStreamBlockLock t s
  | .timingStreamSignalLoss t => Sys2Proof.Machine.execTimingStreamSignalLoss t s
  | .prbsCheckerLock t port lane => Sys2Proof.Machine.execPrbsCheckerLock t port lane s
  | .canErrorPassive t port passive => Sys2Proof.Machine.execCanErrorPassive t port passive s
  | .driveAttach t port supported rate width capacity units name label directory => Sys2Proof.Machine.execDriveAttach t port supported rate width capacity units name label directory s
  | .joinAssumptionFlagClear t => Sys2Proof.Machine.execJoinAssumptionFlagClear t s

end Sys2Proof.Machine
end

