-- ==== Sys2Proof/Safety.lean ====
section
/-! DEFINITION. The terms the statements use: when the device takes dictionary writes, the canonical form of its memories, and what a command leaves alone. -/

namespace Sys2Proof.Machine

open Sys2Proof

/-- The dictionary is served, by a steward that does not restart, with RestoreState Complete: an action write then runs its own checks
(R29, R453, R494). -/
def State.Ready (s : State) : Prop :=
  s.power.stewardUp = true ∧ s.steward.restarting = false ∧ s.rd Ob.devRestoreState = 3

/-- The register file, the DOMAINs, HBM and the pools are in canonical form: keys rise and no entry reads as an unlisted one does. -/
def State.memoryWf (s : State) : Bool :=
  twf objDefault s.regs && twf domDefault s.doms && twf (dconst 0) s.hbm && twf (dconst 0) s.pool

/-- An engine is Running, no SEND of it meets a full queue, the microword entering MF neither yields nor enters the service routine, and
no event waits to be delivered: a cycle then brings about nothing outside the datapath and the sequencer (R270, R285, R287, R288). -/
def Engine.Plain (x : Engine) : Prop :=
  x.st = 2 ∧ (∀ u, x.nf = some u → nCtl u.nano = 1 → x.sends.length < 8)
  ∧ mYield (tget (dconst 0) x.micro x.pc) = false
  ∧ (mSafe (tget (dconst 0) x.micro x.pc) = false ∨ x.ev = false ∨ x.service = true)
  ∧ x.events = []

/-- A write is accepted with this effect: the response is success, a checkpoint follows, and a step of device time that the effect now
forbids is voided (R28, R430, R431, R457). -/
def State.accepted (u : State) : Outcome := .next u.complete

/-- A write at `t` aborts with a code and changes nothing else (R451). -/
def State.aborted (s : State) (t code : Nat) : Outcome := .next ((s.advance t).respond code)

end Sys2Proof.Machine
end

