-- ==== Sys2Proof/Certificates/Slice0/Obligations.lean ====
section
/-! DEFINITION. The statements for the provers: every command with the effect it completes with, the frames of the commands, the invariants of the memories, the abort and busy rules. -/

open Sys2Proof Sys2Proof.Machine

/-- For every command c, rest of queue and state, step of the state with c at the front of its queue is exec of c on the state with the rest; with an empty queue step answers the state unchanged (model's choice, log entry 11), and State.reset has an empty queue. -/
def Obligations.StepRunsFrontCommand : Prop :=
  (∀ (c : Instr) (rest : List Instr) (s : State), step { s with pending := c :: rest } = exec c { s with pending := rest })
  ∧ (∀ s : State, s.pending = [] → step s = .next s)
  ∧ State.reset.pending = []

/-- IDCODE, SAMPLE_PRELOAD, DEBUG and BYPASS load the instruction register and shift the previous capture out, 5 after a refusal and 1 otherwise; TAP_RESET returns the port to reset; EXTEST, HIGHZ, CLAMP, EXTEST_PULSE and EXTEST_TRAIN take hold of the pins while every slot is Empty or Described, every ingest link Disabled and SYN-T Off, and give BYPASS with the refusal noted otherwise. Nothing else of the device changes. -/
def Obligations.TestAccess : Prop :=
  ∀ (s : State) (t : Nat) (cells : List Bool),
    let now := s.advance t
    let cap := Out.tdo (if s.tap.refused then 5 else 1)
    let free := (∀ n, n < 64 → s.rd (Ob.slotState n) < 2) ∧ (∀ j, j < 16 → s.rd (Ob.linkLinkState j) = 0) ∧ s.rd Ob.synState = 0
    let load := fun (i : Nat) (no : Bool) (open' : List Nat) (cells : List Bool) (out : List Out) => (Host.Outcome.next
      { now with tap := { instr := i, refused := no, cells := cells, sessions := open' }, out := cap :: out } : Outcome)
    exec (.idcode t) s = load 1 false [] s.tap.cells [.tdo 0x2A4007EB]
    ∧ exec (.samplePreload t cells) s = load 2 false [] cells []
    ∧ exec (.debug t) s = load 0x10 false s.tap.sessions s.tap.cells []
    ∧ exec (.bypass t) s = load 0xFF false [] s.tap.cells []
    ∧ exec (.tapReset t) s = .next { now with tap := {} }
    ∧ (free → exec (.extest t cells) s = load 0 false [] cells [.pins 0 cells]
        ∧ exec (.highz t) s = load 3 false [] s.tap.cells [.pins 3 []]
        ∧ exec (.clamp t) s = load 4 false [] s.tap.cells [.pins 4 s.tap.cells]
        ∧ exec (.extestPulse t) s = load 5 false [] s.tap.cells [.pins 5 s.tap.cells]
        ∧ exec (.extestTrain t) s = load 6 false [] s.tap.cells [.pins 6 s.tap.cells])
    ∧ (¬ free → ∀ c ∈ [Instr.extest t cells, .highz t, .clamp t, .extestPulse t, .extestTrain t],
        exec c s = load 0xFF true [] s.tap.cells [])

/-- MARGIN_SCAN starts a scan unless one runs or the mask names a lane that is not there; its completion publishes the counts of each lane scanned; MARGIN_UPDATE publishes eyes of active receivers. LANE_QUAD_CLEAR_FAULT, DIAGNOSTICS_CLEAR_COUNTERS and CLEAR_OVER_TEMP clear what they name. FAULT_ACKNOWLEDGE of an unread Sequence counts the entries up to it as read and clears bit 0 of the Error register when none is left; of another Sequence it changes nothing. LANE_QUAD_FAULT records code and count, makes a FaultLog entry, abandons a scan and starts the recovery of the quad's function. Nothing else changes. -/
def Obligations.QuadsAndDiagnostics : Prop :=
  ∀ (s : State) (t : Nat) (q : Fin 36) (mask sq : Nat) (lane : Fin 4) (code : Fin 6) (counts : List (List (BitVec 8))) (eyes : List (Nat × Nat)),
    let now := s.advance t
    (s.Ready → (s.scanS q).running = none → mask < 16 →
        exec (.marginScan t q mask) s = (now.setScan q { running := some mask, result := some 1 }).accepted)
    ∧ (s.Ready → (s.scanS q).running ≠ none → exec (.marginScan t q mask) s = s.aborted t Abort.state)
    ∧ (s.Ready → (s.scanS q).running = none → 16 ≤ mask → exec (.marginScan t q mask) s = s.aborted t Abort.range)
    ∧ ((s.scanS q).running = some mask → exec (.marginScanComplete t q counts) s = .next ((now.setDom (Ob.quadScanResult q)
          ((bitsSet 4 mask).zipIdx.flatMap fun x => if s.laneState q x.1 = 1 then List.replicate 2048 0xFF
            else (counts.getD x.2 []).take 2048 ++ List.replicate (2048 - (counts.getD x.2 []).length) 0)).setScan q { result := some 0 }))
    ∧ ((s.scanS q).running = none → exec (.marginScanComplete t q counts) s = .next now)
    ∧ exec (.marginUpdate t q eyes) s = .next (now.setDom (Ob.quadMargin q) ((List.range 4).flatMap fun l =>
          if s.laneState q l = 2 then leBytes 2 (eyes.getD l (0, 0)).1 ++ leBytes 2 (eyes.getD l (0, 0)).2 else List.replicate 4 0))
    ∧ (s.Ready → exec (.laneQuadClearFault t q) s = (now.wr (Ob.quadFaultCode q) (objDefault (Ob.quadFaultCode q))).accepted)
    ∧ (s.Ready → exec (.diagnosticsClearCounters t) s = ({ ((((now.wr Ob.diagReceiveCollisions 0).wr Ob.diagDiscardedSends 0).wr
          Ob.diagDiscardedChanges 0).wr Ob.diagDiscardedHostWrites 0) with life := { s.life with corrected := [], uncorrected := [] } } : State).accepted)
    ∧ (s.Ready → exec (.clearOverTemp t) s = (now.wr Ob.hbmOverTemp (objDefault Ob.hbmOverTemp)).accepted)
    ∧ (s.Ready → (∀ i, i < s.life.faultCount - s.life.acked → (s.life.acked + i) % 65536 ≠ sq % 65536) →
        exec (.faultAcknowledge t sq) s = now.accepted)
    ∧ (s.Ready → ∀ i, i < s.life.faultCount - s.life.acked → i < 65536 → (s.life.acked + i) % 65536 = sq % 65536 →
        let a := s.life.acked + i + 1
        exec (.faultAcknowledge t sq) s = ((({ now with life := { s.life with acked := a } } : State).wr Ob.fltUnread
          ((s.life.faultCount - a) % 65536)).wr Ob.comErrorRegister
          (setBit (s.rd Ob.comErrorRegister) 0 (decide (a < s.life.faultCount)))).accepted)
    ∧ (0 < code.val → ∃ u f, exec (.laneQuadFault t q lane code) s = .next u
        ∧ f = (now.scanAbandon q).quadFault q code
        ∧ f.rd (Ob.quadFaultCode q) = code ∧ (f.scanS q).running = none
        ∧ (16 ≤ q.val → q.val < 20 → u = f.endpointReset true)
        ∧ (20 ≤ q.val → q.val < 26 → u = f.wr (Ob.storLinkState (q - 20)) 0)
        ∧ (26 ≤ q.val → q.val < 34 → u = if f.rd (Ob.joinState ((q - 26) / 2)) = 6 then f.retrainPort ((q - 26) / 2) else f)
        ∧ (q.val = 34 → u = if f.rd Ob.dispState = 2 ∨ f.rd Ob.dispState = 3 then f.displayRetrain else f)
        ∧ (q.val < 16 → u = ((List.range 16).filter fun j => (f.quadsOf j).contains q.val).foldl (fun s j => s.lockLoss j) f)
        ∧ (q.val = 35 → u = if lane.val < 2 then (if bit (f.rd Ob.primEnable) lane then f.laneStart lane else f)
            else if lane.val = 2 then (if f.rdB Ob.timeStreamInEnable then f.streamAbsent else f) else f))
    ∧ (code.val = 0 → exec (.laneQuadFault t q lane code) s = .next now)

/-- While no calibration runs a start of a reference, clock or signal-path calibration is accepted, clears FailedItem and begins, or ends at once with Result 4 (clock, SYN-T not Locked), 3 (signal path, StartAt within 1 ms) or 0 (signal path, no channel); StartAt of the first two is refused; while one runs every start aborts. CAL_REFERENCE_COMPLETE writes offsets and one gain to every voltage channel, or ends with 4 (reference unavailable) or 2 (implausible); CAL_CLOCK_COMPLETE writes the trim within 10,000 or ends with 2. CAPTURE stores the set; REAPPLY takes the whole of a good set, or reports 6 or 2 and changes nothing else. -/
def Obligations.CalibrationsStartAndEnd : Prop :=
  ∀ (s : State) (t mask startAt ticks v : Nat) (g : Int) (shorts : List Nat) (vref : Option Nat),
    let now := s.advance t
    let begun := fun (kind : Nat) => ({ (now.wr Ob.calibResult 1).clr Ob.calibFailedItem with cal := { kind := kind, mask := mask, startAt := s.unstamp startAt, reapply := s.cal.reapply, started := true } } : State)
    let ended := fun (code : Nat) => ({ (begun 0) with regs := ((begun 0).wr Ob.calibResult code).regs } : State)
    let off := fun (i : Nat) => roundUpHalf (shorts.getD i 0) 64
    let offs := voltageChannels.zipIdx.map fun c => (c.1, off c.2)
    let trim := roundUpHalf (((ticks : Int) - 327680) * 100000000) 327680
    let b := s.dom Ob.calibStoredSet
    let good := calHeaderOk b = true
    let fits := (∀ p ∈ calParts b, calValueOk p.1 p.2 = true) ∧ (sint 32 (leAt b 792 4)).natAbs ≤ 10000
    (s.Ready → s.cal.kind ≠ 0 → ∀ c ∈ [Instr.calibrateReference t mask startAt, .calibrateClock t mask startAt, .calibrateSignalPath t mask startAt, .reapply t],
        exec c s = s.aborted t Abort.state)
    ∧ (s.Ready → s.cal.kind = 0 → startAt = 0 → exec (.calibrateReference t mask startAt) s = (begun 1).accepted
        ∧ (s.rd Ob.synState = 3 → exec (.calibrateClock t mask startAt) s = (begun 2).accepted)
        ∧ (s.rd Ob.synState ≠ 3 → exec (.calibrateClock t mask startAt) s = (ended 4).accepted))
    ∧ (s.Ready → s.cal.kind = 0 → startAt ≠ 0 → exec (.calibrateReference t mask startAt) s = s.aborted t Abort.range
        ∧ exec (.calibrateClock t mask startAt) s = s.aborted t Abort.range)
    ∧ (s.Ready → s.cal.kind = 0 →
        (s.unstamp startAt < now.devNow + s.us 1000 → exec (.calibrateSignalPath t mask startAt) s = (ended 3).accepted)
        ∧ (now.devNow + s.us 1000 ≤ s.unstamp startAt → mask % 2 ^ 64 = 0 → exec (.calibrateSignalPath t mask startAt) s = (ended 0).accepted)
        ∧ (now.devNow + s.us 1000 ≤ s.unstamp startAt → mask % 2 ^ 64 ≠ 0 → exec (.calibrateSignalPath t mask startAt) s = (begun 3).accepted))
    ∧ (s.cal.kind ≠ 1 → exec (.calReferenceComplete t shorts vref) s = .next now)
    ∧ (s.cal.kind ≠ 2 → exec (.calClockComplete t ticks) s = .next now)
    ∧ (s.cal.kind = 1 → exec (.calReferenceComplete t shorts none) s = .next (now.calEnd 4 (some 25)))
    ∧ (s.cal.kind = 1 → s.vrefGain (off 21) v = none → exec (.calReferenceComplete t shorts (some v)) s = .next (now.calEnd 2 (some 0)))
    ∧ (s.cal.kind = 1 → s.vrefGain (off 21) v = some g → (∀ x ∈ offs, hkPlausible x.2 g = true) →
        exec (.calReferenceComplete t shorts (some v)) s = .next ((((now.setDom Ob.hkcOffsets (offs.foldl (fun b x => patch16 b x.1 x.2) (s.dom Ob.hkcOffsets))).setDom
          Ob.hkcGains (offs.foldl (fun b x => patch16 b x.1 g) (s.dom Ob.hkcGains))).wr Ob.hkcOrigin 1).calEnd 0 none))
    ∧ (s.cal.kind = 1 → s.vrefGain (off 21) v = some g → ∀ x, offs.find? (fun x => !hkPlausible x.2 g) = some x →
        exec (.calReferenceComplete t shorts (some v)) s = .next (now.calEnd 2 (some x.1)))
    ∧ (s.cal.kind = 2 → -10000 ≤ trim → trim ≤ 10000 → exec (.calClockComplete t ticks) s = .next ((now.wr Ob.calibRtcTrim (uint 32 trim)).calEnd 0 none))
    ∧ (s.cal.kind = 2 → (trim < -10000 ∨ 10000 < trim) → exec (.calClockComplete t ticks) s = .next (now.calEnd 2 none))
    ∧ (s.Ready → exec (.capture t) s = (now.setDom Ob.calibStoredSet s.calSet).accepted)
    ∧ (s.Ready → s.cal.kind = 0 → ¬ good → exec (.reapply t) s = ({ now with cal := { s.cal with reapply := some 6 } } : State).accepted)
    ∧ (s.Ready → s.cal.kind = 0 → good → ¬ fits → exec (.reapply t) s = ({ now with cal := { s.cal with reapply := some 2 } } : State).accepted)
    ∧ (s.Ready → s.cal.kind = 0 → good → fits → ∃ u, exec (.reapply t) s = u.accepted
        ∧ u = { ((calParts b).foldl (fun (s : State) p => s.setDom p.1 p.2) now) with
            regs := (((now.wr Ob.calibPathValid (leAt b 784 8)).wr Ob.calibRtcTrim (leAt b 792 4)).wr Ob.hkcOrigin 2).regs
            cal := { s.cal with reapply := some 0 } })

/-- In a signal-path calibration the window of the channel starts its substitution at T_i, its measurement runs from T_i + 0.25 ms to T_i + 2.25 ms, and at T_i + 2.5 ms a plausible result replaces the channel's path values; a channel whose link does not run or is lost meanwhile, or whose result is implausible, is noted with code 4 or 2 and the next channel follows. A conversion in the sequencer's slot stores the result word of its channel in Latest, counts, and steps the sequencer; one in a ledger slot stores it without; while not Run, while the sequencer is disabled, waits, or a Reference calibration holds it, nothing happens. -/
def Obligations.SignalPathAndConversions : Prop :=
  ∀ (s : State) (t k raw : Nat) (r : PathResult) (c : Fin 64),
    let now := s.advance t
    let j := s.rd (Ob.chanSourceLink k)
    let cplx := s.complex k
    (s.calChannel = some k → s.cal.kind = 3 →
      (s.cal.phase = 0 → s.calTime 0 ≤ now.devNow → j < 16 → s.rd (Ob.linkLinkState j) = 4 → exec (.signalPathWindowStart t) s = .next
        { (now.setChan k { s.chanS k with calSubst := true }) with cal := { s.cal with phase := 1, lost := false, samples := [], result := none } })
      ∧ (s.cal.phase = 0 → s.calTime 0 ≤ now.devNow → (16 ≤ j ∨ s.rd (Ob.linkLinkState j) ≠ 4) → exec (.signalPathWindowStart t) s = .next (now.calNext (some (k, 4))))
      ∧ (s.cal.phase = 1 → s.calTime 1 ≤ now.devNow → exec (.signalPathMeasureStart t) s = .next { now with cal := { s.cal with phase := 2 } })
      ∧ (s.cal.phase = 2 → s.calTime 9 ≤ now.devNow → exec (.signalPathMeasureEnd t) s = .next { now with cal := { s.cal with
          phase := 3, samples := []
          result := some (correlate cplx (if cplx then sint 64 (s.rd Ob.calibToneFreq) else s.rd Ob.calibToneFreq) (sint 16 (s.rd Ob.calibToneLevel)) s.second s.cal.samples) } })
      ∧ (s.cal.phase = 3 → s.calTime 10 ≤ now.devNow → s.cal.lost = true → exec (.signalPathWindowEnd t) s = .next (now.calNext (some (k, 4))))
      ∧ (s.cal.phase = 3 → s.calTime 10 ≤ now.devNow → s.cal.lost = false → s.cal.result = some r → r.good = true → exec (.signalPathWindowEnd t) s = .next ((now.calApply k r).calNext none))
      ∧ (s.cal.phase = 3 → s.calTime 10 ≤ now.devNow → s.cal.lost = false → (∀ r, s.cal.result = some r → r.good = false) → exec (.signalPathWindowEnd t) s = .next (now.calNext (some (k, 2)))))
    ∧ ((s.cal.kind ≠ 3 ∨ s.calChannel = none) → exec (.signalPathWindowStart t) s = .next now ∧ exec (.signalPathMeasureEnd t) s = .next now
        ∧ exec (.signalPathWindowEnd t) s = .next now)
    ∧ (s.cal.kind ≠ 3 → exec (.signalPathMeasureStart t) s = .next now)
    ∧ (s.powered = false → ∀ l, exec (.hkConversion t l raw) s = .next now)
    ∧ (s.powered = true → 62 ≤ c.val → exec (.hkConversion t (some c) raw) s = .next now)
    ∧ (s.powered = true → c.val < 62 → ∃ (u : State), exec (.hkConversion t (some c) raw) s = .next u
        ∧ u.dom Ob.hkLatest = patch (s.dom Ob.hkLatest) (4 * c) (leBytes 4 (s.hkWord c raw)) ∧ u.regs = s.regs
        ∧ u = { now with doms := u.doms, hk := u.hk })
    ∧ (s.powered = true → (s.rd Ob.hkEnable = 0 ∨ s.cal.kind = 1 ∨ now.now < s.hk.waitUntil) → exec (.hkConversion t none raw) s = .next now)
    ∧ (s.powered = true → s.rd Ob.hkEnable ≠ 0 → s.cal.kind ≠ 1 → s.hk.waitUntil ≤ now.now →
        let c := seqChannel (s.hk.pass.getD s.hk.entry 0)
        ∃ (u v : State), exec (.hkConversion t none raw) s = .next u ∧ u = (v.bump Ob.hkConversions).sequenceStep
          ∧ v.dom Ob.hkLatest = patch (s.dom Ob.hkLatest) (4 * c) (leBytes 4 (s.hkWord c raw)) ∧ v = { now with doms := v.doms, hk := v.hk }
          ∧ v.hk.pass = s.hk.pass ∧ v.hk.entry = s.hk.entry ∧ v.hk.done = s.hk.done)

/-- OP_POINT_REQUEST is refused while the device is busy with a commit, an overlap, a pseudo-channel's move, a stop, a sentinel restart or another change, reports the code of the first contract that would not hold at the point, completes at once at the point in force with its planned VCORE in place, and otherwise starts the change. Raising VCORE first, a change switches f_E only after VOK and counts an interlock trip without it; lowering, it switches first and writes VCORE after; each ends with Result 0 when it has settled and with Result 2 and a FaultLog entry otherwise. AVS_POLL keeps voltage and current and logs a fault bit that appears. With no change in progress its events do nothing. -/
def Obligations.OperatingPoints : Prop :=
  ∀ (s : State) (t p mV mA st code : Nat) (c : OpChange),
    let now := s.advance t
    let noted := fun (x : OpChange) => ({ now with power := { s.power with change := some x } } : State)
    let polled := ({ (now.wr Ob.opVcoreNow (mV % 65536)) with power := { s.power with avsCurrent := mA } } : State)
    (s.Ready → 3 ≤ p → exec (.opPointRequest t p) s = s.aborted t Abort.range)
    ∧ (s.Ready → p < 3 → now.pointBusy = true → exec (.opPointRequest t p) s = s.aborted t Abort.state)
    ∧ (s.Ready → p < 3 → now.pointBusy = false → now.pointRefusal p = some code → exec (.opPointRequest t p) s = ((now.wr Ob.opResult code).wr Ob.opPhase 0).accepted)
    ∧ (s.Ready → p < 3 → now.pointBusy = false → now.pointRefusal p = none → p = s.rd Ob.opCurrent → now.plannedVcore p = s.power.target →
        exec (.opPointRequest t p) s = ((now.wr Ob.opResult 0).wr Ob.opPhase 0).accepted)
    ∧ (s.Ready → p < 3 → now.pointBusy = false → now.pointRefusal p = none → ¬ (p = s.rd Ob.opCurrent ∧ now.plannedVcore p = s.power.target) →
        exec (.opPointRequest t p) s = (now.startChange p).accepted)
    ∧ (s.power.change = some c → c.up = true →
        (c.vok = false → exec (.opVokAssert t) s = .next ((noted { c with vok := true }).wr Ob.opPhase 4)
          ∧ exec (.opFrequencySwitch t) s = .next (now.bump Ob.opInterlockTrips)
          ∧ exec (.opSettleTimeout t) s = .next (((now.avsWrite c.old).changeFailed).afterChange))
        ∧ (c.vok = true → exec (.opVokAssert t) s = .next now ∧ exec (.opSettleTimeout t) s = .next now
          ∧ exec (.opFrequencySwitch t) s = .next (((now.selectPoint c.target).endChange 0).afterChange))
        ∧ exec (.opVcoreSettled t) s = .next now)
    ∧ (s.power.change = some c → c.up = false →
        exec (.opVokAssert t) s = .next now
        ∧ (c.switched = false → exec (.opVcoreSettled t) s = .next now ∧ exec (.opSettleTimeout t) s = .next now
          ∧ ∃ (u v : State), u = (now.selectPoint c.target).wr Ob.opPhase 2 ∧ v = { u with power := { u.power with change := some { c with switched := true } } }
            ∧ exec (.opFrequencySwitch t) s = .next (v.avsWrite (v.plannedVcore c.target)))
        ∧ (c.switched = true → exec (.opFrequencySwitch t) s = .next now ∧ exec (.opVcoreSettled t) s = .next ((now.endChange 0).afterChange)
          ∧ exec (.opSettleTimeout t) s = .next (now.changeFailed.afterChange)))
    ∧ (s.power.change = none → ∀ i ∈ [Instr.opVokAssert t, .opFrequencySwitch t, .opVcoreSettled t, .opSettleTimeout t], exec i s = .next now)
    ∧ (s.powered = false → ∀ o, exec (.avsPoll t mV mA o) s = .next now)
    ∧ (s.powered = true → exec (.avsPoll t mV mA none) s = .next polled)
    ∧ (s.powered = true → (∀ i, i < 16 → bit st i = true → bit s.power.avsFaults i = true) →
        exec (.avsPoll t mV mA (some st)) s = .next { polled with power := { polled.power with avsFaults := st } })
    ∧ (s.powered = true → (∃ i, i < 16 ∧ bit st i = true ∧ bit s.power.avsFaults i = false) →
        exec (.avsPoll t mV mA (some st)) s = .next (({ polled with power := { polled.power with avsFaults := st } } : State).faultLog 0x0A 2 0 0xFF 0 st))

/-- While powered LEDGER_SAMPLE adds each rail's power to the window and counts a sample; LEDGER_WINDOW counts the time in Run, and with samples publishes the mean powers and their sum as MeasuredPower, raises PeakPower, accumulates energy, and counts an over-envelope window, with one FaultLog entry a second, when the sum exceeds the envelope; a window without samples publishes nothing; a fit needs 16 usable windows and stamps LastFit; THROTTLE_EVALUATE throttles above the allowance, counts its start and ends at or below it; CLEAR_PEAK clears the peak. AUX_LDO outputs end their soft start on or latched, latch at a current limit in Run, retry while enabled and fewer than Retries restarts failed, and AUX_LDO_RESET clears the latches it names. -/
def Obligations.LedgerThrottleAndSentinelOutputs : Prop :=
  ∀ (s : State) (t mask : Nat) (fitted usage : List Nat) (k : Fin 2) (good : Bool),
    let now := s.advance t
    let l := s.windowPower
    let e := s.power.energyUj + l.sum
    let exceeds := decide (s.rd Ob.penvEnvelope < l.sum)
    let h := now.countHours
    (s.powered = false → ∀ c ∈ [Instr.ledgerSample t, .ledgerWindow t, .ledgerFit t fitted, .throttleEvaluate t usage], exec c s = .next now)
    ∧ (s.powered = true → ∃ (u : State), exec (.ledgerSample t) s = .next u
        ∧ u = { now with power := { s.power with railSum := u.power.railSum, windowN := s.power.windowN + 1 } }
        ∧ ∀ r, r < 9 → tget (dconst 0) u.power.railSum r = tget (dconst 0) s.power.railSum r + s.railPower r)
    ∧ h = { now with regs := h.regs, life := { s.life with runMs := (s.life.runMs + 1) % 3600000, hotMs := h.life.hotMs } }
    ∧ (s.life.runMs + 1 = 3600000 → h.rd Ob.lifeServiceHours = (now.bump Ob.lifeServiceHours).rd Ob.lifeServiceHours)
    ∧ (s.powered = true → s.power.windowN = 0 → exec (.ledgerWindow t) s = .next { h with power := { s.power with
        shunt := s.dom Ob.ledgShuntMap, railSum := [], windowN := 0 } })
    ∧ (s.powered = true → s.power.windowN ≠ 0 → exceeds = false → ∃ (u : State), exec (.ledgerWindow t) s = .next u
        ∧ u.rd Ob.ledgMeasuredPower = l.sum ∧ u.rd Ob.ledgPeakPower = max l.sum (s.rd Ob.ledgPeakPower)
        ∧ u.dom Ob.ledgRailPower = l.flatMap (fun v => leBytes 4 v)
        ∧ u.power.windowN = 0 ∧ u.power.railSum = [] ∧ u.power.energyUj = e % 1000 ∧ u.power.shunt = s.dom Ob.ledgShuntMap
        ∧ u.rd Ob.penvOverEnvelope = s.rd Ob.penvOverEnvelope ∧ u.life = h.life ∧ u = { h with regs := u.regs, doms := u.doms, power := u.power })
    ∧ (s.powered = true → s.power.windowN ≠ 0 → exceeds = true → ∃ (u v : State), exec (.ledgerWindow t) s = .next u
        ∧ v.rd Ob.ledgMeasuredPower = l.sum ∧ v = { h with regs := v.regs, doms := v.doms, power := v.power }
        ∧ (s.power.overSecond = some s.time.rtcSeconds → u = v.bump Ob.penvOverEnvelope)
        ∧ (s.power.overSecond ≠ some s.time.rtcSeconds → u = ({ (v.bump Ob.penvOverEnvelope) with power := { v.power with
            overSecond := some s.time.rtcSeconds } } : State).faultLog 0x0A 1 0 0xFF 0 l.sum))
    ∧ (s.powered = true → (s.power.usable.filter id).length < 16 → exec (.ledgerFit t fitted) s = .next now)
    ∧ (s.powered = true → 16 ≤ (s.power.usable.filter id).length → ∃ (u : State), exec (.ledgerFit t fitted) s = .next u
        ∧ u.rd Ob.ledgLastFit = now.stampNow ∧ u = { now with regs := u.regs, power := u.power })
    ∧ (s.powered = true → s.bestPower usage ≤ s.rd Ob.penvBestEffortAllowance → exec (.throttleEvaluate t usage) s = .next (now.wr Ob.penvThrottling 0))
    ∧ (s.powered = true → s.rd Ob.penvBestEffortAllowance < s.bestPower usage →
        (s.rd Ob.penvThrottling ≠ 0 → exec (.throttleEvaluate t usage) s = .next now)
        ∧ (s.rd Ob.penvThrottling = 0 → exec (.throttleEvaluate t usage) s = .next ((now.wr Ob.penvThrottling 1).bump Ob.penvThrottleEvents)))
    ∧ (s.Ready → exec (.clearPeak t) s = (now.wr Ob.ledgPeakPower 0).accepted)
    ∧ (s.auxState k = 1 → good = true → exec (.auxLdoSoftStartEnd t k good) s = .next ((now.setAux k 2).setTries k 0))
    ∧ (s.auxState k = 1 → good = false → exec (.auxLdoSoftStartEnd t k good) s = .next (now.auxLatch k))
    ∧ (s.auxState k ≠ 1 → exec (.auxLdoSoftStartEnd t k good) s = .next now)
    ∧ (s.power.run = true → s.auxState k = 2 → exec (.auxLdoLimit t k) s = .next (now.auxLatch k))
    ∧ ((s.power.run = false ∨ s.auxState k ≠ 2) → exec (.auxLdoLimit t k) s = .next now)
    ∧ (let n := tget (dconst 0) s.power.auxTries k
       let may := s.auxState k = 3 ∧ s.auxWant k = true ∧ n < bits (s.rd (auxKey k)) 13 12
       (may → exec (.auxLdoRetry t k) s = .next (((now.setAux k 1).setTries k (n + 1)).emit (.auxLdo k true)))
       ∧ (¬ may → exec (.auxLdoRetry t k) s = .next now))
    ∧ (s.Ready → exec (.auxLdoReset t mask) s = ((List.range 2).foldl (fun s k =>
        if bit mask k && s.auxState k == 3 then ((s.setAux k 0).setTries k 0).auxFollow k else s) now).accepted)

/-- SYNT_APPLY is refused while an output, a TDC, a link, the primitive stream, an array, admitted work or a pin test depends on f_T, reports 0x4F outside the limits, and otherwise stops device time and enters Qualifying. Qualifying goes to Acquiring with a reference within 1,000 ppm, to Failed at its timeout, and back from Acquiring on loss. Locked makes f_T, the injection frequency and the engine ratios valid, and after an Apply holds device time for the RTC's second. A loss in Locked enters Holdover, counts, and clears HoldoverTime; requalification slews, and relocking keeps HoldoverTime and is no step. Each event does nothing in other states. -/
def Obligations.SynthesisStates : Prop :=
  ∀ (s : State) (t measured : Nat),
    let now := s.advance t
    let st := s.rd Ob.synState
    let src := s.rd Ob.synSource
    let mode := s.rd Ob.synRefMode
    let loop := s.rd Ob.synLoopMode
    let m := s.rd Ob.synMultiplier
    let free := now.synBusy = false ∧ now.tapHolds = false
    let near := (if s.syn.fRef ≤ measured then measured - s.syn.fRef else s.syn.fRef - measured) * 1000 ≤ s.syn.fRef
    (s.Ready → ¬ free → exec (.syntApply t) s = s.aborted t Abort.state)
    ∧ (s.Ready → free → synLimits (s.fRefOf src) mode loop m = false →
        exec (.syntApply t) s = ({ now with syn := { s.syn with applyResult := some 0x4F } } : State).accepted)
    ∧ (s.Ready → free → synLimits (s.fRefOf src) mode loop m = true → exec (.syntApply t) s =
        ({ (now.calUnlock.wr Ob.synState 1) with
          time := { s.time with counting := false, held := now.devNow, awaitRtc := false }
          syn := { s.syn with
            applyResult := some 0, source := src, fRef := s.fRefOf src
            fInjNext := twiceInj (s.fRefOf src) mode / 2
            fTNext := twiceFT (twiceInj (s.fRefOf src) mode) loop m / 2
            lockedOnce := false, lostAt := now.now, slewing := false } } : State).accepted)
    ∧ (st = 1 → near → exec (.syntQualified t measured) s = .next ((now.wr Ob.synRefMeasured measured).wr Ob.synState 2))
    ∧ ((st ≠ 1 ∨ ¬ near) → exec (.syntQualified t measured) s = .next now)
    ∧ (st = 1 → exec (.syntQualifyTimeout t) s = .next (now.wr Ob.synState 5))
    ∧ (st ≠ 1 → exec (.syntQualifyTimeout t) s = .next now)
    ∧ (st = 2 → ∃ u : State, exec (.syntLocked t) s = .next u
        ∧ u.rd Ob.synState = 3 ∧ u.rd Ob.synFT = s.syn.fTNext ∧ u.rd Ob.synInjectionFreq = s.syn.fInjNext
        ∧ u.dom Ob.synEngineRatio = engineRatioBytes s.syn.fTNext ∧ u.dom Ob.synEngineClock = engineClockBytes s.syn.fTNext
        ∧ (s.syn.lockedOnce = true → u = { now with regs := u.regs, doms := u.doms })
        ∧ (s.syn.lockedOnce = false → u = { now with
            regs := u.regs, doms := u.doms, syn := { s.syn with lockedOnce := true }
            time := { s.time with held := reheld s.time.held s.second u.second, awaitRtc := true } }))
    ∧ (st ≠ 2 → exec (.syntLocked t) s = .next now)
    ∧ (st = 3 → ∃ v : State, v = (((now.wr Ob.synState 4).bump Ob.synLossCount).wr Ob.synHoldoverTime 0).statsUnlocked
        ∧ exec (.referenceLoss t) s = .next ({ v with syn := { v.syn with lostAt := v.now, slewing := false } } : State).calUnlock)
    ∧ (st = 2 → exec (.referenceLoss t) s = .next (now.wr Ob.synState 1))
    ∧ (st = 4 → exec (.referenceLoss t) s = .next { now with syn := { s.syn with slewing := false } })
    ∧ (st ≠ 2 → st ≠ 3 → st ≠ 4 → exec (.referenceLoss t) s = .next now)
    ∧ (st = 4 → exec (.referenceRequalified t) s = .next { now with syn := { s.syn with slewing := true } })
    ∧ (st ≠ 4 → exec (.referenceRequalified t) s = .next now)
    ∧ (st = 4 → s.syn.slewing = true → exec (.syntRelock t) s = .next
        { ((now.wr Ob.synHoldoverTime now.holdoverMs).wr Ob.synState 3) with syn := { s.syn with slewing := false } })
    ∧ ((st ≠ 4 ∨ s.syn.slewing = false) → exec (.syntRelock t) s = .next now)

/-- A write of a clock output's configuration that changes an enabled output's fields, enables while device time does not count, or disables an SREF_OUT in use as a SYSREF source aborts with 0x08000022, and one with reserved bits or values that R421 forbids with 0x06090030; an accepted one that enables an output waits for its first edge (a burst for its fire), one that disables lets the output end its phase. SREF_FIRE starts a burst on each selected burst output that is idle and reports the others. OUTPUT_START and OUTPUT_STOP switch the output's bit of OutputState. -/
def Obligations.ClockOutputs : Prop :=
  ∀ (s : State) (t v sub mask : Nat) (i : Fin 16),
    let now := s.advance t
    let k := i.val % 8
    let key := if i.val < 8 then Ob.clkDclkConfig k else Ob.clkSrefConfig k
    let old := s.rd key
    let x := s.clkOut i
    let legal := v < 2 ^ 64 ∧ (if i.val < 8 then dclkReserved v else srefReserved v) = false
      ∧ (i.val < 8 → bits v 41 32 = 0 ∨ bit (s.rd (Ob.clkSrefConfig k)) 63 = false ∨ bits (s.rd (Ob.clkSrefConfig k)) 47 16 % bits v 41 32 = 0)
    let good := if i.val < 8 then dclkOk s.fT v else srefOk (s.rd (Ob.clkDclkConfig k)) v (s.rd (Ob.clkSrefOffset k))
    (s.Ready → bit old 63 = true → v % 2 ^ 63 ≠ old % 2 ^ 63 → exec (.clockOutputWrite t (i + 1) v) s = s.aborted t Abort.state)
    ∧ (s.Ready → bit old 63 = true → bit v 63 = false → 8 ≤ i.val → s.srefInUse k = true → exec (.clockOutputWrite t (i + 1) v) s = s.aborted t Abort.state)
    ∧ (s.Ready → bit old 63 = false → bit v 63 = true → s.counts = false → exec (.clockOutputWrite t (i + 1) v) s = s.aborted t Abort.state)
    ∧ (s.Ready → bit old 63 = false → bit v 63 = true → s.counts = true → ¬ (legal ∧ good = true) → exec (.clockOutputWrite t (i + 1) v) s = s.aborted t Abort.range)
    ∧ (s.Ready → bit old 63 = false → bit v 63 = true → s.counts = true → legal → good = true →
        exec (.clockOutputWrite t (i + 1) v) s = ((now.wr key v).setClkOut i { x with
          startAt := if 8 ≤ i.val ∧ bit v 59 = true then none else some (now.clkStart i v (s.rd (Ob.clkSrefOffset k)))
          burst := 0, stopping := false }).accepted)
    ∧ (s.Ready → bit old 63 = true → bit v 63 = false → v % 2 ^ 63 = old % 2 ^ 63 → (8 ≤ i.val → s.srefInUse k = false) → legal →
        exec (.clockOutputWrite t (i + 1) v) s = ((now.wr key v).setClkOut i { x with
          startAt := none, burst := if bit (s.rd Ob.clkOutputState) i then x.burst else 0, stopping := bit (s.rd Ob.clkOutputState) i }).accepted)
    ∧ (s.Ready → bit old 63 = false → bit v 63 = false → legal → exec (.clockOutputWrite t (i + 1) v) s = (now.wr key v).accepted)
    ∧ (s.Ready → bit (s.rd (Ob.clkSrefConfig k)) 63 = true → v ≠ s.rd (Ob.clkSrefOffset k) → exec (.clockOutputWrite t (0x11 + k) v) s = s.aborted t Abort.state)
    ∧ (s.Ready → bit (s.rd (Ob.clkSrefConfig k)) 63 = false → v < 2 ^ 32 → exec (.clockOutputWrite t (0x11 + k) v) s = (now.wr (Ob.clkSrefOffset k) v).accepted)
    ∧ (s.Ready → bit (s.rd (Ob.clkSrefConfig k)) 63 = false → 2 ^ 32 ≤ v → exec (.clockOutputWrite t (0x11 + k) v) s = s.aborted t Abort.range)
    ∧ (s.Ready → 0x18 < sub → sub ≠ 0x1A → exec (.clockOutputWrite t sub v) s = s.aborted t Abort.noSub)
    ∧ (s.Ready → (sub = 0 ∨ sub = 0x1A) → exec (.clockOutputWrite t sub v) s = s.aborted t Abort.writeRo)
    ∧ (s.Ready → 256 ≤ mask → exec (.srefFire t mask) s = s.aborted t Abort.range)
    ∧ (s.Ready → mask < 256 → ∃ u : State, exec (.srefFire t mask) s = u.accepted
        ∧ (∃ n, u.syn = { s.syn with fireIgnored := some n }) ∧ u = { now with clk := u.clk, syn := u.syn }
        ∧ ∀ j, j < 8 → u.clkOut (8 + j) =
            if bit mask j && bit (s.rd (Ob.clkSrefConfig j)) 63 && bit (s.rd (Ob.clkSrefConfig j)) 59 && (s.clkOut (8 + j)).burst == 0
            then { s.clkOut (8 + j) with
              startAt := some (now.clkStart (8 + j) (s.rd (Ob.clkSrefConfig j)) (s.rd (Ob.clkSrefOffset j))), burst := bits (s.rd (Ob.clkSrefConfig j)) 58 51 }
            else s.clkOut (8 + j))
    ∧ (∀ T, x.startAt = some T → T ≤ now.devNow → exec (.outputStart t i) s = .next
        ((now.wr Ob.clkOutputState (setBit (s.rd Ob.clkOutputState) i true)).setClkOut i { x with startAt := none }))
    ∧ ((x.startAt = none ∨ ∃ T, x.startAt = some T ∧ now.devNow < T) → exec (.outputStart t i) s = .next now)
    ∧ ((x.stopping = true ∨ x.burst ≠ 0) → bit (s.rd Ob.clkOutputState) i = true → exec (.outputStop t i) s = .next
        ((now.wr Ob.clkOutputState (setBit (s.rd Ob.clkOutputState) i false)).setClkOut i {}))
    ∧ (((x.stopping = false ∧ x.burst = 0) ∨ bit (s.rd Ob.clkOutputState) i = false) → exec (.outputStop t i) s = .next now)

/-- SET_SECONDS is refused while device time does not count or a step is forbidden and beyond 48 bits, and otherwise waits for the next second boundary of device time, which then steps to it with Class 1; the RTC's boundary counts its seconds and makes the first step after an Apply. A SYNC_IN edge is stamped unless the mode is Off, 100 ms have not passed, or time does not count; in Set mode, armed for 1 ms, it steps to SyncSeconds with Class 2 and goes to Check, unless a step has become forbidden; in Check it gives the residual. SYNC_ARM needs Set mode, ADOPT a Valid stream, both that a step is allowed; Adopt steps by StreamResidual with Class 3. A step counts StepCount, sets Class and makes device time read its target. -/
def Obligations.DeviceTime : Prop :=
  ∀ (s : State) (t v e : Nat) (T : Int) (cls : Nat) (ep : Option Nat) (m : StreamMsg) (re : Bool),
    let now := s.advance t
    let set := fun (x : TimeState) => ({ now with time := x } : State)
    let st := ((now.devNow : Int) - sint 32 (s.rd Ob.timeSyncDelay)).toNat
    let early := s.time.syncEdgeAt = some e ∧ now.now < e + s.us 100000
    let heard := s.rd Ob.timeSyncMode ≠ 0 ∧ s.counts = true ∧ (∀ e, s.time.syncEdgeAt = some e → e + s.us 100000 ≤ now.now)
    let edge := set { s.time with syncEdgeAt := some now.now }
    let armed := s.rd Ob.timeSyncState = 1 ∧ s.time.syncArmedAt + s.us 1000 ≤ now.now
    let res := signedFine s.second (st % s.second)
    (s.Ready → (s.counts = false ∨ s.stepForbidden = true) → exec (.setSeconds t v) s = s.aborted t Abort.state)
    ∧ (s.Ready → s.counts = true → s.stepForbidden = false → 2 ^ 48 ≤ v → exec (.setSeconds t v) s = s.aborted t Abort.range)
    ∧ (s.Ready → s.counts = true → s.stepForbidden = false → v < 2 ^ 48 →
        exec (.setSeconds t v) s = (set { s.time with setPending := some v, setStatus := some 0 }).accepted)
    ∧ ((s.time.awaitRtc = false ∨ s.synRuns = false) → exec (.secondBoundary t true) s = .next (set { s.time with rtcSeconds := s.time.rtcSeconds + 1 }))
    ∧ (s.time.awaitRtc = true → s.synRuns = true → exec (.secondBoundary t true) s = .next
        ((set { s.time with rtcSeconds := s.time.rtcSeconds + 1 }).step430 (((s.time.rtcSeconds + 1) * s.second : Nat) : Int) 0 none false))
    ∧ (s.counts = false → exec (.secondBoundary t false) s = .next now)
    ∧ (s.counts = true → s.time.setPending = none → exec (.secondBoundary t false) s = .next (if s.time.rtcRealign then
        set { s.time with rtcSeconds := now.devNow / s.second, rtcRealign := false } else now))
    ∧ (s.counts = true → s.time.setPending = some v → ∃ w u : State, w = now.step430 ((v * now.second + now.devNow % now.second : Nat) : Int) 1 none true
        ∧ u = { w with time := { w.time with setStatus := some 1 } }
        ∧ (s.time.rtcRealign = false → exec (.secondBoundary t false) s = .next u)
        ∧ (s.time.rtcRealign = true → exec (.secondBoundary t false) s = .next { u with time := { u.time with
            rtcSeconds := u.devNow / u.second, rtcRealign := true } }))
    ∧ ((s.rd Ob.timeSyncMode = 0 ∨ s.counts = false ∨ early) → exec (.syncInEdge t) s = .next now)
    ∧ (heard → s.rd Ob.timeSyncMode = 1 → exec (.syncInEdge t) s = .next (edge.wr Ob.timeSyncLast (now.stamp st)))
    ∧ (heard → s.rd Ob.timeSyncMode = 2 → ¬ armed → exec (.syncInEdge t) s = .next (edge.wr Ob.timeSyncLast (now.stamp st)))
    ∧ (heard → s.rd Ob.timeSyncMode = 2 → armed → s.stepForbidden = true → exec (.syncInEdge t) s = .next (edge.wr Ob.timeSyncState 3))
    ∧ (heard → s.rd Ob.timeSyncMode = 2 → armed → s.stepForbidden = false → ∃ u : State,
        u = edge.step430 (((s.rd Ob.timeSyncSeconds * s.second : Nat) : Int) + sint 32 (s.rd Ob.timeSyncDelay)) 2 none true
        ∧ exec (.syncInEdge t) s = .next (((u.wr Ob.timeSyncState 2).wr Ob.timeSyncMode 3).wr Ob.timeSyncLast (u.stamp (s.rd Ob.timeSyncSeconds * s.second))))
    ∧ (heard → 2 < s.rd Ob.timeSyncMode → ∃ u : State, u = (edge.wr Ob.timeSyncLast (now.stamp st)).wr Ob.timeSyncResidual (uint 64 res)
        ∧ exec (.syncInEdge t) s = .next (if res.natAbs ≤ s.rd Ob.timeSyncTolerance then { u with time := { u.time with syncGoodAt := some now.now } } else u))
    ∧ (s.Ready → (s.rd Ob.timeSyncMode ≠ 2 ∨ s.stepForbidden = true) → exec (.syncArm t) s = s.aborted t Abort.state)
    ∧ (s.Ready → s.rd Ob.timeSyncMode = 2 → s.stepForbidden = false → exec (.syncArm t) s =
        ({ (now.wr Ob.timeSyncState 1) with time := { s.time with syncArmedAt := now.now } } : State).accepted)
    ∧ (s.Ready → (s.rd Ob.timeStreamState ≠ 2 ∨ s.counts = false ∨ s.stepForbidden = true ∨ s.time.lastMsg = none) → exec (.adopt t) s = s.aborted t Abort.state)
    ∧ (s.Ready → s.rd Ob.timeStreamState = 2 → s.counts = true → s.stepForbidden = false → s.time.lastMsg = some m → ∃ u v : State,
        u = now.step430 ((now.devNow : Int) - sint 32 (s.rd Ob.timeStreamResidual)) 3 (some m.epoch) true
        ∧ v = (u.wr Ob.timeStreamResidual 0).wr Ob.timeStreamMismatch 0
        ∧ exec (.adopt t) s = ({ v with time := { v.time with residuals := [], streamConfirms := true } } : State).accepted)
    ∧ (let u := now.step430 T cls ep re
       u.devNow = T.toNat ∧ u.time.cls = cls ∧ u.counts = true ∧ u.time.setPending = none ∧ u.rd Ob.timeSyncState ≠ 1
       ∧ u = { now with regs := u.regs, time := u.time })

/-- A Mark with a good CRC that follows the previous valid one counts, keeps the sender's Quality, makes the stream Valid at the sixteenth, and in Valid, while time counts, enters the residual; one with a good CRC that does not follow begins the count anew, a bad one ends it; a disabled or not Locking or Valid stream takes none. A Mark is sent while the output is enabled and time counts. Valid is lost after 10 ms without a Mark, block lock brings an enabled Absent or Lost stream to Locking, and loss of signal makes it Absent. -/
def Obligations.TimingStream : Prop :=
  ∀ (s : State) (t seconds milli quality epoch descriptor : Nat),
    let now := s.advance t
    let m : StreamMsg := { seconds := seconds, milli := milli, quality := quality, epoch := epoch, descriptor := descriptor }
    let st := s.rd Ob.timeStreamState
    let listens := s.rd Ob.timeStreamInEnable ≠ 0 ∧ (st = 1 ∨ st = 2)
    let follows := ∀ q, s.time.lastMsg = some q → m.follows q = true
    let begun := fun (x : Nat) (lock : Bool) => ({ (now.wr Ob.timeStreamState x) with
      time := { s.time with marks := 0, lastMsg := none, residuals := [], streamLock := lock } } : State)
    (¬ listens → ∀ ok, exec (.streamMarkReceive t seconds milli quality epoch descriptor ok) s = .next now)
    ∧ (listens → exec (.streamMarkReceive t seconds milli quality epoch descriptor false) s = .next { now with time := { s.time with marks := 0 } })
    ∧ (listens → ¬ follows → exec (.streamMarkReceive t seconds milli quality epoch descriptor true) s = .next
        { now with time := { s.time with marks := 0, lastMsg := some m } })
    ∧ (listens → follows → ∃ u v : State,
        u = { (now.wr Ob.timeUpstreamQuality (quality % 256)) with time := { s.time with marks := s.time.marks + 1, lastMsg := some m, lastMarkAt := some now.now } }
        ∧ v = (if u.rd Ob.timeStreamState = 1 ∧ 16 ≤ u.time.marks then u.wr Ob.timeStreamState 2 else u)
        ∧ exec (.streamMarkReceive t seconds milli quality epoch descriptor true) s = .next (if v.rd Ob.timeStreamState = 2 ∧ v.counts then v.markResidual m else v))
    ∧ (s.rd Ob.timeStreamOutEnable ≠ 0 → s.counts = true → exec (.streamMarkSend t) s = .next { now with out := [.mark markBlock now.timeMsg.word] })
    ∧ ((s.rd Ob.timeStreamOutEnable = 0 ∨ s.counts = false) → exec (.streamMarkSend t) s = .next now)
    ∧ (st = 2 → exec (.streamLostTimeout t) s = .next (begun 3 false))
    ∧ (st ≠ 2 → exec (.streamLostTimeout t) s = .next now)
    ∧ (s.rd Ob.timeStreamInEnable ≠ 0 → (st = 0 ∨ st = 3) → exec (.timingStreamBlockLock t) s = .next ((begun 1 true).setQuad 35 0))
    ∧ ((s.rd Ob.timeStreamInEnable = 0 ∨ (st ≠ 0 ∧ st ≠ 3)) → exec (.timingStreamBlockLock t) s = .next now)
    ∧ exec (.timingStreamSignalLoss t) s = .next (begun 0 false)

/-- An edge of a disabled channel or an unselected polarity, or while device time does not count, is ignored; one within the dead time or with a full front buffer is lost and counted; any other is stamped at the input delay, enters the front buffer, counts and is the last stamp. A queue push gives the oldest stamp to the statistics units and enters the queue, or, at 1,024 entries, is dropped or replaces the oldest under QueuePolicy, counted either way. POP_BLOCK removes 1 to 128 entries as one removal, CLEAR_QUEUE all. STATS_START starts an idle unit whose channels are enabled. Bias codes, line swaps and tap tables change their line and LockState. -/
def Obligations.TimeToDigital : Prop :=
  ∀ (s : State) (t n control error : Nat) (ch : Fin 16) (un : Fin 4) (line : Fin 2) (falling f uncal loss : Bool) (st : Nat) (rest : List (Nat × Bool × Bool × Bool)) (widths : List Nat),
    let now := s.advance t
    let c := ch.val
    let x := s.tdcCh c
    let down := falling != s.rdB (Ob.tdcInvert c)
    let takes := s.rd (Ob.tdcEnable c) ≠ 0 ∧ bit (s.rd (Ob.tdcEdges c)) (b2n down) = true ∧ s.counts = true
    let last := if down then x.lastFall else x.lastRise
    let dead := ∃ a, last = some a ∧ (now.now - a) * 10000000000 < 16 * s.second
    let at' := ((now.devNow : Int) - sint 32 (s.rd (Ob.tdcInputDelay c))).toNat
    let lock := fun (y : TdcState) => (Host.Outcome.next ((now.setTdc c y).wr (Ob.tdcLockState c) y.lockState) : Outcome)
    (¬ takes → exec (.tdcEdge t ch falling) s = .next now)
    ∧ (takes → (dead ∨ 64 ≤ x.front.length) → exec (.tdcEdge t ch falling) s = .next (now.tdcLoss c))
    ∧ (takes → ¬ dead → x.front.length < 64 → exec (.tdcEdge t ch falling) s = .next (((now.setTdc c { x with
          front := x.front ++ [(at', down, x.uncal, x.lossPending)]
          lastRise := if down then x.lastRise else some now.now
          lastFall := if down then some now.now else x.lastFall
          lossPending := false }).bump (Ob.tdcStamped c)).wr (Ob.tdcLastStamp c) (stampEntry down x.lossPending x.uncal s.second at')))
    ∧ (x.front = [] → exec (.tdcQueuePush t ch) s = .next now)
    ∧ (x.front = (st, f, uncal, loss) :: rest → ∃ v : State,
        v = (List.range 4).foldl (fun s u => s.statStamp u c st f uncal) (now.setTdc c { x with front := rest })
        ∧ v.tdcCh c = { x with front := rest }
        ∧ (x.queue.length < 1024 → exec (.tdcQueuePush t ch) s = .next ((v.setTdc c { x with
            front := rest, queue := x.queue ++ [stampEntry f (loss || x.dropPending) uncal s.second st], dropPending := false }).wr (Ob.tdcFill c) (x.queue.length + 1)))
        ∧ (1024 ≤ x.queue.length → s.rd (Ob.tdcQueuePolicy c) = 0 → exec (.tdcQueuePush t ch) s = .next ((v.setTdc c { x with
            front := rest, dropPending := true }).bump (Ob.tdcQueueDrops c)))
        ∧ (1024 ≤ x.queue.length → s.rd (Ob.tdcQueuePolicy c) ≠ 0 → exec (.tdcQueuePush t ch) s = .next ((v.setTdc c { x with
            front := rest, queue := markOldest (x.queue.drop 1) ++ [lossMark (stampEntry f (loss || x.dropPending) uncal s.second st)], dropPending := false }).bump (Ob.tdcQueueDrops c))))
    ∧ (s.Ready → (n < 1 ∨ 128 < n) → exec (.popBlock t ch n) s = s.aborted t Abort.range)
    ∧ (s.Ready → 1 ≤ n → n ≤ 128 → exec (.popBlock t ch n) s = ((now.setTdc c { x with
        queue := x.queue.drop n, popped := some (x.queue.take n) }).wr (Ob.tdcFill c) (x.queue.length - n)).accepted)
    ∧ (s.Ready → exec (.clearQueue t ch) s = ((now.setTdc c { x with queue := [] }).wr (Ob.tdcFill c) 0).accepted)
    ∧ (let may := (s.statU un).running = false ∧ s.rd (Ob.statMode un) ≠ 0 ∧ s.rd (Ob.tdcEnable (s.rd (Ob.statChannelA un))) ≠ 0
         ∧ (s.rd (Ob.statMode un) = 1 → s.rd (Ob.tdcEnable (s.rd (Ob.statChannelB un))) ≠ 0)
       (s.Ready → may → exec (.statsStart t un) s = (now.setStat un { ({} : StatState) with running := true }).accepted)
       ∧ (s.Ready → ¬ may → exec (.statsStart t un) s = s.aborted t Abort.state))
    ∧ (line.val = 0 → exec (.tdcControlUpdate t ch line control error) s = lock { x with control0 := min control 65535, locked0 := decide (error < 256) })
    ∧ (line.val = 1 → exec (.tdcControlUpdate t ch line control error) s = lock { x with control1 := min control 65535, locked1 := decide (error < 256) })
    ∧ exec (.tdcLineSwap t ch) s = lock { x with active := 1 - x.active }
    ∧ (widths.length = 256 → exec (.tdcCalibrationComplete t ch widths) s = .next (now.setTdc c
        (if x.active = 0 then { x with table1 := widths } else { x with table0 := widths })))
    ∧ (widths.length ≠ 256 → exec (.tdcCalibrationComplete t ch widths) s = .next now)

/-- LINK_APPLY is refused while the link has an owner, disables it with LaneCount 0, is refused while device time does not count, and otherwise starts Locking with its counters of arrival cleared, or reports 0x4F and changes nothing else. Block lock brings Locking to Aligning; multiblock lock chooses or checks the release delay, publishes the spread, and gives Waiting or Failed; release makes the link Running with its AlignLatency and margin, restarts its channels' level chains, and recovers its quads. A bring-up timeout fails, a loss of lock takes back a CRC error of the multiblock it cut and relinks or fails, and a relink that meets the kept ReleaseDelay is Running again. Each event does nothing in other states; LINK_CLEAR_COUNTERS clears the counters. -/
def Obligations.LinkBringUp : Prop :=
  ∀ (s : State) (t earliest latest : Nat) (jf : Fin 16),
    let now := s.advance t
    let j := jf.val
    let st := s.rd (Ob.linkLinkState j)
    let x := s.linkS j
    let rel := s.rd (Ob.linkReleaseDelay j)
    let sub0 := s.rd (Ob.linkSubclass j) = 0
    let lo := if sub0 then 0 else min earliest latest
    let hi := if sub0 then latest - earliest else max earliest latest
    let began := ((now.setLink j { applyResult := some 0, applied := true, release := rel }).wrs
      [(Ob.linkLinkState j, 1), (Ob.linkAlignLatency j, 0), (Ob.linkArrivalSpread j, 0), (Ob.linkArrivalMargin j, 0)]).linkRates j
    let begun := if rel = 0 then began else began.levelSources j
    let fits := s.linkParams j = true ∧ s.laneMapOk j = true ∧ s.sysrefOk j = true ∧ (rel = 0 ∨ begun.fabricBroken = false)
    (s.Ready → s.linkOwned j = true → exec (.linkApply t jf) s = s.aborted t Abort.state)
    ∧ (s.Ready → s.linkOwned j = false → s.rd (Ob.linkLaneCount j) = 0 → ∃ u : State, exec (.linkApply t jf) s = u.accepted
        ∧ u.rd (Ob.linkLinkState j) = 0 ∧ u.linkS j = { applyResult := some 0 } ∧ u = { now with regs := u.regs, link := u.link })
    ∧ (s.Ready → s.linkOwned j = false → s.rd (Ob.linkLaneCount j) ≠ 0 → s.counts = false → exec (.linkApply t jf) s = s.aborted t Abort.state)
    ∧ (s.Ready → s.linkOwned j = false → s.rd (Ob.linkLaneCount j) ≠ 0 → s.counts = true → fits → exec (.linkApply t jf) s = begun.accepted)
    ∧ (s.Ready → s.linkOwned j = false → s.rd (Ob.linkLaneCount j) ≠ 0 → s.counts = true → ¬ fits →
        exec (.linkApply t jf) s = (now.setLink j { x with applyResult := some 0x4F }).accepted)
    ∧ (s.Ready → exec (.linkClearCounters t jf) s = (((((now.setLink j { x with crcWas := 0 }).wr (Ob.linkCrcErrors j) 0).wr (Ob.linkLockLosses j) 0).wr (Ob.linkSubstitutedSamples j) 0).wr
        (Ob.linkArrivalMargin j) (uint 32 ((x.release : Int) - x.latest))).accepted)
    ∧ (st = 1 → exec (.linkBlockLock t jf) s = .next (now.wr (Ob.linkLinkState j) 2))
    ∧ (st ≠ 1 → exec (.linkBlockLock t jf) s = .next now)
    ∧ (st = 2 → ∃ (r : Nat) (u : State), r = (if x.release = 0 then 256 * ceilDiv (hi + ceilDiv (8 * s.second) 1000000000) 256 else x.release)
        ∧ u = ((now.setLink j { x with release := r, latest := hi }).wr (Ob.linkArrivalSpread j) ((hi - lo) % 2 ^ 32)).wr (Ob.linkLinkState j) 3
        ∧ (x.release ≠ 0 → hi ≤ r → r ≤ lo + s.elastic j → exec (.linkMultiblockLock t jf earliest latest) s = .next u)
        ∧ (x.release = 0 → hi ≤ r → r ≤ lo + s.elastic j → (u.levelSources j).fabricBroken = false →
            exec (.linkMultiblockLock t jf earliest latest) s = .next (u.levelSources j))
        ∧ (¬ (hi ≤ r ∧ r ≤ lo + s.elastic j) ∨ (x.release = 0 ∧ (u.levelSources j).fabricBroken = true) →
            exec (.linkMultiblockLock t jf earliest latest) s = .next ((now.wr (Ob.linkArrivalSpread j) ((hi - lo) % 2 ^ 32)).wr (Ob.linkLinkState j) 6)))
    ∧ (st ≠ 2 → exec (.linkMultiblockLock t jf earliest latest) s = .next now)
    ∧ (st = 3 → ∃ u : State, u = (now.setLink j { x with lastAlign := some (x.release + s.pathLatency j), tLemc := now.devNow - x.release, relinking := false }).wrs
          [(Ob.linkLinkState j, 4), (Ob.linkAlignLatency j, x.release + s.pathLatency j), (Ob.linkArrivalMargin j, uint 32 ((x.release : Int) - x.latest))]
        ∧ exec (.linkRelease t jf) s = .next (((u.mapped j).foldl (fun s k => s.chainReset k) u).quadsUp (s.quadsOf j)))
    ∧ (st ≠ 3 → exec (.linkRelease t jf) s = .next now)
    ∧ (st = 1 ∨ st = 2 ∨ st = 3 ∨ st = 5 → exec (.linkBringupTimeout t jf) s = .next ((now.wr (Ob.linkLinkState j) 6).setLink j { x with relinking := false }))
    ∧ (st ≠ 1 → st ≠ 2 → st ≠ 3 → st ≠ 5 → exec (.linkBringupTimeout t jf) s = .next now)
    ∧ (st = 4 → ∃ v u : State, v = (if x.crcBad then now.wr (Ob.linkCrcErrors j) x.crcWas else now)
        ∧ u = (v.setLink j { x with crcBad := false, crcSubst := false, relinking := s.rdB (Ob.linkAutoRelink j) }).calLinkLost j
        ∧ (s.rd (Ob.linkAutoRelink j) ≠ 0 → exec (.linkLockLoss t jf) s = .next ((u.bump (Ob.linkLockLosses j)).wr (Ob.linkLinkState j) 5))
        ∧ (s.rd (Ob.linkAutoRelink j) = 0 → exec (.linkLockLoss t jf) s = .next (u.wr (Ob.linkLinkState j) 6)))
    ∧ (st ≠ 4 → exec (.linkLockLoss t jf) s = .next now)
    ∧ (st = 5 → hi ≤ x.release → x.release ≤ lo + s.elastic j → ∃ u : State,
        u = (now.setLink j { x with latest := hi, relinking := false, lastAlign := some (x.release + s.pathLatency j), tLemc := if sub0 then now.devNow - x.release else x.tLemc }).wrs
          [(Ob.linkLinkState j, 4), (Ob.linkArrivalSpread j, (hi - lo) % 2 ^ 32), (Ob.linkArrivalMargin j, uint 32 ((x.release : Int) - hi))]
        ∧ exec (.linkRelinkComplete t jf earliest latest) s = .next (((u.mapped j).foldl (fun s k => s.setChan k { s.chanS k with toBoundary := !(s.chanS k).partial64.isEmpty }) u).quadsUp (s.quadsOf j)))
    ∧ (st = 5 → ¬ (hi ≤ x.release ∧ x.release ≤ lo + s.elastic j) →
        exec (.linkRelinkComplete t jf earliest latest) s = .next ((now.wr (Ob.linkLinkState j) 6).setLink j { x with relinking := false }))
    ∧ (st ≠ 5 → exec (.linkRelinkComplete t jf earliest latest) s = .next now)

/-- A multiblock of a link that is not Running clears its CRC marks; of a Running link with a bad CRC under CrcCheck it counts and marks, and substitutes under CrcAction 1; the arrival margin keeps its smallest, and a negative one is a loss of lock (R100). A sample of a channel without a delivering link changes nothing; a delivered one is substituted as zero where R82, R100 or a calibration say so, otherwise presented by R89, counts clipping and over-range, sets the sticky flags, and enters the level chain and the block being filled. LEVEL_INTERVAL_END ends an interval whose span is complete. DUMP_RESTART abandons the interval until its time and clears Valid, LEVEL_SNAPSHOT writes time and data, CLEAR_STICKY clears the sticky flags of the channels in its mask. -/
def Obligations.SamplesAndLevels : Prop :=
  ∀ (s : State) (t em i wordI wordQ latest time mask : Nat) (ok : Bool) (jf : Fin 16) (ch : Fin 64),
    let now := s.advance t
    let y := s.linkS jf
    let m := (y.release : Int) - latest
    let k := ch.val
    let j := s.rd (Ob.chanSourceLink k)
    let c := s.chanS k
    let x := s.linkS j
    let cplx := s.complex k
    let opts := s.rd (Ob.chanOptions k)
    let subst := (s.rd (Ob.linkLinkState j) != 4) || x.crcSubst || c.toBoundary || c.calSubst
    let wd := s.rd (Ob.linkN j)
    let np := s.rd (Ob.linkNPrime j)
    let b := s.rd (Ob.chanOverrangeBit k)
    let ci := leftJustify wd np (bit opts 2) wordI
    let cq := leftJustify wd np (bit opts 2) wordQ
    let clip := !subst && (fullScale wd ci || (cplx && fullScale wd cq))
    let ov := !subst && decide (b < s.rd (Ob.linkCS j)) && (controlBit wd np b wordI || (cplx && controlBit wd np b wordQ))
    let crc := x.crcBad && !(s.rd (Ob.linkLinkState j) != 4)
    let w := if subst then 0 else present cplx opts ci cq
    let st := now.sampleStamp j em i
    (s.rd (Ob.linkLinkState jf) ≠ 4 → exec (.multiblockReceive t jf ok latest) s = .next (now.setLink jf { y with crcBad := false, crcSubst := false }))
    ∧ (s.rd (Ob.linkLinkState jf) = 4 → ∃ u v w2 : State, u = (if ok = false ∧ s.rd (Ob.linkCrcCheck jf) ≠ 0 then now.bump (Ob.linkCrcErrors jf) else now)
        ∧ v = (if m < sint 32 (s.rd (Ob.linkArrivalMargin jf)) then u.wr (Ob.linkArrivalMargin jf) (uint 32 m) else u)
        ∧ w2 = v.setLink jf { y with
              latest := latest, crcWas := s.rd (Ob.linkCrcErrors jf),
              crcBad := !ok && s.rdB (Ob.linkCrcCheck jf), crcSubst := !ok && s.rdB (Ob.linkCrcCheck jf) && s.rd (Ob.linkCrcAction jf) == 1 }
        ∧ exec (.multiblockReceive t jf ok latest) s = .next (if m < 0 then w2.lockLoss jf else w2))
    ∧ ((16 ≤ j ∨ s.delivers j = false) → exec (.ingestSample t ch em i wordI wordQ) s = .next now)
    ∧ (j < 16 → s.delivers j = true → ∃ v : State, v = { now with regs := v.regs }
        ∧ v.rd (Ob.chanClipCount k) = (if clip then (s.rd (Ob.chanClipCount k) + 1) % 2 ^ 32 else s.rd (Ob.chanClipCount k))
        ∧ v.rd (Ob.chanOverrangeCount k) = (if ov then (s.rd (Ob.chanOverrangeCount k) + 1) % 2 ^ 32 else s.rd (Ob.chanOverrangeCount k))
        ∧ v.rd (Ob.chanFlags k) = setBit (setBit (s.rd (Ob.chanFlags k)) 6 (bit (s.rd (Ob.chanFlags k)) 6 || crc)) 5 (bit (s.rd (Ob.chanFlags k)) 5 || subst)
        ∧ (subst = false → v.rd (Ob.linkSubstitutedSamples j) = s.rd (Ob.linkSubstitutedSamples j))
        ∧ exec (.ingestSample t ch em i wordI wordQ) s = .next
          (((v.calSample k st (present cplx opts ci cq)).levelSample k w st subst ov clip).polderSample k w st (clip || ov) (8 * b2n ov + 4 * b2n clip + 2 * b2n subst + b2n crc)))
    ∧ (c.span ≤ c.pos → c.pos ≠ 0 → exec (.levelIntervalEnd t ch) s = .next (now.levelEnd k))
    ∧ ((c.pos < c.span ∨ c.pos = 0) → exec (.levelIntervalEnd t ch) s = .next now)
    ∧ (s.Ready → exec (.dumpRestart t ch time) s = ((now.setChan k { c with
        restartAt := some (s.unstamp time), pos := 0, window := [], freshN := 0, peak := 0, clipLive := false, overLive := false, substIn := false }).wr
          (Ob.chanFlags k) (setBit (s.rd (Ob.chanFlags k)) 7 false)).accepted)
    ∧ (s.Ready → exec (.levelSnapshot t) s = (((now.noted Ob.levelSnapshot).wr Ob.levelSnapshotTime now.stampNow).setDom Ob.levelSnapshotData
        ((List.range 64).flatMap fun k => s.snapEntry k)).accepted)
    ∧ (s.Ready → 2 ^ 64 ≤ mask → exec (.clearSticky t mask) s = s.aborted t Abort.range)
    ∧ (s.Ready → mask < 2 ^ 64 → ∃ u : State, exec (.clearSticky t mask) s = u.accepted ∧ u = { now with regs := u.regs }
        ∧ ∀ k, k < 64 → u.rd (Ob.chanFlags k) = if bit mask k then s.rd (Ob.chanFlags k) &&& 0x87 else s.rd (Ob.chanFlags k))

/-- A burst of admitted traffic and a patrol scrub of a served address wake its pseudo-channel or report the outcome, and close the burst's row; a bank queue with a pick issues it: the access leaves the queue, its row is handled by PagePolicy, data is written, or read and answered, answered with an abort when uncorrectable; an empty bank queue does nothing. A pool scrub counts a corrected word, and zeroes, counts and logs an uncorrectable one with its users marked. A refresh closes the open rows of the serving pseudo-channel; a row idle for 2 us closes. -/
def Obligations.HbmAccesses : Prop :=
  ∀ (s : State) (t da syn : Nat) (err4 : Fin 4) (err3 : Fin 3) (bk : Fin 3072) (q cl : Fin 64) (word : Fin 20480) (a : BAccess),
    let now := s.advance t
    let x := s.bankS bk
    let serves := ∃ p, s.physOf (bankPc bk) = some p ∧ (s.pcState p = 0 ∨ s.pcState p = 4)
    (s.daServed da = false → exec (.hbmAdmittedBurst t da err4 syn) s = .next now ∧ exec (.hbmPatrolScrub t da err3 syn) s = .next now)
    ∧ (s.daServed da = true → exec (.hbmPatrolScrub t da err3 syn) s = .next (now.hbmError da err3 syn)
        ∧ ∃ u : State, u = now.wakePc (s.pcOf da) ∧ exec (.hbmAdmittedBurst t da err4 syn) s =
          .next ((u.setBank (u.bankOf da) { u.bankS (u.bankOf da) with row := none }).hbmError da err4 syn))
    ∧ (¬ serves ∨ x.pick = none → exec (.hbmBestEffortAccess t bk err4 syn) s = .next now)
    ∧ (serves → x.pick = some a → ∃ (z : Bank) (u : State),
        z = ({ x.issued a with inOrder := (x.issued a).inOrder && inOrderStill (x.issued a).queue } : Bank).touch (s.rd Ob.hbmPagePolicy) (rowOf a.da) now.now
        ∧ u = (now.wakePc (bankPc bk)).setBank bk z
        ∧ (∀ d, a.write = some d → exec (.hbmBestEffortAccess t bk err4 syn) s =
            .next (((u.hbmWrite a.da d).answer a 0 []).hbmError a.da (if err4.val = 3 then 3 else 0) syn))
        ∧ (a.write = none → err4.val ≤ 1 → exec (.hbmBestEffortAccess t bk err4 syn) s = .next ((u.answer a 0 (u.hbmRead a.da a.len)).hbmError a.da err4 syn))
        ∧ (a.write = none → 1 < err4.val → exec (.hbmBestEffortAccess t bk err4 syn) s = .next ((u.answer a 3 []).hbmError a.da err4 syn)))
    ∧ (err3.val = 0 → exec (.poolScrubAccess t cl word err3) s = .next now)
    ∧ (err3.val = 1 → exec (.poolScrubAccess t cl word err3) s = .next (now.countCorrected 1))
    ∧ (err3.val = 2 → ∃ (us : List Nat) (u : State),
        us = (List.range 64).filter (fun n => s.active n && (s.slot n).placement.regions.any fun r => r.cluster == cl.val && decide (r.firstLine ≤ word.val / 8) && decide (word.val / 8 < r.firstLine + r.lineCount))
        ∧ u = us.foldl (fun s n => s.setPipe n { s.pipeS n with damaged := true }) { now with pool := tsetRange (dconst 0) s.pool (cl.val * 163840 + 8 * word.val) (List.replicate 8 0) }
        ∧ exec (.poolScrubAccess t cl word err3) s = .next ((u.countUncorrected 1).faultLog 6 2 cl.val (us.headD 0xFF) 0 (8 * word.val)))
    ∧ (s.rd (Ob.hpcServes q) < 64 → exec (.hbmRefresh t q) s = .next (now.closeRows (s.rd (Ob.hpcServes q))))
    ∧ (64 ≤ s.rd (Ob.hpcServes q) → exec (.hbmRefresh t q) s = .next now)
    ∧ (x.lastAt + s.us 2 ≤ now.now → exec (.hbmRowIdleClose t bk) s = .next (now.setBank bk { x with row := none }))
    ∧ (now.now < x.lastAt + s.us 2 → exec (.hbmRowIdleClose t bk) s = .next now)

/-- A Frozen pseudo-channel whose hold has expired, or that is released, is tested; a release of any other aborts; a completed test passes or fails it; Retire of one in service starts the move and of any other aborts; the switch of a Migrating one binds the spare of its stack. Power states are entered where R329 allows it and left on a wake. A base-die temperature is kept, sets or clears the stack's hot refresh at 85 and 82 degC, and above 95 degC is over-temperature, logged, and a violated assumption 6. InterleaveMasks take 80 octets that satisfy R312 while nothing is allocated. -/
def Obligations.HbmLifecycle : Prop :=
  ∀ (s : State) (t : Nat) (q : Fin 64) (pass : Bool) (bad : List Nat) (stack : Fin 2) (temp : Int) (power : Fin 3) (data : List (BitVec 8)) (sp : Nat),
    let now := s.advance t
    let st := s.pcState q
    let warm := now.setDom Ob.hbmBaseDieTemp (if stack.val = 0 then leBytes 2 (uint 16 temp) ++ (s.dom Ob.hbmBaseDieTemp).drop 2 else (s.dom Ob.hbmBaseDieTemp).take 2 ++ leBytes 2 (uint 16 temp))
    let rate := if 1360 ≤ temp then warm.wr Ob.hbmHotRefresh (setBit (s.rd Ob.hbmHotRefresh) stack true)
      else if temp < 1312 then warm.wr Ob.hbmHotRefresh (setBit (s.rd Ob.hbmHotRefresh) stack false) else warm
    let fine := ∀ i, i < 10 → maskOk i (leAt data (8 * i) 8) = true
    (st = 2 → (s.pcS q).frozenAt + s.us (s.rd Ob.hbmFreezeHold) ≤ now.now → exec (.hbmFreezeHoldExpiry t q) s = .next (now.startTest q))
    ∧ ((st ≠ 2 ∨ now.now < (s.pcS q).frozenAt + s.us (s.rd Ob.hbmFreezeHold)) → exec (.hbmFreezeHoldExpiry t q) s = .next now)
    ∧ (s.Ready → st = 2 → exec (.hbmRelease t q) s = (now.startTest q).accepted)
    ∧ (s.Ready → st ≠ 2 → exec (.hbmRelease t q) s = s.aborted t Abort.state)
    ∧ (s.Ready → st = 0 → exec (.hbmRetire t q) s = (now.startRetire q).accepted)
    ∧ (s.Ready → st ≠ 0 → exec (.hbmRetire t q) s = s.aborted t Abort.state)
    ∧ (st ≠ 3 → exec (.hbmTestComplete t q pass bad) s = .next now)
    ∧ (st = 3 → ∃ u : State, u = now.logWords q bad
        ∧ exec (.hbmTestComplete t q true bad) s = .next ((u.wr (Ob.hpcTestResult q) 1).passPc q bad)
        ∧ exec (.hbmTestComplete t q false bad) s = .next ((((u.wr (Ob.hpcTestResult q) 2).setDom (Ob.hpcLastError q)
            (lastError now.stampNow (bad.headD 0) 3 0)).faultLog 2 3 q (s.firstOn (s.rd (Ob.hpcServes q))) 0 0).failPc q))
    ∧ (st ≠ 4 → exec (.hbmRetireSwitch t q) s = .next now)
    ∧ (st = 4 → s.spareOf (q.val / 32) = none → exec (.hbmRetireSwitch t q) s = .next now)
    ∧ (st = 4 → s.spareOf (q.val / 32) = some sp → exec (.hbmRetireSwitch t q) s = .next ((now.bindSpare q sp).setPc q { s.pcS q with retireResult := some 0 }))
    ∧ (temp ≤ 1520 → exec (.hbmTempCross t stack temp) s = .next (if rate.outside then rate else rate.assumeEnds 6))
    ∧ (1520 < temp → exec (.hbmTempCross t stack temp) s = .next (((rate.wr Ob.hbmOverTemp 1).faultLog 7 1 stack 0xFF 0 0).assume 6))
    ∧ (power.val ≠ 0 → now.maySleep q (s.rd (Ob.hpcServes q)) power = true →
        exec (.hbmPowerStateEntry t q power) s = .next (now.wr (Ob.hpcPowerState q) power))
    ∧ ((power.val = 0 ∨ now.maySleep q (s.rd (Ob.hpcServes q)) power = false) → exec (.hbmPowerStateEntry t q power) s = .next now)
    ∧ exec (.hbmWake t q) s = .next ((now.wr (Ob.hpcPowerState q) 0).setPc q { s.pcS q with usedAt := now.now })
    ∧ (s.Ready → data.length ≠ 80 → exec (.interleaveMasksWrite t data) s = s.aborted t Abort.length)
    ∧ (s.Ready → data.length = 80 → (s.rd Ob.storeAllocatedBytes ≠ 0 ∨ s.dom Ob.hbmHostReserve ≠ []) → exec (.interleaveMasksWrite t data) s = s.aborted t Abort.state)
    ∧ (s.Ready → data.length = 80 → s.rd Ob.storeAllocatedBytes = 0 → s.dom Ob.hbmHostReserve = [] →
        (fine → exec (.interleaveMasksWrite t data) s = (now.setDom Ob.hbmInterleaveMasks data).accepted)
        ∧ (¬ fine → exec (.interleaveMasksWrite t data) s = s.aborted t Abort.range))

/-- TRANSFER_START is refused in a stop or on a channel that another owns or that still runs, and with a length, spaces or ranges that R338 forbids; otherwise the channel takes its addresses and length, and waits in Paused while a cause holds. Pause and Abort are refused on a pipeline's or the display's channel; Pause is a cause, Abort ends what runs and is otherwise without effect. A beat slot serves the channel it is assigned to if that is an admitted one with a beat, else the ready channel first in the port's order, and the others age; without a ready channel it is lost. A paced line's request of 1 to 64 beats is noted once; withdrawn before its first beat it is cancelled and counted, after it only counted. Completions and timeouts of host reads fill the channel's data; window B reads and writes go to bank queues, pools and reserved offsets as R324 and R357 say. -/
def Obligations.TransferCommands : Prop :=
  ∀ (s : State) (t addr tag offset len : Nat) (ch : Fin 32) (v err credits ok : Bool) (port : Fin 2) (own : Option (Fin 32)) (line : Fin 48) (beats : Fin 65) (data : List (BitVec 8)) (w k : Nat),
    let now := s.advance t
    let c := ch.val
    let st := s.xst c
    let ow := s.xowner c
    let n := s.rd (Ob.xferLength c)
    let ss := s.rd (Ob.xferSourceSpace c)
    let ds := s.rd (Ob.xferDestSpace c)
    let a := s.rd (Ob.xferSource c)
    let b := s.rd (Ob.xferDest c)
    let free := s.stopping = false ∧ (ow = 0 ∨ (ow = 3 ∧ 6 ≤ st))
    let good := n ≠ 0 ∧ ss < 2 ∧ ds < 2 ∧ rangeOk ss a n = true ∧ rangeOk ds b n = true ∧ (ds = 0 → s.inReserve b n = true) ∧ (ss = ds → meets a n b n = false)
    let cause := setBit (s.rd (Ob.xferPauseCause c)) 1 (s.power.draining.any fun d => s.rangeIn d ss a n || s.rangeIn d ds b n)
    let nowS := now.stallStreams credits
    let ready := (List.range 32).filter fun c => !nowS.tookOther c port && (nowS.beatOf c err credits).isSome
    (s.Ready → ¬ free → exec (.transferStart t ch) s = s.aborted t Abort.state)
    ∧ (s.Ready → free → ¬ good → exec (.transferStart t ch) s = s.aborted t Abort.range)
    ∧ (s.Ready → free → good → exec (.transferStart t ch) s = ((((((((((now.wr (Ob.xferPauseCause c) cause).wr (Ob.xferOwner c) 0x300).wr
        (Ob.xferState c) (if cause ≠ 0 then 4 else 2)).wr (Ob.xferSourceNow c) a).wr (Ob.xferDestNow c) b).wr (Ob.xferRemaining c) n).wr
        (Ob.xferStagedBytes c) 0).wr (Ob.xferErrorCode c) 0).setXf c { toRead := n, writes := (s.xf c).writes }).xferSettle c).accepted)
    ∧ (s.Ready → (ow = 1 ∨ ow = 2) → exec (.transferPauseWrite t ch v) s = s.aborted t Abort.state ∧ exec (.transferAbort t ch) s = s.aborted t Abort.state)
    ∧ (s.Ready → ow ≠ 1 → ow ≠ 2 → exec (.transferPauseWrite t ch v) s = ((now.wr (Ob.xferPause c) (b2n v)).xferCause c 0 v).accepted)
    ∧ (s.Ready → ow ≠ 1 → ow ≠ 2 → (ow ≠ 3 ∨ st < 1 ∨ 5 < st) → exec (.transferAbort t ch) s = now.accepted)
    ∧ (s.Ready → ow = 3 → 1 ≤ st → st < 5 → exec (.transferAbort t ch) s = ((now.setXf c { s.xf c with aborting := true }).xferSettle c).accepted)
    ∧ (s.Ready → ow = 3 → st = 5 → exec (.transferAbort t ch) s = (((now.setXf c { s.xf c with aborting := true }).xferDrop c).xferEnd c 7).accepted)
    ∧ (ready = [] → exec (.transferBeatSlot t port own err credits) s = .next nowS)
    ∧ (∀ f l, ready = f :: l → (w = match own with
          | some o => if o.val ∈ ready ∧ nowS.xowner o = 1 then o.val else l.foldl (fun b d => if nowS.servedFirst port d b then d else b) f
          | none => l.foldl (fun b d => if nowS.servedFirst port d b then d else b) f) →
        ∀ u, nowS.beatOf w err credits = some u → exec (.transferBeatSlot t port own err credits) s = .next ((u.setXf w { (u.xf w).setAge port 0 with took := some (port.val, nowS.now) }).losers port w ready))
    ∧ (s.linePaces line = none → exec (.requestRaise t line beats) s = .next now ∧ exec (.requestWithdraw t line) s = .next now)
    ∧ (s.linePaces line = some k → beats.val ≠ 0 → (s.xf k).req = none → exec (.requestRaise t line beats) s = .next (now.setXf k { s.xf k with req := some beats.val }))
    ∧ (s.linePaces line = some k → (beats.val = 0 ∨ (s.xf k).req ≠ none) → exec (.requestRaise t line beats) s = .next now)
    ∧ (s.linePaces line = some k → (s.xf k).req ≠ none → exec (.requestWithdraw t line) s = .next ((now.setXf k { s.xf k with req := none }).bump (Ob.xferCancelledBursts k)))
    ∧ (s.linePaces line = some k → (s.xf k).req = none → (s.xf k).burst ≠ 0 → exec (.requestWithdraw t line) s = .next (now.bump (Ob.xferLateWithdrawCount k)))
    ∧ (s.linePaces line = some k → (s.xf k).req = none → (s.xf k).burst = 0 → exec (.requestWithdraw t line) s = .next now)
    ∧ exec (.hostReadCompletion t ch addr ok data) s = .next (now.xferData c addr (if ok then 0 else 1) data)
    ∧ (∀ r, (s.xf c).reads.find? (fun r => r.data.isNone) = some r → ss = 1 → exec (.transferReadTimeout t ch) s = .next (now.xferData c r.addr 1 []))
    ∧ ((ss ≠ 1 ∨ (s.xf c).reads.find? (fun r => r.data.isNone) = none) → exec (.transferReadTimeout t ch) s = .next now)
    ∧ exec (.windowBRead t tag offset len) s = .next ((pieces64 65 offset (min len 4096)).foldl (fun s p => s.windowRead tag p) now)
    ∧ exec (.windowBWrite t offset data) s = .next ((pieces64 (data.length + 1) offset data.length).foldl (fun s p => s.windowWrite offset data p) now)
    ∧ (∀ p : Nat × Nat, (winB p.1 = 1 → s.daServed p.1 = true → s.windowRead tag p = s.enqueue { client := 0, tag := tag, da := p.1, len := p.2, write := none })
      ∧ (winB p.1 = 1 → s.daServed p.1 = false → s.windowRead tag p = s.emit (.complete 0 tag false []))
      ∧ (winB p.1 = 2 → s.windowRead tag p = s.emit (.complete 0 tag true ((List.range p.2).map fun i => s.poolByte (p.1 + i))))
      ∧ (winB p.1 ≠ 1 → winB p.1 ≠ 2 → s.windowRead tag p = s.emit (.complete 0 tag true (List.replicate p.2 0)))
      ∧ (s.inReserve p.1 p.2 = true → s.daServed p.1 = true → s.windowWrite offset data p =
          s.enqueue { client := 0, tag := 0, da := p.1, len := p.2, write := some ((data.drop (p.1 - offset)).take p.2) })
      ∧ ((s.inReserve p.1 p.2 = false ∨ s.daServed p.1 = false) → s.windowWrite offset data p = s.bump Ob.diagDiscardedHostWrites))

/-- Every reset disarms window A's Submit, suspends the rings, counts, clears Bus Master Enable, and except for the Function Level Reset takes the link down. Training publishes rate, width and the admitted limit, enables the function, recovers Q16 to Q19, and keeps Shortfall, with vector 1 when it begins. A whole doorbell between ConsumedPages and WrittenPages moves ConsumedPages, another one is counted, a partial one discarded. The interrupt delay, a credit stall inside a page, Validate and Restart act on their ring as R361, R363, R365 and R366 say. -/
def Obligations.HostLinkAndStreams : Prop :=
  ∀ (s : State) (t value : Nat) (kind : Fin 4) (rate : Fin 3) (width : Fin 5) (rf : Fin 32),
    let now := s.advance t
    let r := rf.val
    let x := s.streamS r
    let code := min (4 + rate.val) (s.rd Ob.hlinkMaxLinkRate)
    let lim := hostLimit code (2 ^ width.val)
    let up := ({ (((now.wr Ob.hlinkLinkRate code).wr Ob.hlinkLinkWidth (2 ^ width.val)).wr Ob.hlinkAdmittedLinkLimit lim) with host := { bme := true, retrain := false } } : State).quadsUp [16, 17, 18, 19]
    let n := s.rd (Ob.ringOwner r)
    (∃ u : State, u = now.endpointReset (kind.val != 2) ∧ u.host.bme = false ∧ u.host.retrain = false ∧ u.dict.busySubmit = none ∧ u.dict.lastSubmit = 0
        ∧ (kind.val ≠ 2 → u.rd Ob.hlinkLinkRate = 0 ∧ u.rd Ob.hlinkLinkWidth = 0 ∧ u.rd Ob.hlinkAdmittedLinkLimit = 0)
        ∧ exec (.hostReset t kind) s = .next u)
    ∧ (lim < s.rd Ob.hlinkLinkCharged → s.rd Ob.hlinkShortfall = 0 → exec (.hostLinkTrained t rate width) s = .next ((up.wr Ob.hlinkShortfall 1).msix 1))
    ∧ (lim < s.rd Ob.hlinkLinkCharged → s.rd Ob.hlinkShortfall ≠ 0 → exec (.hostLinkTrained t rate width) s = .next (up.wr Ob.hlinkShortfall 1))
    ∧ (s.rd Ob.hlinkLinkCharged ≤ lim → exec (.hostLinkTrained t rate width) s = .next (up.wr Ob.hlinkShortfall 0))
    ∧ (s.Ready → exec (.linkRetrain t) s = ({ now with host := { s.host with retrain := true } } : State).accepted)
    ∧ exec (.busMasterDisable t) s = .next { now.suspendRings with host := { now.host with bme := false } }
    ∧ exec (.doorbellWrite t rf value false) s = .next now
    ∧ (s.rd (Ob.ringConsumedPages r) ≤ value → value ≤ s.rd (Ob.ringWrittenPages r) → exec (.doorbellWrite t rf value true) s = .next (now.wr (Ob.ringConsumedPages r) value))
    ∧ ((value < s.rd (Ob.ringConsumedPages r) ∨ s.rd (Ob.ringWrittenPages r) < value) → exec (.doorbellWrite t rf value true) s = .next (now.bump (Ob.ringBadDoorbells r)))
    ∧ (x.unsignalled ≠ 0 → x.since + s.us (s.rd (Ob.ringIrqDelay r)) ≤ now.now → exec (.streamIrqDelayExpiry t rf) s = .next
        ((now.setStream r { x with unsignalled := 0 }).msix (s.rd (Ob.ringVector r))))
    ∧ ((x.unsignalled = 0 ∨ now.now < x.since + s.us (s.rd (Ob.ringIrqDelay r))) → exec (.streamIrqDelayExpiry t rf) s = .next now)
    ∧ (x.page ≠ none → exec (.creditStallTimeout t rf) s = .next ((((now.bump (Ob.ringCreditStalls r)).bump Ob.hlinkCreditTimeouts).wr (Ob.ringRingState r) 3).assume 1))
    ∧ (x.page = none → exec (.creditStallTimeout t rf) s = .next now)
    ∧ (s.Ready → s.ringOk r = true → s.rd (Ob.ringRingState r) ≤ 1 → exec (.ringValidate t rf) s = ((now.setStream r { x with validated := some 0 }).wr (Ob.ringRingState r) 1).accepted)
    ∧ (s.Ready → s.ringOk r = false → s.rd (Ob.ringRingState r) ≤ 1 → exec (.ringValidate t rf) s = ((now.setStream r { x with validated := some 0x4F }).wr (Ob.ringRingState r) 0).accepted)
    ∧ (s.Ready → 1 < s.rd (Ob.ringRingState r) → exec (.ringValidate t rf) s = (now.setStream r { x with validated := some (if s.ringOk r then 0 else 0x4F) }).accepted)
    ∧ (s.Ready → s.rd (Ob.ringRingState r) ≠ 5 → exec (.ringRestart t rf) s = s.aborted t Abort.state)
    ∧ (s.Ready → s.rd (Ob.ringRingState r) = 5 → ∃ u : State,
        u = { ((((now.setStream r { x with page := none, fresh := true, abandon := false, unsignalled := 0 }).wr (Ob.ringWrittenPages r) 0).wr
          (Ob.ringConsumedPages r) 0).wr (Ob.ringRingState r) (if n < 64 then 2 else 1)) with host := { s.host with bme := true } }
        ∧ exec (.ringRestart t rf) s = (if n < 64 then u.reattach (u.ringOwner n) 0 else u).accepted)

/-- A consumer that stalls is detached: the host stream with its ring, the storage stream with its unit closed, another alone; one with nothing to do or none is left. Reattach brings it back, the host stream only from Detached, the storage stream only while its recording is not closing. HostRead moves to a record start between its position and WritePos, else aborts; ReleaseRing drops the kept ring of a Described slot. The record first in commit order is completed, with its integrity flag where a marked pool was read, and Rearm starts a bounded capture again once it is complete and drained. A Replay slot's reader takes records until every channel has samples and feeds the block first in source time; at its source's end its channels are completed with zeros, and once all is fed and the chain is idle the last outputs and the end Marker, whose Time is a free value, are queued and the slot withdraws. -/
def Obligations.RingConsumersAndRecords : Prop :=
  ∀ (s : State) (t who v : Nat) (nf : Fin 64) (c : RConsumer) (r : Nat) (data : List (BitVec 8)) (rec : Rec) (rest : List Rec),
    let now := s.advance t
    let n := nf.val
    let nb := s.ringOwner n
    let x := s.ringS n
    let y := s.ringS nb
    let p := s.pipeS n
    ((y.consumer who = none ∨ (∃ c, y.consumer who = some c ∧ (c.attached = false ∨ c.queue = []))) → exec (.consumerStallTimeout t nf who) s = .next now)
    ∧ (y.consumer who = some c → c.attached = true → c.queue ≠ [] →
        (who = 0 → s.streamRingOf n = some r → exec (.consumerStallTimeout t nf who) s = .next (now.streamDetach r n 4))
        ∧ (who = 0 → s.streamRingOf n = none → exec (.consumerStallTimeout t nf who) s = .next (now.detachConsumer nb 0))
        ∧ (who = 1 → ∃ u : State, u = (now.closeUnit n false false true).detachConsumer nb 1
            ∧ (u.recording n = none → exec (.consumerStallTimeout t nf who) s = .next u)
            ∧ (∀ z, u.recording n = some z → exec (.consumerStallTimeout t nf who) s = .next
                (u.setRecording n (some { z with ahead := 0, pendingUnits := z.pendingUnits.map fun u => { u with octets := 0 } }))))
        ∧ (1 < who → exec (.consumerStallTimeout t nf who) s = .next (now.detachConsumer nb who)))
    ∧ (who ≠ 0 → (who ≠ 1 ∨ ∃ z, s.recording n = some z ∧ z.closing = false) → exec (.consumerReattach t nf who) s = .next (now.reattach nb who))
    ∧ ((∀ z, s.recording n = some z → z.closing = true) → exec (.consumerReattach t nf 1) s = .next now)
    ∧ (s.streamRingOf n = some r → s.rd (Ob.ringRingState r) = 4 → exec (.consumerReattach t nf 0) s = .next ((now.reattach nb 0).wr (Ob.ringRingState r) 2))
    ∧ ((s.streamRingOf n = none ∨ ∃ r, s.streamRingOf n = some r ∧ s.rd (Ob.ringRingState r) ≠ 4) → exec (.consumerReattach t nf 0) s = .next now)
    ∧ (s.Ready → (s.rd (Ob.slotHostConsumer n) = 0 ∨ x.present = false) → exec (.hostReadWrite t nf v) s = s.aborted t Abort.state)
    ∧ (s.Ready → s.rd (Ob.slotHostConsumer n) ≠ 0 → x.present = true →
        ¬ (s.rd (Ob.slotHostRead n) ≤ v ∧ v ≤ s.rd (Ob.slotWritePos n) ∧ (v = s.rd (Ob.slotHostRead n) ∨ v = s.rd (Ob.slotWritePos n) ∨ ∃ q ∈ x.recs, q.pos = v)) →
        exec (.hostReadWrite t nf v) s = s.aborted t Abort.range)
    ∧ (s.Ready → s.rd (Ob.slotHostConsumer n) ≠ 0 → x.present = true → s.rd (Ob.slotHostRead n) ≤ v → v ≤ s.rd (Ob.slotWritePos n) →
        (v = s.rd (Ob.slotHostRead n) ∨ v = s.rd (Ob.slotWritePos n) ∨ ∃ q ∈ x.recs, q.pos = v) → exec (.hostReadWrite t nf v) s = (((now.wr (Ob.slotHostRead n) v).setRing n { x with
          consumers := x.consumers.map fun c => if c.who = 2 then { c with queue := c.queue.filter fun q => decide (v ≤ q.1), taken := 0 } else c }).ringOldest n).accepted)
    ∧ (s.Ready → s.rd (Ob.slotState n) = 1 → x.kept = true → exec (.releaseRing t nf) s = (now.dropRing n).accepted)
    ∧ (s.Ready → (s.rd (Ob.slotState n) ≠ 1 ∨ x.kept = false) → exec (.releaseRing t nf) s = s.aborted t Abort.state)
    ∧ (p.recQ = [] → exec (.recordComplete t nf) s = .next now)
    ∧ (p.recQ = rec :: rest → exec (.recordComplete t nf) s = .next (((now.setPipe n { p with recQ := rest, damaged := false }).completeRecord n
        (if p.damaged then { rec with flags := setBit rec.flags 15 true } else rec)).captureEnd n))
    ∧ (s.Ready → s.rd (Ob.slotCaptureState nb) = 2 → (∀ c ∈ y.consumers, c.queue = []) → exec (.rearm t nf) s =
        ((now.setRing nb { y with chunks := [], rearmAt := some (now.devNow + now.us 100) }).wr (Ob.slotCaptureState nb) 1).accepted)
    ∧ (s.Ready → (s.rd (Ob.slotCaptureState nb) ≠ 2 ∨ ∃ c ∈ y.consumers, c.queue ≠ []) → exec (.rearm t nf) s = s.aborted t Abort.state)
    ∧ ((s.isReplay n = false ∨ s.active n = false) → exec (.replayFeed t nf data) s = .next now)
    ∧ (s.isReplay n = true → s.active n = true → ∃ w u : State, w = now.replayRead n data ∧ u = (if w.sourceEnded n then w.sourceFill n else w)
        ∧ (u.earliestChan n = none → exec (.replayFeed t nf data) s = .next u)
        ∧ (∀ k, u.earliestChan n = some k → exec (.replayFeed t nf data) s = .next (u.feedBlock n k)))
    ∧ ((s.isReplay n = false ∨ s.rd (Ob.slotState n) ≠ 2 ∨ now.sourceEnded n = false ∧ s.rd (Ob.slotReplaySource n) ≠ 2) → exec (.replayEnd t nf) s = .next now)
    ∧ (s.isReplay n = true → s.rd (Ob.slotState n) = 2 → (now.sourceEnded n = true ∨ s.rd (Ob.slotReplaySource n) = 2) →
        ((now.sourceFill n).sourceDone n = false ∨ (now.sourceFill n).chainIdle n = false) → exec (.replayEnd t nf) s = .next (now.sourceFill n))
    ∧ (s.isReplay n = true → s.rd (Ob.slotState n) = 2 → (now.sourceEnded n = true ∨ s.rd (Ob.slotReplaySource n) = 2) →
        (now.sourceFill n).sourceDone n = true → (now.sourceFill n).chainIdle n = true → ∃ (u : State) (mk : Rec),
        u = (now.sourceFill n).chainFlush n
        ∧ mk.kind = 0x0F ∧ mk.slot = n ∧ mk.epoch = u.rd (Ob.slotEpoch n) ∧ mk.flags = 2 ^ 11 + 2 ^ 9
        ∧ exec (.replayEnd t nf) s = .next (((u.setPipe n { u.pipeS n with
            recQ := if bit (u.rd (Ob.slotOutputMask n)) 0 then (u.pipeS n).recQ ++ [mk] else (u.pipeS n).recQ }).taken 1).beginWithdraw n u.devNow))

/-- Qualify starts only on an unused port, notes 0x4F without a usable drive of its size, and ends with both qualified rates and the drive outside the set. FormSet over unused storage with formable drives labels every port and empties the directory. DeleteRecording deallocates a closed recording no Replay reads. Reinstate acts on a Failed drive. Losing the link, a command timeout and a controller error fail the drive with their causes; an attached drive reads its link and capacity and is unsupported, unlabelled, or adopted by its label. A completion ends its command, counts what was written, keeps Health, retries a failed write once. The idle timeout closes a unit, the directory follows an open recording, and health polls issue both log reads. -/
def Obligations.DrivesAndRecordings : Prop :=
  ∀ (s : State) (t mask num mWrite mRead cid rate width capacity units pos setId : Nat) (port : Fin 6) (nf : Fin 64) (ok : Bool) (status : Fin 3)
    (data name dir : List (BitVec 8)) (label : Option (Nat × Nat × Nat)) (e : DirEntry) (c : NCmd) (x : Recording),
    let now := s.advance t
    let k := port.val
    let n := nf.val
    let st := s.rd (Ob.storDriveState k)
    let d := s.driveS k
    let usable := (st == 1 || st == 3 || st == 4 || st == 5) && decide (s.rd (Ob.storQualifyBytes k) ≤ s.rd (Ob.storCapacity k))
    let dry := now.setDrive k { d with out := d.out.eraseIdx cid }
    let bad := dry.bump (Ob.storErrorStatuses k)
    let att := (((((now.setQuad (20 + k) 0).wrs [(Ob.storLinkState k, rate % 256 * 256 + width % 256), (Ob.storCapacity k, capacity % 2 ^ 64)]).setDom
        (Ob.storDriveId k) name).setDrive k { d with units := units, out := [], queue := [] }).emit (.nvme k 256 0 0 false)).emit (.nvme k 259 0 0 false)
    let cut := now.wr (Ob.storLinkState k) 0
    let f := now.free 371
    let gone := now.modEntry num fun e => { e with st := 4 }
    (s.Ready → s.portUsed k = true → exec (.qualify t port) s = s.aborted t Abort.state)
    ∧ (s.Ready → s.portUsed k = false → usable = true → exec (.qualify t port) s =
        ((now.setDrive k { d with qualifyResult := some 1 }).setDriveState k 3).accepted)
    ∧ (s.Ready → s.portUsed k = false → usable = false → exec (.qualify t port) s = (now.setDrive k { d with qualifyResult := some 0x4F }).accepted)
    ∧ (st ≠ 3 → exec (.qualifyComplete t port mWrite mRead) s = .next now)
    ∧ (st = 3 → ∃ u v : State, u = now.wrs [(Ob.storQualifiedRate k, qualifiedRate mWrite), (Ob.storQualifiedReadRate k, qualifiedRate mRead),
          (Ob.storQualifiedAt k, now.stampNow), (Ob.storPosition k, 0xFF), (Ob.ssetSetMembers, setBit (s.rd Ob.ssetSetMembers) k false)]
        ∧ v = u.setDrive k { u.driveS k with qualifyResult := some 0, next := 0 }
        ∧ exec (.qualifyComplete t port mWrite mRead) s = .next ((v.issue k { op := 9, lba := 1024, blocks := v.rd (Ob.storQualifyBytes k) / 4096 }).setDriveState k 4).freeUnits)
    ∧ (s.Ready → s.storageUsed = true → exec (.formSet t mask) s = s.aborted t Abort.state)
    ∧ (s.Ready → s.storageUsed = false → 64 ≤ mask → exec (.formSet t mask) s = s.aborted t Abort.range)
    ∧ (s.Ready → s.storageUsed = false → mask < 64 → (∃ q, q ∈ bitsSet 6 mask ∧ s.formable q = false) → exec (.formSet t mask) s = s.aborted t Abort.state)
    ∧ (s.Ready → s.storageUsed = false → mask < 64 → (∀ q, q ∈ bitsSet 6 mask → s.formable q = true) → ∃ u : State,
        u = f.2.wrs [(Ob.ssetSetMembers, mask), (Ob.ssetSetId, f.1 % 2 ^ 64), (Ob.ssetNextRecording, 1)]
        ∧ exec (.formSet t mask) s = (((List.range 6).foldl (State.formPort mask (f.1 % 2 ^ 64)) { u with store := { u.store with directory := [] } }).freeUnits).accepted)
    ∧ (s.Ready → (s.store.directory.find? fun e => e.number == num) = none → exec (.deleteRecording t num) s = s.aborted t Abort.range)
    ∧ (s.Ready → (s.store.directory.find? fun e => e.number == num) = some e → (e.st = 1 ∨ s.replayReads num = true) →
        exec (.deleteRecording t num) s = s.aborted t Abort.state)
    ∧ (s.Ready → (s.store.directory.find? fun e => e.number == num) = some e → e.st ≠ 1 → s.replayReads num = false →
        exec (.deleteRecording t num) s = (((gone.members.foldl (State.deallocate e) gone).writeEntry num).freeUnits).accepted)
    ∧ (s.Ready → st ≠ 6 → exec (.reinstate t port ok) s = s.aborted t Abort.state)
    ∧ (s.Ready → st = 6 → exec (.reinstate t port false) s = ((now.setDrive k { d with reinstateResult := some 0x4F }).emit (.nvme k 256 0 0 false)).accepted)
    ∧ (s.Ready → st = 6 → exec (.reinstate t port true) s = (((((now.setDrive k { d with reinstateResult := some 0 }).emit (.nvme k 256 0 0 false)).wr (Ob.storFailCause k) 0).setDriveState k
        (if bit (s.rd Ob.ssetSetMembers) k then 5 else 4)).drivesFollow).accepted)
    ∧ (status.val = 2 → exec (.nvmeCompletion t port cid status data) s = .next (now.driveFail k 2))
    ∧ (status.val ≠ 2 → d.out[cid]? = none → exec (.nvmeCompletion t port cid status data) s = .next now)
    ∧ (status.val = 0 → d.out[cid]? = some c → c.op = 1 → exec (.nvmeCompletion t port cid status data) s = .next
        ((if c.slot < 64 then (dry.bumpBy (Ob.storWrittenBytes k) (4096 * c.blocks)).unitWritten c
          else dry.bumpBy (Ob.storWrittenBytes k) (4096 * c.blocks)).issueNext k))
    ∧ (status.val = 0 → d.out[cid]? = some c → c.op = 258 → exec (.nvmeCompletion t port cid status data) s = .next
        ((dry.setDom (Ob.storHealth k) (data.take 512)).issueNext k))
    ∧ (status.val = 0 → d.out[cid]? = some c → c.op ≠ 1 → c.op ≠ 258 → exec (.nvmeCompletion t port cid status data) s = .next (dry.issueNext k))
    ∧ (status.val = 1 → d.out[cid]? = some c → c.op = 1 → c.retried = true → exec (.nvmeCompletion t port cid status data) s = .next (bad.driveFail k 4))
    ∧ (status.val = 1 → d.out[cid]? = some c → c.op = 1 → c.retried = false → exec (.nvmeCompletion t port cid status data) s = .next
        ((bad.issue k { c with retried := true }).issue k { op := 257 }))
    ∧ (status.val = 1 → d.out[cid]? = some c → c.op ≠ 1 → exec (.nvmeCompletion t port cid status data) s = .next
        ((bad.issue k { op := 257 }).issueNext k))
    ∧ (d.out = [] → exec (.nvmeCommandTimeout t port) s = .next now)
    ∧ (d.out ≠ [] → exec (.nvmeCommandTimeout t port) s = .next (((now.bump (Ob.storCommandTimeouts k)).assume 2).driveFail k 1))
    ∧ ((st = 0 ∨ st = 6) → exec (.driveLinkLoss t port ok) s = .next cut)
    ∧ (st ≠ 0 → st ≠ 6 → exec (.driveLinkLoss t port true) s = .next (cut.driveFail k 5))
    ∧ (st ≠ 0 → st ≠ 6 → exec (.driveLinkLoss t port false) s = .next (cut.driveFail k 3))
    ∧ (s.recording n = none → exec (.unitIdleTimeout t nf) s = .next now ∧ exec (.directoryUpdate t nf) s = .next now)
    ∧ (s.recording n = some x → exec (.directoryUpdate t nf) s = .next ((now.entryFollow n).writeEntry x.number))
    ∧ (s.recording n = some x → x.recordAt + s.us 100000 ≤ now.now → exec (.unitIdleTimeout t nf) s = .next (now.closeUnit n false false false))
    ∧ (s.recording n = some x → now.now < x.recordAt + s.us 100000 → exec (.unitIdleTimeout t nf) s = .next now)
    ∧ ((st = 0 ∨ st = 2 ∨ st = 6) → exec (.healthLogPoll t port) s = .next now)
    ∧ (st ≠ 0 → st ≠ 2 → st ≠ 6 → exec (.healthLogPoll t port) s = .next ((now.issue k { op := 257 }).issue k { op := 258 }))
    ∧ ((s.rd (Ob.storEnable k) = 0 ∨ st = 6) → exec (.driveAttach t port ok rate width capacity units name label dir) s = .next now)
    ∧ (s.rd (Ob.storEnable k) ≠ 0 → st ≠ 6 →
        exec (.driveAttach t port false rate width capacity units name label dir) s = .next (att.setDriveState k 2)
        ∧ exec (.driveAttach t port true rate width capacity units name none dir) s = .next
            (att.setDriveState k (if s.rd (Ob.storQualifiedRate k) = 0 then 1 else 4))
        ∧ exec (.driveAttach t port true rate width capacity units name (some (pos, mask, setId)) dir) s = .next
            (att.adoptLabel k pos mask setId (entriesOf 4096 dir)))

/-- Stop and Stop Force abort while another request governs or the sentinel restarts, wait for an operating-point change or the restore, and otherwise Force ends everything at once while the plain form is refused and logged with the first active slot, or starts an entry. STOP_REQ_N asks the same in Run, by PinForce with Force, and repeats while the pin stays low after a refusal. At the end of StopGrace a Pantry write or a busy host channel aborts the entry with its refuser; without one the shutdown begins, and Stop is reached from it alone. Clearing the refusal log zeroes its count. -/
def Obligations.StopRequests : Prop :=
  ∀ (s : State) (t n ch : Nat) (e : StopEntry),
    let now := s.advance t
    let held := fun (cause : Nat) => ({ now with power := { s.power with stopWaits := some cause, stopResult := some 0 } } : State)
    let start := fun (cause : Nat) => ({ now with power := { s.power with
      stopEntry := some { cause := cause, at0 := now.now, down := false }, stopWaits := none, stopResult := some 0, stopReqLow := false } } : State)
    let refusedBy := fun (cause : Nat) => ({ now.logRefusal (0x0100 + n) 1 with power := { s.power with
      stopWaits := none, stopResult := some 1, stopReqLow := cause == 3 } } : State)
    let quiet := s.power.change = none ∧ s.rd Ob.devRestoreState = 3
    (s.Ready → s.stopBlocked = true → exec (.stop t) s = s.aborted t Abort.state ∧ exec (.stopForce t) s = s.aborted t Abort.state)
    ∧ (s.Ready → s.stopBlocked = false → s.power.change ≠ none → exec (.stop t) s = (held 1).accepted ∧ exec (.stopForce t) s = (held 2).accepted)
    ∧ (s.Ready → s.stopBlocked = false → s.power.change = none →
        exec (.stopForce t) s = (start 2).forceStop.accepted
        ∧ (((List.range 64).find? fun n => s.active n) = none → exec (.stop t) s = (start 1).accepted)
        ∧ (((List.range 64).find? fun n => s.active n) = some n → exec (.stop t) s = (refusedBy 1).accepted))
    ∧ ((s.power.run = false ∨ s.steward.restarting = true ∨ s.stopBlocked = true) → exec (.stopReqNEdge t) s = .next now)
    ∧ (s.power.run = true → s.steward.restarting = false → s.stopBlocked = false → ¬ quiet → exec (.stopReqNEdge t) s = .next
        (held (if s.rdB Ob.stopPinForce then 4 else 3)))
    ∧ (s.power.run = true → s.steward.restarting = false → s.stopBlocked = false → quiet →
        (s.rd Ob.stopPinForce ≠ 0 → exec (.stopReqNEdge t) s = .next (start 4).forceStop)
        ∧ (s.rd Ob.stopPinForce = 0 → ((List.range 64).find? fun n => s.active n) = none → exec (.stopReqNEdge t) s = .next (start 3))
        ∧ (s.rd Ob.stopPinForce = 0 → ((List.range 64).find? fun n => s.active n) = some n → exec (.stopReqNEdge t) s = .next (refusedBy 3)))
    ∧ (s.power.stopReqLow = false → ∀ low, exec (.stopReqRepeat t low) s = .next now)
    ∧ (s.power.stopReqLow = true → exec (.stopReqRepeat t true) s = exec (.stopReqNEdge t) s
        ∧ exec (.stopReqRepeat t false) s = .next { now with power := { s.power with stopReqLow := false } })
    ∧ (s.power.stopEntry = none → exec (.stopGraceExpiry t) s = .next now ∧ exec (.stopReached t) s = .next now)
    ∧ (s.power.stopEntry = some e → e.down = true → exec (.stopGraceExpiry t) s = .next now ∧ exec (.stopReached t) s = .next (now.stopReached e.cause))
    ∧ (s.power.stopEntry = some e → e.down = false → exec (.stopReached t) s = .next now
        ∧ (now.now < e.at0 + s.us (1000 * s.rd Ob.stopStopGrace) → exec (.stopGraceExpiry t) s = .next now)
        ∧ (e.at0 + s.us (1000 * s.rd Ob.stopStopGrace) ≤ now.now → s.pantryBusy = true → exec (.stopGraceExpiry t) s = .next (now.abortEntry e.cause 0x0300))
        ∧ (e.at0 + s.us (1000 * s.rd Ob.stopStopGrace) ≤ now.now → s.pantryBusy = false → s.hostBusy = some ch →
            exec (.stopGraceExpiry t) s = .next (now.abortEntry e.cause (0x0200 + ch)))
        ∧ (e.at0 + s.us (1000 * s.rd Ob.stopStopGrace) ≤ now.now → s.pantryBusy = false → s.hostBusy = none →
            exec (.stopGraceExpiry t) s = .next now.shutDown))
    ∧ (s.Ready → exec (.refusalLogClear t) s = (now.wr Ob.refuCount 0).accepted)

/-- In Stop an enabled source wakes, in an entry it is latched, in Run it does nothing. The rail whose turn it is connects; before VCORE the sentinel plans P2's voltage, and the eighth rail brings the steward up with RestoreState 0x01. A rail that stays out ends the power-up, is counted, retried, and after the third fault leaves the device in Stop with cause 6. A rail that leaves its window in Run, but VCORE moving in a change, is logged as assumption 6, which ends when no rail is out any more. VAON's first application wakes; its loss and the thermal shutdown end a keep and remove the rails, the latter with cause 5. Domains power down and up in Run alone. -/
def Obligations.WakeAndPowerUp : Prop :=
  ∀ (s : State) (t : Nat) (wakeIn : Option Bool) (can : Option (Nat × Nat × List (BitVec 8))) (perst lane : Bool) (step : Fin 8) (df : Fin 93),
    let now := s.advance t
    let m := now.wakeMask wakeIn can perst lane
    let fr := wakeFrameOf m can
    let turn := s.power.run = true ∧ s.power.pwrGood = true ∧ s.power.rails = step.val
    let off := fun (again : Bool) => ({ (now.bump Ob.stopPowerUpFaults).sentinelLog 2 (railOf s.power.rails) with power := { s.power with
      rails := 0, pwrGood := false, upFaults := s.power.upFaults + 1, retryDue := again } } : State).emit (.pwrGood false)
    let cold := ({ now.abandonKeep.coldState lifeHolds with time := {}
                                                            power := { vaon := false, run := false, pwrGood := false, rails := 0, stewardUp := false } } : State)
    ((m = 0 ∨ s.power.vaon = false ∨ (s.power.run = true ∧ s.stopping = false)) → exec (.wakeSample t wakeIn can perst lane) s = .next now)
    ∧ (m ≠ 0 → s.power.vaon = true → s.power.run = false → exec (.wakeSample t wakeIn can perst lane) s = .next (now.wake m fr))
    ∧ (m ≠ 0 → s.power.vaon = true → s.power.run = true → s.stopping = true → exec (.wakeSample t wakeIn can perst lane) s = .next
        { now with power := { s.power with wakeLatched := s.power.wakeLatched ||| m, wakeFrame := if fr.isEmpty then s.power.wakeFrame else fr } })
    ∧ (¬ turn → (s.powered = false ∨ bit s.power.railsOut step = false) → exec (.railInWindow t step) s = .next now)
    ∧ (¬ turn → s.powered = true → bit s.power.railsOut step = true → ∃ u : State,
        u = { now with power := { s.power with railsOut := setBit s.power.railsOut step false } }
        ∧ exec (.railInWindow t step) s = .next (if u.outside then u else u.assumeEnds 6))
    ∧ (turn → step.val < 4 ∨ step.val = 5 ∨ step.val = 6 → exec (.railInWindow t step) s = .next { now with power := { s.power with rails := step.val + 1 } })
    ∧ (turn → step.val = 4 → exec (.railInWindow t step) s = .next
        { now with power := { s.power with rails := 5, target := now.plannedVcore 2, selected := 2 }, out := [.avs (now.plannedVcore 2)] })
    ∧ (turn → step.val = 7 → exec (.railInWindow t step) s = .next
        (({ now with power := { s.power with rails := 8, stewardUp := true } } : State).wr Ob.devRestoreState 1))
    ∧ ((s.power.run = false ∨ s.power.pwrGood = false ∨ 8 ≤ s.power.rails) → exec (.powerupRailTimeout t) s = .next now)
    ∧ (s.power.run = true → s.power.pwrGood = true → s.power.rails < 8 →
        (s.power.upFaults < 2 → exec (.powerupRailTimeout t) s = .next (off true))
        ∧ (2 ≤ s.power.upFaults → ∃ u : State, u = { off false with power := { (off false).power with run := false } }
            ∧ exec (.powerupRailTimeout t) s = .next ((u.wrs [(Ob.wakeStopSeconds, u.time.rtcSeconds), (Ob.wakeStopCause, 6)]).auxBoth)))
    ∧ (s.power.run = true → s.power.retryDue = true → exec (.powerupRetry t) s = .next now.powerUp)
    ∧ ((s.power.run = false ∨ s.power.retryDue = false) → exec (.powerupRetry t) s = .next now)
    ∧ ((s.powered = false ∨ (step.val = 5 ∧ s.vcoreMoving = true)) → exec (.railOutOfWindow t step) s = .next now)
    ∧ (s.powered = true → (step.val ≠ 5 ∨ s.vcoreMoving = false) → exec (.railOutOfWindow t step) s = .next
        (let w := ((now.faultLog 7 2 (railOf step) 0xFF 0 0).assume 6).exclude
         { w with power := { w.power with railsOut := setBit w.power.railsOut step true } }))
    ∧ (s.power.vaon = true → exec (.powerOn t) s = .next now)
    ∧ (s.power.vaon = false → exec (.powerOn t) s = .next (({ now with power := { s.power with vaon := true } } : State).wake 0 [])
        ∧ exec (.vaonLoss t) s = .next now)
    ∧ (s.power.vaon = true → s.power.pwrGood = true → exec (.vaonLoss t) s = .next (cold.emit (.pwrGood false)))
    ∧ (s.power.vaon = true → s.power.pwrGood = false → exec (.vaonLoss t) s = .next cold)
    ∧ (s.power.run = true → s.power.pwrGood = true → exec (.thermalShutdown t) s = .next ((now.abandonKeep.sentinelLog 1 0).stopReached 5))
    ∧ ((s.power.run = false ∨ s.power.pwrGood = false) → exec (.thermalShutdown t) s = .next now)
    ∧ (s.powered = true → exec (.domainPowerDown t df) s = .next (now.domainDown df) ∧ exec (.domainPowerUp t df) s = .next (now.domainRaise df))
    ∧ (s.powered = false → exec (.domainPowerDown t df) s = .next now ∧ exec (.domainPowerUp t df) s = .next now)

/-- A level condition's line must be free or its own and keep the fabric within its bounds, its source is one of five with or without bit 7, and CondLow may not exceed CondHigh; each applies at once while the chain does not run, and no sooner than a level interval that is already full ends. The oldest filled block enters its share, marked after an uncorrectable error, which is logged with the first owner of the channel; consumers left too far behind are detached, and captures and recordings take the block. A condition flit of a frame that its slot still takes changes the lines of an active slot, any other none. ClearFault clears the faults of the lines its map names, and ClearLog empties the trigger log. -/
def Obligations.ConditionsAndBlocks : Prop :=
  ∀ (s : State) (t sub v tag dis : Nat) (ch nf : Fin 64) (words : List Nat) (map : List (BitVec 8)) (b : PBlock) (rest : List PBlock),
    let now := s.advance t
    let k := ch.val
    let n := nf.val
    let due := now.levelDue k
    let src := (((due.unname k v).wr (Ob.chanCondLine k) v).levelSource k).refreshFabric
    let broken := src.fabricBroken || src.exportBreak.isSome
    let share := (s.chanS k).blockIn b rest
    let spoilt := { b with flags := b.flags ||| 16 }
    let share2 := (s.chanS k).blockIn spoilt rest
    (s.Ready → sub ≠ 0x16 → sub ≠ 0x17 → sub ≠ 0x18 → sub ≠ 0x19 → exec (.levelConditionWrite t ch sub v) s = s.aborted t Abort.noSub)
    ∧ (s.Ready → v ≠ 0xFFFF → 256 ≤ v → exec (.levelConditionWrite t ch 0x16 v) s = s.aborted t Abort.range)
    ∧ (s.Ready → v < 256 → due.lineTaken v k = true → exec (.levelConditionWrite t ch 0x16 v) s = s.aborted t Abort.state)
    ∧ (s.Ready → v < 256 → due.lineTaken v k = false → broken = true → exec (.levelConditionWrite t ch 0x16 v) s = s.aborted t Abort.range)
    ∧ (s.Ready → ((v < 256 ∧ due.lineTaken v k = false ∧ broken = false) ∨ v = 0xFFFF) → exec (.levelConditionWrite t ch 0x16 v) s = (src.levelApplied k).accepted)
    ∧ (s.Ready → (bits v 6 4 ≠ 0 ∨ 4 < v % 16 ∨ 256 ≤ v) → exec (.levelConditionWrite t ch 0x17 v) s = s.aborted t Abort.range)
    ∧ (s.Ready → bits v 6 4 = 0 → v % 16 ≤ 4 → v < 256 → exec (.levelConditionWrite t ch 0x17 v) s = ((due.wr (Ob.chanCondSource k) v).levelApplied k).accepted)
    ∧ (s.Ready → sint 16 (v % 65536) < sint 16 (due.rd (Ob.chanCondLow k)) → exec (.levelConditionWrite t ch 0x18 v) s = s.aborted t Abort.range)
    ∧ (s.Ready → sint 16 (due.rd (Ob.chanCondLow k)) ≤ sint 16 (v % 65536) → exec (.levelConditionWrite t ch 0x18 v) s =
        ((due.wrs [(Ob.chanCondHigh k, v % 65536), (Ob.chanCondLow k, due.rd (Ob.chanCondLow k))]).levelApplied k).accepted)
    ∧ (s.Ready → sint 16 (due.rd (Ob.chanCondHigh k)) < sint 16 (v % 65536) → exec (.levelConditionWrite t ch 0x19 v) s = s.aborted t Abort.range)
    ∧ (s.Ready → sint 16 (v % 65536) ≤ sint 16 (due.rd (Ob.chanCondHigh k)) → exec (.levelConditionWrite t ch 0x19 v) s =
        ((due.wrs [(Ob.chanCondHigh k, due.rd (Ob.chanCondHigh k)), (Ob.chanCondLow k, v % 65536)]).levelApplied k).accepted)
    ∧ ((s.chanS k).filled = [] → ∀ err, exec (.polderBlockWrite t ch err) s = .next now)
    ∧ ((s.chanS k).filled = b :: rest →
        exec (.polderBlockWrite t ch 0) s = .next ((((now.setChan k share).lateDrains k share).captureBlock k b).drainRecord k)
        ∧ exec (.polderBlockWrite t ch 1) s = .next (((((now.setChan k share).countCorrected 0).lateDrains k share).captureBlock k b).drainRecord k)
        ∧ exec (.polderBlockWrite t ch 2) s = .next (((((((now.setChan k share2).countUncorrected 0).faultLog 6 1
            (s.rd (Ob.chanSourceLink k) / 8) (((now.setChan k share2).chanOwners k).headD 0xFF) 0 k)).lateDrains k share2).captureBlock k spoilt).drainRecord k))
    ∧ (s.active n = true → (now.gate n k tag = .live ∨ now.gate n k tag = .wait) → exec (.conditionFlitReceive t nf ch tag words dis) s = .next (now.flitChanges n k tag dis 0 (words.take 16)))
    ∧ ((s.active n = false ∨ now.gate n k tag ≠ .live ∧ now.gate n k tag ≠ .wait) → exec (.conditionFlitReceive t nf ch tag words dis) s = .next now)
    ∧ (s.Ready → map.length ≠ 32 → exec (.clearLineFault t map) s = s.aborted t Abort.length)
    ∧ (s.Ready → map.length = 32 → exec (.clearLineFault t map) s =
        ((mapLines map).foldl (fun s l => s.setLine l { s.lineS l with fault := false }) now).accepted)
    ∧ (s.Ready → exec (.clearLog t) s = ({ now with trigLog := [] } : State).accepted)

/-- A pattern-unit write is refused while its Owner's commit is armed or ends, staged for an active Owner, and applied otherwise unless it breaks the fabric or a capture's look-back; a unit evaluates every condition time up to the present less its horizon. A trigger-output setting is checked, and disabling drops its waiting pulses; the earliest waiting pulse leaves at its time or merges with the one driven, which ends at its end unless prolonged. A lane sends its due primitive once, else the second's TimeMark once, else idle control blocks or under TestPattern PRBS31, and nothing without time; enabling the stream needs counting device time and a delay the horizons allow. -/
def Obligations.PatternsAndPulses : Prop :=
  ∀ (s : State) (t sub v : Nat) (uf : Fin 16) (kf : Fin 8) (lane : Fin 2) (d : Option (List (BitVec 8))) (p a : Nat × Nat) (e t0 t1 code : Nat),
    let now := s.advance t
    let u := uf.val
    let k := kf.val
    let i := lane.val
    let own := s.rd (Ob.patOwner u)
    let key := patKey u sub
    let put := now.patApply u key v d
    let risky := (decide (s.rd (Ob.patHorizon u) < put.rd (Ob.patHorizon u)) || patRaises sub v) && (put.fabricBroken || !put.lookCovered)
    let idle := s.rd (Ob.patEnable u) = 0 ∨ s.counts = false ∨ now.devNow < s.rd (Ob.patHorizon u)
    let run := (now.patTimes u (s.patS u).evalAt (now.patUpTo u)).foldl (fun s t => s.patAt u t) now
    let malformed := 2 ^ 64 ≤ v ∨ bits v 59 32 ≠ 0 ∨ (bit v 63 = true ∧ bits v 31 16 = 0) ∨ 4 * s.second < bits v 15 0 * 256 * 1000000
    let set := now.wr (Ob.condTrigOutConfig k) v
    let x := s.trigS k
    let merged := fun (a : Nat × Nat) => mergePulses x.waiting.length a.2 x.waiting
    let y := s.laneS i
    let up := if y.firstTick ≤ now.devNow then now.setQuad 35 0 else now
    let sec := up.devNow / up.second
    let mark := decide (y.firstTick ≤ sec * up.second) && y.lastMark != some sec && s.rd Ob.primTestPattern == 0
    let starts := (bit v 0 && !bit (s.rd Ob.primEnable) 0) || (bit v 1 && !bit (s.rd Ob.primEnable) 1)
    let en := (now.wr Ob.primEnable v).refreshFabric
    (s.Ready → patRange sub v d = some code → code ≠ Abort.range → exec (.patternUnitWrite t uf sub v d) s = s.aborted t code)
    ∧ (s.Ready → (patRange sub v d = none ∨ patRange sub v d = some Abort.range) →
        (s.patFrozen own = true → exec (.patternUnitWrite t uf sub v d) s = s.aborted t Abort.state)
        ∧ (s.patFrozen own = false → patRange sub v d = some Abort.range → exec (.patternUnitWrite t uf sub v d) s = s.aborted t Abort.range))
    ∧ (s.Ready → patRange sub v d = none → s.patFrozen own = false →
        (own < 64 → s.rd (Ob.slotState own) = 2 → exec (.patternUnitWrite t uf sub v d) s = (now.patStage own key v d).accepted)
        ∧ ((64 ≤ own ∨ s.rd (Ob.slotState own) ≠ 2) → risky = true → exec (.patternUnitWrite t uf sub v d) s = s.aborted t Abort.range)
        ∧ ((64 ≤ own ∨ s.rd (Ob.slotState own) ≠ 2) → risky = false → exec (.patternUnitWrite t uf sub v d) s = put.accepted))
    ∧ (idle → exec (.patternUnitEvaluate t uf) s = .next now)
    ∧ (¬ idle → exec (.patternUnitEvaluate t uf) s = .next (run.wr (Ob.patMatching u) (b2n (run.patS u).start.isSome)))
    ∧ (s.Ready → (malformed ∨ set.trigOutBreak ≠ none) → exec (.trigOutConfigWrite t kf v) s = s.aborted t Abort.range)
    ∧ (s.Ready → ¬ malformed → set.trigOutBreak = none → (bit v 63 = true → exec (.trigOutConfigWrite t kf v) s = set.accepted)
        ∧ (bit v 63 = false → exec (.trigOutConfigWrite t kf v) s = (set.setTrig k { x with waiting := [] }).accepted))
    ∧ ((firstPulse x.waiting = none ∨ (firstPulse x.waiting = some p ∧ now.devNow < p.1)) → exec (.trigOutEdge t kf) s = .next now)
    ∧ (firstPulse x.waiting = some p → p.1 ≤ now.devNow →
        (x.active = none → exec (.trigOutEdge t kf) s = .next
          ((now.setTrig k { waiting := x.waiting.erase p, active := some p }).emit (.trigOut k (now.trigLevel k true) p.1)))
        ∧ (x.active = some a → p.1 < a.2 + 256 → exec (.trigOutEdge t kf) s = .next (now.setTrig k { waiting := x.waiting.erase p, active := some (a.1, max a.2 p.2) }))
        ∧ (x.active = some a → a.2 + 256 ≤ p.1 → exec (.trigOutEdge t kf) s = .next now))
    ∧ ((x.active = none ∨ (x.active = some a ∧ now.devNow < a.2)) → exec (.trigOutPulseEnd t kf) s = .next now)
    ∧ (x.active = some a → a.2 ≤ now.devNow →
        (a.2 < (merged a).1 → exec (.trigOutPulseEnd t kf) s = .next (now.setTrig k { waiting := (merged a).2, active := some (a.1, (merged a).1) }))
        ∧ ((merged a).1 ≤ a.2 → exec (.trigOutPulseEnd t kf) s = .next ((now.setTrig k { x with active := none }).emit (.trigOut k (now.trigLevel k false) a.2))))
    ∧ ((bit (s.rd Ob.primEnable) i = false ∨ s.counts = false) → exec (.primitiveTick t lane) s = .next now)
    ∧ (bit (s.rd Ob.primEnable) i = true → s.counts = true → up.laneDue i = some (e, t0, t1) →
        ∃ u : State, u = up.setLane i { y with lastTick := some t1, triggers := y.triggers.filter fun q => decide (t1 ≤ q.2.1) }
        ∧ (s.rd Ob.primTestPattern ≠ 0 → exec (.primitiveTick t lane) s = .next (u.laneQuiet i))
        ∧ (s.rd Ob.primTestPattern = 0 → exec (.primitiveTick t lane) s = .next
            ((u.sendPrimitive i (up.dataPrimitive i (up.laneEvents i e t1)) (t0 + s.rd Ob.primDelayD)).bump (if i = 0 then Ob.primCountA else Ob.primCountB))))
    ∧ (bit (s.rd Ob.primEnable) i = true → s.counts = true → up.laneDue i = none →
        (mark = true → exec (.primitiveTick t lane) s = .next ((up.setLane i { y with lastMark := some sec }).sendPrimitive i (up.timeMark sec) up.devNow))
        ∧ (mark = false → exec (.primitiveTick t lane) s = .next (up.laneQuiet i)))
    ∧ (s.Ready → starts = true → s.counts = false → exec (.primitiveStreamEnable t v) s = s.aborted t Abort.state)
    ∧ (s.Ready → (starts = false ∨ s.counts = true) → 4 ≤ v → exec (.primitiveStreamEnable t v) s = s.aborted t Abort.range)
    ∧ (s.Ready → starts = true → s.counts = true → v < 4 → (en.minDBreak ≠ none ∨ en.chargeBreak ≠ none) → exec (.primitiveStreamEnable t v) s = s.aborted t Abort.range)
    ∧ (s.Ready → (starts = false ∨ (s.counts = true ∧ en.minDBreak = none ∧ en.chargeBreak = none)) → v < 4 → exec (.primitiveStreamEnable t v) s =
        ((en.laneSwitch (s.rd Ob.primEnable) v 0).laneSwitch (s.rd Ob.primEnable) v 1).accepted)

/-- A write of Enable to its present value changes nothing. Disabling ends at the frame's end, else at once. Enabling aborts with bad timing, notes and aborts with the first failing charge, and otherwise binds a channel unless the display is still closing, starts training or waits for a sink, and recharges. A commit needs a valid buffer, supersedes the one waiting, is counted late when it misses the frame, and waits with its time. Frames start at their time in Active, or in PSR with a commit; a frame in progress ends with the link's CRC. A sink appearing starts training, its loss retrains; a third failed training ends in state 4; ClearFlags zeroes the display's counters. -/
def Obligations.DisplayLifecycle : Prop :=
  ∀ (s : State) (t k c code crc : Nat) (rate : Fin 8) (caps : List (BitVec 8)) (psr : Bool),
    let now := s.advance t
    let n := s.rd Ob.dispEnable
    let noted := now.noted Ob.dispCommit
    let counted := if noted.disp.pending.isSome then noted.bump Ob.dispSuperseded else noted
    let late := (counted.wr Ob.dispCommitLate 1).bump Ob.dispLateCount
    let waits := fun (u : State) => ({ u with disp := { u.disp with pending := some (k, now.devNow) } } : State)
    let start := now.nextStart
    let runs := s.rd Ob.dispState = 2 ∨ (s.rd Ob.dispState = 3 ∧ s.disp.pending ≠ none)
    let plug := fun (p : Bool) => ({ now with disp := { s.disp with hpd := p } } : State)
    let trained := ({ ((now.wr Ob.dispState 2).setDom Ob.dispSinkCaps (caps.take 16)).setQuad 34 0 with disp := { s.disp with
          resume := true, inFrame := false, trainFails := 0, psrSink := psr, rate := min rate (s.rd Ob.dispMaxLinkRate) } } : State)
    let failed := ({ now with disp := { s.disp with trainFails := s.disp.trainFails + 1 } } : State)
    let training := s.rd Ob.dispState = 1 ∧ s.disp.hpd = true
    (s.Ready → (n ≠ 0 → exec (.displayEnable t true) s = now.accepted) ∧ (n = 0 → exec (.displayEnable t false) s = now.accepted))
    ∧ (s.Ready → n ≠ 0 → s.disp.inFrame = true → exec (.displayEnable t false) s =
        ({ now.wr Ob.dispEnable 0 with disp := { s.disp with closing := true } } : State).accepted)
    ∧ (s.Ready → n ≠ 0 → s.disp.inFrame = false →
        exec (.displayEnable t false) s = (now.wr Ob.dispEnable 0).displayOff.accepted)
    ∧ (s.Ready → n = 0 → s.timingOk = false → exec (.displayEnable t true) s = s.aborted t Abort.range)
    ∧ (s.Ready → n = 0 → s.timingOk = true → s.fetchRefusal = some code → exec (.displayEnable t true) s = .next ((now.wr Ob.dispLastRefusal code).respond Abort.state))
    ∧ (s.Ready → n = 0 → s.timingOk = true → s.fetchRefusal = none → s.freeChannel = some c → ∃ u : State,
        u = ((if s.disp.closing then now else now.bindChannel c 2 0 4 0 now.fetchCharge 12).displayUp now.fetchCharge now.fetchPower).recharge
        ∧ exec (.displayEnable t true) s = u.accepted)
    ∧ (s.Ready → (4 ≤ k ∨ (bufDesc (s.dom Ob.dispBuffers) k).valid = false) → exec (.displayCommit t k) s = s.aborted t Abort.range)
    ∧ (s.Ready → k < 4 → (bufDesc (s.dom Ob.dispBuffers) k).valid = true →
        (noted.commitMisses now.devNow = false → exec (.displayCommit t k) s = (waits counted).accepted)
        ∧ (noted.commitMisses now.devNow = true → exec (.displayCommit t k) s = (waits late).accepted))
    ∧ ((n = 0 ∨ ¬ runs ∨ now.devNow < start.1) → exec (.frameStart t) s = .next now)
    ∧ (n ≠ 0 → runs → start.1 ≤ now.devNow → exec (.frameStart t) s = .next (now.frameStart start.1 start.2))
    ∧ (s.disp.inFrame = true → exec (.displayFrameEnd t crc) s = .next (now.frameEnd crc))
    ∧ (s.disp.inFrame = false → exec (.displayFrameEnd t crc) s = .next now)
    ∧ ((n = 0 ∨ s.rd Ob.dispState ≠ 4) → exec (.hpdChange t true) s = .next (plug true))
    ∧ (n ≠ 0 → s.rd Ob.dispState = 4 → exec (.hpdChange t true) s = .next ((plug true).wr Ob.dispState 1))
    ∧ (n = 0 → exec (.hpdChange t false) s = .next (plug false))
    ∧ (n ≠ 0 → exec (.hpdChange t false) s = .next ((plug false).displayRetrain))
    ∧ (¬ training → ∀ o, exec (.displayLinkTrained t o rate caps psr) s = .next now)
    ∧ (training → s.displayChannel = some c → exec (.displayLinkTrained t true rate caps psr) s = .next (trained.xferCause c 0 false))
    ∧ (training → s.displayChannel = none → exec (.displayLinkTrained t true rate caps psr) s = .next trained)
    ∧ (training → s.disp.trainFails < 2 → exec (.displayLinkTrained t false rate caps psr) s = .next failed)
    ∧ (training → 2 ≤ s.disp.trainFails → exec (.displayLinkTrained t false rate caps psr) s = .next (failed.wr Ob.dispState 4))
    ∧ (s.Ready → exec (.displayClearFlags t) s = (now.wrs [(Ob.dispCommitLate, 0), (Ob.dispLateCount, 0), (Ob.dispSuperseded, 0),
        (Ob.dispCrcMismatches, 0), (Ob.dispUnderruns, 0)]).accepted)

/-- A map update whose turn has come leaves the queue and is applied. A due tick of a bound map runs once its updates are current and no snapshot copy runs. A finished snapshot copy publishes its sequence number, state 3 and time, and starts a render of the cells it holds when one is asked for and none runs; a finished render publishes its sequence number. Snapshot and Clear need a bound map with a sweep, the snapshot one that may start; both keep the requested time. HostReserve is checked for form, lost read regions and space, and transfers outside it end with an error. -/
def Obligations.MapsAndReserve : Prop :=
  ∀ (s : State) (t T q time : Nat) (map : Fin 4) (b : List (BitVec 8)) (m : MapIn),
    let now := s.advance t
    let k := map.val
    let x := s.mapS k
    let seq := (s.rd (Ob.mapSnapshotSeq k) + 1) % 2 ^ 32
    let bound := s.rd (Ob.mapBoundSlot k) < 64 ∧ s.rd (Ob.mapSweepPeriod k) ≠ 0
    let free := s.rd (Ob.mapSnapshotEnable k) ≠ 0 ∧ x.snapAt = none ∧ x.copying = none
    let published := fun (r : Option Nat) (cells : List Nat) => (((now.setMap k { x with
        copying := none, slices := x.slices.map (fun i => { i with reset := false }), rendering := r, shot := cells }).wrs
        [(Ob.mapSnapshotSeq k, seq), (Ob.mapSnapshotState k, 3), (Ob.mapSnapshotTime k, now.stamp T)]).sliceTable k)
    let drawn := now.drawMap k x.columns
    (x.queue.find? (now.mapTurn k) = none → exec (.mapUpdate t map) s = .next now)
    ∧ (x.queue.find? (now.mapTurn k) = some m → exec (.mapUpdate t map) s = .next ((now.setMap k { x with queue := x.queue.erase m }).mapApply k m))
    ∧ ((s.nextTick k = none ∨ (s.nextTick k = some T ∧ (64 ≤ s.rd (Ob.mapBoundSlot k) ∨ now.devNow < T ∨ x.copying ≠ none ∨ now.mapCurrent k T = false))) →
        exec (.sweepTick t map) s = .next now)
    ∧ (s.nextTick k = some T → s.rd (Ob.mapBoundSlot k) < 64 → T ≤ now.devNow → x.copying = none → now.mapCurrent k T = true →
        exec (.sweepTick t map) s = .next (now.mapTick k T))
    ∧ (x.copying = none → exec (.snapshotCopyComplete t map) s = .next now)
    ∧ (x.copying = some T → s.renderStarts k = true → exec (.snapshotCopyComplete t map) s = .next (published (some seq) (now.shadowCells k)))
    ∧ (x.copying = some T → s.renderStarts k = false → exec (.snapshotCopyComplete t map) s = .next (published x.rendering x.shot))
    ∧ (x.rendering = none → exec (.renderComplete t map) s = .next now)
    ∧ (x.rendering = some q → exec (.renderComplete t map) s = .next ((drawn.setMap k { drawn.mapS k with rendering := none, shot := [] }).wr (Ob.mapRenderSeq k) q))
    ∧ (s.Ready → ¬ (bound ∧ free) → exec (.mapSnapshot t map time) s = s.aborted t Abort.state)
    ∧ (s.Ready → bound → free → exec (.mapSnapshot t map time) s =
        ((now.setMap k { x with snapAt := some (now.requested time) }).wr (Ob.mapSnapshotState k) 1).accepted)
    ∧ (s.Ready → ¬ bound → exec (.mapClear t map time) s = s.aborted t Abort.state)
    ∧ (s.Ready → bound → exec (.mapClear t map time) s = ((now.noted (Ob.mapClear k)).setMap k { (now.noted (Ob.mapClear k)).mapS k with
        clearAt := some (now.requested time) }).accepted)
    ∧ (s.Ready → (b.length % 16 ≠ 0 ∨ 256 < b.length) → exec (.hostReserveWrite t b) s = s.aborted t Abort.length)
    ∧ (s.Ready → b.length % 16 = 0 → b.length ≤ 256 → s.readRegionLost b = true → exec (.hostReserveWrite t b) s = s.aborted t Abort.state)
    ∧ (s.Ready → b.length % 16 = 0 → b.length ≤ 256 → s.readRegionLost b = false → s.reserveOk b = false → exec (.hostReserveWrite t b) s = s.aborted t Abort.range)
    ∧ (s.Ready → b.length % 16 = 0 → b.length ≤ 256 → s.readRegionLost b = false → s.reserveOk b = true → exec (.hostReserveWrite t b) s =
        ((List.range 32).foldl State.reserveLost (now.setDom Ob.hbmHostReserve b).recount).accepted)

/-- The next frame of a spectrum, of a channelizer bank and of both pulse stages waits for its grid, for its samples, for what comes before it at its boundary and for the turn of a slot it replaces; then the bank, the frame, the selection or the measurement runs live, runs muted without output, or is passed over, in a declared gap of a bank with the gap's output, and the position and the drains move on; a selection that is not live is judged without output, and in a gap of its stage not at all. A pulse measure frame also waits until its triggers are decided. A prototype and a user window are loaded with their gains when their coefficients are valid and answer 0x4F otherwise. ClearCounters empties a slot's pulse counters. -/
def Obligations.ModeFrames : Prop :=
  ∀ (s : State) (t c : Nat) (nf ch : Fin 64) (inf : Fin 256) (uf : Fin 4) (o : Nat × Nat) (l : List (Nat × Nat × Nat)),
    let now := s.advance t
    let n := nf.val
    let k := ch.val
    let i := inf.val
    let u := uf.val
    let mine := bit (s.rd (Ob.slotChannelMask n)) k
    let m := tget (dconst 0) (s.pipeS n).frame k
    let spec := leNat (now.chainGeom n)
    let at1 := o.1 + m * spHop spec
    let tag := (l.headD (0, 0, 0)).1
    let gateS := now.inTurn n (fun o => now.pendingTag o k) (now.gate n k tag)
    let specOn := fun (v : State) => (v.nextFrame n k o).drained n k 0 (at1 + spHop spec)
    let bank := now.sieveHead n
    let old := tget (dconst []) (s.pipeS n).hist k
    let all := old ++ l
    let tagB := (all.headD (0, 0, 0)).1
    let gateB := now.routesInTurn n bank (now.inTurn n (fun o => now.pendingTag o k) (now.gate n k tagB))
    let bankOn := fun (v : State) => ((v.setPipe n { v.pipeS n with hist := tset (dconst []) (v.pipeS n).hist k (all.drop (svHop bank)) }).nextFrame n k o).drained
        n k 0 (o.1 + m * svHop bank + svSpan bank)
    let puIn := puInputs (now.pulseHead n)
    let pv := now.pulseAdopt n i
    let e := pv.pulseEntry n i
    let sel := pv.selectNew n i l
    let tagS := (sel.headD (0, 0, 0)).1
    let gapS := pv.inGap n i tagS
    let gateP := pv.inTurn n (fun o => (pv.sameInput o n i).bind (pv.pendingTag o)) (pv.gateOn n i tagS gapS)
    let judged := fun (live : Bool) => pv.selectFrame n i live (pv.selectRule n i l) (pv.selFirst n i) (sel.map fun x => x.1)
    let selOn := fun (v : State) => if enRoute e then v.nextFrame n i o
        else (v.nextFrame n i o).drained n (enNumber e) 0 (o.1 + (pv.selFirst n i + puNew (now.pulseHead n) - pv.selBack n i))
    let gateM := now.gateOn n i tag (now.inMeasureGap n i tag)
    let measOn := fun (v : State) => v.measureNext n i (now.measFirst n i) o
    let pOk := coefficientsOk (s.rd (Ob.protoLength u) % 16 == 0 && decide (16 ≤ s.rd (Ob.protoLength u)) && decide (s.rd (Ob.protoLength u) ≤ 65536))
        (s.rd (Ob.protoLength u)) (s.dom (Ob.protoCoefficients u))
    let wOk := coefficientsOk (isPow2 (s.rd (Ob.uwinLength u)) && decide (256 ≤ s.rd (Ob.uwinLength u)) && decide (s.rd (Ob.uwinLength u) ≤ 65536))
        (s.rd (Ob.uwinLength u)) (s.dom (Ob.uwinCoefficients u))
    let pw := coefficients (s.dom (Ob.protoCoefficients u))
    let ww := coefficients (s.dom (Ob.uwinCoefficients u))
    ((s.chainMode n ≠ 1 ∨ mine = false ∨ now.gridOrigin n k = none) → exec (.spectrumFrame t nf ch) s = .next now)
    ∧ ((s.chainMode n ≠ 2 ∨ mine = false ∨ now.gridOrigin n k = none) → exec (.channelizeFrame t nf ch) s = .next now)
    ∧ (s.chainMode n = 1 → mine = true → now.gridOrigin n k = some o →
        (now.inputAt n k at1 (2 ^ spLog spec) = none → exec (.spectrumFrame t nf ch) s = .next now)
        ∧ (now.inputAt n k at1 (2 ^ spLog spec) = some l →
            (gateS = .wait → exec (.spectrumFrame t nf ch) s = .next now)
            ∧ (gateS = .skip → exec (.spectrumFrame t nf ch) s = .next (specOn now))
            ∧ (gateS = .mute → exec (.spectrumFrame t nf ch) s = .next (specOn (now.tookFrame n tag)))
            ∧ (gateS = .live → exec (.spectrumFrame t nf ch) s = .next
                (specOn ((now.specFrame n k m tag (frameFlags l) (l.map fun x => x.2.1)).tookFrame n tag)))))
    ∧ (s.chainMode n = 2 → mine = true → now.gridOrigin n k = some o →
        (now.inputAt n k (o.1 + m * svHop bank + old.length) (svSpan bank - old.length) = none → exec (.channelizeFrame t nf ch) s = .next now)
        ∧ (now.inputAt n k (o.1 + m * svHop bank + old.length) (svSpan bank - old.length) = some l →
            (gateB = .wait → exec (.channelizeFrame t nf ch) s = .next now)
            ∧ (gateB = .skip → now.inGap n k tagB = true → exec (.channelizeFrame t nf ch) s = .next (bankOn (now.sieveGap n k tagB)))
            ∧ (gateB = .skip → now.inGap n k tagB = false → exec (.channelizeFrame t nf ch) s = .next (bankOn now))
            ∧ (gateB = .mute → exec (.channelizeFrame t nf ch) s = .next (bankOn (now.tookFrame n tagB)))
            ∧ (gateB = .live → exec (.channelizeFrame t nf ch) s = .next
                (bankOn ((now.sieveFrame n k m tagB (frameFlags all) (all.map fun x => x.2.1)).tookFrame n tagB)))))
    ∧ ((s.chainMode n ≠ 3 ∨ puIn ≤ i) → exec (.pulseSelectFrame t nf inf) s = .next now)
    ∧ (s.chainMode n = 3 → i < puIn → pv.pulseGrid n i = none → exec (.pulseSelectFrame t nf inf) s = .next pv)
    ∧ (s.chainMode n = 3 → i < puIn → pv.pulseGrid n i = some o →
        (pv.selectIn n i o = none → exec (.pulseSelectFrame t nf inf) s = .next pv)
        ∧ (pv.selectIn n i o = some l →
            (gateP = .wait → exec (.pulseSelectFrame t nf inf) s = .next pv)
            ∧ (gateP = .skip → gapS = true → exec (.pulseSelectFrame t nf inf) s = .next (selOn pv))
            ∧ (gateP = .skip → gapS = false → exec (.pulseSelectFrame t nf inf) s = .next (selOn (judged false)))
            ∧ (gateP = .mute → exec (.pulseSelectFrame t nf inf) s = .next (selOn ((judged false).tookFrame n tagS)))
            ∧ (gateP = .live → exec (.pulseSelectFrame t nf inf) s = .next (selOn ((judged true).tookFrame n tagS)))))
    ∧ ((s.chainMode n ≠ 3 ∨ puIn ≤ i ∨ tget (dconst none) (s.pipeS n).origin i = none) → exec (.pulseMeasureFrame t nf inf) s = .next now)
    ∧ (s.chainMode n = 3 → i < puIn → tget (dconst none) (s.pipeS n).origin i = some o →
        (now.measureIn n i o = none → exec (.pulseMeasureFrame t nf inf) s = .next now)
        ∧ (now.measureIn n i o = some l →
            ((gateM = .wait ∨ now.measureDecided n i = false) → exec (.pulseMeasureFrame t nf inf) s = .next now)
            ∧ (now.measureDecided n i = true → gateM = .live → exec (.pulseMeasureFrame t nf inf) s = .next
                (measOn (now.measureFrame n i o (now.measureTrigs n i))))
            ∧ (now.measureDecided n i = true → (gateM = .skip ∨ gateM = .mute) → exec (.pulseMeasureFrame t nf inf) s = .next (measOn now))))
    ∧ (s.Ready → 64 ≤ c → exec (.pulseClearCounters t c) s = s.aborted t Abort.range)
    ∧ (s.Ready → c < 64 → exec (.pulseClearCounters t c) s = (now.setPipe c { s.pipeS c with counts := [] }).accepted)
    ∧ (s.Ready → pOk = false → exec (.sieveLoad t uf) s = ((now.noted (Ob.protoLoad u)).wrs [(Ob.protoLoad u, 0x4F), (Ob.protoLoaded u, 0)]).accepted)
    ∧ (s.Ready → pOk = true → exec (.sieveLoad t uf) s = ((now.noted (Ob.protoLoad u)).wrs [(Ob.protoLoad u, 0), (Ob.protoLoaded u, 1),
        (Ob.protoDcGain u, (sum1 pw).toNat), (Ob.protoEnbwTaps u, roundUp (1000 * s.rd (Ob.protoLength u) * (sum2 pw).toNat) ((sum1 pw).toNat * (sum1 pw).toNat))]).accepted)
    ∧ (s.Ready → wOk = false → exec (.userWindowLoad t uf) s = ((now.noted (Ob.uwinLoad u)).wrs [(Ob.uwinLoad u, 0x4F), (Ob.uwinLoaded u, 0)]).accepted)
    ∧ (s.Ready → wOk = true → exec (.userWindowLoad t uf) s = ((now.noted (Ob.uwinLoad u)).wrs [(Ob.uwinLoad u, 0), (Ob.uwinLoaded u, 1),
        (Ob.uwinCoherentGain u, roundUp (1000000 * (sum1 ww).toNat) (131071 * s.rd (Ob.uwinLength u))),
        (Ob.uwinEnbw u, roundUp (1000 * s.rd (Ob.uwinLength u) * (sum2 ww).toNat) ((sum1 ww).toNat * (sum1 ww).toNat)),
        (Ob.uwinPeakGain u, roundUp (1000 * (sumAbs ww).toNat) (sum1 ww).toNat)]).accepted)

/-- A port moves from Detect to Train when its partner is present, on with its lanes' figures of merit when all reach 64, through Lock into Exchange with its record sent, and through the exchange of records, which a Held port repeats. A stage's timeout fails it, a failed port retries, and an Active one retrains when asked or when its link degrades. -/
def Obligations.JoinLinks : Prop :=
  ∀ (s : State) (t : Nat) (pf : Fin 4) (foms : List Nat) (copies : List (List (BitVec 8))),
    let now := s.advance t
    let k := pf.val
    let st := s.rd (Ob.joinState k)
    let fom := (List.range 8).map fun i => foms.getD i 0 % 256
    let good := (st = 2 ∨ st = 7) ∧ fom.all (fun f => decide (64 ≤ f)) = true
    (st = 1 → exec (.joinDetect t pf) s = .next (now.wr (Ob.joinState k) 2))
    ∧ (st ≠ 1 → exec (.joinDetect t pf) s = .next now)
    ∧ (good → exec (.joinTrainingDone t pf foms) s = .next ((now.setDom (Ob.joinLaneFom k) (fom.map fun f => BitVec.ofNat 8 f)).wr (Ob.joinState k) 3))
    ∧ (¬ good → exec (.joinTrainingDone t pf foms) s = .next now)
    ∧ (st = 3 → exec (.joinLock t pf) s = .next ((now.wr (Ob.joinState k) 4).sendRecord k))
    ∧ (st ≠ 3 → exec (.joinLock t pf) s = .next now)
    ∧ ((st = 4 ∨ st = 6) → exec (.joinExchange t pf copies) s = .next (now.exchange k copies))
    ∧ (¬ (st = 4 ∨ st = 6) → exec (.joinExchange t pf copies) s = .next now)
    ∧ (st = 5 → exec (.joinHeldReexchange t pf copies) s = .next ((now.sendRecord k).exchange k copies))
    ∧ (st ≠ 5 → exec (.joinHeldReexchange t pf copies) s = .next now)
    ∧ ((st = 2 ∨ st = 3 ∨ st = 4 ∨ st = 7) → exec (.joinStageTimeout t pf) s = .next (now.joinFail k))
    ∧ (¬ (st = 2 ∨ st = 3 ∨ st = 4 ∨ st = 7) → exec (.joinStageTimeout t pf) s = .next now)
    ∧ (st = 9 → exec (.joinFailedRetry t pf) s = .next (now.wr (Ob.joinState k) 1))
    ∧ (st ≠ 9 → exec (.joinFailedRetry t pf) s = .next now)
    ∧ (s.Ready → (st = 6 → exec (.joinRetrain t pf) s = (now.retrainPort k).accepted) ∧ (st ≠ 6 → exec (.joinRetrain t pf) s = now.accepted))
    ∧ (st = 6 → exec (.joinLinkDegrade t pf) s = .next (now.retrainPort k))
    ∧ (st ≠ 6 → exec (.joinLinkDegrade t pf) s = .next now)

/-- A direction sleeps from Active when nothing uses it and wakes again. Test mode needs an unused port; the PRBS checker locks a lane's bit in it. ClearCounters zeroes the port's counters; Calibrate retrains the active ports in turn unless the array's only route runs over one; assumption 5 clears after one quiet second. -/
def Obligations.JoinUpkeep : Prop :=
  ∀ (s : State) (t v : Nat) (pf : Fin 4) (rx : Bool) (laneF : Fin 8) (l : List Nat),
    let now := s.advance t
    let k := pf.val
    let st := s.rd (Ob.joinState k)
    let quiet := s.rd (Ob.joinSleepEnable k) ≠ 0 ∧ s.rd (Ob.joinBulkCharged k) = 0 ∧ s.directionUsed k false = false ∧ (s.portS k).unacked = []
    let act := (List.range 4).filter fun k => s.rd (Ob.joinState k) == 6
    let cal := fun (l : List Nat) => ({ now with arr := { s.arr with calib := some l } } : State)
    let free := s.joinUsed k = false ∧ s.rd (Ob.joinBulkCharged k) = 0
    ((st ≠ 6 ∨ (rx = false ∧ ¬ quiet)) → exec (.directionSleep t pf rx) s = .next now)
    ∧ (st = 6 → exec (.directionSleep t pf true) s = .next (now.wr (Ob.joinRxSleep k) 1))
    ∧ (st = 6 → quiet → exec (.directionSleep t pf false) s = .next (now.wr (Ob.joinTxSleep k) 1))
    ∧ exec (.directionWakeComplete t pf true) s = .next (now.wr (Ob.joinRxSleep k) 0)
    ∧ (s.rd (Ob.joinTxSleep k) = 2 → exec (.directionWakeComplete t pf false) s = .next (now.wr (Ob.joinTxSleep k) 0))
    ∧ (s.rd (Ob.joinTxSleep k) ≠ 2 → exec (.directionWakeComplete t pf false) s = .next now)
    ∧ (s.Ready → ¬ free → exec (.joinTestMode t pf v) s = s.aborted t Abort.state)
    ∧ (s.Ready → free → 2 ≤ v → exec (.joinTestMode t pf v) s = s.aborted t Abort.range)
    ∧ (s.Ready → free → v < 2 → v = s.rd (Ob.joinTestMode k) → exec (.joinTestMode t pf v) s = now.accepted)
    ∧ (s.Ready → free → 1 ≠ s.rd (Ob.joinTestMode k) → exec (.joinTestMode t pf 1) s =
        ((now.leaveActive k 8).wrs [(Ob.joinTestMode k, 1), (Ob.joinPrbsLock k, 0)]).accepted)
    ∧ (s.Ready → free → 0 ≠ s.rd (Ob.joinTestMode k) → exec (.joinTestMode t pf 0) s =
        ((now.prbsStop k).wrs [(Ob.joinTestMode k, 0), (Ob.joinPrbsLock k, 0), (Ob.joinState k, 2)]).accepted)
    ∧ (st = 8 → exec (.prbsCheckerLock t pf laneF) s = .next ((now.wr (Ob.joinPrbsLock k) (setBit (s.rd (Ob.joinPrbsLock k)) laneF true)).setPort k
        { s.portS k with prbsSince := some ((s.portS k).prbsSince.getD now.now) }))
    ∧ (st ≠ 8 → exec (.prbsCheckerLock t pf laneF) s = .next now)
    ∧ (s.Ready → exec (.joinClearCounters t pf) s = (((now.wrs [(Ob.joinBoundedSingle k, 0), (Ob.joinBoundedLost k, 0), (Ob.joinBulkReplays k, 0), (Ob.joinRetrains k, 0),
        (Ob.joinPrbsBits k, 0)]).setDom (Ob.joinPrbsErrors k) (List.replicate 64 0)).setPort k
        { s.portS k with prbsSince := (s.portS k).prbsSince.map fun _ => now.now }).accepted)
    ∧ (s.Ready → s.soleRoute = true → exec (.joinCalibrate t) s = s.aborted t Abort.state)
    ∧ (s.Ready → s.soleRoute = false → act = [] → exec (.joinCalibrate t) s = (cal []).accepted)
    ∧ (s.Ready → s.soleRoute = false → act = v :: l → exec (.joinCalibrate t) s = ((cal (v :: l)).retrainPort v).accepted)
    ∧ (s.arr.lossAt + s.second ≤ now.now → exec (.joinAssumptionFlagClear t) s = .next
        (now.wr Ob.admAssumptionFlags (setBit (s.rd Ob.admAssumptionFlags) 4 false)))
    ∧ (now.now < s.arr.lossAt + s.second → exec (.joinAssumptionFlagClear t) s = .next now)

/-- A bad bulk frame is refused; a good one returns acknowledgements and credits and is acknowledged in sequence, replays being counted, a second one of a frame a link loss, a sixteenth a retraining. A bounded slot whose copies fail or disagree loses its origins; one good copy is counted and used, relayed and kept in an array. A line's change and state and a TimeSync that come first are used once, whatever their copies; a child sends its TimeSync and a parent answers within 2^24 u_T. Silence is judged for a position of the array. -/
def Obligations.ArrayTraffic : Prop :=
  ∀ (s : State) (t seq ack credits copyA copyB : Nat) (pf : Fin 4) (posF : Fin 8) (adm nack : Bool) (m : Nat × Nat × Nat) (u : State) (q : Nat × Nat),
    let now := s.advance t
    let k := pf.val
    let st := s.rd (Ob.joinState k)
    let x := s.portS k
    let again := nack && !(x.acked ack).isEmpty
    let left := if again then (x.acked ack).map (· + 1) else x.acked ack
    let inOrder := seq == x.rxNext
    let gA := bmsgOk copyA
    let gB := bmsgOk copyB
    let single := fun (w : Nat) (v : State) => if bType w = 0 ∨ 4 < bType w ∨ s.inArray = false then v else v.boundedIn k w
    let o := bOrigin m.2.2
    let w := m.2.2
    let heard := u.syncHeard o w
    let used := heard.syncAnswer m.1 m.2.1 w
    let answered := heard.answerChild m.1 o w (heard.devNow - m.2.1)
    let prompt := heard.childPort m.1 = true ∧ heard.devNow - m.2.1 < 2 ^ 24 ∧ heard.rd (Ob.joinState m.1) = 6
    (st ≠ 6 → exec (.bulkFrameReceive t pf seq ack credits adm true nack) s = .next now ∧ exec (.bulkFrameReceive t pf seq ack credits adm false nack) s = .next now
        ∧ exec (.boundedSlotReceive t pf copyA copyB) s = .next now)
    ∧ (st = 6 → exec (.bulkFrameReceive t pf seq ack credits adm false nack) s = .next (now.emit (.bulkAck k x.rxNext false))
        ∧ exec (.bulkFrameReceive t pf seq ack credits adm true nack) s = .next (((now.setPort k (x.bulkIn left seq credits adm again)).emit
            (.bulkAck k (if inOrder then seq else x.rxNext) inOrder)).replayed k left again))
    ∧ (st = 6 → ((gA = false ∧ gB = false) ∨ (gA = true ∧ gB = true ∧ copyA ≠ copyB)) → exec (.boundedSlotReceive t pf copyA copyB) s = .next
        ((now.originsVia k).foldl (fun s o => s.loseOrigin o) (now.bump (Ob.joinBoundedLost k)).linkLoss))
    ∧ (st = 6 → gA = true → gB = true → copyA = copyB → exec (.boundedSlotReceive t pf copyA copyB) s = .next (single copyA now))
    ∧ (st = 6 → gA = true → gB = false → exec (.boundedSlotReceive t pf copyA copyB) s = .next (single copyA (now.bump (Ob.joinBoundedSingle k))))
    ∧ (st = 6 → gA = false → gB = true → exec (.boundedSlotReceive t pf copyA copyB) s = .next (single copyB (now.bump (Ob.joinBoundedSingle k))))
    ∧ (now.takeMsg (fun w => bType w == 1) = (none, u) → exec (.lineChange t) s = .next u)
    ∧ (now.takeMsg (fun w => bType w == 1) = (some m, u) → ((u.posS o).fresh w).1 = false → exec (.lineChange t) s = .next u)
    ∧ (now.takeMsg (fun w => bType w == 1) = (some m, u) → ((u.posS o).fresh w).1 = true → exec (.lineChange t) s = .next (u.changeIn o w ((u.posS o).fresh w).2))
    ∧ (now.takeMsg (fun w => bType w == 2) = (none, u) → exec (.lineState t) s = .next u)
    ∧ (now.takeMsg (fun w => bType w == 2) = (some m, u) → ((u.posS o).fresh w).1 = false → exec (.lineState t) s = .next u)
    ∧ (now.takeMsg (fun w => bType w == 2) = (some m, u) → ((u.posS o).fresh w).1 = true → exec (.lineState t) s = .next (u.stateIn o w))
    ∧ (s.inArray = false → exec (.lineStateSend t) s = .next now)
    ∧ (s.inArray = true → exec (.lineStateSend t) s = .next ((now.sendGroup (now.devNow - now.exportLag) 0).sendGroup (now.devNow - now.exportLag) 1))
    ∧ (now.takeMsg (fun w => bType w == 3) = (none, u) → exec (.timeSync t) s = .next u)
    ∧ (now.takeMsg (fun w => bType w == 3) = (some m, u) →
        (heard.parentPort = some m.1 → used.rd Ob.arrArrayState = 1 → exec (.timeSync t) s = .next used.tryForm)
        ∧ (heard.parentPort = some m.1 → used.rd Ob.arrArrayState ≠ 1 → exec (.timeSync t) s = .next (used.judgeAll true))
        ∧ (heard.parentPort ≠ some m.1 → ¬ prompt → exec (.timeSync t) s = .next heard)
        ∧ (heard.parentPort ≠ some m.1 → prompt → answered.rd Ob.arrArrayState = 1 → exec (.timeSync t) s = .next answered.tryForm)
        ∧ (heard.parentPort ≠ some m.1 → prompt → answered.rd Ob.arrArrayState ≠ 1 → answered.parentPort = none → exec (.timeSync t) s = .next (answered.judgeAll true))
        ∧ (heard.parentPort ≠ some m.1 → prompt → answered.rd Ob.arrArrayState ≠ 1 → answered.parentPort ≠ none → exec (.timeSync t) s = .next answered))
    ∧ ((s.parentPort = none ∨ s.counts = false ∨ ∃ k, s.parentPort = some k ∧ (s.partner k = none ∨ s.rd (Ob.joinState k) ≠ 6)) → exec (.timeSyncSend t) s = .next now)
    ∧ (s.parentPort = some k → s.partner k = some q → st = 6 → s.counts = true → ∃ (v : State) (sq : Nat), (sq, v) = now.nextSeq 3 ∧
        exec (.timeSyncSend t) s = .next ((v.setPort k { v.portS k with sent := ((sq, now.devNow) :: (v.portS k).sent).take 64 }).emit
          (.bounded k (bmsg 3 s.arr.pos q.1 false sq (now.syncPayload 0 (v.portS k).parentSeq)))))
    ∧ (s.inArray = true → posF.val < cfgCount s.arr.config → s.rd Ob.arrArrayState ≠ 1 → exec (.timedTimeout t posF) s = .next ((now.judge false posF).refreshArray))
    ∧ ((s.inArray = false ∨ cfgCount s.arr.config ≤ posF.val ∨ s.rd Ob.arrArrayState = 1) → exec (.timedTimeout t posF) s = .next now)

/-- Imports are checked in order for their length, lines that another unit drives, reserved octets and the bounds of the fabric, and then kept. Apply needs an idle device, answers 0x4F to a configuration that cannot form, and forms the array from its ports. -/
def Obligations.ArrayForming : Prop :=
  ∀ (s : State) (t : Nat) (b : List (BitVec 8)),
    let now := s.advance t
    let es := importList b
    let clash := (es.any fun e => (s.lineS e.1).cls == 1 || (s.lineS e.1).cls == 2) || !decide (es.map fun e => e.1).Nodup
    let odd := ((List.range es.length).any fun i => leAt b (4 * i) 1 != 0) || es.any fun e => decide (8 ≤ e.2.1)
    let imp := now.importsSet b
    let c := s.dom Ob.arrArrayConfig
    let idle := s.anyAdmitted = false ∧ s.anyTdc = false ∧ s.imports = [] ∧ s.stepForbiddenBase = false
    let formed := ({ now with posn := [], arr := { s.arr with config := c, pos := s.rd Ob.arrPosition, applyResult := some 0, inbox := [], commit := none } } : State).wrs
        [(Ob.arrArrayState, 1), (Ob.arrConfigDigest, crc32 c)]
    (s.Ready → (b.length % 4 ≠ 0 ∨ 256 < b.length) → exec (.importsWrite t b) s = s.aborted t Abort.length)
    ∧ (s.Ready → b.length % 4 = 0 → b.length ≤ 256 → clash = true → exec (.importsWrite t b) s = s.aborted t Abort.state)
    ∧ (s.Ready → b.length % 4 = 0 → b.length ≤ 256 → clash = false → (odd = true ∨ imp.exportBreak ≠ none) → exec (.importsWrite t b) s = s.aborted t Abort.range)
    ∧ (s.Ready → b.length % 4 = 0 → b.length ≤ 256 → clash = false → odd = false → imp.exportBreak = none →
        (imp.fabricBroken = true → exec (.importsWrite t b) s = s.aborted t Abort.state)
        ∧ (imp.fabricBroken = false → exec (.importsWrite t b) s = imp.accepted))
    ∧ (s.Ready → ¬ idle → ∀ ft, exec (.arrayApply t ft) s = s.aborted t Abort.state)
    ∧ (s.Ready → idle → ∀ ft, (ft = false ∨ s.arrayOk c (s.rd Ob.arrPosition) = false) → exec (.arrayApply t ft) s =
        ({ now with arr := { s.arr with applyResult := some 0x4F } } : State).accepted)
    ∧ (s.Ready → idle → s.arrayOk c (s.rd Ob.arrPosition) = true → exec (.arrayApply t true) s =
        (((List.range 4).foldl State.applyPort { formed with time := { formed.time with leadQuality := none } }).refreshArray).accepted)

/-- Admit aborts while Stop runs or the slot is active, refuses an Empty slot, notes why a contract cannot be admitted, and otherwise installs what the decision grants. Check takes a slot number, runs the same decision and changes the Last objects alone. -/
def Obligations.SlotAdmission : Prop :=
  ∀ (s : State) (t c : Nat) (nf : Fin 64) (drive : List (Nat × Nat × Bool)) (r : Refusal4x) (g : Grant) (gap : Bool),
    let now := s.advance t
    let n := nf.val
    let st := s.rd (Ob.slotState n)
    let checked := fun (v : State) (code : Nat) => ({ v with life := { v.life with checkResult := some code } } : State)
    (s.Ready → (s.stopping = true ∨ 2 ≤ st) → exec (.admitSlot t nf drive) s = s.aborted t Abort.state)
    ∧ (s.Ready → s.stopping = false → st = 0 → exec (.admitSlot t nf drive) s = (now.refuse n { code := 0x4F }).accepted)
    ∧ (s.Ready → s.stopping = false → st = 1 → now.decideAdmission n drive = .error r → exec (.admitSlot t nf drive) s = (now.refuse n r).accepted)
    ∧ (s.Ready → s.stopping = false → st = 1 → now.decideAdmission n drive = .ok (g, gap) → exec (.admitSlot t nf drive) s =
        (now.install { n := n, drive := drive, pts := now.pointsOf n, skip := if gap then now.replaces n else none, spares := (now.replaces n).isSome && !gap } g gap).accepted)
    ∧ (s.Ready → 64 ≤ c → exec (.check t c drive) s = s.aborted t Abort.range)
    ∧ (s.Ready → c < 64 → s.rd (Ob.slotState c) = 0 → exec (.check t c drive) s = (checked (now.noteRefusal c { code := 0x4F }) 0x4F).accepted)
    ∧ (s.Ready → c < 64 → s.rd (Ob.slotState c) ≠ 0 → now.decideAdmission c drive = .error r → exec (.check t c drive) s = (checked (now.noteRefusal c r) r.code).accepted)
    ∧ (s.Ready → c < 64 → s.rd (Ob.slotState c) ≠ 0 → now.decideAdmission c drive = .ok (g, gap) → exec (.check t c drive) s = (checked (now.wr Ob.admLastCode 0) 0).accepted)

/-- A commit aborts while one is armed, is armed when its checks pass, at its boundary, and otherwise records its result; Cancel withdraws a Successor that has not switched, or disarms every slot of the commit. The gate loads a slot's engines 50 us before its boundary, and the commit is applied after the last frame before it and the condition times before it. -/
def Obligations.ContractsAndCommits : Prop :=
  ∀ (s : State) (t tc T m : Nat) (nf : Fin 64),
    let now := s.advance t
    let n := nf.val
    let st := s.rd (Ob.slotState n)
    let x := s.slot n
    let done := now.devNow + now.nth 70 0 % (now.us 2000 + 1)
    let took := now.taken 1
    let verdict := took.commitDecision n (if tc = 0 then 0 else now.unstamp tc) done (now.us 100)
    (s.Ready → x.holds = true → exec (.commit t nf tc) s = s.aborted t Abort.state)
    ∧ (s.Ready → x.holds = false → verdict = .ok (1, T) → exec (.commit t nf tc) s = ((took.armCommit n T 0 false).wr Ob.admLastCode 0).accepted)
    ∧ (s.Ready → x.holds = false → (∀ T, verdict ≠ .ok (1, T)) → exec (.commit t nf tc) s = (took.commitResult n verdict).accepted)
    ∧ (s.Ready → st = 3 → x.switchAt = none → exec (.cancel t nf) s = (now.endSuccessor n 2).accepted)
    ∧ (s.Ready → st = 3 → x.switchAt ≠ none → exec (.cancel t nf) s = s.aborted t Abort.state)
    ∧ (s.Ready → st ≠ 3 → x.holds = true → exec (.cancel t nf) s = (((now.together n).foldl (fun v m => v.disarm m 2) now).leaveArray n 2).accepted)
    ∧ (s.Ready → st ≠ 3 → x.holds = false → exec (.cancel t nf) s = now.accepted)
    ∧ ((x.armed = none ∨ x.bankLoaded = true ∨ x.awaitConfirm = true ∨ st ≠ 2 ∨ ∃ T, x.armed = some T ∧ now.devNow + now.us 50 < T) → exec (.sluiceGateArm t nf) s = .next now)
    ∧ (x.armed = some T → x.bankLoaded = false → x.awaitConfirm = false → st = 2 → T ≤ now.devNow + now.us 50 → exec (.sluiceGateArm t nf) s = .next
        ((x.placement.engines.foldl (fun s p => s.gateEngine n T p) now).modSlot n fun x => { x with bankLoaded := true }))
    ∧ ((x.armed = none ∨ x.bankLoaded = false ∨ st ≠ 2 ∨ ∃ T, x.armed = some T ∧ (now.finished n T = false ∨ now.unitsReached n T = false)) → exec (.commitApplied t nf) s = .next now)
    ∧ (x.armed = some T → x.bankLoaded = true → st = 2 → now.finished n T = true → now.unitsReached n T = true → exec (.commitApplied t nf) s = .next (now.commitApply n T))

/-- Withdraw begins a withdrawal, ends a Successor, or aborts; the slot gives its last outputs, and ends when its ring's consumers have caught up. A Successor takes over at its boundary, the retiring slot passes everything on, and a gap ends at the first frame after it. -/
def Obligations.WithdrawalAndReplacement : Prop :=
  ∀ (s : State) (t T m o : Nat) (nf : Fin 64),
    let now := s.advance t
    let n := nf.val
    let st := s.rd (Ob.slotState n)
    let x := s.slot n
    let last := now.lastOutputs n T
    (s.Ready → (st < 2 ∨ st = 4 ∨ st = 5 ∨ 7 ≤ st ∨ (st = 3 ∧ x.switchAt ≠ none) ∨ ((st = 2 ∨ st = 6) ∧ s.feedsPulse n = true)) →
        exec (.withdraw t nf) s = s.aborted t Abort.state)
    ∧ (s.Ready → st = 2 → s.feedsPulse n = false → exec (.withdraw t nf) s = (now.beginWithdraw n (now.boundaryFrom n (now.devNow + now.us 100))).accepted)
    ∧ (s.Ready → st = 3 → x.switchAt = none → exec (.withdraw t nf) s = (now.endSuccessor n 2).accepted)
    ∧ (s.Ready → st = 6 → s.feedsPulse n = false → exec (.withdraw t nf) s = (now.beginWithdraw n now.devNow).accepted)
    ∧ ((x.withdrawAt = none ∨ st ≠ 5 ∨ ∃ T, x.withdrawAt = some T ∧ now.finished n T = false) → exec (.withdrawalComplete t nf) s = .next now)
    ∧ (x.withdrawAt = some T → st = 5 → now.finished n T = true →
        ((last.caughtUp n = false ∨ (last.slot n).replacing ≠ none) → exec (.withdrawalComplete t nf) s = .next last)
        ∧ (last.caughtUp n = true → (last.slot n).replacing = none → exec (.withdrawalComplete t nf) s = .next (last.endSlot n T)))
    ∧ ((x.armed = none ∨ x.replacing = none ∨ x.awaitConfirm = true ∨ st ≠ 3 ∨ ∃ T, x.armed = some T ∧ now.devNow < T) → exec (.successorSwitch t nf) s = .next now)
    ∧ (x.armed = some T → x.replacing = some o → x.awaitConfirm = false → st = 3 → T ≤ now.devNow → exec (.successorSwitch t nf) s = .next (now.successorTakes n o T))
    ∧ ((x.switchAt = none ∨ x.replacedBy = none ∨ st ≠ 4 ∨ ∃ T, x.switchAt = some T ∧ now.finished n T = false) → exec (.retiringComplete t nf) s = .next now)
    ∧ (x.switchAt = some T → x.replacedBy = some m → st = 4 → now.finished n T = true → (s.slot m).gap = false → s.rd (Ob.slotState m) = 3 → now.framesPast m T = false →
        exec (.retiringComplete t nf) s = .next now)
    ∧ (x.switchAt = some T → x.replacedBy = some m → st = 4 → now.finished n T = true → ((s.slot m).gap = true ∨ s.rd (Ob.slotState m) ≠ 3 ∨ now.framesPast m T = true) →
        exec (.retiringComplete t nf) s = .next (now.retiredTo n m T))
    ∧ ((x.gapTo = none ∨ st ≠ 6 ∨ ∃ T, x.gapTo = some T ∧ (now.devNow < T ∨ now.framesPast n T = false)) → exec (.gapFrameResume t nf) s = .next now)
    ∧ (x.gapTo = some T → st = 6 → T ≤ now.devNow → now.framesPast n T = true → exec (.gapFrameResume t nf) s = .next (now.gapEnd n T))

/-- GroupCommit aborts while one of its slots holds a commit, and for other positions unless this lead has no array commit; a boundary beyond 32767 s is refused; otherwise its slots are decided together, the first refusal is recorded, or all are armed and the members asked. A follower decides the slots the lead forwards and answers Armed, or its refusal. The lead keeps the answers, and 400 us before the boundary confirms to every member when all have armed, else cancels; a follower stands with a Confirm of its commit, disarms with its Cancel or without either 200 us before the boundary. Reports end the commit, and one that is missing 1 ms after its boundary is a disagreement. -/
def Obligations.ArrayCommits : Prop :=
  ∀ (s u : State) (t tc slots w n T v code : Nat) (others : List (Nat × Nat)) (d : Except Refusal4x (Nat × Nat)) (c : ArrCommit),
    let now := s.advance t
    let l := slotsIn slots
    let far := others.filter fun o => o.1 != s.arr.pos
    let at0 := if tc = 0 then 0 else now.unstamp tc
    let armed := ∃ n ∈ l, (s.slot n).holds = true
    let alone := s.isLead = false ∨ s.arr.commit ≠ none
    let late := at0 ≠ 0 ∧ now.devNow + 32767 * now.second < at0
    let lead := if far.isEmpty then now.us 100 else now.us 1000
    let done := now.devNow + now.nth 71 0 % (now.us 2000 + 1)
    let took := now.taken 1
    let boundary := if v = 0 then done + lead else v
    let all := (l.foldl (fun s n => s.armCommit n boundary slots (!far.isEmpty)) took).wr Ob.admLastCode 0
    let ftook := u.taken 1
    let fT := u.sluiceTime w
    let fdone := u.devNow + u.nth 407 0 % (u.us 2000 + 1)
    let fverdict := ftook.groupDecision l fT fdone (ftook.us 100)
    let farmed := (l.any fun n => (ftook.slot n).holds) || ftook.arrayBusy
    let refuse := fun (code : Nat) => ftook.sendTo 0 4 (ftook.sluicePayload 3 (sluiceId w) fT 0 code)
    (s.Ready → (armed ∨ (far ≠ [] ∧ alone)) → exec (.groupCommit t tc slots others) s = s.aborted t Abort.state)
    ∧ (s.Ready → ¬ armed → far ≠ [] → ¬ alone → late → exec (.groupCommit t tc slots others) s =
        (l.foldl (fun s n => s.wr (Ob.slotCommitResult n) 0x4F) (now.noteRefusal (l.headD 0xFF) { code := 0x4F })).accepted)
    ∧ (s.Ready → ¬ armed → (far = [] ∨ (¬ alone ∧ ¬ late)) →
        (took.groupDecision l at0 done lead = .error (n, d) → exec (.groupCommit t tc slots others) s = (took.memberFails n d).accepted)
        ∧ (took.groupDecision l at0 done lead = .ok v → far = [] → exec (.groupCommit t tc slots others) s = all.accepted)
        ∧ (took.groupDecision l at0 done lead = .ok v → far ≠ [] → exec (.groupCommit t tc slots others) s = (all.askMembers boundary slots far).accepted))
    ∧ (now.takeSluice 1 = (none, u) → exec (.sluiceArm t slots) s = .next u)
    ∧ (now.takeSluice 1 = (some w, u) →
        (fverdict = .error (n, d) → exec (.sluiceArm t slots) s = .next
          ((ftook.memberFails n d).sendTo 0 4 (ftook.sluicePayload 3 (sluiceId w) fT 0 (refusalCode d))))
        ∧ (fverdict = .ok v → farmed = true → exec (.sluiceArm t slots) s = .next (refuse 1))
        ∧ (fverdict = .ok v → farmed = false → v = fT → exec (.sluiceArm t slots) s = .next (ftook.followArm (sluiceId w) fT slots))
        ∧ (fverdict = .ok v → farmed = false → v ≠ fT → exec (.sluiceArm t slots) s = .next (refuse 3)))
    ∧ (now.takeSluice 2 = (none, u) → exec (.sluiceArmed t) s = .next u)
    ∧ (now.takeSluice 2 = (some w, u) → exec (.sluiceArmed t) s = .next (u.noteAnswer w 0))
    ∧ (now.takeSluice 3 = (none, u) → exec (.sluiceRefused t) s = .next u)
    ∧ (now.takeSluice 3 = (some w, u) → exec (.sluiceRefused t) s = .next (u.noteAnswer w (bits w 24 17)))
    ∧ (s.arr.commit = none → exec (.arrayConfirmDeadline t) s = .next now ∧ exec (.arrayCommitDisarm t) s = .next now ∧ exec (.arrayCommitReportTimeout t) s = .next now)
    ∧ (s.arr.commit = some c →
        ((s.isLead = false ∨ c.decided = true ∨ now.devNow + now.us 400 < c.tc) → exec (.arrayConfirmDeadline t) s = .next now)
        ∧ (s.isLead = true → c.decided = false → c.tc ≤ now.devNow + now.us 400 → c.failing = none → exec (.arrayConfirmDeadline t) s = .next (now.confirmArray c))
        ∧ (s.isLead = true → c.decided = false → c.tc ≤ now.devNow + now.us 400 → c.failing = some code → exec (.arrayConfirmDeadline t) s = .next
            (now.cancelArray c (c.firstRefusal.getD code)))
        ∧ ((c.confirmed = true ∨ now.devNow + now.us 200 < c.tc) → exec (.arrayCommitDisarm t) s = .next now)
        ∧ (c.confirmed = false → c.tc ≤ now.devNow + now.us 200 → exec (.arrayCommitDisarm t) s = .next (now.disarmArray c))
        ∧ (s.isLead = true → c.confirmed = true → c.tc + now.us 1000 ≤ now.devNow → exec (.arrayCommitReportTimeout t) s = .next
            (({ now with arr := { s.arr with commit := none } } : State).disagree c))
        ∧ ((s.isLead = false ∨ c.confirmed = false ∨ now.devNow < c.tc + now.us 1000) → exec (.arrayCommitReportTimeout t) s = .next now))
    ∧ (now.takeSluice 4 = (some w, u) → u.arr.commit = some c → c.ident = sluiceId w → exec (.sluiceConfirm t) s = .next (u.confirmOwn c))
    ∧ (now.takeSluice 5 = (some w, u) → u.arr.commit = some c → c.ident = sluiceId w → exec (.sluiceCancel t) s = .next (u.disarmArray c))
    ∧ (now.takeSluice 6 = (some w, u) → u.arr.commit = some c → c.ident = sluiceId w → u.isLead = true → exec (.sluiceReport t) s = .next (u.reportIn c w))
    ∧ (u = (now.takeSluice 4).2 → ((now.takeSluice 4).1 = none ∨ u.arr.commit = none ∨ (u.arr.commit = some c ∧ (now.takeSluice 4).1 = some w ∧ c.ident ≠ sluiceId w)) →
        exec (.sluiceConfirm t) s = .next u)
    ∧ (u = (now.takeSluice 5).2 → ((now.takeSluice 5).1 = none ∨ u.arr.commit = none ∨ (u.arr.commit = some c ∧ (now.takeSluice 5).1 = some w ∧ c.ident ≠ sluiceId w)) →
        exec (.sluiceCancel t) s = .next u)
    ∧ (u = (now.takeSluice 6).2 → ((now.takeSluice 6).1 = none ∨ u.arr.commit = none ∨ u.isLead = false
          ∨ (u.arr.commit = some c ∧ (now.takeSluice 6).1 = some w ∧ c.ident ≠ sluiceId w)) →
        exec (.sluiceReport t) s = .next u)

/-- A write to no object aborts with the code of the missing index, of subindex 0, or of the missing subindex; one to a constant or read-only object, or to a resident image, with 0x06010002; one of a wrong length with 0x06070010; one the device's state forbids with 0x08000022; a BOOLEAN above 1 with 0x06090030. An object with a writer of its own takes that writer's answer; any other is refused while its slot's staged values are held, checked against its range, and kept or staged. An Envelope's write, its reserved bits zero and its target this device, is that of its inner object. SetCalendar needs 8 octets, counting time, and a date. The error-field count is cleared through the same checks. -/
def Obligations.DictionaryWrites : Prop :=
  ∀ (s : State) (t k v : Nat) (b : List (BitVec 8)) (drive : List (Nat × Nat × Bool)) (volts : List Nat) (good : Bool) (r : ObjRow) (u : State) (code : Nat)
    (f : ObjRow → Nat → Nat → Nat → Bytes → Ext → Act),
    let now := s.advance t
    let x : Ext := { drive := drive, volts := volts, good := good }
    let n := leNat b
    let head := leNat (b.take 8)
    let taken := objRow k = some r ∧ r.acc ≠ .const ∧ r.acc ≠ .ro ∧ residentImage r k = false
    let free := ¬ (r.acc = .rwq ∧ now.owned k = true) ∧ now.barred r k n = false
    let ready := s.Ready ∧ k ≠ Ob.devEnvelope
    let plain := taken ∧ r.lengthOk b.length = true ∧ free ∧ ¬ (r.ty = .bool ∧ 1 < n)
    (ready → objRow k = none → indexExists (k / 256) = false → exec (.dictionaryWrite t k b drive volts good) s = s.aborted t Abort.noObject)
    ∧ (ready → objRow k = none → indexExists (k / 256) = true → k % 256 = 0 → exec (.dictionaryWrite t k b drive volts good) s = s.aborted t Abort.writeRo)
    ∧ (ready → objRow k = none → indexExists (k / 256) = true → k % 256 ≠ 0 → exec (.dictionaryWrite t k b drive volts good) s = s.aborted t Abort.noSub)
    ∧ (ready → objRow k = some r → (r.acc = .const ∨ r.acc = .ro ∨ residentImage r k = true) →
        exec (.dictionaryWrite t k b drive volts good) s = s.aborted t Abort.writeRo)
    ∧ (ready → taken → r.lengthOk b.length = false → exec (.dictionaryWrite t k b drive volts good) s = s.aborted t Abort.length)
    ∧ (ready → taken → r.lengthOk b.length = true → ¬ free → exec (.dictionaryWrite t k b drive volts good) s = s.aborted t Abort.state)
    ∧ (ready → taken → r.lengthOk b.length = true → free → r.ty = .bool → 1 < n → exec (.dictionaryWrite t k b drive volts good) s = s.aborted t Abort.range)
    ∧ (ready → plain → lookRow writers r.base = some f → f r k (r.elem k) n b x now = .error code → exec (.dictionaryWrite t k b drive volts good) s = s.aborted t code)
    ∧ (ready → plain → lookRow writers r.base = some f → f r k (r.elem k) n b x now = .ok u → exec (.dictionaryWrite t k b drive volts good) s = .next u.closing)
    ∧ (ready → plain → lookRow writers r.base = none → now.stageHeld r k = true → exec (.dictionaryWrite t k b drive volts good) s = s.aborted t Abort.state)
    ∧ (ready → plain → lookRow writers r.base = none → now.stageHeld r k = false → now.valueOk r k n b = false →
        exec (.dictionaryWrite t k b drive volts good) s = s.aborted t Abort.range)
    ∧ (ready → plain → lookRow writers r.base = none → now.stageHeld r k = false → now.valueOk r k n b = true →
        exec (.dictionaryWrite t k b drive volts good) s = .next (now.putValue r k n b).closing)
    ∧ (s.Ready → (b.length < 8 ∨ 1048584 < b.length) → exec (.dictionaryWrite t Ob.devEnvelope b drive volts good) s = s.aborted t Abort.length)
    ∧ (s.Ready → 8 ≤ b.length → b.length ≤ 1048584 → head % 65536 ≠ 0 → exec (.dictionaryWrite t Ob.devEnvelope b drive volts good) s = s.aborted t Abort.range)
    ∧ (s.Ready → 8 ≤ b.length → b.length ≤ 1048584 → head % 65536 = 0 → s.isLocal (bits head 39 32) = false →
        exec (.dictionaryWrite t Ob.devEnvelope b drive volts good) s = s.aborted t Abort.state)
    ∧ (8 ≤ b.length → b.length ≤ 1048584 → head % 65536 = 0 → s.isLocal (bits head 39 32) = true →
        exec (.dictionaryWrite t Ob.devEnvelope b drive volts good) s = exec (.dictionaryWrite t (bits head 63 48 * 256 + bits head 47 40) (b.drop 8) drive volts good) s)
    ∧ (s.Ready → b.length ≠ 8 → exec (.setCalendar t b) s = s.aborted t Abort.length)
    ∧ (s.Ready → b.length = 8 → (s.counts = false ∨ s.stepForbidden = true) → exec (.setCalendar t b) s = s.aborted t Abort.state)
    ∧ (s.Ready → b.length = 8 → s.counts = true → s.stepForbidden = false → (now.dateToSeconds b = none ∨ now.dateToSeconds b = some v ∧ 2 ^ 48 ≤ v) →
        exec (.setCalendar t b) s = s.aborted t Abort.range)
    ∧ (s.Ready → b.length = 8 → s.counts = true → s.stepForbidden = false → now.dateToSeconds b = some v → v < 2 ^ 48 →
        exec (.setCalendar t b) s = ({ now with time := { s.time with setPending := some v, setStatus := some 0 } } : State).accepted)
    ∧ (s.Ready → dictWrite Ob.comErrorCount (leBytes 1 v) {} now = .ok u → exec (.errorFieldClear t v) s = u.accepted)
    ∧ (s.Ready → dictWrite Ob.comErrorCount (leBytes 1 v) {} now = .error code → exec (.errorFieldClear t v) s = s.aborted t code)

/-- Without a serving steward, or over a closed CAN port, no transaction answers, and while the steward restarts each aborts. Window A takes a Submit that differs from the last one while none is being answered. An invalid request aborts; a read is served from the view or the client's latch, a whole write by the object named, with its tag remembered for 10 s and a repeated one answered again, an Envelope's by its inner object. Staging and latch are released after 1 s, tags after 10 s. A forwarded request is served by a member of an array; its response sends the next segment or ends the lead's wait, and 100 ms without one answers with a timeout. -/
def Obligations.Transactions : Prop :=
  ∀ (s : State) (t header client key offset length tag : Nat) (tr : Fin 2) (tr3 : Fin 3) (pos : Fin 8) (more good : Bool) (data : List (BitVec 8))
    (drive : List (Nat × Nat × Bool)) (volts : List Nat) (l : Latch) (g : Staging) (w : Forwarded) (r : Req) (x : Ext) (v : Bytes) (code : Nat) (e : TagEntry) (u : State),
    let now := s.advance t
    let sub := Req.ofHeader 0 (bits header 215 208) header data
    let ext : Ext := { drive := drive, volts := volts, good := good }
    let noted := ({ now with dict := { now.dict with lastSubmit := sub.submit } } : State)
    let wreq : Req := { transport := tr, client := client, op := 2, key := key, more := more, tag := tag, offset := offset, length := data.length, data := data }
    let rreq : Req := { transport := tr, client := client, op := 1, key := key, offset := offset, length := length }
    let env : Req := { transport := tr, client := client, op := 2, key := Ob.devEnvelope, length := data.length, data := data }
    let fwd := Req.ofForward header data
    let inner := leNat (r.data.take 8)
    let old := now.tagsOf (tagId r.transport r.client)
    let open1 := fun (q : Req) => s.power.stewardUp = true ∧ (q.transport ≠ 1 ∨ s.portOpen (q.client / 128) = true ∧ s.rd Ob.devNmtState ≠ 4)
    ((sub.submit = s.dict.lastSubmit ∨ s.dict.busySubmit ≠ none ∨ s.power.stewardUp = false) → exec (.dictSubmit t header data drive volts good) s = .next now)
    ∧ (sub.submit ≠ s.dict.lastSubmit → s.dict.busySubmit = none → s.power.stewardUp = true → exec (.dictSubmit t header data drive volts good) s = .next (noted.transact sub ext))
    ∧ exec (.dictWriteSegment t tr client key offset tag more data good) s = .next (now.transact wreq { good := good })
    ∧ exec (.dictReadSegment t tr client key offset length) s = .next (now.transact rreq {})
    ∧ (¬ open1 r → now.transact r x = now)
    ∧ (open1 r → s.steward.restarting = true → now.transact r x = now.reply r (aborted Abort.state))
    ∧ (open1 r → s.steward.restarting = false →
        (r.valid = false → now.transact r x = now.reply r (aborted Abort.spec))
        ∧ (r.valid = true → r.op = 1 → now.transact r x = now.readReq r)
        ∧ (r.valid = true → r.op ≠ 1 → now.transact r x = now.writeReq r x))
    ∧ (now.isLocal r.target = true → now.latchOf r.transport = none → r.offset = 0 → now.view r.key = .ok v → now.readReq r = (now.readPart r v).stateRead r.key)
    ∧ (now.isLocal r.target = true → now.latchOf r.transport = none → now.view r.key = .error code → now.readReq r = now.reply r (aborted code))
    ∧ (now.isLocal r.target = true → now.latchOf r.transport = none → r.offset ≠ 0 → now.view r.key = .ok v → now.readReq r = now.reply r (aborted Abort.noData))
    ∧ (now.isLocal r.target = true → now.latchOf r.transport = some l → now.now < l.used + now.second → l.client = r.client → l.key = r.key → r.offset ≠ 0 → now.readReq r = now.readPart r l.data)
    ∧ (now.isLocal r.target = false → now.latchOf r.transport = none → now.readReq r = now.forwardReq r)
    ∧ (r.more = false → r.offset = 0 → now.writeReq r x = State.writeWhole (r.data.length / 8 + 2) x (now.stagingAge r.transport) r)
    ∧ (now.isLocal r.target = true → r.key ≠ Ob.devEnvelope → State.writeWhole (length + 1) x now r = now.writeNow r x)
    ∧ (now.isLocal r.target = false → State.writeWhole (length + 1) x now r = now.forwardReq r)
    ∧ (now.isLocal r.target = true → r.key = Ob.devEnvelope → (r.data.length < 8 ∨ 1048584 < r.data.length) →
        State.writeWhole (length + 1) x now r = now.reply r (aborted Abort.length))
    ∧ (now.isLocal r.target = true → r.key = Ob.devEnvelope → 8 ≤ r.data.length → r.data.length ≤ 1048584 → inner % 65536 ≠ 0 →
        State.writeWhole (length + 1) x now r = now.reply r (aborted Abort.range))
    ∧ (now.isLocal r.target = true → r.key = Ob.devEnvelope → 8 ≤ r.data.length → r.data.length ≤ 1048584 → inner % 65536 = 0 → State.writeWhole (length + 1) x now r =
        State.writeWhole length x now { r with key := bits inner 63 48 * 256 + bits inner 47 40, target := bits inner 39 32, tag := bits inner 31 16, data := r.data.drop 8 })
    ∧ (r.tag ≠ 0 → old.find? (fun e => e.tag == r.tag) = some e → e.key = r.key → e.crc = crc32 r.data →
        now.writeNow r x = (now.bump Ob.devDuplicates).reply r { transport := 0, client := 0, code := e.code, duplicate := true })
    ∧ (r.tag ≠ 0 → old.find? (fun e => e.tag == r.tag) = some e → ¬ (e.key = r.key ∧ e.crc = crc32 r.data) → now.writeNow r x = now.reply r (aborted Abort.tag))
    ∧ (r.tag = 0 → s.rd Ob.devRestoreState ≠ 3 → now.writeNow r x = now.reply r (aborted Abort.state))
    ∧ (r.tag = 0 → s.rd Ob.devRestoreState = 3 → dictWrite r.key r.data x now = .error code → now.writeNow r x = now.reply r (aborted code))
    ∧ (r.tag = 0 → s.rd Ob.devRestoreState = 3 → dictWrite r.key r.data x now = .ok u → u.dict.abortWith = none → now.writeNow r x = u.settle.reply r (aborted 0))
    ∧ (¬ open1 env → exec (.envelopeWrite t tr client data good) s = .next now)
    ∧ (open1 env → s.steward.restarting = true → exec (.envelopeWrite t tr client data good) s = .next (now.reply env (aborted Abort.state)))
    ∧ (open1 env → s.steward.restarting = false → exec (.envelopeWrite t tr client data good) s = .next
        (State.writeWhole (data.length / 8 + 2) { good := good } now env))
    ∧ (s.stagingOf tr3 = none → exec (.segmentBufferTimeout t tr3) s = .next now)
    ∧ (s.stagingOf tr3 = some g → g.used + s.second ≤ now.now → exec (.segmentBufferTimeout t tr3) s = .next ((now.setStaging tr3 none).setLost tr3 (some g.client)))
    ∧ (s.stagingOf tr3 = some g → now.now < g.used + s.second → exec (.segmentBufferTimeout t tr3) s = .next now)
    ∧ (s.latchOf tr3 = none → exec (.readLatchTimeout t tr3) s = .next now)
    ∧ (s.latchOf tr3 = some l → l.used + s.second ≤ now.now → exec (.readLatchTimeout t tr3) s = .next (now.setLatch tr3 none))
    ∧ (s.latchOf tr3 = some l → now.now < l.used + s.second → exec (.readLatchTimeout t tr3) s = .next now)
    ∧ exec (.tagExpiry t tr3 client) s = .next (now.setTags (tagId tr3 client) (now.tagsOf (tagId tr3 client)))
    ∧ (s.inArray = false → exec (.forwardedRequest t false pos header data drive volts good) s = .next now
        ∧ exec (.forwardedRequest t true pos header data drive volts good) s = .next now)
    ∧ (s.inArray = true → exec (.forwardedRequest t false pos header data drive volts good) s = .next (now.transact fwd ext))
    ∧ (s.inArray = true → s.dict.forwarded.find? (fun w => w.target == pos.val) = none → exec (.forwardedRequest t true pos header data drive volts good) s = .next now)
    ∧ (s.inArray = true → s.dict.forwarded.find? (fun w => w.target == pos.val) = some w → w.rest ≠ [] → bits header 255 224 = 0 →
        exec (.forwardedRequest t true pos header data drive volts good) s = .next (now.forwardNext w))
    ∧ (s.inArray = true → s.dict.forwarded.find? (fun w => w.target == pos.val) = some w → (w.rest = [] ∨ bits header 255 224 ≠ 0) → exec (.forwardedRequest t true pos header data drive volts good) s = .next
        ((now.unforward w).reply (w.req (bits header 191 160)) (forwardedResponse header data)))
    ∧ (s.dict.forwarded.find? (fun w => w.target == pos.val && decide (w.sentAt + s.us 100000 ≤ now.now)) = none → exec (.forwardTimeout t pos) s = .next now)
    ∧ (s.dict.forwarded.find? (fun w => w.target == pos.val && decide (w.sentAt + s.us 100000 ≤ now.now)) = some w → exec (.forwardTimeout t pos) s = .next
        ((now.unforward w).reply (w.req 0) (aborted Abort.timeout)))

/-- An NMT command that reaches the node over an open port sets its state, or resets the interface with a boot-up message; any other is ignored. A heartbeat goes out with a heartbeat time. An emergency goes out when the node may send one, at once or when its inhibit time ends. A port's bus-off and error-passive set its error state and error-register bit 4, bus-off closing the port. A unicast USDO request over an open port is a transaction outside Stopped, and is discarded otherwise. -/
def Obligations.FieldNetwork : Prop :=
  ∀ (s : State) (t node key offset length : Nat) (port : Fin 2) (nodeF : Fin 128) (more good : Bool) (data : List (BitVec 8)),
    let now := s.advance t
    let p := port.val
    let mine := s.power.stewardUp = true ∧ s.portOpen p = true ∧ (node = 0 ∨ node = s.dict.nodeId)
    let errors := fun (st : Nat) => setBits (s.rd Ob.devCanErrorState) (8 * p + 7) (8 * p) st
    let err := fun (st : Nat) (off : Bool) => ({ now.wr Ob.devCanErrorState (errors st) with dict := { now.dict with busOff := setBit s.dict.busOff p off } } : State).wr
        Ob.comErrorRegister (setBit (s.rd Ob.comErrorRegister) 4 (errors st != 0))
    let free := ({ now with dict := { now.dict with emcyInhibit := false } } : State)
    let req := fun (op len : Nat) => ({ transport := 1, client := p * 128 + nodeF.val, op := op, key := key, more := more, offset := offset, length := len, data := data } : Req)
    let taken := s.power.stewardUp = true ∧ s.portOpen p = true ∧ s.rd Ob.devNmtState ≠ 4
    (mine → exec (.nmtStart t port node) s = .next (now.wr Ob.devNmtState 5) ∧ exec (.nmtStop t port node) s = .next (now.wr Ob.devNmtState 4)
        ∧ exec (.nmtEnterPreOperational t port node) s = .next (now.wr Ob.devNmtState 0x7F)
        ∧ exec (.nmtResetNode t port node) s = .next now.nmtReset ∧ exec (.nmtResetCommunication t port node) s = .next now.nmtReset)
    ∧ (¬ mine → ∀ i ∈ [Instr.nmtStart t port node, .nmtStop t port node, .nmtEnterPreOperational t port node, .nmtResetNode t port node, .nmtResetCommunication t port node],
        exec i s = .next now)
    ∧ (s.power.stewardUp = true → s.rd Ob.comHeartbeatTime ≠ 0 → exec (.heartbeatSend t) s = .next (now.frameAll (0x700 + s.dict.nodeId) (leBytes 1 (s.rd Ob.devNmtState))))
    ∧ ((s.power.stewardUp = false ∨ s.rd Ob.comHeartbeatTime = 0) → exec (.heartbeatSend t) s = .next now)
    ∧ (s.emcyOpen = true → exec (.emcySend t) s = .next now.emcySend)
    ∧ (s.emcyOpen = false → exec (.emcySend t) s = .next now)
    ∧ (s.power.stewardUp = true → s.rd Ob.devNmtState ≠ 4 → exec (.emcyInhibitExpiry t) s = .next free.emcySend)
    ∧ ((s.power.stewardUp = false ∨ s.rd Ob.devNmtState = 4) → exec (.emcyInhibitExpiry t) s = .next free)
    ∧ exec (.canBusOff t port true) s = .next (err 0 false)
    ∧ exec (.canBusOff t port false) s = .next (err 2 true)
    ∧ (bit s.dict.busOff p = true → exec (.canErrorPassive t port good) s = .next now)
    ∧ (bit s.dict.busOff p = false → exec (.canErrorPassive t port true) s = .next (err 1 false) ∧ exec (.canErrorPassive t port false) s = .next (err 0 false))
    ∧ (¬ taken → ∀ w, exec (.usdoRequest t port nodeF true w key offset length more data good) s = .next now)
    ∧ (∀ w, exec (.usdoRequest t port nodeF false w key offset length more data good) s = .next now)
    ∧ (taken → exec (.usdoRequest t port nodeF true true key offset length more data good) s = .next (now.transact (req 2 data.length) { good := good })
        ∧ exec (.usdoRequest t port nodeF true false key offset length more data good) s = .next (now.transact (req 1 length) { good := good }))

/-- A fault of a whole cluster affects every engine and slice in it. A migration gets its target once, while the steward runs: the first candidate that fits unless its gap would exceed 20 ms, else the slot is withdrawn with notice; at G_e its gap ends. A tested engine returns on a pass and is retired otherwise, a failed crossbar or pool retiring its cluster, and a spare that fails its own test is retired, a spare pseudo-channel too. RetireEngine answers 0 for a retired or idle engine, 0x4E without a target and 1 with one, a repeated one aborting. The daily plan runs at PlanTime and PlanNow at once. -/
def Obligations.EnginesAndPlans : Prop :=
  ∀ (s : State) (t e k : Nat) (cF nF : Fin 64) (eF : Fin 1088) (pass shared : Bool) (volts : List Nat) (m : Migration) (x : Move × List Charge) (y : Nat × List Charge) (g : Nat),
    let now := s.advance t
    let c := cF.val
    let n := nF.val
    let kind := tget (dconst 0) s.life.testing eF.val
    let gE := now.boundaryFrom n (now.devNow + now.us (12 * ceilDiv x.1.engines.length 64) + now.us 100)
    let withdrawn := (now.noTarget n c m).clusterSettle c
    let spare := now.spareEngine c
    let idle := ({ now with life := { now.life with retireResult := some 0 } } : State)
    exec (.clusterFault t cF) s = .next (now.wholeFault c)
    ∧ (now.migration c n = none → exec (.migrationTargetChosen t cF nF) s = .next now ∧ exec (.migrationResume t cF nF) s = .next now)
    ∧ (now.migration c n = some m → (m.ge ≠ none ∨ s.steward.restarting = true) → exec (.migrationTargetChosen t cF nF) s = .next now)
    ∧ (now.migration c n = some m → m.ge = none → s.steward.restarting = false → now.chooseMove n c m.affected m.whole = none →
        exec (.migrationTargetChosen t cF nF) s = .next withdrawn)
    ∧ (now.migration c n = some m → m.ge = none → s.steward.restarting = false → now.chooseMove n c m.affected m.whole = some x → m.gs + now.us 20000 < gE →
        exec (.migrationTargetChosen t cF nF) s = .next withdrawn)
    ∧ (now.migration c n = some m → m.ge = none → s.steward.restarting = false → now.chooseMove n c m.affected m.whole = some x → gE ≤ m.gs + now.us 20000 →
        exec (.migrationTargetChosen t cF nF) s = .next ((x.1.engines.filter fun p => m.affected.contains p.1 && now.relapsed p.1).foldl (fun s p => s.retireNow p.1)
          ((now.makeMove n c m.affected m.whole x.1 x.2).setMigration c n (some { m with targets := m.targets ++ x.1.engines, ge := some gE }))))
    ∧ (now.migration c n = some m → (m.ge = none ∨ m.ge = some g ∧ now.devNow < g) → exec (.migrationResume t cF nF) s = .next now)
    ∧ (now.migration c n = some m → m.ge = some g → g ≤ now.devNow → exec (.migrationResume t cF nF) s = .next (now.endGap n c m g))
    ∧ ((kind = 0 ∨ now.inMigration eF = true ∧ (now.eng eF.val).st ≠ 3) → exec (.engineTestComplete t eF pass shared) s = .next now)
    ∧ (kind ≠ 0 → (now.inMigration eF = false ∨ (now.eng eF.val).st = 3) → (kind = 2 → shared = true) →
        exec (.engineTestComplete t eF true shared) s = .next (((now.engineBack eF.val).diagnosed eF.val).clusterSettle (eF.val / 17))
        ∧ exec (.engineTestComplete t eF false shared) s = .next ((now.retireNow eF.val).clusterSettle (eF.val / 17)))
    ∧ (kind = 2 → (now.inMigration eF = false ∨ (now.eng eF.val).st = 3) → exec (.engineTestComplete t eF pass false) s = .next (now.retireCluster (eF.val / 17)))
    ∧ (∀ hbm, exec (.spareSelfTest t hbm cF true) s = .next now)
    ∧ (now.pcState c = 1 → exec (.spareSelfTest t true cF false) s = .next (now.failPc c))
    ∧ (now.pcState c ≠ 1 → exec (.spareSelfTest t true cF pass) s = .next now)
    ∧ ((now.eng spare).st = 4 → exec (.spareSelfTest t false cF false) s = .next ((now.retireNow spare).clusterSettle c))
    ∧ ((now.eng spare).st ≠ 4 → exec (.spareSelfTest t false cF pass) s = .next now)
    ∧ (s.Ready → 1088 ≤ e → exec (.retireEngine t e) s = s.aborted t Abort.range)
    ∧ (s.Ready → e < 1088 → (s.life.retiring.any fun p => p.1 == e) = true → exec (.retireEngine t e) s = s.aborted t Abort.state)
    ∧ (s.Ready → e < 1088 → (s.life.retiring.any fun p => p.1 == e) = false →
        ((s.eng e).st = 5 → exec (.retireEngine t e) s = idle.accepted)
        ∧ ((s.eng e).st ≠ 5 → (s.eng e).slot = none → exec (.retireEngine t e) s = (((now.retireNow e).clusterSettle (e / 17)).retireAnswer 0).accepted)
        ∧ ((s.eng e).st ≠ 5 → (s.eng e).slot = some k → now.retireTarget k e = none → exec (.retireEngine t e) s = ((now.budgetOut e k).retireAnswer 0x4E).accepted)
        ∧ ((s.eng e).st ≠ 5 → (s.eng e).slot = some k → now.retireTarget k e = some y → exec (.retireEngine t e) s = ((now.retireBegin k e y).retireAnswer 1).accepted))
    ∧ (s.Ready → exec (.planNow t volts) s = ((now.dailyPlan volts).planAnswer 0).accepted)
    ∧ (s.stewardRuns = true → s.powered = true → now.time.rtcSeconds % 86400 = s.rd Ob.lifePlanTime → exec (.planRun t volts) s = .next (now.dailyPlan volts))
    ∧ ((s.stewardRuns = false ∨ s.powered = false ∨ now.time.rtcSeconds % 86400 ≠ s.rd Ob.lifePlanTime) → exec (.planRun t volts) s = .next now)

/-- A mismatch is counted and logged and restarts the pair, the third in a trial ending it. A self-test of the comparator alternates the rails and counts; a rail that misses its mismatch sets LatentFault, 100 us tests and the other rail. ClearLatent takes 10,000 passed tests. A Restart action restarts at once; a restart that completes raises vector 2 and brings swapped firmware into force. A running steward checkpoints, counting and logging what the scrub of its memory met. A missed poll or failed self-check restarts the sentinel, a good one ends that. While the pair restarts or is down, none of these has an effect. -/
def Obligations.StewardAndSentinel : Prop :=
  ∀ (s : State) (t k : Nat) (flagged : Bool) (result err : Fin 3),
    let now := s.advance t
    let hit := (now.bump Ob.lockMismatches).faultLog 4 1 0 0xFF 0 0
    let more := ({ hit with pantry := { s.pantry with trialRestarts := s.pantry.trialRestarts + 1 } } : State)
    let tested := ({ now with steward := { s.steward with testRail := 1 - s.steward.testRail } } : State).bump Ob.lockSelfTests
    let back := ({ now with steward := { s.steward with restarting := false, checkpointAt := now.now } } : State).msix 2
    (s.stewardRuns = false → exec (.lockstepMismatch t) s = .next now ∧ exec (.lockstepSelfTest t flagged) s = .next now
        ∧ exec (.stewardCheckpoint t err) s = .next now ∧ exec (.sentinelPoll t result) s = .next now)
    ∧ (s.stewardRuns = true → s.trial = false → exec (.lockstepMismatch t) s = .next (hit.stewardRestart 1))
    ∧ (s.stewardRuns = true → s.trial = true → 2 ≤ s.pantry.trialRestarts → exec (.lockstepMismatch t) s = .next hit.fallBack)
    ∧ (s.stewardRuns = true → s.trial = true → s.pantry.trialRestarts < 2 → exec (.lockstepMismatch t) s = .next (more.stewardRestart 1))
    ∧ (s.stewardRuns = true → exec (.lockstepSelfTest t true) s = .next
          { tested with steward := { s.steward with testRail := 1 - s.steward.testRail, passed := min 10000 (s.steward.passed + 1) } }
        ∧ exec (.lockstepSelfTest t false) s = .next (tested.railFails s.steward.testRail))
    ∧ (s.Ready → s.steward.passed < 10000 → exec (.clearLatent t) s = s.aborted t Abort.state)
    ∧ (s.Ready → 10000 ≤ s.steward.passed → exec (.clearLatent t) s =
        ({ now.wrs [(Ob.lockLatentFault, 0), (Ob.lockTestInterval, 1000)] with steward := { s.steward with deadRail := none } } : State).accepted)
    ∧ (s.Ready → exec (.stewardRestartAction t) s = (now.stewardRestart 4).accepted)
    ∧ (s.steward.restarting = false → exec (.stewardRestartComplete t) s = .next now)
    ∧ (s.steward.restarting = true → s.pantry.swapTo = none → exec (.stewardRestartComplete t) s = .next back)
    ∧ (s.steward.restarting = true → s.pantry.swapTo = some k → exec (.stewardRestartComplete t) s = .next (back.swapIn k))
    ∧ (s.stewardRuns = true → exec (.stewardCheckpoint t err) s = .next { now.stewardScrub err with steward := { s.steward with checkpointAt := now.now } })
    ∧ (s.stewardRuns = true → result.val = 0 → exec (.sentinelPoll t result) s = .next { now with steward := { s.steward with sentinelRestarting := false } })
    ∧ (s.stewardRuns = true → result.val ≠ 0 → exec (.sentinelPoll t result) s = .next (now.sentinelRestart result.val))

/-- A firmware image goes into the slot that is not confirmed and reads Staged or Invalid by its checks; a Staged one swaps with a restart of the pair into a trial, which a confirm ends with a new root word and the ConfirmWindow with a fall-back. A keep takes the kept objects unless they exceed the capacity; read back good it is named by a new root, else the old root stays. Discard names no copy. Each aborts while a keep runs or the sentinel restarts, confirm outside a trial, and keep and discard in a Stop entry. -/
def Obligations.FirmwareAndPantry : Prop :=
  ∀ (s : State) (t : Nat) (data : List (BitVec 8)) (good : Bool) (c : KeptCopy),
    let now := s.advance t
    let stored := ({ now with pantry := s.pantry.setSlot (1 - s.confirmedSlot) data } : State).showSlots
    let swapped := (now.wr Ob.panFirmwareState 4).stewardRestart 2
    (s.Ready → s.pantryHeld = true → ∀ i ∈ [Instr.firmwareImageWrite t data, .firmwareSwap t, .keep t, .discard t], exec i s = s.aborted t Abort.state)
    ∧ (s.Ready → s.pantryHeld = false → exec (.firmwareImageWrite t data) s = (stored.wr Ob.panFirmwareState (if firmwareOk data then 2 else 3)).accepted)
    ∧ (s.Ready → s.rd Ob.panFirmwareState ≠ 2 → exec (.firmwareSwap t) s = s.aborted t Abort.state)
    ∧ (s.Ready → s.pantryHeld = false → s.rd Ob.panFirmwareState = 2 → exec (.firmwareSwap t) s =
        ({ swapped with pantry := { swapped.pantry with swapTo := some (1 - swapped.confirmedSlot), trialRestarts := 0, trialAt := swapped.now } } : State).accepted)
    ∧ (s.Ready → (s.trial = false ∨ s.steward.sentinelRestarting = true) → exec (.firmwareConfirm t) s = s.aborted t Abort.state)
    ∧ (s.Ready → s.trial = true → s.steward.sentinelRestarting = false → exec (.firmwareConfirm t) s =
        (({ now with pantry := s.pantry.setRoot s.pantry.named s.pantry.running } : State).wr Ob.panFirmwareState 5).accepted)
    ∧ (s.stewardRuns = true → s.trial = true → s.pantry.trialAt + s.rd Ob.panConfirmWindow * s.second ≤ now.now → exec (.confirmWindowExpiry t) s = .next now.fallBack)
    ∧ ((s.stewardRuns = false ∨ s.trial = false ∨ now.now < s.pantry.trialAt + s.rd Ob.panConfirmWindow * s.second) → exec (.confirmWindowExpiry t) s = .next now)
    ∧ (s.Ready → s.stopping = true → exec (.keep t) s = s.aborted t Abort.state ∧ exec (.discard t) s = s.aborted t Abort.state)
    ∧ (s.Ready → s.pantryHeld = false → s.stopping = false →
        (2883584 < copyLength now.keptEntries → exec (.keep t) s = (now.wr Ob.panKeepResult 2).accepted)
        ∧ (copyLength now.keptEntries ≤ 2883584 → exec (.keep t) s =
            (({ now with pantry := { s.pantry with keeping := some now.keepCopy } } : State).wr Ob.panKeepResult 1).accepted)
        ∧ exec (.discard t) s = (({ now with pantry := s.pantry.setRoot 0xFF s.pantry.slotNamed } : State).pantryShow).accepted)
    ∧ (s.pantry.keeping = none → exec (.keepComplete t good) s = .next now)
    ∧ (s.pantry.keeping = some c → exec (.keepComplete t false) s = .next (({ now with pantry := s.pantry.putCopy { c with good := false } } : State).wr Ob.panKeepResult 4)
        ∧ exec (.keepComplete t true) s = .next (({ now with pantry :=
            (s.pantry.putCopy { c with good := true }).setRoot s.pantry.other (s.pantry.putCopy { c with good := true }).slotNamed } : State).wr Ob.panKeepResult 0).pantryShow)

/-- A restore that has not yet reached the automatic steps runs while the steward serves: the source and its values, the point, and RestoreState 2 with step 1 begun; otherwise it changes nothing. While RestoreState is 2, a step whose completion condition holds starts the next one, a step that a steward restart interrupted begins again, and one past its limit is logged and left. After step 7 RestoreState is Complete. -/
def Obligations.RestoreAndAutomaticSteps : Prop :=
  ∀ (s : State) (t us : Nat) (drive : List (Nat × Nat × Bool)) (good : Bool) (u : State),
    let now := s.advance t
    let auto := s.stewardRuns = true ∧ s.rd Ob.devRestoreState = 2
    let ended := ({ u.wr Ob.devRestoreState 3 with pantry := { u.pantry with autoStep := 0, restoring := [] } } : State)
    (s.power.stewardUp = true → s.steward.restarting = false → s.rd Ob.devRestoreState ≤ 1 → exec (.pantryRestore t drive good) s = .next (now.restore drive good))
    ∧ ((s.power.stewardUp = false ∨ s.steward.restarting = true ∨ 1 < s.rd Ob.devRestoreState) → exec (.pantryRestore t drive good) s = .next now)
    ∧ (¬ auto → exec (.restoreStepComplete t drive good) s = .next now ∧ exec (.restoreStepTimeout t drive good) s = .next now)
    ∧ (auto → s.pantry.autoAgain = true → exec (.restoreStepComplete t drive good) s = .next (now.beginStep s.pantry.autoStep drive good))
    ∧ (auto → s.pantry.autoAgain = false → now.stepDone = true → exec (.restoreStepComplete t drive good) s = .next (now.nextStep drive good))
    ∧ (auto → s.pantry.autoAgain = false → now.stepDone = false → exec (.restoreStepComplete t drive good) s = .next now)
    ∧ (auto → s.stepLimit = none → exec (.restoreStepTimeout t drive good) s = .next now)
    ∧ (auto → s.stepLimit = some us → s.pantry.autoAt + s.us us ≤ now.now →
        exec (.restoreStepTimeout t drive good) s = .next ((now.stepFails 0xFF s.pantry.autoStep).nextStep drive good))
    ∧ (auto → s.stepLimit = some us → now.now < s.pantry.autoAt + s.us us → exec (.restoreStepTimeout t drive good) s = .next now)
    ∧ (u.pantry.autoStep = 7 → u.nextStep drive good = ended.stopWaiting)
    ∧ (u.pantry.autoStep < 7 → u.pantry.autoStep ≠ 2 → u.nextStep drive good = u.beginStep (u.pantry.autoStep + 1) drive good)

/-- In a cycle of a Running engine that brings about nothing outside it, a microword in stage M2 with SET, ADD or SUB leaves in each accumulator that its form covers the product term, the sum or the difference, fitted to 48 bits in the mode of ctl; an accumulator that the form leaves out, the imaginary part that RDOT leaves out, every other engine and the rest of the device stay, and without a store in WB so do X and Y. -/
def Obligations.EngineArithmetic : Prop :=
  ∀ (s : State) (t : Nat) (e : Fin 1088) (u : Uop), (s.eng e).Plain → (s.eng e).m2 = some u →
    let x := s.eng e
    let after := fun (kind : Nat) (y : Engine) =>
      (∀ k, k < 2 → match formOut (nForm u.nano) (nConj u.nano) (nSqr u.nano) u.xw u.yw (nAcc u.nano) k with
        | some f => y.accRe k = accFit (satOf u.ctl k) (combine kind (x.accRe k) f.p.re)
            ∧ y.accIm k = (if f.im then accFit (satOf u.ctl k) (combine kind (x.accIm k) f.p.im) else x.accIm k)
        | none => y.accRe k = x.accRe k ∧ y.accIm k = x.accIm k)
      ∧ (x.wb = none → y.x = x.x ∧ y.y = x.y)
    (nArith u.nano = 1 → ∃ y, exec (.setAcc t e) s = .next ((s.advance t).setEng e y) ∧ after 1 y)
    ∧ (nArith u.nano = 2 → ∃ y, exec (.add t e) s = .next ((s.advance t).setEng e y) ∧ after 2 y)
    ∧ (nArith u.nano = 3 → ∃ y, exec (.sub t e) s = .next ((s.advance t).setEng e y) ∧ after 3 y)

/-- In a plain cycle a microword in M2 with CLR clears, LDX loads the shifted operand into, and SINIT sets to the end of the search range every accumulator that its field names; RESTORE replaces one component; NORM writes the normalisation shift to the index register and SRCH takes the better of two values (dual mode) or one value each (split mode) with its index; all other accumulator components, engines and the rest of the device stay. -/
def Obligations.EngineAccumulators : Prop :=
  ∀ (s : State) (t : Nat) (e : Fin 1088) (u : Uop), (s.eng e).Plain → (s.eng e).m2 = some u →
    let x := s.eng e
    let n := u.nano
    let w := if bit n 185 then u.yw else u.xw
    let v := (if bit n 184 then cxC18 w else cxC16 (if bit n 183 then hiEl w else loEl w)).shl (bits n 182 178)
    let runs := fun (r : Outcome) (after : Engine → Prop) => ∃ y, r = .next ((s.advance t).setEng e y) ∧ after y
      ∧ (x.wb = none → y.x = x.x ∧ y.y = x.y)
    let accs := fun (f : Nat → Int × Int) (y : Engine) => ∀ k, k < 2 →
      (y.accRe k, y.accIm k) = if bit (nAcc n) k then f k else (x.accRe k, x.accIm k)
    let best := fun (a b : Int) => if bit n 185 then min a b else max a b
    let taken := fun (k : Nat) (b : Int) => (if bit n 185 then decide (b < x.accRe k) else decide (x.accRe k < b))
      || (decide (b = x.accRe k) && bit u.ctl (11 + k))
    (nArith n = 4 → runs (exec (.clr t e) s) (accs fun _ => (0, 0)))
    ∧ (nArith n = 5 → runs (exec (.ldx t e) s) (accs fun _ => (v.re, v.im)))
    ∧ (nArith n = 6 → runs (exec (.restore t e) s) (accs fun k =>
        if bit n 184 then (x.accRe k, sint 48 w) else (sint 48 w, x.accIm k)))
    ∧ (nArith n = 8 → runs (exec (.sinit t e) s) (accs fun _ => (if bit n 185 then accMax else accMin, 0)))
    ∧ (nArith n = 9 → runs (exec (.norm t e) s) fun y => (∀ k, k < 2 → y.accRe k = x.accRe k ∧ y.accIm k = x.accIm k)
        ∧ (x.of = none → x.nf = none → ∀ k, k < 2 → y.raw (0x10 + k) =
            if bit (nAcc n) k then normShift (x.accRe k) (x.accIm k) 47 else x.raw (0x10 + k)))
    ∧ (nArith n = 7 → bit n 184 = true → runs (exec (.srch t e) s) fun y =>
        y.accRe 0 = best (x.accRe 0) (srchValues n u.xw).1 ∧ y.accRe 1 = best (x.accRe 1) (srchValues n u.xw).2
        ∧ y.accIm 0 = x.accIm 0 ∧ y.accIm 1 = x.accIm 1
        ∧ (x.of = none → x.nf = none →
            y.raw 0x10 = (if taken 0 (srchValues n u.xw).1 then x.raw 0x14 else x.raw 0x10)
            ∧ y.raw 0x11 = (if taken 1 (srchValues n u.xw).2 then x.raw 0x15 else x.raw 0x11)
            ∧ y.raw 0x14 = (x.raw 0x14 + 1) % 65536 ∧ y.raw 0x15 = (x.raw 0x15 + 1) % 65536))
    ∧ (nArith n = 7 → bit n 184 = false → runs (exec (.srch t e) s) fun y =>
        let k := if nAcc n = 2 then 1 else 0
        y.accRe k = best (best (x.accRe k) (srchValues n u.xw).1) (srchValues n u.xw).2
        ∧ y.accRe (1 - k) = x.accRe (1 - k) ∧ y.accIm 0 = x.accIm 0 ∧ y.accIm 1 = x.accIm 1)

/-- In a plain cycle the microword in WB writes X or Y: STORE the rounded and limited component or components of an accumulator in its format, PAIR_STORE both accumulators into one word, RAW_SAVE 48 bits of a component sign-extended to a word, REGISTER_STORE the sampled register; every other element of X and Y, the accumulators when M2 is empty, every other engine and the rest of the device stay. -/
def Obligations.EngineStores : Prop :=
  ∀ (s : State) (t : Nat) (e : Fin 1088) (u : Uop), (s.eng e).Plain → (s.eng e).wb = some u →
    let x := s.eng e
    let n := u.nano
    let runs := fun (r : Outcome) (after : Engine → Prop) => ∃ y, r = .next ((s.advance t).setEng e y) ∧ after y
      ∧ (x.m2 = none → ∀ k, y.accRe k = x.accRe k ∧ y.accIm k = x.accIm k)
    let one := fun (v : Nat) (y : Engine) => ∀ b i, b < 2 → i < 4096 →
      y.elem b i = if b = nStBank n ∧ i = u.sa % 4096 then v % 2 ^ 32 else x.elem b i
    let two := fun (lo hi : Nat) (y : Engine) => ∀ b i, b < 2 → i < 4096 →
      y.elem b i = if b = nStBank n ∧ i = u.sa % 4096 / 2 * 2 then lo % 2 ^ 32
        else if b = nStBank n ∧ i = u.sa % 4096 / 2 * 2 + 1 then hi % 2 ^ 32 else x.elem b i
    let re := fun k => (storeComp n u.ctl (x.accRe k)).1
    let im := fun k => (storeComp n u.ctl (x.accIm k)).1
    let a := nStAcc n
    let c := if nStComp n = 0 then re a else im a
    let part := fun k => if nStFmt n = 0 then uint 16 (re k) + uint 16 (im k) * 65536 else if nStComp n = 0 then uint 32 (re k) else uint 32 (im k)
    let raw := uint 64 (if nStComp n = 0 then x.accRe a else x.accIm a)
    (nStore n = 1 → runs (exec (.store t e) s) fun y =>
        (nStFmt n = 0 → one (uint 16 (re a) + uint 16 (im a) * 65536) y)
        ∧ (nStFmt n = 1 → one (x.elem (nStBank n) u.sa / 65536 * 65536 + uint 16 c) y)
        ∧ (nStFmt n = 2 → one (x.elem (nStBank n) u.sa % 65536 + uint 16 c * 65536) y)
        ∧ (nStFmt n = 4 → two (uint 32 (re a)) (uint 32 (im a)) y)
        ∧ (nStFmt n = 3 ∨ 4 < nStFmt n → one (uint 32 c) y))
    ∧ (nStore n = 2 → runs (exec (.pairStore t e) s) (two (part 0) (part 1)))
    ∧ (nStore n = 3 → runs (exec (.rawSave t e) s) (two raw (raw / 2 ^ 32)))
    ∧ (nStore n = 4 → runs (exec (.registerStore t e) s) fun y =>
        ((8 ≤ nStReg n ∧ nStReg n < 12) ∨ nStReg n = 0x1A → two u.sampled (u.sampled / 2 ^ 32) y)
        ∧ (¬((8 ≤ nStReg n ∧ nStReg n < 12) ∨ nStReg n = 0x1A) → one u.sampled y))

/-- In a plain cycle a branch goes to Next when its condition holds and else to the next address; ENTER deepens the loop to at most 4; END repeats at Next while the innermost counter is above 1 and counts it down, else clears it, leaves the loop and falls through; BREAK clears the counter and leaves the loop; RETURN continues at the return address outside the service routine; each counts an error met in the fetch of its microword or nanoword, which halts the engine if uncorrectable. The loop counters and LDEPTH are stated for a cycle in which OF and NF write no register. Other engines and the rest of the device stay, and without a store in WB so do X and Y. -/
def Obligations.EngineSequencing : Prop :=
  ∀ (s : State) (t : Nat) (e : Fin 1088) (err : Fin 3), (s.eng e).Plain →
    let x := s.eng e
    let w := tget (dconst 0) x.micro x.pc
    let d := x.ldepth
    let lc := 0x0C + (d - 1)
    let fall := (x.pc + 1) % 2048
    let cond := if mCond w = 14 then x.ret else if x.cond (mCond w) then mNext w else fall
    let fetched := fun (err : Fin 3) => ((s.advance t).memError err).engineCycle e false (err.val == 2)
    let runs := fun (r : Outcome) (after : Engine → Prop) => ∃ y, r = .next ((s.advance t).setEng e y) ∧ after y
      ∧ (x.wb = none → y.x = x.x ∧ y.y = x.y) ∧ (x.m2 = none → ∀ k, y.accRe k = x.accRe k ∧ y.accIm k = x.accIm k)
    (mLoop w ≠ 2 → mCond w ≠ 14 → runs (exec (.branch t e 0) s) fun y => y.pc = cond)
    ∧ (mLoop w = 1 → runs (exec (.loopEnter t e) s) fun y =>
        y.pc = cond ∧ (x.of = none → x.nf = none → y.ldepth = min 4 (d + 1)))
    ∧ (mLoop w = 2 → d = 0 → runs (exec (.loopEnd t e 0) s) fun y => y.pc = fall)
    ∧ (mLoop w = 2 → 0 < d → 1 < x.raw lc → runs (exec (.loopEnd t e 0) s) fun y =>
        y.pc = mNext w ∧ (x.of = none → x.nf = none → y.raw lc = x.raw lc - 1 ∧ y.ldepth = d))
    ∧ (mLoop w = 2 → 0 < d → x.raw lc ≤ 1 → runs (exec (.loopEnd t e 0) s) fun y =>
        y.pc = fall ∧ (x.of = none → x.nf = none → y.raw lc = 0 ∧ y.ldepth = d - 1))
    ∧ (mLoop w = 3 → 0 < d → runs (exec (.loopBreak t e) s) fun y =>
        y.pc = cond ∧ (x.of = none → x.nf = none → y.raw lc = 0 ∧ y.ldepth = d - 1))
    ∧ (mLoop w ≠ 2 → mCond w = 14 → runs (exec (.ret t e 0) s) fun y => y.pc = x.ret ∧ y.service = false)
    ∧ (mLoop w ≠ 2 → mCond w ≠ 14 → exec (.branch t e err) s = .next (fetched err))
    ∧ (mLoop w = 2 → exec (.loopEnd t e err) s = .next (fetched err))
    ∧ (mLoop w ≠ 2 → mCond w = 14 → exec (.ret t e err) s = .next (fetched err))

/-- In a plain cycle a microword in OF takes its 64-bit operands from X and Y to M1 and loads the register it names from memory, and one in NF writes the immediate or the source register to its destination; a pointer, modifier, index, count, control or overflow register takes the writable bits, LDEPTH at most 4, and rxn and cyc do not change. The register effects are stated for a cycle in which no other stage writes registers. Other engines and the rest of the device stay. -/
def Obligations.EngineOperandsAndTransfers : Prop :=
  ∀ (s : State) (t : Nat) (e : Fin 1088) (u : Uop), (s.eng e).Plain →
    let x := s.eng e
    let n := u.nano
    let runs := fun (r : Outcome) (after : Engine → Prop) => ∃ y, r = .next ((s.advance t).setEng e y) ∧ after y
      ∧ (x.wb = none → y.x = x.x ∧ y.y = x.y)
    let writes := fun (r v : Nat) (y : Engine) => x.m2 = none → x.wb = none →
      (r ≤ 0x18 → r ≠ 0x16 → y.raw r = v &&& regMask r) ∧ (r = 0x16 → y.ldepth = min 4 (bits v 12 10))
      ∧ (r = 0x19 → y.raw 0x19 = x.raw 0x19) ∧ (r = 0x1A → y.raw 0x1A = (x.raw 0x1A + 1) % 2 ^ 64)
    (x.of = some u → nXRead n = 1 ∨ nYRead n = 1 → runs (exec (.operandRead t e 0) s) fun y => ∃ v, y.m1 = some v
        ∧ (nXRead n = 1 → v.xw = x.word 0 u.xa) ∧ (nYRead n = 1 → v.yw = x.word 1 u.ya) ∧ v.nano = n)
    ∧ (x.of = some u → x.nf = none → nXRead n = 2 → nYRead n ≠ 2 → runs (exec (.registerLoad t e 0) s)
        (writes (nXLoad n) (if 8 ≤ nXLoad n ∧ nXLoad n < 12 then x.word 0 u.xa else x.elem 0 u.xa)))
    ∧ (x.of = some u → x.nf = none → nXRead n ≠ 2 → nYRead n = 2 → runs (exec (.registerLoad t e 0) s)
        (writes (nYLoad n) (if 8 ≤ nYLoad n ∧ nYLoad n < 12 then x.word 1 u.ya else x.elem 1 u.ya)))
    ∧ (x.nf = some u → x.of = none → nCtl n ≠ 1 → nRtOp n = 1 → runs (exec (.registerTransferImmediate t e) s)
        fun y => nCtl n ≠ 2 ∨ nRtDst n ≠ 0x19 → writes (nRtDst n) (if 8 ≤ nRtDst n ∧ nRtDst n < 12 then
          (if nRtHigh n then x.raw (nRtDst n) % 2 ^ 32 + nRtImm n * 2 ^ 32 else x.raw (nRtDst n) / 2 ^ 32 * 2 ^ 32 + nRtImm n)
          else nRtImm n) y)
    ∧ (x.nf = some u → x.of = none → nCtl n ≠ 1 → nRtOp n = 2 → runs (exec (.registerTransfer t e) s)
        fun y => nCtl n ≠ 2 ∨ nRtDst n ≠ 0x19 → writes (nRtDst n) (x.reg (nRtSrc n)) y)

/-- In a plain cycle SEND queues its request behind those that wait, RXFREE releases units, at most those that rxn counts, and EVACK clears EV and notes STOP and SAVESTATE. A safe point without an event restarts the safe-point count; with EV set outside the service routine it continues at the service entry and writes the return address to element 6 of the event area. A yield ends the current frame, and the next frame is taken up when one of its units is complete. Other engines and the rest of the device stay. -/
def Obligations.EngineQueuesAndEvents : Prop :=
  ∀ (s : State) (t : Nat) (e : Fin 1088) (u : Uop),
    let x := s.eng e
    let n := u.nano
    let w := tget (dconst 0) x.micro x.pc
    let runs := fun (r : Outcome) (after : Engine → Prop) => ∃ y, r = .next ((s.advance t).setEng e y) ∧ after y
    (x.Plain → x.nf = some u → nCtl n = 1 → runs (exec (.send t e) s) fun y =>
        y.sends = x.sends ++ [{
          bank := nSendPtr n / 4, elem := x.raw (nSendPtr n), left := nCount n, total := nCount n, flow := nFlow n,
          frame := u.frame, lead := tget (dconst none) x.begun (nFlow n) != (u.frame.map fun f => (f.tag, f.index)), cycle := x.raw 0x1A }])
    ∧ (x.Plain → x.nf = some u → nCtl n = 2 → runs (exec (.rxfree t e) s) fun y =>
        y.raw 0x19 = x.raw 0x19 - min (nCount n) (x.raw 0x19) ∧ y.unreleased = x.unreleased - min (nCount n) (x.raw 0x19))
    ∧ (x.Plain → x.nf = some u → nCtl n = 3 → runs (exec (.evack t e) s) fun y =>
        y.ev = false ∧ y.event = none ∧ y.stopping = (x.stopping || isEvent x.event 3) ∧ y.saving = (x.saving || isEvent x.event 4))
    ∧ (x.Plain → mSafe w = true → x.service = false → runs (exec (.safePoint t e) s) fun y =>
        y.sinceSafe = 0 ∧ y.pc = (x.sequence w).2 ∧ y.service = false)
    ∧ (x.st = 2 → (∀ v, x.nf = some v → nCtl v.nano = 1 → x.sends.length < 8) → mYield w = false → mSafe w = true → x.ev = true →
        x.service = false → x.evBank < 2 → runs (exec (.safePoint t e) s) fun y =>
        y.pc = x.svcEntry ∧ y.service = true ∧ y.ret = (x.sequence w).2 ∧ y.elem x.evBank (x.evBase + 6) = (x.sequence w).2 % 2 ^ 32)
    ∧ (x.st = 2 → (∀ v, x.nf = some v → nCtl v.nano = 1 → x.sends.length < 8) → mYield w = true → x.ev = false → x.events = [] →
        x.stopping = false → x.saving = false → runs (exec (.yield t e) s) fun y =>
        let rest := if x.busy then x.frames.drop 1 else x.frames
        y.frames = rest ∧ y.busy = (match rest with | f :: _ => f.units != 0 | [] => false))

/-- A flit that finds room goes to its place of the receive area, a unit becoming complete at its last flit; the oldest SEND gives its next flit, from the source memory, to the engine of its target stage, with its frame at the first flit, or to nobody in a declared gap; an uncorrectable read of the send unit halts the engine; a Running engine past 4,160 cycles without a safe point is halted, its FaultLog entry made and assumption 4 marked; CANCEL withdraws an armed commit, of a Loaded engine without an event, STOP and SAVESTATE are delivered or wait behind an earlier event; a Loaded engine starts Running at its Entry with registers at reset. -/
def Obligations.EngineTrafficAndEvents : Prop :=
  ∀ (s : State) (t : Nat) (e : Fin 1088),
    let x := s.eng e
    let sets := fun (r : Outcome) (y : Engine) => r = .next ((s.advance t).setEng e y)
    (∀ words, x.st = 2 → s.lost e = false → x.wb = none → x.rxBank < 2 → (x.rxFlits = 0 → x.unreleased < x.rxUnits) → words.length = 16 →
      ∃ y, exec (.receiveFlit t e words none 0) s = .next (((s.advance t).bumpBy Ob.diagReceiveCollisions 0).setEng e y)
        ∧ (x.rxFlits + 1 < x.rxUnitFlits → y.rxFlits = x.rxFlits + 1 ∧ y.raw 0x19 = x.raw 0x19)
        ∧ (x.rxUnitFlits ≤ x.rxFlits + 1 → x.busy = true → x.frames.length = 1 → y.rxFlits = 0 ∧ y.unreleased = x.unreleased + 1
            ∧ y.rxSlot = (x.rxSlot + 1) % max 1 x.rxUnits ∧ y.raw 0x19 = (x.raw 0x19 + 1) % 65536)
        ∧ (x.rxFlits + 1 < x.rxUnitFlits ∨ (x.busy = true ∧ x.frames.length = 1) → ∀ b a, b < 2 → a < 4096 → (∀ k, k < 16 → a ≠ (x.rxBase + 16 * (x.rxSlot * x.rxUnitFlits + x.rxFlits) + k) % 4096) → y.elem b a = x.elem b a))
    ∧ (∀ q qs, x.sends = q :: qs → x.flowKind q.flow ≠ 1 →
        let left := x.withSends (if q.left - 1 = 0 then qs else { q with elem := (q.elem + 16) % 4096, left := q.left - 1, sent := [], lead := false } :: qs)
        (s.sendLost x q = false → exec (.sendFlit t e 0) s = .next (((s.advance t).setEng e left).emit
          (.flit e q.flow (x.flowKind q.flow) (if x.flowKind q.flow = 0 then s.flowTarget e q else none)
            (if q.lead then q.frame.map fun f => (f.tag, f.index, f.flags) else none) ((List.range 16).map fun k => x.elem q.bank (q.elem + k)))))
        ∧ (s.sendLost x q = true → sets (exec (.sendFlit t e 0) s) left))
    ∧ (∀ q qs, x.sends = q :: qs → x.st = 2 → exec (.sendFlit t e 2) s =
        .next ((((s.advance t).memError 2).setEng e (({ x with sends := qs } : Engine).haltSend q)).clusterFault (e / 17) 2 e [e.val]))
    ∧ (x.st = 2 → 4160 ≤ x.sinceSafe → x.halt.st = 3
        ∧ exec (.watchdogTrip t e) s = .next ((((s.advance t).setEng e x.halt).trip e).clusterFault (e / 17) 1 e [e.val]))
    ∧ (∀ tc, x.st = 1 → sets (exec (.eventCancel t e tc) s) { x with armed := none })
    ∧ (∀ tc, x.st = 2 → sets (exec (.eventCancel t e tc) s)
        (({ x with armed := none } : Engine).issue { code := 2, tc := tc, bank := 1 - x.bank }))
    ∧ (x.st = 2 → sets (exec (.eventStop t e) s) (x.issue { code := 3 }))
    ∧ (x.st = 2 → sets (exec (.eventSavestate t e) s) (x.issue { code := 4 }))
    ∧ (x.st = 1 → sets (exec (.engineStart t e) s) ({ x with st := 2, pc := x.entry, r := [], sinceSafe := 0 } : Engine).startFrame)

/-- A debug read answers the 32-bit word of the engine's aperture and changes no engine; a debug write changes the aperture of an engine that is Free, Loaded or Halted and that no admitted pipeline holds, and is discarded with an access error otherwise. A Load of an image without users publishes the header's fields and Loaded when its format holds, else 0x4F with Loaded FALSE; Verify publishes the checks' result. Everything else stays, but for the accepted write's response and checkpoint. -/
def Obligations.EngineDebugAndImages : Prop :=
  ∀ (s : State) (t : Nat),
    (∀ (e : Fin 1088) (o : Nat), exec (.debugRead t e o) s =
      .next (((s.advance t).debugTouch (e / 17)).emit (.debug e o (((s.advance t).eng e).aperture (o % 65536)) true)))
    ∧ (∀ (e : Fin 1088) (o v : Nat), s.held e = false → (s.eng e).st = 0 ∨ (s.eng e).st = 1 ∨ (s.eng e).st = 3 →
        exec (.debugWrite t e o v) s = .next ((((s.advance t).debugTouch (e / 17)).setEng e ((s.eng e).setAperture (o % 65536) v)).emit
          (.debug e o v true)))
    ∧ (∀ (e : Fin 1088) (o v : Nat), s.held e = true ∨ ((s.eng e).st ≠ 0 ∧ (s.eng e).st ≠ 1 ∧ (s.eng e).st ≠ 3) →
        exec (.debugWrite t e o v) s = .next (((s.advance t).debugTouch (e / 17)).emit (.debug e o v false)))
    ∧ (∀ i : Fin 64, s.Ready → s.microUsers i = [] → let a := (s.advance t).noted (Ob.mimgLoad i)
        (microFormat (s.microImage i) = true → exec (.microimageLoad t i) s = .next (a.wrs [(Ob.mimgLoad i, 0), (Ob.mimgLoaded i, 1),
            (Ob.mimgWordCount i, iWordCount (s.microImage i)), (Ob.mimgDeclaredWorst i, iWorst (s.microImage i)),
            (Ob.mimgDeclaredService i, iSvcCycles (s.microImage i)), (Ob.mimgDeclaredCond i, iCond (s.microImage i)),
            (Ob.mimgDigest i, iCrc (s.microImage i))]).complete)
        ∧ (microFormat (s.microImage i) = false → exec (.microimageLoad t i) s =
            .next (a.wrs [(Ob.mimgLoad i, 0x4F), (Ob.mimgLoaded i, 0)]).complete))
    ∧ (∀ i : Fin 64, s.Ready → s.nanoUsers i = [] → let a := (s.advance t).noted (Ob.nimgLoad i)
        (nanoFormat (s.nanoImage i) = true → firstBadNano (s.nanoImage i) = none → exec (.nanoimageLoad t i) s =
            .next (a.wrs [(Ob.nimgLoad i, 0), (Ob.nimgLoaded i, 1), (Ob.nimgWordCount i, nWordCount (s.nanoImage i)),
              (Ob.nimgDigest i, nHdr (s.nanoImage i) 31 0), (Ob.nimgFirstFault i, 0xFFFF)]).complete)
        ∧ (nanoFormat (s.nanoImage i) = false → exec (.nanoimageLoad t i) s =
            .next (a.wrs [(Ob.nimgLoad i, 0x4F), (Ob.nimgLoaded i, 0)]).complete))
    ∧ (∀ (i : Fin 64) (j : Nat), s.Ready → j < 64 → s.microLoaded i = true → s.nanoLoaded j = true →
        exec (.imageVerify t i j) s = .next (((((s.advance t).wrs [(Ob.mimgFirstFault i, ((s.pair i j).verify 6).2.1),
            (Ob.mimgVerifiedWorst i, ((s.pair i j).verify 6).2.2.worst), (Ob.mimgVerifiedCond i, ((s.pair i j).verify 6).2.2.cond),
            (Ob.mimgVerifiedSpacing i, min 65535 ((s.pair i j).spacing ((s.pair i j).verify 6).2.2))]).noted
            (Ob.mimgVerify i)).wr (Ob.mimgVerify i) ((s.pair i j).verify 6).1).complete))

/-- Every command that is a write of the dictionary changes nothing but the time while the steward does not serve, and aborts with 0x08000022 without an effect while the steward restarts or RestoreState is not Complete. -/
def Obligations.ActionsWhileNotServed : Prop :=
  ∀ (s : State) (t : Nat) (data : List (BitVec 8)) (f4 : Fin 4) (x0 x1 : Nat) (b : Bool) (drive : List (Nat × Nat × Bool)) (volts : List Nat) (f32 : Fin 32) (f64 : Fin 64) (f36 : Fin 36) (others : List (Nat × Nat)) (f16 : Fin 16) (f6 : Fin 6) (f8 : Fin 8) (od : Option (List (BitVec 8))),
    ∀ i ∈ [
      Instr.stop t, .stopForce t, .refusalLogClear t, .importsWrite t data, .joinRetrain t f4, .joinTestMode t f4 x0, .joinClearCounters t f4, .joinCalibrate t, 
      .arrayApply t b, .userWindowLoad t f4, .opPointRequest t x0, .dictionaryWrite t x0 data drive volts b, .setCalendar t data, .errorFieldClear t x0, 
      .transferStart t f32, .transferPauseWrite t f32 b, .transferAbort t f32, .linkRetrain t, .ringValidate t f32, .ringRestart t f32, .hostReadWrite t f64 x0, 
      .releaseRing t f64, .marginScan t f36 x0, .laneQuadClearFault t f36, .diagnosticsClearCounters t, .clearOverTemp t, .faultAcknowledge t x0, .withdraw t f64, 
      .commit t f64 x0, .cancel t f64, .groupCommit t x0 x1 others, .calibrateReference t x0 x1, .calibrateClock t x0 x1, .calibrateSignalPath t x0 x1, .capture t, 
      .reapply t, .rearm t f64, .microimageLoad t f64, .nanoimageLoad t f64, .imageVerify t f64 x0, .popBlock t f16 x0, .clearQueue t f16, .statsStart t f4, 
      .setSeconds t x0, .syncArm t, .adopt t, .retireEngine t x0, .clearLatent t, .stewardRestartAction t, .firmwareImageWrite t data, .firmwareSwap t, .firmwareConfirm t, 
      .keep t, .discard t, .planNow t volts, .qualify t f6, .formSet t x0, .deleteRecording t x0, .reinstate t f6 b, .clearPeak t, .auxLdoReset t x0, 
      .patternUnitWrite t f16 x0 x1 od, .clearLineFault t data, .clearLog t, .trigOutConfigWrite t f8 x0, .primitiveStreamEnable t x0, .admitSlot t f64 drive, 
      .check t x0 drive, .sieveLoad t f4, .pulseClearCounters t x0, .displayEnable t b, .displayCommit t x0, .displayClearFlags t, .hostReserveWrite t data, 
      .hbmRelease t f64, .hbmRetire t f64, .interleaveMasksWrite t data, .mapSnapshot t f4 x0, .mapClear t f4 x0, .syntApply t, .clockOutputWrite t x0 x1, .srefFire t x0, 
      .linkApply t f16, .linkClearCounters t f16, .dumpRestart t f64 x0, .levelSnapshot t, .clearSticky t x0, .levelConditionWrite t f64 x0 x1],
      (s.power.stewardUp = false → exec i s = .next (s.advance t))
      ∧ (s.power.stewardUp = true → s.steward.restarting = true → exec i s = s.aborted t Abort.state)
      ∧ (s.power.stewardUp = true → s.steward.restarting = false → s.rd Ob.devRestoreState ≠ 3 → exec i s = s.aborted t Abort.state)

/-- From every state whose register file, DOMAIN objects, HBM and pools are in canonical form, a step that answers a next state answers one in which they are. -/
def Obligations.MemoriesStayCanonical : Prop :=
  ∀ s u : State, s.memoryWf = true → step s = .next u → u.memoryWf = true

/-- Right after reset every object reads its Default, no octet of HBM or of a pool has been written, the memories are canonical, no command waits, no slot is admitted, no automatic step runs, and no act object has been started. That the rails are up and the steward serves is the model's choice (log entry 7), as are the values of objects without a Default (log entry 3) and of memory (log entry 17). -/
def Obligations.ResetState : Prop :=
  State.reset.memoryWf = true ∧ State.reset.pending = [] ∧ (∀ k, State.reset.rd k = objDefault k) ∧ (∀ k, State.reset.dom k = domDefault k)
    ∧ (∀ da, State.reset.hbmByte da = 0) ∧ (∀ n : Fin 64, State.reset.active n = false) ∧ State.reset.rd Ob.devRestoreState = 0
    ∧ State.reset.pantry.autoStep = 0 ∧ State.reset.dict.acted = [] ∧ State.reset.dict.response = none ∧ State.reset.life.faultLog = []

/-- A doorbell is one whole write. A partial write changes nothing but the time. A value from the current ConsumedPages to WrittenPages, both included, becomes ConsumedPages and changes no other object; any other value leaves ConsumedPages unchanged and adds one to BadDoorbells (as long as the counter can hold it), changing no other object. -/
def Obligations.Doorbells : Prop :=
  ∀ (s : State) (t value : Nat) (ring : Fin 32),
    let now := s.advance t
    let c := Ob.ringConsumedPages ring
    let bad := Ob.ringBadDoorbells ring
    let taken := s.rd c ≤ value ∧ value ≤ s.rd (Ob.ringWrittenPages ring)
    exec (.doorbellWrite t ring value false) s = .next now
    ∧ (taken → ∃ u : State, exec (.doorbellWrite t ring value true) s = .next u ∧ u = { now with regs := u.regs }
        ∧ u.rd c = value ∧ ∀ k, k ≠ c → u.rd k = s.rd k)
    ∧ (¬ taken → s.rd bad + 1 < 2 ^ 32 → ∃ u : State, exec (.doorbellWrite t ring value true) s = .next u ∧ u = { now with regs := u.regs }
        ∧ u.rd bad = s.rd bad + 1 ∧ u.rd c = s.rd c ∧ ∀ k, k ≠ bad → u.rd k = s.rd k)

/-- The low 32 bits of every TIME128 the device makes are its Descriptor: bit 31 is the SYN-T source in force, 0 REFCLK_IN and 1 timing stream, and bits 30 to 0 are f_T in hertz. Device time in stamps of one f_T counts in one unit. -/
def Obligations.Descriptors : Prop :=
  ∀ (s : State) (T : Nat), s.syn.source ≤ 1 → s.rd Ob.synFT < 2 ^ 31 →
    bits (s.stamp T) 31 31 = s.syn.source ∧ bits (s.stamp T) 30 0 = s.rd Ob.synFT
    ∧ ∀ (u : State) (T' : Nat), u.syn.source ≤ 1 → u.rd Ob.synFT < 2 ^ 31 → (bits (s.stamp T) 31 0 = bits (u.stamp T') 31 0 ↔ s.syn.source = u.syn.source ∧ s.rd Ob.synFT = u.rd Ob.synFT)

/-- NORM on acc_k sets ix_k to the largest s from 0 to 47 for which both components lie in -2^(47-s) to 2^(47-s) - 1; when both are 0, s is 47. -/
def Obligations.NormOperation : Prop :=
  ∀ (e : Engine) (u : Uop) (k : Nat), nArith u.nano = 9 → k < 2 → bit (nAcc u.nano) k = true →
    accMin ≤ e.accRe k → e.accRe k ≤ accMax → accMin ≤ e.accIm k → e.accIm k ≤ accMax →
    let ix := (e.stageM2 u).1.raw (0x10 + k)
    let fits := fun (r : Nat) => -(2 ^ (47 - r) : Int) ≤ e.accRe k ∧ e.accRe k ≤ 2 ^ (47 - r) - 1 ∧ -(2 ^ (47 - r) : Int) ≤ e.accIm k ∧ e.accIm k ≤ 2 ^ (47 - r) - 1
    ix ≤ 47 ∧ fits ix ∧ (∀ r, r ≤ 47 → fits r → r ≤ ix) ∧ (e.accRe k = 0 → e.accIm k = 0 → ix = 47)
end

