-- ==== Sys2Proof/Laws/Tab.lean ====
section
/-! SUPPORT. The laws of sparse tables: what a read gives after a write, and that every operation keeps the canonical form. -/

namespace Sys2Proof.Machine

variable {α : Type}

theorem tget_tdel (d : Nat → α) (t : Tab α) (a b : Nat) : tget d (tdel t a) b = if b = a then d b else tget d t b := by
  induction t with
  | nil => simp [tdel, tget]
  | cons p t ih =>
    obtain ⟨k, v⟩ := p
    by_cases h : a = k
    · subst h; by_cases h2 : b = a <;> simp_all [tdel, tget]
    · by_cases h2 : b = a
      · subst h2; simp_all [tdel, tget]
      · by_cases h3 : b = k <;> simp_all [tdel, tget]

theorem tget_tput (d : Nat → α) (t : Tab α) (a b : Nat) (v : α) : tget d (tput t a v) b = if b = a then v else tget d t b := by
  induction t with
  | nil => simp [tput, tget]
  | cons p t ih =>
    obtain ⟨k, w⟩ := p
    rw [tput]
    split
    · simp only [tget]
    · split
      · rename_i h1 h2
        subst h2
        by_cases h : b = a <;> simp [tget, h]
      · rename_i h1 h2
        simp only [tget, ih]
        by_cases h : b = k
        · subst h; simp [Ne.symm h2]
        · simp [h]

variable [DecidableEq α]

/-- A read after a write. -/
theorem tget_tset (d : Nat → α) (t : Tab α) (a b : Nat) (v : α) : tget d (tset d t a v) b = if b = a then v else tget d t b := by
  unfold tset
  by_cases h : v = d a
  · rw [if_pos h, tget_tdel]; by_cases h2 : b = a <;> simp_all
  · rw [if_neg h, tget_tput]

@[simp] theorem tget_tset_same (d : Nat → α) (t : Tab α) (a : Nat) (v : α) : tget d (tset d t a v) a = v := by simp [tget_tset]

theorem tget_tset_other (d : Nat → α) (t : Tab α) (a b : Nat) (v : α) (h : b ≠ a) : tget d (tset d t a v) b = tget d t b := by
  simp [tget_tset, h]

@[simp] theorem tget_tmod_same (d : Nat → α) (t : Tab α) (a : Nat) (f : α → α) : tget d (tmod d t a f) a = f (tget d t a) := by
  simp [tmod]

theorem tget_tmod (d : Nat → α) (t : Tab α) (a b : Nat) (f : α → α) :
    tget d (tmod d t a f) b = if b = a then f (tget d t a) else tget d t b := by simp [tmod, tget_tset]

theorem twfFrom_weaken (d : Nat → α) {lo lo' : Nat} (h : lo' ≤ lo) (t : Tab α) (ht : twfFrom d lo t = true) : twfFrom d lo' t = true := by
  cases t with
  | nil => rfl
  | cons p t => obtain ⟨k, v⟩ := p; simp_all [twfFrom]; omega

theorem twfFrom_tdel (d : Nat → α) (a : Nat) (t : Tab α) : ∀ lo, twfFrom d lo t = true → twfFrom d lo (tdel t a) = true := by
  induction t with
  | nil => simp [tdel]
  | cons p t ih =>
    obtain ⟨k, v⟩ := p
    intro lo h
    simp only [twfFrom, Bool.and_eq_true, decide_eq_true_eq] at h
    by_cases hk : a = k
    · simp only [tdel, if_pos hk]
      exact twfFrom_weaken d (by omega) _ (ih _ h.2)
    · simp only [tdel, if_neg hk, twfFrom, Bool.and_eq_true, decide_eq_true_eq]
      exact ⟨h.1, ih _ h.2⟩

theorem twfFrom_tput (d : Nat → α) (a : Nat) (v : α) (hv : v ≠ d a) (t : Tab α) :
    ∀ lo, lo ≤ a → twfFrom d lo t = true → twfFrom d lo (tput t a v) = true := by
  induction t with
  | nil => intro lo hl _; simp [tput, twfFrom, hl, hv]
  | cons p t ih =>
    obtain ⟨k, w⟩ := p
    intro lo hl h
    simp only [twfFrom, Bool.and_eq_true, decide_eq_true_eq] at h
    by_cases h1 : a < k
    · simp only [tput, if_pos h1, twfFrom, Bool.and_eq_true, decide_eq_true_eq]
      exact ⟨⟨hl, hv⟩, ⟨by omega, h.1.2⟩, h.2⟩
    · by_cases h2 : a = k
      · subst h2
        simp only [tput, Nat.lt_irrefl, if_false, if_true, twfFrom, Bool.and_eq_true, decide_eq_true_eq]
        exact ⟨⟨hl, hv⟩, h.2⟩
      · simp only [tput, if_neg h1, if_neg h2, twfFrom, Bool.and_eq_true, decide_eq_true_eq]
        exact ⟨h.1, ih _ (by omega) h.2⟩

/-- A write keeps the canonical form. -/
theorem twf_tset (d : Nat → α) (t : Tab α) (a : Nat) (v : α) (h : twf d t = true) : twf d (tset d t a v) = true := by
  unfold tset twf
  by_cases hv : v = d a
  · rw [if_pos hv]; exact twfFrom_tdel d a t 0 h
  · rw [if_neg hv]; exact twfFrom_tput d a v hv t 0 (by omega) h

theorem twf_tmod (d : Nat → α) (t : Tab α) (a : Nat) (f : α → α) (h : twf d t = true) : twf d (tmod d t a f) = true :=
  twf_tset d t a _ h

theorem twf_tsetRange (d : Nat → α) (l : List α) : ∀ (t : Tab α) (a : Nat), twf d t = true → twf d (tsetRange d t a l) = true := by
  induction l with
  | nil => intro t a h; exact h
  | cons v l ih => intro t a h; exact ih _ _ (twf_tset d t a v h)

theorem tget_tsetRange_outside (d : Nat → α) (l : List α) :
    ∀ (t : Tab α) (a b : Nat), (b < a ∨ a + l.length ≤ b) → tget d (tsetRange d t a l) b = tget d t b := by
  induction l with
  | nil => intro t a b _; rfl
  | cons v l ih =>
    intro t a b h
    simp only [List.length_cons] at h
    rw [tsetRange, ih _ _ _ (by omega), tget_tset_other _ _ _ _ _ (by omega)]

end Sys2Proof.Machine
end

