-- ==== Sys2Proof/Laws/Engine.lean ====
section
/-! SUPPORT. The laws of an engine: the fields that each stage of a cycle can change, and the cycle as a whole when it brings about nothing outside the datapath. -/

namespace Sys2Proof.Machine

variable (e e0 : Engine)

/-- An engine without its registers; two engines with the same view differ in their registers alone. -/
def Engine.sansR : Engine := { e with r := [] }
/-- Without registers and accumulators. -/
def Engine.sansA : Engine := { e with r := [], acc0re := 0, acc0im := 0, acc1re := 0, acc1im := 0 }
/-- Without X and Y. -/
def Engine.sansM : Engine := { e with x := [], y := [] }
/-- Without what the stage NF can change. -/
def Engine.sansN : Engine :=
  { e with r := [], sends := [], begun := [], ev := false, event := none, stopping := false, saving := false, unreleased := 0 }

theorem Engine.put_sansR (c v : Nat) : (e.put c v).sansR = e.sansR := rfl

theorem Engine.writeReg_sansR (c v : Nat) : (e.writeReg c v).sansR = e.sansR := by
  unfold Engine.writeReg; dsimp only; split
  · exact Engine.put_sansR ..
  · split
    · rfl
    · exact Engine.put_sansR ..

theorem Engine.foldl_sansR {α : Type} (f : Engine → α → Engine) (hf : ∀ a b, (f a b).sansR = a.sansR) (l : List α) :
    (l.foldl f e).sansR = e.sansR := by
  induction l generalizing e with
  | nil => rfl
  | cons p l ih => rw [List.foldl_cons, ih, hf]

theorem Engine.loads_sansR (l : List (Nat × Nat)) : (l.foldl (fun e l => e.writeReg l.1 l.2) e).sansR = e.sansR := by
  induction l generalizing e with
  | nil => rfl
  | cons p l ih => rw [List.foldl_cons, ih, Engine.writeReg_sansR]

theorem Engine.overflow_sansR (l : List (Nat × Nat × Nat)) : (e.overflow l).sansR = e.sansR := by
  unfold Engine.overflow; split
  · rfl
  · rw [Engine.put_sansR]; split
    · rfl
    · exact Engine.put_sansR ..

theorem Engine.storeSat_sansR (v : Bool) : (e.storeSat v).sansR = e.sansR := by
  unfold Engine.storeSat; split
  · exact Engine.put_sansR ..
  · rfl

theorem Engine.setElem_sansM (b a v : Nat) : (e.setElem b a v).sansM = e.sansM := by
  unfold Engine.setElem; split <;> rfl

theorem Engine.setWord_sansM (b a v : Nat) : (e.setWord b a v).sansM = e.sansM := by
  unfold Engine.setWord; rw [Engine.setElem_sansM, Engine.setElem_sansM]

theorem Engine.setElems_sansM (b : Nat) (l : List Nat) : ∀ (e : Engine) (a : Nat), (e.setElems b a l).sansM = e.sansM := by
  induction l with
  | nil => intro e a; rfl
  | cons v l ih => intro e a; rw [Engine.setElems, ih, Engine.setElem_sansM]

/-- A store changes the memories alone. -/
theorem Engine.stageWB_sansM (u : Uop) : (Engine.stageWB e0 e u).1.sansM = e.sansM := by
  unfold Engine.stageWB Engine.storeOne Engine.storePair Engine.rawSave Engine.regStore
  dsimp only
  repeat' split
  all_goals first | rfl | exact Engine.setElem_sansM e _ _ _ | exact Engine.setWord_sansM e _ _ _

theorem Engine.setAcc_sansA (k : Nat) (re im : Int) : (e.setAcc k re im).sansA = e.sansA := by
  unfold Engine.setAcc; split <;> rfl
theorem Engine.put_sansA (c v : Nat) : (e.put c v).sansA = e.sansA := rfl
theorem Engine.setG_sansA (c : Nat) (v : Bool) : (e.setG c v).sansA = e.sansA := rfl
theorem Engine.accOp_sansA (k kind ctl : Nat) (f : FormOut) : (e.accOp k kind ctl f).1.sansA = e.sansA := by
  unfold Engine.accOp; dsimp only; rw [Engine.put_sansA, Engine.setAcc_sansA]
theorem Engine.srchStep_sansA (k : Nat) (m : Bool) (ctl : Nat) (v : Int) : (e.srchStep k m ctl v).1.sansA = e.sansA := by
  unfold Engine.srchStep; dsimp only; repeat' split
  all_goals simp only [Engine.put_sansA, Engine.setAcc_sansA]
theorem Engine.eachAcc_sansA (acc : Nat) (f : Engine → Nat → Engine) (hf : ∀ c k, (f c k).sansA = c.sansA) :
    (e.eachAcc acc f).sansA = e.sansA := by
  unfold Engine.eachAcc; dsimp only; split <;> split <;> simp only [hf]

/-- The stage M2 changes registers and accumulators alone. -/
theorem Engine.stageM2_sansA (u : Uop) : (e.stageM2 u).1.sansA = e.sansA := by
  unfold Engine.stageM2; dsimp only
  repeat' split
  · unfold Engine.arith; dsimp only; repeat' split
    all_goals simp only [Engine.accOp_sansA]
  · exact e.eachAcc_sansA _ _ fun c k => by simp only [Engine.clrAcc, Engine.put_sansA, Engine.setAcc_sansA]
  · exact e.eachAcc_sansA _ _ fun c k => by simp only [Engine.ldx, Engine.put_sansA, Engine.setAcc_sansA]
  · exact e.eachAcc_sansA _ _ fun c k => by
      unfold Engine.restore; dsimp only; split <;> simp only [Engine.setAcc_sansA]
  · unfold Engine.srch; dsimp only; split <;> simp only [Engine.setG_sansA, Engine.srchStep_sansA]
  · exact e.eachAcc_sansA _ _ fun c k => by simp only [Engine.sinit, Engine.setG_sansA, Engine.put_sansA, Engine.setAcc_sansA]
  · exact e.eachAcc_sansA _ _ fun c k => by simp only [Engine.norm, Engine.put_sansA]
  · rfl

theorem Engine.sansN_of_sansR {a b : Engine} (h : a.sansR = b.sansR) : a.sansN = b.sansN :=
  show a.sansR.sansN = b.sansR.sansN from congrArg Engine.sansN h

/-- The stage NF changes registers, the send queue, the event flag and its acknowledgements, and the count of units not released. -/
theorem Engine.stageNF_sansN (u : Uop) : (Engine.stageNF e0 e u).1.sansN = e.sansN := by
  have h1 : (Engine.nfUpdates e0 e u).sansR = e.sansR := by
    unfold Engine.nfUpdates; dsimp only
    exact e.foldl_sansR _ (fun a c => by split <;> rfl) (List.range 0x12)
  have h2 : (Engine.nfTransfer e0 (Engine.nfUpdates e0 e u) u).sansR = e.sansR := by
    unfold Engine.nfTransfer; split
    · rw [Engine.writeReg_sansR, h1]
    · exact h1
  refine Eq.trans ?_ (Engine.sansN_of_sansR h2)
  show (Engine.nfCtl e0 _ u).sansN = _
  unfold Engine.nfCtl; dsimp only; repeat' split
  · unfold Engine.nfSend; split <;> rfl
  · rfl
  · rfl
  · rfl

/-! ### The stages of a cycle -/

theorem Engine.runM2_sansA : e.runM2.1.sansA = e.sansA := by
  unfold Engine.runM2; split
  · exact Engine.stageM2_sansA ..
  · rfl

theorem Engine.runOF_sansR (young : Bool) : (Engine.runOF e0 e young).sansR = e.sansR := by
  unfold Engine.runOF; split
  · split
    · exact Engine.loads_sansR ..
    · rfl
  · rfl

theorem Engine.runNF_sansN (young : Bool) : (Engine.runNF e0 e young).1.sansN = e.sansN := by
  unfold Engine.runNF; split
  · split
    · exact Engine.stageNF_sansN ..
    · rfl
  · rfl

theorem Engine.runWB_sansM : (Engine.runWB e0 e).1.sansM = e.sansM := by
  unfold Engine.runWB; split
  · exact Engine.stageWB_sansM ..
  · rfl

/-- Without registers, accumulators, X, Y, what NF can change, the stages and the sequencer's part: what no cycle without an outside
effect changes. -/
def Engine.fixed : Engine :=
  { e with
    r := [], acc0re := 0, acc0im := 0, acc1re := 0, acc1im := 0, x := [], y := [], sends := [], begun := [], ev := false, event := none
    stopping := false, saving := false, unreleased := 0, nf := none, of := none, m1 := none, m2 := none, wb := none
    pc := 0, ret := 0, service := false, sinceSafe := 0 }

theorem Engine.fixed_of_sansR {a b : Engine} (h : a.sansR = b.sansR) : a.fixed = b.fixed :=
  show a.sansR.fixed = b.sansR.fixed from congrArg Engine.fixed h
theorem Engine.fixed_of_sansA {a b : Engine} (h : a.sansA = b.sansA) : a.fixed = b.fixed :=
  show a.sansA.fixed = b.sansA.fixed from congrArg Engine.fixed h
theorem Engine.fixed_of_sansM {a b : Engine} (h : a.sansM = b.sansM) : a.fixed = b.fixed :=
  show a.sansM.fixed = b.sansM.fixed from congrArg Engine.fixed h
theorem Engine.fixed_of_sansN {a b : Engine} (h : a.sansN = b.sansN) : a.fixed = b.fixed :=
  show a.sansN.fixed = b.sansN.fixed from congrArg Engine.fixed h

theorem Engine.shift_fixed (of : Option Uop) (young : Bool) : (e.shift e0 of young).fixed = e.fixed := rfl

theorem Engine.stages_fixed (young : Bool) : (e.stages young).1.fixed = e.fixed := by
  unfold Engine.stages; dsimp only
  rw [Engine.shift_fixed, Engine.fixed_of_sansR (Engine.storeSat_sansR ..), Engine.fixed_of_sansR (Engine.overflow_sansR ..),
    Engine.fixed_of_sansM (Engine.runWB_sansM ..), Engine.fixed_of_sansN (Engine.runNF_sansN ..),
    Engine.fixed_of_sansR (Engine.runOF_sansR ..), Engine.fixed_of_sansA (Engine.runM2_sansA ..)]

/-- Two engines with the same accumulators. -/
def Engine.sameAcc (a b : Engine) : Prop :=
  a.acc0re = b.acc0re ∧ a.acc0im = b.acc0im ∧ a.acc1re = b.acc1re ∧ a.acc1im = b.acc1im
theorem Engine.sameAcc.trans {a b c : Engine} (h : a.sameAcc b) (h' : b.sameAcc c) : a.sameAcc c :=
  ⟨h.1.trans h'.1, h.2.1.trans h'.2.1, h.2.2.1.trans h'.2.2.1, h.2.2.2.trans h'.2.2.2⟩
theorem Engine.sameAcc_of_sansR {a b : Engine} (h : a.sansR = b.sansR) : a.sameAcc b :=
  ⟨show a.sansR.acc0re = b.sansR.acc0re from congrArg Engine.acc0re h, show a.sansR.acc0im = b.sansR.acc0im from congrArg Engine.acc0im h, show a.sansR.acc1re = b.sansR.acc1re from congrArg Engine.acc1re h, show a.sansR.acc1im = b.sansR.acc1im from congrArg Engine.acc1im h⟩
theorem Engine.sameAcc_of_sansM {a b : Engine} (h : a.sansM = b.sansM) : a.sameAcc b :=
  ⟨show a.sansM.acc0re = b.sansM.acc0re from congrArg Engine.acc0re h, show a.sansM.acc0im = b.sansM.acc0im from congrArg Engine.acc0im h, show a.sansM.acc1re = b.sansM.acc1re from congrArg Engine.acc1re h, show a.sansM.acc1im = b.sansM.acc1im from congrArg Engine.acc1im h⟩
theorem Engine.sameAcc_of_sansN {a b : Engine} (h : a.sansN = b.sansN) : a.sameAcc b :=
  ⟨show a.sansN.acc0re = b.sansN.acc0re from congrArg Engine.acc0re h, show a.sansN.acc0im = b.sansN.acc0im from congrArg Engine.acc0im h, show a.sansN.acc1re = b.sansN.acc1re from congrArg Engine.acc1re h, show a.sansN.acc1im = b.sansN.acc1im from congrArg Engine.acc1im h⟩
theorem Engine.sameAcc.accRe {a b : Engine} (h : a.sameAcc b) (k : Nat) : a.accRe k = b.accRe k := by
  unfold Engine.accRe; rw [h.1, h.2.2.1]
theorem Engine.sameAcc.accIm {a b : Engine} (h : a.sameAcc b) (k : Nat) : a.accIm k = b.accIm k := by
  unfold Engine.accIm; rw [h.2.1, h.2.2.2]

/-- The accumulators after the stages are those that M2 leaves. -/
theorem Engine.stages_acc (young : Bool) : (e.stages young).1.sameAcc e.runM2.1 :=
  ((Engine.sameAcc_of_sansR (Engine.storeSat_sansR ..)).trans (Engine.sameAcc_of_sansR (Engine.overflow_sansR ..))).trans
    ((Engine.sameAcc_of_sansM (Engine.runWB_sansM ..)).trans
      ((Engine.sameAcc_of_sansN (Engine.runNF_sansN ..)).trans (Engine.sameAcc_of_sansR (Engine.runOF_sansR ..))))

/-- Two engines with the same X and Y. -/
def Engine.sameMem (a b : Engine) : Prop := a.x = b.x ∧ a.y = b.y
theorem Engine.sameMem.trans {a b c : Engine} (h : a.sameMem b) (h' : b.sameMem c) : a.sameMem c := ⟨h.1.trans h'.1, h.2.trans h'.2⟩
theorem Engine.sameMem_of_sansR {a b : Engine} (h : a.sansR = b.sansR) : a.sameMem b := ⟨show a.sansR.x = b.sansR.x from congrArg Engine.x h, show a.sansR.y = b.sansR.y from congrArg Engine.y h⟩
theorem Engine.sameMem_of_sansA {a b : Engine} (h : a.sansA = b.sansA) : a.sameMem b := ⟨show a.sansA.x = b.sansA.x from congrArg Engine.x h, show a.sansA.y = b.sansA.y from congrArg Engine.y h⟩
theorem Engine.sameMem_of_sansN {a b : Engine} (h : a.sansN = b.sansN) : a.sameMem b := ⟨show a.sansN.x = b.sansN.x from congrArg Engine.x h, show a.sansN.y = b.sansN.y from congrArg Engine.y h⟩
theorem Engine.sameMem.elem {a b : Engine} (h : a.sameMem b) (k i : Nat) : a.elem k i = b.elem k i := by
  unfold Engine.elem; rw [h.1, h.2]

/-- X and Y after the stages are those that WB makes of what NF left. -/
theorem Engine.stages_mem (young : Bool) :
    (e.stages young).1.sameMem (Engine.runWB e (Engine.runNF e (Engine.runOF e e.runM2.1 young) young).1).1 :=
  (Engine.sameMem_of_sansR (Engine.storeSat_sansR ..)).trans (Engine.sameMem_of_sansR (Engine.overflow_sansR ..))

theorem Engine.beforeWB_mem (young : Bool) : (Engine.runNF e (Engine.runOF e e.runM2.1 young) young).1.sameMem e :=
  (Engine.sameMem_of_sansN (Engine.runNF_sansN ..)).trans
    ((Engine.sameMem_of_sansR (Engine.runOF_sansR ..)).trans (Engine.sameMem_of_sansA (Engine.runM2_sansA ..)))

/-! ### Memory elements -/

theorem Engine.elem_setElem (b a v b' a' : Nat) (hb : b < 2) (hb' : b' < 2) :
    (e.setElem b a v).elem b' a' = if b' = b ∧ a' % 4096 = a % 4096 then v % 2 ^ 32 else e.elem b' a' := by
  unfold Engine.setElem Engine.elem
  rcases Nat.lt_succ_iff_lt_or_eq.mp hb with h | h <;> rcases Nat.lt_succ_iff_lt_or_eq.mp hb' with h' | h'
  all_goals simp_all [tget_tset]

/-! ### The cycle -/

theorem Engine.runNF_flag (young : Bool) (h : ∀ u, e0.nf = some u → nCtl u.nano = 1 → e0.sends.length < 8) :
    (Engine.runNF e0 e young).2.2 = false := by
  unfold Engine.runNF
  split
  · rename_i u hu
    split
    · show (nCtl u.nano == 1 && decide (8 ≤ e0.sends.length)) = false
      have := h u hu
      by_cases h1 : nCtl u.nano = 1
      · have := this h1; simp [h1]; omega
      · simp [h1]
    · rfl
  · rfl

theorem Engine.setLdepth_sansR (d : Nat) : (e.setLdepth d).sansR = e.sansR := Engine.put_sansR ..

theorem Engine.mergeLoops_sansR (m : Engine) : (e.mergeLoops e0 m).sansR = e.sansR := by
  unfold Engine.mergeLoops; dsimp only
  have h := e.foldl_sansR (fun (e : Engine) i =>
    if e0.written.contains (0x0C + i) then e else e.put (0x0C + i) (m.raw (0x0C + i)))
    (fun a b => by split <;> rfl) (List.range 4)
  split
  · exact h
  · rw [Engine.setLdepth_sansR]; exact h

/-- A microword without a yield in stage MF, and no entry into the service routine. -/
theorem Engine.stageMF_plain (w : Nat) (hy : mYield w = false) (hs : mSafe w = false ∨ e.ev = false ∨ e.service = true) :
    e.stageMF w = ({ (e.sequence w).1 with
      pc := (e.sequence w).2, service := e.service && !(mCond w == 14 && mLoop w != 2)
      nf := some { nano := tget (dconst 0) e.nano (mNano w), xmod := mXMod w, ymod := mYMod w, frame := if e.busy then e.frames.head? else none }
      sinceSafe := if mSafe w && !e.service then 0 else e.sinceSafe + 1 }, []) := by
  have h : (mSafe w && e.ev && !e.service) = false := by rcases hs with h | h | h <;> simp [h]
  unfold Engine.stageMF
  simp only [hy, h, Bool.false_eq_true, if_false]

/-- The sequencer's part of a plain cycle. -/
def Engine.sequencedPlain (a e0 m : Engine) : Engine :=
  { a.mergeLoops e0 m with pc := m.pc, ret := m.ret, service := m.service, nf := m.nf, sinceSafe := m.sinceSafe }

/-- A plain cycle brings about nothing outside the engine, and is its stages with the sequencer's part and the cycle count. -/
theorem Engine.cycle_plain (h : e.Plain) :
    e.cycle false false = (((e.stages true).1.sequencedPlain e (e.stageMF (tget (dconst 0) e.micro e.pc)).1).countCycle, []) := by
  obtain ⟨_, h2, h3, h4, h5⟩ := h
  have hs : (mSafe (tget (dconst 0) e.micro e.pc) && e.ev && !e.service) = false := by rcases h4 with h | h | h <;> simp [h]
  have hflag : (e.stages true).2 = false := Engine.runNF_flag _ _ _ h2
  have hev : (e.stages true).1.events = [] := by
    have := congrArg Engine.events (e.stages_fixed true)
    exact (show (e.stages true).1.events = e.events from this).trans h5
  unfold Engine.cycle
  simp only [Bool.false_eq_true, if_false, hflag, h3]
  have hm : (e.stageMF (tget (dconst 0) e.micro e.pc)).2 = [] := by rw [Engine.stageMF_plain _ _ h3 h4]
  have hseq : (e.stages true).1.sequenced e (e.stageMF (tget (dconst 0) e.micro e.pc)).1 (tget (dconst 0) e.micro e.pc)
      = (e.stages true).1.sequencedPlain e (e.stageMF (tget (dconst 0) e.micro e.pc)).1 := by
    unfold Engine.sequenced Engine.sequencedPlain
    simp only [hs, Bool.false_eq_true, if_false]
  rw [hm, hseq]
  simp only [List.contains_nil, Bool.false_eq_true, if_false]
  have hev2 : (((e.stages true).1.sequencedPlain e (e.stageMF (tget (dconst 0) e.micro e.pc)).1).countCycle).events = [] := by
    refine Eq.trans ?_ hev
    exact show ((e.stages true).1.mergeLoops e _).sansR.events = (e.stages true).1.sansR.events from
      congrArg Engine.events (Engine.mergeLoops_sansR ..)
  unfold Engine.nextEvent
  rw [hev2]
  split
  · simp_all
  · rfl

/-- The registers of a plain cycle's result but for the loop counters, st and cyc are those the stages leave. -/
theorem Engine.cycle_plain_sansR (h : e.Plain) : ∃ a : Engine, a.sansR = (e.stages true).1.sansR ∧
    (e.cycle false false).1 = { a with
      pc := (e.sequence (tget (dconst 0) e.micro e.pc)).2, ret := e.ret
      service := e.service && !(mCond (tget (dconst 0) e.micro e.pc) == 14 && mLoop (tget (dconst 0) e.micro e.pc) != 2)
      nf := some { nano := tget (dconst 0) e.nano (mNano (tget (dconst 0) e.micro e.pc)), xmod := mXMod (tget (dconst 0) e.micro e.pc)
                   ymod := mYMod (tget (dconst 0) e.micro e.pc), frame := if e.busy then e.frames.head? else none }
      sinceSafe := if mSafe (tget (dconst 0) e.micro e.pc) && !e.service then 0 else e.sinceSafe + 1 } := by
  refine ⟨((e.stages true).1.mergeLoops e (e.stageMF (tget (dconst 0) e.micro e.pc)).1).countCycle, ?_, ?_⟩
  · exact (Engine.put_sansR ..).trans (Engine.mergeLoops_sansR ..)
  · rw [Engine.cycle_plain e h, Engine.stageMF_plain e _ h.2.2.1 h.2.2.2.1]
    have hret : (e.sequence (tget (dconst 0) e.micro e.pc)).1.ret = e.ret := by
      unfold Engine.sequence; dsimp only; repeat' split
      all_goals rfl
    unfold Engine.sequencedPlain Engine.countCycle Engine.put Engine.raw
    simp only [hret]

theorem Engine.plain_acc (h : e.Plain) : (e.cycle false false).1.sameAcc e.runM2.1 := by
  obtain ⟨a, ha, hc⟩ := e.cycle_plain_sansR h
  rw [hc]
  exact Engine.sameAcc.trans (b := a) ⟨rfl, rfl, rfl, rfl⟩ ((Engine.sameAcc_of_sansR ha).trans (e.stages_acc true))

theorem Engine.plain_mem (h : e.Plain) :
    (e.cycle false false).1.sameMem (Engine.runWB e (Engine.runNF e (Engine.runOF e e.runM2.1 true) true).1).1 := by
  obtain ⟨a, ha, hc⟩ := e.cycle_plain_sansR h
  rw [hc]
  exact Engine.sameMem.trans (b := a) ⟨rfl, rfl⟩ ((Engine.sameMem_of_sansR ha).trans (e.stages_mem true))

/-- With no store in WB, X and Y are as before. -/
theorem Engine.plain_mem_none (h : e.Plain) (hw : e.wb = none) : (e.cycle false false).1.sameMem e := by
  refine (e.plain_mem h).trans ?_
  have : ∀ a : Engine, Engine.runWB e a = (a, false) := fun a => by unfold Engine.runWB; rw [hw]
  rw [this]; exact e.beforeWB_mem true

/-- With no operation in M2, the accumulators are as before. -/
theorem Engine.plain_acc_none (h : e.Plain) (hm : e.m2 = none) : (e.cycle false false).1.sameAcc e := by
  refine (e.plain_acc h).trans ?_
  unfold Engine.runM2; rw [hm]; exact ⟨rfl, rfl, rfl, rfl⟩

theorem Engine.plain_pc (h : e.Plain) : (e.cycle false false).1.pc = (e.sequence (tget (dconst 0) e.micro e.pc)).2 := by
  obtain ⟨a, _, hc⟩ := e.cycle_plain_sansR h; rw [hc]

/-- What becomes of the images, the receive area, the frames and the slot: nothing. -/
theorem Engine.plain_fixed (h : e.Plain) : (e.cycle false false).1.fixed = e.fixed := by
  obtain ⟨a, ha, hc⟩ := e.cycle_plain_sansR h
  rw [hc]
  exact (show _ = a.fixed from rfl).trans ((Engine.fixed_of_sansR ha).trans (e.stages_fixed true))

/-! ### Accumulators -/

/-- A register write leaves the accumulators. -/
theorem Engine.put_acc (e : Engine) (c v k : Nat) : (e.put c v).accRe k = e.accRe k ∧ (e.put c v).accIm k = e.accIm k := ⟨rfl, rfl⟩
theorem Engine.setAcc_acc (e : Engine) (k : Nat) (re im : Int) (j : Nat) (hk : k < 2) (hj : j < 2) :
    (e.setAcc k re im).accRe j = (if j = k then re else e.accRe j) ∧ (e.setAcc k re im).accIm j = (if j = k then im else e.accIm j) := by
  unfold Engine.setAcc
  obtain rfl | rfl : k = 0 ∨ k = 1 := by omega
  all_goals obtain rfl | rfl : j = 0 ∨ j = 1 := by omega
  all_goals exact ⟨rfl, rfl⟩
theorem Engine.accOp_acc (e : Engine) (k kind ctl : Nat) (f : FormOut) (j : Nat) (hk : k < 2) (hj : j < 2) :
    (e.accOp k kind ctl f).1.accRe j = (if j = k then accFit (satOf ctl k) (combine kind (e.accRe k) f.p.re) else e.accRe j)
    ∧ (e.accOp k kind ctl f).1.accIm j = (if j = k then (if f.im then accFit (satOf ctl k) (combine kind (e.accIm k) f.p.im) else e.accIm k) else e.accIm j) := by
  have h := Engine.setAcc_acc e k (accFit (satOf ctl k) (combine kind (e.accRe k) f.p.re)) (if f.im then accFit (satOf ctl k) (combine kind (e.accIm k) f.p.im) else e.accIm k) j hk hj
  exact h
/-- SET, ADD and SUB on one accumulator. -/
theorem Engine.arith_acc (e : Engine) (u : Uop) (k : Nat) (hk : k < 2) :
    match formOut (nForm u.nano) (nConj u.nano) (nSqr u.nano) u.xw u.yw (nAcc u.nano) k with
        | some f => (e.arith u).1.accRe k = accFit (satOf u.ctl k) (combine (nArith u.nano) (e.accRe k) f.p.re)
            ∧ (e.arith u).1.accIm k = (if f.im then accFit (satOf u.ctl k) (combine (nArith u.nano) (e.accIm k) f.p.im) else e.accIm k)
        | none => (e.arith u).1.accRe k = e.accRe k ∧ (e.arith u).1.accIm k = e.accIm k := by
  unfold Engine.arith
  dsimp only
  rcases hk0 : formOut (nForm u.nano) (nConj u.nano) (nSqr u.nano) u.xw u.yw (nAcc u.nano) 0 with _ | f0 <;>
  rcases hk1 : formOut (nForm u.nano) (nConj u.nano) (nSqr u.nano) u.xw u.yw (nAcc u.nano) 1 with _ | f1 <;>
  obtain rfl | rfl : k = 0 ∨ k = 1 := by omega
  all_goals simp only [hk0, hk1, Engine.accOp_acc, show (0:Nat) < 2 by omega, show (1:Nat) < 2 by omega, if_true, show ((0:Nat) = 1) = False by simp, show ((1:Nat) = 0) = False by simp, if_false, and_self]

theorem Engine.raw_put (e : Engine) (c v j : Nat) : (e.put c v).raw j = if j = c then v else e.raw j := by
  unfold Engine.raw Engine.put; exact tget_tset ..

theorem Engine.raw_setAcc (e : Engine) (k : Nat) (re im : Int) (j : Nat) (h : j ≠ 0x16) : (e.setAcc k re im).raw j = e.raw j := by
  unfold Engine.setAcc
  dsimp only
  rw [Engine.raw_put, if_neg h]
  split <;> rfl

theorem Engine.raw_overflow (e : Engine) (l : List (Nat × Nat × Nat)) (j : Nat) (h : j ≠ 0x16) (h' : j ≠ 0x18) :
    (e.overflow l).raw j = e.raw j := by
  unfold Engine.overflow
  split
  · rfl
  · rw [Engine.raw_put, if_neg h]
    split
    · rfl
    · rw [Engine.raw_put, if_neg h']

theorem Engine.raw_storeSat (e : Engine) (v : Bool) (j : Nat) (h : j ≠ 0x16) : (e.storeSat v).raw j = e.raw j := by
  unfold Engine.storeSat
  split
  · rw [Engine.raw_put, if_neg h]
  · rfl

theorem Engine.raw_congr {a b : Engine} (h : a.r = b.r) (j : Nat) : a.raw j = b.raw j := by unfold Engine.raw; rw [h]

theorem Engine.raw_mergeLoops (e e0 m : Engine) (j : Nat) (h : j < 0x0C ∨ 0x0F < j) (h' : j ≠ 0x16) :
    (e.mergeLoops e0 m).raw j = e.raw j := by
  have hf : ∀ (l : List Nat) (a : Engine), (∀ i ∈ l, i < 4) → (l.foldl (fun (e : Engine) i =>
      if e0.written.contains (0x0C + i) then e else e.put (0x0C + i) (m.raw (0x0C + i))) a).raw j = a.raw j := by
    intro l
    induction l with
    | nil => intro a _; rfl
    | cons i l ih =>
      intro a hl
      rw [List.foldl_cons, ih _ (fun i hi => hl i (List.mem_cons_of_mem _ hi))]
      have := hl i List.mem_cons_self
      split
      · rfl
      · rw [Engine.raw_put, if_neg (by omega)]
  unfold Engine.mergeLoops
  dsimp only
  have hr := hf (List.range 4) e (fun i hi => List.mem_range.mp hi)
  split
  · exact hr
  · unfold Engine.setLdepth; rw [Engine.raw_put, if_neg h']; exact hr

/-- A register that is neither a loop counter nor st, ovf_at or cyc, after a plain cycle: what NF, OF and M2 made of it. -/
theorem Engine.plain_raw (e : Engine) (h : e.Plain) (j : Nat) (h1 : j < 0x0C ∨ 0x0F < j) (h2 : j ≠ 0x16) (h3 : j ≠ 0x18) (h4 : j ≠ 0x1A) :
    (e.cycle false false).1.raw j = (Engine.runNF e (Engine.runOF e e.runM2.1 true) true).1.raw j := by
  rw [Engine.cycle_plain e h]
  show ((e.stages true).1.sequencedPlain e _).countCycle.raw j = _
  unfold Engine.countCycle
  rw [Engine.raw_put, if_neg h4]
  refine Eq.trans (b := ((e.stages true).1.mergeLoops e (e.stageMF (tget (dconst 0) e.micro e.pc)).1).raw j) rfl ?_
  rw [Engine.raw_mergeLoops _ _ _ _ h1 h2]
  show (((_ : Engine).overflow _).storeSat _).raw j = _
  rw [Engine.raw_storeSat _ _ _ h2, Engine.raw_overflow _ _ _ h2 h3]
  exact Engine.raw_congr (show (Engine.sansM _).r = (Engine.sansM _).r from congrArg Engine.r (Engine.runWB_sansM _ e)) j

/-- With nothing in OF and NF, such a register is what M2 made of it. -/
theorem Engine.plain_raw_m2 (e : Engine) (h : e.Plain) (ho : e.of = none) (hn : e.nf = none) (j : Nat) (h1 : j < 0x0C ∨ 0x0F < j)
    (h2 : j ≠ 0x16) (h3 : j ≠ 0x18) (h4 : j ≠ 0x1A) : (e.cycle false false).1.raw j = e.runM2.1.raw j := by
  rw [Engine.plain_raw e h j h1 h2 h3 h4]
  unfold Engine.runNF Engine.runOF
  rw [hn, ho]

end Sys2Proof.Machine
end

