-- ==== Sys2Proof/Laws/Keep.lean ====
section
/-! SUPPORT. What it is for an answer to keep the canonical form of the memories, and the steps of such a proof: a record update elsewhere, a choice, a fold, a match on an answer. -/

namespace Sys2Proof.Machine

open Sys2Proof

/-- An action that answers a state answers one in canonical form. -/
def OkMem (x : Except Nat State) : Prop := ∀ u, x = .ok u → u.memoryWf = true
def SomeMem (x : Option State) : Prop := ∀ u, x = some u → u.memoryWf = true
def OutMem (x : Outcome) : Prop := ∀ u, x = .next u → u.memoryWf = true

/-- A record that takes the four memories of a state has its form. -/
theorem memMk {pending now out fresh regs doms time syn clk tdc stat dict pantry steward life power slots link chan line pat trig lane weir trigLog engine ring pipe map hbm pool bank pc tolerance disp xfer stream host drive store join posn arr hk cal tap scan} {s : State} (h1 : regs = s.regs) (h2 : doms = s.doms) (h3 : hbm = s.hbm) (h4 : pool = s.pool)
    (h : s.memoryWf = true) : (State.mk pending now out fresh regs doms time syn clk tdc stat dict pantry steward life power slots link chan line pat trig lane weir trigLog engine ring pipe map hbm pool bank pc tolerance disp xfer stream host drive store join posn arr hk cal tap scan).memoryWf = true := by
  subst h1 h2 h3 h4; exact h

theorem memFields {s : State} : s.memoryWf = true ↔
    twf objDefault s.regs = true ∧ twf domDefault s.doms = true ∧ twf (dconst 0) s.hbm = true ∧ twf (dconst 0) s.pool = true := by
  unfold State.memoryWf; rw [Bool.and_eq_true, Bool.and_eq_true, Bool.and_eq_true, and_assoc, and_assoc]

theorem memIte {c : Prop} [Decidable c] {a b : State} (ha : a.memoryWf = true) (hb : b.memoryWf = true) : (if c then a else b).memoryWf = true := by
  split; exact ha; exact hb
theorem memIte1 {α : Type} {c : Prop} [Decidable c] {a b : State × α} (ha : a.1.memoryWf = true) (hb : b.1.memoryWf = true) : (if c then a else b).1.memoryWf = true := by
  split; exact ha; exact hb
theorem memIte2 {α : Type} {c : Prop} [Decidable c] {a b : α × State} (ha : a.2.memoryWf = true) (hb : b.2.memoryWf = true) : (if c then a else b).2.memoryWf = true := by
  split; exact ha; exact hb
theorem okIte {c : Prop} [Decidable c] {a b : Except Nat State} (ha : OkMem a) (hb : OkMem b) : OkMem (if c then a else b) := by
  split; exact ha; exact hb
theorem outIte {c : Prop} [Decidable c] {a b : Outcome} (ha : OutMem a) (hb : OutMem b) : OutMem (if c then a else b) := by
  split; exact ha; exact hb
theorem someIte {c : Prop} [Decidable c] {a b : Option State} (ha : SomeMem a) (hb : SomeMem b) : SomeMem (if c then a else b) := by
  split; exact ha; exact hb
theorem okOk {u : State} (h : u.memoryWf = true) : OkMem (.ok u) := by intro v hv; cases hv; exact h
theorem okErr {c : Nat} : OkMem (.error c) := by intro v hv; cases hv
theorem someSome {u : State} (h : u.memoryWf = true) : SomeMem (some u) := by intro v hv; cases hv; exact h
theorem someNone : SomeMem none := by intro v hv; cases hv
theorem outNext {u : State} (h : u.memoryWf = true) : OutMem (.next u) := by intro v hv; cases hv; exact h
theorem memFoldl {β : Type} {f : State → β → State} {l : List β} {s : State} (hf : ∀ (s : State) (x : β), s.memoryWf = true → (f s x).memoryWf = true)
    (h : s.memoryWf = true) : (l.foldl f s).memoryWf = true := by
  induction l generalizing s with
  | nil => exact h
  | cons x l ih => exact ih (hf s x h)
theorem memFoldl1 {α β : Type} {f : State × α → β → State × α} {l : List β} {p : State × α} (hf : ∀ (p : State × α) (x : β), p.1.memoryWf = true → (f p x).1.memoryWf = true)
    (h : p.1.memoryWf = true) : (l.foldl f p).1.memoryWf = true := by
  induction l generalizing p with
  | nil => exact h
  | cons x l ih => exact ih (hf p x h)
theorem memFoldl2 {α β : Type} {f : α × State → β → α × State} {l : List β} {p : α × State} (hf : ∀ (p : α × State) (x : β), p.2.memoryWf = true → (f p x).2.memoryWf = true)
    (h : p.2.memoryWf = true) : (l.foldl f p).2.memoryWf = true := by
  induction l generalizing p with
  | nil => exact h
  | cons x l ih => exact ih (hf p x h)
theorem memElim {α : Type} {o : Option α} {u : State} {f : α → State} (h : u.memoryWf = true) (hf : ∀ x, (f x).memoryWf = true) : (o.elim u f).memoryWf = true := by
  cases o; exact h; exact hf _
theorem memOk {x : Except Nat State} {u : State} (h : x = .ok u) (hx : OkMem x) : u.memoryWf = true := hx u h
theorem memSome {x : Option State} {u : State} (h : x = some u) (hx : SomeMem x) : u.memoryWf = true := hx u h
theorem memPair {α : Type} {x : State × α} {u : State} {y : α} (h : x = (u, y)) (hx : x.1.memoryWf = true) : u.memoryWf = true := by subst h; exact hx
theorem memPair2 {α : Type} {x : α × State} {u : State} {y : α} (h : x = (y, u)) (hx : x.2.memoryWf = true) : u.memoryWf = true := by subst h; exact hx

theorem memCut {P : Prop} (s : State) (h : s.memoryWf = true) (hp : s.memoryWf = true → P) : P := hp h
theorem okCut {P : Prop} (x : Except Nat State) (h : OkMem x) (hp : OkMem x → P) : P := hp h
theorem someCut {P : Prop} (x : Option State) (h : SomeMem x) (hp : SomeMem x → P) : P := hp h
theorem pairCut {α : Type} {P : Prop} (x : State × α) (h : x.1.memoryWf = true) (hp : x.1.memoryWf = true → P) : P := hp h
theorem pairCut2 {α : Type} {P : Prop} (x : α × State) (h : x.2.memoryWf = true) (hp : x.2.memoryWf = true → P) : P := hp h
theorem funCut {α β : Type} {P : Prop} (_ : α → β) (h : P) : P := h

theorem twfFrom_filter {α : Type} [DecidableEq α] (d : Nat → α) (q : Nat × α → Bool) (t : Tab α) : ∀ lo, twfFrom d lo t = true → twfFrom d lo (t.filter q) = true := by
  induction t with
  | nil => intro lo h; exact h
  | cons p t ih =>
    obtain ⟨k, v⟩ := p
    intro lo h
    simp only [twfFrom, Bool.and_eq_true, decide_eq_true_eq] at h
    rw [List.filter_cons]; split
    · simp only [twfFrom, Bool.and_eq_true, decide_eq_true_eq]; exact ⟨h.1, ih _ h.2⟩
    · exact twfFrom_weaken d (by omega) _ (ih _ h.2)
theorem twf_filter {α : Type} [DecidableEq α] (d : Nat → α) (q : Nat × α → Bool) (t : Tab α) (h : twf d t = true) : twf d (t.filter q) = true :=
  twfFrom_filter d q t 0 h

end Sys2Proof.Machine
end

