-- ==== Sys2Proof/Laws/KeepOps.lean ====
section
/-! SUPPORT. The definitions of these files of Machine keep the canonical form of the memories: State, Ops, Routes, Lines, Clock, RingOps, Maps, SlotOps, Images, Faults, XferOps. -/

namespace Sys2Proof.Machine

open Sys2Proof

theorem State.reset_mem : State.reset.memoryWf = true := by decide

theorem State.wr_mem (s : State) (k v : Nat) (h : s.memoryWf = true) : (s.wr k v).memoryWf = true := by
  rw [memFields] at *; exact ⟨twf_tset _ _ _ _ h.1, h.2⟩

theorem State.setDom_mem (s : State) (k : Nat) (b : Bytes) (h : s.memoryWf = true) : (s.setDom k b).memoryWf = true := by
  rw [memFields] at *; exact ⟨h.1, twf_tset _ _ _ _ h.2.1, h.2.2⟩

theorem State.bumpBy_mem (s : State) (k n : Nat) (hM : s.memoryWf = true) :
    (State.bumpBy s k n).memoryWf = true := by
  unfold State.bumpBy
  repeat' first | with_reducible (first | assumption | apply State.wr_mem | apply memIte)

theorem State.bump_mem (s : State) (k : Nat) (hM : s.memoryWf = true) :
    (State.bump s k).memoryWf = true := by
  unfold State.bump
  repeat' first | with_reducible (first | assumption | apply State.bumpBy_mem)

theorem State.wrs_mem (l : List (Nat × Nat)) : ∀ s : State, s.memoryWf = true → (s.wrs l).memoryWf = true := by
  induction l with
  | nil => intro s h; exact h
  | cons p l ih => obtain ⟨k, v⟩ := p; exact fun s h => ih _ (s.wr_mem k v h)

theorem State.clr_mem (s : State) (k : Nat) (hM : s.memoryWf = true) :
    (State.clr s k).memoryWf = true := by
  unfold State.clr
  repeat' first | with_reducible (first | assumption | apply State.wr_mem)

theorem State.free_mem (s : State) (tag : Nat) (hM : s.memoryWf = true) :
    (State.free s tag).2.memoryWf = true := by
  unfold State.free
  repeat' first | lift_lets -underBinder | with_reducible (first | assumption | (fail_if_no_progress refine memMk rfl rfl rfl rfl ?_))

theorem State.emit_mem (s : State) (o : Out) (hM : s.memoryWf = true) :
    (State.emit s o).memoryWf = true := by
  unfold State.emit
  exact hM

theorem State.msix_mem (s : State) (v : Nat) (hM : s.memoryWf = true) :
    (State.msix s v).memoryWf = true := by
  unfold State.msix
  repeat' first | with_reducible (first | assumption | apply State.emit_mem | apply memIte)

theorem State.advance_mem (s : State) (t : Nat) (hM : s.memoryWf = true) :
    (State.advance s t).memoryWf = true := by
  unfold State.advance
  exact hM

theorem State.setHbm_mem (s : State) (da : Nat) (b : Byte) (h : s.memoryWf = true) : (s.setHbm da b).memoryWf = true := by
  rw [memFields] at *; exact ⟨h.1, h.2.1, twf_tset _ _ _ _ h.2.2.1, h.2.2.2⟩

theorem State.hbmWrite_mem (b : Bytes) : ∀ (s : State) (da : Nat), s.memoryWf = true → (s.hbmWrite da b).memoryWf = true := by
  induction b with
  | nil => intro s da h; exact h
  | cons v l ih => exact fun s da h => ih _ _ (s.setHbm_mem da v h)

theorem State.setSlot_mem (s : State) (n : Nat) (x : Slot) (hM : s.memoryWf = true) :
    (State.setSlot s n x).memoryWf = true := by
  unfold State.setSlot
  exact hM

theorem State.modSlot_mem (s : State) (n : Nat) (f : Slot → Slot) (hM : s.memoryWf = true) :
    (State.modSlot s n f).memoryWf = true := by
  unfold State.modSlot
  repeat' first | with_reducible (first | assumption | apply State.setSlot_mem)

theorem State.settle_mem (s : State) (hM : s.memoryWf = true) :
    (State.settle s).memoryWf = true := by
  unfold State.settle
  repeat' first | (intro x; refine memCut x ?_ fun _ => ?_; (on_goal 1 => subst x); (on_goal 2 => clear_value x)) | (intro x; clear_value x) | lift_lets -underBinder | with_reducible (first | assumption | apply State.wr_mem | apply memIte | (fail_if_no_progress refine memMk rfl rfl rfl rfl ?_) | (refine memOk (by assumption) ?_)) | split

theorem State.step430_mem (s : State) (T : Int) (cls : Nat) (epoch : Option Nat) (realign : Bool) (hM : s.memoryWf = true) :
    (State.step430 s T cls epoch realign).memoryWf = true := by
  unfold State.step430
  repeat' first | (intro x; refine memCut x ?_ fun _ => ?_; (on_goal 1 => subst x); (on_goal 2 => clear_value x)) | (intro x; clear_value x) | lift_lets -underBinder | with_reducible (first | assumption | apply State.bump_mem | apply State.wr_mem | apply memIte | (fail_if_no_progress refine memMk rfl rfl rfl rfl ?_))

theorem State.emcy_mem (s : State) (e : FaultEntry) (hM : s.memoryWf = true) :
    (State.emcy s e).memoryWf = true := by
  unfold State.emcy
  repeat' first | (intro x; clear_value x) | lift_lets -underBinder | with_reducible (first | assumption | apply memIte | (fail_if_no_progress refine memMk rfl rfl rfl rfl ?_))

theorem State.faultLog_mem (s : State) (cls cause unit slot flags detail : Nat) (hM : s.memoryWf = true) :
    (State.faultLog s cls cause unit slot flags detail).memoryWf = true := by
  unfold State.faultLog
  repeat' first | (intro x; refine memCut x ?_ fun _ => ?_; (on_goal 1 => subst x); (on_goal 2 => clear_value x)) | (intro x; clear_value x) | lift_lets -underBinder | with_reducible (first | assumption | apply State.bump_mem | apply State.wr_mem | apply State.emcy_mem | apply State.msix_mem | apply memIte | (fail_if_no_progress refine memMk rfl rfl rfl rfl ?_))

theorem State.assume_mem (s : State) (k : Nat) (hM : s.memoryWf = true) :
    (State.assume s k).memoryWf = true := by
  unfold State.assume
  repeat' first | (intro x; refine memCut x ?_ fun _ => ?_; (on_goal 1 => subst x); (on_goal 2 => clear_value x)) | (intro x; clear_value x) | lift_lets -underBinder | with_reducible (first | assumption | apply State.wr_mem | apply State.msix_mem | apply memIte)

theorem State.assumeEnds_mem (s : State) (k : Nat) (hM : s.memoryWf = true) :
    (State.assumeEnds s k).memoryWf = true := by
  unfold State.assumeEnds
  repeat' first | with_reducible (first | assumption | apply State.wr_mem)

theorem State.assumeIs_mem (s : State) (k : Nat) (v : Bool) (hM : s.memoryWf = true) :
    (State.assumeIs s k v).memoryWf = true := by
  unfold State.assumeIs
  repeat' first | with_reducible (first | assumption | apply State.assume_mem | apply State.assumeEnds_mem | apply memIte)

theorem State.countCorrected_mem (s : State) (i : Nat) (hM : s.memoryWf = true) :
    (State.countCorrected s i).memoryWf = true := by
  unfold State.countCorrected
  exact hM

theorem State.countUncorrected_mem (s : State) (i : Nat) (hM : s.memoryWf = true) :
    (State.countUncorrected s i).memoryWf = true := by
  unfold State.countUncorrected
  exact hM

theorem State.setQuad_mem (s : State) (q v : Nat) (hM : s.memoryWf = true) :
    (State.setQuad s q v).memoryWf = true := by
  unfold State.setQuad
  exact hM

theorem State.quadsUp_mem (s : State) (l : List Nat) (hM : s.memoryWf = true) :
    (State.quadsUp s l).memoryWf = true := by
  unfold State.quadsUp
  repeat' first | (with_reducible intro _) | with_reducible (first | assumption | apply State.setQuad_mem | apply memFoldl)

theorem State.calRelease_mem (s : State) (hM : s.memoryWf = true) :
    (State.calRelease s).memoryWf = true := by
  unfold State.calRelease
  repeat' first | (with_reducible intro _) | lift_lets -underBinder | with_reducible (first | assumption | apply memIte | (fail_if_no_progress refine memMk rfl rfl rfl rfl ?_) | (refine memOk (by assumption) ?_)) | split

theorem State.calEnd_mem (s : State) (code : Nat) (item : Option Nat) (hM : s.memoryWf = true) :
    (State.calEnd s code item).memoryWf = true := by
  unfold State.calEnd
  repeat' first | (intro x; refine memCut x ?_ fun _ => ?_; (on_goal 1 => subst x); (on_goal 2 => clear_value x)) | (intro x; clear_value x) | lift_lets -underBinder | with_reducible (first | assumption | apply State.calRelease_mem | apply State.wr_mem | apply memIte | (fail_if_no_progress refine memMk rfl rfl rfl rfl ?_) | (refine memOk (by assumption) ?_)) | split

theorem State.calUnlock_mem (s : State) (hM : s.memoryWf = true) :
    (State.calUnlock s).memoryWf = true := by
  unfold State.calUnlock
  repeat' first | with_reducible (first | assumption | apply State.calEnd_mem | apply memIte)

theorem State.calLinkLost_mem (s : State) (j : Nat) (hM : s.memoryWf = true) :
    (State.calLinkLost s j).memoryWf = true := by
  unfold State.calLinkLost
  repeat' first | (intro x; clear_value x) | lift_lets -underBinder | with_reducible (first | assumption | apply memIte | (fail_if_no_progress refine memMk rfl rfl rfl rfl ?_) | (refine memOk (by assumption) ?_)) | split

theorem State.calSample_mem (s : State) (k st w : Nat) (hM : s.memoryWf = true) :
    (State.calSample s k st w).memoryWf = true := by
  unfold State.calSample
  repeat' first | (intro x; clear_value x) | lift_lets -underBinder | with_reducible (first | assumption | apply memIte | (fail_if_no_progress refine memMk rfl rfl rfl rfl ?_))

theorem State.debugTouch_mem (s : State) (c : Nat) (hM : s.memoryWf = true) :
    (State.debugTouch s c).memoryWf = true := by
  unfold State.debugTouch
  repeat' first | (intro x; clear_value x) | lift_lets -underBinder | with_reducible (first | assumption | apply memIte | (fail_if_no_progress refine memMk rfl rfl rfl rfl ?_))

theorem State.noted_mem (s : State) (k : Nat) (hM : s.memoryWf = true) :
    (State.noted s k).memoryWf = true := by
  unfold State.noted
  repeat' first | (intro x; clear_value x) | lift_lets -underBinder | with_reducible (first | assumption | apply memIte | (fail_if_no_progress refine memMk rfl rfl rfl rfl ?_))

theorem State.checkpoint_mem (s : State) (hM : s.memoryWf = true) :
    (State.checkpoint s).memoryWf = true := by
  unfold State.checkpoint
  repeat' first | (intro x; clear_value x) | lift_lets -underBinder | with_reducible (first | assumption | apply memIte | (fail_if_no_progress refine memMk rfl rfl rfl rfl ?_))

theorem State.respond_mem (s : State) (code : Nat) (hM : s.memoryWf = true) :
    (State.respond s code).memoryWf = true := by
  unfold State.respond
  exact hM

theorem State.complete_mem (s : State) (hM : s.memoryWf = true) :
    (State.complete s).memoryWf = true := by
  unfold State.complete
  repeat' first | with_reducible (first | assumption | apply State.settle_mem | apply State.respond_mem)

theorem State.serve_mem (s : State) (t : Nat) (f : Act) (hM : s.memoryWf = true) (hf : ∀ s, s.memoryWf = true → OkMem (f s)) :
    (State.serve s t f).memoryWf = true := by
  unfold State.serve
  repeat' first | (intro x; refine memCut x ?_ fun _ => ?_; (on_goal 1 => subst x); (on_goal 2 => clear_value x)) | lift_lets -underBinder | with_reducible (first | assumption | apply State.advance_mem | apply State.respond_mem | apply State.complete_mem | apply hf | apply memIte | (fail_if_no_progress refine memMk rfl rfl rfl rfl ?_) | (refine memOk (by assumption) ?_)) | split

theorem State.closing_mem (s : State) (hM : s.memoryWf = true) :
    (State.closing s).memoryWf = true := by
  unfold State.closing
  repeat' first | (intro x; clear_value x) | lift_lets -underBinder | with_reducible (first | assumption | apply State.respond_mem | apply State.complete_mem | (fail_if_no_progress refine memMk rfl rfl rfl rfl ?_) | (refine memOk (by assumption) ?_)) | split

theorem State.serveNoting_mem (s : State) (t : Nat) (f : Act) (hM : s.memoryWf = true) (hf : ∀ s, s.memoryWf = true → OkMem (f s)) :
    (State.serveNoting s t f).memoryWf = true := by
  unfold State.serveNoting
  repeat' first | (intro x; refine memCut x ?_ fun _ => ?_; (on_goal 1 => subst x); (on_goal 2 => clear_value x)) | lift_lets -underBinder | with_reducible (first | assumption | apply State.advance_mem | apply State.respond_mem | apply State.closing_mem | apply hf | apply memIte | (fail_if_no_progress refine memMk rfl rfl rfl rfl ?_) | (refine memOk (by assumption) ?_)) | split

theorem State.abortAs_mem (s : State) (c : Nat) (hM : s.memoryWf = true) :
    (State.abortAs s c).memoryWf = true := by
  unfold State.abortAs
  exact hM

theorem State.setPort_mem (s : State) (k : Nat) (x : JoinPort) (hM : s.memoryWf = true) :
    (State.setPort s k x).memoryWf = true := by
  unfold State.setPort
  exact hM

theorem State.setPos_mem (s : State) (o : Nat) (x : PosState) (hM : s.memoryWf = true) :
    (State.setPos s o x).memoryWf = true := by
  unfold State.setPos
  exact hM

theorem State.sendOn_mem (s : State) (w k : Nat) (hM : s.memoryWf = true) :
    (State.sendOn s w k).memoryWf = true := by
  unfold State.sendOn
  repeat' first | with_reducible (first | assumption | apply State.emit_mem | apply memIte)

theorem State.nextSeq_mem (s : State) (ty : Nat) (hM : s.memoryWf = true) :
    (State.nextSeq s ty).2.memoryWf = true := by
  unfold State.nextSeq
  repeat' first | (intro x; clear_value x) | lift_lets -underBinder | with_reducible (first | assumption | (fail_if_no_progress refine memMk rfl rfl rfl rfl ?_))

theorem State.broadcast_mem (s : State) (ty payload : Nat) (hM : s.memoryWf = true) :
    (State.broadcast s ty payload).memoryWf = true := by
  unfold State.broadcast
  repeat' first | (intro x; (first | refine memCut x ?_ fun _ => ?_ | refine okCut x ?_ fun _ => ?_ | refine someCut x ?_ fun _ => ?_ | refine pairCut x ?_ fun _ => ?_ | refine pairCut2 x ?_ fun _ => ?_); (on_goal 1 => subst x); (on_goal 2 => clear_value x)) | (intro x; clear_value x) | (with_reducible intro _) | lift_lets -underBinder | with_reducible (first | assumption | apply State.nextSeq_mem | apply State.sendOn_mem | apply memFoldl)

theorem State.sendTo_mem (s : State) (d ty payload : Nat) (hM : s.memoryWf = true) :
    (State.sendTo s d ty payload).memoryWf = true := by
  unfold State.sendTo
  repeat' first | (intro x; (first | refine memCut x ?_ fun _ => ?_ | refine okCut x ?_ fun _ => ?_ | refine someCut x ?_ fun _ => ?_ | refine pairCut x ?_ fun _ => ?_ | refine pairCut2 x ?_ fun _ => ?_); (on_goal 1 => subst x); (on_goal 2 => clear_value x)) | (with_reducible intro _) | lift_lets -underBinder | with_reducible (first | assumption | apply State.nextSeq_mem | apply State.sendOn_mem | apply memFoldl)

theorem State.exportChange_mem (s : State) (l t : Nat) (v : Bool) (hM : s.memoryWf = true) :
    (State.exportChange s l t v).memoryWf = true := by
  unfold State.exportChange
  repeat' first | with_reducible (first | assumption | apply State.broadcast_mem | apply memIte)

theorem State.setLine_mem (s : State) (l : Nat) (x : Line) (hM : s.memoryWf = true) :
    (State.setLine s l x).memoryWf = true := by
  unfold State.setLine
  exact hM

theorem State.lineChange_mem (s : State) (l t : Nat) (v : Bool) (hM : s.memoryWf = true) :
    (State.lineChange s l t v).memoryWf = true := by
  unfold State.lineChange
  repeat' first | (intro x; refine memCut x ?_ fun _ => ?_; (on_goal 1 => subst x); (on_goal 2 => clear_value x)) | lift_lets -underBinder | with_reducible (first | assumption | apply State.setLine_mem | apply State.exportChange_mem | apply memIte)

theorem State.lineDisagree_mem (s : State) (l t : Nat) (hM : s.memoryWf = true) :
    (State.lineDisagree s l t).memoryWf = true := by
  unfold State.lineDisagree
  repeat' first | (intro x; refine memCut x ?_ fun _ => ?_; (on_goal 1 => subst x); (on_goal 2 => clear_value x)) | (intro x; clear_value x) | lift_lets -underBinder | with_reducible (first | assumption | apply State.setLine_mem | apply State.countCorrected_mem | apply State.exportChange_mem | apply memIte)

theorem State.setSource_mem (s : State) (l cls src latency spacing : Nat) (hM : s.memoryWf = true) :
    (State.setSource s l cls src latency spacing).memoryWf = true := by
  unfold State.setSource
  repeat' first | (intro x; clear_value x) | lift_lets -underBinder | with_reducible (first | assumption | apply State.setLine_mem)

theorem State.endSource_mem (s : State) (l t : Nat) (hM : s.memoryWf = true) :
    (State.endSource s l t).memoryWf = true := by
  unfold State.endSource
  repeat' first | (intro x; refine memCut x ?_ fun _ => ?_; (on_goal 1 => subst x); (on_goal 2 => clear_value x)) | (intro x; clear_value x) | (with_reducible intro _) | lift_lets -underBinder | with_reducible (first | assumption | apply State.setLine_mem | apply State.lineChange_mem)

theorem State.horizons_mem (s : State) (hM : s.memoryWf = true) :
    (State.horizons s).memoryWf = true := by
  unfold State.horizons
  repeat' first | (with_reducible intro _) | with_reducible (first | assumption | apply State.wr_mem | apply memFoldl)

theorem State.refreshFabric_mem (s : State) (hM : s.memoryWf = true) :
    (State.refreshFabric s).memoryWf = true := by
  unfold State.refreshFabric
  repeat' first | (intro x; refine memCut x ?_ fun _ => ?_; (on_goal 1 => subst x); (on_goal 2 => clear_value x)) | (intro x; clear_value x) | lift_lets -underBinder | with_reducible (first | assumption | apply State.horizons_mem | apply State.wr_mem)

theorem synApply_mem  (s : State) (hM : s.memoryWf = true) :
    OkMem (synApply s) := by
  unfold synApply
  repeat' first | (intro x; refine memCut x ?_ fun _ => ?_; (on_goal 1 => subst x); (on_goal 2 => clear_value x)) | (intro x; clear_value x) | (with_reducible intro _) | lift_lets -underBinder | with_reducible (first | assumption | apply State.calUnlock_mem | apply State.wr_mem | apply okIte | apply memIte | apply okOk | apply okErr | (fail_if_no_progress refine memMk rfl rfl rfl rfl ?_))

theorem execSyntApply_mem (t : Nat) (s : State) (hM : s.memoryWf = true) :
    OutMem (execSyntApply t s) := by
  unfold execSyntApply
  repeat' first | with_reducible (first | assumption | apply State.serve_mem | apply synApply_mem | apply outNext)

theorem execSyntQualified_mem (t measured : Nat) (s : State) (hM : s.memoryWf = true) :
    OutMem (execSyntQualified t measured s) := by
  unfold execSyntQualified
  repeat' first | (intro x; refine memCut x ?_ fun _ => ?_; (on_goal 1 => subst x); (on_goal 2 => clear_value x)) | (intro x; clear_value x) | lift_lets -underBinder | with_reducible (first | assumption | apply State.advance_mem | apply State.wr_mem | apply memIte | apply outNext)

theorem execSyntQualifyTimeout_mem (t : Nat) (s : State) (hM : s.memoryWf = true) :
    OutMem (execSyntQualifyTimeout t s) := by
  unfold execSyntQualifyTimeout
  repeat' first | (intro x; refine memCut x ?_ fun _ => ?_; (on_goal 1 => subst x); (on_goal 2 => clear_value x)) | lift_lets -underBinder | with_reducible (first | assumption | apply State.advance_mem | apply State.wr_mem | apply memIte | apply outNext)

theorem execSyntLocked_mem (t : Nat) (s : State) (hM : s.memoryWf = true) :
    OutMem (execSyntLocked t s) := by
  unfold execSyntLocked
  repeat' first | (intro x; refine memCut x ?_ fun _ => ?_; (on_goal 1 => subst x); (on_goal 2 => clear_value x)) | (intro x; clear_value x) | lift_lets -underBinder | with_reducible (first | assumption | apply State.advance_mem | apply State.wr_mem | apply State.setDom_mem | apply State.refreshFabric_mem | apply memIte | apply outNext | (fail_if_no_progress refine memMk rfl rfl rfl rfl ?_))

theorem State.statsUnlocked_mem (s : State) (hM : s.memoryWf = true) :
    (State.statsUnlocked s).memoryWf = true := by
  unfold State.statsUnlocked
  repeat' first | (intro x; refine memCut x ?_ fun _ => ?_; (on_goal 1 => subst x); (on_goal 2 => clear_value x)) | (intro x; clear_value x) | (with_reducible intro _) | lift_lets -underBinder | with_reducible (first | assumption | apply memIte | apply memFoldl | (fail_if_no_progress refine memMk rfl rfl rfl rfl ?_))

theorem execReferenceLoss_mem (t : Nat) (s : State) (hM : s.memoryWf = true) :
    OutMem (execReferenceLoss t s) := by
  unfold execReferenceLoss
  repeat' first | (intro x; refine memCut x ?_ fun _ => ?_; (on_goal 1 => subst x); (on_goal 2 => clear_value x)) | (intro x; clear_value x) | lift_lets -underBinder | with_reducible (first | assumption | apply State.advance_mem | apply State.wr_mem | apply State.bump_mem | apply State.statsUnlocked_mem | apply State.calUnlock_mem | apply memIte | apply outNext | (fail_if_no_progress refine memMk rfl rfl rfl rfl ?_))

theorem execReferenceRequalified_mem (t : Nat) (s : State) (hM : s.memoryWf = true) :
    OutMem (execReferenceRequalified t s) := by
  unfold execReferenceRequalified
  repeat' first | (intro x; refine memCut x ?_ fun _ => ?_; (on_goal 1 => subst x); (on_goal 2 => clear_value x)) | (intro x; clear_value x) | lift_lets -underBinder | with_reducible (first | assumption | apply State.advance_mem | apply memIte | apply outNext | (fail_if_no_progress refine memMk rfl rfl rfl rfl ?_))

theorem execSyntRelock_mem (t : Nat) (s : State) (hM : s.memoryWf = true) :
    OutMem (execSyntRelock t s) := by
  unfold execSyntRelock
  repeat' first | (intro x; refine memCut x ?_ fun _ => ?_; (on_goal 1 => subst x); (on_goal 2 => clear_value x)) | (intro x; clear_value x) | lift_lets -underBinder | with_reducible (first | assumption | apply State.advance_mem | apply State.wr_mem | apply memIte | apply outNext | (fail_if_no_progress refine memMk rfl rfl rfl rfl ?_))

theorem State.setClkOut_mem (s : State) (i : Nat) (x : ClkOut) (hM : s.memoryWf = true) :
    (State.setClkOut s i x).memoryWf = true := by
  unfold State.setClkOut
  exact hM

theorem clkConfigWrite_mem (i v : Nat) (s : State) (hM : s.memoryWf = true) :
    OkMem (clkConfigWrite i v s) := by
  unfold clkConfigWrite
  repeat' first | (intro x; refine memCut x ?_ fun _ => ?_; (on_goal 1 => subst x); (on_goal 2 => clear_value x)) | (intro x; clear_value x) | (with_reducible intro _) | lift_lets -underBinder | with_reducible (first | assumption | apply State.wr_mem | apply State.setClkOut_mem | apply okIte | apply memIte | apply okOk | apply okErr)

theorem clkOffsetWrite_mem (k v : Nat) (s : State) (hM : s.memoryWf = true) :
    OkMem (clkOffsetWrite k v s) := by
  unfold clkOffsetWrite
  repeat' first | (with_reducible intro _) | with_reducible (first | assumption | apply State.wr_mem | apply okIte | apply memIte | apply okOk | apply okErr)

theorem clkWrite_mem (sub v : Nat) (s : State) (hM : s.memoryWf = true) :
    OkMem (clkWrite sub v s) := by
  unfold clkWrite
  repeat' first | (with_reducible intro _) | with_reducible (first | assumption | apply clkConfigWrite_mem | apply clkOffsetWrite_mem | apply okIte | apply memIte | apply okOk | apply okErr)

theorem execClockOutputWrite_mem (t sub value : Nat) (s : State) (hM : s.memoryWf = true) :
    OutMem (execClockOutputWrite t sub value s) := by
  unfold execClockOutputWrite
  repeat' first | with_reducible (first | assumption | apply State.serve_mem | apply clkWrite_mem | apply outNext)

theorem fireStep_mem (mask : Nat) (p : State × Nat) (k : Nat) (hp : p.1.memoryWf = true) :
    (fireStep mask p k).1.memoryWf = true := by
  unfold fireStep
  repeat' first | (intro x; clear_value x) | lift_lets -underBinder | with_reducible (first | assumption | apply State.setClkOut_mem | apply memIte | apply memIte1)

theorem srefFire_mem (mask : Nat) (s : State) (hM : s.memoryWf = true) :
    OkMem (srefFire mask s) := by
  unfold srefFire
  repeat' first | (intro x; (first | refine memCut x ?_ fun _ => ?_ | refine okCut x ?_ fun _ => ?_ | refine someCut x ?_ fun _ => ?_ | refine pairCut x ?_ fun _ => ?_ | refine pairCut2 x ?_ fun _ => ?_); (on_goal 1 => subst x); (on_goal 2 => clear_value x)) | (intro x; clear_value x) | (with_reducible intro _) | lift_lets -underBinder | with_reducible (first | assumption | apply fireStep_mem | apply okIte | apply memIte | apply memFoldl | apply memFoldl1 | apply memFoldl2 | apply okOk | apply okErr | apply memElim | (fail_if_no_progress refine memMk rfl rfl rfl rfl ?_))

theorem execSrefFire_mem (t mask : Nat) (s : State) (hM : s.memoryWf = true) :
    OutMem (execSrefFire t mask s) := by
  unfold execSrefFire
  repeat' first | with_reducible (first | assumption | apply State.serve_mem | apply srefFire_mem | apply outNext)

theorem execOutputStart_mem (t : Nat) (output : Fin 16) (s : State) (hM : s.memoryWf = true) :
    OutMem (execOutputStart t output s) := by
  unfold execOutputStart
  repeat' first | (intro x; refine memCut x ?_ fun _ => ?_; (on_goal 1 => subst x); (on_goal 2 => clear_value x)) | (intro x; clear_value x) | lift_lets -underBinder | with_reducible (first | assumption | apply State.advance_mem | apply State.wr_mem | apply State.setClkOut_mem | apply memIte | apply outNext | (fail_if_no_progress refine memMk rfl rfl rfl rfl ?_) | (refine memOk (by assumption) ?_)) | split

theorem execOutputStop_mem (t : Nat) (output : Fin 16) (s : State) (hM : s.memoryWf = true) :
    OutMem (execOutputStop t output s) := by
  unfold execOutputStop
  repeat' first | (intro x; refine memCut x ?_ fun _ => ?_; (on_goal 1 => subst x); (on_goal 2 => clear_value x)) | (intro x; clear_value x) | lift_lets -underBinder | with_reducible (first | assumption | apply State.advance_mem | apply State.wr_mem | apply State.setClkOut_mem | apply memIte | apply outNext)

theorem State.setRing_mem (s : State) (n : Nat) (x : RingState) (hM : s.memoryWf = true) :
    (State.setRing s n x).memoryWf = true := by
  unfold State.setRing
  exact hM

theorem State.setPipe_mem (s : State) (n : Nat) (x : Pipe) (hM : s.memoryWf = true) :
    (State.setPipe s n x).memoryWf = true := by
  unfold State.setPipe
  exact hM

theorem State.ringWrite_mem (x : RingState) (b : Bytes) : ∀ (s : State) (q : Nat), s.memoryWf = true → (s.ringWrite x q b).memoryWf = true := by
  induction b with
  | nil => intro s q h; exact h
  | cons v l ih => exact fun s q h => ih _ _ (s.setHbm_mem (x.addr q) v h)

theorem State.hostFollow_mem (s : State) (n : Nat) (hM : s.memoryWf = true) :
    (State.hostFollow s n).memoryWf = true := by
  unfold State.hostFollow
  repeat' first | (with_reducible intro _) | lift_lets -underBinder | with_reducible (first | assumption | apply State.wr_mem | (fail_if_no_progress refine memMk rfl rfl rfl rfl ?_) | (refine memOk (by assumption) ?_)) | split

theorem State.ringOldest_mem (s0 : State) (n : Nat) (hM : s0.memoryWf = true) :
    (State.ringOldest s0 n).memoryWf = true := by
  unfold State.ringOldest
  repeat' first | (intro x; refine memCut x ?_ fun _ => ?_; (on_goal 1 => subst x); (on_goal 2 => clear_value x)) | (intro x; clear_value x) | (with_reducible intro _) | lift_lets -underBinder | with_reducible (first | assumption | apply State.hostFollow_mem | apply State.wr_mem | apply State.setRing_mem | apply memIte | apply memFoldl | (fail_if_no_progress refine memMk rfl rfl rfl rfl ?_) | (refine memOk (by assumption) ?_)) | split

theorem State.releaseOldest_mem (s : State) (n len : Nat) (fuel : Nat) (hM : s.memoryWf = true) :
    (State.releaseOldest s n len fuel).memoryWf = true := by
  induction fuel generalizing s n len with
  | zero => unfold State.releaseOldest; exact hM
  | succ fuel ih =>
    unfold State.releaseOldest
    repeat' first | (intro x; clear_value x) | lift_lets -underBinder | with_reducible (first | assumption | apply ih | apply State.setRing_mem | apply State.wr_mem | apply State.bump_mem | apply memIte | (fail_if_no_progress refine memMk rfl rfl rfl rfl ?_) | (refine memOk (by assumption) ?_)) | split

theorem State.commitRecord_mem (s : State) (n : Nat) (r : Rec) (seq : Nat) (offer : List Bool) (hM : s.memoryWf = true) :
    (State.commitRecord s n r seq offer).memoryWf = true := by
  unfold State.commitRecord
  repeat' first | (intro x; refine memCut x ?_ fun _ => ?_; (on_goal 1 => subst x); (on_goal 2 => clear_value x)) | (intro x; clear_value x) | (with_reducible intro _) | lift_lets -underBinder | with_reducible (first | assumption | apply State.ringWrite_mem | apply State.setRing_mem | apply State.wr_mem | apply State.ringOldest_mem | apply memIte)

theorem State.completeRecord_mem (s : State) (m : Nat) (r : Rec) (hM : s.memoryWf = true) :
    (State.completeRecord s m r).memoryWf = true := by
  unfold State.completeRecord
  repeat' first | (intro x; refine memCut x ?_ fun _ => ?_; (on_goal 1 => subst x); (on_goal 2 => clear_value x)) | (intro x; clear_value x) | (with_reducible intro _) | lift_lets -underBinder | with_reducible (first | assumption | apply State.marker_mem | apply State.bump_mem | apply State.setRing_mem | apply State.releaseOldest_mem | apply State.commitRecord_mem | apply memIte | apply memFoldl)

theorem State.marker_mem (s : State) (n epoch time flags gapLength : Nat) (hM : s.memoryWf = true) :
    (State.marker s n epoch time flags gapLength).memoryWf = true := by
  unfold State.marker
  repeat' first | lift_lets -underBinder | with_reducible (first | assumption | apply State.completeRecord_mem)

theorem State.queueRecord_mem (s : State) (n : Nat) (r : Rec) (hM : s.memoryWf = true) :
    (State.queueRecord s n r).memoryWf = true := by
  unfold State.queueRecord
  repeat' first | (intro x; clear_value x) | lift_lets -underBinder | with_reducible (first | assumption | apply State.setPipe_mem | apply memIte)

theorem State.consumerTake_mem (s : State) (n who k : Nat) (hM : s.memoryWf = true) :
    (State.consumerTake s n who k).memoryWf = true := by
  unfold State.consumerTake
  repeat' first | (intro x; clear_value x) | (with_reducible intro _) | lift_lets -underBinder | with_reducible (first | assumption | apply State.setRing_mem | apply State.advance_mem | apply State.ringOldest_mem)

theorem State.detachConsumer_mem (s : State) (n who : Nat) (hM : s.memoryWf = true) :
    (State.detachConsumer s n who).memoryWf = true := by
  unfold State.detachConsumer
  repeat' first | (intro x; refine memCut x ?_ fun _ => ?_; (on_goal 1 => subst x); (on_goal 2 => clear_value x)) | (intro x; clear_value x) | (with_reducible intro _) | lift_lets -underBinder | with_reducible (first | assumption | apply State.setRing_mem | apply State.taken_mem | apply State.bumpBy_mem | apply State.bump_mem | apply State.ringOldest_mem)

theorem State.poolWrite_mem (b : Bytes) : ∀ (s : State) (a : Nat), s.memoryWf = true → (s.poolWrite a b).memoryWf = true := by
  induction b with
  | nil => intro s a h; exact h
  | cons v l ih => exact fun s a h => ih _ _ (by rw [memFields] at *; exact ⟨h.1, h.2.1, h.2.2.1, twf_tset _ _ _ _ h.2.2.2⟩)

theorem State.zeroRegions_mem (s : State) (l : List PlRegion) (h : s.memoryWf = true) : (s.zeroRegions l).memoryWf = true := by
  rw [memFields] at *; exact ⟨h.1, h.2.1, h.2.2.1, twf_filter _ _ _ h.2.2.2⟩

theorem State.setMap_mem (s : State) (k : Nat) (x : MapState) (hM : s.memoryWf = true) :
    (State.setMap s k x).memoryWf = true := by
  unfold State.setMap
  exact hM

theorem State.sliceTable_mem (s : State) (k : Nat) (hM : s.memoryWf = true) :
    (State.sliceTable s k).memoryWf = true := by
  unfold State.sliceTable
  repeat' first | with_reducible (first | assumption | apply State.setDom_mem)

theorem State.sweep_mem (s : State) (k : Nat) (f : Nat → Nat) (hM : s.memoryWf = true) :
    (State.sweep s k f).memoryWf = true := by
  unfold State.sweep
  repeat' first | (with_reducible intro _) | with_reducible (first | assumption | apply State.poolWrite_mem | apply memFoldl)

theorem State.mapRelease_mem (s : State) (k : Nat) (hM : s.memoryWf = true) :
    (State.mapRelease s k).memoryWf = true := by
  unfold State.mapRelease
  repeat' first | (intro x; clear_value x) | (with_reducible intro _) | lift_lets -underBinder | with_reducible (first | assumption | apply State.sweep_mem | apply State.setMap_mem | apply State.clr_mem | apply State.wrs_mem | apply State.sliceTable_mem)

theorem State.mapBind_mem (s : State) (k n columns anchor : Nat) (slices : List Slice) (hM : s.memoryWf = true) :
    (State.mapBind s k n columns anchor slices).memoryWf = true := by
  unfold State.mapBind
  repeat' first | lift_lets -underBinder | with_reducible (first | assumption | apply State.setMap_mem | apply State.wrs_mem | apply State.sliceTable_mem)

theorem State.setWeir_mem (s : State) (n w k : Nat) (x : WeirState) (hM : s.memoryWf = true) :
    (State.setWeir s n w k x).memoryWf = true := by
  unfold State.setWeir
  exact hM

theorem State.weirBind_mem (s : State) (w n : Nat) (hM : s.memoryWf = true) :
    (State.weirBind s w n).memoryWf = true := by
  unfold State.weirBind
  repeat' first | with_reducible (first | assumption | apply State.wrs_mem)

theorem State.weirClear_mem (s : State) (n : Nat) (hM : s.memoryWf = true) :
    (State.weirClear s n).memoryWf = true := by
  unfold State.weirClear
  repeat' first | (with_reducible intro _) | lift_lets -underBinder | with_reducible (first | assumption | (fail_if_no_progress refine memMk rfl rfl rfl rfl ?_))

theorem State.unbind_mem (s : State) (n : Nat) (hM : s.memoryWf = true) :
    (State.unbind s n).memoryWf = true := by
  unfold State.unbind
  repeat' first | (intro x; refine memCut x ?_ fun _ => ?_; (on_goal 1 => subst x); (on_goal 2 => clear_value x)) | (with_reducible intro _) | lift_lets -underBinder | with_reducible (first | assumption | apply State.weirBind_mem | apply State.mapRelease_mem | apply State.weirClear_mem | apply memFoldl)

theorem State.setEng_mem (s : State) (e : Nat) (x : Engine) (hM : s.memoryWf = true) :
    (State.setEng s e x).memoryWf = true := by
  unfold State.setEng
  exact hM

theorem State.freeEngine_mem (s : State) (e : Nat) (hM : s.memoryWf = true) :
    (State.freeEngine s e).memoryWf = true := by
  unfold State.freeEngine
  repeat' first | (intro x; clear_value x) | lift_lets -underBinder | with_reducible (first | assumption | apply State.setEng_mem | apply memIte)

theorem State.releaseEngines_mem (s : State) (n : Nat) (hM : s.memoryWf = true) :
    (State.releaseEngines s n).memoryWf = true := by
  unfold State.releaseEngines
  repeat' first | (intro x; refine memCut x ?_ fun _ => ?_; (on_goal 1 => subst x); (on_goal 2 => clear_value x)) | (with_reducible intro _) | lift_lets -underBinder | with_reducible (first | assumption | apply State.freeEngine_mem | apply memIte | apply memFoldl)

theorem State.setChan_mem (s : State) (k : Nat) (x : ChanState) (hM : s.memoryWf = true) :
    (State.setChan s k x).memoryWf = true := by
  unfold State.setChan
  exact hM

theorem State.releasePolder_mem (s : State) (n : Nat) (hM : s.memoryWf = true) :
    (State.releasePolder s n).memoryWf = true := by
  unfold State.releasePolder
  repeat' first | (intro x; refine memCut x ?_ fun _ => ?_; (on_goal 1 => subst x); (on_goal 2 => clear_value x)) | (intro x; clear_value x) | (with_reducible intro _) | lift_lets -underBinder | with_reducible (first | assumption | apply State.setChan_mem | apply memIte | apply memFoldl)

theorem State.burstCounts_mem (s : State) (hM : s.memoryWf = true) :
    (State.burstCounts s).memoryWf = true := by
  unfold State.burstCounts
  repeat' first | (intro x; refine memCut x ?_ fun _ => ?_; (on_goal 1 => subst x); (on_goal 2 => clear_value x)) | (intro x; clear_value x) | (with_reducible intro _) | lift_lets -underBinder | with_reducible (first | assumption | apply State.wr_mem | apply memIte | apply memFoldl)

theorem State.recharge_mem (s : State) (hM : s.memoryWf = true) :
    (State.recharge s).memoryWf = true := by
  unfold State.recharge
  repeat' first | (intro x; refine memCut x ?_ fun _ => ?_; (on_goal 1 => subst x); (on_goal 2 => clear_value x)) | (intro x; clear_value x) | (with_reducible intro _) | lift_lets -underBinder | with_reducible (first | assumption | apply State.wrs_mem | apply State.burstCounts_mem | apply State.wr_mem)

theorem State.extentCounts_mem (s : State) (hM : s.memoryWf = true) :
    (State.extentCounts s).memoryWf = true := by
  unfold State.extentCounts
  repeat' first | (intro x; refine memCut x ?_ fun _ => ?_; (on_goal 1 => subst x); (on_goal 2 => clear_value x)) | (intro x; clear_value x) | (with_reducible intro _) | lift_lets -underBinder | with_reducible (first | assumption | apply State.wr_mem | apply memIte | apply memFoldl)

theorem State.recount_mem (s : State) (hM : s.memoryWf = true) :
    (State.recount s).memoryWf = true := by
  unfold State.recount
  repeat' first | (intro x; clear_value x) | (with_reducible intro _) | lift_lets -underBinder | with_reducible (first | assumption | apply State.extentCounts_mem | apply State.wr_mem)

theorem State.stagedFollow_mem (s : State) (n : Nat) (hM : s.memoryWf = true) :
    (State.stagedFollow s n).memoryWf = true := by
  unfold State.stagedFollow
  repeat' first | (intro x; refine memCut x ?_ fun _ => ?_; (on_goal 1 => subst x); (on_goal 2 => clear_value x)) | (intro x; clear_value x) | (with_reducible intro _) | lift_lets -underBinder | with_reducible (first | assumption | apply State.wr_mem | apply memIte)

theorem State.stageNum_mem (s : State) (n k v : Nat) (hM : s.memoryWf = true) :
    (State.stageNum s n k v).memoryWf = true := by
  unfold State.stageNum
  repeat' first | (with_reducible intro _) | lift_lets -underBinder | with_reducible (first | assumption | apply State.modSlot_mem | apply State.stagedFollow_mem)

theorem State.stageDom_mem (s : State) (n k : Nat) (b : Bytes) (hM : s.memoryWf = true) :
    (State.stageDom s n k b).memoryWf = true := by
  unfold State.stageDom
  repeat' first | (with_reducible intro _) | lift_lets -underBinder | with_reducible (first | assumption | apply State.modSlot_mem | apply State.stagedFollow_mem)

theorem State.clearContract_mem (s : State) (n : Nat) (hM : s.memoryWf = true) :
    (State.clearContract s n).memoryWf = true := by
  unfold State.clearContract
  repeat' first | (intro x; refine memCut x ?_ fun _ => ?_; (on_goal 1 => subst x); (on_goal 2 => clear_value x)) | (intro x; clear_value x) | (with_reducible intro _) | lift_lets -underBinder | with_reducible (first | assumption | apply State.clr_mem | apply State.setSlot_mem | apply memFoldl)

theorem State.dropRing_mem (s : State) (n : Nat) (hM : s.memoryWf = true) :
    (State.dropRing s n).memoryWf = true := by
  unfold State.dropRing
  repeat' first | (with_reducible intro _) | lift_lets -underBinder | with_reducible (first | assumption | apply State.clr_mem | apply State.setRing_mem | apply State.recount_mem | apply memFoldl)

theorem State.endRing_mem (s : State) (n : Nat) (hM : s.memoryWf = true) :
    (State.endRing s n).memoryWf = true := by
  unfold State.endRing
  repeat' first | (intro x; clear_value x) | (with_reducible intro _) | lift_lets -underBinder | with_reducible (first | assumption | apply State.setRing_mem | apply State.recount_mem | apply State.dropRing_mem | apply memIte)

theorem State.endLines_mem (s : State) (n t : Nat) (hM : s.memoryWf = true) :
    (State.endLines s n t).memoryWf = true := by
  unfold State.endLines
  repeat' first | (with_reducible intro _) | with_reducible (first | assumption | apply State.endSource_mem | apply State.refreshFabric_mem | apply memFoldl)

theorem State.endContract_mem (s : State) (n st : Nat) (hM : s.memoryWf = true) :
    (State.endContract s n st).memoryWf = true := by
  unfold State.endContract
  repeat' first | (intro x; refine memCut x ?_ fun _ => ?_; (on_goal 1 => subst x); (on_goal 2 => clear_value x)) | lift_lets -underBinder | with_reducible (first | assumption | apply State.releaseEngines_mem | apply State.releasePolder_mem | apply State.clearContract_mem | apply State.setPipe_mem | apply State.wr_mem | apply State.recharge_mem)

theorem State.closeReplay_mem (s : State) (n : Nat) (hM : s.memoryWf = true) :
    (State.closeReplay s n).memoryWf = true := by
  unfold State.closeReplay
  repeat' first | (intro x; refine memCut x ?_ fun _ => ?_; (on_goal 1 => subst x); (on_goal 2 => clear_value x)) | (intro x; clear_value x) | (with_reducible intro _) | lift_lets -underBinder | with_reducible (first | assumption | apply State.setRing_mem | apply State.ringOldest_mem | apply State.setChan_mem | apply memIte | apply memFoldl)

theorem State.clearRoutes_mem (s : State) (n : Nat) (hM : s.memoryWf = true) :
    (State.clearRoutes s n).memoryWf = true := by
  unfold State.clearRoutes
  repeat' first | (intro x; clear_value x) | lift_lets -underBinder | with_reducible (first | assumption | apply State.setDom_mem | apply memIte)

theorem State.setCluster_mem (s : State) (c v : Nat) (hM : s.memoryWf = true) :
    (State.setCluster s c v).memoryWf = true := by
  unfold State.setCluster
  exact hM

theorem State.setMigration_mem (s : State) (c n : Nat) (m : Option Migration) (hM : s.memoryWf = true) :
    (State.setMigration s c n m).memoryWf = true := by
  unfold State.setMigration
  exact hM

theorem State.clusterSettle_mem (s : State) (c : Nat) (hM : s.memoryWf = true) :
    (State.clusterSettle s c).memoryWf = true := by
  unfold State.clusterSettle
  repeat' first | (intro x; clear_value x) | (with_reducible intro _) | lift_lets -underBinder | with_reducible (first | assumption | apply State.setCluster_mem)

theorem State.dropMigrations_mem (s : State) (n : Nat) (hM : s.memoryWf = true) :
    (State.dropMigrations s n).memoryWf = true := by
  unfold State.dropMigrations
  repeat' first | (intro x; refine memCut x ?_ fun _ => ?_; (on_goal 1 => subst x); (on_goal 2 => clear_value x)) | (intro x; clear_value x) | (with_reducible intro _) | lift_lets -underBinder | with_reducible (first | assumption | apply State.clusterSettle_mem | apply memFoldl | (fail_if_no_progress refine memMk rfl rfl rfl rfl ?_))

theorem State.unarm_mem (s : State) (n : Nat) (hM : s.memoryWf = true) :
    (State.unarm s n).memoryWf = true := by
  unfold State.unarm
  repeat' first | (intro x; clear_value x) | (with_reducible intro _) | lift_lets -underBinder | with_reducible (first | assumption | apply State.setEng_mem | apply memFoldl)

theorem State.settleBanks_mem (s : State) (n : Nat) (hM : s.memoryWf = true) :
    (State.settleBanks s n).memoryWf = true := by
  unfold State.settleBanks
  repeat' first | (intro x; clear_value x) | (with_reducible intro _) | lift_lets -underBinder | with_reducible (first | assumption | apply State.setEng_mem | apply memFoldl | (fail_if_no_progress refine memMk rfl rfl rfl rfl ?_) | (refine memOk (by assumption) ?_)) | split

theorem State.disarm_mem (s : State) (n code : Nat) (hM : s.memoryWf = true) :
    (State.disarm s n code).memoryWf = true := by
  unfold State.disarm
  repeat' first | (intro x; refine memCut x ?_ fun _ => ?_; (on_goal 1 => subst x); (on_goal 2 => clear_value x)) | (with_reducible intro _) | lift_lets -underBinder | with_reducible (first | assumption | apply State.unarm_mem | apply State.modSlot_mem | apply State.wr_mem | apply memIte)

theorem State.leaveArray_mem (s : State) (n code : Nat) (hM : s.memoryWf = true) :
    (State.leaveArray s n code).memoryWf = true := by
  unfold State.leaveArray
  repeat' first | (intro x; refine memCut x ?_ fun _ => ?_; (on_goal 1 => subst x); (on_goal 2 => clear_value x)) | (intro x; clear_value x) | (with_reducible intro _) | lift_lets -underBinder | with_reducible (first | assumption | apply State.sendTo_mem | apply memIte | apply memFoldl | (fail_if_no_progress refine memMk rfl rfl rfl rfl ?_) | (refine memOk (by assumption) ?_)) | split

theorem State.cancelCommit_mem (s : State) (n code : Nat) (hM : s.memoryWf = true) :
    (State.cancelCommit s n code).memoryWf = true := by
  unfold State.cancelCommit
  repeat' first | (with_reducible intro _) | with_reducible (first | assumption | apply State.disarm_mem | apply State.leaveArray_mem | apply memIte | apply memFoldl)

theorem State.endSuccessor_mem (s : State) (m code : Nat) (hM : s.memoryWf = true) :
    (State.endSuccessor s m code).memoryWf = true := by
  unfold State.endSuccessor
  repeat' first | (intro x; refine memCut x ?_ fun _ => ?_; (on_goal 1 => subst x); (on_goal 2 => clear_value x)) | (with_reducible intro _) | lift_lets -underBinder | with_reducible (first | assumption | apply State.cancelCommit_mem | apply State.unbind_mem | apply State.closeReplay_mem | apply State.clearRoutes_mem | apply State.zeroRegions_mem | apply State.dropMigrations_mem | apply State.endContract_mem | apply State.wr_mem | apply State.modSlot_mem | (fail_if_no_progress refine memMk rfl rfl rfl rfl ?_) | (refine memOk (by assumption) ?_)) | split

theorem State.beginWithdraw_mem (s : State) (n tw : Nat) (hM : s.memoryWf = true) :
    (State.beginWithdraw s n tw).memoryWf = true := by
  unfold State.beginWithdraw
  repeat' first | (intro x; refine memCut x ?_ fun _ => ?_; (on_goal 1 => subst x); (on_goal 2 => clear_value x)) | (with_reducible intro _) | lift_lets -underBinder | with_reducible (first | assumption | apply State.endSuccessor_mem | apply State.cancelCommit_mem | apply State.modSlot_mem | apply State.wrs_mem | (fail_if_no_progress refine memMk rfl rfl rfl rfl ?_) | (refine memOk (by assumption) ?_)) | split

theorem State.loadMicro_mem (s : State) (i : Nat) (hM : s.memoryWf = true) :
    (State.loadMicro s i).memoryWf = true := by
  unfold State.loadMicro
  repeat' first | (intro x; refine memCut x ?_ fun _ => ?_; (on_goal 1 => subst x); (on_goal 2 => clear_value x)) | (intro x; clear_value x) | lift_lets -underBinder | with_reducible (first | assumption | apply State.noted_mem | apply State.wrs_mem | apply memIte)

theorem State.loadNano_mem (s : State) (i : Nat) (hM : s.memoryWf = true) :
    (State.loadNano s i).memoryWf = true := by
  unfold State.loadNano
  repeat' first | (intro x; refine memCut x ?_ fun _ => ?_; (on_goal 1 => subst x); (on_goal 2 => clear_value x)) | (intro x; clear_value x) | lift_lets -underBinder | with_reducible (first | assumption | apply State.noted_mem | apply State.wrs_mem | apply memIte | (fail_if_no_progress refine memMk rfl rfl rfl rfl ?_) | (refine memOk (by assumption) ?_)) | split

theorem State.placeImage_mem (s : State) (e n mi ni : Nat) (params : Bytes) (hM : s.memoryWf = true) :
    (State.placeImage s e n mi ni params).memoryWf = true := by
  unfold State.placeImage
  repeat' first | with_reducible (first | assumption | apply State.setEng_mem)

theorem State.copyEngine_mem (s : State) (e from' : Nat) (hM : s.memoryWf = true) :
    (State.copyEngine s e from').memoryWf = true := by
  unfold State.copyEngine
  repeat' first | (intro x; refine funCut x ?_; subst x) | (intro x; clear_value x) | (with_reducible intro _) | lift_lets -underBinder | with_reducible (first | assumption | apply State.setEng_mem)

theorem State.markFault_mem (s : State) (sq fl : Nat) (hM : s.memoryWf = true) :
    (State.markFault s sq fl).memoryWf = true := by
  unfold State.markFault
  repeat' first | (intro x; clear_value x) | (with_reducible intro _) | lift_lets -underBinder | with_reducible (first | assumption | apply State.faultLog_mem | apply memIte | (fail_if_no_progress refine memMk rfl rfl rfl rfl ?_))

theorem State.budgetOut_mem (s : State) (unit n : Nat) (hM : s.memoryWf = true) :
    (State.budgetOut s unit n).memoryWf = true := by
  unfold State.budgetOut
  repeat' first | with_reducible (first | assumption | apply State.wr_mem | apply State.faultLog_mem)

theorem State.cutLine_mem (s : State) (l t : Nat) (hM : s.memoryWf = true) :
    (State.cutLine s l t).memoryWf = true := by
  unfold State.cutLine
  repeat' first | (intro x; clear_value x) | (with_reducible intro _) | lift_lets -underBinder | with_reducible (first | assumption | apply State.setLine_mem | apply State.lineChange_mem)

theorem State.dropLines_mem (s : State) (n gs : Nat) (chs : List Nat) (hM : s.memoryWf = true) :
    (State.dropLines s n gs chs).memoryWf = true := by
  unfold State.dropLines
  repeat' first | (with_reducible intro _) | lift_lets -underBinder | with_reducible (first | assumption | apply State.cutLine_mem | apply memIte | apply memFoldl | (fail_if_no_progress refine memMk rfl rfl rfl rfl ?_) | (refine memOk (by assumption) ?_)) | split

theorem State.withholdOne_mem (s : State) (n : Nat) (hM : s.memoryWf = true) :
    (State.withholdOne s n).memoryWf = true := by
  unfold State.withholdOne
  repeat' first | (with_reducible intro _) | lift_lets -underBinder | with_reducible (first | assumption | apply State.unarm_mem | apply State.modSlot_mem | (fail_if_no_progress refine memMk rfl rfl rfl rfl ?_) | (refine memOk (by assumption) ?_)) | split

theorem State.withhold_mem (s : State) (n : Nat) (hM : s.memoryWf = true) :
    (State.withhold s n).memoryWf = true := by
  unfold State.withhold
  repeat' first | (intro x; refine memCut x ?_ fun _ => ?_; (on_goal 1 => subst x); (on_goal 2 => clear_value x)) | (intro x; clear_value x) | (with_reducible intro _) | lift_lets -underBinder | with_reducible (first | assumption | apply State.cancelCommit_mem | apply State.withholdOne_mem | apply memIte | apply memFoldl | (fail_if_no_progress refine memMk rfl rfl rfl rfl ?_) | (refine memOk (by assumption) ?_)) | split

theorem State.noticeWithdraw_mem (s : State) (n gs sq : Nat) (hM : s.memoryWf = true) :
    (State.noticeWithdraw s n gs sq).memoryWf = true := by
  unfold State.noticeWithdraw
  repeat' first | (intro x; refine memCut x ?_ fun _ => ?_; (on_goal 1 => subst x); (on_goal 2 => clear_value x)) | (with_reducible intro _) | lift_lets -underBinder | with_reducible (first | assumption | apply State.dropLines_mem | apply State.beginWithdraw_mem | apply State.modSlot_mem)

theorem State.startMigration_mem (s : State) (c n : Nat) (es : List Nat) (gs sq : Nat) (whole : Bool) (hM : s.memoryWf = true) :
    (State.startMigration s c n es gs sq whole).memoryWf = true := by
  unfold State.startMigration
  repeat' first | (intro x; refine memCut x ?_ fun _ => ?_; (on_goal 1 => subst x); (on_goal 2 => clear_value x)) | (intro x; refine funCut x ?_; subst x) | (intro x; clear_value x) | (with_reducible intro _) | lift_lets -underBinder | with_reducible (first | assumption | apply State.setMigration_mem | apply State.dropLines_mem | apply State.withhold_mem | apply State.modSlot_mem)

theorem State.clusterFault_mem (s : State) (c cause unit : Nat) (es : List Nat) (hM : s.memoryWf = true) :
    (State.clusterFault s c cause unit es).memoryWf = true := by
  unfold State.clusterFault
  repeat' first | (intro x; refine memCut x ?_ fun _ => ?_; (on_goal 1 => subst x); (on_goal 2 => clear_value x)) | (intro x; clear_value x) | (with_reducible intro _) | lift_lets -underBinder | with_reducible (first | assumption | apply State.faultLog_mem | apply State.setCluster_mem | apply State.endSuccessor_mem | apply State.freeEngine_mem | apply State.startMigration_mem | apply memIte | apply memFoldl | (fail_if_no_progress refine memMk rfl rfl rfl rfl ?_))

theorem State.spareUsed_mem (s : State) (c : Nat) (hM : s.memoryWf = true) :
    (State.spareUsed s c).memoryWf = true := by
  unfold State.spareUsed
  repeat' first | with_reducible (first | assumption | apply State.wr_mem)

theorem State.retireMark_mem (s : State) (e : Nat) (hM : s.memoryWf = true) :
    (State.retireMark s e).memoryWf = true := by
  unfold State.retireMark
  repeat' first | (intro x; refine memCut x ?_ fun _ => ?_; (on_goal 1 => subst x); (on_goal 2 => clear_value x)) | (intro x; clear_value x) | lift_lets -underBinder | with_reducible (first | assumption | apply State.setEng_mem | apply State.bump_mem | apply State.spareUsed_mem | apply memIte)

theorem State.moveRole_mem (s : State) (n e target : Nat) (hM : s.memoryWf = true) :
    (State.moveRole s n e target).memoryWf = true := by
  unfold State.moveRole
  repeat' first | (with_reducible intro _) | lift_lets -underBinder | with_reducible (first | assumption | apply State.modSlot_mem)

theorem State.finishRetire_mem (s : State) (e target : Nat) (hM : s.memoryWf = true) :
    (State.finishRetire s e target).memoryWf = true := by
  unfold State.finishRetire
  repeat' first | (intro x; refine memCut x ?_ fun _ => ?_; (on_goal 1 => subst x); (on_goal 2 => clear_value x)) | (intro x; clear_value x) | (with_reducible intro _) | lift_lets -underBinder | with_reducible (first | assumption | apply State.setEng_mem | apply State.moveRole_mem | apply State.spareUsed_mem | apply State.retireMark_mem | apply State.faultLog_mem | apply memIte | apply memFoldl | (fail_if_no_progress refine memMk rfl rfl rfl rfl ?_) | (refine memOk (by assumption) ?_)) | split

theorem State.engineOut_mem (s : State) (e : Nat) (o : EngOut) (hM : s.memoryWf = true) :
    (State.engineOut s e o).memoryWf = true := by
  unfold State.engineOut
  repeat' first | (intro x; clear_value x) | (with_reducible intro _) | lift_lets -underBinder | with_reducible (first | assumption | apply State.clusterFault_mem | apply State.finishRetire_mem | apply State.setEng_mem | apply memIte | (fail_if_no_progress refine memMk rfl rfl rfl rfl ?_) | (refine memOk (by assumption) ?_)) | split

theorem State.engineCycle_mem (s : State) (e : Nat) (rdErr fetchErr : Bool) (hM : s.memoryWf = true) :
    (State.engineCycle s e rdErr fetchErr).memoryWf = true := by
  unfold State.engineCycle
  repeat' first | (intro x; refine memCut x ?_ fun _ => ?_; (on_goal 1 => subst x); (on_goal 2 => clear_value x)) | (intro x; clear_value x) | (with_reducible intro _) | lift_lets -underBinder | with_reducible (first | assumption | apply State.engineOut_mem | apply State.setEng_mem | apply memIte | apply memFoldl)

theorem State.setXf_mem (s : State) (c : Nat) (x : XferCh) (hM : s.memoryWf = true) :
    (State.setXf s c x).memoryWf = true := by
  unfold State.setXf
  exact hM

theorem State.xferEnd_mem (s : State) (c st : Nat) (hM : s.memoryWf = true) :
    (State.xferEnd s c st).memoryWf = true := by
  unfold State.xferEnd
  repeat' first | with_reducible (first | assumption | apply State.wrs_mem | apply State.msix_mem)

theorem State.xferDrop_mem (s : State) (c : Nat) (hM : s.memoryWf = true) :
    (State.xferDrop s c).memoryWf = true := by
  unfold State.xferDrop
  repeat' first | (intro x; clear_value x) | lift_lets -underBinder | with_reducible (first | assumption | apply State.wr_mem | apply State.setXf_mem)

theorem State.xferError_mem (s : State) (c code : Nat) (hM : s.memoryWf = true) :
    (State.xferError s c code).memoryWf = true := by
  unfold State.xferError
  repeat' first | with_reducible (first | assumption | apply State.xferDrop_mem | apply State.wr_mem | apply State.xferEnd_mem)

theorem State.xferSettle_mem (s : State) (c : Nat) (hM : s.memoryWf = true) :
    (State.xferSettle s c).memoryWf = true := by
  unfold State.xferSettle
  repeat' first | (intro x; refine memCut x ?_ fun _ => ?_; (on_goal 1 => subst x); (on_goal 2 => clear_value x)) | (intro x; clear_value x) | lift_lets -underBinder | with_reducible (first | assumption | apply State.setXf_mem | apply State.wr_mem | apply State.xferDrop_mem | apply State.xferEnd_mem | apply memIte)

theorem State.xferData_mem (s : State) (c addr : Nat) (code : Nat) (d : Bytes) (hM : s.memoryWf = true) :
    (State.xferData s c addr code d).memoryWf = true := by
  unfold State.xferData
  repeat' first | (intro x; clear_value x) | (with_reducible intro _) | lift_lets -underBinder | with_reducible (first | assumption | apply State.setXf_mem | apply State.xferSettle_mem | apply State.xferError_mem | apply memIte)

theorem State.xferWritten_mem (s : State) (c : Nat) (hM : s.memoryWf = true) :
    (State.xferWritten s c).memoryWf = true := by
  unfold State.xferWritten
  repeat' first | (intro x; clear_value x) | lift_lets -underBinder | with_reducible (first | assumption | apply State.setXf_mem | apply State.xferSettle_mem)

theorem State.xferPausing_mem (s : State) (c : Nat) (hM : s.memoryWf = true) :
    (State.xferPausing s c).memoryWf = true := by
  unfold State.xferPausing
  repeat' first | (intro x; clear_value x) | lift_lets -underBinder | with_reducible (first | assumption | apply State.wr_mem | apply State.xferSettle_mem | apply memIte)

theorem State.xferResume_mem (s : State) (c : Nat) (hM : s.memoryWf = true) :
    (State.xferResume s c).memoryWf = true := by
  unfold State.xferResume
  repeat' first | (intro x; clear_value x) | lift_lets -underBinder | with_reducible (first | assumption | apply State.wr_mem | apply memIte)

theorem State.xferCause_mem (s : State) (c b : Nat) (v : Bool) (hM : s.memoryWf = true) :
    (State.xferCause s c b v).memoryWf = true := by
  unfold State.xferCause
  repeat' first | (intro x; refine memCut x ?_ fun _ => ?_; (on_goal 1 => subst x); (on_goal 2 => clear_value x)) | lift_lets -underBinder | with_reducible (first | assumption | apply State.wr_mem | apply State.xferPausing_mem | apply State.xferResume_mem | apply memIte)

theorem State.bindChannel_mem (s : State) (c kind slot role target rate line : Nat) (hM : s.memoryWf = true) :
    (State.bindChannel s c kind slot role target rate line).memoryWf = true := by
  unfold State.bindChannel
  repeat' first | lift_lets -underBinder | with_reducible (first | assumption | apply State.wrs_mem | apply State.setXf_mem)

theorem State.unbindChannel_mem (s : State) (c : Nat) (hM : s.memoryWf = true) :
    (State.unbindChannel s c).memoryWf = true := by
  unfold State.unbindChannel
  repeat' first | lift_lets -underBinder | with_reducible (first | assumption | apply State.wrs_mem | apply State.setXf_mem)

theorem State.quadFault_mem (s : State) (q code : Nat) (hM : s.memoryWf = true) :
    (State.quadFault s q code).memoryWf = true := by
  unfold State.quadFault
  repeat' first | with_reducible (first | assumption | apply State.wr_mem | apply State.bump_mem | apply State.faultLog_mem | apply State.setQuad_mem)

end Sys2Proof.Machine
end

