-- ==== Sys2Proof/Laws/KeepMemory.lean ====
section
/-! SUPPORT. The definitions of these files of Machine keep the canonical form of the memories: StreamOps, StoreOps, Hbm, Display, Transfer, HostLink. -/

namespace Sys2Proof.Machine

open Sys2Proof

theorem State.setStream_mem (s : State) (r : Nat) (x : StreamState) (hM : s.memoryWf = true) :
    (State.setStream s r x).memoryWf = true := by
  unfold State.setStream
  exact hM

theorem State.openPage_mem (s : State) (r : Nat) (continued : Bool) (hM : s.memoryWf = true) :
    (State.openPage s r continued).memoryWf = true := by
  unfold State.openPage
  repeat' first | (intro x; clear_value x) | lift_lets -underBinder | with_reducible (first | assumption | apply State.emit_mem | apply State.setStream_mem)

theorem State.closePage_mem (s : State) (r : Nat) (into abandon : Bool) (hM : s.memoryWf = true) :
    (State.closePage s r into abandon).memoryWf = true := by
  unfold State.closePage
  repeat' first | (intro x; refine memCut x ?_ fun _ => ?_; (on_goal 1 => subst x); (on_goal 2 => clear_value x)) | (intro x; clear_value x) | lift_lets -underBinder | with_reducible (first | assumption | apply State.emit_mem | apply State.bump_mem | apply State.setStream_mem | apply State.msix_mem | apply memIte | (fail_if_no_progress refine memMk rfl rfl rfl rfl ?_) | (refine memOk (by assumption) ?_)) | split

theorem State.creditsBack_mem (s : State) (hM : s.memoryWf = true) :
    (State.creditsBack s).memoryWf = true := by
  unfold State.creditsBack
  repeat' first | (with_reducible intro _) | with_reducible (first | assumption | apply State.assumeEnds_mem | apply memIte)

theorem State.streamBeat_mem (s : State) (r n : Nat) (hM : s.memoryWf = true) :
    SomeMem (State.streamBeat s r n) := by
  unfold State.streamBeat
  repeat' first | (intro x; refine memCut x ?_ fun _ => ?_; (on_goal 1 => subst x); (on_goal 2 => clear_value x)) | (intro x; clear_value x) | lift_lets -underBinder | with_reducible (first | assumption | apply State.closePage_mem | apply State.bump_mem | apply State.openPage_mem | apply State.taken_mem | apply State.emit_mem | apply State.setStream_mem | apply State.consumerTake_mem | apply State.wr_mem | apply State.creditsBack_mem | apply memIte | apply memIte1 | apply memIte2 | apply someIte | apply someSome | apply someNone | (fail_if_no_progress refine memMk rfl rfl rfl rfl ?_) | (refine memOk (by assumption) ?_)) | split

theorem State.streamDetach_mem (s : State) (r n st : Nat) (hM : s.memoryWf = true) :
    (State.streamDetach s r n st).memoryWf = true := by
  unfold State.streamDetach
  repeat' first | (intro x; clear_value x) | (with_reducible intro _) | lift_lets -underBinder | with_reducible (first | assumption | apply State.setStream_mem | apply State.detachConsumer_mem | apply State.wr_mem)

theorem State.reattach_mem (s : State) (nb who : Nat) (hM : s.memoryWf = true) :
    (State.reattach s nb who).memoryWf = true := by
  unfold State.reattach
  repeat' first | (intro x; clear_value x) | (with_reducible intro _) | lift_lets -underBinder | with_reducible (first | assumption | apply State.setRing_mem)

theorem State.suspendRings_mem (s : State) (hM : s.memoryWf = true) :
    (State.suspendRings s).memoryWf = true := by
  unfold State.suspendRings
  repeat' first | (intro x; clear_value x) | (with_reducible intro _) | lift_lets -underBinder | with_reducible (first | assumption | apply State.streamDetach_mem | apply State.setStream_mem | apply State.wr_mem | apply memIte | apply memFoldl)

theorem State.setDrive_mem (s : State) (k : Nat) (x : DriveState) (hM : s.memoryWf = true) :
    (State.setDrive s k x).memoryWf = true := by
  unfold State.setDrive
  exact hM

theorem State.setDriveState_mem (s : State) (k v : Nat) (hM : s.memoryWf = true) :
    (State.setDriveState s k v).memoryWf = true := by
  unfold State.setDriveState
  repeat' first | with_reducible (first | assumption | apply State.wr_mem | apply State.msix_mem | apply memIte)

theorem State.setRecording_mem (s : State) (n : Nat) (x : Option Recording) (hM : s.memoryWf = true) :
    (State.setRecording s n x).memoryWf = true := by
  unfold State.setRecording
  exact hM

theorem State.issue_mem (s : State) (k : Nat) (c : NCmd) (hM : s.memoryWf = true) :
    (State.issue s k c).memoryWf = true := by
  unfold State.issue
  repeat' first | (intro x; clear_value x) | lift_lets -underBinder | with_reducible (first | assumption | apply State.emit_mem | apply State.setDrive_mem | apply memIte)

theorem State.issueAll_mem (s : State) (k : Nat) (l : List NCmd) (hM : s.memoryWf = true) :
    (State.issueAll s k l).memoryWf = true := by
  unfold State.issueAll
  repeat' first | (with_reducible intro _) | with_reducible (first | assumption | apply State.issue_mem | apply memFoldl)

theorem State.freeUnits_mem (s : State) (hM : s.memoryWf = true) :
    (State.freeUnits s).memoryWf = true := by
  unfold State.freeUnits
  repeat' first | (with_reducible intro _) | with_reducible (first | assumption | apply State.setDom_mem)

theorem State.modEntry_mem (s : State) (num : Nat) (f : DirEntry → DirEntry) (hM : s.memoryWf = true) :
    (State.modEntry s num f).memoryWf = true := by
  unfold State.modEntry
  repeat' first | (intro x; clear_value x) | (with_reducible intro _) | lift_lets -underBinder | with_reducible (first | assumption | apply memIte | (fail_if_no_progress refine memMk rfl rfl rfl rfl ?_))

theorem State.writeEntry_mem (s : State) (num : Nat) (hM : s.memoryWf = true) :
    (State.writeEntry s num).memoryWf = true := by
  unfold State.writeEntry
  repeat' first | (intro x; refine memCut x ?_ fun _ => ?_; (on_goal 1 => subst x); (on_goal 2 => clear_value x)) | (intro x; clear_value x) | (with_reducible intro _) | lift_lets -underBinder | with_reducible (first | assumption | apply State.modEntry_mem | apply State.issue_mem | apply State.emit_mem | apply memFoldl | (fail_if_no_progress refine memMk rfl rfl rfl rfl ?_) | (refine memOk (by assumption) ?_)) | split

theorem State.storeOpen_mem (s : State) (n ports : Nat) (hM : s.memoryWf = true) :
    (State.storeOpen s n ports).memoryWf = true := by
  unfold State.storeOpen
  repeat' first | (intro x; refine memCut x ?_ fun _ => ?_; (on_goal 1 => subst x); (on_goal 2 => clear_value x)) | (intro x; clear_value x) | lift_lets -underBinder | with_reducible (first | assumption | apply State.detachConsumer_mem | apply State.wr_mem | apply State.setRecording_mem | apply State.writeEntry_mem | (fail_if_no_progress refine memMk rfl rfl rfl rfl ?_) | (refine memOk (by assumption) ?_)) | split

theorem State.entryFollow_mem (s : State) (n : Nat) (hM : s.memoryWf = true) :
    (State.entryFollow s n).memoryWf = true := by
  unfold State.entryFollow
  repeat' first | (with_reducible intro _) | lift_lets -underBinder | with_reducible (first | assumption | apply State.modEntry_mem | (fail_if_no_progress refine memMk rfl rfl rfl rfl ?_) | (refine memOk (by assumption) ?_)) | split

theorem State.recordingEnd_mem (s : State) (n st : Nat) (hM : s.memoryWf = true) :
    (State.recordingEnd s n st).memoryWf = true := by
  unfold State.recordingEnd
  repeat' first | (intro x; refine memCut x ?_ fun _ => ?_; (on_goal 1 => subst x); (on_goal 2 => clear_value x)) | (with_reducible intro _) | lift_lets -underBinder | with_reducible (first | assumption | apply State.entryFollow_mem | apply State.modEntry_mem | apply State.issue_mem | apply State.writeEntry_mem | apply State.setRecording_mem | apply memFoldl | (fail_if_no_progress refine memMk rfl rfl rfl rfl ?_) | (refine memOk (by assumption) ?_)) | split

theorem State.writeUnit_mem (s : State) (n : Nat) (u : WUnit) (hM : s.memoryWf = true) :
    (State.writeUnit s n u).memoryWf = true := by
  unfold State.writeUnit
  repeat' first | (intro x; clear_value x) | lift_lets -underBinder | with_reducible (first | assumption | apply State.emit_mem | apply State.issueAll_mem)

theorem State.takePlace_mem (s : State) (num p : Nat) (hM : s.memoryWf = true) :
    (State.takePlace s num p).memoryWf = true := by
  unfold State.takePlace
  repeat' first | (intro x; clear_value x) | (with_reducible intro _) | lift_lets -underBinder | with_reducible (first | assumption | apply State.setDrive_mem | apply State.modEntry_mem)

theorem State.closeUnit_mem (s : State) (n : Nat) (into last abandon : Bool) (hM : s.memoryWf = true) :
    (State.closeUnit s n into last abandon).memoryWf = true := by
  unfold State.closeUnit
  repeat' first | (intro x; refine memCut x ?_ fun _ => ?_; (on_goal 1 => subst x); (on_goal 2 => clear_value x)) | (intro x; clear_value x) | (with_reducible intro _) | lift_lets -underBinder | with_reducible (first | assumption | apply State.takePlace_mem | apply State.setRecording_mem | apply State.modEntry_mem | apply State.writeUnit_mem | apply State.freeUnits_mem | (fail_if_no_progress refine memMk rfl rfl rfl rfl ?_) | (refine memOk (by assumption) ?_)) | split

theorem State.storeTake_mem (s : State) (n : Nat) (rc : Recording) (r : Option RingRec) (b e o : Nat) (d : Bytes) (hM : s.memoryWf = true) :
    (State.storeTake s n rc r b e o d).memoryWf = true := by
  unfold State.storeTake
  repeat' first | (intro x; refine memCut x ?_ fun _ => ?_; (on_goal 1 => subst x); (on_goal 2 => clear_value x)) | (intro x; clear_value x) | lift_lets -underBinder | with_reducible (first | assumption | apply State.setRecording_mem | apply State.closeUnit_mem | apply memIte)

theorem State.passUnits_mem (s : State) (n : Nat) (fuel : Nat) (hM : s.memoryWf = true) :
    (State.passUnits s n fuel).memoryWf = true := by
  induction fuel generalizing s n with
  | zero => unfold State.passUnits; exact hM
  | succ fuel ih =>
    unfold State.passUnits
    repeat' first | lift_lets -underBinder | with_reducible (first | assumption | apply ih | apply State.setRecording_mem | apply State.consumerTake_mem | apply State.closing_mem | apply State.recordingEnd_mem | apply memIte | (fail_if_no_progress refine memMk rfl rfl rfl rfl ?_) | (refine memOk (by assumption) ?_)) | split

theorem State.storeClose_mem (s : State) (n : Nat) (hM : s.memoryWf = true) :
    (State.storeClose s n).memoryWf = true := by
  unfold State.storeClose
  repeat' first | (intro x; refine memCut x ?_ fun _ => ?_; (on_goal 1 => subst x); (on_goal 2 => clear_value x)) | lift_lets -underBinder | with_reducible (first | assumption | apply State.closeUnit_mem | apply State.setRecording_mem | apply State.closing_mem | apply State.passUnits_mem | (fail_if_no_progress refine memMk rfl rfl rfl rfl ?_) | (refine memOk (by assumption) ?_)) | split

theorem State.storeBeat_mem (s : State) (n : Nat) (hM : s.memoryWf = true) :
    SomeMem (State.storeBeat s n) := by
  unfold State.storeBeat
  repeat' first | (intro x; refine memCut x ?_ fun _ => ?_; (on_goal 1 => subst x); (on_goal 2 => clear_value x)) | (intro x; clear_value x) | (with_reducible intro _) | lift_lets -underBinder | with_reducible (first | assumption | apply State.taken_mem | apply State.closing_mem | apply State.storeClose_mem | apply State.detachConsumer_mem | apply State.storeTake_mem | apply memIte | apply memIte1 | apply memIte2 | apply someIte | apply someSome | apply someNone | (fail_if_no_progress refine memMk rfl rfl rfl rfl ?_) | (refine memOk (by assumption) ?_)) | split

theorem State.driveFail_mem (s : State) (k cause : Nat) (hM : s.memoryWf = true) :
    (State.driveFail s k cause).memoryWf = true := by
  unfold State.driveFail
  repeat' first | (intro x; refine memCut x ?_ fun _ => ?_; (on_goal 1 => subst x); (on_goal 2 => clear_value x)) | (intro x; clear_value x) | (with_reducible intro _) | lift_lets -underBinder | with_reducible (first | assumption | apply State.wr_mem | apply State.setDriveState_mem | apply State.setDrive_mem | apply State.faultLog_mem | apply State.modEntry_mem | apply State.setRecording_mem | apply State.recordingEnd_mem | apply State.detachConsumer_mem | apply State.takePlace_mem | apply State.writeUnit_mem | apply memIte | apply memFoldl | (fail_if_no_progress refine memMk rfl rfl rfl rfl ?_) | (refine memOk (by assumption) ?_)) | split

theorem State.setPc_mem (s : State) (q : Nat) (x : PcState) (hM : s.memoryWf = true) :
    (State.setPc s q x).memoryWf = true := by
  unfold State.setPc
  exact hM

theorem State.pcMaps_mem (s : State) (hM : s.memoryWf = true) :
    (State.pcMaps s).memoryWf = true := by
  unfold State.pcMaps
  repeat' first | (intro x; refine funCut x ?_; subst x) | (with_reducible intro _) | lift_lets -underBinder | with_reducible (first | assumption | apply State.wrs_mem)

theorem State.setPcState_mem (s : State) (q v : Nat) (hM : s.memoryWf = true) :
    (State.setPcState s q v).memoryWf = true := by
  unfold State.setPcState
  repeat' first | with_reducible (first | assumption | apply State.wr_mem | apply State.pcMaps_mem)

theorem State.setBank_mem (s : State) (b : Nat) (x : Bank) (hM : s.memoryWf = true) :
    (State.setBank s b x).memoryWf = true := by
  unfold State.setBank
  exact hM

theorem State.enqueue_mem (s : State) (a : BAccess) (hM : s.memoryWf = true) :
    (State.enqueue s a).memoryWf = true := by
  unfold State.enqueue
  repeat' first | (intro x; clear_value x) | (with_reducible intro _) | lift_lets -underBinder | with_reducible (first | assumption | apply State.setBank_mem)

theorem State.mapExtents_mem (s : State) (l : Nat) (f : Extent → Extent) (hM : s.memoryWf = true) :
    (State.mapExtents s l f).memoryWf = true := by
  unfold State.mapExtents
  repeat' first | (intro x; refine memCut x ?_ fun _ => ?_; (on_goal 1 => subst x); (on_goal 2 => clear_value x)) | (intro x; clear_value x) | (with_reducible intro _) | lift_lets -underBinder | with_reducible (first | assumption | apply State.setRing_mem | apply memIte | apply memFoldl)

theorem State.answer_mem (s : State) (a : BAccess) (code : Nat) (d : Bytes) (hM : s.memoryWf = true) :
    (State.answer s a code d).memoryWf = true := by
  unfold State.answer
  repeat' first | lift_lets -underBinder | with_reducible (first | assumption | apply State.bump_mem | apply State.xferWritten_mem | apply State.emit_mem | apply State.complete_mem | apply State.xferData_mem | apply memIte | (fail_if_no_progress refine memMk rfl rfl rfl rfl ?_) | (refine memOk (by assumption) ?_)) | split

theorem State.flushQueues_mem (s : State) (l : Nat) (hM : s.memoryWf = true) :
    (State.flushQueues s l).memoryWf = true := by
  unfold State.flushQueues
  repeat' first | (intro x; refine memCut x ?_ fun _ => ?_; (on_goal 1 => subst x); (on_goal 2 => clear_value x)) | (intro x; refine funCut x ?_; subst x) | (intro x; clear_value x) | (with_reducible intro _) | lift_lets -underBinder | with_reducible (first | assumption | apply State.answer_mem | apply State.setBank_mem | apply memFoldl)

theorem State.abandonMoves_mem (s : State) (q : Nat) (hM : s.memoryWf = true) :
    (State.abandonMoves s q).memoryWf = true := by
  unfold State.abandonMoves
  repeat' first | (intro x; refine memCut x ?_ fun _ => ?_; (on_goal 1 => subst x); (on_goal 2 => clear_value x)) | (intro x; clear_value x) | (with_reducible intro _) | lift_lets -underBinder | with_reducible (first | assumption | apply State.setPcState_mem | apply State.setPc_mem | apply memIte | apply memFoldl)

theorem State.bindSpare_mem (s : State) (q sp : Nat) (hM : s.memoryWf = true) :
    (State.bindSpare s q sp).memoryWf = true := by
  unfold State.bindSpare
  repeat' first | (intro x; refine memCut x ?_ fun _ => ?_; (on_goal 1 => subst x); (on_goal 2 => clear_value x)) | (intro x; clear_value x) | lift_lets -underBinder | with_reducible (first | assumption | apply State.wrs_mem | apply State.pcMaps_mem | apply State.faultLog_mem)

theorem State.dropRecords_mem (s : State) (l : Nat) (hM : s.memoryWf = true) :
    (State.dropRecords s l).memoryWf = true := by
  unfold State.dropRecords
  repeat' first | (intro x; refine memCut x ?_ fun _ => ?_; (on_goal 1 => subst x); (on_goal 2 => clear_value x)) | (intro x; clear_value x) | (with_reducible intro _) | lift_lets -underBinder | with_reducible (first | assumption | apply State.bumpBy_mem | apply State.setRing_mem | apply State.taken_mem | apply memIte | apply memFoldl)

theorem State.clearPc_mem (s : State) (l : Nat) (h : s.memoryWf = true) : (s.clearPc l).memoryWf = true := by
  rw [memFields] at *; exact ⟨h.1, h.2.1, twf_filter _ _ _ h.2.2.1, h.2.2.2⟩

theorem State.ceilings_mem (s : State) (hM : s.memoryWf = true) :
    (State.ceilings s).memoryWf = true := by
  unfold State.ceilings
  repeat' first | with_reducible (first | assumption | apply State.wr_mem | apply State.recount_mem)

theorem State.reseat_mem (s : State) (n l : Nat) (us : List Nat) (f : Charge → Option Charge) (g : PlPc → Option PlPc) (hM : s.memoryWf = true) :
    (State.reseat s n l us f g).memoryWf = true := by
  unfold State.reseat
  repeat' first | (intro x; refine funCut x ?_; subst x) | (intro x; clear_value x) | (with_reducible intro _) | lift_lets -underBinder | with_reducible (first | assumption | apply State.setRing_mem | apply State.modSlot_mem | apply State.recount_mem | apply State.recharge_mem)

theorem State.moveExtents_mem (s : State) (n l : Nat) (hM : s.memoryWf = true) :
    SomeMem (State.moveExtents s n l) := by
  unfold State.moveExtents
  repeat' first | (intro x; refine memCut x ?_ fun _ => ?_; (on_goal 1 => subst x); (on_goal 2 => clear_value x)) | (intro x; refine funCut x ?_; subst x) | (intro x; clear_value x) | (with_reducible intro _) | lift_lets -underBinder | with_reducible (first | assumption | apply State.reseat_mem | apply memIte | apply memIte1 | apply memIte2 | apply someIte | apply someSome | apply someNone | (fail_if_no_progress refine memMk rfl rfl rfl rfl ?_) | (refine memOk (by assumption) ?_)) | split

theorem State.failPc_mem (s : State) (q : Nat) (hM : s.memoryWf = true) :
    (State.failPc s q).memoryWf = true := by
  unfold State.failPc
  repeat' first | (intro x; (first | refine memCut x ?_ fun _ => ?_ | refine okCut x ?_ fun _ => ?_ | refine someCut x ?_ fun _ => ?_ | refine pairCut x ?_ fun _ => ?_ | refine pairCut2 x ?_ fun _ => ?_); (on_goal 1 => subst x); (on_goal 2 => clear_value x)) | (intro x; clear_value x) | (with_reducible intro _) | lift_lets -underBinder | with_reducible (first | assumption | apply State.setPcState_mem | apply State.faultLog_mem | apply State.dropRecords_mem | apply State.abandonMoves_mem | apply State.bindSpare_mem | apply State.clearPc_mem | apply State.mapExtents_mem | apply State.wr_mem | apply State.ceilings_mem | apply State.budgetOut_mem | apply State.moveExtents_mem | apply State.noticeWithdraw_mem | apply memIte | apply memFoldl | apply memFoldl1 | apply memFoldl2 | apply memElim | (fail_if_no_progress refine memMk rfl rfl rfl rfl ?_) | (refine memOk (by assumption) ?_) | (refine memPair (by assumption) ?_) | (refine memPair2 (by assumption) ?_) | (refine memSome (by assumption) ?_)) | split

theorem State.refailed_mem (s : State) (q : Nat) (hM : s.memoryWf = true) :
    (State.refailed s q).memoryWf = true := by
  unfold State.refailed
  repeat' first | lift_lets -underBinder | with_reducible (first | assumption | apply State.failPc_mem | apply memIte | (fail_if_no_progress refine memMk rfl rfl rfl rfl ?_) | (refine memOk (by assumption) ?_)) | split

theorem State.rewriteOn_mem (s : State) (l : Nat) (hM : s.memoryWf = true) :
    (State.rewriteOn s l).memoryWf = true := by
  unfold State.rewriteOn
  repeat' first | (intro x; refine memCut x ?_ fun _ => ?_; (on_goal 1 => subst x); (on_goal 2 => clear_value x)) | (intro x; refine funCut x ?_; subst x) | (intro x; clear_value x) | (with_reducible intro _) | lift_lets -underBinder | with_reducible (first | assumption | apply State.setPipe_mem | apply memIte | apply memFoldl | (fail_if_no_progress refine memMk rfl rfl rfl rfl ?_) | (refine memOk (by assumption) ?_)) | split

theorem State.freeze_mem (s : State) (q da kind syndrome : Nat) (hM : s.memoryWf = true) :
    (State.freeze s q da kind syndrome).memoryWf = true := by
  unfold State.freeze
  repeat' first | (intro x; refine memCut x ?_ fun _ => ?_; (on_goal 1 => subst x); (on_goal 2 => clear_value x)) | (intro x; clear_value x) | (with_reducible intro _) | lift_lets -underBinder | with_reducible (first | assumption | apply State.bump_mem | apply State.setDom_mem | apply State.faultLog_mem | apply State.abandonMoves_mem | apply State.setPc_mem | apply State.setPcState_mem | apply State.rewriteOn_mem | apply State.mapExtents_mem | apply State.flushQueues_mem | apply State.noticeWithdraw_mem | apply State.refailed_mem | apply memIte | apply memFoldl)

theorem State.remark_mem (s : State) (n : Nat) (r : RingRec) (fl : Nat) (hM : s.memoryWf = true) :
    (State.remark s n r fl).memoryWf = true := by
  unfold State.remark
  repeat' first | (intro x; refine memCut x ?_ fun _ => ?_; (on_goal 1 => subst x); (on_goal 2 => clear_value x)) | (intro x; clear_value x) | (with_reducible intro _) | lift_lets -underBinder | with_reducible (first | assumption | apply State.ringWrite_mem | apply State.setRing_mem)

theorem State.passPc_mem (s : State) (q : Nat) (bad : List Nat) (hM : s.memoryWf = true) :
    (State.passPc s q bad).memoryWf = true := by
  unfold State.passPc
  repeat' first | (intro x; refine memCut x ?_ fun _ => ?_; (on_goal 1 => subst x); (on_goal 2 => clear_value x)) | (intro x; clear_value x) | (with_reducible intro _) | lift_lets -underBinder | with_reducible (first | assumption | apply State.hbmWrite_mem | apply State.remark_mem | apply State.mapExtents_mem | apply State.setPcState_mem | apply State.setPc_mem | apply memIte | apply memFoldl)

theorem execPoolScrubAccess_mem (t : Nat) (cluster : Fin 64) (word : Fin 20480) (err : Fin 3) (s : State) (h : s.memoryWf = true) : OutMem (execPoolScrubAccess t cluster word err s) := by
  have ha := s.advance_mem t h
  refine outNext (memIte (State.countCorrected_mem _ _ ha) (memIte (State.faultLog_mem _ _ _ _ _ _ _ (State.countUncorrected_mem _ _ (memFoldl (fun u x hu => ?_) ?_))) ha))
  · exact State.setPipe_mem _ _ _ hu
  · rw [memFields] at *; exact ⟨ha.1, ha.2.1, ha.2.2.1, twf_tsetRange _ _ _ _ ha.2.2.2⟩

theorem State.hbmError_mem (s : State) (da err syndrome : Nat) (hM : s.memoryWf = true) :
    (State.hbmError s da err syndrome).memoryWf = true := by
  unfold State.hbmError
  repeat' first | lift_lets -underBinder | with_reducible (first | assumption | apply State.wr_mem | apply State.freeze_mem | apply memIte | (fail_if_no_progress refine memMk rfl rfl rfl rfl ?_) | (refine memOk (by assumption) ?_)) | split

theorem State.wakePc_mem (s : State) (l : Nat) (hM : s.memoryWf = true) :
    (State.wakePc s l).memoryWf = true := by
  unfold State.wakePc
  repeat' first | (intro x; clear_value x) | lift_lets -underBinder | with_reducible (first | assumption | apply State.wr_mem | apply State.setPc_mem | (fail_if_no_progress refine memMk rfl rfl rfl rfl ?_) | (refine memOk (by assumption) ?_)) | split

theorem execHbmAdmittedBurst_mem (t : Nat) (da : Nat) (err : Fin 4) (syndrome : Nat) (s : State) (hM : s.memoryWf = true) :
    OutMem (execHbmAdmittedBurst t da err syndrome s) := by
  unfold execHbmAdmittedBurst
  repeat' first | (intro x; refine memCut x ?_ fun _ => ?_; (on_goal 1 => subst x); (on_goal 2 => clear_value x)) | (intro x; clear_value x) | lift_lets -underBinder | with_reducible (first | assumption | apply State.advance_mem | apply State.wakePc_mem | apply State.setBank_mem | apply State.hbmError_mem | apply memIte | apply outNext)

theorem execHbmBestEffortAccess_mem (t : Nat) (bank : Fin 3072) (err : Fin 4) (syndrome : Nat) (s : State) (hM : s.memoryWf = true) :
    OutMem (execHbmBestEffortAccess t bank err syndrome s) := by
  unfold execHbmBestEffortAccess
  repeat' first | (intro x; refine memCut x ?_ fun _ => ?_; (on_goal 1 => subst x); (on_goal 2 => clear_value x)) | (intro x; clear_value x) | lift_lets -underBinder | with_reducible (first | assumption | apply State.advance_mem | apply State.wakePc_mem | apply State.setBank_mem | apply State.hbmWrite_mem | apply State.answer_mem | apply State.hbmError_mem | apply memIte | apply outNext | (fail_if_no_progress refine memMk rfl rfl rfl rfl ?_) | (refine memOk (by assumption) ?_)) | split

theorem State.startTest_mem (s : State) (q : Nat) (hM : s.memoryWf = true) :
    (State.startTest s q).memoryWf = true := by
  unfold State.startTest
  repeat' first | with_reducible (first | assumption | apply State.setPcState_mem)

theorem execHbmFreezeHoldExpiry_mem (t : Nat) (q : Fin 64) (s : State) (hM : s.memoryWf = true) :
    OutMem (execHbmFreezeHoldExpiry t q s) := by
  unfold execHbmFreezeHoldExpiry
  repeat' first | (intro x; refine memCut x ?_ fun _ => ?_; (on_goal 1 => subst x); (on_goal 2 => clear_value x)) | lift_lets -underBinder | with_reducible (first | assumption | apply State.advance_mem | apply State.startTest_mem | apply memIte | apply outNext)

theorem hbmRelease_mem (q : Nat) (s : State) (hM : s.memoryWf = true) :
    OkMem (hbmRelease q s) := by
  unfold hbmRelease
  repeat' first | (with_reducible intro _) | with_reducible (first | assumption | apply State.startTest_mem | apply okIte | apply memIte | apply okOk | apply okErr)

theorem execHbmRelease_mem (t : Nat) (q : Fin 64) (s : State) (hM : s.memoryWf = true) :
    OutMem (execHbmRelease t q s) := by
  unfold execHbmRelease
  repeat' first | with_reducible (first | assumption | apply State.serve_mem | apply hbmRelease_mem | apply outNext)

theorem State.logWords_mem (s : State) (q : Nat) (bad : List Nat) (hM : s.memoryWf = true) :
    (State.logWords s q bad).memoryWf = true := by
  unfold State.logWords
  repeat' first | (with_reducible intro _) | with_reducible (first | assumption | apply State.bump_mem | apply State.setDom_mem | apply State.faultLog_mem | apply memFoldl)

theorem execHbmTestComplete_mem (t : Nat) (q : Fin 64) (pass : Bool) (bad : List Nat) (s : State) (hM : s.memoryWf = true) :
    OutMem (execHbmTestComplete t q pass bad s) := by
  unfold execHbmTestComplete
  repeat' first | (intro x; refine memCut x ?_ fun _ => ?_; (on_goal 1 => subst x); (on_goal 2 => clear_value x)) | lift_lets -underBinder | with_reducible (first | assumption | apply State.advance_mem | apply State.logWords_mem | apply State.wr_mem | apply State.passPc_mem | apply State.setDom_mem | apply State.faultLog_mem | apply State.failPc_mem | apply memIte | apply outNext)

theorem State.startRetire_mem (s : State) (q : Nat) (hM : s.memoryWf = true) :
    (State.startRetire s q).memoryWf = true := by
  unfold State.startRetire
  repeat' first | (intro x; clear_value x) | (with_reducible intro _) | lift_lets -underBinder | with_reducible (first | assumption | apply State.taken_mem | apply State.setPcState_mem | apply State.setPc_mem | apply State.budgetOut_mem | apply memIte | (fail_if_no_progress refine memMk rfl rfl rfl rfl ?_) | (refine memOk (by assumption) ?_)) | split

theorem hbmRetire_mem (q : Nat) (s : State) (hM : s.memoryWf = true) :
    OkMem (hbmRetire q s) := by
  unfold hbmRetire
  repeat' first | (with_reducible intro _) | with_reducible (first | assumption | apply State.startRetire_mem | apply okIte | apply memIte | apply okOk | apply okErr)

theorem execHbmRetire_mem (t : Nat) (q : Fin 64) (s : State) (hM : s.memoryWf = true) :
    OutMem (execHbmRetire t q s) := by
  unfold execHbmRetire
  repeat' first | with_reducible (first | assumption | apply State.serve_mem | apply hbmRetire_mem | apply outNext)

theorem execHbmRetireSwitch_mem (t : Nat) (q : Fin 64) (s : State) (hM : s.memoryWf = true) :
    OutMem (execHbmRetireSwitch t q s) := by
  unfold execHbmRetireSwitch
  repeat' first | (intro x; refine memCut x ?_ fun _ => ?_; (on_goal 1 => subst x); (on_goal 2 => clear_value x)) | (intro x; clear_value x) | lift_lets -underBinder | with_reducible (first | assumption | apply State.advance_mem | apply State.bindSpare_mem | apply State.setPc_mem | apply memIte | apply outNext | (fail_if_no_progress refine memMk rfl rfl rfl rfl ?_) | (refine memOk (by assumption) ?_)) | split

theorem State.closeRows_mem (s : State) (l : Nat) (hM : s.memoryWf = true) :
    (State.closeRows s l).memoryWf = true := by
  unfold State.closeRows
  repeat' first | (intro x; clear_value x) | (with_reducible intro _) | lift_lets -underBinder | with_reducible (first | assumption | apply State.setBank_mem | apply memFoldl)

theorem execHbmRefresh_mem (t : Nat) (q : Fin 64) (s : State) (hM : s.memoryWf = true) :
    OutMem (execHbmRefresh t q s) := by
  unfold execHbmRefresh
  repeat' first | (intro x; refine memCut x ?_ fun _ => ?_; (on_goal 1 => subst x); (on_goal 2 => clear_value x)) | lift_lets -underBinder | with_reducible (first | assumption | apply State.advance_mem | apply State.closeRows_mem | apply memIte | apply outNext)

theorem execHbmTempCross_mem (t : Nat) (stack : Fin 2) (temp : Int) (s : State) (hM : s.memoryWf = true) :
    OutMem (execHbmTempCross t stack temp s) := by
  unfold execHbmTempCross
  repeat' first | (intro x; refine memCut x ?_ fun _ => ?_; (on_goal 1 => subst x); (on_goal 2 => clear_value x)) | (intro x; clear_value x) | lift_lets -underBinder | with_reducible (first | assumption | apply State.advance_mem | apply State.setDom_mem | apply State.wr_mem | apply State.faultLog_mem | apply State.assume_mem | apply State.assumeEnds_mem | apply memIte | apply outNext)

theorem execHbmPatrolScrub_mem (t : Nat) (da : Nat) (err : Fin 3) (syndrome : Nat) (s : State) (hM : s.memoryWf = true) :
    OutMem (execHbmPatrolScrub t da err syndrome s) := by
  unfold execHbmPatrolScrub
  repeat' first | (intro x; refine memCut x ?_ fun _ => ?_; (on_goal 1 => subst x); (on_goal 2 => clear_value x)) | lift_lets -underBinder | with_reducible (first | assumption | apply State.advance_mem | apply State.hbmError_mem | apply memIte | apply outNext)

theorem execHbmRowIdleClose_mem (t : Nat) (bank : Fin 3072) (s : State) (hM : s.memoryWf = true) :
    OutMem (execHbmRowIdleClose t bank s) := by
  unfold execHbmRowIdleClose
  repeat' first | (intro x; refine memCut x ?_ fun _ => ?_; (on_goal 1 => subst x); (on_goal 2 => clear_value x)) | (intro x; clear_value x) | lift_lets -underBinder | with_reducible (first | assumption | apply State.advance_mem | apply State.setBank_mem | apply memIte | apply outNext)

theorem execHbmPowerStateEntry_mem (t : Nat) (q : Fin 64) (power : Fin 3) (s : State) (hM : s.memoryWf = true) :
    OutMem (execHbmPowerStateEntry t q power s) := by
  unfold execHbmPowerStateEntry
  repeat' first | (intro x; refine memCut x ?_ fun _ => ?_; (on_goal 1 => subst x); (on_goal 2 => clear_value x)) | lift_lets -underBinder | with_reducible (first | assumption | apply State.advance_mem | apply State.wr_mem | apply memIte | apply outNext)

theorem execHbmWake_mem (t : Nat) (q : Fin 64) (s : State) (hM : s.memoryWf = true) :
    OutMem (execHbmWake t q s) := by
  unfold execHbmWake
  repeat' first | (intro x; refine memCut x ?_ fun _ => ?_; (on_goal 1 => subst x); (on_goal 2 => clear_value x)) | (intro x; clear_value x) | lift_lets -underBinder | with_reducible (first | assumption | apply State.advance_mem | apply State.wr_mem | apply State.setPc_mem | apply outNext)

theorem masksWrite_mem (b : Bytes) (s : State) (hM : s.memoryWf = true) :
    OkMem (masksWrite b s) := by
  unfold masksWrite
  repeat' first | (with_reducible intro _) | with_reducible (first | assumption | apply State.setDom_mem | apply okIte | apply memIte | apply okOk | apply okErr)

theorem execInterleaveMasksWrite_mem (t : Nat) (data : List (BitVec 8)) (s : State) (hM : s.memoryWf = true) :
    OutMem (execInterleaveMasksWrite t data s) := by
  unfold execInterleaveMasksWrite
  repeat' first | with_reducible (first | assumption | apply State.serve_mem | apply masksWrite_mem | apply outNext)

theorem buffersWrite_mem (b : Bytes) (s : State) (hM : s.memoryWf = true) :
    OkMem (buffersWrite b s) := by
  unfold buffersWrite
  repeat' first | (intro x; refine memCut x ?_ fun _ => ?_; (on_goal 1 => subst x); (on_goal 2 => clear_value x)) | (intro x; refine funCut x ?_; subst x) | (intro x; clear_value x) | (with_reducible intro _) | lift_lets -underBinder | with_reducible (first | assumption | apply State.setDom_mem | apply okIte | apply memIte | apply okOk | apply okErr)

theorem State.displayOff_mem (s : State) (hM : s.memoryWf = true) :
    (State.displayOff s).memoryWf = true := by
  unfold State.displayOff
  repeat' first | (intro x; refine memCut x ?_ fun _ => ?_; (on_goal 1 => subst x); (on_goal 2 => clear_value x)) | (intro x; clear_value x) | (with_reducible intro _) | lift_lets -underBinder | with_reducible (first | assumption | apply State.unbindChannel_mem | apply State.wrs_mem | apply State.recharge_mem | (fail_if_no_progress refine memMk rfl rfl rfl rfl ?_) | (refine memOk (by assumption) ?_)) | split

theorem State.displayUp_mem (s : State) (charge power : Nat) (hM : s.memoryWf = true) :
    (State.displayUp s charge power).memoryWf = true := by
  unfold State.displayUp
  repeat' first | (intro x; refine memCut x ?_ fun _ => ?_; (on_goal 1 => subst x); (on_goal 2 => clear_value x)) | (intro x; clear_value x) | lift_lets -underBinder | with_reducible (first | assumption | apply State.wrs_mem | apply State.closing_mem | apply memIte | (fail_if_no_progress refine memMk rfl rfl rfl rfl ?_))

theorem displayEnable_mem (on : Bool) (s : State) (hM : s.memoryWf = true) :
    OkMem (displayEnable on s) := by
  unfold displayEnable
  repeat' first | (intro x; refine memCut x ?_ fun _ => ?_; (on_goal 1 => subst x); (on_goal 2 => clear_value x)) | (intro x; clear_value x) | (with_reducible intro _) | lift_lets -underBinder | with_reducible (first | assumption | apply State.wr_mem | apply State.closing_mem | apply State.displayOff_mem | apply State.abortAs_mem | apply State.bindChannel_mem | apply State.displayUp_mem | apply State.recharge_mem | apply okIte | apply memIte | apply okOk | apply okErr | (fail_if_no_progress refine memMk rfl rfl rfl rfl ?_) | (refine memOk (by assumption) ?_)) | split

theorem execDisplayEnable_mem (t : Nat) (on : Bool) (s : State) (hM : s.memoryWf = true) :
    OutMem (execDisplayEnable t on s) := by
  unfold execDisplayEnable
  repeat' first | with_reducible (first | assumption | apply State.serveNoting_mem | apply displayEnable_mem | apply outNext)

theorem displayCommit_mem (k : Nat) (s : State) (hM : s.memoryWf = true) :
    OkMem (displayCommit k s) := by
  unfold displayCommit
  repeat' first | (intro x; refine memCut x ?_ fun _ => ?_; (on_goal 1 => subst x); (on_goal 2 => clear_value x)) | (intro x; clear_value x) | (with_reducible intro _) | lift_lets -underBinder | with_reducible (first | assumption | apply State.noted_mem | apply State.bump_mem | apply State.wr_mem | apply okIte | apply memIte | apply okOk | apply okErr | (fail_if_no_progress refine memMk rfl rfl rfl rfl ?_))

theorem execDisplayCommit_mem (t buffer : Nat) (s : State) (hM : s.memoryWf = true) :
    OutMem (execDisplayCommit t buffer s) := by
  unfold execDisplayCommit
  repeat' first | with_reducible (first | assumption | apply State.serve_mem | apply displayCommit_mem | apply outNext)

theorem State.frameStart_mem (s : State) (S : Nat) (showNew : Bool) (hM : s.memoryWf = true) :
    (State.frameStart s S showNew).memoryWf = true := by
  unfold State.frameStart
  repeat' first | (intro x; refine memCut x ?_ fun _ => ?_; (on_goal 1 => subst x); (on_goal 2 => clear_value x)) | (intro x; clear_value x) | lift_lets -underBinder | with_reducible (first | assumption | apply State.wr_mem | apply State.emit_mem | apply State.bump_mem | apply State.msix_mem | apply memIte | (fail_if_no_progress refine memMk rfl rfl rfl rfl ?_) | (refine memOk (by assumption) ?_)) | split

theorem execFrameStart_mem (t : Nat) (s : State) (hM : s.memoryWf = true) :
    OutMem (execFrameStart t s) := by
  unfold execFrameStart
  repeat' first | (intro x; refine memCut x ?_ fun _ => ?_; (on_goal 1 => subst x); (on_goal 2 => clear_value x)) | (intro x; clear_value x) | lift_lets -underBinder | with_reducible (first | assumption | apply State.advance_mem | apply State.frameStart_mem | apply memIte | apply outNext)

theorem State.fetchBeat_mem (s : State) (err : Bool) (hM : s.memoryWf = true) :
    SomeMem (State.fetchBeat s err) := by
  unfold State.fetchBeat
  repeat' first | (intro x; refine memCut x ?_ fun _ => ?_; (on_goal 1 => subst x); (on_goal 2 => clear_value x)) | (intro x; clear_value x) | lift_lets -underBinder | with_reducible (first | assumption | apply State.bump_mem | apply State.hbmError_mem | apply memIte | apply memIte1 | apply memIte2 | apply someIte | apply someSome | apply someNone | (fail_if_no_progress refine memMk rfl rfl rfl rfl ?_))

theorem State.displayRetrain_mem (s : State) (hM : s.memoryWf = true) :
    (State.displayRetrain s).memoryWf = true := by
  unfold State.displayRetrain
  repeat' first | (intro x; refine memCut x ?_ fun _ => ?_; (on_goal 1 => subst x); (on_goal 2 => clear_value x)) | (intro x; clear_value x) | (with_reducible intro _) | lift_lets -underBinder | with_reducible (first | assumption | apply State.wr_mem | apply State.xferCause_mem | (fail_if_no_progress refine memMk rfl rfl rfl rfl ?_) | (refine memOk (by assumption) ?_)) | split

theorem State.frameEnd_mem (s : State) (linkCrc : Nat) (hM : s.memoryWf = true) :
    (State.frameEnd s linkCrc).memoryWf = true := by
  unfold State.frameEnd
  repeat' first | (intro x; refine memCut x ?_ fun _ => ?_; (on_goal 1 => subst x); (on_goal 2 => clear_value x)) | (intro x; clear_value x) | lift_lets -underBinder | with_reducible (first | assumption | apply State.wrs_mem | apply State.bump_mem | apply State.closing_mem | apply State.displayOff_mem | apply State.quadFault_mem | apply State.displayRetrain_mem | apply State.wr_mem | apply memIte | (fail_if_no_progress refine memMk rfl rfl rfl rfl ?_))

theorem execDisplayFrameEnd_mem (t linkCrc : Nat) (s : State) (hM : s.memoryWf = true) :
    OutMem (execDisplayFrameEnd t linkCrc s) := by
  unfold execDisplayFrameEnd
  repeat' first | (intro x; refine memCut x ?_ fun _ => ?_; (on_goal 1 => subst x); (on_goal 2 => clear_value x)) | lift_lets -underBinder | with_reducible (first | assumption | apply State.advance_mem | apply State.frameEnd_mem | apply memIte | apply outNext)

theorem execHpdChange_mem (t : Nat) (present : Bool) (s : State) (hM : s.memoryWf = true) :
    OutMem (execHpdChange t present s) := by
  unfold execHpdChange
  repeat' first | (intro x; refine memCut x ?_ fun _ => ?_; (on_goal 1 => subst x); (on_goal 2 => clear_value x)) | (intro x; clear_value x) | lift_lets -underBinder | with_reducible (first | assumption | apply State.advance_mem | apply State.displayRetrain_mem | apply State.wr_mem | apply memIte | apply outNext | (fail_if_no_progress refine memMk rfl rfl rfl rfl ?_))

theorem execDisplayLinkTrained_mem (t : Nat) (ok : Bool) (rate : Fin 8) (caps : List (BitVec 8)) (psr : Bool) (s : State) (hM : s.memoryWf = true) :
    OutMem (execDisplayLinkTrained t ok rate caps psr s) := by
  unfold execDisplayLinkTrained
  repeat' first | (intro x; refine memCut x ?_ fun _ => ?_; (on_goal 1 => subst x); (on_goal 2 => clear_value x)) | (intro x; clear_value x) | lift_lets -underBinder | with_reducible (first | assumption | apply State.advance_mem | apply State.wr_mem | apply State.setDom_mem | apply State.setQuad_mem | apply State.xferCause_mem | apply memIte | apply outNext | (fail_if_no_progress refine memMk rfl rfl rfl rfl ?_) | (refine memOk (by assumption) ?_)) | split

theorem displayClear_mem  (s : State) (hM : s.memoryWf = true) :
    OkMem (displayClear s) := by
  unfold displayClear
  repeat' first | (with_reducible intro _) | with_reducible (first | assumption | apply State.wrs_mem | apply okOk)

theorem execDisplayClearFlags_mem (t : Nat) (s : State) (hM : s.memoryWf = true) :
    OutMem (execDisplayClearFlags t s) := by
  unfold execDisplayClearFlags
  repeat' first | with_reducible (first | assumption | apply State.serve_mem | apply displayClear_mem | apply outNext)

theorem State.reserveLost_mem (s : State) (c : Nat) (hM : s.memoryWf = true) :
    (State.reserveLost s c).memoryWf = true := by
  unfold State.reserveLost
  repeat' first | with_reducible (first | assumption | apply State.xferError_mem | apply memIte)

theorem reserveWrite_mem (b : Bytes) (s : State) (hM : s.memoryWf = true) :
    OkMem (reserveWrite b s) := by
  unfold reserveWrite
  repeat' first | (with_reducible intro _) | with_reducible (first | assumption | apply State.reserveLost_mem | apply State.setDom_mem | apply State.recount_mem | apply okIte | apply memIte | apply memFoldl | apply okOk | apply okErr)

theorem execHostReserveWrite_mem (t : Nat) (data : List (BitVec 8)) (s : State) (hM : s.memoryWf = true) :
    OutMem (execHostReserveWrite t data s) := by
  unfold execHostReserveWrite
  repeat' first | with_reducible (first | assumption | apply State.serve_mem | apply reserveWrite_mem | apply outNext)

theorem transferStart_mem (c : Nat) (s : State) (hM : s.memoryWf = true) :
    OkMem (transferStart c s) := by
  unfold transferStart
  repeat' first | (intro x; refine memCut x ?_ fun _ => ?_; (on_goal 1 => subst x); (on_goal 2 => clear_value x)) | (intro x; clear_value x) | (with_reducible intro _) | lift_lets -underBinder | with_reducible (first | assumption | apply State.wrs_mem | apply State.setXf_mem | apply State.xferSettle_mem | apply okIte | apply memIte | apply okOk | apply okErr)

theorem execTransferStart_mem (t : Nat) (ch : Fin 32) (s : State) (hM : s.memoryWf = true) :
    OutMem (execTransferStart t ch s) := by
  unfold execTransferStart
  repeat' first | with_reducible (first | assumption | apply State.serve_mem | apply transferStart_mem | apply outNext)

theorem transferPause_mem (c : Nat) (v : Bool) (s : State) (hM : s.memoryWf = true) :
    OkMem (transferPause c v s) := by
  unfold transferPause
  repeat' first | (with_reducible intro _) | with_reducible (first | assumption | apply State.wr_mem | apply State.xferCause_mem | apply okIte | apply memIte | apply okOk | apply okErr)

theorem execTransferPauseWrite_mem (t : Nat) (ch : Fin 32) (pause : Bool) (s : State) (hM : s.memoryWf = true) :
    OutMem (execTransferPauseWrite t ch pause s) := by
  unfold execTransferPauseWrite
  repeat' first | with_reducible (first | assumption | apply State.serve_mem | apply transferPause_mem | apply outNext)

theorem transferAbort_mem (c : Nat) (s : State) (hM : s.memoryWf = true) :
    OkMem (transferAbort c s) := by
  unfold transferAbort
  repeat' first | (intro x; refine memCut x ?_ fun _ => ?_; (on_goal 1 => subst x); (on_goal 2 => clear_value x)) | (intro x; clear_value x) | (with_reducible intro _) | lift_lets -underBinder | with_reducible (first | assumption | apply State.setXf_mem | apply State.xferDrop_mem | apply State.xferEnd_mem | apply State.xferSettle_mem | apply okIte | apply memIte | apply okOk | apply okErr)

theorem execTransferAbort_mem (t : Nat) (ch : Fin 32) (s : State) (hM : s.memoryWf = true) :
    OutMem (execTransferAbort t ch s) := by
  unfold execTransferAbort
  repeat' first | with_reducible (first | assumption | apply State.serve_mem | apply transferAbort_mem | apply outNext)

theorem State.writeBeat_mem (s : State) (c : Nat) (hM : s.memoryWf = true) :
    (State.writeBeat s c).memoryWf = true := by
  unfold State.writeBeat
  repeat' first | (intro x; refine memCut x ?_ fun _ => ?_; (on_goal 1 => subst x); (on_goal 2 => clear_value x)) | (intro x; clear_value x) | lift_lets -underBinder | with_reducible (first | assumption | apply State.wrs_mem | apply State.bump_mem | apply State.setXf_mem | apply State.enqueue_mem | apply State.emit_mem | apply State.xferSettle_mem | apply memIte)

theorem State.readBeat_mem (s : State) (c : Nat) (err : Bool) (hM : s.memoryWf = true) :
    (State.readBeat s c err).memoryWf = true := by
  unfold State.readBeat
  repeat' first | (intro x; refine memCut x ?_ fun _ => ?_; (on_goal 1 => subst x); (on_goal 2 => clear_value x)) | (intro x; clear_value x) | (with_reducible intro _) | lift_lets -underBinder | with_reducible (first | assumption | apply State.wr_mem | apply State.setXf_mem | apply State.emit_mem | apply State.xferData_mem | apply State.xferError_mem | apply State.enqueue_mem | apply memIte)

theorem State.deviceBeat_mem (s : State) (c : Nat) (err credits : Bool) (hM : s.memoryWf = true) :
    SomeMem (State.deviceBeat s c err credits) := by
  unfold State.deviceBeat
  repeat' first | (intro x; refine memCut x ?_ fun _ => ?_; (on_goal 1 => subst x); (on_goal 2 => clear_value x)) | (intro x; clear_value x) | lift_lets -underBinder | with_reducible (first | assumption | apply State.streamBeat_mem | apply State.storeBeat_mem | apply State.fetchBeat_mem | apply memIte | apply memIte1 | apply memIte2 | apply someIte | apply someSome | apply someNone)

theorem State.burstBeat_mem (s : State) (c : Nat) (hM : s.memoryWf = true) :
    (State.burstBeat s c).memoryWf = true := by
  unfold State.burstBeat
  repeat' first | (intro x; clear_value x) | lift_lets -underBinder | with_reducible (first | assumption | apply State.setXf_mem | apply State.bump_mem | apply State.wr_mem)

theorem State.beatOf_mem (s : State) (c : Nat) (err credits : Bool) (hM : s.memoryWf = true) : SomeMem (State.beatOf s c err credits) := by
  have h0 : (if s.xst c = 3 then s.wr (Ob.xferState c) 2 else s).memoryWf = true := memIte (State.wr_mem _ _ _ hM) hM
  unfold State.beatOf
  refine someIte (someIte (someSome (State.writeBeat_mem _ _ h0)) (someIte (someSome (State.readBeat_mem _ _ _ h0)) someNone)) (someIte someNone ?_)
  intro u hu
  obtain ⟨v, hv, rfl⟩ := Option.map_eq_some_iff.1 hu
  exact State.burstBeat_mem _ _ (State.deviceBeat_mem s c err credits hM v hv)

theorem State.losers_mem (s : State) (port w : Nat) (ready : List Nat) (hM : s.memoryWf = true) :
    (State.losers s port w ready).memoryWf = true := by
  unfold State.losers
  repeat' first | (intro x; refine memCut x ?_ fun _ => ?_; (on_goal 1 => subst x); (on_goal 2 => clear_value x)) | (intro x; clear_value x) | (with_reducible intro _) | lift_lets -underBinder | with_reducible (first | assumption | apply State.setXf_mem | apply State.wr_mem | apply State.bump_mem | apply memIte | apply memFoldl)

theorem State.stallStreams_mem (s : State) (credits : Bool) (hM : s.memoryWf = true) :
    (State.stallStreams s credits).memoryWf = true := by
  unfold State.stallStreams
  repeat' first | (intro x; refine memCut x ?_ fun _ => ?_; (on_goal 1 => subst x); (on_goal 2 => clear_value x)) | (intro x; clear_value x) | (with_reducible intro _) | lift_lets -underBinder | with_reducible (first | assumption | apply State.deviceBeat_mem | apply State.wr_mem | apply memIte | apply memFoldl)

theorem execTransferBeatSlot_mem (t : Nat) (port : Fin 2) (owner : Option (Fin 32)) (err credits : Bool) (s : State) (hM : s.memoryWf = true) :
    OutMem (execTransferBeatSlot t port owner err credits s) := by
  unfold execTransferBeatSlot
  repeat' first | (intro x; (first | refine memCut x ?_ fun _ => ?_ | refine okCut x ?_ fun _ => ?_ | refine someCut x ?_ fun _ => ?_ | refine pairCut x ?_ fun _ => ?_ | refine pairCut2 x ?_ fun _ => ?_); (on_goal 1 => subst x); (on_goal 2 => clear_value x)) | (intro x; clear_value x) | (with_reducible intro _) | lift_lets -underBinder | with_reducible (first | assumption | apply State.advance_mem | apply State.stallStreams_mem | apply State.beatOf_mem | apply State.setXf_mem | apply State.losers_mem | apply memIte | apply memFoldl | apply memFoldl1 | apply memFoldl2 | apply outNext | apply memElim | (fail_if_no_progress refine memMk rfl rfl rfl rfl ?_) | (refine memOk (by assumption) ?_) | (refine memPair (by assumption) ?_) | (refine memPair2 (by assumption) ?_) | (refine memSome (by assumption) ?_)) | split

theorem execRequestRaise_mem (t : Nat) (line : Fin 48) (beats : Fin 65) (s : State) (hM : s.memoryWf = true) :
    OutMem (execRequestRaise t line beats s) := by
  unfold execRequestRaise
  repeat' first | (intro x; refine memCut x ?_ fun _ => ?_; (on_goal 1 => subst x); (on_goal 2 => clear_value x)) | (intro x; clear_value x) | lift_lets -underBinder | with_reducible (first | assumption | apply State.advance_mem | apply State.setXf_mem | apply memIte | apply outNext | (fail_if_no_progress refine memMk rfl rfl rfl rfl ?_) | (refine memOk (by assumption) ?_)) | split

theorem execRequestWithdraw_mem (t : Nat) (line : Fin 48) (s : State) (hM : s.memoryWf = true) :
    OutMem (execRequestWithdraw t line s) := by
  unfold execRequestWithdraw
  repeat' first | (intro x; refine memCut x ?_ fun _ => ?_; (on_goal 1 => subst x); (on_goal 2 => clear_value x)) | (intro x; clear_value x) | lift_lets -underBinder | with_reducible (first | assumption | apply State.advance_mem | apply State.setXf_mem | apply State.bump_mem | apply memIte | apply outNext | (fail_if_no_progress refine memMk rfl rfl rfl rfl ?_) | (refine memOk (by assumption) ?_)) | split

theorem execHostReadCompletion_mem (t : Nat) (ch : Fin 32) (addr : Nat) (ok : Bool) (data : List (BitVec 8)) (s : State) (hM : s.memoryWf = true) :
    OutMem (execHostReadCompletion t ch addr ok data s) := by
  unfold execHostReadCompletion
  repeat' first | (intro x; refine memCut x ?_ fun _ => ?_; (on_goal 1 => subst x); (on_goal 2 => clear_value x)) | lift_lets -underBinder | with_reducible (first | assumption | apply State.advance_mem | apply State.xferData_mem | apply memIte | apply outNext)

theorem execTransferReadTimeout_mem (t : Nat) (ch : Fin 32) (s : State) (hM : s.memoryWf = true) :
    OutMem (execTransferReadTimeout t ch s) := by
  unfold execTransferReadTimeout
  repeat' first | (intro x; refine memCut x ?_ fun _ => ?_; (on_goal 1 => subst x); (on_goal 2 => clear_value x)) | (with_reducible intro _) | lift_lets -underBinder | with_reducible (first | assumption | apply State.advance_mem | apply State.xferData_mem | apply memIte | apply outNext | (fail_if_no_progress refine memMk rfl rfl rfl rfl ?_) | (refine memOk (by assumption) ?_)) | split

theorem State.windowRead_mem (s : State) (tag : Nat) (p : Nat × Nat) (hM : s.memoryWf = true) :
    (State.windowRead s tag p).memoryWf = true := by
  unfold State.windowRead
  repeat' first | (with_reducible intro _) | lift_lets -underBinder | with_reducible (first | assumption | apply State.enqueue_mem | apply State.emit_mem | apply State.complete_mem | apply memIte)

theorem execWindowBRead_mem (t tag offset len : Nat) (s : State) (hM : s.memoryWf = true) :
    OutMem (execWindowBRead t tag offset len s) := by
  unfold execWindowBRead
  repeat' first | (intro x; refine memCut x ?_ fun _ => ?_; (on_goal 1 => subst x); (on_goal 2 => clear_value x)) | (with_reducible intro _) | lift_lets -underBinder | with_reducible (first | assumption | apply State.advance_mem | apply State.windowRead_mem | apply memFoldl | apply outNext)

theorem State.windowWrite_mem (s : State) (offset : Nat) (data : Bytes) (p : Nat × Nat) (hM : s.memoryWf = true) :
    (State.windowWrite s offset data p).memoryWf = true := by
  unfold State.windowWrite
  repeat' first | lift_lets -underBinder | with_reducible (first | assumption | apply State.enqueue_mem | apply State.bump_mem | apply memIte)

theorem execWindowBWrite_mem (t offset : Nat) (data : List (BitVec 8)) (s : State) (hM : s.memoryWf = true) :
    OutMem (execWindowBWrite t offset data s) := by
  unfold execWindowBWrite
  repeat' first | (intro x; refine memCut x ?_ fun _ => ?_; (on_goal 1 => subst x); (on_goal 2 => clear_value x)) | (with_reducible intro _) | lift_lets -underBinder | with_reducible (first | assumption | apply State.advance_mem | apply State.windowWrite_mem | apply memFoldl | apply outNext)

theorem State.endpointReset_mem (s : State) (down : Bool) (hM : s.memoryWf = true) :
    (State.endpointReset s down).memoryWf = true := by
  unfold State.endpointReset
  repeat' first | (intro x; refine memCut x ?_ fun _ => ?_; (on_goal 1 => subst x); (on_goal 2 => clear_value x)) | (intro x; clear_value x) | (with_reducible intro _) | lift_lets -underBinder | with_reducible (first | assumption | apply State.suspendRings_mem | apply State.bump_mem | apply State.wrs_mem | apply memIte | (fail_if_no_progress refine memMk rfl rfl rfl rfl ?_))

theorem execHostReset_mem (t : Nat) (kind : Fin 4) (s : State) (hM : s.memoryWf = true) :
    OutMem (execHostReset t kind s) := by
  unfold execHostReset
  repeat' first | (intro x; refine memCut x ?_ fun _ => ?_; (on_goal 1 => subst x); (on_goal 2 => clear_value x)) | lift_lets -underBinder | with_reducible (first | assumption | apply State.advance_mem | apply State.endpointReset_mem | apply outNext)

theorem execHostLinkTrained_mem (t : Nat) (rate : Fin 3) (width : Fin 5) (s : State) (hM : s.memoryWf = true) :
    OutMem (execHostLinkTrained t rate width s) := by
  unfold execHostLinkTrained
  repeat' first | (intro x; refine memCut x ?_ fun _ => ?_; (on_goal 1 => subst x); (on_goal 2 => clear_value x)) | (intro x; clear_value x) | lift_lets -underBinder | with_reducible (first | assumption | apply State.advance_mem | apply State.wrs_mem | apply State.quadsUp_mem | apply State.wr_mem | apply State.msix_mem | apply memIte | apply outNext | (fail_if_no_progress refine memMk rfl rfl rfl rfl ?_))

theorem linkRetrain_mem  (s : State) (hM : s.memoryWf = true) :
    OkMem (linkRetrain s) := by
  unfold linkRetrain
  repeat' first | (intro x; clear_value x) | (with_reducible intro _) | lift_lets -underBinder | with_reducible (first | assumption | apply okOk | apply okErr | (fail_if_no_progress refine memMk rfl rfl rfl rfl ?_))

theorem execLinkRetrain_mem (t : Nat) (s : State) (hM : s.memoryWf = true) :
    OutMem (execLinkRetrain t s) := by
  unfold execLinkRetrain
  repeat' first | with_reducible (first | assumption | apply State.serve_mem | apply linkRetrain_mem | apply outNext)

theorem execDoorbellWrite_mem (t : Nat) (ring : Fin 32) (value : Nat) (whole : Bool) (s : State) (hM : s.memoryWf = true) :
    OutMem (execDoorbellWrite t ring value whole s) := by
  unfold execDoorbellWrite
  repeat' first | (intro x; refine memCut x ?_ fun _ => ?_; (on_goal 1 => subst x); (on_goal 2 => clear_value x)) | lift_lets -underBinder | with_reducible (first | assumption | apply State.advance_mem | apply State.wr_mem | apply State.bump_mem | apply memIte | apply outNext)

theorem execBusMasterDisable_mem (t : Nat) (s : State) (hM : s.memoryWf = true) :
    OutMem (execBusMasterDisable t s) := by
  unfold execBusMasterDisable
  repeat' first | (intro x; refine memCut x ?_ fun _ => ?_; (on_goal 1 => subst x); (on_goal 2 => clear_value x)) | (intro x; clear_value x) | lift_lets -underBinder | with_reducible (first | assumption | apply State.advance_mem | apply State.suspendRings_mem | apply outNext | (fail_if_no_progress refine memMk rfl rfl rfl rfl ?_))

theorem execStreamIrqDelayExpiry_mem (t : Nat) (ring : Fin 32) (s : State) (hM : s.memoryWf = true) :
    OutMem (execStreamIrqDelayExpiry t ring s) := by
  unfold execStreamIrqDelayExpiry
  repeat' first | (intro x; refine memCut x ?_ fun _ => ?_; (on_goal 1 => subst x); (on_goal 2 => clear_value x)) | (intro x; clear_value x) | lift_lets -underBinder | with_reducible (first | assumption | apply State.advance_mem | apply State.setStream_mem | apply State.msix_mem | apply memIte | apply outNext)

theorem execCreditStallTimeout_mem (t : Nat) (ring : Fin 32) (s : State) (hM : s.memoryWf = true) :
    OutMem (execCreditStallTimeout t ring s) := by
  unfold execCreditStallTimeout
  repeat' first | (intro x; refine memCut x ?_ fun _ => ?_; (on_goal 1 => subst x); (on_goal 2 => clear_value x)) | lift_lets -underBinder | with_reducible (first | assumption | apply State.advance_mem | apply State.bump_mem | apply State.wr_mem | apply State.assume_mem | apply memIte | apply outNext)

theorem ringValidate_mem (r : Nat) (s : State) (hM : s.memoryWf = true) :
    OkMem (ringValidate r s) := by
  unfold ringValidate
  repeat' first | (intro x; refine memCut x ?_ fun _ => ?_; (on_goal 1 => subst x); (on_goal 2 => clear_value x)) | (intro x; clear_value x) | (with_reducible intro _) | lift_lets -underBinder | with_reducible (first | assumption | apply State.setStream_mem | apply State.wr_mem | apply okIte | apply memIte | apply okOk)

theorem execRingValidate_mem (t : Nat) (ring : Fin 32) (s : State) (hM : s.memoryWf = true) :
    OutMem (execRingValidate t ring s) := by
  unfold execRingValidate
  repeat' first | with_reducible (first | assumption | apply State.serve_mem | apply ringValidate_mem | apply outNext)

theorem ringRestart_mem (r : Nat) (s : State) (hM : s.memoryWf = true) :
    OkMem (ringRestart r s) := by
  unfold ringRestart
  repeat' first | (intro x; refine memCut x ?_ fun _ => ?_; (on_goal 1 => subst x); (on_goal 2 => clear_value x)) | (intro x; clear_value x) | (with_reducible intro _) | lift_lets -underBinder | with_reducible (first | assumption | apply State.setStream_mem | apply State.wrs_mem | apply State.reattach_mem | apply okIte | apply memIte | apply okOk | apply okErr | (fail_if_no_progress refine memMk rfl rfl rfl rfl ?_))

theorem execRingRestart_mem (t : Nat) (ring : Fin 32) (s : State) (hM : s.memoryWf = true) :
    OutMem (execRingRestart t ring s) := by
  unfold execRingRestart
  repeat' first | with_reducible (first | assumption | apply State.serve_mem | apply ringRestart_mem | apply outNext)

theorem execConsumerStallTimeout_mem (t : Nat) (n : Fin 64) (who : Nat) (s : State) (hM : s.memoryWf = true) :
    OutMem (execConsumerStallTimeout t n who s) := by
  unfold execConsumerStallTimeout
  repeat' first | (intro x; refine memCut x ?_ fun _ => ?_; (on_goal 1 => subst x); (on_goal 2 => clear_value x)) | (intro x; clear_value x) | (with_reducible intro _) | lift_lets -underBinder | with_reducible (first | assumption | apply State.advance_mem | apply State.streamDetach_mem | apply State.detachConsumer_mem | apply State.closeUnit_mem | apply State.setRecording_mem | apply memIte | apply outNext | (fail_if_no_progress refine memMk rfl rfl rfl rfl ?_) | (refine memOk (by assumption) ?_)) | split

theorem execConsumerReattach_mem (t : Nat) (n : Fin 64) (who : Nat) (s : State) (hM : s.memoryWf = true) :
    OutMem (execConsumerReattach t n who s) := by
  unfold execConsumerReattach
  repeat' first | (intro x; refine memCut x ?_ fun _ => ?_; (on_goal 1 => subst x); (on_goal 2 => clear_value x)) | (intro x; clear_value x) | (with_reducible intro _) | lift_lets -underBinder | with_reducible (first | assumption | apply State.advance_mem | apply State.reattach_mem | apply State.wr_mem | apply State.closing_mem | apply memIte | apply outNext | (fail_if_no_progress refine memMk rfl rfl rfl rfl ?_) | (refine memOk (by assumption) ?_)) | split

theorem hostReadWrite_mem (n v : Nat) (s : State) (hM : s.memoryWf = true) :
    OkMem (hostReadWrite n v s) := by
  unfold hostReadWrite
  repeat' first | (intro x; refine memCut x ?_ fun _ => ?_; (on_goal 1 => subst x); (on_goal 2 => clear_value x)) | (intro x; clear_value x) | (with_reducible intro _) | lift_lets -underBinder | with_reducible (first | assumption | apply State.wr_mem | apply State.setRing_mem | apply State.taken_mem | apply State.ringOldest_mem | apply okIte | apply memIte | apply okOk | apply okErr)

theorem execHostReadWrite_mem (t : Nat) (n : Fin 64) (value : Nat) (s : State) (hM : s.memoryWf = true) :
    OutMem (execHostReadWrite t n value s) := by
  unfold execHostReadWrite
  repeat' first | with_reducible (first | assumption | apply State.serve_mem | apply hostReadWrite_mem | apply outNext)

theorem releaseRing_mem (n : Nat) (s : State) (hM : s.memoryWf = true) :
    OkMem (releaseRing n s) := by
  unfold releaseRing
  repeat' first | (with_reducible intro _) | with_reducible (first | assumption | apply State.dropRing_mem | apply okIte | apply memIte | apply okOk | apply okErr)

theorem execReleaseRing_mem (t : Nat) (n : Fin 64) (s : State) (hM : s.memoryWf = true) :
    OutMem (execReleaseRing t n s) := by
  unfold execReleaseRing
  repeat' first | with_reducible (first | assumption | apply State.serve_mem | apply releaseRing_mem | apply outNext)

end Sys2Proof.Machine
end

