-- ==== Sys2Proof/Laws/KeepCapture.lean ====
section
/-! SUPPORT. The definitions of these files of Machine keep the canonical form of the memories: Capture, Ingest, Triggers, Arrays, Frames. -/

namespace Sys2Proof.Machine

open Sys2Proof

theorem State.lookLeave_mem (s : State) (n k : Nat) (c : Chunk) (hM : s.memoryWf = true) :
    (State.lookLeave s n k c).memoryWf = true := by
  unfold State.lookLeave
  repeat' first | (intro x; clear_value x) | (with_reducible intro _) | lift_lets -underBinder | with_reducible (first | assumption | apply State.queueRecord_mem | (fail_if_no_progress refine memMk rfl rfl rfl rfl ?_) | (refine memOk (by assumption) ?_)) | split

theorem State.lookTrim_mem (s : State) (n k m : Nat) (hM : s.memoryWf = true) :
    (State.lookTrim s n k m).memoryWf = true := by
  unfold State.lookTrim
  repeat' first | (intro x; refine memCut x ?_ fun _ => ?_; (on_goal 1 => subst x); (on_goal 2 => clear_value x)) | (intro x; clear_value x) | (with_reducible intro _) | lift_lets -underBinder | with_reducible (first | assumption | apply State.lookLeave_mem | apply State.setRing_mem | apply memFoldl)

theorem State.lookFlush_mem (s : State) (n : Nat) (hM : s.memoryWf = true) :
    (State.lookFlush s n).memoryWf = true := by
  unfold State.lookFlush
  repeat' first | (with_reducible intro _) | with_reducible (first | assumption | apply State.lookTrim_mem | apply memFoldl)

theorem State.chunkDone_mem (s : State) (n k : Nat) (c : Chunk) (hM : s.memoryWf = true) :
    (State.chunkDone s n k c).memoryWf = true := by
  unfold State.chunkDone
  repeat' first | (intro x; clear_value x) | lift_lets -underBinder | with_reducible (first | assumption | apply State.queueRecord_mem | apply State.setRing_mem | apply State.lookTrim_mem | apply memIte)

theorem State.chunkGate_mem (s : State) (n k : Nat) (c : Chunk) (hM : s.memoryWf = true) :
    (State.chunkGate s n k c).memoryWf = true := by
  unfold State.chunkGate
  repeat' first | lift_lets -underBinder | with_reducible (first | assumption | apply State.chunkDone_mem | apply memIte | (fail_if_no_progress refine memMk rfl rfl rfl rfl ?_) | (refine memOk (by assumption) ?_)) | split

theorem State.chunkSample_mem (s : State) (n k st w flags : Nat) (sat : Bool) (hM : s.memoryWf = true) :
    (State.chunkSample s n k st w flags sat).memoryWf = true := by
  unfold State.chunkSample
  repeat' first | (intro x; clear_value x) | lift_lets -underBinder | with_reducible (first | assumption | apply State.setPipe_mem | apply State.chunkGate_mem | apply memIte)

theorem State.capSample_mem (s : State) (n k st w flags : Nat) (hM : s.memoryWf = true) :
    (State.capSample s n k st w flags).memoryWf = true := by
  unfold State.capSample
  repeat' first | (intro x; (first | refine memCut x ?_ fun _ => ?_ | refine okCut x ?_ fun _ => ?_ | refine someCut x ?_ fun _ => ?_ | refine pairCut x ?_ fun _ => ?_ | refine pairCut2 x ?_ fun _ => ?_); (on_goal 1 => subst x); (on_goal 2 => clear_value x)) | (intro x; clear_value x) | (with_reducible intro _) | lift_lets -underBinder | with_reducible (first | assumption | apply State.chunkSample_mem | apply State.free_mem | apply State.setPipe_mem | apply memIte)

theorem State.captureBlock_mem (s : State) (k : Nat) (b : PBlock) (hM : s.memoryWf = true) :
    (State.captureBlock s k b).memoryWf = true := by
  unfold State.captureBlock
  repeat' first | (intro x; refine memCut x ?_ fun _ => ?_; (on_goal 1 => subst x); (on_goal 2 => clear_value x)) | (intro x; clear_value x) | (with_reducible intro _) | lift_lets -underBinder | with_reducible (first | assumption | apply State.capSample_mem | apply memFoldl)

theorem State.recordTrigger_mem (s : State) (u tt : Nat) (hM : s.memoryWf = true) :
    (State.recordTrigger s u tt).memoryWf = true := by
  unfold State.recordTrigger
  repeat' first | (intro x; refine memCut x ?_ fun _ => ?_; (on_goal 1 => subst x); (on_goal 2 => clear_value x)) | (intro x; clear_value x) | (with_reducible intro _) | lift_lets -underBinder | with_reducible (first | assumption | apply State.setRing_mem | apply memIte | apply memFoldl)

theorem State.captureEnd_mem (s : State) (n : Nat) (hM : s.memoryWf = true) :
    (State.captureEnd s n).memoryWf = true := by
  unfold State.captureEnd
  repeat' first | (intro x; clear_value x) | (with_reducible intro _) | lift_lets -underBinder | with_reducible (first | assumption | apply State.wr_mem | apply memIte)

theorem execRecordComplete_mem (t : Nat) (n : Fin 64) (s : State) (hM : s.memoryWf = true) :
    OutMem (execRecordComplete t n s) := by
  unfold execRecordComplete
  repeat' first | (intro x; refine memCut x ?_ fun _ => ?_; (on_goal 1 => subst x); (on_goal 2 => clear_value x)) | (intro x; clear_value x) | lift_lets -underBinder | with_reducible (first | assumption | apply State.advance_mem | apply State.setPipe_mem | apply State.completeRecord_mem | apply State.captureEnd_mem | apply memIte | apply outNext | (fail_if_no_progress refine memMk rfl rfl rfl rfl ?_) | (refine memOk (by assumption) ?_)) | split

theorem rearm_mem (n : Nat) (s : State) (hM : s.memoryWf = true) :
    OkMem (rearm n s) := by
  unfold rearm
  repeat' first | (intro x; refine memCut x ?_ fun _ => ?_; (on_goal 1 => subst x); (on_goal 2 => clear_value x)) | (intro x; clear_value x) | (with_reducible intro _) | lift_lets -underBinder | with_reducible (first | assumption | apply State.setRing_mem | apply State.wr_mem | apply okIte | apply memIte | apply okOk | apply okErr)

theorem execRearm_mem (t : Nat) (n : Fin 64) (s : State) (hM : s.memoryWf = true) :
    OutMem (execRearm t n s) := by
  unfold execRearm
  repeat' first | with_reducible (first | assumption | apply State.serve_mem | apply rearm_mem | apply outNext)

theorem State.setLink_mem (s : State) (j : Nat) (x : LinkState) (hM : s.memoryWf = true) :
    (State.setLink s j x).memoryWf = true := by
  unfold State.setLink
  exact hM

theorem State.levelSource_mem (s : State) (k : Nat) (hM : s.memoryWf = true) :
    (State.levelSource s k).memoryWf = true := by
  unfold State.levelSource
  repeat' first | (intro x; clear_value x) | lift_lets -underBinder | with_reducible (first | assumption | apply State.setSource_mem | apply State.wr_mem | apply memIte)

theorem State.levelSources_mem (s : State) (j : Nat) (hM : s.memoryWf = true) :
    (State.levelSources s j).memoryWf = true := by
  unfold State.levelSources
  repeat' first | (with_reducible intro _) | with_reducible (first | assumption | apply State.levelSource_mem | apply State.refreshFabric_mem | apply memIte | apply memFoldl)

theorem State.linkRates_mem (s : State) (j : Nat) (hM : s.memoryWf = true) :
    (State.linkRates s j).memoryWf = true := by
  unfold State.linkRates
  repeat' first | (intro x; refine memCut x ?_ fun _ => ?_; (on_goal 1 => subst x); (on_goal 2 => clear_value x)) | (intro x; clear_value x) | (with_reducible intro _) | lift_lets -underBinder | with_reducible (first | assumption | apply State.wr_mem | apply memIte | apply memFoldl)

theorem linkApply_mem (j : Nat) (s : State) (hM : s.memoryWf = true) :
    OkMem (linkApply j s) := by
  unfold linkApply
  repeat' first | (intro x; refine memCut x ?_ fun _ => ?_; (on_goal 1 => subst x); (on_goal 2 => clear_value x)) | (intro x; clear_value x) | (with_reducible intro _) | lift_lets -underBinder | with_reducible (first | assumption | apply State.setLink_mem | apply State.wrs_mem | apply State.wr_mem | apply State.linkRates_mem | apply State.levelSources_mem | apply okIte | apply memIte | apply memFoldl | apply okOk | apply okErr)

theorem execLinkApply_mem (t : Nat) (j : Fin 16) (s : State) (hM : s.memoryWf = true) :
    OutMem (execLinkApply t j s) := by
  unfold execLinkApply
  repeat' first | with_reducible (first | assumption | apply State.serve_mem | apply linkApply_mem | apply outNext)

theorem linkClear_mem (j : Nat) (s : State) (hM : s.memoryWf = true) :
    OkMem (linkClear j s) := by
  unfold linkClear
  repeat' first | (intro x; clear_value x) | (with_reducible intro _) | lift_lets -underBinder | with_reducible (first | assumption | apply State.setLink_mem | apply State.wrs_mem | apply okOk)

theorem execLinkClearCounters_mem (t : Nat) (j : Fin 16) (s : State) (hM : s.memoryWf = true) :
    OutMem (execLinkClearCounters t j s) := by
  unfold execLinkClearCounters
  repeat' first | with_reducible (first | assumption | apply State.serve_mem | apply linkClear_mem | apply outNext)

theorem execLinkBlockLock_mem (t : Nat) (j : Fin 16) (s : State) (hM : s.memoryWf = true) :
    OutMem (execLinkBlockLock t j s) := by
  unfold execLinkBlockLock
  repeat' first | (intro x; refine memCut x ?_ fun _ => ?_; (on_goal 1 => subst x); (on_goal 2 => clear_value x)) | lift_lets -underBinder | with_reducible (first | assumption | apply State.advance_mem | apply State.wr_mem | apply memIte | apply outNext)

theorem execLinkMultiblockLock_mem (t : Nat) (j : Fin 16) (earliest latest : Nat) (s : State) (hM : s.memoryWf = true) :
    OutMem (execLinkMultiblockLock t j earliest latest s) := by
  unfold execLinkMultiblockLock
  repeat' first | (intro x; refine memCut x ?_ fun _ => ?_; (on_goal 1 => subst x); (on_goal 2 => clear_value x)) | (intro x; clear_value x) | lift_lets -underBinder | with_reducible (first | assumption | apply State.advance_mem | apply State.setLink_mem | apply State.wr_mem | apply State.levelSources_mem | apply memIte | apply outNext)

theorem State.levelSettle_mem (s : State) (k tb : Nat) (hM : s.memoryWf = true) :
    (State.levelSettle s k tb).memoryWf = true := by
  unfold State.levelSettle
  repeat' first | (intro x; refine memCut x ?_ fun _ => ?_; (on_goal 1 => subst x); (on_goal 2 => clear_value x)) | (intro x; clear_value x) | lift_lets -underBinder | with_reducible (first | assumption | apply State.setChan_mem | apply State.wr_mem | apply State.endSource_mem | apply State.levelSource_mem | apply State.refreshFabric_mem | apply memIte)

theorem State.chainReset_mem (s0 : State) (k : Nat) (hM : s0.memoryWf = true) :
    (State.chainReset s0 k).memoryWf = true := by
  unfold State.chainReset
  repeat' first | (intro x; refine memCut x ?_ fun _ => ?_; (on_goal 1 => subst x); (on_goal 2 => clear_value x)) | (intro x; clear_value x) | lift_lets -underBinder | with_reducible (first | assumption | apply State.levelSettle_mem | apply State.setChan_mem)

theorem execLinkRelease_mem (t : Nat) (j : Fin 16) (s : State) (hM : s.memoryWf = true) :
    OutMem (execLinkRelease t j s) := by
  unfold execLinkRelease
  repeat' first | (intro x; refine memCut x ?_ fun _ => ?_; (on_goal 1 => subst x); (on_goal 2 => clear_value x)) | (intro x; clear_value x) | (with_reducible intro _) | lift_lets -underBinder | with_reducible (first | assumption | apply State.advance_mem | apply State.setLink_mem | apply State.wrs_mem | apply State.chainReset_mem | apply State.quadsUp_mem | apply memIte | apply memFoldl | apply outNext)

theorem execLinkBringupTimeout_mem (t : Nat) (j : Fin 16) (s : State) (hM : s.memoryWf = true) :
    OutMem (execLinkBringupTimeout t j s) := by
  unfold execLinkBringupTimeout
  repeat' first | (intro x; refine memCut x ?_ fun _ => ?_; (on_goal 1 => subst x); (on_goal 2 => clear_value x)) | (intro x; clear_value x) | lift_lets -underBinder | with_reducible (first | assumption | apply State.advance_mem | apply State.wr_mem | apply State.setLink_mem | apply memIte | apply outNext)

theorem State.lockLoss_mem (s : State) (j : Nat) (hM : s.memoryWf = true) :
    (State.lockLoss s j).memoryWf = true := by
  unfold State.lockLoss
  repeat' first | (intro x; refine memCut x ?_ fun _ => ?_; (on_goal 1 => subst x); (on_goal 2 => clear_value x)) | (intro x; clear_value x) | lift_lets -underBinder | with_reducible (first | assumption | apply State.wr_mem | apply State.setLink_mem | apply State.calLinkLost_mem | apply State.bump_mem | apply memIte)

theorem execMultiblockReceive_mem (t : Nat) (j : Fin 16) (crcOk : Bool) (latest : Nat) (s : State) (hM : s.memoryWf = true) :
    OutMem (execMultiblockReceive t j crcOk latest s) := by
  unfold execMultiblockReceive
  repeat' first | (intro x; refine memCut x ?_ fun _ => ?_; (on_goal 1 => subst x); (on_goal 2 => clear_value x)) | (intro x; clear_value x) | lift_lets -underBinder | with_reducible (first | assumption | apply State.advance_mem | apply State.setLink_mem | apply State.bump_mem | apply State.wr_mem | apply State.lockLoss_mem | apply memIte | apply outNext)

theorem execLinkLockLoss_mem (t : Nat) (j : Fin 16) (s : State) (hM : s.memoryWf = true) :
    OutMem (execLinkLockLoss t j s) := by
  unfold execLinkLockLoss
  repeat' first | with_reducible (first | assumption | apply State.advance_mem | apply State.lockLoss_mem | apply outNext)

theorem execLinkRelinkComplete_mem (t : Nat) (j : Fin 16) (earliest latest : Nat) (s : State) (hM : s.memoryWf = true) :
    OutMem (execLinkRelinkComplete t j earliest latest s) := by
  unfold execLinkRelinkComplete
  repeat' first | (intro x; refine memCut x ?_ fun _ => ?_; (on_goal 1 => subst x); (on_goal 2 => clear_value x)) | (intro x; clear_value x) | (with_reducible intro _) | lift_lets -underBinder | with_reducible (first | assumption | apply State.advance_mem | apply State.wr_mem | apply State.setLink_mem | apply State.wrs_mem | apply State.setChan_mem | apply State.quadsUp_mem | apply memIte | apply memFoldl | apply outNext)

theorem State.levelDecide_mem (s : State) (k : Nat) (c : ChanState) (ms pk flags tl : Nat) (hM : s.memoryWf = true) :
    (State.levelDecide s k c ms pk flags tl).memoryWf = true := by
  unfold State.levelDecide
  repeat' first | (intro x; clear_value x) | lift_lets -underBinder | with_reducible (first | assumption | apply State.lineChange_mem | apply memIte)

theorem State.levelEnd_mem (s : State) (k : Nat) (hM : s.memoryWf = true) :
    (State.levelEnd s k).memoryWf = true := by
  unfold State.levelEnd
  repeat' first | (intro x; refine memCut x ?_ fun _ => ?_; (on_goal 1 => subst x); (on_goal 2 => clear_value x)) | (intro x; clear_value x) | lift_lets -underBinder | with_reducible (first | assumption | apply State.wrs_mem | apply State.levelDecide_mem | apply State.setChan_mem | apply State.levelSettle_mem | apply memIte)

theorem State.levelDue_mem (s : State) (k : Nat) (hM : s.memoryWf = true) :
    (State.levelDue s k).memoryWf = true := by
  unfold State.levelDue
  repeat' first | with_reducible (first | assumption | apply State.levelEnd_mem | apply memIte)

theorem execLevelIntervalEnd_mem (t : Nat) (ch : Fin 64) (s : State) (hM : s.memoryWf = true) :
    OutMem (execLevelIntervalEnd t ch s) := by
  unfold execLevelIntervalEnd
  repeat' first | (intro x; refine memCut x ?_ fun _ => ?_; (on_goal 1 => subst x); (on_goal 2 => clear_value x)) | lift_lets -underBinder | with_reducible (first | assumption | apply State.advance_mem | apply State.levelDue_mem | apply outNext)

theorem State.levelSample_mem (s : State) (k w st : Nat) (subst ovr clip : Bool) (hM : s.memoryWf = true) :
    (State.levelSample s k w st subst ovr clip).memoryWf = true := by
  unfold State.levelSample
  repeat' first | (intro x; refine memCut x ?_ fun _ => ?_; (on_goal 1 => subst x); (on_goal 2 => clear_value x)) | (intro x; clear_value x) | lift_lets -underBinder | with_reducible (first | assumption | apply State.levelDue_mem | apply State.setChan_mem | apply State.levelSettle_mem | apply memIte | (fail_if_no_progress refine memMk rfl rfl rfl rfl ?_) | (refine memOk (by assumption) ?_)) | split

theorem State.polderSample_mem (s : State) (k w st : Nat) (hot : Bool) (flags : Nat) (hM : s.memoryWf = true) :
    (State.polderSample s k w st hot flags).memoryWf = true := by
  unfold State.polderSample
  repeat' first | (intro x; clear_value x) | lift_lets -underBinder | with_reducible (first | assumption | apply State.setChan_mem | apply memIte)

theorem State.countSample_mem (s : State) (k j : Nat) (clip ov subst crc : Bool) (hM : s.memoryWf = true) :
    (State.countSample s k j clip ov subst crc).memoryWf = true := by
  unfold State.countSample
  repeat' first | (intro x; refine memCut x ?_ fun _ => ?_; (on_goal 1 => subst x); (on_goal 2 => clear_value x)) | (intro x; clear_value x) | lift_lets -underBinder | with_reducible (first | assumption | apply State.wr_mem | apply State.bumpBy_mem | apply memIte)

theorem execIngestSample_mem (t : Nat) (ch : Fin 64) (em i wordI wordQ : Nat) (s : State) (hM : s.memoryWf = true) :
    OutMem (execIngestSample t ch em i wordI wordQ s) := by
  unfold execIngestSample
  repeat' first | (intro x; refine memCut x ?_ fun _ => ?_; (on_goal 1 => subst x); (on_goal 2 => clear_value x)) | (intro x; clear_value x) | lift_lets -underBinder | with_reducible (first | assumption | apply State.advance_mem | apply State.countSample_mem | apply State.calSample_mem | apply State.levelSample_mem | apply State.polderSample_mem | apply memIte | apply outNext)

theorem dumpRestart_mem (k T : Nat) (s : State) (hM : s.memoryWf = true) :
    OkMem (dumpRestart k T s) := by
  unfold dumpRestart
  repeat' first | (intro x; clear_value x) | (with_reducible intro _) | lift_lets -underBinder | with_reducible (first | assumption | apply State.setChan_mem | apply State.wr_mem | apply okOk)

theorem execDumpRestart_mem (t : Nat) (ch : Fin 64) (time : Nat) (s : State) (hM : s.memoryWf = true) :
    OutMem (execDumpRestart t ch time s) := by
  unfold execDumpRestart
  repeat' first | with_reducible (first | assumption | apply State.serve_mem | apply dumpRestart_mem | apply outNext)

theorem levelSnapshot_mem  (s : State) (hM : s.memoryWf = true) :
    OkMem (levelSnapshot s) := by
  unfold levelSnapshot
  repeat' first | (with_reducible intro _) | with_reducible (first | assumption | apply State.noted_mem | apply State.wr_mem | apply State.setDom_mem | apply okOk)

theorem execLevelSnapshot_mem (t : Nat) (s : State) (hM : s.memoryWf = true) :
    OutMem (execLevelSnapshot t s) := by
  unfold execLevelSnapshot
  repeat' first | with_reducible (first | assumption | apply State.serve_mem | apply levelSnapshot_mem | apply outNext)

theorem clearSticky_mem (mask : Nat) (s : State) (hM : s.memoryWf = true) :
    OkMem (clearSticky mask s) := by
  unfold clearSticky
  repeat' first | (with_reducible intro _) | with_reducible (first | assumption | apply State.wr_mem | apply okIte | apply memIte | apply memFoldl | apply okOk | apply okErr)

theorem execClearSticky_mem (t mask : Nat) (s : State) (hM : s.memoryWf = true) :
    OutMem (execClearSticky t mask s) := by
  unfold execClearSticky
  repeat' first | with_reducible (first | assumption | apply State.serve_mem | apply clearSticky_mem | apply outNext)

theorem State.unname_mem (s : State) (k v : Nat) (hM : s.memoryWf = true) :
    (State.unname s k v).memoryWf = true := by
  unfold State.unname
  repeat' first | (intro x; clear_value x) | lift_lets -underBinder | with_reducible (first | assumption | apply State.endSource_mem | apply memIte)

theorem State.levelApplied_mem (s : State) (k : Nat) (hM : s.memoryWf = true) :
    (State.levelApplied s k).memoryWf = true := by
  unfold State.levelApplied
  repeat' first | with_reducible (first | assumption | apply State.levelSettle_mem | apply memIte)

theorem levelConditionWrite_mem (k sub v : Nat) (s : State) (hM : s.memoryWf = true) :
    OkMem (levelConditionWrite k sub v s) := by
  unfold levelConditionWrite
  repeat' first | (intro x; refine memCut x ?_ fun _ => ?_; (on_goal 1 => subst x); (on_goal 2 => clear_value x)) | (intro x; clear_value x) | (with_reducible intro _) | lift_lets -underBinder | with_reducible (first | assumption | apply State.levelDue_mem | apply State.unname_mem | apply State.wr_mem | apply State.levelSource_mem | apply State.refreshFabric_mem | apply State.levelApplied_mem | apply State.wrs_mem | apply okIte | apply memIte | apply okOk | apply okErr)

theorem execLevelConditionWrite_mem (t : Nat) (ch : Fin 64) (sub value : Nat) (s : State) (hM : s.memoryWf = true) :
    OutMem (execLevelConditionWrite t ch sub value s) := by
  unfold execLevelConditionWrite
  repeat' first | with_reducible (first | assumption | apply State.serve_mem | apply levelConditionWrite_mem | apply outNext)

theorem State.drainTo_mem (s : State) (k slot stage pos : Nat) (hM : s.memoryWf = true) :
    (State.drainTo s k slot stage pos).memoryWf = true := by
  unfold State.drainTo
  repeat' first | (intro x; clear_value x) | (with_reducible intro _) | lift_lets -underBinder | with_reducible (first | assumption | apply State.setChan_mem)

theorem State.drainRecord_mem (s : State) (k : Nat) (hM : s.memoryWf = true) :
    (State.drainRecord s k).memoryWf = true := by
  unfold State.drainRecord
  repeat' first | (intro x; clear_value x) | (with_reducible intro _) | lift_lets -underBinder | with_reducible (first | assumption | apply State.setChan_mem)

theorem State.detachDrain_mem (s : State) (k : Nat) (x : Consumer) (hM : s.memoryWf = true) :
    (State.detachDrain s k x).memoryWf = true := by
  unfold State.detachDrain
  repeat' first | (intro x; refine memCut x ?_ fun _ => ?_; (on_goal 1 => subst x); (on_goal 2 => clear_value x)) | (intro x; clear_value x) | (with_reducible intro _) | lift_lets -underBinder | with_reducible (first | assumption | apply State.setChan_mem | apply State.freeze_mem | apply State.clusterFault_mem | apply memIte | apply memFoldl | (fail_if_no_progress refine memMk rfl rfl rfl rfl ?_) | (refine memOk (by assumption) ?_)) | split

theorem State.lateDrains_mem (s : State) (k : Nat) (c : ChanState) (hM : s.memoryWf = true) :
    (State.lateDrains s k c).memoryWf = true := by
  unfold State.lateDrains
  repeat' first | (with_reducible intro _) | with_reducible (first | assumption | apply State.detachDrain_mem | apply memFoldl)

theorem execPolderBlockWrite_mem (t : Nat) (ch : Fin 64) (err : Fin 3) (s : State) (hM : s.memoryWf = true) :
    OutMem (execPolderBlockWrite t ch err s) := by
  unfold execPolderBlockWrite
  repeat' first | (intro x; refine memCut x ?_ fun _ => ?_; (on_goal 1 => subst x); (on_goal 2 => clear_value x)) | (intro x; clear_value x) | lift_lets -underBinder | with_reducible (first | assumption | apply State.advance_mem | apply State.setChan_mem | apply State.countCorrected_mem | apply State.countUncorrected_mem | apply State.faultLog_mem | apply State.lateDrains_mem | apply State.captureBlock_mem | apply State.drainRecord_mem | apply memIte | apply outNext | (fail_if_no_progress refine memMk rfl rfl rfl rfl ?_) | (refine memOk (by assumption) ?_)) | split

theorem State.flitChange_mem (s : State) (n k tag e o : Nat) (disagree : Bool) (hM : s.memoryWf = true) :
    (State.flitChange s n k tag e o disagree).memoryWf = true := by
  unfold State.flitChange
  repeat' first | (intro x; clear_value x) | lift_lets -underBinder | with_reducible (first | assumption | apply State.bump_mem | apply State.disagree_mem | apply State.lineDisagree_mem | apply State.lineChange_mem | apply memIte)

theorem State.flitChanges_mem (n k tag mask : Nat) (l : List Nat) : ∀ (s : State) (i : Nat), s.memoryWf = true → (s.flitChanges n k tag mask i l).memoryWf = true := by
  induction l using List.twoStepInduction with
  | nil => intro s i h; exact h
  | singleton x => intro s i h; exact h
  | cons_cons e o l ih _ => exact fun s i h => ih _ _ (State.flitChange_mem _ _ _ _ _ _ _ h)

theorem execConditionFlitReceive_mem (t : Nat) (n : Fin 64) (ch : Fin 64) (tag : Nat) (words : List Nat) (disagree : Nat) (s : State) (hM : s.memoryWf = true) :
    OutMem (execConditionFlitReceive t n ch tag words disagree s) := by
  unfold execConditionFlitReceive
  repeat' first | (intro x; refine memCut x ?_ fun _ => ?_; (on_goal 1 => subst x); (on_goal 2 => clear_value x)) | (intro x; clear_value x) | lift_lets -underBinder | with_reducible (first | assumption | apply State.advance_mem | apply State.flitChanges_mem | apply State.disagree_mem | apply memIte | apply outNext)

theorem State.setPat_mem (s : State) (u : Nat) (x : PatState) (hM : s.memoryWf = true) :
    (State.setPat s u x).memoryWf = true := by
  unfold State.setPat
  exact hM

theorem State.pulse_mem (s : State) (k tt : Nat) (hM : s.memoryWf = true) :
    (State.pulse s k tt).memoryWf = true := by
  unfold State.pulse
  repeat' first | (intro x; clear_value x) | lift_lets -underBinder | with_reducible (first | assumption | apply memIte | (fail_if_no_progress refine memMk rfl rfl rfl rfl ?_))

theorem State.logTrigger_mem (s : State) (u tt fl : Nat) (hM : s.memoryWf = true) :
    (State.logTrigger s u tt fl).memoryWf = true := by
  unfold State.logTrigger
  repeat' first | (intro x; clear_value x) | lift_lets -underBinder | with_reducible (first | assumption | apply State.bump_mem | apply memIte | (fail_if_no_progress refine memMk rfl rfl rfl rfl ?_))

theorem State.patTrigger_mem (s : State) (u tt : Nat) (hM : s.memoryWf = true) :
    (State.patTrigger s u tt).memoryWf = true := by
  unfold State.patTrigger
  repeat' first | (intro x; refine memCut x ?_ fun _ => ?_; (on_goal 1 => subst x); (on_goal 2 => clear_value x)) | (intro x; clear_value x) | (with_reducible intro _) | lift_lets -underBinder | with_reducible (first | assumption | apply State.wrs_mem | apply State.pulse_mem | apply State.logTrigger_mem | apply State.recordTrigger_mem | apply memIte | apply memFoldl | (fail_if_no_progress refine memMk rfl rfl rfl rfl ?_))

theorem State.patBefore_mem (s : State) (u t : Nat) (hM : s.memoryWf = true) :
    (State.patBefore s u t).memoryWf = true := by
  unfold State.patBefore
  repeat' first | (intro x; clear_value x) | lift_lets -underBinder | with_reducible (first | assumption | apply State.setPat_mem | apply State.patTrigger_mem | apply memIte | (fail_if_no_progress refine memMk rfl rfl rfl rfl ?_) | (refine memOk (by assumption) ?_)) | split

theorem State.patAt_mem (s0 : State) (u t : Nat) (hM : s0.memoryWf = true) :
    (State.patAt s0 u t).memoryWf = true := by
  unfold State.patAt
  repeat' first | (intro x; refine memCut x ?_ fun _ => ?_; (on_goal 1 => subst x); (on_goal 2 => clear_value x)) | (intro x; clear_value x) | lift_lets -underBinder | with_reducible (first | assumption | apply State.patBefore_mem | apply State.setPat_mem | apply State.patTrigger_mem | apply memIte)

theorem State.restartUnits_mem (s : State) (us : List Nat) (T : Nat) (hM : s.memoryWf = true) :
    (State.restartUnits s us T).memoryWf = true := by
  unfold State.restartUnits
  repeat' first | (intro x; clear_value x) | (with_reducible intro _) | lift_lets -underBinder | with_reducible (first | assumption | apply State.setPat_mem | apply memFoldl)

theorem State.restartAtSwitch_mem (s : State) (n m T : Nat) (hM : s.memoryWf = true) :
    (State.restartAtSwitch s n m T).memoryWf = true := by
  unfold State.restartAtSwitch
  repeat' first | (intro x; clear_value x) | (with_reducible intro _) | lift_lets -underBinder | with_reducible (first | assumption | apply State.setPat_mem | apply memFoldl)

theorem execPatternUnitEvaluate_mem (t : Nat) (u : Fin 16) (s : State) (hM : s.memoryWf = true) :
    OutMem (execPatternUnitEvaluate t u s) := by
  unfold execPatternUnitEvaluate
  repeat' first | (intro x; refine memCut x ?_ fun _ => ?_; (on_goal 1 => subst x); (on_goal 2 => clear_value x)) | (intro x; clear_value x) | (with_reducible intro _) | lift_lets -underBinder | with_reducible (first | assumption | apply State.advance_mem | apply State.patAt_mem | apply State.wr_mem | apply memIte | apply memFoldl | apply outNext)

theorem State.patApply_mem (s : State) (u key v : Nat) (d : Option Bytes) (hM : s.memoryWf = true) :
    (State.patApply s u key v d).memoryWf = true := by
  unfold State.patApply
  repeat' first | (intro x; refine memCut x ?_ fun _ => ?_; (on_goal 1 => subst x); (on_goal 2 => clear_value x)) | (intro x; clear_value x) | lift_lets -underBinder | with_reducible (first | assumption | apply State.setDom_mem | apply State.wr_mem | apply State.refreshFabric_mem | apply State.setPat_mem | apply memIte | (fail_if_no_progress refine memMk rfl rfl rfl rfl ?_) | (refine memOk (by assumption) ?_)) | split

theorem State.patStage_mem (s : State) (own key v : Nat) (d : Option Bytes) (hM : s.memoryWf = true) :
    (State.patStage s own key v d).memoryWf = true := by
  unfold State.patStage
  repeat' first | lift_lets -underBinder | with_reducible (first | assumption | apply State.stageDom_mem | apply State.stageNum_mem | (fail_if_no_progress refine memMk rfl rfl rfl rfl ?_) | (refine memOk (by assumption) ?_)) | split

theorem patternUnitWrite_mem (u sub v : Nat) (d : Option Bytes) (s : State) (hM : s.memoryWf = true) :
    OkMem (patternUnitWrite u sub v d s) := by
  unfold patternUnitWrite
  repeat' first | (intro x; refine memCut x ?_ fun _ => ?_; (on_goal 1 => subst x); (on_goal 2 => clear_value x)) | (intro x; clear_value x) | (with_reducible intro _) | lift_lets -underBinder | with_reducible (first | assumption | apply State.patStage_mem | apply State.patApply_mem | apply okIte | apply memIte | apply okOk | apply okErr | (fail_if_no_progress refine memMk rfl rfl rfl rfl ?_) | (refine memOk (by assumption) ?_)) | split

theorem execPatternUnitWrite_mem (t : Nat) (u : Fin 16) (sub value : Nat) (data : Option (List (BitVec 8))) (s : State) (hM : s.memoryWf = true) :
    OutMem (execPatternUnitWrite t u sub value data s) := by
  unfold execPatternUnitWrite
  repeat' first | with_reducible (first | assumption | apply State.serve_mem | apply patternUnitWrite_mem | apply outNext)

theorem clearLineFault_mem (b : Bytes) (s : State) (hM : s.memoryWf = true) :
    OkMem (clearLineFault b s) := by
  unfold clearLineFault
  repeat' first | (intro x; clear_value x) | (with_reducible intro _) | lift_lets -underBinder | with_reducible (first | assumption | apply State.setLine_mem | apply okIte | apply memIte | apply memFoldl | apply okOk | apply okErr)

theorem execClearLineFault_mem (t : Nat) (data : List (BitVec 8)) (s : State) (hM : s.memoryWf = true) :
    OutMem (execClearLineFault t data s) := by
  unfold execClearLineFault
  repeat' first | with_reducible (first | assumption | apply State.serve_mem | apply clearLineFault_mem | apply outNext)

theorem clearLog_mem  (s : State) (hM : s.memoryWf = true) :
    OkMem (clearLog s) := by
  unfold clearLog
  repeat' first | (with_reducible intro _) | lift_lets -underBinder | with_reducible (first | assumption | apply okOk | apply okErr | (fail_if_no_progress refine memMk rfl rfl rfl rfl ?_))

theorem execClearLog_mem (t : Nat) (s : State) (hM : s.memoryWf = true) :
    OutMem (execClearLog t s) := by
  unfold execClearLog
  repeat' first | with_reducible (first | assumption | apply State.serve_mem | apply clearLog_mem | apply outNext)

theorem State.setTrig_mem (s : State) (k : Nat) (x : TrigOutState) (hM : s.memoryWf = true) :
    (State.setTrig s k x).memoryWf = true := by
  unfold State.setTrig
  exact hM

theorem trigOutConfig_mem (k v : Nat) (s : State) (hM : s.memoryWf = true) :
    OkMem (trigOutConfig k v s) := by
  unfold trigOutConfig
  repeat' first | (intro x; refine memCut x ?_ fun _ => ?_; (on_goal 1 => subst x); (on_goal 2 => clear_value x)) | (intro x; clear_value x) | (with_reducible intro _) | lift_lets -underBinder | with_reducible (first | assumption | apply State.wr_mem | apply State.setTrig_mem | apply okIte | apply memIte | apply okOk | apply okErr)

theorem execTrigOutConfigWrite_mem (t : Nat) (k : Fin 8) (value : Nat) (s : State) (hM : s.memoryWf = true) :
    OutMem (execTrigOutConfigWrite t k value s) := by
  unfold execTrigOutConfigWrite
  repeat' first | with_reducible (first | assumption | apply State.serve_mem | apply trigOutConfig_mem | apply outNext)

theorem execTrigOutEdge_mem (t : Nat) (k : Fin 8) (s : State) (hM : s.memoryWf = true) :
    OutMem (execTrigOutEdge t k s) := by
  unfold execTrigOutEdge
  repeat' first | (intro x; refine memCut x ?_ fun _ => ?_; (on_goal 1 => subst x); (on_goal 2 => clear_value x)) | (intro x; clear_value x) | lift_lets -underBinder | with_reducible (first | assumption | apply State.advance_mem | apply State.setTrig_mem | apply State.emit_mem | apply memIte | apply outNext | (fail_if_no_progress refine memMk rfl rfl rfl rfl ?_) | (refine memOk (by assumption) ?_)) | split

theorem execTrigOutPulseEnd_mem (t : Nat) (k : Fin 8) (s : State) (hM : s.memoryWf = true) :
    OutMem (execTrigOutPulseEnd t k s) := by
  unfold execTrigOutPulseEnd
  repeat' first | (intro x; refine memCut x ?_ fun _ => ?_; (on_goal 1 => subst x); (on_goal 2 => clear_value x)) | (intro x; clear_value x) | lift_lets -underBinder | with_reducible (first | assumption | apply State.advance_mem | apply State.setTrig_mem | apply State.emit_mem | apply memIte | apply outNext | (fail_if_no_progress refine memMk rfl rfl rfl rfl ?_) | (refine memOk (by assumption) ?_)) | split

theorem State.setLane_mem (s : State) (i : Nat) (x : LaneStream) (hM : s.memoryWf = true) :
    (State.setLane s i x).memoryWf = true := by
  unfold State.setLane
  exact hM

theorem State.sendPrimitive_mem (s : State) (i w time : Nat) (hM : s.memoryWf = true) :
    (State.sendPrimitive s i w time).memoryWf = true := by
  unfold State.sendPrimitive
  repeat' first | with_reducible (first | assumption | apply State.emit_mem)

theorem State.laneQuiet_mem (s : State) (i : Nat) (hM : s.memoryWf = true) :
    (State.laneQuiet s i).memoryWf = true := by
  unfold State.laneQuiet
  repeat' first | with_reducible (first | assumption | apply State.emit_mem)

theorem execPrimitiveTick_mem (t : Nat) (lane : Fin 2) (s : State) (hM : s.memoryWf = true) :
    OutMem (execPrimitiveTick t lane s) := by
  unfold execPrimitiveTick
  repeat' first | (intro x; refine memCut x ?_ fun _ => ?_; (on_goal 1 => subst x); (on_goal 2 => clear_value x)) | (intro x; clear_value x) | (with_reducible intro _) | lift_lets -underBinder | with_reducible (first | assumption | apply State.advance_mem | apply State.setQuad_mem | apply State.setLane_mem | apply State.sendPrimitive_mem | apply State.bump_mem | apply State.laneQuiet_mem | apply memIte | apply outNext | (fail_if_no_progress refine memMk rfl rfl rfl rfl ?_) | (refine memOk (by assumption) ?_)) | split

theorem State.laneStart_mem (s : State) (i : Nat) (hM : s.memoryWf = true) :
    (State.laneStart s i).memoryWf = true := by
  unfold State.laneStart
  repeat' first | (intro x; clear_value x) | lift_lets -underBinder | with_reducible (first | assumption | apply State.setLane_mem)

theorem State.laneSwitch_mem (s : State) (old v i : Nat) (hM : s.memoryWf = true) :
    (State.laneSwitch s old v i).memoryWf = true := by
  unfold State.laneSwitch
  repeat' first | lift_lets -underBinder | with_reducible (first | assumption | apply State.laneStart_mem | apply State.setLane_mem | apply memIte)

theorem primitiveEnable_mem (v : Nat) (s : State) (hM : s.memoryWf = true) :
    OkMem (primitiveEnable v s) := by
  unfold primitiveEnable
  repeat' first | (intro x; refine memCut x ?_ fun _ => ?_; (on_goal 1 => subst x); (on_goal 2 => clear_value x)) | (intro x; clear_value x) | (with_reducible intro _) | lift_lets -underBinder | with_reducible (first | assumption | apply State.wr_mem | apply State.refreshFabric_mem | apply State.laneSwitch_mem | apply okIte | apply memIte | apply okOk | apply okErr)

theorem execPrimitiveStreamEnable_mem (t mask : Nat) (s : State) (hM : s.memoryWf = true) :
    OutMem (execPrimitiveStreamEnable t mask s) := by
  unfold execPrimitiveStreamEnable
  repeat' first | with_reducible (first | assumption | apply State.serve_mem | apply primitiveEnable_mem | apply outNext)

theorem State.retime_mem (s : State) (hM : s.memoryWf = true) :
    (State.retime s).memoryWf = true := by
  unfold State.retime
  repeat' first | (with_reducible intro _) | with_reducible (first | assumption | apply State.setLine_mem | apply memFoldl)

theorem State.importSources_mem (s : State) (hM : s.memoryWf = true) :
    (State.importSources s).memoryWf = true := by
  unfold State.importSources
  repeat' first | (with_reducible intro _) | lift_lets -underBinder | with_reducible (first | assumption | apply State.setSource_mem | apply memFoldl | (fail_if_no_progress refine memMk rfl rfl rfl rfl ?_) | (refine memOk (by assumption) ?_)) | split

theorem State.importsSet_mem (s : State) (b : Bytes) (hM : s.memoryWf = true) :
    (State.importsSet s b).memoryWf = true := by
  unfold State.importsSet
  repeat' first | (intro x; refine memCut x ?_ fun _ => ?_; (on_goal 1 => subst x); (on_goal 2 => clear_value x)) | (intro x; clear_value x) | (with_reducible intro _) | lift_lets -underBinder | with_reducible (first | assumption | apply State.endSource_mem | apply State.setDom_mem | apply State.importSources_mem | apply State.retime_mem | apply State.refreshFabric_mem | apply memFoldl)

theorem importsWrite_mem (b : Bytes) (s : State) (hM : s.memoryWf = true) :
    OkMem (importsWrite b s) := by
  unfold importsWrite
  repeat' first | (intro x; refine memCut x ?_ fun _ => ?_; (on_goal 1 => subst x); (on_goal 2 => clear_value x)) | (intro x; clear_value x) | (with_reducible intro _) | lift_lets -underBinder | with_reducible (first | assumption | apply State.importsSet_mem | apply okIte | apply memIte | apply okOk | apply okErr)

theorem execImportsWrite_mem (t : Nat) (data : List (BitVec 8)) (s : State) (hM : s.memoryWf = true) :
    OutMem (execImportsWrite t data s) := by
  unfold execImportsWrite
  repeat' first | with_reducible (first | assumption | apply State.serve_mem | apply importsWrite_mem | apply outNext)

theorem State.judge_mem (s : State) (exchange : Bool) (o : Nat) (hM : s.memoryWf = true) :
    (State.judge s exchange o).memoryWf = true := by
  unfold State.judge
  repeat' first | (intro x; clear_value x) | lift_lets -underBinder | with_reducible (first | assumption | apply State.exchange_mem | apply State.setPos_mem | apply memIte)

theorem State.refreshArray_mem (s : State) (hM : s.memoryWf = true) :
    (State.refreshArray s).memoryWf = true := by
  unfold State.refreshArray
  repeat' first | (intro x; refine memCut x ?_ fun _ => ?_; (on_goal 1 => subst x); (on_goal 2 => clear_value x)) | (intro x; clear_value x) | (with_reducible intro _) | lift_lets -underBinder | with_reducible (first | assumption | apply State.setPos_mem | apply State.wrs_mem | apply State.setDom_mem | apply State.wr_mem | apply State.importSources_mem | apply State.retime_mem | apply State.refreshFabric_mem | apply memIte | apply memFoldl)

theorem State.judgeAll_mem (s : State) (exchange : Bool) (hM : s.memoryWf = true) :
    (State.judgeAll s exchange).memoryWf = true := by
  unfold State.judgeAll
  repeat' first | (with_reducible intro _) | with_reducible (first | assumption | apply State.judge_mem | apply State.exchange_mem | apply State.refreshArray_mem | apply memFoldl)

theorem State.sendRecord_mem (s : State) (k : Nat) (hM : s.memoryWf = true) :
    (State.sendRecord s k).memoryWf = true := by
  unfold State.sendRecord
  repeat' first | (intro x; clear_value x) | lift_lets -underBinder | with_reducible (first | assumption | apply State.emit_mem)

theorem State.topologyFollow_mem (s : State) (hM : s.memoryWf = true) :
    (State.topologyFollow s).memoryWf = true := by
  unfold State.topologyFollow
  repeat' first | (with_reducible intro _) | with_reducible (first | assumption | apply State.assumeIs_mem)

theorem State.leaveActive_mem (s : State) (k st : Nat) (hM : s.memoryWf = true) :
    (State.leaveActive s k st).memoryWf = true := by
  unfold State.leaveActive
  repeat' first | (intro x; refine memCut x ?_ fun _ => ?_; (on_goal 1 => subst x); (on_goal 2 => clear_value x)) | (intro x; clear_value x) | lift_lets -underBinder | with_reducible (first | assumption | apply State.wr_mem | apply State.setPort_mem | apply State.quadFault_mem | apply State.refreshArray_mem | apply State.topologyFollow_mem | apply memIte)

theorem State.retrainPort_mem (s : State) (k : Nat) (hM : s.memoryWf = true) :
    (State.retrainPort s k).memoryWf = true := by
  unfold State.retrainPort
  repeat' first | with_reducible (first | assumption | apply State.leaveActive_mem | apply State.bump_mem)

theorem State.calibNext_mem (s : State) (k : Nat) (hM : s.memoryWf = true) :
    (State.calibNext s k).memoryWf = true := by
  unfold State.calibNext
  repeat' first | (intro x; refine memCut x ?_ fun _ => ?_; (on_goal 1 => subst x); (on_goal 2 => clear_value x)) | (intro x; clear_value x) | lift_lets -underBinder | with_reducible (first | assumption | apply State.retrainPort_mem | apply memIte | (fail_if_no_progress refine memMk rfl rfl rfl rfl ?_) | (refine memOk (by assumption) ?_)) | split

theorem State.learn_mem (s : State) (k : Nat) (r : Bytes) (hM : s.memoryWf = true) :
    (State.learn s k r).memoryWf = true := by
  unfold State.learn
  repeat' first | (intro x; refine memCut x ?_ fun _ => ?_; (on_goal 1 => subst x); (on_goal 2 => clear_value x)) | (intro x; clear_value x) | lift_lets -underBinder | with_reducible (first | assumption | apply State.setPos_mem | apply memIte | (fail_if_no_progress refine memMk rfl rfl rfl rfl ?_) | (refine memOk (by assumption) ?_)) | split

theorem State.tryForm_mem (s : State) (hM : s.memoryWf = true) :
    (State.tryForm s).memoryWf = true := by
  unfold State.tryForm
  repeat' first | (intro x; refine memCut x ?_ fun _ => ?_; (on_goal 1 => subst x); (on_goal 2 => clear_value x)) | (intro x; clear_value x) | (with_reducible intro _) | lift_lets -underBinder | with_reducible (first | assumption | apply State.step430_mem | apply State.wrs_mem | apply State.setPort_mem | apply State.judgeAll_mem | apply State.wr_mem | apply memIte | (fail_if_no_progress refine memMk rfl rfl rfl rfl ?_) | (refine memOk (by assumption) ?_)) | split

theorem State.joinFail_mem (s : State) (k : Nat) (hM : s.memoryWf = true) :
    (State.joinFail s k).memoryWf = true := by
  unfold State.joinFail
  repeat' first | (intro x; clear_value x) | lift_lets -underBinder | with_reducible (first | assumption | apply State.leaveActive_mem | apply State.setPort_mem)

theorem execJoinDetect_mem (t : Nat) (port : Fin 4) (s : State) (hM : s.memoryWf = true) :
    OutMem (execJoinDetect t port s) := by
  unfold execJoinDetect
  repeat' first | (intro x; refine memCut x ?_ fun _ => ?_; (on_goal 1 => subst x); (on_goal 2 => clear_value x)) | lift_lets -underBinder | with_reducible (first | assumption | apply State.advance_mem | apply State.wr_mem | apply memIte | apply outNext)

theorem execJoinTrainingDone_mem (t : Nat) (port : Fin 4) (foms : List Nat) (s : State) (hM : s.memoryWf = true) :
    OutMem (execJoinTrainingDone t port foms s) := by
  unfold execJoinTrainingDone
  repeat' first | (intro x; refine memCut x ?_ fun _ => ?_; (on_goal 1 => subst x); (on_goal 2 => clear_value x)) | (intro x; clear_value x) | (with_reducible intro _) | lift_lets -underBinder | with_reducible (first | assumption | apply State.advance_mem | apply State.setDom_mem | apply State.wr_mem | apply memIte | apply outNext)

theorem execJoinLock_mem (t : Nat) (port : Fin 4) (s : State) (hM : s.memoryWf = true) :
    OutMem (execJoinLock t port s) := by
  unfold execJoinLock
  repeat' first | (intro x; refine memCut x ?_ fun _ => ?_; (on_goal 1 => subst x); (on_goal 2 => clear_value x)) | lift_lets -underBinder | with_reducible (first | assumption | apply State.advance_mem | apply State.wr_mem | apply State.sendRecord_mem | apply memIte | apply outNext)

theorem State.exchange_mem (s : State) (k : Nat) (copies : List Bytes) (hM : s.memoryWf = true) :
    (State.exchange s k copies).memoryWf = true := by
  unfold State.exchange
  repeat' first | (intro x; refine memCut x ?_ fun _ => ?_; (on_goal 1 => subst x); (on_goal 2 => clear_value x)) | (intro x; clear_value x) | (with_reducible intro _) | lift_lets -underBinder | with_reducible (first | assumption | apply State.setDom_mem | apply State.learn_mem | apply State.wr_mem | apply State.setPort_mem | apply State.calibNext_mem | apply State.refreshArray_mem | apply State.tryForm_mem | apply State.quadsUp_mem | apply State.topologyFollow_mem | apply State.leaveActive_mem | apply memIte | (fail_if_no_progress refine memMk rfl rfl rfl rfl ?_) | (refine memOk (by assumption) ?_)) | split

theorem execJoinExchange_mem (t : Nat) (port : Fin 4) (copies : List (List (BitVec 8))) (s : State) (hM : s.memoryWf = true) :
    OutMem (execJoinExchange t port copies s) := by
  unfold execJoinExchange
  repeat' first | (intro x; refine memCut x ?_ fun _ => ?_; (on_goal 1 => subst x); (on_goal 2 => clear_value x)) | (intro x; clear_value x) | lift_lets -underBinder | with_reducible (first | assumption | apply State.advance_mem | apply State.exchange_mem | apply memIte | apply outNext)

theorem execJoinHeldReexchange_mem (t : Nat) (port : Fin 4) (copies : List (List (BitVec 8))) (s : State) (hM : s.memoryWf = true) :
    OutMem (execJoinHeldReexchange t port copies s) := by
  unfold execJoinHeldReexchange
  repeat' first | (intro x; refine memCut x ?_ fun _ => ?_; (on_goal 1 => subst x); (on_goal 2 => clear_value x)) | lift_lets -underBinder | with_reducible (first | assumption | apply State.advance_mem | apply State.sendRecord_mem | apply State.exchange_mem | apply memIte | apply outNext)

theorem execJoinStageTimeout_mem (t : Nat) (port : Fin 4) (s : State) (hM : s.memoryWf = true) :
    OutMem (execJoinStageTimeout t port s) := by
  unfold execJoinStageTimeout
  repeat' first | (intro x; refine memCut x ?_ fun _ => ?_; (on_goal 1 => subst x); (on_goal 2 => clear_value x)) | (intro x; clear_value x) | lift_lets -underBinder | with_reducible (first | assumption | apply State.advance_mem | apply State.joinFail_mem | apply memIte | apply outNext)

theorem execJoinFailedRetry_mem (t : Nat) (port : Fin 4) (s : State) (hM : s.memoryWf = true) :
    OutMem (execJoinFailedRetry t port s) := by
  unfold execJoinFailedRetry
  repeat' first | (intro x; refine memCut x ?_ fun _ => ?_; (on_goal 1 => subst x); (on_goal 2 => clear_value x)) | lift_lets -underBinder | with_reducible (first | assumption | apply State.advance_mem | apply State.wr_mem | apply memIte | apply outNext)

theorem joinRetrain_mem (k : Nat) (s : State) (hM : s.memoryWf = true) :
    OkMem (joinRetrain k s) := by
  unfold joinRetrain
  repeat' first | (with_reducible intro _) | with_reducible (first | assumption | apply State.retrainPort_mem | apply okIte | apply memIte | apply okOk)

theorem execJoinRetrain_mem (t : Nat) (port : Fin 4) (s : State) (hM : s.memoryWf = true) :
    OutMem (execJoinRetrain t port s) := by
  unfold execJoinRetrain
  repeat' first | with_reducible (first | assumption | apply State.serve_mem | apply joinRetrain_mem | apply outNext)

theorem execJoinLinkDegrade_mem (t : Nat) (port : Fin 4) (s : State) (hM : s.memoryWf = true) :
    OutMem (execJoinLinkDegrade t port s) := by
  unfold execJoinLinkDegrade
  repeat' first | (intro x; refine memCut x ?_ fun _ => ?_; (on_goal 1 => subst x); (on_goal 2 => clear_value x)) | lift_lets -underBinder | with_reducible (first | assumption | apply State.advance_mem | apply State.retrainPort_mem | apply memIte | apply outNext)

theorem execDirectionSleep_mem (t : Nat) (port : Fin 4) (rx : Bool) (s : State) (hM : s.memoryWf = true) :
    OutMem (execDirectionSleep t port rx s) := by
  unfold execDirectionSleep
  repeat' first | (intro x; refine memCut x ?_ fun _ => ?_; (on_goal 1 => subst x); (on_goal 2 => clear_value x)) | lift_lets -underBinder | with_reducible (first | assumption | apply State.advance_mem | apply State.wr_mem | apply memIte | apply outNext)

theorem execDirectionWakeComplete_mem (t : Nat) (port : Fin 4) (rx : Bool) (s : State) (hM : s.memoryWf = true) :
    OutMem (execDirectionWakeComplete t port rx s) := by
  unfold execDirectionWakeComplete
  repeat' first | (intro x; refine memCut x ?_ fun _ => ?_; (on_goal 1 => subst x); (on_goal 2 => clear_value x)) | (intro x; clear_value x) | lift_lets -underBinder | with_reducible (first | assumption | apply State.advance_mem | apply State.wr_mem | apply memIte | apply outNext)

theorem State.prbsStop_mem (s : State) (k : Nat) (hM : s.memoryWf = true) :
    (State.prbsStop s k).memoryWf = true := by
  unfold State.prbsStop
  repeat' first | (intro x; clear_value x) | lift_lets -underBinder | with_reducible (first | assumption | apply State.wr_mem | apply State.setPort_mem)

theorem joinTestMode_mem (k v : Nat) (s : State) (hM : s.memoryWf = true) :
    OkMem (joinTestMode k v s) := by
  unfold joinTestMode
  repeat' first | (with_reducible intro _) | with_reducible (first | assumption | apply State.leaveActive_mem | apply State.wrs_mem | apply State.prbsStop_mem | apply okIte | apply memIte | apply okOk | apply okErr)

theorem execJoinTestMode_mem (t : Nat) (port : Fin 4) (value : Nat) (s : State) (hM : s.memoryWf = true) :
    OutMem (execJoinTestMode t port value s) := by
  unfold execJoinTestMode
  repeat' first | with_reducible (first | assumption | apply State.serve_mem | apply joinTestMode_mem | apply outNext)

theorem execPrbsCheckerLock_mem (t : Nat) (port : Fin 4) (lane : Fin 8) (s : State) (hM : s.memoryWf = true) :
    OutMem (execPrbsCheckerLock t port lane s) := by
  unfold execPrbsCheckerLock
  repeat' first | (intro x; refine memCut x ?_ fun _ => ?_; (on_goal 1 => subst x); (on_goal 2 => clear_value x)) | (intro x; clear_value x) | lift_lets -underBinder | with_reducible (first | assumption | apply State.advance_mem | apply State.wr_mem | apply State.setPort_mem | apply memIte | apply outNext)

theorem joinClear_mem (k : Nat) (s : State) (hM : s.memoryWf = true) :
    OkMem (joinClear k s) := by
  unfold joinClear
  repeat' first | (intro x; clear_value x) | (with_reducible intro _) | lift_lets -underBinder | with_reducible (first | assumption | apply State.wrs_mem | apply State.setDom_mem | apply State.setPort_mem | apply okOk)

theorem execJoinClearCounters_mem (t : Nat) (port : Fin 4) (s : State) (hM : s.memoryWf = true) :
    OutMem (execJoinClearCounters t port s) := by
  unfold execJoinClearCounters
  repeat' first | with_reducible (first | assumption | apply State.serve_mem | apply joinClear_mem | apply outNext)

theorem joinCalibrate_mem  (s : State) (hM : s.memoryWf = true) :
    OkMem (joinCalibrate s) := by
  unfold joinCalibrate
  repeat' first | (intro x; refine memCut x ?_ fun _ => ?_; (on_goal 1 => subst x); (on_goal 2 => clear_value x)) | (intro x; clear_value x) | (with_reducible intro _) | lift_lets -underBinder | with_reducible (first | assumption | apply State.retrainPort_mem | apply okIte | apply memIte | apply okOk | apply okErr | (fail_if_no_progress refine memMk rfl rfl rfl rfl ?_) | (refine memOk (by assumption) ?_)) | split

theorem execJoinCalibrate_mem (t : Nat) (s : State) (hM : s.memoryWf = true) :
    OutMem (execJoinCalibrate t s) := by
  unfold execJoinCalibrate
  repeat' first | with_reducible (first | assumption | apply State.serve_mem | apply joinCalibrate_mem | apply outNext)

theorem execJoinAssumptionFlagClear_mem (t : Nat) (s : State) (hM : s.memoryWf = true) :
    OutMem (execJoinAssumptionFlagClear t s) := by
  unfold execJoinAssumptionFlagClear
  repeat' first | (intro x; refine memCut x ?_ fun _ => ?_; (on_goal 1 => subst x); (on_goal 2 => clear_value x)) | lift_lets -underBinder | with_reducible (first | assumption | apply State.advance_mem | apply State.wr_mem | apply memIte | apply outNext)

theorem State.linkLoss_mem (s : State) (hM : s.memoryWf = true) :
    (State.linkLoss s).memoryWf = true := by
  unfold State.linkLoss
  repeat' first | (intro x; refine memCut x ?_ fun _ => ?_; (on_goal 1 => subst x); (on_goal 2 => clear_value x)) | (intro x; clear_value x) | lift_lets -underBinder | with_reducible (first | assumption | apply State.assume_mem | (fail_if_no_progress refine memMk rfl rfl rfl rfl ?_))

theorem State.sendBulk_mem (s : State) (k n : Nat) (hM : s.memoryWf = true) :
    (State.sendBulk s k n).memoryWf = true := by
  unfold State.sendBulk
  repeat' first | (intro x; refine memCut x ?_ fun _ => ?_; (on_goal 1 => subst x); (on_goal 2 => clear_value x)) | (intro x; clear_value x) | lift_lets -underBinder | with_reducible (first | assumption | apply State.setPort_mem | apply State.wr_mem | apply memIte)

theorem State.replayed_mem (s : State) (k : Nat) (left : List Nat) (again : Bool) (hM : s.memoryWf = true) :
    (State.replayed s k left again).memoryWf = true := by
  unfold State.replayed
  repeat' first | (intro x; refine memCut x ?_ fun _ => ?_; (on_goal 1 => subst x); (on_goal 2 => clear_value x)) | (with_reducible intro _) | lift_lets -underBinder | with_reducible (first | assumption | apply State.bumpBy_mem | apply State.linkLoss_mem | apply State.retrainPort_mem | apply memIte)

theorem execBulkFrameReceive_mem (t : Nat) (port : Fin 4) (sequence ack credits : Nat) (admitted crcOk nack : Bool) (s : State) (hM : s.memoryWf = true) :
    OutMem (execBulkFrameReceive t port sequence ack credits admitted crcOk nack s) := by
  unfold execBulkFrameReceive
  repeat' first | (intro x; refine memCut x ?_ fun _ => ?_; (on_goal 1 => subst x); (on_goal 2 => clear_value x)) | (intro x; clear_value x) | lift_lets -underBinder | with_reducible (first | assumption | apply State.advance_mem | apply State.emit_mem | apply State.setPort_mem | apply State.replayed_mem | apply memIte | apply outNext)

theorem State.loseOrigin_mem (s : State) (o : Nat) (hM : s.memoryWf = true) :
    (State.loseOrigin s o).memoryWf = true := by
  unfold State.loseOrigin
  repeat' first | (intro x; refine memCut x ?_ fun _ => ?_; (on_goal 1 => subst x); (on_goal 2 => clear_value x)) | (intro x; clear_value x) | (with_reducible intro _) | lift_lets -underBinder | with_reducible (first | assumption | apply State.setPos_mem | apply State.lineChange_mem | apply State.setLine_mem | apply memFoldl)

theorem State.boundedIn_mem (s : State) (port w : Nat) (hM : s.memoryWf = true) :
    (State.boundedIn s port w).memoryWf = true := by
  unfold State.boundedIn
  repeat' first | (intro x; refine memCut x ?_ fun _ => ?_; (on_goal 1 => subst x); (on_goal 2 => clear_value x)) | (intro x; clear_value x) | (with_reducible intro _) | lift_lets -underBinder | with_reducible (first | assumption | apply State.sendOn_mem | apply memIte | apply memFoldl | (fail_if_no_progress refine memMk rfl rfl rfl rfl ?_))

theorem execBoundedSlotReceive_mem (t : Nat) (port : Fin 4) (copyA copyB : Nat) (s : State) (hM : s.memoryWf = true) :
    OutMem (execBoundedSlotReceive t port copyA copyB s) := by
  unfold execBoundedSlotReceive
  repeat' first | (intro x; refine memCut x ?_ fun _ => ?_; (on_goal 1 => subst x); (on_goal 2 => clear_value x)) | (intro x; clear_value x) | (with_reducible intro _) | lift_lets -underBinder | with_reducible (first | assumption | apply State.advance_mem | apply State.loseOrigin_mem | apply State.bump_mem | apply State.linkLoss_mem | apply State.boundedIn_mem | apply memIte | apply memFoldl | apply outNext)

theorem State.takeMsg_mem (s : State) (p : Nat → Bool) (hM : s.memoryWf = true) :
    (State.takeMsg s p).2.memoryWf = true := by
  unfold State.takeMsg
  repeat' first | (intro x; clear_value x) | (with_reducible intro _) | lift_lets -underBinder | with_reducible (first | assumption | (fail_if_no_progress refine memMk rfl rfl rfl rfl ?_) | (refine memOk (by assumption) ?_)) | split

theorem State.noteSeq_mem (s : State) (o w : Nat) (hM : s.memoryWf = true) :
    (State.noteSeq s o w).memoryWf = true := by
  unfold State.noteSeq
  repeat' first | (intro x; clear_value x) | lift_lets -underBinder | with_reducible (first | assumption | apply State.setPos_mem)

theorem State.changeIn_mem (s : State) (o w : Nat) (gap : Bool) (hM : s.memoryWf = true) :
    (State.changeIn s o w gap).memoryWf = true := by
  unfold State.changeIn
  repeat' first | (intro x; refine memCut x ?_ fun _ => ?_; (on_goal 1 => subst x); (on_goal 2 => clear_value x)) | (intro x; clear_value x) | (with_reducible intro _) | lift_lets -underBinder | with_reducible (first | assumption | apply State.noteSeq_mem | apply State.loseOrigin_mem | apply State.setPos_mem | apply State.lineChange_mem | apply memIte | apply memFoldl)

theorem execLineChange_mem (t : Nat) (s : State) (hM : s.memoryWf = true) :
    OutMem (execLineChange t s) := by
  unfold execLineChange
  repeat' first | (intro x; (first | refine memCut x ?_ fun _ => ?_ | refine okCut x ?_ fun _ => ?_ | refine someCut x ?_ fun _ => ?_ | refine pairCut x ?_ fun _ => ?_ | refine pairCut2 x ?_ fun _ => ?_); (on_goal 1 => subst x); (on_goal 2 => clear_value x)) | (intro x; clear_value x) | (with_reducible intro _) | lift_lets -underBinder | with_reducible (first | assumption | apply State.advance_mem | apply State.takeMsg_mem | apply State.changeIn_mem | apply memIte | apply outNext | apply memElim | (fail_if_no_progress refine memMk rfl rfl rfl rfl ?_) | (refine memOk (by assumption) ?_) | (refine memPair (by assumption) ?_) | (refine memPair2 (by assumption) ?_) | (refine memSome (by assumption) ?_)) | split

theorem State.stateIn_mem (s : State) (o w : Nat) (hM : s.memoryWf = true) :
    (State.stateIn s o w).memoryWf = true := by
  unfold State.stateIn
  repeat' first | (intro x; refine memCut x ?_ fun _ => ?_; (on_goal 1 => subst x); (on_goal 2 => clear_value x)) | (intro x; clear_value x) | (with_reducible intro _) | lift_lets -underBinder | with_reducible (first | assumption | apply State.noteSeq_mem | apply State.setPos_mem | apply State.lineChange_mem | apply State.judge_mem | apply State.refreshArray_mem | apply memIte | apply memFoldl | (fail_if_no_progress refine memMk rfl rfl rfl rfl ?_) | (refine memOk (by assumption) ?_)) | split

theorem execLineState_mem (t : Nat) (s : State) (hM : s.memoryWf = true) :
    OutMem (execLineState t s) := by
  unfold execLineState
  repeat' first | (intro x; (first | refine memCut x ?_ fun _ => ?_ | refine okCut x ?_ fun _ => ?_ | refine someCut x ?_ fun _ => ?_ | refine pairCut x ?_ fun _ => ?_ | refine pairCut2 x ?_ fun _ => ?_); (on_goal 1 => subst x); (on_goal 2 => clear_value x)) | (with_reducible intro _) | lift_lets -underBinder | with_reducible (first | assumption | apply State.advance_mem | apply State.takeMsg_mem | apply State.stateIn_mem | apply memIte | apply outNext | apply memElim | (fail_if_no_progress refine memMk rfl rfl rfl rfl ?_) | (refine memOk (by assumption) ?_) | (refine memPair (by assumption) ?_) | (refine memPair2 (by assumption) ?_) | (refine memSome (by assumption) ?_)) | split

theorem State.sendGroup_mem (s : State) (T g : Nat) (hM : s.memoryWf = true) :
    (State.sendGroup s T g).memoryWf = true := by
  unfold State.sendGroup
  repeat' first | (intro x; clear_value x) | (with_reducible intro _) | lift_lets -underBinder | with_reducible (first | assumption | apply State.broadcast_mem)

theorem execLineStateSend_mem (t : Nat) (s : State) (hM : s.memoryWf = true) :
    OutMem (execLineStateSend t s) := by
  unfold execLineStateSend
  repeat' first | (intro x; refine memCut x ?_ fun _ => ?_; (on_goal 1 => subst x); (on_goal 2 => clear_value x)) | (intro x; clear_value x) | lift_lets -underBinder | with_reducible (first | assumption | apply State.advance_mem | apply State.sendGroup_mem | apply memIte | apply outNext)

theorem execTimeSyncSend_mem (t : Nat) (s : State) (hM : s.memoryWf = true) :
    OutMem (execTimeSyncSend t s) := by
  unfold execTimeSyncSend
  repeat' first | (intro x; (first | refine memCut x ?_ fun _ => ?_ | refine okCut x ?_ fun _ => ?_ | refine someCut x ?_ fun _ => ?_ | refine pairCut x ?_ fun _ => ?_ | refine pairCut2 x ?_ fun _ => ?_); (on_goal 1 => subst x); (on_goal 2 => clear_value x)) | (intro x; clear_value x) | (with_reducible intro _) | lift_lets -underBinder | with_reducible (first | assumption | apply State.advance_mem | apply State.nextSeq_mem | apply State.setPort_mem | apply State.emit_mem | apply memIte | apply outNext | apply memElim | (fail_if_no_progress refine memMk rfl rfl rfl rfl ?_) | (refine memOk (by assumption) ?_) | (refine memPair (by assumption) ?_) | (refine memPair2 (by assumption) ?_) | (refine memSome (by assumption) ?_)) | split

theorem State.syncAnswer_mem (s : State) (k stamp w : Nat) (hM : s.memoryWf = true) :
    (State.syncAnswer s k stamp w).memoryWf = true := by
  unfold State.syncAnswer
  repeat' first | (intro x; refine memCut x ?_ fun _ => ?_; (on_goal 1 => subst x); (on_goal 2 => clear_value x)) | (intro x; clear_value x) | (with_reducible intro _) | lift_lets -underBinder | with_reducible (first | assumption | apply State.setPort_mem | apply State.wr_mem | (fail_if_no_progress refine memMk rfl rfl rfl rfl ?_) | (refine memOk (by assumption) ?_)) | split

theorem State.syncHeard_mem (s : State) (o w : Nat) (hM : s.memoryWf = true) :
    (State.syncHeard s o w).memoryWf = true := by
  unfold State.syncHeard
  repeat' first | (intro x; clear_value x) | lift_lets -underBinder | with_reducible (first | assumption | apply State.setPos_mem)

theorem State.answerChild_mem (s : State) (k o w hold : Nat) (hM : s.memoryWf = true) :
    (State.answerChild s k o w hold).memoryWf = true := by
  unfold State.answerChild
  repeat' first | (intro x; (first | refine memCut x ?_ fun _ => ?_ | refine okCut x ?_ fun _ => ?_ | refine someCut x ?_ fun _ => ?_ | refine pairCut x ?_ fun _ => ?_ | refine pairCut2 x ?_ fun _ => ?_); (on_goal 1 => subst x); (on_goal 2 => clear_value x)) | (intro x; clear_value x) | (with_reducible intro _) | lift_lets -underBinder | with_reducible (first | assumption | apply State.nextSeq_mem | apply State.setPort_mem | apply State.emit_mem)

theorem execTimeSync_mem (t : Nat) (s : State) (hM : s.memoryWf = true) :
    OutMem (execTimeSync t s) := by
  unfold execTimeSync
  repeat' first | (intro x; (first | refine memCut x ?_ fun _ => ?_ | refine okCut x ?_ fun _ => ?_ | refine someCut x ?_ fun _ => ?_ | refine pairCut x ?_ fun _ => ?_ | refine pairCut2 x ?_ fun _ => ?_); (on_goal 1 => subst x); (on_goal 2 => clear_value x)) | (intro x; clear_value x) | (with_reducible intro _) | lift_lets -underBinder | with_reducible (first | assumption | apply State.advance_mem | apply State.takeMsg_mem | apply State.syncHeard_mem | apply State.syncAnswer_mem | apply State.tryForm_mem | apply State.judgeAll_mem | apply State.answerChild_mem | apply memIte | apply outNext | apply memElim | (fail_if_no_progress refine memMk rfl rfl rfl rfl ?_) | (refine memOk (by assumption) ?_) | (refine memPair (by assumption) ?_) | (refine memPair2 (by assumption) ?_) | (refine memSome (by assumption) ?_)) | split

theorem execTimedTimeout_mem (t : Nat) (position : Fin 8) (s : State) (hM : s.memoryWf = true) :
    OutMem (execTimedTimeout t position s) := by
  unfold execTimedTimeout
  repeat' first | (intro x; refine memCut x ?_ fun _ => ?_; (on_goal 1 => subst x); (on_goal 2 => clear_value x)) | lift_lets -underBinder | with_reducible (first | assumption | apply State.advance_mem | apply State.judge_mem | apply State.refreshArray_mem | apply memIte | apply outNext)

theorem State.applyPort_mem (s : State) (k : Nat) (hM : s.memoryWf = true) :
    (State.applyPort s k).memoryWf = true := by
  unfold State.applyPort
  repeat' first | (intro x; refine memCut x ?_ fun _ => ?_; (on_goal 1 => subst x); (on_goal 2 => clear_value x)) | (intro x; clear_value x) | lift_lets -underBinder | with_reducible (first | assumption | apply State.setPort_mem | apply State.wr_mem | apply State.sendRecord_mem | apply memIte)

theorem arrayApply_mem (fTOk : Bool) (s : State) (hM : s.memoryWf = true) :
    OkMem (arrayApply fTOk s) := by
  unfold arrayApply
  repeat' first | (intro x; refine memCut x ?_ fun _ => ?_; (on_goal 1 => subst x); (on_goal 2 => clear_value x)) | (intro x; clear_value x) | (with_reducible intro _) | lift_lets -underBinder | with_reducible (first | assumption | apply State.wrs_mem | apply State.applyPort_mem | apply State.refreshArray_mem | apply okIte | apply memIte | apply memFoldl | apply okOk | apply okErr | (fail_if_no_progress refine memMk rfl rfl rfl rfl ?_))

theorem execArrayApply_mem (t : Nat) (fTOk : Bool) (s : State) (hM : s.memoryWf = true) :
    OutMem (execArrayApply t fTOk s) := by
  unfold execArrayApply
  repeat' first | with_reducible (first | assumption | apply State.serve_mem | apply arrayApply_mem | apply outNext)

theorem State.drained_mem (s : State) (n k stage i : Nat) (hM : s.memoryWf = true) :
    (State.drained s n k stage i).memoryWf = true := by
  unfold State.drained
  repeat' first | with_reducible (first | assumption | apply State.drainTo_mem)

theorem State.tookFrame_mem (s : State) (n tag : Nat) (hM : s.memoryWf = true) :
    (State.tookFrame s n tag).memoryWf = true := by
  unfold State.tookFrame
  repeat' first | (with_reducible intro _) | lift_lets -underBinder | with_reducible (first | assumption | apply State.modSlot_mem)

theorem State.nextFrame_mem (s : State) (n k : Nat) (o : Nat × Nat) (hM : s.memoryWf = true) :
    (State.nextFrame s n k o).memoryWf = true := by
  unfold State.nextFrame
  repeat' first | (intro x; clear_value x) | lift_lets -underBinder | with_reducible (first | assumption | apply State.setPipe_mem)

theorem State.poolCopy_mem (s : State) (n k : Nat) (body : Bytes) (hM : s.memoryWf = true) :
    (State.poolCopy s n k body).memoryWf = true := by
  unfold State.poolCopy
  repeat' first | (intro x; refine memCut x ?_ fun _ => ?_; (on_goal 1 => subst x); (on_goal 2 => clear_value x)) | (intro x; clear_value x) | lift_lets -underBinder | with_reducible (first | assumption | apply State.poolWrite_mem | apply State.setPipe_mem | (fail_if_no_progress refine memMk rfl rfl rfl rfl ?_) | (refine memOk (by assumption) ?_)) | split

theorem State.taken_mem (s : State) (k : Nat) (hM : s.memoryWf = true) :
    (State.taken s k).memoryWf = true := by
  unfold State.taken
  exact hM

end Sys2Proof.Machine
end

