-- ==== Sys2Proof/Laws/KeepModes.lean ====
section
/-! SUPPORT. The definitions of these files of Machine keep the canonical form of the memories: Density, Spectrum, Sieve, Pulse, Sweeps, Replay. -/

namespace Sys2Proof.Machine

open Sys2Proof

theorem State.incCell_mem (s : State) (k c r : Nat) (hM : s.memoryWf = true) :
    (State.incCell s k c r).memoryWf = true := by
  unfold State.incCell
  repeat' first | lift_lets -underBinder | with_reducible (first | assumption | apply State.poolWrite_mem | (fail_if_no_progress refine memMk rfl rfl rfl rfl ?_) | (refine memOk (by assumption) ?_)) | split

theorem State.mapDecide_mem (s : State) (n k f h tag : Nat) (hM : s.memoryWf = true) :
    (State.mapDecide s n k f h tag).memoryWf = true := by
  unfold State.mapDecide
  repeat' first | (intro x; refine memCut x ?_ fun _ => ?_; (on_goal 1 => subst x); (on_goal 2 => clear_value x)) | (intro x; clear_value x) | (with_reducible intro _) | lift_lets -underBinder | with_reducible (first | assumption | apply State.setMap_mem | apply State.wr_mem | apply State.lineChange_mem | apply memIte)

theorem State.mapTrigger_mem (s : State) (n k : Nat) (u : MapIn) (h : Nat) (hM : s.memoryWf = true) :
    (State.mapTrigger s n k u h).memoryWf = true := by
  unfold State.mapTrigger
  repeat' first | (intro x; clear_value x) | (with_reducible intro _) | lift_lets -underBinder | with_reducible (first | assumption | apply State.setMap_mem | apply State.mapDecide_mem | apply memIte)

theorem State.mapApply_mem (s : State) (k : Nat) (u : MapIn) (hM : s.memoryWf = true) :
    (State.mapApply s k u).memoryWf = true := by
  unfold State.mapApply
  repeat' first | (intro x; refine memCut x ?_ fun _ => ?_; (on_goal 1 => subst x); (on_goal 2 => clear_value x)) | (intro x; clear_value x) | (with_reducible intro _) | lift_lets -underBinder | with_reducible (first | assumption | apply State.incCell_mem | apply State.bump_mem | apply State.mapTrigger_mem | apply memIte | apply memFoldl | (fail_if_no_progress refine memMk rfl rfl rfl rfl ?_) | (refine memOk (by assumption) ?_)) | split

theorem State.mapFlush_mem (s : State) (k before : Nat) (hM : s.memoryWf = true) :
    (State.mapFlush s k before).memoryWf = true := by
  unfold State.mapFlush
  repeat' first | (intro x; refine memCut x ?_ fun _ => ?_; (on_goal 1 => subst x); (on_goal 2 => clear_value x)) | (intro x; clear_value x) | (with_reducible intro _) | lift_lets -underBinder | with_reducible (first | assumption | apply State.mapApply_mem | apply State.setMap_mem | apply memFoldl)

theorem State.mapFeed_mem (s : State) (n mask : Nat) (u : MapIn) (hM : s.memoryWf = true) :
    (State.mapFeed s n mask u).memoryWf = true := by
  unfold State.mapFeed
  repeat' first | (intro x; clear_value x) | (with_reducible intro _) | lift_lets -underBinder | with_reducible (first | assumption | apply State.setMap_mem | apply memIte | apply memFoldl)

theorem execMapUpdate_mem (t : Nat) (map : Fin 4) (s : State) (hM : s.memoryWf = true) :
    OutMem (execMapUpdate t map s) := by
  unfold execMapUpdate
  repeat' first | (intro x; refine memCut x ?_ fun _ => ?_; (on_goal 1 => subst x); (on_goal 2 => clear_value x)) | (intro x; clear_value x) | lift_lets -underBinder | with_reducible (first | assumption | apply State.advance_mem | apply State.setMap_mem | apply State.mapApply_mem | apply outNext | (fail_if_no_progress refine memMk rfl rfl rfl rfl ?_) | (refine memOk (by assumption) ?_)) | split

theorem State.copyShadow_mem (s : State) (k : Nat) (hM : s.memoryWf = true) :
    (State.copyShadow s k).memoryWf = true := by
  unfold State.copyShadow
  repeat' first | (intro x; refine memCut x ?_ fun _ => ?_; (on_goal 1 => subst x); (on_goal 2 => clear_value x)) | (intro x; clear_value x) | (with_reducible intro _) | lift_lets -underBinder | with_reducible (first | assumption | apply State.poolWrite_mem | apply memFoldl | (fail_if_no_progress refine memMk rfl rfl rfl rfl ?_) | (refine memOk (by assumption) ?_)) | split

theorem execSnapshotCopyComplete_mem (t : Nat) (map : Fin 4) (s : State) (hM : s.memoryWf = true) :
    OutMem (execSnapshotCopyComplete t map s) := by
  unfold execSnapshotCopyComplete
  repeat' first | (intro x; refine memCut x ?_ fun _ => ?_; (on_goal 1 => subst x); (on_goal 2 => clear_value x)) | (intro x; clear_value x) | (with_reducible intro _) | lift_lets -underBinder | with_reducible (first | assumption | apply State.advance_mem | apply State.setMap_mem | apply State.reset_mem | apply State.wrs_mem | apply State.sliceTable_mem | apply memIte | apply outNext | (fail_if_no_progress refine memMk rfl rfl rfl rfl ?_) | (refine memOk (by assumption) ?_)) | split

theorem State.drawCell_mem (s : State) (k c r : Nat) (hM : s.memoryWf = true) :
    (State.drawCell s k c r).memoryWf = true := by
  unfold State.drawCell
  repeat' first | (intro x; refine memCut x ?_ fun _ => ?_; (on_goal 1 => subst x); (on_goal 2 => clear_value x)) | (intro x; clear_value x) | (with_reducible intro _) | lift_lets -underBinder | with_reducible (first | assumption | apply State.hbmWrite_mem | apply memFoldl | (fail_if_no_progress refine memMk rfl rfl rfl rfl ?_) | (refine memOk (by assumption) ?_)) | split

theorem State.drawMap_mem (s : State) (k columns : Nat) (hM : s.memoryWf = true) :
    (State.drawMap s k columns).memoryWf = true := by
  unfold State.drawMap
  repeat' first | (with_reducible intro _) | with_reducible (first | assumption | apply State.drawCell_mem | apply memFoldl)

theorem execRenderComplete_mem (t : Nat) (map : Fin 4) (s : State) (hM : s.memoryWf = true) :
    OutMem (execRenderComplete t map s) := by
  unfold execRenderComplete
  repeat' first | (intro x; refine memCut x ?_ fun _ => ?_; (on_goal 1 => subst x); (on_goal 2 => clear_value x)) | (intro x; clear_value x) | lift_lets -underBinder | with_reducible (first | assumption | apply State.advance_mem | apply State.drawMap_mem | apply State.setMap_mem | apply State.wr_mem | apply outNext | (fail_if_no_progress refine memMk rfl rfl rfl rfl ?_) | (refine memOk (by assumption) ?_)) | split

theorem mapSnapshot_mem (k T : Nat) (s : State) (hM : s.memoryWf = true) :
    OkMem (mapSnapshot k T s) := by
  unfold mapSnapshot
  repeat' first | (intro x; refine memCut x ?_ fun _ => ?_; (on_goal 1 => subst x); (on_goal 2 => clear_value x)) | (intro x; clear_value x) | (with_reducible intro _) | lift_lets -underBinder | with_reducible (first | assumption | apply State.setMap_mem | apply State.wr_mem | apply okIte | apply memIte | apply okOk | apply okErr)

theorem mapClear_mem (k T : Nat) (s : State) (hM : s.memoryWf = true) :
    OkMem (mapClear k T s) := by
  unfold mapClear
  repeat' first | (intro x; clear_value x) | (with_reducible intro _) | lift_lets -underBinder | with_reducible (first | assumption | apply State.noted_mem | apply State.setMap_mem | apply okIte | apply memIte | apply okOk | apply okErr)

theorem execMapSnapshot_mem (t : Nat) (map : Fin 4) (time : Nat) (s : State) (hM : s.memoryWf = true) :
    OutMem (execMapSnapshot t map time s) := by
  unfold execMapSnapshot
  repeat' first | with_reducible (first | assumption | apply State.serve_mem | apply mapSnapshot_mem | apply outNext)

theorem execMapClear_mem (t : Nat) (map : Fin 4) (time : Nat) (s : State) (hM : s.memoryWf = true) :
    OutMem (execMapClear t map time s) := by
  unfold execMapClear
  repeat' first | with_reducible (first | assumption | apply State.serve_mem | apply mapClear_mem | apply outNext)

theorem State.mapBoundary_mem (s : State) (k b : Nat) (hM : s.memoryWf = true) :
    (State.mapBoundary s k b).memoryWf = true := by
  unfold State.mapBoundary
  repeat' first | (intro x; refine memCut x ?_ fun _ => ?_; (on_goal 1 => subst x); (on_goal 2 => clear_value x)) | (intro x; clear_value x) | (with_reducible intro _) | lift_lets -underBinder | with_reducible (first | assumption | apply State.mapFlush_mem | apply State.sweep_mem | apply State.setMap_mem | apply memIte)

theorem State.mapWindowRestart_mem (s : State) (k : Nat) (hM : s.memoryWf = true) :
    (State.mapWindowRestart s k).memoryWf = true := by
  unfold State.mapWindowRestart
  repeat' first | (intro x; clear_value x) | lift_lets -underBinder | with_reducible (first | assumption | apply State.setMap_mem)

theorem State.weirChange_mem (s : State) (n g w k tag : Nat) (v : Bool) (hM : s.memoryWf = true) :
    (State.weirChange s n g w k tag v).memoryWf = true := by
  unfold State.weirChange
  repeat' first | with_reducible (first | assumption | apply State.lineChange_mem | apply memIte)

theorem State.weirFrame_mem (s : State) (n g w k frame tag flags : Nat) (vs : List Int) (hM : s.memoryWf = true) :
    (State.weirFrame s n g w k frame tag flags vs).memoryWf = true := by
  unfold State.weirFrame
  repeat' first | (intro x; refine memCut x ?_ fun _ => ?_; (on_goal 1 => subst x); (on_goal 2 => clear_value x)) | (intro x; clear_value x) | (with_reducible intro _) | lift_lets -underBinder | with_reducible (first | assumption | apply State.setWeir_mem | apply State.weirChange_mem | apply State.wr_mem | apply State.wrs_mem | apply State.setDom_mem | apply State.queueRecord_mem | apply memIte)

theorem State.specEmit_mem (s : State) (n k : Nat) (x : Trace) (e : Int) (logs : List Int) (payload : Bytes) (hM : s.memoryWf = true) :
    (State.specEmit s n k x e logs payload).memoryWf = true := by
  unfold State.specEmit
  repeat' first | (intro x; refine memCut x ?_ fun _ => ?_; (on_goal 1 => subst x); (on_goal 2 => clear_value x)) | (intro x; clear_value x) | lift_lets -underBinder | with_reducible (first | assumption | apply State.queueRecord_mem | apply State.poolCopy_mem | apply memIte)

theorem State.traceEnd_mem (s : State) (n k : Nat) (hM : s.memoryWf = true) :
    (State.traceEnd s n k).memoryWf = true := by
  unfold State.traceEnd
  repeat' first | (intro x; clear_value x) | (with_reducible intro _) | lift_lets -underBinder | with_reducible (first | assumption | apply State.setPipe_mem | apply State.specEmit_mem | apply State.taken_mem | apply memIte)

theorem State.specFrame_mem (s0 : State) (n k frame tag fl : Nat) (words : List Nat) (hM : s0.memoryWf = true) :
    (State.specFrame s0 n k frame tag fl words).memoryWf = true := by
  unfold State.specFrame
  repeat' first | (intro x; refine memCut x ?_ fun _ => ?_; (on_goal 1 => subst x); (on_goal 2 => clear_value x)) | (intro x; clear_value x) | (with_reducible intro _) | lift_lets -underBinder | with_reducible (first | assumption | apply State.taken_mem | apply State.weirFrame_mem | apply State.mapFeed_mem | apply State.specEmit_mem | apply State.setPipe_mem | apply State.traceEnd_mem | apply memIte | apply memFoldl)

theorem execSpectrumFrame_mem (t : Nat) (n : Fin 64) (ch : Fin 64) (s : State) (hM : s.memoryWf = true) :
    OutMem (execSpectrumFrame t n ch s) := by
  unfold execSpectrumFrame
  repeat' first | (intro x; refine memCut x ?_ fun _ => ?_; (on_goal 1 => subst x); (on_goal 2 => clear_value x)) | (intro x; clear_value x) | (with_reducible intro _) | lift_lets -underBinder | with_reducible (first | assumption | apply State.advance_mem | apply State.specFrame_mem | apply State.tookFrame_mem | apply State.nextFrame_mem | apply State.drained_mem | apply memIte | apply outNext | (fail_if_no_progress refine memMk rfl rfl rfl rfl ?_) | (refine memOk (by assumption) ?_)) | split

theorem userWindowLoad_mem (u : Nat) (s : State) (hM : s.memoryWf = true) :
    OkMem (userWindowLoad u s) := by
  unfold userWindowLoad
  repeat' first | (intro x; refine memCut x ?_ fun _ => ?_; (on_goal 1 => subst x); (on_goal 2 => clear_value x)) | (intro x; clear_value x) | (with_reducible intro _) | lift_lets -underBinder | with_reducible (first | assumption | apply State.noted_mem | apply State.wrs_mem | apply okIte | apply memIte | apply okOk)

theorem execUserWindowLoad_mem (t : Nat) (u : Fin 4) (s : State) (hM : s.memoryWf = true) :
    OutMem (execUserWindowLoad t u s) := by
  unfold execUserWindowLoad
  repeat' first | with_reducible (first | assumption | apply State.serve_mem | apply userWindowLoad_mem | apply outNext)

theorem State.weirRestart_mem (s : State) (n : Nat) (chs : List Nat) (hM : s.memoryWf = true) :
    (State.weirRestart s n chs).memoryWf = true := by
  unfold State.weirRestart
  repeat' first | (with_reducible intro _) | lift_lets -underBinder | with_reducible (first | assumption | apply State.setWeir_mem | apply State.wr_mem | apply memFoldl)

theorem State.spectrumBoundary_mem (s : State) (n : Nat) (hM : s.memoryWf = true) :
    (State.spectrumBoundary s n).memoryWf = true := by
  unfold State.spectrumBoundary
  repeat' first | (intro x; refine memCut x ?_ fun _ => ?_; (on_goal 1 => subst x); (on_goal 2 => clear_value x)) | (intro x; clear_value x) | (with_reducible intro _) | lift_lets -underBinder | with_reducible (first | assumption | apply State.traceEnd_mem | apply State.weirRestart_mem | apply memFoldl)

theorem State.sampEnd_mem (s : State) (n k j : Nat) (hM : s.memoryWf = true) :
    (State.sampEnd s n k j).memoryWf = true := by
  unfold State.sampEnd
  repeat' first | (intro x; clear_value x) | (with_reducible intro _) | lift_lets -underBinder | with_reducible (first | assumption | apply State.setPipe_mem | apply State.queueRecord_mem | apply State.taken_mem | apply memIte)

theorem State.powerEnd_mem (s : State) (n k : Nat) (hM : s.memoryWf = true) :
    (State.powerEnd s n k).memoryWf = true := by
  unfold State.powerEnd
  repeat' first | (intro x; refine memCut x ?_ fun _ => ?_; (on_goal 1 => subst x); (on_goal 2 => clear_value x)) | (intro x; clear_value x) | (with_reducible intro _) | lift_lets -underBinder | with_reducible (first | assumption | apply State.setPipe_mem | apply State.queueRecord_mem | apply State.taken_mem | apply State.poolCopy_mem | apply memIte)

theorem State.levelBlockEnd_mem (s : State) (n i : Nat) (hM : s.memoryWf = true) :
    (State.levelBlockEnd s n i).memoryWf = true := by
  unfold State.levelBlockEnd
  repeat' first | (intro x; refine memCut x ?_ fun _ => ?_; (on_goal 1 => subst x); (on_goal 2 => clear_value x)) | (intro x; clear_value x) | lift_lets -underBinder | with_reducible (first | assumption | apply State.setPipe_mem | apply State.taken_mem | apply State.lineChange_mem | apply memIte)

theorem State.levelFrame_mem (s : State) (n k tag : Nat) (gap : Bool) (power : Nat → Nat) (hM : s.memoryWf = true) :
    (State.levelFrame s n k tag gap power).memoryWf = true := by
  unfold State.levelFrame
  repeat' first | (intro x; refine memCut x ?_ fun _ => ?_; (on_goal 1 => subst x); (on_goal 2 => clear_value x)) | (intro x; clear_value x) | (with_reducible intro _) | lift_lets -underBinder | with_reducible (first | assumption | apply State.setPipe_mem | apply State.levelBlockEnd_mem | apply memIte | apply memFoldl)

theorem State.unitSend_mem (s : State) (n r : Nat) (l : List (Nat × Nat × Nat)) (hM : s.memoryWf = true) :
    (State.unitSend s n r l).memoryWf = true := by
  unfold State.unitSend
  repeat' first | (intro x; clear_value x) | lift_lets -underBinder | with_reducible (first | assumption | apply State.setPipe_mem | apply memIte | (fail_if_no_progress refine memMk rfl rfl rfl rfl ?_) | (refine memOk (by assumption) ?_)) | split

theorem State.routeFrame_mem (s : State) (n k stamp : Nat) (sample : Nat → Nat × Nat) (hM : s.memoryWf = true) :
    (State.routeFrame s n k stamp sample).memoryWf = true := by
  unfold State.routeFrame
  repeat' first | (intro x; refine memCut x ?_ fun _ => ?_; (on_goal 1 => subst x); (on_goal 2 => clear_value x)) | (intro x; clear_value x) | (with_reducible intro _) | lift_lets -underBinder | with_reducible (first | assumption | apply State.setPipe_mem | apply State.unitSend_mem | apply memIte | apply memFoldl)

theorem State.sieveFrame_mem (s0 : State) (n k m tag fl : Nat) (words : List Nat) (hM : s0.memoryWf = true) :
    (State.sieveFrame s0 n k m tag fl words).memoryWf = true := by
  unfold State.sieveFrame
  repeat' first | (intro x; refine memCut x ?_ fun _ => ?_; (on_goal 1 => subst x); (on_goal 2 => clear_value x)) | (intro x; refine funCut x ?_; subst x) | (intro x; clear_value x) | (with_reducible intro _) | lift_lets -underBinder | with_reducible (first | assumption | apply State.taken_mem | apply State.setPipe_mem | apply State.setDom_mem | apply State.sampEnd_mem | apply State.powerEnd_mem | apply State.levelFrame_mem | apply State.routeFrame_mem | apply memIte | apply memFoldl)

theorem State.sieveGap_mem (s : State) (n k tag : Nat) (hM : s.memoryWf = true) :
    (State.sieveGap s n k tag).memoryWf = true := by
  unfold State.sieveGap
  repeat' first | (with_reducible intro _) | with_reducible (first | assumption | apply State.levelFrame_mem | apply State.routeFrame_mem)

theorem execChannelizeFrame_mem (t : Nat) (n : Fin 64) (ch : Fin 64) (s : State) (hM : s.memoryWf = true) :
    OutMem (execChannelizeFrame t n ch s) := by
  unfold execChannelizeFrame
  repeat' first | (intro x; refine memCut x ?_ fun _ => ?_; (on_goal 1 => subst x); (on_goal 2 => clear_value x)) | (intro x; clear_value x) | (with_reducible intro _) | lift_lets -underBinder | with_reducible (first | assumption | apply State.advance_mem | apply State.sieveFrame_mem | apply State.sieveGap_mem | apply State.tookFrame_mem | apply State.setPipe_mem | apply State.nextFrame_mem | apply State.drained_mem | apply memIte | apply outNext | (fail_if_no_progress refine memMk rfl rfl rfl rfl ?_) | (refine memOk (by assumption) ?_)) | split

theorem sieveLoad_mem (u : Nat) (s : State) (hM : s.memoryWf = true) :
    OkMem (sieveLoad u s) := by
  unfold sieveLoad
  repeat' first | (intro x; refine memCut x ?_ fun _ => ?_; (on_goal 1 => subst x); (on_goal 2 => clear_value x)) | (intro x; clear_value x) | (with_reducible intro _) | lift_lets -underBinder | with_reducible (first | assumption | apply State.noted_mem | apply State.wrs_mem | apply okIte | apply memIte | apply okOk)

theorem execSieveLoad_mem (t : Nat) (u : Fin 4) (s : State) (hM : s.memoryWf = true) :
    OutMem (execSieveLoad t u s) := by
  unfold execSieveLoad
  repeat' first | with_reducible (first | assumption | apply State.serve_mem | apply sieveLoad_mem | apply outNext)

theorem State.sieveBoundary_mem (s : State) (n : Nat) (hM : s.memoryWf = true) :
    (State.sieveBoundary s n).memoryWf = true := by
  unfold State.sieveBoundary
  repeat' first | (intro x; refine memCut x ?_ fun _ => ?_; (on_goal 1 => subst x); (on_goal 2 => clear_value x)) | (intro x; clear_value x) | (with_reducible intro _) | lift_lets -underBinder | with_reducible (first | assumption | apply State.sampEnd_mem | apply State.powerEnd_mem | apply State.levelBlockEnd_mem | apply memFoldl)

theorem State.unitsClose_mem (s : State) (n : Nat) (hM : s.memoryWf = true) :
    (State.unitsClose s n).memoryWf = true := by
  unfold State.unitsClose
  repeat' first | (intro x; refine memCut x ?_ fun _ => ?_; (on_goal 1 => subst x); (on_goal 2 => clear_value x)) | (intro x; clear_value x) | (with_reducible intro _) | lift_lets -underBinder | with_reducible (first | assumption | apply State.setPipe_mem | apply State.unitSend_mem | apply memIte | apply memFoldl)

theorem State.adoptInput_mem (s : State) (o m i t0 : Nat) (hM : s.memoryWf = true) :
    (State.adoptInput s o m i t0).memoryWf = true := by
  unfold State.adoptInput
  repeat' first | (intro x; clear_value x) | lift_lets -underBinder | with_reducible (first | assumption | apply State.setPipe_mem | (fail_if_no_progress refine memMk rfl rfl rfl rfl ?_) | (refine memOk (by assumption) ?_)) | split

theorem State.pulseAdopt_mem (s : State) (n i : Nat) (hM : s.memoryWf = true) :
    (State.pulseAdopt s n i).memoryWf = true := by
  unfold State.pulseAdopt
  repeat' first | lift_lets -underBinder | with_reducible (first | assumption | apply State.adoptInput_mem | apply memIte | (fail_if_no_progress refine memMk rfl rfl rfl rfl ?_) | (refine memOk (by assumption) ?_)) | split

theorem State.pulseCount_mem (s : State) (n i c : Nat) (hM : s.memoryWf = true) :
    (State.pulseCount s n i c).memoryWf = true := by
  unfold State.pulseCount
  repeat' first | (intro x; clear_value x) | lift_lets -underBinder | with_reducible (first | assumption | apply State.setPipe_mem)

theorem State.pulseRise_mem (s : State) (n i st : Nat) (hM : s.memoryWf = true) :
    (State.pulseRise s n i st).memoryWf = true := by
  unfold State.pulseRise
  repeat' first | (intro x; clear_value x) | (with_reducible intro _) | lift_lets -underBinder | with_reducible (first | assumption | apply State.lineChange_mem | (fail_if_no_progress refine memMk rfl rfl rfl rfl ?_) | (refine memOk (by assumption) ?_)) | split

theorem State.selectFrame_mem (s : State) (n i : Nat) (live : Bool) (r : Rule) (first : Nat) (stamps : List Nat) (hM : s.memoryWf = true) :
    (State.selectFrame s n i live r first stamps).memoryWf = true := by
  unfold State.selectFrame
  repeat' first | (intro x; refine memCut x ?_ fun _ => ?_; (on_goal 1 => subst x); (on_goal 2 => clear_value x)) | (intro x; clear_value x) | (with_reducible intro _) | lift_lets -underBinder | with_reducible (first | assumption | apply State.setPipe_mem | apply State.pulseCount_mem | apply State.pulseRise_mem | apply memIte | apply memFoldl)

theorem execPulseSelectFrame_mem (t : Nat) (n : Fin 64) (input : Fin 256) (s : State) (hM : s.memoryWf = true) :
    OutMem (execPulseSelectFrame t n input s) := by
  unfold execPulseSelectFrame
  repeat' first | (intro x; refine memCut x ?_ fun _ => ?_; (on_goal 1 => subst x); (on_goal 2 => clear_value x)) | (intro x; clear_value x) | (with_reducible intro _) | lift_lets -underBinder | with_reducible (first | assumption | apply State.advance_mem | apply State.pulseAdopt_mem | apply State.selectFrame_mem | apply State.tookFrame_mem | apply State.nextFrame_mem | apply State.drained_mem | apply memIte | apply outNext | (fail_if_no_progress refine memMk rfl rfl rfl rfl ?_) | (refine memOk (by assumption) ?_)) | split

theorem State.blockOut_mem (s : State) (n i st a : Nat) (b : Block) (hM : s.memoryWf = true) :
    (State.blockOut s n i st a b).memoryWf = true := by
  unfold State.blockOut
  repeat' first | (intro x; refine memCut x ?_ fun _ => ?_; (on_goal 1 => subst x); (on_goal 2 => clear_value x)) | (intro x; clear_value x) | lift_lets -underBinder | with_reducible (first | assumption | apply State.pulseCount_mem | apply State.mapFeed_mem | apply memIte)

theorem State.measureFrame_mem (s : State) (n i : Nat) (o : Nat × Nat) (as : List Nat) (hM : s.memoryWf = true) :
    (State.measureFrame s n i o as).memoryWf = true := by
  unfold State.measureFrame
  repeat' first | (intro x; refine memCut x ?_ fun _ => ?_; (on_goal 1 => subst x); (on_goal 2 => clear_value x)) | (intro x; clear_value x) | (with_reducible intro _) | lift_lets -underBinder | with_reducible (first | assumption | apply State.blockOut_mem | apply State.taken_mem | apply State.queueRecord_mem | apply memIte | apply memFoldl | (fail_if_no_progress refine memMk rfl rfl rfl rfl ?_) | (refine memOk (by assumption) ?_)) | split

theorem State.measureNext_mem (s : State) (n i first : Nat) (o : Nat × Nat) (hM : s.memoryWf = true) :
    (State.measureNext s n i first o).memoryWf = true := by
  unfold State.measureNext
  repeat' first | (intro x; refine memCut x ?_ fun _ => ?_; (on_goal 1 => subst x); (on_goal 2 => clear_value x)) | (intro x; clear_value x) | (with_reducible intro _) | lift_lets -underBinder | with_reducible (first | assumption | apply State.setPipe_mem | apply State.drained_mem | apply memIte)

theorem execPulseMeasureFrame_mem (t : Nat) (n : Fin 64) (input : Fin 256) (s : State) (hM : s.memoryWf = true) :
    OutMem (execPulseMeasureFrame t n input s) := by
  unfold execPulseMeasureFrame
  repeat' first | (intro x; refine memCut x ?_ fun _ => ?_; (on_goal 1 => subst x); (on_goal 2 => clear_value x)) | (intro x; clear_value x) | lift_lets -underBinder | with_reducible (first | assumption | apply State.advance_mem | apply State.measureFrame_mem | apply State.measureNext_mem | apply memIte | apply outNext | (fail_if_no_progress refine memMk rfl rfl rfl rfl ?_) | (refine memOk (by assumption) ?_)) | split

theorem pulseClearCounters_mem (n : Nat) (s : State) (hM : s.memoryWf = true) :
    OkMem (pulseClearCounters n s) := by
  unfold pulseClearCounters
  repeat' first | (intro x; clear_value x) | (with_reducible intro _) | lift_lets -underBinder | with_reducible (first | assumption | apply State.setPipe_mem | apply okIte | apply memIte | apply okOk | apply okErr)

theorem execPulseClearCounters_mem (t : Nat) (n : Nat) (s : State) (hM : s.memoryWf = true) :
    OutMem (execPulseClearCounters t n s) := by
  unfold execPulseClearCounters
  repeat' first | with_reducible (first | assumption | apply State.serve_mem | apply pulseClearCounters_mem | apply outNext)

theorem State.mapTick_mem (s : State) (k T : Nat) (hM : s.memoryWf = true) :
    (State.mapTick s k T).memoryWf = true := by
  unfold State.mapTick
  repeat' first | (intro x; refine memCut x ?_ fun _ => ?_; (on_goal 1 => subst x); (on_goal 2 => clear_value x)) | (intro x; refine funCut x ?_; subst x) | (intro x; clear_value x) | (with_reducible intro _) | lift_lets -underBinder | with_reducible (first | assumption | apply State.mapFlush_mem | apply State.wr_mem | apply State.copyShadow_mem | apply State.setMap_mem | apply State.wrs_mem | apply State.sweep_mem | apply memIte)

theorem execSweepTick_mem (t : Nat) (map : Fin 4) (s : State) (hM : s.memoryWf = true) :
    OutMem (execSweepTick t map s) := by
  unfold execSweepTick
  repeat' first | (intro x; refine memCut x ?_ fun _ => ?_; (on_goal 1 => subst x); (on_goal 2 => clear_value x)) | (intro x; clear_value x) | lift_lets -underBinder | with_reducible (first | assumption | apply State.advance_mem | apply State.mapTick_mem | apply memIte | apply outNext | (fail_if_no_progress refine memMk rfl rfl rfl rfl ?_) | (refine memOk (by assumption) ?_)) | split

theorem State.setRepChan_mem (s : State) (n k : Nat) (x : ReplayChan) (hM : s.memoryWf = true) :
    (State.setRepChan s n k x).memoryWf = true := by
  unfold State.setRepChan
  repeat' first | (intro x; clear_value x) | lift_lets -underBinder | with_reducible (first | assumption | apply State.setPipe_mem)

theorem State.takeRecord_mem (s : State) (n : Nat) (b : Bytes) (hM : s.memoryWf = true) :
    (State.takeRecord s n b).memoryWf = true := by
  unfold State.takeRecord
  repeat' first | (intro x; refine funCut x ?_; subst x) | (intro x; clear_value x) | (with_reducible intro _) | lift_lets -underBinder | with_reducible (first | assumption | apply State.setRepChan_mem | apply memIte)

theorem State.readRing_mem (s : State) (n m : Nat) (fuel : Nat) (hM : s.memoryWf = true) :
    (State.readRing s n m fuel).memoryWf = true := by
  induction fuel generalizing s n m with
  | zero => unfold State.readRing; exact hM
  | succ fuel ih =>
    unfold State.readRing
    repeat' first | (with_reducible intro _) | lift_lets -underBinder | with_reducible (first | assumption | apply ih | apply State.freeze_mem | apply State.takeRecord_mem | apply State.consumerTake_mem | apply memIte | (fail_if_no_progress refine memMk rfl rfl rfl rfl ?_) | (refine memOk (by assumption) ?_)) | split

theorem State.feedBlock_mem (s : State) (n k : Nat) (hM : s.memoryWf = true) :
    (State.feedBlock s n k).memoryWf = true := by
  unfold State.feedBlock
  repeat' first | (intro x; clear_value x) | (with_reducible intro _) | lift_lets -underBinder | with_reducible (first | assumption | apply State.setRepChan_mem | apply State.setChan_mem | apply memIte)

theorem State.replayRead_mem (s : State) (n : Nat) (source : Bytes) (hM : s.memoryWf = true) :
    (State.replayRead s n source).memoryWf = true := by
  unfold State.replayRead
  repeat' first | (intro x; clear_value x) | (with_reducible intro _) | lift_lets -underBinder | with_reducible (first | assumption | apply State.readRing_mem | apply State.takeRecord_mem | apply memIte)

theorem State.sourceFill_mem (s0 : State) (n : Nat) (hM : s0.memoryWf = true) :
    (State.sourceFill s0 n).memoryWf = true := by
  unfold State.sourceFill
  repeat' first | (intro x; refine memCut x ?_ fun _ => ?_; (on_goal 1 => subst x); (on_goal 2 => clear_value x)) | (intro x; clear_value x) | (with_reducible intro _) | lift_lets -underBinder | with_reducible (first | assumption | apply State.setPipe_mem | apply State.setRepChan_mem | apply memIte | apply memFoldl | (fail_if_no_progress refine memMk rfl rfl rfl rfl ?_) | (refine memOk (by assumption) ?_)) | split

theorem execReplayFeed_mem (t : Nat) (n : Fin 64) (source : List (BitVec 8)) (s : State) (hM : s.memoryWf = true) :
    OutMem (execReplayFeed t n source s) := by
  unfold execReplayFeed
  repeat' first | (intro x; refine memCut x ?_ fun _ => ?_; (on_goal 1 => subst x); (on_goal 2 => clear_value x)) | lift_lets -underBinder | with_reducible (first | assumption | apply State.advance_mem | apply State.replayRead_mem | apply State.sourceFill_mem | apply State.feedBlock_mem | apply memIte | apply outNext | (fail_if_no_progress refine memMk rfl rfl rfl rfl ?_) | (refine memOk (by assumption) ?_)) | split

theorem State.chainFlush_mem (s : State) (n : Nat) (hM : s.memoryWf = true) :
    (State.chainFlush s n).memoryWf = true := by
  unfold State.chainFlush
  repeat' first | with_reducible (first | assumption | apply State.spectrumBoundary_mem | apply State.sieveBoundary_mem | apply State.lookFlush_mem | apply memIte)

theorem execReplayEnd_mem (t : Nat) (n : Fin 64) (s : State) (hM : s.memoryWf = true) :
    OutMem (execReplayEnd t n s) := by
  unfold execReplayEnd
  repeat' first | (intro x; refine memCut x ?_ fun _ => ?_; (on_goal 1 => subst x); (on_goal 2 => clear_value x)) | (intro x; clear_value x) | lift_lets -underBinder | with_reducible (first | assumption | apply State.advance_mem | apply State.sourceFill_mem | apply State.chainFlush_mem | apply State.setPipe_mem | apply State.taken_mem | apply State.beginWithdraw_mem | apply memIte | apply outNext)

end Sys2Proof.Machine
end

