-- ==== Sys2Proof/Laws/KeepContracts.lean ====
section
/-! SUPPORT. The definitions of these files of Machine keep the canonical form of the memories: Storage, Verify, Place, Admission, Contracts, Sluice. -/

namespace Sys2Proof.Machine

open Sys2Proof

theorem qualify_mem (k : Nat) (s : State) (hM : s.memoryWf = true) :
    OkMem (qualify k s) := by
  unfold qualify
  repeat' first | (intro x; refine memCut x ?_ fun _ => ?_; (on_goal 1 => subst x); (on_goal 2 => clear_value x)) | (intro x; clear_value x) | (with_reducible intro _) | lift_lets -underBinder | with_reducible (first | assumption | apply State.setDrive_mem | apply State.setDriveState_mem | apply okIte | apply memIte | apply okOk | apply okErr)

theorem execQualify_mem (t : Nat) (port : Fin 6) (s : State) (hM : s.memoryWf = true) :
    OutMem (execQualify t port s) := by
  unfold execQualify
  repeat' first | with_reducible (first | assumption | apply State.serve_mem | apply qualify_mem | apply outNext)

theorem execQualifyComplete_mem (t : Nat) (port : Fin 6) (mWrite mRead : Nat) (s : State) (hM : s.memoryWf = true) :
    OutMem (execQualifyComplete t port mWrite mRead s) := by
  unfold execQualifyComplete
  repeat' first | (intro x; refine memCut x ?_ fun _ => ?_; (on_goal 1 => subst x); (on_goal 2 => clear_value x)) | (intro x; clear_value x) | lift_lets -underBinder | with_reducible (first | assumption | apply State.advance_mem | apply State.wrs_mem | apply State.setDrive_mem | apply State.issue_mem | apply State.setDriveState_mem | apply State.freeUnits_mem | apply memIte | apply outNext)

theorem State.formPort_mem (mask setId : Nat) (s : State) (k : Nat) (hM : s.memoryWf = true) :
    (State.formPort mask setId s k).memoryWf = true := by
  unfold State.formPort
  repeat' first | (intro x; clear_value x) | (with_reducible intro _) | lift_lets -underBinder | with_reducible (first | assumption | apply State.wr_mem | apply State.setDrive_mem | apply State.emit_mem | apply State.issue_mem | apply State.issueAll_mem | apply State.setDriveState_mem | apply memIte)

theorem formSet_mem (mask : Nat) (s : State) (hM : s.memoryWf = true) :
    OkMem (formSet mask s) := by
  unfold formSet
  repeat' first | (intro x; (first | refine memCut x ?_ fun _ => ?_ | refine okCut x ?_ fun _ => ?_ | refine someCut x ?_ fun _ => ?_ | refine pairCut x ?_ fun _ => ?_ | refine pairCut2 x ?_ fun _ => ?_); (on_goal 1 => subst x); (on_goal 2 => clear_value x)) | (intro x; clear_value x) | (with_reducible intro _) | lift_lets -underBinder | with_reducible (first | assumption | apply State.free_mem | apply State.wrs_mem | apply State.formPort_mem | apply State.freeUnits_mem | apply okIte | apply memIte | apply memFoldl | apply memFoldl1 | apply memFoldl2 | apply okOk | apply okErr | apply memElim | (fail_if_no_progress refine memMk rfl rfl rfl rfl ?_))

theorem execFormSet_mem (t mask : Nat) (s : State) (hM : s.memoryWf = true) :
    OutMem (execFormSet t mask s) := by
  unfold execFormSet
  repeat' first | with_reducible (first | assumption | apply State.serve_mem | apply formSet_mem | apply outNext)

theorem State.deallocate_mem (e : DirEntry) (s : State) (k : Nat) (hM : s.memoryWf = true) :
    (State.deallocate e s k).memoryWf = true := by
  unfold State.deallocate
  repeat' first | (intro x; clear_value x) | lift_lets -underBinder | with_reducible (first | assumption | apply State.issue_mem | apply memIte)

theorem deleteRecording_mem (num : Nat) (s : State) (hM : s.memoryWf = true) :
    OkMem (deleteRecording num s) := by
  unfold deleteRecording
  repeat' first | (intro x; refine memCut x ?_ fun _ => ?_; (on_goal 1 => subst x); (on_goal 2 => clear_value x)) | (with_reducible intro _) | lift_lets -underBinder | with_reducible (first | assumption | apply State.modEntry_mem | apply State.deallocate_mem | apply State.writeEntry_mem | apply State.freeUnits_mem | apply okIte | apply memIte | apply memFoldl | apply okOk | apply okErr | (fail_if_no_progress refine memMk rfl rfl rfl rfl ?_) | (refine memOk (by assumption) ?_)) | split

theorem execDeleteRecording_mem (t number : Nat) (s : State) (hM : s.memoryWf = true) :
    OutMem (execDeleteRecording t number s) := by
  unfold execDeleteRecording
  repeat' first | with_reducible (first | assumption | apply State.serve_mem | apply deleteRecording_mem | apply outNext)

theorem State.drivesFollow_mem (s : State) (hM : s.memoryWf = true) :
    (State.drivesFollow s).memoryWf = true := by
  unfold State.drivesFollow
  repeat' first | (with_reducible intro _) | with_reducible (first | assumption | apply State.assumeIs_mem)

theorem reinstate_mem (k : Nat) (ok : Bool) (s : State) (hM : s.memoryWf = true) :
    OkMem (reinstate k ok s) := by
  unfold reinstate
  repeat' first | (intro x; refine memCut x ?_ fun _ => ?_; (on_goal 1 => subst x); (on_goal 2 => clear_value x)) | (intro x; clear_value x) | (with_reducible intro _) | lift_lets -underBinder | with_reducible (first | assumption | apply State.setDrive_mem | apply State.emit_mem | apply State.wr_mem | apply State.setDriveState_mem | apply State.drivesFollow_mem | apply okIte | apply memIte | apply okOk | apply okErr)

theorem execReinstate_mem (t : Nat) (port : Fin 6) (labelOk : Bool) (s : State) (hM : s.memoryWf = true) :
    OutMem (execReinstate t port labelOk s) := by
  unfold execReinstate
  repeat' first | with_reducible (first | assumption | apply State.serve_mem | apply reinstate_mem | apply outNext)

theorem State.issueNext_mem (s : State) (k : Nat) (hM : s.memoryWf = true) :
    (State.issueNext s k).memoryWf = true := by
  unfold State.issueNext
  repeat' first | (intro x; clear_value x) | lift_lets -underBinder | with_reducible (first | assumption | apply State.setDrive_mem | apply State.issue_mem | apply memIte | (fail_if_no_progress refine memMk rfl rfl rfl rfl ?_) | (refine memOk (by assumption) ?_)) | split

theorem State.unitWritten_mem (s : State) (c : NCmd) (hM : s.memoryWf = true) :
    (State.unitWritten s c).memoryWf = true := by
  unfold State.unitWritten
  repeat' first | (intro x; clear_value x) | (with_reducible intro _) | lift_lets -underBinder | with_reducible (first | assumption | apply State.setRecording_mem | apply State.passUnits_mem | apply memIte | (fail_if_no_progress refine memMk rfl rfl rfl rfl ?_) | (refine memOk (by assumption) ?_)) | split

theorem execNvmeCompletion_mem (t : Nat) (port : Fin 6) (cid : Nat) (status : Fin 3) (data : List (BitVec 8)) (s : State) (hM : s.memoryWf = true) :
    OutMem (execNvmeCompletion t port cid status data s) := by
  unfold execNvmeCompletion
  repeat' first | (intro x; refine memCut x ?_ fun _ => ?_; (on_goal 1 => subst x); (on_goal 2 => clear_value x)) | (intro x; clear_value x) | lift_lets -underBinder | with_reducible (first | assumption | apply State.advance_mem | apply State.driveFail_mem | apply State.setDrive_mem | apply State.bumpBy_mem | apply State.setDom_mem | apply State.unitWritten_mem | apply State.issueNext_mem | apply State.bump_mem | apply State.issue_mem | apply memIte | apply outNext | (fail_if_no_progress refine memMk rfl rfl rfl rfl ?_) | (refine memOk (by assumption) ?_)) | split

theorem execNvmeCommandTimeout_mem (t : Nat) (port : Fin 6) (s : State) (hM : s.memoryWf = true) :
    OutMem (execNvmeCommandTimeout t port s) := by
  unfold execNvmeCommandTimeout
  repeat' first | (intro x; refine memCut x ?_ fun _ => ?_; (on_goal 1 => subst x); (on_goal 2 => clear_value x)) | lift_lets -underBinder | with_reducible (first | assumption | apply State.advance_mem | apply State.bump_mem | apply State.assume_mem | apply State.driveFail_mem | apply memIte | apply outNext)

theorem execDriveLinkLoss_mem (t : Nat) (port : Fin 6) (removed : Bool) (s : State) (hM : s.memoryWf = true) :
    OutMem (execDriveLinkLoss t port removed s) := by
  unfold execDriveLinkLoss
  repeat' first | (intro x; refine memCut x ?_ fun _ => ?_; (on_goal 1 => subst x); (on_goal 2 => clear_value x)) | lift_lets -underBinder | with_reducible (first | assumption | apply State.advance_mem | apply State.wr_mem | apply State.driveFail_mem | apply memIte | apply outNext)

theorem execUnitIdleTimeout_mem (t : Nat) (n : Fin 64) (s : State) (hM : s.memoryWf = true) :
    OutMem (execUnitIdleTimeout t n s) := by
  unfold execUnitIdleTimeout
  repeat' first | (intro x; refine memCut x ?_ fun _ => ?_; (on_goal 1 => subst x); (on_goal 2 => clear_value x)) | lift_lets -underBinder | with_reducible (first | assumption | apply State.advance_mem | apply State.closeUnit_mem | apply memIte | apply outNext | (fail_if_no_progress refine memMk rfl rfl rfl rfl ?_) | (refine memOk (by assumption) ?_)) | split

theorem execDirectoryUpdate_mem (t : Nat) (n : Fin 64) (s : State) (hM : s.memoryWf = true) :
    OutMem (execDirectoryUpdate t n s) := by
  unfold execDirectoryUpdate
  repeat' first | (intro x; refine memCut x ?_ fun _ => ?_; (on_goal 1 => subst x); (on_goal 2 => clear_value x)) | lift_lets -underBinder | with_reducible (first | assumption | apply State.advance_mem | apply State.entryFollow_mem | apply State.writeEntry_mem | apply outNext | (fail_if_no_progress refine memMk rfl rfl rfl rfl ?_) | (refine memOk (by assumption) ?_)) | split

theorem execHealthLogPoll_mem (t : Nat) (port : Fin 6) (s : State) (hM : s.memoryWf = true) :
    OutMem (execHealthLogPoll t port s) := by
  unfold execHealthLogPoll
  repeat' first | (intro x; refine memCut x ?_ fun _ => ?_; (on_goal 1 => subst x); (on_goal 2 => clear_value x)) | (intro x; clear_value x) | lift_lets -underBinder | with_reducible (first | assumption | apply State.advance_mem | apply State.issue_mem | apply memIte | apply outNext)

theorem State.adoptLabel_mem (s1 : State) (k pos mask setId : Nat) (es : List DirEntry) (hM : s1.memoryWf = true) :
    (State.adoptLabel s1 k pos mask setId es).memoryWf = true := by
  unfold State.adoptLabel
  repeat' first | (intro x; refine memCut x ?_ fun _ => ?_; (on_goal 1 => subst x); (on_goal 2 => clear_value x)) | (intro x; clear_value x) | (with_reducible intro _) | lift_lets -underBinder | with_reducible (first | assumption | apply State.wrs_mem | apply State.setDrive_mem | apply State.setDriveState_mem | apply State.freeUnits_mem | apply State.wr_mem | apply memIte | apply memFoldl | (fail_if_no_progress refine memMk rfl rfl rfl rfl ?_))

theorem execDriveAttach_mem (t : Nat) (port : Fin 6) (supported : Bool) (rate width capacity units : Nat) (name : List (BitVec 8))
    (label : Option (Nat × Nat × Nat)) (directory : List (BitVec 8)) (s : State) (hM : s.memoryWf = true) :
    OutMem (execDriveAttach t port supported rate width capacity units name label directory s) := by
  unfold execDriveAttach
  repeat' first | (intro x; refine memCut x ?_ fun _ => ?_; (on_goal 1 => subst x); (on_goal 2 => clear_value x)) | (intro x; clear_value x) | lift_lets -underBinder | with_reducible (first | assumption | apply State.advance_mem | apply State.setQuad_mem | apply State.wrs_mem | apply State.setDom_mem | apply State.setDrive_mem | apply State.emit_mem | apply State.setDriveState_mem | apply State.adoptLabel_mem | apply memIte | apply outNext | (fail_if_no_progress refine memMk rfl rfl rfl rfl ?_) | (refine memOk (by assumption) ?_)) | split

theorem storageEnable_mem (k : Nat) (v : Bool) (s : State) (hM : s.memoryWf = true) :
    OkMem (storageEnable k v s) := by
  unfold storageEnable
  repeat' first | (intro x; refine memCut x ?_ fun _ => ?_; (on_goal 1 => subst x); (on_goal 2 => clear_value x)) | (intro x; clear_value x) | (with_reducible intro _) | lift_lets -underBinder | with_reducible (first | assumption | apply State.wr_mem | apply State.emit_mem | apply State.setDrive_mem | apply State.setDriveState_mem | apply State.drivesFollow_mem | apply okIte | apply memIte | apply okOk | apply okErr)

theorem State.verifyPair_mem (s : State) (i j last : Nat) (hM : s.memoryWf = true) :
    (State.verifyPair s i j last).2.memoryWf = true := by
  unfold State.verifyPair
  repeat' first | (intro x; clear_value x) | lift_lets -underBinder | with_reducible (first | assumption | apply State.wr_mem | apply State.wrs_mem | apply memIte | apply memIte1 | apply memIte2)

theorem State.makeWay_mem (s : State) (l : List PlRegion) (hM : s.memoryWf = true) :
    (State.makeWay s l).memoryWf = true := by
  unfold State.makeWay
  repeat' first | (intro x; refine memCut x ?_ fun _ => ?_; (on_goal 1 => subst x); (on_goal 2 => clear_value x)) | (intro x; clear_value x) | (with_reducible intro _) | lift_lets -underBinder | with_reducible (first | assumption | apply State.modSlot_mem | apply State.setMap_mem | apply State.sliceTable_mem | apply memFoldl)

theorem State.withSources_mem (s : State) (n : Nat) (p : Plan) (trigger : Nat) (hM : s.memoryWf = true) :
    (State.withSources s n p trigger).memoryWf = true := by
  unfold State.withSources
  repeat' first | (with_reducible intro _) | with_reducible (first | assumption | apply State.setSource_mem | apply memFoldl)

theorem State.noteRefusal_mem (s : State) (n : Nat) (r : Refusal4x) (hM : s.memoryWf = true) :
    (State.noteRefusal s n r).memoryWf = true := by
  unfold State.noteRefusal
  repeat' first | with_reducible (first | assumption | apply State.wrs_mem)

theorem State.loadEngines_mem (s : State) (n : Nat) (l : List Placed) (hM : s.memoryWf = true) :
    (State.loadEngines s n l).memoryWf = true := by
  unfold State.loadEngines
  repeat' first | (with_reducible intro _) | with_reducible (first | assumption | apply State.placeImage_mem | apply memFoldl)

theorem State.joinPolder_mem (s : State) (a : Ask) (shares : List (Nat × PlShare)) (drains : List Drain) (hM : s.memoryWf = true) :
    (State.joinPolder s a shares drains).memoryWf = true := by
  unfold State.joinPolder
  repeat' first | (intro x; refine memCut x ?_ fun _ => ?_; (on_goal 1 => subst x); (on_goal 2 => clear_value x)) | (intro x; clear_value x) | (with_reducible intro _) | lift_lets -underBinder | with_reducible (first | assumption | apply State.setChan_mem | apply memFoldl)

theorem State.bindUnits_mem (s : State) (n : Nat) (g : Grant) (hM : s.memoryWf = true) :
    (State.bindUnits s n g).memoryWf = true := by
  unfold State.bindUnits
  repeat' first | (intro x; refine memCut x ?_ fun _ => ?_; (on_goal 1 => subst x); (on_goal 2 => clear_value x)) | (intro x; clear_value x) | (with_reducible intro _) | lift_lets -underBinder | with_reducible (first | assumption | apply State.weirBind_mem | apply State.mapBind_mem | apply memIte | apply memFoldl)

theorem State.openRing_mem (s : State) (n : Nat) (g : Grant) (hM : s.memoryWf = true) :
    (State.openRing s n g).memoryWf = true := by
  unfold State.openRing
  repeat' first | (intro x; refine funCut x ?_; subst x) | (intro x; clear_value x) | (with_reducible intro _) | lift_lets -underBinder | with_reducible (first | assumption | apply State.setRing_mem | apply State.wrs_mem | apply State.recount_mem)

theorem State.openStream_mem (s : State) (n : Nat) (g : Grant) (hM : s.memoryWf = true) :
    (State.openStream s n g).memoryWf = true := by
  unfold State.openStream
  repeat' first | (intro x; clear_value x) | lift_lets -underBinder | with_reducible (first | assumption | apply State.setStream_mem | apply State.wrs_mem | apply memIte)

theorem State.openChannels_mem (s : State) (n : Nat) (g : Grant) (chans : List Nat) (hM : s.memoryWf = true) :
    (State.openChannels s n g chans).memoryWf = true := by
  unfold State.openChannels
  repeat' first | (with_reducible intro _) | with_reducible (first | assumption | apply State.bindChannel_mem | apply memFoldl)

theorem State.openReplay_mem (s : State) (n : Nat) (drive : List (Nat × Nat × Bool)) (hM : s.memoryWf = true) :
    (State.openReplay s n drive).memoryWf = true := by
  unfold State.openReplay
  repeat' first | (intro x; refine memCut x ?_ fun _ => ?_; (on_goal 1 => subst x); (on_goal 2 => clear_value x)) | (intro x; clear_value x) | (with_reducible intro _) | lift_lets -underBinder | with_reducible (first | assumption | apply State.setRepChan_mem | apply State.setRing_mem | apply memIte | apply memFoldl)

theorem State.noteRoutes_mem (s : State) (a : Ask) (g : Grant) (hM : s.memoryWf = true) :
    (State.noteRoutes s a g).memoryWf = true := by
  unfold State.noteRoutes
  repeat' first | with_reducible (first | assumption | apply State.setDom_mem | apply memIte)

theorem State.writeContract_mem (s : State) (a : Ask) (g : Grant) (gap : Bool) (at' warm : Nat) (hM : s.memoryWf = true) :
    (State.writeContract s a g gap at' warm).memoryWf = true := by
  unfold State.writeContract
  repeat' first | (intro x; clear_value x) | (with_reducible intro _) | lift_lets -underBinder | with_reducible (first | assumption | apply State.wrs_mem)

theorem State.install_mem (s : State) (a : Ask) (g : Grant) (gap : Bool) (hM : s.memoryWf = true) :
    (State.install s a g gap).memoryWf = true := by
  unfold State.install
  repeat' first | (intro x; refine memCut x ?_ fun _ => ?_; (on_goal 1 => subst x); (on_goal 2 => clear_value x)) | (intro x; clear_value x) | (with_reducible intro _) | lift_lets -underBinder | with_reducible (first | assumption | apply State.setPipe_mem | apply State.writeContract_mem | apply State.taken_mem | apply State.setSlot_mem | apply State.modSlot_mem | apply State.withSources_mem | apply State.openStream_mem | apply State.openChannels_mem | apply State.openRing_mem | apply State.storeOpen_mem | apply State.makeWay_mem | apply State.bindUnits_mem | apply State.loadEngines_mem | apply State.joinPolder_mem | apply State.openReplay_mem | apply State.noteRoutes_mem | apply State.wrs_mem | apply State.verifyPair_mem | apply State.refreshFabric_mem | apply State.recharge_mem | apply memIte | apply memFoldl | (fail_if_no_progress refine memMk rfl rfl rfl rfl ?_) | (refine memOk (by assumption) ?_)) | split

theorem State.refuse_mem (s : State) (n : Nat) (r : Refusal4x) (hM : s.memoryWf = true) :
    (State.refuse s n r).memoryWf = true := by
  unfold State.refuse
  repeat' first | (with_reducible intro _) | lift_lets -underBinder | with_reducible (first | assumption | apply State.noteRefusal_mem | apply State.modSlot_mem)

theorem admitAction_mem (n : Nat) (drive : List (Nat × Nat × Bool)) (s : State) (hM : s.memoryWf = true) :
    OkMem (admitAction n drive s) := by
  unfold admitAction
  repeat' first | (with_reducible intro _) | lift_lets -underBinder | with_reducible (first | assumption | apply State.refuse_mem | apply State.install_mem | apply okIte | apply memIte | apply okOk | apply okErr | (fail_if_no_progress refine memMk rfl rfl rfl rfl ?_) | (refine memOk (by assumption) ?_)) | split

theorem execAdmitSlot_mem (t : Nat) (n : Fin 64) (drive : List (Nat × Nat × Bool)) (s : State) (hM : s.memoryWf = true) :
    OutMem (execAdmitSlot t n drive s) := by
  unfold execAdmitSlot
  repeat' first | with_reducible (first | assumption | apply State.serve_mem | apply admitAction_mem | apply outNext)

theorem checkAction_mem (n : Nat) (drive : List (Nat × Nat × Bool)) (s : State) (hM : s.memoryWf = true) :
    OkMem (checkAction n drive s) := by
  unfold checkAction
  repeat' first | (intro x; refine memCut x ?_ fun _ => ?_; (on_goal 1 => subst x); (on_goal 2 => clear_value x)) | (intro x; clear_value x) | (with_reducible intro _) | lift_lets -underBinder | with_reducible (first | assumption | apply State.noteRefusal_mem | apply State.wr_mem | apply okIte | apply memIte | apply okOk | apply okErr | (fail_if_no_progress refine memMk rfl rfl rfl rfl ?_) | (refine memOk (by assumption) ?_)) | split

theorem execCheck_mem (t n : Nat) (drive : List (Nat × Nat × Bool)) (s : State) (hM : s.memoryWf = true) :
    OutMem (execCheck t n drive s) := by
  unfold execCheck
  repeat' first | with_reducible (first | assumption | apply State.serve_mem | apply checkAction_mem | apply outNext)

theorem State.endAccumulations_mem (s : State) (n : Nat) (hM : s.memoryWf = true) :
    (State.endAccumulations s n).memoryWf = true := by
  unfold State.endAccumulations
  repeat' first | with_reducible (first | assumption | apply State.chainFlush_mem | apply memIte)

theorem State.flushRecords_mem (s : State) (n : Nat) (hM : s.memoryWf = true) :
    (State.flushRecords s n).memoryWf = true := by
  unfold State.flushRecords
  repeat' first | (intro x; refine memCut x ?_ fun _ => ?_; (on_goal 1 => subst x); (on_goal 2 => clear_value x)) | (intro x; clear_value x) | (with_reducible intro _) | lift_lets -underBinder | with_reducible (first | assumption | apply State.setPipe_mem | apply State.completeRecord_mem | apply State.captureEnd_mem | apply memIte | apply memFoldl)

theorem withdrawAction_mem (n : Nat) (s : State) (hM : s.memoryWf = true) :
    OkMem (withdrawAction n s) := by
  unfold withdrawAction
  repeat' first | (intro x; refine memCut x ?_ fun _ => ?_; (on_goal 1 => subst x); (on_goal 2 => clear_value x)) | (intro x; clear_value x) | (with_reducible intro _) | lift_lets -underBinder | with_reducible (first | assumption | apply State.beginWithdraw_mem | apply State.endSuccessor_mem | apply okIte | apply memIte | apply okOk | apply okErr)

theorem execWithdraw_mem (t : Nat) (n : Fin 64) (s : State) (hM : s.memoryWf = true) :
    OutMem (execWithdraw t n s) := by
  unfold execWithdraw
  repeat' first | with_reducible (first | assumption | apply State.serve_mem | apply withdrawAction_mem | apply outNext)

theorem State.unbindUnits_mem (s : State) (n T : Nat) (hM : s.memoryWf = true) :
    (State.unbindUnits s n T).memoryWf = true := by
  unfold State.unbindUnits
  repeat' first | (with_reducible intro _) | with_reducible (first | assumption | apply State.mapFlush_mem | apply State.unbind_mem | apply memFoldl)

theorem State.closeOutputs_mem (s : State) (n : Nat) (h : s.memoryWf = true) : (s.closeOutputs n).memoryWf = true := by
  refine memFoldl (fun u c hu => State.unbindChannel_mem _ _ hu) ?_
  have h1 : (match s.streamRingOf n with
      | some r => (s.streamDetach r n 1).wrs [(Ob.ringOwner r, 0xFF), (Ob.ringChargedRate r, 0)]
      | none => s).memoryWf = true := by
    split
    · exact State.wrs_mem _ _ (State.streamDetach_mem _ _ _ _ h)
    · exact h
  exact memElim h1 fun _ => State.storeClose_mem _ _ h1

theorem State.lastOutputs_mem (s : State) (n T : Nat) (hM : s.memoryWf = true) :
    (State.lastOutputs s n T).memoryWf = true := by
  unfold State.lastOutputs
  repeat' first | (intro x; refine memCut x ?_ fun _ => ?_; (on_goal 1 => subst x); (on_goal 2 => clear_value x)) | (intro x; clear_value x) | (with_reducible intro _) | lift_lets -underBinder | with_reducible (first | assumption | apply State.chainFlush_mem | apply State.flushRecords_mem | apply State.marker_mem | apply State.modSlot_mem | (fail_if_no_progress refine memMk rfl rfl rfl rfl ?_) | (refine memOk (by assumption) ?_)) | split

theorem State.endSlot_mem (s : State) (n T : Nat) (hM : s.memoryWf = true) :
    (State.endSlot s n T).memoryWf = true := by
  unfold State.endSlot
  repeat' first | (intro x; refine memCut x ?_ fun _ => ?_; (on_goal 1 => subst x); (on_goal 2 => clear_value x)) | (intro x; clear_value x) | (with_reducible intro _) | lift_lets -underBinder | with_reducible (first | assumption | apply State.endLines_mem | apply State.unbindUnits_mem | apply State.closeOutputs_mem | apply State.closeReplay_mem | apply State.clearRoutes_mem | apply State.endRing_mem | apply State.zeroRegions_mem | apply State.dropMigrations_mem | apply State.endContract_mem | apply State.refreshFabric_mem | apply State.markFault_mem | apply State.bump_mem | apply State.wr_mem | apply State.faultLog_mem | apply State.emcy_mem | apply State.msix_mem | (fail_if_no_progress refine memMk rfl rfl rfl rfl ?_) | (refine memOk (by assumption) ?_)) | split

theorem State.withdrawn_mem (s : State) (n T : Nat) (hM : s.memoryWf = true) :
    (State.withdrawn s n T).memoryWf = true := by
  unfold State.withdrawn
  repeat' first | (intro x; refine memCut x ?_ fun _ => ?_; (on_goal 1 => subst x); (on_goal 2 => clear_value x)) | lift_lets -underBinder | with_reducible (first | assumption | apply State.lastOutputs_mem | apply State.endSlot_mem | apply memIte)

theorem execWithdrawalComplete_mem (t : Nat) (n : Fin 64) (s : State) (hM : s.memoryWf = true) :
    OutMem (execWithdrawalComplete t n s) := by
  unfold execWithdrawalComplete
  repeat' first | (intro x; refine memCut x ?_ fun _ => ?_; (on_goal 1 => subst x); (on_goal 2 => clear_value x)) | lift_lets -underBinder | with_reducible (first | assumption | apply State.advance_mem | apply State.withdrawn_mem | apply memIte | apply outNext | (fail_if_no_progress refine memMk rfl rfl rfl rfl ?_) | (refine memOk (by assumption) ?_)) | split

theorem State.applyStaged_mem (s : State) (n : Nat) (hM : s.memoryWf = true) :
    (State.applyStaged s n).memoryWf = true := by
  unfold State.applyStaged
  repeat' first | (intro x; refine memCut x ?_ fun _ => ?_; (on_goal 1 => subst x); (on_goal 2 => clear_value x)) | (intro x; refine funCut x ?_; subst x) | (intro x; clear_value x) | (with_reducible intro _) | lift_lets -underBinder | with_reducible (first | assumption | apply State.patApply_mem | apply State.wr_mem | apply State.setDom_mem | apply memFoldl | (fail_if_no_progress refine memMk rfl rfl rfl rfl ?_) | (refine memOk (by assumption) ?_)) | split

theorem State.armCommit_mem (s : State) (n T group : Nat) (await : Bool) (hM : s.memoryWf = true) :
    (State.armCommit s n T group await).memoryWf = true := by
  unfold State.armCommit
  repeat' first | (with_reducible intro _) | lift_lets -underBinder | with_reducible (first | assumption | apply State.modSlot_mem | apply State.wrs_mem)

theorem State.commitResult_mem (s : State) (n : Nat) (r : Except Refusal4x (Nat × Nat)) (hM : s.memoryWf = true) :
    (State.commitResult s n r).memoryWf = true := by
  unfold State.commitResult
  repeat' first | lift_lets -underBinder | with_reducible (first | assumption | apply State.noteRefusal_mem | apply State.wr_mem | (fail_if_no_progress refine memMk rfl rfl rfl rfl ?_) | (refine memOk (by assumption) ?_)) | split

theorem State.memberFails_mem (s : State) (n : Nat) (r : Except Refusal4x (Nat × Nat)) (hM : s.memoryWf = true) :
    (State.memberFails s n r).memoryWf = true := by
  unfold State.memberFails
  repeat' first | lift_lets -underBinder | with_reducible (first | assumption | apply State.commitResult_mem | apply State.wrs_mem | (fail_if_no_progress refine memMk rfl rfl rfl rfl ?_) | (refine memOk (by assumption) ?_)) | split

theorem commitAction_mem (n tc : Nat) (s : State) (hM : s.memoryWf = true) :
    OkMem (commitAction n tc s) := by
  unfold commitAction
  repeat' first | (intro x; refine memCut x ?_ fun _ => ?_; (on_goal 1 => subst x); (on_goal 2 => clear_value x)) | (intro x; clear_value x) | (with_reducible intro _) | lift_lets -underBinder | with_reducible (first | assumption | apply State.taken_mem | apply State.armCommit_mem | apply State.wr_mem | apply State.commitResult_mem | apply okIte | apply memIte | apply okOk | apply okErr | (fail_if_no_progress refine memMk rfl rfl rfl rfl ?_) | (refine memOk (by assumption) ?_)) | split

theorem execCommit_mem (t : Nat) (n : Fin 64) (tc : Nat) (s : State) (hM : s.memoryWf = true) :
    OutMem (execCommit t n tc s) := by
  unfold execCommit
  repeat' first | with_reducible (first | assumption | apply State.serve_mem | apply commitAction_mem | apply outNext)

theorem cancelAction_mem (n : Nat) (s : State) (hM : s.memoryWf = true) :
    OkMem (cancelAction n s) := by
  unfold cancelAction
  repeat' first | (with_reducible intro _) | with_reducible (first | assumption | apply State.endSuccessor_mem | apply State.cancelCommit_mem | apply okIte | apply memIte | apply okOk | apply okErr)

theorem execCancel_mem (t : Nat) (n : Fin 64) (s : State) (hM : s.memoryWf = true) :
    OutMem (execCancel t n s) := by
  unfold execCancel
  repeat' first | with_reducible (first | assumption | apply State.serve_mem | apply cancelAction_mem | apply outNext)

theorem State.askMembers_mem (s1 : State) (T slots : Nat) (far : List (Nat × Nat)) (hM : s1.memoryWf = true) :
    (State.askMembers s1 T slots far).memoryWf = true := by
  unfold State.askMembers
  repeat' first | (intro x; refine memCut x ?_ fun _ => ?_; (on_goal 1 => subst x); (on_goal 2 => clear_value x)) | (intro x; clear_value x) | (with_reducible intro _) | lift_lets -underBinder | with_reducible (first | assumption | apply State.emit_mem | apply State.sendTo_mem | apply memFoldl | (fail_if_no_progress refine memMk rfl rfl rfl rfl ?_))

theorem groupAction_mem (tc slots : Nat) (others : List (Nat × Nat)) (s : State) (hM : s.memoryWf = true) :
    OkMem (groupAction tc slots others s) := by
  unfold groupAction
  repeat' first | (intro x; refine memCut x ?_ fun _ => ?_; (on_goal 1 => subst x); (on_goal 2 => clear_value x)) | (intro x; clear_value x) | (with_reducible intro _) | lift_lets -underBinder | with_reducible (first | assumption | apply State.wr_mem | apply State.noteRefusal_mem | apply State.taken_mem | apply State.memberFails_mem | apply State.armCommit_mem | apply State.askMembers_mem | apply okIte | apply memIte | apply memFoldl | apply okOk | apply okErr | (fail_if_no_progress refine memMk rfl rfl rfl rfl ?_) | (refine memOk (by assumption) ?_)) | split

theorem execGroupCommit_mem (t tc slots : Nat) (others : List (Nat × Nat)) (s : State) (hM : s.memoryWf = true) :
    OutMem (execGroupCommit t tc slots others s) := by
  unfold execGroupCommit
  repeat' first | with_reducible (first | assumption | apply State.serve_mem | apply groupAction_mem | apply outNext)

theorem State.takeSluice_mem (s : State) (op : Nat) (hM : s.memoryWf = true) :
    (State.takeSluice s op).2.memoryWf = true := by
  unfold State.takeSluice
  repeat' first | (intro x; (first | refine memCut x ?_ fun _ => ?_ | refine okCut x ?_ fun _ => ?_ | refine someCut x ?_ fun _ => ?_ | refine pairCut x ?_ fun _ => ?_ | refine pairCut2 x ?_ fun _ => ?_); (on_goal 1 => subst x); (on_goal 2 => clear_value x)) | (intro x; clear_value x) | (with_reducible intro _) | lift_lets -underBinder | with_reducible (first | assumption | apply State.takeMsg_mem | apply State.noteSeq_mem | apply memIte | apply memIte1 | apply memIte2 | apply someIte | apply memElim | (fail_if_no_progress refine memMk rfl rfl rfl rfl ?_) | (refine memOk (by assumption) ?_) | (refine memPair (by assumption) ?_) | (refine memPair2 (by assumption) ?_) | (refine memSome (by assumption) ?_)) | split

theorem State.followArm_mem (s2 : State) (c T slots : Nat) (hM : s2.memoryWf = true) :
    (State.followArm s2 c T slots).memoryWf = true := by
  unfold State.followArm
  repeat' first | (intro x; refine memCut x ?_ fun _ => ?_; (on_goal 1 => subst x); (on_goal 2 => clear_value x)) | (intro x; clear_value x) | (with_reducible intro _) | lift_lets -underBinder | with_reducible (first | assumption | apply State.armCommit_mem | apply State.wr_mem | apply State.sendTo_mem | apply memFoldl | (fail_if_no_progress refine memMk rfl rfl rfl rfl ?_))

theorem execSluiceArm_mem (t slots : Nat) (s : State) (hM : s.memoryWf = true) :
    OutMem (execSluiceArm t slots s) := by
  unfold execSluiceArm
  repeat' first | (intro x; (first | refine memCut x ?_ fun _ => ?_ | refine okCut x ?_ fun _ => ?_ | refine someCut x ?_ fun _ => ?_ | refine pairCut x ?_ fun _ => ?_ | refine pairCut2 x ?_ fun _ => ?_); (on_goal 1 => subst x); (on_goal 2 => clear_value x)) | (intro x; clear_value x) | (with_reducible intro _) | lift_lets -underBinder | with_reducible (first | assumption | apply State.advance_mem | apply State.takeSluice_mem | apply State.taken_mem | apply State.memberFails_mem | apply State.sendTo_mem | apply State.followArm_mem | apply memIte | apply outNext | apply memElim | (fail_if_no_progress refine memMk rfl rfl rfl rfl ?_) | (refine memOk (by assumption) ?_) | (refine memPair (by assumption) ?_) | (refine memPair2 (by assumption) ?_) | (refine memSome (by assumption) ?_)) | split

theorem State.noteAnswer_mem (s : State) (w code : Nat) (hM : s.memoryWf = true) :
    (State.noteAnswer s w code).memoryWf = true := by
  unfold State.noteAnswer
  repeat' first | (intro x; clear_value x) | (with_reducible intro _) | lift_lets -underBinder | with_reducible (first | assumption | apply memIte | (fail_if_no_progress refine memMk rfl rfl rfl rfl ?_) | (refine memOk (by assumption) ?_)) | split

theorem execSluiceArmed_mem (t : Nat) (s : State) (hM : s.memoryWf = true) :
    OutMem (execSluiceArmed t s) := by
  unfold execSluiceArmed
  repeat' first | (intro x; (first | refine memCut x ?_ fun _ => ?_ | refine okCut x ?_ fun _ => ?_ | refine someCut x ?_ fun _ => ?_ | refine pairCut x ?_ fun _ => ?_ | refine pairCut2 x ?_ fun _ => ?_); (on_goal 1 => subst x); (on_goal 2 => clear_value x)) | (with_reducible intro _) | lift_lets -underBinder | with_reducible (first | assumption | apply State.advance_mem | apply State.takeSluice_mem | apply State.noteAnswer_mem | apply outNext | apply memElim | (fail_if_no_progress refine memMk rfl rfl rfl rfl ?_) | (refine memOk (by assumption) ?_) | (refine memPair (by assumption) ?_) | (refine memPair2 (by assumption) ?_) | (refine memSome (by assumption) ?_)) | split

theorem execSluiceRefused_mem (t : Nat) (s : State) (hM : s.memoryWf = true) :
    OutMem (execSluiceRefused t s) := by
  unfold execSluiceRefused
  repeat' first | (intro x; (first | refine memCut x ?_ fun _ => ?_ | refine okCut x ?_ fun _ => ?_ | refine someCut x ?_ fun _ => ?_ | refine pairCut x ?_ fun _ => ?_ | refine pairCut2 x ?_ fun _ => ?_); (on_goal 1 => subst x); (on_goal 2 => clear_value x)) | (with_reducible intro _) | lift_lets -underBinder | with_reducible (first | assumption | apply State.advance_mem | apply State.takeSluice_mem | apply State.noteAnswer_mem | apply outNext | apply memElim | (fail_if_no_progress refine memMk rfl rfl rfl rfl ?_) | (refine memOk (by assumption) ?_) | (refine memPair (by assumption) ?_) | (refine memPair2 (by assumption) ?_) | (refine memSome (by assumption) ?_)) | split

theorem State.confirmOwn_mem (s : State) (c : ArrCommit) (hM : s.memoryWf = true) :
    (State.confirmOwn s c).memoryWf = true := by
  unfold State.confirmOwn
  repeat' first | (intro x; refine memCut x ?_ fun _ => ?_; (on_goal 1 => subst x); (on_goal 2 => clear_value x)) | (intro x; clear_value x) | (with_reducible intro _) | lift_lets -underBinder | with_reducible (first | assumption | apply State.modSlot_mem | apply memFoldl | (fail_if_no_progress refine memMk rfl rfl rfl rfl ?_))

theorem State.confirmArray_mem (s : State) (c : ArrCommit) (hM : s.memoryWf = true) :
    (State.confirmArray s c).memoryWf = true := by
  unfold State.confirmArray
  repeat' first | (with_reducible intro _) | with_reducible (first | assumption | apply State.sendTo_mem | apply State.confirmOwn_mem | apply memFoldl)

theorem State.cancelArray_mem (s0 : State) (c : ArrCommit) (code : Nat) (hM : s0.memoryWf = true) :
    (State.cancelArray s0 c code).memoryWf = true := by
  unfold State.cancelArray
  repeat' first | (intro x; refine memCut x ?_ fun _ => ?_; (on_goal 1 => subst x); (on_goal 2 => clear_value x)) | (intro x; clear_value x) | (with_reducible intro _) | lift_lets -underBinder | with_reducible (first | assumption | apply State.wrs_mem | apply State.disarm_mem | apply State.sendTo_mem | apply memFoldl | (fail_if_no_progress refine memMk rfl rfl rfl rfl ?_) | (refine memOk (by assumption) ?_)) | split

theorem execArrayConfirmDeadline_mem (t : Nat) (s : State) (hM : s.memoryWf = true) :
    OutMem (execArrayConfirmDeadline t s) := by
  unfold execArrayConfirmDeadline
  repeat' first | (intro x; refine memCut x ?_ fun _ => ?_; (on_goal 1 => subst x); (on_goal 2 => clear_value x)) | lift_lets -underBinder | with_reducible (first | assumption | apply State.advance_mem | apply State.confirmArray_mem | apply State.cancelArray_mem | apply memIte | apply outNext | (fail_if_no_progress refine memMk rfl rfl rfl rfl ?_) | (refine memOk (by assumption) ?_)) | split

theorem execSluiceConfirm_mem (t : Nat) (s : State) (hM : s.memoryWf = true) :
    OutMem (execSluiceConfirm t s) := by
  unfold execSluiceConfirm
  repeat' first | (intro x; (first | refine memCut x ?_ fun _ => ?_ | refine okCut x ?_ fun _ => ?_ | refine someCut x ?_ fun _ => ?_ | refine pairCut x ?_ fun _ => ?_ | refine pairCut2 x ?_ fun _ => ?_); (on_goal 1 => subst x); (on_goal 2 => clear_value x)) | (with_reducible intro _) | lift_lets -underBinder | with_reducible (first | assumption | apply State.advance_mem | apply State.takeSluice_mem | apply State.confirmOwn_mem | apply memIte | apply outNext | apply memElim | (fail_if_no_progress refine memMk rfl rfl rfl rfl ?_) | (refine memOk (by assumption) ?_) | (refine memPair (by assumption) ?_) | (refine memPair2 (by assumption) ?_) | (refine memSome (by assumption) ?_)) | split

theorem State.disarmArray_mem (s : State) (c : ArrCommit) (hM : s.memoryWf = true) :
    (State.disarmArray s c).memoryWf = true := by
  unfold State.disarmArray
  repeat' first | (intro x; refine memCut x ?_ fun _ => ?_; (on_goal 1 => subst x); (on_goal 2 => clear_value x)) | (intro x; clear_value x) | (with_reducible intro _) | lift_lets -underBinder | with_reducible (first | assumption | apply State.disarm_mem | apply memIte | apply memFoldl | (fail_if_no_progress refine memMk rfl rfl rfl rfl ?_))

theorem execSluiceCancel_mem (t : Nat) (s : State) (hM : s.memoryWf = true) :
    OutMem (execSluiceCancel t s) := by
  unfold execSluiceCancel
  repeat' first | (intro x; (first | refine memCut x ?_ fun _ => ?_ | refine okCut x ?_ fun _ => ?_ | refine someCut x ?_ fun _ => ?_ | refine pairCut x ?_ fun _ => ?_ | refine pairCut2 x ?_ fun _ => ?_); (on_goal 1 => subst x); (on_goal 2 => clear_value x)) | (with_reducible intro _) | lift_lets -underBinder | with_reducible (first | assumption | apply State.advance_mem | apply State.takeSluice_mem | apply State.disarmArray_mem | apply memIte | apply outNext | apply memElim | (fail_if_no_progress refine memMk rfl rfl rfl rfl ?_) | (refine memOk (by assumption) ?_) | (refine memPair (by assumption) ?_) | (refine memPair2 (by assumption) ?_) | (refine memSome (by assumption) ?_)) | split

theorem execArrayCommitDisarm_mem (t : Nat) (s : State) (hM : s.memoryWf = true) :
    OutMem (execArrayCommitDisarm t s) := by
  unfold execArrayCommitDisarm
  repeat' first | (intro x; refine memCut x ?_ fun _ => ?_; (on_goal 1 => subst x); (on_goal 2 => clear_value x)) | lift_lets -underBinder | with_reducible (first | assumption | apply State.advance_mem | apply State.disarmArray_mem | apply memIte | apply outNext | (fail_if_no_progress refine memMk rfl rfl rfl rfl ?_) | (refine memOk (by assumption) ?_)) | split

theorem State.disagree_mem (s : State) (c : ArrCommit) (hM : s.memoryWf = true) :
    (State.disagree s c).memoryWf = true := by
  unfold State.disagree
  repeat' first | (with_reducible intro _) | with_reducible (first | assumption | apply State.wr_mem | apply memFoldl)

theorem State.reportIn_mem (s : State) (c : ArrCommit) (w : Nat) (hM : s.memoryWf = true) :
    (State.reportIn s c w).memoryWf = true := by
  unfold State.reportIn
  repeat' first | (intro x; refine memCut x ?_ fun _ => ?_; (on_goal 1 => subst x); (on_goal 2 => clear_value x)) | (intro x; clear_value x) | (with_reducible intro _) | lift_lets -underBinder | with_reducible (first | assumption | apply State.disagree_mem | apply memIte | (fail_if_no_progress refine memMk rfl rfl rfl rfl ?_) | (refine memOk (by assumption) ?_)) | split

theorem execSluiceReport_mem (t : Nat) (s : State) (hM : s.memoryWf = true) :
    OutMem (execSluiceReport t s) := by
  unfold execSluiceReport
  repeat' first | (intro x; (first | refine memCut x ?_ fun _ => ?_ | refine okCut x ?_ fun _ => ?_ | refine someCut x ?_ fun _ => ?_ | refine pairCut x ?_ fun _ => ?_ | refine pairCut2 x ?_ fun _ => ?_); (on_goal 1 => subst x); (on_goal 2 => clear_value x)) | (with_reducible intro _) | lift_lets -underBinder | with_reducible (first | assumption | apply State.advance_mem | apply State.takeSluice_mem | apply State.reportIn_mem | apply memIte | apply outNext | apply memElim | (fail_if_no_progress refine memMk rfl rfl rfl rfl ?_) | (refine memOk (by assumption) ?_) | (refine memPair (by assumption) ?_) | (refine memPair2 (by assumption) ?_) | (refine memSome (by assumption) ?_)) | split

theorem execArrayCommitReportTimeout_mem (t : Nat) (s : State) (hM : s.memoryWf = true) :
    OutMem (execArrayCommitReportTimeout t s) := by
  unfold execArrayCommitReportTimeout
  repeat' first | (intro x; refine memCut x ?_ fun _ => ?_; (on_goal 1 => subst x); (on_goal 2 => clear_value x)) | (intro x; clear_value x) | lift_lets -underBinder | with_reducible (first | assumption | apply State.advance_mem | apply State.disagree_mem | apply memIte | apply outNext | (fail_if_no_progress refine memMk rfl rfl rfl rfl ?_) | (refine memOk (by assumption) ?_)) | split

theorem State.reportCommit_mem (s : State) (hM : s.memoryWf = true) :
    (State.reportCommit s).memoryWf = true := by
  unfold State.reportCommit
  repeat' first | (intro x; clear_value x) | (with_reducible intro _) | lift_lets -underBinder | with_reducible (first | assumption | apply State.sendTo_mem | apply memIte | (fail_if_no_progress refine memMk rfl rfl rfl rfl ?_) | (refine memOk (by assumption) ?_)) | split

theorem State.gateEngine_mem (s : State) (n T : Nat) (p : PlEngine) (hM : s.memoryWf = true) :
    (State.gateEngine s n T p).memoryWf = true := by
  unfold State.gateEngine
  repeat' first | (intro x; clear_value x) | (with_reducible intro _) | lift_lets -underBinder | with_reducible (first | assumption | apply State.setEng_mem)

theorem execSluiceGateArm_mem (t : Nat) (n : Fin 64) (s : State) (hM : s.memoryWf = true) :
    OutMem (execSluiceGateArm t n s) := by
  unfold execSluiceGateArm
  repeat' first | (intro x; refine memCut x ?_ fun _ => ?_; (on_goal 1 => subst x); (on_goal 2 => clear_value x)) | (intro x; clear_value x) | (with_reducible intro _) | lift_lets -underBinder | with_reducible (first | assumption | apply State.advance_mem | apply State.gateEngine_mem | apply State.modSlot_mem | apply memIte | apply memFoldl | apply outNext | (fail_if_no_progress refine memMk rfl rfl rfl rfl ?_) | (refine memOk (by assumption) ?_)) | split

theorem State.commitApply_mem (s : State) (n T : Nat) (hM : s.memoryWf = true) :
    (State.commitApply s n T).memoryWf = true := by
  unfold State.commitApply
  repeat' first | (intro x; refine memCut x ?_ fun _ => ?_; (on_goal 1 => subst x); (on_goal 2 => clear_value x)) | (intro x; clear_value x) | (with_reducible intro _) | lift_lets -underBinder | with_reducible (first | assumption | apply State.mapBoundary_mem | apply State.endAccumulations_mem | apply State.flushRecords_mem | apply State.applyStaged_mem | apply State.restartUnits_mem | apply State.withSources_mem | apply State.refreshFabric_mem | apply State.settleBanks_mem | apply State.modSlot_mem | apply State.wrs_mem | apply State.bump_mem | apply State.recharge_mem | apply State.reportCommit_mem | apply memFoldl)

theorem execCommitApplied_mem (t : Nat) (n : Fin 64) (s : State) (hM : s.memoryWf = true) :
    OutMem (execCommitApplied t n s) := by
  unfold execCommitApplied
  repeat' first | (intro x; refine memCut x ?_ fun _ => ?_; (on_goal 1 => subst x); (on_goal 2 => clear_value x)) | lift_lets -underBinder | with_reducible (first | assumption | apply State.advance_mem | apply State.commitApply_mem | apply memIte | apply outNext | (fail_if_no_progress refine memMk rfl rfl rfl rfl ?_) | (refine memOk (by assumption) ?_)) | split

theorem State.captureStarts_mem (s : State) (m : Nat) (hM : s.memoryWf = true) :
    (State.captureStarts s m).memoryWf = true := by
  unfold State.captureStarts
  repeat' first | (intro x; clear_value x) | lift_lets -underBinder | with_reducible (first | assumption | apply State.setRing_mem | apply State.wr_mem | apply memIte)

theorem State.successorTakes_mem (s : State) (m n T : Nat) (hM : s.memoryWf = true) :
    (State.successorTakes s m n T).memoryWf = true := by
  unfold State.successorTakes
  repeat' first | (intro x; refine memCut x ?_ fun _ => ?_; (on_goal 1 => subst x); (on_goal 2 => clear_value x)) | (intro x; clear_value x) | (with_reducible intro _) | lift_lets -underBinder | with_reducible (first | assumption | apply State.cancelCommit_mem | apply State.modSlot_mem | apply State.setPipe_mem | apply State.mapBoundary_mem | apply State.restartAtSwitch_mem | apply State.withSources_mem | apply State.captureStarts_mem | apply State.wrs_mem | apply State.bump_mem | apply State.refreshFabric_mem | apply State.reportCommit_mem | apply memFoldl)

theorem execSuccessorSwitch_mem (t : Nat) (m : Fin 64) (s : State) (hM : s.memoryWf = true) :
    OutMem (execSuccessorSwitch t m s) := by
  unfold execSuccessorSwitch
  repeat' first | (intro x; refine memCut x ?_ fun _ => ?_; (on_goal 1 => subst x); (on_goal 2 => clear_value x)) | (intro x; clear_value x) | lift_lets -underBinder | with_reducible (first | assumption | apply State.advance_mem | apply State.successorTakes_mem | apply memIte | apply outNext | (fail_if_no_progress refine memMk rfl rfl rfl rfl ?_) | (refine memOk (by assumption) ?_)) | split

theorem State.passRing_mem (s : State) (n m : Nat) (hM : s.memoryWf = true) :
    (State.passRing s n m).memoryWf = true := by
  unfold State.passRing
  repeat' first | (intro x; refine memCut x ?_ fun _ => ?_; (on_goal 1 => subst x); (on_goal 2 => clear_value x)) | (with_reducible intro _) | lift_lets -underBinder | with_reducible (first | assumption | apply State.wr_mem | apply State.clr_mem | apply State.setRing_mem | apply memIte | apply memFoldl)

theorem State.passOutputs_mem (s : State) (n m : Nat) (hM : s.memoryWf = true) :
    (State.passOutputs s n m).memoryWf = true := by
  unfold State.passOutputs
  repeat' first | (intro x; refine memCut x ?_ fun _ => ?_; (on_goal 1 => subst x); (on_goal 2 => clear_value x)) | (intro x; refine funCut x ?_; subst x) | (intro x; clear_value x) | (with_reducible intro _) | lift_lets -underBinder | with_reducible (first | assumption | apply State.wrs_mem | apply State.setDrive_mem | apply State.setRecording_mem | apply State.wr_mem | apply State.setXf_mem | apply State.modSlot_mem | apply memIte | apply memFoldl | (fail_if_no_progress refine memMk rfl rfl rfl rfl ?_) | (refine memOk (by assumption) ?_)) | split

theorem State.passUnits'_mem (s : State) (n m T : Nat) (hM : s.memoryWf = true) :
    (State.passUnits' s n m T).memoryWf = true := by
  unfold State.passUnits'
  repeat' first | (intro x; refine memCut x ?_ fun _ => ?_; (on_goal 1 => subst x); (on_goal 2 => clear_value x)) | (intro x; clear_value x) | (with_reducible intro _) | lift_lets -underBinder | with_reducible (first | assumption | apply State.mapBoundary_mem | apply State.wr_mem | apply State.unbindUnits_mem | apply State.modSlot_mem | apply memIte | apply memFoldl)

theorem State.loadPlaced_mem (s : State) (m : Nat) (hM : s.memoryWf = true) :
    (State.loadPlaced s m).memoryWf = true := by
  unfold State.loadPlaced
  repeat' first | (intro x; refine memCut x ?_ fun _ => ?_; (on_goal 1 => subst x); (on_goal 2 => clear_value x)) | (intro x; clear_value x) | (with_reducible intro _) | lift_lets -underBinder | with_reducible (first | assumption | apply State.placeImage_mem | apply memFoldl | (fail_if_no_progress refine memMk rfl rfl rfl rfl ?_) | (refine memOk (by assumption) ?_)) | split

theorem State.passRoutes_mem (s : State) (n m : Nat) (hM : s.memoryWf = true) :
    (State.passRoutes s n m).memoryWf = true := by
  unfold State.passRoutes
  repeat' first | (intro x; clear_value x) | (with_reducible intro _) | lift_lets -underBinder | with_reducible (first | assumption | apply State.modSlot_mem | apply memIte)

theorem State.startUnit_mem (s : State) (o m g u : Nat) (hM : s.memoryWf = true) :
    (State.startUnit s o m g u).memoryWf = true := by
  unfold State.startUnit
  repeat' first | (intro x; clear_value x) | lift_lets -underBinder | with_reducible (first | assumption | apply State.adoptInput_mem | apply State.setPipe_mem | apply memIte | (fail_if_no_progress refine memMk rfl rfl rfl rfl ?_) | (refine memOk (by assumption) ?_)) | split

theorem State.startGrids_mem (s : State) (o m g : Nat) (hM : s.memoryWf = true) :
    (State.startGrids s o m g).memoryWf = true := by
  unfold State.startGrids
  repeat' first | (with_reducible intro _) | with_reducible (first | assumption | apply State.startUnit_mem | apply memIte | apply memFoldl)

theorem State.enterGap_mem (s : State) (o m g a : Nat) (hM : s.memoryWf = true) :
    (State.enterGap s o m g a).memoryWf = true := by
  unfold State.enterGap
  repeat' first | (intro x; refine memCut x ?_ fun _ => ?_; (on_goal 1 => subst x); (on_goal 2 => clear_value x)) | (intro x; clear_value x) | (with_reducible intro _) | lift_lets -underBinder | with_reducible (first | assumption | apply State.loadPlaced_mem | apply State.joinPolder_mem | apply State.openReplay_mem | apply State.startGrids_mem | apply State.modSlot_mem | apply State.wrs_mem | apply memIte)

theorem State.retiredTo_mem (s : State) (n m T : Nat) (hM : s.memoryWf = true) :
    (State.retiredTo s n m T).memoryWf = true := by
  unfold State.retiredTo
  repeat' first | (intro x; refine memCut x ?_ fun _ => ?_; (on_goal 1 => subst x); (on_goal 2 => clear_value x)) | (intro x; clear_value x) | (with_reducible intro _) | lift_lets -underBinder | with_reducible (first | assumption | apply State.chainFlush_mem | apply State.unitsClose_mem | apply State.flushRecords_mem | apply State.enterGap_mem | apply State.marker_mem | apply State.passRing_mem | apply State.passOutputs_mem | apply State.passUnits'_mem | apply State.closeReplay_mem | apply State.passRoutes_mem | apply State.clearRoutes_mem | apply State.zeroRegions_mem | apply State.dropMigrations_mem | apply State.endContract_mem | apply State.wr_mem | apply State.modSlot_mem | apply State.wrs_mem | apply State.recount_mem | apply State.recharge_mem | apply memIte)

theorem execRetiringComplete_mem (t : Nat) (n : Fin 64) (s : State) (hM : s.memoryWf = true) :
    OutMem (execRetiringComplete t n s) := by
  unfold execRetiringComplete
  repeat' first | (intro x; refine memCut x ?_ fun _ => ?_; (on_goal 1 => subst x); (on_goal 2 => clear_value x)) | (intro x; clear_value x) | lift_lets -underBinder | with_reducible (first | assumption | apply State.advance_mem | apply State.retiredTo_mem | apply memIte | apply outNext | (fail_if_no_progress refine memMk rfl rfl rfl rfl ?_) | (refine memOk (by assumption) ?_)) | split

theorem State.gapEnd_mem (s : State) (m b : Nat) (hM : s.memoryWf = true) :
    (State.gapEnd s m b).memoryWf = true := by
  unfold State.gapEnd
  repeat' first | (intro x; refine memCut x ?_ fun _ => ?_; (on_goal 1 => subst x); (on_goal 2 => clear_value x)) | (with_reducible intro _) | lift_lets -underBinder | with_reducible (first | assumption | apply State.marker_mem | apply State.modSlot_mem | apply State.wrs_mem | apply State.recharge_mem)

theorem execGapFrameResume_mem (t : Nat) (m : Fin 64) (s : State) (hM : s.memoryWf = true) :
    OutMem (execGapFrameResume t m s) := by
  unfold execGapFrameResume
  repeat' first | (intro x; refine memCut x ?_ fun _ => ?_; (on_goal 1 => subst x); (on_goal 2 => clear_value x)) | lift_lets -underBinder | with_reducible (first | assumption | apply State.advance_mem | apply State.gapEnd_mem | apply memIte | apply outNext | (fail_if_no_progress refine memMk rfl rfl rfl rfl ?_) | (refine memOk (by assumption) ?_)) | split

end Sys2Proof.Machine
end

