-- ==== Sys2Proof/Laws/KeepPower.lean ====
section
/-! SUPPORT. The definitions of these files of Machine keep the canonical form of the memories: Housekeeping, Calibrate, TimeBase, Package, Point, Pantry, Stop, Power. -/

namespace Sys2Proof.Machine

open Sys2Proof

theorem State.setFilter_mem (s : State) (u : Nat) (x : FilterUnit) (hM : s.memoryWf = true) :
    (State.setFilter s u x).memoryWf = true := by
  unfold State.setFilter
  exact hM

theorem State.filterSettle_mem (s : State) (u : Nat) (hM : s.memoryWf = true) :
    (State.filterSettle s u).memoryWf = true := by
  unfold State.filterSettle
  repeat' first | (intro x; clear_value x) | lift_lets -underBinder | with_reducible (first | assumption | apply State.setDom_mem | apply State.setFilter_mem | apply memIte)

theorem State.filterWritten_mem (s : State) (u : Nat) (hM : s.memoryWf = true) :
    (State.filterWritten s u).memoryWf = true := by
  unfold State.filterWritten
  repeat' first | (intro x; refine memCut x ?_ fun _ => ?_; (on_goal 1 => subst x); (on_goal 2 => clear_value x)) | (intro x; clear_value x) | lift_lets -underBinder | with_reducible (first | assumption | apply State.setFilter_mem | apply State.filterSettle_mem | apply memIte)

theorem State.filterTake_mem (s : State) (u : Nat) (v : Int) (hM : s.memoryWf = true) :
    (State.filterTake s u v).memoryWf = true := by
  unfold State.filterTake
  repeat' first | (intro x; refine memCut x ?_ fun _ => ?_; (on_goal 1 => subst x); (on_goal 2 => clear_value x)) | (intro x; clear_value x) | lift_lets -underBinder | with_reducible (first | assumption | apply State.setFilter_mem | apply State.setDom_mem | apply State.filterSettle_mem | apply memIte)

theorem State.hkResult_mem (s : State) (c raw : Nat) (hM : s.memoryWf = true) :
    (State.hkResult s c raw).memoryWf = true := by
  unfold State.hkResult
  repeat' first | (intro x; refine memCut x ?_ fun _ => ?_; (on_goal 1 => subst x); (on_goal 2 => clear_value x)) | (intro x; clear_value x) | (with_reducible intro _) | lift_lets -underBinder | with_reducible (first | assumption | apply State.setDom_mem | apply State.filterTake_mem | apply memIte | apply memFoldl)

theorem State.sequenceStep_mem (s : State) (hM : s.memoryWf = true) :
    (State.sequenceStep s).memoryWf = true := by
  unfold State.sequenceStep
  repeat' first | (intro x; clear_value x) | lift_lets -underBinder | with_reducible (first | assumption | apply memIte | (fail_if_no_progress refine memMk rfl rfl rfl rfl ?_))

theorem execHkConversion_mem (t : Nat) (ledger : Option (Fin 64)) (raw : Nat) (s : State) (hM : s.memoryWf = true) :
    OutMem (execHkConversion t ledger raw s) := by
  unfold execHkConversion
  repeat' first | (intro x; refine memCut x ?_ fun _ => ?_; (on_goal 1 => subst x); (on_goal 2 => clear_value x)) | (intro x; clear_value x) | lift_lets -underBinder | with_reducible (first | assumption | apply State.advance_mem | apply State.hkResult_mem | apply State.bump_mem | apply State.sequenceStep_mem | apply memIte | apply outNext | (fail_if_no_progress refine memMk rfl rfl rfl rfl ?_) | (refine memOk (by assumption) ?_)) | split

theorem calStart_mem (kind mask startAt : Nat) (s : State) (hM : s.memoryWf = true) :
    OkMem (calStart kind mask startAt s) := by
  unfold calStart
  repeat' first | (intro x; refine memCut x ?_ fun _ => ?_; (on_goal 1 => subst x); (on_goal 2 => clear_value x)) | (intro x; clear_value x) | (with_reducible intro _) | lift_lets -underBinder | with_reducible (first | assumption | apply State.wr_mem | apply State.clr_mem | apply State.calEnd_mem | apply okIte | apply memIte | apply okOk | apply okErr | (fail_if_no_progress refine memMk rfl rfl rfl rfl ?_))

theorem execCalibrateReference_mem (t mask startAt : Nat) (s : State) (hM : s.memoryWf = true) :
    OutMem (execCalibrateReference t mask startAt s) := by
  unfold execCalibrateReference
  repeat' first | with_reducible (first | assumption | apply State.serve_mem | apply calStart_mem | apply outNext)

theorem execCalibrateClock_mem (t mask startAt : Nat) (s : State) (hM : s.memoryWf = true) :
    OutMem (execCalibrateClock t mask startAt s) := by
  unfold execCalibrateClock
  repeat' first | with_reducible (first | assumption | apply State.serve_mem | apply calStart_mem | apply outNext)

theorem execCalibrateSignalPath_mem (t mask startAt : Nat) (s : State) (hM : s.memoryWf = true) :
    OutMem (execCalibrateSignalPath t mask startAt s) := by
  unfold execCalibrateSignalPath
  repeat' first | with_reducible (first | assumption | apply State.serve_mem | apply calStart_mem | apply outNext)

theorem execCalReferenceComplete_mem (t : Nat) (shorts : List Nat) (vref : Option Nat) (s : State) (hM : s.memoryWf = true) :
    OutMem (execCalReferenceComplete t shorts vref s) := by
  unfold execCalReferenceComplete
  repeat' first | (intro x; refine memCut x ?_ fun _ => ?_; (on_goal 1 => subst x); (on_goal 2 => clear_value x)) | (intro x; clear_value x) | (with_reducible intro _) | lift_lets -underBinder | with_reducible (first | assumption | apply State.advance_mem | apply State.calEnd_mem | apply State.setDom_mem | apply State.wr_mem | apply memIte | apply memFoldl | apply outNext | (fail_if_no_progress refine memMk rfl rfl rfl rfl ?_) | (refine memOk (by assumption) ?_)) | split

theorem execCalClockComplete_mem (t ticks : Nat) (s : State) (hM : s.memoryWf = true) :
    OutMem (execCalClockComplete t ticks s) := by
  unfold execCalClockComplete
  repeat' first | (intro x; refine memCut x ?_ fun _ => ?_; (on_goal 1 => subst x); (on_goal 2 => clear_value x)) | (intro x; clear_value x) | lift_lets -underBinder | with_reducible (first | assumption | apply State.advance_mem | apply State.wr_mem | apply State.calEnd_mem | apply memIte | apply outNext)

theorem State.calNext_mem (s : State) (failed : Option (Nat × Nat)) (hM : s.memoryWf = true) :
    (State.calNext s failed).memoryWf = true := by
  unfold State.calNext
  repeat' first | (intro x; refine memCut x ?_ fun _ => ?_; (on_goal 1 => subst x); (on_goal 2 => clear_value x)) | (intro x; clear_value x) | lift_lets -underBinder | with_reducible (first | assumption | apply State.calRelease_mem | apply State.calEnd_mem | (fail_if_no_progress refine memMk rfl rfl rfl rfl ?_) | (refine memOk (by assumption) ?_)) | split

theorem execSignalPathWindowStart_mem (t : Nat) (s : State) (hM : s.memoryWf = true) :
    OutMem (execSignalPathWindowStart t s) := by
  unfold execSignalPathWindowStart
  repeat' first | (intro x; refine memCut x ?_ fun _ => ?_; (on_goal 1 => subst x); (on_goal 2 => clear_value x)) | (intro x; clear_value x) | lift_lets -underBinder | with_reducible (first | assumption | apply State.advance_mem | apply State.calNext_mem | apply State.setChan_mem | apply memIte | apply outNext | (fail_if_no_progress refine memMk rfl rfl rfl rfl ?_) | (refine memOk (by assumption) ?_)) | split

theorem execSignalPathMeasureStart_mem (t : Nat) (s : State) (hM : s.memoryWf = true) :
    OutMem (execSignalPathMeasureStart t s) := by
  unfold execSignalPathMeasureStart
  repeat' first | (intro x; refine memCut x ?_ fun _ => ?_; (on_goal 1 => subst x); (on_goal 2 => clear_value x)) | (intro x; clear_value x) | lift_lets -underBinder | with_reducible (first | assumption | apply State.advance_mem | apply memIte | apply outNext | (fail_if_no_progress refine memMk rfl rfl rfl rfl ?_))

theorem execSignalPathMeasureEnd_mem (t : Nat) (s : State) (hM : s.memoryWf = true) :
    OutMem (execSignalPathMeasureEnd t s) := by
  unfold execSignalPathMeasureEnd
  repeat' first | (intro x; refine memCut x ?_ fun _ => ?_; (on_goal 1 => subst x); (on_goal 2 => clear_value x)) | (intro x; clear_value x) | lift_lets -underBinder | with_reducible (first | assumption | apply State.advance_mem | apply memIte | apply outNext | (fail_if_no_progress refine memMk rfl rfl rfl rfl ?_) | (refine memOk (by assumption) ?_)) | split

theorem State.calApply_mem (s : State) (k : Nat) (r : PathResult) (hM : s.memoryWf = true) :
    (State.calApply s k r).memoryWf = true := by
  unfold State.calApply
  repeat' first | (intro x; refine memCut x ?_ fun _ => ?_; (on_goal 1 => subst x); (on_goal 2 => clear_value x)) | lift_lets -underBinder | with_reducible (first | assumption | apply State.setDom_mem | apply State.wr_mem)

theorem execSignalPathWindowEnd_mem (t : Nat) (s : State) (hM : s.memoryWf = true) :
    OutMem (execSignalPathWindowEnd t s) := by
  unfold execSignalPathWindowEnd
  repeat' first | (intro x; refine memCut x ?_ fun _ => ?_; (on_goal 1 => subst x); (on_goal 2 => clear_value x)) | lift_lets -underBinder | with_reducible (first | assumption | apply State.advance_mem | apply State.calNext_mem | apply State.calApply_mem | apply memIte | apply outNext | (fail_if_no_progress refine memMk rfl rfl rfl rfl ?_) | (refine memOk (by assumption) ?_)) | split

theorem calCapture_mem  (s : State) (hM : s.memoryWf = true) :
    OkMem (calCapture s) := by
  unfold calCapture
  repeat' first | (with_reducible intro _) | with_reducible (first | assumption | apply State.setDom_mem | apply okOk)

theorem execCapture_mem (t : Nat) (s : State) (hM : s.memoryWf = true) :
    OutMem (execCapture t s) := by
  unfold execCapture
  repeat' first | with_reducible (first | assumption | apply State.serve_mem | apply calCapture_mem | apply outNext)

theorem calReapply_mem  (s : State) (hM : s.memoryWf = true) :
    OkMem (calReapply s) := by
  unfold calReapply
  repeat' first | (intro x; refine memCut x ?_ fun _ => ?_; (on_goal 1 => subst x); (on_goal 2 => clear_value x)) | (intro x; refine funCut x ?_; subst x) | (intro x; clear_value x) | (with_reducible intro _) | lift_lets -underBinder | with_reducible (first | assumption | apply State.setDom_mem | apply State.wrs_mem | apply okIte | apply memIte | apply memFoldl | apply okOk | apply okErr | (fail_if_no_progress refine memMk rfl rfl rfl rfl ?_))

theorem execReapply_mem (t : Nat) (s : State) (hM : s.memoryWf = true) :
    OutMem (execReapply t s) := by
  unfold execReapply
  repeat' first | with_reducible (first | assumption | apply State.serve_mem | apply calReapply_mem | apply outNext)

theorem setSeconds_mem (v : Nat) (s : State) (hM : s.memoryWf = true) :
    OkMem (setSeconds v s) := by
  unfold setSeconds
  repeat' first | (intro x; clear_value x) | (with_reducible intro _) | lift_lets -underBinder | with_reducible (first | assumption | apply okIte | apply memIte | apply okOk | apply okErr | (fail_if_no_progress refine memMk rfl rfl rfl rfl ?_))

theorem execSetSeconds_mem (t value : Nat) (s : State) (hM : s.memoryWf = true) :
    OutMem (execSetSeconds t value s) := by
  unfold execSetSeconds
  repeat' first | with_reducible (first | assumption | apply State.serve_mem | apply setSeconds_mem | apply outNext)

theorem State.rtcSecond_mem (s : State) (hM : s.memoryWf = true) :
    (State.rtcSecond s).memoryWf = true := by
  unfold State.rtcSecond
  repeat' first | (intro x; refine memCut x ?_ fun _ => ?_; (on_goal 1 => subst x); (on_goal 2 => clear_value x)) | (intro x; clear_value x) | lift_lets -underBinder | with_reducible (first | assumption | apply State.step430_mem | apply memIte | (fail_if_no_progress refine memMk rfl rfl rfl rfl ?_))

theorem State.takeSeconds_mem (s : State) (v : Nat) (hM : s.memoryWf = true) :
    (State.takeSeconds s v).memoryWf = true := by
  unfold State.takeSeconds
  repeat' first | (intro x; refine memCut x ?_ fun _ => ?_; (on_goal 1 => subst x); (on_goal 2 => clear_value x)) | (intro x; clear_value x) | lift_lets -underBinder | with_reducible (first | assumption | apply State.step430_mem | (fail_if_no_progress refine memMk rfl rfl rfl rfl ?_))

theorem State.deviceSecond_mem (s : State) (hM : s.memoryWf = true) :
    (State.deviceSecond s).memoryWf = true := by
  unfold State.deviceSecond
  repeat' first | (intro x; refine memCut x ?_ fun _ => ?_; (on_goal 1 => subst x); (on_goal 2 => clear_value x)) | (intro x; clear_value x) | lift_lets -underBinder | with_reducible (first | assumption | apply State.takeSeconds_mem | apply memIte | (fail_if_no_progress refine memMk rfl rfl rfl rfl ?_) | (refine memOk (by assumption) ?_)) | split

theorem execSecondBoundary_mem (t : Nat) (rtc : Bool) (s : State) (hM : s.memoryWf = true) :
    OutMem (execSecondBoundary t rtc s) := by
  unfold execSecondBoundary
  repeat' first | (intro x; refine memCut x ?_ fun _ => ?_; (on_goal 1 => subst x); (on_goal 2 => clear_value x)) | lift_lets -underBinder | with_reducible (first | assumption | apply State.advance_mem | apply State.rtcSecond_mem | apply State.deviceSecond_mem | apply memIte | apply outNext)

theorem State.syncEdge_mem (s : State) (st : Nat) (hM : s.memoryWf = true) :
    (State.syncEdge s st).memoryWf = true := by
  unfold State.syncEdge
  repeat' first | (intro x; refine memCut x ?_ fun _ => ?_; (on_goal 1 => subst x); (on_goal 2 => clear_value x)) | (intro x; clear_value x) | lift_lets -underBinder | with_reducible (first | assumption | apply State.wr_mem | apply State.step430_mem | apply memIte | (fail_if_no_progress refine memMk rfl rfl rfl rfl ?_))

theorem execSyncInEdge_mem (t : Nat) (s : State) (hM : s.memoryWf = true) :
    OutMem (execSyncInEdge t s) := by
  unfold execSyncInEdge
  repeat' first | (intro x; refine memCut x ?_ fun _ => ?_; (on_goal 1 => subst x); (on_goal 2 => clear_value x)) | lift_lets -underBinder | with_reducible (first | assumption | apply State.advance_mem | apply State.syncEdge_mem | apply memIte | apply outNext)

theorem syncArm_mem  (s : State) (hM : s.memoryWf = true) :
    OkMem (syncArm s) := by
  unfold syncArm
  repeat' first | (intro x; refine memCut x ?_ fun _ => ?_; (on_goal 1 => subst x); (on_goal 2 => clear_value x)) | (intro x; clear_value x) | (with_reducible intro _) | lift_lets -underBinder | with_reducible (first | assumption | apply State.wr_mem | apply okIte | apply memIte | apply okOk | apply okErr | (fail_if_no_progress refine memMk rfl rfl rfl rfl ?_))

theorem execSyncArm_mem (t : Nat) (s : State) (hM : s.memoryWf = true) :
    OutMem (execSyncArm t s) := by
  unfold execSyncArm
  repeat' first | with_reducible (first | assumption | apply State.serve_mem | apply syncArm_mem | apply outNext)

theorem State.markResidual_mem (s : State) (m : StreamMsg) (hM : s.memoryWf = true) :
    (State.markResidual s m).memoryWf = true := by
  unfold State.markResidual
  repeat' first | (intro x; refine memCut x ?_ fun _ => ?_; (on_goal 1 => subst x); (on_goal 2 => clear_value x)) | (intro x; clear_value x) | (with_reducible intro _) | lift_lets -underBinder | with_reducible (first | assumption | apply State.wr_mem | apply memIte | (fail_if_no_progress refine memMk rfl rfl rfl rfl ?_))

theorem State.takeMark_mem (s : State) (m : StreamMsg) (hM : s.memoryWf = true) :
    (State.takeMark s m).memoryWf = true := by
  unfold State.takeMark
  repeat' first | (intro x; clear_value x) | lift_lets -underBinder | with_reducible (first | assumption | apply State.wr_mem | apply State.markResidual_mem | apply memIte | (fail_if_no_progress refine memMk rfl rfl rfl rfl ?_))

theorem execStreamMarkReceive_mem (t seconds milli quality epoch descriptor : Nat) (crcOk : Bool) (s : State) (hM : s.memoryWf = true) :
    OutMem (execStreamMarkReceive t seconds milli quality epoch descriptor crcOk s) := by
  unfold execStreamMarkReceive
  repeat' first | (intro x; refine memCut x ?_ fun _ => ?_; (on_goal 1 => subst x); (on_goal 2 => clear_value x)) | (intro x; clear_value x) | lift_lets -underBinder | with_reducible (first | assumption | apply State.advance_mem | apply State.takeMark_mem | apply memIte | apply outNext | (fail_if_no_progress refine memMk rfl rfl rfl rfl ?_))

theorem execStreamMarkSend_mem (t : Nat) (s : State) (hM : s.memoryWf = true) :
    OutMem (execStreamMarkSend t s) := by
  unfold execStreamMarkSend
  repeat' first | (intro x; refine memCut x ?_ fun _ => ?_; (on_goal 1 => subst x); (on_goal 2 => clear_value x)) | lift_lets -underBinder | with_reducible (first | assumption | apply State.advance_mem | apply State.emit_mem | apply memIte | apply outNext)

theorem execStreamLostTimeout_mem (t : Nat) (s : State) (hM : s.memoryWf = true) :
    OutMem (execStreamLostTimeout t s) := by
  unfold execStreamLostTimeout
  repeat' first | (intro x; refine memCut x ?_ fun _ => ?_; (on_goal 1 => subst x); (on_goal 2 => clear_value x)) | (intro x; clear_value x) | lift_lets -underBinder | with_reducible (first | assumption | apply State.advance_mem | apply State.wr_mem | apply memIte | apply outNext | (fail_if_no_progress refine memMk rfl rfl rfl rfl ?_))

theorem execTimingStreamBlockLock_mem (t : Nat) (s : State) (hM : s.memoryWf = true) :
    OutMem (execTimingStreamBlockLock t s) := by
  unfold execTimingStreamBlockLock
  repeat' first | (intro x; refine memCut x ?_ fun _ => ?_; (on_goal 1 => subst x); (on_goal 2 => clear_value x)) | (intro x; clear_value x) | lift_lets -underBinder | with_reducible (first | assumption | apply State.advance_mem | apply State.wr_mem | apply State.setQuad_mem | apply memIte | apply outNext | (fail_if_no_progress refine memMk rfl rfl rfl rfl ?_))

theorem State.streamAbsent_mem (s : State) (hM : s.memoryWf = true) :
    (State.streamAbsent s).memoryWf = true := by
  unfold State.streamAbsent
  repeat' first | (intro x; refine memCut x ?_ fun _ => ?_; (on_goal 1 => subst x); (on_goal 2 => clear_value x)) | (intro x; clear_value x) | lift_lets -underBinder | with_reducible (first | assumption | apply State.wr_mem | (fail_if_no_progress refine memMk rfl rfl rfl rfl ?_))

theorem execTimingStreamSignalLoss_mem (t : Nat) (s : State) (hM : s.memoryWf = true) :
    OutMem (execTimingStreamSignalLoss t s) := by
  unfold execTimingStreamSignalLoss
  repeat' first | with_reducible (first | assumption | apply State.advance_mem | apply State.streamAbsent_mem | apply outNext)

theorem adopt_mem  (s : State) (hM : s.memoryWf = true) :
    OkMem (adopt s) := by
  unfold adopt
  repeat' first | (intro x; refine memCut x ?_ fun _ => ?_; (on_goal 1 => subst x); (on_goal 2 => clear_value x)) | (intro x; clear_value x) | (with_reducible intro _) | lift_lets -underBinder | with_reducible (first | assumption | apply State.step430_mem | apply State.wr_mem | apply okIte | apply memIte | apply okOk | apply okErr | (fail_if_no_progress refine memMk rfl rfl rfl rfl ?_) | (refine memOk (by assumption) ?_)) | split

theorem execAdopt_mem (t : Nat) (s : State) (hM : s.memoryWf = true) :
    OutMem (execAdopt t s) := by
  unfold execAdopt
  repeat' first | with_reducible (first | assumption | apply State.serve_mem | apply adopt_mem | apply outNext)

theorem State.tapLoad_mem (s : State) (i : Nat) (hM : s.memoryWf = true) :
    (State.tapLoad s i).memoryWf = true := by
  unfold State.tapLoad
  repeat' first | (intro x; clear_value x) | lift_lets -underBinder | with_reducible (first | assumption | apply memIte | (fail_if_no_progress refine memMk rfl rfl rfl rfl ?_))

theorem State.tapShift_mem (s : State) (i : Nat) (hM : s.memoryWf = true) :
    (State.tapShift s i).memoryWf = true := by
  unfold State.tapShift
  repeat' first | with_reducible (first | assumption | apply State.emit_mem | apply State.tapLoad_mem)

theorem State.tapDrive_mem (s : State) (i : Nat) (hM : s.memoryWf = true) :
    (State.tapDrive s i).memoryWf = true := by
  unfold State.tapDrive
  repeat' first | (intro x; refine memCut x ?_ fun _ => ?_; (on_goal 1 => subst x); (on_goal 2 => clear_value x)) | lift_lets -underBinder | with_reducible (first | assumption | apply State.tapShift_mem | apply State.emit_mem | apply memIte)

theorem execExtest_mem (t : Nat) (cells : List Bool) (s : State) (hM : s.memoryWf = true) :
    OutMem (execExtest t cells s) := by
  unfold execExtest
  repeat' first | (intro x; refine memCut x ?_ fun _ => ?_; (on_goal 1 => subst x); (on_goal 2 => clear_value x)) | (intro x; clear_value x) | lift_lets -underBinder | with_reducible (first | assumption | apply State.advance_mem | apply State.tapShift_mem | apply State.emit_mem | apply memIte | apply outNext | (fail_if_no_progress refine memMk rfl rfl rfl rfl ?_))

theorem execHighz_mem (t : Nat) (s : State) (hM : s.memoryWf = true) :
    OutMem (execHighz t s) := by
  unfold execHighz
  repeat' first | with_reducible (first | assumption | apply State.advance_mem | apply State.tapDrive_mem | apply outNext)

theorem execClamp_mem (t : Nat) (s : State) (hM : s.memoryWf = true) :
    OutMem (execClamp t s) := by
  unfold execClamp
  repeat' first | with_reducible (first | assumption | apply State.advance_mem | apply State.tapDrive_mem | apply outNext)

theorem execExtestPulse_mem (t : Nat) (s : State) (hM : s.memoryWf = true) :
    OutMem (execExtestPulse t s) := by
  unfold execExtestPulse
  repeat' first | with_reducible (first | assumption | apply State.advance_mem | apply State.tapDrive_mem | apply outNext)

theorem execExtestTrain_mem (t : Nat) (s : State) (hM : s.memoryWf = true) :
    OutMem (execExtestTrain t s) := by
  unfold execExtestTrain
  repeat' first | with_reducible (first | assumption | apply State.advance_mem | apply State.tapDrive_mem | apply outNext)

theorem execIdcode_mem (t : Nat) (s : State) (hM : s.memoryWf = true) :
    OutMem (execIdcode t s) := by
  unfold execIdcode
  repeat' first | with_reducible (first | assumption | apply State.advance_mem | apply State.tapShift_mem | apply State.emit_mem | apply outNext)

theorem execSamplePreload_mem (t : Nat) (cells : List Bool) (s : State) (hM : s.memoryWf = true) :
    OutMem (execSamplePreload t cells s) := by
  unfold execSamplePreload
  repeat' first | (intro x; refine memCut x ?_ fun _ => ?_; (on_goal 1 => subst x); (on_goal 2 => clear_value x)) | (intro x; clear_value x) | lift_lets -underBinder | with_reducible (first | assumption | apply State.advance_mem | apply State.tapShift_mem | apply outNext | (fail_if_no_progress refine memMk rfl rfl rfl rfl ?_))

theorem execDebug_mem (t : Nat) (s : State) (hM : s.memoryWf = true) :
    OutMem (execDebug t s) := by
  unfold execDebug
  repeat' first | with_reducible (first | assumption | apply State.advance_mem | apply State.tapShift_mem | apply outNext)

theorem execBypass_mem (t : Nat) (s : State) (hM : s.memoryWf = true) :
    OutMem (execBypass t s) := by
  unfold execBypass
  repeat' first | with_reducible (first | assumption | apply State.advance_mem | apply State.tapShift_mem | apply outNext)

theorem execTapReset_mem (t : Nat) (s : State) (hM : s.memoryWf = true) :
    OutMem (execTapReset t s) := by
  unfold execTapReset
  repeat' first | (intro x; refine memCut x ?_ fun _ => ?_; (on_goal 1 => subst x); (on_goal 2 => clear_value x)) | lift_lets -underBinder | with_reducible (first | assumption | apply State.advance_mem | apply outNext | (fail_if_no_progress refine memMk rfl rfl rfl rfl ?_))

theorem State.setScan_mem (s : State) (q : Nat) (x : QuadScan) (hM : s.memoryWf = true) :
    (State.setScan s q x).memoryWf = true := by
  unfold State.setScan
  exact hM

theorem marginScan_mem (q mask : Nat) (s : State) (hM : s.memoryWf = true) :
    OkMem (marginScan q mask s) := by
  unfold marginScan
  repeat' first | (with_reducible intro _) | lift_lets -underBinder | with_reducible (first | assumption | apply State.setScan_mem | apply okIte | apply memIte | apply okOk | apply okErr)

theorem execMarginScan_mem (t : Nat) (q : Fin 36) (mask : Nat) (s : State) (hM : s.memoryWf = true) :
    OutMem (execMarginScan t q mask s) := by
  unfold execMarginScan
  repeat' first | with_reducible (first | assumption | apply State.serve_mem | apply marginScan_mem | apply outNext)

theorem execMarginScanComplete_mem (t : Nat) (q : Fin 36) (counts : List (List (BitVec 8))) (s : State) (hM : s.memoryWf = true) :
    OutMem (execMarginScanComplete t q counts s) := by
  unfold execMarginScanComplete
  repeat' first | (intro x; refine memCut x ?_ fun _ => ?_; (on_goal 1 => subst x); (on_goal 2 => clear_value x)) | (intro x; refine funCut x ?_; subst x) | (intro x; clear_value x) | (with_reducible intro _) | lift_lets -underBinder | with_reducible (first | assumption | apply State.advance_mem | apply State.setDom_mem | apply State.setScan_mem | apply memIte | apply outNext | (fail_if_no_progress refine memMk rfl rfl rfl rfl ?_) | (refine memOk (by assumption) ?_)) | split

theorem execMarginUpdate_mem (t : Nat) (q : Fin 36) (eyes : List (Nat × Nat)) (s : State) (hM : s.memoryWf = true) :
    OutMem (execMarginUpdate t q eyes s) := by
  unfold execMarginUpdate
  repeat' first | (intro x; refine memCut x ?_ fun _ => ?_; (on_goal 1 => subst x); (on_goal 2 => clear_value x)) | (intro x; refine funCut x ?_; subst x) | (with_reducible intro _) | lift_lets -underBinder | with_reducible (first | assumption | apply State.advance_mem | apply State.setDom_mem | apply memIte | apply outNext)

theorem State.scanAbandon_mem (s : State) (q : Nat) (hM : s.memoryWf = true) :
    (State.scanAbandon s q).memoryWf = true := by
  unfold State.scanAbandon
  repeat' first | lift_lets -underBinder | with_reducible (first | assumption | apply State.setScan_mem | apply State.setDom_mem | (fail_if_no_progress refine memMk rfl rfl rfl rfl ?_) | (refine memOk (by assumption) ?_)) | split

theorem execLaneQuadFault_mem (t : Nat) (q : Fin 36) (lane : Fin 4) (code : Fin 6) (s : State) (hM : s.memoryWf = true) :
    OutMem (execLaneQuadFault t q lane code s) := by
  unfold execLaneQuadFault
  repeat' first | (intro x; (first | refine memCut x ?_ fun _ => ?_ | refine okCut x ?_ fun _ => ?_ | refine someCut x ?_ fun _ => ?_ | refine pairCut x ?_ fun _ => ?_ | refine pairCut2 x ?_ fun _ => ?_); (on_goal 1 => subst x); (on_goal 2 => clear_value x)) | (intro x; clear_value x) | (with_reducible intro _) | lift_lets -underBinder | with_reducible (first | assumption | apply State.advance_mem | apply State.scanAbandon_mem | apply State.quadFault_mem | apply State.lockLoss_mem | apply State.endpointReset_mem | apply State.wr_mem | apply State.retrainPort_mem | apply State.displayRetrain_mem | apply State.laneStart_mem | apply State.streamAbsent_mem | apply memIte | apply memFoldl | apply memFoldl1 | apply memFoldl2 | apply outNext | apply memElim) | split

theorem quadClear_mem (q : Nat) (s : State) (hM : s.memoryWf = true) :
    OkMem (quadClear q s) := by
  unfold quadClear
  repeat' first | (with_reducible intro _) | with_reducible (first | assumption | apply State.clr_mem | apply okOk)

theorem execLaneQuadClearFault_mem (t : Nat) (q : Fin 36) (s : State) (hM : s.memoryWf = true) :
    OutMem (execLaneQuadClearFault t q s) := by
  unfold execLaneQuadClearFault
  repeat' first | with_reducible (first | assumption | apply State.serve_mem | apply quadClear_mem | apply outNext)

theorem diagClear_mem  (s : State) (hM : s.memoryWf = true) :
    OkMem (diagClear s) := by
  unfold diagClear
  repeat' first | (intro x; refine memCut x ?_ fun _ => ?_; (on_goal 1 => subst x); (on_goal 2 => clear_value x)) | (intro x; clear_value x) | (with_reducible intro _) | lift_lets -underBinder | with_reducible (first | assumption | apply State.wrs_mem | apply okOk | apply okErr | (fail_if_no_progress refine memMk rfl rfl rfl rfl ?_))

theorem execDiagnosticsClearCounters_mem (t : Nat) (s : State) (hM : s.memoryWf = true) :
    OutMem (execDiagnosticsClearCounters t s) := by
  unfold execDiagnosticsClearCounters
  repeat' first | with_reducible (first | assumption | apply State.serve_mem | apply diagClear_mem | apply outNext)

theorem clearOverTemp_mem  (s : State) (hM : s.memoryWf = true) :
    OkMem (clearOverTemp s) := by
  unfold clearOverTemp
  repeat' first | (with_reducible intro _) | with_reducible (first | assumption | apply State.clr_mem | apply okOk)

theorem execClearOverTemp_mem (t : Nat) (s : State) (hM : s.memoryWf = true) :
    OutMem (execClearOverTemp t s) := by
  unfold execClearOverTemp
  repeat' first | with_reducible (first | assumption | apply State.serve_mem | apply clearOverTemp_mem | apply outNext)

theorem faultAck_mem (sq : Nat) (s : State) (hM : s.memoryWf = true) :
    OkMem (faultAck sq s) := by
  unfold faultAck
  repeat' first | (intro x; refine memCut x ?_ fun _ => ?_; (on_goal 1 => subst x); (on_goal 2 => clear_value x)) | (intro x; clear_value x) | (with_reducible intro _) | lift_lets -underBinder | with_reducible (first | assumption | apply State.wr_mem | apply okOk | apply okErr | (fail_if_no_progress refine memMk rfl rfl rfl rfl ?_) | (refine memOk (by assumption) ?_)) | split

theorem execFaultAcknowledge_mem (t sq : Nat) (s : State) (hM : s.memoryWf = true) :
    OutMem (execFaultAcknowledge t sq s) := by
  unfold execFaultAcknowledge
  repeat' first | with_reducible (first | assumption | apply State.serve_mem | apply faultAck_mem | apply outNext)

theorem State.exclude_mem (s : State) (hM : s.memoryWf = true) :
    (State.exclude s).memoryWf = true := by
  unfold State.exclude
  exact hM

theorem State.avsWrite_mem (s : State) (mV : Nat) (hM : s.memoryWf = true) :
    (State.avsWrite s mV).memoryWf = true := by
  unfold State.avsWrite
  repeat' first | (intro x; clear_value x) | lift_lets -underBinder | with_reducible (first | assumption | apply State.bump_mem | apply State.emit_mem | apply memIte | (fail_if_no_progress refine memMk rfl rfl rfl rfl ?_))

theorem State.startChange_mem (s : State) (p : Nat) (hM : s.memoryWf = true) :
    (State.startChange s p).memoryWf = true := by
  unfold State.startChange
  repeat' first | (intro x; refine memCut x ?_ fun _ => ?_; (on_goal 1 => subst x); (on_goal 2 => clear_value x)) | (intro x; clear_value x) | lift_lets -underBinder | with_reducible (first | assumption | apply State.wrs_mem | apply State.exclude_mem | apply State.avsWrite_mem | apply memIte | (fail_if_no_progress refine memMk rfl rfl rfl rfl ?_))

theorem pointRequest_mem (p : Nat) (s : State) (hM : s.memoryWf = true) :
    OkMem (pointRequest p s) := by
  unfold pointRequest
  repeat' first | (with_reducible intro _) | lift_lets -underBinder | with_reducible (first | assumption | apply State.wrs_mem | apply State.startChange_mem | apply okIte | apply memIte | apply okOk | apply okErr | (fail_if_no_progress refine memMk rfl rfl rfl rfl ?_) | (refine memOk (by assumption) ?_)) | split

theorem execOpPointRequest_mem (t point : Nat) (s : State) (hM : s.memoryWf = true) :
    OutMem (execOpPointRequest t point s) := by
  unfold execOpPointRequest
  repeat' first | with_reducible (first | assumption | apply State.serve_mem | apply pointRequest_mem | apply outNext)

theorem State.selectPoint_mem (s : State) (p : Nat) (hM : s.memoryWf = true) :
    (State.selectPoint s p).memoryWf = true := by
  unfold State.selectPoint
  repeat' first | (intro x; refine memCut x ?_ fun _ => ?_; (on_goal 1 => subst x); (on_goal 2 => clear_value x)) | (intro x; clear_value x) | lift_lets -underBinder | with_reducible (first | assumption | apply State.wr_mem | apply State.recharge_mem | (fail_if_no_progress refine memMk rfl rfl rfl rfl ?_))

theorem State.planChange_mem (s : State) (hM : s.memoryWf = true) :
    (State.planChange s).memoryWf = true := by
  unfold State.planChange
  repeat' first | (intro x; clear_value x) | lift_lets -underBinder | with_reducible (first | assumption | apply State.startChange_mem | apply memIte | (fail_if_no_progress refine memMk rfl rfl rfl rfl ?_))

theorem State.endChange_mem (s : State) (result : Nat) (hM : s.memoryWf = true) :
    (State.endChange s result).memoryWf = true := by
  unfold State.endChange
  repeat' first | (intro x; refine memCut x ?_ fun _ => ?_; (on_goal 1 => subst x); (on_goal 2 => clear_value x)) | (intro x; clear_value x) | lift_lets -underBinder | with_reducible (first | assumption | apply State.wrs_mem | apply State.exclude_mem | apply State.bump_mem | apply memIte | (fail_if_no_progress refine memMk rfl rfl rfl rfl ?_))

theorem State.changeFailed_mem (s : State) (hM : s.memoryWf = true) :
    (State.changeFailed s).memoryWf = true := by
  unfold State.changeFailed
  repeat' first | with_reducible (first | assumption | apply State.endChange_mem | apply State.faultLog_mem)

theorem State.drainMark_mem (s : State) (d : Nat) (v : Bool) (hM : s.memoryWf = true) :
    (State.drainMark s d v).memoryWf = true := by
  unfold State.drainMark
  repeat' first | (intro x; clear_value x) | (with_reducible intro _) | lift_lets -underBinder | with_reducible (first | assumption | apply memIte | (fail_if_no_progress refine memMk rfl rfl rfl rfl ?_))

theorem State.setDomain_mem (s : State) (d : Nat) (up : Bool) (hM : s.memoryWf = true) :
    (State.setDomain s d up).memoryWf = true := by
  unfold State.setDomain
  repeat' first | with_reducible (first | assumption | apply State.setDom_mem | apply State.exclude_mem)

theorem State.eraseDomain_mem (s : State) (d : Nat) (h : s.memoryWf = true) : (s.eraseDomain d).memoryWf = true := by
  have h1 : ((clusterEngines d).foldl (fun s e => s.setEng e { st := (s.eng e).st, slot := (s.eng e).slot }) s).memoryWf = true :=
    memFoldl (fun u e hu => State.setEng_mem _ _ _ hu) h
  have h2 : ∀ (u : State) (q : Nat × Byte → Bool), u.memoryWf = true → ({ u with pool := u.pool.filter q } : State).memoryWf = true :=
    fun u q hu => memFields.2 ⟨(memFields.1 hu).1, (memFields.1 hu).2.1, (memFields.1 hu).2.2.1, twf_filter _ _ _ (memFields.1 hu).2.2.2⟩
  unfold State.eraseDomain
  refine memIte (h2 _ _ h1) (memIte ?_ h)
  exact memFields.2 ⟨(memFields.1 h).1, (memFields.1 h).2.1, twf_filter _ _ _ (memFields.1 h).2.2.1, (memFields.1 h).2.2.2⟩

theorem State.domainDown_mem (s : State) (d : Nat) (hM : s.memoryWf = true) :
    (State.domainDown s d).memoryWf = true := by
  unfold State.domainDown
  repeat' first | (intro x; refine memCut x ?_ fun _ => ?_; (on_goal 1 => subst x); (on_goal 2 => clear_value x)) | (with_reducible intro _) | lift_lets -underBinder | with_reducible (first | assumption | apply State.xferCause_mem | apply State.drainMark_mem | apply State.eraseDomain_mem | apply State.setDomain_mem | apply memIte | apply memFoldl)

theorem State.domainRaise_mem (s : State) (d : Nat) (hM : s.memoryWf = true) :
    (State.domainRaise s d).memoryWf = true := by
  unfold State.domainRaise
  repeat' first | (intro x; refine memCut x ?_ fun _ => ?_; (on_goal 1 => subst x); (on_goal 2 => clear_value x)) | (with_reducible intro _) | lift_lets -underBinder | with_reducible (first | assumption | apply State.setDomain_mem | apply State.drainMark_mem | apply State.xferCause_mem | apply memIte | apply memFoldl)

theorem execDomainPowerDown_mem (t : Nat) (d : Fin 93) (s : State) (hM : s.memoryWf = true) :
    OutMem (execDomainPowerDown t d s) := by
  unfold execDomainPowerDown
  repeat' first | (intro x; refine memCut x ?_ fun _ => ?_; (on_goal 1 => subst x); (on_goal 2 => clear_value x)) | lift_lets -underBinder | with_reducible (first | assumption | apply State.advance_mem | apply State.domainDown_mem | apply memIte | apply outNext)

theorem execDomainPowerUp_mem (t : Nat) (d : Fin 93) (s : State) (hM : s.memoryWf = true) :
    OutMem (execDomainPowerUp t d s) := by
  unfold execDomainPowerUp
  repeat' first | (intro x; refine memCut x ?_ fun _ => ?_; (on_goal 1 => subst x); (on_goal 2 => clear_value x)) | lift_lets -underBinder | with_reducible (first | assumption | apply State.advance_mem | apply State.domainRaise_mem | apply memIte | apply outNext)

theorem State.sentinelLog_mem (s : State) (kind detail : Nat) (hM : s.memoryWf = true) :
    (State.sentinelLog s kind detail).memoryWf = true := by
  unfold State.sentinelLog
  exact hM

theorem State.pantryShow_mem (s : State) (hM : s.memoryWf = true) :
    (State.pantryShow s).memoryWf = true := by
  unfold State.pantryShow
  repeat' first | (intro x; clear_value x) | lift_lets -underBinder | with_reducible (first | assumption | apply State.wrs_mem | (fail_if_no_progress refine memMk rfl rfl rfl rfl ?_) | (refine memOk (by assumption) ?_)) | split

theorem State.abandonKeep_mem (s : State) (hM : s.memoryWf = true) :
    (State.abandonKeep s).memoryWf = true := by
  unfold State.abandonKeep
  repeat' first | (intro x; refine memCut x ?_ fun _ => ?_; (on_goal 1 => subst x); (on_goal 2 => clear_value x)) | (intro x; clear_value x) | lift_lets -underBinder | with_reducible (first | assumption | apply State.bump_mem | apply State.wr_mem | apply State.sentinelLog_mem | apply memIte | (fail_if_no_progress refine memMk rfl rfl rfl rfl ?_))

theorem State.runFirmware_mem (s : State) (k : Nat) (hM : s.memoryWf = true) :
    (State.runFirmware s k).memoryWf = true := by
  unfold State.runFirmware
  repeat' first | (intro x; refine memCut x ?_ fun _ => ?_; (on_goal 1 => subst x); (on_goal 2 => clear_value x)) | (intro x; clear_value x) | lift_lets -underBinder | with_reducible (first | assumption | apply State.wrs_mem | (fail_if_no_progress refine memMk rfl rfl rfl rfl ?_))

theorem State.showSlots_mem (s : State) (hM : s.memoryWf = true) :
    (State.showSlots s).memoryWf = true := by
  unfold State.showSlots
  repeat' first | (intro x; refine funCut x ?_; subst x) | (with_reducible intro _) | lift_lets -underBinder | with_reducible (first | assumption | apply State.setDom_mem)

theorem State.setAux_mem (s : State) (k v : Nat) (hM : s.memoryWf = true) :
    (State.setAux s k v).memoryWf = true := by
  unfold State.setAux
  repeat' first | with_reducible (first | assumption | apply State.wr_mem)

theorem State.setTries_mem (s : State) (k v : Nat) (hM : s.memoryWf = true) :
    (State.setTries s k v).memoryWf = true := by
  unfold State.setTries
  exact hM

theorem State.auxFollow_mem (s : State) (k : Nat) (hM : s.memoryWf = true) :
    (State.auxFollow s k).memoryWf = true := by
  unfold State.auxFollow
  repeat' first | (intro x; clear_value x) | lift_lets -underBinder | with_reducible (first | assumption | apply State.setAux_mem | apply State.emit_mem | apply State.setTries_mem | apply memIte)

theorem State.auxBoth_mem (s : State) (hM : s.memoryWf = true) :
    (State.auxBoth s).memoryWf = true := by
  unfold State.auxBoth
  repeat' first | with_reducible (first | assumption | apply State.auxFollow_mem)

theorem State.retiredParts_mem (old s : State) (hM : old.memoryWf = true) (hM1 : s.memoryWf = true) :
    (State.retiredParts old s).memoryWf = true := by
  unfold State.retiredParts
  repeat' first | (intro x; refine memCut x ?_ fun _ => ?_; (on_goal 1 => subst x); (on_goal 2 => clear_value x)) | (intro x; refine funCut x ?_; subst x) | (intro x; clear_value x) | (with_reducible intro _) | lift_lets -underBinder | with_reducible (first | assumption | apply State.setEng_mem | apply State.wr_mem | apply State.pcMaps_mem | apply memIte | apply memFoldl)

theorem State.coldState_mem (s : State) (hold : Nat → Bool) (h : s.memoryWf = true) : (s.coldState hold).memoryWf = true := by
  refine State.showSlots_mem _ (State.pantryShow_mem _ (State.runFirmware_mem _ _ (State.retiredParts_mem _ _ h ?_)))
  rw [memFields] at *; exact ⟨twf_filter _ _ _ h.1, twf_filter _ _ _ h.2.1, rfl, rfl⟩

theorem State.enterStop_mem (s : State) (cause : Nat) (hM : s.memoryWf = true) :
    (State.enterStop s cause).memoryWf = true := by
  unfold State.enterStop
  repeat' first | (intro x; refine memCut x ?_ fun _ => ?_; (on_goal 1 => subst x); (on_goal 2 => clear_value x)) | (with_reducible intro _) | lift_lets -underBinder | with_reducible (first | assumption | apply State.coldState_mem | apply State.wrs_mem | apply State.emit_mem | apply State.auxBoth_mem)

theorem State.powerUp_mem (s : State) (h : s.memoryWf = true) : (s.powerUp).memoryWf = true := by
  refine State.auxBoth_mem _ (State.emit_mem _ _ ?_)
  rw [memFields] at *; exact ⟨twf_filter _ _ _ h.1, h.2⟩

theorem State.wake_mem (s : State) (mask : Nat) (frame : Bytes) (hM : s.memoryWf = true) :
    (State.wake s mask frame).memoryWf = true := by
  unfold State.wake
  repeat' first | (intro x; refine memCut x ?_ fun _ => ?_; (on_goal 1 => subst x); (on_goal 2 => clear_value x)) | (intro x; clear_value x) | lift_lets -underBinder | with_reducible (first | assumption | apply State.wrs_mem | apply State.bump_mem | apply State.setDom_mem | apply State.powerUp_mem | apply memIte | (fail_if_no_progress refine memMk rfl rfl rfl rfl ?_))

theorem State.stopReached_mem (s : State) (cause : Nat) (hM : s.memoryWf = true) :
    (State.stopReached s cause).memoryWf = true := by
  unfold State.stopReached
  repeat' first | (intro x; refine memCut x ?_ fun _ => ?_; (on_goal 1 => subst x); (on_goal 2 => clear_value x)) | lift_lets -underBinder | with_reducible (first | assumption | apply State.enterStop_mem | apply State.wake_mem | apply memIte)

theorem State.railBack_mem (s : State) (step : Nat) (hM : s.memoryWf = true) :
    (State.railBack s step).memoryWf = true := by
  unfold State.railBack
  repeat' first | (intro x; refine memCut x ?_ fun _ => ?_; (on_goal 1 => subst x); (on_goal 2 => clear_value x)) | (intro x; clear_value x) | lift_lets -underBinder | with_reducible (first | assumption | apply State.assumeEnds_mem | apply memIte | (fail_if_no_progress refine memMk rfl rfl rfl rfl ?_))

theorem State.presetVcore_mem (s : State) (hM : s.memoryWf = true) :
    (State.presetVcore s).memoryWf = true := by
  unfold State.presetVcore
  repeat' first | (intro x; clear_value x) | lift_lets -underBinder | with_reducible (first | assumption | apply State.emit_mem | (fail_if_no_progress refine memMk rfl rfl rfl rfl ?_))

theorem execRailInWindow_mem (t : Nat) (step : Fin 8) (s : State) (hM : s.memoryWf = true) :
    OutMem (execRailInWindow t step s) := by
  unfold execRailInWindow
  repeat' first | (intro x; refine memCut x ?_ fun _ => ?_; (on_goal 1 => subst x); (on_goal 2 => clear_value x)) | (intro x; clear_value x) | lift_lets -underBinder | with_reducible (first | assumption | apply State.advance_mem | apply State.presetVcore_mem | apply State.wr_mem | apply State.railBack_mem | apply memIte | apply outNext | (fail_if_no_progress refine memMk rfl rfl rfl rfl ?_))

theorem execPowerupRailTimeout_mem (t : Nat) (s : State) (hM : s.memoryWf = true) :
    OutMem (execPowerupRailTimeout t s) := by
  unfold execPowerupRailTimeout
  repeat' first | (intro x; refine memCut x ?_ fun _ => ?_; (on_goal 1 => subst x); (on_goal 2 => clear_value x)) | (intro x; clear_value x) | lift_lets -underBinder | with_reducible (first | assumption | apply State.advance_mem | apply State.bump_mem | apply State.sentinelLog_mem | apply State.emit_mem | apply State.wrs_mem | apply State.auxBoth_mem | apply memIte | apply outNext | (fail_if_no_progress refine memMk rfl rfl rfl rfl ?_))

theorem execPowerupRetry_mem (t : Nat) (s : State) (hM : s.memoryWf = true) :
    OutMem (execPowerupRetry t s) := by
  unfold execPowerupRetry
  repeat' first | (intro x; refine memCut x ?_ fun _ => ?_; (on_goal 1 => subst x); (on_goal 2 => clear_value x)) | lift_lets -underBinder | with_reducible (first | assumption | apply State.advance_mem | apply State.powerUp_mem | apply memIte | apply outNext)

theorem execRailOutOfWindow_mem (t : Nat) (step : Fin 8) (s : State) (hM : s.memoryWf = true) :
    OutMem (execRailOutOfWindow t step s) := by
  unfold execRailOutOfWindow
  repeat' first | (intro x; refine memCut x ?_ fun _ => ?_; (on_goal 1 => subst x); (on_goal 2 => clear_value x)) | (intro x; clear_value x) | lift_lets -underBinder | with_reducible (first | assumption | apply State.advance_mem | apply State.faultLog_mem | apply State.assume_mem | apply State.exclude_mem | apply memIte | apply outNext | (fail_if_no_progress refine memMk rfl rfl rfl rfl ?_))

theorem execPowerOn_mem (t : Nat) (s : State) (hM : s.memoryWf = true) :
    OutMem (execPowerOn t s) := by
  unfold execPowerOn
  repeat' first | (intro x; refine memCut x ?_ fun _ => ?_; (on_goal 1 => subst x); (on_goal 2 => clear_value x)) | (intro x; clear_value x) | lift_lets -underBinder | with_reducible (first | assumption | apply State.advance_mem | apply State.wake_mem | apply memIte | apply outNext | (fail_if_no_progress refine memMk rfl rfl rfl rfl ?_))

theorem execVaonLoss_mem (t : Nat) (s : State) (hM : s.memoryWf = true) :
    OutMem (execVaonLoss t s) := by
  unfold execVaonLoss
  repeat' first | (intro x; refine memCut x ?_ fun _ => ?_; (on_goal 1 => subst x); (on_goal 2 => clear_value x)) | lift_lets -underBinder | with_reducible (first | assumption | apply State.advance_mem | apply State.abandonKeep_mem | apply State.coldState_mem | apply State.emit_mem | apply memIte | apply outNext | (fail_if_no_progress refine memMk rfl rfl rfl rfl ?_))

theorem execThermalShutdown_mem (t : Nat) (s : State) (hM : s.memoryWf = true) :
    OutMem (execThermalShutdown t s) := by
  unfold execThermalShutdown
  repeat' first | (intro x; refine memCut x ?_ fun _ => ?_; (on_goal 1 => subst x); (on_goal 2 => clear_value x)) | lift_lets -underBinder | with_reducible (first | assumption | apply State.advance_mem | apply State.abandonKeep_mem | apply State.sentinelLog_mem | apply State.stopReached_mem | apply memIte | apply outNext)

theorem State.logRefusal_mem (s : State) (refuser kind : Nat) (hM : s.memoryWf = true) :
    (State.logRefusal s refuser kind).memoryWf = true := by
  unfold State.logRefusal
  repeat' first | with_reducible (first | assumption | apply State.bump_mem | apply State.wrs_mem)

theorem State.cutSlot_mem (s : State) (n : Nat) (hM : s.memoryWf = true) :
    (State.cutSlot s n).memoryWf = true := by
  unfold State.cutSlot
  repeat' first | (intro x; refine memCut x ?_ fun _ => ?_; (on_goal 1 => subst x); (on_goal 2 => clear_value x)) | (intro x; clear_value x) | lift_lets -underBinder | with_reducible (first | assumption | apply State.endLines_mem | apply State.unbindUnits_mem | apply State.closeOutputs_mem | apply State.closeReplay_mem | apply State.endRing_mem | apply State.zeroRegions_mem | apply State.dropMigrations_mem | apply State.endContract_mem)

theorem State.shutDown_mem (s : State) (hM : s.memoryWf = true) :
    (State.shutDown s).memoryWf = true := by
  unfold State.shutDown
  repeat' first | (intro x; refine memCut x ?_ fun _ => ?_; (on_goal 1 => subst x); (on_goal 2 => clear_value x)) | (intro x; clear_value x) | (with_reducible intro _) | lift_lets -underBinder | with_reducible (first | assumption | apply State.emit_mem | apply State.wr_mem | apply State.displayOff_mem | apply State.leaveActive_mem | apply State.calEnd_mem | apply memIte | apply memFoldl | (fail_if_no_progress refine memMk rfl rfl rfl rfl ?_))

theorem State.forceStop_mem (s : State) (hM : s.memoryWf = true) :
    (State.forceStop s).memoryWf = true := by
  unfold State.forceStop
  repeat' first | (intro x; refine memCut x ?_ fun _ => ?_; (on_goal 1 => subst x); (on_goal 2 => clear_value x)) | (with_reducible intro _) | lift_lets -underBinder | with_reducible (first | assumption | apply State.cutSlot_mem | apply State.xferDrop_mem | apply State.xferEnd_mem | apply State.abandonKeep_mem | apply State.shutDown_mem | apply memIte | apply memFoldl)

theorem State.stopRequest_mem (s : State) (cause : Nat) (hM : s.memoryWf = true) :
    (State.stopRequest s cause).memoryWf = true := by
  unfold State.stopRequest
  repeat' first | (intro x; refine memCut x ?_ fun _ => ?_; (on_goal 1 => subst x); (on_goal 2 => clear_value x)) | (intro x; clear_value x) | (with_reducible intro _) | lift_lets -underBinder | with_reducible (first | assumption | apply State.forceStop_mem | apply State.logRefusal_mem | apply memIte | (fail_if_no_progress refine memMk rfl rfl rfl rfl ?_) | (refine memOk (by assumption) ?_)) | split

theorem State.stopAsk_mem (s : State) (cause : Nat) (hM : s.memoryWf = true) :
    (State.stopAsk s cause).memoryWf = true := by
  unfold State.stopAsk
  repeat' first | (intro x; clear_value x) | lift_lets -underBinder | with_reducible (first | assumption | apply State.stopRequest_mem | apply memIte | (fail_if_no_progress refine memMk rfl rfl rfl rfl ?_))

theorem State.stopWaiting_mem (s : State) (hM : s.memoryWf = true) :
    (State.stopWaiting s).memoryWf = true := by
  unfold State.stopWaiting
  repeat' first | lift_lets -underBinder | with_reducible (first | assumption | apply State.stopAsk_mem | (fail_if_no_progress refine memMk rfl rfl rfl rfl ?_) | (refine memOk (by assumption) ?_)) | split

theorem stopAction_mem (v : Nat) (s : State) (hM : s.memoryWf = true) :
    OkMem (stopAction v s) := by
  unfold stopAction
  repeat' first | (with_reducible intro _) | with_reducible (first | assumption | apply State.stopAsk_mem | apply okIte | apply memIte | apply okOk | apply okErr)

theorem execStop_mem (t : Nat) (s : State) (hM : s.memoryWf = true) :
    OutMem (execStop t s) := by
  unfold execStop
  repeat' first | with_reducible (first | assumption | apply State.serve_mem | apply stopAction_mem | apply outNext)

theorem execStopForce_mem (t : Nat) (s : State) (hM : s.memoryWf = true) :
    OutMem (execStopForce t s) := by
  unfold execStopForce
  repeat' first | with_reducible (first | assumption | apply State.serve_mem | apply stopAction_mem | apply outNext)

theorem State.pinStop_mem (s : State) (hM : s.memoryWf = true) :
    (State.pinStop s).memoryWf = true := by
  unfold State.pinStop
  repeat' first | with_reducible (first | assumption | apply State.stopAsk_mem | apply memIte)

theorem execStopReqNEdge_mem (t : Nat) (s : State) (hM : s.memoryWf = true) :
    OutMem (execStopReqNEdge t s) := by
  unfold execStopReqNEdge
  repeat' first | with_reducible (first | assumption | apply State.advance_mem | apply State.pinStop_mem | apply outNext)

theorem execStopReqRepeat_mem (t : Nat) (low : Bool) (s : State) (hM : s.memoryWf = true) :
    OutMem (execStopReqRepeat t low s) := by
  unfold execStopReqRepeat
  repeat' first | (intro x; refine memCut x ?_ fun _ => ?_; (on_goal 1 => subst x); (on_goal 2 => clear_value x)) | (intro x; clear_value x) | lift_lets -underBinder | with_reducible (first | assumption | apply State.advance_mem | apply State.pinStop_mem | apply memIte | apply outNext | (fail_if_no_progress refine memMk rfl rfl rfl rfl ?_))

theorem State.abortEntry_mem (s : State) (cause refuser : Nat) (hM : s.memoryWf = true) :
    (State.abortEntry s cause refuser).memoryWf = true := by
  unfold State.abortEntry
  repeat' first | (intro x; refine memCut x ?_ fun _ => ?_; (on_goal 1 => subst x); (on_goal 2 => clear_value x)) | (intro x; clear_value x) | lift_lets -underBinder | with_reducible (first | assumption | apply State.logRefusal_mem | (fail_if_no_progress refine memMk rfl rfl rfl rfl ?_))

theorem execStopGraceExpiry_mem (t : Nat) (s : State) (hM : s.memoryWf = true) :
    OutMem (execStopGraceExpiry t s) := by
  unfold execStopGraceExpiry
  repeat' first | (intro x; refine memCut x ?_ fun _ => ?_; (on_goal 1 => subst x); (on_goal 2 => clear_value x)) | lift_lets -underBinder | with_reducible (first | assumption | apply State.advance_mem | apply State.abortEntry_mem | apply State.shutDown_mem | apply memIte | apply outNext | (fail_if_no_progress refine memMk rfl rfl rfl rfl ?_) | (refine memOk (by assumption) ?_)) | split

theorem execStopReached_mem (t : Nat) (s : State) (hM : s.memoryWf = true) :
    OutMem (execStopReached t s) := by
  unfold execStopReached
  repeat' first | (intro x; refine memCut x ?_ fun _ => ?_; (on_goal 1 => subst x); (on_goal 2 => clear_value x)) | lift_lets -underBinder | with_reducible (first | assumption | apply State.advance_mem | apply State.stopReached_mem | apply memIte | apply outNext | (fail_if_no_progress refine memMk rfl rfl rfl rfl ?_) | (refine memOk (by assumption) ?_)) | split

theorem refusalClear_mem  (s : State) (hM : s.memoryWf = true) :
    OkMem (refusalClear s) := by
  unfold refusalClear
  repeat' first | (with_reducible intro _) | with_reducible (first | assumption | apply State.wr_mem | apply okOk)

theorem execRefusalLogClear_mem (t : Nat) (s : State) (hM : s.memoryWf = true) :
    OutMem (execRefusalLogClear t s) := by
  unfold execRefusalLogClear
  repeat' first | with_reducible (first | assumption | apply State.serve_mem | apply refusalClear_mem | apply outNext)

theorem execWakeSample_mem (t : Nat) (wakeIn : Option Bool) (can : Option (Nat × Nat × List (BitVec 8))) (perst lane : Bool) (s : State) (hM : s.memoryWf = true) :
    OutMem (execWakeSample t wakeIn can perst lane s) := by
  unfold execWakeSample
  repeat' first | (intro x; refine memCut x ?_ fun _ => ?_; (on_goal 1 => subst x); (on_goal 2 => clear_value x)) | (intro x; clear_value x) | lift_lets -underBinder | with_reducible (first | assumption | apply State.advance_mem | apply State.wake_mem | apply memIte | apply outNext | (fail_if_no_progress refine memMk rfl rfl rfl rfl ?_))

theorem State.afterChange_mem (s : State) (hM : s.memoryWf = true) :
    (State.afterChange s).memoryWf = true := by
  unfold State.afterChange
  repeat' first | (intro x; refine memCut x ?_ fun _ => ?_; (on_goal 1 => subst x); (on_goal 2 => clear_value x)) | lift_lets -underBinder | with_reducible (first | assumption | apply State.stopWaiting_mem | apply State.planChange_mem | apply memIte)

theorem execOpVokAssert_mem (t : Nat) (s : State) (hM : s.memoryWf = true) :
    OutMem (execOpVokAssert t s) := by
  unfold execOpVokAssert
  repeat' first | (intro x; refine memCut x ?_ fun _ => ?_; (on_goal 1 => subst x); (on_goal 2 => clear_value x)) | (intro x; clear_value x) | lift_lets -underBinder | with_reducible (first | assumption | apply State.advance_mem | apply State.wr_mem | apply memIte | apply outNext | (fail_if_no_progress refine memMk rfl rfl rfl rfl ?_) | (refine memOk (by assumption) ?_)) | split

theorem execOpFrequencySwitch_mem (t : Nat) (s : State) (hM : s.memoryWf = true) :
    OutMem (execOpFrequencySwitch t s) := by
  unfold execOpFrequencySwitch
  repeat' first | (intro x; refine memCut x ?_ fun _ => ?_; (on_goal 1 => subst x); (on_goal 2 => clear_value x)) | (intro x; clear_value x) | lift_lets -underBinder | with_reducible (first | assumption | apply State.advance_mem | apply State.selectPoint_mem | apply State.endChange_mem | apply State.afterChange_mem | apply State.bump_mem | apply State.wr_mem | apply State.avsWrite_mem | apply memIte | apply outNext | (fail_if_no_progress refine memMk rfl rfl rfl rfl ?_) | (refine memOk (by assumption) ?_)) | split

theorem execOpVcoreSettled_mem (t : Nat) (s : State) (hM : s.memoryWf = true) :
    OutMem (execOpVcoreSettled t s) := by
  unfold execOpVcoreSettled
  repeat' first | (intro x; refine memCut x ?_ fun _ => ?_; (on_goal 1 => subst x); (on_goal 2 => clear_value x)) | lift_lets -underBinder | with_reducible (first | assumption | apply State.advance_mem | apply State.endChange_mem | apply State.afterChange_mem | apply memIte | apply outNext | (fail_if_no_progress refine memMk rfl rfl rfl rfl ?_) | (refine memOk (by assumption) ?_)) | split

theorem execOpSettleTimeout_mem (t : Nat) (s : State) (hM : s.memoryWf = true) :
    OutMem (execOpSettleTimeout t s) := by
  unfold execOpSettleTimeout
  repeat' first | (intro x; refine memCut x ?_ fun _ => ?_; (on_goal 1 => subst x); (on_goal 2 => clear_value x)) | lift_lets -underBinder | with_reducible (first | assumption | apply State.advance_mem | apply State.avsWrite_mem | apply State.changeFailed_mem | apply State.afterChange_mem | apply memIte | apply outNext | (fail_if_no_progress refine memMk rfl rfl rfl rfl ?_) | (refine memOk (by assumption) ?_)) | split

theorem execAvsPoll_mem (t mV mA : Nat) (status : Option Nat) (s : State) (hM : s.memoryWf = true) :
    OutMem (execAvsPoll t mV mA status s) := by
  unfold execAvsPoll
  repeat' first | (intro x; refine memCut x ?_ fun _ => ?_; (on_goal 1 => subst x); (on_goal 2 => clear_value x)) | (intro x; clear_value x) | (with_reducible intro _) | lift_lets -underBinder | with_reducible (first | assumption | apply State.advance_mem | apply State.wr_mem | apply State.faultLog_mem | apply memIte | apply outNext | (fail_if_no_progress refine memMk rfl rfl rfl rfl ?_) | (refine memOk (by assumption) ?_)) | split

theorem execLedgerSample_mem (t : Nat) (s : State) (hM : s.memoryWf = true) :
    OutMem (execLedgerSample t s) := by
  unfold execLedgerSample
  repeat' first | (intro x; refine memCut x ?_ fun _ => ?_; (on_goal 1 => subst x); (on_goal 2 => clear_value x)) | (intro x; refine funCut x ?_; subst x) | (intro x; clear_value x) | (with_reducible intro _) | lift_lets -underBinder | with_reducible (first | assumption | apply State.advance_mem | apply memIte | apply memFoldl | apply outNext | (fail_if_no_progress refine memMk rfl rfl rfl rfl ?_))

theorem State.closeWindows_mem (s : State) (hM : s.memoryWf = true) :
    (State.closeWindows s).memoryWf = true := by
  unfold State.closeWindows
  repeat' first | (intro x; clear_value x) | lift_lets -underBinder | with_reducible (first | assumption | apply memIte | (fail_if_no_progress refine memMk rfl rfl rfl rfl ?_))

theorem State.freshWindow_mem (s : State) (hM : s.memoryWf = true) :
    (State.freshWindow s).memoryWf = true := by
  unfold State.freshWindow
  exact hM

theorem State.publishWindow_mem (s : State) (hM : s.memoryWf = true) :
    (State.publishWindow s).memoryWf = true := by
  unfold State.publishWindow
  repeat' first | (intro x; refine memCut x ?_ fun _ => ?_; (on_goal 1 => subst x); (on_goal 2 => clear_value x)) | (intro x; clear_value x) | (with_reducible intro _) | lift_lets -underBinder | with_reducible (first | assumption | apply State.freshWindow_mem | apply State.wrs_mem | apply State.bumpBy_mem | apply State.setDom_mem | apply State.closeWindows_mem | (fail_if_no_progress refine memMk rfl rfl rfl rfl ?_))

theorem State.overEnvelope_mem (s : State) (p : Nat) (hM : s.memoryWf = true) :
    (State.overEnvelope s p).memoryWf = true := by
  unfold State.overEnvelope
  repeat' first | (intro x; refine memCut x ?_ fun _ => ?_; (on_goal 1 => subst x); (on_goal 2 => clear_value x)) | (intro x; clear_value x) | lift_lets -underBinder | with_reducible (first | assumption | apply State.bump_mem | apply State.faultLog_mem | apply memIte | (fail_if_no_progress refine memMk rfl rfl rfl rfl ?_))

theorem State.countHours_mem (s : State) (hM : s.memoryWf = true) :
    (State.countHours s).memoryWf = true := by
  unfold State.countHours
  repeat' first | (intro x; refine memCut x ?_ fun _ => ?_; (on_goal 1 => subst x); (on_goal 2 => clear_value x)) | (intro x; refine funCut x ?_; subst x) | (intro x; clear_value x) | (with_reducible intro _) | lift_lets -underBinder | with_reducible (first | assumption | apply State.bump_mem | apply memIte | (fail_if_no_progress refine memMk rfl rfl rfl rfl ?_))

theorem State.ledgerWindow_mem (s : State) (hM : s.memoryWf = true) :
    (State.ledgerWindow s).memoryWf = true := by
  unfold State.ledgerWindow
  repeat' first | with_reducible (first | assumption | apply State.freshWindow_mem | apply State.publishWindow_mem | apply State.overEnvelope_mem | apply memIte)

theorem execLedgerWindow_mem (t : Nat) (s : State) (hM : s.memoryWf = true) :
    OutMem (execLedgerWindow t s) := by
  unfold execLedgerWindow
  repeat' first | (intro x; refine memCut x ?_ fun _ => ?_; (on_goal 1 => subst x); (on_goal 2 => clear_value x)) | lift_lets -underBinder | with_reducible (first | assumption | apply State.advance_mem | apply State.countHours_mem | apply State.ledgerWindow_mem | apply memIte | apply outNext)

theorem State.fitTerm_mem (s : State) (pt : Nat) (x : Nat × Nat) (hM : s.memoryWf = true) :
    (State.fitTerm s pt x).memoryWf = true := by
  unfold State.fitTerm
  repeat' first | (intro x; clear_value x) | lift_lets -underBinder | with_reducible (first | assumption | (fail_if_no_progress refine memMk rfl rfl rfl rfl ?_))

theorem execLedgerFit_mem (t : Nat) (fitted : List Nat) (s : State) (hM : s.memoryWf = true) :
    OutMem (execLedgerFit t fitted s) := by
  unfold execLedgerFit
  repeat' first | (intro x; refine memCut x ?_ fun _ => ?_; (on_goal 1 => subst x); (on_goal 2 => clear_value x)) | (with_reducible intro _) | lift_lets -underBinder | with_reducible (first | assumption | apply State.advance_mem | apply State.fitTerm_mem | apply State.wr_mem | apply memIte | apply memFoldl | apply outNext)

theorem execThrottleEvaluate_mem (t : Nat) (usage : List Nat) (s : State) (hM : s.memoryWf = true) :
    OutMem (execThrottleEvaluate t usage s) := by
  unfold execThrottleEvaluate
  repeat' first | (intro x; refine memCut x ?_ fun _ => ?_; (on_goal 1 => subst x); (on_goal 2 => clear_value x)) | lift_lets -underBinder | with_reducible (first | assumption | apply State.advance_mem | apply State.wr_mem | apply State.bump_mem | apply memIte | apply outNext)

theorem clearPeak_mem  (s : State) (hM : s.memoryWf = true) :
    OkMem (clearPeak s) := by
  unfold clearPeak
  repeat' first | (with_reducible intro _) | with_reducible (first | assumption | apply State.wr_mem | apply okOk)

theorem execClearPeak_mem (t : Nat) (s : State) (hM : s.memoryWf = true) :
    OutMem (execClearPeak t s) := by
  unfold execClearPeak
  repeat' first | with_reducible (first | assumption | apply State.serve_mem | apply clearPeak_mem | apply outNext)

theorem State.auxLatch_mem (s : State) (k : Nat) (hM : s.memoryWf = true) :
    (State.auxLatch s k).memoryWf = true := by
  unfold State.auxLatch
  repeat' first | (intro x; refine memCut x ?_ fun _ => ?_; (on_goal 1 => subst x); (on_goal 2 => clear_value x)) | lift_lets -underBinder | with_reducible (first | assumption | apply State.setAux_mem | apply State.emit_mem | apply State.bump_mem | apply State.sentinelLog_mem | apply State.faultLog_mem | apply memIte)

theorem execAuxLdoSoftStartEnd_mem (t : Nat) (k : Fin 2) (good : Bool) (s : State) (hM : s.memoryWf = true) :
    OutMem (execAuxLdoSoftStartEnd t k good s) := by
  unfold execAuxLdoSoftStartEnd
  repeat' first | (intro x; refine memCut x ?_ fun _ => ?_; (on_goal 1 => subst x); (on_goal 2 => clear_value x)) | lift_lets -underBinder | with_reducible (first | assumption | apply State.advance_mem | apply State.setAux_mem | apply State.setTries_mem | apply State.auxLatch_mem | apply memIte | apply outNext)

theorem execAuxLdoLimit_mem (t : Nat) (k : Fin 2) (s : State) (hM : s.memoryWf = true) :
    OutMem (execAuxLdoLimit t k s) := by
  unfold execAuxLdoLimit
  repeat' first | (intro x; refine memCut x ?_ fun _ => ?_; (on_goal 1 => subst x); (on_goal 2 => clear_value x)) | lift_lets -underBinder | with_reducible (first | assumption | apply State.advance_mem | apply State.auxLatch_mem | apply memIte | apply outNext)

theorem execAuxLdoRetry_mem (t : Nat) (k : Fin 2) (s : State) (hM : s.memoryWf = true) :
    OutMem (execAuxLdoRetry t k s) := by
  unfold execAuxLdoRetry
  repeat' first | (intro x; refine memCut x ?_ fun _ => ?_; (on_goal 1 => subst x); (on_goal 2 => clear_value x)) | (intro x; clear_value x) | lift_lets -underBinder | with_reducible (first | assumption | apply State.advance_mem | apply State.setAux_mem | apply State.setTries_mem | apply State.emit_mem | apply memIte | apply outNext)

theorem auxReset_mem (mask : Nat) (s : State) (hM : s.memoryWf = true) :
    OkMem (auxReset mask s) := by
  unfold auxReset
  repeat' first | (with_reducible intro _) | with_reducible (first | assumption | apply State.setAux_mem | apply State.setTries_mem | apply State.auxFollow_mem | apply okIte | apply memIte | apply memFoldl | apply okOk)

theorem execAuxLdoReset_mem (t mask : Nat) (s : State) (hM : s.memoryWf = true) :
    OutMem (execAuxLdoReset t mask s) := by
  unfold execAuxLdoReset
  repeat' first | with_reducible (first | assumption | apply State.serve_mem | apply auxReset_mem | apply outNext)

end Sys2Proof.Machine
end

