-- ==== Sys2Proof/Laws/KeepLifetime.lean ====
section
/-! SUPPORT. The definitions of these files of Machine keep the canonical form of the memories: Microcode, Tdc, Calendar, Lifetime. -/

namespace Sys2Proof.Machine

open Sys2Proof

theorem State.cycleIf_mem (s : State) (c : Bool) (e : Nat) (hM : s.memoryWf = true) :
    (State.cycleIf s c e).memoryWf = true := by
  unfold State.cycleIf
  repeat' first | with_reducible (first | assumption | apply State.engineCycle_mem | apply memIte)

theorem State.memError_mem (s : State) (err : Nat) (hM : s.memoryWf = true) :
    (State.memError s err).memoryWf = true := by
  unfold State.memError
  repeat' first | with_reducible (first | assumption | apply State.countCorrected_mem | apply State.countUncorrected_mem | apply memIte)

theorem execBranch_mem (t : Nat) (e : Fin 1088) (err : Fin 3) (s : State) (hM : s.memoryWf = true) :
    OutMem (execBranch t e err s) := by
  unfold execBranch
  repeat' first | (intro x; refine memCut x ?_ fun _ => ?_; (on_goal 1 => subst x); (on_goal 2 => clear_value x)) | (with_reducible intro _) | lift_lets -underBinder | with_reducible (first | assumption | apply State.advance_mem | apply State.memError_mem | apply State.engineCycle_mem | apply memIte | apply outNext)

theorem execLoopEnter_mem (t : Nat) (e : Fin 1088) (s : State) (hM : s.memoryWf = true) :
    OutMem (execLoopEnter t e s) := by
  unfold execLoopEnter
  repeat' first | (intro x; refine memCut x ?_ fun _ => ?_; (on_goal 1 => subst x); (on_goal 2 => clear_value x)) | (with_reducible intro _) | lift_lets -underBinder | with_reducible (first | assumption | apply State.advance_mem | apply State.cycleIf_mem | apply outNext)

theorem execLoopEnd_mem (t : Nat) (e : Fin 1088) (err : Fin 3) (s : State) (hM : s.memoryWf = true) :
    OutMem (execLoopEnd t e err s) := by
  unfold execLoopEnd
  repeat' first | (intro x; refine memCut x ?_ fun _ => ?_; (on_goal 1 => subst x); (on_goal 2 => clear_value x)) | (with_reducible intro _) | lift_lets -underBinder | with_reducible (first | assumption | apply State.advance_mem | apply State.memError_mem | apply State.engineCycle_mem | apply memIte | apply outNext)

theorem execLoopBreak_mem (t : Nat) (e : Fin 1088) (s : State) (hM : s.memoryWf = true) :
    OutMem (execLoopBreak t e s) := by
  unfold execLoopBreak
  repeat' first | (intro x; refine memCut x ?_ fun _ => ?_; (on_goal 1 => subst x); (on_goal 2 => clear_value x)) | (with_reducible intro _) | lift_lets -underBinder | with_reducible (first | assumption | apply State.advance_mem | apply State.cycleIf_mem | apply outNext)

theorem execSafePoint_mem (t : Nat) (e : Fin 1088) (s : State) (hM : s.memoryWf = true) :
    OutMem (execSafePoint t e s) := by
  unfold execSafePoint
  repeat' first | (intro x; refine memCut x ?_ fun _ => ?_; (on_goal 1 => subst x); (on_goal 2 => clear_value x)) | (with_reducible intro _) | lift_lets -underBinder | with_reducible (first | assumption | apply State.advance_mem | apply State.cycleIf_mem | apply outNext)

theorem execRet_mem (t : Nat) (e : Fin 1088) (err : Fin 3) (s : State) (hM : s.memoryWf = true) :
    OutMem (execRet t e err s) := by
  unfold execRet
  repeat' first | (intro x; refine memCut x ?_ fun _ => ?_; (on_goal 1 => subst x); (on_goal 2 => clear_value x)) | (with_reducible intro _) | lift_lets -underBinder | with_reducible (first | assumption | apply State.advance_mem | apply State.memError_mem | apply State.engineCycle_mem | apply memIte | apply outNext)

theorem execYield_mem (t : Nat) (e : Fin 1088) (s : State) (hM : s.memoryWf = true) :
    OutMem (execYield t e s) := by
  unfold execYield
  repeat' first | (intro x; refine memCut x ?_ fun _ => ?_; (on_goal 1 => subst x); (on_goal 2 => clear_value x)) | (with_reducible intro _) | lift_lets -underBinder | with_reducible (first | assumption | apply State.advance_mem | apply State.cycleIf_mem | apply outNext)

theorem execOperandRead_mem (t : Nat) (e : Fin 1088) (err : Fin 3) (s : State) (hM : s.memoryWf = true) :
    OutMem (execOperandRead t e err s) := by
  unfold execOperandRead
  repeat' first | (intro x; refine memCut x ?_ fun _ => ?_; (on_goal 1 => subst x); (on_goal 2 => clear_value x)) | (with_reducible intro _) | lift_lets -underBinder | with_reducible (first | assumption | apply State.advance_mem | apply State.memError_mem | apply State.engineCycle_mem | apply memIte | apply outNext)

theorem execRegisterLoad_mem (t : Nat) (e : Fin 1088) (err : Fin 3) (s : State) (hM : s.memoryWf = true) :
    OutMem (execRegisterLoad t e err s) := by
  unfold execRegisterLoad
  repeat' first | (intro x; refine memCut x ?_ fun _ => ?_; (on_goal 1 => subst x); (on_goal 2 => clear_value x)) | (with_reducible intro _) | lift_lets -underBinder | with_reducible (first | assumption | apply State.advance_mem | apply State.memError_mem | apply State.engineCycle_mem | apply memIte | apply outNext)

theorem execSetAcc_mem (t : Nat) (e : Fin 1088) (s : State) (hM : s.memoryWf = true) :
    OutMem (execSetAcc t e s) := by
  unfold execSetAcc
  repeat' first | (intro x; refine memCut x ?_ fun _ => ?_; (on_goal 1 => subst x); (on_goal 2 => clear_value x)) | (with_reducible intro _) | lift_lets -underBinder | with_reducible (first | assumption | apply State.advance_mem | apply State.cycleIf_mem | apply outNext)

theorem execAdd_mem (t : Nat) (e : Fin 1088) (s : State) (hM : s.memoryWf = true) :
    OutMem (execAdd t e s) := by
  unfold execAdd
  repeat' first | (intro x; refine memCut x ?_ fun _ => ?_; (on_goal 1 => subst x); (on_goal 2 => clear_value x)) | (with_reducible intro _) | lift_lets -underBinder | with_reducible (first | assumption | apply State.advance_mem | apply State.cycleIf_mem | apply outNext)

theorem execSub_mem (t : Nat) (e : Fin 1088) (s : State) (hM : s.memoryWf = true) :
    OutMem (execSub t e s) := by
  unfold execSub
  repeat' first | (intro x; refine memCut x ?_ fun _ => ?_; (on_goal 1 => subst x); (on_goal 2 => clear_value x)) | (with_reducible intro _) | lift_lets -underBinder | with_reducible (first | assumption | apply State.advance_mem | apply State.cycleIf_mem | apply outNext)

theorem execClr_mem (t : Nat) (e : Fin 1088) (s : State) (hM : s.memoryWf = true) :
    OutMem (execClr t e s) := by
  unfold execClr
  repeat' first | (intro x; refine memCut x ?_ fun _ => ?_; (on_goal 1 => subst x); (on_goal 2 => clear_value x)) | (with_reducible intro _) | lift_lets -underBinder | with_reducible (first | assumption | apply State.advance_mem | apply State.cycleIf_mem | apply outNext)

theorem execLdx_mem (t : Nat) (e : Fin 1088) (s : State) (hM : s.memoryWf = true) :
    OutMem (execLdx t e s) := by
  unfold execLdx
  repeat' first | (intro x; refine memCut x ?_ fun _ => ?_; (on_goal 1 => subst x); (on_goal 2 => clear_value x)) | (with_reducible intro _) | lift_lets -underBinder | with_reducible (first | assumption | apply State.advance_mem | apply State.cycleIf_mem | apply outNext)

theorem execRestore_mem (t : Nat) (e : Fin 1088) (s : State) (hM : s.memoryWf = true) :
    OutMem (execRestore t e s) := by
  unfold execRestore
  repeat' first | (intro x; refine memCut x ?_ fun _ => ?_; (on_goal 1 => subst x); (on_goal 2 => clear_value x)) | (with_reducible intro _) | lift_lets -underBinder | with_reducible (first | assumption | apply State.advance_mem | apply State.cycleIf_mem | apply outNext)

theorem execSrch_mem (t : Nat) (e : Fin 1088) (s : State) (hM : s.memoryWf = true) :
    OutMem (execSrch t e s) := by
  unfold execSrch
  repeat' first | (intro x; refine memCut x ?_ fun _ => ?_; (on_goal 1 => subst x); (on_goal 2 => clear_value x)) | (with_reducible intro _) | lift_lets -underBinder | with_reducible (first | assumption | apply State.advance_mem | apply State.cycleIf_mem | apply outNext)

theorem execSinit_mem (t : Nat) (e : Fin 1088) (s : State) (hM : s.memoryWf = true) :
    OutMem (execSinit t e s) := by
  unfold execSinit
  repeat' first | (intro x; refine memCut x ?_ fun _ => ?_; (on_goal 1 => subst x); (on_goal 2 => clear_value x)) | (with_reducible intro _) | lift_lets -underBinder | with_reducible (first | assumption | apply State.advance_mem | apply State.cycleIf_mem | apply outNext)

theorem execNorm_mem (t : Nat) (e : Fin 1088) (s : State) (hM : s.memoryWf = true) :
    OutMem (execNorm t e s) := by
  unfold execNorm
  repeat' first | (intro x; refine memCut x ?_ fun _ => ?_; (on_goal 1 => subst x); (on_goal 2 => clear_value x)) | (with_reducible intro _) | lift_lets -underBinder | with_reducible (first | assumption | apply State.advance_mem | apply State.cycleIf_mem | apply outNext)

theorem execStore_mem (t : Nat) (e : Fin 1088) (s : State) (hM : s.memoryWf = true) :
    OutMem (execStore t e s) := by
  unfold execStore
  repeat' first | (intro x; refine memCut x ?_ fun _ => ?_; (on_goal 1 => subst x); (on_goal 2 => clear_value x)) | (with_reducible intro _) | lift_lets -underBinder | with_reducible (first | assumption | apply State.advance_mem | apply State.cycleIf_mem | apply outNext)

theorem execPairStore_mem (t : Nat) (e : Fin 1088) (s : State) (hM : s.memoryWf = true) :
    OutMem (execPairStore t e s) := by
  unfold execPairStore
  repeat' first | (intro x; refine memCut x ?_ fun _ => ?_; (on_goal 1 => subst x); (on_goal 2 => clear_value x)) | (with_reducible intro _) | lift_lets -underBinder | with_reducible (first | assumption | apply State.advance_mem | apply State.cycleIf_mem | apply outNext)

theorem execRawSave_mem (t : Nat) (e : Fin 1088) (s : State) (hM : s.memoryWf = true) :
    OutMem (execRawSave t e s) := by
  unfold execRawSave
  repeat' first | (intro x; refine memCut x ?_ fun _ => ?_; (on_goal 1 => subst x); (on_goal 2 => clear_value x)) | (with_reducible intro _) | lift_lets -underBinder | with_reducible (first | assumption | apply State.advance_mem | apply State.cycleIf_mem | apply outNext)

theorem execRegisterStore_mem (t : Nat) (e : Fin 1088) (s : State) (hM : s.memoryWf = true) :
    OutMem (execRegisterStore t e s) := by
  unfold execRegisterStore
  repeat' first | (intro x; refine memCut x ?_ fun _ => ?_; (on_goal 1 => subst x); (on_goal 2 => clear_value x)) | (with_reducible intro _) | lift_lets -underBinder | with_reducible (first | assumption | apply State.advance_mem | apply State.cycleIf_mem | apply outNext)

theorem execRegisterTransferImmediate_mem (t : Nat) (e : Fin 1088) (s : State) (hM : s.memoryWf = true) :
    OutMem (execRegisterTransferImmediate t e s) := by
  unfold execRegisterTransferImmediate
  repeat' first | (intro x; refine memCut x ?_ fun _ => ?_; (on_goal 1 => subst x); (on_goal 2 => clear_value x)) | (with_reducible intro _) | lift_lets -underBinder | with_reducible (first | assumption | apply State.advance_mem | apply State.cycleIf_mem | apply outNext)

theorem execRegisterTransfer_mem (t : Nat) (e : Fin 1088) (s : State) (hM : s.memoryWf = true) :
    OutMem (execRegisterTransfer t e s) := by
  unfold execRegisterTransfer
  repeat' first | (intro x; refine memCut x ?_ fun _ => ?_; (on_goal 1 => subst x); (on_goal 2 => clear_value x)) | (with_reducible intro _) | lift_lets -underBinder | with_reducible (first | assumption | apply State.advance_mem | apply State.cycleIf_mem | apply outNext)

theorem execSend_mem (t : Nat) (e : Fin 1088) (s : State) (hM : s.memoryWf = true) :
    OutMem (execSend t e s) := by
  unfold execSend
  repeat' first | (intro x; refine memCut x ?_ fun _ => ?_; (on_goal 1 => subst x); (on_goal 2 => clear_value x)) | (with_reducible intro _) | lift_lets -underBinder | with_reducible (first | assumption | apply State.advance_mem | apply State.cycleIf_mem | apply outNext)

theorem execRxfree_mem (t : Nat) (e : Fin 1088) (s : State) (hM : s.memoryWf = true) :
    OutMem (execRxfree t e s) := by
  unfold execRxfree
  repeat' first | (intro x; refine memCut x ?_ fun _ => ?_; (on_goal 1 => subst x); (on_goal 2 => clear_value x)) | (with_reducible intro _) | lift_lets -underBinder | with_reducible (first | assumption | apply State.advance_mem | apply State.cycleIf_mem | apply outNext)

theorem execEvack_mem (t : Nat) (e : Fin 1088) (s : State) (hM : s.memoryWf = true) :
    OutMem (execEvack t e s) := by
  unfold execEvack
  repeat' first | (intro x; refine memCut x ?_ fun _ => ?_; (on_goal 1 => subst x); (on_goal 2 => clear_value x)) | (with_reducible intro _) | lift_lets -underBinder | with_reducible (first | assumption | apply State.advance_mem | apply State.cycleIf_mem | apply outNext)

theorem State.flitError_mem (s : State) (e err : Nat) (hM : s.memoryWf = true) :
    (State.flitError s e err).memoryWf = true := by
  unfold State.flitError
  repeat' first | (intro x; refine memCut x ?_ fun _ => ?_; (on_goal 1 => subst x); (on_goal 2 => clear_value x)) | (intro x; clear_value x) | lift_lets -underBinder | with_reducible (first | assumption | apply State.countCorrected_mem | apply State.setPipe_mem | apply State.countUncorrected_mem | apply State.faultLog_mem | apply memIte | (fail_if_no_progress refine memMk rfl rfl rfl rfl ?_) | (refine memOk (by assumption) ?_)) | split

theorem execReceiveFlit_mem (t : Nat) (e : Fin 1088) (words : List Nat) (frame : Option (Nat × Nat × Nat × Nat × Nat)) (err : Fin 5) (s : State) (hM : s.memoryWf = true) :
    OutMem (execReceiveFlit t e words frame err s) := by
  unfold execReceiveFlit
  repeat' first | (intro x; refine memCut x ?_ fun _ => ?_; (on_goal 1 => subst x); (on_goal 2 => clear_value x)) | (intro x; clear_value x) | lift_lets -underBinder | with_reducible (first | assumption | apply State.advance_mem | apply State.flitError_mem | apply State.setEng_mem | apply State.clusterFault_mem | apply State.bumpBy_mem | apply memIte | apply outNext)

theorem State.sendTaken_mem (s : State) (x : Engine) (q : SendReq) (hM : s.memoryWf = true) :
    (State.sendTaken s x q).memoryWf = true := by
  unfold State.sendTaken
  repeat' first | (with_reducible intro _) | lift_lets -underBinder | with_reducible (first | assumption | apply State.queueRecord_mem | apply State.bump_mem | (fail_if_no_progress refine memMk rfl rfl rfl rfl ?_) | (refine memOk (by assumption) ?_)) | split

theorem State.sendNext_mem (s : State) (e : Nat) (q : SendReq) (qs : List SendReq) (hM : s.memoryWf = true) :
    (State.sendNext s e q qs).memoryWf = true := by
  unfold State.sendNext
  repeat' first | (intro x; refine memCut x ?_ fun _ => ?_; (on_goal 1 => subst x); (on_goal 2 => clear_value x)) | (intro x; clear_value x) | (with_reducible intro _) | lift_lets -underBinder | with_reducible (first | assumption | apply State.setEng_mem | apply State.sendTaken_mem | apply State.emit_mem | apply memIte)

theorem execSendFlit_mem (t : Nat) (e : Fin 1088) (err : Fin 3) (s : State) (hM : s.memoryWf = true) :
    OutMem (execSendFlit t e err s) := by
  unfold execSendFlit
  repeat' first | (intro x; refine memCut x ?_ fun _ => ?_; (on_goal 1 => subst x); (on_goal 2 => clear_value x)) | (intro x; clear_value x) | lift_lets -underBinder | with_reducible (first | assumption | apply State.advance_mem | apply State.memError_mem | apply State.sendNext_mem | apply State.setEng_mem | apply State.clusterFault_mem | apply memIte | apply outNext | (fail_if_no_progress refine memMk rfl rfl rfl rfl ?_) | (refine memOk (by assumption) ?_)) | split

theorem State.trip_mem (s : State) (e : Nat) (hM : s.memoryWf = true) :
    (State.trip s e).memoryWf = true := by
  unfold State.trip
  repeat' first | (intro x; refine memCut x ?_ fun _ => ?_; (on_goal 1 => subst x); (on_goal 2 => clear_value x)) | (intro x; clear_value x) | lift_lets -underBinder | with_reducible (first | assumption | apply State.assume_mem | (fail_if_no_progress refine memMk rfl rfl rfl rfl ?_))

theorem execWatchdogTrip_mem (t : Nat) (e : Fin 1088) (s : State) (hM : s.memoryWf = true) :
    OutMem (execWatchdogTrip t e s) := by
  unfold execWatchdogTrip
  repeat' first | (intro x; refine memCut x ?_ fun _ => ?_; (on_goal 1 => subst x); (on_goal 2 => clear_value x)) | (intro x; clear_value x) | lift_lets -underBinder | with_reducible (first | assumption | apply State.advance_mem | apply State.setEng_mem | apply State.trip_mem | apply State.clusterFault_mem | apply memIte | apply outNext)

theorem execEventCancel_mem (t : Nat) (e : Fin 1088) (tc : Nat) (s : State) (hM : s.memoryWf = true) :
    OutMem (execEventCancel t e tc s) := by
  unfold execEventCancel
  repeat' first | (intro x; refine memCut x ?_ fun _ => ?_; (on_goal 1 => subst x); (on_goal 2 => clear_value x)) | (intro x; clear_value x) | lift_lets -underBinder | with_reducible (first | assumption | apply State.advance_mem | apply State.setEng_mem | apply State.issue_mem | apply memIte | apply outNext)

theorem execEventStop_mem (t : Nat) (e : Fin 1088) (s : State) (hM : s.memoryWf = true) :
    OutMem (execEventStop t e s) := by
  unfold execEventStop
  repeat' first | (intro x; refine memCut x ?_ fun _ => ?_; (on_goal 1 => subst x); (on_goal 2 => clear_value x)) | (intro x; clear_value x) | lift_lets -underBinder | with_reducible (first | assumption | apply State.advance_mem | apply State.setEng_mem | apply State.issue_mem | apply memIte | apply outNext)

theorem execEventSavestate_mem (t : Nat) (e : Fin 1088) (s : State) (hM : s.memoryWf = true) :
    OutMem (execEventSavestate t e s) := by
  unfold execEventSavestate
  repeat' first | (intro x; refine memCut x ?_ fun _ => ?_; (on_goal 1 => subst x); (on_goal 2 => clear_value x)) | (intro x; clear_value x) | lift_lets -underBinder | with_reducible (first | assumption | apply State.advance_mem | apply State.setEng_mem | apply State.issue_mem | apply memIte | apply outNext)

theorem execEngineStart_mem (t : Nat) (e : Fin 1088) (s : State) (hM : s.memoryWf = true) :
    OutMem (execEngineStart t e s) := by
  unfold execEngineStart
  repeat' first | (intro x; refine memCut x ?_ fun _ => ?_; (on_goal 1 => subst x); (on_goal 2 => clear_value x)) | (intro x; clear_value x) | lift_lets -underBinder | with_reducible (first | assumption | apply State.advance_mem | apply State.setEng_mem | apply memIte | apply outNext)

theorem execDebugRead_mem (t : Nat) (e : Fin 1088) (offset : Nat) (s : State) (hM : s.memoryWf = true) :
    OutMem (execDebugRead t e offset s) := by
  unfold execDebugRead
  repeat' first | (intro x; refine memCut x ?_ fun _ => ?_; (on_goal 1 => subst x); (on_goal 2 => clear_value x)) | lift_lets -underBinder | with_reducible (first | assumption | apply State.advance_mem | apply State.debugTouch_mem | apply State.emit_mem | apply outNext)

theorem execDebugWrite_mem (t : Nat) (e : Fin 1088) (offset value : Nat) (s : State) (hM : s.memoryWf = true) :
    OutMem (execDebugWrite t e offset value s) := by
  unfold execDebugWrite
  repeat' first | (intro x; refine memCut x ?_ fun _ => ?_; (on_goal 1 => subst x); (on_goal 2 => clear_value x)) | (intro x; clear_value x) | lift_lets -underBinder | with_reducible (first | assumption | apply State.advance_mem | apply State.debugTouch_mem | apply State.setEng_mem | apply State.emit_mem | apply memIte | apply outNext)

theorem microLoad_mem (i : Nat) (s : State) (hM : s.memoryWf = true) :
    OkMem (microLoad i s) := by
  unfold microLoad
  repeat' first | (with_reducible intro _) | with_reducible (first | assumption | apply State.loadMicro_mem | apply okIte | apply memIte | apply okOk | apply okErr)

theorem execMicroimageLoad_mem (t : Nat) (image : Fin 64) (s : State) (hM : s.memoryWf = true) :
    OutMem (execMicroimageLoad t image s) := by
  unfold execMicroimageLoad
  repeat' first | with_reducible (first | assumption | apply State.serve_mem | apply microLoad_mem | apply outNext)

theorem nanoLoad_mem (i : Nat) (s : State) (hM : s.memoryWf = true) :
    OkMem (nanoLoad i s) := by
  unfold nanoLoad
  repeat' first | (with_reducible intro _) | with_reducible (first | assumption | apply State.loadNano_mem | apply okIte | apply memIte | apply okOk | apply okErr)

theorem execNanoimageLoad_mem (t : Nat) (image : Fin 64) (s : State) (hM : s.memoryWf = true) :
    OutMem (execNanoimageLoad t image s) := by
  unfold execNanoimageLoad
  repeat' first | with_reducible (first | assumption | apply State.serve_mem | apply nanoLoad_mem | apply outNext)

theorem imageVerify_mem (i j : Nat) (s : State) (hM : s.memoryWf = true) :
    OkMem (imageVerify i j s) := by
  unfold imageVerify
  repeat' first | (intro x; (first | refine memCut x ?_ fun _ => ?_ | refine okCut x ?_ fun _ => ?_ | refine someCut x ?_ fun _ => ?_ | refine pairCut x ?_ fun _ => ?_ | refine pairCut2 x ?_ fun _ => ?_); (on_goal 1 => subst x); (on_goal 2 => clear_value x)) | (with_reducible intro _) | lift_lets -underBinder | with_reducible (first | assumption | apply State.verifyPair_mem | apply State.noted_mem | apply State.wr_mem | apply okIte | apply memIte | apply okOk | apply okErr)

theorem execImageVerify_mem (t : Nat) (image : Fin 64) (nano : Nat) (s : State) (hM : s.memoryWf = true) :
    OutMem (execImageVerify t image nano s) := by
  unfold execImageVerify
  repeat' first | with_reducible (first | assumption | apply State.serve_mem | apply imageVerify_mem | apply outNext)

theorem State.setTdc_mem (s : State) (c : Nat) (x : TdcState) (hM : s.memoryWf = true) :
    (State.setTdc s c x).memoryWf = true := by
  unfold State.setTdc
  exact hM

theorem State.setStat_mem (s : State) (u : Nat) (x : StatState) (hM : s.memoryWf = true) :
    (State.setStat s u x).memoryWf = true := by
  unfold State.setStat
  exact hM

theorem State.tdcLoss_mem (s : State) (c : Nat) (hM : s.memoryWf = true) :
    (State.tdcLoss s c).memoryWf = true := by
  unfold State.tdcLoss
  repeat' first | (intro x; refine memCut x ?_ fun _ => ?_; (on_goal 1 => subst x); (on_goal 2 => clear_value x)) | (intro x; clear_value x) | (with_reducible intro _) | lift_lets -underBinder | with_reducible (first | assumption | apply State.bump_mem | apply State.setTdc_mem | apply State.setStat_mem | apply memIte | apply memFoldl)

theorem execTdcEdge_mem (t : Nat) (ch : Fin 16) (falling : Bool) (s : State) (hM : s.memoryWf = true) :
    OutMem (execTdcEdge t ch falling s) := by
  unfold execTdcEdge
  repeat' first | (intro x; refine memCut x ?_ fun _ => ?_; (on_goal 1 => subst x); (on_goal 2 => clear_value x)) | (intro x; clear_value x) | lift_lets -underBinder | with_reducible (first | assumption | apply State.advance_mem | apply State.tdcLoss_mem | apply State.setTdc_mem | apply State.bump_mem | apply State.wr_mem | apply memIte | apply outNext)

theorem State.statValue_mem (s : State) (u : Nat) (x : StatState) (v : Int) (uncal : Bool) (st : Nat) (hM : s.memoryWf = true) :
    (State.statValue s u x v uncal st).memoryWf = true := by
  unfold State.statValue
  repeat' first | (intro x; refine memCut x ?_ fun _ => ?_; (on_goal 1 => subst x); (on_goal 2 => clear_value x)) | (intro x; clear_value x) | lift_lets -underBinder | with_reducible (first | assumption | apply State.setStat_mem | apply State.setDom_mem | apply State.bump_mem | apply memIte)

theorem State.statOpen_mem (s : State) (u st : Nat) (uncal : Bool) (hM : s.memoryWf = true) :
    (State.statOpen s u st uncal).memoryWf = true := by
  unfold State.statOpen
  repeat' first | (intro x; clear_value x) | lift_lets -underBinder | with_reducible (first | assumption | apply State.setStat_mem)

theorem State.statStamp_mem (s : State) (u c st : Nat) (falling uncal : Bool) (hM : s.memoryWf = true) :
    (State.statStamp s u c st falling uncal).memoryWf = true := by
  unfold State.statStamp
  repeat' first | (intro x; refine memCut x ?_ fun _ => ?_; (on_goal 1 => subst x); (on_goal 2 => clear_value x)) | (intro x; clear_value x) | lift_lets -underBinder | with_reducible (first | assumption | apply State.statOpen_mem | apply State.statValue_mem | apply State.setStat_mem | apply State.bump_mem | apply memIte | (fail_if_no_progress refine memMk rfl rfl rfl rfl ?_) | (refine memOk (by assumption) ?_)) | split

theorem execTdcQueuePush_mem (t : Nat) (ch : Fin 16) (s : State) (hM : s.memoryWf = true) :
    OutMem (execTdcQueuePush t ch s) := by
  unfold execTdcQueuePush
  repeat' first | (intro x; refine memCut x ?_ fun _ => ?_; (on_goal 1 => subst x); (on_goal 2 => clear_value x)) | (intro x; clear_value x) | (with_reducible intro _) | lift_lets -underBinder | with_reducible (first | assumption | apply State.advance_mem | apply State.setTdc_mem | apply State.statStamp_mem | apply State.wr_mem | apply State.bump_mem | apply memIte | apply memFoldl | apply outNext | (fail_if_no_progress refine memMk rfl rfl rfl rfl ?_) | (refine memOk (by assumption) ?_)) | split

theorem popBlock_mem (c n : Nat) (s : State) (hM : s.memoryWf = true) :
    OkMem (popBlock c n s) := by
  unfold popBlock
  repeat' first | (intro x; refine memCut x ?_ fun _ => ?_; (on_goal 1 => subst x); (on_goal 2 => clear_value x)) | (intro x; clear_value x) | (with_reducible intro _) | lift_lets -underBinder | with_reducible (first | assumption | apply State.setTdc_mem | apply State.wr_mem | apply okIte | apply memIte | apply okOk | apply okErr)

theorem execPopBlock_mem (t : Nat) (ch : Fin 16) (n : Nat) (s : State) (hM : s.memoryWf = true) :
    OutMem (execPopBlock t ch n s) := by
  unfold execPopBlock
  repeat' first | with_reducible (first | assumption | apply State.serve_mem | apply popBlock_mem | apply outNext)

theorem clearQueue_mem (c : Nat) (s : State) (hM : s.memoryWf = true) :
    OkMem (clearQueue c s) := by
  unfold clearQueue
  repeat' first | (intro x; clear_value x) | (with_reducible intro _) | lift_lets -underBinder | with_reducible (first | assumption | apply State.setTdc_mem | apply State.wr_mem | apply okOk)

theorem execClearQueue_mem (t : Nat) (ch : Fin 16) (s : State) (hM : s.memoryWf = true) :
    OutMem (execClearQueue t ch s) := by
  unfold execClearQueue
  repeat' first | with_reducible (first | assumption | apply State.serve_mem | apply clearQueue_mem | apply outNext)

theorem statsStart_mem (u : Nat) (s : State) (hM : s.memoryWf = true) :
    OkMem (statsStart u s) := by
  unfold statsStart
  repeat' first | (intro x; refine memCut x ?_ fun _ => ?_; (on_goal 1 => subst x); (on_goal 2 => clear_value x)) | (intro x; clear_value x) | (with_reducible intro _) | lift_lets -underBinder | with_reducible (first | assumption | apply State.setStat_mem | apply okIte | apply memIte | apply okOk | apply okErr)

theorem execStatsStart_mem (t : Nat) (unit : Fin 4) (s : State) (hM : s.memoryWf = true) :
    OutMem (execStatsStart t unit s) := by
  unfold execStatsStart
  repeat' first | with_reducible (first | assumption | apply State.serve_mem | apply statsStart_mem | apply outNext)

theorem State.tdcLock_mem (s : State) (c : Nat) (x : TdcState) (hM : s.memoryWf = true) :
    (State.tdcLock s c x).memoryWf = true := by
  unfold State.tdcLock
  repeat' first | with_reducible (first | assumption | apply State.setTdc_mem | apply State.wr_mem)

theorem execTdcControlUpdate_mem (t : Nat) (ch : Fin 16) (line : Fin 2) (control error : Nat) (s : State) (hM : s.memoryWf = true) :
    OutMem (execTdcControlUpdate t ch line control error s) := by
  unfold execTdcControlUpdate
  repeat' first | (intro x; refine memCut x ?_ fun _ => ?_; (on_goal 1 => subst x); (on_goal 2 => clear_value x)) | (intro x; clear_value x) | lift_lets -underBinder | with_reducible (first | assumption | apply State.advance_mem | apply State.tdcLock_mem | apply memIte | apply outNext)

theorem execTdcLineSwap_mem (t : Nat) (ch : Fin 16) (s : State) (hM : s.memoryWf = true) :
    OutMem (execTdcLineSwap t ch s) := by
  unfold execTdcLineSwap
  repeat' first | (intro x; refine memCut x ?_ fun _ => ?_; (on_goal 1 => subst x); (on_goal 2 => clear_value x)) | (intro x; clear_value x) | lift_lets -underBinder | with_reducible (first | assumption | apply State.advance_mem | apply State.tdcLock_mem | apply outNext)

theorem execTdcCalibrationComplete_mem (t : Nat) (ch : Fin 16) (widths : List Nat) (s : State) (hM : s.memoryWf = true) :
    OutMem (execTdcCalibrationComplete t ch widths s) := by
  unfold execTdcCalibrationComplete
  repeat' first | (intro x; refine memCut x ?_ fun _ => ?_; (on_goal 1 => subst x); (on_goal 2 => clear_value x)) | (intro x; clear_value x) | lift_lets -underBinder | with_reducible (first | assumption | apply State.advance_mem | apply State.setTdc_mem | apply memIte | apply outNext)

theorem alarmWrite_mem (b : Bytes) (s : State) (hM : s.memoryWf = true) :
    OkMem (alarmWrite b s) := by
  unfold alarmWrite
  repeat' first | (with_reducible intro _) | lift_lets -underBinder | with_reducible (first | assumption | apply State.wr_mem | apply okOk | apply okErr | (fail_if_no_progress refine memMk rfl rfl rfl rfl ?_) | (refine memOk (by assumption) ?_)) | split

theorem State.withMove_mem (s : State) (n : Nat) (m : Move) (hM : s.memoryWf = true) :
    (State.withMove s n m).memoryWf = true := by
  unfold State.withMove
  repeat' first | (intro x; refine memCut x ?_ fun _ => ?_; (on_goal 1 => subst x); (on_goal 2 => clear_value x)) | (intro x; refine funCut x ?_; subst x) | (intro x; clear_value x) | (with_reducible intro _) | lift_lets -underBinder | with_reducible (first | assumption | apply State.moveRole_mem | apply State.modSlot_mem | apply State.setMap_mem | apply State.sliceTable_mem | apply memFoldl)

theorem State.testDue_mem (s : State) (e : Nat) (whole : Bool) (hM : s.memoryWf = true) :
    (State.testDue s e whole).memoryWf = true := by
  unfold State.testDue
  repeat' first | (intro x; clear_value x) | lift_lets -underBinder | with_reducible (first | assumption | apply memIte | (fail_if_no_progress refine memMk rfl rfl rfl rfl ?_))

theorem State.takeOut_mem (s : State) (e : Nat) (whole : Bool) (hM : s.memoryWf = true) :
    (State.takeOut s e whole).memoryWf = true := by
  unfold State.takeOut
  repeat' first | (intro x; clear_value x) | lift_lets -underBinder | with_reducible (first | assumption | apply State.setEng_mem | apply State.testDue_mem)

theorem State.makeMove_mem (s : State) (n c : Nat) (faulted : List Nat) (whole : Bool) (m : Move) (cs : List Charge) (hM : s.memoryWf = true) :
    (State.makeMove s n c faulted whole m cs).memoryWf = true := by
  unfold State.makeMove
  repeat' first | (intro x; refine memCut x ?_ fun _ => ?_; (on_goal 1 => subst x); (on_goal 2 => clear_value x)) | (intro x; clear_value x) | (with_reducible intro _) | lift_lets -underBinder | with_reducible (first | assumption | apply State.copyEngine_mem | apply State.setEng_mem | apply State.withMove_mem | apply State.zeroRegions_mem | apply State.takeOut_mem | apply State.freeEngine_mem | apply State.makeWay_mem | apply State.spareUsed_mem | apply State.modSlot_mem | apply State.recharge_mem | apply memIte | apply memFoldl)

theorem State.diagnosed_mem (s : State) (e : Nat) (hM : s.memoryWf = true) :
    (State.diagnosed s e).memoryWf = true := by
  unfold State.diagnosed
  repeat' first | (intro x; refine memCut x ?_ fun _ => ?_; (on_goal 1 => subst x); (on_goal 2 => clear_value x)) | (intro x; clear_value x) | (with_reducible intro _) | lift_lets -underBinder | with_reducible (first | assumption | apply State.assumeEnds_mem | apply memIte | (fail_if_no_progress refine memMk rfl rfl rfl rfl ?_))

theorem State.retireNow_mem (s : State) (e : Nat) (hM : s.memoryWf = true) :
    (State.retireNow s e).memoryWf = true := by
  unfold State.retireNow
  repeat' first | (intro x; refine memCut x ?_ fun _ => ?_; (on_goal 1 => subst x); (on_goal 2 => clear_value x)) | (intro x; clear_value x) | lift_lets -underBinder | with_reducible (first | assumption | apply State.retireMark_mem | apply State.faultLog_mem | apply State.diagnosed_mem | (fail_if_no_progress refine memMk rfl rfl rfl rfl ?_))

theorem State.noTarget_mem (s : State) (n c : Nat) (m : Migration) (hM : s.memoryWf = true) :
    (State.noTarget s n c m).memoryWf = true := by
  unfold State.noTarget
  repeat' first | (intro x; refine memCut x ?_ fun _ => ?_; (on_goal 1 => subst x); (on_goal 2 => clear_value x)) | (intro x; clear_value x) | (with_reducible intro _) | lift_lets -underBinder | with_reducible (first | assumption | apply State.setMigration_mem | apply State.endSuccessor_mem | apply State.noticeWithdraw_mem | apply State.retireNow_mem | apply State.takeOut_mem | apply State.budgetOut_mem | apply memIte | apply memFoldl)

theorem State.feedMigration_mem (c sq : Nat) (s : State) (n : Nat) (hM : s.memoryWf = true) :
    (State.feedMigration c sq s n).memoryWf = true := by
  unfold State.feedMigration
  repeat' first | (intro x; clear_value x) | (with_reducible intro _) | lift_lets -underBinder | with_reducible (first | assumption | apply State.setMigration_mem | apply State.dropLines_mem | apply State.withhold_mem)

theorem State.wholeFault_mem (s : State) (c : Nat) (hM : s.memoryWf = true) :
    (State.wholeFault s c).memoryWf = true := by
  unfold State.wholeFault
  repeat' first | (intro x; refine memCut x ?_ fun _ => ?_; (on_goal 1 => subst x); (on_goal 2 => clear_value x)) | (intro x; clear_value x) | (with_reducible intro _) | lift_lets -underBinder | with_reducible (first | assumption | apply State.clusterFault_mem | apply State.feedMigration_mem | apply State.testDue_mem | apply memFoldl)

theorem execClusterFault_mem (t : Nat) (c : Fin 64) (s : State) (hM : s.memoryWf = true) :
    OutMem (execClusterFault t c s) := by
  unfold execClusterFault
  repeat' first | with_reducible (first | assumption | apply State.advance_mem | apply State.wholeFault_mem | apply outNext)

theorem State.toTarget_mem (s : State) (n c : Nat) (m : Migration) (x : Move × List Charge) (hM : s.memoryWf = true) :
    (State.toTarget s n c m x).memoryWf = true := by
  unfold State.toTarget
  repeat' first | (intro x; refine memCut x ?_ fun _ => ?_; (on_goal 1 => subst x); (on_goal 2 => clear_value x)) | (intro x; clear_value x) | (with_reducible intro _) | lift_lets -underBinder | with_reducible (first | assumption | apply State.noTarget_mem | apply State.clusterSettle_mem | apply State.makeMove_mem | apply State.setMigration_mem | apply State.retireNow_mem | apply memIte | apply memFoldl)

theorem execMigrationTargetChosen_mem (t : Nat) (c : Fin 64) (n : Fin 64) (s : State) (hM : s.memoryWf = true) :
    OutMem (execMigrationTargetChosen t c n s) := by
  unfold execMigrationTargetChosen
  repeat' first | (intro x; refine memCut x ?_ fun _ => ?_; (on_goal 1 => subst x); (on_goal 2 => clear_value x)) | lift_lets -underBinder | with_reducible (first | assumption | apply State.advance_mem | apply State.noTarget_mem | apply State.clusterSettle_mem | apply State.toTarget_mem | apply memIte | apply outNext | (fail_if_no_progress refine memMk rfl rfl rfl rfl ?_) | (refine memOk (by assumption) ?_)) | split

theorem State.channelBoundary_mem (s : State) (n : Nat) (chs : List Nat) (hM : s.memoryWf = true) :
    (State.channelBoundary s n chs).memoryWf = true := by
  unfold State.channelBoundary
  repeat' first | (intro x; refine memCut x ?_ fun _ => ?_; (on_goal 1 => subst x); (on_goal 2 => clear_value x)) | (intro x; clear_value x) | (with_reducible intro _) | lift_lets -underBinder | with_reducible (first | assumption | apply State.mapWindowRestart_mem | apply State.traceEnd_mem | apply State.weirRestart_mem | apply State.sampEnd_mem | apply State.powerEnd_mem | apply State.levelBlockEnd_mem | apply memIte | apply memFoldl)

theorem State.reestablish_mem (s : State) (n : Nat) (chs : List Nat) (hM : s.memoryWf = true) :
    (State.reestablish s n chs).memoryWf = true := by
  unfold State.reestablish
  repeat' first | (intro x; refine memCut x ?_ fun _ => ?_; (on_goal 1 => subst x); (on_goal 2 => clear_value x)) | (intro x; clear_value x) | (with_reducible intro _) | lift_lets -underBinder | with_reducible (first | assumption | apply State.setChan_mem | apply memIte | apply memFoldl)

theorem State.skipUnit_mem (s : State) (n g u : Nat) (hM : s.memoryWf = true) :
    (State.skipUnit s n g u).memoryWf = true := by
  unfold State.skipUnit
  repeat' first | (intro x; refine memCut x ?_ fun _ => ?_; (on_goal 1 => subst x); (on_goal 2 => clear_value x)) | (intro x; clear_value x) | (with_reducible intro _) | lift_lets -underBinder | with_reducible (first | assumption | apply State.pulse_mem | apply State.sieveGap_mem | apply State.setPipe_mem | apply memIte | apply memFoldl | (fail_if_no_progress refine memMk rfl rfl rfl rfl ?_) | (refine memOk (by assumption) ?_)) | split

theorem State.resumeCommit_mem (s : State) (n : Nat) (hM : s.memoryWf = true) :
    (State.resumeCommit s n).memoryWf = true := by
  unfold State.resumeCommit
  repeat' first | (intro x; refine memCut x ?_ fun _ => ?_; (on_goal 1 => subst x); (on_goal 2 => clear_value x)) | (intro x; clear_value x) | (with_reducible intro _) | lift_lets -underBinder | with_reducible (first | assumption | apply State.disarm_mem | apply State.noteRefusal_mem | apply State.leaveArray_mem | apply State.armCommit_mem | apply memIte | apply memFoldl | (fail_if_no_progress refine memMk rfl rfl rfl rfl ?_) | (refine memOk (by assumption) ?_)) | split

theorem State.startTargets_mem (s : State) (l : List (Nat × Nat)) (hM : s.memoryWf = true) :
    (State.startTargets s l).memoryWf = true := by
  unfold State.startTargets
  repeat' first | (intro x; refine memCut x ?_ fun _ => ?_; (on_goal 1 => subst x); (on_goal 2 => clear_value x)) | (intro x; clear_value x) | (with_reducible intro _) | lift_lets -underBinder | with_reducible (first | assumption | apply State.setEng_mem | apply memIte | apply memFoldl)

theorem State.endGap_mem (s : State) (n c : Nat) (m : Migration) (g : Nat) (hM : s.memoryWf = true) :
    (State.endGap s n c m g).memoryWf = true := by
  unfold State.endGap
  repeat' first | (intro x; refine memCut x ?_ fun _ => ?_; (on_goal 1 => subst x); (on_goal 2 => clear_value x)) | (intro x; clear_value x) | (with_reducible intro _) | lift_lets -underBinder | with_reducible (first | assumption | apply State.startTargets_mem | apply State.channelBoundary_mem | apply State.flushRecords_mem | apply State.skipUnit_mem | apply State.reestablish_mem | apply State.marker_mem | apply State.setDom_mem | apply State.bump_mem | apply State.markFault_mem | apply State.setMigration_mem | apply State.noted_mem | apply State.faultLog_mem | apply State.modSlot_mem | apply State.resumeCommit_mem | apply State.clusterSettle_mem | apply memIte | apply memFoldl | (fail_if_no_progress refine memMk rfl rfl rfl rfl ?_))

theorem execMigrationResume_mem (t : Nat) (c : Fin 64) (n : Fin 64) (s : State) (hM : s.memoryWf = true) :
    OutMem (execMigrationResume t c n s) := by
  unfold execMigrationResume
  repeat' first | (intro x; refine memCut x ?_ fun _ => ?_; (on_goal 1 => subst x); (on_goal 2 => clear_value x)) | lift_lets -underBinder | with_reducible (first | assumption | apply State.advance_mem | apply State.endGap_mem | apply memIte | apply outNext | (fail_if_no_progress refine memMk rfl rfl rfl rfl ?_) | (refine memOk (by assumption) ?_)) | split

theorem State.engineBack_mem (s : State) (e : Nat) (h : s.memoryWf = true) : (s.engineBack e).memoryWf = true :=
  memIte h (memIte (State.setEng_mem _ _ _ h) (by exact State.wr_mem _ _ _ (State.setEng_mem _ _ _ h)))

theorem State.retireCluster_mem (s : State) (c : Nat) (hM : s.memoryWf = true) :
    (State.retireCluster s c).memoryWf = true := by
  unfold State.retireCluster
  repeat' first | (with_reducible intro _) | with_reducible (first | assumption | apply State.retireNow_mem | apply State.clusterSettle_mem | apply memFoldl)

theorem execEngineTestComplete_mem (t : Nat) (e : Fin 1088) (pass shared : Bool) (s : State) (hM : s.memoryWf = true) :
    OutMem (execEngineTestComplete t e pass shared s) := by
  unfold execEngineTestComplete
  repeat' first | (intro x; refine memCut x ?_ fun _ => ?_; (on_goal 1 => subst x); (on_goal 2 => clear_value x)) | (intro x; clear_value x) | lift_lets -underBinder | with_reducible (first | assumption | apply State.advance_mem | apply State.retireCluster_mem | apply State.engineBack_mem | apply State.diagnosed_mem | apply State.clusterSettle_mem | apply State.retireNow_mem | apply memIte | apply outNext)

theorem execSpareSelfTest_mem (t : Nat) (hbm : Bool) (unit : Fin 64) (pass : Bool) (s : State) (hM : s.memoryWf = true) :
    OutMem (execSpareSelfTest t hbm unit pass s) := by
  unfold execSpareSelfTest
  repeat' first | (intro x; refine memCut x ?_ fun _ => ?_; (on_goal 1 => subst x); (on_goal 2 => clear_value x)) | (intro x; clear_value x) | lift_lets -underBinder | with_reducible (first | assumption | apply State.advance_mem | apply State.failPc_mem | apply State.retireNow_mem | apply State.clusterSettle_mem | apply memIte | apply outNext)

theorem State.retireAnswer_mem (s : State) (v : Nat) (hM : s.memoryWf = true) :
    (State.retireAnswer s v).memoryWf = true := by
  unfold State.retireAnswer
  exact hM

theorem State.retireBegin_mem (s : State) (n e : Nat) (x : Nat × List Charge) (hM : s.memoryWf = true) :
    (State.retireBegin s n e x).memoryWf = true := by
  unfold State.retireBegin
  repeat' first | (intro x; refine memCut x ?_ fun _ => ?_; (on_goal 1 => subst x); (on_goal 2 => clear_value x)) | (intro x; clear_value x) | (with_reducible intro _) | lift_lets -underBinder | with_reducible (first | assumption | apply State.copyEngine_mem | apply State.setEng_mem | apply State.issue_mem | apply State.modSlot_mem | (fail_if_no_progress refine memMk rfl rfl rfl rfl ?_))

theorem State.retireEngine_mem (s : State) (e : Nat) (hM : s.memoryWf = true) :
    (State.retireEngine s e).memoryWf = true := by
  unfold State.retireEngine
  repeat' first | lift_lets -underBinder | with_reducible (first | assumption | apply State.retireAnswer_mem | apply State.retireNow_mem | apply State.clusterSettle_mem | apply State.budgetOut_mem | apply State.retireBegin_mem | apply memIte | (fail_if_no_progress refine memMk rfl rfl rfl rfl ?_) | (refine memOk (by assumption) ?_)) | split

theorem retireAction_mem (e : Nat) (s : State) (hM : s.memoryWf = true) :
    OkMem (retireAction e s) := by
  unfold retireAction
  repeat' first | (with_reducible intro _) | with_reducible (first | assumption | apply State.retireEngine_mem | apply okIte | apply memIte | apply okOk | apply okErr)

theorem execRetireEngine_mem (t e : Nat) (s : State) (hM : s.memoryWf = true) :
    OutMem (execRetireEngine t e s) := by
  unfold execRetireEngine
  repeat' first | with_reducible (first | assumption | apply State.serve_mem | apply retireAction_mem | apply outNext)

theorem State.stewardRestart_mem (s : State) (cause : Nat) (hM : s.memoryWf = true) :
    (State.stewardRestart s cause).memoryWf = true := by
  unfold State.stewardRestart
  repeat' first | (intro x; refine memCut x ?_ fun _ => ?_; (on_goal 1 => subst x); (on_goal 2 => clear_value x)) | (intro x; clear_value x) | (with_reducible intro _) | lift_lets -underBinder | with_reducible (first | assumption | apply State.abandonKeep_mem | apply State.calEnd_mem | apply State.bump_mem | apply State.wrs_mem | apply State.faultLog_mem | apply memIte | (fail_if_no_progress refine memMk rfl rfl rfl rfl ?_))

theorem State.fallBack_mem (s : State) (hM : s.memoryWf = true) :
    (State.fallBack s).memoryWf = true := by
  unfold State.fallBack
  repeat' first | (intro x; (first | refine memCut x ?_ fun _ => ?_ | refine okCut x ?_ fun _ => ?_ | refine someCut x ?_ fun _ => ?_ | refine pairCut x ?_ fun _ => ?_ | refine pairCut2 x ?_ fun _ => ?_); (on_goal 1 => subst x); (on_goal 2 => clear_value x)) | (intro x; clear_value x) | (with_reducible intro _) | lift_lets -underBinder | with_reducible (first | assumption | apply State.free_mem | apply State.wr_mem | apply State.stewardRestart_mem | apply memIte | apply memElim | (fail_if_no_progress refine memMk rfl rfl rfl rfl ?_))

theorem execLockstepMismatch_mem (t : Nat) (s : State) (hM : s.memoryWf = true) :
    OutMem (execLockstepMismatch t s) := by
  unfold execLockstepMismatch
  repeat' first | (intro x; refine memCut x ?_ fun _ => ?_; (on_goal 1 => subst x); (on_goal 2 => clear_value x)) | (intro x; clear_value x) | lift_lets -underBinder | with_reducible (first | assumption | apply State.advance_mem | apply State.bump_mem | apply State.faultLog_mem | apply State.stewardRestart_mem | apply State.fallBack_mem | apply memIte | apply outNext | (fail_if_no_progress refine memMk rfl rfl rfl rfl ?_))

theorem State.railPasses_mem (s : State) (hM : s.memoryWf = true) :
    (State.railPasses s).memoryWf = true := by
  unfold State.railPasses
  exact hM

theorem State.railFails_mem (s : State) (rail : Nat) (hM : s.memoryWf = true) :
    (State.railFails s rail).memoryWf = true := by
  unfold State.railFails
  repeat' first | (intro x; refine memCut x ?_ fun _ => ?_; (on_goal 1 => subst x); (on_goal 2 => clear_value x)) | (intro x; clear_value x) | lift_lets -underBinder | with_reducible (first | assumption | apply State.bump_mem | apply State.wrs_mem | apply State.faultLog_mem | (fail_if_no_progress refine memMk rfl rfl rfl rfl ?_))

theorem execLockstepSelfTest_mem (t : Nat) (flagged : Bool) (s : State) (hM : s.memoryWf = true) :
    OutMem (execLockstepSelfTest t flagged s) := by
  unfold execLockstepSelfTest
  repeat' first | (intro x; refine memCut x ?_ fun _ => ?_; (on_goal 1 => subst x); (on_goal 2 => clear_value x)) | (intro x; clear_value x) | lift_lets -underBinder | with_reducible (first | assumption | apply State.advance_mem | apply State.bump_mem | apply State.railPasses_mem | apply State.railFails_mem | apply memIte | apply outNext | (fail_if_no_progress refine memMk rfl rfl rfl rfl ?_))

theorem clearLatent_mem  (s : State) (hM : s.memoryWf = true) :
    OkMem (clearLatent s) := by
  unfold clearLatent
  repeat' first | (intro x; refine memCut x ?_ fun _ => ?_; (on_goal 1 => subst x); (on_goal 2 => clear_value x)) | (intro x; clear_value x) | (with_reducible intro _) | lift_lets -underBinder | with_reducible (first | assumption | apply State.wrs_mem | apply okIte | apply memIte | apply okOk | apply okErr | (fail_if_no_progress refine memMk rfl rfl rfl rfl ?_))

theorem execClearLatent_mem (t : Nat) (s : State) (hM : s.memoryWf = true) :
    OutMem (execClearLatent t s) := by
  unfold execClearLatent
  repeat' first | with_reducible (first | assumption | apply State.serve_mem | apply clearLatent_mem | apply outNext)

theorem restartAction_mem  (s : State) (hM : s.memoryWf = true) :
    OkMem (restartAction s) := by
  unfold restartAction
  repeat' first | (with_reducible intro _) | with_reducible (first | assumption | apply State.stewardRestart_mem | apply okOk)

theorem execStewardRestartAction_mem (t : Nat) (s : State) (hM : s.memoryWf = true) :
    OutMem (execStewardRestartAction t s) := by
  unfold execStewardRestartAction
  repeat' first | with_reducible (first | assumption | apply State.serve_mem | apply restartAction_mem | apply outNext)

theorem State.swapIn_mem (s : State) (k : Nat) (hM : s.memoryWf = true) :
    (State.swapIn s k).memoryWf = true := by
  unfold State.swapIn
  repeat' first | (intro x; refine memCut x ?_ fun _ => ?_; (on_goal 1 => subst x); (on_goal 2 => clear_value x)) | (intro x; clear_value x) | (with_reducible intro _) | lift_lets -underBinder | with_reducible (first | assumption | apply State.runFirmware_mem | apply State.sendRecord_mem | apply memIte | apply memFoldl | (fail_if_no_progress refine memMk rfl rfl rfl rfl ?_))

theorem execStewardRestartComplete_mem (t : Nat) (s : State) (hM : s.memoryWf = true) :
    OutMem (execStewardRestartComplete t s) := by
  unfold execStewardRestartComplete
  repeat' first | (intro x; refine memCut x ?_ fun _ => ?_; (on_goal 1 => subst x); (on_goal 2 => clear_value x)) | (intro x; clear_value x) | lift_lets -underBinder | with_reducible (first | assumption | apply State.advance_mem | apply State.msix_mem | apply State.swapIn_mem | apply memIte | apply outNext | (fail_if_no_progress refine memMk rfl rfl rfl rfl ?_) | (refine memOk (by assumption) ?_)) | split

theorem State.stewardScrub_mem (s : State) (err : Nat) (hM : s.memoryWf = true) :
    (State.stewardScrub s err).memoryWf = true := by
  unfold State.stewardScrub
  repeat' first | with_reducible (first | assumption | apply State.countCorrected_mem | apply State.countUncorrected_mem | apply State.faultLog_mem | apply memIte)

theorem execStewardCheckpoint_mem (t : Nat) (err : Fin 3) (s : State) (hM : s.memoryWf = true) :
    OutMem (execStewardCheckpoint t err s) := by
  unfold execStewardCheckpoint
  repeat' first | (intro x; refine memCut x ?_ fun _ => ?_; (on_goal 1 => subst x); (on_goal 2 => clear_value x)) | (intro x; clear_value x) | lift_lets -underBinder | with_reducible (first | assumption | apply State.advance_mem | apply State.stewardScrub_mem | apply memIte | apply outNext | (fail_if_no_progress refine memMk rfl rfl rfl rfl ?_))

theorem State.sentinelRestart_mem (s : State) (cause : Nat) (hM : s.memoryWf = true) :
    (State.sentinelRestart s cause).memoryWf = true := by
  unfold State.sentinelRestart
  repeat' first | (intro x; refine memCut x ?_ fun _ => ?_; (on_goal 1 => subst x); (on_goal 2 => clear_value x)) | (intro x; clear_value x) | lift_lets -underBinder | with_reducible (first | assumption | apply State.abandonKeep_mem | apply State.bump_mem | apply State.faultLog_mem | apply State.exclude_mem | (fail_if_no_progress refine memMk rfl rfl rfl rfl ?_))

theorem execSentinelPoll_mem (t : Nat) (result : Fin 3) (s : State) (hM : s.memoryWf = true) :
    OutMem (execSentinelPoll t result s) := by
  unfold execSentinelPoll
  repeat' first | (intro x; refine memCut x ?_ fun _ => ?_; (on_goal 1 => subst x); (on_goal 2 => clear_value x)) | (intro x; clear_value x) | lift_lets -underBinder | with_reducible (first | assumption | apply State.advance_mem | apply State.sentinelRestart_mem | apply memIte | apply outNext | (fail_if_no_progress refine memMk rfl rfl rfl rfl ?_))

theorem firmwareWrite_mem (b : Bytes) (s : State) (hM : s.memoryWf = true) :
    OkMem (firmwareWrite b s) := by
  unfold firmwareWrite
  repeat' first | (intro x; refine memCut x ?_ fun _ => ?_; (on_goal 1 => subst x); (on_goal 2 => clear_value x)) | (with_reducible intro _) | lift_lets -underBinder | with_reducible (first | assumption | apply State.setSlot_mem | apply State.showSlots_mem | apply State.wr_mem | apply okIte | apply memIte | apply okOk | apply okErr | (fail_if_no_progress refine memMk rfl rfl rfl rfl ?_))

theorem execFirmwareImageWrite_mem (t : Nat) (data : List (BitVec 8)) (s : State) (hM : s.memoryWf = true) :
    OutMem (execFirmwareImageWrite t data s) := by
  unfold execFirmwareImageWrite
  repeat' first | with_reducible (first | assumption | apply State.serve_mem | apply firmwareWrite_mem | apply outNext)

theorem firmwareSwap_mem  (s : State) (hM : s.memoryWf = true) :
    OkMem (firmwareSwap s) := by
  unfold firmwareSwap
  repeat' first | (intro x; refine memCut x ?_ fun _ => ?_; (on_goal 1 => subst x); (on_goal 2 => clear_value x)) | (intro x; clear_value x) | (with_reducible intro _) | lift_lets -underBinder | with_reducible (first | assumption | apply State.wr_mem | apply State.stewardRestart_mem | apply okIte | apply memIte | apply okOk | apply okErr | (fail_if_no_progress refine memMk rfl rfl rfl rfl ?_))

theorem execFirmwareSwap_mem (t : Nat) (s : State) (hM : s.memoryWf = true) :
    OutMem (execFirmwareSwap t s) := by
  unfold execFirmwareSwap
  repeat' first | with_reducible (first | assumption | apply State.serve_mem | apply firmwareSwap_mem | apply outNext)

theorem firmwareConfirm_mem  (s : State) (hM : s.memoryWf = true) :
    OkMem (firmwareConfirm s) := by
  unfold firmwareConfirm
  repeat' first | (intro x; refine memCut x ?_ fun _ => ?_; (on_goal 1 => subst x); (on_goal 2 => clear_value x)) | (intro x; clear_value x) | (with_reducible intro _) | lift_lets -underBinder | with_reducible (first | assumption | apply State.wr_mem | apply okIte | apply memIte | apply okOk | apply okErr | (fail_if_no_progress refine memMk rfl rfl rfl rfl ?_))

theorem execFirmwareConfirm_mem (t : Nat) (s : State) (hM : s.memoryWf = true) :
    OutMem (execFirmwareConfirm t s) := by
  unfold execFirmwareConfirm
  repeat' first | with_reducible (first | assumption | apply State.serve_mem | apply firmwareConfirm_mem | apply outNext)

theorem execConfirmWindowExpiry_mem (t : Nat) (s : State) (hM : s.memoryWf = true) :
    OutMem (execConfirmWindowExpiry t s) := by
  unfold execConfirmWindowExpiry
  repeat' first | (intro x; refine memCut x ?_ fun _ => ?_; (on_goal 1 => subst x); (on_goal 2 => clear_value x)) | lift_lets -underBinder | with_reducible (first | assumption | apply State.advance_mem | apply State.fallBack_mem | apply memIte | apply outNext)

theorem keepAction_mem  (s : State) (hM : s.memoryWf = true) :
    OkMem (keepAction s) := by
  unfold keepAction
  repeat' first | (intro x; clear_value x) | (with_reducible intro _) | lift_lets -underBinder | with_reducible (first | assumption | apply State.wr_mem | apply okIte | apply memIte | apply okOk | apply okErr | (fail_if_no_progress refine memMk rfl rfl rfl rfl ?_))

theorem execKeep_mem (t : Nat) (s : State) (hM : s.memoryWf = true) :
    OutMem (execKeep t s) := by
  unfold execKeep
  repeat' first | with_reducible (first | assumption | apply State.serve_mem | apply keepAction_mem | apply outNext)

theorem execKeepComplete_mem (t : Nat) (good : Bool) (s : State) (hM : s.memoryWf = true) :
    OutMem (execKeepComplete t good s) := by
  unfold execKeepComplete
  repeat' first | (intro x; refine memCut x ?_ fun _ => ?_; (on_goal 1 => subst x); (on_goal 2 => clear_value x)) | (intro x; clear_value x) | lift_lets -underBinder | with_reducible (first | assumption | apply State.advance_mem | apply State.wr_mem | apply State.pantryShow_mem | apply memIte | apply outNext | (fail_if_no_progress refine memMk rfl rfl rfl rfl ?_) | (refine memOk (by assumption) ?_)) | split

theorem discardAction_mem  (s : State) (hM : s.memoryWf = true) :
    OkMem (discardAction s) := by
  unfold discardAction
  repeat' first | (with_reducible intro _) | lift_lets -underBinder | with_reducible (first | assumption | apply State.pantryShow_mem | apply okIte | apply memIte | apply okOk | apply okErr | (fail_if_no_progress refine memMk rfl rfl rfl rfl ?_))

theorem execDiscard_mem (t : Nat) (s : State) (hM : s.memoryWf = true) :
    OutMem (execDiscard t s) := by
  unfold execDiscard
  repeat' first | with_reducible (first | assumption | apply State.serve_mem | apply discardAction_mem | apply outNext)

theorem State.dailyPlan_mem (s : State) (volts : List Nat) (hM : s.memoryWf = true) :
    (State.dailyPlan s volts).memoryWf = true := by
  unfold State.dailyPlan
  repeat' first | (intro x; refine memCut x ?_ fun _ => ?_; (on_goal 1 => subst x); (on_goal 2 => clear_value x)) | (intro x; refine funCut x ?_; subst x) | (intro x; clear_value x) | (with_reducible intro _) | lift_lets -underBinder | with_reducible (first | assumption | apply State.setDom_mem | apply State.retireEngine_mem | apply State.startRetire_mem | apply State.wrs_mem | apply State.recharge_mem | apply State.planChange_mem | apply State.wr_mem | apply memIte | apply memFoldl | (fail_if_no_progress refine memMk rfl rfl rfl rfl ?_))

theorem execPlanRun_mem (t : Nat) (volts : List Nat) (s : State) (hM : s.memoryWf = true) :
    OutMem (execPlanRun t volts s) := by
  unfold execPlanRun
  repeat' first | (intro x; refine memCut x ?_ fun _ => ?_; (on_goal 1 => subst x); (on_goal 2 => clear_value x)) | lift_lets -underBinder | with_reducible (first | assumption | apply State.advance_mem | apply State.dailyPlan_mem | apply memIte | apply outNext)

theorem State.planAnswer_mem (s : State) (v : Nat) (hM : s.memoryWf = true) :
    (State.planAnswer s v).memoryWf = true := by
  unfold State.planAnswer
  exact hM

theorem planNow_mem (volts : List Nat) (s : State) (hM : s.memoryWf = true) :
    OkMem (planNow volts s) := by
  unfold planNow
  repeat' first | (with_reducible intro _) | with_reducible (first | assumption | apply State.dailyPlan_mem | apply State.planAnswer_mem | apply okOk)

theorem execPlanNow_mem (t : Nat) (volts : List Nat) (s : State) (hM : s.memoryWf = true) :
    OutMem (execPlanNow t volts s) := by
  unfold execPlanNow
  repeat' first | with_reducible (first | assumption | apply State.serve_mem | apply planNow_mem | apply outNext)

end Sys2Proof.Machine
end

