-- ==== Sys2Proof/Laws/KeepService.lean ====
section
/-! SUPPORT. The definitions of these files of Machine keep the canonical form of the memories: Dictionary, Transact, Can, Startup, Step. -/

namespace Sys2Proof.Machine

open Sys2Proof

theorem State.channelRate_mem (s : State) (k : Nat) (hM : s.memoryWf = true) :
    (State.channelRate s k).memoryWf = true := by
  unfold State.channelRate
  repeat' first | (intro x; clear_value x) | lift_lets -underBinder | with_reducible (first | assumption | apply State.wr_mem)

theorem State.levelWritten_mem (s : State) (k : Nat) (hM : s.memoryWf = true) :
    (State.levelWritten s k).memoryWf = true := by
  unfold State.levelWritten
  repeat' first | (intro x; refine memCut x ?_ fun _ => ?_; (on_goal 1 => subst x); (on_goal 2 => clear_value x)) | (intro x; clear_value x) | lift_lets -underBinder | with_reducible (first | assumption | apply State.setChan_mem | apply State.levelSettle_mem | apply memIte)

theorem lookRow_mem {α : Type} (f : α) (b : Nat) : ∀ l : List (Nat × α), lookRow l b = some f → (b, f) ∈ l := by
  intro l h
  unfold lookRow at h
  rw [Option.map_eq_some_iff] at h
  obtain ⟨p, hp, rfl⟩ := h
  have h2 := List.find?_some hp
  rw [beq_iff_eq] at h2; subst h2
  exact List.mem_of_find?_eq_some hp

theorem effects_mem : ∀ p ∈ effects, ∀ (k v : Nat) (s : State), s.memoryWf = true → (p.2 k v s).memoryWf = true := by
  intro p hp k v s hM
  simp only [effects, List.mem_cons, List.not_mem_nil, or_false] at hp
  repeat' (rcases hp with rfl | hp)
  all_goals (try subst hp)
  all_goals dsimp only
  repeat' first | (intro x; refine memCut x ?_ fun _ => ?_; (on_goal 1 => subst x); (on_goal 2 => clear_value x)) | (intro x; refine someCut x ?_ fun _ => ?_; (on_goal 1 => subst x); (on_goal 2 => clear_value x)) | (with_reducible intro _) | lift_lets -underBinder | with_reducible (first | assumption | apply State.wrs_mem | apply State.recharge_mem | apply State.auxBoth_mem | apply State.streamAbsent_mem | apply State.leaveActive_mem | apply State.wr_mem | apply State.levelWritten_mem | apply State.filterWritten_mem | apply memIte | apply memIte1 | apply memIte2 | apply memFoldl)

theorem State.keepValue_mem (s : State) (r : ObjRow) (k v : Nat) (b : Bytes) (h : s.memoryWf = true) : (s.keepValue r k v b).memoryWf = true := by
  have h0 : (if levelRows.contains r.base then s.levelDue (r.elem k) else s).memoryWf = true := memIte (State.levelDue_mem _ _ h) h
  have h1 : (match r.ty.size with
      | some _ => (if levelRows.contains r.base then s.levelDue (r.elem k) else s).wr k v
      | none => (if levelRows.contains r.base then s.levelDue (r.elem k) else s).setDom k b).memoryWf = true := by
    split
    · exact State.wr_mem _ _ _ h0
    · exact State.setDom_mem _ _ _ h0
  unfold State.keepValue
  dsimp only
  split
  · rename_i f hf; exact effects_mem _ (lookRow_mem f r.base effects hf) _ _ _ h1
  · exact h1

theorem ones_mem (f : Act) (v : Nat) (hf : ∀ s, s.memoryWf = true → OkMem (f s)) (s : State) (hM : s.memoryWf = true) :
    OkMem (ones f v s) := by
  unfold ones
  repeat' first | (with_reducible intro _) | lift_lets -underBinder | with_reducible (first | assumption | apply hf | apply okIte | apply memIte | apply okOk | apply okErr | (fail_if_no_progress refine memMk rfl rfl rfl rfl ?_) | (refine memOk (by assumption) ?_)) | split

theorem mappingWrite_mem (r : ObjRow) (key k v : Nat) (s : State) (hM : s.memoryWf = true) :
    OkMem (mappingWrite r key k v s) := by
  unfold mappingWrite
  repeat' first | (intro x; refine memCut x ?_ fun _ => ?_; (on_goal 1 => subst x); (on_goal 2 => clear_value x)) | (with_reducible intro _) | lift_lets -underBinder | with_reducible (first | assumption | apply State.wr_mem | apply State.channelRate_mem | apply State.chainReset_mem | apply State.levelSource_mem | apply State.refreshFabric_mem | apply okIte | apply memIte | apply okOk | apply okErr)

theorem primitiveWrite_mem (r : ObjRow) (key v : Nat) (s : State) (hM : s.memoryWf = true) :
    OkMem (primitiveWrite r key v s) := by
  unfold primitiveWrite
  repeat' first | (intro x; refine memCut x ?_ fun _ => ?_; (on_goal 1 => subst x); (on_goal 2 => clear_value x)) | (with_reducible intro _) | lift_lets -underBinder | with_reducible (first | assumption | apply State.wr_mem | apply State.refreshFabric_mem | apply okIte | apply memIte | apply okOk | apply okErr)

theorem calibrationWrite_mem (b : Bytes) (s : State) (hM : s.memoryWf = true) :
    OkMem (calibrationWrite b s) := by
  unfold calibrationWrite
  repeat' first | (intro x; refine memCut x ?_ fun _ => ?_; (on_goal 1 => subst x); (on_goal 2 => clear_value x)) | (intro x; clear_value x) | (with_reducible intro _) | lift_lets -underBinder | with_reducible (first | assumption | apply calStart_mem | apply okIte | apply memIte | apply okOk | apply okErr | (fail_if_no_progress refine memMk rfl rfl rfl rfl ?_) | (refine memOk (by assumption) ?_)) | split

theorem tdcEnableWrite_mem (c v : Nat) (s : State) (hM : s.memoryWf = true) :
    OkMem (tdcEnableWrite c v s) := by
  unfold tdcEnableWrite
  repeat' first | (with_reducible intro _) | with_reducible (first | assumption | apply State.wr_mem | apply okIte | apply memIte | apply okOk | apply okErr)

theorem setCalendar_mem (b : Bytes) (s : State) (hM : s.memoryWf = true) :
    OkMem (setCalendar b s) := by
  unfold setCalendar
  repeat' first | (with_reducible intro _) | lift_lets -underBinder | with_reducible (first | assumption | apply setSeconds_mem | apply okIte | apply memIte | apply okOk | apply okErr | (fail_if_no_progress refine memMk rfl rfl rfl rfl ?_) | (refine memOk (by assumption) ?_)) | split

theorem State.putValue_mem (s : State) (r : ObjRow) (k v : Nat) (b : Bytes) (hM : s.memoryWf = true) :
    (State.putValue s r k v b).memoryWf = true := by
  unfold State.putValue
  repeat' first | lift_lets -underBinder | with_reducible (first | assumption | apply State.stageNum_mem | apply State.stageDom_mem | apply State.keepValue_mem | apply memIte | (fail_if_no_progress refine memMk rfl rfl rfl rfl ?_) | (refine memOk (by assumption) ?_)) | split

theorem writers_mem : ∀ p ∈ writers, ∀ (r : ObjRow) (k i v : Nat) (b : Bytes) (x : Ext) (s : State), s.memoryWf = true → OkMem (p.2 r k i v b x s) := by
  have all : List.Forall (fun p : Nat × (ObjRow → Nat → Nat → Nat → Bytes → Ext → Act) =>
      ∀ (r : ObjRow) (k i v : Nat) (b : Bytes) (x : Ext) (s : State), s.memoryWf = true → OkMem (p.2 r k i v b x s)) writers :=
    ⟨fun _ _ _ _ b _ s h => alarmWrite_mem b s h,
     fun _ _ _ _ b _ s h => setCalendar_mem b s h,
     fun _ _ _ v _ e s h => ones_mem (planNow e.volts) v (fun s h => planNow_mem e.volts s h) s h,
     fun _ _ _ v _ _ s h => retireAction_mem v s h,
     fun _ _ _ v _ _ s h => ones_mem keepAction v (fun s h => keepAction_mem  s h) s h,
     fun _ _ _ v _ _ s h => ones_mem discardAction v (fun s h => discardAction_mem  s h) s h,
     fun _ _ _ _ b _ s h => firmwareWrite_mem b s h,
     fun _ _ _ v _ _ s h => ones_mem firmwareSwap v (fun s h => firmwareSwap_mem  s h) s h,
     fun _ _ _ v _ _ s h => ones_mem firmwareConfirm v (fun s h => firmwareConfirm_mem  s h) s h,
     fun _ _ _ v _ _ s h => pointRequest_mem v s h,
     fun _ _ _ v _ _ s h => ones_mem clearPeak v (fun s h => clearPeak_mem  s h) s h,
     fun _ _ _ v _ _ s h => ones_mem refusalClear v (fun s h => refusalClear_mem  s h) s h,
     fun _ _ _ v _ _ s h => stopAction_mem v s h,
     fun _ _ _ v _ _ s h => auxReset_mem v s h,
     fun _ _ k v _ _ s h => clkWrite_mem (k + 1) v s h,
     fun _ _ k v _ _ s h => clkWrite_mem (k + 9) v s h,
     fun _ _ k v _ _ s h => clkWrite_mem (k + 0x11) v s h,
     fun _ _ _ v _ _ s h => srefFire_mem v s h,
     fun _ _ _ v _ _ s h => ones_mem synApply v (fun s h => synApply_mem  s h) s h,
     fun _ _ _ v _ _ s h => setSeconds_mem v s h,
     fun _ _ _ v _ _ s h => ones_mem syncArm v (fun s h => syncArm_mem  s h) s h,
     fun _ _ _ v _ _ s h => ones_mem adopt v (fun s h => adopt_mem  s h) s h,
     fun _ _ c v _ _ s h => tdcEnableWrite_mem c v s h,
     fun _ _ c v _ _ s h => popBlock_mem c v s h,
     fun _ _ c v _ _ s h => ones_mem (clearQueue c) v (fun s h => clearQueue_mem c s h) s h,
     fun _ _ u v _ _ s h => ones_mem (statsStart u) v (fun s h => statsStart_mem u s h) s h,
     fun _ _ k v _ _ s h => ones_mem (joinRetrain k) v (fun s h => joinRetrain_mem k s h) s h,
     fun _ _ k v _ _ s h => joinTestMode_mem k v s h,
     fun _ _ k v _ _ s h => ones_mem (joinClear k) v (fun s h => joinClear_mem k s h) s h,
     fun _ _ q v _ _ s h => marginScan_mem q v s h,
     fun _ _ q v _ _ s h => ones_mem (quadClear q) v (fun s h => quadClear_mem q s h) s h,
     fun _ _ j v _ _ s h => ones_mem (linkApply j) v (fun s h => linkApply_mem j s h) s h,
     fun _ _ j v _ _ s h => ones_mem (linkClear j) v (fun s h => linkClear_mem j s h) s h,
     fun r key k v _ _ s h => mappingWrite_mem r key k v s h,
     fun r key k v _ _ s h => mappingWrite_mem r key k v s h,
     fun r key k v _ _ s h => mappingWrite_mem r key k v s h,
     fun _ _ k v _ _ s h => dumpRestart_mem k v s h,
     fun _ _ k v _ _ s h => levelConditionWrite_mem k 0x16 v s h,
     fun _ _ k v _ _ s h => levelConditionWrite_mem k 0x17 v s h,
     fun _ _ k v _ _ s h => levelConditionWrite_mem k 0x18 v s h,
     fun _ _ k v _ _ s h => levelConditionWrite_mem k 0x19 v s h,
     fun _ _ _ v _ _ s h => ones_mem levelSnapshot v (fun s h => levelSnapshot_mem  s h) s h,
     fun _ _ _ v _ _ s h => clearSticky_mem v s h,
     fun _ _ n v _ e s h => ones_mem (admitAction n e.drive) v (fun s h => admitAction_mem n e.drive s h) s h,
     fun _ _ n v _ _ s h => ones_mem (withdrawAction n) v (fun s h => withdrawAction_mem n s h) s h,
     fun _ _ n v _ _ s h => hostReadWrite_mem n v s h,
     fun _ _ n v _ _ s h => ones_mem (rearm n) v (fun s h => rearm_mem n s h) s h,
     fun _ _ n v _ _ s h => ones_mem (releaseRing n) v (fun s h => releaseRing_mem n s h) s h,
     fun _ _ n v _ _ s h => commitAction_mem n v s h,
     fun _ _ n v _ _ s h => ones_mem (cancelAction n) v (fun s h => cancelAction_mem n s h) s h,
     fun _ _ _ v _ e s h => checkAction_mem v e.drive s h,
     fun _ _ _ _ b _ s h => groupAction_mem (Config.groupTime b) (Config.groupSlots b) (Config.groupOthers b) s h,
     fun _ _ _ _ b _ s h => clearLineFault_mem b s h,
     fun _ _ _ v _ _ s h => ones_mem clearLog v (fun s h => clearLog_mem  s h) s h,
     fun _ _ _ _ b _ s h => importsWrite_mem b s h,
     fun _ _ k v _ _ s h => trigOutConfig_mem k v s h,
     fun _ _ u _ b _ s h => patternUnitWrite_mem u 1 0 (some b) s h,
     fun _ _ u _ b _ s h => patternUnitWrite_mem u 2 0 (some b) s h,
     fun _ _ u v _ _ s h => patternUnitWrite_mem u 3 v none s h,
     fun _ _ u v _ _ s h => patternUnitWrite_mem u 4 v none s h,
     fun _ _ u v _ _ s h => patternUnitWrite_mem u 5 v none s h,
     fun _ _ u v _ _ s h => patternUnitWrite_mem u 6 v none s h,
     fun _ _ u v _ _ s h => patternUnitWrite_mem u 7 v none s h,
     fun _ _ _ v _ _ s h => primitiveEnable_mem v s h,
     fun r key _ v _ _ s h => primitiveWrite_mem r key v s h,
     fun r key _ v _ _ s h => primitiveWrite_mem r key v s h,
     fun r key _ v _ _ s h => primitiveWrite_mem r key v s h,
     fun r key _ v _ _ s h => primitiveWrite_mem r key v s h,
     fun r key _ v _ _ s h => primitiveWrite_mem r key v s h,
     fun r key _ v _ _ s h => primitiveWrite_mem r key v s h,
     fun _ _ k v _ _ s h => mapSnapshot_mem k v s h,
     fun _ _ k v _ _ s h => mapClear_mem k v s h,
     fun _ _ u v _ _ s h => ones_mem (userWindowLoad u) v (fun s h => userWindowLoad_mem u s h) s h,
     fun _ _ u v _ _ s h => ones_mem (sieveLoad u) v (fun s h => sieveLoad_mem u s h) s h,
     fun _ _ _ v _ _ s h => pulseClearCounters_mem v s h,
     fun _ _ c v _ _ s h => ones_mem (transferStart c) v (fun s h => transferStart_mem c s h) s h,
     fun _ _ c v _ _ s h => transferPause_mem c (v != 0) s h,
     fun _ _ c v _ _ s h => ones_mem (transferAbort c) v (fun s h => transferAbort_mem c s h) s h,
     fun _ _ r v _ _ s h => ones_mem (ringValidate r) v (fun s h => ringValidate_mem r s h) s h,
     fun _ _ r v _ _ s h => ones_mem (ringRestart r) v (fun s h => ringRestart_mem r s h) s h,
     fun _ _ _ v _ _ s h => ones_mem linkRetrain v (fun s h => linkRetrain_mem  s h) s h,
     fun _ _ k v _ _ s h => storageEnable_mem k (v != 0) s h,
     fun _ _ k v _ _ s h => ones_mem (qualify k) v (fun s h => qualify_mem k s h) s h,
     fun _ _ k v _ e s h => ones_mem (reinstate k e.good) v (fun s h => reinstate_mem k e.good s h) s h,
     fun _ _ _ v _ _ s h => formSet_mem v s h,
     fun _ _ _ v _ _ s h => deleteRecording_mem v s h,
     fun _ _ _ v _ _ s h => displayEnable_mem (v != 0) s h,
     fun _ _ _ _ b _ s h => buffersWrite_mem b s h,
     fun _ _ _ v _ _ s h => displayCommit_mem v s h,
     fun _ _ _ v _ _ s h => ones_mem displayClear v (fun s h => displayClear_mem  s h) s h,
     fun _ _ _ _ b _ s h => masksWrite_mem b s h,
     fun _ _ _ _ b _ s h => reserveWrite_mem b s h,
     fun _ _ q v _ _ s h => ones_mem (hbmRelease q) v (fun s h => hbmRelease_mem q s h) s h,
     fun _ _ q v _ _ s h => ones_mem (hbmRetire q) v (fun s h => hbmRetire_mem q s h) s h,
     fun _ _ i v _ _ s h => ones_mem (microLoad i) v (fun s h => microLoad_mem i s h) s h,
     fun _ _ i v _ _ s h => imageVerify_mem i v s h,
     fun _ _ i v _ _ s h => ones_mem (nanoLoad i) v (fun s h => nanoLoad_mem i s h) s h,
     fun _ _ _ _ b _ s h => calibrationWrite_mem b s h,
     fun _ _ _ v _ _ s h => ones_mem calCapture v (fun s h => calCapture_mem  s h) s h,
     fun _ _ _ v _ _ s h => ones_mem calReapply v (fun s h => calReapply_mem  s h) s h,
     fun _ _ _ v _ _ s h => ones_mem clearLatent v (fun s h => clearLatent_mem  s h) s h,
     fun _ _ _ v _ _ s h => ones_mem restartAction v (fun s h => restartAction_mem  s h) s h,
     fun _ _ _ v _ _ s h => faultAck_mem v s h,
     fun _ _ _ v _ _ s h => ones_mem clearOverTemp v (fun s h => clearOverTemp_mem  s h) s h,
     fun _ _ _ v _ _ s h => ones_mem diagClear v (fun s h => diagClear_mem  s h) s h,
     fun _ _ _ v _ e s h => ones_mem (arrayApply e.good) v (fun s h => arrayApply_mem e.good s h) s h,
     fun _ _ _ v _ _ s h => ones_mem joinCalibrate v (fun s h => joinCalibrate_mem  s h) s h⟩
  exact List.forall_iff_forall_mem.1 all

theorem writeChecked_mem (r : ObjRow) (k v : Nat) (b : Bytes) (x : Ext) (s : State) (h : s.memoryWf = true) : OkMem (writeChecked r k v b x s) := by
  refine okIte okErr (okIte okErr ?_)
  split
  · rename_i f hf; exact writers_mem _ (lookRow_mem f r.base writers hf) _ _ _ _ _ _ _ h
  · exact okIte okErr (okIte okErr (okOk (State.putValue_mem _ _ _ _ _ h)))

theorem dictWrite_mem (k : Nat) (b : Bytes) (x : Ext) (s : State) (hM : s.memoryWf = true) :
    OkMem (dictWrite k b x s) := by
  unfold dictWrite
  repeat' first | (with_reducible intro _) | lift_lets -underBinder | with_reducible (first | assumption | apply writeChecked_mem | apply okIte | apply memIte | apply okOk | apply okErr | (fail_if_no_progress refine memMk rfl rfl rfl rfl ?_) | (refine memOk (by assumption) ?_)) | split

theorem dictWriteInner_mem (fuel k : Nat) (b : Bytes) (x : Ext) (s : State) (hM : s.memoryWf = true) :
    OkMem (dictWriteInner fuel k b x s) := by
  induction fuel generalizing k b with
  | zero => exact okErr
  | succ n ih =>
    unfold dictWriteInner
    refine okIte ?_ (dictWrite_mem k b x s hM)
    refine okIte okErr ?_
    refine okIte okErr ?_
    exact okIte okErr (ih _ _)

theorem dictWriteAny_mem (k : Nat) (b : Bytes) (x : Ext) (s : State) (hM : s.memoryWf = true) :
    OkMem (dictWriteAny k b x s) := dictWriteInner_mem _ k b x s hM

theorem execDictionaryWrite_mem (t key : Nat) (data : List (BitVec 8)) (drive : List (Nat × Nat × Bool)) (volts : List Nat) (good : Bool)
    (s : State) (hM : s.memoryWf = true) :
    OutMem (execDictionaryWrite t key data drive volts good s) := by
  unfold execDictionaryWrite
  repeat' first | lift_lets -underBinder | with_reducible (first | assumption | apply State.serveNoting_mem | apply dictWriteAny_mem | apply outNext)

theorem execSetCalendar_mem (t : Nat) (data : List (BitVec 8)) (s : State) (hM : s.memoryWf = true) :
    OutMem (execSetCalendar t data s) := by
  unfold execSetCalendar
  repeat' first | with_reducible (first | assumption | apply State.serve_mem | apply setCalendar_mem | apply outNext)

theorem execErrorFieldClear_mem (t value : Nat) (s : State) (hM : s.memoryWf = true) :
    OutMem (execErrorFieldClear t value s) := by
  unfold execErrorFieldClear
  repeat' first | lift_lets -underBinder | with_reducible (first | assumption | apply State.serve_mem | apply dictWrite_mem | apply outNext)

theorem State.reply_mem (s : State) (r : Req) (p : Response) (hM : s.memoryWf = true) :
    (State.reply s r p).memoryWf = true := by
  unfold State.reply
  repeat' first | (intro x; refine memCut x ?_ fun _ => ?_; (on_goal 1 => subst x); (on_goal 2 => clear_value x)) | (intro x; clear_value x) | lift_lets -underBinder | with_reducible (first | assumption | apply State.checkpoint_mem | apply State.msix_mem | apply State.emit_mem | apply memIte | (fail_if_no_progress refine memMk rfl rfl rfl rfl ?_))

theorem State.setLatch_mem (s : State) (tr : Nat) (x : Option Latch) (hM : s.memoryWf = true) :
    (State.setLatch s tr x).memoryWf = true := by
  unfold State.setLatch
  exact hM

theorem State.setStaging_mem (s : State) (tr : Nat) (x : Option Staging) (hM : s.memoryWf = true) :
    (State.setStaging s tr x).memoryWf = true := by
  unfold State.setStaging
  exact hM

theorem State.setLost_mem (s : State) (tr : Nat) (x : Option Nat) (hM : s.memoryWf = true) :
    (State.setLost s tr x).memoryWf = true := by
  unfold State.setLost
  exact hM

theorem State.latchAge_mem (s : State) (tr : Nat) (hM : s.memoryWf = true) :
    (State.latchAge s tr).memoryWf = true := by
  unfold State.latchAge
  repeat' first | lift_lets -underBinder | with_reducible (first | assumption | apply State.setLatch_mem | apply memIte | (fail_if_no_progress refine memMk rfl rfl rfl rfl ?_) | (refine memOk (by assumption) ?_)) | split

theorem State.stagingAge_mem (s : State) (tr : Nat) (hM : s.memoryWf = true) :
    (State.stagingAge s tr).memoryWf = true := by
  unfold State.stagingAge
  repeat' first | lift_lets -underBinder | with_reducible (first | assumption | apply State.setStaging_mem | apply State.setLost_mem | apply memIte | (fail_if_no_progress refine memMk rfl rfl rfl rfl ?_) | (refine memOk (by assumption) ?_)) | split

theorem State.setTags_mem (s : State) (id : Nat) (l : List TagEntry) (hM : s.memoryWf = true) :
    (State.setTags s id l).memoryWf = true := by
  unfold State.setTags
  exact hM

theorem State.emitForward_mem (s : State) (target : Nat) (parts : List (Nat × Bytes)) (hM : s.memoryWf = true) :
    (State.emitForward s target parts).memoryWf = true := by
  unfold State.emitForward
  repeat' first | lift_lets -underBinder | with_reducible (first | assumption | apply State.emit_mem | (fail_if_no_progress refine memMk rfl rfl rfl rfl ?_) | (refine memOk (by assumption) ?_)) | split

theorem State.forwardReq_mem (s : State) (r : Req) (hM : s.memoryWf = true) :
    (State.forwardReq s r).memoryWf = true := by
  unfold State.forwardReq
  repeat' first | (intro x; refine memCut x ?_ fun _ => ?_; (on_goal 1 => subst x); (on_goal 2 => clear_value x)) | (intro x; clear_value x) | lift_lets -underBinder | with_reducible (first | assumption | apply State.reply_mem | apply State.emitForward_mem | apply memIte | (fail_if_no_progress refine memMk rfl rfl rfl rfl ?_))

theorem State.writeEnds_mem (s : State) (w : Except Nat State) (h : s.memoryWf = true) (hw : OkMem w) : (s.writeEnds w).1.memoryWf = true := by
  unfold State.writeEnds
  split
  · rename_i u
    have hu : u.memoryWf = true := hw u rfl
    split
    · exact hu
    · exact State.settle_mem _ hu
  · exact h

theorem State.writeNow_mem (s : State) (r : Req) (x : Ext) (hM : s.memoryWf = true) :
    (State.writeNow s r x).memoryWf = true := by
  unfold State.writeNow
  repeat' first | (intro x; refine memCut x ?_ fun _ => ?_; (on_goal 1 => subst x); (on_goal 2 => clear_value x)) | (intro x; clear_value x) | (with_reducible intro _) | lift_lets -underBinder | with_reducible (first | assumption | apply State.bump_mem | apply State.reply_mem | apply State.writeEnds_mem | apply dictWrite_mem | apply State.setTags_mem | apply memIte | (fail_if_no_progress refine memMk rfl rfl rfl rfl ?_) | (refine memOk (by assumption) ?_)) | split

theorem State.writeWhole_mem (n : Nat) : ∀ (x : Ext) (s : State) (r : Req), s.memoryWf = true → (State.writeWhole n x s r).memoryWf = true := by
  induction n with
  | zero => exact fun x s r h => State.reply_mem _ _ _ h
  | succ n ih =>
    intro x s r h
    unfold State.writeWhole
    exact memIte (State.forwardReq_mem _ _ h) (memIte (memIte (State.reply_mem _ _ _ h) (memIte (State.reply_mem _ _ _ h) (ih _ _ _ h))) (State.writeNow_mem _ _ _ h))

theorem State.writeReq_mem (s0 : State) (r : Req) (x : Ext) (hM : s0.memoryWf = true) :
    (State.writeReq s0 r x).memoryWf = true := by
  unfold State.writeReq
  repeat' first | (intro x; refine memCut x ?_ fun _ => ?_; (on_goal 1 => subst x); (on_goal 2 => clear_value x)) | (intro x; refine funCut x ?_; subst x) | (intro x; clear_value x) | (with_reducible intro _) | lift_lets -underBinder | with_reducible (first | assumption | apply State.stagingAge_mem | apply State.writeWhole_mem | apply State.setLost_mem | apply State.setStaging_mem | apply State.reply_mem | apply memIte | (fail_if_no_progress refine memMk rfl rfl rfl rfl ?_) | (refine memOk (by assumption) ?_)) | split

theorem State.readPart_mem (s : State) (r : Req) (v : Bytes) (hM : s.memoryWf = true) :
    (State.readPart s r v).memoryWf = true := by
  unfold State.readPart
  repeat' first | (intro x; refine memCut x ?_ fun _ => ?_; (on_goal 1 => subst x); (on_goal 2 => clear_value x)) | (intro x; clear_value x) | lift_lets -underBinder | with_reducible (first | assumption | apply State.setLatch_mem | apply State.reply_mem)

theorem State.stateRead_mem (s : State) (k : Nat) (hM : s.memoryWf = true) :
    (State.stateRead s k).memoryWf = true := by
  unfold State.stateRead
  repeat' first | (intro x; clear_value x) | lift_lets -underBinder | with_reducible (first | assumption | apply State.wr_mem | apply memIte | (fail_if_no_progress refine memMk rfl rfl rfl rfl ?_) | (refine memOk (by assumption) ?_)) | split

theorem State.missRead_mem (s : State) (r : Req) (h : s.memoryWf = true) : (match s.view r.key with
    | .ok _ => s.reply r (Sys2Proof.Machine.aborted Abort.noData)
    | .error c => s.reply r (Sys2Proof.Machine.aborted c)).memoryWf = true := by
  split <;> exact State.reply_mem _ _ _ h

theorem State.readReq_mem (s0 : State) (r : Req) (hM : s0.memoryWf = true) : (State.readReq s0 r).memoryWf = true := by
  have h := State.latchAge_mem s0 r.transport hM
  have hl : ∀ (u : State) (own : Bool), u.memoryWf = true → (if own = true then u.setLatch r.transport none else u).memoryWf = true :=
    fun u own hu => memIte (State.setLatch_mem _ _ _ hu) hu
  unfold State.readReq
  dsimp only
  refine memIte (State.forwardReq_mem _ _ h) (memIte ?_ ?_)
  · split
    · exact State.stateRead_mem _ _ (State.readPart_mem _ _ _ h)
    · exact State.reply_mem _ _ _ (hl _ _ h)
  · split
    · exact memIte (State.readPart_mem _ _ _ h) (State.missRead_mem _ _ (hl _ _ h))
    · exact State.missRead_mem _ _ h

theorem State.transact_mem (s : State) (r : Req) (x : Ext) (hM : s.memoryWf = true) :
    (State.transact s r x).memoryWf = true := by
  unfold State.transact
  repeat' first | with_reducible (first | assumption | apply State.reply_mem | apply State.readReq_mem | apply State.writeReq_mem | apply memIte)

theorem execDictSubmit_mem (t header : Nat) (data : List (BitVec 8)) (drive : List (Nat × Nat × Bool)) (volts : List Nat) (good : Bool)
    (s : State) (hM : s.memoryWf = true) :
    OutMem (execDictSubmit t header data drive volts good s) := by
  unfold execDictSubmit
  repeat' first | (intro x; refine memCut x ?_ fun _ => ?_; (on_goal 1 => subst x); (on_goal 2 => clear_value x)) | (intro x; clear_value x) | lift_lets -underBinder | with_reducible (first | assumption | apply State.advance_mem | apply State.transact_mem | apply memIte | apply outNext | (fail_if_no_progress refine memMk rfl rfl rfl rfl ?_))

theorem execDictWriteSegment_mem (t : Nat) (transport : Fin 2) (client key offset tag : Nat) (more : Bool) (data : List (BitVec 8)) (good : Bool)
    (s : State) (hM : s.memoryWf = true) :
    OutMem (execDictWriteSegment t transport client key offset tag more data good s) := by
  unfold execDictWriteSegment
  repeat' first | (intro x; refine memCut x ?_ fun _ => ?_; (on_goal 1 => subst x); (on_goal 2 => clear_value x)) | lift_lets -underBinder | with_reducible (first | assumption | apply State.advance_mem | apply State.transact_mem | apply outNext)

theorem execDictReadSegment_mem (t : Nat) (transport : Fin 2) (client key offset length : Nat) (s : State) (hM : s.memoryWf = true) :
    OutMem (execDictReadSegment t transport client key offset length s) := by
  unfold execDictReadSegment
  repeat' first | (intro x; refine memCut x ?_ fun _ => ?_; (on_goal 1 => subst x); (on_goal 2 => clear_value x)) | lift_lets -underBinder | with_reducible (first | assumption | apply State.advance_mem | apply State.transact_mem | apply outNext)

theorem execEnvelopeWrite_mem (t : Nat) (transport : Fin 2) (client : Nat) (data : List (BitVec 8)) (good : Bool) (s : State) (hM : s.memoryWf = true) :
    OutMem (execEnvelopeWrite t transport client data good s) := by
  unfold execEnvelopeWrite
  repeat' first | (intro x; refine memCut x ?_ fun _ => ?_; (on_goal 1 => subst x); (on_goal 2 => clear_value x)) | (intro x; clear_value x) | lift_lets -underBinder | with_reducible (first | assumption | apply State.advance_mem | apply State.reply_mem | apply State.writeWhole_mem | apply memIte | apply outNext)

theorem execSegmentBufferTimeout_mem (t : Nat) (transport : Fin 3) (s : State) (hM : s.memoryWf = true) :
    OutMem (execSegmentBufferTimeout t transport s) := by
  unfold execSegmentBufferTimeout
  repeat' first | with_reducible (first | assumption | apply State.advance_mem | apply State.stagingAge_mem | apply outNext)

theorem execReadLatchTimeout_mem (t : Nat) (transport : Fin 3) (s : State) (hM : s.memoryWf = true) :
    OutMem (execReadLatchTimeout t transport s) := by
  unfold execReadLatchTimeout
  repeat' first | with_reducible (first | assumption | apply State.advance_mem | apply State.latchAge_mem | apply outNext)

theorem execTagExpiry_mem (t : Nat) (transport : Fin 3) (client : Nat) (s : State) (hM : s.memoryWf = true) :
    OutMem (execTagExpiry t transport client s) := by
  unfold execTagExpiry
  repeat' first | (intro x; refine memCut x ?_ fun _ => ?_; (on_goal 1 => subst x); (on_goal 2 => clear_value x)) | lift_lets -underBinder | with_reducible (first | assumption | apply State.advance_mem | apply State.setTags_mem | apply outNext)

theorem State.forwardNext_mem (s : State) (w : Forwarded) (hM : s.memoryWf = true) :
    (State.forwardNext s w).memoryWf = true := by
  unfold State.forwardNext
  repeat' first | (intro x; refine memCut x ?_ fun _ => ?_; (on_goal 1 => subst x); (on_goal 2 => clear_value x)) | (intro x; clear_value x) | (with_reducible intro _) | lift_lets -underBinder | with_reducible (first | assumption | apply State.emitForward_mem | apply memIte | (fail_if_no_progress refine memMk rfl rfl rfl rfl ?_))

theorem State.unforward_mem (s : State) (w : Forwarded) (hM : s.memoryWf = true) :
    (State.unforward s w).memoryWf = true := by
  unfold State.unforward
  exact hM

theorem execForwardedRequest_mem (t : Nat) (response : Bool) (pos : Fin 8) (header : Nat) (data : List (BitVec 8)) (drive : List (Nat × Nat × Bool))
    (volts : List Nat) (good : Bool) (s : State) (hM : s.memoryWf = true) :
    OutMem (execForwardedRequest t response pos header data drive volts good s) := by
  unfold execForwardedRequest
  repeat' first | (intro x; refine memCut x ?_ fun _ => ?_; (on_goal 1 => subst x); (on_goal 2 => clear_value x)) | (with_reducible intro _) | lift_lets -underBinder | with_reducible (first | assumption | apply State.advance_mem | apply State.forwardNext_mem | apply State.unforward_mem | apply State.reply_mem | apply State.transact_mem | apply memIte | apply outNext | (fail_if_no_progress refine memMk rfl rfl rfl rfl ?_) | (refine memOk (by assumption) ?_)) | split

theorem execForwardTimeout_mem (t : Nat) (pos : Fin 8) (s : State) (hM : s.memoryWf = true) :
    OutMem (execForwardTimeout t pos s) := by
  unfold execForwardTimeout
  repeat' first | (intro x; refine memCut x ?_ fun _ => ?_; (on_goal 1 => subst x); (on_goal 2 => clear_value x)) | (with_reducible intro _) | lift_lets -underBinder | with_reducible (first | assumption | apply State.advance_mem | apply State.unforward_mem | apply State.reply_mem | apply outNext | (fail_if_no_progress refine memMk rfl rfl rfl rfl ?_) | (refine memOk (by assumption) ?_)) | split

theorem State.frameAll_mem (s : State) (ident : Nat) (data : Bytes) (hM : s.memoryWf = true) :
    (State.frameAll s ident data).memoryWf = true := by
  unfold State.frameAll
  repeat' first | (with_reducible intro _) | with_reducible (first | assumption | apply State.emit_mem | apply memIte | apply memFoldl)

theorem State.canError_mem (s : State) (p v : Nat) (hM : s.memoryWf = true) :
    (State.canError s p v).memoryWf = true := by
  unfold State.canError
  repeat' first | (intro x; refine memCut x ?_ fun _ => ?_; (on_goal 1 => subst x); (on_goal 2 => clear_value x)) | (intro x; clear_value x) | lift_lets -underBinder | with_reducible (first | assumption | apply State.wr_mem | (fail_if_no_progress refine memMk rfl rfl rfl rfl ?_))

theorem State.nmt_mem (s : State) (t port node st : Nat) (hM : s.memoryWf = true) :
    (State.nmt s t port node st).memoryWf = true := by
  unfold State.nmt
  repeat' first | (intro x; refine memCut x ?_ fun _ => ?_; (on_goal 1 => subst x); (on_goal 2 => clear_value x)) | lift_lets -underBinder | with_reducible (first | assumption | apply State.advance_mem | apply State.wr_mem | apply memIte)

theorem execNmtStart_mem (t : Nat) (port : Fin 2) (node : Nat) (s : State) (hM : s.memoryWf = true) :
    OutMem (execNmtStart t port node s) := by
  unfold execNmtStart
  repeat' first | with_reducible (first | assumption | apply State.nmt_mem | apply outNext)

theorem execNmtStop_mem (t : Nat) (port : Fin 2) (node : Nat) (s : State) (hM : s.memoryWf = true) :
    OutMem (execNmtStop t port node s) := by
  unfold execNmtStop
  repeat' first | with_reducible (first | assumption | apply State.nmt_mem | apply outNext)

theorem execNmtEnterPreOperational_mem (t : Nat) (port : Fin 2) (node : Nat) (s : State) (hM : s.memoryWf = true) :
    OutMem (execNmtEnterPreOperational t port node s) := by
  unfold execNmtEnterPreOperational
  repeat' first | with_reducible (first | assumption | apply State.nmt_mem | apply outNext)

theorem State.nmtReset_mem (s : State) (hM : s.memoryWf = true) :
    (State.nmtReset s).memoryWf = true := by
  unfold State.nmtReset
  repeat' first | (intro x; refine memCut x ?_ fun _ => ?_; (on_goal 1 => subst x); (on_goal 2 => clear_value x)) | (intro x; clear_value x) | lift_lets -underBinder | with_reducible (first | assumption | apply State.wr_mem | apply State.canError_mem | apply State.setLatch_mem | apply State.setStaging_mem | apply State.setLost_mem | apply State.frameAll_mem | apply memIte | (fail_if_no_progress refine memMk rfl rfl rfl rfl ?_))

theorem State.nmtResetCommand_mem (s : State) (t port node : Nat) (hM : s.memoryWf = true) :
    (State.nmtResetCommand s t port node).memoryWf = true := by
  unfold State.nmtResetCommand
  repeat' first | (intro x; refine memCut x ?_ fun _ => ?_; (on_goal 1 => subst x); (on_goal 2 => clear_value x)) | lift_lets -underBinder | with_reducible (first | assumption | apply State.advance_mem | apply State.nmtReset_mem | apply memIte)

theorem execNmtResetNode_mem (t : Nat) (port : Fin 2) (node : Nat) (s : State) (hM : s.memoryWf = true) :
    OutMem (execNmtResetNode t port node s) := by
  unfold execNmtResetNode
  repeat' first | with_reducible (first | assumption | apply State.nmtResetCommand_mem | apply outNext)

theorem execNmtResetCommunication_mem (t : Nat) (port : Fin 2) (node : Nat) (s : State) (hM : s.memoryWf = true) :
    OutMem (execNmtResetCommunication t port node s) := by
  unfold execNmtResetCommunication
  repeat' first | with_reducible (first | assumption | apply State.nmtResetCommand_mem | apply outNext)

theorem execHeartbeatSend_mem (t : Nat) (s : State) (hM : s.memoryWf = true) :
    OutMem (execHeartbeatSend t s) := by
  unfold execHeartbeatSend
  repeat' first | (intro x; refine memCut x ?_ fun _ => ?_; (on_goal 1 => subst x); (on_goal 2 => clear_value x)) | lift_lets -underBinder | with_reducible (first | assumption | apply State.advance_mem | apply State.frameAll_mem | apply memIte | apply outNext)

theorem State.emcySend_mem (s : State) (hM : s.memoryWf = true) :
    (State.emcySend s).memoryWf = true := by
  unfold State.emcySend
  repeat' first | (intro x; refine memCut x ?_ fun _ => ?_; (on_goal 1 => subst x); (on_goal 2 => clear_value x)) | (intro x; clear_value x) | (with_reducible intro _) | lift_lets -underBinder | with_reducible (first | assumption | apply State.frameAll_mem | apply State.wrs_mem | apply State.wr_mem | (fail_if_no_progress refine memMk rfl rfl rfl rfl ?_) | (refine memOk (by assumption) ?_)) | split

theorem execEmcySend_mem (t : Nat) (s : State) (hM : s.memoryWf = true) :
    OutMem (execEmcySend t s) := by
  unfold execEmcySend
  repeat' first | (intro x; refine memCut x ?_ fun _ => ?_; (on_goal 1 => subst x); (on_goal 2 => clear_value x)) | lift_lets -underBinder | with_reducible (first | assumption | apply State.advance_mem | apply State.emcySend_mem | apply memIte | apply outNext)

theorem execEmcyInhibitExpiry_mem (t : Nat) (s : State) (hM : s.memoryWf = true) :
    OutMem (execEmcyInhibitExpiry t s) := by
  unfold execEmcyInhibitExpiry
  repeat' first | (intro x; refine memCut x ?_ fun _ => ?_; (on_goal 1 => subst x); (on_goal 2 => clear_value x)) | (intro x; clear_value x) | lift_lets -underBinder | with_reducible (first | assumption | apply State.advance_mem | apply State.emcySend_mem | apply memIte | apply outNext | (fail_if_no_progress refine memMk rfl rfl rfl rfl ?_))

theorem execCanBusOff_mem (t : Nat) (port : Fin 2) (recovered : Bool) (s : State) (hM : s.memoryWf = true) :
    OutMem (execCanBusOff t port recovered s) := by
  unfold execCanBusOff
  repeat' first | with_reducible (first | assumption | apply State.advance_mem | apply State.canError_mem | apply memIte | apply outNext)

theorem execCanErrorPassive_mem (t : Nat) (port : Fin 2) (passive : Bool) (s : State) (hM : s.memoryWf = true) :
    OutMem (execCanErrorPassive t port passive s) := by
  unfold execCanErrorPassive
  repeat' first | (intro x; refine memCut x ?_ fun _ => ?_; (on_goal 1 => subst x); (on_goal 2 => clear_value x)) | lift_lets -underBinder | with_reducible (first | assumption | apply State.advance_mem | apply State.canError_mem | apply memIte | apply outNext)

theorem execUsdoRequest_mem (t : Nat) (port : Fin 2) (node : Fin 128) (unicast write : Bool) (key offset length : Nat) (more : Bool) (data : List (BitVec 8))
    (good : Bool) (s : State) (hM : s.memoryWf = true) :
    OutMem (execUsdoRequest t port node unicast write key offset length more data good s) := by
  unfold execUsdoRequest
  repeat' first | (intro x; refine memCut x ?_ fun _ => ?_; (on_goal 1 => subst x); (on_goal 2 => clear_value x)) | (intro x; clear_value x) | lift_lets -underBinder | with_reducible (first | assumption | apply State.advance_mem | apply State.transact_mem | apply memIte | apply outNext)

theorem State.restoreFails_mem (s : State) (k : Nat) (log : Bool) (hM : s.memoryWf = true) :
    (State.restoreFails s k log).memoryWf = true := by
  unfold State.restoreFails
  repeat' first | (intro x; refine memCut x ?_ fun _ => ?_; (on_goal 1 => subst x); (on_goal 2 => clear_value x)) | lift_lets -underBinder | with_reducible (first | assumption | apply State.bump_mem | apply State.faultLog_mem | apply memIte)

theorem State.restoreOne_mem (s : State) (e : Nat × Bytes) (hM : s.memoryWf = true) :
    (State.restoreOne s e).memoryWf = true := by
  unfold State.restoreOne
  repeat' first | (intro x; refine memCut x ?_ fun _ => ?_; (on_goal 1 => subst x); (on_goal 2 => clear_value x)) | (intro x; clear_value x) | lift_lets -underBinder | with_reducible (first | assumption | apply State.restoreFails_mem | apply State.keepValue_mem | apply writeChecked_mem | apply memIte | (fail_if_no_progress refine memMk rfl rfl rfl rfl ?_) | (refine memOk (by assumption) ?_)) | split

theorem State.canStart_mem (s : State) (hM : s.memoryWf = true) :
    (State.canStart s).memoryWf = true := by
  unfold State.canStart
  repeat' first | (intro x; refine memCut x ?_ fun _ => ?_; (on_goal 1 => subst x); (on_goal 2 => clear_value x)) | (intro x; clear_value x) | lift_lets -underBinder | with_reducible (first | assumption | apply State.wr_mem | apply State.frameAll_mem | apply memIte | (fail_if_no_progress refine memMk rfl rfl rfl rfl ?_))

theorem State.startPoint_mem (s : State) (hM : s.memoryWf = true) :
    (State.startPoint s).memoryWf = true := by
  unfold State.startPoint
  repeat' first | (intro x; clear_value x) | lift_lets -underBinder | with_reducible (first | assumption | apply State.avsWrite_mem | apply State.selectPoint_mem | apply memIte)

theorem State.stepFails_mem (s : State) (slot detail : Nat) (hM : s.memoryWf = true) :
    (State.stepFails s slot detail).memoryWf = true := by
  unfold State.stepFails
  repeat' first | with_reducible (first | assumption | apply State.faultLog_mem)

theorem State.stepAct_mem (s : State) (slot detail : Nat) (f : Act) (bad : State → Bool) (hM : s.memoryWf = true) (hf : ∀ s, s.memoryWf = true → OkMem (f s)) :
    (State.stepAct s slot detail f bad).memoryWf = true := by
  unfold State.stepAct
  repeat' first | (intro x; refine memCut x ?_ fun _ => ?_; (on_goal 1 => subst x); (on_goal 2 => clear_value x)) | (intro x; clear_value x) | lift_lets -underBinder | with_reducible (first | assumption | apply State.stepFails_mem | apply hf | apply memIte | (fail_if_no_progress refine memMk rfl rfl rfl rfl ?_) | (refine memOk (by assumption) ?_)) | split

theorem State.releaseOne_mem (s : State) (k : Nat) (hM : s.memoryWf = true) :
    (State.releaseOne s k).memoryWf = true := by
  unfold State.releaseOne
  repeat' first | (intro x; refine memCut x ?_ fun _ => ?_; (on_goal 1 => subst x); (on_goal 2 => clear_value x)) | (intro x; clear_value x) | (with_reducible intro _) | lift_lets -underBinder | with_reducible (first | assumption | apply State.stepAct_mem | apply writeChecked_mem | (fail_if_no_progress refine memMk rfl rfl rfl rfl ?_) | (refine memOk (by assumption) ?_)) | split

theorem State.releaseAll_mem (s : State) (l : List Nat) (hM : s.memoryWf = true) :
    (State.releaseAll s l).memoryWf = true := by
  unfold State.releaseAll
  repeat' first | (with_reducible intro _) | with_reducible (first | assumption | apply State.releaseOne_mem | apply memFoldl)

theorem State.runStep_mem (s : State) (n : Nat) (drive : List (Nat × Nat × Bool)) (good : Bool) (hM : s.memoryWf = true) :
    (State.runStep s n drive good).memoryWf = true := by
  unfold State.runStep
  repeat' first | (intro x; refine memCut x ?_ fun _ => ?_; (on_goal 1 => subst x); (on_goal 2 => clear_value x)) | (with_reducible intro _) | lift_lets -underBinder | with_reducible (first | assumption | apply State.stepAct_mem | apply synApply_mem | apply arrayApply_mem | apply State.releaseAll_mem | apply linkApply_mem | apply microLoad_mem | apply nanoLoad_mem | apply admitAction_mem | apply memIte | apply memFoldl)

theorem State.beginStep_mem (s : State) (n : Nat) (drive : List (Nat × Nat × Bool)) (good : Bool) (hM : s.memoryWf = true) :
    (State.beginStep s n drive good).memoryWf = true := by
  unfold State.beginStep
  repeat' first | (intro x; clear_value x) | lift_lets -underBinder | with_reducible (first | assumption | apply State.runStep_mem | apply State.settle_mem | (fail_if_no_progress refine memMk rfl rfl rfl rfl ?_))

theorem State.nextStep_mem (s : State) (drive : List (Nat × Nat × Bool)) (good : Bool) (hM : s.memoryWf = true) :
    (State.nextStep s drive good).memoryWf = true := by
  unfold State.nextStep
  repeat' first | (intro x; refine memCut x ?_ fun _ => ?_; (on_goal 1 => subst x); (on_goal 2 => clear_value x)) | (intro x; clear_value x) | (with_reducible intro _) | lift_lets -underBinder | with_reducible (first | assumption | apply importsWrite_mem | apply State.restoreFails_mem | apply State.beginStep_mem | apply State.wr_mem | apply State.stopWaiting_mem | apply memIte | (fail_if_no_progress refine memMk rfl rfl rfl rfl ?_) | (refine memOk (by assumption) ?_)) | split

theorem State.restore_mem (s : State) (drive : List (Nat × Nat × Bool)) (good : Bool) (hM : s.memoryWf = true) :
    (State.restore s drive good).memoryWf = true := by
  unfold State.restore
  repeat' first | (intro x; refine memCut x ?_ fun _ => ?_; (on_goal 1 => subst x); (on_goal 2 => clear_value x)) | (intro x; clear_value x) | (with_reducible intro _) | lift_lets -underBinder | with_reducible (first | assumption | apply State.wrs_mem | apply State.faultLog_mem | apply State.restoreOne_mem | apply State.canStart_mem | apply State.emit_mem | apply State.startPoint_mem | apply State.wr_mem | apply State.beginStep_mem | apply memIte | apply memFoldl | (fail_if_no_progress refine memMk rfl rfl rfl rfl ?_) | (refine memOk (by assumption) ?_)) | split

theorem execPantryRestore_mem (t : Nat) (drive : List (Nat × Nat × Bool)) (good : Bool) (s : State) (hM : s.memoryWf = true) :
    OutMem (execPantryRestore t drive good s) := by
  unfold execPantryRestore
  repeat' first | (intro x; refine memCut x ?_ fun _ => ?_; (on_goal 1 => subst x); (on_goal 2 => clear_value x)) | lift_lets -underBinder | with_reducible (first | assumption | apply State.advance_mem | apply State.restore_mem | apply memIte | apply outNext)

theorem execRestoreStepComplete_mem (t : Nat) (drive : List (Nat × Nat × Bool)) (good : Bool) (s : State) (hM : s.memoryWf = true) :
    OutMem (execRestoreStepComplete t drive good s) := by
  unfold execRestoreStepComplete
  repeat' first | (intro x; refine memCut x ?_ fun _ => ?_; (on_goal 1 => subst x); (on_goal 2 => clear_value x)) | lift_lets -underBinder | with_reducible (first | assumption | apply State.advance_mem | apply State.beginStep_mem | apply State.nextStep_mem | apply memIte | apply outNext)

theorem execRestoreStepTimeout_mem (t : Nat) (drive : List (Nat × Nat × Bool)) (good : Bool) (s : State) (hM : s.memoryWf = true) :
    OutMem (execRestoreStepTimeout t drive good s) := by
  unfold execRestoreStepTimeout
  repeat' first | (intro x; refine memCut x ?_ fun _ => ?_; (on_goal 1 => subst x); (on_goal 2 => clear_value x)) | lift_lets -underBinder | with_reducible (first | assumption | apply State.advance_mem | apply State.stepFails_mem | apply State.nextStep_mem | apply memIte | apply outNext | (fail_if_no_progress refine memMk rfl rfl rfl rfl ?_) | (refine memOk (by assumption) ?_)) | split

theorem State.withFetchWord_mem (s : State) (nbits w : Nat) (hM : s.memoryWf = true) :
    (State.withFetchWord s nbits w).memoryWf = true := by
  unfold State.withFetchWord
  repeat' first | lift_lets -underBinder | with_reducible (first | assumption | (fail_if_no_progress refine memMk rfl rfl rfl rfl ?_) | (refine memOk (by assumption) ?_)) | split

end Sys2Proof.Machine
end

