-- ==== Sys2Proof/Laws/State.lean ====
section
/-! SUPPORT. What every update of the state leaves alone: one lemma per field. -/

namespace Sys2Proof.Machine

open Sys2Proof

variable (s : State)

@[simp] theorem State.wr_pending (k v : Nat) : (s.wr k v).pending = s.pending := rfl
@[simp] theorem State.wr_now (k v : Nat) : (s.wr k v).now = s.now := rfl
@[simp] theorem State.wr_out (k v : Nat) : (s.wr k v).out = s.out := rfl
@[simp] theorem State.wr_fresh (k v : Nat) : (s.wr k v).fresh = s.fresh := rfl
@[simp] theorem State.wr_doms (k v : Nat) : (s.wr k v).doms = s.doms := rfl
@[simp] theorem State.wr_time (k v : Nat) : (s.wr k v).time = s.time := rfl
@[simp] theorem State.wr_syn (k v : Nat) : (s.wr k v).syn = s.syn := rfl
@[simp] theorem State.wr_clk (k v : Nat) : (s.wr k v).clk = s.clk := rfl
@[simp] theorem State.wr_tdc (k v : Nat) : (s.wr k v).tdc = s.tdc := rfl
@[simp] theorem State.wr_stat (k v : Nat) : (s.wr k v).stat = s.stat := rfl
@[simp] theorem State.wr_dict (k v : Nat) : (s.wr k v).dict = s.dict := rfl
@[simp] theorem State.wr_pantry (k v : Nat) : (s.wr k v).pantry = s.pantry := rfl
@[simp] theorem State.wr_steward (k v : Nat) : (s.wr k v).steward = s.steward := rfl
@[simp] theorem State.wr_life (k v : Nat) : (s.wr k v).life = s.life := rfl
@[simp] theorem State.wr_power (k v : Nat) : (s.wr k v).power = s.power := rfl
@[simp] theorem State.wr_slots (k v : Nat) : (s.wr k v).slots = s.slots := rfl
@[simp] theorem State.wr_link (k v : Nat) : (s.wr k v).link = s.link := rfl
@[simp] theorem State.wr_chan (k v : Nat) : (s.wr k v).chan = s.chan := rfl
@[simp] theorem State.wr_line (k v : Nat) : (s.wr k v).line = s.line := rfl
@[simp] theorem State.wr_pat (k v : Nat) : (s.wr k v).pat = s.pat := rfl
@[simp] theorem State.wr_trig (k v : Nat) : (s.wr k v).trig = s.trig := rfl
@[simp] theorem State.wr_lane (k v : Nat) : (s.wr k v).lane = s.lane := rfl
@[simp] theorem State.wr_weir (k v : Nat) : (s.wr k v).weir = s.weir := rfl
@[simp] theorem State.wr_trigLog (k v : Nat) : (s.wr k v).trigLog = s.trigLog := rfl
@[simp] theorem State.wr_engine (k v : Nat) : (s.wr k v).engine = s.engine := rfl
@[simp] theorem State.wr_ring (k v : Nat) : (s.wr k v).ring = s.ring := rfl
@[simp] theorem State.wr_pipe (k v : Nat) : (s.wr k v).pipe = s.pipe := rfl
@[simp] theorem State.wr_map (k v : Nat) : (s.wr k v).map = s.map := rfl
@[simp] theorem State.wr_hbm (k v : Nat) : (s.wr k v).hbm = s.hbm := rfl
@[simp] theorem State.wr_pool (k v : Nat) : (s.wr k v).pool = s.pool := rfl
@[simp] theorem State.wr_bank (k v : Nat) : (s.wr k v).bank = s.bank := rfl
@[simp] theorem State.wr_pc (k v : Nat) : (s.wr k v).pc = s.pc := rfl
@[simp] theorem State.wr_tolerance (k v : Nat) : (s.wr k v).tolerance = s.tolerance := rfl
@[simp] theorem State.wr_disp (k v : Nat) : (s.wr k v).disp = s.disp := rfl
@[simp] theorem State.wr_xfer (k v : Nat) : (s.wr k v).xfer = s.xfer := rfl
@[simp] theorem State.wr_stream (k v : Nat) : (s.wr k v).stream = s.stream := rfl
@[simp] theorem State.wr_host (k v : Nat) : (s.wr k v).host = s.host := rfl
@[simp] theorem State.wr_drive (k v : Nat) : (s.wr k v).drive = s.drive := rfl
@[simp] theorem State.wr_store (k v : Nat) : (s.wr k v).store = s.store := rfl
@[simp] theorem State.wr_join (k v : Nat) : (s.wr k v).join = s.join := rfl
@[simp] theorem State.wr_posn (k v : Nat) : (s.wr k v).posn = s.posn := rfl
@[simp] theorem State.wr_arr (k v : Nat) : (s.wr k v).arr = s.arr := rfl
@[simp] theorem State.wr_hk (k v : Nat) : (s.wr k v).hk = s.hk := rfl
@[simp] theorem State.wr_cal (k v : Nat) : (s.wr k v).cal = s.cal := rfl
@[simp] theorem State.wr_tap (k v : Nat) : (s.wr k v).tap = s.tap := rfl
@[simp] theorem State.wr_scan (k v : Nat) : (s.wr k v).scan = s.scan := rfl
@[simp] theorem State.setDom_pending (k : Nat) (b : Bytes) : (s.setDom k b).pending = s.pending := rfl
@[simp] theorem State.setDom_now (k : Nat) (b : Bytes) : (s.setDom k b).now = s.now := rfl
@[simp] theorem State.setDom_out (k : Nat) (b : Bytes) : (s.setDom k b).out = s.out := rfl
@[simp] theorem State.setDom_fresh (k : Nat) (b : Bytes) : (s.setDom k b).fresh = s.fresh := rfl
@[simp] theorem State.setDom_regs (k : Nat) (b : Bytes) : (s.setDom k b).regs = s.regs := rfl
@[simp] theorem State.setDom_time (k : Nat) (b : Bytes) : (s.setDom k b).time = s.time := rfl
@[simp] theorem State.setDom_syn (k : Nat) (b : Bytes) : (s.setDom k b).syn = s.syn := rfl
@[simp] theorem State.setDom_clk (k : Nat) (b : Bytes) : (s.setDom k b).clk = s.clk := rfl
@[simp] theorem State.setDom_tdc (k : Nat) (b : Bytes) : (s.setDom k b).tdc = s.tdc := rfl
@[simp] theorem State.setDom_stat (k : Nat) (b : Bytes) : (s.setDom k b).stat = s.stat := rfl
@[simp] theorem State.setDom_dict (k : Nat) (b : Bytes) : (s.setDom k b).dict = s.dict := rfl
@[simp] theorem State.setDom_pantry (k : Nat) (b : Bytes) : (s.setDom k b).pantry = s.pantry := rfl
@[simp] theorem State.setDom_steward (k : Nat) (b : Bytes) : (s.setDom k b).steward = s.steward := rfl
@[simp] theorem State.setDom_life (k : Nat) (b : Bytes) : (s.setDom k b).life = s.life := rfl
@[simp] theorem State.setDom_power (k : Nat) (b : Bytes) : (s.setDom k b).power = s.power := rfl
@[simp] theorem State.setDom_slots (k : Nat) (b : Bytes) : (s.setDom k b).slots = s.slots := rfl
@[simp] theorem State.setDom_link (k : Nat) (b : Bytes) : (s.setDom k b).link = s.link := rfl
@[simp] theorem State.setDom_chan (k : Nat) (b : Bytes) : (s.setDom k b).chan = s.chan := rfl
@[simp] theorem State.setDom_line (k : Nat) (b : Bytes) : (s.setDom k b).line = s.line := rfl
@[simp] theorem State.setDom_pat (k : Nat) (b : Bytes) : (s.setDom k b).pat = s.pat := rfl
@[simp] theorem State.setDom_trig (k : Nat) (b : Bytes) : (s.setDom k b).trig = s.trig := rfl
@[simp] theorem State.setDom_lane (k : Nat) (b : Bytes) : (s.setDom k b).lane = s.lane := rfl
@[simp] theorem State.setDom_weir (k : Nat) (b : Bytes) : (s.setDom k b).weir = s.weir := rfl
@[simp] theorem State.setDom_trigLog (k : Nat) (b : Bytes) : (s.setDom k b).trigLog = s.trigLog := rfl
@[simp] theorem State.setDom_engine (k : Nat) (b : Bytes) : (s.setDom k b).engine = s.engine := rfl
@[simp] theorem State.setDom_ring (k : Nat) (b : Bytes) : (s.setDom k b).ring = s.ring := rfl
@[simp] theorem State.setDom_pipe (k : Nat) (b : Bytes) : (s.setDom k b).pipe = s.pipe := rfl
@[simp] theorem State.setDom_map (k : Nat) (b : Bytes) : (s.setDom k b).map = s.map := rfl
@[simp] theorem State.setDom_hbm (k : Nat) (b : Bytes) : (s.setDom k b).hbm = s.hbm := rfl
@[simp] theorem State.setDom_pool (k : Nat) (b : Bytes) : (s.setDom k b).pool = s.pool := rfl
@[simp] theorem State.setDom_bank (k : Nat) (b : Bytes) : (s.setDom k b).bank = s.bank := rfl
@[simp] theorem State.setDom_pc (k : Nat) (b : Bytes) : (s.setDom k b).pc = s.pc := rfl
@[simp] theorem State.setDom_tolerance (k : Nat) (b : Bytes) : (s.setDom k b).tolerance = s.tolerance := rfl
@[simp] theorem State.setDom_disp (k : Nat) (b : Bytes) : (s.setDom k b).disp = s.disp := rfl
@[simp] theorem State.setDom_xfer (k : Nat) (b : Bytes) : (s.setDom k b).xfer = s.xfer := rfl
@[simp] theorem State.setDom_stream (k : Nat) (b : Bytes) : (s.setDom k b).stream = s.stream := rfl
@[simp] theorem State.setDom_host (k : Nat) (b : Bytes) : (s.setDom k b).host = s.host := rfl
@[simp] theorem State.setDom_drive (k : Nat) (b : Bytes) : (s.setDom k b).drive = s.drive := rfl
@[simp] theorem State.setDom_store (k : Nat) (b : Bytes) : (s.setDom k b).store = s.store := rfl
@[simp] theorem State.setDom_join (k : Nat) (b : Bytes) : (s.setDom k b).join = s.join := rfl
@[simp] theorem State.setDom_posn (k : Nat) (b : Bytes) : (s.setDom k b).posn = s.posn := rfl
@[simp] theorem State.setDom_arr (k : Nat) (b : Bytes) : (s.setDom k b).arr = s.arr := rfl
@[simp] theorem State.setDom_hk (k : Nat) (b : Bytes) : (s.setDom k b).hk = s.hk := rfl
@[simp] theorem State.setDom_cal (k : Nat) (b : Bytes) : (s.setDom k b).cal = s.cal := rfl
@[simp] theorem State.setDom_tap (k : Nat) (b : Bytes) : (s.setDom k b).tap = s.tap := rfl
@[simp] theorem State.setDom_scan (k : Nat) (b : Bytes) : (s.setDom k b).scan = s.scan := rfl
@[simp] theorem State.emit_pending (o : Out) : (s.emit o).pending = s.pending := rfl
@[simp] theorem State.emit_now (o : Out) : (s.emit o).now = s.now := rfl
@[simp] theorem State.emit_fresh (o : Out) : (s.emit o).fresh = s.fresh := rfl
@[simp] theorem State.emit_regs (o : Out) : (s.emit o).regs = s.regs := rfl
@[simp] theorem State.emit_doms (o : Out) : (s.emit o).doms = s.doms := rfl
@[simp] theorem State.emit_time (o : Out) : (s.emit o).time = s.time := rfl
@[simp] theorem State.emit_syn (o : Out) : (s.emit o).syn = s.syn := rfl
@[simp] theorem State.emit_clk (o : Out) : (s.emit o).clk = s.clk := rfl
@[simp] theorem State.emit_tdc (o : Out) : (s.emit o).tdc = s.tdc := rfl
@[simp] theorem State.emit_stat (o : Out) : (s.emit o).stat = s.stat := rfl
@[simp] theorem State.emit_dict (o : Out) : (s.emit o).dict = s.dict := rfl
@[simp] theorem State.emit_pantry (o : Out) : (s.emit o).pantry = s.pantry := rfl
@[simp] theorem State.emit_steward (o : Out) : (s.emit o).steward = s.steward := rfl
@[simp] theorem State.emit_life (o : Out) : (s.emit o).life = s.life := rfl
@[simp] theorem State.emit_power (o : Out) : (s.emit o).power = s.power := rfl
@[simp] theorem State.emit_slots (o : Out) : (s.emit o).slots = s.slots := rfl
@[simp] theorem State.emit_link (o : Out) : (s.emit o).link = s.link := rfl
@[simp] theorem State.emit_chan (o : Out) : (s.emit o).chan = s.chan := rfl
@[simp] theorem State.emit_line (o : Out) : (s.emit o).line = s.line := rfl
@[simp] theorem State.emit_pat (o : Out) : (s.emit o).pat = s.pat := rfl
@[simp] theorem State.emit_trig (o : Out) : (s.emit o).trig = s.trig := rfl
@[simp] theorem State.emit_lane (o : Out) : (s.emit o).lane = s.lane := rfl
@[simp] theorem State.emit_weir (o : Out) : (s.emit o).weir = s.weir := rfl
@[simp] theorem State.emit_trigLog (o : Out) : (s.emit o).trigLog = s.trigLog := rfl
@[simp] theorem State.emit_engine (o : Out) : (s.emit o).engine = s.engine := rfl
@[simp] theorem State.emit_ring (o : Out) : (s.emit o).ring = s.ring := rfl
@[simp] theorem State.emit_pipe (o : Out) : (s.emit o).pipe = s.pipe := rfl
@[simp] theorem State.emit_map (o : Out) : (s.emit o).map = s.map := rfl
@[simp] theorem State.emit_hbm (o : Out) : (s.emit o).hbm = s.hbm := rfl
@[simp] theorem State.emit_pool (o : Out) : (s.emit o).pool = s.pool := rfl
@[simp] theorem State.emit_bank (o : Out) : (s.emit o).bank = s.bank := rfl
@[simp] theorem State.emit_pc (o : Out) : (s.emit o).pc = s.pc := rfl
@[simp] theorem State.emit_tolerance (o : Out) : (s.emit o).tolerance = s.tolerance := rfl
@[simp] theorem State.emit_disp (o : Out) : (s.emit o).disp = s.disp := rfl
@[simp] theorem State.emit_xfer (o : Out) : (s.emit o).xfer = s.xfer := rfl
@[simp] theorem State.emit_stream (o : Out) : (s.emit o).stream = s.stream := rfl
@[simp] theorem State.emit_host (o : Out) : (s.emit o).host = s.host := rfl
@[simp] theorem State.emit_drive (o : Out) : (s.emit o).drive = s.drive := rfl
@[simp] theorem State.emit_store (o : Out) : (s.emit o).store = s.store := rfl
@[simp] theorem State.emit_join (o : Out) : (s.emit o).join = s.join := rfl
@[simp] theorem State.emit_posn (o : Out) : (s.emit o).posn = s.posn := rfl
@[simp] theorem State.emit_arr (o : Out) : (s.emit o).arr = s.arr := rfl
@[simp] theorem State.emit_hk (o : Out) : (s.emit o).hk = s.hk := rfl
@[simp] theorem State.emit_cal (o : Out) : (s.emit o).cal = s.cal := rfl
@[simp] theorem State.emit_tap (o : Out) : (s.emit o).tap = s.tap := rfl
@[simp] theorem State.emit_scan (o : Out) : (s.emit o).scan = s.scan := rfl
@[simp] theorem State.advance_pending (t : Nat) : (s.advance t).pending = s.pending := rfl
@[simp] theorem State.advance_fresh (t : Nat) : (s.advance t).fresh = s.fresh := rfl
@[simp] theorem State.advance_regs (t : Nat) : (s.advance t).regs = s.regs := rfl
@[simp] theorem State.advance_doms (t : Nat) : (s.advance t).doms = s.doms := rfl
@[simp] theorem State.advance_time (t : Nat) : (s.advance t).time = s.time := rfl
@[simp] theorem State.advance_syn (t : Nat) : (s.advance t).syn = s.syn := rfl
@[simp] theorem State.advance_clk (t : Nat) : (s.advance t).clk = s.clk := rfl
@[simp] theorem State.advance_tdc (t : Nat) : (s.advance t).tdc = s.tdc := rfl
@[simp] theorem State.advance_stat (t : Nat) : (s.advance t).stat = s.stat := rfl
@[simp] theorem State.advance_pantry (t : Nat) : (s.advance t).pantry = s.pantry := rfl
@[simp] theorem State.advance_steward (t : Nat) : (s.advance t).steward = s.steward := rfl
@[simp] theorem State.advance_life (t : Nat) : (s.advance t).life = s.life := rfl
@[simp] theorem State.advance_power (t : Nat) : (s.advance t).power = s.power := rfl
@[simp] theorem State.advance_slots (t : Nat) : (s.advance t).slots = s.slots := rfl
@[simp] theorem State.advance_link (t : Nat) : (s.advance t).link = s.link := rfl
@[simp] theorem State.advance_chan (t : Nat) : (s.advance t).chan = s.chan := rfl
@[simp] theorem State.advance_line (t : Nat) : (s.advance t).line = s.line := rfl
@[simp] theorem State.advance_pat (t : Nat) : (s.advance t).pat = s.pat := rfl
@[simp] theorem State.advance_trig (t : Nat) : (s.advance t).trig = s.trig := rfl
@[simp] theorem State.advance_lane (t : Nat) : (s.advance t).lane = s.lane := rfl
@[simp] theorem State.advance_weir (t : Nat) : (s.advance t).weir = s.weir := rfl
@[simp] theorem State.advance_trigLog (t : Nat) : (s.advance t).trigLog = s.trigLog := rfl
@[simp] theorem State.advance_engine (t : Nat) : (s.advance t).engine = s.engine := rfl
@[simp] theorem State.advance_ring (t : Nat) : (s.advance t).ring = s.ring := rfl
@[simp] theorem State.advance_pipe (t : Nat) : (s.advance t).pipe = s.pipe := rfl
@[simp] theorem State.advance_map (t : Nat) : (s.advance t).map = s.map := rfl
@[simp] theorem State.advance_hbm (t : Nat) : (s.advance t).hbm = s.hbm := rfl
@[simp] theorem State.advance_pool (t : Nat) : (s.advance t).pool = s.pool := rfl
@[simp] theorem State.advance_bank (t : Nat) : (s.advance t).bank = s.bank := rfl
@[simp] theorem State.advance_pc (t : Nat) : (s.advance t).pc = s.pc := rfl
@[simp] theorem State.advance_tolerance (t : Nat) : (s.advance t).tolerance = s.tolerance := rfl
@[simp] theorem State.advance_disp (t : Nat) : (s.advance t).disp = s.disp := rfl
@[simp] theorem State.advance_xfer (t : Nat) : (s.advance t).xfer = s.xfer := rfl
@[simp] theorem State.advance_stream (t : Nat) : (s.advance t).stream = s.stream := rfl
@[simp] theorem State.advance_host (t : Nat) : (s.advance t).host = s.host := rfl
@[simp] theorem State.advance_drive (t : Nat) : (s.advance t).drive = s.drive := rfl
@[simp] theorem State.advance_store (t : Nat) : (s.advance t).store = s.store := rfl
@[simp] theorem State.advance_join (t : Nat) : (s.advance t).join = s.join := rfl
@[simp] theorem State.advance_posn (t : Nat) : (s.advance t).posn = s.posn := rfl
@[simp] theorem State.advance_arr (t : Nat) : (s.advance t).arr = s.arr := rfl
@[simp] theorem State.advance_hk (t : Nat) : (s.advance t).hk = s.hk := rfl
@[simp] theorem State.advance_cal (t : Nat) : (s.advance t).cal = s.cal := rfl
@[simp] theorem State.advance_tap (t : Nat) : (s.advance t).tap = s.tap := rfl
@[simp] theorem State.advance_scan (t : Nat) : (s.advance t).scan = s.scan := rfl
@[simp] theorem State.setHbm_pending (a : Nat) (b : Byte) : (s.setHbm a b).pending = s.pending := rfl
@[simp] theorem State.setHbm_now (a : Nat) (b : Byte) : (s.setHbm a b).now = s.now := rfl
@[simp] theorem State.setHbm_out (a : Nat) (b : Byte) : (s.setHbm a b).out = s.out := rfl
@[simp] theorem State.setHbm_fresh (a : Nat) (b : Byte) : (s.setHbm a b).fresh = s.fresh := rfl
@[simp] theorem State.setHbm_regs (a : Nat) (b : Byte) : (s.setHbm a b).regs = s.regs := rfl
@[simp] theorem State.setHbm_doms (a : Nat) (b : Byte) : (s.setHbm a b).doms = s.doms := rfl
@[simp] theorem State.setHbm_time (a : Nat) (b : Byte) : (s.setHbm a b).time = s.time := rfl
@[simp] theorem State.setHbm_syn (a : Nat) (b : Byte) : (s.setHbm a b).syn = s.syn := rfl
@[simp] theorem State.setHbm_clk (a : Nat) (b : Byte) : (s.setHbm a b).clk = s.clk := rfl
@[simp] theorem State.setHbm_tdc (a : Nat) (b : Byte) : (s.setHbm a b).tdc = s.tdc := rfl
@[simp] theorem State.setHbm_stat (a : Nat) (b : Byte) : (s.setHbm a b).stat = s.stat := rfl
@[simp] theorem State.setHbm_dict (a : Nat) (b : Byte) : (s.setHbm a b).dict = s.dict := rfl
@[simp] theorem State.setHbm_pantry (a : Nat) (b : Byte) : (s.setHbm a b).pantry = s.pantry := rfl
@[simp] theorem State.setHbm_steward (a : Nat) (b : Byte) : (s.setHbm a b).steward = s.steward := rfl
@[simp] theorem State.setHbm_life (a : Nat) (b : Byte) : (s.setHbm a b).life = s.life := rfl
@[simp] theorem State.setHbm_power (a : Nat) (b : Byte) : (s.setHbm a b).power = s.power := rfl
@[simp] theorem State.setHbm_slots (a : Nat) (b : Byte) : (s.setHbm a b).slots = s.slots := rfl
@[simp] theorem State.setHbm_link (a : Nat) (b : Byte) : (s.setHbm a b).link = s.link := rfl
@[simp] theorem State.setHbm_chan (a : Nat) (b : Byte) : (s.setHbm a b).chan = s.chan := rfl
@[simp] theorem State.setHbm_line (a : Nat) (b : Byte) : (s.setHbm a b).line = s.line := rfl
@[simp] theorem State.setHbm_pat (a : Nat) (b : Byte) : (s.setHbm a b).pat = s.pat := rfl
@[simp] theorem State.setHbm_trig (a : Nat) (b : Byte) : (s.setHbm a b).trig = s.trig := rfl
@[simp] theorem State.setHbm_lane (a : Nat) (b : Byte) : (s.setHbm a b).lane = s.lane := rfl
@[simp] theorem State.setHbm_weir (a : Nat) (b : Byte) : (s.setHbm a b).weir = s.weir := rfl
@[simp] theorem State.setHbm_trigLog (a : Nat) (b : Byte) : (s.setHbm a b).trigLog = s.trigLog := rfl
@[simp] theorem State.setHbm_engine (a : Nat) (b : Byte) : (s.setHbm a b).engine = s.engine := rfl
@[simp] theorem State.setHbm_ring (a : Nat) (b : Byte) : (s.setHbm a b).ring = s.ring := rfl
@[simp] theorem State.setHbm_pipe (a : Nat) (b : Byte) : (s.setHbm a b).pipe = s.pipe := rfl
@[simp] theorem State.setHbm_map (a : Nat) (b : Byte) : (s.setHbm a b).map = s.map := rfl
@[simp] theorem State.setHbm_pool (a : Nat) (b : Byte) : (s.setHbm a b).pool = s.pool := rfl
@[simp] theorem State.setHbm_bank (a : Nat) (b : Byte) : (s.setHbm a b).bank = s.bank := rfl
@[simp] theorem State.setHbm_pc (a : Nat) (b : Byte) : (s.setHbm a b).pc = s.pc := rfl
@[simp] theorem State.setHbm_tolerance (a : Nat) (b : Byte) : (s.setHbm a b).tolerance = s.tolerance := rfl
@[simp] theorem State.setHbm_disp (a : Nat) (b : Byte) : (s.setHbm a b).disp = s.disp := rfl
@[simp] theorem State.setHbm_xfer (a : Nat) (b : Byte) : (s.setHbm a b).xfer = s.xfer := rfl
@[simp] theorem State.setHbm_stream (a : Nat) (b : Byte) : (s.setHbm a b).stream = s.stream := rfl
@[simp] theorem State.setHbm_host (a : Nat) (b : Byte) : (s.setHbm a b).host = s.host := rfl
@[simp] theorem State.setHbm_drive (a : Nat) (b : Byte) : (s.setHbm a b).drive = s.drive := rfl
@[simp] theorem State.setHbm_store (a : Nat) (b : Byte) : (s.setHbm a b).store = s.store := rfl
@[simp] theorem State.setHbm_join (a : Nat) (b : Byte) : (s.setHbm a b).join = s.join := rfl
@[simp] theorem State.setHbm_posn (a : Nat) (b : Byte) : (s.setHbm a b).posn = s.posn := rfl
@[simp] theorem State.setHbm_arr (a : Nat) (b : Byte) : (s.setHbm a b).arr = s.arr := rfl
@[simp] theorem State.setHbm_hk (a : Nat) (b : Byte) : (s.setHbm a b).hk = s.hk := rfl
@[simp] theorem State.setHbm_cal (a : Nat) (b : Byte) : (s.setHbm a b).cal = s.cal := rfl
@[simp] theorem State.setHbm_tap (a : Nat) (b : Byte) : (s.setHbm a b).tap = s.tap := rfl
@[simp] theorem State.setHbm_scan (a : Nat) (b : Byte) : (s.setHbm a b).scan = s.scan := rfl
@[simp] theorem State.setSlot_pending (n : Nat) (x : Slot) : (s.setSlot n x).pending = s.pending := rfl
@[simp] theorem State.setSlot_now (n : Nat) (x : Slot) : (s.setSlot n x).now = s.now := rfl
@[simp] theorem State.setSlot_out (n : Nat) (x : Slot) : (s.setSlot n x).out = s.out := rfl
@[simp] theorem State.setSlot_fresh (n : Nat) (x : Slot) : (s.setSlot n x).fresh = s.fresh := rfl
@[simp] theorem State.setSlot_regs (n : Nat) (x : Slot) : (s.setSlot n x).regs = s.regs := rfl
@[simp] theorem State.setSlot_doms (n : Nat) (x : Slot) : (s.setSlot n x).doms = s.doms := rfl
@[simp] theorem State.setSlot_time (n : Nat) (x : Slot) : (s.setSlot n x).time = s.time := rfl
@[simp] theorem State.setSlot_syn (n : Nat) (x : Slot) : (s.setSlot n x).syn = s.syn := rfl
@[simp] theorem State.setSlot_clk (n : Nat) (x : Slot) : (s.setSlot n x).clk = s.clk := rfl
@[simp] theorem State.setSlot_tdc (n : Nat) (x : Slot) : (s.setSlot n x).tdc = s.tdc := rfl
@[simp] theorem State.setSlot_stat (n : Nat) (x : Slot) : (s.setSlot n x).stat = s.stat := rfl
@[simp] theorem State.setSlot_dict (n : Nat) (x : Slot) : (s.setSlot n x).dict = s.dict := rfl
@[simp] theorem State.setSlot_pantry (n : Nat) (x : Slot) : (s.setSlot n x).pantry = s.pantry := rfl
@[simp] theorem State.setSlot_steward (n : Nat) (x : Slot) : (s.setSlot n x).steward = s.steward := rfl
@[simp] theorem State.setSlot_life (n : Nat) (x : Slot) : (s.setSlot n x).life = s.life := rfl
@[simp] theorem State.setSlot_power (n : Nat) (x : Slot) : (s.setSlot n x).power = s.power := rfl
@[simp] theorem State.setSlot_link (n : Nat) (x : Slot) : (s.setSlot n x).link = s.link := rfl
@[simp] theorem State.setSlot_chan (n : Nat) (x : Slot) : (s.setSlot n x).chan = s.chan := rfl
@[simp] theorem State.setSlot_line (n : Nat) (x : Slot) : (s.setSlot n x).line = s.line := rfl
@[simp] theorem State.setSlot_pat (n : Nat) (x : Slot) : (s.setSlot n x).pat = s.pat := rfl
@[simp] theorem State.setSlot_trig (n : Nat) (x : Slot) : (s.setSlot n x).trig = s.trig := rfl
@[simp] theorem State.setSlot_lane (n : Nat) (x : Slot) : (s.setSlot n x).lane = s.lane := rfl
@[simp] theorem State.setSlot_weir (n : Nat) (x : Slot) : (s.setSlot n x).weir = s.weir := rfl
@[simp] theorem State.setSlot_trigLog (n : Nat) (x : Slot) : (s.setSlot n x).trigLog = s.trigLog := rfl
@[simp] theorem State.setSlot_engine (n : Nat) (x : Slot) : (s.setSlot n x).engine = s.engine := rfl
@[simp] theorem State.setSlot_ring (n : Nat) (x : Slot) : (s.setSlot n x).ring = s.ring := rfl
@[simp] theorem State.setSlot_pipe (n : Nat) (x : Slot) : (s.setSlot n x).pipe = s.pipe := rfl
@[simp] theorem State.setSlot_map (n : Nat) (x : Slot) : (s.setSlot n x).map = s.map := rfl
@[simp] theorem State.setSlot_hbm (n : Nat) (x : Slot) : (s.setSlot n x).hbm = s.hbm := rfl
@[simp] theorem State.setSlot_pool (n : Nat) (x : Slot) : (s.setSlot n x).pool = s.pool := rfl
@[simp] theorem State.setSlot_bank (n : Nat) (x : Slot) : (s.setSlot n x).bank = s.bank := rfl
@[simp] theorem State.setSlot_pc (n : Nat) (x : Slot) : (s.setSlot n x).pc = s.pc := rfl
@[simp] theorem State.setSlot_tolerance (n : Nat) (x : Slot) : (s.setSlot n x).tolerance = s.tolerance := rfl
@[simp] theorem State.setSlot_disp (n : Nat) (x : Slot) : (s.setSlot n x).disp = s.disp := rfl
@[simp] theorem State.setSlot_xfer (n : Nat) (x : Slot) : (s.setSlot n x).xfer = s.xfer := rfl
@[simp] theorem State.setSlot_stream (n : Nat) (x : Slot) : (s.setSlot n x).stream = s.stream := rfl
@[simp] theorem State.setSlot_host (n : Nat) (x : Slot) : (s.setSlot n x).host = s.host := rfl
@[simp] theorem State.setSlot_drive (n : Nat) (x : Slot) : (s.setSlot n x).drive = s.drive := rfl
@[simp] theorem State.setSlot_store (n : Nat) (x : Slot) : (s.setSlot n x).store = s.store := rfl
@[simp] theorem State.setSlot_join (n : Nat) (x : Slot) : (s.setSlot n x).join = s.join := rfl
@[simp] theorem State.setSlot_posn (n : Nat) (x : Slot) : (s.setSlot n x).posn = s.posn := rfl
@[simp] theorem State.setSlot_arr (n : Nat) (x : Slot) : (s.setSlot n x).arr = s.arr := rfl
@[simp] theorem State.setSlot_hk (n : Nat) (x : Slot) : (s.setSlot n x).hk = s.hk := rfl
@[simp] theorem State.setSlot_cal (n : Nat) (x : Slot) : (s.setSlot n x).cal = s.cal := rfl
@[simp] theorem State.setSlot_tap (n : Nat) (x : Slot) : (s.setSlot n x).tap = s.tap := rfl
@[simp] theorem State.setSlot_scan (n : Nat) (x : Slot) : (s.setSlot n x).scan = s.scan := rfl
@[simp] theorem State.modSlot_pending (n : Nat) (f : Slot → Slot) : (s.modSlot n f).pending = s.pending := rfl
@[simp] theorem State.modSlot_now (n : Nat) (f : Slot → Slot) : (s.modSlot n f).now = s.now := rfl
@[simp] theorem State.modSlot_out (n : Nat) (f : Slot → Slot) : (s.modSlot n f).out = s.out := rfl
@[simp] theorem State.modSlot_fresh (n : Nat) (f : Slot → Slot) : (s.modSlot n f).fresh = s.fresh := rfl
@[simp] theorem State.modSlot_regs (n : Nat) (f : Slot → Slot) : (s.modSlot n f).regs = s.regs := rfl
@[simp] theorem State.modSlot_doms (n : Nat) (f : Slot → Slot) : (s.modSlot n f).doms = s.doms := rfl
@[simp] theorem State.modSlot_time (n : Nat) (f : Slot → Slot) : (s.modSlot n f).time = s.time := rfl
@[simp] theorem State.modSlot_syn (n : Nat) (f : Slot → Slot) : (s.modSlot n f).syn = s.syn := rfl
@[simp] theorem State.modSlot_clk (n : Nat) (f : Slot → Slot) : (s.modSlot n f).clk = s.clk := rfl
@[simp] theorem State.modSlot_tdc (n : Nat) (f : Slot → Slot) : (s.modSlot n f).tdc = s.tdc := rfl
@[simp] theorem State.modSlot_stat (n : Nat) (f : Slot → Slot) : (s.modSlot n f).stat = s.stat := rfl
@[simp] theorem State.modSlot_dict (n : Nat) (f : Slot → Slot) : (s.modSlot n f).dict = s.dict := rfl
@[simp] theorem State.modSlot_pantry (n : Nat) (f : Slot → Slot) : (s.modSlot n f).pantry = s.pantry := rfl
@[simp] theorem State.modSlot_steward (n : Nat) (f : Slot → Slot) : (s.modSlot n f).steward = s.steward := rfl
@[simp] theorem State.modSlot_life (n : Nat) (f : Slot → Slot) : (s.modSlot n f).life = s.life := rfl
@[simp] theorem State.modSlot_power (n : Nat) (f : Slot → Slot) : (s.modSlot n f).power = s.power := rfl
@[simp] theorem State.modSlot_link (n : Nat) (f : Slot → Slot) : (s.modSlot n f).link = s.link := rfl
@[simp] theorem State.modSlot_chan (n : Nat) (f : Slot → Slot) : (s.modSlot n f).chan = s.chan := rfl
@[simp] theorem State.modSlot_line (n : Nat) (f : Slot → Slot) : (s.modSlot n f).line = s.line := rfl
@[simp] theorem State.modSlot_pat (n : Nat) (f : Slot → Slot) : (s.modSlot n f).pat = s.pat := rfl
@[simp] theorem State.modSlot_trig (n : Nat) (f : Slot → Slot) : (s.modSlot n f).trig = s.trig := rfl
@[simp] theorem State.modSlot_lane (n : Nat) (f : Slot → Slot) : (s.modSlot n f).lane = s.lane := rfl
@[simp] theorem State.modSlot_weir (n : Nat) (f : Slot → Slot) : (s.modSlot n f).weir = s.weir := rfl
@[simp] theorem State.modSlot_trigLog (n : Nat) (f : Slot → Slot) : (s.modSlot n f).trigLog = s.trigLog := rfl
@[simp] theorem State.modSlot_engine (n : Nat) (f : Slot → Slot) : (s.modSlot n f).engine = s.engine := rfl
@[simp] theorem State.modSlot_ring (n : Nat) (f : Slot → Slot) : (s.modSlot n f).ring = s.ring := rfl
@[simp] theorem State.modSlot_pipe (n : Nat) (f : Slot → Slot) : (s.modSlot n f).pipe = s.pipe := rfl
@[simp] theorem State.modSlot_map (n : Nat) (f : Slot → Slot) : (s.modSlot n f).map = s.map := rfl
@[simp] theorem State.modSlot_hbm (n : Nat) (f : Slot → Slot) : (s.modSlot n f).hbm = s.hbm := rfl
@[simp] theorem State.modSlot_pool (n : Nat) (f : Slot → Slot) : (s.modSlot n f).pool = s.pool := rfl
@[simp] theorem State.modSlot_bank (n : Nat) (f : Slot → Slot) : (s.modSlot n f).bank = s.bank := rfl
@[simp] theorem State.modSlot_pc (n : Nat) (f : Slot → Slot) : (s.modSlot n f).pc = s.pc := rfl
@[simp] theorem State.modSlot_tolerance (n : Nat) (f : Slot → Slot) : (s.modSlot n f).tolerance = s.tolerance := rfl
@[simp] theorem State.modSlot_disp (n : Nat) (f : Slot → Slot) : (s.modSlot n f).disp = s.disp := rfl
@[simp] theorem State.modSlot_xfer (n : Nat) (f : Slot → Slot) : (s.modSlot n f).xfer = s.xfer := rfl
@[simp] theorem State.modSlot_stream (n : Nat) (f : Slot → Slot) : (s.modSlot n f).stream = s.stream := rfl
@[simp] theorem State.modSlot_host (n : Nat) (f : Slot → Slot) : (s.modSlot n f).host = s.host := rfl
@[simp] theorem State.modSlot_drive (n : Nat) (f : Slot → Slot) : (s.modSlot n f).drive = s.drive := rfl
@[simp] theorem State.modSlot_store (n : Nat) (f : Slot → Slot) : (s.modSlot n f).store = s.store := rfl
@[simp] theorem State.modSlot_join (n : Nat) (f : Slot → Slot) : (s.modSlot n f).join = s.join := rfl
@[simp] theorem State.modSlot_posn (n : Nat) (f : Slot → Slot) : (s.modSlot n f).posn = s.posn := rfl
@[simp] theorem State.modSlot_arr (n : Nat) (f : Slot → Slot) : (s.modSlot n f).arr = s.arr := rfl
@[simp] theorem State.modSlot_hk (n : Nat) (f : Slot → Slot) : (s.modSlot n f).hk = s.hk := rfl
@[simp] theorem State.modSlot_cal (n : Nat) (f : Slot → Slot) : (s.modSlot n f).cal = s.cal := rfl
@[simp] theorem State.modSlot_tap (n : Nat) (f : Slot → Slot) : (s.modSlot n f).tap = s.tap := rfl
@[simp] theorem State.modSlot_scan (n : Nat) (f : Slot → Slot) : (s.modSlot n f).scan = s.scan := rfl
@[simp] theorem State.setQuad_pending (q v : Nat) : (s.setQuad q v).pending = s.pending := rfl
@[simp] theorem State.setQuad_now (q v : Nat) : (s.setQuad q v).now = s.now := rfl
@[simp] theorem State.setQuad_out (q v : Nat) : (s.setQuad q v).out = s.out := rfl
@[simp] theorem State.setQuad_fresh (q v : Nat) : (s.setQuad q v).fresh = s.fresh := rfl
@[simp] theorem State.setQuad_regs (q v : Nat) : (s.setQuad q v).regs = s.regs := rfl
@[simp] theorem State.setQuad_doms (q v : Nat) : (s.setQuad q v).doms = s.doms := rfl
@[simp] theorem State.setQuad_time (q v : Nat) : (s.setQuad q v).time = s.time := rfl
@[simp] theorem State.setQuad_syn (q v : Nat) : (s.setQuad q v).syn = s.syn := rfl
@[simp] theorem State.setQuad_clk (q v : Nat) : (s.setQuad q v).clk = s.clk := rfl
@[simp] theorem State.setQuad_tdc (q v : Nat) : (s.setQuad q v).tdc = s.tdc := rfl
@[simp] theorem State.setQuad_stat (q v : Nat) : (s.setQuad q v).stat = s.stat := rfl
@[simp] theorem State.setQuad_dict (q v : Nat) : (s.setQuad q v).dict = s.dict := rfl
@[simp] theorem State.setQuad_pantry (q v : Nat) : (s.setQuad q v).pantry = s.pantry := rfl
@[simp] theorem State.setQuad_steward (q v : Nat) : (s.setQuad q v).steward = s.steward := rfl
@[simp] theorem State.setQuad_power (q v : Nat) : (s.setQuad q v).power = s.power := rfl
@[simp] theorem State.setQuad_slots (q v : Nat) : (s.setQuad q v).slots = s.slots := rfl
@[simp] theorem State.setQuad_link (q v : Nat) : (s.setQuad q v).link = s.link := rfl
@[simp] theorem State.setQuad_chan (q v : Nat) : (s.setQuad q v).chan = s.chan := rfl
@[simp] theorem State.setQuad_line (q v : Nat) : (s.setQuad q v).line = s.line := rfl
@[simp] theorem State.setQuad_pat (q v : Nat) : (s.setQuad q v).pat = s.pat := rfl
@[simp] theorem State.setQuad_trig (q v : Nat) : (s.setQuad q v).trig = s.trig := rfl
@[simp] theorem State.setQuad_lane (q v : Nat) : (s.setQuad q v).lane = s.lane := rfl
@[simp] theorem State.setQuad_weir (q v : Nat) : (s.setQuad q v).weir = s.weir := rfl
@[simp] theorem State.setQuad_trigLog (q v : Nat) : (s.setQuad q v).trigLog = s.trigLog := rfl
@[simp] theorem State.setQuad_engine (q v : Nat) : (s.setQuad q v).engine = s.engine := rfl
@[simp] theorem State.setQuad_ring (q v : Nat) : (s.setQuad q v).ring = s.ring := rfl
@[simp] theorem State.setQuad_pipe (q v : Nat) : (s.setQuad q v).pipe = s.pipe := rfl
@[simp] theorem State.setQuad_map (q v : Nat) : (s.setQuad q v).map = s.map := rfl
@[simp] theorem State.setQuad_hbm (q v : Nat) : (s.setQuad q v).hbm = s.hbm := rfl
@[simp] theorem State.setQuad_pool (q v : Nat) : (s.setQuad q v).pool = s.pool := rfl
@[simp] theorem State.setQuad_bank (q v : Nat) : (s.setQuad q v).bank = s.bank := rfl
@[simp] theorem State.setQuad_pc (q v : Nat) : (s.setQuad q v).pc = s.pc := rfl
@[simp] theorem State.setQuad_tolerance (q v : Nat) : (s.setQuad q v).tolerance = s.tolerance := rfl
@[simp] theorem State.setQuad_disp (q v : Nat) : (s.setQuad q v).disp = s.disp := rfl
@[simp] theorem State.setQuad_xfer (q v : Nat) : (s.setQuad q v).xfer = s.xfer := rfl
@[simp] theorem State.setQuad_stream (q v : Nat) : (s.setQuad q v).stream = s.stream := rfl
@[simp] theorem State.setQuad_host (q v : Nat) : (s.setQuad q v).host = s.host := rfl
@[simp] theorem State.setQuad_drive (q v : Nat) : (s.setQuad q v).drive = s.drive := rfl
@[simp] theorem State.setQuad_store (q v : Nat) : (s.setQuad q v).store = s.store := rfl
@[simp] theorem State.setQuad_join (q v : Nat) : (s.setQuad q v).join = s.join := rfl
@[simp] theorem State.setQuad_posn (q v : Nat) : (s.setQuad q v).posn = s.posn := rfl
@[simp] theorem State.setQuad_arr (q v : Nat) : (s.setQuad q v).arr = s.arr := rfl
@[simp] theorem State.setQuad_hk (q v : Nat) : (s.setQuad q v).hk = s.hk := rfl
@[simp] theorem State.setQuad_cal (q v : Nat) : (s.setQuad q v).cal = s.cal := rfl
@[simp] theorem State.setQuad_tap (q v : Nat) : (s.setQuad q v).tap = s.tap := rfl
@[simp] theorem State.setQuad_scan (q v : Nat) : (s.setQuad q v).scan = s.scan := rfl
@[simp] theorem State.checkpoint_pending : s.checkpoint.pending = s.pending := rfl
@[simp] theorem State.checkpoint_now : s.checkpoint.now = s.now := rfl
@[simp] theorem State.checkpoint_out : s.checkpoint.out = s.out := rfl
@[simp] theorem State.checkpoint_fresh : s.checkpoint.fresh = s.fresh := rfl
@[simp] theorem State.checkpoint_regs : s.checkpoint.regs = s.regs := rfl
@[simp] theorem State.checkpoint_doms : s.checkpoint.doms = s.doms := rfl
@[simp] theorem State.checkpoint_time : s.checkpoint.time = s.time := rfl
@[simp] theorem State.checkpoint_syn : s.checkpoint.syn = s.syn := rfl
@[simp] theorem State.checkpoint_clk : s.checkpoint.clk = s.clk := rfl
@[simp] theorem State.checkpoint_tdc : s.checkpoint.tdc = s.tdc := rfl
@[simp] theorem State.checkpoint_stat : s.checkpoint.stat = s.stat := rfl
@[simp] theorem State.checkpoint_dict : s.checkpoint.dict = s.dict := rfl
@[simp] theorem State.checkpoint_pantry : s.checkpoint.pantry = s.pantry := rfl
@[simp] theorem State.checkpoint_life : s.checkpoint.life = s.life := rfl
@[simp] theorem State.checkpoint_power : s.checkpoint.power = s.power := rfl
@[simp] theorem State.checkpoint_slots : s.checkpoint.slots = s.slots := rfl
@[simp] theorem State.checkpoint_link : s.checkpoint.link = s.link := rfl
@[simp] theorem State.checkpoint_chan : s.checkpoint.chan = s.chan := rfl
@[simp] theorem State.checkpoint_line : s.checkpoint.line = s.line := rfl
@[simp] theorem State.checkpoint_pat : s.checkpoint.pat = s.pat := rfl
@[simp] theorem State.checkpoint_trig : s.checkpoint.trig = s.trig := rfl
@[simp] theorem State.checkpoint_lane : s.checkpoint.lane = s.lane := rfl
@[simp] theorem State.checkpoint_weir : s.checkpoint.weir = s.weir := rfl
@[simp] theorem State.checkpoint_trigLog : s.checkpoint.trigLog = s.trigLog := rfl
@[simp] theorem State.checkpoint_engine : s.checkpoint.engine = s.engine := rfl
@[simp] theorem State.checkpoint_ring : s.checkpoint.ring = s.ring := rfl
@[simp] theorem State.checkpoint_pipe : s.checkpoint.pipe = s.pipe := rfl
@[simp] theorem State.checkpoint_map : s.checkpoint.map = s.map := rfl
@[simp] theorem State.checkpoint_hbm : s.checkpoint.hbm = s.hbm := rfl
@[simp] theorem State.checkpoint_pool : s.checkpoint.pool = s.pool := rfl
@[simp] theorem State.checkpoint_bank : s.checkpoint.bank = s.bank := rfl
@[simp] theorem State.checkpoint_pc : s.checkpoint.pc = s.pc := rfl
@[simp] theorem State.checkpoint_tolerance : s.checkpoint.tolerance = s.tolerance := rfl
@[simp] theorem State.checkpoint_disp : s.checkpoint.disp = s.disp := rfl
@[simp] theorem State.checkpoint_xfer : s.checkpoint.xfer = s.xfer := rfl
@[simp] theorem State.checkpoint_stream : s.checkpoint.stream = s.stream := rfl
@[simp] theorem State.checkpoint_host : s.checkpoint.host = s.host := rfl
@[simp] theorem State.checkpoint_drive : s.checkpoint.drive = s.drive := rfl
@[simp] theorem State.checkpoint_store : s.checkpoint.store = s.store := rfl
@[simp] theorem State.checkpoint_join : s.checkpoint.join = s.join := rfl
@[simp] theorem State.checkpoint_posn : s.checkpoint.posn = s.posn := rfl
@[simp] theorem State.checkpoint_arr : s.checkpoint.arr = s.arr := rfl
@[simp] theorem State.checkpoint_hk : s.checkpoint.hk = s.hk := rfl
@[simp] theorem State.checkpoint_cal : s.checkpoint.cal = s.cal := rfl
@[simp] theorem State.checkpoint_tap : s.checkpoint.tap = s.tap := rfl
@[simp] theorem State.checkpoint_scan : s.checkpoint.scan = s.scan := rfl
@[simp] theorem State.respond_pending (c : Nat) : (s.respond c).pending = s.pending := rfl
@[simp] theorem State.respond_now (c : Nat) : (s.respond c).now = s.now := rfl
@[simp] theorem State.respond_out (c : Nat) : (s.respond c).out = s.out := rfl
@[simp] theorem State.respond_fresh (c : Nat) : (s.respond c).fresh = s.fresh := rfl
@[simp] theorem State.respond_regs (c : Nat) : (s.respond c).regs = s.regs := rfl
@[simp] theorem State.respond_doms (c : Nat) : (s.respond c).doms = s.doms := rfl
@[simp] theorem State.respond_time (c : Nat) : (s.respond c).time = s.time := rfl
@[simp] theorem State.respond_syn (c : Nat) : (s.respond c).syn = s.syn := rfl
@[simp] theorem State.respond_clk (c : Nat) : (s.respond c).clk = s.clk := rfl
@[simp] theorem State.respond_tdc (c : Nat) : (s.respond c).tdc = s.tdc := rfl
@[simp] theorem State.respond_stat (c : Nat) : (s.respond c).stat = s.stat := rfl
@[simp] theorem State.respond_pantry (c : Nat) : (s.respond c).pantry = s.pantry := rfl
@[simp] theorem State.respond_life (c : Nat) : (s.respond c).life = s.life := rfl
@[simp] theorem State.respond_power (c : Nat) : (s.respond c).power = s.power := rfl
@[simp] theorem State.respond_slots (c : Nat) : (s.respond c).slots = s.slots := rfl
@[simp] theorem State.respond_link (c : Nat) : (s.respond c).link = s.link := rfl
@[simp] theorem State.respond_chan (c : Nat) : (s.respond c).chan = s.chan := rfl
@[simp] theorem State.respond_line (c : Nat) : (s.respond c).line = s.line := rfl
@[simp] theorem State.respond_pat (c : Nat) : (s.respond c).pat = s.pat := rfl
@[simp] theorem State.respond_trig (c : Nat) : (s.respond c).trig = s.trig := rfl
@[simp] theorem State.respond_lane (c : Nat) : (s.respond c).lane = s.lane := rfl
@[simp] theorem State.respond_weir (c : Nat) : (s.respond c).weir = s.weir := rfl
@[simp] theorem State.respond_trigLog (c : Nat) : (s.respond c).trigLog = s.trigLog := rfl
@[simp] theorem State.respond_engine (c : Nat) : (s.respond c).engine = s.engine := rfl
@[simp] theorem State.respond_ring (c : Nat) : (s.respond c).ring = s.ring := rfl
@[simp] theorem State.respond_pipe (c : Nat) : (s.respond c).pipe = s.pipe := rfl
@[simp] theorem State.respond_map (c : Nat) : (s.respond c).map = s.map := rfl
@[simp] theorem State.respond_hbm (c : Nat) : (s.respond c).hbm = s.hbm := rfl
@[simp] theorem State.respond_pool (c : Nat) : (s.respond c).pool = s.pool := rfl
@[simp] theorem State.respond_bank (c : Nat) : (s.respond c).bank = s.bank := rfl
@[simp] theorem State.respond_pc (c : Nat) : (s.respond c).pc = s.pc := rfl
@[simp] theorem State.respond_tolerance (c : Nat) : (s.respond c).tolerance = s.tolerance := rfl
@[simp] theorem State.respond_disp (c : Nat) : (s.respond c).disp = s.disp := rfl
@[simp] theorem State.respond_xfer (c : Nat) : (s.respond c).xfer = s.xfer := rfl
@[simp] theorem State.respond_stream (c : Nat) : (s.respond c).stream = s.stream := rfl
@[simp] theorem State.respond_host (c : Nat) : (s.respond c).host = s.host := rfl
@[simp] theorem State.respond_drive (c : Nat) : (s.respond c).drive = s.drive := rfl
@[simp] theorem State.respond_store (c : Nat) : (s.respond c).store = s.store := rfl
@[simp] theorem State.respond_join (c : Nat) : (s.respond c).join = s.join := rfl
@[simp] theorem State.respond_posn (c : Nat) : (s.respond c).posn = s.posn := rfl
@[simp] theorem State.respond_arr (c : Nat) : (s.respond c).arr = s.arr := rfl
@[simp] theorem State.respond_hk (c : Nat) : (s.respond c).hk = s.hk := rfl
@[simp] theorem State.respond_cal (c : Nat) : (s.respond c).cal = s.cal := rfl
@[simp] theorem State.respond_tap (c : Nat) : (s.respond c).tap = s.tap := rfl
@[simp] theorem State.respond_scan (c : Nat) : (s.respond c).scan = s.scan := rfl
@[simp] theorem State.setEng_pending (e : Nat) (x : Engine) : (s.setEng e x).pending = s.pending := rfl
@[simp] theorem State.setEng_now (e : Nat) (x : Engine) : (s.setEng e x).now = s.now := rfl
@[simp] theorem State.setEng_out (e : Nat) (x : Engine) : (s.setEng e x).out = s.out := rfl
@[simp] theorem State.setEng_fresh (e : Nat) (x : Engine) : (s.setEng e x).fresh = s.fresh := rfl
@[simp] theorem State.setEng_regs (e : Nat) (x : Engine) : (s.setEng e x).regs = s.regs := rfl
@[simp] theorem State.setEng_doms (e : Nat) (x : Engine) : (s.setEng e x).doms = s.doms := rfl
@[simp] theorem State.setEng_time (e : Nat) (x : Engine) : (s.setEng e x).time = s.time := rfl
@[simp] theorem State.setEng_syn (e : Nat) (x : Engine) : (s.setEng e x).syn = s.syn := rfl
@[simp] theorem State.setEng_clk (e : Nat) (x : Engine) : (s.setEng e x).clk = s.clk := rfl
@[simp] theorem State.setEng_tdc (e : Nat) (x : Engine) : (s.setEng e x).tdc = s.tdc := rfl
@[simp] theorem State.setEng_stat (e : Nat) (x : Engine) : (s.setEng e x).stat = s.stat := rfl
@[simp] theorem State.setEng_dict (e : Nat) (x : Engine) : (s.setEng e x).dict = s.dict := rfl
@[simp] theorem State.setEng_pantry (e : Nat) (x : Engine) : (s.setEng e x).pantry = s.pantry := rfl
@[simp] theorem State.setEng_steward (e : Nat) (x : Engine) : (s.setEng e x).steward = s.steward := rfl
@[simp] theorem State.setEng_life (e : Nat) (x : Engine) : (s.setEng e x).life = s.life := rfl
@[simp] theorem State.setEng_power (e : Nat) (x : Engine) : (s.setEng e x).power = s.power := rfl
@[simp] theorem State.setEng_slots (e : Nat) (x : Engine) : (s.setEng e x).slots = s.slots := rfl
@[simp] theorem State.setEng_link (e : Nat) (x : Engine) : (s.setEng e x).link = s.link := rfl
@[simp] theorem State.setEng_chan (e : Nat) (x : Engine) : (s.setEng e x).chan = s.chan := rfl
@[simp] theorem State.setEng_line (e : Nat) (x : Engine) : (s.setEng e x).line = s.line := rfl
@[simp] theorem State.setEng_pat (e : Nat) (x : Engine) : (s.setEng e x).pat = s.pat := rfl
@[simp] theorem State.setEng_trig (e : Nat) (x : Engine) : (s.setEng e x).trig = s.trig := rfl
@[simp] theorem State.setEng_lane (e : Nat) (x : Engine) : (s.setEng e x).lane = s.lane := rfl
@[simp] theorem State.setEng_weir (e : Nat) (x : Engine) : (s.setEng e x).weir = s.weir := rfl
@[simp] theorem State.setEng_trigLog (e : Nat) (x : Engine) : (s.setEng e x).trigLog = s.trigLog := rfl
@[simp] theorem State.setEng_ring (e : Nat) (x : Engine) : (s.setEng e x).ring = s.ring := rfl
@[simp] theorem State.setEng_pipe (e : Nat) (x : Engine) : (s.setEng e x).pipe = s.pipe := rfl
@[simp] theorem State.setEng_map (e : Nat) (x : Engine) : (s.setEng e x).map = s.map := rfl
@[simp] theorem State.setEng_hbm (e : Nat) (x : Engine) : (s.setEng e x).hbm = s.hbm := rfl
@[simp] theorem State.setEng_pool (e : Nat) (x : Engine) : (s.setEng e x).pool = s.pool := rfl
@[simp] theorem State.setEng_bank (e : Nat) (x : Engine) : (s.setEng e x).bank = s.bank := rfl
@[simp] theorem State.setEng_pc (e : Nat) (x : Engine) : (s.setEng e x).pc = s.pc := rfl
@[simp] theorem State.setEng_tolerance (e : Nat) (x : Engine) : (s.setEng e x).tolerance = s.tolerance := rfl
@[simp] theorem State.setEng_disp (e : Nat) (x : Engine) : (s.setEng e x).disp = s.disp := rfl
@[simp] theorem State.setEng_xfer (e : Nat) (x : Engine) : (s.setEng e x).xfer = s.xfer := rfl
@[simp] theorem State.setEng_stream (e : Nat) (x : Engine) : (s.setEng e x).stream = s.stream := rfl
@[simp] theorem State.setEng_host (e : Nat) (x : Engine) : (s.setEng e x).host = s.host := rfl
@[simp] theorem State.setEng_drive (e : Nat) (x : Engine) : (s.setEng e x).drive = s.drive := rfl
@[simp] theorem State.setEng_store (e : Nat) (x : Engine) : (s.setEng e x).store = s.store := rfl
@[simp] theorem State.setEng_join (e : Nat) (x : Engine) : (s.setEng e x).join = s.join := rfl
@[simp] theorem State.setEng_posn (e : Nat) (x : Engine) : (s.setEng e x).posn = s.posn := rfl
@[simp] theorem State.setEng_arr (e : Nat) (x : Engine) : (s.setEng e x).arr = s.arr := rfl
@[simp] theorem State.setEng_hk (e : Nat) (x : Engine) : (s.setEng e x).hk = s.hk := rfl
@[simp] theorem State.setEng_cal (e : Nat) (x : Engine) : (s.setEng e x).cal = s.cal := rfl
@[simp] theorem State.setEng_tap (e : Nat) (x : Engine) : (s.setEng e x).tap = s.tap := rfl
@[simp] theorem State.setEng_scan (e : Nat) (x : Engine) : (s.setEng e x).scan = s.scan := rfl
@[simp] theorem State.setChan_pending (k : Nat) (x : ChanState) : (s.setChan k x).pending = s.pending := rfl
@[simp] theorem State.setChan_now (k : Nat) (x : ChanState) : (s.setChan k x).now = s.now := rfl
@[simp] theorem State.setChan_out (k : Nat) (x : ChanState) : (s.setChan k x).out = s.out := rfl
@[simp] theorem State.setChan_fresh (k : Nat) (x : ChanState) : (s.setChan k x).fresh = s.fresh := rfl
@[simp] theorem State.setChan_regs (k : Nat) (x : ChanState) : (s.setChan k x).regs = s.regs := rfl
@[simp] theorem State.setChan_doms (k : Nat) (x : ChanState) : (s.setChan k x).doms = s.doms := rfl
@[simp] theorem State.setChan_time (k : Nat) (x : ChanState) : (s.setChan k x).time = s.time := rfl
@[simp] theorem State.setChan_syn (k : Nat) (x : ChanState) : (s.setChan k x).syn = s.syn := rfl
@[simp] theorem State.setChan_clk (k : Nat) (x : ChanState) : (s.setChan k x).clk = s.clk := rfl
@[simp] theorem State.setChan_tdc (k : Nat) (x : ChanState) : (s.setChan k x).tdc = s.tdc := rfl
@[simp] theorem State.setChan_stat (k : Nat) (x : ChanState) : (s.setChan k x).stat = s.stat := rfl
@[simp] theorem State.setChan_dict (k : Nat) (x : ChanState) : (s.setChan k x).dict = s.dict := rfl
@[simp] theorem State.setChan_pantry (k : Nat) (x : ChanState) : (s.setChan k x).pantry = s.pantry := rfl
@[simp] theorem State.setChan_steward (k : Nat) (x : ChanState) : (s.setChan k x).steward = s.steward := rfl
@[simp] theorem State.setChan_life (k : Nat) (x : ChanState) : (s.setChan k x).life = s.life := rfl
@[simp] theorem State.setChan_power (k : Nat) (x : ChanState) : (s.setChan k x).power = s.power := rfl
@[simp] theorem State.setChan_slots (k : Nat) (x : ChanState) : (s.setChan k x).slots = s.slots := rfl
@[simp] theorem State.setChan_link (k : Nat) (x : ChanState) : (s.setChan k x).link = s.link := rfl
@[simp] theorem State.setChan_line (k : Nat) (x : ChanState) : (s.setChan k x).line = s.line := rfl
@[simp] theorem State.setChan_pat (k : Nat) (x : ChanState) : (s.setChan k x).pat = s.pat := rfl
@[simp] theorem State.setChan_trig (k : Nat) (x : ChanState) : (s.setChan k x).trig = s.trig := rfl
@[simp] theorem State.setChan_lane (k : Nat) (x : ChanState) : (s.setChan k x).lane = s.lane := rfl
@[simp] theorem State.setChan_weir (k : Nat) (x : ChanState) : (s.setChan k x).weir = s.weir := rfl
@[simp] theorem State.setChan_trigLog (k : Nat) (x : ChanState) : (s.setChan k x).trigLog = s.trigLog := rfl
@[simp] theorem State.setChan_engine (k : Nat) (x : ChanState) : (s.setChan k x).engine = s.engine := rfl
@[simp] theorem State.setChan_ring (k : Nat) (x : ChanState) : (s.setChan k x).ring = s.ring := rfl
@[simp] theorem State.setChan_pipe (k : Nat) (x : ChanState) : (s.setChan k x).pipe = s.pipe := rfl
@[simp] theorem State.setChan_map (k : Nat) (x : ChanState) : (s.setChan k x).map = s.map := rfl
@[simp] theorem State.setChan_hbm (k : Nat) (x : ChanState) : (s.setChan k x).hbm = s.hbm := rfl
@[simp] theorem State.setChan_pool (k : Nat) (x : ChanState) : (s.setChan k x).pool = s.pool := rfl
@[simp] theorem State.setChan_bank (k : Nat) (x : ChanState) : (s.setChan k x).bank = s.bank := rfl
@[simp] theorem State.setChan_pc (k : Nat) (x : ChanState) : (s.setChan k x).pc = s.pc := rfl
@[simp] theorem State.setChan_tolerance (k : Nat) (x : ChanState) : (s.setChan k x).tolerance = s.tolerance := rfl
@[simp] theorem State.setChan_disp (k : Nat) (x : ChanState) : (s.setChan k x).disp = s.disp := rfl
@[simp] theorem State.setChan_xfer (k : Nat) (x : ChanState) : (s.setChan k x).xfer = s.xfer := rfl
@[simp] theorem State.setChan_stream (k : Nat) (x : ChanState) : (s.setChan k x).stream = s.stream := rfl
@[simp] theorem State.setChan_host (k : Nat) (x : ChanState) : (s.setChan k x).host = s.host := rfl
@[simp] theorem State.setChan_drive (k : Nat) (x : ChanState) : (s.setChan k x).drive = s.drive := rfl
@[simp] theorem State.setChan_store (k : Nat) (x : ChanState) : (s.setChan k x).store = s.store := rfl
@[simp] theorem State.setChan_join (k : Nat) (x : ChanState) : (s.setChan k x).join = s.join := rfl
@[simp] theorem State.setChan_posn (k : Nat) (x : ChanState) : (s.setChan k x).posn = s.posn := rfl
@[simp] theorem State.setChan_arr (k : Nat) (x : ChanState) : (s.setChan k x).arr = s.arr := rfl
@[simp] theorem State.setChan_hk (k : Nat) (x : ChanState) : (s.setChan k x).hk = s.hk := rfl
@[simp] theorem State.setChan_cal (k : Nat) (x : ChanState) : (s.setChan k x).cal = s.cal := rfl
@[simp] theorem State.setChan_tap (k : Nat) (x : ChanState) : (s.setChan k x).tap = s.tap := rfl
@[simp] theorem State.setChan_scan (k : Nat) (x : ChanState) : (s.setChan k x).scan = s.scan := rfl
@[simp] theorem State.setLink_pending (j : Nat) (x : LinkState) : (s.setLink j x).pending = s.pending := rfl
@[simp] theorem State.setLink_now (j : Nat) (x : LinkState) : (s.setLink j x).now = s.now := rfl
@[simp] theorem State.setLink_out (j : Nat) (x : LinkState) : (s.setLink j x).out = s.out := rfl
@[simp] theorem State.setLink_fresh (j : Nat) (x : LinkState) : (s.setLink j x).fresh = s.fresh := rfl
@[simp] theorem State.setLink_regs (j : Nat) (x : LinkState) : (s.setLink j x).regs = s.regs := rfl
@[simp] theorem State.setLink_doms (j : Nat) (x : LinkState) : (s.setLink j x).doms = s.doms := rfl
@[simp] theorem State.setLink_time (j : Nat) (x : LinkState) : (s.setLink j x).time = s.time := rfl
@[simp] theorem State.setLink_syn (j : Nat) (x : LinkState) : (s.setLink j x).syn = s.syn := rfl
@[simp] theorem State.setLink_clk (j : Nat) (x : LinkState) : (s.setLink j x).clk = s.clk := rfl
@[simp] theorem State.setLink_tdc (j : Nat) (x : LinkState) : (s.setLink j x).tdc = s.tdc := rfl
@[simp] theorem State.setLink_stat (j : Nat) (x : LinkState) : (s.setLink j x).stat = s.stat := rfl
@[simp] theorem State.setLink_dict (j : Nat) (x : LinkState) : (s.setLink j x).dict = s.dict := rfl
@[simp] theorem State.setLink_pantry (j : Nat) (x : LinkState) : (s.setLink j x).pantry = s.pantry := rfl
@[simp] theorem State.setLink_steward (j : Nat) (x : LinkState) : (s.setLink j x).steward = s.steward := rfl
@[simp] theorem State.setLink_life (j : Nat) (x : LinkState) : (s.setLink j x).life = s.life := rfl
@[simp] theorem State.setLink_power (j : Nat) (x : LinkState) : (s.setLink j x).power = s.power := rfl
@[simp] theorem State.setLink_slots (j : Nat) (x : LinkState) : (s.setLink j x).slots = s.slots := rfl
@[simp] theorem State.setLink_chan (j : Nat) (x : LinkState) : (s.setLink j x).chan = s.chan := rfl
@[simp] theorem State.setLink_line (j : Nat) (x : LinkState) : (s.setLink j x).line = s.line := rfl
@[simp] theorem State.setLink_pat (j : Nat) (x : LinkState) : (s.setLink j x).pat = s.pat := rfl
@[simp] theorem State.setLink_trig (j : Nat) (x : LinkState) : (s.setLink j x).trig = s.trig := rfl
@[simp] theorem State.setLink_lane (j : Nat) (x : LinkState) : (s.setLink j x).lane = s.lane := rfl
@[simp] theorem State.setLink_weir (j : Nat) (x : LinkState) : (s.setLink j x).weir = s.weir := rfl
@[simp] theorem State.setLink_trigLog (j : Nat) (x : LinkState) : (s.setLink j x).trigLog = s.trigLog := rfl
@[simp] theorem State.setLink_engine (j : Nat) (x : LinkState) : (s.setLink j x).engine = s.engine := rfl
@[simp] theorem State.setLink_ring (j : Nat) (x : LinkState) : (s.setLink j x).ring = s.ring := rfl
@[simp] theorem State.setLink_pipe (j : Nat) (x : LinkState) : (s.setLink j x).pipe = s.pipe := rfl
@[simp] theorem State.setLink_map (j : Nat) (x : LinkState) : (s.setLink j x).map = s.map := rfl
@[simp] theorem State.setLink_hbm (j : Nat) (x : LinkState) : (s.setLink j x).hbm = s.hbm := rfl
@[simp] theorem State.setLink_pool (j : Nat) (x : LinkState) : (s.setLink j x).pool = s.pool := rfl
@[simp] theorem State.setLink_bank (j : Nat) (x : LinkState) : (s.setLink j x).bank = s.bank := rfl
@[simp] theorem State.setLink_pc (j : Nat) (x : LinkState) : (s.setLink j x).pc = s.pc := rfl
@[simp] theorem State.setLink_tolerance (j : Nat) (x : LinkState) : (s.setLink j x).tolerance = s.tolerance := rfl
@[simp] theorem State.setLink_disp (j : Nat) (x : LinkState) : (s.setLink j x).disp = s.disp := rfl
@[simp] theorem State.setLink_xfer (j : Nat) (x : LinkState) : (s.setLink j x).xfer = s.xfer := rfl
@[simp] theorem State.setLink_stream (j : Nat) (x : LinkState) : (s.setLink j x).stream = s.stream := rfl
@[simp] theorem State.setLink_host (j : Nat) (x : LinkState) : (s.setLink j x).host = s.host := rfl
@[simp] theorem State.setLink_drive (j : Nat) (x : LinkState) : (s.setLink j x).drive = s.drive := rfl
@[simp] theorem State.setLink_store (j : Nat) (x : LinkState) : (s.setLink j x).store = s.store := rfl
@[simp] theorem State.setLink_join (j : Nat) (x : LinkState) : (s.setLink j x).join = s.join := rfl
@[simp] theorem State.setLink_posn (j : Nat) (x : LinkState) : (s.setLink j x).posn = s.posn := rfl
@[simp] theorem State.setLink_arr (j : Nat) (x : LinkState) : (s.setLink j x).arr = s.arr := rfl
@[simp] theorem State.setLink_hk (j : Nat) (x : LinkState) : (s.setLink j x).hk = s.hk := rfl
@[simp] theorem State.setLink_cal (j : Nat) (x : LinkState) : (s.setLink j x).cal = s.cal := rfl
@[simp] theorem State.setLink_tap (j : Nat) (x : LinkState) : (s.setLink j x).tap = s.tap := rfl
@[simp] theorem State.setLink_scan (j : Nat) (x : LinkState) : (s.setLink j x).scan = s.scan := rfl
@[simp] theorem State.setLine_pending (l : Nat) (x : Line) : (s.setLine l x).pending = s.pending := rfl
@[simp] theorem State.setLine_now (l : Nat) (x : Line) : (s.setLine l x).now = s.now := rfl
@[simp] theorem State.setLine_out (l : Nat) (x : Line) : (s.setLine l x).out = s.out := rfl
@[simp] theorem State.setLine_fresh (l : Nat) (x : Line) : (s.setLine l x).fresh = s.fresh := rfl
@[simp] theorem State.setLine_regs (l : Nat) (x : Line) : (s.setLine l x).regs = s.regs := rfl
@[simp] theorem State.setLine_doms (l : Nat) (x : Line) : (s.setLine l x).doms = s.doms := rfl
@[simp] theorem State.setLine_time (l : Nat) (x : Line) : (s.setLine l x).time = s.time := rfl
@[simp] theorem State.setLine_syn (l : Nat) (x : Line) : (s.setLine l x).syn = s.syn := rfl
@[simp] theorem State.setLine_clk (l : Nat) (x : Line) : (s.setLine l x).clk = s.clk := rfl
@[simp] theorem State.setLine_tdc (l : Nat) (x : Line) : (s.setLine l x).tdc = s.tdc := rfl
@[simp] theorem State.setLine_stat (l : Nat) (x : Line) : (s.setLine l x).stat = s.stat := rfl
@[simp] theorem State.setLine_dict (l : Nat) (x : Line) : (s.setLine l x).dict = s.dict := rfl
@[simp] theorem State.setLine_pantry (l : Nat) (x : Line) : (s.setLine l x).pantry = s.pantry := rfl
@[simp] theorem State.setLine_steward (l : Nat) (x : Line) : (s.setLine l x).steward = s.steward := rfl
@[simp] theorem State.setLine_life (l : Nat) (x : Line) : (s.setLine l x).life = s.life := rfl
@[simp] theorem State.setLine_power (l : Nat) (x : Line) : (s.setLine l x).power = s.power := rfl
@[simp] theorem State.setLine_slots (l : Nat) (x : Line) : (s.setLine l x).slots = s.slots := rfl
@[simp] theorem State.setLine_link (l : Nat) (x : Line) : (s.setLine l x).link = s.link := rfl
@[simp] theorem State.setLine_chan (l : Nat) (x : Line) : (s.setLine l x).chan = s.chan := rfl
@[simp] theorem State.setLine_pat (l : Nat) (x : Line) : (s.setLine l x).pat = s.pat := rfl
@[simp] theorem State.setLine_trig (l : Nat) (x : Line) : (s.setLine l x).trig = s.trig := rfl
@[simp] theorem State.setLine_lane (l : Nat) (x : Line) : (s.setLine l x).lane = s.lane := rfl
@[simp] theorem State.setLine_weir (l : Nat) (x : Line) : (s.setLine l x).weir = s.weir := rfl
@[simp] theorem State.setLine_trigLog (l : Nat) (x : Line) : (s.setLine l x).trigLog = s.trigLog := rfl
@[simp] theorem State.setLine_engine (l : Nat) (x : Line) : (s.setLine l x).engine = s.engine := rfl
@[simp] theorem State.setLine_ring (l : Nat) (x : Line) : (s.setLine l x).ring = s.ring := rfl
@[simp] theorem State.setLine_pipe (l : Nat) (x : Line) : (s.setLine l x).pipe = s.pipe := rfl
@[simp] theorem State.setLine_map (l : Nat) (x : Line) : (s.setLine l x).map = s.map := rfl
@[simp] theorem State.setLine_hbm (l : Nat) (x : Line) : (s.setLine l x).hbm = s.hbm := rfl
@[simp] theorem State.setLine_pool (l : Nat) (x : Line) : (s.setLine l x).pool = s.pool := rfl
@[simp] theorem State.setLine_bank (l : Nat) (x : Line) : (s.setLine l x).bank = s.bank := rfl
@[simp] theorem State.setLine_pc (l : Nat) (x : Line) : (s.setLine l x).pc = s.pc := rfl
@[simp] theorem State.setLine_tolerance (l : Nat) (x : Line) : (s.setLine l x).tolerance = s.tolerance := rfl
@[simp] theorem State.setLine_disp (l : Nat) (x : Line) : (s.setLine l x).disp = s.disp := rfl
@[simp] theorem State.setLine_xfer (l : Nat) (x : Line) : (s.setLine l x).xfer = s.xfer := rfl
@[simp] theorem State.setLine_stream (l : Nat) (x : Line) : (s.setLine l x).stream = s.stream := rfl
@[simp] theorem State.setLine_host (l : Nat) (x : Line) : (s.setLine l x).host = s.host := rfl
@[simp] theorem State.setLine_drive (l : Nat) (x : Line) : (s.setLine l x).drive = s.drive := rfl
@[simp] theorem State.setLine_store (l : Nat) (x : Line) : (s.setLine l x).store = s.store := rfl
@[simp] theorem State.setLine_join (l : Nat) (x : Line) : (s.setLine l x).join = s.join := rfl
@[simp] theorem State.setLine_posn (l : Nat) (x : Line) : (s.setLine l x).posn = s.posn := rfl
@[simp] theorem State.setLine_arr (l : Nat) (x : Line) : (s.setLine l x).arr = s.arr := rfl
@[simp] theorem State.setLine_hk (l : Nat) (x : Line) : (s.setLine l x).hk = s.hk := rfl
@[simp] theorem State.setLine_cal (l : Nat) (x : Line) : (s.setLine l x).cal = s.cal := rfl
@[simp] theorem State.setLine_tap (l : Nat) (x : Line) : (s.setLine l x).tap = s.tap := rfl
@[simp] theorem State.setLine_scan (l : Nat) (x : Line) : (s.setLine l x).scan = s.scan := rfl
@[simp] theorem State.setTdc_pending (c : Nat) (x : TdcState) : (s.setTdc c x).pending = s.pending := rfl
@[simp] theorem State.setTdc_now (c : Nat) (x : TdcState) : (s.setTdc c x).now = s.now := rfl
@[simp] theorem State.setTdc_out (c : Nat) (x : TdcState) : (s.setTdc c x).out = s.out := rfl
@[simp] theorem State.setTdc_fresh (c : Nat) (x : TdcState) : (s.setTdc c x).fresh = s.fresh := rfl
@[simp] theorem State.setTdc_regs (c : Nat) (x : TdcState) : (s.setTdc c x).regs = s.regs := rfl
@[simp] theorem State.setTdc_doms (c : Nat) (x : TdcState) : (s.setTdc c x).doms = s.doms := rfl
@[simp] theorem State.setTdc_time (c : Nat) (x : TdcState) : (s.setTdc c x).time = s.time := rfl
@[simp] theorem State.setTdc_syn (c : Nat) (x : TdcState) : (s.setTdc c x).syn = s.syn := rfl
@[simp] theorem State.setTdc_clk (c : Nat) (x : TdcState) : (s.setTdc c x).clk = s.clk := rfl
@[simp] theorem State.setTdc_stat (c : Nat) (x : TdcState) : (s.setTdc c x).stat = s.stat := rfl
@[simp] theorem State.setTdc_dict (c : Nat) (x : TdcState) : (s.setTdc c x).dict = s.dict := rfl
@[simp] theorem State.setTdc_pantry (c : Nat) (x : TdcState) : (s.setTdc c x).pantry = s.pantry := rfl
@[simp] theorem State.setTdc_steward (c : Nat) (x : TdcState) : (s.setTdc c x).steward = s.steward := rfl
@[simp] theorem State.setTdc_life (c : Nat) (x : TdcState) : (s.setTdc c x).life = s.life := rfl
@[simp] theorem State.setTdc_power (c : Nat) (x : TdcState) : (s.setTdc c x).power = s.power := rfl
@[simp] theorem State.setTdc_slots (c : Nat) (x : TdcState) : (s.setTdc c x).slots = s.slots := rfl
@[simp] theorem State.setTdc_link (c : Nat) (x : TdcState) : (s.setTdc c x).link = s.link := rfl
@[simp] theorem State.setTdc_chan (c : Nat) (x : TdcState) : (s.setTdc c x).chan = s.chan := rfl
@[simp] theorem State.setTdc_line (c : Nat) (x : TdcState) : (s.setTdc c x).line = s.line := rfl
@[simp] theorem State.setTdc_pat (c : Nat) (x : TdcState) : (s.setTdc c x).pat = s.pat := rfl
@[simp] theorem State.setTdc_trig (c : Nat) (x : TdcState) : (s.setTdc c x).trig = s.trig := rfl
@[simp] theorem State.setTdc_lane (c : Nat) (x : TdcState) : (s.setTdc c x).lane = s.lane := rfl
@[simp] theorem State.setTdc_weir (c : Nat) (x : TdcState) : (s.setTdc c x).weir = s.weir := rfl
@[simp] theorem State.setTdc_trigLog (c : Nat) (x : TdcState) : (s.setTdc c x).trigLog = s.trigLog := rfl
@[simp] theorem State.setTdc_engine (c : Nat) (x : TdcState) : (s.setTdc c x).engine = s.engine := rfl
@[simp] theorem State.setTdc_ring (c : Nat) (x : TdcState) : (s.setTdc c x).ring = s.ring := rfl
@[simp] theorem State.setTdc_pipe (c : Nat) (x : TdcState) : (s.setTdc c x).pipe = s.pipe := rfl
@[simp] theorem State.setTdc_map (c : Nat) (x : TdcState) : (s.setTdc c x).map = s.map := rfl
@[simp] theorem State.setTdc_hbm (c : Nat) (x : TdcState) : (s.setTdc c x).hbm = s.hbm := rfl
@[simp] theorem State.setTdc_pool (c : Nat) (x : TdcState) : (s.setTdc c x).pool = s.pool := rfl
@[simp] theorem State.setTdc_bank (c : Nat) (x : TdcState) : (s.setTdc c x).bank = s.bank := rfl
@[simp] theorem State.setTdc_pc (c : Nat) (x : TdcState) : (s.setTdc c x).pc = s.pc := rfl
@[simp] theorem State.setTdc_tolerance (c : Nat) (x : TdcState) : (s.setTdc c x).tolerance = s.tolerance := rfl
@[simp] theorem State.setTdc_disp (c : Nat) (x : TdcState) : (s.setTdc c x).disp = s.disp := rfl
@[simp] theorem State.setTdc_xfer (c : Nat) (x : TdcState) : (s.setTdc c x).xfer = s.xfer := rfl
@[simp] theorem State.setTdc_stream (c : Nat) (x : TdcState) : (s.setTdc c x).stream = s.stream := rfl
@[simp] theorem State.setTdc_host (c : Nat) (x : TdcState) : (s.setTdc c x).host = s.host := rfl
@[simp] theorem State.setTdc_drive (c : Nat) (x : TdcState) : (s.setTdc c x).drive = s.drive := rfl
@[simp] theorem State.setTdc_store (c : Nat) (x : TdcState) : (s.setTdc c x).store = s.store := rfl
@[simp] theorem State.setTdc_join (c : Nat) (x : TdcState) : (s.setTdc c x).join = s.join := rfl
@[simp] theorem State.setTdc_posn (c : Nat) (x : TdcState) : (s.setTdc c x).posn = s.posn := rfl
@[simp] theorem State.setTdc_arr (c : Nat) (x : TdcState) : (s.setTdc c x).arr = s.arr := rfl
@[simp] theorem State.setTdc_hk (c : Nat) (x : TdcState) : (s.setTdc c x).hk = s.hk := rfl
@[simp] theorem State.setTdc_cal (c : Nat) (x : TdcState) : (s.setTdc c x).cal = s.cal := rfl
@[simp] theorem State.setTdc_tap (c : Nat) (x : TdcState) : (s.setTdc c x).tap = s.tap := rfl
@[simp] theorem State.setTdc_scan (c : Nat) (x : TdcState) : (s.setTdc c x).scan = s.scan := rfl
@[simp] theorem State.setMap_pending (k : Nat) (x : MapState) : (s.setMap k x).pending = s.pending := rfl
@[simp] theorem State.setMap_now (k : Nat) (x : MapState) : (s.setMap k x).now = s.now := rfl
@[simp] theorem State.setMap_out (k : Nat) (x : MapState) : (s.setMap k x).out = s.out := rfl
@[simp] theorem State.setMap_fresh (k : Nat) (x : MapState) : (s.setMap k x).fresh = s.fresh := rfl
@[simp] theorem State.setMap_regs (k : Nat) (x : MapState) : (s.setMap k x).regs = s.regs := rfl
@[simp] theorem State.setMap_doms (k : Nat) (x : MapState) : (s.setMap k x).doms = s.doms := rfl
@[simp] theorem State.setMap_time (k : Nat) (x : MapState) : (s.setMap k x).time = s.time := rfl
@[simp] theorem State.setMap_syn (k : Nat) (x : MapState) : (s.setMap k x).syn = s.syn := rfl
@[simp] theorem State.setMap_clk (k : Nat) (x : MapState) : (s.setMap k x).clk = s.clk := rfl
@[simp] theorem State.setMap_tdc (k : Nat) (x : MapState) : (s.setMap k x).tdc = s.tdc := rfl
@[simp] theorem State.setMap_stat (k : Nat) (x : MapState) : (s.setMap k x).stat = s.stat := rfl
@[simp] theorem State.setMap_dict (k : Nat) (x : MapState) : (s.setMap k x).dict = s.dict := rfl
@[simp] theorem State.setMap_pantry (k : Nat) (x : MapState) : (s.setMap k x).pantry = s.pantry := rfl
@[simp] theorem State.setMap_steward (k : Nat) (x : MapState) : (s.setMap k x).steward = s.steward := rfl
@[simp] theorem State.setMap_life (k : Nat) (x : MapState) : (s.setMap k x).life = s.life := rfl
@[simp] theorem State.setMap_power (k : Nat) (x : MapState) : (s.setMap k x).power = s.power := rfl
@[simp] theorem State.setMap_slots (k : Nat) (x : MapState) : (s.setMap k x).slots = s.slots := rfl
@[simp] theorem State.setMap_link (k : Nat) (x : MapState) : (s.setMap k x).link = s.link := rfl
@[simp] theorem State.setMap_chan (k : Nat) (x : MapState) : (s.setMap k x).chan = s.chan := rfl
@[simp] theorem State.setMap_line (k : Nat) (x : MapState) : (s.setMap k x).line = s.line := rfl
@[simp] theorem State.setMap_pat (k : Nat) (x : MapState) : (s.setMap k x).pat = s.pat := rfl
@[simp] theorem State.setMap_trig (k : Nat) (x : MapState) : (s.setMap k x).trig = s.trig := rfl
@[simp] theorem State.setMap_lane (k : Nat) (x : MapState) : (s.setMap k x).lane = s.lane := rfl
@[simp] theorem State.setMap_weir (k : Nat) (x : MapState) : (s.setMap k x).weir = s.weir := rfl
@[simp] theorem State.setMap_trigLog (k : Nat) (x : MapState) : (s.setMap k x).trigLog = s.trigLog := rfl
@[simp] theorem State.setMap_engine (k : Nat) (x : MapState) : (s.setMap k x).engine = s.engine := rfl
@[simp] theorem State.setMap_ring (k : Nat) (x : MapState) : (s.setMap k x).ring = s.ring := rfl
@[simp] theorem State.setMap_pipe (k : Nat) (x : MapState) : (s.setMap k x).pipe = s.pipe := rfl
@[simp] theorem State.setMap_hbm (k : Nat) (x : MapState) : (s.setMap k x).hbm = s.hbm := rfl
@[simp] theorem State.setMap_pool (k : Nat) (x : MapState) : (s.setMap k x).pool = s.pool := rfl
@[simp] theorem State.setMap_bank (k : Nat) (x : MapState) : (s.setMap k x).bank = s.bank := rfl
@[simp] theorem State.setMap_pc (k : Nat) (x : MapState) : (s.setMap k x).pc = s.pc := rfl
@[simp] theorem State.setMap_tolerance (k : Nat) (x : MapState) : (s.setMap k x).tolerance = s.tolerance := rfl
@[simp] theorem State.setMap_disp (k : Nat) (x : MapState) : (s.setMap k x).disp = s.disp := rfl
@[simp] theorem State.setMap_xfer (k : Nat) (x : MapState) : (s.setMap k x).xfer = s.xfer := rfl
@[simp] theorem State.setMap_stream (k : Nat) (x : MapState) : (s.setMap k x).stream = s.stream := rfl
@[simp] theorem State.setMap_host (k : Nat) (x : MapState) : (s.setMap k x).host = s.host := rfl
@[simp] theorem State.setMap_drive (k : Nat) (x : MapState) : (s.setMap k x).drive = s.drive := rfl
@[simp] theorem State.setMap_store (k : Nat) (x : MapState) : (s.setMap k x).store = s.store := rfl
@[simp] theorem State.setMap_join (k : Nat) (x : MapState) : (s.setMap k x).join = s.join := rfl
@[simp] theorem State.setMap_posn (k : Nat) (x : MapState) : (s.setMap k x).posn = s.posn := rfl
@[simp] theorem State.setMap_arr (k : Nat) (x : MapState) : (s.setMap k x).arr = s.arr := rfl
@[simp] theorem State.setMap_hk (k : Nat) (x : MapState) : (s.setMap k x).hk = s.hk := rfl
@[simp] theorem State.setMap_cal (k : Nat) (x : MapState) : (s.setMap k x).cal = s.cal := rfl
@[simp] theorem State.setMap_tap (k : Nat) (x : MapState) : (s.setMap k x).tap = s.tap := rfl
@[simp] theorem State.setMap_scan (k : Nat) (x : MapState) : (s.setMap k x).scan = s.scan := rfl
@[simp] theorem State.setPc_pending (q : Nat) (x : PcState) : (s.setPc q x).pending = s.pending := rfl
@[simp] theorem State.setPc_now (q : Nat) (x : PcState) : (s.setPc q x).now = s.now := rfl
@[simp] theorem State.setPc_out (q : Nat) (x : PcState) : (s.setPc q x).out = s.out := rfl
@[simp] theorem State.setPc_fresh (q : Nat) (x : PcState) : (s.setPc q x).fresh = s.fresh := rfl
@[simp] theorem State.setPc_regs (q : Nat) (x : PcState) : (s.setPc q x).regs = s.regs := rfl
@[simp] theorem State.setPc_doms (q : Nat) (x : PcState) : (s.setPc q x).doms = s.doms := rfl
@[simp] theorem State.setPc_time (q : Nat) (x : PcState) : (s.setPc q x).time = s.time := rfl
@[simp] theorem State.setPc_syn (q : Nat) (x : PcState) : (s.setPc q x).syn = s.syn := rfl
@[simp] theorem State.setPc_clk (q : Nat) (x : PcState) : (s.setPc q x).clk = s.clk := rfl
@[simp] theorem State.setPc_tdc (q : Nat) (x : PcState) : (s.setPc q x).tdc = s.tdc := rfl
@[simp] theorem State.setPc_stat (q : Nat) (x : PcState) : (s.setPc q x).stat = s.stat := rfl
@[simp] theorem State.setPc_dict (q : Nat) (x : PcState) : (s.setPc q x).dict = s.dict := rfl
@[simp] theorem State.setPc_pantry (q : Nat) (x : PcState) : (s.setPc q x).pantry = s.pantry := rfl
@[simp] theorem State.setPc_steward (q : Nat) (x : PcState) : (s.setPc q x).steward = s.steward := rfl
@[simp] theorem State.setPc_life (q : Nat) (x : PcState) : (s.setPc q x).life = s.life := rfl
@[simp] theorem State.setPc_power (q : Nat) (x : PcState) : (s.setPc q x).power = s.power := rfl
@[simp] theorem State.setPc_slots (q : Nat) (x : PcState) : (s.setPc q x).slots = s.slots := rfl
@[simp] theorem State.setPc_link (q : Nat) (x : PcState) : (s.setPc q x).link = s.link := rfl
@[simp] theorem State.setPc_chan (q : Nat) (x : PcState) : (s.setPc q x).chan = s.chan := rfl
@[simp] theorem State.setPc_line (q : Nat) (x : PcState) : (s.setPc q x).line = s.line := rfl
@[simp] theorem State.setPc_pat (q : Nat) (x : PcState) : (s.setPc q x).pat = s.pat := rfl
@[simp] theorem State.setPc_trig (q : Nat) (x : PcState) : (s.setPc q x).trig = s.trig := rfl
@[simp] theorem State.setPc_lane (q : Nat) (x : PcState) : (s.setPc q x).lane = s.lane := rfl
@[simp] theorem State.setPc_weir (q : Nat) (x : PcState) : (s.setPc q x).weir = s.weir := rfl
@[simp] theorem State.setPc_trigLog (q : Nat) (x : PcState) : (s.setPc q x).trigLog = s.trigLog := rfl
@[simp] theorem State.setPc_engine (q : Nat) (x : PcState) : (s.setPc q x).engine = s.engine := rfl
@[simp] theorem State.setPc_ring (q : Nat) (x : PcState) : (s.setPc q x).ring = s.ring := rfl
@[simp] theorem State.setPc_pipe (q : Nat) (x : PcState) : (s.setPc q x).pipe = s.pipe := rfl
@[simp] theorem State.setPc_map (q : Nat) (x : PcState) : (s.setPc q x).map = s.map := rfl
@[simp] theorem State.setPc_hbm (q : Nat) (x : PcState) : (s.setPc q x).hbm = s.hbm := rfl
@[simp] theorem State.setPc_pool (q : Nat) (x : PcState) : (s.setPc q x).pool = s.pool := rfl
@[simp] theorem State.setPc_bank (q : Nat) (x : PcState) : (s.setPc q x).bank = s.bank := rfl
@[simp] theorem State.setPc_tolerance (q : Nat) (x : PcState) : (s.setPc q x).tolerance = s.tolerance := rfl
@[simp] theorem State.setPc_disp (q : Nat) (x : PcState) : (s.setPc q x).disp = s.disp := rfl
@[simp] theorem State.setPc_xfer (q : Nat) (x : PcState) : (s.setPc q x).xfer = s.xfer := rfl
@[simp] theorem State.setPc_stream (q : Nat) (x : PcState) : (s.setPc q x).stream = s.stream := rfl
@[simp] theorem State.setPc_host (q : Nat) (x : PcState) : (s.setPc q x).host = s.host := rfl
@[simp] theorem State.setPc_drive (q : Nat) (x : PcState) : (s.setPc q x).drive = s.drive := rfl
@[simp] theorem State.setPc_store (q : Nat) (x : PcState) : (s.setPc q x).store = s.store := rfl
@[simp] theorem State.setPc_join (q : Nat) (x : PcState) : (s.setPc q x).join = s.join := rfl
@[simp] theorem State.setPc_posn (q : Nat) (x : PcState) : (s.setPc q x).posn = s.posn := rfl
@[simp] theorem State.setPc_arr (q : Nat) (x : PcState) : (s.setPc q x).arr = s.arr := rfl
@[simp] theorem State.setPc_hk (q : Nat) (x : PcState) : (s.setPc q x).hk = s.hk := rfl
@[simp] theorem State.setPc_cal (q : Nat) (x : PcState) : (s.setPc q x).cal = s.cal := rfl
@[simp] theorem State.setPc_tap (q : Nat) (x : PcState) : (s.setPc q x).tap = s.tap := rfl
@[simp] theorem State.setPc_scan (q : Nat) (x : PcState) : (s.setPc q x).scan = s.scan := rfl
@[simp] theorem State.setBank_pending (b : Nat) (x : Bank) : (s.setBank b x).pending = s.pending := rfl
@[simp] theorem State.setBank_now (b : Nat) (x : Bank) : (s.setBank b x).now = s.now := rfl
@[simp] theorem State.setBank_out (b : Nat) (x : Bank) : (s.setBank b x).out = s.out := rfl
@[simp] theorem State.setBank_fresh (b : Nat) (x : Bank) : (s.setBank b x).fresh = s.fresh := rfl
@[simp] theorem State.setBank_regs (b : Nat) (x : Bank) : (s.setBank b x).regs = s.regs := rfl
@[simp] theorem State.setBank_doms (b : Nat) (x : Bank) : (s.setBank b x).doms = s.doms := rfl
@[simp] theorem State.setBank_time (b : Nat) (x : Bank) : (s.setBank b x).time = s.time := rfl
@[simp] theorem State.setBank_syn (b : Nat) (x : Bank) : (s.setBank b x).syn = s.syn := rfl
@[simp] theorem State.setBank_clk (b : Nat) (x : Bank) : (s.setBank b x).clk = s.clk := rfl
@[simp] theorem State.setBank_tdc (b : Nat) (x : Bank) : (s.setBank b x).tdc = s.tdc := rfl
@[simp] theorem State.setBank_stat (b : Nat) (x : Bank) : (s.setBank b x).stat = s.stat := rfl
@[simp] theorem State.setBank_dict (b : Nat) (x : Bank) : (s.setBank b x).dict = s.dict := rfl
@[simp] theorem State.setBank_pantry (b : Nat) (x : Bank) : (s.setBank b x).pantry = s.pantry := rfl
@[simp] theorem State.setBank_steward (b : Nat) (x : Bank) : (s.setBank b x).steward = s.steward := rfl
@[simp] theorem State.setBank_life (b : Nat) (x : Bank) : (s.setBank b x).life = s.life := rfl
@[simp] theorem State.setBank_power (b : Nat) (x : Bank) : (s.setBank b x).power = s.power := rfl
@[simp] theorem State.setBank_slots (b : Nat) (x : Bank) : (s.setBank b x).slots = s.slots := rfl
@[simp] theorem State.setBank_link (b : Nat) (x : Bank) : (s.setBank b x).link = s.link := rfl
@[simp] theorem State.setBank_chan (b : Nat) (x : Bank) : (s.setBank b x).chan = s.chan := rfl
@[simp] theorem State.setBank_line (b : Nat) (x : Bank) : (s.setBank b x).line = s.line := rfl
@[simp] theorem State.setBank_pat (b : Nat) (x : Bank) : (s.setBank b x).pat = s.pat := rfl
@[simp] theorem State.setBank_trig (b : Nat) (x : Bank) : (s.setBank b x).trig = s.trig := rfl
@[simp] theorem State.setBank_lane (b : Nat) (x : Bank) : (s.setBank b x).lane = s.lane := rfl
@[simp] theorem State.setBank_weir (b : Nat) (x : Bank) : (s.setBank b x).weir = s.weir := rfl
@[simp] theorem State.setBank_trigLog (b : Nat) (x : Bank) : (s.setBank b x).trigLog = s.trigLog := rfl
@[simp] theorem State.setBank_engine (b : Nat) (x : Bank) : (s.setBank b x).engine = s.engine := rfl
@[simp] theorem State.setBank_ring (b : Nat) (x : Bank) : (s.setBank b x).ring = s.ring := rfl
@[simp] theorem State.setBank_pipe (b : Nat) (x : Bank) : (s.setBank b x).pipe = s.pipe := rfl
@[simp] theorem State.setBank_map (b : Nat) (x : Bank) : (s.setBank b x).map = s.map := rfl
@[simp] theorem State.setBank_hbm (b : Nat) (x : Bank) : (s.setBank b x).hbm = s.hbm := rfl
@[simp] theorem State.setBank_pool (b : Nat) (x : Bank) : (s.setBank b x).pool = s.pool := rfl
@[simp] theorem State.setBank_pc (b : Nat) (x : Bank) : (s.setBank b x).pc = s.pc := rfl
@[simp] theorem State.setBank_tolerance (b : Nat) (x : Bank) : (s.setBank b x).tolerance = s.tolerance := rfl
@[simp] theorem State.setBank_disp (b : Nat) (x : Bank) : (s.setBank b x).disp = s.disp := rfl
@[simp] theorem State.setBank_xfer (b : Nat) (x : Bank) : (s.setBank b x).xfer = s.xfer := rfl
@[simp] theorem State.setBank_stream (b : Nat) (x : Bank) : (s.setBank b x).stream = s.stream := rfl
@[simp] theorem State.setBank_host (b : Nat) (x : Bank) : (s.setBank b x).host = s.host := rfl
@[simp] theorem State.setBank_drive (b : Nat) (x : Bank) : (s.setBank b x).drive = s.drive := rfl
@[simp] theorem State.setBank_store (b : Nat) (x : Bank) : (s.setBank b x).store = s.store := rfl
@[simp] theorem State.setBank_join (b : Nat) (x : Bank) : (s.setBank b x).join = s.join := rfl
@[simp] theorem State.setBank_posn (b : Nat) (x : Bank) : (s.setBank b x).posn = s.posn := rfl
@[simp] theorem State.setBank_arr (b : Nat) (x : Bank) : (s.setBank b x).arr = s.arr := rfl
@[simp] theorem State.setBank_hk (b : Nat) (x : Bank) : (s.setBank b x).hk = s.hk := rfl
@[simp] theorem State.setBank_cal (b : Nat) (x : Bank) : (s.setBank b x).cal = s.cal := rfl
@[simp] theorem State.setBank_tap (b : Nat) (x : Bank) : (s.setBank b x).tap = s.tap := rfl
@[simp] theorem State.setBank_scan (b : Nat) (x : Bank) : (s.setBank b x).scan = s.scan := rfl
@[simp] theorem State.setRing_pending (n : Nat) (x : RingState) : (s.setRing n x).pending = s.pending := rfl
@[simp] theorem State.setRing_now (n : Nat) (x : RingState) : (s.setRing n x).now = s.now := rfl
@[simp] theorem State.setRing_out (n : Nat) (x : RingState) : (s.setRing n x).out = s.out := rfl
@[simp] theorem State.setRing_fresh (n : Nat) (x : RingState) : (s.setRing n x).fresh = s.fresh := rfl
@[simp] theorem State.setRing_regs (n : Nat) (x : RingState) : (s.setRing n x).regs = s.regs := rfl
@[simp] theorem State.setRing_doms (n : Nat) (x : RingState) : (s.setRing n x).doms = s.doms := rfl
@[simp] theorem State.setRing_time (n : Nat) (x : RingState) : (s.setRing n x).time = s.time := rfl
@[simp] theorem State.setRing_syn (n : Nat) (x : RingState) : (s.setRing n x).syn = s.syn := rfl
@[simp] theorem State.setRing_clk (n : Nat) (x : RingState) : (s.setRing n x).clk = s.clk := rfl
@[simp] theorem State.setRing_tdc (n : Nat) (x : RingState) : (s.setRing n x).tdc = s.tdc := rfl
@[simp] theorem State.setRing_stat (n : Nat) (x : RingState) : (s.setRing n x).stat = s.stat := rfl
@[simp] theorem State.setRing_dict (n : Nat) (x : RingState) : (s.setRing n x).dict = s.dict := rfl
@[simp] theorem State.setRing_pantry (n : Nat) (x : RingState) : (s.setRing n x).pantry = s.pantry := rfl
@[simp] theorem State.setRing_steward (n : Nat) (x : RingState) : (s.setRing n x).steward = s.steward := rfl
@[simp] theorem State.setRing_life (n : Nat) (x : RingState) : (s.setRing n x).life = s.life := rfl
@[simp] theorem State.setRing_power (n : Nat) (x : RingState) : (s.setRing n x).power = s.power := rfl
@[simp] theorem State.setRing_slots (n : Nat) (x : RingState) : (s.setRing n x).slots = s.slots := rfl
@[simp] theorem State.setRing_link (n : Nat) (x : RingState) : (s.setRing n x).link = s.link := rfl
@[simp] theorem State.setRing_chan (n : Nat) (x : RingState) : (s.setRing n x).chan = s.chan := rfl
@[simp] theorem State.setRing_line (n : Nat) (x : RingState) : (s.setRing n x).line = s.line := rfl
@[simp] theorem State.setRing_pat (n : Nat) (x : RingState) : (s.setRing n x).pat = s.pat := rfl
@[simp] theorem State.setRing_trig (n : Nat) (x : RingState) : (s.setRing n x).trig = s.trig := rfl
@[simp] theorem State.setRing_lane (n : Nat) (x : RingState) : (s.setRing n x).lane = s.lane := rfl
@[simp] theorem State.setRing_weir (n : Nat) (x : RingState) : (s.setRing n x).weir = s.weir := rfl
@[simp] theorem State.setRing_trigLog (n : Nat) (x : RingState) : (s.setRing n x).trigLog = s.trigLog := rfl
@[simp] theorem State.setRing_engine (n : Nat) (x : RingState) : (s.setRing n x).engine = s.engine := rfl
@[simp] theorem State.setRing_pipe (n : Nat) (x : RingState) : (s.setRing n x).pipe = s.pipe := rfl
@[simp] theorem State.setRing_map (n : Nat) (x : RingState) : (s.setRing n x).map = s.map := rfl
@[simp] theorem State.setRing_hbm (n : Nat) (x : RingState) : (s.setRing n x).hbm = s.hbm := rfl
@[simp] theorem State.setRing_pool (n : Nat) (x : RingState) : (s.setRing n x).pool = s.pool := rfl
@[simp] theorem State.setRing_bank (n : Nat) (x : RingState) : (s.setRing n x).bank = s.bank := rfl
@[simp] theorem State.setRing_pc (n : Nat) (x : RingState) : (s.setRing n x).pc = s.pc := rfl
@[simp] theorem State.setRing_tolerance (n : Nat) (x : RingState) : (s.setRing n x).tolerance = s.tolerance := rfl
@[simp] theorem State.setRing_disp (n : Nat) (x : RingState) : (s.setRing n x).disp = s.disp := rfl
@[simp] theorem State.setRing_xfer (n : Nat) (x : RingState) : (s.setRing n x).xfer = s.xfer := rfl
@[simp] theorem State.setRing_stream (n : Nat) (x : RingState) : (s.setRing n x).stream = s.stream := rfl
@[simp] theorem State.setRing_host (n : Nat) (x : RingState) : (s.setRing n x).host = s.host := rfl
@[simp] theorem State.setRing_drive (n : Nat) (x : RingState) : (s.setRing n x).drive = s.drive := rfl
@[simp] theorem State.setRing_store (n : Nat) (x : RingState) : (s.setRing n x).store = s.store := rfl
@[simp] theorem State.setRing_join (n : Nat) (x : RingState) : (s.setRing n x).join = s.join := rfl
@[simp] theorem State.setRing_posn (n : Nat) (x : RingState) : (s.setRing n x).posn = s.posn := rfl
@[simp] theorem State.setRing_arr (n : Nat) (x : RingState) : (s.setRing n x).arr = s.arr := rfl
@[simp] theorem State.setRing_hk (n : Nat) (x : RingState) : (s.setRing n x).hk = s.hk := rfl
@[simp] theorem State.setRing_cal (n : Nat) (x : RingState) : (s.setRing n x).cal = s.cal := rfl
@[simp] theorem State.setRing_tap (n : Nat) (x : RingState) : (s.setRing n x).tap = s.tap := rfl
@[simp] theorem State.setRing_scan (n : Nat) (x : RingState) : (s.setRing n x).scan = s.scan := rfl
@[simp] theorem State.setPipe_pending (n : Nat) (x : Pipe) : (s.setPipe n x).pending = s.pending := rfl
@[simp] theorem State.setPipe_now (n : Nat) (x : Pipe) : (s.setPipe n x).now = s.now := rfl
@[simp] theorem State.setPipe_out (n : Nat) (x : Pipe) : (s.setPipe n x).out = s.out := rfl
@[simp] theorem State.setPipe_fresh (n : Nat) (x : Pipe) : (s.setPipe n x).fresh = s.fresh := rfl
@[simp] theorem State.setPipe_regs (n : Nat) (x : Pipe) : (s.setPipe n x).regs = s.regs := rfl
@[simp] theorem State.setPipe_doms (n : Nat) (x : Pipe) : (s.setPipe n x).doms = s.doms := rfl
@[simp] theorem State.setPipe_time (n : Nat) (x : Pipe) : (s.setPipe n x).time = s.time := rfl
@[simp] theorem State.setPipe_syn (n : Nat) (x : Pipe) : (s.setPipe n x).syn = s.syn := rfl
@[simp] theorem State.setPipe_clk (n : Nat) (x : Pipe) : (s.setPipe n x).clk = s.clk := rfl
@[simp] theorem State.setPipe_tdc (n : Nat) (x : Pipe) : (s.setPipe n x).tdc = s.tdc := rfl
@[simp] theorem State.setPipe_stat (n : Nat) (x : Pipe) : (s.setPipe n x).stat = s.stat := rfl
@[simp] theorem State.setPipe_dict (n : Nat) (x : Pipe) : (s.setPipe n x).dict = s.dict := rfl
@[simp] theorem State.setPipe_pantry (n : Nat) (x : Pipe) : (s.setPipe n x).pantry = s.pantry := rfl
@[simp] theorem State.setPipe_steward (n : Nat) (x : Pipe) : (s.setPipe n x).steward = s.steward := rfl
@[simp] theorem State.setPipe_life (n : Nat) (x : Pipe) : (s.setPipe n x).life = s.life := rfl
@[simp] theorem State.setPipe_power (n : Nat) (x : Pipe) : (s.setPipe n x).power = s.power := rfl
@[simp] theorem State.setPipe_slots (n : Nat) (x : Pipe) : (s.setPipe n x).slots = s.slots := rfl
@[simp] theorem State.setPipe_link (n : Nat) (x : Pipe) : (s.setPipe n x).link = s.link := rfl
@[simp] theorem State.setPipe_chan (n : Nat) (x : Pipe) : (s.setPipe n x).chan = s.chan := rfl
@[simp] theorem State.setPipe_line (n : Nat) (x : Pipe) : (s.setPipe n x).line = s.line := rfl
@[simp] theorem State.setPipe_pat (n : Nat) (x : Pipe) : (s.setPipe n x).pat = s.pat := rfl
@[simp] theorem State.setPipe_trig (n : Nat) (x : Pipe) : (s.setPipe n x).trig = s.trig := rfl
@[simp] theorem State.setPipe_lane (n : Nat) (x : Pipe) : (s.setPipe n x).lane = s.lane := rfl
@[simp] theorem State.setPipe_weir (n : Nat) (x : Pipe) : (s.setPipe n x).weir = s.weir := rfl
@[simp] theorem State.setPipe_trigLog (n : Nat) (x : Pipe) : (s.setPipe n x).trigLog = s.trigLog := rfl
@[simp] theorem State.setPipe_engine (n : Nat) (x : Pipe) : (s.setPipe n x).engine = s.engine := rfl
@[simp] theorem State.setPipe_ring (n : Nat) (x : Pipe) : (s.setPipe n x).ring = s.ring := rfl
@[simp] theorem State.setPipe_map (n : Nat) (x : Pipe) : (s.setPipe n x).map = s.map := rfl
@[simp] theorem State.setPipe_hbm (n : Nat) (x : Pipe) : (s.setPipe n x).hbm = s.hbm := rfl
@[simp] theorem State.setPipe_pool (n : Nat) (x : Pipe) : (s.setPipe n x).pool = s.pool := rfl
@[simp] theorem State.setPipe_bank (n : Nat) (x : Pipe) : (s.setPipe n x).bank = s.bank := rfl
@[simp] theorem State.setPipe_pc (n : Nat) (x : Pipe) : (s.setPipe n x).pc = s.pc := rfl
@[simp] theorem State.setPipe_tolerance (n : Nat) (x : Pipe) : (s.setPipe n x).tolerance = s.tolerance := rfl
@[simp] theorem State.setPipe_disp (n : Nat) (x : Pipe) : (s.setPipe n x).disp = s.disp := rfl
@[simp] theorem State.setPipe_xfer (n : Nat) (x : Pipe) : (s.setPipe n x).xfer = s.xfer := rfl
@[simp] theorem State.setPipe_stream (n : Nat) (x : Pipe) : (s.setPipe n x).stream = s.stream := rfl
@[simp] theorem State.setPipe_host (n : Nat) (x : Pipe) : (s.setPipe n x).host = s.host := rfl
@[simp] theorem State.setPipe_drive (n : Nat) (x : Pipe) : (s.setPipe n x).drive = s.drive := rfl
@[simp] theorem State.setPipe_store (n : Nat) (x : Pipe) : (s.setPipe n x).store = s.store := rfl
@[simp] theorem State.setPipe_join (n : Nat) (x : Pipe) : (s.setPipe n x).join = s.join := rfl
@[simp] theorem State.setPipe_posn (n : Nat) (x : Pipe) : (s.setPipe n x).posn = s.posn := rfl
@[simp] theorem State.setPipe_arr (n : Nat) (x : Pipe) : (s.setPipe n x).arr = s.arr := rfl
@[simp] theorem State.setPipe_hk (n : Nat) (x : Pipe) : (s.setPipe n x).hk = s.hk := rfl
@[simp] theorem State.setPipe_cal (n : Nat) (x : Pipe) : (s.setPipe n x).cal = s.cal := rfl
@[simp] theorem State.setPipe_tap (n : Nat) (x : Pipe) : (s.setPipe n x).tap = s.tap := rfl
@[simp] theorem State.setPipe_scan (n : Nat) (x : Pipe) : (s.setPipe n x).scan = s.scan := rfl
@[simp] theorem State.setPort_pending (k : Nat) (x : JoinPort) : (s.setPort k x).pending = s.pending := rfl
@[simp] theorem State.setPort_now (k : Nat) (x : JoinPort) : (s.setPort k x).now = s.now := rfl
@[simp] theorem State.setPort_out (k : Nat) (x : JoinPort) : (s.setPort k x).out = s.out := rfl
@[simp] theorem State.setPort_fresh (k : Nat) (x : JoinPort) : (s.setPort k x).fresh = s.fresh := rfl
@[simp] theorem State.setPort_regs (k : Nat) (x : JoinPort) : (s.setPort k x).regs = s.regs := rfl
@[simp] theorem State.setPort_doms (k : Nat) (x : JoinPort) : (s.setPort k x).doms = s.doms := rfl
@[simp] theorem State.setPort_time (k : Nat) (x : JoinPort) : (s.setPort k x).time = s.time := rfl
@[simp] theorem State.setPort_syn (k : Nat) (x : JoinPort) : (s.setPort k x).syn = s.syn := rfl
@[simp] theorem State.setPort_clk (k : Nat) (x : JoinPort) : (s.setPort k x).clk = s.clk := rfl
@[simp] theorem State.setPort_tdc (k : Nat) (x : JoinPort) : (s.setPort k x).tdc = s.tdc := rfl
@[simp] theorem State.setPort_stat (k : Nat) (x : JoinPort) : (s.setPort k x).stat = s.stat := rfl
@[simp] theorem State.setPort_dict (k : Nat) (x : JoinPort) : (s.setPort k x).dict = s.dict := rfl
@[simp] theorem State.setPort_pantry (k : Nat) (x : JoinPort) : (s.setPort k x).pantry = s.pantry := rfl
@[simp] theorem State.setPort_steward (k : Nat) (x : JoinPort) : (s.setPort k x).steward = s.steward := rfl
@[simp] theorem State.setPort_life (k : Nat) (x : JoinPort) : (s.setPort k x).life = s.life := rfl
@[simp] theorem State.setPort_power (k : Nat) (x : JoinPort) : (s.setPort k x).power = s.power := rfl
@[simp] theorem State.setPort_slots (k : Nat) (x : JoinPort) : (s.setPort k x).slots = s.slots := rfl
@[simp] theorem State.setPort_link (k : Nat) (x : JoinPort) : (s.setPort k x).link = s.link := rfl
@[simp] theorem State.setPort_chan (k : Nat) (x : JoinPort) : (s.setPort k x).chan = s.chan := rfl
@[simp] theorem State.setPort_line (k : Nat) (x : JoinPort) : (s.setPort k x).line = s.line := rfl
@[simp] theorem State.setPort_pat (k : Nat) (x : JoinPort) : (s.setPort k x).pat = s.pat := rfl
@[simp] theorem State.setPort_trig (k : Nat) (x : JoinPort) : (s.setPort k x).trig = s.trig := rfl
@[simp] theorem State.setPort_lane (k : Nat) (x : JoinPort) : (s.setPort k x).lane = s.lane := rfl
@[simp] theorem State.setPort_weir (k : Nat) (x : JoinPort) : (s.setPort k x).weir = s.weir := rfl
@[simp] theorem State.setPort_trigLog (k : Nat) (x : JoinPort) : (s.setPort k x).trigLog = s.trigLog := rfl
@[simp] theorem State.setPort_engine (k : Nat) (x : JoinPort) : (s.setPort k x).engine = s.engine := rfl
@[simp] theorem State.setPort_ring (k : Nat) (x : JoinPort) : (s.setPort k x).ring = s.ring := rfl
@[simp] theorem State.setPort_pipe (k : Nat) (x : JoinPort) : (s.setPort k x).pipe = s.pipe := rfl
@[simp] theorem State.setPort_map (k : Nat) (x : JoinPort) : (s.setPort k x).map = s.map := rfl
@[simp] theorem State.setPort_hbm (k : Nat) (x : JoinPort) : (s.setPort k x).hbm = s.hbm := rfl
@[simp] theorem State.setPort_pool (k : Nat) (x : JoinPort) : (s.setPort k x).pool = s.pool := rfl
@[simp] theorem State.setPort_bank (k : Nat) (x : JoinPort) : (s.setPort k x).bank = s.bank := rfl
@[simp] theorem State.setPort_pc (k : Nat) (x : JoinPort) : (s.setPort k x).pc = s.pc := rfl
@[simp] theorem State.setPort_tolerance (k : Nat) (x : JoinPort) : (s.setPort k x).tolerance = s.tolerance := rfl
@[simp] theorem State.setPort_disp (k : Nat) (x : JoinPort) : (s.setPort k x).disp = s.disp := rfl
@[simp] theorem State.setPort_xfer (k : Nat) (x : JoinPort) : (s.setPort k x).xfer = s.xfer := rfl
@[simp] theorem State.setPort_stream (k : Nat) (x : JoinPort) : (s.setPort k x).stream = s.stream := rfl
@[simp] theorem State.setPort_host (k : Nat) (x : JoinPort) : (s.setPort k x).host = s.host := rfl
@[simp] theorem State.setPort_drive (k : Nat) (x : JoinPort) : (s.setPort k x).drive = s.drive := rfl
@[simp] theorem State.setPort_store (k : Nat) (x : JoinPort) : (s.setPort k x).store = s.store := rfl
@[simp] theorem State.setPort_posn (k : Nat) (x : JoinPort) : (s.setPort k x).posn = s.posn := rfl
@[simp] theorem State.setPort_arr (k : Nat) (x : JoinPort) : (s.setPort k x).arr = s.arr := rfl
@[simp] theorem State.setPort_hk (k : Nat) (x : JoinPort) : (s.setPort k x).hk = s.hk := rfl
@[simp] theorem State.setPort_cal (k : Nat) (x : JoinPort) : (s.setPort k x).cal = s.cal := rfl
@[simp] theorem State.setPort_tap (k : Nat) (x : JoinPort) : (s.setPort k x).tap = s.tap := rfl
@[simp] theorem State.setPort_scan (k : Nat) (x : JoinPort) : (s.setPort k x).scan = s.scan := rfl
@[simp] theorem State.setPos_pending (k : Nat) (x : PosState) : (s.setPos k x).pending = s.pending := rfl
@[simp] theorem State.setPos_now (k : Nat) (x : PosState) : (s.setPos k x).now = s.now := rfl
@[simp] theorem State.setPos_out (k : Nat) (x : PosState) : (s.setPos k x).out = s.out := rfl
@[simp] theorem State.setPos_fresh (k : Nat) (x : PosState) : (s.setPos k x).fresh = s.fresh := rfl
@[simp] theorem State.setPos_regs (k : Nat) (x : PosState) : (s.setPos k x).regs = s.regs := rfl
@[simp] theorem State.setPos_doms (k : Nat) (x : PosState) : (s.setPos k x).doms = s.doms := rfl
@[simp] theorem State.setPos_time (k : Nat) (x : PosState) : (s.setPos k x).time = s.time := rfl
@[simp] theorem State.setPos_syn (k : Nat) (x : PosState) : (s.setPos k x).syn = s.syn := rfl
@[simp] theorem State.setPos_clk (k : Nat) (x : PosState) : (s.setPos k x).clk = s.clk := rfl
@[simp] theorem State.setPos_tdc (k : Nat) (x : PosState) : (s.setPos k x).tdc = s.tdc := rfl
@[simp] theorem State.setPos_stat (k : Nat) (x : PosState) : (s.setPos k x).stat = s.stat := rfl
@[simp] theorem State.setPos_dict (k : Nat) (x : PosState) : (s.setPos k x).dict = s.dict := rfl
@[simp] theorem State.setPos_pantry (k : Nat) (x : PosState) : (s.setPos k x).pantry = s.pantry := rfl
@[simp] theorem State.setPos_steward (k : Nat) (x : PosState) : (s.setPos k x).steward = s.steward := rfl
@[simp] theorem State.setPos_life (k : Nat) (x : PosState) : (s.setPos k x).life = s.life := rfl
@[simp] theorem State.setPos_power (k : Nat) (x : PosState) : (s.setPos k x).power = s.power := rfl
@[simp] theorem State.setPos_slots (k : Nat) (x : PosState) : (s.setPos k x).slots = s.slots := rfl
@[simp] theorem State.setPos_link (k : Nat) (x : PosState) : (s.setPos k x).link = s.link := rfl
@[simp] theorem State.setPos_chan (k : Nat) (x : PosState) : (s.setPos k x).chan = s.chan := rfl
@[simp] theorem State.setPos_line (k : Nat) (x : PosState) : (s.setPos k x).line = s.line := rfl
@[simp] theorem State.setPos_pat (k : Nat) (x : PosState) : (s.setPos k x).pat = s.pat := rfl
@[simp] theorem State.setPos_trig (k : Nat) (x : PosState) : (s.setPos k x).trig = s.trig := rfl
@[simp] theorem State.setPos_lane (k : Nat) (x : PosState) : (s.setPos k x).lane = s.lane := rfl
@[simp] theorem State.setPos_weir (k : Nat) (x : PosState) : (s.setPos k x).weir = s.weir := rfl
@[simp] theorem State.setPos_trigLog (k : Nat) (x : PosState) : (s.setPos k x).trigLog = s.trigLog := rfl
@[simp] theorem State.setPos_engine (k : Nat) (x : PosState) : (s.setPos k x).engine = s.engine := rfl
@[simp] theorem State.setPos_ring (k : Nat) (x : PosState) : (s.setPos k x).ring = s.ring := rfl
@[simp] theorem State.setPos_pipe (k : Nat) (x : PosState) : (s.setPos k x).pipe = s.pipe := rfl
@[simp] theorem State.setPos_map (k : Nat) (x : PosState) : (s.setPos k x).map = s.map := rfl
@[simp] theorem State.setPos_hbm (k : Nat) (x : PosState) : (s.setPos k x).hbm = s.hbm := rfl
@[simp] theorem State.setPos_pool (k : Nat) (x : PosState) : (s.setPos k x).pool = s.pool := rfl
@[simp] theorem State.setPos_bank (k : Nat) (x : PosState) : (s.setPos k x).bank = s.bank := rfl
@[simp] theorem State.setPos_pc (k : Nat) (x : PosState) : (s.setPos k x).pc = s.pc := rfl
@[simp] theorem State.setPos_tolerance (k : Nat) (x : PosState) : (s.setPos k x).tolerance = s.tolerance := rfl
@[simp] theorem State.setPos_disp (k : Nat) (x : PosState) : (s.setPos k x).disp = s.disp := rfl
@[simp] theorem State.setPos_xfer (k : Nat) (x : PosState) : (s.setPos k x).xfer = s.xfer := rfl
@[simp] theorem State.setPos_stream (k : Nat) (x : PosState) : (s.setPos k x).stream = s.stream := rfl
@[simp] theorem State.setPos_host (k : Nat) (x : PosState) : (s.setPos k x).host = s.host := rfl
@[simp] theorem State.setPos_drive (k : Nat) (x : PosState) : (s.setPos k x).drive = s.drive := rfl
@[simp] theorem State.setPos_store (k : Nat) (x : PosState) : (s.setPos k x).store = s.store := rfl
@[simp] theorem State.setPos_join (k : Nat) (x : PosState) : (s.setPos k x).join = s.join := rfl
@[simp] theorem State.setPos_arr (k : Nat) (x : PosState) : (s.setPos k x).arr = s.arr := rfl
@[simp] theorem State.setPos_hk (k : Nat) (x : PosState) : (s.setPos k x).hk = s.hk := rfl
@[simp] theorem State.setPos_cal (k : Nat) (x : PosState) : (s.setPos k x).cal = s.cal := rfl
@[simp] theorem State.setPos_tap (k : Nat) (x : PosState) : (s.setPos k x).tap = s.tap := rfl
@[simp] theorem State.setPos_scan (k : Nat) (x : PosState) : (s.setPos k x).scan = s.scan := rfl
@[simp] theorem State.setXf_pending (c : Nat) (x : XferCh) : (s.setXf c x).pending = s.pending := rfl
@[simp] theorem State.setXf_now (c : Nat) (x : XferCh) : (s.setXf c x).now = s.now := rfl
@[simp] theorem State.setXf_out (c : Nat) (x : XferCh) : (s.setXf c x).out = s.out := rfl
@[simp] theorem State.setXf_fresh (c : Nat) (x : XferCh) : (s.setXf c x).fresh = s.fresh := rfl
@[simp] theorem State.setXf_regs (c : Nat) (x : XferCh) : (s.setXf c x).regs = s.regs := rfl
@[simp] theorem State.setXf_doms (c : Nat) (x : XferCh) : (s.setXf c x).doms = s.doms := rfl
@[simp] theorem State.setXf_time (c : Nat) (x : XferCh) : (s.setXf c x).time = s.time := rfl
@[simp] theorem State.setXf_syn (c : Nat) (x : XferCh) : (s.setXf c x).syn = s.syn := rfl
@[simp] theorem State.setXf_clk (c : Nat) (x : XferCh) : (s.setXf c x).clk = s.clk := rfl
@[simp] theorem State.setXf_tdc (c : Nat) (x : XferCh) : (s.setXf c x).tdc = s.tdc := rfl
@[simp] theorem State.setXf_stat (c : Nat) (x : XferCh) : (s.setXf c x).stat = s.stat := rfl
@[simp] theorem State.setXf_dict (c : Nat) (x : XferCh) : (s.setXf c x).dict = s.dict := rfl
@[simp] theorem State.setXf_pantry (c : Nat) (x : XferCh) : (s.setXf c x).pantry = s.pantry := rfl
@[simp] theorem State.setXf_steward (c : Nat) (x : XferCh) : (s.setXf c x).steward = s.steward := rfl
@[simp] theorem State.setXf_life (c : Nat) (x : XferCh) : (s.setXf c x).life = s.life := rfl
@[simp] theorem State.setXf_power (c : Nat) (x : XferCh) : (s.setXf c x).power = s.power := rfl
@[simp] theorem State.setXf_slots (c : Nat) (x : XferCh) : (s.setXf c x).slots = s.slots := rfl
@[simp] theorem State.setXf_link (c : Nat) (x : XferCh) : (s.setXf c x).link = s.link := rfl
@[simp] theorem State.setXf_chan (c : Nat) (x : XferCh) : (s.setXf c x).chan = s.chan := rfl
@[simp] theorem State.setXf_line (c : Nat) (x : XferCh) : (s.setXf c x).line = s.line := rfl
@[simp] theorem State.setXf_pat (c : Nat) (x : XferCh) : (s.setXf c x).pat = s.pat := rfl
@[simp] theorem State.setXf_trig (c : Nat) (x : XferCh) : (s.setXf c x).trig = s.trig := rfl
@[simp] theorem State.setXf_lane (c : Nat) (x : XferCh) : (s.setXf c x).lane = s.lane := rfl
@[simp] theorem State.setXf_weir (c : Nat) (x : XferCh) : (s.setXf c x).weir = s.weir := rfl
@[simp] theorem State.setXf_trigLog (c : Nat) (x : XferCh) : (s.setXf c x).trigLog = s.trigLog := rfl
@[simp] theorem State.setXf_engine (c : Nat) (x : XferCh) : (s.setXf c x).engine = s.engine := rfl
@[simp] theorem State.setXf_ring (c : Nat) (x : XferCh) : (s.setXf c x).ring = s.ring := rfl
@[simp] theorem State.setXf_pipe (c : Nat) (x : XferCh) : (s.setXf c x).pipe = s.pipe := rfl
@[simp] theorem State.setXf_map (c : Nat) (x : XferCh) : (s.setXf c x).map = s.map := rfl
@[simp] theorem State.setXf_hbm (c : Nat) (x : XferCh) : (s.setXf c x).hbm = s.hbm := rfl
@[simp] theorem State.setXf_pool (c : Nat) (x : XferCh) : (s.setXf c x).pool = s.pool := rfl
@[simp] theorem State.setXf_bank (c : Nat) (x : XferCh) : (s.setXf c x).bank = s.bank := rfl
@[simp] theorem State.setXf_pc (c : Nat) (x : XferCh) : (s.setXf c x).pc = s.pc := rfl
@[simp] theorem State.setXf_tolerance (c : Nat) (x : XferCh) : (s.setXf c x).tolerance = s.tolerance := rfl
@[simp] theorem State.setXf_disp (c : Nat) (x : XferCh) : (s.setXf c x).disp = s.disp := rfl
@[simp] theorem State.setXf_stream (c : Nat) (x : XferCh) : (s.setXf c x).stream = s.stream := rfl
@[simp] theorem State.setXf_host (c : Nat) (x : XferCh) : (s.setXf c x).host = s.host := rfl
@[simp] theorem State.setXf_drive (c : Nat) (x : XferCh) : (s.setXf c x).drive = s.drive := rfl
@[simp] theorem State.setXf_store (c : Nat) (x : XferCh) : (s.setXf c x).store = s.store := rfl
@[simp] theorem State.setXf_join (c : Nat) (x : XferCh) : (s.setXf c x).join = s.join := rfl
@[simp] theorem State.setXf_posn (c : Nat) (x : XferCh) : (s.setXf c x).posn = s.posn := rfl
@[simp] theorem State.setXf_arr (c : Nat) (x : XferCh) : (s.setXf c x).arr = s.arr := rfl
@[simp] theorem State.setXf_hk (c : Nat) (x : XferCh) : (s.setXf c x).hk = s.hk := rfl
@[simp] theorem State.setXf_cal (c : Nat) (x : XferCh) : (s.setXf c x).cal = s.cal := rfl
@[simp] theorem State.setXf_tap (c : Nat) (x : XferCh) : (s.setXf c x).tap = s.tap := rfl
@[simp] theorem State.setXf_scan (c : Nat) (x : XferCh) : (s.setXf c x).scan = s.scan := rfl
@[simp] theorem State.setDrive_pending (k : Nat) (x : DriveState) : (s.setDrive k x).pending = s.pending := rfl
@[simp] theorem State.setDrive_now (k : Nat) (x : DriveState) : (s.setDrive k x).now = s.now := rfl
@[simp] theorem State.setDrive_out (k : Nat) (x : DriveState) : (s.setDrive k x).out = s.out := rfl
@[simp] theorem State.setDrive_fresh (k : Nat) (x : DriveState) : (s.setDrive k x).fresh = s.fresh := rfl
@[simp] theorem State.setDrive_regs (k : Nat) (x : DriveState) : (s.setDrive k x).regs = s.regs := rfl
@[simp] theorem State.setDrive_doms (k : Nat) (x : DriveState) : (s.setDrive k x).doms = s.doms := rfl
@[simp] theorem State.setDrive_time (k : Nat) (x : DriveState) : (s.setDrive k x).time = s.time := rfl
@[simp] theorem State.setDrive_syn (k : Nat) (x : DriveState) : (s.setDrive k x).syn = s.syn := rfl
@[simp] theorem State.setDrive_clk (k : Nat) (x : DriveState) : (s.setDrive k x).clk = s.clk := rfl
@[simp] theorem State.setDrive_tdc (k : Nat) (x : DriveState) : (s.setDrive k x).tdc = s.tdc := rfl
@[simp] theorem State.setDrive_stat (k : Nat) (x : DriveState) : (s.setDrive k x).stat = s.stat := rfl
@[simp] theorem State.setDrive_dict (k : Nat) (x : DriveState) : (s.setDrive k x).dict = s.dict := rfl
@[simp] theorem State.setDrive_pantry (k : Nat) (x : DriveState) : (s.setDrive k x).pantry = s.pantry := rfl
@[simp] theorem State.setDrive_steward (k : Nat) (x : DriveState) : (s.setDrive k x).steward = s.steward := rfl
@[simp] theorem State.setDrive_life (k : Nat) (x : DriveState) : (s.setDrive k x).life = s.life := rfl
@[simp] theorem State.setDrive_power (k : Nat) (x : DriveState) : (s.setDrive k x).power = s.power := rfl
@[simp] theorem State.setDrive_slots (k : Nat) (x : DriveState) : (s.setDrive k x).slots = s.slots := rfl
@[simp] theorem State.setDrive_link (k : Nat) (x : DriveState) : (s.setDrive k x).link = s.link := rfl
@[simp] theorem State.setDrive_chan (k : Nat) (x : DriveState) : (s.setDrive k x).chan = s.chan := rfl
@[simp] theorem State.setDrive_line (k : Nat) (x : DriveState) : (s.setDrive k x).line = s.line := rfl
@[simp] theorem State.setDrive_pat (k : Nat) (x : DriveState) : (s.setDrive k x).pat = s.pat := rfl
@[simp] theorem State.setDrive_trig (k : Nat) (x : DriveState) : (s.setDrive k x).trig = s.trig := rfl
@[simp] theorem State.setDrive_lane (k : Nat) (x : DriveState) : (s.setDrive k x).lane = s.lane := rfl
@[simp] theorem State.setDrive_weir (k : Nat) (x : DriveState) : (s.setDrive k x).weir = s.weir := rfl
@[simp] theorem State.setDrive_trigLog (k : Nat) (x : DriveState) : (s.setDrive k x).trigLog = s.trigLog := rfl
@[simp] theorem State.setDrive_engine (k : Nat) (x : DriveState) : (s.setDrive k x).engine = s.engine := rfl
@[simp] theorem State.setDrive_ring (k : Nat) (x : DriveState) : (s.setDrive k x).ring = s.ring := rfl
@[simp] theorem State.setDrive_pipe (k : Nat) (x : DriveState) : (s.setDrive k x).pipe = s.pipe := rfl
@[simp] theorem State.setDrive_map (k : Nat) (x : DriveState) : (s.setDrive k x).map = s.map := rfl
@[simp] theorem State.setDrive_hbm (k : Nat) (x : DriveState) : (s.setDrive k x).hbm = s.hbm := rfl
@[simp] theorem State.setDrive_pool (k : Nat) (x : DriveState) : (s.setDrive k x).pool = s.pool := rfl
@[simp] theorem State.setDrive_bank (k : Nat) (x : DriveState) : (s.setDrive k x).bank = s.bank := rfl
@[simp] theorem State.setDrive_pc (k : Nat) (x : DriveState) : (s.setDrive k x).pc = s.pc := rfl
@[simp] theorem State.setDrive_tolerance (k : Nat) (x : DriveState) : (s.setDrive k x).tolerance = s.tolerance := rfl
@[simp] theorem State.setDrive_disp (k : Nat) (x : DriveState) : (s.setDrive k x).disp = s.disp := rfl
@[simp] theorem State.setDrive_xfer (k : Nat) (x : DriveState) : (s.setDrive k x).xfer = s.xfer := rfl
@[simp] theorem State.setDrive_stream (k : Nat) (x : DriveState) : (s.setDrive k x).stream = s.stream := rfl
@[simp] theorem State.setDrive_host (k : Nat) (x : DriveState) : (s.setDrive k x).host = s.host := rfl
@[simp] theorem State.setDrive_store (k : Nat) (x : DriveState) : (s.setDrive k x).store = s.store := rfl
@[simp] theorem State.setDrive_join (k : Nat) (x : DriveState) : (s.setDrive k x).join = s.join := rfl
@[simp] theorem State.setDrive_posn (k : Nat) (x : DriveState) : (s.setDrive k x).posn = s.posn := rfl
@[simp] theorem State.setDrive_arr (k : Nat) (x : DriveState) : (s.setDrive k x).arr = s.arr := rfl
@[simp] theorem State.setDrive_hk (k : Nat) (x : DriveState) : (s.setDrive k x).hk = s.hk := rfl
@[simp] theorem State.setDrive_cal (k : Nat) (x : DriveState) : (s.setDrive k x).cal = s.cal := rfl
@[simp] theorem State.setDrive_tap (k : Nat) (x : DriveState) : (s.setDrive k x).tap = s.tap := rfl
@[simp] theorem State.setDrive_scan (k : Nat) (x : DriveState) : (s.setDrive k x).scan = s.scan := rfl
@[simp] theorem State.setStream_pending (r : Nat) (x : StreamState) : (s.setStream r x).pending = s.pending := rfl
@[simp] theorem State.setStream_now (r : Nat) (x : StreamState) : (s.setStream r x).now = s.now := rfl
@[simp] theorem State.setStream_out (r : Nat) (x : StreamState) : (s.setStream r x).out = s.out := rfl
@[simp] theorem State.setStream_fresh (r : Nat) (x : StreamState) : (s.setStream r x).fresh = s.fresh := rfl
@[simp] theorem State.setStream_regs (r : Nat) (x : StreamState) : (s.setStream r x).regs = s.regs := rfl
@[simp] theorem State.setStream_doms (r : Nat) (x : StreamState) : (s.setStream r x).doms = s.doms := rfl
@[simp] theorem State.setStream_time (r : Nat) (x : StreamState) : (s.setStream r x).time = s.time := rfl
@[simp] theorem State.setStream_syn (r : Nat) (x : StreamState) : (s.setStream r x).syn = s.syn := rfl
@[simp] theorem State.setStream_clk (r : Nat) (x : StreamState) : (s.setStream r x).clk = s.clk := rfl
@[simp] theorem State.setStream_tdc (r : Nat) (x : StreamState) : (s.setStream r x).tdc = s.tdc := rfl
@[simp] theorem State.setStream_stat (r : Nat) (x : StreamState) : (s.setStream r x).stat = s.stat := rfl
@[simp] theorem State.setStream_dict (r : Nat) (x : StreamState) : (s.setStream r x).dict = s.dict := rfl
@[simp] theorem State.setStream_pantry (r : Nat) (x : StreamState) : (s.setStream r x).pantry = s.pantry := rfl
@[simp] theorem State.setStream_steward (r : Nat) (x : StreamState) : (s.setStream r x).steward = s.steward := rfl
@[simp] theorem State.setStream_life (r : Nat) (x : StreamState) : (s.setStream r x).life = s.life := rfl
@[simp] theorem State.setStream_power (r : Nat) (x : StreamState) : (s.setStream r x).power = s.power := rfl
@[simp] theorem State.setStream_slots (r : Nat) (x : StreamState) : (s.setStream r x).slots = s.slots := rfl
@[simp] theorem State.setStream_link (r : Nat) (x : StreamState) : (s.setStream r x).link = s.link := rfl
@[simp] theorem State.setStream_chan (r : Nat) (x : StreamState) : (s.setStream r x).chan = s.chan := rfl
@[simp] theorem State.setStream_line (r : Nat) (x : StreamState) : (s.setStream r x).line = s.line := rfl
@[simp] theorem State.setStream_pat (r : Nat) (x : StreamState) : (s.setStream r x).pat = s.pat := rfl
@[simp] theorem State.setStream_trig (r : Nat) (x : StreamState) : (s.setStream r x).trig = s.trig := rfl
@[simp] theorem State.setStream_lane (r : Nat) (x : StreamState) : (s.setStream r x).lane = s.lane := rfl
@[simp] theorem State.setStream_weir (r : Nat) (x : StreamState) : (s.setStream r x).weir = s.weir := rfl
@[simp] theorem State.setStream_trigLog (r : Nat) (x : StreamState) : (s.setStream r x).trigLog = s.trigLog := rfl
@[simp] theorem State.setStream_engine (r : Nat) (x : StreamState) : (s.setStream r x).engine = s.engine := rfl
@[simp] theorem State.setStream_ring (r : Nat) (x : StreamState) : (s.setStream r x).ring = s.ring := rfl
@[simp] theorem State.setStream_pipe (r : Nat) (x : StreamState) : (s.setStream r x).pipe = s.pipe := rfl
@[simp] theorem State.setStream_map (r : Nat) (x : StreamState) : (s.setStream r x).map = s.map := rfl
@[simp] theorem State.setStream_hbm (r : Nat) (x : StreamState) : (s.setStream r x).hbm = s.hbm := rfl
@[simp] theorem State.setStream_pool (r : Nat) (x : StreamState) : (s.setStream r x).pool = s.pool := rfl
@[simp] theorem State.setStream_bank (r : Nat) (x : StreamState) : (s.setStream r x).bank = s.bank := rfl
@[simp] theorem State.setStream_pc (r : Nat) (x : StreamState) : (s.setStream r x).pc = s.pc := rfl
@[simp] theorem State.setStream_tolerance (r : Nat) (x : StreamState) : (s.setStream r x).tolerance = s.tolerance := rfl
@[simp] theorem State.setStream_disp (r : Nat) (x : StreamState) : (s.setStream r x).disp = s.disp := rfl
@[simp] theorem State.setStream_xfer (r : Nat) (x : StreamState) : (s.setStream r x).xfer = s.xfer := rfl
@[simp] theorem State.setStream_host (r : Nat) (x : StreamState) : (s.setStream r x).host = s.host := rfl
@[simp] theorem State.setStream_drive (r : Nat) (x : StreamState) : (s.setStream r x).drive = s.drive := rfl
@[simp] theorem State.setStream_store (r : Nat) (x : StreamState) : (s.setStream r x).store = s.store := rfl
@[simp] theorem State.setStream_join (r : Nat) (x : StreamState) : (s.setStream r x).join = s.join := rfl
@[simp] theorem State.setStream_posn (r : Nat) (x : StreamState) : (s.setStream r x).posn = s.posn := rfl
@[simp] theorem State.setStream_arr (r : Nat) (x : StreamState) : (s.setStream r x).arr = s.arr := rfl
@[simp] theorem State.setStream_hk (r : Nat) (x : StreamState) : (s.setStream r x).hk = s.hk := rfl
@[simp] theorem State.setStream_cal (r : Nat) (x : StreamState) : (s.setStream r x).cal = s.cal := rfl
@[simp] theorem State.setStream_tap (r : Nat) (x : StreamState) : (s.setStream r x).tap = s.tap := rfl
@[simp] theorem State.setStream_scan (r : Nat) (x : StreamState) : (s.setStream r x).scan = s.scan := rfl
@[simp] theorem State.setPat_pending (u : Nat) (x : PatState) : (s.setPat u x).pending = s.pending := rfl
@[simp] theorem State.setPat_now (u : Nat) (x : PatState) : (s.setPat u x).now = s.now := rfl
@[simp] theorem State.setPat_out (u : Nat) (x : PatState) : (s.setPat u x).out = s.out := rfl
@[simp] theorem State.setPat_fresh (u : Nat) (x : PatState) : (s.setPat u x).fresh = s.fresh := rfl
@[simp] theorem State.setPat_regs (u : Nat) (x : PatState) : (s.setPat u x).regs = s.regs := rfl
@[simp] theorem State.setPat_doms (u : Nat) (x : PatState) : (s.setPat u x).doms = s.doms := rfl
@[simp] theorem State.setPat_time (u : Nat) (x : PatState) : (s.setPat u x).time = s.time := rfl
@[simp] theorem State.setPat_syn (u : Nat) (x : PatState) : (s.setPat u x).syn = s.syn := rfl
@[simp] theorem State.setPat_clk (u : Nat) (x : PatState) : (s.setPat u x).clk = s.clk := rfl
@[simp] theorem State.setPat_tdc (u : Nat) (x : PatState) : (s.setPat u x).tdc = s.tdc := rfl
@[simp] theorem State.setPat_stat (u : Nat) (x : PatState) : (s.setPat u x).stat = s.stat := rfl
@[simp] theorem State.setPat_dict (u : Nat) (x : PatState) : (s.setPat u x).dict = s.dict := rfl
@[simp] theorem State.setPat_pantry (u : Nat) (x : PatState) : (s.setPat u x).pantry = s.pantry := rfl
@[simp] theorem State.setPat_steward (u : Nat) (x : PatState) : (s.setPat u x).steward = s.steward := rfl
@[simp] theorem State.setPat_life (u : Nat) (x : PatState) : (s.setPat u x).life = s.life := rfl
@[simp] theorem State.setPat_power (u : Nat) (x : PatState) : (s.setPat u x).power = s.power := rfl
@[simp] theorem State.setPat_slots (u : Nat) (x : PatState) : (s.setPat u x).slots = s.slots := rfl
@[simp] theorem State.setPat_link (u : Nat) (x : PatState) : (s.setPat u x).link = s.link := rfl
@[simp] theorem State.setPat_chan (u : Nat) (x : PatState) : (s.setPat u x).chan = s.chan := rfl
@[simp] theorem State.setPat_line (u : Nat) (x : PatState) : (s.setPat u x).line = s.line := rfl
@[simp] theorem State.setPat_trig (u : Nat) (x : PatState) : (s.setPat u x).trig = s.trig := rfl
@[simp] theorem State.setPat_lane (u : Nat) (x : PatState) : (s.setPat u x).lane = s.lane := rfl
@[simp] theorem State.setPat_weir (u : Nat) (x : PatState) : (s.setPat u x).weir = s.weir := rfl
@[simp] theorem State.setPat_trigLog (u : Nat) (x : PatState) : (s.setPat u x).trigLog = s.trigLog := rfl
@[simp] theorem State.setPat_engine (u : Nat) (x : PatState) : (s.setPat u x).engine = s.engine := rfl
@[simp] theorem State.setPat_ring (u : Nat) (x : PatState) : (s.setPat u x).ring = s.ring := rfl
@[simp] theorem State.setPat_pipe (u : Nat) (x : PatState) : (s.setPat u x).pipe = s.pipe := rfl
@[simp] theorem State.setPat_map (u : Nat) (x : PatState) : (s.setPat u x).map = s.map := rfl
@[simp] theorem State.setPat_hbm (u : Nat) (x : PatState) : (s.setPat u x).hbm = s.hbm := rfl
@[simp] theorem State.setPat_pool (u : Nat) (x : PatState) : (s.setPat u x).pool = s.pool := rfl
@[simp] theorem State.setPat_bank (u : Nat) (x : PatState) : (s.setPat u x).bank = s.bank := rfl
@[simp] theorem State.setPat_pc (u : Nat) (x : PatState) : (s.setPat u x).pc = s.pc := rfl
@[simp] theorem State.setPat_tolerance (u : Nat) (x : PatState) : (s.setPat u x).tolerance = s.tolerance := rfl
@[simp] theorem State.setPat_disp (u : Nat) (x : PatState) : (s.setPat u x).disp = s.disp := rfl
@[simp] theorem State.setPat_xfer (u : Nat) (x : PatState) : (s.setPat u x).xfer = s.xfer := rfl
@[simp] theorem State.setPat_stream (u : Nat) (x : PatState) : (s.setPat u x).stream = s.stream := rfl
@[simp] theorem State.setPat_host (u : Nat) (x : PatState) : (s.setPat u x).host = s.host := rfl
@[simp] theorem State.setPat_drive (u : Nat) (x : PatState) : (s.setPat u x).drive = s.drive := rfl
@[simp] theorem State.setPat_store (u : Nat) (x : PatState) : (s.setPat u x).store = s.store := rfl
@[simp] theorem State.setPat_join (u : Nat) (x : PatState) : (s.setPat u x).join = s.join := rfl
@[simp] theorem State.setPat_posn (u : Nat) (x : PatState) : (s.setPat u x).posn = s.posn := rfl
@[simp] theorem State.setPat_arr (u : Nat) (x : PatState) : (s.setPat u x).arr = s.arr := rfl
@[simp] theorem State.setPat_hk (u : Nat) (x : PatState) : (s.setPat u x).hk = s.hk := rfl
@[simp] theorem State.setPat_cal (u : Nat) (x : PatState) : (s.setPat u x).cal = s.cal := rfl
@[simp] theorem State.setPat_tap (u : Nat) (x : PatState) : (s.setPat u x).tap = s.tap := rfl
@[simp] theorem State.setPat_scan (u : Nat) (x : PatState) : (s.setPat u x).scan = s.scan := rfl
@[simp] theorem State.setTrig_pending (k : Nat) (x : TrigOutState) : (s.setTrig k x).pending = s.pending := rfl
@[simp] theorem State.setTrig_now (k : Nat) (x : TrigOutState) : (s.setTrig k x).now = s.now := rfl
@[simp] theorem State.setTrig_out (k : Nat) (x : TrigOutState) : (s.setTrig k x).out = s.out := rfl
@[simp] theorem State.setTrig_fresh (k : Nat) (x : TrigOutState) : (s.setTrig k x).fresh = s.fresh := rfl
@[simp] theorem State.setTrig_regs (k : Nat) (x : TrigOutState) : (s.setTrig k x).regs = s.regs := rfl
@[simp] theorem State.setTrig_doms (k : Nat) (x : TrigOutState) : (s.setTrig k x).doms = s.doms := rfl
@[simp] theorem State.setTrig_time (k : Nat) (x : TrigOutState) : (s.setTrig k x).time = s.time := rfl
@[simp] theorem State.setTrig_syn (k : Nat) (x : TrigOutState) : (s.setTrig k x).syn = s.syn := rfl
@[simp] theorem State.setTrig_clk (k : Nat) (x : TrigOutState) : (s.setTrig k x).clk = s.clk := rfl
@[simp] theorem State.setTrig_tdc (k : Nat) (x : TrigOutState) : (s.setTrig k x).tdc = s.tdc := rfl
@[simp] theorem State.setTrig_stat (k : Nat) (x : TrigOutState) : (s.setTrig k x).stat = s.stat := rfl
@[simp] theorem State.setTrig_dict (k : Nat) (x : TrigOutState) : (s.setTrig k x).dict = s.dict := rfl
@[simp] theorem State.setTrig_pantry (k : Nat) (x : TrigOutState) : (s.setTrig k x).pantry = s.pantry := rfl
@[simp] theorem State.setTrig_steward (k : Nat) (x : TrigOutState) : (s.setTrig k x).steward = s.steward := rfl
@[simp] theorem State.setTrig_life (k : Nat) (x : TrigOutState) : (s.setTrig k x).life = s.life := rfl
@[simp] theorem State.setTrig_power (k : Nat) (x : TrigOutState) : (s.setTrig k x).power = s.power := rfl
@[simp] theorem State.setTrig_slots (k : Nat) (x : TrigOutState) : (s.setTrig k x).slots = s.slots := rfl
@[simp] theorem State.setTrig_link (k : Nat) (x : TrigOutState) : (s.setTrig k x).link = s.link := rfl
@[simp] theorem State.setTrig_chan (k : Nat) (x : TrigOutState) : (s.setTrig k x).chan = s.chan := rfl
@[simp] theorem State.setTrig_line (k : Nat) (x : TrigOutState) : (s.setTrig k x).line = s.line := rfl
@[simp] theorem State.setTrig_pat (k : Nat) (x : TrigOutState) : (s.setTrig k x).pat = s.pat := rfl
@[simp] theorem State.setTrig_lane (k : Nat) (x : TrigOutState) : (s.setTrig k x).lane = s.lane := rfl
@[simp] theorem State.setTrig_weir (k : Nat) (x : TrigOutState) : (s.setTrig k x).weir = s.weir := rfl
@[simp] theorem State.setTrig_trigLog (k : Nat) (x : TrigOutState) : (s.setTrig k x).trigLog = s.trigLog := rfl
@[simp] theorem State.setTrig_engine (k : Nat) (x : TrigOutState) : (s.setTrig k x).engine = s.engine := rfl
@[simp] theorem State.setTrig_ring (k : Nat) (x : TrigOutState) : (s.setTrig k x).ring = s.ring := rfl
@[simp] theorem State.setTrig_pipe (k : Nat) (x : TrigOutState) : (s.setTrig k x).pipe = s.pipe := rfl
@[simp] theorem State.setTrig_map (k : Nat) (x : TrigOutState) : (s.setTrig k x).map = s.map := rfl
@[simp] theorem State.setTrig_hbm (k : Nat) (x : TrigOutState) : (s.setTrig k x).hbm = s.hbm := rfl
@[simp] theorem State.setTrig_pool (k : Nat) (x : TrigOutState) : (s.setTrig k x).pool = s.pool := rfl
@[simp] theorem State.setTrig_bank (k : Nat) (x : TrigOutState) : (s.setTrig k x).bank = s.bank := rfl
@[simp] theorem State.setTrig_pc (k : Nat) (x : TrigOutState) : (s.setTrig k x).pc = s.pc := rfl
@[simp] theorem State.setTrig_tolerance (k : Nat) (x : TrigOutState) : (s.setTrig k x).tolerance = s.tolerance := rfl
@[simp] theorem State.setTrig_disp (k : Nat) (x : TrigOutState) : (s.setTrig k x).disp = s.disp := rfl
@[simp] theorem State.setTrig_xfer (k : Nat) (x : TrigOutState) : (s.setTrig k x).xfer = s.xfer := rfl
@[simp] theorem State.setTrig_stream (k : Nat) (x : TrigOutState) : (s.setTrig k x).stream = s.stream := rfl
@[simp] theorem State.setTrig_host (k : Nat) (x : TrigOutState) : (s.setTrig k x).host = s.host := rfl
@[simp] theorem State.setTrig_drive (k : Nat) (x : TrigOutState) : (s.setTrig k x).drive = s.drive := rfl
@[simp] theorem State.setTrig_store (k : Nat) (x : TrigOutState) : (s.setTrig k x).store = s.store := rfl
@[simp] theorem State.setTrig_join (k : Nat) (x : TrigOutState) : (s.setTrig k x).join = s.join := rfl
@[simp] theorem State.setTrig_posn (k : Nat) (x : TrigOutState) : (s.setTrig k x).posn = s.posn := rfl
@[simp] theorem State.setTrig_arr (k : Nat) (x : TrigOutState) : (s.setTrig k x).arr = s.arr := rfl
@[simp] theorem State.setTrig_hk (k : Nat) (x : TrigOutState) : (s.setTrig k x).hk = s.hk := rfl
@[simp] theorem State.setTrig_cal (k : Nat) (x : TrigOutState) : (s.setTrig k x).cal = s.cal := rfl
@[simp] theorem State.setTrig_tap (k : Nat) (x : TrigOutState) : (s.setTrig k x).tap = s.tap := rfl
@[simp] theorem State.setTrig_scan (k : Nat) (x : TrigOutState) : (s.setTrig k x).scan = s.scan := rfl
@[simp] theorem State.setLane_pending (i : Nat) (x : LaneStream) : (s.setLane i x).pending = s.pending := rfl
@[simp] theorem State.setLane_now (i : Nat) (x : LaneStream) : (s.setLane i x).now = s.now := rfl
@[simp] theorem State.setLane_out (i : Nat) (x : LaneStream) : (s.setLane i x).out = s.out := rfl
@[simp] theorem State.setLane_fresh (i : Nat) (x : LaneStream) : (s.setLane i x).fresh = s.fresh := rfl
@[simp] theorem State.setLane_regs (i : Nat) (x : LaneStream) : (s.setLane i x).regs = s.regs := rfl
@[simp] theorem State.setLane_doms (i : Nat) (x : LaneStream) : (s.setLane i x).doms = s.doms := rfl
@[simp] theorem State.setLane_time (i : Nat) (x : LaneStream) : (s.setLane i x).time = s.time := rfl
@[simp] theorem State.setLane_syn (i : Nat) (x : LaneStream) : (s.setLane i x).syn = s.syn := rfl
@[simp] theorem State.setLane_clk (i : Nat) (x : LaneStream) : (s.setLane i x).clk = s.clk := rfl
@[simp] theorem State.setLane_tdc (i : Nat) (x : LaneStream) : (s.setLane i x).tdc = s.tdc := rfl
@[simp] theorem State.setLane_stat (i : Nat) (x : LaneStream) : (s.setLane i x).stat = s.stat := rfl
@[simp] theorem State.setLane_dict (i : Nat) (x : LaneStream) : (s.setLane i x).dict = s.dict := rfl
@[simp] theorem State.setLane_pantry (i : Nat) (x : LaneStream) : (s.setLane i x).pantry = s.pantry := rfl
@[simp] theorem State.setLane_steward (i : Nat) (x : LaneStream) : (s.setLane i x).steward = s.steward := rfl
@[simp] theorem State.setLane_life (i : Nat) (x : LaneStream) : (s.setLane i x).life = s.life := rfl
@[simp] theorem State.setLane_power (i : Nat) (x : LaneStream) : (s.setLane i x).power = s.power := rfl
@[simp] theorem State.setLane_slots (i : Nat) (x : LaneStream) : (s.setLane i x).slots = s.slots := rfl
@[simp] theorem State.setLane_link (i : Nat) (x : LaneStream) : (s.setLane i x).link = s.link := rfl
@[simp] theorem State.setLane_chan (i : Nat) (x : LaneStream) : (s.setLane i x).chan = s.chan := rfl
@[simp] theorem State.setLane_line (i : Nat) (x : LaneStream) : (s.setLane i x).line = s.line := rfl
@[simp] theorem State.setLane_pat (i : Nat) (x : LaneStream) : (s.setLane i x).pat = s.pat := rfl
@[simp] theorem State.setLane_trig (i : Nat) (x : LaneStream) : (s.setLane i x).trig = s.trig := rfl
@[simp] theorem State.setLane_weir (i : Nat) (x : LaneStream) : (s.setLane i x).weir = s.weir := rfl
@[simp] theorem State.setLane_trigLog (i : Nat) (x : LaneStream) : (s.setLane i x).trigLog = s.trigLog := rfl
@[simp] theorem State.setLane_engine (i : Nat) (x : LaneStream) : (s.setLane i x).engine = s.engine := rfl
@[simp] theorem State.setLane_ring (i : Nat) (x : LaneStream) : (s.setLane i x).ring = s.ring := rfl
@[simp] theorem State.setLane_pipe (i : Nat) (x : LaneStream) : (s.setLane i x).pipe = s.pipe := rfl
@[simp] theorem State.setLane_map (i : Nat) (x : LaneStream) : (s.setLane i x).map = s.map := rfl
@[simp] theorem State.setLane_hbm (i : Nat) (x : LaneStream) : (s.setLane i x).hbm = s.hbm := rfl
@[simp] theorem State.setLane_pool (i : Nat) (x : LaneStream) : (s.setLane i x).pool = s.pool := rfl
@[simp] theorem State.setLane_bank (i : Nat) (x : LaneStream) : (s.setLane i x).bank = s.bank := rfl
@[simp] theorem State.setLane_pc (i : Nat) (x : LaneStream) : (s.setLane i x).pc = s.pc := rfl
@[simp] theorem State.setLane_tolerance (i : Nat) (x : LaneStream) : (s.setLane i x).tolerance = s.tolerance := rfl
@[simp] theorem State.setLane_disp (i : Nat) (x : LaneStream) : (s.setLane i x).disp = s.disp := rfl
@[simp] theorem State.setLane_xfer (i : Nat) (x : LaneStream) : (s.setLane i x).xfer = s.xfer := rfl
@[simp] theorem State.setLane_stream (i : Nat) (x : LaneStream) : (s.setLane i x).stream = s.stream := rfl
@[simp] theorem State.setLane_host (i : Nat) (x : LaneStream) : (s.setLane i x).host = s.host := rfl
@[simp] theorem State.setLane_drive (i : Nat) (x : LaneStream) : (s.setLane i x).drive = s.drive := rfl
@[simp] theorem State.setLane_store (i : Nat) (x : LaneStream) : (s.setLane i x).store = s.store := rfl
@[simp] theorem State.setLane_join (i : Nat) (x : LaneStream) : (s.setLane i x).join = s.join := rfl
@[simp] theorem State.setLane_posn (i : Nat) (x : LaneStream) : (s.setLane i x).posn = s.posn := rfl
@[simp] theorem State.setLane_arr (i : Nat) (x : LaneStream) : (s.setLane i x).arr = s.arr := rfl
@[simp] theorem State.setLane_hk (i : Nat) (x : LaneStream) : (s.setLane i x).hk = s.hk := rfl
@[simp] theorem State.setLane_cal (i : Nat) (x : LaneStream) : (s.setLane i x).cal = s.cal := rfl
@[simp] theorem State.setLane_tap (i : Nat) (x : LaneStream) : (s.setLane i x).tap = s.tap := rfl
@[simp] theorem State.setLane_scan (i : Nat) (x : LaneStream) : (s.setLane i x).scan = s.scan := rfl
@[simp] theorem State.setClkOut_pending (i : Nat) (x : ClkOut) : (s.setClkOut i x).pending = s.pending := rfl
@[simp] theorem State.setClkOut_now (i : Nat) (x : ClkOut) : (s.setClkOut i x).now = s.now := rfl
@[simp] theorem State.setClkOut_out (i : Nat) (x : ClkOut) : (s.setClkOut i x).out = s.out := rfl
@[simp] theorem State.setClkOut_fresh (i : Nat) (x : ClkOut) : (s.setClkOut i x).fresh = s.fresh := rfl
@[simp] theorem State.setClkOut_regs (i : Nat) (x : ClkOut) : (s.setClkOut i x).regs = s.regs := rfl
@[simp] theorem State.setClkOut_doms (i : Nat) (x : ClkOut) : (s.setClkOut i x).doms = s.doms := rfl
@[simp] theorem State.setClkOut_time (i : Nat) (x : ClkOut) : (s.setClkOut i x).time = s.time := rfl
@[simp] theorem State.setClkOut_syn (i : Nat) (x : ClkOut) : (s.setClkOut i x).syn = s.syn := rfl
@[simp] theorem State.setClkOut_tdc (i : Nat) (x : ClkOut) : (s.setClkOut i x).tdc = s.tdc := rfl
@[simp] theorem State.setClkOut_stat (i : Nat) (x : ClkOut) : (s.setClkOut i x).stat = s.stat := rfl
@[simp] theorem State.setClkOut_dict (i : Nat) (x : ClkOut) : (s.setClkOut i x).dict = s.dict := rfl
@[simp] theorem State.setClkOut_pantry (i : Nat) (x : ClkOut) : (s.setClkOut i x).pantry = s.pantry := rfl
@[simp] theorem State.setClkOut_steward (i : Nat) (x : ClkOut) : (s.setClkOut i x).steward = s.steward := rfl
@[simp] theorem State.setClkOut_life (i : Nat) (x : ClkOut) : (s.setClkOut i x).life = s.life := rfl
@[simp] theorem State.setClkOut_power (i : Nat) (x : ClkOut) : (s.setClkOut i x).power = s.power := rfl
@[simp] theorem State.setClkOut_slots (i : Nat) (x : ClkOut) : (s.setClkOut i x).slots = s.slots := rfl
@[simp] theorem State.setClkOut_link (i : Nat) (x : ClkOut) : (s.setClkOut i x).link = s.link := rfl
@[simp] theorem State.setClkOut_chan (i : Nat) (x : ClkOut) : (s.setClkOut i x).chan = s.chan := rfl
@[simp] theorem State.setClkOut_line (i : Nat) (x : ClkOut) : (s.setClkOut i x).line = s.line := rfl
@[simp] theorem State.setClkOut_pat (i : Nat) (x : ClkOut) : (s.setClkOut i x).pat = s.pat := rfl
@[simp] theorem State.setClkOut_trig (i : Nat) (x : ClkOut) : (s.setClkOut i x).trig = s.trig := rfl
@[simp] theorem State.setClkOut_lane (i : Nat) (x : ClkOut) : (s.setClkOut i x).lane = s.lane := rfl
@[simp] theorem State.setClkOut_weir (i : Nat) (x : ClkOut) : (s.setClkOut i x).weir = s.weir := rfl
@[simp] theorem State.setClkOut_trigLog (i : Nat) (x : ClkOut) : (s.setClkOut i x).trigLog = s.trigLog := rfl
@[simp] theorem State.setClkOut_engine (i : Nat) (x : ClkOut) : (s.setClkOut i x).engine = s.engine := rfl
@[simp] theorem State.setClkOut_ring (i : Nat) (x : ClkOut) : (s.setClkOut i x).ring = s.ring := rfl
@[simp] theorem State.setClkOut_pipe (i : Nat) (x : ClkOut) : (s.setClkOut i x).pipe = s.pipe := rfl
@[simp] theorem State.setClkOut_map (i : Nat) (x : ClkOut) : (s.setClkOut i x).map = s.map := rfl
@[simp] theorem State.setClkOut_hbm (i : Nat) (x : ClkOut) : (s.setClkOut i x).hbm = s.hbm := rfl
@[simp] theorem State.setClkOut_pool (i : Nat) (x : ClkOut) : (s.setClkOut i x).pool = s.pool := rfl
@[simp] theorem State.setClkOut_bank (i : Nat) (x : ClkOut) : (s.setClkOut i x).bank = s.bank := rfl
@[simp] theorem State.setClkOut_pc (i : Nat) (x : ClkOut) : (s.setClkOut i x).pc = s.pc := rfl
@[simp] theorem State.setClkOut_tolerance (i : Nat) (x : ClkOut) : (s.setClkOut i x).tolerance = s.tolerance := rfl
@[simp] theorem State.setClkOut_disp (i : Nat) (x : ClkOut) : (s.setClkOut i x).disp = s.disp := rfl
@[simp] theorem State.setClkOut_xfer (i : Nat) (x : ClkOut) : (s.setClkOut i x).xfer = s.xfer := rfl
@[simp] theorem State.setClkOut_stream (i : Nat) (x : ClkOut) : (s.setClkOut i x).stream = s.stream := rfl
@[simp] theorem State.setClkOut_host (i : Nat) (x : ClkOut) : (s.setClkOut i x).host = s.host := rfl
@[simp] theorem State.setClkOut_drive (i : Nat) (x : ClkOut) : (s.setClkOut i x).drive = s.drive := rfl
@[simp] theorem State.setClkOut_store (i : Nat) (x : ClkOut) : (s.setClkOut i x).store = s.store := rfl
@[simp] theorem State.setClkOut_join (i : Nat) (x : ClkOut) : (s.setClkOut i x).join = s.join := rfl
@[simp] theorem State.setClkOut_posn (i : Nat) (x : ClkOut) : (s.setClkOut i x).posn = s.posn := rfl
@[simp] theorem State.setClkOut_arr (i : Nat) (x : ClkOut) : (s.setClkOut i x).arr = s.arr := rfl
@[simp] theorem State.setClkOut_hk (i : Nat) (x : ClkOut) : (s.setClkOut i x).hk = s.hk := rfl
@[simp] theorem State.setClkOut_cal (i : Nat) (x : ClkOut) : (s.setClkOut i x).cal = s.cal := rfl
@[simp] theorem State.setClkOut_tap (i : Nat) (x : ClkOut) : (s.setClkOut i x).tap = s.tap := rfl
@[simp] theorem State.setClkOut_scan (i : Nat) (x : ClkOut) : (s.setClkOut i x).scan = s.scan := rfl
@[simp] theorem State.setStat_pending (u : Nat) (x : StatState) : (s.setStat u x).pending = s.pending := rfl
@[simp] theorem State.setStat_now (u : Nat) (x : StatState) : (s.setStat u x).now = s.now := rfl
@[simp] theorem State.setStat_out (u : Nat) (x : StatState) : (s.setStat u x).out = s.out := rfl
@[simp] theorem State.setStat_fresh (u : Nat) (x : StatState) : (s.setStat u x).fresh = s.fresh := rfl
@[simp] theorem State.setStat_regs (u : Nat) (x : StatState) : (s.setStat u x).regs = s.regs := rfl
@[simp] theorem State.setStat_doms (u : Nat) (x : StatState) : (s.setStat u x).doms = s.doms := rfl
@[simp] theorem State.setStat_time (u : Nat) (x : StatState) : (s.setStat u x).time = s.time := rfl
@[simp] theorem State.setStat_syn (u : Nat) (x : StatState) : (s.setStat u x).syn = s.syn := rfl
@[simp] theorem State.setStat_clk (u : Nat) (x : StatState) : (s.setStat u x).clk = s.clk := rfl
@[simp] theorem State.setStat_tdc (u : Nat) (x : StatState) : (s.setStat u x).tdc = s.tdc := rfl
@[simp] theorem State.setStat_dict (u : Nat) (x : StatState) : (s.setStat u x).dict = s.dict := rfl
@[simp] theorem State.setStat_pantry (u : Nat) (x : StatState) : (s.setStat u x).pantry = s.pantry := rfl
@[simp] theorem State.setStat_steward (u : Nat) (x : StatState) : (s.setStat u x).steward = s.steward := rfl
@[simp] theorem State.setStat_life (u : Nat) (x : StatState) : (s.setStat u x).life = s.life := rfl
@[simp] theorem State.setStat_power (u : Nat) (x : StatState) : (s.setStat u x).power = s.power := rfl
@[simp] theorem State.setStat_slots (u : Nat) (x : StatState) : (s.setStat u x).slots = s.slots := rfl
@[simp] theorem State.setStat_link (u : Nat) (x : StatState) : (s.setStat u x).link = s.link := rfl
@[simp] theorem State.setStat_chan (u : Nat) (x : StatState) : (s.setStat u x).chan = s.chan := rfl
@[simp] theorem State.setStat_line (u : Nat) (x : StatState) : (s.setStat u x).line = s.line := rfl
@[simp] theorem State.setStat_pat (u : Nat) (x : StatState) : (s.setStat u x).pat = s.pat := rfl
@[simp] theorem State.setStat_trig (u : Nat) (x : StatState) : (s.setStat u x).trig = s.trig := rfl
@[simp] theorem State.setStat_lane (u : Nat) (x : StatState) : (s.setStat u x).lane = s.lane := rfl
@[simp] theorem State.setStat_weir (u : Nat) (x : StatState) : (s.setStat u x).weir = s.weir := rfl
@[simp] theorem State.setStat_trigLog (u : Nat) (x : StatState) : (s.setStat u x).trigLog = s.trigLog := rfl
@[simp] theorem State.setStat_engine (u : Nat) (x : StatState) : (s.setStat u x).engine = s.engine := rfl
@[simp] theorem State.setStat_ring (u : Nat) (x : StatState) : (s.setStat u x).ring = s.ring := rfl
@[simp] theorem State.setStat_pipe (u : Nat) (x : StatState) : (s.setStat u x).pipe = s.pipe := rfl
@[simp] theorem State.setStat_map (u : Nat) (x : StatState) : (s.setStat u x).map = s.map := rfl
@[simp] theorem State.setStat_hbm (u : Nat) (x : StatState) : (s.setStat u x).hbm = s.hbm := rfl
@[simp] theorem State.setStat_pool (u : Nat) (x : StatState) : (s.setStat u x).pool = s.pool := rfl
@[simp] theorem State.setStat_bank (u : Nat) (x : StatState) : (s.setStat u x).bank = s.bank := rfl
@[simp] theorem State.setStat_pc (u : Nat) (x : StatState) : (s.setStat u x).pc = s.pc := rfl
@[simp] theorem State.setStat_tolerance (u : Nat) (x : StatState) : (s.setStat u x).tolerance = s.tolerance := rfl
@[simp] theorem State.setStat_disp (u : Nat) (x : StatState) : (s.setStat u x).disp = s.disp := rfl
@[simp] theorem State.setStat_xfer (u : Nat) (x : StatState) : (s.setStat u x).xfer = s.xfer := rfl
@[simp] theorem State.setStat_stream (u : Nat) (x : StatState) : (s.setStat u x).stream = s.stream := rfl
@[simp] theorem State.setStat_host (u : Nat) (x : StatState) : (s.setStat u x).host = s.host := rfl
@[simp] theorem State.setStat_drive (u : Nat) (x : StatState) : (s.setStat u x).drive = s.drive := rfl
@[simp] theorem State.setStat_store (u : Nat) (x : StatState) : (s.setStat u x).store = s.store := rfl
@[simp] theorem State.setStat_join (u : Nat) (x : StatState) : (s.setStat u x).join = s.join := rfl
@[simp] theorem State.setStat_posn (u : Nat) (x : StatState) : (s.setStat u x).posn = s.posn := rfl
@[simp] theorem State.setStat_arr (u : Nat) (x : StatState) : (s.setStat u x).arr = s.arr := rfl
@[simp] theorem State.setStat_hk (u : Nat) (x : StatState) : (s.setStat u x).hk = s.hk := rfl
@[simp] theorem State.setStat_cal (u : Nat) (x : StatState) : (s.setStat u x).cal = s.cal := rfl
@[simp] theorem State.setStat_tap (u : Nat) (x : StatState) : (s.setStat u x).tap = s.tap := rfl
@[simp] theorem State.setStat_scan (u : Nat) (x : StatState) : (s.setStat u x).scan = s.scan := rfl
@[simp] theorem State.setWeir_pending (n w k : Nat) (x : WeirState) : (s.setWeir n w k x).pending = s.pending := rfl
@[simp] theorem State.setWeir_now (n w k : Nat) (x : WeirState) : (s.setWeir n w k x).now = s.now := rfl
@[simp] theorem State.setWeir_out (n w k : Nat) (x : WeirState) : (s.setWeir n w k x).out = s.out := rfl
@[simp] theorem State.setWeir_fresh (n w k : Nat) (x : WeirState) : (s.setWeir n w k x).fresh = s.fresh := rfl
@[simp] theorem State.setWeir_regs (n w k : Nat) (x : WeirState) : (s.setWeir n w k x).regs = s.regs := rfl
@[simp] theorem State.setWeir_doms (n w k : Nat) (x : WeirState) : (s.setWeir n w k x).doms = s.doms := rfl
@[simp] theorem State.setWeir_time (n w k : Nat) (x : WeirState) : (s.setWeir n w k x).time = s.time := rfl
@[simp] theorem State.setWeir_syn (n w k : Nat) (x : WeirState) : (s.setWeir n w k x).syn = s.syn := rfl
@[simp] theorem State.setWeir_clk (n w k : Nat) (x : WeirState) : (s.setWeir n w k x).clk = s.clk := rfl
@[simp] theorem State.setWeir_tdc (n w k : Nat) (x : WeirState) : (s.setWeir n w k x).tdc = s.tdc := rfl
@[simp] theorem State.setWeir_stat (n w k : Nat) (x : WeirState) : (s.setWeir n w k x).stat = s.stat := rfl
@[simp] theorem State.setWeir_dict (n w k : Nat) (x : WeirState) : (s.setWeir n w k x).dict = s.dict := rfl
@[simp] theorem State.setWeir_pantry (n w k : Nat) (x : WeirState) : (s.setWeir n w k x).pantry = s.pantry := rfl
@[simp] theorem State.setWeir_steward (n w k : Nat) (x : WeirState) : (s.setWeir n w k x).steward = s.steward := rfl
@[simp] theorem State.setWeir_life (n w k : Nat) (x : WeirState) : (s.setWeir n w k x).life = s.life := rfl
@[simp] theorem State.setWeir_power (n w k : Nat) (x : WeirState) : (s.setWeir n w k x).power = s.power := rfl
@[simp] theorem State.setWeir_slots (n w k : Nat) (x : WeirState) : (s.setWeir n w k x).slots = s.slots := rfl
@[simp] theorem State.setWeir_link (n w k : Nat) (x : WeirState) : (s.setWeir n w k x).link = s.link := rfl
@[simp] theorem State.setWeir_chan (n w k : Nat) (x : WeirState) : (s.setWeir n w k x).chan = s.chan := rfl
@[simp] theorem State.setWeir_line (n w k : Nat) (x : WeirState) : (s.setWeir n w k x).line = s.line := rfl
@[simp] theorem State.setWeir_pat (n w k : Nat) (x : WeirState) : (s.setWeir n w k x).pat = s.pat := rfl
@[simp] theorem State.setWeir_trig (n w k : Nat) (x : WeirState) : (s.setWeir n w k x).trig = s.trig := rfl
@[simp] theorem State.setWeir_lane (n w k : Nat) (x : WeirState) : (s.setWeir n w k x).lane = s.lane := rfl
@[simp] theorem State.setWeir_trigLog (n w k : Nat) (x : WeirState) : (s.setWeir n w k x).trigLog = s.trigLog := rfl
@[simp] theorem State.setWeir_engine (n w k : Nat) (x : WeirState) : (s.setWeir n w k x).engine = s.engine := rfl
@[simp] theorem State.setWeir_ring (n w k : Nat) (x : WeirState) : (s.setWeir n w k x).ring = s.ring := rfl
@[simp] theorem State.setWeir_pipe (n w k : Nat) (x : WeirState) : (s.setWeir n w k x).pipe = s.pipe := rfl
@[simp] theorem State.setWeir_map (n w k : Nat) (x : WeirState) : (s.setWeir n w k x).map = s.map := rfl
@[simp] theorem State.setWeir_hbm (n w k : Nat) (x : WeirState) : (s.setWeir n w k x).hbm = s.hbm := rfl
@[simp] theorem State.setWeir_pool (n w k : Nat) (x : WeirState) : (s.setWeir n w k x).pool = s.pool := rfl
@[simp] theorem State.setWeir_bank (n w k : Nat) (x : WeirState) : (s.setWeir n w k x).bank = s.bank := rfl
@[simp] theorem State.setWeir_pc (n w k : Nat) (x : WeirState) : (s.setWeir n w k x).pc = s.pc := rfl
@[simp] theorem State.setWeir_tolerance (n w k : Nat) (x : WeirState) : (s.setWeir n w k x).tolerance = s.tolerance := rfl
@[simp] theorem State.setWeir_disp (n w k : Nat) (x : WeirState) : (s.setWeir n w k x).disp = s.disp := rfl
@[simp] theorem State.setWeir_xfer (n w k : Nat) (x : WeirState) : (s.setWeir n w k x).xfer = s.xfer := rfl
@[simp] theorem State.setWeir_stream (n w k : Nat) (x : WeirState) : (s.setWeir n w k x).stream = s.stream := rfl
@[simp] theorem State.setWeir_host (n w k : Nat) (x : WeirState) : (s.setWeir n w k x).host = s.host := rfl
@[simp] theorem State.setWeir_drive (n w k : Nat) (x : WeirState) : (s.setWeir n w k x).drive = s.drive := rfl
@[simp] theorem State.setWeir_store (n w k : Nat) (x : WeirState) : (s.setWeir n w k x).store = s.store := rfl
@[simp] theorem State.setWeir_join (n w k : Nat) (x : WeirState) : (s.setWeir n w k x).join = s.join := rfl
@[simp] theorem State.setWeir_posn (n w k : Nat) (x : WeirState) : (s.setWeir n w k x).posn = s.posn := rfl
@[simp] theorem State.setWeir_arr (n w k : Nat) (x : WeirState) : (s.setWeir n w k x).arr = s.arr := rfl
@[simp] theorem State.setWeir_hk (n w k : Nat) (x : WeirState) : (s.setWeir n w k x).hk = s.hk := rfl
@[simp] theorem State.setWeir_cal (n w k : Nat) (x : WeirState) : (s.setWeir n w k x).cal = s.cal := rfl
@[simp] theorem State.setWeir_tap (n w k : Nat) (x : WeirState) : (s.setWeir n w k x).tap = s.tap := rfl
@[simp] theorem State.setWeir_scan (n w k : Nat) (x : WeirState) : (s.setWeir n w k x).scan = s.scan := rfl
@[simp] theorem State.bumpBy_pending (k n : Nat) : (s.bumpBy k n).pending = s.pending := by unfold State.bumpBy; split <;> rfl
@[simp] theorem State.bumpBy_now (k n : Nat) : (s.bumpBy k n).now = s.now := by unfold State.bumpBy; split <;> rfl
@[simp] theorem State.bumpBy_out (k n : Nat) : (s.bumpBy k n).out = s.out := by unfold State.bumpBy; split <;> rfl
@[simp] theorem State.bumpBy_fresh (k n : Nat) : (s.bumpBy k n).fresh = s.fresh := by unfold State.bumpBy; split <;> rfl
@[simp] theorem State.bumpBy_doms (k n : Nat) : (s.bumpBy k n).doms = s.doms := by unfold State.bumpBy; split <;> rfl
@[simp] theorem State.bumpBy_time (k n : Nat) : (s.bumpBy k n).time = s.time := by unfold State.bumpBy; split <;> rfl
@[simp] theorem State.bumpBy_syn (k n : Nat) : (s.bumpBy k n).syn = s.syn := by unfold State.bumpBy; split <;> rfl
@[simp] theorem State.bumpBy_clk (k n : Nat) : (s.bumpBy k n).clk = s.clk := by unfold State.bumpBy; split <;> rfl
@[simp] theorem State.bumpBy_tdc (k n : Nat) : (s.bumpBy k n).tdc = s.tdc := by unfold State.bumpBy; split <;> rfl
@[simp] theorem State.bumpBy_stat (k n : Nat) : (s.bumpBy k n).stat = s.stat := by unfold State.bumpBy; split <;> rfl
@[simp] theorem State.bumpBy_dict (k n : Nat) : (s.bumpBy k n).dict = s.dict := by unfold State.bumpBy; split <;> rfl
@[simp] theorem State.bumpBy_pantry (k n : Nat) : (s.bumpBy k n).pantry = s.pantry := by unfold State.bumpBy; split <;> rfl
@[simp] theorem State.bumpBy_steward (k n : Nat) : (s.bumpBy k n).steward = s.steward := by unfold State.bumpBy; split <;> rfl
@[simp] theorem State.bumpBy_life (k n : Nat) : (s.bumpBy k n).life = s.life := by unfold State.bumpBy; split <;> rfl
@[simp] theorem State.bumpBy_power (k n : Nat) : (s.bumpBy k n).power = s.power := by unfold State.bumpBy; split <;> rfl
@[simp] theorem State.bumpBy_slots (k n : Nat) : (s.bumpBy k n).slots = s.slots := by unfold State.bumpBy; split <;> rfl
@[simp] theorem State.bumpBy_link (k n : Nat) : (s.bumpBy k n).link = s.link := by unfold State.bumpBy; split <;> rfl
@[simp] theorem State.bumpBy_chan (k n : Nat) : (s.bumpBy k n).chan = s.chan := by unfold State.bumpBy; split <;> rfl
@[simp] theorem State.bumpBy_line (k n : Nat) : (s.bumpBy k n).line = s.line := by unfold State.bumpBy; split <;> rfl
@[simp] theorem State.bumpBy_pat (k n : Nat) : (s.bumpBy k n).pat = s.pat := by unfold State.bumpBy; split <;> rfl
@[simp] theorem State.bumpBy_trig (k n : Nat) : (s.bumpBy k n).trig = s.trig := by unfold State.bumpBy; split <;> rfl
@[simp] theorem State.bumpBy_lane (k n : Nat) : (s.bumpBy k n).lane = s.lane := by unfold State.bumpBy; split <;> rfl
@[simp] theorem State.bumpBy_weir (k n : Nat) : (s.bumpBy k n).weir = s.weir := by unfold State.bumpBy; split <;> rfl
@[simp] theorem State.bumpBy_trigLog (k n : Nat) : (s.bumpBy k n).trigLog = s.trigLog := by unfold State.bumpBy; split <;> rfl
@[simp] theorem State.bumpBy_engine (k n : Nat) : (s.bumpBy k n).engine = s.engine := by unfold State.bumpBy; split <;> rfl
@[simp] theorem State.bumpBy_ring (k n : Nat) : (s.bumpBy k n).ring = s.ring := by unfold State.bumpBy; split <;> rfl
@[simp] theorem State.bumpBy_pipe (k n : Nat) : (s.bumpBy k n).pipe = s.pipe := by unfold State.bumpBy; split <;> rfl
@[simp] theorem State.bumpBy_map (k n : Nat) : (s.bumpBy k n).map = s.map := by unfold State.bumpBy; split <;> rfl
@[simp] theorem State.bumpBy_hbm (k n : Nat) : (s.bumpBy k n).hbm = s.hbm := by unfold State.bumpBy; split <;> rfl
@[simp] theorem State.bumpBy_pool (k n : Nat) : (s.bumpBy k n).pool = s.pool := by unfold State.bumpBy; split <;> rfl
@[simp] theorem State.bumpBy_bank (k n : Nat) : (s.bumpBy k n).bank = s.bank := by unfold State.bumpBy; split <;> rfl
@[simp] theorem State.bumpBy_pc (k n : Nat) : (s.bumpBy k n).pc = s.pc := by unfold State.bumpBy; split <;> rfl
@[simp] theorem State.bumpBy_tolerance (k n : Nat) : (s.bumpBy k n).tolerance = s.tolerance := by unfold State.bumpBy; split <;> rfl
@[simp] theorem State.bumpBy_disp (k n : Nat) : (s.bumpBy k n).disp = s.disp := by unfold State.bumpBy; split <;> rfl
@[simp] theorem State.bumpBy_xfer (k n : Nat) : (s.bumpBy k n).xfer = s.xfer := by unfold State.bumpBy; split <;> rfl
@[simp] theorem State.bumpBy_stream (k n : Nat) : (s.bumpBy k n).stream = s.stream := by unfold State.bumpBy; split <;> rfl
@[simp] theorem State.bumpBy_host (k n : Nat) : (s.bumpBy k n).host = s.host := by unfold State.bumpBy; split <;> rfl
@[simp] theorem State.bumpBy_drive (k n : Nat) : (s.bumpBy k n).drive = s.drive := by unfold State.bumpBy; split <;> rfl
@[simp] theorem State.bumpBy_store (k n : Nat) : (s.bumpBy k n).store = s.store := by unfold State.bumpBy; split <;> rfl
@[simp] theorem State.bumpBy_join (k n : Nat) : (s.bumpBy k n).join = s.join := by unfold State.bumpBy; split <;> rfl
@[simp] theorem State.bumpBy_posn (k n : Nat) : (s.bumpBy k n).posn = s.posn := by unfold State.bumpBy; split <;> rfl
@[simp] theorem State.bumpBy_arr (k n : Nat) : (s.bumpBy k n).arr = s.arr := by unfold State.bumpBy; split <;> rfl
@[simp] theorem State.bumpBy_hk (k n : Nat) : (s.bumpBy k n).hk = s.hk := by unfold State.bumpBy; split <;> rfl
@[simp] theorem State.bumpBy_cal (k n : Nat) : (s.bumpBy k n).cal = s.cal := by unfold State.bumpBy; split <;> rfl
@[simp] theorem State.bumpBy_tap (k n : Nat) : (s.bumpBy k n).tap = s.tap := by unfold State.bumpBy; split <;> rfl
@[simp] theorem State.bumpBy_scan (k n : Nat) : (s.bumpBy k n).scan = s.scan := by unfold State.bumpBy; split <;> rfl
@[simp] theorem State.msix_pending (v : Nat) : (s.msix v).pending = s.pending := by unfold State.msix; split <;> rfl
@[simp] theorem State.msix_now (v : Nat) : (s.msix v).now = s.now := by unfold State.msix; split <;> rfl
@[simp] theorem State.msix_fresh (v : Nat) : (s.msix v).fresh = s.fresh := by unfold State.msix; split <;> rfl
@[simp] theorem State.msix_regs (v : Nat) : (s.msix v).regs = s.regs := by unfold State.msix; split <;> rfl
@[simp] theorem State.msix_doms (v : Nat) : (s.msix v).doms = s.doms := by unfold State.msix; split <;> rfl
@[simp] theorem State.msix_time (v : Nat) : (s.msix v).time = s.time := by unfold State.msix; split <;> rfl
@[simp] theorem State.msix_syn (v : Nat) : (s.msix v).syn = s.syn := by unfold State.msix; split <;> rfl
@[simp] theorem State.msix_clk (v : Nat) : (s.msix v).clk = s.clk := by unfold State.msix; split <;> rfl
@[simp] theorem State.msix_tdc (v : Nat) : (s.msix v).tdc = s.tdc := by unfold State.msix; split <;> rfl
@[simp] theorem State.msix_stat (v : Nat) : (s.msix v).stat = s.stat := by unfold State.msix; split <;> rfl
@[simp] theorem State.msix_dict (v : Nat) : (s.msix v).dict = s.dict := by unfold State.msix; split <;> rfl
@[simp] theorem State.msix_pantry (v : Nat) : (s.msix v).pantry = s.pantry := by unfold State.msix; split <;> rfl
@[simp] theorem State.msix_steward (v : Nat) : (s.msix v).steward = s.steward := by unfold State.msix; split <;> rfl
@[simp] theorem State.msix_life (v : Nat) : (s.msix v).life = s.life := by unfold State.msix; split <;> rfl
@[simp] theorem State.msix_power (v : Nat) : (s.msix v).power = s.power := by unfold State.msix; split <;> rfl
@[simp] theorem State.msix_slots (v : Nat) : (s.msix v).slots = s.slots := by unfold State.msix; split <;> rfl
@[simp] theorem State.msix_link (v : Nat) : (s.msix v).link = s.link := by unfold State.msix; split <;> rfl
@[simp] theorem State.msix_chan (v : Nat) : (s.msix v).chan = s.chan := by unfold State.msix; split <;> rfl
@[simp] theorem State.msix_line (v : Nat) : (s.msix v).line = s.line := by unfold State.msix; split <;> rfl
@[simp] theorem State.msix_pat (v : Nat) : (s.msix v).pat = s.pat := by unfold State.msix; split <;> rfl
@[simp] theorem State.msix_trig (v : Nat) : (s.msix v).trig = s.trig := by unfold State.msix; split <;> rfl
@[simp] theorem State.msix_lane (v : Nat) : (s.msix v).lane = s.lane := by unfold State.msix; split <;> rfl
@[simp] theorem State.msix_weir (v : Nat) : (s.msix v).weir = s.weir := by unfold State.msix; split <;> rfl
@[simp] theorem State.msix_trigLog (v : Nat) : (s.msix v).trigLog = s.trigLog := by unfold State.msix; split <;> rfl
@[simp] theorem State.msix_engine (v : Nat) : (s.msix v).engine = s.engine := by unfold State.msix; split <;> rfl
@[simp] theorem State.msix_ring (v : Nat) : (s.msix v).ring = s.ring := by unfold State.msix; split <;> rfl
@[simp] theorem State.msix_pipe (v : Nat) : (s.msix v).pipe = s.pipe := by unfold State.msix; split <;> rfl
@[simp] theorem State.msix_map (v : Nat) : (s.msix v).map = s.map := by unfold State.msix; split <;> rfl
@[simp] theorem State.msix_hbm (v : Nat) : (s.msix v).hbm = s.hbm := by unfold State.msix; split <;> rfl
@[simp] theorem State.msix_pool (v : Nat) : (s.msix v).pool = s.pool := by unfold State.msix; split <;> rfl
@[simp] theorem State.msix_bank (v : Nat) : (s.msix v).bank = s.bank := by unfold State.msix; split <;> rfl
@[simp] theorem State.msix_pc (v : Nat) : (s.msix v).pc = s.pc := by unfold State.msix; split <;> rfl
@[simp] theorem State.msix_tolerance (v : Nat) : (s.msix v).tolerance = s.tolerance := by unfold State.msix; split <;> rfl
@[simp] theorem State.msix_disp (v : Nat) : (s.msix v).disp = s.disp := by unfold State.msix; split <;> rfl
@[simp] theorem State.msix_xfer (v : Nat) : (s.msix v).xfer = s.xfer := by unfold State.msix; split <;> rfl
@[simp] theorem State.msix_stream (v : Nat) : (s.msix v).stream = s.stream := by unfold State.msix; split <;> rfl
@[simp] theorem State.msix_host (v : Nat) : (s.msix v).host = s.host := by unfold State.msix; split <;> rfl
@[simp] theorem State.msix_drive (v : Nat) : (s.msix v).drive = s.drive := by unfold State.msix; split <;> rfl
@[simp] theorem State.msix_store (v : Nat) : (s.msix v).store = s.store := by unfold State.msix; split <;> rfl
@[simp] theorem State.msix_join (v : Nat) : (s.msix v).join = s.join := by unfold State.msix; split <;> rfl
@[simp] theorem State.msix_posn (v : Nat) : (s.msix v).posn = s.posn := by unfold State.msix; split <;> rfl
@[simp] theorem State.msix_arr (v : Nat) : (s.msix v).arr = s.arr := by unfold State.msix; split <;> rfl
@[simp] theorem State.msix_hk (v : Nat) : (s.msix v).hk = s.hk := by unfold State.msix; split <;> rfl
@[simp] theorem State.msix_cal (v : Nat) : (s.msix v).cal = s.cal := by unfold State.msix; split <;> rfl
@[simp] theorem State.msix_tap (v : Nat) : (s.msix v).tap = s.tap := by unfold State.msix; split <;> rfl
@[simp] theorem State.msix_scan (v : Nat) : (s.msix v).scan = s.scan := by unfold State.msix; split <;> rfl
@[simp] theorem State.noted_pending (k : Nat) : (s.noted k).pending = s.pending := by unfold State.noted; split <;> rfl
@[simp] theorem State.noted_now (k : Nat) : (s.noted k).now = s.now := by unfold State.noted; split <;> rfl
@[simp] theorem State.noted_out (k : Nat) : (s.noted k).out = s.out := by unfold State.noted; split <;> rfl
@[simp] theorem State.noted_fresh (k : Nat) : (s.noted k).fresh = s.fresh := by unfold State.noted; split <;> rfl
@[simp] theorem State.noted_regs (k : Nat) : (s.noted k).regs = s.regs := by unfold State.noted; split <;> rfl
@[simp] theorem State.noted_doms (k : Nat) : (s.noted k).doms = s.doms := by unfold State.noted; split <;> rfl
@[simp] theorem State.noted_time (k : Nat) : (s.noted k).time = s.time := by unfold State.noted; split <;> rfl
@[simp] theorem State.noted_syn (k : Nat) : (s.noted k).syn = s.syn := by unfold State.noted; split <;> rfl
@[simp] theorem State.noted_clk (k : Nat) : (s.noted k).clk = s.clk := by unfold State.noted; split <;> rfl
@[simp] theorem State.noted_tdc (k : Nat) : (s.noted k).tdc = s.tdc := by unfold State.noted; split <;> rfl
@[simp] theorem State.noted_stat (k : Nat) : (s.noted k).stat = s.stat := by unfold State.noted; split <;> rfl
@[simp] theorem State.noted_pantry (k : Nat) : (s.noted k).pantry = s.pantry := by unfold State.noted; split <;> rfl
@[simp] theorem State.noted_steward (k : Nat) : (s.noted k).steward = s.steward := by unfold State.noted; split <;> rfl
@[simp] theorem State.noted_life (k : Nat) : (s.noted k).life = s.life := by unfold State.noted; split <;> rfl
@[simp] theorem State.noted_power (k : Nat) : (s.noted k).power = s.power := by unfold State.noted; split <;> rfl
@[simp] theorem State.noted_slots (k : Nat) : (s.noted k).slots = s.slots := by unfold State.noted; split <;> rfl
@[simp] theorem State.noted_link (k : Nat) : (s.noted k).link = s.link := by unfold State.noted; split <;> rfl
@[simp] theorem State.noted_chan (k : Nat) : (s.noted k).chan = s.chan := by unfold State.noted; split <;> rfl
@[simp] theorem State.noted_line (k : Nat) : (s.noted k).line = s.line := by unfold State.noted; split <;> rfl
@[simp] theorem State.noted_pat (k : Nat) : (s.noted k).pat = s.pat := by unfold State.noted; split <;> rfl
@[simp] theorem State.noted_trig (k : Nat) : (s.noted k).trig = s.trig := by unfold State.noted; split <;> rfl
@[simp] theorem State.noted_lane (k : Nat) : (s.noted k).lane = s.lane := by unfold State.noted; split <;> rfl
@[simp] theorem State.noted_weir (k : Nat) : (s.noted k).weir = s.weir := by unfold State.noted; split <;> rfl
@[simp] theorem State.noted_trigLog (k : Nat) : (s.noted k).trigLog = s.trigLog := by unfold State.noted; split <;> rfl
@[simp] theorem State.noted_engine (k : Nat) : (s.noted k).engine = s.engine := by unfold State.noted; split <;> rfl
@[simp] theorem State.noted_ring (k : Nat) : (s.noted k).ring = s.ring := by unfold State.noted; split <;> rfl
@[simp] theorem State.noted_pipe (k : Nat) : (s.noted k).pipe = s.pipe := by unfold State.noted; split <;> rfl
@[simp] theorem State.noted_map (k : Nat) : (s.noted k).map = s.map := by unfold State.noted; split <;> rfl
@[simp] theorem State.noted_hbm (k : Nat) : (s.noted k).hbm = s.hbm := by unfold State.noted; split <;> rfl
@[simp] theorem State.noted_pool (k : Nat) : (s.noted k).pool = s.pool := by unfold State.noted; split <;> rfl
@[simp] theorem State.noted_bank (k : Nat) : (s.noted k).bank = s.bank := by unfold State.noted; split <;> rfl
@[simp] theorem State.noted_pc (k : Nat) : (s.noted k).pc = s.pc := by unfold State.noted; split <;> rfl
@[simp] theorem State.noted_tolerance (k : Nat) : (s.noted k).tolerance = s.tolerance := by unfold State.noted; split <;> rfl
@[simp] theorem State.noted_disp (k : Nat) : (s.noted k).disp = s.disp := by unfold State.noted; split <;> rfl
@[simp] theorem State.noted_xfer (k : Nat) : (s.noted k).xfer = s.xfer := by unfold State.noted; split <;> rfl
@[simp] theorem State.noted_stream (k : Nat) : (s.noted k).stream = s.stream := by unfold State.noted; split <;> rfl
@[simp] theorem State.noted_host (k : Nat) : (s.noted k).host = s.host := by unfold State.noted; split <;> rfl
@[simp] theorem State.noted_drive (k : Nat) : (s.noted k).drive = s.drive := by unfold State.noted; split <;> rfl
@[simp] theorem State.noted_store (k : Nat) : (s.noted k).store = s.store := by unfold State.noted; split <;> rfl
@[simp] theorem State.noted_join (k : Nat) : (s.noted k).join = s.join := by unfold State.noted; split <;> rfl
@[simp] theorem State.noted_posn (k : Nat) : (s.noted k).posn = s.posn := by unfold State.noted; split <;> rfl
@[simp] theorem State.noted_arr (k : Nat) : (s.noted k).arr = s.arr := by unfold State.noted; split <;> rfl
@[simp] theorem State.noted_hk (k : Nat) : (s.noted k).hk = s.hk := by unfold State.noted; split <;> rfl
@[simp] theorem State.noted_cal (k : Nat) : (s.noted k).cal = s.cal := by unfold State.noted; split <;> rfl
@[simp] theorem State.noted_tap (k : Nat) : (s.noted k).tap = s.tap := by unfold State.noted; split <;> rfl
@[simp] theorem State.noted_scan (k : Nat) : (s.noted k).scan = s.scan := by unfold State.noted; split <;> rfl
@[simp] theorem State.bump_pending (k : Nat) : (s.bump k).pending = s.pending := State.bumpBy_pending s k 1
@[simp] theorem State.clr_pending (k : Nat) : (s.clr k).pending = s.pending := rfl
@[simp] theorem State.bump_now (k : Nat) : (s.bump k).now = s.now := State.bumpBy_now s k 1
@[simp] theorem State.clr_now (k : Nat) : (s.clr k).now = s.now := rfl
@[simp] theorem State.bump_out (k : Nat) : (s.bump k).out = s.out := State.bumpBy_out s k 1
@[simp] theorem State.clr_out (k : Nat) : (s.clr k).out = s.out := rfl
@[simp] theorem State.bump_fresh (k : Nat) : (s.bump k).fresh = s.fresh := State.bumpBy_fresh s k 1
@[simp] theorem State.clr_fresh (k : Nat) : (s.clr k).fresh = s.fresh := rfl
@[simp] theorem State.bump_doms (k : Nat) : (s.bump k).doms = s.doms := State.bumpBy_doms s k 1
@[simp] theorem State.clr_doms (k : Nat) : (s.clr k).doms = s.doms := rfl
@[simp] theorem State.bump_time (k : Nat) : (s.bump k).time = s.time := State.bumpBy_time s k 1
@[simp] theorem State.clr_time (k : Nat) : (s.clr k).time = s.time := rfl
@[simp] theorem State.bump_syn (k : Nat) : (s.bump k).syn = s.syn := State.bumpBy_syn s k 1
@[simp] theorem State.clr_syn (k : Nat) : (s.clr k).syn = s.syn := rfl
@[simp] theorem State.bump_clk (k : Nat) : (s.bump k).clk = s.clk := State.bumpBy_clk s k 1
@[simp] theorem State.clr_clk (k : Nat) : (s.clr k).clk = s.clk := rfl
@[simp] theorem State.bump_tdc (k : Nat) : (s.bump k).tdc = s.tdc := State.bumpBy_tdc s k 1
@[simp] theorem State.clr_tdc (k : Nat) : (s.clr k).tdc = s.tdc := rfl
@[simp] theorem State.bump_stat (k : Nat) : (s.bump k).stat = s.stat := State.bumpBy_stat s k 1
@[simp] theorem State.clr_stat (k : Nat) : (s.clr k).stat = s.stat := rfl
@[simp] theorem State.bump_dict (k : Nat) : (s.bump k).dict = s.dict := State.bumpBy_dict s k 1
@[simp] theorem State.clr_dict (k : Nat) : (s.clr k).dict = s.dict := rfl
@[simp] theorem State.bump_pantry (k : Nat) : (s.bump k).pantry = s.pantry := State.bumpBy_pantry s k 1
@[simp] theorem State.clr_pantry (k : Nat) : (s.clr k).pantry = s.pantry := rfl
@[simp] theorem State.bump_steward (k : Nat) : (s.bump k).steward = s.steward := State.bumpBy_steward s k 1
@[simp] theorem State.clr_steward (k : Nat) : (s.clr k).steward = s.steward := rfl
@[simp] theorem State.bump_life (k : Nat) : (s.bump k).life = s.life := State.bumpBy_life s k 1
@[simp] theorem State.clr_life (k : Nat) : (s.clr k).life = s.life := rfl
@[simp] theorem State.bump_power (k : Nat) : (s.bump k).power = s.power := State.bumpBy_power s k 1
@[simp] theorem State.clr_power (k : Nat) : (s.clr k).power = s.power := rfl
@[simp] theorem State.bump_slots (k : Nat) : (s.bump k).slots = s.slots := State.bumpBy_slots s k 1
@[simp] theorem State.clr_slots (k : Nat) : (s.clr k).slots = s.slots := rfl
@[simp] theorem State.bump_link (k : Nat) : (s.bump k).link = s.link := State.bumpBy_link s k 1
@[simp] theorem State.clr_link (k : Nat) : (s.clr k).link = s.link := rfl
@[simp] theorem State.bump_chan (k : Nat) : (s.bump k).chan = s.chan := State.bumpBy_chan s k 1
@[simp] theorem State.clr_chan (k : Nat) : (s.clr k).chan = s.chan := rfl
@[simp] theorem State.bump_line (k : Nat) : (s.bump k).line = s.line := State.bumpBy_line s k 1
@[simp] theorem State.clr_line (k : Nat) : (s.clr k).line = s.line := rfl
@[simp] theorem State.bump_pat (k : Nat) : (s.bump k).pat = s.pat := State.bumpBy_pat s k 1
@[simp] theorem State.clr_pat (k : Nat) : (s.clr k).pat = s.pat := rfl
@[simp] theorem State.bump_trig (k : Nat) : (s.bump k).trig = s.trig := State.bumpBy_trig s k 1
@[simp] theorem State.clr_trig (k : Nat) : (s.clr k).trig = s.trig := rfl
@[simp] theorem State.bump_lane (k : Nat) : (s.bump k).lane = s.lane := State.bumpBy_lane s k 1
@[simp] theorem State.clr_lane (k : Nat) : (s.clr k).lane = s.lane := rfl
@[simp] theorem State.bump_weir (k : Nat) : (s.bump k).weir = s.weir := State.bumpBy_weir s k 1
@[simp] theorem State.clr_weir (k : Nat) : (s.clr k).weir = s.weir := rfl
@[simp] theorem State.bump_trigLog (k : Nat) : (s.bump k).trigLog = s.trigLog := State.bumpBy_trigLog s k 1
@[simp] theorem State.clr_trigLog (k : Nat) : (s.clr k).trigLog = s.trigLog := rfl
@[simp] theorem State.bump_engine (k : Nat) : (s.bump k).engine = s.engine := State.bumpBy_engine s k 1
@[simp] theorem State.clr_engine (k : Nat) : (s.clr k).engine = s.engine := rfl
@[simp] theorem State.bump_ring (k : Nat) : (s.bump k).ring = s.ring := State.bumpBy_ring s k 1
@[simp] theorem State.clr_ring (k : Nat) : (s.clr k).ring = s.ring := rfl
@[simp] theorem State.bump_pipe (k : Nat) : (s.bump k).pipe = s.pipe := State.bumpBy_pipe s k 1
@[simp] theorem State.clr_pipe (k : Nat) : (s.clr k).pipe = s.pipe := rfl
@[simp] theorem State.bump_map (k : Nat) : (s.bump k).map = s.map := State.bumpBy_map s k 1
@[simp] theorem State.clr_map (k : Nat) : (s.clr k).map = s.map := rfl
@[simp] theorem State.bump_hbm (k : Nat) : (s.bump k).hbm = s.hbm := State.bumpBy_hbm s k 1
@[simp] theorem State.clr_hbm (k : Nat) : (s.clr k).hbm = s.hbm := rfl
@[simp] theorem State.bump_pool (k : Nat) : (s.bump k).pool = s.pool := State.bumpBy_pool s k 1
@[simp] theorem State.clr_pool (k : Nat) : (s.clr k).pool = s.pool := rfl
@[simp] theorem State.bump_bank (k : Nat) : (s.bump k).bank = s.bank := State.bumpBy_bank s k 1
@[simp] theorem State.clr_bank (k : Nat) : (s.clr k).bank = s.bank := rfl
@[simp] theorem State.bump_pc (k : Nat) : (s.bump k).pc = s.pc := State.bumpBy_pc s k 1
@[simp] theorem State.clr_pc (k : Nat) : (s.clr k).pc = s.pc := rfl
@[simp] theorem State.bump_tolerance (k : Nat) : (s.bump k).tolerance = s.tolerance := State.bumpBy_tolerance s k 1
@[simp] theorem State.clr_tolerance (k : Nat) : (s.clr k).tolerance = s.tolerance := rfl
@[simp] theorem State.bump_disp (k : Nat) : (s.bump k).disp = s.disp := State.bumpBy_disp s k 1
@[simp] theorem State.clr_disp (k : Nat) : (s.clr k).disp = s.disp := rfl
@[simp] theorem State.bump_xfer (k : Nat) : (s.bump k).xfer = s.xfer := State.bumpBy_xfer s k 1
@[simp] theorem State.clr_xfer (k : Nat) : (s.clr k).xfer = s.xfer := rfl
@[simp] theorem State.bump_stream (k : Nat) : (s.bump k).stream = s.stream := State.bumpBy_stream s k 1
@[simp] theorem State.clr_stream (k : Nat) : (s.clr k).stream = s.stream := rfl
@[simp] theorem State.bump_host (k : Nat) : (s.bump k).host = s.host := State.bumpBy_host s k 1
@[simp] theorem State.clr_host (k : Nat) : (s.clr k).host = s.host := rfl
@[simp] theorem State.bump_drive (k : Nat) : (s.bump k).drive = s.drive := State.bumpBy_drive s k 1
@[simp] theorem State.clr_drive (k : Nat) : (s.clr k).drive = s.drive := rfl
@[simp] theorem State.bump_store (k : Nat) : (s.bump k).store = s.store := State.bumpBy_store s k 1
@[simp] theorem State.clr_store (k : Nat) : (s.clr k).store = s.store := rfl
@[simp] theorem State.bump_join (k : Nat) : (s.bump k).join = s.join := State.bumpBy_join s k 1
@[simp] theorem State.clr_join (k : Nat) : (s.clr k).join = s.join := rfl
@[simp] theorem State.bump_posn (k : Nat) : (s.bump k).posn = s.posn := State.bumpBy_posn s k 1
@[simp] theorem State.clr_posn (k : Nat) : (s.clr k).posn = s.posn := rfl
@[simp] theorem State.bump_arr (k : Nat) : (s.bump k).arr = s.arr := State.bumpBy_arr s k 1
@[simp] theorem State.clr_arr (k : Nat) : (s.clr k).arr = s.arr := rfl
@[simp] theorem State.bump_hk (k : Nat) : (s.bump k).hk = s.hk := State.bumpBy_hk s k 1
@[simp] theorem State.clr_hk (k : Nat) : (s.clr k).hk = s.hk := rfl
@[simp] theorem State.bump_cal (k : Nat) : (s.bump k).cal = s.cal := State.bumpBy_cal s k 1
@[simp] theorem State.clr_cal (k : Nat) : (s.clr k).cal = s.cal := rfl
@[simp] theorem State.bump_tap (k : Nat) : (s.bump k).tap = s.tap := State.bumpBy_tap s k 1
@[simp] theorem State.clr_tap (k : Nat) : (s.clr k).tap = s.tap := rfl
@[simp] theorem State.bump_scan (k : Nat) : (s.bump k).scan = s.scan := State.bumpBy_scan s k 1
@[simp] theorem State.clr_scan (k : Nat) : (s.clr k).scan = s.scan := rfl
@[simp] theorem State.wrs_pending (l : List (Nat × Nat)) : (s.wrs l).pending = s.pending := by
  induction l generalizing s with
  | nil => rfl
  | cons p l ih => exact (ih (s.wr p.1 p.2)).trans rfl
@[simp] theorem State.wrs_now (l : List (Nat × Nat)) : (s.wrs l).now = s.now := by
  induction l generalizing s with
  | nil => rfl
  | cons p l ih => exact (ih (s.wr p.1 p.2)).trans rfl
@[simp] theorem State.wrs_out (l : List (Nat × Nat)) : (s.wrs l).out = s.out := by
  induction l generalizing s with
  | nil => rfl
  | cons p l ih => exact (ih (s.wr p.1 p.2)).trans rfl
@[simp] theorem State.wrs_fresh (l : List (Nat × Nat)) : (s.wrs l).fresh = s.fresh := by
  induction l generalizing s with
  | nil => rfl
  | cons p l ih => exact (ih (s.wr p.1 p.2)).trans rfl
@[simp] theorem State.wrs_doms (l : List (Nat × Nat)) : (s.wrs l).doms = s.doms := by
  induction l generalizing s with
  | nil => rfl
  | cons p l ih => exact (ih (s.wr p.1 p.2)).trans rfl
@[simp] theorem State.wrs_time (l : List (Nat × Nat)) : (s.wrs l).time = s.time := by
  induction l generalizing s with
  | nil => rfl
  | cons p l ih => exact (ih (s.wr p.1 p.2)).trans rfl
@[simp] theorem State.wrs_syn (l : List (Nat × Nat)) : (s.wrs l).syn = s.syn := by
  induction l generalizing s with
  | nil => rfl
  | cons p l ih => exact (ih (s.wr p.1 p.2)).trans rfl
@[simp] theorem State.wrs_clk (l : List (Nat × Nat)) : (s.wrs l).clk = s.clk := by
  induction l generalizing s with
  | nil => rfl
  | cons p l ih => exact (ih (s.wr p.1 p.2)).trans rfl
@[simp] theorem State.wrs_tdc (l : List (Nat × Nat)) : (s.wrs l).tdc = s.tdc := by
  induction l generalizing s with
  | nil => rfl
  | cons p l ih => exact (ih (s.wr p.1 p.2)).trans rfl
@[simp] theorem State.wrs_stat (l : List (Nat × Nat)) : (s.wrs l).stat = s.stat := by
  induction l generalizing s with
  | nil => rfl
  | cons p l ih => exact (ih (s.wr p.1 p.2)).trans rfl
@[simp] theorem State.wrs_dict (l : List (Nat × Nat)) : (s.wrs l).dict = s.dict := by
  induction l generalizing s with
  | nil => rfl
  | cons p l ih => exact (ih (s.wr p.1 p.2)).trans rfl
@[simp] theorem State.wrs_pantry (l : List (Nat × Nat)) : (s.wrs l).pantry = s.pantry := by
  induction l generalizing s with
  | nil => rfl
  | cons p l ih => exact (ih (s.wr p.1 p.2)).trans rfl
@[simp] theorem State.wrs_steward (l : List (Nat × Nat)) : (s.wrs l).steward = s.steward := by
  induction l generalizing s with
  | nil => rfl
  | cons p l ih => exact (ih (s.wr p.1 p.2)).trans rfl
@[simp] theorem State.wrs_life (l : List (Nat × Nat)) : (s.wrs l).life = s.life := by
  induction l generalizing s with
  | nil => rfl
  | cons p l ih => exact (ih (s.wr p.1 p.2)).trans rfl
@[simp] theorem State.wrs_power (l : List (Nat × Nat)) : (s.wrs l).power = s.power := by
  induction l generalizing s with
  | nil => rfl
  | cons p l ih => exact (ih (s.wr p.1 p.2)).trans rfl
@[simp] theorem State.wrs_slots (l : List (Nat × Nat)) : (s.wrs l).slots = s.slots := by
  induction l generalizing s with
  | nil => rfl
  | cons p l ih => exact (ih (s.wr p.1 p.2)).trans rfl
@[simp] theorem State.wrs_link (l : List (Nat × Nat)) : (s.wrs l).link = s.link := by
  induction l generalizing s with
  | nil => rfl
  | cons p l ih => exact (ih (s.wr p.1 p.2)).trans rfl
@[simp] theorem State.wrs_chan (l : List (Nat × Nat)) : (s.wrs l).chan = s.chan := by
  induction l generalizing s with
  | nil => rfl
  | cons p l ih => exact (ih (s.wr p.1 p.2)).trans rfl
@[simp] theorem State.wrs_line (l : List (Nat × Nat)) : (s.wrs l).line = s.line := by
  induction l generalizing s with
  | nil => rfl
  | cons p l ih => exact (ih (s.wr p.1 p.2)).trans rfl
@[simp] theorem State.wrs_pat (l : List (Nat × Nat)) : (s.wrs l).pat = s.pat := by
  induction l generalizing s with
  | nil => rfl
  | cons p l ih => exact (ih (s.wr p.1 p.2)).trans rfl
@[simp] theorem State.wrs_trig (l : List (Nat × Nat)) : (s.wrs l).trig = s.trig := by
  induction l generalizing s with
  | nil => rfl
  | cons p l ih => exact (ih (s.wr p.1 p.2)).trans rfl
@[simp] theorem State.wrs_lane (l : List (Nat × Nat)) : (s.wrs l).lane = s.lane := by
  induction l generalizing s with
  | nil => rfl
  | cons p l ih => exact (ih (s.wr p.1 p.2)).trans rfl
@[simp] theorem State.wrs_weir (l : List (Nat × Nat)) : (s.wrs l).weir = s.weir := by
  induction l generalizing s with
  | nil => rfl
  | cons p l ih => exact (ih (s.wr p.1 p.2)).trans rfl
@[simp] theorem State.wrs_trigLog (l : List (Nat × Nat)) : (s.wrs l).trigLog = s.trigLog := by
  induction l generalizing s with
  | nil => rfl
  | cons p l ih => exact (ih (s.wr p.1 p.2)).trans rfl
@[simp] theorem State.wrs_engine (l : List (Nat × Nat)) : (s.wrs l).engine = s.engine := by
  induction l generalizing s with
  | nil => rfl
  | cons p l ih => exact (ih (s.wr p.1 p.2)).trans rfl
@[simp] theorem State.wrs_ring (l : List (Nat × Nat)) : (s.wrs l).ring = s.ring := by
  induction l generalizing s with
  | nil => rfl
  | cons p l ih => exact (ih (s.wr p.1 p.2)).trans rfl
@[simp] theorem State.wrs_pipe (l : List (Nat × Nat)) : (s.wrs l).pipe = s.pipe := by
  induction l generalizing s with
  | nil => rfl
  | cons p l ih => exact (ih (s.wr p.1 p.2)).trans rfl
@[simp] theorem State.wrs_map (l : List (Nat × Nat)) : (s.wrs l).map = s.map := by
  induction l generalizing s with
  | nil => rfl
  | cons p l ih => exact (ih (s.wr p.1 p.2)).trans rfl
@[simp] theorem State.wrs_hbm (l : List (Nat × Nat)) : (s.wrs l).hbm = s.hbm := by
  induction l generalizing s with
  | nil => rfl
  | cons p l ih => exact (ih (s.wr p.1 p.2)).trans rfl
@[simp] theorem State.wrs_pool (l : List (Nat × Nat)) : (s.wrs l).pool = s.pool := by
  induction l generalizing s with
  | nil => rfl
  | cons p l ih => exact (ih (s.wr p.1 p.2)).trans rfl
@[simp] theorem State.wrs_bank (l : List (Nat × Nat)) : (s.wrs l).bank = s.bank := by
  induction l generalizing s with
  | nil => rfl
  | cons p l ih => exact (ih (s.wr p.1 p.2)).trans rfl
@[simp] theorem State.wrs_pc (l : List (Nat × Nat)) : (s.wrs l).pc = s.pc := by
  induction l generalizing s with
  | nil => rfl
  | cons p l ih => exact (ih (s.wr p.1 p.2)).trans rfl
@[simp] theorem State.wrs_tolerance (l : List (Nat × Nat)) : (s.wrs l).tolerance = s.tolerance := by
  induction l generalizing s with
  | nil => rfl
  | cons p l ih => exact (ih (s.wr p.1 p.2)).trans rfl
@[simp] theorem State.wrs_disp (l : List (Nat × Nat)) : (s.wrs l).disp = s.disp := by
  induction l generalizing s with
  | nil => rfl
  | cons p l ih => exact (ih (s.wr p.1 p.2)).trans rfl
@[simp] theorem State.wrs_xfer (l : List (Nat × Nat)) : (s.wrs l).xfer = s.xfer := by
  induction l generalizing s with
  | nil => rfl
  | cons p l ih => exact (ih (s.wr p.1 p.2)).trans rfl
@[simp] theorem State.wrs_stream (l : List (Nat × Nat)) : (s.wrs l).stream = s.stream := by
  induction l generalizing s with
  | nil => rfl
  | cons p l ih => exact (ih (s.wr p.1 p.2)).trans rfl
@[simp] theorem State.wrs_host (l : List (Nat × Nat)) : (s.wrs l).host = s.host := by
  induction l generalizing s with
  | nil => rfl
  | cons p l ih => exact (ih (s.wr p.1 p.2)).trans rfl
@[simp] theorem State.wrs_drive (l : List (Nat × Nat)) : (s.wrs l).drive = s.drive := by
  induction l generalizing s with
  | nil => rfl
  | cons p l ih => exact (ih (s.wr p.1 p.2)).trans rfl
@[simp] theorem State.wrs_store (l : List (Nat × Nat)) : (s.wrs l).store = s.store := by
  induction l generalizing s with
  | nil => rfl
  | cons p l ih => exact (ih (s.wr p.1 p.2)).trans rfl
@[simp] theorem State.wrs_join (l : List (Nat × Nat)) : (s.wrs l).join = s.join := by
  induction l generalizing s with
  | nil => rfl
  | cons p l ih => exact (ih (s.wr p.1 p.2)).trans rfl
@[simp] theorem State.wrs_posn (l : List (Nat × Nat)) : (s.wrs l).posn = s.posn := by
  induction l generalizing s with
  | nil => rfl
  | cons p l ih => exact (ih (s.wr p.1 p.2)).trans rfl
@[simp] theorem State.wrs_arr (l : List (Nat × Nat)) : (s.wrs l).arr = s.arr := by
  induction l generalizing s with
  | nil => rfl
  | cons p l ih => exact (ih (s.wr p.1 p.2)).trans rfl
@[simp] theorem State.wrs_hk (l : List (Nat × Nat)) : (s.wrs l).hk = s.hk := by
  induction l generalizing s with
  | nil => rfl
  | cons p l ih => exact (ih (s.wr p.1 p.2)).trans rfl
@[simp] theorem State.wrs_cal (l : List (Nat × Nat)) : (s.wrs l).cal = s.cal := by
  induction l generalizing s with
  | nil => rfl
  | cons p l ih => exact (ih (s.wr p.1 p.2)).trans rfl
@[simp] theorem State.wrs_tap (l : List (Nat × Nat)) : (s.wrs l).tap = s.tap := by
  induction l generalizing s with
  | nil => rfl
  | cons p l ih => exact (ih (s.wr p.1 p.2)).trans rfl
@[simp] theorem State.wrs_scan (l : List (Nat × Nat)) : (s.wrs l).scan = s.scan := by
  induction l generalizing s with
  | nil => rfl
  | cons p l ih => exact (ih (s.wr p.1 p.2)).trans rfl

end Sys2Proof.Machine
end

