-- ==== Sys2Proof/Laws/Ops.lean ====
section
/-! SUPPORT. What the shared operations do: registers, DOMAINs, accepted and aborted writes, engine cycles. -/

namespace Sys2Proof.Machine

open Sys2Proof

variable (s : State)

/-! ### Registers -/

theorem State.rd_wr (k v j : Nat) : (s.wr k v).rd j = if j = k then v else s.rd j := by
  unfold State.rd State.wr; exact tget_tset ..
@[simp] theorem State.rd_wr_same (k v : Nat) : (s.wr k v).rd k = v := by simp [State.rd_wr]
theorem State.rd_wr_ne (k v j : Nat) (h : j ≠ k) : (s.wr k v).rd j = s.rd j := by simp [State.rd_wr, h]

theorem State.dom_setDom (k : Nat) (b : Bytes) (j : Nat) : (s.setDom k b).dom j = if j = k then b else s.dom j := by
  unfold State.dom State.setDom; exact tget_tset ..
@[simp] theorem State.dom_setDom_same (k : Nat) (b : Bytes) : (s.setDom k b).dom k = b := by simp [State.dom_setDom]

/-- The registers of two states agree. -/
theorem State.rd_congr {s u : State} (h : u.regs = s.regs) (k : Nat) : u.rd k = s.rd k := by unfold State.rd; rw [h]
theorem State.dom_congr {s u : State} (h : u.doms = s.doms) (k : Nat) : u.dom k = s.dom k := by unfold State.dom; rw [h]

@[simp] theorem State.rd_advance (t k : Nat) : (s.advance t).rd k = s.rd k := rfl
@[simp] theorem State.rd_emit (o : Out) (k : Nat) : (s.emit o).rd k = s.rd k := rfl
@[simp] theorem State.rd_respond (c k : Nat) : (s.respond c).rd k = s.rd k := rfl
@[simp] theorem State.rd_setDom (j : Nat) (b : Bytes) (k : Nat) : (s.setDom j b).rd k = s.rd k := rfl
@[simp] theorem State.rd_setSlot (n : Nat) (x : Slot) (k : Nat) : (s.setSlot n x).rd k = s.rd k := rfl
@[simp] theorem State.rd_modSlot (n : Nat) (f : Slot → Slot) (k : Nat) : (s.modSlot n f).rd k = s.rd k := rfl
@[simp] theorem State.rd_setEng (e : Nat) (x : Engine) (k : Nat) : (s.setEng e x).rd k = s.rd k := rfl
@[simp] theorem State.dom_wr (j v k : Nat) : (s.wr j v).dom k = s.dom k := rfl
@[simp] theorem State.dom_advance (t k : Nat) : (s.advance t).dom k = s.dom k := rfl

/-! ### Accepted and aborted writes -/

/-- A state's own outputs are gone at the next command. -/
theorem State.advance_out (t : Nat) : (s.advance t).out = [] := rfl
theorem State.advance_now (t : Nat) : (s.advance t).now = max s.now t := rfl

/-- What the action of a served write answers is the outcome of the command: an accepted one completes. -/
theorem State.serve_ok (t : Nat) (f : Act) (u : State) (hr : s.Ready) (hf : f (s.advance t) = .ok u) : s.serve t f = u.complete := by
  obtain ⟨h1, h2, h3⟩ := hr
  have h1' : (s.advance t).power.stewardUp = true := h1
  have h2' : (s.advance t).steward.restarting = false := h2
  have h3' : (s.advance t).rd Ob.devRestoreState = 3 := h3
  unfold State.serve
  simp only [h1', h2', h3', hf]
  rfl

/-- A write that fails its action's checks changes nothing but the time and the response. -/
theorem State.serve_abort (t : Nat) (f : Act) (c : Nat) (hr : s.Ready) (hf : f (s.advance t) = .error c) :
    s.serve t f = (s.advance t).respond c := by
  obtain ⟨h1, h2, h3⟩ := hr
  have h1' : (s.advance t).power.stewardUp = true := h1
  have h2' : (s.advance t).steward.restarting = false := h2
  have h3' : (s.advance t).rd Ob.devRestoreState = 3 := h3
  unfold State.serve
  simp only [h1', h2', h3', hf]
  rfl

/-- The outcome of an accepted write. -/
theorem State.serve_done {s : State} {t : Nat} {f : Act} {u : State} (hr : s.Ready) (hf : f (s.advance t) = .ok u) :
    (Host.Outcome.next (s.serve t f) : Outcome) = u.accepted :=
  congrArg _ (s.serve_ok t f u hr hf)

/-- The outcome of a write that aborts. -/
theorem State.serve_aborted {s : State} {t : Nat} {f : Act} {c : Nat} (hr : s.Ready) (hf : f (s.advance t) = .error c) :
    (Host.Outcome.next (s.serve t f) : Outcome) = s.aborted t c :=
  congrArg _ (s.serve_abort t f c hr hf)

/-- While the steward restarts or a restore is not complete, a write aborts with 0x0800_0022 (R29, R453). -/
theorem State.serve_busy (t : Nat) (f : Act) (h1 : s.power.stewardUp = true)
    (h : s.steward.restarting = true ∨ s.rd Ob.devRestoreState ≠ 3) : s.serve t f = (s.advance t).respond Abort.state := by
  have h1' : (s.advance t).power.stewardUp = true := h1
  unfold State.serve
  simp only [h1', Bool.not_true, Bool.false_eq_true, if_false]
  rcases h with h | h
  · have h' : (s.advance t).steward.restarting = true := h
    simp only [h', if_true]
  · have h' : (s.advance t).rd Ob.devRestoreState ≠ 3 := h
    by_cases h2 : (s.advance t).steward.restarting = true
    · simp only [h2, if_true]
    · simp only [h2, Bool.false_eq_true, if_false, bne_iff_ne, ne_eq, h', not_false_eq_true, if_true]

/-- Settling changes SYNC_IN's state, a pending SetSeconds and its status, and nothing else. -/
theorem State.settle_frame : s.settle = { s with regs := s.settle.regs, time := s.settle.time } := by
  unfold State.settle
  split
  · dsimp only; split <;> split <;> rfl
  · rfl

theorem State.settle_rd (k : Nat) (h : k ≠ Ob.timeSyncState) : s.settle.rd k = s.rd k := by
  have h1 : (s.wr Ob.timeSyncState 3).rd k = s.rd k := State.rd_wr_ne s _ _ _ h
  unfold State.settle
  split
  · dsimp only
    split <;> split
    all_goals first | rfl | exact h1
  · rfl

/-- Completing a write changes the response, the checkpoint, and voids pending steps of device time (R430, R431). -/
theorem State.complete_rd (k : Nat) (h : k ≠ Ob.timeSyncState) : s.complete.rd k = s.rd k :=
  (State.rd_congr (s := s.settle) rfl k).trans (s.settle_rd k h)

theorem State.complete_frame : s.complete = { s with
    regs := s.settle.regs, time := s.settle.time
    dict := { s.dict with response := some { transport := 0, client := 0, code := 0 } }
    steward := s.checkpoint.steward } := by
  unfold State.complete
  rw [State.settle_frame]
  rfl

/-- Counting a register leaves the others. -/
theorem State.rd_bumpBy_ne (k n j : Nat) (h : j ≠ k) : (s.bumpBy k n).rd j = s.rd j := by
  unfold State.bumpBy; split <;> exact State.rd_wr_ne _ _ _ _ h
theorem State.rd_bump_ne (k j : Nat) (h : j ≠ k) : (s.bump k).rd j = s.rd j := State.rd_bumpBy_ne s k 1 j h
@[simp] theorem State.rd_msix (v k : Nat) : (s.msix v).rd k = s.rd k := by unfold State.msix; split <;> rfl
@[simp] theorem State.rd_emcy (e : FaultEntry) (k : Nat) : (s.emcy e).rd k = s.rd k := by unfold State.emcy; split <;> rfl

/-- A FaultLog entry changes its own registers and the Error register and no other (R520, R521). -/
theorem State.rd_faultLog (a b c d e f k : Nat) (h1 : k ≠ Ob.fltOverwrites) (h2 : k ≠ Ob.fltUnread) (h3 : k ≠ Ob.comErrorRegister) :
    (s.faultLog a b c d e f).rd k = s.rd k := by
  unfold State.faultLog
  dsimp only
  rw [State.rd_msix, State.rd_emcy, State.rd_wr_ne _ _ _ _ h3, State.rd_wr_ne _ _ _ _ h2]
  split
  · rw [State.rd_bump_ne _ _ _ h1]; rfl
  · rfl

/-- Writing and counting a register change the register file alone. -/
theorem State.wr_only (k v : Nat) : s.wr k v = { s with regs := (s.wr k v).regs } := rfl
theorem State.bumpBy_only (k n : Nat) : s.bumpBy k n = { s with regs := (s.bumpBy k n).regs } := by
  unfold State.bumpBy; split <;> rfl
theorem State.bump_only (k : Nat) : s.bump k = { s with regs := (s.bump k).regs } := s.bumpBy_only k 1
theorem State.wrs_only (l : List (Nat × Nat)) : ∀ s : State, s.wrs l = { s with regs := (s.wrs l).regs } := by
  induction l with
  | nil => intro s; rfl
  | cons p l ih => intro s; exact ih (s.wr p.1 p.2)

/-! ### Engines -/

/-- A plain cycle of an engine changes that engine and nothing else. -/
theorem State.engineCycle_plain (e : Nat) (h : (s.eng e).Plain) :
    s.engineCycle e false false = s.setEng e ((s.eng e).cycle false false).1 := by
  unfold State.engineCycle
  dsimp only
  have h1 : ((s.eng e).st != 2) = false := by rw [h.1]; rfl
  rw [h1]
  have h2 : ((s.eng e).cycle false false).2 = [] := by rw [Engine.cycle_plain _ h]
  rw [h2]
  rfl

@[simp] theorem State.eng_advance (t e : Nat) : (s.advance t).eng e = s.eng e := rfl
theorem State.eng_setEng (e : Nat) (x : Engine) (f : Nat) : (s.setEng e x).eng f = if f = e then x else s.eng f := by
  unfold State.eng State.setEng; exact tget_tset ..

/-- A microword of a Running engine stands in a stage. -/
theorem State.atStage_some (s : State) (t : Nat) (e : Nat) (f : Engine → Option Uop) (p : Nat → Bool) (u : Uop) (h : (s.eng e).Plain) (hu : f (s.eng e) = some u) (hp : p u.nano = true) :
    (s.advance t).atStage e f p = true := by
  unfold State.atStage
  simp only [State.eng_advance, hu, hp, h.1]; rfl
/-- Its command is one cycle of that engine and changes nothing else. -/
theorem State.cycleIf_some (s : State) (t : Nat) (e : Nat) (f : Engine → Option Uop) (p : Nat → Bool) (u : Uop) (h : (s.eng e).Plain) (hu : f (s.eng e) = some u) (hp : p u.nano = true) :
    (s.advance t).cycleIf ((s.advance t).atStage e f p) e = (s.advance t).setEng e ((s.eng e).cycle false false).1 := by
  unfold State.cycleIf
  rw [State.atStage_some s t e f p u h hu hp, if_pos rfl, State.engineCycle_plain _ _ (by exact h)]
  rfl

end Sys2Proof.Machine
end

