-- ==== Sys2Proof/Laws/OfTestAccess.lean ====
section
/-! SUPPORT. The lemmas that the statements about test access rest on. -/

namespace Sys2Proof.Machine

open Sys2Proof

theorem tapFree_iff (s : State) : s.tapFree = true ↔ (∀ n, n < 64 → s.rd (Ob.slotState n) < 2) ∧ (∀ j, j < 16 → s.rd (Ob.linkLinkState j) = 0) ∧ s.rd Ob.synState = 0 := by
  unfold State.tapFree State.anyActive State.active
  simp [List.any_eq_false, List.all_eq_true, and_assoc]
theorem quadFault_code (s : State) (q code : Nat) (hq : q < 36) : (s.quadFault q code).rd (Ob.quadFaultCode q) = code := by
  unfold State.quadFault
  have hne : ∀ k, k = Ob.fltOverwrites ∨ k = Ob.fltUnread ∨ k = Ob.comErrorRegister ∨ k = Ob.quadFaultCount q → Ob.quadFaultCode q ≠ k := by
    unfold Ob.fltOverwrites Ob.fltUnread Ob.comErrorRegister Ob.quadFaultCount Ob.quadFaultCode; omega
  refine Eq.trans (State.rd_faultLog _ _ _ _ _ _ _ _ (hne _ (.inl rfl)) (hne _ (.inr (.inl rfl))) (hne _ (.inr (.inr (.inl rfl))))) ?_
  rw [State.rd_bump_ne _ _ _ (hne _ (.inr (.inr (.inr rfl)))), State.rd_wr_same]
theorem quadFault_scan (s : State) (q code k : Nat) : (s.quadFault q code).scanS k = s.scanS k := by
  unfold State.scanS
  rw [show (s.quadFault q code).scan = s.scan from ?_]
  unfold State.quadFault State.faultLog State.emcy
  dsimp only
  simp only [State.setQuad_scan, State.msix_scan]
  split <;> split <;> simp

end Sys2Proof.Machine
end

