-- ==== Sys2Proof/Laws/OfCalibration.lean ====
section
/-! SUPPORT. The lemmas that the statements about calibration rest on. -/

namespace Sys2Proof.Machine

open Sys2Proof

theorem calRelease_rest (s : State) (h : s.cal.phase = 0) : s.calRelease = s := by
  unfold State.calRelease; split
  · rw [if_neg (by simp [h])]
  · rfl
theorem setDoms_frame (l : List (Nat × Bytes)) : ∀ s : State, l.foldl (fun (s : State) p => s.setDom p.1 p.2) s = { s with doms := (l.foldl (fun (s : State) p => s.setDom p.1 p.2) s).doms } := by
  induction l with
  | nil => intro s; rfl
  | cons a l ih => intro s; simp only [List.foldl_cons]; rw [ih]; rfl

end Sys2Proof.Machine
end

