-- ==== Sys2Proof/Laws/OfSignalPath.lean ====
section
/-! SUPPORT. The lemmas that the statements about signal path rest on. -/

namespace Sys2Proof.Machine

open Sys2Proof

/-- Housekeeping touches its DOMAINs and filter units alone, and leaves Latest and the sequencer to others. -/
def HkOnly (s u : State) : Prop := u = { s with doms := u.doms, hk := u.hk } ∧ u.hk.pass = s.hk.pass ∧ u.hk.entry = s.hk.entry ∧ u.hk.done = s.hk.done
theorem HkOnly.refl (s : State) : HkOnly s s := ⟨rfl, rfl, rfl, rfl⟩
theorem HkOnly.trans {s u v : State} (h : HkOnly s u) (g : HkOnly u v) : HkOnly s v := by
  obtain ⟨a, b, c, d⟩ := h; obtain ⟨a', b', c', d'⟩ := g
  refine ⟨?_, b'.trans b, c'.trans c, d'.trans d⟩
  rw [a', a]
theorem hkOnly_setDom (s : State) (k : Nat) (b : Bytes) : HkOnly s (s.setDom k b) := ⟨rfl, rfl, rfl, rfl⟩
theorem hkOnly_setFilter (s : State) (k : Nat) (x : FilterUnit) : HkOnly s (s.setFilter k x) := ⟨rfl, rfl, rfl, rfl⟩
theorem hkOnly_settle (s : State) (u : Nat) : HkOnly s (s.filterSettle u) := by
  unfold State.filterSettle; dsimp only; split
  · exact (hkOnly_setDom _ _ _).trans (hkOnly_setFilter _ _ _)
  · exact HkOnly.refl _
theorem settle_latest (s : State) (u : Nat) (hu : u < 8) : (s.filterSettle u).dom Ob.hkLatest = s.dom Ob.hkLatest := by
  have hne : Ob.hkLatest ≠ Ob.filtFilterOut u := by unfold Ob.hkLatest Ob.filtFilterOut; omega
  unfold State.filterSettle; dsimp only
  split
  · exact (State.dom_setDom _ _ _ _).trans (if_neg hne)
  · rfl
theorem hkOnly_take (s : State) (u : Nat) (v : Int) : HkOnly s (s.filterTake u v) := by
  unfold State.filterTake; dsimp only
  split <;> split
  all_goals first | exact hkOnly_setFilter _ _ _ | exact (((hkOnly_setDom _ _ _).trans (hkOnly_setFilter _ _ _)).trans (hkOnly_settle _ _))
theorem take_latest (s : State) (u : Nat) (v : Int) (hu : u < 8) : (s.filterTake u v).dom Ob.hkLatest = s.dom Ob.hkLatest := by
  have hne : Ob.hkLatest ≠ Ob.filtFilterOut u := by unfold Ob.hkLatest Ob.filtFilterOut; omega
  unfold State.filterTake; dsimp only
  split <;> split
  all_goals first | rfl | (rw [settle_latest _ _ hu]; exact (State.dom_setDom _ _ _ _).trans (if_neg hne))
theorem takes_latest (g : State → Nat → State) (hg : ∀ s u, HkOnly s (g s u)) (hd : ∀ s u, u < 8 → (g s u).dom Ob.hkLatest = s.dom Ob.hkLatest) :
    ∀ (l : List Nat), (∀ u ∈ l, u < 8) → ∀ s : State, HkOnly s (l.foldl g s) ∧ (l.foldl g s).dom Ob.hkLatest = s.dom Ob.hkLatest := by
  intro l
  induction l with
  | nil => intro _ s; exact ⟨HkOnly.refl _, rfl⟩
  | cons a l ih =>
    intro h s
    have h2 := ih (fun u hu => h u (List.mem_cons_of_mem _ hu)) (g s a)
    exact ⟨(hg s a).trans h2.1, h2.2.trans (hd s a (h a (List.mem_cons_self ..)))⟩
theorem hkResult_latest (s : State) (c raw : Nat) : HkOnly s (s.hkResult c raw)
    ∧ (s.hkResult c raw).dom Ob.hkLatest = patch (s.dom Ob.hkLatest) (4 * c) (leBytes 4 (s.hkWord c raw)) := by
  unfold State.hkResult
  dsimp only
  have key := takes_latest (fun (s2 : State) u => if (s2.filterS u).chan = c then s2.filterTake u (s2.hkValue c raw) else s2)
    (by intro s u; split; exact hkOnly_take _ _ _; exact HkOnly.refl _)
    (by intro s u hu; split; exact take_latest _ _ _ hu; rfl) (List.range 8) (by intro u hu; simpa using hu)
  have e1 : Ob.hkLatest ≠ Ob.hkTemperatures := by decide
  have e2 : Ob.hkLatest ≠ Ob.hbmBaseDieTemp := by decide
  have e3 : Ob.hkLatest ≠ Ob.hkSupplies := by decide
  split
  · split
    · refine ⟨(((hkOnly_setDom _ _ _).trans (hkOnly_setDom _ _ _)).trans (hkOnly_setDom _ _ _)).trans (key _).1, (key _).2.trans ?_⟩
      rw [State.dom_setDom, if_neg e2, State.dom_setDom, if_neg e1, State.dom_setDom_same]
    · split
      · refine ⟨(((hkOnly_setDom _ _ _).trans (hkOnly_setDom _ _ _)).trans (hkOnly_setDom _ _ _)).trans (key _).1, (key _).2.trans ?_⟩
        rw [State.dom_setDom, if_neg e2, State.dom_setDom, if_neg e1, State.dom_setDom_same]
      · refine ⟨((hkOnly_setDom _ _ _).trans (hkOnly_setDom _ _ _)).trans (key _).1, (key _).2.trans ?_⟩
        rw [State.dom_setDom, if_neg e1, State.dom_setDom_same]
  · split
    · refine ⟨((hkOnly_setDom _ _ _).trans (hkOnly_setDom _ _ _)).trans (key _).1, (key _).2.trans ?_⟩
      rw [State.dom_setDom, if_neg e3, State.dom_setDom_same]
    · exact ⟨(hkOnly_setDom _ _ _).trans (key _).1, (key _).2.trans (State.dom_setDom_same _ _ _)⟩

end Sys2Proof.Machine
end

