-- ==== Sys2Proof/Laws/OfPower.lean ====
section
/-! SUPPORT. The lemmas that the statements about power rest on. -/

namespace Sys2Proof.Machine

open Sys2Proof

theorem startChange_abort (s : State) (p : Nat) (h : s.dict.abortWith = none) : (s.startChange p).dict.abortWith = none := by
  unfold State.startChange State.avsWrite State.exclude
  dsimp only
  split <;> (try split) <;> simp [h]
theorem railSums (s : State) (f : State → Nat → Int) (hf : ∀ (u : State) m r, f { u with power := { u.power with railSum := m } } r = f u r) :
    ∀ (l : List Nat) (u : State), l.Nodup → (∀ r, f u r = f s r) →
      ∃ m, l.foldl (fun (s : State) r => { s with power := { s.power with railSum := tmod (dconst 0) s.power.railSum r (· + f s r) } }) u
          = { u with power := { u.power with railSum := m } }
        ∧ ∀ r, tget (dconst 0) m r = tget (dconst 0) u.power.railSum r + if r ∈ l then f s r else 0 := by
  intro l
  induction l with
  | nil => intro u _ _; exact ⟨_, rfl, fun r => by simp⟩
  | cons a l ih =>
    intro u hn hu
    obtain ⟨m, h1, h2⟩ := ih { u with power := { u.power with railSum := tmod (dconst 0) u.power.railSum a (· + f u a) } } (List.nodup_cons.1 hn).2 (fun r => (hf u _ r).trans (hu r))
    refine ⟨m, h1, fun r => ?_⟩
    rw [h2 r]
    dsimp only
    rw [tget_tmod]
    by_cases hr : r = a
    · subst hr
      rw [if_pos rfl, if_neg (List.nodup_cons.1 hn).1, if_pos (List.mem_cons_self ..), hu]; ring
    · rw [if_neg hr]; simp [hr]
theorem auxReset_abort (mask : Nat) (s : State) : ∀ l : List Nat, ∀ u : State, u.dict = s.dict →
    (l.foldl (fun (s : State) k => if bit mask k && s.auxState k == 3 then ((s.setAux k 0).setTries k 0).auxFollow k else s) u).dict = s.dict := by
  intro l
  induction l with
  | nil => intro u hu; exact hu
  | cons a l ih =>
    intro u hu
    rw [List.foldl_cons]
    refine ih _ ?_
    split
    · unfold State.auxFollow State.setAux State.setTries; dsimp only; split <;> (try split) <;> simp [hu]
    · exact hu
theorem closeWindows_frame (s : State) : ∃ w x y, s.closeWindows = { s with power := { s.power with windows := w, usable := x, excluded := y } } := by
  unfold State.closeWindows; dsimp only; split <;> exact ⟨_, _, _, rfl⟩
theorem publishWindow_all (s : State) : s.publishWindow.rd Ob.ledgMeasuredPower = s.windowPower.sum
    ∧ s.publishWindow.rd Ob.ledgPeakPower = max s.windowPower.sum (s.rd Ob.ledgPeakPower)
    ∧ s.publishWindow.dom Ob.ledgRailPower = s.windowPower.flatMap (fun v => leBytes 4 v)
    ∧ s.publishWindow.power.windowN = 0 ∧ s.publishWindow.power.railSum = []
    ∧ s.publishWindow.power.energyUj = (s.power.energyUj + s.windowPower.sum) % 1000 ∧ s.publishWindow.power.shunt = s.dom Ob.ledgShuntMap
    ∧ s.publishWindow.rd Ob.penvOverEnvelope = s.rd Ob.penvOverEnvelope
    ∧ s.publishWindow = { s with regs := s.publishWindow.regs, doms := s.publishWindow.doms, power := s.publishWindow.power } := by
  unfold State.publishWindow
  dsimp only
  obtain ⟨w, x, y, hc⟩ := closeWindows_frame ({ ((s.freshWindow.wrs [(Ob.ledgMeasuredPower, s.windowPower.sum), (Ob.ledgPeakPower, max s.windowPower.sum (s.rd Ob.ledgPeakPower))]).bumpBy Ob.ledgEnergy ((s.power.energyUj + s.windowPower.sum) / 1000)).setDom
    Ob.ledgRailPower (s.windowPower.flatMap fun v => leBytes 4 v) with power := { s.freshWindow.power with energyUj := (s.power.energyUj + s.windowPower.sum) % 1000 } } : State)
  have e : (((s.freshWindow.wrs [(Ob.ledgMeasuredPower, s.windowPower.sum), (Ob.ledgPeakPower, max s.windowPower.sum (s.rd Ob.ledgPeakPower))]).bumpBy Ob.ledgEnergy ((s.power.energyUj + s.windowPower.sum) / 1000)).setDom
    Ob.ledgRailPower (s.windowPower.flatMap fun v => leBytes 4 v)).power = s.freshWindow.power := by simp
  rw [e, hc]
  have ef : ∀ k v, (s.freshWindow.wr k v).power = s.freshWindow.power := fun _ _ => rfl
  refine ⟨?_, ?_, State.dom_setDom_same _ _ _, rfl, rfl, rfl, rfl, ?_, ?_⟩
  · refine Eq.trans (State.rd_bumpBy_ne _ _ _ _ (by decide)) ?_
    show ((s.freshWindow.wr Ob.ledgMeasuredPower _).wr Ob.ledgPeakPower _).rd Ob.ledgMeasuredPower = _
    rw [State.rd_wr_ne _ _ _ _ (by decide), State.rd_wr_same]
  · refine Eq.trans (State.rd_bumpBy_ne _ _ _ _ (by decide)) ?_
    exact State.rd_wr_same _ _ _
  · refine Eq.trans (State.rd_bumpBy_ne _ _ _ _ (by decide)) ?_
    show ((s.freshWindow.wr Ob.ledgMeasuredPower _).wr Ob.ledgPeakPower _).rd Ob.penvOverEnvelope = _
    rw [State.rd_wr_ne _ _ _ _ (by decide), State.rd_wr_ne _ _ _ _ (by decide)]; rfl
  · simp [State.freshWindow]
theorem publishWindow_second (s : State) : s.publishWindow.power.overSecond = s.power.overSecond := by
  unfold State.publishWindow
  dsimp only
  unfold State.closeWindows
  dsimp only
  split
  all_goals simp [State.freshWindow]
/-- Time stamps look at the time, the registers and SYN-T alone. -/
theorem stampNow_power (s : State) (x : PowerState) : ({ s with power := x } : State).stampNow = s.stampNow := by
  unfold State.stampNow State.stamp State.devNow State.devAt State.second State.fT State.quality State.ownQuality State.absentTimes State.us State.descriptor State.second State.fT State.rd
  rfl
theorem wr2_frame (s : State) (x : PowerState) (k v j w : Nat) : ((({ s with power := x } : State).wr k v).wr j w)
    = { s with regs := ((({ s with power := x } : State).wr k v).wr j w).regs, power := ((({ s with power := x } : State).wr k v).wr j w).power } := rfl
theorem fitTerms_frame (l : List (Nat × Nat)) (f : State → Nat) : ∀ s : State, ∃ c m, l.foldl (fun (s : State) x => s.fitTerm (f s) x) s = { s with power := { s.power with fitted := m, coeff := c } } := by
  induction l with
  | nil => intro s; exact ⟨_, _, rfl⟩
  | cons a l ih => intro s; obtain ⟨c, m, h⟩ := ih (s.fitTerm (f s) a); exact ⟨c, m, h⟩
/-- Counting the time in Run changes its two counters alone. -/
theorem countHours_frame (s : State) : s.countHours = { s with
      regs := s.countHours.regs, life := { s.life with runMs := (s.life.runMs + 1) % 3600000, hotMs := s.countHours.life.hotMs } }
    ∧ (∀ k, k ≠ Ob.lifeServiceHours → k ≠ Ob.lifeHoursHot → s.countHours.rd k = s.rd k)
    ∧ (s.life.runMs + 1 = 3600000 → s.countHours.rd Ob.lifeServiceHours = (s.bump Ob.lifeServiceHours).rd Ob.lifeServiceHours) := by
  have ho : ∀ (u : State) (c : Prop) [Decidable c] (k : Nat), (if c then u.bump k else u) = { u with regs := (if c then u.bump k else u).regs } := fun u c _ k => by
    split
    · exact State.bump_only _ _
    · rfl
  have hn : ∀ (u : State) (c : Prop) [Decidable c] (k j : Nat), j ≠ k → (if c then u.bump k else u).rd j = u.rd j := fun u c _ k j h => by
    split
    · exact State.rd_bump_ne _ _ _ h
    · rfl
  have ht : ∀ (u v w : State), v = { u with regs := v.regs } → w = { v with regs := w.regs } → w = { u with regs := w.regs } := by
    intro u v w h1 h2
    generalize w.regs = R at h2
    subst h2
    generalize v.regs = R2 at h1
    subst h1
    rfl
  have key : ∀ (w : State) (a b : Nat), w = { s with regs := w.regs } → ({ w with life := { w.life with runMs := a, hotMs := b } } : State)
      = { s with regs := w.regs, life := { s.life with runMs := a, hotMs := b } } := by
    intro w a b h
    generalize w.regs = R at h
    subst h
    rfl
  refine ⟨?_, fun k h1 h2 => ?_, fun h => ?_⟩
  · exact key _ _ _ (ht _ _ _ (ho s _ _) (ho _ _ _))
  · exact (hn _ _ _ _ h2).trans (hn _ _ _ _ h1)
  · exact (hn (if s.life.runMs + 1 = 3600000 then s.bump Ob.lifeServiceHours else s) _ _ _ (by decide)).trans (by rw [if_pos h])

end Sys2Proof.Machine
end

