-- ==== Sys2Proof/Laws/OfClocks.lean ====
section
/-! SUPPORT. The lemmas that the statements about clocks rest on. -/

namespace Sys2Proof.Machine

open Sys2Proof

/-- Recomputing the fabric's readouts writes registers alone: the horizons, MinD and the lanes' charges. -/
theorem horizons_fold (l : List Nat) : ∀ s : State, let u := l.foldl (fun (s : State) u => s.wr (Ob.patHorizon u) (s.horizonOf (s.dom (Ob.patCare u)))) s
    u = { s with regs := u.regs } ∧ ∀ k, (∀ i, k ≠ Ob.patHorizon i) → u.rd k = s.rd k := by
  induction l with
  | nil => intro s; exact ⟨rfl, fun _ _ => rfl⟩
  | cons a l ih =>
    intro s
    have h := ih (s.wr (Ob.patHorizon a) (s.horizonOf (s.dom (Ob.patCare a))))
    exact ⟨h.1, fun k hk => (h.2 k hk).trans (State.rd_wr_ne _ _ _ _ (hk a))⟩
theorem State.refreshFabric_only (s : State) : s.refreshFabric = { s with regs := s.refreshFabric.regs } := by
  have key : ∀ (u : State) (a b c x y z : Nat), u = { s with regs := u.regs } →
      ((u.wr a x).wr b y).wr c z = { s with regs := (((u.wr a x).wr b y).wr c z).regs } := by
    intro u a b c x y z h
    generalize u.regs = R at h
    subst h
    rfl
  exact key _ _ _ _ _ _ _ (horizons_fold (List.range 16) s).1
theorem State.refreshFabric_rd (s : State) (k : Nat) (h1 : ∀ i, k ≠ Ob.patHorizon i) (h2 : k ≠ Ob.primMinD) (h3 : k ≠ Ob.primChargeA) (h4 : k ≠ Ob.primChargeB) :
    s.refreshFabric.rd k = s.rd k := by
  unfold State.refreshFabric
  dsimp only
  rw [State.rd_wr_ne _ _ _ _ h4, State.rd_wr_ne _ _ _ _ h3, State.rd_wr_ne _ _ _ _ h2]
  exact (horizons_fold (List.range 16) s).2 k h1
/-- What the lock makes of the state with the new clock in it (R416, R435). -/
def syntLockedBody (old : Nat) (W : State) : State :=
  if W.syn.lockedOnce then W
  else { W with
    time := { W.time with held := reheld W.time.held old W.second, awaitRtc := true }
    syn := { W.syn with lockedOnce := true } }
theorem syntLockedBody_spec (s now W : State) (e1 : W = { now with regs := W.regs, doms := W.doms }) (hs : now.syn = s.syn) (ht : now.time = s.time) :
    let u := syntLockedBody s.second W
    u.regs = W.regs ∧ u.doms = W.doms ∧ (s.syn.lockedOnce = true → u = { now with regs := u.regs, doms := u.doms })
      ∧ (s.syn.lockedOnce = false → u = { now with
          regs := u.regs, doms := u.doms, syn := { s.syn with lockedOnce := true }
          time := { s.time with held := reheld s.time.held s.second u.second, awaitRtc := true } }) := by
  have h1 : W.syn = s.syn := ((congrArg State.syn e1).trans rfl).trans hs
  have h2 : W.time = s.time := ((congrArg State.time e1).trans rfl).trans ht
  unfold syntLockedBody
  rw [h1, h2]
  cases h : s.syn.lockedOnce
  · refine ⟨rfl, rfl, fun h => absurd h (by decide), fun _ => ?_⟩
    have e : ∀ (a : SynState) (b : TimeState), ({ W with syn := a, time := b } : State) = { now with regs := W.regs, doms := W.doms, syn := a, time := b } := fun a b =>
      (congrArg (fun z : State => ({ z with syn := a, time := b } : State)) e1).trans rfl
    exact e _ _
  · exact ⟨rfl, rfl, fun _ => e1, fun h => absurd h (by decide)⟩
theorem calUnlock_frame (s : State) : s.calUnlock = { s with regs := s.calUnlock.regs, cal := s.calUnlock.cal, chan := s.calUnlock.chan } := by
  unfold State.calUnlock State.calEnd State.calRelease
  split
  · split
    · rfl
    · dsimp only; split
      · split <;> rfl
      · rfl
  · rfl
theorem legal_1 (s : State) (v : Nat) (i : Fin 16) (h : v < 2 ^ 64 ∧ (if i.val < 8 then dclkReserved v else srefReserved v) = false
      ∧ (i.val < 8 → bits v 41 32 = 0 ∨ bit (s.rd (Ob.clkSrefConfig (i.val % 8))) 63 = false ∨ bits (s.rd (Ob.clkSrefConfig (i.val % 8))) 47 16 % bits v 41 32 = 0)) :
    ¬ (decide (2 ^ 64 ≤ v) || (if i.val < 8 then dclkReserved v else srefReserved v)) = true := by
  rw [Bool.or_eq_true, not_or, decide_eq_true_iff, Nat.not_le]
  exact ⟨h.1, by rw [h.2.1]; decide⟩
theorem legal_2 (s : State) (t v : Nat) (i : Fin 16) (h : v < 2 ^ 64 ∧ (if i.val < 8 then dclkReserved v else srefReserved v) = false
      ∧ (i.val < 8 → bits v 41 32 = 0 ∨ bit (s.rd (Ob.clkSrefConfig (i.val % 8))) 63 = false ∨ bits (s.rd (Ob.clkSrefConfig (i.val % 8))) 47 16 % bits v 41 32 = 0)) :
    ¬ (decide (i.val < 8) && bits v 41 32 != 0 && bit ((s.advance t).rd (Ob.clkSrefConfig (i.val % 8))) 63
      && bits ((s.advance t).rd (Ob.clkSrefConfig (i.val % 8))) 47 16 % bits v 41 32 != 0) = true := by
  simp only [Bool.and_eq_true, decide_eq_true_iff, bne_iff_ne, State.rd_advance]
  rintro ⟨⟨⟨a, b⟩, c⟩, d⟩
  rcases h.2.2 a with h | h | h
  · exact b h
  · exact absurd (h.symm.trans c) (by decide)
  · exact d h
theorem clkStart_clk (s : State) (x : Tab ClkOut) (i cfg o : Nat) : ({ s with clk := x } : State).clkStart i cfg o = s.clkStart i cfg o := rfl
theorem fires (mask : Nat) (s0 : State) : ∀ (l : List Nat), l.Nodup → ∀ (p : State × Nat), (p.1 = { s0 with clk := p.1.clk }) →
    (l.foldl (fireStep mask) p).1 = { s0 with clk := (l.foldl (fireStep mask) p).1.clk } ∧ ∀ j, (l.foldl (fireStep mask) p).1.clkOut (8 + j) =
      if j ∈ l ∧ (bit mask j && bit (s0.rd (Ob.clkSrefConfig j)) 63 && bit (s0.rd (Ob.clkSrefConfig j)) 59 && (p.1.clkOut (8 + j)).burst == 0) = true
      then { p.1.clkOut (8 + j) with startAt := some (s0.clkStart (8 + j) (s0.rd (Ob.clkSrefConfig j)) (s0.rd (Ob.clkSrefOffset j))), burst := bits (s0.rd (Ob.clkSrefConfig j)) 58 51 }
      else p.1.clkOut (8 + j) := by
  intro l
  induction l with
  | nil => intro _ p hp; exact ⟨hp, fun j => by simp⟩
  | cons a l ih =>
    intro hn p hp
    have hr : ∀ k, p.1.rd k = s0.rd k := fun k => by rw [hp]; rfl
    have hcs : ∀ i c o, p.1.clkStart i c o = s0.clkStart i c o := fun i c o => by rw [hp]; rfl
    have hout : ∀ e x j, (p.1.setClkOut e x).clkOut j = if j = e then x else p.1.clkOut j := fun e x j => tget_tset ..
    have hstep : fireStep mask p a = if (bit mask a && bit (s0.rd (Ob.clkSrefConfig a)) 63 && bit (s0.rd (Ob.clkSrefConfig a)) 59) = true then
        if (p.1.clkOut (8 + a)).burst = 0 then
          (p.1.setClkOut (8 + a) { p.1.clkOut (8 + a) with startAt := some (s0.clkStart (8 + a) (s0.rd (Ob.clkSrefConfig a)) (s0.rd (Ob.clkSrefOffset a))), burst := bits (s0.rd (Ob.clkSrefConfig a)) 58 51 }, p.2)
        else (p.1, setBit p.2 a true) else p := by
      unfold fireStep; dsimp only
      simp only [hr, hcs]
    have h1 : (fireStep mask p a).1 = { s0 with clk := (fireStep mask p a).1.clk } := by
      rw [hstep]; split
      · split
        · show (p.1.setClkOut _ _) = _; rw [hp]; rfl
        · exact hp
      · exact hp
    obtain ⟨g1, g2⟩ := ih (List.nodup_cons.1 hn).2 (fireStep mask p a) h1
    refine ⟨g1, fun j => ?_⟩
    rw [List.foldl_cons]
    refine (g2 j).trans ?_
    have hj : (fireStep mask p a).1.clkOut (8 + j) = if j = a then (if (bit mask a && bit (s0.rd (Ob.clkSrefConfig a)) 63 && bit (s0.rd (Ob.clkSrefConfig a)) 59 && (p.1.clkOut (8 + a)).burst == 0) = true then { p.1.clkOut (8 + a) with startAt := some (s0.clkStart (8 + a) (s0.rd (Ob.clkSrefConfig a)) (s0.rd (Ob.clkSrefOffset a))), burst := bits (s0.rd (Ob.clkSrefConfig a)) 58 51 } else p.1.clkOut (8 + a)) else p.1.clkOut (8 + j) := by
      rw [hstep]
      by_cases hja : j = a
      · subst hja
        rw [if_pos rfl]
        split
        · rename_i h; split
          · rename_i h0; rw [hout, if_pos rfl, if_pos (by rw [h]; simp [h0])]
          · rename_i h0; rw [if_neg (by rw [h]; simp [h0])]
        · rename_i h; rw [if_neg (by simp only [Bool.and_eq_true] at h ⊢; exact fun hh => h hh.1)]
      · rw [if_neg hja]
        split
        · split
          · rw [hout, if_neg (by omega)]
          · rfl
        · rfl
    by_cases hja : j = a
    · subst hja
      rw [hj, if_pos rfl, if_neg (fun h => (List.nodup_cons.1 hn).1 h.1)]
      by_cases hc : (bit mask j && bit (s0.rd (Ob.clkSrefConfig j)) 63 && bit (s0.rd (Ob.clkSrefConfig j)) 59 && (p.1.clkOut (8 + j)).burst == 0) = true
      · rw [if_pos hc, if_pos ⟨List.mem_cons_self .., hc⟩]
      · rw [if_neg hc, if_neg (fun h => hc h.2)]
    · rw [hj, if_neg hja]; simp [hja]

end Sys2Proof.Machine
end

