-- ==== Sys2Proof/Laws/OfTime.lean ====
section
/-! SUPPORT. The lemmas that the statements about time rest on. -/

namespace Sys2Proof.Machine

open Sys2Proof

theorem step430_facts (s : State) (T : Int) (cls : Nat) (ep : Option Nat) (re : Bool) : (s.step430 T cls ep re).devNow = T.toNat
    ∧ (s.step430 T cls ep re).time.cls = cls ∧ (s.step430 T cls ep re).counts = true ∧ (s.step430 T cls ep re).time.setPending = none
    ∧ (s.step430 T cls ep re).rd Ob.timeSyncState ≠ 1
    ∧ s.step430 T cls ep re = { s with regs := (s.step430 T cls ep re).regs, time := (s.step430 T cls ep re).time } := by
  have key : ∃ q : State, q = { s with regs := q.regs } ∧ q.rd Ob.timeSyncState ≠ 1 ∧ s.step430 T cls ep re = { q with time := { q.time with
      offset := T - (q.now : Int), counting := true, cls := cls, awaitRtc := false, rtcRealign := re, setPending := none
      setStatus := match q.time.setPending with
        | some _ => some 2
        | none => q.time.setStatus } } := by
    have g : ∀ u : State, u = { s with regs := u.regs } → (if u.rd Ob.timeSyncState = 1 then u.wr Ob.timeSyncState 3 else u) = { s with regs := (if u.rd Ob.timeSyncState = 1 then u.wr Ob.timeSyncState 3 else u).regs }
        ∧ (if u.rd Ob.timeSyncState = 1 then u.wr Ob.timeSyncState 3 else u).rd Ob.timeSyncState ≠ 1 := by
      intro u hu
      split
      · refine ⟨?_, by rw [State.rd_wr_same]; decide⟩
        rw [hu]; rfl
      · exact ⟨hu, by assumption⟩
    obtain ⟨g1, g2⟩ := g ((s.bump Ob.timeStepCount).wr Ob.timeTimeEpoch (match ep with
      | some e => e
      | none => (s.bump Ob.timeStepCount).ownEpoch)) (by rw [State.bump_only]; rfl)
    exact ⟨_, g1, g2, rfl⟩
  obtain ⟨q, h1, h2, h3⟩ := key
  rw [h3]
  refine ⟨?_, rfl, rfl, rfl, h2, ?_⟩
  · unfold State.devNow State.devAt
    rw [if_pos rfl]
    show ((q.now : Int) + (T - (q.now : Int))).toNat = _
    congr 1; omega
  · dsimp only; rw [h1]

end Sys2Proof.Machine
end

