-- ==== Sys2Proof/Laws/OfTdc.lean ====
section
/-! SUPPORT. The lemmas that the statements about tdc rest on. -/

namespace Sys2Proof.Machine

open Sys2Proof

theorem statValue_tdc (s : State) (u : Nat) (x : StatState) (v : Int) (b : Bool) (st : Nat) : (s.statValue u x v b st).tdc = s.tdc ∧ ∀ k, (∀ w, k ≠ Ob.statResultSeq w) → (s.statValue u x v b st).rd k = s.rd k := by
  unfold State.statValue; dsimp only; split
  · exact ⟨rfl, fun _ _ => rfl⟩
  · refine ⟨?_, fun k hk => ?_⟩
    · show (State.bump _ _).tdc = _; rw [State.bump_tdc]; rfl
    · exact (State.rd_bump_ne (s.setDom _ _) _ _ (hk u))
theorem statStamp_tdc (s : State) (u c st : Nat) (f b : Bool) : (s.statStamp u c st f b).tdc = s.tdc := by
  unfold State.statStamp; dsimp only
  split
  · rfl
  · split
    · have e : (if (s.rd (Ob.statChannelA u) == c) = true then s.statOpen u st b else s).tdc = s.tdc := by split <;> rfl
      split
      · split
        · split
          · exact e
          · split
            · rw [(statValue_tdc _ _ _ _ _ _).1]; exact e
            · rw [State.bump_tdc]; exact e
        · rw [State.bump_tdc]; exact e
      · exact e
    · split
      · split
        · split
          · exact (statValue_tdc _ _ _ _ _ _).1
          · rfl
        · rfl
      · split
        · split
          · rfl
          · split
            · rfl
            · split
              · exact (statValue_tdc _ _ _ _ _ _).1
              · rfl
        · rfl
theorem statStamp_rd (s : State) (u c st : Nat) (f b : Bool) (k : Nat) (hk : ∀ w, k ≠ Ob.statResultSeq w ∧ k ≠ Ob.statUnpaired w) : (s.statStamp u c st f b).rd k = s.rd k := by
  have h1 := fun w => (hk w).1
  have h2 := fun w => (hk w).2
  unfold State.statStamp; dsimp only
  split
  · rfl
  · split
    · have e : (if (s.rd (Ob.statChannelA u) == c) = true then s.statOpen u st b else s).rd k = s.rd k := by split <;> rfl
      split
      · split
        · split
          · exact e
          · split
            · exact ((statValue_tdc _ _ _ _ _ _).2 k h1).trans e
            · exact (State.rd_bump_ne _ _ _ (h2 u)).trans e
        · exact (State.rd_bump_ne _ _ _ (h2 u)).trans e
      · exact e
    · split
      · split
        · split
          · exact (statValue_tdc _ _ _ _ _ _).2 k h1
          · rfl
        · rfl
      · split
        · split
          · rfl
          · split
            · rfl
            · split
              · exact (statValue_tdc _ _ _ _ _ _).2 k h1
              · rfl
        · rfl
theorem statStamps (c st : Nat) (f b : Bool) (k : Nat) (hk : ∀ w, k ≠ Ob.statResultSeq w ∧ k ≠ Ob.statUnpaired w) : ∀ (l : List Nat) (s : State),
    (l.foldl (fun s u => s.statStamp u c st f b) s).tdc = s.tdc ∧ (l.foldl (fun s u => s.statStamp u c st f b) s).rd k = s.rd k := by
  intro l
  induction l with
  | nil => intro s; exact ⟨rfl, rfl⟩
  | cons a l ih => intro s; exact ⟨(ih _).1.trans (statStamp_tdc _ _ _ _ _ _), (ih _).2.trans (statStamp_rd _ _ _ _ _ _ _ hk)⟩

end Sys2Proof.Machine
end

