-- ==== Sys2Proof/Laws/OfIngest.lean ====
section
/-! SUPPORT. The lemmas that the statements about ingest rest on. -/

namespace Sys2Proof.Machine

open Sys2Proof

theorem wrFold_only (f : Nat → Nat) (g : State → Nat → Nat) : ∀ (l : List Nat) (s : State), l.foldl (fun s k => s.wr (f k) (g s k)) s = { s with regs := (l.foldl (fun s k => s.wr (f k) (g s k)) s).regs } := by
  intro l
  induction l with
  | nil => intro s; rfl
  | cons a l ih => intro s; rw [List.foldl_cons]; exact ih _
theorem zeroRates_rd (l : List Nat) (k : Nat) (h : ∀ c, k ≠ Ob.chanChannelRate c) : ∀ s : State, (l.foldl (fun s k => s.wr (Ob.chanChannelRate k) 0) s).rd k = s.rd k := by
  induction l with
  | nil => intro s; rfl
  | cons a l ih => intro s; rw [List.foldl_cons, ih]; exact State.rd_wr_ne _ _ _ _ (h a)
theorem countSample_facts (s : State) (k j : Nat) (clip ov subst crc : Bool) (hk : k < 64) (hj : j < 16) :
    s.countSample k j clip ov subst crc = { s with regs := (s.countSample k j clip ov subst crc).regs }
    ∧ (s.countSample k j clip ov subst crc).rd (Ob.chanClipCount k) = (if clip then (s.rd (Ob.chanClipCount k) + 1) % 2 ^ 32 else s.rd (Ob.chanClipCount k))
    ∧ (s.countSample k j clip ov subst crc).rd (Ob.chanOverrangeCount k) = (if ov then (s.rd (Ob.chanOverrangeCount k) + 1) % 2 ^ 32 else s.rd (Ob.chanOverrangeCount k))
    ∧ (s.countSample k j clip ov subst crc).rd (Ob.chanFlags k) = setBit (setBit (s.rd (Ob.chanFlags k)) 6 (bit (s.rd (Ob.chanFlags k)) 6 || crc)) 5 (bit (s.rd (Ob.chanFlags k)) 5 || subst)
    ∧ (subst = false → (s.countSample k j clip ov subst crc).rd (Ob.linkSubstitutedSamples j) = s.rd (Ob.linkSubstitutedSamples j)) := by
  have hne : Ob.chanFlags k ≠ Ob.chanClipCount k ∧ Ob.chanFlags k ≠ Ob.chanOverrangeCount k ∧ Ob.chanClipCount k ≠ Ob.chanOverrangeCount k
      ∧ Ob.chanFlags k ≠ Ob.linkSubstitutedSamples j ∧ Ob.chanClipCount k ≠ Ob.linkSubstitutedSamples j ∧ Ob.chanOverrangeCount k ≠ Ob.linkSubstitutedSamples j := by
    unfold Ob.chanFlags Ob.chanClipCount Ob.chanOverrangeCount Ob.linkSubstitutedSamples; omega
  obtain ⟨n1, n2, n3, n4, n5, n6⟩ := hne
  have w := fun (u : State) => State.rd_wr_ne u
  unfold State.countSample
  dsimp only
  have e1 : ∃ r, (if clip = true then s.wr (Ob.chanClipCount k) ((s.rd (Ob.chanClipCount k) + 1) % 2 ^ 32) else s) = { s with regs := r } := by split <;> exact ⟨_, rfl⟩
  refine ⟨?_, ?_, ?_, ?_, ?_⟩
  · rw [State.wr_only]
    cases clip <;> cases ov <;> cases subst && !(s.chanS k).calSubst
    all_goals simp only [Bool.false_eq_true, if_false, if_true]
    all_goals first | rfl | (rw [State.bumpBy_only]; done) | (rw [State.bumpBy_only]; rfl)
  · rw [w _ _ _ _ n1.symm]
    cases clip <;> cases ov <;> cases subst && !(s.chanS k).calSubst
    all_goals simp only [Bool.false_eq_true, if_false, if_true]
    all_goals simp [State.rd_bumpBy_ne _ _ _ _ n5, w _ _ _ _ n3]
  · rw [w _ _ _ _ n2.symm]
    cases clip <;> cases ov <;> cases subst && !(s.chanS k).calSubst
    all_goals simp only [Bool.false_eq_true, if_false, if_true]
    all_goals simp [State.rd_bumpBy_ne _ _ _ _ n6, w _ _ _ _ n3.symm]
  · rw [State.rd_wr_same]
    cases clip <;> cases ov <;> cases subst <;> cases (s.chanS k).calSubst
    all_goals simp only [Bool.false_eq_true, if_false, if_true, Bool.not_true, Bool.not_false, Bool.and_true, Bool.and_false]
    all_goals simp [State.rd_bumpBy_ne _ _ _ _ n4, w _ _ _ _ n1, w _ _ _ _ n2]
  · intro h; subst h
    rw [w _ _ _ _ n4.symm]
    cases clip <;> cases ov
    all_goals simp [w _ _ _ _ n5.symm, w _ _ _ _ n6.symm]
theorem clearStickies (l : List Nat) : ∀ (s : State), l.Nodup → l.foldl (fun s k => s.wr (Ob.chanFlags k) (s.rd (Ob.chanFlags k) &&& 0x87)) s = { s with regs := (l.foldl (fun s k => s.wr (Ob.chanFlags k) (s.rd (Ob.chanFlags k) &&& 0x87)) s).regs }
    ∧ ∀ k, (l.foldl (fun s k => s.wr (Ob.chanFlags k) (s.rd (Ob.chanFlags k) &&& 0x87)) s).rd (Ob.chanFlags k) = if k ∈ l then s.rd (Ob.chanFlags k) &&& 0x87 else s.rd (Ob.chanFlags k) := by
  induction l with
  | nil => intro s _; exact ⟨rfl, fun k => by simp⟩
  | cons a l ih =>
    intro s hn
    obtain ⟨g1, g2⟩ := ih (s.wr (Ob.chanFlags a) (s.rd (Ob.chanFlags a) &&& 0x87)) (List.nodup_cons.1 hn).2
    refine ⟨g1, fun k => (g2 k).trans ?_⟩
    rw [State.rd_wr]
    by_cases hk : k = a
    · subst hk; simp [(List.nodup_cons.1 hn).1]
    · simp [hk]

end Sys2Proof.Machine
end

