-- ==== Sys2Proof/Laws/OfHostLink.lean ====
section
/-! SUPPORT. The lemmas that the statements about host link rest on. -/

namespace Sys2Proof.Machine

open Sys2Proof

/-- A reset of the endpoint clears Bus Master Enable and a retraining under way, and ends window A's transaction (R353). -/
theorem State.endpointReset_facts (s : State) (d : Bool) :
    (s.endpointReset d).host.bme = false ∧ (s.endpointReset d).host.retrain = false ∧ (s.endpointReset d).dict.busySubmit = none
    ∧ (s.endpointReset d).dict.lastSubmit = 0 := by cases d <;> exact ⟨rfl, rfl, rfl, rfl⟩

/-- Without the link its rate, width and limit read zero (R353). -/
theorem State.endpointReset_down (s : State) (d : Bool) (h : d = true) :
    (s.endpointReset d).rd Ob.hlinkLinkRate = 0 ∧ (s.endpointReset d).rd Ob.hlinkLinkWidth = 0
    ∧ (s.endpointReset d).rd Ob.hlinkAdmittedLinkLimit = 0 := by
  subst h
  unfold State.endpointReset
  dsimp only
  rw [if_pos rfl]
  unfold State.wrs State.wrs State.wrs State.wrs
  refine ⟨?_, ?_, State.rd_wr_same _ _ _⟩
  · rw [State.rd_wr_ne _ _ _ _ (by decide), State.rd_wr_ne _ _ _ _ (by decide), State.rd_wr_same]
  · rw [State.rd_wr_ne _ _ _ _ (by decide), State.rd_wr_same]

end Sys2Proof.Machine
end

