-- ==== Sys2Proof/Laws/OfStop.lean ====
section
/-! SUPPORT. The lemmas that the statements about stop rest on. -/

namespace Sys2Proof.Machine

open Sys2Proof

theorem stopAsk_held (s : State) (c : Nat) (h : ¬ (s.power.change = none ∧ s.rd Ob.devRestoreState = 3)) :
    s.stopAsk c = { s with power := { s.power with stopWaits := some c, stopResult := some 0 } } := by
  unfold State.stopAsk
  rw [if_pos]
  rw [Bool.or_eq_true, Option.isSome_iff_ne_none, bne_iff_ne, ← not_and_or]; exact h
theorem stopAsk_now (s : State) (c : Nat) (h : s.power.change = none) (h2 : s.rd Ob.devRestoreState = 3) : s.stopAsk c = s.stopRequest c := by
  unfold State.stopAsk; rw [h, h2]; rfl
theorem stopRequest_force (s : State) (c : Nat) (h : c = 2 ∨ c = 4) : s.stopRequest c = ({ s with power := { s.power with
      stopEntry := some { cause := c, at0 := s.now, down := false }, stopWaits := none, stopResult := some 0, stopReqLow := false } } : State).forceStop := by
  unfold State.stopRequest; dsimp only; rw [if_pos h]
theorem stopRequest_none (s : State) (c : Nat) (h : ¬ (c = 2 ∨ c = 4)) (h2 : ((List.range 64).find? fun n => s.active n) = none) :
    s.stopRequest c = { s with power := { s.power with
      stopEntry := some { cause := c, at0 := s.now, down := false }, stopWaits := none, stopResult := some 0, stopReqLow := false } } := by
  unfold State.stopRequest; dsimp only; rw [if_neg h, h2]
theorem stopRequest_some (s : State) (c n : Nat) (h : ¬ (c = 2 ∨ c = 4)) (h2 : ((List.range 64).find? fun n => s.active n) = some n) :
    s.stopRequest c = { s.logRefusal (0x0100 + n) 1 with power := { (s.logRefusal (0x0100 + n) 1).power with
      stopWaits := none, stopResult := some 1, stopReqLow := c == 3 } } := by
  unfold State.stopRequest; dsimp only; rw [if_neg h, h2]
theorem logRefusal_power (s : State) (a b : Nat) : (s.logRefusal a b).power = s.power := by
  unfold State.logRefusal State.wrs State.wrs State.wrs State.wrs; rw [State.bump_only]; rfl
theorem pinStop_idle (s : State) (h : s.power.run = false ∨ s.steward.restarting = true ∨ s.stopBlocked = true) : s.pinStop = s := by
  unfold State.pinStop; rw [if_pos]; rw [Bool.or_eq_true, Bool.or_eq_true, Bool.not_eq_true', or_assoc]; exact h
theorem pinStop_asks (s : State) (h : s.power.run = true) (h2 : s.steward.restarting = false) (h3 : s.stopBlocked = false) :
    s.pinStop = s.stopAsk (if s.rdB Ob.stopPinForce then 4 else 3) := by
  unfold State.pinStop; rw [if_neg]; rw [h, h2, h3]; decide

end Sys2Proof.Machine
end

