-- ==== Sys2Proof/Laws/OfDisplay.lean ====
section
/-! SUPPORT. The lemmas that the statements about display rest on. -/

namespace Sys2Proof.Machine

open Sys2Proof

/-- A served write that leaves no abort behind is accepted. -/
theorem State.noting_done {s : State} {t : Nat} {f : Act} {u : State} (hr : s.Ready) (hf : f (s.advance t) = .ok u) (h : u.dict.abortWith = none) :
    (Host.Outcome.next (s.serveNoting t f) : Outcome) = u.accepted := by
  obtain ⟨h1, h2, h3⟩ := hr
  have h1' : (s.advance t).power.stewardUp = true := h1
  have h2' : (s.advance t).steward.restarting = false := h2
  have h3' : (s.advance t).rd Ob.devRestoreState = 3 := h3
  unfold State.serveNoting State.closing
  simp only [h1', h2', h3', hf, h]
  rfl

/-- A served write that notes its abort leaves its readout (R544). -/
theorem State.noting_abort {s : State} {t : Nat} {f : Act} {u : State} {c : Nat} (hr : s.Ready) (hf : f (s.advance t) = .ok (u.abortAs c)) :
    (Host.Outcome.next (s.serveNoting t f) : Outcome) = .next (({ u with dict := { u.dict with abortWith := none } } : State).respond c) := by
  obtain ⟨h1, h2, h3⟩ := hr
  have h1' : (s.advance t).power.stewardUp = true := h1
  have h2' : (s.advance t).steward.restarting = false := h2
  have h3' : (s.advance t).rd Ob.devRestoreState = 3 := h3
  unfold State.serveNoting State.closing
  simp only [h1', h2', h3', hf]
  rfl

/-- A served write that fails its checks aborts. -/
theorem State.noting_aborted {s : State} {t : Nat} {f : Act} {c : Nat} (hr : s.Ready) (hf : f (s.advance t) = .error c) :
    (Host.Outcome.next (s.serveNoting t f) : Outcome) = s.aborted t c := by
  obtain ⟨h1, h2, h3⟩ := hr
  have h1' : (s.advance t).power.stewardUp = true := h1
  have h2' : (s.advance t).steward.restarting = false := h2
  have h3' : (s.advance t).rd Ob.devRestoreState = 3 := h3
  unfold State.serveNoting
  simp only [h1', h2', h3', hf]
  rfl

theorem State.foldl_dict {α : Type} (f : State → α → State) (h : ∀ s x, (f s x).dict = s.dict) (l : List α) :
    ∀ s : State, (l.foldl f s).dict = s.dict := by
  induction l with
  | nil => intro s; rfl
  | cons x l ih => intro s; exact (ih (f s x)).trans (h s x)

theorem State.burstCounts_dict (s : State) : s.burstCounts.dict = s.dict := by
  unfold State.burstCounts; apply State.foldl_dict; intro s q; dsimp only; rw [State.wr_dict]

/-- Recomputing what is charged leaves the dictionary server alone. -/
theorem State.recharge_dict (s : State) : s.recharge.dict = s.dict := by
  unfold State.recharge
  dsimp only
  rw [State.wr_dict, State.burstCounts_dict, State.wrs_dict]

theorem State.displayOff_dict (s : State) : s.displayOff.dict = s.dict := by
  unfold State.displayOff
  dsimp only
  rw [State.recharge_dict, State.wrs_dict]
  split
  · unfold State.unbindChannel; exact State.wrs_dict s _
  · rfl

theorem State.displayUp_dict (s : State) (c p : Nat) : (s.displayUp c p).dict = s.dict := by
  unfold State.displayUp; exact State.wrs_dict s _

theorem State.bindChannel_dict (s : State) (a b c d e f g : Nat) : (s.bindChannel a b c d e f g).dict = s.dict := by
  unfold State.bindChannel; exact State.wrs_dict s _

end Sys2Proof.Machine
end

