-- ==== Sys2Proof/Laws/OfDictionary.lean ====
section
/-! SUPPORT. The lemmas that the statements about dictionary rest on. -/

namespace Sys2Proof.Machine

open Sys2Proof

/-- A served write that may note an abort ends as its closing says. -/
theorem State.noting_ok {s : State} {t : Nat} {f : Act} {u : State} (hr : s.Ready) (hf : f (s.advance t) = .ok u) :
    (Host.Outcome.next (s.serveNoting t f) : Outcome) = .next u.closing := by
  obtain ⟨h1, h2, h3⟩ := hr
  have h1' : (s.advance t).power.stewardUp = true := h1
  have h2' : (s.advance t).steward.restarting = false := h2
  have h3' : (s.advance t).rd Ob.devRestoreState = 3 := h3
  unfold State.serveNoting
  simp only [h1', h2', h3', hf]
  rfl

end Sys2Proof.Machine
end

