-- ==== Sys2Proof/Laws/OfLifetime.lean ====
section
/-! SUPPORT. The lemmas that the statements about lifetime rest on. -/

namespace Sys2Proof.Machine

open Sys2Proof

theorem State.faultLog_frame (s : State) (cls cause unit slot flags detail : Nat) :
    (s.faultLog cls cause unit slot flags detail).steward = s.steward ∧ (s.faultLog cls cause unit slot flags detail).now = s.now := by
  have hb : ∀ (u : State) (k : Nat), (u.bump k).steward = u.steward ∧ (u.bump k).now = u.now := fun u k => by
    rw [State.bump_only]; exact ⟨rfl, rfl⟩
  have he : ∀ (u : State) (e : FaultEntry), (u.emcy e).steward = u.steward ∧ (u.emcy e).now = u.now := fun u e => by
    unfold State.emcy; split <;> exact ⟨rfl, rfl⟩
  have hm : ∀ (u : State) (v : Nat), (u.msix v).steward = u.steward ∧ (u.msix v).now = u.now := fun u v => by
    unfold State.msix; split <;> exact ⟨rfl, rfl⟩
  have hw : ∀ (u : State) (k v : Nat), (u.wr k v).steward = u.steward ∧ (u.wr k v).now = u.now := fun u k v => ⟨rfl, rfl⟩
  unfold State.faultLog
  dsimp only
  rw [(hm _ _).1, (hm _ _).2, (he _ _).1, (he _ _).2, (hw _ _ _).1, (hw _ _ _).2, (hw _ _ _).1, (hw _ _ _).2]
  split
  · exact hb _ _
  · exact ⟨rfl, rfl⟩
/-- The scrub of the steward memory leaves the steward's own state and the time. -/
theorem State.stewardScrub_frame (s : State) (err : Nat) : (s.stewardScrub err).steward = s.steward ∧ (s.stewardScrub err).now = s.now := by
  unfold State.stewardScrub State.countCorrected State.countUncorrected
  split
  · exact ⟨rfl, rfl⟩
  · split
    · exact State.faultLog_frame _ 6 6 0 0xFF 0 0
    · exact ⟨rfl, rfl⟩

end Sys2Proof.Machine
end

