-- ==== Sys2Proof/Laws/OfEngine.lean ====
section
/-! SUPPORT. The lemmas that the statements about engine rest on. -/

namespace Sys2Proof.Machine

open Sys2Proof

theorem runM2_some (x : Engine) (u : Uop) (h : x.m2 = some u) : x.runM2 = x.stageM2 u := by
  unfold Engine.runM2; rw [h]
theorem eachAcc_acc (x : Engine) (acc : Nat) (f : Engine → Nat → Engine) (g : Int × Int → Int × Int)
    (hf : ∀ (c : Engine) k j, k < 2 → j < 2 → ((f c k).accRe j, (f c k).accIm j) = if j = k then g (c.accRe k, c.accIm k) else (c.accRe j, c.accIm j))
    (k : Nat) (hk : k < 2) : ((x.eachAcc acc f).accRe k, (x.eachAcc acc f).accIm k) = if bit acc k then g (x.accRe k, x.accIm k) else (x.accRe k, x.accIm k) := by
  have a := hf x 0 k (by omega) hk
  have b := hf x 1 k (by omega) hk
  have c := hf (f x 0) 1 k (by omega) hk
  have d := hf x 0 1 (by omega) (by omega)
  have d' := hf x 0 0 (by omega) (by omega)
  unfold Engine.eachAcc
  dsimp only
  obtain rfl | rfl : k = 0 ∨ k = 1 := by omega
  all_goals
    cases h0 : bit acc 0 <;> cases h1 : bit acc 1
    all_goals simp at a b c d d' ⊢
    all_goals simp [a, b, c]
theorem srchStep_acc (e : Engine) (k : Nat) (m : Bool) (ctl : Nat) (v : Int) (j : Nat) (hk : k < 2) (hj : j < 2) :
    (e.srchStep k m ctl v).1.accRe j = (if j = k then (if m then min (e.accRe k) v else max (e.accRe k) v) else e.accRe j)
    ∧ (e.srchStep k m ctl v).1.accIm j = e.accIm j := by
  have h := Engine.setAcc_acc e k v (e.accIm k) j hk hj
  have h2 : ∀ b : Engine, ∀ c d, (b.put c d).accRe j = b.accRe j ∧ (b.put c d).accIm j = b.accIm j := fun b c d => ⟨rfl, rfl⟩
  unfold Engine.srchStep
  cases m
  all_goals
    simp only [h2, Bool.false_eq_true, if_false, if_true]
    split
    · rename_i hc
      simp only [h2, h]
      by_cases hjk : j = k
      · subst hjk; simp at hc ⊢; omega
      · simp [hjk]
    · rename_i hc
      by_cases hjk : j = k
      · subst hjk; simp at hc ⊢; omega
      · simp [hjk]
theorem srchStep_raw (e : Engine) (k : Nat) (m : Bool) (ctl : Nat) (v : Int) (j : Nat) (hj : j ≠ 0x16) (_ : k < 2) :
    (e.srchStep k m ctl v).1.raw j = if j = 0x14 + k then (e.raw (0x14 + k) + 1) % 65536 else
      if j = 0x10 + k ∧ ((if m then decide (v < e.accRe k) else decide (e.accRe k < v)) || (decide (v = e.accRe k) && bit ctl (11 + k))) = true then e.raw (0x14 + k) else e.raw j := by
  unfold Engine.srchStep
  cases m
  all_goals
    simp only [Bool.false_eq_true, if_false, if_true, Engine.raw_put]
    by_cases h1 : j = 0x14 + k
    · rw [if_pos h1, if_pos h1]
    · rw [if_neg h1, if_neg h1]
      split
      · rename_i h
        rw [Engine.raw_put, Engine.raw_setAcc _ _ _ _ _ hj]
        by_cases hj2 : j = 0x10 + k <;> simp [hj2, h]
      · rename_i h
        by_cases hj2 : j = 0x10 + k <;> simp [hj2, h]
theorem sub_raw (e : Engine) (k : Nat) (v : Bool) (j : Nat) (hj : j ≠ 0x16) : (e.setG k v).raw j = e.raw j := by
  unfold Engine.setG; rw [Engine.raw_put, if_neg hj]
theorem bits_one (n i : Nat) : bits n i i < 2 := by
  unfold bits
  have : i + 1 - i = 1 := by omega
  rw [this]; exact Nat.mod_lt _ (by decide)
theorem Engine.elem_setWord (e : Engine) (b a v b' i : Nat) (hb : b < 2) (hb' : b' < 2) (hi : i < 4096) :
    (e.setWord b a v).elem b' i = if b' = b ∧ i = a % 4096 / 2 * 2 then v % 2 ^ 32
      else if b' = b ∧ i = a % 4096 / 2 * 2 + 1 then v / 2 ^ 32 % 2 ^ 32 else e.elem b' i := by
  unfold Engine.setWord
  rw [Engine.elem_setElem _ _ _ _ _ _ hb hb', Engine.elem_setElem _ _ _ _ _ _ hb hb']
  have h1 : (a / 2 * 2) % 4096 = a % 4096 / 2 * 2 := by omega
  have h2 : (a / 2 * 2 + 1) % 4096 = a % 4096 / 2 * 2 + 1 := by omega
  rw [h1, h2, Nat.mod_eq_of_lt hi]
  by_cases h : b' = b
  · by_cases h3 : i = a % 4096 / 2 * 2 <;> by_cases h4 : i = a % 4096 / 2 * 2 + 1
    · omega
    · simp only [h, h3, if_true, true_and, show ¬ (a % 4096 / 2 * 2 = a % 4096 / 2 * 2 + 1) by omega, if_false]
    · simp only [h, h4, if_true, true_and, show ¬ (a % 4096 / 2 * 2 + 1 = a % 4096 / 2 * 2) by omega, if_false]
    · simp only [h3, h4, and_false, if_false]
  · simp only [h, false_and, if_false]
theorem Engine.setElem_one (z : Engine) (x : Engine) (hz : z.sameMem x) (b a v : Nat) (hb : b < 2) :
    ∀ b' i, b' < 2 → i < 4096 → (z.setElem b a v).elem b' i = if b' = b ∧ i = a % 4096 then v % 2 ^ 32 else x.elem b' i := by
  intro b' i hb' hi
  rw [Engine.elem_setElem _ _ _ _ _ _ hb hb', Nat.mod_eq_of_lt hi, hz.elem]
theorem Engine.setWord_two (z : Engine) (x : Engine) (hz : z.sameMem x) (b a v : Nat) (hb : b < 2) :
    ∀ b' i, b' < 2 → i < 4096 → (z.setWord b a v).elem b' i = if b' = b ∧ i = a % 4096 / 2 * 2 then v % 2 ^ 32
      else if b' = b ∧ i = a % 4096 / 2 * 2 + 1 then v / 2 ^ 32 % 2 ^ 32 else x.elem b' i := by
  intro b' i hb' hi
  rw [Engine.elem_setWord _ _ _ _ _ _ hb hb' hi, hz.elem]
theorem State.atMF_some (s : State) (t : Nat) (e : Nat) (p : Engine → Nat → Bool) (h : (s.eng e).Plain)
    (hp : p (s.eng e) (tget (dconst 0) (s.eng e).micro (s.eng e).pc) = true) : (s.advance t).atMF e p = true := by
  unfold State.atMF
  simp only [State.eng_advance, hp, h.1]; rfl
theorem State.cycleMF (s : State) (t : Nat) (e : Nat) (p : Engine → Nat → Bool) (h : (s.eng e).Plain)
    (hp : p (s.eng e) (tget (dconst 0) (s.eng e).micro (s.eng e).pc) = true) :
    (s.advance t).cycleIf ((s.advance t).atMF e p) e = (s.advance t).setEng e ((s.eng e).cycle false false).1 := by
  have : (s.advance t).atMF e p = true := State.atMF_some s t e p h hp
  unfold State.cycleIf
  rw [this, if_pos rfl, State.engineCycle_plain _ _ (by exact h)]
  rfl
theorem bits_setBits_ldepth (n v : Nat) (h : v < 8) : bits (setBits n 12 10 v) 12 10 = v := by
  unfold setBits bits
  simp only [show 12 + 1 - 10 = 3 by omega, show 2 ^ 10 = 1024 by norm_num, show 2 ^ 3 = 8 by norm_num]
  omega
theorem bits_setBits_same (n : Nat) : setBits n 12 10 (bits n 12 10) = n := by
  unfold setBits bits
  simp only [show 12 + 1 - 10 = 3 by omega, show 2 ^ 10 = 1024 by norm_num, show 2 ^ 3 = 8 by norm_num]
  omega
theorem Engine.ldepth_setLdepth (e : Engine) (d : Nat) (h : d ≤ 4) : (e.setLdepth d).ldepth = d := by
  unfold Engine.setLdepth Engine.ldepth
  rw [Engine.raw_put, if_pos rfl, bits_setBits_ldepth _ _ (by omega)]
  omega
theorem Engine.ldepth_put (e : Engine) (c v : Nat) (h : c ≠ 0x16) : (e.put c v).ldepth = e.ldepth := by
  unfold Engine.ldepth; rw [Engine.raw_put, if_neg (by omega)]
/-- With nothing in OF and NF, the loop counters and LDEPTH are those of the sequencer. -/
theorem Engine.mergeLoops_none (a e0 m : Engine) (ho : e0.of = none) (hn : e0.nf = none) :
    (∀ i, i < 4 → (a.mergeLoops e0 m).raw (0x0C + i) = m.raw (0x0C + i)) ∧ (a.mergeLoops e0 m).ldepth = m.ldepth := by
  have hw : e0.written = [] := by unfold Engine.written; rw [ho, hn]; rfl
  have hm : m.ldepth ≤ 4 := by unfold Engine.ldepth; omega
  unfold Engine.mergeLoops
  dsimp only
  rw [hw]
  simp only [List.contains_nil, Bool.false_eq_true, if_false]
  refine ⟨fun i hi => ?_, Engine.ldepth_setLdepth _ _ hm⟩
  unfold Engine.setLdepth
  rw [Engine.raw_put, if_neg (by omega)]
  simp only [show List.range 4 = [0, 1, 2, 3] by rfl, List.foldl_cons, List.foldl_nil, Engine.raw_put]
  have : i = 0 ∨ i = 1 ∨ i = 2 ∨ i = 3 := by omega
  rcases this with rfl | rfl | rfl | rfl <;> simp
theorem Engine.plain_loops (e : Engine) (h : e.Plain) (ho : e.of = none) (hn : e.nf = none) :
    (∀ i, i < 4 → (e.cycle false false).1.raw (0x0C + i) = (e.sequence (tget (dconst 0) e.micro e.pc)).1.raw (0x0C + i))
    ∧ (e.cycle false false).1.ldepth = (e.sequence (tget (dconst 0) e.micro e.pc)).1.ldepth := by
  have hm := Engine.mergeLoops_none (e.stages true).1 e (e.stageMF (tget (dconst 0) e.micro e.pc)).1 ho hn
  rw [Engine.cycle_plain e h]
  have hmf : ∀ c, (e.stageMF (tget (dconst 0) e.micro e.pc)).1.raw c = (e.sequence (tget (dconst 0) e.micro e.pc)).1.raw c := by
    intro c; rw [Engine.stageMF_plain e _ h.2.2.1 h.2.2.2.1]; rfl
  have hld : ∀ a : Engine, a.ldepth = min 4 (bits (a.raw 0x16) 12 10) := fun a => rfl
  constructor
  · intro i hi
    refine Eq.trans ?_ ((hm.1 i hi).trans (hmf _))
    unfold Engine.countCycle
    rw [Engine.raw_put, if_neg (by omega)]
    rfl
  · refine Eq.trans ?_ (hm.2.trans ?_)
    · unfold Engine.countCycle
      rw [Engine.ldepth_put _ _ _ (by omega)]
      rfl
    · rw [hld, hld, hmf]
theorem Engine.raw_writeReg (e : Engine) (c v j : Nat) : (e.writeReg c v).raw j =
    if j = c ∧ c ≠ 0x16 ∧ c ≤ 0x18 then v &&& regMask c
    else if j = c ∧ c = 0x16 then setBits (setBits (e.raw 0x16) 12 10 (min 4 (bits v 12 10))) 9 8 (bits v 9 8) else e.raw j := by
  unfold Engine.writeReg
  by_cases h : c = 0x16
  · simp only [h, if_true, Engine.raw_put]
    by_cases hj : j = 0x16 <;> simp [hj]
  · by_cases h2 : c = 0x19 ∨ c = 0x1A ∨ 0x1A < c
    · simp only [h, h2, if_true, if_false]
      have : ¬ (c ≤ 0x18) := by omega
      simp [this]
    · simp only [h, h2, if_false, Engine.raw_put]
      have : c ≤ 0x18 := by omega
      by_cases hj : j = c <;> simp [hj, h, this]
theorem Engine.raw_mergeLoops_written (e e0 m : Engine) (j : Nat) (h : j ≠ 0x16 ∨ 0x16 ∈ e0.written) (hw : j < 0x0C ∨ 0x0F < j ∨ j ∈ e0.written) :
    (e.mergeLoops e0 m).raw j = e.raw j := by
  have hf : ∀ (l : List Nat) (a : Engine), (∀ i ∈ l, i < 4) → (l.foldl (fun (e : Engine) i =>
      if e0.written.contains (0x0C + i) then e else e.put (0x0C + i) (m.raw (0x0C + i))) a).raw j = a.raw j := by
    intro l
    induction l with
    | nil => intro a _; rfl
    | cons i l ih =>
      intro a hl
      rw [List.foldl_cons, ih _ (fun i hi => hl i (List.mem_cons_of_mem _ hi))]
      have := hl i List.mem_cons_self
      split
      · rfl
      · rename_i hc
        rw [Engine.raw_put, if_neg]
        rintro rfl
        simp at hc
        rcases hw with hw | hw | hw
        · omega
        · omega
        · exact hc hw
  have hr := hf (List.range 4) e (fun i hi => List.mem_range.mp hi)
  unfold Engine.mergeLoops
  dsimp only
  split
  · exact hr
  · rename_i hc
    unfold Engine.setLdepth
    rw [Engine.raw_put, if_neg]
    · exact hr
    · rintro rfl
      rcases h with h | h
      · exact h rfl
      · simp at hc; exact hc h
/-- With M2 and WB empty, the registers of a plain cycle are those that OF and NF leave, but for the loop counters and LDEPTH that they
do not write, and cyc. -/
theorem Engine.plain_raw_written (e : Engine) (h : e.Plain) (hm : e.m2 = none) (hw : e.wb = none) (j : Nat) (h4 : j ≠ 0x1A)
    (h1 : j ≠ 0x16 ∨ 0x16 ∈ e.written) (h2 : j < 0x0C ∨ 0x0F < j ∨ j ∈ e.written) :
    (e.cycle false false).1.raw j = (Engine.runNF e (Engine.runOF e e true) true).1.raw j := by
  rw [Engine.cycle_plain e h]
  show ((e.stages true).1.sequencedPlain e _).countCycle.raw j = _
  unfold Engine.countCycle
  rw [Engine.raw_put, if_neg h4]
  refine Eq.trans (b := ((e.stages true).1.mergeLoops e (e.stageMF (tget (dconst 0) e.micro e.pc)).1).raw j) rfl ?_
  rw [Engine.raw_mergeLoops_written _ _ _ _ h1 h2]
  unfold Engine.stages Engine.runM2 Engine.runWB
  rw [hm, hw]
  rfl
theorem Engine.plain_cyc (e : Engine) (h : e.Plain) (hm : e.m2 = none) (hw : e.wb = none) :
    (e.cycle false false).1.raw 0x1A = ((Engine.runNF e (Engine.runOF e e true) true).1.raw 0x1A + 1) % 2 ^ 64 := by
  have hq : ((e.stages true).1.sequencedPlain e (e.stageMF (tget (dconst 0) e.micro e.pc)).1).raw 0x1A = (Engine.runNF e (Engine.runOF e e true) true).1.raw 0x1A := by
    refine Eq.trans (b := ((e.stages true).1.mergeLoops e (e.stageMF (tget (dconst 0) e.micro e.pc)).1).raw 0x1A) rfl ?_
    rw [Engine.raw_mergeLoops_written _ _ _ _ (by omega) (by omega)]
    unfold Engine.stages Engine.runM2 Engine.runWB
    rw [hm, hw]
    rfl
  rw [Engine.cycle_plain e h]
  show ((e.stages true).1.sequencedPlain e _).countCycle.raw 0x1A = _
  unfold Engine.countCycle
  rw [Engine.raw_put, if_pos rfl, hq]
theorem bits3 (v a : Nat) : bits (setBits (setBits a 12 10 (min 4 (bits v 12 10))) 9 8 (bits v 9 8)) 12 10 = min 4 (bits v 12 10) := by
  unfold setBits bits
  simp only [show 12 + 1 - 10 = 3 by omega, show 9 + 1 - 8 = 2 by omega, show 2 ^ 10 = 1024 by norm_num, show 2 ^ 3 = 8 by norm_num, show 2 ^ 8 = 256 by norm_num, show 2 ^ 2 = 4 by norm_num]
  omega
/-- What a register takes when one register write is all that OF and NF do to it. -/
theorem Engine.plain_write (x : Engine) (h : x.Plain) (hm : x.m2 = none) (hw : x.wb = none) (b : Engine) (r v : Nat)
    (h19 : b.raw 0x19 = x.raw 0x19) (h1a : b.raw 0x1A = x.raw 0x1A) (hr : r ∈ x.written)
    (hb : ∀ j, (j ≠ 0x19 ∨ r = 0x19) → (Engine.runNF x (Engine.runOF x x true) true).1.raw j = (b.writeReg r v).raw j) :
    (r ≤ 0x18 → r ≠ 0x16 → (x.cycle false false).1.raw r = v &&& regMask r)
    ∧ (r = 0x16 → (x.cycle false false).1.ldepth = min 4 (bits v 12 10))
    ∧ (r = 0x19 → (x.cycle false false).1.raw 0x19 = x.raw 0x19)
    ∧ (r = 0x1A → (x.cycle false false).1.raw 0x1A = (x.raw 0x1A + 1) % 2 ^ 64) := by
  refine ⟨fun h1 h2 => ?_, fun h1 => ?_, fun h1 => ?_, fun h1 => ?_⟩
  · rw [Engine.plain_raw_written x h hm hw r (by omega) (Or.inl h2) (Or.inr (Or.inr hr)), hb _ (by omega), Engine.raw_writeReg, if_pos ⟨rfl, h2, h1⟩]
  · subst h1
    unfold Engine.ldepth
    rw [Engine.plain_raw_written x h hm hw 0x16 (by omega) (Or.inr hr) (by omega), hb _ (by omega), Engine.raw_writeReg, if_neg (by omega), if_pos ⟨rfl, rfl⟩, bits3]
    omega
  · subst h1
    rw [Engine.plain_raw_written x h hm hw 0x19 (by omega) (by omega) (by omega), hb _ (by omega), Engine.raw_writeReg, if_neg (by omega), if_neg (by omega), h19]
  · subst h1
    rw [Engine.plain_cyc x h hm hw, hb _ (by omega), Engine.raw_writeReg, if_neg (by omega), if_neg (by omega), h1a]
/-- The updates of a microword leave the registers that are neither pointer, modifier, loop counter nor index. -/
theorem Engine.raw_nfUpdates (x a : Engine) (u : Uop) (j : Nat) (hj : 0x12 ≤ j) : (Engine.nfUpdates x a u).raw j = a.raw j := by
  have hf : ∀ (f : Engine) (l : List Nat) (a : Engine), (∀ i ∈ l, i < 0x12) →
      (l.foldl (fun (e : Engine) c => if f.raw c = x.raw c then e else e.put c (f.raw c)) a).raw j = a.raw j := by
    intro f l
    induction l with
    | nil => intro a _; rfl
    | cons i l ih =>
      intro a hl
      rw [List.foldl_cons, ih _ (fun i hi => hl i (List.mem_cons_of_mem _ hi))]
      have := hl i List.mem_cons_self
      split
      · rfl
      · rw [Engine.raw_put, if_neg (by omega)]
  unfold Engine.nfUpdates
  exact hf _ _ _ fun i hi => List.mem_range.mp hi
theorem transfer_aux (x : Engine) (u : Uop) (h : x.Plain) (hu : x.nf = some u) (ho : x.of = none)
    (hc : nCtl u.nano ≠ 1) (hr : nRtOp u.nano ≠ 0) (hd : nCtl u.nano ≠ 2 ∨ nRtDst u.nano ≠ 0x19) (hm : x.m2 = none) (hw : x.wb = none) :
    (nRtDst u.nano ≤ 0x18 → nRtDst u.nano ≠ 0x16 → (x.cycle false false).1.raw (nRtDst u.nano) = x.rtValue u.nano &&& regMask (nRtDst u.nano))
    ∧ (nRtDst u.nano = 0x16 → (x.cycle false false).1.ldepth = min 4 (bits (x.rtValue u.nano) 12 10))
    ∧ (nRtDst u.nano = 0x19 → (x.cycle false false).1.raw 0x19 = x.raw 0x19)
    ∧ (nRtDst u.nano = 0x1A → (x.cycle false false).1.raw 0x1A = (x.raw 0x1A + 1) % 2 ^ 64) := by
  refine Engine.plain_write x h hm hw (Engine.nfUpdates x x u) _ _ (Engine.raw_nfUpdates x x u _ (by omega)) (Engine.raw_nfUpdates x x u _ (by omega)) ?_ ?_
  · unfold Engine.written; rw [ho, hu]; dsimp only; rw [if_neg hr]; simp
  · intro j hj
    unfold Engine.runNF Engine.runOF
    rw [ho, hu]
    show (Engine.nfCtl x (Engine.nfTransfer x (Engine.nfUpdates x x u) u) u).raw j = _
    have ht : Engine.nfTransfer x (Engine.nfUpdates x x u) u = (Engine.nfUpdates x x u).writeReg (nRtDst u.nano) (x.rtValue u.nano) := by
      unfold Engine.nfTransfer; rw [if_pos (by simpa using hr)]
    rw [ht]
    unfold Engine.nfCtl
    dsimp only
    rw [if_neg hc]
    by_cases h2 : nCtl u.nano = 2
    · rw [if_pos h2]
      show (((Engine.nfUpdates x x u).writeReg _ _).put _ _).raw j = _
      rw [Engine.raw_put, if_neg]
      omega
    · rw [if_neg h2]; split <;> rfl
theorem Engine.raw_runM2_rxn (x : Engine) : x.runM2.1.raw 0x19 = x.raw 0x19 := by
  have hacc : ∀ (a : Engine) k kind ctl f, k < 2 → (a.accOp k kind ctl f).1.raw 0x19 = a.raw 0x19 := by
    intro a k kind ctl f hk; unfold Engine.accOp; dsimp only; rw [Engine.raw_put, if_neg (by omega), Engine.raw_setAcc _ _ _ _ _ (by omega)]
  have hs : ∀ (a : Engine) k m ctl v, k < 2 → (a.srchStep k m ctl v).1.raw 0x19 = a.raw 0x19 := by
    intro a k m ctl v hk
    unfold Engine.srchStep; dsimp only
    rw [Engine.raw_put, if_neg (by omega)]
    split
    · split
      · rw [Engine.raw_put, if_neg (by omega), Engine.raw_setAcc _ _ _ _ _ (by omega)]
      · rfl
    · split
      · rw [Engine.raw_put, if_neg (by omega), Engine.raw_setAcc _ _ _ _ _ (by omega)]
      · rfl
  have hg : ∀ (a : Engine) k v, (a.setG k v).raw 0x19 = a.raw 0x19 := by
    intro a k v; unfold Engine.setG; rw [Engine.raw_put, if_neg (by omega)]
  have he : ∀ (a : Engine) acc (f : Engine → Nat → Engine), (∀ c k, k < 2 → (f c k).raw 0x19 = c.raw 0x19) → (a.eachAcc acc f).raw 0x19 = a.raw 0x19 := by
    intro a acc f hf
    unfold Engine.eachAcc; dsimp only
    split <;> split <;> simp only [hf _ _ (show (0:Nat) < 2 by omega), hf _ _ (show (1:Nat) < 2 by omega)]
  unfold Engine.runM2
  split
  · rename_i u _
    unfold Engine.stageM2; dsimp only
    repeat' split
    · unfold Engine.arith; dsimp only; repeat' split
      all_goals simp only [hacc _ _ _ _ _ (show (0:Nat) < 2 by omega), hacc _ _ _ _ _ (show (1:Nat) < 2 by omega)]
    · exact he _ _ _ fun c k hk => by unfold Engine.clrAcc; rw [Engine.raw_put, if_neg (by omega), Engine.raw_setAcc _ _ _ _ _ (by omega)]
    · exact he _ _ _ fun c k hk => by unfold Engine.ldx; dsimp only; rw [Engine.raw_put, if_neg (by omega), Engine.raw_setAcc _ _ _ _ _ (by omega)]
    · exact he _ _ _ fun c k hk => by unfold Engine.restore; dsimp only; split <;> rw [Engine.raw_setAcc _ _ _ _ _ (by omega)]
    · unfold Engine.srch; dsimp only; split
      · rw [hg, hg, hs _ _ _ _ _ (by omega), hs _ _ _ _ _ (by omega)]
      · rw [hg, hs _ _ _ _ _ (by split <;> omega), hs _ _ _ _ _ (by split <;> omega)]
    · exact he _ _ _ fun c k hk => by unfold Engine.sinit; rw [hg, Engine.raw_put, if_neg (by omega), Engine.raw_put, if_neg (by omega), Engine.raw_setAcc _ _ _ _ _ (by omega)]
    · exact he _ _ _ fun c k hk => by unfold Engine.norm; rw [Engine.raw_put, if_neg (by omega)]
    · rfl
  · rfl
theorem Engine.raw_loads_rxn (l : List (Nat × Nat)) : ∀ a : Engine, (l.foldl (fun (e : Engine) l => e.writeReg l.1 l.2) a).raw 0x19 = a.raw 0x19 := by
  induction l with
  | nil => intro a; rfl
  | cons p l ih =>
    intro a
    rw [List.foldl_cons, ih, Engine.raw_writeReg]
    by_cases h : p.1 = 0x19
    · rw [if_neg (by omega), if_neg (by omega)]
    · rw [if_neg (by omega), if_neg (by omega)]
theorem Engine.raw_runOF_rxn (x a : Engine) (y : Bool) : (Engine.runOF x a y).raw 0x19 = a.raw 0x19 := by
  unfold Engine.runOF
  split
  · split
    · exact Engine.raw_loads_rxn _ _
    · rfl
  · rfl
theorem Engine.raw_beforeCtl (x a : Engine) (u : Uop) : (Engine.nfTransfer x (Engine.nfUpdates x a u) u).raw 0x19 = a.raw 0x19 := by
  unfold Engine.nfTransfer
  split
  · rw [Engine.raw_writeReg, if_neg (by omega), if_neg (by omega), Engine.raw_nfUpdates _ _ _ _ (by omega)]
  · exact Engine.raw_nfUpdates _ _ _ _ (by omega)
theorem Engine.beforeCtl_sansR (x a : Engine) (u : Uop) : (Engine.nfTransfer x (Engine.nfUpdates x a u) u).sansR = a.sansR := by
  have h1 : (Engine.nfUpdates x a u).sansR = a.sansR := by
    unfold Engine.nfUpdates; dsimp only
    exact a.foldl_sansR _ (fun a c => by split <;> rfl) (List.range 0x12)
  unfold Engine.nfTransfer; split
  · rw [Engine.writeReg_sansR, h1]
  · exact h1
/-- The view of what the stages before NF leave of the queue, the event and the units. -/
theorem Engine.beforeNF (x : Engine) (u : Uop) : (Engine.nfTransfer x (Engine.nfUpdates x (Engine.runOF x x.runM2.1 true) u) u).sansA = x.sansA := by
  have h1 := Engine.beforeCtl_sansR x (Engine.runOF x x.runM2.1 true) u
  have h2 := Engine.runOF_sansR x.runM2.1 x true
  have h3 := Engine.runM2_sansA x
  have h4 := h1.trans h2
  exact (show Engine.sansA (Engine.sansR _) = Engine.sansA (Engine.sansR _) from congrArg Engine.sansA h4).trans h3
/-- What NF leaves of a field that no later stage changes. -/
theorem Engine.plain_nf (x : Engine) (u : Uop) (h : x.Plain) (hu : x.nf = some u) :
    let z := Engine.nfCtl x (Engine.nfTransfer x (Engine.nfUpdates x (Engine.runOF x x.runM2.1 true) u) u) u
    (x.cycle false false).1.sends = z.sends ∧ (x.cycle false false).1.unreleased = z.unreleased ∧ (x.cycle false false).1.ev = z.ev
    ∧ (x.cycle false false).1.event = z.event ∧ (x.cycle false false).1.stopping = z.stopping ∧ (x.cycle false false).1.saving = z.saving := by
  intro z
  obtain ⟨a, ha, hc⟩ := Engine.cycle_plain_sansR x h
  have hz : (Engine.runNF x (Engine.runOF x x.runM2.1 true) true).1 = z := by unfold Engine.runNF; rw [hu]; rfl
  have h1 : ∃ b : Engine, b.sansR = z.sansR ∧ True := ⟨z, rfl, trivial⟩
  have hw := Engine.runWB_sansM z x
  have key : ∀ {α : Type} (f : Engine → α), (∀ b : Engine, f b.sansR = f b) → (∀ b : Engine, f b.sansM = f b) → (∀ (b : Engine) o y, f (b.shift x o y) = f b) → f a = f z := by
    intro α f f1 f2 f3
    have e1 : f a = f (x.stages true).1 := by rw [← f1 a, ha, f1]
    have e2 : f (x.stages true).1 = f (Engine.runWB x z).1 := by
      rw [← hz]
      unfold Engine.stages
      dsimp only
      rw [f3, ← f1, Engine.storeSat_sansR, Engine.overflow_sansR, f1]
    rw [e1, e2, ← f2, hw, f2]
  rw [hc]
  exact ⟨key Engine.sends (fun _ => rfl) (fun _ => rfl) (fun _ _ _ => rfl), key Engine.unreleased (fun _ => rfl) (fun _ => rfl) (fun _ _ _ => rfl), key Engine.ev (fun _ => rfl) (fun _ => rfl) (fun _ _ _ => rfl), key Engine.event (fun _ => rfl) (fun _ => rfl) (fun _ _ _ => rfl), key Engine.stopping (fun _ => rfl) (fun _ => rfl) (fun _ _ _ => rfl), key Engine.saving (fun _ => rfl) (fun _ => rfl) (fun _ _ _ => rfl)⟩
theorem Engine.cycle_go (x : Engine) (h : ∀ v, x.nf = some v → nCtl v.nano = 1 → x.sends.length < 8) :
    x.cycle false false = (
      let w := tget (dconst 0) x.micro x.pc
      let m := x.stageMF w
      let e3 := (x.stages true).1.sequenced x m.1 w
      let e4 := if mYield w then Engine.nextFrame x e3 else e3
      let e6 := e4.countCycle.nextEvent x
      (if m.2.contains .stopped then e6.stopped else e6, m.2)) := by
  have hflag : (x.stages true).2 = false := Engine.runNF_flag _ _ _ h
  unfold Engine.cycle
  simp only [Bool.false_eq_true, if_false, hflag]
theorem State.cycleMF_go (s : State) (t e : Nat) (p : Engine → Nat → Bool) (o : List EngOut) (h : (s.eng e).st = 2)
    (hp : p (s.eng e) (tget (dconst 0) (s.eng e).micro (s.eng e).pc) = true) (ho : ((s.eng e).cycle false false).2 = o) (ho2 : o = [] ∨ o = [.yielded]) :
    (s.advance t).cycleIf ((s.advance t).atMF e p) e = (s.advance t).setEng e ((s.eng e).cycle false false).1 := by
  have : (s.advance t).atMF e p = true := by
    unfold State.atMF
    simp only [State.eng_advance, hp, h]; rfl
  unfold State.cycleIf
  rw [this, if_pos rfl]
  unfold State.engineCycle
  dsimp only
  rw [State.eng_advance, h, ho]
  rcases ho2 with rfl | rfl <;> rfl
theorem startFrame_frames (a : Engine) (hb : a.busy = false) : a.startFrame.frames = a.frames ∧ a.startFrame.busy = (match a.frames with | f :: _ => f.units != 0 | [] => false) := by
  unfold Engine.startFrame
  split
  · rename_i f l hf
    rw [hb]
    by_cases h0 : f.units = 0
    · simp [h0, hf, hb]
    · have hsm : ∀ (b : Engine) k i l, (b.setElems k i l).frames = b.frames := fun b k i l =>
        show (b.setElems k i l).sansM.frames = b.sansM.frames by rw [Engine.setElems_sansM]
      simp only [h0]
      constructor
      · refine Eq.trans (hsm _ _ _ _) ?_
        split
        · split
          · rfl
          · rfl
        · rfl
      · simp [hf, h0]
  · rename_i hf
    exact ⟨rfl, by first | exact hb | rw [hf, hb]⟩
theorem Engine.takeFlit_frame (base : Nat) (ws : List Nat) : ∀ (x : Engine) (k : Nat), x.wb = none →
    (x.takeFlit base k ws).2 = 0 ∧ (x.takeFlit base k ws).1.sansM = x.sansM ∧
    ∀ b a, b < 2 → x.rxBank < 2 → (∀ j, j < ws.length → a % 4096 ≠ (base + (k + j)) % 4096) → (x.takeFlit base k ws).1.elem b a = x.elem b a := by
  induction ws with
  | nil => intro x k h; exact ⟨rfl, rfl, fun _ _ _ _ _ => rfl⟩
  | cons w ws ih =>
    intro x k h
    have hm : ∀ b a, x.storeMeets b a = false := by intro b a; unfold Engine.storeMeets; rw [h]
    have hs := Engine.setElem_sansM x x.rxBank ((base + k) % 4096) w
    have h2 : (x.setElem x.rxBank ((base + k) % 4096) w).wb = none := (show (x.setElem x.rxBank ((base + k) % 4096) w).sansM.wb = x.sansM.wb by rw [hs]).trans h
    have h3 : (x.setElem x.rxBank ((base + k) % 4096) w).rxBank = x.rxBank := show (x.setElem x.rxBank ((base + k) % 4096) w).sansM.rxBank = x.sansM.rxBank by rw [hs]
    have hi := ih (x.setElem x.rxBank ((base + k) % 4096) w) (k + 1) h2
    unfold Engine.takeFlit
    simp only [hm, Bool.false_eq_true, if_false]
    refine ⟨?_, ?_, ?_⟩
    · rw [hi.1]; rfl
    · rw [hi.2.1, hs]
    · intro b a hb hrb hj
      rw [hi.2.2 b a hb (by rw [h3]; exact hrb) (fun j hj2 => by have := hj (j + 1) (by simp; omega); rw [show k + 1 + j = k + (j + 1) by omega]; exact this)]
      rw [Engine.elem_setElem _ _ _ _ _ _ hrb hb, if_neg]
      have := hj 0 (by simp)
      rw [Nat.add_zero] at this
      omega
theorem Engine.halt_st (x : Engine) : x.halt.st = 3 := rfl
theorem State.noted_abort (s : State) (k : Nat) : (s.noted k).dict.abortWith = s.dict.abortWith := by
  unfold State.noted; split <;> rfl
theorem State.advance_abort (s : State) (t : Nat) : (s.advance t).dict.abortWith = none := rfl
theorem State.slotsOn_congr {s u : State} (h1 : u.regs = s.regs) (h2 : u.slots = s.slots) (es : List Nat) : u.slotsOn es = s.slotsOn es := by
  unfold State.slotsOn State.active State.placed State.slot State.rd; rw [h1, h2]
theorem State.debugTouch_frame (s : State) (c : Nat) : s.debugTouch c = { s with tap := (s.debugTouch c).tap } := by
  unfold State.debugTouch; split <;> rfl

end Sys2Proof.Machine
end

