-- ==== Sys2Proof/Laws/OfMachine.lean ====
section
/-! SUPPORT. The lemmas that the statements about machine rest on. -/

namespace Sys2Proof.Machine

open Sys2Proof

/-- What a write answers while it is not served. -/
theorem State.serve_unserved (s : State) (t : Nat) (f : Act) :
    (s.power.stewardUp = false → (Host.Outcome.next (s.serve t f) : Outcome) = .next (s.advance t))
      ∧ (s.power.stewardUp = true → s.steward.restarting = true → (Host.Outcome.next (s.serve t f) : Outcome) = s.aborted t Abort.state)
      ∧ (s.power.stewardUp = true → s.steward.restarting = false → s.rd Ob.devRestoreState ≠ 3 → (Host.Outcome.next (s.serve t f) : Outcome) = s.aborted t Abort.state) := by
  refine ⟨fun h => congrArg _ ?_, fun h h2 => congrArg _ (s.serve_busy t f h (Or.inl h2)), fun h _ h3 => congrArg _ (s.serve_busy t f h (Or.inr h3))⟩
  have h' : (s.advance t).power.stewardUp = false := h
  unfold State.serve; simp only [h', Bool.not_false, if_true]
theorem State.noting_unserved (s : State) (t : Nat) (f : Act) :
    (s.power.stewardUp = false → (Host.Outcome.next (s.serveNoting t f) : Outcome) = .next (s.advance t))
      ∧ (s.power.stewardUp = true → s.steward.restarting = true → (Host.Outcome.next (s.serveNoting t f) : Outcome) = s.aborted t Abort.state)
      ∧ (s.power.stewardUp = true → s.steward.restarting = false → s.rd Ob.devRestoreState ≠ 3 → (Host.Outcome.next (s.serveNoting t f) : Outcome) = s.aborted t Abort.state) := by
  refine ⟨fun h => congrArg _ ?_, fun h h2 => congrArg _ ?_, fun h h2 h3 => congrArg _ ?_⟩ <;> have h' := h <;>
    (rw [show s.power = (s.advance t).power from rfl] at h') <;> unfold State.serveNoting
  · simp only [h', Bool.not_false, if_true]
  · have h2' : (s.advance t).steward.restarting = true := h2
    simp only [h', h2', Bool.not_true, Bool.false_eq_true, if_false, if_true]
  · have h2' : (s.advance t).steward.restarting = false := h2
    have h3' : (s.advance t).rd Ob.devRestoreState ≠ 3 := h3
    simp only [h', h2', Bool.not_true, Bool.false_eq_true, if_false, bne_iff_ne, ne_eq, h3', not_false_eq_true, if_true]
/-- The low word of a stamp. -/
theorem State.stamp_low (s : State) (T : Nat) (h : s.syn.source ≤ 1) (h2 : s.rd Ob.synFT < 2 ^ 31) :
    s.stamp T % 2 ^ 32 = s.syn.source * 2 ^ 31 + s.rd Ob.synFT := by
  unfold State.stamp State.descriptor State.fT
  omega
/-- The search of NORM from `n` down. -/
theorem normShift_spec (re im : Int) (n : Nat) (hn : n ≤ 47) (h0 : -(2 ^ 47 : Int) ≤ re ∧ re < 2 ^ 47 ∧ -(2 ^ 47 : Int) ≤ im ∧ im < 2 ^ 47) :
    normShift re im n ≤ n ∧ (-(2 ^ (47 - normShift re im n) : Int) ≤ re ∧ re < 2 ^ (47 - normShift re im n) ∧ -(2 ^ (47 - normShift re im n) : Int) ≤ im ∧ im < 2 ^ (47 - normShift re im n))
    ∧ ∀ r, r ≤ n → (-(2 ^ (47 - r) : Int) ≤ re ∧ re < 2 ^ (47 - r) ∧ -(2 ^ (47 - r) : Int) ≤ im ∧ im < 2 ^ (47 - r)) → r ≤ normShift re im n := by
  induction n with
  | zero => exact ⟨Nat.le_refl 0, h0, fun r h _ => h⟩
  | succ n ih =>
    obtain ⟨a, b, c⟩ := ih (by omega)
    unfold normShift
    dsimp only
    split
    · rename_i h; exact ⟨Nat.le_refl _, h, fun r h2 _ => h2⟩
    · rename_i h
      refine ⟨by omega, b, fun r h2 h3 => ?_⟩
      rcases Nat.lt_or_ge r (n + 1) with h4 | h4
      · exact c r (by omega) h3
      · exact absurd (by rw [show r = n + 1 by omega] at h3; exact h3) h
theorem Engine.norm_raw (e : Engine) (k : Nat) : (e.norm k).raw (0x10 + k) = normShift (e.accRe k) (e.accIm k) 47 := by
  unfold Engine.norm Engine.raw Engine.put; exact tget_tset_same _ _ _ _

end Sys2Proof.Machine
end

