-- ==== Sys2Proof/WellFormed.lean ====
section
/-! DEFINITION. Well-formed commands: every operand that stands for a field or a value of the spec fits its width (spec/18_dictionary.md R448 for values and times, R457 for requests; the events' own rules for the others). -/

namespace Sys2Proof

/-- A field of `w` bits. -/
def below (w n : Nat) : Bool := decide (n < 2 ^ w)

/-- A DOMAIN value of at most 1 MiB (R448). -/
def octets (b : Bytes) : Bool := decide (b.length ≤ 1048576)

/-- Is the command well formed? -/
def wellFormed (i : Instr) : Bool :=
  match i with
  | .stewardRestartComplete _ => true
  | .stewardCheckpoint _ _ => true
  | .thermalShutdown _ => true
  | .admitSlot _ _ _ => true
  | .withdraw _ _ => true
  | .withdrawalComplete _ _ => true
  | .check _ n _ => below 8 n
  | .commit _ _ tc => below 128 tc
  | .cancel _ _ => true
  | .groupCommit _ tc slots others => below 128 tc && below 64 slots && (others.all fun o => decide (o.1 < 8) && below 64 o.2)
  | .sluiceGateArm _ _ => true
  | .commitApplied _ _ => true
  | .successorSwitch _ _ => true
  | .retiringComplete _ _ => true
  | .gapFrameResume _ _ => true
  | .arrayCommitDisarm _ => true
  | .arrayCommitReportTimeout _ => true
  | .linkApply _ _ => true
  | .linkClearCounters _ _ => true
  | .linkBlockLock _ _ => true
  | .linkMultiblockLock _ _ earliest latest => decide (earliest ≤ latest)
  | .linkRelease _ _ => true
  | .linkBringupTimeout _ _ => true
  | .multiblockReceive _ _ _ _ => true
  | .linkLockLoss _ _ => true
  | .linkRelinkComplete _ _ earliest latest => decide (earliest ≤ latest)
  | .ingestSample _ _ _ _ wordI wordQ => below 16 wordI && below 16 wordQ
  | .levelIntervalEnd _ _ => true
  | .dumpRestart _ _ time => below 128 time
  | .levelSnapshot _ => true
  | .clearSticky _ mask => below 64 mask
  | .polderBlockWrite _ _ _ => true
  | .spectrumFrame _ _ _ => true
  | .userWindowLoad _ _ => true
  | .conditionFlitReceive _ _ _ _ words _ => (words.length == 16 && words.all fun w => below 32 w)
  | .patternUnitEvaluate _ _ => true
  | .trigOutEdge _ _ => true
  | .trigOutPulseEnd _ _ => true
  | .clearLineFault _ data => octets data
  | .clearLog _ => true
  | .importsWrite _ data => octets data
  | .trigOutConfigWrite _ _ value => below 64 value
  | .patternUnitWrite _ _ sub value data => below 8 sub && below 32 value && (data.all fun b => octets b)
  | .levelConditionWrite _ _ sub value => below 8 sub && below 16 value
  | .primitiveTick _ _ => true
  | .primitiveStreamEnable _ mask => below 8 mask
  | .mapUpdate _ _ => true
  | .sweepTick _ _ => true
  | .snapshotCopyComplete _ _ => true
  | .renderComplete _ _ => true
  | .mapSnapshot _ _ time => below 128 time
  | .mapClear _ _ time => below 128 time
  | .sieveLoad _ _ => true
  | .channelizeFrame _ _ _ => true
  | .pulseSelectFrame _ _ _ => true
  | .pulseMeasureFrame _ _ _ => true
  | .pulseClearCounters _ n => below 8 n
  | .recordComplete _ _ => true
  | .hostReadWrite _ _ value => below 64 value
  | .consumerStallTimeout _ _ who => decide (who < 67)
  | .consumerReattach _ _ who => decide (who < 67)
  | .rearm _ _ => true
  | .releaseRing _ _ => true
  | .replayFeed _ _ source => octets source
  | .replayEnd _ _ => true
  | .branch _ _ _ => true
  | .loopEnter _ _ => true
  | .loopEnd _ _ _ => true
  | .loopBreak _ _ => true
  | .safePoint _ _ => true
  | .ret _ _ _ => true
  | .yield _ _ => true
  | .operandRead _ _ _ => true
  | .registerLoad _ _ _ => true
  | .setAcc _ _ => true
  | .add _ _ => true
  | .sub _ _ => true
  | .clr _ _ => true
  | .ldx _ _ => true
  | .restore _ _ => true
  | .srch _ _ => true
  | .sinit _ _ => true
  | .norm _ _ => true
  | .store _ _ => true
  | .pairStore _ _ => true
  | .rawSave _ _ => true
  | .registerStore _ _ => true
  | .registerTransferImmediate _ _ => true
  | .registerTransfer _ _ => true
  | .send _ _ => true
  | .rxfree _ _ => true
  | .evack _ _ => true
  | .receiveFlit _ _ words _ _ => (words.length == 16 && words.all fun w => below 32 w)
  | .sendFlit _ _ _ => true
  | .watchdogTrip _ _ => true
  | .eventCancel _ _ tc => below 128 tc
  | .eventStop _ _ => true
  | .eventSavestate _ _ => true
  | .engineStart _ _ => true
  | .debugRead _ _ offset => below 20 offset
  | .debugWrite _ _ offset value => below 20 offset && below 32 value
  | .microimageLoad _ _ => true
  | .nanoimageLoad _ _ => true
  | .imageVerify _ _ nano => below 8 nano
  | .poolScrubAccess _ _ _ _ => true
  | .hbmAdmittedBurst _ da _ syndrome => below 36 da && below 16 syndrome
  | .hbmBestEffortAccess _ _ _ syndrome => below 16 syndrome
  | .hbmFreezeHoldExpiry _ _ => true
  | .hbmRelease _ _ => true
  | .hbmTestComplete _ _ _ bad => (bad.all fun a => below 36 a)
  | .hbmRetire _ _ => true
  | .hbmRetireSwitch _ _ => true
  | .hbmRefresh _ _ => true
  | .hbmTempCross _ _ _ => true
  | .hbmPatrolScrub _ da _ syndrome => below 36 da && below 16 syndrome
  | .hbmRowIdleClose _ _ => true
  | .hbmPowerStateEntry _ _ _ => true
  | .hbmWake _ _ => true
  | .interleaveMasksWrite _ data => octets data
  | .hostReserveWrite _ data => octets data
  | .windowBRead _ _ offset len => below 64 offset && decide (len ≤ 4096)
  | .windowBWrite _ offset data => below 64 offset && decide (data.length ≤ 4096)
  | .transferStart _ _ => true
  | .transferPauseWrite _ _ _ => true
  | .transferAbort _ _ => true
  | .transferBeatSlot _ _ _ _ _ => true
  | .requestRaise _ _ _ => true
  | .requestWithdraw _ _ => true
  | .hostReadCompletion _ _ addr _ data => below 64 addr && octets data
  | .transferReadTimeout _ _ => true
  | .hostReset _ _ => true
  | .hostLinkTrained _ _ _ => true
  | .linkRetrain _ => true
  | .dictSubmit _ header data _ volts _ => below 256 header && decide (data.length ≤ 4064) && decide (volts.length ≤ 3264)
  | .doorbellWrite _ _ value _ => below 64 value
  | .busMasterDisable _ => true
  | .streamIrqDelayExpiry _ _ => true
  | .creditStallTimeout _ _ => true
  | .ringValidate _ _ => true
  | .ringRestart _ _ => true
  | .qualify _ _ => true
  | .qualifyComplete _ _ mWrite mRead => below 64 mWrite && below 64 mRead
  | .formSet _ mask => below 8 mask
  | .deleteRecording _ number => below 32 number
  | .reinstate _ _ _ => true
  | .nvmeCompletion _ _ cid _ data => below 16 cid && octets data
  | .nvmeCommandTimeout _ _ => true
  | .driveLinkLoss _ _ _ => true
  | .unitIdleTimeout _ _ => true
  | .directoryUpdate _ _ => true
  | .healthLogPoll _ _ => true
  | .joinDetect _ _ => true
  | .joinTrainingDone _ _ foms => (foms.length == 8 && foms.all fun f => below 8 f)
  | .joinLock _ _ => true
  | .joinExchange _ _ copies => (copies.all fun b => octets b)
  | .joinStageTimeout _ _ => true
  | .joinHeldReexchange _ _ copies => (copies.all fun b => octets b)
  | .joinFailedRetry _ _ => true
  | .joinRetrain _ _ => true
  | .joinLinkDegrade _ _ => true
  | .boundedSlotReceive _ _ copyA copyB => below 128 copyA && below 128 copyB
  | .lineChange _ => true
  | .lineState _ => true
  | .timeSync _ => true
  | .timeSyncSend _ => true
  | .lineStateSend _ => true
  | .sluiceArm _ slots => below 64 slots
  | .sluiceArmed _ => true
  | .sluiceRefused _ => true
  | .sluiceConfirm _ => true
  | .sluiceCancel _ => true
  | .sluiceReport _ => true
  | .arrayConfirmDeadline _ => true
  | .bulkFrameReceive _ _ _ _ _ _ _ _ => true
  | .directionSleep _ _ _ => true
  | .directionWakeComplete _ _ _ => true
  | .joinTestMode _ _ value => below 8 value
  | .arrayApply _ _ => true
  | .joinCalibrate _ => true
  | .joinClearCounters _ _ => true
  | .timedTimeout _ _ => true
  | .forwardedRequest _ _ _ header data _ volts _ => below 256 header && decide (data.length ≤ 4064) && decide (volts.length ≤ 3264)
  | .forwardTimeout _ _ => true
  | .syntApply _ => true
  | .syntQualified _ measured => below 64 measured
  | .syntQualifyTimeout _ => true
  | .syntLocked _ => true
  | .referenceLoss _ => true
  | .referenceRequalified _ => true
  | .syntRelock _ => true
  | .clockOutputWrite _ sub value => below 8 sub && below 64 value
  | .srefFire _ mask => below 8 mask
  | .outputStart _ _ => true
  | .outputStop _ _ => true
  | .setSeconds _ value => below 64 value
  | .secondBoundary _ _ => true
  | .syncInEdge _ => true
  | .syncArm _ => true
  | .streamMarkReceive _ seconds milli quality epoch descriptor _ => below 48 seconds && decide (milli < 1000) && below 8 quality && below 32 epoch && below 32 descriptor
  | .streamMarkSend _ => true
  | .streamLostTimeout _ => true
  | .adopt _ => true
  | .tdcEdge _ _ _ => true
  | .tdcQueuePush _ _ => true
  | .popBlock _ _ n => below 8 n
  | .clearQueue _ _ => true
  | .statsStart _ _ => true
  | .tdcControlUpdate _ _ _ control _ => below 16 control
  | .tdcLineSwap _ _ => true
  | .tdcCalibrationComplete _ _ widths => decide (widths.length ≤ 256)
  | .dictionaryWrite _ key data _ volts _ => below 24 key && octets data && decide (volts.length ≤ 3264)
  | .dictWriteSegment _ _ client key offset tag _ data _ => below 8 client && below 24 key && below 32 offset && below 16 tag && decide (data.length ≤ 4064)
  | .dictReadSegment _ _ client key offset length => below 8 client && below 24 key && below 32 offset && decide (length ≤ 4064)
  | .segmentBufferTimeout _ _ => true
  | .readLatchTimeout _ _ => true
  | .tagExpiry _ _ client => below 32 client
  | .usdoRequest _ _ _ _ _ key offset length _ data _ => below 24 key && below 32 offset && decide (length ≤ 4064) && decide (data.length ≤ 4064)
  | .envelopeWrite _ _ client data _ => below 8 client && decide (data.length ≤ 1048584)
  | .nmtStart _ _ node => below 7 node
  | .nmtStop _ _ node => below 7 node
  | .nmtEnterPreOperational _ _ node => below 7 node
  | .nmtResetNode _ _ node => below 7 node
  | .nmtResetCommunication _ _ node => below 7 node
  | .heartbeatSend _ => true
  | .emcySend _ => true
  | .emcyInhibitExpiry _ => true
  | .canBusOff _ _ _ => true
  | .errorFieldClear _ value => below 8 value
  | .setCalendar _ data => octets data
  | .pantryRestore _ _ _ => true
  | .restoreStepComplete _ _ _ => true
  | .restoreStepTimeout _ _ _ => true
  | .opPointRequest _ point => below 8 point
  | .opVokAssert _ => true
  | .opFrequencySwitch _ => true
  | .opVcoreSettled _ => true
  | .opSettleTimeout _ => true
  | .stop _ => true
  | .stopForce _ => true
  | .stopReqNEdge _ => true
  | .stopReqRepeat _ _ => true
  | .stopGraceExpiry _ => true
  | .stopReached _ => true
  | .wakeSample _ _ can _ _ => (can.all fun c => decide (c.1 < 2) && below 11 c.2.1 && decide (c.2.2.length ≤ 64))
  | .powerOn _ => true
  | .railInWindow _ _ => true
  | .powerupRailTimeout _ => true
  | .powerupRetry _ => true
  | .railOutOfWindow _ _ => true
  | .vaonLoss _ => true
  | .ledgerSample _ => true
  | .ledgerWindow _ => true
  | .ledgerFit _ fitted => decide (fitted.length ≤ 15)
  | .throttleEvaluate _ _ => true
  | .domainPowerDown _ _ => true
  | .domainPowerUp _ _ => true
  | .auxLdoSoftStartEnd _ _ _ => true
  | .auxLdoLimit _ _ => true
  | .auxLdoRetry _ _ => true
  | .auxLdoReset _ mask => below 8 mask
  | .avsPoll _ mV _ _ => below 16 mV
  | .clearPeak _ => true
  | .refusalLogClear _ => true
  | .clusterFault _ _ => true
  | .migrationTargetChosen _ _ _ => true
  | .migrationResume _ _ _ => true
  | .engineTestComplete _ _ _ _ => true
  | .retireEngine _ e => below 16 e
  | .lockstepMismatch _ => true
  | .lockstepSelfTest _ _ => true
  | .clearLatent _ => true
  | .stewardRestartAction _ => true
  | .sentinelPoll _ _ => true
  | .firmwareImageWrite _ data => octets data
  | .firmwareSwap _ => true
  | .firmwareConfirm _ => true
  | .confirmWindowExpiry _ => true
  | .keep _ => true
  | .keepComplete _ _ => true
  | .discard _ => true
  | .planRun _ volts => decide (volts.length ≤ 3264)
  | .planNow _ volts => decide (volts.length ≤ 3264)
  | .faultAcknowledge _ sq => below 16 sq
  | .diagnosticsClearCounters _ => true
  | .clearOverTemp _ => true
  | .hkConversion _ _ raw => below 16 raw
  | .calibrateReference _ mask startAt => below 64 mask && below 128 startAt
  | .calibrateClock _ mask startAt => below 64 mask && below 128 startAt
  | .calibrateSignalPath _ mask startAt => below 64 mask && below 128 startAt
  | .calReferenceComplete _ _ _ => true
  | .calClockComplete _ _ => true
  | .signalPathWindowStart _ => true
  | .signalPathMeasureStart _ => true
  | .signalPathMeasureEnd _ => true
  | .signalPathWindowEnd _ => true
  | .capture _ => true
  | .reapply _ => true
  | .spareSelfTest _ _ _ _ => true
  | .displayEnable _ _ => true
  | .displayCommit _ buffer => below 8 buffer
  | .frameStart _ => true
  | .displayFrameEnd _ linkCrc => below 32 linkCrc
  | .hpdChange _ _ => true
  | .displayLinkTrained _ _ _ caps _ => decide (caps.length ≤ 16)
  | .displayClearFlags _ => true
  | .extest _ _ => true
  | .idcode _ => true
  | .samplePreload _ _ => true
  | .highz _ => true
  | .clamp _ => true
  | .extestPulse _ => true
  | .extestTrain _ => true
  | .debug _ => true
  | .bypass _ => true
  | .tapReset _ => true
  | .marginScan _ _ mask => below 8 mask
  | .marginScanComplete _ _ counts => (counts.all fun b => octets b)
  | .marginUpdate _ _ eyes => decide (eyes.length ≤ 4)
  | .laneQuadFault _ _ _ _ => true
  | .laneQuadClearFault _ _ => true
  | .timingStreamBlockLock _ => true
  | .timingStreamSignalLoss _ => true
  | .prbsCheckerLock _ _ _ => true
  | .canErrorPassive _ _ _ => true
  | .driveAttach _ _ _ rate width capacity units name _ directory => below 8 rate && below 8 width && below 64 capacity && below 64 units && decide (name.length ≤ 255) && octets directory
  | .joinAssumptionFlagClear _ => true

end Sys2Proof
end

