-- ==== Sys2Proof/Tests/Slice0.lean ====
section
/-! SUPPORT. The model's own tests: ill-formed commands refused, and witnesses for the statements' hypotheses. -/

namespace Sys2Proof.Tests

open Sys2Proof Sys2Proof.Machine

theorem test_reset_idles : (step State.reset = .next State.reset) := rfl

/-- Commands with one operand past its field, part 1. -/
theorem test_ill_formed_1 : ([
  .check 0 (2 ^ 8) [],
  .commit 0 0 (2 ^ 128),
  .groupCommit 0 (2 ^ 128) 0 [],
  .groupCommit 0 0 (2 ^ 64) [],
  .groupCommit 0 0 0 [(8, 0)],
  .groupCommit 0 0 0 [(0, 2 ^ 64)],
  .linkMultiblockLock 0 0 1 0,
  .linkRelinkComplete 0 0 1 0,
  .ingestSample 0 0 0 0 (2 ^ 16) 0,
  .ingestSample 0 0 0 0 0 (2 ^ 16),
  .dumpRestart 0 0 (2 ^ 128),
  .clearSticky 0 (2 ^ 64),
  .conditionFlitReceive 0 0 0 0 (List.replicate 15 0) 0,
  .conditionFlitReceive 0 0 0 0 (List.replicate 16 (2 ^ 32)) 0,
  .trigOutConfigWrite 0 0 (2 ^ 64),
  .patternUnitWrite 0 0 (2 ^ 8) 0 none,
  .patternUnitWrite 0 0 0 (2 ^ 32) none,
  .levelConditionWrite 0 0 (2 ^ 8) 0,
  .levelConditionWrite 0 0 0 (2 ^ 16),
  .primitiveStreamEnable 0 (2 ^ 8),
  .mapSnapshot 0 0 (2 ^ 128),
  .mapClear 0 0 (2 ^ 128),
  .pulseClearCounters 0 (2 ^ 8),
  .hostReadWrite 0 0 (2 ^ 64),
  .consumerStallTimeout 0 0 67,
  .consumerReattach 0 0 67,
  .receiveFlit 0 0 (List.replicate 15 0) none 0,
  .receiveFlit 0 0 (List.replicate 16 (2 ^ 32)) none 0,
  .eventCancel 0 0 (2 ^ 128),
  .debugRead 0 0 (2 ^ 20),
  .debugWrite 0 0 (2 ^ 20) 0,
  .debugWrite 0 0 0 (2 ^ 32),
  .imageVerify 0 0 (2 ^ 8),
  .hbmAdmittedBurst 0 (2 ^ 36) 0 0,
  .hbmAdmittedBurst 0 0 0 (2 ^ 16),
  .hbmBestEffortAccess 0 0 0 (2 ^ 16),
  .hbmTestComplete 0 0 false [2 ^ 36],
  .hbmPatrolScrub 0 (2 ^ 36) 0 0,
  .hbmPatrolScrub 0 0 0 (2 ^ 16),
  .windowBRead 0 0 (2 ^ 64) 0,
  .windowBRead 0 0 0 4097,
  .windowBWrite 0 (2 ^ 64) [],
  .windowBWrite 0 0 (List.replicate 4097 0)] : List Instr).all (fun i => !wellFormed i) = true := by
  decide +kernel

/-- Commands with one operand past its field, part 2. -/
theorem test_ill_formed_2 : ([
  .hostReadCompletion 0 0 (2 ^ 64) false [],
  .dictSubmit 0 (2 ^ 256) [] [] [] false,
  .dictSubmit 0 0 (List.replicate 4065 0) [] [] false,
  .dictSubmit 0 0 [] [] (List.replicate 3265 0) false,
  .doorbellWrite 0 0 (2 ^ 64) false,
  .qualifyComplete 0 0 (2 ^ 64) 0,
  .qualifyComplete 0 0 0 (2 ^ 64),
  .formSet 0 (2 ^ 8),
  .deleteRecording 0 (2 ^ 32),
  .nvmeCompletion 0 0 (2 ^ 16) 0 [],
  .joinTrainingDone 0 0 (List.replicate 7 0),
  .joinTrainingDone 0 0 (List.replicate 8 256),
  .boundedSlotReceive 0 0 (2 ^ 128) 0,
  .boundedSlotReceive 0 0 0 (2 ^ 128),
  .sluiceArm 0 (2 ^ 64),
  .joinTestMode 0 0 (2 ^ 8),
  .forwardedRequest 0 false 0 (2 ^ 256) [] [] [] false,
  .forwardedRequest 0 false 0 0 (List.replicate 4065 0) [] [] false,
  .forwardedRequest 0 false 0 0 [] [] (List.replicate 3265 0) false,
  .syntQualified 0 (2 ^ 64),
  .clockOutputWrite 0 (2 ^ 8) 0,
  .clockOutputWrite 0 0 (2 ^ 64),
  .srefFire 0 (2 ^ 8),
  .setSeconds 0 (2 ^ 64),
  .streamMarkReceive 0 (2 ^ 48) 0 0 0 0 false,
  .streamMarkReceive 0 0 0 (2 ^ 8) 0 0 false,
  .streamMarkReceive 0 0 0 0 (2 ^ 32) 0 false,
  .streamMarkReceive 0 0 0 0 0 (2 ^ 32) false,
  .streamMarkReceive 0 0 1000 0 0 0 false,
  .popBlock 0 0 (2 ^ 8),
  .tdcControlUpdate 0 0 0 (2 ^ 16) 0,
  .tdcCalibrationComplete 0 0 (List.replicate 257 0),
  .dictionaryWrite 0 (2 ^ 24) [] [] [] false,
  .dictionaryWrite 0 0 [] [] (List.replicate 3265 0) false,
  .dictWriteSegment 0 0 (2 ^ 8) 0 0 0 false [] false,
  .dictWriteSegment 0 0 0 (2 ^ 24) 0 0 false [] false,
  .dictWriteSegment 0 0 0 0 (2 ^ 32) 0 false [] false,
  .dictWriteSegment 0 0 0 0 0 (2 ^ 16) false [] false,
  .dictWriteSegment 0 0 0 0 0 0 false (List.replicate 4065 0) false,
  .dictReadSegment 0 0 (2 ^ 8) 0 0 0,
  .dictReadSegment 0 0 0 (2 ^ 24) 0 0,
  .dictReadSegment 0 0 0 0 (2 ^ 32) 0,
  .dictReadSegment 0 0 0 0 0 4065] : List Instr).all (fun i => !wellFormed i) = true := by
  decide +kernel

/-- Commands with one operand past its field, part 3. -/
theorem test_ill_formed_3 : ([
  .tagExpiry 0 0 (2 ^ 32),
  .usdoRequest 0 0 0 false false (2 ^ 24) 0 0 false [] false,
  .usdoRequest 0 0 0 false false 0 (2 ^ 32) 0 false [] false,
  .usdoRequest 0 0 0 false false 0 0 4065 false [] false,
  .usdoRequest 0 0 0 false false 0 0 0 false (List.replicate 4065 0) false,
  .envelopeWrite 0 0 (2 ^ 8) [] false,
  .nmtStart 0 0 (2 ^ 7),
  .nmtStop 0 0 (2 ^ 7),
  .nmtEnterPreOperational 0 0 (2 ^ 7),
  .nmtResetNode 0 0 (2 ^ 7),
  .nmtResetCommunication 0 0 (2 ^ 7),
  .errorFieldClear 0 (2 ^ 8),
  .opPointRequest 0 (2 ^ 8),
  .wakeSample 0 none (some (2, 0, [])) false false,
  .wakeSample 0 none (some (0, 2 ^ 11, [])) false false,
  .wakeSample 0 none (some (0, 0, List.replicate 65 0)) false false,
  .ledgerFit 0 (List.replicate 16 0),
  .auxLdoReset 0 (2 ^ 8),
  .avsPoll 0 (2 ^ 16) 0 none,
  .retireEngine 0 (2 ^ 16),
  .planRun 0 (List.replicate 3265 0),
  .planNow 0 (List.replicate 3265 0),
  .faultAcknowledge 0 (2 ^ 16),
  .hkConversion 0 none (2 ^ 16),
  .calibrateReference 0 (2 ^ 64) 0,
  .calibrateReference 0 0 (2 ^ 128),
  .calibrateClock 0 (2 ^ 64) 0,
  .calibrateClock 0 0 (2 ^ 128),
  .calibrateSignalPath 0 (2 ^ 64) 0,
  .calibrateSignalPath 0 0 (2 ^ 128),
  .displayCommit 0 (2 ^ 8),
  .displayFrameEnd 0 (2 ^ 32),
  .displayLinkTrained 0 false 0 (List.replicate 17 0) false,
  .marginScan 0 0 (2 ^ 8),
  .marginUpdate 0 0 (List.replicate 5 0),
  .driveAttach 0 0 false (2 ^ 8) 0 0 0 [] none [],
  .driveAttach 0 0 false 0 (2 ^ 8) 0 0 [] none [],
  .driveAttach 0 0 false 0 0 (2 ^ 64) 0 [] none [],
  .driveAttach 0 0 false 0 0 0 (2 ^ 64) [] none [],
  .driveAttach 0 0 false 0 0 0 0 (List.replicate 256 0) none []] : List Instr).all (fun i => !wellFormed i) = true := by
  decide +kernel

/-- Commands with a value that is too long. -/
theorem test_too_long (l : Bytes) (h : 1048584 < l.length) :
    wellFormed (.clearLineFault 0 l) = false
    ∧ wellFormed (.importsWrite 0 l) = false
    ∧ wellFormed (.patternUnitWrite 0 0 0 0 (some l)) = false
    ∧ wellFormed (.replayFeed 0 0 l) = false
    ∧ wellFormed (.interleaveMasksWrite 0 l) = false
    ∧ wellFormed (.hostReserveWrite 0 l) = false
    ∧ wellFormed (.hostReadCompletion 0 0 0 false l) = false
    ∧ wellFormed (.nvmeCompletion 0 0 0 0 l) = false
    ∧ wellFormed (.joinExchange 0 0 [l]) = false
    ∧ wellFormed (.joinHeldReexchange 0 0 [l]) = false
    ∧ wellFormed (.dictionaryWrite 0 0 l [] [] false) = false
    ∧ wellFormed (.envelopeWrite 0 0 0 l false) = false
    ∧ wellFormed (.setCalendar 0 l) = false
    ∧ wellFormed (.firmwareImageWrite 0 l) = false
    ∧ wellFormed (.marginScanComplete 0 0 [l]) = false
    ∧ wellFormed (.driveAttach 0 0 false 0 0 0 0 [] none l) = false := by
  have o : octets l = false := decide_eq_false (by omega)
  have e : decide (l.length ≤ 1048584) = false := decide_eq_false (by omega)
  refine ⟨?_, ?_, ?_, ?_, ?_, ?_, ?_, ?_, ?_, ?_, ?_, ?_, ?_, ?_, ?_, ?_⟩ <;>
    simp only [wellFormed, o, e, Bool.and_false, Bool.false_and, List.all_cons, Option.all_some]

/-! ### Small states

Each witness below is one Bool: for every clause of a statement, its hypotheses at the operands and in the state that `let` names. -/

section Witnesses
set_option Elab.async false
set_option linter.unusedVariables false

def decReady (s : State) : Decidable s.Ready := inferInstanceAs (Decidable (_ ∧ _))
def decPlain (x : Engine) : Decidable x.Plain := by unfold Engine.Plain; infer_instance

/-- The steward serves the dictionary. -/
def rdy : State := State.reset.wr Ob.devRestoreState 3
/-- SYN-T is Locked at 1 GHz and device time counts. -/
def rdyC : State :=
  { (rdy.wrs [(Ob.synFT, 1000000000), (Ob.synState, 3), (Ob.opCurrent, 0)]) with time := { rdy.time with counting := true } }
/-- Every coefficient is fitted. -/
def cfd (s : State) : State := { s with power := { s.power with coeff := (List.range 15).map fun i => (i, some 1000) } }
/-- Slot `n` in a state. -/
def sl (n st : Nat) (x : Slot := {}) : State := (rdyC.wr (Ob.slotState n) st).setSlot n x
/-- Link 0 runs, and channel 0 takes its converter. -/
def lnk : State := rdyC.wrs [(Ob.linkLaneCount 0, 1), (Ob.linkM 0, 1), (Ob.linkF 0, 2), (Ob.linkS 0, 1), (Ob.linkN 0, 16), (Ob.linkNPrime 0, 16),
  (Ob.linkCS 0, 0), (Ob.linkE 0, 1), (Ob.linkLaneRate 0, 8000000), (Ob.linkSubclass 0, 0), (Ob.linkLinkState 0, 4), (Ob.chanSourceLink 0, 0),
  (Ob.chanConverterI 0, 0), (Ob.chanConverterQ 0, 255), (Ob.chanOverrangeBit 0, 255), (Ob.chanChannelRate 0, 242000000)]
/-- Slot 0 describes a Record pipeline that replaces the one admitted in slot 1. -/
def adm : State := (((lnk.wrs [(Ob.slotReplaces 0, 1), (Ob.slotReplaces 1, 255), (Ob.slotState 0, 1), (Ob.slotState 1, 2), (Ob.slotMode 0, 4),
  (Ob.slotMode 1, 4), (Ob.slotOutputMask 0, 1), (Ob.slotOutputMask 1, 1), (Ob.slotChannelMask 0, 1), (Ob.slotChannelMask 1, 1),
  (Ob.penvEnvelope, 230000)]).setDom (Ob.slotGeometry 0) (List.replicate 32 0)).setDom (Ob.slotGeometry 1) (List.replicate 32 0)).setRing 1
    { present := true, bytes := 33554432, extents := (List.range 16).map fun i => { unit := i } }
/-- Engine 0 runs. -/
def eng0 (f : Engine → Engine) : State := rdy.setEng 0 (f { rdy.eng 0 with st := 2 })
/-- Position `pos` of a ring of `n` devices. -/
def arrS (n pos st : Nat) : State :=
  ({ rdyC with arr := { rdyC.arr with config := leBytes 16 (2 ^ 120 + n * 2 ^ 112) ++ List.replicate 320 0, pos := pos } } : State).wr Ob.arrArrayState st
/-- One bounded message is kept. -/
def inb (s : State) (k stamp w : Nat) : State := { s with arr := { s.arr with inbox := [(k, stamp, w)] } }
/-- A nanoword on its way. -/
def uop (n : Nat) : Uop := { nano := n, xmod := 0, ymod := 0 }

/-- The hypotheses of the clauses of StepRunsFrontCommand are met. -/
theorem wit_step_runs_front_command : ((let s : State := rdy; decide (s.pending = []))) = true := by decide +kernel

/-- The hypotheses of the clauses of QuadsAndDiagnostics are met. -/
theorem wit_quads_and_diagnostics : ((let q : Fin 36 := 0; let mask : Nat := 0; let s : State := rdy; @decide _ (decReady s) && decide ((s.scanS q).running = none) && decide (mask < 16))
    && (let q : Fin 36 := 3; let s : State := rdy.setScan 3 { running := some 5, result := none }; @decide _ (decReady s) && decide ((s.scanS q).running ≠ none))
    && (let q : Fin 36 := 0; let mask : Nat := 16; let s : State := rdy; @decide _ (decReady s) && decide ((s.scanS q).running = none) && decide (16 ≤ mask))
    && (let q : Fin 36 := 3; let s : State := rdy.setScan 3 { running := some 5, result := none }; (match (s.scanS q).running with | some mask => true | _ => false))
    && (let q : Fin 36 := 0; let s : State := rdy; decide ((s.scanS q).running = none))
    && (let sq : Nat := 0; let s : State := rdy; @decide _ (decReady s) && decide (∀ i, i < s.life.faultCount - s.life.acked → (s.life.acked + i) % 65536 ≠ sq % 65536))
    && (let sq : Nat := 0; let i : Nat := 0; let s : State := rdy; let s : State := { (s) with life := { (s).life with faultCount := 1 } }; @decide _ (decReady s) && decide (i < s.life.faultCount - s.life.acked) && decide (i < 65536) && decide ((s.life.acked + i) % 65536 = sq % 65536))
    && (let q : Fin 36 := 16; let code : Fin 6 := 1; decide (0 < code.val) && decide (16 ≤ q.val) && decide (q.val < 20))
    && (let q : Fin 36 := 20; let code : Fin 6 := 1; decide (0 < code.val) && decide (20 ≤ q.val) && decide (q.val < 26))
    && (let q : Fin 36 := 26; let code : Fin 6 := 1; decide (0 < code.val) && decide (26 ≤ q.val) && decide (q.val < 34))
    && (let q : Fin 36 := 34; let code : Fin 6 := 1; decide (0 < code.val) && decide (q.val = 34))
    && (let q : Fin 36 := 0; let code : Fin 6 := 1; decide (0 < code.val) && decide (q.val < 16))
    && (let q : Fin 36 := 35; let code : Fin 6 := 1; decide (0 < code.val) && decide (q.val = 35))
    && (let code : Fin 6 := 0; decide (code.val = 0))) = true := by decide +kernel

/-- The hypotheses of the clauses of CalibrationsStartAndEnd are met. -/
theorem wit_calibrations_start_and_end : ((let s : State := rdy; let s : State := { (s) with cal := { (s).cal with kind := 1 } }; @decide _ (decReady s) && decide (s.cal.kind ≠ 0))
    && (let s : State := rdy; let s : State := (s).wr Ob.synState 3; @decide _ (decReady s) && decide (s.cal.kind = 0) && (let startAt := 0; decide (s.rd Ob.synState = 3)))
    && (let s : State := rdy; @decide _ (decReady s) && decide (s.cal.kind = 0) && (let startAt := 0; decide (s.rd Ob.synState ≠ 3)))
    && (let startAt : Nat := 1; let s : State := rdy; @decide _ (decReady s) && decide (s.cal.kind = 0) && decide (startAt ≠ 0))
    && (let t : Nat := 0; let startAt : Nat := 0; let s : State := rdy; @decide _ (decReady s) && decide (s.cal.kind = 0) && decide (s.unstamp startAt < (s.advance t).devNow + s.us 1000))
    && (let t : Nat := 0; let mask : Nat := 0; let startAt : Nat := 2 ^ 80 + 2 ^ 88; let s : State := rdyC; @decide _ (decReady s) && decide (s.cal.kind = 0) && decide ((s.advance t).devNow + s.us 1000 ≤ s.unstamp startAt) && decide (mask % 2 ^ 64 = 0))
    && (let t : Nat := 0; let mask : Nat := 1; let startAt : Nat := 2 ^ 80 + 2 ^ 88; let s : State := rdyC; @decide _ (decReady s) && decide (s.cal.kind = 0) && decide ((s.advance t).devNow + s.us 1000 ≤ s.unstamp startAt) && decide (mask % 2 ^ 64 ≠ 0))
    && (let s : State := rdy; decide (s.cal.kind ≠ 1))
    && (let s : State := rdy; decide (s.cal.kind ≠ 2))
    && (let v : Nat := 0; let shorts : List Nat := []; let s : State := rdy; let s : State := { (s) with cal := { (s).cal with kind := 1 } }; decide (s.cal.kind = 1) && decide (s.vrefGain ((fun (i : Nat) => roundUpHalf (shorts.getD i 0) 64) 21) v = none))
    && (let v : Nat := 1024 * 65536; let shorts : List Nat := []; let s : State := ({ rdy with cal := { rdy.cal with kind := 1 } } : State).wr Ob.calibVrefValue 1250000; decide (s.cal.kind = 1) && (match s.vrefGain ((fun (i : Nat) => roundUpHalf (shorts.getD i 0) 64) 21) v with | some g => (((voltageChannels.zipIdx.map fun c_ => (c_.1, (fun (i : Nat) => roundUpHalf (shorts.getD i 0) 64) c_.2))).all fun x => decide (hkPlausible x.2 g = true)) | _ => false))
    && (let v : Nat := 1; let shorts : List Nat := []; let s : State := rdy; let s : State := { (s) with cal := { (s).cal with kind := 1 } }; decide (s.cal.kind = 1) && (match s.vrefGain ((fun (i : Nat) => roundUpHalf (shorts.getD i 0) 64) 21) v with | some g => (match (voltageChannels.zipIdx.map fun c_ => (c_.1, (fun (i : Nat) => roundUpHalf (shorts.getD i 0) 64) c_.2)).find? (fun x_ => !hkPlausible x_.2 g) with | some x => true | _ => false) | _ => false))
    && (let ticks : Nat := 327680; let s : State := rdy; let s : State := { (s) with cal := { (s).cal with kind := 2 } }; decide (s.cal.kind = 2) && decide (-10000 ≤ (roundUpHalf (((ticks : Int) - 327680) * 100000000) 327680)) && decide ((roundUpHalf (((ticks : Int) - 327680) * 100000000) 327680) ≤ 10000))
    && (let ticks : Nat := 0; let s : State := rdy; let s : State := { (s) with cal := { (s).cal with kind := 2 } }; decide (s.cal.kind = 2) && (decide ((roundUpHalf (((ticks : Int) - 327680) * 100000000) 327680) < -10000) || decide (10000 < (roundUpHalf (((ticks : Int) - 327680) * 100000000) 327680))))
    && (let s : State := rdy; @decide _ (decReady s) && decide (s.cal.kind = 0) && (!decide (calHeaderOk (s.dom Ob.calibStoredSet) = true)))) = true := by decide +kernel

/-- The hypotheses of the clauses of SignalPathAndConversions are met. -/
theorem wit_signal_path_and_conversions : ((let t : Nat := 1000000000000000000; let s : State := ({ rdyC with cal := { rdyC.cal with kind := 3, mask := 1, index := 0, phase := 0 } } : State).wrs [(Ob.chanSourceLink 0, 2), (Ob.linkLinkState 2, 4)]; (match s.calChannel with | some k => decide (s.cal.kind = 3) && decide (s.cal.phase = 0) && decide (s.calTime 0 ≤ (s.advance t).devNow) && decide ((s.rd (Ob.chanSourceLink k)) < 16) && decide (s.rd (Ob.linkLinkState (s.rd (Ob.chanSourceLink k))) = 4) | _ => false))
    && (let t : Nat := 1000000000000000000; let s : State := ({ rdyC with cal := { rdyC.cal with kind := 3, mask := 1, index := 0, phase := 0 } } : State).wrs [(Ob.chanSourceLink 0, 2), (Ob.linkLinkState 2, 0)]; (match s.calChannel with | some k => decide (s.cal.kind = 3) && decide (s.cal.phase = 0) && decide (s.calTime 0 ≤ (s.advance t).devNow) && (decide (16 ≤ (s.rd (Ob.chanSourceLink k))) || decide (s.rd (Ob.linkLinkState (s.rd (Ob.chanSourceLink k))) ≠ 4)) | _ => false))
    && (let t : Nat := 1000000000000000000; let s : State := { rdyC with cal := { rdyC.cal with kind := 3, mask := 1, index := 0, phase := 1 } }; (match s.calChannel with | some k => decide (s.cal.kind = 3) && decide (s.cal.phase = 1) && decide (s.calTime 1 ≤ (s.advance t).devNow) | _ => false))
    && (let t : Nat := 1000000000000000000; let s : State := { rdyC with cal := { rdyC.cal with kind := 3, mask := 1, index := 0, phase := 2 } }; (match s.calChannel with | some k => decide (s.cal.kind = 3) && decide (s.cal.phase = 2) && decide (s.calTime 9 ≤ (s.advance t).devNow) | _ => false))
    && (let t : Nat := 1000000000000000000; let s : State := { rdyC with cal := { rdyC.cal with kind := 3, mask := 1, index := 0, phase := 3, lost := true } }; (match s.calChannel with | some k => decide (s.cal.kind = 3) && decide (s.cal.phase = 3) && decide (s.calTime 10 ≤ (s.advance t).devNow) && decide (s.cal.lost = true) | _ => false))
    && (let t : Nat := 1000000000000000000; let s : State := { rdyC with cal := { rdyC.cal with kind := 3, mask := 1, index := 0, phase := 3, result := some { gain := 0, phase := 0, offI := 0, offQ := 0, good := true } } }; (match s.calChannel with | some k => decide (s.cal.kind = 3) && decide (s.cal.phase = 3) && decide (s.calTime 10 ≤ (s.advance t).devNow) && decide (s.cal.lost = false) && (match s.cal.result with | some r => decide (r.good = true) | _ => false) | _ => false))
    && (let t : Nat := 1000000000000000000; let r : PathResult := ({ gain := 0, phase := 0, offI := 0, offQ := 0, good := true } : PathResult); let s : State := { rdyC with cal := { rdyC.cal with kind := 3, mask := 1, index := 0, phase := 3, result := some { gain := 0, phase := 0, offI := 0, offQ := 0, good := false } } }; (match s.calChannel with | some k => decide (s.cal.kind = 3) && decide (s.cal.phase = 3) && decide (s.calTime 10 ≤ (s.advance t).devNow) && decide (s.cal.lost = false) && (match s.cal.result with | some r => decide (r.good = false) | _ => true) | _ => false))
    && (let s : State := rdy; (decide (s.cal.kind ≠ 3) || decide (s.calChannel = none)))
    && (let s : State := rdy; decide (s.cal.kind ≠ 3))
    && (let s : State := rdy; let s : State := { (s) with power := { (s).power with run := false } }; decide (s.powered = false))
    && (let c : Fin 64 := 62; let s : State := rdy; decide (s.powered = true) && decide (62 ≤ c.val))
    && (let c : Fin 64 := 0; let s : State := rdy; decide (s.powered = true) && decide (c.val < 62))
    && (let t : Nat := 0; let s : State := rdy; let s : State := { (s) with hk := { (s).hk with waitUntil := 1 } }; decide (s.powered = true) && (decide (s.rd Ob.hkEnable = 0) || decide (s.cal.kind = 1) || decide ((s.advance t).now < s.hk.waitUntil)))
    && (let t : Nat := 0; let s : State := rdy; decide (s.powered = true) && decide (s.rd Ob.hkEnable ≠ 0) && decide (s.cal.kind ≠ 1) && decide (s.hk.waitUntil ≤ (s.advance t).now))) = true := by decide +kernel

/-- The hypotheses of the clauses of OperatingPoints are met. -/
theorem wit_operating_points : ((let p : Nat := 3; let s : State := rdy; @decide _ (decReady s) && decide (3 ≤ p))
    && (let t : Nat := 0; let p : Nat := 0; let s : State := rdy; let s : State := { (s) with power := { (s).power with stopWaits := some 1 } }; @decide _ (decReady s) && decide (p < 3) && decide ((s.advance t).pointBusy = true))
    && (let t : Nat := 0; let p : Nat := 1; let s : State := { rdyC with disp := { rdyC.disp with charge := 10000000000000 } }; @decide _ (decReady s) && decide (p < 3) && decide ((s.advance t).pointBusy = false) && (match (s.advance t).pointRefusal p with | some code => true | _ => false))
    && (let t : Nat := 0; let p : Nat := 2; let s : State := rdy; @decide _ (decReady s) && decide (p < 3) && decide ((s.advance t).pointBusy = false) && decide ((s.advance t).pointRefusal p = none) && decide (p = s.rd Ob.opCurrent) && decide ((s.advance t).plannedVcore p = s.power.target))
    && (let t : Nat := 0; let p : Nat := 1; let s : State := rdyC; @decide _ (decReady s) && decide (p < 3) && decide ((s.advance t).pointBusy = false) && decide ((s.advance t).pointRefusal p = none) && (!(decide (p = s.rd Ob.opCurrent) && decide ((s.advance t).plannedVcore p = s.power.target))))
    && (let s : State := { rdy with power := { rdy.power with change := some { target := 1, old := 0, up := true } } }; (match s.power.change with | some c => decide (c.up = true) && decide (c.vok = false) | _ => false))
    && (let s : State := { rdy with power := { rdy.power with change := some { target := 1, old := 0, up := true, vok := true } } }; (match s.power.change with | some c => decide (c.up = true) && decide (c.vok = true) | _ => false))
    && (let s : State := rdy; let s : State := { (s) with power := { (s).power with change := (some ({ target := 0, old := 0, up := false } : OpChange)) } }; (match s.power.change with | some c => decide (c.up = false) && decide (c.switched = false) | _ => false))
    && (let s : State := { rdy with power := { rdy.power with change := some { target := 1, old := 0, up := false, switched := true } } }; (match s.power.change with | some c => decide (c.up = false) && decide (c.switched = true) | _ => false))
    && (let s : State := rdy; decide (s.power.change = none))
    && (let s : State := rdy; let s : State := { (s) with power := { (s).power with run := false } }; decide (s.powered = false))
    && (let st : Nat := 0; let s : State := rdy; decide (s.powered = true) && ((List.range 16).all fun i => (!decide (bit st i = true) || decide (bit s.power.avsFaults i = true))))
    && (let st : Nat := 1; let s : State := rdy; decide (s.powered = true) && ((List.range 16).any fun i => (decide (bit st i = true) && decide (bit s.power.avsFaults i = false))))) = true := by decide +kernel

/-- The hypotheses of the clauses of LedgerThrottleAndSentinelOutputs are met. -/
theorem wit_ledger_throttle_and_sentinel_outputs : ((let s : State := rdy; let s : State := { (s) with power := { (s).power with run := false } }; decide (s.powered = false))
    && (let s : State := rdy; let s : State := { (s) with life := { (s).life with runMs := 3599999 } }; decide (s.life.runMs + 1 = 3600000))
    && (let s : State := rdy; decide (s.powered = true) && decide (s.power.windowN = 0))
    && (let s : State := rdy; let s : State := { (s) with power := { (s).power with windowN := 1 } }; decide (s.powered = true) && decide (s.power.windowN ≠ 0) && decide ((decide (s.rd Ob.penvEnvelope < s.windowPower.sum)) = false))
    && (let s : State := ({ rdy with power := { rdy.power with windowN := 1, railSum := [(0, 1000000)], overSecond := some 0 } } : State).wr Ob.penvEnvelope 0; decide (s.powered = true) && decide (s.power.windowN ≠ 0) && decide ((decide (s.rd Ob.penvEnvelope < s.windowPower.sum)) = true) && decide (s.power.overSecond = some s.time.rtcSeconds))
    && (let s : State := ({ rdy with power := { rdy.power with windowN := 1, railSum := [(0, 1000000)], overSecond := some 5 } } : State).wr Ob.penvEnvelope 0; decide (s.powered = true) && decide (s.power.windowN ≠ 0) && decide ((decide (s.rd Ob.penvEnvelope < s.windowPower.sum)) = true) && decide (s.power.overSecond ≠ some s.time.rtcSeconds))
    && (let s : State := rdy; decide (s.powered = true) && decide ((s.power.usable.filter id).length < 16))
    && (let s : State := { rdy with power := { rdy.power with usable := List.replicate 16 true } }; decide (s.powered = true) && decide (16 ≤ (s.power.usable.filter id).length))
    && (let usage : List Nat := [0, 0, 0, 0, 0]; let s : State := cfd rdy; decide (s.powered = true) && decide (s.bestPower usage ≤ s.rd Ob.penvBestEffortAllowance))
    && (let usage : List Nat := [0, 0, 0, 0, 1000000000]; let s : State := (cfd rdy).wrs [(Ob.penvBestEffortAllowance, 5), (Ob.penvThrottling, 1)]; decide (s.powered = true) && decide (s.rd Ob.penvBestEffortAllowance < s.bestPower usage) && decide (s.rd Ob.penvThrottling ≠ 0))
    && (let usage : List Nat := [0, 0, 0, 0, 1000000000]; let s : State := (cfd rdy).wrs [(Ob.penvBestEffortAllowance, 5), (Ob.penvThrottling, 0)]; decide (s.powered = true) && decide (s.rd Ob.penvBestEffortAllowance < s.bestPower usage) && decide (s.rd Ob.penvThrottling = 0))
    && (let s : State := rdy; @decide _ (decReady s))
    && (let k : Fin 2 := 0; let s : State := rdy; let s : State := (s).setAux k 1; decide (s.auxState k = 1) && (let good := true; true))
    && (let k : Fin 2 := 0; let s : State := rdy; let s : State := (s).setAux k 1; decide (s.auxState k = 1) && (let good := false; true))
    && (let k : Fin 2 := 0; let s : State := rdy; decide (s.auxState k ≠ 1))
    && (let k : Fin 2 := 0; let s : State := rdy; let s : State := (s).setAux k 2; decide (s.power.run = true) && decide (s.auxState k = 2))
    && (let k : Fin 2 := 0; let s : State := rdy; (decide (s.power.run = false) || decide (s.auxState k ≠ 2)))
    && (let k : Fin 2 := 0; let s : State := (({ rdy with power := { rdy.power with auxTries := [] } } : State).wrs [(auxKey 0, 2 ^ 16 - 1)]).setAux 0 3; decide (s.auxState k = 3) && decide (s.auxWant k = true) && decide ((tget (dconst 0) s.power.auxTries k) < bits (s.rd (auxKey k)) 13 12))
    && (let k : Fin 2 := 0; let s : State := rdy; (!(decide (s.auxState k = 3) && decide (s.auxWant k = true) && decide ((tget (dconst 0) s.power.auxTries k) < bits (s.rd (auxKey k)) 13 12))))) = true := by decide +kernel

/-- The hypotheses of the clauses of SynthesisStates are met. -/
theorem wit_synthesis_states : ((let t : Nat := 0; let s : State := rdy; let s : State := { (s) with tap := { (s).tap with instr := 0 } }; @decide _ (decReady s) && (!(decide ((s.advance t).synBusy = false) && decide ((s.advance t).tapHolds = false))))
    && (let t : Nat := 0; let s : State := rdy; let s : State := (s).wr Ob.synMultiplier 0; @decide _ (decReady s) && decide ((s.advance t).synBusy = false) && decide ((s.advance t).tapHolds = false) && decide (synLimits (s.fRefOf (s.rd Ob.synSource)) (s.rd Ob.synRefMode) (s.rd Ob.synLoopMode) (s.rd Ob.synMultiplier) = false))
    && (let t : Nat := 0; let s : State := rdy; @decide _ (decReady s) && decide ((s.advance t).synBusy = false) && decide ((s.advance t).tapHolds = false) && decide (synLimits (s.fRefOf (s.rd Ob.synSource)) (s.rd Ob.synRefMode) (s.rd Ob.synLoopMode) (s.rd Ob.synMultiplier) = true))
    && (let measured : Nat := 0; let s : State := rdy; let s : State := (s).wr Ob.synState 1; decide ((s.rd Ob.synState) = 1) && decide ((if s.syn.fRef ≤ measured then measured - s.syn.fRef else s.syn.fRef - measured) * 1000 ≤ s.syn.fRef))
    && (let measured : Nat := 0; let s : State := rdy; (decide ((s.rd Ob.synState) ≠ 1) || (!decide ((if s.syn.fRef ≤ measured then measured - s.syn.fRef else s.syn.fRef - measured) * 1000 ≤ s.syn.fRef))))
    && (let s : State := rdy; decide ((s.rd Ob.synState) ≠ 1))
    && (let s : State := rdy; let s : State := (s).wr Ob.synState 2; let s : State := { (s) with syn := { (s).syn with lockedOnce := true } }; decide ((s.rd Ob.synState) = 2) && decide (s.syn.lockedOnce = true))
    && (let s : State := rdy; let s : State := (s).wr Ob.synState 2; decide ((s.rd Ob.synState) = 2) && decide (s.syn.lockedOnce = false))
    && (let s : State := rdy; let s : State := (s).wr Ob.synState 3; decide ((s.rd Ob.synState) = 3))
    && (let s : State := rdy; decide ((s.rd Ob.synState) ≠ 2) && decide ((s.rd Ob.synState) ≠ 3) && decide ((s.rd Ob.synState) ≠ 4))
    && (let s : State := rdy; decide ((s.rd Ob.synState) ≠ 4))
    && (let s : State := rdy; let s : State := (s).wr Ob.synState 4; let s : State := { (s) with syn := { (s).syn with slewing := true } }; decide ((s.rd Ob.synState) = 4) && decide (s.syn.slewing = true))
    && (let s : State := rdy; (decide ((s.rd Ob.synState) ≠ 4) || decide (s.syn.slewing = false)))) = true := by decide +kernel

/-- The hypotheses of the clauses of ClockOutputs are met. -/
theorem wit_clock_outputs : ((let v : Nat := 0; let i : Fin 16 := 0; let s : State := rdy; let s : State := (s).wr (if i.val < 8 then Ob.clkDclkConfig (i.val % 8) else Ob.clkSrefConfig (i.val % 8)) 9223372036854775809; @decide _ (decReady s) && decide (bit (s.rd (if i.val < 8 then Ob.clkDclkConfig (i.val % 8) else Ob.clkSrefConfig (i.val % 8))) 63 = true) && decide (v % 2 ^ 63 ≠ (s.rd (if i.val < 8 then Ob.clkDclkConfig (i.val % 8) else Ob.clkSrefConfig (i.val % 8))) % 2 ^ 63))
    && (let v : Nat := 0; let i : Fin 16 := 8; let s : State := (sl 0 2).wrs [(Ob.slotChannelMask 0, 1), (Ob.chanSourceLink 0, 3), (Ob.linkSubclass 3, 1), (Ob.linkSysrefSource 3, 0), (Ob.clkSrefConfig 0, 2 ^ 63)]; @decide _ (decReady s) && decide (bit (s.rd (if i.val < 8 then Ob.clkDclkConfig (i.val % 8) else Ob.clkSrefConfig (i.val % 8))) 63 = true) && decide (bit v 63 = false) && decide (8 ≤ i.val) && decide (s.srefInUse (i.val % 8) = true))
    && (let v : Nat := 2 ^ 63; let i : Fin 16 := 0; let s : State := rdy; @decide _ (decReady s) && decide (bit (s.rd (if i.val < 8 then Ob.clkDclkConfig (i.val % 8) else Ob.clkSrefConfig (i.val % 8))) 63 = false) && decide (bit v 63 = true) && decide (s.counts = false))
    && (let v : Nat := 2 ^ 63; let i : Fin 16 := 0; let s : State := rdyC; @decide _ (decReady s) && decide (bit (s.rd (if i.val < 8 then Ob.clkDclkConfig (i.val % 8) else Ob.clkSrefConfig (i.val % 8))) 63 = false) && decide (bit v 63 = true) && decide (s.counts = true) && (!((decide (v < 2 ^ 64) && decide ((if i.val < 8 then dclkReserved v else srefReserved v) = false) && (!decide (i.val < 8) || (decide (bits v 41 32 = 0) || decide (bit (s.rd (Ob.clkSrefConfig (i.val % 8))) 63 = false) || decide (bits (s.rd (Ob.clkSrefConfig (i.val % 8))) 47 16 % bits v 41 32 = 0)))) && decide ((if i.val < 8 then dclkOk s.fT v else srefOk (s.rd (Ob.clkDclkConfig (i.val % 8))) v (s.rd (Ob.clkSrefOffset (i.val % 8)))) = true))))
    && (let v : Nat := 2 ^ 63 + 4 * 2 ^ 32; let i : Fin 16 := 0; let s : State := rdyC; @decide _ (decReady s) && decide (bit (s.rd (if i.val < 8 then Ob.clkDclkConfig (i.val % 8) else Ob.clkSrefConfig (i.val % 8))) 63 = false) && decide (bit v 63 = true) && decide (s.counts = true) && decide (v < 2 ^ 64) && decide ((if i.val < 8 then dclkReserved v else srefReserved v) = false) && (!decide (i.val < 8) || (decide (bits v 41 32 = 0) || decide (bit (s.rd (Ob.clkSrefConfig (i.val % 8))) 63 = false) || decide (bits (s.rd (Ob.clkSrefConfig (i.val % 8))) 47 16 % bits v 41 32 = 0))) && decide ((if i.val < 8 then dclkOk s.fT v else srefOk (s.rd (Ob.clkDclkConfig (i.val % 8))) v (s.rd (Ob.clkSrefOffset (i.val % 8)))) = true))
    && (let v : Nat := 0; let i : Fin 16 := 0; let s : State := rdy; let s : State := (s).wr (if i.val < 8 then Ob.clkDclkConfig (i.val % 8) else Ob.clkSrefConfig (i.val % 8)) 9223372036854775808; @decide _ (decReady s) && decide (bit (s.rd (if i.val < 8 then Ob.clkDclkConfig (i.val % 8) else Ob.clkSrefConfig (i.val % 8))) 63 = true) && decide (bit v 63 = false) && decide (v % 2 ^ 63 = (s.rd (if i.val < 8 then Ob.clkDclkConfig (i.val % 8) else Ob.clkSrefConfig (i.val % 8))) % 2 ^ 63) && (!decide (8 ≤ i.val) || decide (s.srefInUse (i.val % 8) = false)) && decide (v < 2 ^ 64) && decide ((if i.val < 8 then dclkReserved v else srefReserved v) = false) && (!decide (i.val < 8) || (decide (bits v 41 32 = 0) || decide (bit (s.rd (Ob.clkSrefConfig (i.val % 8))) 63 = false) || decide (bits (s.rd (Ob.clkSrefConfig (i.val % 8))) 47 16 % bits v 41 32 = 0))))
    && (let v : Nat := 0; let i : Fin 16 := 0; let s : State := rdy; @decide _ (decReady s) && decide (bit (s.rd (if i.val < 8 then Ob.clkDclkConfig (i.val % 8) else Ob.clkSrefConfig (i.val % 8))) 63 = false) && decide (bit v 63 = false) && decide (v < 2 ^ 64) && decide ((if i.val < 8 then dclkReserved v else srefReserved v) = false) && (!decide (i.val < 8) || (decide (bits v 41 32 = 0) || decide (bit (s.rd (Ob.clkSrefConfig (i.val % 8))) 63 = false) || decide (bits (s.rd (Ob.clkSrefConfig (i.val % 8))) 47 16 % bits v 41 32 = 0))))
    && (let v : Nat := 7; let i : Fin 16 := 0; let s : State := rdyC.wr (Ob.clkSrefConfig 0) (2 ^ 63); @decide _ (decReady s) && decide (bit (s.rd (Ob.clkSrefConfig (i.val % 8))) 63 = true) && decide (v ≠ s.rd (Ob.clkSrefOffset (i.val % 8))))
    && (let v : Nat := 0; let i : Fin 16 := 0; let s : State := rdy; @decide _ (decReady s) && decide (bit (s.rd (Ob.clkSrefConfig (i.val % 8))) 63 = false) && decide (v < 2 ^ 32))
    && (let v : Nat := 4294967296; let i : Fin 16 := 0; let s : State := rdy; @decide _ (decReady s) && decide (bit (s.rd (Ob.clkSrefConfig (i.val % 8))) 63 = false) && decide (2 ^ 32 ≤ v))
    && (let sub : Nat := 25; let s : State := rdy; @decide _ (decReady s) && decide (0x18 < sub) && decide (sub ≠ 0x1A))
    && (let sub : Nat := 0; let s : State := rdy; @decide _ (decReady s) && (decide (sub = 0) || decide (sub = 0x1A)))
    && (let mask : Nat := 256; let s : State := rdy; @decide _ (decReady s) && decide (256 ≤ mask))
    && (let mask : Nat := 0; let s : State := rdy; @decide _ (decReady s) && decide (mask < 256))
    && (let t : Nat := 0; let i : Fin 16 := 0; let s : State := rdyC.setClkOut 0 { startAt := some 0 }; (match (s.clkOut i).startAt with | some T => decide (T ≤ (s.advance t).devNow) | _ => false))
    && (let t : Nat := 0; let i : Fin 16 := 0; let s : State := rdy; (decide ((s.clkOut i).startAt = none) || (match (s.clkOut i).startAt with | some T => decide ((s.advance t).devNow < T) | _ => false)))
    && (let i : Fin 16 := 0; let s : State := (rdyC.wr Ob.clkOutputState 1).setClkOut 0 { stopping := true }; (decide ((s.clkOut i).stopping = true) || decide ((s.clkOut i).burst ≠ 0)) && decide (bit (s.rd Ob.clkOutputState) i = true))
    && (let i : Fin 16 := 0; let s : State := rdy; ((decide ((s.clkOut i).stopping = false) && decide ((s.clkOut i).burst = 0)) || decide (bit (s.rd Ob.clkOutputState) i = false)))) = true := by decide +kernel

/-- The hypotheses of the clauses of DeviceTime are met. -/
theorem wit_device_time : ((let s : State := rdy; @decide _ (decReady s) && (decide (s.counts = false) || decide (s.stepForbidden = true)))
    && (let v : Nat := 281474976710656; let s : State := rdy; let s : State := { (s) with time := { (s).time with counting := true } }; @decide _ (decReady s) && decide (s.counts = true) && decide (s.stepForbidden = false) && decide (2 ^ 48 ≤ v))
    && (let v : Nat := 0; let s : State := rdy; let s : State := { (s) with time := { (s).time with counting := true } }; @decide _ (decReady s) && decide (s.counts = true) && decide (s.stepForbidden = false) && decide (v < 2 ^ 48))
    && (let s : State := rdy; (decide (s.time.awaitRtc = false) || decide (s.synRuns = false)))
    && (let s : State := rdy; let s : State := { (s) with time := { (s).time with awaitRtc := true } }; let s : State := (s).wr Ob.synState 3; decide (s.time.awaitRtc = true) && decide (s.synRuns = true))
    && (let s : State := rdy; decide (s.counts = false))
    && (let s : State := rdy; let s : State := { (s) with time := { (s).time with counting := true } }; decide (s.counts = true) && decide (s.time.setPending = none))
    && (let s : State := rdy; let s : State := { (s) with time := { (s).time with setPending := (some 0) } }; let s : State := { (s) with time := { (s).time with counting := true } }; decide (s.counts = true) && (match s.time.setPending with | some v => decide (s.time.rtcRealign = false) | _ => false))
    && (let s : State := rdy; let s : State := { (s) with time := { (s).time with setPending := (some 0) } }; let s : State := { (s) with time := { (s).time with rtcRealign := true } }; let s : State := { (s) with time := { (s).time with counting := true } }; decide (s.counts = true) && (match s.time.setPending with | some v => decide (s.time.rtcRealign = true) | _ => false))
    && (let t : Nat := 0; let e : Nat := 0; let s : State := rdy; (decide (s.rd Ob.timeSyncMode = 0) || decide (s.counts = false) || (decide (s.time.syncEdgeAt = some e) && decide ((s.advance t).now < e + s.us 100000))))
    && (let t : Nat := 0; let e : Nat := 0; let s : State := rdy; let s : State := (s).wr Ob.timeSyncMode 1; let s : State := { (s) with time := { (s).time with counting := true } }; decide (s.rd Ob.timeSyncMode ≠ 0) && decide (s.counts = true) && (match s.time.syncEdgeAt with | some e => decide (e + s.us 100000 ≤ (s.advance t).now) | _ => true) && decide (s.rd Ob.timeSyncMode = 1))
    && (let t : Nat := 0; let e : Nat := 0; let s : State := rdy; let s : State := (s).wr Ob.timeSyncMode 2; let s : State := { (s) with time := { (s).time with counting := true } }; decide (s.rd Ob.timeSyncMode ≠ 0) && decide (s.counts = true) && (match s.time.syncEdgeAt with | some e => decide (e + s.us 100000 ≤ (s.advance t).now) | _ => true) && decide (s.rd Ob.timeSyncMode = 2) && (!(decide (s.rd Ob.timeSyncState = 1) && decide (s.time.syncArmedAt + s.us 1000 ≤ (s.advance t).now))))
    && (let t : Nat := 1000000000000000; let e : Nat := 0; let s : State := rdy; let s : State := (s).wr Ob.timeSyncMode 2; let s : State := (s).wr Ob.timeSyncState 1; let s : State := { (s) with time := { (s).time with counting := true } }; let s : State := (s).wr Ob.primEnable 1; decide (s.rd Ob.timeSyncMode ≠ 0) && decide (s.counts = true) && (match s.time.syncEdgeAt with | some e => decide (e + s.us 100000 ≤ (s.advance t).now) | _ => true) && decide (s.rd Ob.timeSyncMode = 2) && decide (s.rd Ob.timeSyncState = 1) && decide (s.time.syncArmedAt + s.us 1000 ≤ (s.advance t).now) && decide (s.stepForbidden = true))
    && (let t : Nat := 1000000000000000; let e : Nat := 0; let s : State := rdy; let s : State := (s).wr Ob.timeSyncMode 2; let s : State := (s).wr Ob.timeSyncState 1; let s : State := { (s) with time := { (s).time with counting := true } }; decide (s.rd Ob.timeSyncMode ≠ 0) && decide (s.counts = true) && (match s.time.syncEdgeAt with | some e => decide (e + s.us 100000 ≤ (s.advance t).now) | _ => true) && decide (s.rd Ob.timeSyncMode = 2) && decide (s.rd Ob.timeSyncState = 1) && decide (s.time.syncArmedAt + s.us 1000 ≤ (s.advance t).now) && decide (s.stepForbidden = false))
    && (let t : Nat := 0; let e : Nat := 0; let s : State := rdy; let s : State := (s).wr Ob.timeSyncMode 100000; let s : State := { (s) with time := { (s).time with counting := true } }; decide (s.rd Ob.timeSyncMode ≠ 0) && decide (s.counts = true) && (match s.time.syncEdgeAt with | some e => decide (e + s.us 100000 ≤ (s.advance t).now) | _ => true) && decide (2 < s.rd Ob.timeSyncMode))
    && (let s : State := rdy; @decide _ (decReady s) && (decide (s.rd Ob.timeSyncMode ≠ 2) || decide (s.stepForbidden = true)))
    && (let s : State := rdy; let s : State := (s).wr Ob.timeSyncMode 2; @decide _ (decReady s) && decide (s.rd Ob.timeSyncMode = 2) && decide (s.stepForbidden = false))
    && (let s : State := rdy; @decide _ (decReady s) && (decide (s.rd Ob.timeStreamState ≠ 2) || decide (s.counts = false) || decide (s.stepForbidden = true) || decide (s.time.lastMsg = none)))
    && (let s : State := rdy; let s : State := (s).wr Ob.timeStreamState 2; let s : State := { (s) with time := { (s).time with lastMsg := (some ({ seconds := 0, milli := 0, quality := 0, epoch := 0, descriptor := 0 } : StreamMsg)) } }; let s : State := { (s) with time := { (s).time with counting := true } }; @decide _ (decReady s) && decide (s.rd Ob.timeStreamState = 2) && decide (s.counts = true) && decide (s.stepForbidden = false) && (match s.time.lastMsg with | some m => true | _ => false))) = true := by decide +kernel

/-- The hypotheses of the clauses of TimingStream are met. -/
theorem wit_timing_stream : ((let s : State := rdy; (!(decide (s.rd Ob.timeStreamInEnable ≠ 0) && (decide ((s.rd Ob.timeStreamState) = 1) || decide ((s.rd Ob.timeStreamState) = 2)))))
    && (let seconds : Nat := 0; let milli : Nat := 0; let quality : Nat := 0; let epoch : Nat := 0; let descriptor : Nat := 0; let s : State := rdy; let s : State := (s).wr Ob.timeStreamInEnable 1; let s : State := (s).wr Ob.timeStreamState 1; let s : State := { (s) with time := { (s).time with lastMsg := (some ({ seconds := 0, milli := 0, quality := 0, epoch := 0, descriptor := 0 } : StreamMsg)) } }; decide (s.rd Ob.timeStreamInEnable ≠ 0) && (decide ((s.rd Ob.timeStreamState) = 1) || decide ((s.rd Ob.timeStreamState) = 2)) && (!(match s.time.lastMsg with | some q => decide (({ seconds := seconds, milli := milli, quality := quality, epoch := epoch, descriptor := descriptor } : StreamMsg).follows q = true) | _ => true)))
    && (let seconds : Nat := 0; let milli : Nat := 0; let quality : Nat := 0; let epoch : Nat := 0; let descriptor : Nat := 0; let s : State := rdy; let s : State := (s).wr Ob.timeStreamInEnable 1; let s : State := (s).wr Ob.timeStreamState 1; decide (s.rd Ob.timeStreamInEnable ≠ 0) && (decide ((s.rd Ob.timeStreamState) = 1) || decide ((s.rd Ob.timeStreamState) = 2)) && (match s.time.lastMsg with | some q => decide (({ seconds := seconds, milli := milli, quality := quality, epoch := epoch, descriptor := descriptor } : StreamMsg).follows q = true) | _ => true))
    && (let s : State := rdy; let s : State := (s).wr Ob.timeStreamOutEnable 1; let s : State := { (s) with time := { (s).time with counting := true } }; decide (s.rd Ob.timeStreamOutEnable ≠ 0) && decide (s.counts = true))
    && (let s : State := rdy; (decide (s.rd Ob.timeStreamOutEnable = 0) || decide (s.counts = false)))
    && (let s : State := rdy; let s : State := (s).wr Ob.timeStreamState 2; decide ((s.rd Ob.timeStreamState) = 2))
    && (let s : State := rdy; decide ((s.rd Ob.timeStreamState) ≠ 2))
    && (let s : State := rdy; let s : State := (s).wr Ob.timeStreamInEnable 1; decide (s.rd Ob.timeStreamInEnable ≠ 0) && (decide ((s.rd Ob.timeStreamState) = 0) || decide ((s.rd Ob.timeStreamState) = 3)))
    && (let s : State := rdy; (decide (s.rd Ob.timeStreamInEnable = 0) || (decide ((s.rd Ob.timeStreamState) ≠ 0) && decide ((s.rd Ob.timeStreamState) ≠ 3))))) = true := by decide +kernel

/-- The hypotheses of the clauses of TimeToDigital are met. -/
theorem wit_time_to_digital : ((let ch : Fin 16 := 0; let falling : Bool := true; let s : State := rdy; (!(decide (s.rd (Ob.tdcEnable ch.val) ≠ 0) && decide (bit (s.rd (Ob.tdcEdges ch.val)) (b2n (falling != s.rdB (Ob.tdcInvert ch.val))) = true) && decide (s.counts = true))))
    && (let t : Nat := 0; let ch : Fin 16 := 0; let falling : Bool := false; let s : State := (rdyC.wrs [(Ob.tdcEnable 0, 1), (Ob.tdcEdges 0, 3)]).setTdc 0 { lastRise := some 0, lastFall := some 0 }; decide (s.rd (Ob.tdcEnable ch.val) ≠ 0) && decide (bit (s.rd (Ob.tdcEdges ch.val)) (b2n (falling != s.rdB (Ob.tdcInvert ch.val))) = true) && decide (s.counts = true) && ((match (if (falling != s.rdB (Ob.tdcInvert ch.val)) then (s.tdcCh ch.val).lastFall else (s.tdcCh ch.val).lastRise) with | some a => decide (((s.advance t).now - a) * 10000000000 < 16 * s.second) | _ => false) || decide (64 ≤ (s.tdcCh ch.val).front.length)))
    && (let t : Nat := 0; let ch : Fin 16 := 0; let falling : Bool := true; let s : State := rdy; let s : State := (s).wr (Ob.tdcEnable ch.val) 1; let s : State := (s).wr (Ob.tdcInvert ch.val) 1; let s : State := { (s) with time := { (s).time with counting := true } }; decide (s.rd (Ob.tdcEnable ch.val) ≠ 0) && decide (bit (s.rd (Ob.tdcEdges ch.val)) (b2n (falling != s.rdB (Ob.tdcInvert ch.val))) = true) && decide (s.counts = true) && (!(match (if (falling != s.rdB (Ob.tdcInvert ch.val)) then (s.tdcCh ch.val).lastFall else (s.tdcCh ch.val).lastRise) with | some a => decide (((s.advance t).now - a) * 10000000000 < 16 * s.second) | _ => false)) && decide ((s.tdcCh ch.val).front.length < 64))
    && (let ch : Fin 16 := 0; let s : State := rdy; decide ((s.tdcCh ch.val).front = []))
    && (let ch : Fin 16 := 0; let f : Bool := false; let uncal : Bool := false; let loss : Bool := false; let st : Nat := 5; let rest : List (Nat × Bool × Bool × Bool) := []; let s : State := rdy.setTdc 0 { front := [(5, false, false, false)] }; decide ((s.tdcCh ch.val).front = (st, f, uncal, loss) :: rest) && decide ((s.tdcCh ch.val).queue.length < 1024))
    && (let ch : Fin 16 := 0; let f : Bool := false; let uncal : Bool := false; let loss : Bool := false; let st : Nat := 5; let rest : List (Nat × Bool × Bool × Bool) := []; let s : State := (rdy.wr (Ob.tdcQueuePolicy 0) 0).setTdc 0 { front := [(5, false, false, false)], queue := List.replicate 1024 0 }; decide ((s.tdcCh ch.val).front = (st, f, uncal, loss) :: rest) && decide (1024 ≤ (s.tdcCh ch.val).queue.length) && decide (s.rd (Ob.tdcQueuePolicy ch.val) = 0))
    && (let ch : Fin 16 := 0; let f : Bool := false; let uncal : Bool := false; let loss : Bool := false; let st : Nat := 5; let rest : List (Nat × Bool × Bool × Bool) := []; let s : State := (rdy.wr (Ob.tdcQueuePolicy 0) 1).setTdc 0 { front := [(5, false, false, false)], queue := List.replicate 1024 0 }; decide ((s.tdcCh ch.val).front = (st, f, uncal, loss) :: rest) && decide (1024 ≤ (s.tdcCh ch.val).queue.length) && decide (s.rd (Ob.tdcQueuePolicy ch.val) ≠ 0))
    && (let n : Nat := 0; let s : State := rdy; @decide _ (decReady s) && (decide (n < 1) || decide (128 < n)))
    && (let n : Nat := 1; let s : State := rdy; @decide _ (decReady s) && decide (1 ≤ n) && decide (n ≤ 128))
    && (let un : Fin 4 := 0; let s : State := rdy; let s : State := (s).wr (Ob.statMode un) 1; let s : State := (s).wr (Ob.statChannelA un) 1; let s : State := (s).wr (Ob.tdcEnable (s.rd (Ob.statChannelB un))) 1; @decide _ (decReady s) && decide ((s.statU un).running = false) && decide (s.rd (Ob.statMode un) ≠ 0) && decide (s.rd (Ob.tdcEnable (s.rd (Ob.statChannelA un))) ≠ 0) && (!decide (s.rd (Ob.statMode un) = 1) || decide (s.rd (Ob.tdcEnable (s.rd (Ob.statChannelB un))) ≠ 0)))
    && (let un : Fin 4 := 0; let s : State := rdy; @decide _ (decReady s) && (!(decide ((s.statU un).running = false) && decide (s.rd (Ob.statMode un) ≠ 0) && decide (s.rd (Ob.tdcEnable (s.rd (Ob.statChannelA un))) ≠ 0) && (!decide (s.rd (Ob.statMode un) = 1) || decide (s.rd (Ob.tdcEnable (s.rd (Ob.statChannelB un))) ≠ 0)))))
    && (let line : Fin 2 := 0; decide (line.val = 0))
    && (let line : Fin 2 := 1; decide (line.val = 1))
    && (let widths : List Nat := List.replicate 256 4; decide (widths.length = 256))
    && (let widths : List Nat := []; decide (widths.length ≠ 256))) = true := by decide +kernel

/-- The hypotheses of the clauses of LinkBringUp are met. -/
theorem wit_link_bring_up : ((let jf : Fin 16 := 3; let s : State := (sl 0 2).wrs [(Ob.slotChannelMask 0, 1), (Ob.chanSourceLink 0, 3)]; @decide _ (decReady s) && decide (s.linkOwned jf.val = true))
    && (let jf : Fin 16 := 0; let s : State := rdy; @decide _ (decReady s) && decide (s.linkOwned jf.val = false) && decide (s.rd (Ob.linkLaneCount jf.val) = 0))
    && (let jf : Fin 16 := 0; let s : State := rdy; let s : State := (s).wr (Ob.linkLaneCount jf.val) 1; @decide _ (decReady s) && decide (s.linkOwned jf.val = false) && decide (s.rd (Ob.linkLaneCount jf.val) ≠ 0) && decide (s.counts = false))
    && (let t : Nat := 0; let jf : Fin 16 := 0; let s : State := (rdyC.wrs [(Ob.linkLaneCount 0, 1), (Ob.linkM 0, 1), (Ob.linkF 0, 2), (Ob.linkS 0, 1), (Ob.linkN 0, 16), (Ob.linkNPrime 0, 16), (Ob.linkCS 0, 0), (Ob.linkE 0, 1), (Ob.linkLaneRate 0, 8000000), (Ob.linkSubclass 0, 0), (Ob.linkReleaseDelay 0, 0)]).setDom (Ob.linkLaneMap 0) [0]; @decide _ (decReady s) && decide (s.linkOwned jf.val = false) && decide (s.rd (Ob.linkLaneCount jf.val) ≠ 0) && decide (s.counts = true) && decide (s.linkParams jf.val = true) && decide (s.laneMapOk jf.val = true) && decide (s.sysrefOk jf.val = true) && decide (s.rd (Ob.linkReleaseDelay jf.val) = 0))
    && (let t : Nat := 0; let jf : Fin 16 := 0; let s : State := rdy; let s : State := (s).wr (Ob.linkLaneCount jf.val) 1; let s : State := { (s) with time := { (s).time with counting := true } }; @decide _ (decReady s) && decide (s.linkOwned jf.val = false) && decide (s.rd (Ob.linkLaneCount jf.val) ≠ 0) && decide (s.counts = true) && (!(decide (s.linkParams jf.val = true) && decide (s.laneMapOk jf.val = true) && decide (s.sysrefOk jf.val = true) && (decide ((s.rd (Ob.linkReleaseDelay jf.val)) = 0) || decide ((if (s.rd (Ob.linkReleaseDelay jf.val)) = 0 then ((((s.advance t).setLink jf.val { applyResult := some 0, applied := true, release := (s.rd (Ob.linkReleaseDelay jf.val)) }).wrs [(Ob.linkLinkState jf.val, 1), (Ob.linkAlignLatency jf.val, 0), (Ob.linkArrivalSpread jf.val, 0), (Ob.linkArrivalMargin jf.val, 0)]).linkRates jf.val) else ((((s.advance t).setLink jf.val { applyResult := some 0, applied := true, release := (s.rd (Ob.linkReleaseDelay jf.val)) }).wrs [(Ob.linkLinkState jf.val, 1), (Ob.linkAlignLatency jf.val, 0), (Ob.linkArrivalSpread jf.val, 0), (Ob.linkArrivalMargin jf.val, 0)]).linkRates jf.val).levelSources jf.val).fabricBroken = false)))))
    && (let jf : Fin 16 := 0; let s : State := rdy; let s : State := (s).wr (Ob.linkLinkState jf.val) 1; decide ((s.rd (Ob.linkLinkState jf.val)) = 1))
    && (let jf : Fin 16 := 0; let s : State := (rdy.wr (Ob.linkLinkState 0) 2).setLink 0 { release := 256 }; decide ((s.rd (Ob.linkLinkState jf.val)) = 2) && decide ((s.linkS jf.val).release ≠ 0))
    && (let jf : Fin 16 := 0; let s : State := rdyC.wrs [(Ob.linkLinkState 0, 2)]; decide ((s.rd (Ob.linkLinkState jf.val)) = 2) && decide ((s.linkS jf.val).release = 0))
    && (let jf : Fin 16 := 0; let s : State := rdy; decide ((s.rd (Ob.linkLinkState jf.val)) ≠ 2))
    && (let jf : Fin 16 := 0; let s : State := rdy; let s : State := (s).wr (Ob.linkLinkState jf.val) 3; decide ((s.rd (Ob.linkLinkState jf.val)) = 3))
    && (let jf : Fin 16 := 0; let s : State := rdy; decide ((s.rd (Ob.linkLinkState jf.val)) ≠ 3))
    && (let jf : Fin 16 := 0; let s : State := rdy; let s : State := (s).wr (Ob.linkLinkState jf.val) 1; (decide ((s.rd (Ob.linkLinkState jf.val)) = 1) || decide ((s.rd (Ob.linkLinkState jf.val)) = 2) || decide ((s.rd (Ob.linkLinkState jf.val)) = 3) || decide ((s.rd (Ob.linkLinkState jf.val)) = 5)))
    && (let jf : Fin 16 := 0; let s : State := rdy; decide ((s.rd (Ob.linkLinkState jf.val)) ≠ 1) && decide ((s.rd (Ob.linkLinkState jf.val)) ≠ 2) && decide ((s.rd (Ob.linkLinkState jf.val)) ≠ 3) && decide ((s.rd (Ob.linkLinkState jf.val)) ≠ 5))
    && (let jf : Fin 16 := 0; let s : State := rdy; let s : State := (s).wr (Ob.linkLinkState jf.val) 4; decide ((s.rd (Ob.linkLinkState jf.val)) = 4) && decide (s.rd (Ob.linkAutoRelink jf.val) ≠ 0))
    && (let jf : Fin 16 := 0; let s : State := rdy; let s : State := (s).wr (Ob.linkLinkState jf.val) 4; let s : State := (s).wr (Ob.linkAutoRelink jf.val) 0; decide ((s.rd (Ob.linkLinkState jf.val)) = 4) && decide (s.rd (Ob.linkAutoRelink jf.val) = 0))
    && (let jf : Fin 16 := 0; let s : State := rdy; decide ((s.rd (Ob.linkLinkState jf.val)) ≠ 4))
    && (let earliest : Nat := 0; let latest : Nat := 0; let jf : Fin 16 := 0; let s : State := rdy; let s : State := (s).wr (Ob.linkLinkState jf.val) 5; decide ((s.rd (Ob.linkLinkState jf.val)) = 5) && decide ((if (s.rd (Ob.linkSubclass jf.val) = 0) then latest - earliest else max earliest latest) ≤ (s.linkS jf.val).release) && decide ((s.linkS jf.val).release ≤ (if (s.rd (Ob.linkSubclass jf.val) = 0) then 0 else min earliest latest) + s.elastic jf.val))
    && (let earliest : Nat := 0; let latest : Nat := 1; let jf : Fin 16 := 0; let s : State := rdy; let s : State := (s).wr (Ob.linkLinkState jf.val) 5; decide ((s.rd (Ob.linkLinkState jf.val)) = 5) && (!(decide ((if (s.rd (Ob.linkSubclass jf.val) = 0) then latest - earliest else max earliest latest) ≤ (s.linkS jf.val).release) && decide ((s.linkS jf.val).release ≤ (if (s.rd (Ob.linkSubclass jf.val) = 0) then 0 else min earliest latest) + s.elastic jf.val))))
    && (let jf : Fin 16 := 0; let s : State := rdy; decide ((s.rd (Ob.linkLinkState jf.val)) ≠ 5))) = true := by decide +kernel

/-- The hypotheses of the clauses of SamplesAndLevels are met. -/
theorem wit_samples_and_levels : ((let jf : Fin 16 := 0; let s : State := rdy; decide (s.rd (Ob.linkLinkState jf) ≠ 4))
    && (let jf : Fin 16 := 0; let s : State := rdy; let s : State := (s).wr (Ob.linkLinkState jf) 4; decide (s.rd (Ob.linkLinkState jf) = 4))
    && (let ch : Fin 64 := 0; let s : State := rdy; (decide (16 ≤ (s.rd (Ob.chanSourceLink ch.val))) || decide (s.delivers (s.rd (Ob.chanSourceLink ch.val)) = false)))
    && (let ch : Fin 64 := 0; let s : State := rdy; let s : State := (s).wr (Ob.chanSourceLink ch.val) 0; let s : State := (s).wr (Ob.linkLinkState (s.rd (Ob.chanSourceLink ch.val))) 4; decide ((s.rd (Ob.chanSourceLink ch.val)) < 16) && decide (s.delivers (s.rd (Ob.chanSourceLink ch.val)) = true) && decide (((s.rd (Ob.linkLinkState (s.rd (Ob.chanSourceLink ch.val))) != 4) || (s.linkS (s.rd (Ob.chanSourceLink ch.val))).crcSubst || (s.chanS ch.val).toBoundary || (s.chanS ch.val).calSubst) = false))
    && (let ch : Fin 64 := 0; let s : State := rdy.setChan 0 { rdy.chanS 0 with pos := 65536 }; decide ((s.chanS ch.val).span ≤ (s.chanS ch.val).pos) && decide ((s.chanS ch.val).pos ≠ 0))
    && (let ch : Fin 64 := 0; let s : State := rdy; (decide ((s.chanS ch.val).pos < (s.chanS ch.val).span) || decide ((s.chanS ch.val).pos = 0)))
    && (let mask : Nat := 18446744073709551616; let s : State := rdy; @decide _ (decReady s) && decide (2 ^ 64 ≤ mask))
    && (let mask : Nat := 0; let s : State := rdy; @decide _ (decReady s) && decide (mask < 2 ^ 64))) = true := by decide +kernel

/-- The hypotheses of the clauses of HbmAccesses are met. -/
theorem wit_hbm_accesses : ((let da : Nat := 0; let s : State := rdy.wr (Ob.hpcServes 0) 99; decide (s.daServed da = false))
    && (let da : Nat := 0; let s : State := rdy; decide (s.daServed da = true))
    && (let bk : Fin 3072 := 0; let s : State := rdy; ((!(match s.physOf (bankPc bk) with | some p => (decide (s.pcState p = 0) || decide (s.pcState p = 4)) | _ => false)) || decide ((s.bankS bk).pick = none)))
    && (let bk : Fin 3072 := 0; let s : State := (rdy.wr (Ob.hpcState 0) 0).setBank 0 { queue := [{ client := 0, tag := 0, da := 0, len := 32, write := some [1] }] }; (match s.physOf (bankPc bk) with | some p => (decide (s.pcState p = 0) || decide (s.pcState p = 4)) | _ => false) && (match (s.bankS bk).pick with | some a => (match a.write with | some d => true | _ => false) | _ => false))
    && (let err4 : Fin 4 := 0; let bk : Fin 3072 := 0; let s : State := (rdy.wr (Ob.hpcState 0) 0).setBank 0 { queue := [{ client := 0, tag := 0, da := 0, len := 32, write := none }] }; (match s.physOf (bankPc bk) with | some p => (decide (s.pcState p = 0) || decide (s.pcState p = 4)) | _ => false) && (match (s.bankS bk).pick with | some a => decide (a.write = none) && decide (err4.val ≤ 1) | _ => false))
    && (let err4 : Fin 4 := 2; let bk : Fin 3072 := 0; let s : State := (rdy.wr (Ob.hpcState 0) 0).setBank 0 { queue := [{ client := 0, tag := 0, da := 0, len := 32, write := none }] }; (match s.physOf (bankPc bk) with | some p => (decide (s.pcState p = 0) || decide (s.pcState p = 4)) | _ => false) && (match (s.bankS bk).pick with | some a => decide (a.write = none) && decide (1 < err4.val) | _ => false))
    && (let err3 : Fin 3 := 0; decide (err3.val = 0))
    && (let err3 : Fin 3 := 1; decide (err3.val = 1))
    && (let err3 : Fin 3 := 2; decide (err3.val = 2))
    && (let q : Fin 64 := 0; let s : State := rdy; decide (s.rd (Ob.hpcServes q) < 64))
    && (let q : Fin 64 := 0; let s : State := rdy; let s : State := (s).wr (Ob.hpcServes q) 64; decide (64 ≤ s.rd (Ob.hpcServes q)))
    && (let t : Nat := 1000000000000000; let bk : Fin 3072 := 0; let s : State := rdy; decide ((s.bankS bk).lastAt + s.us 2 ≤ (s.advance t).now))
    && (let t : Nat := 0; let bk : Fin 3072 := 0; let s : State := rdy; decide ((s.advance t).now < (s.bankS bk).lastAt + s.us 2))) = true := by decide +kernel

/-- The hypotheses of the clauses of HbmLifecycle are met. -/
theorem wit_hbm_lifecycle : ((let t : Nat := 0; let q : Fin 64 := 0; let s : State := rdy; let s : State := (s).wr Ob.hbmFreezeHold 0; let s : State := (s).wr (Ob.hpcState q) 2; decide ((s.pcState q) = 2) && decide ((s.pcS q).frozenAt + s.us (s.rd Ob.hbmFreezeHold) ≤ (s.advance t).now))
    && (let t : Nat := 0; let q : Fin 64 := 0; let s : State := rdy; (decide ((s.pcState q) ≠ 2) || decide ((s.advance t).now < (s.pcS q).frozenAt + s.us (s.rd Ob.hbmFreezeHold))))
    && (let q : Fin 64 := 0; let s : State := rdy; let s : State := (s).wr (Ob.hpcState q) 2; @decide _ (decReady s) && decide ((s.pcState q) = 2))
    && (let q : Fin 64 := 0; let s : State := rdy; @decide _ (decReady s) && decide ((s.pcState q) ≠ 2))
    && (let q : Fin 64 := 0; let s : State := rdy; @decide _ (decReady s) && decide ((s.pcState q) = 0))
    && (let q : Fin 64 := 0; let s : State := rdy; let s : State := (s).wr (Ob.hpcState q) 1; @decide _ (decReady s) && decide ((s.pcState q) ≠ 0))
    && (let q : Fin 64 := 0; let s : State := rdy; decide ((s.pcState q) ≠ 3))
    && (let q : Fin 64 := 0; let s : State := rdy; let s : State := (s).wr (Ob.hpcState q) 3; decide ((s.pcState q) = 3))
    && (let q : Fin 64 := 0; let s : State := rdy; decide ((s.pcState q) ≠ 4))
    && (let q : Fin 64 := 31; let s : State := rdy; let s : State := (s).wr (Ob.hpcState q) 4; decide ((s.pcState q) = 4) && decide (s.spareOf (q.val / 32) = none))
    && (let q : Fin 64 := 0; let s : State := rdy; let s : State := (s).wr (Ob.hpcState q) 4; decide ((s.pcState q) = 4) && (match s.spareOf (q.val / 32) with | some sp => true | _ => false))
    && (let temp : Int := 0; decide (temp ≤ 1520))
    && (let temp : Int := 1521; decide (1520 < temp))
    && (let t : Nat := 0; let q : Fin 64 := 0; let power : Fin 3 := 1; let s : State := rdy; decide (power.val ≠ 0) && decide ((s.advance t).maySleep q (s.rd (Ob.hpcServes q)) power = true))
    && (let t : Nat := 0; let q : Fin 64 := 0; let power : Fin 3 := 0; let s : State := rdy; (decide (power.val = 0) || decide ((s.advance t).maySleep q (s.rd (Ob.hpcServes q)) power = false)))
    && (let data : List (BitVec 8) := []; let s : State := rdy; @decide _ (decReady s) && decide (data.length ≠ 80))
    && (let data : List (BitVec 8) := (List.replicate 80 (0 : BitVec 8)); let s : State := rdy; let s : State := (s).wr Ob.storeAllocatedBytes 1; @decide _ (decReady s) && decide (data.length = 80) && (decide (s.rd Ob.storeAllocatedBytes ≠ 0) || decide (s.dom Ob.hbmHostReserve ≠ [])))
    && (let data : List (BitVec 8) := (List.range 10).flatMap fun i => leBytes 8 (2 ^ homeBit i); let s : State := (rdyC.wr Ob.storeAllocatedBytes 0).setDom Ob.hbmHostReserve []; @decide _ (decReady s) && decide (data.length = 80) && decide (s.rd Ob.storeAllocatedBytes = 0) && decide (s.dom Ob.hbmHostReserve = []) && ((List.range 10).all fun i => decide (maskOk i (leAt data (8 * i) 8) = true)))
    && (let data : List (BitVec 8) := (List.replicate 80 (0 : BitVec 8)); let s : State := rdy; @decide _ (decReady s) && decide (data.length = 80) && decide (s.rd Ob.storeAllocatedBytes = 0) && decide (s.dom Ob.hbmHostReserve = []) && (!((List.range 10).all fun i => decide (maskOk i (leAt data (8 * i) 8) = true))))) = true := by decide +kernel

/-- The hypotheses of the clauses of TransferCommands are met. -/
theorem wit_transfer_commands : ((let ch : Fin 32 := 0; let s : State := rdy; let s : State := { (s) with power := { (s).power with stopEntry := some { cause := 1, at0 := 0, down := false } } }; @decide _ (decReady s) && (!(decide (s.stopping = false) && (decide ((s.xowner ch.val) = 0) || (decide ((s.xowner ch.val) = 3) && decide (6 ≤ (s.xst ch.val)))))))
    && (let ch : Fin 32 := 0; let s : State := rdy; @decide _ (decReady s) && decide (s.stopping = false) && (decide ((s.xowner ch.val) = 0) || (decide ((s.xowner ch.val) = 3) && decide (6 ≤ (s.xst ch.val)))) && (!(decide ((s.rd (Ob.xferLength ch.val)) ≠ 0) && decide ((s.rd (Ob.xferSourceSpace ch.val)) < 2) && decide ((s.rd (Ob.xferDestSpace ch.val)) < 2) && decide (rangeOk (s.rd (Ob.xferSourceSpace ch.val)) (s.rd (Ob.xferSource ch.val)) (s.rd (Ob.xferLength ch.val)) = true) && decide (rangeOk (s.rd (Ob.xferDestSpace ch.val)) (s.rd (Ob.xferDest ch.val)) (s.rd (Ob.xferLength ch.val)) = true) && (!decide ((s.rd (Ob.xferDestSpace ch.val)) = 0) || decide (s.inReserve (s.rd (Ob.xferDest ch.val)) (s.rd (Ob.xferLength ch.val)) = true)) && (!decide ((s.rd (Ob.xferSourceSpace ch.val)) = (s.rd (Ob.xferDestSpace ch.val))) || decide (meets (s.rd (Ob.xferSource ch.val)) (s.rd (Ob.xferLength ch.val)) (s.rd (Ob.xferDest ch.val)) (s.rd (Ob.xferLength ch.val)) = false)))))
    && (let ch : Fin 32 := 0; let s : State := rdy; let s : State := (s).wr (Ob.xferLength ch.val) 1; let s : State := (s).wr (Ob.xferDestSpace ch.val) 1; @decide _ (decReady s) && decide (s.stopping = false) && (decide ((s.xowner ch.val) = 0) || (decide ((s.xowner ch.val) = 3) && decide (6 ≤ (s.xst ch.val)))) && decide ((s.rd (Ob.xferLength ch.val)) ≠ 0) && decide ((s.rd (Ob.xferSourceSpace ch.val)) < 2) && decide ((s.rd (Ob.xferDestSpace ch.val)) < 2) && decide (rangeOk (s.rd (Ob.xferSourceSpace ch.val)) (s.rd (Ob.xferSource ch.val)) (s.rd (Ob.xferLength ch.val)) = true) && decide (rangeOk (s.rd (Ob.xferDestSpace ch.val)) (s.rd (Ob.xferDest ch.val)) (s.rd (Ob.xferLength ch.val)) = true) && (!decide ((s.rd (Ob.xferDestSpace ch.val)) = 0) || decide (s.inReserve (s.rd (Ob.xferDest ch.val)) (s.rd (Ob.xferLength ch.val)) = true)) && (!decide ((s.rd (Ob.xferSourceSpace ch.val)) = (s.rd (Ob.xferDestSpace ch.val))) || decide (meets (s.rd (Ob.xferSource ch.val)) (s.rd (Ob.xferLength ch.val)) (s.rd (Ob.xferDest ch.val)) (s.rd (Ob.xferLength ch.val)) = false)))
    && (let ch : Fin 32 := 0; let s : State := rdy.wrs [(Ob.xferOwner 0, 256), (Ob.xferState 0, 0)]; @decide _ (decReady s) && (decide ((s.xowner ch.val) = 1) || decide ((s.xowner ch.val) = 2)))
    && (let ch : Fin 32 := 0; let s : State := rdy; @decide _ (decReady s) && decide ((s.xowner ch.val) ≠ 1) && decide ((s.xowner ch.val) ≠ 2) && (decide ((s.xowner ch.val) ≠ 3) || decide ((s.xst ch.val) < 1) || decide (5 < (s.xst ch.val))))
    && (let ch : Fin 32 := 0; let s : State := rdy.wrs [(Ob.xferOwner 0, 768), (Ob.xferState 0, 2)]; @decide _ (decReady s) && decide ((s.xowner ch.val) = 3) && decide (1 ≤ (s.xst ch.val)) && decide ((s.xst ch.val) < 5))
    && (let ch : Fin 32 := 0; let s : State := rdy.wrs [(Ob.xferOwner 0, 768), (Ob.xferState 0, 5)]; @decide _ (decReady s) && decide ((s.xowner ch.val) = 3) && decide ((s.xst ch.val) = 5))
    && (let t : Nat := 0; let err : Bool := true; let credits : Bool := true; let port : Fin 2 := 0; let s : State := rdy; decide (((List.range 32).filter fun c_ => !((s.advance t).stallStreams credits).tookOther c_ port && (((s.advance t).stallStreams credits).beatOf c_ err credits).isSome) = []))
    && (let t : Nat := 0; let err : Bool := false; let credits : Bool := true; let port : Fin 2 := 0; let own : Option (Fin 32) := none; let s : State := ({ rdyC with host := { rdyC.host with bme := true } } : State).wrs [(Ob.xferOwner 0, 768), (Ob.xferState 0, 2), (Ob.xferSourceSpace 0, 1), (Ob.xferRemaining 0, 64), (Ob.xferLength 0, 64)] |>.setXf 0 { toRead := 64 }; (match ((List.range 32).filter fun c_ => !((s.advance t).stallStreams credits).tookOther c_ port && (((s.advance t).stallStreams credits).beatOf c_ err credits).isSome) with | f :: l => (let w := match own with | some o => if o.val ∈ ((List.range 32).filter fun c_ => !((s.advance t).stallStreams credits).tookOther c_ port && (((s.advance t).stallStreams credits).beatOf c_ err credits).isSome) ∧ ((s.advance t).stallStreams credits).xowner o = 1 then o.val else l.foldl (fun b_ d_ => if ((s.advance t).stallStreams credits).servedFirst port d_ b_ then d_ else b_) f | none => l.foldl (fun b_ d_ => if ((s.advance t).stallStreams credits).servedFirst port d_ b_ then d_ else b_) f; (match ((s.advance t).stallStreams credits).beatOf w err credits with | some u => true | _ => false)) | _ => false))
    && (let line : Fin 48 := 0; let s : State := rdy; decide (s.linePaces line = none))
    && (let line : Fin 48 := 7; let beats : Fin 65 := 4; let s : State := (rdy.wrs [(Ob.xferOwner 0, 256), (Ob.xferRequestLine 0, 7)]).setXf 0 {  }; (match s.linePaces line with | some k => decide (beats.val ≠ 0) && decide ((s.xf k).req = none) | _ => false))
    && (let line : Fin 48 := 7; let beats : Fin 65 := 4; let s : State := (rdy.wrs [(Ob.xferOwner 0, 256), (Ob.xferRequestLine 0, 7)]).setXf 0 { req := some 3 }; (match s.linePaces line with | some k => (decide (beats.val = 0) || decide ((s.xf k).req ≠ none)) | _ => false))
    && (let line : Fin 48 := 7; let s : State := (rdy.wrs [(Ob.xferOwner 0, 256), (Ob.xferRequestLine 0, 7)]).setXf 0 { req := some 3 }; (match s.linePaces line with | some k => decide ((s.xf k).req ≠ none) | _ => false))
    && (let line : Fin 48 := 7; let s : State := (rdy.wrs [(Ob.xferOwner 0, 256), (Ob.xferRequestLine 0, 7)]).setXf 0 { burst := 2 }; (match s.linePaces line with | some k => decide ((s.xf k).req = none) && decide ((s.xf k).burst ≠ 0) | _ => false))
    && (let line : Fin 48 := 7; let s : State := (rdy.wrs [(Ob.xferOwner 0, 256), (Ob.xferRequestLine 0, 7)]).setXf 0 {  }; (match s.linePaces line with | some k => decide ((s.xf k).req = none) && decide ((s.xf k).burst = 0) | _ => false))
    && (let ch : Fin 32 := 0; let s : State := (rdy.wrs [(Ob.xferSourceSpace 0, 1)]).setXf 0 { reads := [{ addr := 64, len := 32, data := none }] }; (match (s.xf ch.val).reads.find? (fun r_ => r_.data.isNone) with | some r => decide ((s.rd (Ob.xferSourceSpace ch.val)) = 1) | _ => false))
    && (let ch : Fin 32 := 0; let s : State := rdy; (decide ((s.rd (Ob.xferSourceSpace ch.val)) ≠ 1) || decide ((s.xf ch.val).reads.find? (fun r_ => r_.data.isNone) = none)))
    && (let p : Nat × Nat := (0, 0); let s : State := rdy; decide (winB p.1 = 1) && decide (s.daServed p.1 = true))
    && (let p : Nat × Nat := (0, 32); let s : State := rdy.wr (Ob.hpcServes 0) 99; decide (winB p.1 = 1) && decide (s.daServed p.1 = false))
    && (let p : Nat × Nat := (0xC00000000, 32); decide (winB p.1 = 2))
    && (let p : Nat × Nat := (0xC00000000 + 0x40000 * 64, 32); decide (winB p.1 ≠ 1) && decide (winB p.1 ≠ 2))
    && (let p : Nat × Nat := (64, 32); let s : State := ((rdy.wr (Ob.hpcState 0) 0).setDom Ob.hbmHostReserve (leBytes 8 2097152 ++ leBytes 8 0)); decide (s.inReserve p.1 p.2 = true) && decide (s.daServed p.1 = true))
    && (let p : Nat × Nat := (0, 0); let s : State := rdy; (decide (s.inReserve p.1 p.2 = false) || decide (s.daServed p.1 = false)))) = true := by decide +kernel

/-- The hypotheses of the clauses of HostLinkAndStreams are met. -/
theorem wit_host_link_and_streams : ((let kind : Fin 4 := 0; decide (kind.val ≠ 2))
    && (let rate : Fin 3 := 0; let width : Fin 5 := 0; let s : State := rdy; let s : State := (s).wr Ob.hlinkMaxLinkRate 0; let s : State := (s).wr Ob.hlinkLinkCharged 1; decide ((hostLimit (min (4 + rate.val) (s.rd Ob.hlinkMaxLinkRate)) (2 ^ width.val)) < s.rd Ob.hlinkLinkCharged) && decide (s.rd Ob.hlinkShortfall = 0))
    && (let rate : Fin 3 := 0; let width : Fin 5 := 0; let s : State := rdy; let s : State := (s).wr Ob.hlinkMaxLinkRate 0; let s : State := (s).wr Ob.hlinkLinkCharged 1; let s : State := (s).wr Ob.hlinkShortfall 1; decide ((hostLimit (min (4 + rate.val) (s.rd Ob.hlinkMaxLinkRate)) (2 ^ width.val)) < s.rd Ob.hlinkLinkCharged) && decide (s.rd Ob.hlinkShortfall ≠ 0))
    && (let rate : Fin 3 := 0; let width : Fin 5 := 0; let s : State := rdy; decide (s.rd Ob.hlinkLinkCharged ≤ (hostLimit (min (4 + rate.val) (s.rd Ob.hlinkMaxLinkRate)) (2 ^ width.val))))
    && (let value : Nat := 0; let rf : Fin 32 := 0; let s : State := rdy; decide (s.rd (Ob.ringConsumedPages rf.val) ≤ value) && decide (value ≤ s.rd (Ob.ringWrittenPages rf.val)))
    && (let value : Nat := 0; let rf : Fin 32 := 0; let s : State := rdy; let s : State := (s).wr (Ob.ringConsumedPages rf.val) 1; (decide (value < s.rd (Ob.ringConsumedPages rf.val)) || decide (s.rd (Ob.ringWrittenPages rf.val) < value)))
    && (let t : Nat := 1000000000000000000; let rf : Fin 32 := 0; let s : State := rdyC.setStream 0 { unsignalled := 1, since := 0 }; decide ((s.streamS rf.val).unsignalled ≠ 0) && decide ((s.streamS rf.val).since + s.us (s.rd (Ob.ringIrqDelay rf.val)) ≤ (s.advance t).now))
    && (let t : Nat := 0; let rf : Fin 32 := 0; let s : State := rdy; (decide ((s.streamS rf.val).unsignalled = 0) || decide ((s.advance t).now < (s.streamS rf.val).since + s.us (s.rd (Ob.ringIrqDelay rf.val)))))
    && (let rf : Fin 32 := 0; let s : State := rdy.setStream 0 { page := some { num := 0 } }; decide ((s.streamS rf.val).page ≠ none))
    && (let rf : Fin 32 := 0; let s : State := rdy; decide ((s.streamS rf.val).page = none))
    && (let rf : Fin 32 := 0; let s : State := ((rdy.wrs [(Ob.ringPageSizeCode 0, 0), (Ob.ringPageCount 0, 2), (Ob.ringRingState 0, 0)]).setDom (Ob.ringPageAddrs 0) (List.replicate 16 0)); @decide _ (decReady s) && decide (s.ringOk rf.val = true) && decide (s.rd (Ob.ringRingState rf.val) ≤ 1))
    && (let rf : Fin 32 := 0; let s : State := rdy; @decide _ (decReady s) && decide (s.ringOk rf.val = false) && decide (s.rd (Ob.ringRingState rf.val) ≤ 1))
    && (let rf : Fin 32 := 0; let s : State := rdy; let s : State := (s).wr (Ob.ringRingState rf.val) 2; @decide _ (decReady s) && decide (1 < s.rd (Ob.ringRingState rf.val)))
    && (let rf : Fin 32 := 0; let s : State := rdy; @decide _ (decReady s) && decide (s.rd (Ob.ringRingState rf.val) ≠ 5))
    && (let rf : Fin 32 := 0; let s : State := rdy; let s : State := (s).wr (Ob.ringRingState rf.val) 5; @decide _ (decReady s) && decide (s.rd (Ob.ringRingState rf.val) = 5))) = true := by decide +kernel

/-- The hypotheses of the clauses of RingConsumersAndRecords are met. -/
theorem wit_ring_consumers_and_records : ((let who : Nat := 0; let nf : Fin 64 := 0; let c : RConsumer := ({ who := 0, hold := 0, attached := true, queue := [] } : RConsumer); let s : State := rdy; (decide ((s.ringS (s.ringOwner nf.val)).consumer who = none) || (match (s.ringS (s.ringOwner nf.val)).consumer who with | some c => (decide (c.attached = false) || decide (c.queue = [])) | _ => false)))
    && (let who : Nat := 0; let nf : Fin 64 := 0; let s : State := (rdy.setRing 0 { present := true, consumers := [{ who := 0, hold := 10, queue := [(0, 64)] }] }).wr (Ob.ringOwner 0) 0; (match (s.ringS (s.ringOwner nf.val)).consumer who with | some c => decide (c.attached = true) && decide (c.queue ≠ []) && decide (who = 0) && (match s.streamRingOf nf.val with | some r => true | _ => false) | _ => false))
    && (let who : Nat := 0; let nf : Fin 64 := 0; let s : State := (rdy.setRing 0 { present := true, consumers := [{ who := 0, hold := 10, queue := [(0, 64)] }] }).wrs ((List.range 32).map fun r => (Ob.ringOwner r, 63)); (match (s.ringS (s.ringOwner nf.val)).consumer who with | some c => decide (c.attached = true) && decide (c.queue ≠ []) && decide (who = 0) && decide (s.streamRingOf nf.val = none) | _ => false))
    && (let who : Nat := 1; let nf : Fin 64 := 0; let s : State := rdy.setRing 0 { present := true, consumers := [{ who := 1, hold := 10, queue := [(0, 64)] }] }; (match (s.ringS (s.ringOwner nf.val)).consumer who with | some c => decide (c.attached = true) && decide (c.queue ≠ []) && decide (who = 1) | _ => false))
    && (let who : Nat := 2; let nf : Fin 64 := 0; let s : State := rdy.setRing 0 { present := true, consumers := [{ who := 2, hold := 10, queue := [(0, 64)] }] }; (match (s.ringS (s.ringOwner nf.val)).consumer who with | some c => decide (c.attached = true) && decide (c.queue ≠ []) && decide (1 < who) | _ => false))
    && (let who : Nat := 2; let nf : Fin 64 := 0; let s : State := rdy; decide (who ≠ 0) && (decide (who ≠ 1) || (match s.recording nf.val with | some z => decide (z.closing = false) | _ => false)))
    && (let nf : Fin 64 := 0; let s : State := rdy; (match s.recording nf.val with | some z => decide (z.closing = true) | _ => true))
    && (let nf : Fin 64 := 5; let s : State := rdy.wrs [(Ob.ringOwner 0, 5), (Ob.ringRingState 0, 4)]; (match s.streamRingOf nf.val with | some r => decide (s.rd (Ob.ringRingState r) = 4) | _ => false))
    && (let nf : Fin 64 := 0; let r : Nat := 0; let s : State := rdy; (decide (s.streamRingOf nf.val = none) || (match s.streamRingOf nf.val with | some r => decide (s.rd (Ob.ringRingState r) ≠ 4) | _ => false)))
    && (let nf : Fin 64 := 0; let s : State := rdy; @decide _ (decReady s) && (decide (s.rd (Ob.slotHostConsumer nf.val) = 0) || decide ((s.ringS nf.val).present = false)))
    && (let v : Nat := 65; let nf : Fin 64 := 0; let s : State := (rdy.wrs [(Ob.slotHostConsumer 0, 1), (Ob.slotHostRead 0, 0), (Ob.slotWritePos 0, 128)]).setRing 0 { present := true, recs := [{ pos := 64, len := 64, seq := 0, kind := 1, time := 0, flags := 0, input := 0 }] }; @decide _ (decReady s) && decide (s.rd (Ob.slotHostConsumer nf.val) ≠ 0) && decide ((s.ringS nf.val).present = true) && (!(decide (s.rd (Ob.slotHostRead nf.val) ≤ v) && decide (v ≤ s.rd (Ob.slotWritePos nf.val)) && (decide (v = s.rd (Ob.slotHostRead nf.val)) || decide (v = s.rd (Ob.slotWritePos nf.val)) || (((s.ringS nf.val).recs).any fun q => decide (q.pos = v))))))
    && (let v : Nat := 64; let nf : Fin 64 := 0; let s : State := (rdy.wrs [(Ob.slotHostConsumer 0, 1), (Ob.slotHostRead 0, 0), (Ob.slotWritePos 0, 128)]).setRing 0 { present := true, recs := [{ pos := 64, len := 64, seq := 0, kind := 1, time := 0, flags := 0, input := 0 }] }; @decide _ (decReady s) && decide (s.rd (Ob.slotHostConsumer nf.val) ≠ 0) && decide ((s.ringS nf.val).present = true) && decide (s.rd (Ob.slotHostRead nf.val) ≤ v) && decide (v ≤ s.rd (Ob.slotWritePos nf.val)) && (decide (v = s.rd (Ob.slotHostRead nf.val)) || decide (v = s.rd (Ob.slotWritePos nf.val)) || (((s.ringS nf.val).recs).any fun q => decide (q.pos = v))))
    && (let nf : Fin 64 := 0; let s : State := (sl 0 1).setRing 0 { kept := true }; @decide _ (decReady s) && decide (s.rd (Ob.slotState nf.val) = 1) && decide ((s.ringS nf.val).kept = true))
    && (let nf : Fin 64 := 0; let s : State := rdy; @decide _ (decReady s) && (decide (s.rd (Ob.slotState nf.val) ≠ 1) || decide ((s.ringS nf.val).kept = false)))
    && (let nf : Fin 64 := 0; let s : State := rdy; decide ((s.pipeS nf.val).recQ = []))
    && (let nf : Fin 64 := 0; let s : State := rdy.setPipe 0 { recQ := [{ kind := 1, slot := 0, epoch := 0, time := 0, flags := 0, body := [] }] }; (match (s.pipeS nf.val).recQ with | rec :: rest => true | _ => false))
    && (let nf : Fin 64 := 0; let c : RConsumer := ({ who := 0, hold := 0, queue := [] } : RConsumer); let s : State := rdy; let s : State := (s).wr (Ob.slotCaptureState (s.ringOwner nf.val)) 2; @decide _ (decReady s) && decide (s.rd (Ob.slotCaptureState (s.ringOwner nf.val)) = 2) && (((s.ringS (s.ringOwner nf.val)).consumers).all fun c => decide (c.queue = [])))
    && (let nf : Fin 64 := 0; let c : RConsumer := ({ who := 0, hold := 0, queue := [] } : RConsumer); let s : State := rdy; @decide _ (decReady s) && (decide (s.rd (Ob.slotCaptureState (s.ringOwner nf.val)) ≠ 2) || (((s.ringS (s.ringOwner nf.val)).consumers).any fun c => decide (c.queue ≠ []))))
    && (let nf : Fin 64 := 0; let s : State := rdy; (decide (s.isReplay nf.val = false) || decide (s.active nf.val = false)))
    && (let nf : Fin 64 := 0; let s : State := rdy; let s : State := (s).wr (Ob.slotState 0) 2; let s : State := (s).wr (Ob.slotMode 0) 5; decide (s.isReplay nf.val = true) && decide (s.active nf.val = true))
    && (let t : Nat := 0; let nf : Fin 64 := 0; let s : State := rdy; (decide (s.isReplay nf.val = false) || decide (s.rd (Ob.slotState nf.val) ≠ 2) || (decide ((s.advance t).sourceEnded nf.val = false) && decide (s.rd (Ob.slotReplaySource nf.val) ≠ 2))))
    && (let t : Nat := 0; let nf : Fin 64 := 0; let s : State := ((((sl 0 2).wrs [(Ob.slotMode 0, 5), (Ob.slotReplaySource 0, 2), (Ob.slotChannelMask 0, 1)]).setPipe 0 { replayDone := true }).setDom (Ob.slotGeometry 0) (List.replicate 47 0 ++ [1])).setChan 64 { ring := [{ tag := 100, flags := 0, samples := (List.range 256).map fun i => (100 + i, 0) }], written := 64 }; decide (s.isReplay nf.val = true) && decide (s.rd (Ob.slotState nf.val) = 2) && (decide ((s.advance t).sourceEnded nf.val = true) || decide (s.rd (Ob.slotReplaySource nf.val) = 2)) && (decide (((s.advance t).sourceFill nf.val).sourceDone nf.val = false) || decide (((s.advance t).sourceFill nf.val).chainIdle nf.val = false)))
    && (let t : Nat := 0; let nf : Fin 64 := 0; let s : State := rdy; let s : State := (s).wr (Ob.slotState nf.val) 2; let s : State := (s).wr (Ob.slotReplaySource nf.val) 2; let s : State := (s).wr (Ob.slotMode 0) 5; decide (s.isReplay nf.val = true) && decide (s.rd (Ob.slotState nf.val) = 2) && (decide ((s.advance t).sourceEnded nf.val = true) || decide (s.rd (Ob.slotReplaySource nf.val) = 2)) && decide (((s.advance t).sourceFill nf.val).sourceDone nf.val = true) && decide (((s.advance t).sourceFill nf.val).chainIdle nf.val = true))) = true := by decide +kernel

/-- The hypotheses of the clauses of DrivesAndRecordings are met. -/
theorem wit_drives_and_recordings : ((let port : Fin 6 := 0; let s : State := rdy; let s : State := ((((s).wr (Ob.slotState 1) 2).wr (Ob.slotStoragePorts 1) 63).wr (Ob.slotOutputMask 1) 16); @decide _ (decReady s) && decide (s.portUsed port.val = true))
    && (let port : Fin 6 := 0; let s : State := rdy; let s : State := (s).wr (Ob.storDriveState port.val) 1; let s : State := (s).wr (Ob.storQualifyBytes port.val) 0; @decide _ (decReady s) && decide (s.portUsed port.val = false) && decide ((((s.rd (Ob.storDriveState port.val)) == 1 || (s.rd (Ob.storDriveState port.val)) == 3 || (s.rd (Ob.storDriveState port.val)) == 4 || (s.rd (Ob.storDriveState port.val)) == 5) && decide (s.rd (Ob.storQualifyBytes port.val) ≤ s.rd (Ob.storCapacity port.val))) = true))
    && (let port : Fin 6 := 0; let s : State := rdy; @decide _ (decReady s) && decide (s.portUsed port.val = false) && decide ((((s.rd (Ob.storDriveState port.val)) == 1 || (s.rd (Ob.storDriveState port.val)) == 3 || (s.rd (Ob.storDriveState port.val)) == 4 || (s.rd (Ob.storDriveState port.val)) == 5) && decide (s.rd (Ob.storQualifyBytes port.val) ≤ s.rd (Ob.storCapacity port.val))) = false))
    && (let port : Fin 6 := 0; let s : State := rdy; decide ((s.rd (Ob.storDriveState port.val)) ≠ 3))
    && (let port : Fin 6 := 0; let s : State := rdy; let s : State := (s).wr (Ob.storDriveState port.val) 3; decide ((s.rd (Ob.storDriveState port.val)) = 3))
    && (let s : State := rdy; let s : State := ((((s).wr (Ob.slotState 1) 2).wr (Ob.slotStoragePorts 1) 63).wr (Ob.slotOutputMask 1) 16); @decide _ (decReady s) && decide (s.storageUsed = true))
    && (let mask : Nat := 64; let s : State := rdy; @decide _ (decReady s) && decide (s.storageUsed = false) && decide (64 ≤ mask))
    && (let mask : Nat := 1; let s : State := rdy; @decide _ (decReady s) && decide (s.storageUsed = false) && decide (mask < 64) && decide (∃ q, q ∈ bitsSet 6 mask ∧ s.formable q = false))
    && (let mask : Nat := 0; let s : State := rdy; @decide _ (decReady s) && decide (s.storageUsed = false) && decide (mask < 64) && decide (∀ q, q ∈ bitsSet 6 mask → s.formable q = true))
    && (let num : Nat := 0; let s : State := rdy; @decide _ (decReady s) && decide ((s.store.directory.find? fun e_ => e_.number == num) = none))
    && (let num : Nat := 4; let s : State := { rdy with store := { rdy.store with directory := [{ number := 4, st := 1, slot := 0, ports := 1 }] } }; @decide _ (decReady s) && (match (s.store.directory.find? fun e_ => e_.number == num) with | some e => (decide (e.st = 1) || decide (s.replayReads num = true)) | _ => false))
    && (let num : Nat := 0; let s : State := rdy; let s : State := { (s) with store := { (s).store with directory := [({ number := 0, st := 0, slot := 0, ports := 0 } : DirEntry)] } }; @decide _ (decReady s) && (match (s.store.directory.find? fun e_ => e_.number == num) with | some e => decide (e.st ≠ 1) && decide (s.replayReads num = false) | _ => false))
    && (let port : Fin 6 := 0; let s : State := rdy; @decide _ (decReady s) && decide ((s.rd (Ob.storDriveState port.val)) ≠ 6))
    && (let port : Fin 6 := 0; let s : State := rdy; let s : State := (s).wr (Ob.storDriveState port.val) 6; @decide _ (decReady s) && decide ((s.rd (Ob.storDriveState port.val)) = 6))
    && (let status : Fin 3 := 2; decide (status.val = 2))
    && (let cid : Nat := 0; let port : Fin 6 := 0; let status : Fin 3 := 0; let s : State := rdy; decide (status.val ≠ 2) && decide ((s.driveS port.val).out[cid]? = none))
    && (let cid : Nat := 0; let port : Fin 6 := 0; let status : Fin 3 := 0; let s : State := rdy.setDrive 0 { out := [{ op := 1, retried := false }] }; decide (status.val = 0) && (match (s.driveS port.val).out[cid]? with | some c => decide (c.op = 1) | _ => false))
    && (let cid : Nat := 0; let port : Fin 6 := 0; let status : Fin 3 := 0; let s : State := rdy.setDrive 0 { out := [{ op := 258, retried := false }] }; decide (status.val = 0) && (match (s.driveS port.val).out[cid]? with | some c => decide (c.op = 258) | _ => false))
    && (let cid : Nat := 0; let port : Fin 6 := 0; let status : Fin 3 := 0; let s : State := rdy.setDrive 0 { out := [{ op := 2, retried := false }] }; decide (status.val = 0) && (match (s.driveS port.val).out[cid]? with | some c => decide (c.op ≠ 1) && decide (c.op ≠ 258) | _ => false))
    && (let cid : Nat := 0; let port : Fin 6 := 0; let status : Fin 3 := 1; let s : State := rdy.setDrive 0 { out := [{ op := 1, retried := true }] }; decide (status.val = 1) && (match (s.driveS port.val).out[cid]? with | some c => decide (c.op = 1) && decide (c.retried = true) | _ => false))
    && (let cid : Nat := 0; let port : Fin 6 := 0; let status : Fin 3 := 1; let s : State := rdy.setDrive 0 { out := [{ op := 1, retried := false }] }; decide (status.val = 1) && (match (s.driveS port.val).out[cid]? with | some c => decide (c.op = 1) && decide (c.retried = false) | _ => false))
    && (let cid : Nat := 0; let port : Fin 6 := 0; let status : Fin 3 := 1; let s : State := rdy.setDrive 0 { out := [{ op := 2, retried := false }] }; decide (status.val = 1) && (match (s.driveS port.val).out[cid]? with | some c => decide (c.op ≠ 1) | _ => false))
    && (let port : Fin 6 := 0; let s : State := rdy; decide ((s.driveS port.val).out = []))
    && (let port : Fin 6 := 0; let s : State := rdy.setDrive 0 { out := [{ op := 1, retried := false }] }; decide ((s.driveS port.val).out ≠ []))
    && (let port : Fin 6 := 0; let s : State := rdy; (decide ((s.rd (Ob.storDriveState port.val)) = 0) || decide ((s.rd (Ob.storDriveState port.val)) = 6)))
    && (let port : Fin 6 := 0; let s : State := rdy; let s : State := (s).wr (Ob.storDriveState port.val) 1; decide ((s.rd (Ob.storDriveState port.val)) ≠ 0) && decide ((s.rd (Ob.storDriveState port.val)) ≠ 6))
    && (let nf : Fin 64 := 0; let s : State := rdy; decide (s.recording nf.val = none))
    && (let t : Nat := 1000000000000000000; let nf : Fin 64 := 0; let s : State := rdyC.setRecording 0 (some { number := 0, ports := [0], recordAt := 0 }); (match s.recording nf.val with | some x => decide (x.recordAt + s.us 100000 ≤ (s.advance t).now) | _ => false))
    && (let t : Nat := 0; let nf : Fin 64 := 0; let s : State := rdyC.setRecording 0 (some { number := 0, ports := [0], recordAt := 10 }); (match s.recording nf.val with | some x => decide ((s.advance t).now < x.recordAt + s.us 100000) | _ => false))
    && (let port : Fin 6 := 0; let s : State := rdy; (decide ((s.rd (Ob.storDriveState port.val)) = 0) || decide ((s.rd (Ob.storDriveState port.val)) = 2) || decide ((s.rd (Ob.storDriveState port.val)) = 6)))
    && (let port : Fin 6 := 0; let s : State := rdy; let s : State := (s).wr (Ob.storDriveState port.val) 1; decide ((s.rd (Ob.storDriveState port.val)) ≠ 0) && decide ((s.rd (Ob.storDriveState port.val)) ≠ 2) && decide ((s.rd (Ob.storDriveState port.val)) ≠ 6))
    && (let port : Fin 6 := 0; let s : State := rdy; (decide (s.rd (Ob.storEnable port.val) = 0) || decide ((s.rd (Ob.storDriveState port.val)) = 6)))
    && (let port : Fin 6 := 0; let s : State := rdy; let s : State := (s).wr (Ob.storEnable port.val) 1; decide (s.rd (Ob.storEnable port.val) ≠ 0) && decide ((s.rd (Ob.storDriveState port.val)) ≠ 6))) = true := by decide +kernel

/-- The hypotheses of the clauses of StopRequests are met. -/
theorem wit_stop_requests : ((let s : State := rdy; let s : State := { (s) with power := { (s).power with stopEntry := some { cause := 1, at0 := 0, down := false } } }; @decide _ (decReady s) && decide (s.stopBlocked = true))
    && (let s : State := rdy; let s : State := { (s) with power := { (s).power with change := (some ({ target := 0, old := 0, up := false } : OpChange)) } }; @decide _ (decReady s) && decide (s.stopBlocked = false) && decide (s.power.change ≠ none))
    && (let s : State := rdy; @decide _ (decReady s) && decide (s.stopBlocked = false) && decide (s.power.change = none) && decide (((List.range 64).find? fun n_ => s.active n_) = none))
    && (let s : State := rdy; let s : State := (s).wr (Ob.slotState 0) 2; @decide _ (decReady s) && decide (s.stopBlocked = false) && decide (s.power.change = none) && (match ((List.range 64).find? fun n_ => s.active n_) with | some n => true | _ => false))
    && (let s : State := rdy; let s : State := { (s) with power := { (s).power with stopEntry := some { cause := 1, at0 := 0, down := false } } }; (decide (s.power.run = false) || decide (s.steward.restarting = true) || decide (s.stopBlocked = true)))
    && (let s : State := rdy; let s : State := { (s) with power := { (s).power with change := (some ({ target := 0, old := 0, up := false } : OpChange)) } }; decide (s.power.run = true) && decide (s.steward.restarting = false) && decide (s.stopBlocked = false) && (!(decide (s.power.change = none) && decide (s.rd Ob.devRestoreState = 3))))
    && (let s : State := rdy; let s : State := (s).wr Ob.stopPinForce 1; decide (s.power.run = true) && decide (s.steward.restarting = false) && decide (s.stopBlocked = false) && decide (s.power.change = none) && decide (s.rd Ob.devRestoreState = 3) && decide (s.rd Ob.stopPinForce ≠ 0))
    && (let s : State := rdy; decide (s.power.run = true) && decide (s.steward.restarting = false) && decide (s.stopBlocked = false) && decide (s.power.change = none) && decide (s.rd Ob.devRestoreState = 3) && decide (s.rd Ob.stopPinForce = 0) && decide (((List.range 64).find? fun n_ => s.active n_) = none))
    && (let s : State := rdy; let s : State := (s).wr (Ob.slotState 0) 2; decide (s.power.run = true) && decide (s.steward.restarting = false) && decide (s.stopBlocked = false) && decide (s.power.change = none) && decide (s.rd Ob.devRestoreState = 3) && decide (s.rd Ob.stopPinForce = 0) && (match ((List.range 64).find? fun n_ => s.active n_) with | some n => true | _ => false))
    && (let s : State := rdy; decide (s.power.stopReqLow = false))
    && (let s : State := rdy; let s : State := { (s) with power := { (s).power with stopReqLow := true } }; decide (s.power.stopReqLow = true))
    && (let s : State := rdy; decide (s.power.stopEntry = none))
    && (let s : State := { rdy with power := { rdy.power with stopEntry := some { cause := 1, at0 := 0, down := true } } }; (match s.power.stopEntry with | some e => decide (e.down = true) | _ => false))
    && (let t : Nat := 0; let s : State := rdy; let s : State := { (s) with power := { (s).power with stopEntry := (some ({ cause := 0, at0 := 0, down := false } : StopEntry)) } }; (match s.power.stopEntry with | some e => decide (e.down = false) && decide ((s.advance t).now < e.at0 + s.us (1000 * s.rd Ob.stopStopGrace)) | _ => false))
    && (let t : Nat := 0; let s : State := rdy; let s : State := (s).wr Ob.stopStopGrace 0; let s : State := { (s) with power := { (s).power with stopEntry := (some ({ cause := 0, at0 := 0, down := false } : StopEntry)) } }; let s : State := { (s) with pantry := { (s).pantry with keeping := some { seq := 1, digest := 0, secs := 0, length := 0, entries := [] } } }; (match s.power.stopEntry with | some e => decide (e.down = false) && decide (e.at0 + s.us (1000 * s.rd Ob.stopStopGrace) ≤ (s.advance t).now) && decide (s.pantryBusy = true) | _ => false))
    && (let t : Nat := 1000000000000000000; let s : State := (({ rdy with power := { rdy.power with stopEntry := some { cause := 1, at0 := 0, down := false } } } : State).wrs [(Ob.xferOwner 3, 768), (Ob.xferState 3, 2)]); (match s.power.stopEntry with | some e => decide (e.down = false) && decide (e.at0 + s.us (1000 * s.rd Ob.stopStopGrace) ≤ (s.advance t).now) && decide (s.pantryBusy = false) && (match s.hostBusy with | some ch => true | _ => false) | _ => false))
    && (let t : Nat := 0; let s : State := rdy; let s : State := (s).wr Ob.stopStopGrace 0; let s : State := { (s) with power := { (s).power with stopEntry := (some ({ cause := 0, at0 := 0, down := false } : StopEntry)) } }; (match s.power.stopEntry with | some e => decide (e.down = false) && decide (e.at0 + s.us (1000 * s.rd Ob.stopStopGrace) ≤ (s.advance t).now) && decide (s.pantryBusy = false) && decide (s.hostBusy = none) | _ => false))) = true := by decide +kernel

/-- The hypotheses of the clauses of WakeAndPowerUp are met. -/
theorem wit_wake_and_power_up : ((let t : Nat := 0; let wakeIn : Option Bool := none; let can : Option (Nat × Nat × List (BitVec 8)) := none; let perst : Bool := true; let lane : Bool := true; let s : State := rdy; (decide (((s.advance t).wakeMask wakeIn can perst lane) = 0) || decide (s.power.vaon = false) || (decide (s.power.run = true) && decide (s.stopping = false))))
    && (let t : Nat := 0; let wakeIn : Option Bool := none; let can : Option (Nat × Nat × List (BitVec 8)) := none; let perst : Bool := true; let lane : Bool := false; let s : State := ({ rdy with power := { rdy.power with vaon := true, run := false } } : State).wr Ob.stopWakeEnable 4; decide (((s.advance t).wakeMask wakeIn can perst lane) ≠ 0) && decide (s.power.vaon = true) && decide (s.power.run = false))
    && (let t : Nat := 0; let wakeIn : Option Bool := none; let can : Option (Nat × Nat × List (BitVec 8)) := none; let perst : Bool := true; let lane : Bool := false; let s : State := ({ rdy with power := { rdy.power with vaon := true, run := true, stopEntry := some { cause := 1, at0 := 0, down := true } } } : State).wr Ob.stopWakeEnable 4; decide (((s.advance t).wakeMask wakeIn can perst lane) ≠ 0) && decide (s.power.vaon = true) && decide (s.power.run = true) && decide (s.stopping = true))
    && (let step : Fin 8 := 0; let s : State := rdy; (!(decide (s.power.run = true) && decide (s.power.pwrGood = true) && decide (s.power.rails = step.val))) && (decide (s.powered = false) || decide (bit s.power.railsOut step = false)))
    && (let step : Fin 8 := 0; let s : State := rdy; let s : State := { (s) with power := { (s).power with railsOut := 1 } }; (!(decide (s.power.run = true) && decide (s.power.pwrGood = true) && decide (s.power.rails = step.val))) && decide (s.powered = true) && decide (bit s.power.railsOut step = true))
    && (let step : Fin 8 := 0; let s : State := rdy; let s : State := { (s) with power := { (s).power with rails := 0 } }; decide (s.power.run = true) && decide (s.power.pwrGood = true) && decide (s.power.rails = step.val) && (decide (step.val < 4) || decide (step.val = 5) || decide (step.val = 6)))
    && (let step : Fin 8 := 4; let s : State := rdy; let s : State := { (s) with power := { (s).power with rails := 4 } }; decide (s.power.run = true) && decide (s.power.pwrGood = true) && decide (s.power.rails = step.val) && decide (step.val = 4))
    && (let step : Fin 8 := 7; let s : State := rdy; let s : State := { (s) with power := { (s).power with rails := 7 } }; decide (s.power.run = true) && decide (s.power.pwrGood = true) && decide (s.power.rails = step.val) && decide (step.val = 7))
    && (let s : State := rdy; (decide (s.power.run = false) || decide (s.power.pwrGood = false) || decide (8 ≤ s.power.rails)))
    && (let s : State := rdy; let s : State := { (s) with power := { (s).power with rails := 0 } }; decide (s.power.run = true) && decide (s.power.pwrGood = true) && decide (s.power.rails < 8) && decide (s.power.upFaults < 2))
    && (let s : State := rdy; let s : State := { (s) with power := { (s).power with rails := 0 } }; let s : State := { (s) with power := { (s).power with upFaults := 2 } }; decide (s.power.run = true) && decide (s.power.pwrGood = true) && decide (s.power.rails < 8) && decide (2 ≤ s.power.upFaults))
    && (let s : State := rdy; let s : State := { (s) with power := { (s).power with retryDue := true } }; decide (s.power.run = true) && decide (s.power.retryDue = true))
    && (let s : State := rdy; (decide (s.power.run = false) || decide (s.power.retryDue = false)))
    && (let step : Fin 8 := 0; let s : State := rdy; let s : State := { (s) with power := { (s).power with run := false } }; (decide (s.powered = false) || (decide (step.val = 5) && decide (s.vcoreMoving = true))))
    && (let step : Fin 8 := 0; let s : State := rdy; decide (s.powered = true) && (decide (step.val ≠ 5) || decide (s.vcoreMoving = false)))
    && (let s : State := rdy; let s : State := { (s) with power := { (s).power with vaon := false } }; decide (s.power.vaon = false))
    && (let s : State := rdy; decide (s.power.vaon = true) && decide (s.power.pwrGood = true))
    && (let s : State := rdy; let s : State := { (s) with power := { (s).power with pwrGood := false } }; decide (s.power.vaon = true) && decide (s.power.pwrGood = false))
    && (let s : State := rdy; let s : State := { (s) with power := { (s).power with pwrGood := false } }; (decide (s.power.run = false) || decide (s.power.pwrGood = false)))
    && (let s : State := rdy; let s : State := { (s) with power := { (s).power with run := false } }; decide (s.powered = false))) = true := by decide +kernel

/-- The hypotheses of the clauses of ConditionsAndBlocks are met. -/
theorem wit_conditions_and_blocks : ((let sub : Nat := 0; let s : State := rdy; @decide _ (decReady s) && decide (sub ≠ 0x16) && decide (sub ≠ 0x17) && decide (sub ≠ 0x18) && decide (sub ≠ 0x19))
    && (let v : Nat := 65534; let s : State := rdy; @decide _ (decReady s) && decide (v ≠ 0xFFFF) && decide (256 ≤ v))
    && (let t : Nat := 0; let v : Nat := 3; let ch : Fin 64 := 0; let s : State := rdy.setLine 3 { cls := 1, src := 9 }; @decide _ (decReady s) && decide (v < 256) && decide (((s.advance t).levelDue ch.val).lineTaken v ch.val = true))
    && (let t : Nat := 0; let v : Nat := 3; let ch : Fin 64 := 0; let s : State := rdyC.wrs [(Ob.primEnable, 1), (Ob.primDelayD, 0)]; @decide _ (decReady s) && decide (v < 256) && decide (((s.advance t).levelDue ch.val).lineTaken v ch.val = false) && decide ((((((((s.advance t).levelDue ch.val).unname ch.val v).wr (Ob.chanCondLine ch.val) v).levelSource ch.val).refreshFabric).fabricBroken || ((((((s.advance t).levelDue ch.val).unname ch.val v).wr (Ob.chanCondLine ch.val) v).levelSource ch.val).refreshFabric).exportBreak.isSome) = true))
    && (let t : Nat := 0; let v : Nat := 0; let ch : Fin 64 := 0; let s : State := rdy; @decide _ (decReady s) && ((decide (v < 256) && decide (((s.advance t).levelDue ch.val).lineTaken v ch.val = false) && decide ((((((((s.advance t).levelDue ch.val).unname ch.val v).wr (Ob.chanCondLine ch.val) v).levelSource ch.val).refreshFabric).fabricBroken || ((((((s.advance t).levelDue ch.val).unname ch.val v).wr (Ob.chanCondLine ch.val) v).levelSource ch.val).refreshFabric).exportBreak.isSome) = false)) || decide (v = 0xFFFF)))
    && (let v : Nat := 6; let s : State := rdy; @decide _ (decReady s) && (decide (bits v 6 4 ≠ 0) || decide (4 < v % 16) || decide (256 ≤ v)))
    && (let v : Nat := 0; let s : State := rdy; @decide _ (decReady s) && decide (bits v 6 4 = 0) && decide (v % 16 ≤ 4) && decide (v < 256))
    && (let t : Nat := 0; let v : Nat := 65535; let ch : Fin 64 := 0; let s : State := rdy; @decide _ (decReady s) && decide (sint 16 (v % 65536) < sint 16 (((s.advance t).levelDue ch.val).rd (Ob.chanCondLow ch.val))))
    && (let t : Nat := 0; let v : Nat := 0; let ch : Fin 64 := 0; let s : State := rdy; @decide _ (decReady s) && decide (sint 16 (((s.advance t).levelDue ch.val).rd (Ob.chanCondLow ch.val)) ≤ sint 16 (v % 65536)))
    && (let t : Nat := 0; let v : Nat := 1; let ch : Fin 64 := 0; let s : State := rdy; @decide _ (decReady s) && decide (sint 16 (((s.advance t).levelDue ch.val).rd (Ob.chanCondHigh ch.val)) < sint 16 (v % 65536)))
    && (let t : Nat := 0; let v : Nat := 0; let ch : Fin 64 := 0; let s : State := rdy; @decide _ (decReady s) && decide (sint 16 (v % 65536) ≤ sint 16 (((s.advance t).levelDue ch.val).rd (Ob.chanCondHigh ch.val))))
    && (let ch : Fin 64 := 0; let s : State := rdy; decide ((s.chanS ch.val).filled = []))
    && (let ch : Fin 64 := 0; let s : State := rdy.setChan 0 { rdy.chanS 0 with filled := [{ tag := 0, flags := 0, samples := [] }] }; (match (s.chanS ch.val).filled with | b :: rest => true | _ => false))
    && (let t : Nat := 0; let tag : Nat := 0; let ch : Fin 64 := 0; let nf : Fin 64 := 0; let s : State := rdy; let s : State := (s).wr (Ob.slotState 0) 2; decide (s.active nf.val = true) && (decide ((s.advance t).gate nf.val ch.val tag = .live) || decide ((s.advance t).gate nf.val ch.val tag = .wait)))
    && (let t : Nat := 0; let tag : Nat := 0; let ch : Fin 64 := 0; let nf : Fin 64 := 0; let s : State := rdy; (decide (s.active nf.val = false) || (decide ((s.advance t).gate nf.val ch.val tag ≠ .live) && decide ((s.advance t).gate nf.val ch.val tag ≠ .wait))))
    && (let map : List (BitVec 8) := []; let s : State := rdy; @decide _ (decReady s) && decide (map.length ≠ 32))
    && (let map : List (BitVec 8) := (List.replicate 32 (0 : BitVec 8)); let s : State := rdy; @decide _ (decReady s) && decide (map.length = 32))) = true := by decide +kernel

/-- The hypotheses of the clauses of PatternsAndPulses are met. -/
theorem wit_patterns_and_pulses : ((let sub : Nat := 0; let v : Nat := 0; let d : Option (List (BitVec 8)) := none; let s : State := rdy; @decide _ (decReady s) && (match patRange sub v d with | some code => decide (code ≠ Abort.range) | _ => false))
    && (let sub : Nat := 3; let v : Nat := 0; let uf : Fin 16 := 0; let d : Option (List (BitVec 8)) := none; let s : State := (sl 0 3).wr (Ob.patOwner 0) 0; @decide _ (decReady s) && (decide (patRange sub v d = none) || decide (patRange sub v d = some Abort.range)) && decide (s.patFrozen (s.rd (Ob.patOwner uf.val)) = true))
    && (let sub : Nat := 3; let v : Nat := 2 ^ 32; let uf : Fin 16 := 0; let d : Option (List (BitVec 8)) := none; let s : State := rdy.wr (Ob.patOwner 0) 255; @decide _ (decReady s) && (decide (patRange sub v d = none) || decide (patRange sub v d = some Abort.range)) && decide (s.patFrozen (s.rd (Ob.patOwner uf.val)) = false) && decide (patRange sub v d = some Abort.range))
    && (let sub : Nat := 3; let v : Nat := 0; let uf : Fin 16 := 0; let d : Option (List (BitVec 8)) := none; let s : State := rdy; let s : State := (s).wr (Ob.patOwner uf.val) 0; let s : State := (s).wr (Ob.slotState (s.rd (Ob.patOwner uf.val))) 2; @decide _ (decReady s) && decide (patRange sub v d = none) && decide (s.patFrozen (s.rd (Ob.patOwner uf.val)) = false) && decide ((s.rd (Ob.patOwner uf.val)) < 64) && decide (s.rd (Ob.slotState (s.rd (Ob.patOwner uf.val))) = 2))
    && (let t : Nat := 0; let sub : Nat := 6; let v : Nat := 1; let uf : Fin 16 := 0; let d : Option (List (BitVec 8)) := none; let s : State := rdyC.wrs [(Ob.primEnable, 1), (Ob.primDelayD, 0), (Ob.patOwner 0, 255)]; @decide _ (decReady s) && decide (patRange sub v d = none) && decide (s.patFrozen (s.rd (Ob.patOwner uf.val)) = false) && (decide (64 ≤ (s.rd (Ob.patOwner uf.val))) || decide (s.rd (Ob.slotState (s.rd (Ob.patOwner uf.val))) ≠ 2)) && decide (((decide (s.rd (Ob.patHorizon uf.val) < ((s.advance t).patApply uf.val (patKey uf.val sub) v d).rd (Ob.patHorizon uf.val)) || patRaises sub v) && (((s.advance t).patApply uf.val (patKey uf.val sub) v d).fabricBroken || !((s.advance t).patApply uf.val (patKey uf.val sub) v d).lookCovered)) = true))
    && (let t : Nat := 0; let sub : Nat := 3; let v : Nat := 9; let uf : Fin 16 := 0; let d : Option (List (BitVec 8)) := none; let s : State := rdy.wr (Ob.patOwner 0) 255; @decide _ (decReady s) && decide (patRange sub v d = none) && decide (s.patFrozen (s.rd (Ob.patOwner uf.val)) = false) && (decide (64 ≤ (s.rd (Ob.patOwner uf.val))) || decide (s.rd (Ob.slotState (s.rd (Ob.patOwner uf.val))) ≠ 2)) && decide (((decide (s.rd (Ob.patHorizon uf.val) < ((s.advance t).patApply uf.val (patKey uf.val sub) v d).rd (Ob.patHorizon uf.val)) || patRaises sub v) && (((s.advance t).patApply uf.val (patKey uf.val sub) v d).fabricBroken || !((s.advance t).patApply uf.val (patKey uf.val sub) v d).lookCovered)) = false))
    && (let t : Nat := 0; let uf : Fin 16 := 0; let s : State := rdy; (decide (s.rd (Ob.patEnable uf.val) = 0) || decide (s.counts = false) || decide ((s.advance t).devNow < s.rd (Ob.patHorizon uf.val))))
    && (let t : Nat := 0; let uf : Fin 16 := 0; let s : State := rdy; let s : State := (s).wr (Ob.patEnable uf.val) 1; let s : State := { (s) with time := { (s).time with counting := true } }; (!(decide (s.rd (Ob.patEnable uf.val) = 0) || decide (s.counts = false) || decide ((s.advance t).devNow < s.rd (Ob.patHorizon uf.val)))))
    && (let t : Nat := 0; let v : Nat := 18446744073709551616; let kf : Fin 8 := 0; let s : State := rdy; @decide _ (decReady s) && ((decide (2 ^ 64 ≤ v) || decide (bits v 59 32 ≠ 0) || (decide (bit v 63 = true) && decide (bits v 31 16 = 0)) || decide (4 * s.second < bits v 15 0 * 256 * 1000000)) || decide (((s.advance t).wr (Ob.condTrigOutConfig kf.val) v).trigOutBreak ≠ none)))
    && (let t : Nat := 0; let v : Nat := 2 ^ 63 + 2 ^ 16 * 1; let kf : Fin 8 := 0; let s : State := rdyC; @decide _ (decReady s) && (!(decide (2 ^ 64 ≤ v) || decide (bits v 59 32 ≠ 0) || (decide (bit v 63 = true) && decide (bits v 31 16 = 0)) || decide (4 * s.second < bits v 15 0 * 256 * 1000000))) && decide (((s.advance t).wr (Ob.condTrigOutConfig kf.val) v).trigOutBreak = none) && decide (bit v 63 = true))
    && (let t : Nat := 0; let v : Nat := 0; let kf : Fin 8 := 0; let s : State := rdy; @decide _ (decReady s) && (!(decide (2 ^ 64 ≤ v) || decide (bits v 59 32 ≠ 0) || (decide (bit v 63 = true) && decide (bits v 31 16 = 0)) || decide (4 * s.second < bits v 15 0 * 256 * 1000000))) && decide (((s.advance t).wr (Ob.condTrigOutConfig kf.val) v).trigOutBreak = none) && decide (bit v 63 = false))
    && (let t : Nat := 0; let kf : Fin 8 := 0; let p : Nat × Nat := (0, 0); let s : State := rdy; (decide (firstPulse (s.trigS kf.val).waiting = none) || (decide (firstPulse (s.trigS kf.val).waiting = some p) && decide ((s.advance t).devNow < p.1))))
    && (let t : Nat := 0; let kf : Fin 8 := 0; let s : State := rdyC.setTrig 0 { waiting := [(0, 100)] }; (match firstPulse (s.trigS kf.val).waiting with | some p => decide (p.1 ≤ (s.advance t).devNow) && decide ((s.trigS kf.val).active = none) | _ => false))
    && (let t : Nat := 0; let kf : Fin 8 := 0; let s : State := rdyC.setTrig 0 { waiting := [(0, 100)], active := some (0, 50) }; (match firstPulse (s.trigS kf.val).waiting with | some p => decide (p.1 ≤ (s.advance t).devNow) && (match (s.trigS kf.val).active with | some a => decide (p.1 < a.2 + 256) | _ => false) | _ => false))
    && (let t : Nat := 1000000000000000000; let kf : Fin 8 := 0; let s : State := rdyC.setTrig 0 { waiting := [(1000, 2000)], active := some (0, 50) }; (match firstPulse (s.trigS kf.val).waiting with | some p => decide (p.1 ≤ (s.advance t).devNow) && (match (s.trigS kf.val).active with | some a => decide (a.2 + 256 ≤ p.1) | _ => false) | _ => false))
    && (let t : Nat := 0; let kf : Fin 8 := 0; let a : Nat × Nat := (0, 0); let s : State := rdy; (decide ((s.trigS kf.val).active = none) || (decide ((s.trigS kf.val).active = some a) && decide ((s.advance t).devNow < a.2))))
    && (let t : Nat := 1000000000000000000; let kf : Fin 8 := 0; let s : State := rdyC.setTrig 0 { waiting := [(40, 200)], active := some (0, 50) }; (match (s.trigS kf.val).active with | some a => decide (a.2 ≤ (s.advance t).devNow) && decide (a.2 < ((fun (a : Nat × Nat) => mergePulses (s.trigS kf.val).waiting.length a.2 (s.trigS kf.val).waiting) a).1) | _ => false))
    && (let t : Nat := 1000000000000000000; let kf : Fin 8 := 0; let s : State := rdyC.setTrig 0 { active := some (0, 50) }; (match (s.trigS kf.val).active with | some a => decide (a.2 ≤ (s.advance t).devNow) && decide (((fun (a : Nat × Nat) => mergePulses (s.trigS kf.val).waiting.length a.2 (s.trigS kf.val).waiting) a).1 ≤ a.2) | _ => false))
    && (let lane : Fin 2 := 0; let s : State := rdy; (decide (bit (s.rd Ob.primEnable) lane.val = false) || decide (s.counts = false)))
    && (let t : Nat := 1000000000000000000; let lane : Fin 2 := 0; let s : State := ((rdyC.wrs [(Ob.primEnable, 1), (Ob.primTestPattern, 1)]).setLane 0 { triggers := [(0, 5, true, true)] }); decide (bit (s.rd Ob.primEnable) lane.val = true) && decide (s.counts = true) && (match (if (s.laneS lane.val).firstTick ≤ (s.advance t).devNow then (s.advance t).setQuad 35 0 else (s.advance t)).laneDue lane.val with | some (e, t0, t1) => decide (s.rd Ob.primTestPattern ≠ 0) | _ => false))
    && (let t : Nat := 1000000000000000000; let lane : Fin 2 := 0; let s : State := ((rdyC.wrs [(Ob.primEnable, 1), (Ob.primTestPattern, 0)]).setLane 0 { triggers := [(0, 5, true, true)] }); decide (bit (s.rd Ob.primEnable) lane.val = true) && decide (s.counts = true) && (match (if (s.laneS lane.val).firstTick ≤ (s.advance t).devNow then (s.advance t).setQuad 35 0 else (s.advance t)).laneDue lane.val with | some (e, t0, t1) => decide (s.rd Ob.primTestPattern = 0) | _ => false))
    && (let t : Nat := 0; let lane : Fin 2 := 0; let s : State := rdy; let s : State := (s).wr Ob.primEnable 1; let s : State := { (s) with time := { (s).time with counting := true } }; decide (bit (s.rd Ob.primEnable) lane.val = true) && decide (s.counts = true) && decide ((if (s.laneS lane.val).firstTick ≤ (s.advance t).devNow then (s.advance t).setQuad 35 0 else (s.advance t)).laneDue lane.val = none) && decide ((decide ((s.laneS lane.val).firstTick ≤ ((if (s.laneS lane.val).firstTick ≤ (s.advance t).devNow then (s.advance t).setQuad 35 0 else (s.advance t)).devNow / (if (s.laneS lane.val).firstTick ≤ (s.advance t).devNow then (s.advance t).setQuad 35 0 else (s.advance t)).second) * (if (s.laneS lane.val).firstTick ≤ (s.advance t).devNow then (s.advance t).setQuad 35 0 else (s.advance t)).second) && (s.laneS lane.val).lastMark != some ((if (s.laneS lane.val).firstTick ≤ (s.advance t).devNow then (s.advance t).setQuad 35 0 else (s.advance t)).devNow / (if (s.laneS lane.val).firstTick ≤ (s.advance t).devNow then (s.advance t).setQuad 35 0 else (s.advance t)).second) && s.rd Ob.primTestPattern == 0) = true))
    && (let t : Nat := 0; let lane : Fin 2 := 0; let s : State := rdy; let s : State := (s).wr Ob.primEnable 1; let s : State := (s).wr Ob.primTestPattern 1; let s : State := { (s) with time := { (s).time with counting := true } }; decide (bit (s.rd Ob.primEnable) lane.val = true) && decide (s.counts = true) && decide ((if (s.laneS lane.val).firstTick ≤ (s.advance t).devNow then (s.advance t).setQuad 35 0 else (s.advance t)).laneDue lane.val = none) && decide ((decide ((s.laneS lane.val).firstTick ≤ ((if (s.laneS lane.val).firstTick ≤ (s.advance t).devNow then (s.advance t).setQuad 35 0 else (s.advance t)).devNow / (if (s.laneS lane.val).firstTick ≤ (s.advance t).devNow then (s.advance t).setQuad 35 0 else (s.advance t)).second) * (if (s.laneS lane.val).firstTick ≤ (s.advance t).devNow then (s.advance t).setQuad 35 0 else (s.advance t)).second) && (s.laneS lane.val).lastMark != some ((if (s.laneS lane.val).firstTick ≤ (s.advance t).devNow then (s.advance t).setQuad 35 0 else (s.advance t)).devNow / (if (s.laneS lane.val).firstTick ≤ (s.advance t).devNow then (s.advance t).setQuad 35 0 else (s.advance t)).second) && s.rd Ob.primTestPattern == 0) = false))
    && (let v : Nat := 1; let s : State := rdy; @decide _ (decReady s) && decide (((bit v 0 && !bit (s.rd Ob.primEnable) 0) || (bit v 1 && !bit (s.rd Ob.primEnable) 1)) = true) && decide (s.counts = false))
    && (let v : Nat := 4; let s : State := rdy; @decide _ (decReady s) && (decide (((bit v 0 && !bit (s.rd Ob.primEnable) 0) || (bit v 1 && !bit (s.rd Ob.primEnable) 1)) = false) || decide (s.counts = true)) && decide (4 ≤ v))
    && (let t : Nat := 0; let v : Nat := 1; let s : State := rdyC.wr Ob.primDelayD 0; @decide _ (decReady s) && decide (((bit v 0 && !bit (s.rd Ob.primEnable) 0) || (bit v 1 && !bit (s.rd Ob.primEnable) 1)) = true) && decide (s.counts = true) && decide (v < 4) && (decide ((((s.advance t).wr Ob.primEnable v).refreshFabric).minDBreak ≠ none) || decide ((((s.advance t).wr Ob.primEnable v).refreshFabric).chargeBreak ≠ none)))
    && (let t : Nat := 0; let v : Nat := 0; let s : State := rdy; @decide _ (decReady s) && (decide (((bit v 0 && !bit (s.rd Ob.primEnable) 0) || (bit v 1 && !bit (s.rd Ob.primEnable) 1)) = false) || (decide (s.counts = true) && decide ((((s.advance t).wr Ob.primEnable v).refreshFabric).minDBreak = none) && decide ((((s.advance t).wr Ob.primEnable v).refreshFabric).chargeBreak = none))) && decide (v < 4))) = true := by decide +kernel

/-- The hypotheses of the clauses of DisplayLifecycle are met. -/
theorem wit_display_lifecycle : ((let s : State := rdy; let s : State := (s).wr Ob.dispEnable 1; let s : State := { (s) with disp := { (s).disp with inFrame := true } }; @decide _ (decReady s) && decide ((s.rd Ob.dispEnable) ≠ 0) && decide (s.disp.inFrame = true))
    && (let s : State := rdy; let s : State := (s).wr Ob.dispEnable 1; @decide _ (decReady s) && decide ((s.rd Ob.dispEnable) ≠ 0) && decide (s.disp.inFrame = false))
    && (let s : State := rdy; @decide _ (decReady s) && decide ((s.rd Ob.dispEnable) = 0) && decide (s.timingOk = false))
    && (let s : State := ((rdyC.setDom Ob.dispTiming (leBytes 32 (640 * 2 ^ 244 + 800 * 2 ^ 230 + 16 * 2 ^ 216 + 96 * 2 ^ 208 + 480 * 2 ^ 196 + 525 * 2 ^ 182 + 10 * 2 ^ 170 + 2 * 2 ^ 162 + 25175 * 2 ^ 128))).setDom Ob.dispBuffers (leBytes 16 (2 ^ 73))).wrs ((Ob.dispMaxLinkRate, 3) :: (Ob.dispRefreshMax, 0) :: (List.range 32).map fun c => (Ob.xferOwner c, 256)); @decide _ (decReady s) && decide ((s.rd Ob.dispEnable) = 0) && decide (s.timingOk = true) && (match s.fetchRefusal with | some code => true | _ => false))
    && (let s : State := cfd (((rdyC.setDom Ob.dispTiming (leBytes 32 (640 * 2 ^ 244 + 800 * 2 ^ 230 + 16 * 2 ^ 216 + 96 * 2 ^ 208 + 480 * 2 ^ 196 + 525 * 2 ^ 182 + 10 * 2 ^ 170 + 2 * 2 ^ 162 + 25175 * 2 ^ 128))).setDom Ob.dispBuffers (leBytes 16 (2 ^ 73))).wrs ([(Ob.penvEnvelope, 230000), (Ob.dispMaxLinkRate, 3), (Ob.dispRefreshMax, 0)])); @decide _ (decReady s) && decide ((s.rd Ob.dispEnable) = 0) && decide (s.timingOk = true) && decide (s.fetchRefusal = none) && (match s.freeChannel with | some c => true | _ => false))
    && (let k : Nat := 0; let s : State := rdy; @decide _ (decReady s) && (decide (4 ≤ k) || decide ((bufDesc (s.dom Ob.dispBuffers) k).valid = false)))
    && (let t : Nat := 0; let k : Nat := 0; let s : State := rdyC.setDom Ob.dispBuffers (leBytes 16 (2 ^ 73)); @decide _ (decReady s) && decide (k < 4) && decide ((bufDesc (s.dom Ob.dispBuffers) k).valid = true) && decide (((s.advance t).noted Ob.dispCommit).commitMisses (s.advance t).devNow = false))
    && (let t : Nat := 1000000000000000000; let k : Nat := 0; let s : State := ({ rdyC with disp := { rdyC.disp with start := some 0 } } : State).setDom Ob.dispBuffers (leBytes 16 (2 ^ 73)) |>.wr Ob.dispState 2; @decide _ (decReady s) && decide (k < 4) && decide ((bufDesc (s.dom Ob.dispBuffers) k).valid = true) && decide (((s.advance t).noted Ob.dispCommit).commitMisses (s.advance t).devNow = true))
    && (let t : Nat := 0; let s : State := rdy; (decide ((s.rd Ob.dispEnable) = 0) || (!(decide (s.rd Ob.dispState = 2) || (decide (s.rd Ob.dispState = 3) && decide (s.disp.pending ≠ none)))) || decide ((s.advance t).devNow < ((s.advance t).nextStart).1)))
    && (let t : Nat := 0; let s : State := rdy; let s : State := (s).wr Ob.dispEnable 1; let s : State := (s).wr Ob.dispState 2; decide ((s.rd Ob.dispEnable) ≠ 0) && (decide (s.rd Ob.dispState = 2) || (decide (s.rd Ob.dispState = 3) && decide (s.disp.pending ≠ none))) && decide (((s.advance t).nextStart).1 ≤ (s.advance t).devNow))
    && (let s : State := rdy; let s : State := { (s) with disp := { (s).disp with inFrame := true } }; decide (s.disp.inFrame = true))
    && (let s : State := rdy; decide (s.disp.inFrame = false))
    && (let s : State := rdy; (decide ((s.rd Ob.dispEnable) = 0) || decide (s.rd Ob.dispState ≠ 4)))
    && (let s : State := rdy; let s : State := (s).wr Ob.dispEnable 1; let s : State := (s).wr Ob.dispState 4; decide ((s.rd Ob.dispEnable) ≠ 0) && decide (s.rd Ob.dispState = 4))
    && (let s : State := rdy; decide ((s.rd Ob.dispEnable) = 0))
    && (let s : State := rdy; (!(decide (s.rd Ob.dispState = 1) && decide (s.disp.hpd = true))))
    && (let s : State := ({ rdy with disp := { rdy.disp with hpd := true } } : State).wrs [(Ob.dispState, 1), (Ob.xferOwner 3, 512)]; decide (s.rd Ob.dispState = 1) && decide (s.disp.hpd = true) && (match s.displayChannel with | some c => true | _ => false))
    && (let s : State := rdy; let s : State := (s).wr Ob.dispState 1; let s : State := { (s) with disp := { (s).disp with hpd := true } }; decide (s.rd Ob.dispState = 1) && decide (s.disp.hpd = true) && decide (s.displayChannel = none))
    && (let s : State := rdy; let s : State := (s).wr Ob.dispState 1; let s : State := { (s) with disp := { (s).disp with hpd := true } }; decide (s.rd Ob.dispState = 1) && decide (s.disp.hpd = true) && decide (s.disp.trainFails < 2))
    && (let s : State := rdy; let s : State := (s).wr Ob.dispState 1; let s : State := { (s) with disp := { (s).disp with hpd := true } }; let s : State := { (s) with disp := { (s).disp with trainFails := 2 } }; decide (s.rd Ob.dispState = 1) && decide (s.disp.hpd = true) && decide (2 ≤ s.disp.trainFails))) = true := by decide +kernel

/-- The hypotheses of the clauses of MapsAndReserve are met. -/
theorem wit_maps_and_reserve : ((let t : Nat := 0; let map : Fin 4 := 0; let s : State := rdy; decide ((s.mapS map.val).queue.find? ((s.advance t).mapTurn map.val) = none))
    && (let t : Nat := 0; let map : Fin 4 := 0; let s : State := rdyC.setMap 0 { queue := [{ ch := 0, frame := 0, tag := 0, flags := 0, values := [] }] }; (match (s.mapS map.val).queue.find? ((s.advance t).mapTurn map.val) with | some m => true | _ => false))
    && (let t : Nat := 0; let T : Nat := 0; let map : Fin 4 := 0; let s : State := rdy; (decide (s.nextTick map.val = none) || (decide (s.nextTick map.val = some T) && (decide (64 ≤ s.rd (Ob.mapBoundSlot map.val)) || decide ((s.advance t).devNow < T) || decide ((s.mapS map.val).copying ≠ none) || decide ((s.advance t).mapCurrent map.val T = false)))))
    && (let t : Nat := 1000000000000000000; let map : Fin 4 := 0; let s : State := (rdyC.wrs [(Ob.mapBoundSlot 0, 0), (Ob.mapSweepPeriod 0, 1000), (Ob.mapSource 0, 0)]).setMap 0 { anchor := 0 }; (match s.nextTick map.val with | some T => decide (s.rd (Ob.mapBoundSlot map.val) < 64) && decide (T ≤ (s.advance t).devNow) && decide ((s.mapS map.val).copying = none) && decide ((s.advance t).mapCurrent map.val T = true) | _ => false))
    && (let map : Fin 4 := 0; let s : State := rdy; decide ((s.mapS map.val).copying = none))
    && (let map : Fin 4 := 0; let s : State := (rdyC.wrs [(Ob.mapBoundSlot 0, 0), (Ob.mapRenderEnable 0, 1), (Ob.slotOutputMask 0, 32)]).setMap 0 { copying := some 1 }; (match (s.mapS map.val).copying with | some T => decide (s.renderStarts map.val = true) | _ => false))
    && (let map : Fin 4 := 0; let s : State := rdy.setMap 0 { copying := some 1 }; (match (s.mapS map.val).copying with | some T => decide (s.renderStarts map.val = false) | _ => false))
    && (let map : Fin 4 := 0; let s : State := rdy; decide ((s.mapS map.val).rendering = none))
    && (let map : Fin 4 := 0; let s : State := rdy.setMap 0 { rendering := some 1 }; (match (s.mapS map.val).rendering with | some q => true | _ => false))
    && (let map : Fin 4 := 0; let s : State := rdy; @decide _ (decReady s) && (!((decide (s.rd (Ob.mapBoundSlot map.val) < 64) && decide (s.rd (Ob.mapSweepPeriod map.val) ≠ 0)) && (decide (s.rd (Ob.mapSnapshotEnable map.val) ≠ 0) && decide ((s.mapS map.val).snapAt = none) && decide ((s.mapS map.val).copying = none)))))
    && (let map : Fin 4 := 0; let s : State := rdy; let s : State := (s).wr (Ob.mapBoundSlot map.val) 0; let s : State := (s).wr (Ob.mapSweepPeriod map.val) 1; let s : State := (s).wr (Ob.mapSnapshotEnable map.val) 1; @decide _ (decReady s) && decide (s.rd (Ob.mapBoundSlot map.val) < 64) && decide (s.rd (Ob.mapSweepPeriod map.val) ≠ 0) && decide (s.rd (Ob.mapSnapshotEnable map.val) ≠ 0) && decide ((s.mapS map.val).snapAt = none) && decide ((s.mapS map.val).copying = none))
    && (let map : Fin 4 := 0; let s : State := rdy; @decide _ (decReady s) && (!(decide (s.rd (Ob.mapBoundSlot map.val) < 64) && decide (s.rd (Ob.mapSweepPeriod map.val) ≠ 0))))
    && (let b : List (BitVec 8) := (List.replicate 1 (0 : BitVec 8)); let s : State := rdy; @decide _ (decReady s) && (decide (b.length % 16 ≠ 0) || decide (256 < b.length)))
    && (let b : List (BitVec 8) := []; let s : State := (rdyC.setDom Ob.dispBuffers (leBytes 16 (2 ^ 73))).wrs [(Ob.dispEnable, 1), (Ob.dispShown, 0)]; @decide _ (decReady s) && decide (b.length % 16 = 0) && decide (b.length ≤ 256) && decide (s.readRegionLost b = true))
    && (let b : List (BitVec 8) := (List.replicate 16 (0 : BitVec 8)); let s : State := rdy; @decide _ (decReady s) && decide (b.length % 16 = 0) && decide (b.length ≤ 256) && decide (s.readRegionLost b = false) && decide (s.reserveOk b = false))
    && (let b : List (BitVec 8) := []; let s : State := rdy; @decide _ (decReady s) && decide (b.length % 16 = 0) && decide (b.length ≤ 256) && decide (s.readRegionLost b = false) && decide (s.reserveOk b = true))) = true := by decide +kernel

/-- The hypotheses of the clauses of ModeFrames are met. -/
theorem wit_mode_frames : ((let t : Nat := 0; let nf : Fin 64 := 0; let ch : Fin 64 := 0; let s : State := rdy; (decide (s.chainMode nf.val ≠ 2) || decide ((bit (s.rd (Ob.slotChannelMask nf.val)) ch.val) = false) || decide ((s.advance t).gridOrigin nf.val ch.val = none)))
    && (let t : Nat := 0; let nf : Fin 64 := 0; let ch : Fin 64 := 0; let s : State := ((((sl 0 2 {}).wrs [(Ob.slotMode 0, 1), (Ob.slotChannelMask 0, 1)]).setDom (Ob.slotGeometry 0) ([])).setChan 0 { ring := [{ tag := 100, flags := 0, samples := (List.range 4).map fun i => (100 + i, 0) }], written := 64 }); decide (s.chainMode nf.val = 1) && decide ((bit (s.rd (Ob.slotChannelMask nf.val)) ch.val) = true) && (match (s.advance t).gridOrigin nf.val ch.val with | some o => decide ((s.advance t).inputAt nf.val ch.val (o.1 + (tget (dconst 0) (s.pipeS nf.val).frame ch.val) * spHop (leNat ((s.advance t).chainGeom nf.val))) (2 ^ spLog (leNat ((s.advance t).chainGeom nf.val))) = none) | _ => false))
    && (let t : Nat := 0; let nf : Fin 64 := 0; let ch : Fin 64 := 0; let s : State := ((((sl 0 2 { armed := some 50 }).wrs [(Ob.slotMode 0, 1), (Ob.slotChannelMask 0, 1)]).setDom (Ob.slotGeometry 0) ([])).setChan 0 { ring := [{ tag := 100, flags := 0, samples := (List.range 256).map fun i => (100 + i, 0) }], written := 64 }); decide (s.chainMode nf.val = 1) && decide ((bit (s.rd (Ob.slotChannelMask nf.val)) ch.val) = true) && (match (s.advance t).gridOrigin nf.val ch.val with | some o => (match (s.advance t).inputAt nf.val ch.val (o.1 + (tget (dconst 0) (s.pipeS nf.val).frame ch.val) * spHop (leNat ((s.advance t).chainGeom nf.val))) (2 ^ spLog (leNat ((s.advance t).chainGeom nf.val))) with | some l => decide (((s.advance t).inTurn nf.val (fun o_ => (s.advance t).pendingTag o_ ch.val) ((s.advance t).gate nf.val ch.val ((l.headD (0, 0, 0)).1))) = .wait) | _ => false) | _ => false))
    && (let t : Nat := 0; let nf : Fin 64 := 0; let ch : Fin 64 := 0; let s : State := ((((sl 0 6 {}).wrs [(Ob.slotMode 0, 1), (Ob.slotChannelMask 0, 1)]).setDom (Ob.slotGeometry 0) ([])).setChan 0 { ring := [{ tag := 100, flags := 0, samples := (List.range 256).map fun i => (100 + i, 0) }], written := 64 }); decide (s.chainMode nf.val = 1) && decide ((bit (s.rd (Ob.slotChannelMask nf.val)) ch.val) = true) && (match (s.advance t).gridOrigin nf.val ch.val with | some o => (match (s.advance t).inputAt nf.val ch.val (o.1 + (tget (dconst 0) (s.pipeS nf.val).frame ch.val) * spHop (leNat ((s.advance t).chainGeom nf.val))) (2 ^ spLog (leNat ((s.advance t).chainGeom nf.val))) with | some l => decide (((s.advance t).inTurn nf.val (fun o_ => (s.advance t).pendingTag o_ ch.val) ((s.advance t).gate nf.val ch.val ((l.headD (0, 0, 0)).1))) = .skip) | _ => false) | _ => false))
    && (let t : Nat := 0; let nf : Fin 64 := 0; let ch : Fin 64 := 0; let s : State := ((((sl 0 3 { switchAt := some 500 }).wrs [(Ob.slotMode 0, 1), (Ob.slotChannelMask 0, 1)]).setDom (Ob.slotGeometry 0) ([])).setChan 0 { ring := [{ tag := 100, flags := 0, samples := (List.range 256).map fun i => (100 + i, 0) }], written := 64 }); decide (s.chainMode nf.val = 1) && decide ((bit (s.rd (Ob.slotChannelMask nf.val)) ch.val) = true) && (match (s.advance t).gridOrigin nf.val ch.val with | some o => (match (s.advance t).inputAt nf.val ch.val (o.1 + (tget (dconst 0) (s.pipeS nf.val).frame ch.val) * spHop (leNat ((s.advance t).chainGeom nf.val))) (2 ^ spLog (leNat ((s.advance t).chainGeom nf.val))) with | some l => decide (((s.advance t).inTurn nf.val (fun o_ => (s.advance t).pendingTag o_ ch.val) ((s.advance t).gate nf.val ch.val ((l.headD (0, 0, 0)).1))) = .mute) | _ => false) | _ => false))
    && (let t : Nat := 0; let nf : Fin 64 := 0; let ch : Fin 64 := 0; let s : State := ((((sl 0 2 {}).wrs [(Ob.slotMode 0, 1), (Ob.slotChannelMask 0, 1)]).setDom (Ob.slotGeometry 0) ([])).setChan 0 { ring := [{ tag := 100, flags := 0, samples := (List.range 256).map fun i => (100 + i, 0) }], written := 64 }); decide (s.chainMode nf.val = 1) && decide ((bit (s.rd (Ob.slotChannelMask nf.val)) ch.val) = true) && (match (s.advance t).gridOrigin nf.val ch.val with | some o => (match (s.advance t).inputAt nf.val ch.val (o.1 + (tget (dconst 0) (s.pipeS nf.val).frame ch.val) * spHop (leNat ((s.advance t).chainGeom nf.val))) (2 ^ spLog (leNat ((s.advance t).chainGeom nf.val))) with | some l => decide (((s.advance t).inTurn nf.val (fun o_ => (s.advance t).pendingTag o_ ch.val) ((s.advance t).gate nf.val ch.val ((l.headD (0, 0, 0)).1))) = .live) | _ => false) | _ => false))
    && (let t : Nat := 0; let nf : Fin 64 := 0; let ch : Fin 64 := 0; let s : State := ((((sl 0 2 {}).wrs [(Ob.slotMode 0, 2), (Ob.slotChannelMask 0, 1)]).setDom (Ob.slotGeometry 0) ([])).setChan 0 { ring := [{ tag := 100, flags := 0, samples := (List.range 4).map fun i => (100 + i, 0) }], written := 64 }); decide (s.chainMode nf.val = 2) && decide ((bit (s.rd (Ob.slotChannelMask nf.val)) ch.val) = true) && (match (s.advance t).gridOrigin nf.val ch.val with | some o => decide ((s.advance t).inputAt nf.val ch.val (o.1 + (tget (dconst 0) (s.pipeS nf.val).frame ch.val) * svHop ((s.advance t).sieveHead nf.val) + (tget (dconst []) (s.pipeS nf.val).hist ch.val).length) (svSpan ((s.advance t).sieveHead nf.val) - (tget (dconst []) (s.pipeS nf.val).hist ch.val).length) = none) | _ => false))
    && (let t : Nat := 0; let nf : Fin 64 := 0; let ch : Fin 64 := 0; let s : State := ((((sl 0 2 { armed := some 50 }).wrs [(Ob.slotMode 0, 2), (Ob.slotChannelMask 0, 1)]).setDom (Ob.slotGeometry 0) ([])).setChan 0 { ring := [{ tag := 100, flags := 0, samples := (List.range 256).map fun i => (100 + i, 0) }], written := 64 }); decide (s.chainMode nf.val = 2) && decide ((bit (s.rd (Ob.slotChannelMask nf.val)) ch.val) = true) && (match (s.advance t).gridOrigin nf.val ch.val with | some o => (match (s.advance t).inputAt nf.val ch.val (o.1 + (tget (dconst 0) (s.pipeS nf.val).frame ch.val) * svHop ((s.advance t).sieveHead nf.val) + (tget (dconst []) (s.pipeS nf.val).hist ch.val).length) (svSpan ((s.advance t).sieveHead nf.val) - (tget (dconst []) (s.pipeS nf.val).hist ch.val).length) with | some l => decide (((s.advance t).routesInTurn nf.val ((s.advance t).sieveHead nf.val) ((s.advance t).inTurn nf.val (fun o_ => (s.advance t).pendingTag o_ ch.val) ((s.advance t).gate nf.val ch.val ((((tget (dconst []) (s.pipeS nf.val).hist ch.val) ++ l).headD (0, 0, 0)).1)))) = .wait) | _ => false) | _ => false))
    && (let t : Nat := 0; let nf : Fin 64 := 0; let ch : Fin 64 := 0; let s : State := ((((sl 0 2 {}).wrs [(Ob.slotMode 0, 2), (Ob.slotChannelMask 0, 1)]).setDom (Ob.slotGeometry 0) ([])).setChan 0 { ring := [{ tag := 100, flags := 0, samples := (List.range 256).map fun i => (100 + i, 0) }], written := 64 }).setMigration 0 0 (some { slot := 0, affected := [], gs := 0, channels := [0], entry := 0, targets := [], ge := none }); decide (s.chainMode nf.val = 2) && decide ((bit (s.rd (Ob.slotChannelMask nf.val)) ch.val) = true) && (match (s.advance t).gridOrigin nf.val ch.val with | some o => (match (s.advance t).inputAt nf.val ch.val (o.1 + (tget (dconst 0) (s.pipeS nf.val).frame ch.val) * svHop ((s.advance t).sieveHead nf.val) + (tget (dconst []) (s.pipeS nf.val).hist ch.val).length) (svSpan ((s.advance t).sieveHead nf.val) - (tget (dconst []) (s.pipeS nf.val).hist ch.val).length) with | some l => decide (((s.advance t).routesInTurn nf.val ((s.advance t).sieveHead nf.val) ((s.advance t).inTurn nf.val (fun o_ => (s.advance t).pendingTag o_ ch.val) ((s.advance t).gate nf.val ch.val ((((tget (dconst []) (s.pipeS nf.val).hist ch.val) ++ l).headD (0, 0, 0)).1)))) = .skip) && decide ((s.advance t).inGap nf.val ch.val ((((tget (dconst []) (s.pipeS nf.val).hist ch.val) ++ l).headD (0, 0, 0)).1) = true) | _ => false) | _ => false))
    && (let t : Nat := 0; let nf : Fin 64 := 0; let ch : Fin 64 := 0; let s : State := ((((sl 0 6 {}).wrs [(Ob.slotMode 0, 2), (Ob.slotChannelMask 0, 1)]).setDom (Ob.slotGeometry 0) ([])).setChan 0 { ring := [{ tag := 100, flags := 0, samples := (List.range 256).map fun i => (100 + i, 0) }], written := 64 }); decide (s.chainMode nf.val = 2) && decide ((bit (s.rd (Ob.slotChannelMask nf.val)) ch.val) = true) && (match (s.advance t).gridOrigin nf.val ch.val with | some o => (match (s.advance t).inputAt nf.val ch.val (o.1 + (tget (dconst 0) (s.pipeS nf.val).frame ch.val) * svHop ((s.advance t).sieveHead nf.val) + (tget (dconst []) (s.pipeS nf.val).hist ch.val).length) (svSpan ((s.advance t).sieveHead nf.val) - (tget (dconst []) (s.pipeS nf.val).hist ch.val).length) with | some l => decide (((s.advance t).routesInTurn nf.val ((s.advance t).sieveHead nf.val) ((s.advance t).inTurn nf.val (fun o_ => (s.advance t).pendingTag o_ ch.val) ((s.advance t).gate nf.val ch.val ((((tget (dconst []) (s.pipeS nf.val).hist ch.val) ++ l).headD (0, 0, 0)).1)))) = .skip) && decide ((s.advance t).inGap nf.val ch.val ((((tget (dconst []) (s.pipeS nf.val).hist ch.val) ++ l).headD (0, 0, 0)).1) = false) | _ => false) | _ => false))
    && (let t : Nat := 0; let nf : Fin 64 := 0; let ch : Fin 64 := 0; let s : State := ((((sl 0 3 { switchAt := some 500 }).wrs [(Ob.slotMode 0, 2), (Ob.slotChannelMask 0, 1)]).setDom (Ob.slotGeometry 0) ([])).setChan 0 { ring := [{ tag := 100, flags := 0, samples := (List.range 256).map fun i => (100 + i, 0) }], written := 64 }); decide (s.chainMode nf.val = 2) && decide ((bit (s.rd (Ob.slotChannelMask nf.val)) ch.val) = true) && (match (s.advance t).gridOrigin nf.val ch.val with | some o => (match (s.advance t).inputAt nf.val ch.val (o.1 + (tget (dconst 0) (s.pipeS nf.val).frame ch.val) * svHop ((s.advance t).sieveHead nf.val) + (tget (dconst []) (s.pipeS nf.val).hist ch.val).length) (svSpan ((s.advance t).sieveHead nf.val) - (tget (dconst []) (s.pipeS nf.val).hist ch.val).length) with | some l => decide (((s.advance t).routesInTurn nf.val ((s.advance t).sieveHead nf.val) ((s.advance t).inTurn nf.val (fun o_ => (s.advance t).pendingTag o_ ch.val) ((s.advance t).gate nf.val ch.val ((((tget (dconst []) (s.pipeS nf.val).hist ch.val) ++ l).headD (0, 0, 0)).1)))) = .mute) | _ => false) | _ => false))
    && (let t : Nat := 0; let nf : Fin 64 := 0; let ch : Fin 64 := 0; let s : State := ((((sl 0 2 {}).wrs [(Ob.slotMode 0, 2), (Ob.slotChannelMask 0, 1)]).setDom (Ob.slotGeometry 0) ([])).setChan 0 { ring := [{ tag := 100, flags := 0, samples := (List.range 256).map fun i => (100 + i, 0) }], written := 64 }); decide (s.chainMode nf.val = 2) && decide ((bit (s.rd (Ob.slotChannelMask nf.val)) ch.val) = true) && (match (s.advance t).gridOrigin nf.val ch.val with | some o => (match (s.advance t).inputAt nf.val ch.val (o.1 + (tget (dconst 0) (s.pipeS nf.val).frame ch.val) * svHop ((s.advance t).sieveHead nf.val) + (tget (dconst []) (s.pipeS nf.val).hist ch.val).length) (svSpan ((s.advance t).sieveHead nf.val) - (tget (dconst []) (s.pipeS nf.val).hist ch.val).length) with | some l => decide (((s.advance t).routesInTurn nf.val ((s.advance t).sieveHead nf.val) ((s.advance t).inTurn nf.val (fun o_ => (s.advance t).pendingTag o_ ch.val) ((s.advance t).gate nf.val ch.val ((((tget (dconst []) (s.pipeS nf.val).hist ch.val) ++ l).headD (0, 0, 0)).1)))) = .live) | _ => false) | _ => false))
    && (let t : Nat := 0; let nf : Fin 64 := 0; let inf : Fin 256 := 0; let s : State := rdy; (decide (s.chainMode nf.val ≠ 3) || decide ((puInputs ((s.advance t).pulseHead nf.val)) ≤ inf.val)))
    && (let t : Nat := 0; let nf : Fin 64 := 0; let inf : Fin 256 := 0; let s : State := ((sl 0 2).wr (Ob.slotMode 0) 3).setDom (Ob.slotGeometry 0) (leBytes 32 (2 ^ 240)); decide (s.chainMode nf.val = 3) && decide (inf.val < (puInputs ((s.advance t).pulseHead nf.val))) && decide (((s.advance t).pulseAdopt nf.val inf.val).pulseGrid nf.val inf.val = none))
    && (let t : Nat := 0; let nf : Fin 64 := 0; let inf : Fin 256 := 0; let s : State := ((((sl 0 2 {}).wrs [(Ob.slotMode 0, 3), (Ob.slotChannelMask 0, 1)]).setDom (Ob.slotGeometry 0) (leBytes 32 (2 ^ 240))).setChan 0 { ring := [{ tag := 100, flags := 0, samples := (List.range 4).map fun i => (100 + i, 0) }], written := 64 }); decide (s.chainMode nf.val = 3) && decide (inf.val < (puInputs ((s.advance t).pulseHead nf.val))) && (match ((s.advance t).pulseAdopt nf.val inf.val).pulseGrid nf.val inf.val with | some o => decide (((s.advance t).pulseAdopt nf.val inf.val).selectIn nf.val inf.val o = none) | _ => false))
    && (let t : Nat := 0; let nf : Fin 64 := 0; let inf : Fin 256 := 0; let s : State := ((((sl 0 2 { armed := some 50 }).wrs [(Ob.slotMode 0, 3), (Ob.slotChannelMask 0, 1)]).setDom (Ob.slotGeometry 0) (leBytes 32 (2 ^ 240))).setChan 0 { ring := [{ tag := 100, flags := 0, samples := (List.range 256).map fun i => (100 + i, 0) }], written := 64 }); decide (s.chainMode nf.val = 3) && decide (inf.val < (puInputs ((s.advance t).pulseHead nf.val))) && (match ((s.advance t).pulseAdopt nf.val inf.val).pulseGrid nf.val inf.val with | some o => (match ((s.advance t).pulseAdopt nf.val inf.val).selectIn nf.val inf.val o with | some l => decide ((((s.advance t).pulseAdopt nf.val inf.val).inTurn nf.val (fun o_ => (((s.advance t).pulseAdopt nf.val inf.val).sameInput o_ nf.val inf.val).bind (((s.advance t).pulseAdopt nf.val inf.val).pendingTag o_)) (((s.advance t).pulseAdopt nf.val inf.val).gateOn nf.val inf.val (((((s.advance t).pulseAdopt nf.val inf.val).selectNew nf.val inf.val l).headD (0, 0, 0)).1) (((s.advance t).pulseAdopt nf.val inf.val).inGap nf.val inf.val (((((s.advance t).pulseAdopt nf.val inf.val).selectNew nf.val inf.val l).headD (0, 0, 0)).1)))) = .wait) | _ => false) | _ => false))
    && (let t : Nat := 0; let nf : Fin 64 := 0; let inf : Fin 256 := 0; let s : State := ((((sl 0 2 {}).wrs [(Ob.slotMode 0, 3), (Ob.slotChannelMask 0, 1)]).setDom (Ob.slotGeometry 0) (leBytes 32 (2 ^ 240))).setChan 0 { ring := [{ tag := 100, flags := 0, samples := (List.range 256).map fun i => (100 + i, 0) }], written := 64 }).setMigration 0 0 (some { slot := 0, affected := [], gs := 0, channels := [0], entry := 0, targets := [], ge := none }); decide (s.chainMode nf.val = 3) && decide (inf.val < (puInputs ((s.advance t).pulseHead nf.val))) && (match ((s.advance t).pulseAdopt nf.val inf.val).pulseGrid nf.val inf.val with | some o => (match ((s.advance t).pulseAdopt nf.val inf.val).selectIn nf.val inf.val o with | some l => decide ((((s.advance t).pulseAdopt nf.val inf.val).inTurn nf.val (fun o_ => (((s.advance t).pulseAdopt nf.val inf.val).sameInput o_ nf.val inf.val).bind (((s.advance t).pulseAdopt nf.val inf.val).pendingTag o_)) (((s.advance t).pulseAdopt nf.val inf.val).gateOn nf.val inf.val (((((s.advance t).pulseAdopt nf.val inf.val).selectNew nf.val inf.val l).headD (0, 0, 0)).1) (((s.advance t).pulseAdopt nf.val inf.val).inGap nf.val inf.val (((((s.advance t).pulseAdopt nf.val inf.val).selectNew nf.val inf.val l).headD (0, 0, 0)).1)))) = .skip) && decide ((((s.advance t).pulseAdopt nf.val inf.val).inGap nf.val inf.val (((((s.advance t).pulseAdopt nf.val inf.val).selectNew nf.val inf.val l).headD (0, 0, 0)).1)) = true) | _ => false) | _ => false))
    && (let t : Nat := 0; let nf : Fin 64 := 0; let inf : Fin 256 := 0; let s : State := ((((sl 0 6 {}).wrs [(Ob.slotMode 0, 3), (Ob.slotChannelMask 0, 1)]).setDom (Ob.slotGeometry 0) (leBytes 32 (2 ^ 240))).setChan 0 { ring := [{ tag := 100, flags := 0, samples := (List.range 256).map fun i => (100 + i, 0) }], written := 64 }); decide (s.chainMode nf.val = 3) && decide (inf.val < (puInputs ((s.advance t).pulseHead nf.val))) && (match ((s.advance t).pulseAdopt nf.val inf.val).pulseGrid nf.val inf.val with | some o => (match ((s.advance t).pulseAdopt nf.val inf.val).selectIn nf.val inf.val o with | some l => decide ((((s.advance t).pulseAdopt nf.val inf.val).inTurn nf.val (fun o_ => (((s.advance t).pulseAdopt nf.val inf.val).sameInput o_ nf.val inf.val).bind (((s.advance t).pulseAdopt nf.val inf.val).pendingTag o_)) (((s.advance t).pulseAdopt nf.val inf.val).gateOn nf.val inf.val (((((s.advance t).pulseAdopt nf.val inf.val).selectNew nf.val inf.val l).headD (0, 0, 0)).1) (((s.advance t).pulseAdopt nf.val inf.val).inGap nf.val inf.val (((((s.advance t).pulseAdopt nf.val inf.val).selectNew nf.val inf.val l).headD (0, 0, 0)).1)))) = .skip) && decide ((((s.advance t).pulseAdopt nf.val inf.val).inGap nf.val inf.val (((((s.advance t).pulseAdopt nf.val inf.val).selectNew nf.val inf.val l).headD (0, 0, 0)).1)) = false) | _ => false) | _ => false))
    && (let t : Nat := 0; let nf : Fin 64 := 0; let inf : Fin 256 := 0; let s : State := ((((sl 0 3 { switchAt := some 500 }).wrs [(Ob.slotMode 0, 3), (Ob.slotChannelMask 0, 1)]).setDom (Ob.slotGeometry 0) (leBytes 32 (2 ^ 240))).setChan 0 { ring := [{ tag := 100, flags := 0, samples := (List.range 256).map fun i => (100 + i, 0) }], written := 64 }); decide (s.chainMode nf.val = 3) && decide (inf.val < (puInputs ((s.advance t).pulseHead nf.val))) && (match ((s.advance t).pulseAdopt nf.val inf.val).pulseGrid nf.val inf.val with | some o => (match ((s.advance t).pulseAdopt nf.val inf.val).selectIn nf.val inf.val o with | some l => decide ((((s.advance t).pulseAdopt nf.val inf.val).inTurn nf.val (fun o_ => (((s.advance t).pulseAdopt nf.val inf.val).sameInput o_ nf.val inf.val).bind (((s.advance t).pulseAdopt nf.val inf.val).pendingTag o_)) (((s.advance t).pulseAdopt nf.val inf.val).gateOn nf.val inf.val (((((s.advance t).pulseAdopt nf.val inf.val).selectNew nf.val inf.val l).headD (0, 0, 0)).1) (((s.advance t).pulseAdopt nf.val inf.val).inGap nf.val inf.val (((((s.advance t).pulseAdopt nf.val inf.val).selectNew nf.val inf.val l).headD (0, 0, 0)).1)))) = .mute) | _ => false) | _ => false))
    && (let t : Nat := 0; let nf : Fin 64 := 0; let inf : Fin 256 := 0; let s : State := ((((sl 0 2 {}).wrs [(Ob.slotMode 0, 3), (Ob.slotChannelMask 0, 1)]).setDom (Ob.slotGeometry 0) (leBytes 32 (2 ^ 240))).setChan 0 { ring := [{ tag := 100, flags := 0, samples := (List.range 256).map fun i => (100 + i, 0) }], written := 64 }); decide (s.chainMode nf.val = 3) && decide (inf.val < (puInputs ((s.advance t).pulseHead nf.val))) && (match ((s.advance t).pulseAdopt nf.val inf.val).pulseGrid nf.val inf.val with | some o => (match ((s.advance t).pulseAdopt nf.val inf.val).selectIn nf.val inf.val o with | some l => decide ((((s.advance t).pulseAdopt nf.val inf.val).inTurn nf.val (fun o_ => (((s.advance t).pulseAdopt nf.val inf.val).sameInput o_ nf.val inf.val).bind (((s.advance t).pulseAdopt nf.val inf.val).pendingTag o_)) (((s.advance t).pulseAdopt nf.val inf.val).gateOn nf.val inf.val (((((s.advance t).pulseAdopt nf.val inf.val).selectNew nf.val inf.val l).headD (0, 0, 0)).1) (((s.advance t).pulseAdopt nf.val inf.val).inGap nf.val inf.val (((((s.advance t).pulseAdopt nf.val inf.val).selectNew nf.val inf.val l).headD (0, 0, 0)).1)))) = .live) | _ => false) | _ => false))
    && (let t : Nat := 0; let nf : Fin 64 := 0; let inf : Fin 256 := 0; let s : State := rdy; (decide (s.chainMode nf.val ≠ 3) || decide ((puInputs ((s.advance t).pulseHead nf.val)) ≤ inf.val) || decide (tget (dconst none) (s.pipeS nf.val).origin inf.val = none)))
    && (let t : Nat := 0; let nf : Fin 64 := 0; let inf : Fin 256 := 0; let s : State := ((((sl 0 2 {}).wrs [(Ob.slotMode 0, 3), (Ob.slotChannelMask 0, 1)]).setDom (Ob.slotGeometry 0) (leBytes 32 (2 ^ 240))).setChan 0 { ring := [{ tag := 100, flags := 0, samples := (List.range 4).map fun i => (100 + i, 0) }], written := 64 }).setPipe 0 { origin := [(0, some (0, 100))], frame := [(0, 1)] }; decide (s.chainMode nf.val = 3) && decide (inf.val < (puInputs ((s.advance t).pulseHead nf.val))) && (match tget (dconst none) (s.pipeS nf.val).origin inf.val with | some o => decide ((s.advance t).measureIn nf.val inf.val o = none) | _ => false))
    && (let t : Nat := 0; let nf : Fin 64 := 0; let inf : Fin 256 := 0; let s : State := ((((sl 0 2 { armed := some 50 }).wrs [(Ob.slotMode 0, 3), (Ob.slotChannelMask 0, 1)]).setDom (Ob.slotGeometry 0) (leBytes 32 (2 ^ 240))).setChan 0 { ring := [{ tag := 100, flags := 0, samples := (List.range 256).map fun i => (100 + i, 0) }], written := 64 }).setPipe 0 { origin := [(0, some (0, 100))], frame := [(0, 1)] }; decide (s.chainMode nf.val = 3) && decide (inf.val < (puInputs ((s.advance t).pulseHead nf.val))) && (match tget (dconst none) (s.pipeS nf.val).origin inf.val with | some o => (match (s.advance t).measureIn nf.val inf.val o with | some l => (decide (((s.advance t).gateOn nf.val inf.val ((l.headD (0, 0, 0)).1) ((s.advance t).inMeasureGap nf.val inf.val ((l.headD (0, 0, 0)).1))) = .wait) || decide ((s.advance t).measureDecided nf.val inf.val = false)) | _ => false) | _ => false))
    && (let t : Nat := 0; let nf : Fin 64 := 0; let inf : Fin 256 := 0; let s : State := ((((sl 0 2 {}).wrs [(Ob.slotMode 0, 3), (Ob.slotChannelMask 0, 1)]).setDom (Ob.slotGeometry 0) (leBytes 32 (2 ^ 240))).setChan 0 { ring := [{ tag := 100, flags := 0, samples := (List.range 256).map fun i => (100 + i, 0) }], written := 64 }).setPipe 0 { origin := [(0, some (0, 100))], frame := [(0, 1)] }; decide (s.chainMode nf.val = 3) && decide (inf.val < (puInputs ((s.advance t).pulseHead nf.val))) && (match tget (dconst none) (s.pipeS nf.val).origin inf.val with | some o => (match (s.advance t).measureIn nf.val inf.val o with | some l => decide ((s.advance t).measureDecided nf.val inf.val = true) && decide (((s.advance t).gateOn nf.val inf.val ((l.headD (0, 0, 0)).1) ((s.advance t).inMeasureGap nf.val inf.val ((l.headD (0, 0, 0)).1))) = .live) | _ => false) | _ => false))
    && (let t : Nat := 0; let nf : Fin 64 := 0; let inf : Fin 256 := 0; let s : State := ((((sl 0 6 {}).wrs [(Ob.slotMode 0, 3), (Ob.slotChannelMask 0, 1)]).setDom (Ob.slotGeometry 0) (leBytes 32 (2 ^ 240))).setChan 0 { ring := [{ tag := 100, flags := 0, samples := (List.range 256).map fun i => (100 + i, 0) }], written := 64 }).setPipe 0 { origin := [(0, some (0, 100))], frame := [(0, 1)] }; decide (s.chainMode nf.val = 3) && decide (inf.val < (puInputs ((s.advance t).pulseHead nf.val))) && (match tget (dconst none) (s.pipeS nf.val).origin inf.val with | some o => (match (s.advance t).measureIn nf.val inf.val o with | some l => decide ((s.advance t).measureDecided nf.val inf.val = true) && (decide (((s.advance t).gateOn nf.val inf.val ((l.headD (0, 0, 0)).1) ((s.advance t).inMeasureGap nf.val inf.val ((l.headD (0, 0, 0)).1))) = .skip) || decide (((s.advance t).gateOn nf.val inf.val ((l.headD (0, 0, 0)).1) ((s.advance t).inMeasureGap nf.val inf.val ((l.headD (0, 0, 0)).1))) = .mute)) | _ => false) | _ => false))
    && (let c : Nat := 64; let s : State := rdy; @decide _ (decReady s) && decide (64 ≤ c))
    && (let c : Nat := 0; let s : State := rdy; @decide _ (decReady s) && decide (c < 64))
    && (let uf : Fin 4 := 0; let s : State := rdy; @decide _ (decReady s) && decide (coefficientsOk ((s.rd (Ob.protoLength uf.val)) % 16 == 0 && decide (16 ≤ (s.rd (Ob.protoLength uf.val))) && decide ((s.rd (Ob.protoLength uf.val)) ≤ 65536)) (s.rd (Ob.protoLength uf.val)) (s.dom (Ob.protoCoefficients uf.val)) = false))
    && (let uf : Fin 4 := 0; let s : State := (rdy.wr (Ob.protoLength 0) 16).setDom (Ob.protoCoefficients 0) ((List.range 16).flatMap fun _ => [1, 0, 0]); @decide _ (decReady s) && decide (coefficientsOk ((s.rd (Ob.protoLength uf.val)) % 16 == 0 && decide (16 ≤ (s.rd (Ob.protoLength uf.val))) && decide ((s.rd (Ob.protoLength uf.val)) ≤ 65536)) (s.rd (Ob.protoLength uf.val)) (s.dom (Ob.protoCoefficients uf.val)) = true))
    && (let s : State := rdy; let uf : Fin 4 := 0; @decide _ (decReady s) && decide (coefficientsOk (isPow2 (s.rd (Ob.uwinLength uf.val)) && decide (256 ≤ (s.rd (Ob.uwinLength uf.val))) && decide ((s.rd (Ob.uwinLength uf.val)) ≤ 65536)) (s.rd (Ob.uwinLength uf.val)) (s.dom (Ob.uwinCoefficients uf.val)) = false))
    && (let s : State := (rdy.wr (Ob.uwinLength 0) 256).setDom (Ob.uwinCoefficients 0) ((List.range 256).flatMap fun _ => [1, 0, 0]); let uf : Fin 4 := 0; @decide _ (decReady s) && decide (coefficientsOk (isPow2 (s.rd (Ob.uwinLength uf.val)) && decide (256 ≤ (s.rd (Ob.uwinLength uf.val))) && decide ((s.rd (Ob.uwinLength uf.val)) ≤ 65536)) (s.rd (Ob.uwinLength uf.val)) (s.dom (Ob.uwinCoefficients uf.val)) = true))) = true := by decide +kernel

/-- The hypotheses of the clauses of JoinLinks are met. -/
theorem wit_join_links : ((let pf : Fin 4 := 0; let s : State := rdy; let s : State := (s).wr (Ob.joinState pf.val) 1; decide ((s.rd (Ob.joinState pf.val)) = 1))
    && (let pf : Fin 4 := 0; let s : State := rdy; decide ((s.rd (Ob.joinState pf.val)) ≠ 1))
    && (let pf : Fin 4 := 0; let foms : List Nat := List.replicate 8 200; let s : State := rdy.wr (Ob.joinState 0) 2; (decide ((s.rd (Ob.joinState pf.val)) = 2) || decide ((s.rd (Ob.joinState pf.val)) = 7)) && decide (((List.range 8).map fun i_ => foms.getD i_ 0 % 256).all (fun f_ => decide (64 ≤ f_)) = true))
    && (let pf : Fin 4 := 0; let foms : List Nat := []; let s : State := rdy; (!((decide ((s.rd (Ob.joinState pf.val)) = 2) || decide ((s.rd (Ob.joinState pf.val)) = 7)) && decide (((List.range 8).map fun i_ => foms.getD i_ 0 % 256).all (fun f_ => decide (64 ≤ f_)) = true))))
    && (let pf : Fin 4 := 0; let s : State := rdy; let s : State := (s).wr (Ob.joinState pf.val) 3; decide ((s.rd (Ob.joinState pf.val)) = 3))
    && (let pf : Fin 4 := 0; let s : State := rdy; decide ((s.rd (Ob.joinState pf.val)) ≠ 3))
    && (let pf : Fin 4 := 0; let s : State := rdy; let s : State := (s).wr (Ob.joinState pf.val) 4; (decide ((s.rd (Ob.joinState pf.val)) = 4) || decide ((s.rd (Ob.joinState pf.val)) = 6)))
    && (let pf : Fin 4 := 0; let s : State := rdy; (!(decide ((s.rd (Ob.joinState pf.val)) = 4) || decide ((s.rd (Ob.joinState pf.val)) = 6))))
    && (let pf : Fin 4 := 0; let s : State := rdy; let s : State := (s).wr (Ob.joinState pf.val) 5; decide ((s.rd (Ob.joinState pf.val)) = 5))
    && (let pf : Fin 4 := 0; let s : State := rdy; decide ((s.rd (Ob.joinState pf.val)) ≠ 5))
    && (let pf : Fin 4 := 0; let s : State := rdy; let s : State := (s).wr (Ob.joinState pf.val) 2; (decide ((s.rd (Ob.joinState pf.val)) = 2) || decide ((s.rd (Ob.joinState pf.val)) = 3) || decide ((s.rd (Ob.joinState pf.val)) = 4) || decide ((s.rd (Ob.joinState pf.val)) = 7)))
    && (let pf : Fin 4 := 0; let s : State := rdy; (!(decide ((s.rd (Ob.joinState pf.val)) = 2) || decide ((s.rd (Ob.joinState pf.val)) = 3) || decide ((s.rd (Ob.joinState pf.val)) = 4) || decide ((s.rd (Ob.joinState pf.val)) = 7))))
    && (let pf : Fin 4 := 0; let s : State := rdy; let s : State := (s).wr (Ob.joinState pf.val) 9; decide ((s.rd (Ob.joinState pf.val)) = 9))
    && (let pf : Fin 4 := 0; let s : State := rdy; decide ((s.rd (Ob.joinState pf.val)) ≠ 9))
    && (let pf : Fin 4 := 0; let s : State := rdy; let s : State := (s).wr (Ob.joinState pf.val) 6; @decide _ (decReady s) && decide ((s.rd (Ob.joinState pf.val)) = 6))
    && (let pf : Fin 4 := 0; let s : State := rdy; @decide _ (decReady s) && decide ((s.rd (Ob.joinState pf.val)) ≠ 6))
    && (let pf : Fin 4 := 0; let s : State := rdy; let s : State := (s).wr (Ob.joinState pf.val) 6; decide ((s.rd (Ob.joinState pf.val)) = 6))
    && (let pf : Fin 4 := 0; let s : State := rdy; decide ((s.rd (Ob.joinState pf.val)) ≠ 6))) = true := by decide +kernel

/-- The hypotheses of the clauses of JoinUpkeep are met. -/
theorem wit_join_upkeep : ((let pf : Fin 4 := 0; let rx : Bool := true; let s : State := rdy; (decide ((s.rd (Ob.joinState pf.val)) ≠ 6) || (decide (rx = false) && (!(decide (s.rd (Ob.joinSleepEnable pf.val) ≠ 0) && decide (s.rd (Ob.joinBulkCharged pf.val) = 0) && decide (s.directionUsed pf.val false = false) && decide ((s.portS pf.val).unacked = []))))))
    && (let pf : Fin 4 := 0; let s : State := rdy; let s : State := (s).wr (Ob.joinState pf.val) 6; decide ((s.rd (Ob.joinState pf.val)) = 6) && decide (s.rd (Ob.joinSleepEnable pf.val) ≠ 0) && decide (s.rd (Ob.joinBulkCharged pf.val) = 0) && decide (s.directionUsed pf.val false = false) && decide ((s.portS pf.val).unacked = []))
    && (let pf : Fin 4 := 0; let s : State := rdy; let s : State := (s).wr (Ob.joinTxSleep pf.val) 2; decide (s.rd (Ob.joinTxSleep pf.val) = 2))
    && (let pf : Fin 4 := 0; let s : State := rdy; decide (s.rd (Ob.joinTxSleep pf.val) ≠ 2))
    && (let pf : Fin 4 := 0; let s : State := rdy; let s : State := (s).wr (Ob.joinBulkCharged pf.val) 1; @decide _ (decReady s) && (!(decide (s.joinUsed pf.val = false) && decide (s.rd (Ob.joinBulkCharged pf.val) = 0))))
    && (let v : Nat := 2; let pf : Fin 4 := 0; let s : State := rdy; @decide _ (decReady s) && decide (s.joinUsed pf.val = false) && decide (s.rd (Ob.joinBulkCharged pf.val) = 0) && decide (2 ≤ v))
    && (let v : Nat := 0; let pf : Fin 4 := 0; let s : State := rdy; @decide _ (decReady s) && decide (s.joinUsed pf.val = false) && decide (s.rd (Ob.joinBulkCharged pf.val) = 0) && decide (v < 2) && decide (v = s.rd (Ob.joinTestMode pf.val)))
    && (let pf : Fin 4 := 0; let s : State := rdy; @decide _ (decReady s) && decide (s.joinUsed pf.val = false) && decide (s.rd (Ob.joinBulkCharged pf.val) = 0) && decide (1 ≠ s.rd (Ob.joinTestMode pf.val)))
    && (let pf : Fin 4 := 0; let s : State := rdy; let s : State := (s).wr (Ob.joinTestMode pf.val) 1; @decide _ (decReady s) && decide (s.joinUsed pf.val = false) && decide (s.rd (Ob.joinBulkCharged pf.val) = 0) && decide (0 ≠ s.rd (Ob.joinTestMode pf.val)))
    && (let pf : Fin 4 := 0; let s : State := rdy; let s : State := (s).wr (Ob.joinState pf.val) 8; decide ((s.rd (Ob.joinState pf.val)) = 8))
    && (let pf : Fin 4 := 0; let s : State := rdy; decide ((s.rd (Ob.joinState pf.val)) ≠ 8))
    && (let s : State := arrS 2 1 2; @decide _ (decReady s) && decide (s.soleRoute = true))
    && (let s : State := rdy; @decide _ (decReady s) && decide (s.soleRoute = false) && decide (((List.range 4).filter fun k_ => s.rd (Ob.joinState k_) == 6) = []))
    && (let s : State := rdy.wr (Ob.joinState 0) 6; @decide _ (decReady s) && decide (s.soleRoute = false) && (match ((List.range 4).filter fun k_ => s.rd (Ob.joinState k_) == 6) with | v :: l => true | _ => false))
    && (let t : Nat := 1000000000000000; let s : State := rdy; decide (s.arr.lossAt + s.second ≤ (s.advance t).now))
    && (let t : Nat := 0; let s : State := rdy; decide ((s.advance t).now < s.arr.lossAt + s.second))) = true := by decide +kernel

/-- The hypotheses of the clauses of ArrayTraffic are met. -/
theorem wit_array_traffic : ((let pf : Fin 4 := 0; let s : State := rdy; decide ((s.rd (Ob.joinState pf.val)) ≠ 6))
    && (let copyA : Nat := 0; let copyB : Nat := 0; let pf : Fin 4 := 0; let s : State := rdy; let s : State := (s).wr (Ob.joinState pf.val) 6; decide ((s.rd (Ob.joinState pf.val)) = 6) && ((decide ((bmsgOk copyA) = false) && decide ((bmsgOk copyB) = false)) || (decide ((bmsgOk copyA) = true) && decide ((bmsgOk copyB) = true) && decide (copyA ≠ copyB))))
    && (let copyA : Nat := bmsg 1 0 1 false 0 0; let copyB : Nat := bmsg 1 0 1 false 0 0; let pf : Fin 4 := 0; let s : State := rdy.wr (Ob.joinState 0) 6; decide ((s.rd (Ob.joinState pf.val)) = 6) && decide ((bmsgOk copyA) = true) && decide ((bmsgOk copyB) = true) && decide (copyA = copyB))
    && (let copyA : Nat := bmsg 1 0 1 false 0 0; let copyB : Nat := bmsg 1 0 1 false 0 0 + 1; let pf : Fin 4 := 0; let s : State := rdy.wr (Ob.joinState 0) 6; decide ((s.rd (Ob.joinState pf.val)) = 6) && decide ((bmsgOk copyA) = true) && decide ((bmsgOk copyB) = false))
    && (let copyA : Nat := bmsg 1 0 1 false 0 0 + 1; let copyB : Nat := bmsg 1 0 1 false 0 0; let pf : Fin 4 := 0; let s : State := rdy.wr (Ob.joinState 0) 6; decide ((s.rd (Ob.joinState pf.val)) = 6) && decide ((bmsgOk copyA) = false) && decide ((bmsgOk copyB) = true))
    && (let t : Nat := 0; let s : State := rdy; (match (s.advance t).takeMsg (fun w_ => bType w_ == 1) with | (none, u) => true | _ => false))
    && (let t : Nat := 0; let s : State := inb (((arrS 2 1 2).setPos 0 { seqs := [(1, some 0)] })) 1 0 (bmsg 1 0 1 false 0 (0)); (match (s.advance t).takeMsg (fun w_ => bType w_ == 1) with | (some m, u) => decide (((u.posS (bOrigin m.2.2)).fresh m.2.2).1 = false) | _ => false))
    && (let t : Nat := 0; let s : State := inb (((arrS 2 1 2).setPos 0 { seqs := [(1, some 0)] })) 1 0 (bmsg 1 0 1 false 1 (0)); (match (s.advance t).takeMsg (fun w_ => bType w_ == 1) with | (some m, u) => decide (((u.posS (bOrigin m.2.2)).fresh m.2.2).1 = true) | _ => false))
    && (let t : Nat := 0; let s : State := rdy; (match (s.advance t).takeMsg (fun w_ => bType w_ == 2) with | (none, u) => true | _ => false))
    && (let t : Nat := 0; let s : State := inb (((arrS 2 1 2).setPos 0 { seqs := [(2, some 0)] })) 1 0 (bmsg 2 0 1 false 0 (0)); (match (s.advance t).takeMsg (fun w_ => bType w_ == 2) with | (some m, u) => decide (((u.posS (bOrigin m.2.2)).fresh m.2.2).1 = false) | _ => false))
    && (let t : Nat := 0; let s : State := inb (((arrS 2 1 2).setPos 0 { seqs := [(2, some 0)] })) 1 0 (bmsg 2 0 1 false 1 (0)); (match (s.advance t).takeMsg (fun w_ => bType w_ == 2) with | (some m, u) => decide (((u.posS (bOrigin m.2.2)).fresh m.2.2).1 = true) | _ => false))
    && (let s : State := rdy; decide (s.inArray = false))
    && (let t : Nat := 0; let s : State := rdy; (match (s.advance t).takeMsg (fun w_ => bType w_ == 3) with | (none, u) => true | _ => false))
    && (let t : Nat := 0; let s : State := inb ((arrS 2 1 1)) 1 0 (bmsg 3 0 1 false 0 (0)); (match (s.advance t).takeMsg (fun w_ => bType w_ == 3) with | (some m, u) => decide ((u.syncHeard (bOrigin m.2.2) m.2.2).parentPort = some m.1) && decide (((u.syncHeard (bOrigin m.2.2) m.2.2).syncAnswer m.1 m.2.1 m.2.2).rd Ob.arrArrayState = 1) | _ => false))
    && (let t : Nat := 0; let s : State := inb ((arrS 2 1 2)) 1 0 (bmsg 3 0 1 false 0 (0)); (match (s.advance t).takeMsg (fun w_ => bType w_ == 3) with | (some m, u) => decide ((u.syncHeard (bOrigin m.2.2) m.2.2).parentPort = some m.1) && decide (((u.syncHeard (bOrigin m.2.2) m.2.2).syncAnswer m.1 m.2.1 m.2.2).rd Ob.arrArrayState ≠ 1) | _ => false))
    && (let t : Nat := 0; let s : State := inb ((arrS 2 1 2)) 0 0 (bmsg 3 0 1 false 0 (0)); (match (s.advance t).takeMsg (fun w_ => bType w_ == 3) with | (some m, u) => decide ((u.syncHeard (bOrigin m.2.2) m.2.2).parentPort ≠ some m.1) && (!(decide ((u.syncHeard (bOrigin m.2.2) m.2.2).childPort m.1 = true) && decide ((u.syncHeard (bOrigin m.2.2) m.2.2).devNow - m.2.1 < 2 ^ 24) && decide ((u.syncHeard (bOrigin m.2.2) m.2.2).rd (Ob.joinState m.1) = 6))) | _ => false))
    && (let t : Nat := 0; let s : State := inb (((arrS 2 0 1).wr (Ob.joinState 0) 6)) 0 0 (bmsg 3 1 0 false 0 (0)); (match (s.advance t).takeMsg (fun w_ => bType w_ == 3) with | (some m, u) => decide ((u.syncHeard (bOrigin m.2.2) m.2.2).parentPort ≠ some m.1) && decide ((u.syncHeard (bOrigin m.2.2) m.2.2).childPort m.1 = true) && decide ((u.syncHeard (bOrigin m.2.2) m.2.2).devNow - m.2.1 < 2 ^ 24) && decide ((u.syncHeard (bOrigin m.2.2) m.2.2).rd (Ob.joinState m.1) = 6) && decide (((u.syncHeard (bOrigin m.2.2) m.2.2).answerChild m.1 (bOrigin m.2.2) m.2.2 ((u.syncHeard (bOrigin m.2.2) m.2.2).devNow - m.2.1)).rd Ob.arrArrayState = 1) | _ => false))
    && (let t : Nat := 0; let s : State := inb (((arrS 2 0 2).wr (Ob.joinState 0) 6)) 0 0 (bmsg 3 1 0 false 0 (0)); (match (s.advance t).takeMsg (fun w_ => bType w_ == 3) with | (some m, u) => decide ((u.syncHeard (bOrigin m.2.2) m.2.2).parentPort ≠ some m.1) && decide ((u.syncHeard (bOrigin m.2.2) m.2.2).childPort m.1 = true) && decide ((u.syncHeard (bOrigin m.2.2) m.2.2).devNow - m.2.1 < 2 ^ 24) && decide ((u.syncHeard (bOrigin m.2.2) m.2.2).rd (Ob.joinState m.1) = 6) && decide (((u.syncHeard (bOrigin m.2.2) m.2.2).answerChild m.1 (bOrigin m.2.2) m.2.2 ((u.syncHeard (bOrigin m.2.2) m.2.2).devNow - m.2.1)).rd Ob.arrArrayState ≠ 1) && decide (((u.syncHeard (bOrigin m.2.2) m.2.2).answerChild m.1 (bOrigin m.2.2) m.2.2 ((u.syncHeard (bOrigin m.2.2) m.2.2).devNow - m.2.1)).parentPort = none) | _ => false))
    && (let t : Nat := 0; let s : State := inb (((arrS 4 1 2).wr (Ob.joinState 0) 6)) 0 0 (bmsg 3 2 1 false 0 (0)); (match (s.advance t).takeMsg (fun w_ => bType w_ == 3) with | (some m, u) => decide ((u.syncHeard (bOrigin m.2.2) m.2.2).parentPort ≠ some m.1) && decide ((u.syncHeard (bOrigin m.2.2) m.2.2).childPort m.1 = true) && decide ((u.syncHeard (bOrigin m.2.2) m.2.2).devNow - m.2.1 < 2 ^ 24) && decide ((u.syncHeard (bOrigin m.2.2) m.2.2).rd (Ob.joinState m.1) = 6) && decide (((u.syncHeard (bOrigin m.2.2) m.2.2).answerChild m.1 (bOrigin m.2.2) m.2.2 ((u.syncHeard (bOrigin m.2.2) m.2.2).devNow - m.2.1)).rd Ob.arrArrayState ≠ 1) && decide (((u.syncHeard (bOrigin m.2.2) m.2.2).answerChild m.1 (bOrigin m.2.2) m.2.2 ((u.syncHeard (bOrigin m.2.2) m.2.2).devNow - m.2.1)).parentPort ≠ none) | _ => false))
    && (let pf : Fin 4 := 0; let s : State := arrS 2 0 2; decide (s.parentPort = none))
    && (let pf : Fin 4 := 1; let s : State := (arrS 2 1 2).wr (Ob.joinState 1) 6; decide (s.parentPort = some pf.val) && (match s.partner pf.val with | some q => decide ((s.rd (Ob.joinState pf.val)) = 6) && decide (s.counts = true) | _ => false))
    && (let posF : Fin 8 := 0; let s : State := arrS 2 1 2; decide (s.inArray = true) && decide (posF.val < cfgCount s.arr.config) && decide (s.rd Ob.arrArrayState ≠ 1))
    && (let posF : Fin 8 := 0; let s : State := rdy; (decide (s.inArray = false) || decide (cfgCount s.arr.config ≤ posF.val) || decide (s.rd Ob.arrArrayState = 1)))) = true := by decide +kernel

/-- The hypotheses of the clauses of ArrayForming are met. -/
theorem wit_array_forming : ((let b : List (BitVec 8) := (List.replicate 1 (0 : BitVec 8)); let s : State := rdy; @decide _ (decReady s) && (decide (b.length % 4 ≠ 0) || decide (256 < b.length)))
    && (let b : List (BitVec 8) := (List.replicate 256 (0 : BitVec 8)); let s : State := rdy; @decide _ (decReady s) && decide (b.length % 4 = 0) && decide (b.length ≤ 256) && decide ((((importList b).any fun e_ => (s.lineS e_.1).cls == 1 || (s.lineS e_.1).cls == 2) || !decide ((importList b).map fun e_ => e_.1).Nodup) = true))
    && (let t : Nat := 0; let b : List (BitVec 8) := [1, 0, 0, 0]; let s : State := rdyC; @decide _ (decReady s) && decide (b.length % 4 = 0) && decide (b.length ≤ 256) && decide ((((importList b).any fun e_ => (s.lineS e_.1).cls == 1 || (s.lineS e_.1).cls == 2) || !decide ((importList b).map fun e_ => e_.1).Nodup) = false) && (decide ((((List.range (importList b).length).any fun i_ => leAt b (4 * i_) 1 != 0) || (importList b).any fun e_ => decide (8 ≤ e_.2.1)) = true) || decide (((s.advance t).importsSet b).exportBreak ≠ none)))
    && (let t : Nat := 0; let b : List (BitVec 8) := [0, 0, 0, 0]; let s : State := rdyC.wrs [(Ob.primEnable, 1), (Ob.primDelayD, 0)]; @decide _ (decReady s) && decide (b.length % 4 = 0) && decide (b.length ≤ 256) && decide ((((importList b).any fun e_ => (s.lineS e_.1).cls == 1 || (s.lineS e_.1).cls == 2) || !decide ((importList b).map fun e_ => e_.1).Nodup) = false) && decide ((((List.range (importList b).length).any fun i_ => leAt b (4 * i_) 1 != 0) || (importList b).any fun e_ => decide (8 ≤ e_.2.1)) = false) && decide (((s.advance t).importsSet b).exportBreak = none) && decide (((s.advance t).importsSet b).fabricBroken = true))
    && (let t : Nat := 0; let b : List (BitVec 8) := []; let s : State := rdy; @decide _ (decReady s) && decide (b.length % 4 = 0) && decide (b.length ≤ 256) && decide ((((importList b).any fun e_ => (s.lineS e_.1).cls == 1 || (s.lineS e_.1).cls == 2) || !decide ((importList b).map fun e_ => e_.1).Nodup) = false) && decide ((((List.range (importList b).length).any fun i_ => leAt b (4 * i_) 1 != 0) || (importList b).any fun e_ => decide (8 ≤ e_.2.1)) = false) && decide (((s.advance t).importsSet b).exportBreak = none) && decide (((s.advance t).importsSet b).fabricBroken = false))
    && (let s : State := rdy; let s : State := (s).wr (Ob.slotState 0) 2; @decide _ (decReady s) && (!(decide (s.anyAdmitted = false) && decide (s.anyTdc = false) && decide (s.imports = []) && decide (s.stepForbiddenBase = false))))
    && (let ft : Nat := 0; let s : State := rdy; @decide _ (decReady s) && decide (s.anyAdmitted = false) && decide (s.anyTdc = false) && decide (s.imports = []) && decide (s.stepForbiddenBase = false) && (decide (ft = false) || decide (s.arrayOk (s.dom Ob.arrArrayConfig) (s.rd Ob.arrPosition) = false)))) = true := by decide +kernel

/-- The hypotheses of the clauses of SlotAdmission are met. -/
theorem wit_slot_admission : ((let nf : Fin 64 := 0; let s : State := rdy; let s : State := { (s) with power := { (s).power with stopEntry := some { cause := 1, at0 := 0, down := false } } }; @decide _ (decReady s) && (decide (s.stopping = true) || decide (2 ≤ (s.rd (Ob.slotState nf.val)))))
    && (let nf : Fin 64 := 0; let s : State := rdy; @decide _ (decReady s) && decide (s.stopping = false) && decide ((s.rd (Ob.slotState nf.val)) = 0))
    && (let t : Nat := 0; let nf : Fin 64 := 0; let drive : List (Nat × Nat × Bool) := []; let s : State := rdy; let s : State := (s).wr (Ob.slotState nf.val) 1; @decide _ (decReady s) && decide (s.stopping = false) && decide ((s.rd (Ob.slotState nf.val)) = 1) && (match (s.advance t).decideAdmission nf.val drive with | .error r => true | _ => false))
    && (let t : Nat := 0; let nf : Fin 64 := 0; let drive : List (Nat × Nat × Bool) := []; let s : State := ({ adm with power := { adm.power with coeff := (List.range 15).map fun i => (i, some 0) } } : State).wrs [(Ob.slotChannelMask 0, 0), (Ob.slotChannelMask 1, 0)]; @decide _ (decReady s) && decide (s.stopping = false) && decide ((s.rd (Ob.slotState nf.val)) = 1) && (match (s.advance t).decideAdmission nf.val drive with | .ok (g, gap) => true | _ => false))
    && (let c : Nat := 64; let s : State := rdy; @decide _ (decReady s) && decide (64 ≤ c))
    && (let c : Nat := 0; let s : State := rdy; @decide _ (decReady s) && decide (c < 64) && decide (s.rd (Ob.slotState c) = 0))
    && (let t : Nat := 0; let c : Nat := 0; let drive : List (Nat × Nat × Bool) := []; let s : State := rdy; let s : State := (s).wr (Ob.slotState c) 1; @decide _ (decReady s) && decide (c < 64) && decide (s.rd (Ob.slotState c) ≠ 0) && (match (s.advance t).decideAdmission c drive with | .error r => true | _ => false))
    && (let t : Nat := 0; let c : Nat := 0; let drive : List (Nat × Nat × Bool) := []; let s : State := ({ adm with power := { adm.power with coeff := (List.range 15).map fun i => (i, some 0) } } : State).wrs [(Ob.slotChannelMask 0, 0), (Ob.slotChannelMask 1, 0)]; @decide _ (decReady s) && decide (c < 64) && decide (s.rd (Ob.slotState c) ≠ 0) && (match (s.advance t).decideAdmission c drive with | .ok (g, gap) => true | _ => false))) = true := by decide +kernel

/-- The hypotheses of the clauses of ContractsAndCommits are met. -/
theorem wit_contracts_and_commits : ((let nf : Fin 64 := 0; let s : State := sl 0 2 { armed := some 5 }; @decide _ (decReady s) && decide ((s.slot nf.val).holds = true))
    && (let t : Nat := 0; let tc : Nat := 0; let T : Nat := 0; let nf : Fin 64 := 0; let s : State := rdyC; @decide _ (decReady s) && decide ((s.slot nf.val).holds = false) && (match (((s.advance t).taken 1).commitDecision nf.val (if tc = 0 then 0 else (s.advance t).unstamp tc) ((s.advance t).devNow + (s.advance t).nth 70 0 % ((s.advance t).us 2000 + 1)) ((s.advance t).us 100)) with | .ok (1, _) => false | _ => true))
    && (let nf : Fin 64 := 0; let s : State := rdy; let s : State := (s).wr (Ob.slotState nf.val) 3; @decide _ (decReady s) && decide ((s.rd (Ob.slotState nf.val)) = 3) && decide ((s.slot nf.val).switchAt = none))
    && (let nf : Fin 64 := 0; let s : State := sl 0 3 { replacing := some 1, switchAt := some 4 }; @decide _ (decReady s) && decide ((s.rd (Ob.slotState nf.val)) = 3) && decide ((s.slot nf.val).switchAt ≠ none))
    && (let nf : Fin 64 := 0; let s : State := sl 0 2 { armed := some 5 }; @decide _ (decReady s) && decide ((s.rd (Ob.slotState nf.val)) ≠ 3) && decide ((s.slot nf.val).holds = true))
    && (let nf : Fin 64 := 0; let s : State := rdy; @decide _ (decReady s) && decide ((s.rd (Ob.slotState nf.val)) ≠ 3) && decide ((s.slot nf.val).holds = false))
    && (let t : Nat := 0; let T : Nat := 0; let nf : Fin 64 := 0; let s : State := rdy; (decide ((s.slot nf.val).armed = none) || decide ((s.slot nf.val).bankLoaded = true) || decide ((s.slot nf.val).awaitConfirm = true) || decide ((s.rd (Ob.slotState nf.val)) ≠ 2) || (match (s.slot nf.val).armed with | some T => decide ((s.advance t).devNow + (s.advance t).us 50 < T) | _ => false)))
    && (let t : Nat := 0; let nf : Fin 64 := 0; let s : State := sl 0 2 { armed := some 5 }; (match (s.slot nf.val).armed with | some T => decide ((s.slot nf.val).bankLoaded = false) && decide ((s.slot nf.val).awaitConfirm = false) && decide ((s.rd (Ob.slotState nf.val)) = 2) && decide (T ≤ (s.advance t).devNow + (s.advance t).us 50) | _ => false))
    && (let t : Nat := 0; let T : Nat := 0; let nf : Fin 64 := 0; let s : State := rdy; (decide ((s.slot nf.val).armed = none) || decide ((s.slot nf.val).bankLoaded = false) || decide ((s.rd (Ob.slotState nf.val)) ≠ 2) || (match (s.slot nf.val).armed with | some T => (decide ((s.advance t).finished nf.val T = false) || decide ((s.advance t).unitsReached nf.val T = false)) | _ => false)))
    && (let t : Nat := 1000000000000000000; let nf : Fin 64 := 0; let s : State := sl 0 2 { armed := some 5, bankLoaded := true }; (match (s.slot nf.val).armed with | some T => decide ((s.slot nf.val).bankLoaded = true) && decide ((s.rd (Ob.slotState nf.val)) = 2) && decide ((s.advance t).finished nf.val T = true) && decide ((s.advance t).unitsReached nf.val T = true) | _ => false))) = true := by decide +kernel

/-- The hypotheses of the clauses of WithdrawalAndReplacement are met. -/
theorem wit_withdrawal_and_replacement : ((let nf : Fin 64 := 0; let s : State := rdy; @decide _ (decReady s) && (decide ((s.rd (Ob.slotState nf.val)) < 2) || decide ((s.rd (Ob.slotState nf.val)) = 4) || decide ((s.rd (Ob.slotState nf.val)) = 5) || decide (7 ≤ (s.rd (Ob.slotState nf.val))) || (decide ((s.rd (Ob.slotState nf.val)) = 3) && decide ((s.slot nf.val).switchAt ≠ none)) || ((decide ((s.rd (Ob.slotState nf.val)) = 2) || decide ((s.rd (Ob.slotState nf.val)) = 6)) && decide (s.feedsPulse nf.val = true))))
    && (let nf : Fin 64 := 0; let s : State := rdy; let s : State := (s).wr (Ob.slotState nf.val) 2; @decide _ (decReady s) && decide ((s.rd (Ob.slotState nf.val)) = 2) && decide (s.feedsPulse nf.val = false))
    && (let nf : Fin 64 := 0; let s : State := rdy; let s : State := (s).wr (Ob.slotState nf.val) 3; @decide _ (decReady s) && decide ((s.rd (Ob.slotState nf.val)) = 3) && decide ((s.slot nf.val).switchAt = none))
    && (let nf : Fin 64 := 0; let s : State := rdy; let s : State := (s).wr (Ob.slotState nf.val) 6; @decide _ (decReady s) && decide ((s.rd (Ob.slotState nf.val)) = 6) && decide (s.feedsPulse nf.val = false))
    && (let t : Nat := 0; let T : Nat := 0; let nf : Fin 64 := 0; let s : State := rdy; (decide ((s.slot nf.val).withdrawAt = none) || decide ((s.rd (Ob.slotState nf.val)) ≠ 5) || (match (s.slot nf.val).withdrawAt with | some T => decide ((s.advance t).finished nf.val T = false) | _ => false)))
    && (let t : Nat := 1000000000000000000; let nf : Fin 64 := 0; let s : State := sl 0 5 { withdrawAt := some 5, replacing := some 1 }; (match (s.slot nf.val).withdrawAt with | some T => decide ((s.rd (Ob.slotState nf.val)) = 5) && decide ((s.advance t).finished nf.val T = true) && (decide (((s.advance t).lastOutputs nf.val T).caughtUp nf.val = false) || decide ((((s.advance t).lastOutputs nf.val T).slot nf.val).replacing ≠ none)) | _ => false))
    && (let t : Nat := 1000000000000000000; let nf : Fin 64 := 0; let s : State := sl 0 5 { withdrawAt := some 5 }; (match (s.slot nf.val).withdrawAt with | some T => decide ((s.rd (Ob.slotState nf.val)) = 5) && decide ((s.advance t).finished nf.val T = true) && decide (((s.advance t).lastOutputs nf.val T).caughtUp nf.val = true) && decide ((((s.advance t).lastOutputs nf.val T).slot nf.val).replacing = none) | _ => false))
    && (let t : Nat := 0; let T : Nat := 0; let nf : Fin 64 := 0; let s : State := rdy; (decide ((s.slot nf.val).armed = none) || decide ((s.slot nf.val).replacing = none) || decide ((s.slot nf.val).awaitConfirm = true) || decide ((s.rd (Ob.slotState nf.val)) ≠ 3) || (match (s.slot nf.val).armed with | some T => decide ((s.advance t).devNow < T) | _ => false)))
    && (let t : Nat := 1000000000000000000; let nf : Fin 64 := 0; let s : State := sl 0 3 { replacing := some 1, armed := some 5 }; (match (s.slot nf.val).armed with | some T => (match (s.slot nf.val).replacing with | some o => decide ((s.slot nf.val).awaitConfirm = false) && decide ((s.rd (Ob.slotState nf.val)) = 3) && decide (T ≤ (s.advance t).devNow) | _ => false) | _ => false))
    && (let t : Nat := 0; let T : Nat := 0; let nf : Fin 64 := 0; let s : State := rdy; (decide ((s.slot nf.val).switchAt = none) || decide ((s.slot nf.val).replacedBy = none) || decide ((s.rd (Ob.slotState nf.val)) ≠ 4) || (match (s.slot nf.val).switchAt with | some T => decide ((s.advance t).finished nf.val T = false) | _ => false)))
    && (let t : Nat := 1000000000000000000; let nf : Fin 64 := 0; let s : State := (sl 0 4 { switchAt := some 5, replacedBy := some 1 }).wrs [(Ob.slotState 1, 3), (Ob.slotChannelMask 1, 1), (Ob.slotMode 1, 1), (Ob.slotMode 0, 1), (Ob.slotChannelMask 0, 0)] |>.setPipe 1 { origin := [(0, some (0, 0))] }; (match (s.slot nf.val).switchAt with | some T => (match (s.slot nf.val).replacedBy with | some m => decide ((s.rd (Ob.slotState nf.val)) = 4) && decide ((s.advance t).finished nf.val T = true) && decide ((s.slot m).gap = false) && decide (s.rd (Ob.slotState m) = 3) && decide ((s.advance t).framesPast m T = false) | _ => false) | _ => false))
    && (let t : Nat := 1000000000000000000; let nf : Fin 64 := 0; let s : State := (sl 0 4 { switchAt := some 5, replacedBy := some 1 }).wrs [(Ob.slotState 1, 2)]; (match (s.slot nf.val).switchAt with | some T => (match (s.slot nf.val).replacedBy with | some m => decide ((s.rd (Ob.slotState nf.val)) = 4) && decide ((s.advance t).finished nf.val T = true) && (decide ((s.slot m).gap = true) || decide (s.rd (Ob.slotState m) ≠ 3) || decide ((s.advance t).framesPast m T = true)) | _ => false) | _ => false))
    && (let t : Nat := 0; let T : Nat := 0; let nf : Fin 64 := 0; let s : State := rdy; (decide ((s.slot nf.val).gapTo = none) || decide ((s.rd (Ob.slotState nf.val)) ≠ 6) || (match (s.slot nf.val).gapTo with | some T => (decide ((s.advance t).devNow < T) || decide ((s.advance t).framesPast nf.val T = false)) | _ => false)))
    && (let t : Nat := 1000000000000000000; let nf : Fin 64 := 0; let s : State := sl 0 6 { gapTo := some 5 }; (match (s.slot nf.val).gapTo with | some T => decide ((s.rd (Ob.slotState nf.val)) = 6) && decide (T ≤ (s.advance t).devNow) && decide ((s.advance t).framesPast nf.val T = true) | _ => false))) = true := by decide +kernel

/-- The hypotheses of the clauses of ArrayCommits are met. -/
theorem wit_array_commits : ((let slots : Nat := 1; let n : Nat := 0; let others : List (Nat × Nat) := []; let s : State := sl 0 2 { armed := some 5 }; @decide _ (decReady s) && ((((slotsIn slots)).any fun n => decide ((s.slot n).holds = true)) || (decide ((others.filter fun o_ => o_.1 != s.arr.pos) ≠ []) && (decide (s.isLead = false) || decide (s.arr.commit ≠ none)))))
    && (let t : Nat := 0; let tc : Nat := 2 ^ 127; let slots : Nat := 0; let n : Nat := 0; let others : List (Nat × Nat) := [(1, 1)]; let s : State := arrS 2 0 2; @decide _ (decReady s) && (!(((slotsIn slots)).any fun n => decide ((s.slot n).holds = true))) && decide ((others.filter fun o_ => o_.1 != s.arr.pos) ≠ []) && (!(decide (s.isLead = false) || decide (s.arr.commit ≠ none))) && decide ((if tc = 0 then 0 else (s.advance t).unstamp tc) ≠ 0) && decide ((s.advance t).devNow + 32767 * (s.advance t).second < (if tc = 0 then 0 else (s.advance t).unstamp tc)))
    && (let t : Nat := 0; let tc : Nat := 0; let slots : Nat := 1; let n : Nat := 0; let others : List (Nat × Nat) := [(1, 1)]; let d : Except Refusal4x (Nat × Nat) := .ok (4, 0); let s : State := arrS 2 0 2; @decide _ (decReady s) && (!(((slotsIn slots)).any fun n => decide ((s.slot n).holds = true))) && (decide ((others.filter fun o_ => o_.1 != s.arr.pos) = []) || ((!(decide (s.isLead = false) || decide (s.arr.commit ≠ none))) && (!(decide ((if tc = 0 then 0 else (s.advance t).unstamp tc) ≠ 0) && decide ((s.advance t).devNow + 32767 * (s.advance t).second < (if tc = 0 then 0 else (s.advance t).unstamp tc)))))) && decide (((s.advance t).taken 1).groupDecision (slotsIn slots) (if tc = 0 then 0 else (s.advance t).unstamp tc) ((s.advance t).devNow + (s.advance t).nth 71 0 % ((s.advance t).us 2000 + 1)) (if (others.filter fun o_ => o_.1 != s.arr.pos).isEmpty then (s.advance t).us 100 else (s.advance t).us 1000) = .error (n, d)))
    && (let t : Nat := 0; let tc : Nat := 0; let slots : Nat := 0; let n : Nat := 0; let others : List (Nat × Nat) := []; let s : State := rdy; @decide _ (decReady s) && (!(((slotsIn slots)).any fun n => decide ((s.slot n).holds = true))) && (decide ((others.filter fun o_ => o_.1 != s.arr.pos) = []) || ((!(decide (s.isLead = false) || decide (s.arr.commit ≠ none))) && (!(decide ((if tc = 0 then 0 else (s.advance t).unstamp tc) ≠ 0) && decide ((s.advance t).devNow + 32767 * (s.advance t).second < (if tc = 0 then 0 else (s.advance t).unstamp tc)))))) && (match ((s.advance t).taken 1).groupDecision (slotsIn slots) (if tc = 0 then 0 else (s.advance t).unstamp tc) ((s.advance t).devNow + (s.advance t).nth 71 0 % ((s.advance t).us 2000 + 1)) (if (others.filter fun o_ => o_.1 != s.arr.pos).isEmpty then (s.advance t).us 100 else (s.advance t).us 1000) with | .ok v => decide ((others.filter fun o_ => o_.1 != s.arr.pos) = []) | _ => false))
    && (let t : Nat := 0; let tc : Nat := 0; let slots : Nat := 8; let n : Nat := 0; let others : List (Nat × Nat) := [(1, 1)]; let s : State := (({ arrS 2 0 2 with slots := (sl 3 3 { replacing := some 4 }).slots } : State).wr (Ob.slotState 3) 3); @decide _ (decReady s) && (!(((slotsIn slots)).any fun n => decide ((s.slot n).holds = true))) && (decide ((others.filter fun o_ => o_.1 != s.arr.pos) = []) || ((!(decide (s.isLead = false) || decide (s.arr.commit ≠ none))) && (!(decide ((if tc = 0 then 0 else (s.advance t).unstamp tc) ≠ 0) && decide ((s.advance t).devNow + 32767 * (s.advance t).second < (if tc = 0 then 0 else (s.advance t).unstamp tc)))))) && (match ((s.advance t).taken 1).groupDecision (slotsIn slots) (if tc = 0 then 0 else (s.advance t).unstamp tc) ((s.advance t).devNow + (s.advance t).nth 71 0 % ((s.advance t).us 2000 + 1)) (if (others.filter fun o_ => o_.1 != s.arr.pos).isEmpty then (s.advance t).us 100 else (s.advance t).us 1000) with | .ok v => decide ((others.filter fun o_ => o_.1 != s.arr.pos) ≠ []) | _ => false))
    && (let t : Nat := 0; let s : State := rdy; (match (s.advance t).takeSluice 1 with | (none, u) => true | _ => false))
    && (let t : Nat := 0; let slots : Nat := 8; let s : State := inb ((arrS 2 1 2)) 1 0 (bmsg 4 0 1 false 0 (1 * 2 ^ 89 + 0 * 2 ^ 81 + 0 * 2 ^ 65 + 0 * 2 ^ 25)); (match (s.advance t).takeSluice 1 with | (some w, u) => (match ((u.taken 1).groupDecision (slotsIn slots) (u.sluiceTime w) (u.devNow + u.nth 407 0 % (u.us 2000 + 1)) ((u.taken 1).us 100)) with | .error (n, d) => true | _ => false) | _ => false))
    && (let t : Nat := 0; let slots : Nat := 8; let s : State := inb ((({ arrS 2 1 2 with slots := (sl 3 3 { replacing := some 4, withheld := some 5 }).slots } : State).wr (Ob.slotState 3) 3)) 1 0 (bmsg 4 0 1 false 0 (1 * 2 ^ 89 + 0 * 2 ^ 25)); (match (s.advance t).takeSluice 1 with | (some w, u) => (match ((u.taken 1).groupDecision (slotsIn slots) (u.sluiceTime w) (u.devNow + u.nth 407 0 % (u.us 2000 + 1)) ((u.taken 1).us 100)) with | .ok v => decide ((((slotsIn slots).any fun n_ => ((u.taken 1).slot n_).holds) || (u.taken 1).arrayBusy) = true) | _ => false) | _ => false))
    && (let t : Nat := 0; let s : State := rdy; (match (s.advance t).takeSluice 2 with | (none, u) => true | _ => false))
    && (let t : Nat := 0; let s : State := inb ((arrS 2 1 2)) 1 0 (bmsg 4 0 1 false 0 (2 * 2 ^ 89 + 0 * 2 ^ 81 + 0 * 2 ^ 65 + 0 * 2 ^ 25)); (match (s.advance t).takeSluice 2 with | (some w, u) => true | _ => false))
    && (let t : Nat := 0; let s : State := rdy; (match (s.advance t).takeSluice 3 with | (none, u) => true | _ => false))
    && (let t : Nat := 0; let s : State := inb ((arrS 2 1 2)) 1 0 (bmsg 4 0 1 false 0 (3 * 2 ^ 89 + 0 * 2 ^ 81 + 0 * 2 ^ 65 + 0 * 2 ^ 25)); (match (s.advance t).takeSluice 3 with | (some w, u) => true | _ => false))
    && (let s : State := rdy; decide (s.arr.commit = none))
    && (let t : Nat := 0; let s : State := rdy; let s : State := { (s) with arr := { (s).arr with commit := (some ({ ident := 0, tc := 0, slots := 0 } : ArrCommit)) } }; (match s.arr.commit with | some c => (decide (s.isLead = false) || decide (c.decided = true) || decide ((s.advance t).devNow + (s.advance t).us 400 < c.tc)) | _ => false))
    && (let t : Nat := 0; let s : State := { (arrS 2 0 2 : State) with arr := { (arrS 2 0 2 : State).arr with commit := some { ident := 0, tc := 0, slots := 0 } } }; (match s.arr.commit with | some c => decide (s.isLead = true) && decide (c.decided = false) && decide (c.tc ≤ (s.advance t).devNow + (s.advance t).us 400) && decide (c.failing = none) | _ => false))
    && (let t : Nat := 0; let s : State := { (arrS 2 0 2 : State) with arr := { (arrS 2 0 2 : State).arr with commit := some { ident := 0, tc := 0, slots := 0, members := [(1, 1)], answers := [(1, 0x44)] } } }; (match s.arr.commit with | some c => decide (s.isLead = true) && decide (c.decided = false) && decide (c.tc ≤ (s.advance t).devNow + (s.advance t).us 400) && (match c.failing with | some code => true | _ => false) | _ => false))
    && (let t : Nat := 0; let s : State := { (arrS 2 0 2 : State) with arr := { (arrS 2 0 2 : State).arr with commit := some { ident := 0, tc := 0, slots := 0, confirmed := true } } }; (match s.arr.commit with | some c => (decide (c.confirmed = true) || decide ((s.advance t).devNow + (s.advance t).us 200 < c.tc)) | _ => false))
    && (let t : Nat := 0; let s : State := rdy; let s : State := { (s) with arr := { (s).arr with commit := (some ({ ident := 0, tc := 0, slots := 0 } : ArrCommit)) } }; (match s.arr.commit with | some c => decide (c.confirmed = false) && decide (c.tc ≤ (s.advance t).devNow + (s.advance t).us 200) | _ => false))
    && (let t : Nat := 1000000000000000000; let s : State := { (arrS 2 0 2 : State) with arr := { (arrS 2 0 2 : State).arr with commit := some { ident := 0, tc := 0, slots := 0, confirmed := true } } }; (match s.arr.commit with | some c => decide (s.isLead = true) && decide (c.confirmed = true) && decide (c.tc + (s.advance t).us 1000 ≤ (s.advance t).devNow) | _ => false))
    && (let t : Nat := 0; let s : State := rdy; let s : State := { (s) with arr := { (s).arr with commit := (some ({ ident := 0, tc := 0, slots := 0 } : ArrCommit)) } }; (match s.arr.commit with | some c => (decide (s.isLead = false) || decide (c.confirmed = false) || decide ((s.advance t).devNow < c.tc + (s.advance t).us 1000)) | _ => false))
    && (let t : Nat := 0; let s : State := { (inb ((arrS 2 1 2)) 1 0 (bmsg 4 0 1 false 0 (4 * 2 ^ 89 + 7 * 2 ^ 81 + 0 * 2 ^ 65 + 0 * 2 ^ 25)) : State) with arr := { (inb ((arrS 2 1 2)) 1 0 (bmsg 4 0 1 false 0 (4 * 2 ^ 89 + 7 * 2 ^ 81 + 0 * 2 ^ 65 + 0 * 2 ^ 25)) : State).arr with commit := some { ident := 7, tc := 0, slots := 0 } } }; (match (s.advance t).takeSluice 4 with | (some w, u) => (match u.arr.commit with | some c => decide (c.ident = sluiceId w) | _ => false) | _ => false))
    && (let t : Nat := 0; let s : State := { (inb ((arrS 2 1 2)) 1 0 (bmsg 4 0 1 false 0 (5 * 2 ^ 89 + 7 * 2 ^ 81 + 0 * 2 ^ 65 + 0 * 2 ^ 25)) : State) with arr := { (inb ((arrS 2 1 2)) 1 0 (bmsg 4 0 1 false 0 (5 * 2 ^ 89 + 7 * 2 ^ 81 + 0 * 2 ^ 65 + 0 * 2 ^ 25)) : State).arr with commit := some { ident := 7, tc := 0, slots := 0 } } }; (match (s.advance t).takeSluice 5 with | (some w, u) => (match u.arr.commit with | some c => decide (c.ident = sluiceId w) | _ => false) | _ => false))
    && (let t : Nat := 0; let s : State := { (inb ((arrS 2 0 2)) 1 0 (bmsg 4 1 0 false 0 (6 * 2 ^ 89 + 7 * 2 ^ 81 + 0 * 2 ^ 65 + 0 * 2 ^ 25)) : State) with arr := { (inb ((arrS 2 0 2)) 1 0 (bmsg 4 1 0 false 0 (6 * 2 ^ 89 + 7 * 2 ^ 81 + 0 * 2 ^ 65 + 0 * 2 ^ 25)) : State).arr with commit := some { ident := 7, tc := 0, slots := 0 } } }; (match (s.advance t).takeSluice 6 with | (some w, u) => (match u.arr.commit with | some c => decide (c.ident = sluiceId w) && decide (u.isLead = true) | _ => false) | _ => false))
    && (let t : Nat := 0; let w : Nat := 0; let c : ArrCommit := ({ tc := 0, slots := 0, ident := 0 } : ArrCommit); let s : State := rdy; (let u := ((s.advance t).takeSluice 4).2; (decide (((s.advance t).takeSluice 4).1 = none) || decide (u.arr.commit = none) || (decide (u.arr.commit = some c) && decide (((s.advance t).takeSluice 4).1 = some w) && decide (c.ident ≠ sluiceId w)))))
    && (let t : Nat := 0; let w : Nat := 0; let c : ArrCommit := ({ tc := 0, slots := 0, ident := 0 } : ArrCommit); let s : State := rdy; (let u := ((s.advance t).takeSluice 5).2; (decide (((s.advance t).takeSluice 5).1 = none) || decide (u.arr.commit = none) || (decide (u.arr.commit = some c) && decide (((s.advance t).takeSluice 5).1 = some w) && decide (c.ident ≠ sluiceId w)))))
    && (let t : Nat := 0; let w : Nat := 0; let c : ArrCommit := ({ tc := 0, slots := 0, ident := 0 } : ArrCommit); let s : State := rdy; (let u := ((s.advance t).takeSluice 6).2; (decide (((s.advance t).takeSluice 6).1 = none) || decide (u.arr.commit = none) || decide (u.isLead = false) || (decide (u.arr.commit = some c) && decide (((s.advance t).takeSluice 6).1 = some w) && decide (c.ident ≠ sluiceId w)))))) = true := by decide +kernel

/-- The hypotheses of the clauses of DictionaryWrites are met. -/
theorem wit_dictionary_writes : ((let k : Nat := 0; let s : State := rdy; @decide _ (decReady s) && decide (k ≠ Ob.devEnvelope) && decide (objRow k = none) && decide (indexExists (k / 256) = false))
    && (let k : Nat := 0x200000; let s : State := rdy; @decide _ (decReady s) && decide (k ≠ Ob.devEnvelope) && decide (objRow k = none) && decide (indexExists (k / 256) = true) && decide (k % 256 = 0))
    && (let k : Nat := 0x2000FE; let s : State := rdy; @decide _ (decReady s) && decide (k ≠ Ob.devEnvelope) && decide (objRow k = none) && decide (indexExists (k / 256) = true) && decide (k % 256 ≠ 0))
    && (let k : Nat := Ob.devPartNumber; let s : State := rdy; @decide _ (decReady s) && decide (k ≠ Ob.devEnvelope) && (match objRow k with | some r => (decide (r.acc = .const) || decide (r.acc = .ro) || decide (residentImage r k = true)) | _ => false))
    && (let k : Nat := Ob.slotMode 0; let b : List (BitVec 8) := []; let s : State := rdy; @decide _ (decReady s) && decide (k ≠ Ob.devEnvelope) && (match objRow k with | some r => decide (r.acc ≠ .const) && decide (r.acc ≠ .ro) && decide (residentImage r k = false) && decide (r.lengthOk b.length = false) | _ => false))
    && (let t : Nat := 0; let k : Nat := Ob.slotMode 0; let b : List (BitVec 8) := [1]; let s : State := sl 0 2; @decide _ (decReady s) && decide (k ≠ Ob.devEnvelope) && (match objRow k with | some r => decide (r.acc ≠ .const) && decide (r.acc ≠ .ro) && decide (residentImage r k = false) && decide (r.lengthOk b.length = true) && (!((!(decide (r.acc = .rwq) && decide ((s.advance t).owned k = true))) && decide ((s.advance t).barred r k (leNat b) = false))) | _ => false))
    && (let t : Nat := 0; let k : Nat := Ob.slotGapPermitted 0; let b : List (BitVec 8) := [2]; let s : State := rdy; @decide _ (decReady s) && decide (k ≠ Ob.devEnvelope) && (match objRow k with | some r => decide (r.acc ≠ .const) && decide (r.acc ≠ .ro) && decide (residentImage r k = false) && decide (r.lengthOk b.length = true) && (!(decide (r.acc = .rwq) && decide ((s.advance t).owned k = true))) && decide ((s.advance t).barred r k (leNat b) = false) && decide (r.ty = .bool) && decide (1 < (leNat b)) | _ => false))
    && (let t : Nat := 0; let k : Nat := Ob.slotWithdraw 0; let b : List (BitVec 8) := [1]; let drive : List (Nat × Nat × Bool) := []; let volts : List Nat := []; let good : Bool := true; let s : State := rdy; @decide _ (decReady s) && decide (k ≠ Ob.devEnvelope) && (match objRow k with | some r => decide (r.acc ≠ .const) && decide (r.acc ≠ .ro) && decide (residentImage r k = false) && decide (r.lengthOk b.length = true) && (!(decide (r.acc = .rwq) && decide ((s.advance t).owned k = true))) && decide ((s.advance t).barred r k (leNat b) = false) && (!(decide (r.ty = .bool) && decide (1 < (leNat b)))) && (match lookRow writers r.base with | some f => (match f r k (r.elem k) (leNat b) b ({ drive := drive, volts := volts, good := good }) (s.advance t) with | .error code => true | _ => false) | _ => false) | _ => false))
    && (let t : Nat := 0; let k : Nat := Ob.ringValidate 0; let b : List (BitVec 8) := [1]; let drive : List (Nat × Nat × Bool) := []; let volts : List Nat := []; let good : Bool := true; let s : State := rdy; @decide _ (decReady s) && decide (k ≠ Ob.devEnvelope) && (match objRow k with | some r => decide (r.acc ≠ .const) && decide (r.acc ≠ .ro) && decide (residentImage r k = false) && decide (r.lengthOk b.length = true) && (!(decide (r.acc = .rwq) && decide ((s.advance t).owned k = true))) && decide ((s.advance t).barred r k (leNat b) = false) && (!(decide (r.ty = .bool) && decide (1 < (leNat b)))) && (match lookRow writers r.base with | some f => (match f r k (r.elem k) (leNat b) b ({ drive := drive, volts := volts, good := good }) (s.advance t) with | .ok u => true | _ => false) | _ => false) | _ => false))
    && (let t : Nat := 0; let k : Nat := Ob.slotTrigHold 0; let b : List (BitVec 8) := [1, 0, 0, 0]; let s : State := sl 0 2 { armed := some 5 }; @decide _ (decReady s) && decide (k ≠ Ob.devEnvelope) && (match objRow k with | some r => decide (r.acc ≠ .const) && decide (r.acc ≠ .ro) && decide (residentImage r k = false) && decide (r.lengthOk b.length = true) && (!(decide (r.acc = .rwq) && decide ((s.advance t).owned k = true))) && decide ((s.advance t).barred r k (leNat b) = false) && (!(decide (r.ty = .bool) && decide (1 < (leNat b)))) && decide (lookRow writers r.base = none) && decide ((s.advance t).stageHeld r k = true) | _ => false))
    && (let t : Nat := 0; let k : Nat := Ob.opStartPoint; let b : List (BitVec 8) := [3]; let s : State := rdy; @decide _ (decReady s) && decide (k ≠ Ob.devEnvelope) && (match objRow k with | some r => decide (r.acc ≠ .const) && decide (r.acc ≠ .ro) && decide (residentImage r k = false) && decide (r.lengthOk b.length = true) && (!(decide (r.acc = .rwq) && decide ((s.advance t).owned k = true))) && decide ((s.advance t).barred r k (leNat b) = false) && (!(decide (r.ty = .bool) && decide (1 < (leNat b)))) && decide (lookRow writers r.base = none) && decide ((s.advance t).stageHeld r k = false) && decide ((s.advance t).valueOk r k (leNat b) b = false) | _ => false))
    && (let t : Nat := 0; let k : Nat := Ob.opStartPoint; let b : List (BitVec 8) := [1]; let s : State := rdy; @decide _ (decReady s) && decide (k ≠ Ob.devEnvelope) && (match objRow k with | some r => decide (r.acc ≠ .const) && decide (r.acc ≠ .ro) && decide (residentImage r k = false) && decide (r.lengthOk b.length = true) && (!(decide (r.acc = .rwq) && decide ((s.advance t).owned k = true))) && decide ((s.advance t).barred r k (leNat b) = false) && (!(decide (r.ty = .bool) && decide (1 < (leNat b)))) && decide (lookRow writers r.base = none) && decide ((s.advance t).stageHeld r k = false) && decide ((s.advance t).valueOk r k (leNat b) b = true) | _ => false))
    && (let b : List (BitVec 8) := []; let s : State := rdy; @decide _ (decReady s) && (decide (b.length < 8) || decide (1048584 < b.length)))
    && (let b : List (BitVec 8) := leBytes 8 1; let s : State := rdy; @decide _ (decReady s) && decide (8 ≤ b.length) && decide (b.length ≤ 1048584) && decide ((leNat (b.take 8)) % 65536 ≠ 0))
    && (let b : List (BitVec 8) := (List.replicate 8 (0 : BitVec 8)); let s : State := rdy; @decide _ (decReady s) && decide (8 ≤ b.length) && decide (b.length ≤ 1048584) && decide ((leNat (b.take 8)) % 65536 = 0) && decide (s.isLocal (bits (leNat (b.take 8)) 39 32) = false))
    && (let b : List (BitVec 8) := leBytes 8 (255 * 2 ^ 32); let s : State := rdy; decide (8 ≤ b.length) && decide (b.length ≤ 1048584) && decide ((leNat (b.take 8)) % 65536 = 0) && decide (s.isLocal (bits (leNat (b.take 8)) 39 32) = true))
    && (let b : List (BitVec 8) := []; let s : State := rdy; @decide _ (decReady s) && decide (b.length ≠ 8))
    && (let b : List (BitVec 8) := (List.replicate 8 (0 : BitVec 8)); let s : State := rdy; @decide _ (decReady s) && decide (b.length = 8) && (decide (s.counts = false) || decide (s.stepForbidden = true)))
    && (let t : Nat := 0; let v : Nat := 0; let b : List (BitVec 8) := (List.replicate 8 (0 : BitVec 8)); let s : State := rdy; let s : State := { (s) with time := { (s).time with counting := true } }; @decide _ (decReady s) && decide (b.length = 8) && decide (s.counts = true) && decide (s.stepForbidden = false) && (decide ((s.advance t).dateToSeconds b = none) || (decide ((s.advance t).dateToSeconds b = some v) && decide (2 ^ 48 ≤ v))))
    && (let t : Nat := 0; let b : List (BitVec 8) := leBytes 8 (2000 * 2 ^ 48 + 2 ^ 40 + 2 * 2 ^ 32 + 7); let s : State := rdyC; @decide _ (decReady s) && decide (b.length = 8) && decide (s.counts = true) && decide (s.stepForbidden = false) && (match (s.advance t).dateToSeconds b with | some v => decide (v < 2 ^ 48) | _ => false))
    && (let t : Nat := 0; let v : Nat := 0; let s : State := rdy; @decide _ (decReady s) && (match dictWrite Ob.comErrorCount (leBytes 1 v) {} (s.advance t) with | .ok u => true | _ => false))
    && (let t : Nat := 0; let v : Nat := 1; let s : State := rdy; @decide _ (decReady s) && (match dictWrite Ob.comErrorCount (leBytes 1 v) {} (s.advance t) with | .error code => true | _ => false))) = true := by decide +kernel

/-- The hypotheses of the clauses of Transactions are met. -/
theorem wit_transactions : ((let header : Nat := 0; let data : List (BitVec 8) := []; let s : State := rdy; (decide ((Req.ofHeader 0 (bits header 215 208) header data).submit = s.dict.lastSubmit) || decide (s.dict.busySubmit ≠ none) || decide (s.power.stewardUp = false)))
    && (let header : Nat := 0; let data : List (BitVec 8) := []; let s : State := rdy; let s : State := { (s) with dict := { (s).dict with lastSubmit := 1 } }; decide ((Req.ofHeader 0 (bits header 215 208) header data).submit ≠ s.dict.lastSubmit) && decide (s.dict.busySubmit = none) && decide (s.power.stewardUp = true))
    && (let r : Req := { transport := 0, client := 0, op := 1, key := Ob.devPartNumber }; let s : State := { rdy with power := { rdy.power with stewardUp := false } }; (!decide (s.power.stewardUp = true ∧ (r.transport ≠ 1 ∨ s.portOpen (r.client / 128) = true ∧ s.rd Ob.devNmtState ≠ 4))))
    && (let r : Req := { transport := 0, client := 0, op := 1, key := Ob.devPartNumber }; let s : State := { rdy with steward := { rdy.steward with restarting := true } }; decide (s.power.stewardUp = true ∧ (r.transport ≠ 1 ∨ s.portOpen (r.client / 128) = true ∧ s.rd Ob.devNmtState ≠ 4)) && decide (s.steward.restarting = true))
    && (let r : Req := { transport := 0, client := 0, op := 1, key := Ob.devPartNumber }; let s : State := rdy; decide (s.power.stewardUp = true ∧ (r.transport ≠ 1 ∨ s.portOpen (r.client / 128) = true ∧ s.rd Ob.devNmtState ≠ 4)) && decide (s.steward.restarting = false) && decide (r.valid = false))
    && (let r : Req := { transport := 0, client := 0, op := 1, key := Ob.devPartNumber, length := 4 }; let s : State := rdy; decide (s.power.stewardUp = true ∧ (r.transport ≠ 1 ∨ s.portOpen (r.client / 128) = true ∧ s.rd Ob.devNmtState ≠ 4)) && decide (s.steward.restarting = false) && decide (r.valid = true) && decide (r.op = 1))
    && (let r : Req := { transport := 0, client := 0, op := 2, key := Ob.devPartNumber, length := 4 }; let s : State := rdy; decide (s.power.stewardUp = true ∧ (r.transport ≠ 1 ∨ s.portOpen (r.client / 128) = true ∧ s.rd Ob.devNmtState ≠ 4)) && decide (s.steward.restarting = false) && decide (r.valid = true) && decide (r.op ≠ 1))
    && (let t : Nat := 0; let r : Req := { transport := 0, client := 0, op := 1, key := Ob.devPartNumber }; let s : State := rdy; decide ((s.advance t).isLocal r.target = true) && decide ((s.advance t).latchOf r.transport = none) && decide (r.offset = 0) && (match (s.advance t).view r.key with | .ok v => true | _ => false))
    && (let t : Nat := 0; let r : Req := { transport := 0, client := 0, op := 1, key := 0 }; let s : State := rdy; decide ((s.advance t).isLocal r.target = true) && decide ((s.advance t).latchOf r.transport = none) && (match (s.advance t).view r.key with | .error code => true | _ => false))
    && (let t : Nat := 0; let r : Req := { transport := 0, client := 0, op := 1, key := Ob.devPartNumber, offset := 4 }; let s : State := rdy; decide ((s.advance t).isLocal r.target = true) && decide ((s.advance t).latchOf r.transport = none) && decide (r.offset ≠ 0) && (match (s.advance t).view r.key with | .ok v => true | _ => false))
    && (let t : Nat := 0; let r : Req := { transport := 0, client := 0, op := 1, key := Ob.devPartNumber, offset := 4 }; let s : State := rdy.setLatch 0 (some { client := 0, key := Ob.devPartNumber, data := [], used := 0 }); decide ((s.advance t).isLocal r.target = true) && (match (s.advance t).latchOf r.transport with | some l => decide ((s.advance t).now < l.used + (s.advance t).second) && decide (l.client = r.client) && decide (l.key = r.key) && decide (r.offset ≠ 0) | _ => false))
    && (let t : Nat := 0; let r : Req := { transport := 0, client := 0, op := 1, key := Ob.devPartNumber, target := 3 }; let s : State := rdy; decide ((s.advance t).isLocal r.target = false) && decide ((s.advance t).latchOf r.transport = none))
    && (let r : Req := { transport := 0, client := 0, op := 1, key := Ob.devPartNumber }; decide (r.more = false) && decide (r.offset = 0))
    && (let t : Nat := 0; let r : Req := { transport := 0, client := 0, op := 1, key := Ob.devPartNumber }; let s : State := rdy; decide ((s.advance t).isLocal r.target = true) && decide (r.key ≠ Ob.devEnvelope))
    && (let t : Nat := 0; let r : Req := { transport := 0, client := 0, op := 1, key := Ob.devEnvelope }; let s : State := rdy; decide ((s.advance t).isLocal r.target = true) && decide (r.key = Ob.devEnvelope) && (decide (r.data.length < 8) || decide (1048584 < r.data.length)))
    && (let t : Nat := 0; let r : Req := { transport := 0, client := 0, op := 1, key := Ob.devEnvelope, data := leBytes 8 1 }; let s : State := rdy; decide ((s.advance t).isLocal r.target = true) && decide (r.key = Ob.devEnvelope) && decide (8 ≤ r.data.length) && decide (r.data.length ≤ 1048584) && decide ((leNat (r.data.take 8)) % 65536 ≠ 0))
    && (let t : Nat := 0; let r : Req := { transport := 0, client := 0, op := 1, key := Ob.devEnvelope, data := leBytes 8 0 }; let s : State := rdy; decide ((s.advance t).isLocal r.target = true) && decide (r.key = Ob.devEnvelope) && decide (8 ≤ r.data.length) && decide (r.data.length ≤ 1048584) && decide ((leNat (r.data.take 8)) % 65536 = 0))
    && (let t : Nat := 0; let r : Req := { transport := 0, client := 0, op := 2, key := Ob.opStartPoint, tag := 5, data := [1] }; let s : State := rdy.setTags (tagId 0 0) [{ tag := 5, key := Ob.opStartPoint, crc := crc32 [1], code := 0, time := 0 }]; decide (r.tag ≠ 0) && (match ((s.advance t).tagsOf (tagId r.transport r.client)).find? (fun e_ => e_.tag == r.tag) with | some e => decide (e.key = r.key) && decide (e.crc = crc32 r.data) | _ => false))
    && (let t : Nat := 0; let r : Req := { transport := 0, client := 0, op := 2, key := Ob.opStartPoint, tag := 5, data := [2] }; let s : State := rdy.setTags (tagId 0 0) [{ tag := 5, key := Ob.opStartPoint, crc := crc32 [1], code := 0, time := 0 }]; decide (r.tag ≠ 0) && (match ((s.advance t).tagsOf (tagId r.transport r.client)).find? (fun e_ => e_.tag == r.tag) with | some e => (!(decide (e.key = r.key) && decide (e.crc = crc32 r.data))) | _ => false))
    && (let r : Req := { transport := 0, client := 0, op := 1, key := Ob.devPartNumber }; let s : State := State.reset; decide (r.tag = 0) && decide (s.rd Ob.devRestoreState ≠ 3))
    && (let t : Nat := 0; let r : Req := { transport := 0, client := 0, op := 1, key := 0 }; let x : Ext := {}; let s : State := rdy; decide (r.tag = 0) && decide (s.rd Ob.devRestoreState = 3) && (match dictWrite r.key r.data x (s.advance t) with | .error code => true | _ => false))
    && (let t : Nat := 0; let r : Req := { transport := 0, client := 0, op := 2, key := Ob.opStartPoint, data := [1] }; let x : Ext := {}; let s : State := rdy; decide (r.tag = 0) && decide (s.rd Ob.devRestoreState = 3) && (match dictWrite r.key r.data x (s.advance t) with | .ok u => decide (u.dict.abortWith = none) | _ => false))
    && (let client : Nat := 0; let key : Nat := 0; let length : Nat := 0; let tr : Fin 2 := 0; let data : List (BitVec 8) := []; let s : State := rdy; let s : State := { (s) with power := { (s).power with stewardUp := false } }; (!decide ((fun (q : Req) => s.power.stewardUp = true ∧ (q.transport ≠ 1 ∨ s.portOpen (q.client / 128) = true ∧ s.rd Ob.devNmtState ≠ 4)) ({ transport := tr, client := client, op := 2, key := Ob.devEnvelope, length := data.length, data := data }))))
    && (let client : Nat := 0; let key : Nat := 0; let length : Nat := 0; let tr : Fin 2 := 0; let data : List (BitVec 8) := []; let s : State := rdy; let s : State := { (s) with steward := { (s).steward with restarting := true } }; decide ((fun (q : Req) => s.power.stewardUp = true ∧ (q.transport ≠ 1 ∨ s.portOpen (q.client / 128) = true ∧ s.rd Ob.devNmtState ≠ 4)) ({ transport := tr, client := client, op := 2, key := Ob.devEnvelope, length := data.length, data := data })) && decide (s.steward.restarting = true))
    && (let client : Nat := 0; let key : Nat := 0; let length : Nat := 0; let tr : Fin 2 := 0; let data : List (BitVec 8) := []; let s : State := rdy; decide ((fun (q : Req) => s.power.stewardUp = true ∧ (q.transport ≠ 1 ∨ s.portOpen (q.client / 128) = true ∧ s.rd Ob.devNmtState ≠ 4)) ({ transport := tr, client := client, op := 2, key := Ob.devEnvelope, length := data.length, data := data })) && decide (s.steward.restarting = false))
    && (let tr3 : Fin 3 := 0; let s : State := rdy; decide (s.stagingOf tr3 = none))
    && (let t : Nat := 1000000000000000000; let tr3 : Fin 3 := 0; let s : State := rdyC.setStaging 0 (some { client := 0, key := 0, data := [], used := 0 }); (match s.stagingOf tr3 with | some g => decide (g.used + s.second ≤ (s.advance t).now) | _ => false))
    && (let t : Nat := 0; let tr3 : Fin 3 := 0; let s : State := rdyC.setStaging 0 (some { client := 0, key := 0, data := [], used := 0 }); (match s.stagingOf tr3 with | some g => decide ((s.advance t).now < g.used + s.second) | _ => false))
    && (let tr3 : Fin 3 := 0; let s : State := rdy; decide (s.latchOf tr3 = none))
    && (let t : Nat := 1000000000000000000; let tr3 : Fin 3 := 0; let s : State := rdyC.setLatch 0 (some { client := 0, key := 0, data := [], used := 0 }); (match s.latchOf tr3 with | some l => decide (l.used + s.second ≤ (s.advance t).now) | _ => false))
    && (let t : Nat := 0; let tr3 : Fin 3 := 0; let s : State := rdyC.setLatch 0 (some { client := 0, key := 0, data := [], used := 0 }); (match s.latchOf tr3 with | some l => decide ((s.advance t).now < l.used + s.second) | _ => false))
    && (let s : State := rdy; decide (s.inArray = false))
    && (let pos : Fin 8 := 0; let s : State := rdy; let s : State := (s).wr Ob.arrArrayState 2; decide (s.inArray = true) && decide (s.dict.forwarded.find? (fun w_ => w_.target == pos.val) = none))
    && (let header : Nat := 0; let pos : Fin 8 := 1; let s : State := { arrS 2 0 2 with dict := { rdy.dict with forwarded := [{ target := 1, transport := 0, client := 0, submit := 0, read := true, tag := 0, sentAt := 0, rest := [(0, [])] }] } }; decide (s.inArray = true) && (match s.dict.forwarded.find? (fun w_ => w_.target == pos.val) with | some w => decide (w.rest ≠ []) && decide (bits header 255 224 = 0) | _ => false))
    && (let header : Nat := 0; let pos : Fin 8 := 0; let s : State := rdy; let s : State := { (s) with dict := { (s).dict with forwarded := [({ target := 0, transport := 0, client := 0, submit := 0, read := false, tag := 0, sentAt := 0 } : Forwarded)] } }; let s : State := (s).wr Ob.arrArrayState 2; decide (s.inArray = true) && (match s.dict.forwarded.find? (fun w_ => w_.target == pos.val) with | some w => (decide (w.rest = []) || decide (bits header 255 224 ≠ 0)) | _ => false))
    && (let t : Nat := 0; let pos : Fin 8 := 0; let s : State := rdy; decide (s.dict.forwarded.find? (fun w_ => w_.target == pos.val && decide (w_.sentAt + s.us 100000 ≤ (s.advance t).now)) = none))
    && (let t : Nat := 1000000000000000; let pos : Fin 8 := 0; let s : State := rdy; let s : State := { (s) with dict := { (s).dict with forwarded := [({ target := 0, transport := 0, client := 0, submit := 0, read := false, tag := 0, sentAt := 0 } : Forwarded)] } }; (match s.dict.forwarded.find? (fun w_ => w_.target == pos.val && decide (w_.sentAt + s.us 100000 ≤ (s.advance t).now)) with | some w => true | _ => false))) = true := by decide +kernel

/-- The hypotheses of the clauses of FieldNetwork are met. -/
theorem wit_field_network : ((let node : Nat := 0; let port : Fin 2 := 0; let s : State := rdy; decide (s.power.stewardUp = true) && decide (s.portOpen port.val = true) && (decide (node = 0) || decide (node = s.dict.nodeId)))
    && (let node : Nat := 0; let port : Fin 2 := 0; let s : State := rdy; let s : State := { (s) with power := { (s).power with stewardUp := false } }; (!(decide (s.power.stewardUp = true) && decide (s.portOpen port.val = true) && (decide (node = 0) || decide (node = s.dict.nodeId)))))
    && (let s : State := rdy; decide (s.power.stewardUp = true) && decide (s.rd Ob.comHeartbeatTime ≠ 0))
    && (let s : State := rdy; let s : State := { (s) with power := { (s).power with stewardUp := false } }; (decide (s.power.stewardUp = false) || decide (s.rd Ob.comHeartbeatTime = 0)))
    && (let s : State := rdy; decide (s.emcyOpen = true))
    && (let s : State := rdy; let s : State := { (s) with dict := { (s).dict with emcyInhibit := true } }; decide (s.emcyOpen = false))
    && (let s : State := rdy; decide (s.power.stewardUp = true) && decide (s.rd Ob.devNmtState ≠ 4))
    && (let s : State := rdy; let s : State := { (s) with power := { (s).power with stewardUp := false } }; (decide (s.power.stewardUp = false) || decide (s.rd Ob.devNmtState = 4)))
    && (let port : Fin 2 := 0; let s : State := rdy; let s : State := { (s) with dict := { (s).dict with busOff := 1 } }; decide (bit s.dict.busOff port.val = true))
    && (let port : Fin 2 := 0; let s : State := rdy; decide (bit s.dict.busOff port.val = false))
    && (let port : Fin 2 := 0; let s : State := rdy; let s : State := { (s) with power := { (s).power with stewardUp := false } }; (!(decide (s.power.stewardUp = true) && decide (s.portOpen port.val = true) && decide (s.rd Ob.devNmtState ≠ 4))))
    && (let port : Fin 2 := 0; let s : State := rdy; decide (s.power.stewardUp = true) && decide (s.portOpen port.val = true) && decide (s.rd Ob.devNmtState ≠ 4))) = true := by decide +kernel

/-- The hypotheses of the clauses of EnginesAndPlans are met. -/
theorem wit_engines_and_plans : ((let t : Nat := 0; let cF : Fin 64 := 0; let nF : Fin 64 := 0; let s : State := rdy; decide ((s.advance t).migration cF.val nF.val = none))
    && (let t : Nat := 0; let cF : Fin 64 := 0; let nF : Fin 64 := 0; let s : State := rdyC.setMigration 0 0 (some { slot := 0, affected := [0], gs := 0, channels := [], entry := 0, targets := [], ge := some 5 }); (match (s.advance t).migration cF.val nF.val with | some m => (decide (m.ge ≠ none) || decide (s.steward.restarting = true)) | _ => false))
    && (let t : Nat := 0; let cF : Fin 64 := 0; let nF : Fin 64 := 0; let s : State := rdyC.setMigration 0 0 (some { slot := 0, affected := [0], gs := 0, channels := [], entry := 0, targets := [], ge := none }) |> fun s => { s with engine := (List.range 1088).map fun e => (e, { st := 5 }) }; (match (s.advance t).migration cF.val nF.val with | some m => decide (m.ge = none) && decide (s.steward.restarting = false) && decide ((s.advance t).chooseMove nF.val cF.val m.affected m.whole = none) | _ => false))
    && (let t : Nat := 1000000000000000000; let cF : Fin 64 := 0; let nF : Fin 64 := 1; let s : State := (({ (((((adm.setEng 0 { st := 2, slot := some 1 }).setEng 16 { st := 4 }).wr Ob.lifeEngineSpareMap 1).wr (Ob.slotLatencyBound 1) 1000000).setMigration 0 1 (some { slot := 1, affected := [0], gs := 0, channels := [], entry := 0, targets := [], ge := none }) : State) with power := { adm.power with coeff := (List.range 15).map fun i => (i, some 0) } } : State).wrs [(Ob.slotChannelMask 0, 0), (Ob.slotChannelMask 1, 0)]); (match (s.advance t).migration cF.val nF.val with | some m => decide (m.ge = none) && decide (s.steward.restarting = false) && (match (s.advance t).chooseMove nF.val cF.val m.affected m.whole with | some x => decide (m.gs + (s.advance t).us 20000 < ((s.advance t).boundaryFrom nF.val ((s.advance t).devNow + (s.advance t).us (12 * ceilDiv x.1.engines.length 64) + (s.advance t).us 100))) | _ => false) | _ => false))
    && (let t : Nat := 0; let cF : Fin 64 := 0; let nF : Fin 64 := 1; let s : State := (({ (((((adm.setEng 0 { st := 2, slot := some 1 }).setEng 16 { st := 4 }).wr Ob.lifeEngineSpareMap 1).wr (Ob.slotLatencyBound 1) 1000000).setMigration 0 1 (some { slot := 1, affected := [0], gs := 0, channels := [], entry := 0, targets := [], ge := none }) : State) with power := { adm.power with coeff := (List.range 15).map fun i => (i, some 0) } } : State).wrs [(Ob.slotChannelMask 0, 0), (Ob.slotChannelMask 1, 0)]); (match (s.advance t).migration cF.val nF.val with | some m => decide (m.ge = none) && decide (s.steward.restarting = false) && (match (s.advance t).chooseMove nF.val cF.val m.affected m.whole with | some x => decide (((s.advance t).boundaryFrom nF.val ((s.advance t).devNow + (s.advance t).us (12 * ceilDiv x.1.engines.length 64) + (s.advance t).us 100)) ≤ m.gs + (s.advance t).us 20000) | _ => false) | _ => false))
    && (let t : Nat := 0; let cF : Fin 64 := 0; let nF : Fin 64 := 0; let g : Nat := 0; let s : State := rdyC.setMigration 0 0 (some { slot := 0, affected := [], gs := 0, channels := [], entry := 0, targets := [], ge := none }); (match (s.advance t).migration cF.val nF.val with | some m => (decide (m.ge = none) || (decide (m.ge = some g) && decide ((s.advance t).devNow < g))) | _ => false))
    && (let t : Nat := 1000000000000000000; let cF : Fin 64 := 0; let nF : Fin 64 := 0; let s : State := rdyC.setMigration 0 0 (some { slot := 0, affected := [], gs := 0, channels := [], entry := 0, targets := [], ge := some 0 }); (match (s.advance t).migration cF.val nF.val with | some m => (match m.ge with | some g => decide (g ≤ (s.advance t).devNow) | _ => false) | _ => false))
    && (let t : Nat := 0; let eF : Fin 1088 := 0; let s : State := rdy; (decide ((tget (dconst 0) s.life.testing eF.val) = 0) || (decide ((s.advance t).inMigration eF = true) && decide (((s.advance t).eng eF.val).st ≠ 3))))
    && (let t : Nat := 0; let eF : Fin 1088 := 0; let shared : Bool := true; let s : State := { rdy with life := { rdy.life with testing := [(0, 1)] } }; decide ((tget (dconst 0) s.life.testing eF.val) ≠ 0) && (decide ((s.advance t).inMigration eF = false) || decide (((s.advance t).eng eF.val).st = 3)) && (!decide ((tget (dconst 0) s.life.testing eF.val) = 2) || decide (shared = true)))
    && (let t : Nat := 0; let eF : Fin 1088 := 0; let s : State := { rdy with life := { rdy.life with testing := [(0, 2)] } }; decide ((tget (dconst 0) s.life.testing eF.val) = 2) && (decide ((s.advance t).inMigration eF = false) || decide (((s.advance t).eng eF.val).st = 3)))
    && (let t : Nat := 0; let cF : Fin 64 := 0; let s : State := rdy; let s : State := (s).wr (Ob.hpcState cF.val) 1; decide ((s.advance t).pcState cF.val = 1))
    && (let t : Nat := 0; let cF : Fin 64 := 0; let s : State := rdy; decide ((s.advance t).pcState cF.val ≠ 1))
    && (let t : Nat := 0; let cF : Fin 64 := 0; let s : State := rdy; decide (((s.advance t).eng ((s.advance t).spareEngine cF.val)).st = 4))
    && (let t : Nat := 0; let cF : Fin 64 := 0; let s : State := rdy.setEng 16 { st := 2 }; decide (((s.advance t).eng ((s.advance t).spareEngine cF.val)).st ≠ 4))
    && (let e : Nat := 1088; let s : State := rdy; @decide _ (decReady s) && decide (1088 ≤ e))
    && (let e : Nat := 0; let s : State := rdy; let s : State := { (s) with life := { (s).life with retiring := [(0, 0)] } }; @decide _ (decReady s) && decide (e < 1088) && decide ((s.life.retiring.any fun p_ => p_.1 == e) = true))
    && (let e : Nat := 0; let s : State := rdy.setEng 0 { st := 5 }; @decide _ (decReady s) && decide (e < 1088) && decide ((s.life.retiring.any fun p_ => p_.1 == e) = false) && decide ((s.eng e).st = 5))
    && (let e : Nat := 0; let s : State := rdy; @decide _ (decReady s) && decide (e < 1088) && decide ((s.life.retiring.any fun p_ => p_.1 == e) = false) && decide ((s.eng e).st ≠ 5) && decide ((s.eng e).slot = none))
    && (let t : Nat := 0; let e : Nat := 0; let s : State := (({ ((((adm.setEng 0 { st := 2, slot := some 1 }).setEng 16 { st := 4 }).wr Ob.lifeEngineSpareMap 1).wr (Ob.slotLatencyBound 1) 1000000 : State) with power := { adm.power with coeff := (List.range 15).map fun i => (i, some 0) } } : State).wrs [(Ob.slotChannelMask 0, 0), (Ob.slotChannelMask 1, 0)]); @decide _ (decReady s) && decide (e < 1088) && decide ((s.life.retiring.any fun p_ => p_.1 == e) = false) && decide ((s.eng e).st ≠ 5) && (match (s.eng e).slot with | some k => (match (s.advance t).retireTarget k e with | some y => true | _ => false) | _ => false))
    && (let t : Nat := 0; let s : State := rdy; let s : State := (s).wr Ob.lifePlanTime 0; decide (s.stewardRuns = true) && decide (s.powered = true) && decide ((s.advance t).time.rtcSeconds % 86400 = s.rd Ob.lifePlanTime))
    && (let t : Nat := 0; let s : State := rdy; (decide (s.stewardRuns = false) || decide (s.powered = false) || decide ((s.advance t).time.rtcSeconds % 86400 ≠ s.rd Ob.lifePlanTime)))) = true := by decide +kernel

/-- The hypotheses of the clauses of StewardAndSentinel are met. -/
theorem wit_steward_and_sentinel : ((let s : State := rdy; let s : State := { (s) with power := { (s).power with stewardUp := false } }; decide (s.stewardRuns = false))
    && (let s : State := rdy; decide (s.stewardRuns = true) && decide (s.trial = false))
    && (let s : State := rdy; let s : State := { (s) with pantry := { (s).pantry with trialRestarts := 2 } }; let s : State := (s).wr Ob.panFirmwareState 4; decide (s.stewardRuns = true) && decide (s.trial = true) && decide (2 ≤ s.pantry.trialRestarts))
    && (let s : State := rdy; let s : State := (s).wr Ob.panFirmwareState 4; decide (s.stewardRuns = true) && decide (s.trial = true) && decide (s.pantry.trialRestarts < 2))
    && (let s : State := rdy; @decide _ (decReady s) && decide (s.steward.passed < 10000))
    && (let s : State := rdy; let s : State := { (s) with steward := { (s).steward with passed := 10000 } }; @decide _ (decReady s) && decide (10000 ≤ s.steward.passed))
    && (let s : State := rdy; decide (s.steward.restarting = false))
    && (let s : State := rdy; let s : State := { (s) with steward := { (s).steward with restarting := true } }; decide (s.steward.restarting = true) && decide (s.pantry.swapTo = none))
    && (let s : State := rdy; let s : State := { (s) with steward := { (s).steward with restarting := true } }; let s : State := { (s) with pantry := { (s).pantry with swapTo := (some 0) } }; decide (s.steward.restarting = true) && (match s.pantry.swapTo with | some k => true | _ => false))
    && (let result : Fin 3 := 0; let s : State := rdy; decide (s.stewardRuns = true) && decide (result.val = 0))
    && (let result : Fin 3 := 1; let s : State := rdy; decide (s.stewardRuns = true) && decide (result.val ≠ 0))) = true := by decide +kernel

/-- The hypotheses of the clauses of FirmwareAndPantry are met. -/
theorem wit_firmware_and_pantry : ((let s : State := rdy; let s : State := { (s) with pantry := { (s).pantry with keeping := some { seq := 1, digest := 0, secs := 0, length := 0, entries := [] } } }; @decide _ (decReady s) && decide (s.pantryHeld = true))
    && (let s : State := rdy; @decide _ (decReady s) && decide (s.rd Ob.panFirmwareState ≠ 2))
    && (let s : State := rdy; let s : State := (s).wr Ob.panFirmwareState 2; @decide _ (decReady s) && decide (s.pantryHeld = false) && decide (s.rd Ob.panFirmwareState = 2))
    && (let s : State := rdy; @decide _ (decReady s) && (decide (s.trial = false) || decide (s.steward.sentinelRestarting = true)))
    && (let s : State := rdy; let s : State := (s).wr Ob.panFirmwareState 4; @decide _ (decReady s) && decide (s.trial = true) && decide (s.steward.sentinelRestarting = false))
    && (let t : Nat := 0; let s : State := rdy; let s : State := (s).wr Ob.panConfirmWindow 0; let s : State := (s).wr Ob.panFirmwareState 4; decide (s.stewardRuns = true) && decide (s.trial = true) && decide (s.pantry.trialAt + s.rd Ob.panConfirmWindow * s.second ≤ (s.advance t).now))
    && (let t : Nat := 0; let s : State := rdy; (decide (s.stewardRuns = false) || decide (s.trial = false) || decide ((s.advance t).now < s.pantry.trialAt + s.rd Ob.panConfirmWindow * s.second)))
    && (let s : State := rdy; let s : State := { (s) with power := { (s).power with stopEntry := some { cause := 1, at0 := 0, down := false } } }; @decide _ (decReady s) && decide (s.stopping = true))
    && (let s : State := rdy; decide (s.pantry.keeping = none))
    && (let s : State := rdy; let s : State := { (s) with pantry := { (s).pantry with keeping := (some ({ seq := 0, digest := 0, secs := 0, length := 0, entries := [] } : KeptCopy)) } }; (match s.pantry.keeping with | some c => true | _ => false))) = true := by decide +kernel

/-- The hypotheses of the clauses of RestoreAndAutomaticSteps are met. -/
theorem wit_restore_and_automatic_steps : ((let s : State := rdy; let s : State := (s).wr Ob.devRestoreState 0; decide (s.power.stewardUp = true) && decide (s.steward.restarting = false) && decide (s.rd Ob.devRestoreState ≤ 1))
    && (let s : State := rdy; (decide (s.power.stewardUp = false) || decide (s.steward.restarting = true) || decide (1 < s.rd Ob.devRestoreState)))
    && (let s : State := rdy; (!(decide (s.stewardRuns = true) && decide (s.rd Ob.devRestoreState = 2))))
    && (let s : State := rdy; let s : State := (s).wr Ob.devRestoreState 2; let s : State := { (s) with pantry := { (s).pantry with autoAgain := true } }; decide (s.stewardRuns = true) && decide (s.rd Ob.devRestoreState = 2) && decide (s.pantry.autoAgain = true))
    && (let t : Nat := 0; let s : State := rdy; let s : State := (s).wr Ob.devRestoreState 2; decide (s.stewardRuns = true) && decide (s.rd Ob.devRestoreState = 2) && decide (s.pantry.autoAgain = false) && decide ((s.advance t).stepDone = true))
    && (let t : Nat := 0; let s : State := ({ (rdyC.wr Ob.devRestoreState 2) with pantry := { rdy.pantry with autoStep := 1 } } : State).wrs [(Ob.synAutoApply, 1), (Ob.synState, 1)]; decide (s.stewardRuns = true) && decide (s.rd Ob.devRestoreState = 2) && decide (s.pantry.autoAgain = false) && decide ((s.advance t).stepDone = false))
    && (let s : State := rdy; let s : State := (s).wr Ob.devRestoreState 2; decide (s.stewardRuns = true) && decide (s.rd Ob.devRestoreState = 2) && decide (s.stepLimit = none))
    && (let t : Nat := 1000000000000000000; let s : State := ({ (rdyC.wr Ob.devRestoreState 2) with pantry := { rdy.pantry with autoStep := 1 } } : State); decide (s.stewardRuns = true) && decide (s.rd Ob.devRestoreState = 2) && (match s.stepLimit with | some us => decide (s.pantry.autoAt + s.us us ≤ (s.advance t).now) | _ => false))
    && (let t : Nat := 0; let s : State := ({ (rdyC.wr Ob.devRestoreState 2) with pantry := { rdy.pantry with autoStep := 1 } } : State); decide (s.stewardRuns = true) && decide (s.rd Ob.devRestoreState = 2) && (match s.stepLimit with | some us => decide ((s.advance t).now < s.pantry.autoAt + s.us us) | _ => false))
    && (let u : State := ({ (rdyC.wr Ob.devRestoreState 2) with pantry := { rdy.pantry with autoStep := 7 } } : State); decide (u.pantry.autoStep = 7))
    && (let u : State := ({ pantry := ({} : PantryState) } : State); decide (u.pantry.autoStep < 7) && decide (u.pantry.autoStep ≠ 2))) = true := by decide +kernel

/-- The hypotheses of the clauses of EngineArithmetic are met. -/
theorem wit_engine_arithmetic : ((let e : Fin 1088 := 0; let s : State := eng0 fun x => { x with m2 := some (uop (1 * 2 ^ 188)) }; @decide _ (decPlain (s.eng e)) && (match (s.eng e).m2 with | some u => decide (nArith u.nano = 1) | _ => false))
    && (let e : Fin 1088 := 0; let s : State := eng0 fun x => { x with m2 := some (uop (2 * 2 ^ 188)) }; @decide _ (decPlain (s.eng e)) && (match (s.eng e).m2 with | some u => decide (nArith u.nano = 2) | _ => false))
    && (let e : Fin 1088 := 0; let s : State := eng0 fun x => { x with m2 := some (uop (3 * 2 ^ 188)) }; @decide _ (decPlain (s.eng e)) && (match (s.eng e).m2 with | some u => decide (nArith u.nano = 3) | _ => false))) = true := by decide +kernel

/-- The hypotheses of the clauses of EngineAccumulators are met. -/
theorem wit_engine_accumulators : ((let e : Fin 1088 := 0; let s : State := eng0 fun x => { x with m2 := some (uop (4 * 2 ^ 188)) }; @decide _ (decPlain (s.eng e)) && (match (s.eng e).m2 with | some u => decide (nArith u.nano = 4) | _ => false))
    && (let e : Fin 1088 := 0; let s : State := eng0 fun x => { x with m2 := some (uop (5 * 2 ^ 188)) }; @decide _ (decPlain (s.eng e)) && (match (s.eng e).m2 with | some u => decide (nArith u.nano = 5) | _ => false))
    && (let e : Fin 1088 := 0; let s : State := eng0 fun x => { x with m2 := some (uop (6 * 2 ^ 188)) }; @decide _ (decPlain (s.eng e)) && (match (s.eng e).m2 with | some u => decide (nArith u.nano = 6) | _ => false))
    && (let e : Fin 1088 := 0; let s : State := eng0 fun x => { x with m2 := some (uop (8 * 2 ^ 188)) }; @decide _ (decPlain (s.eng e)) && (match (s.eng e).m2 with | some u => decide (nArith u.nano = 8) | _ => false))
    && (let e : Fin 1088 := 0; let k : Nat := 0; let s : State := eng0 fun x => { x with m2 := some (uop (9 * 2 ^ 188)) }; @decide _ (decPlain (s.eng e)) && (match (s.eng e).m2 with | some u => decide (nArith u.nano = 9) && decide ((s.eng e).of = none) && decide ((s.eng e).nf = none) && decide (k < 2) | _ => false))
    && (let e : Fin 1088 := 0; let s : State := eng0 fun x => { x with m2 := some (uop (7 * 2 ^ 188 + 2 ^ 184)) }; @decide _ (decPlain (s.eng e)) && (match (s.eng e).m2 with | some u => decide (nArith u.nano = 7) && decide (bit u.nano 184 = true) && decide ((s.eng e).of = none) && decide ((s.eng e).nf = none) | _ => false))
    && (let e : Fin 1088 := 0; let s : State := eng0 fun x => { x with m2 := some (uop (7 * 2 ^ 188)) }; @decide _ (decPlain (s.eng e)) && (match (s.eng e).m2 with | some u => decide (nArith u.nano = 7) && decide (bit u.nano 184 = false) | _ => false))) = true := by decide +kernel

/-- The hypotheses of the clauses of EngineStores are met. -/
theorem wit_engine_stores : ((let e : Fin 1088 := 0; let s : State := eng0 fun x => { x with wb := some (uop (1 * 2 ^ 145 + 1 * 2 ^ 135)) }; @decide _ (decPlain (s.eng e)) && (match (s.eng e).wb with | some u => decide (nStore u.nano = 1) && decide (nStFmt u.nano = 1) | _ => false))
    && (let e : Fin 1088 := 0; let s : State := eng0 fun x => { x with wb := some (uop (1 * 2 ^ 145 + 2 * 2 ^ 135)) }; @decide _ (decPlain (s.eng e)) && (match (s.eng e).wb with | some u => decide (nStore u.nano = 1) && decide (nStFmt u.nano = 2) | _ => false))
    && (let e : Fin 1088 := 0; let s : State := eng0 fun x => { x with wb := some (uop (1 * 2 ^ 145 + 4 * 2 ^ 135)) }; @decide _ (decPlain (s.eng e)) && (match (s.eng e).wb with | some u => decide (nStore u.nano = 1) && decide (nStFmt u.nano = 4) | _ => false))
    && (let e : Fin 1088 := 0; let s : State := eng0 fun x => { x with wb := some (uop (1 * 2 ^ 145 + 3 * 2 ^ 135)) }; @decide _ (decPlain (s.eng e)) && (match (s.eng e).wb with | some u => decide (nStore u.nano = 1) && (decide (nStFmt u.nano = 3) || decide (4 < nStFmt u.nano)) | _ => false))
    && (let e : Fin 1088 := 0; let s : State := eng0 fun x => { x with wb := some (uop (2 * 2 ^ 145)) }; @decide _ (decPlain (s.eng e)) && (match (s.eng e).wb with | some u => decide (nStore u.nano = 2) | _ => false))
    && (let e : Fin 1088 := 0; let s : State := eng0 fun x => { x with wb := some (uop (3 * 2 ^ 145)) }; @decide _ (decPlain (s.eng e)) && (match (s.eng e).wb with | some u => decide (nStore u.nano = 3) | _ => false))
    && (let e : Fin 1088 := 0; let s : State := eng0 fun x => { x with wb := some (uop (4 * 2 ^ 145)) }; @decide _ (decPlain (s.eng e)) && (match (s.eng e).wb with | some u => decide (nStore u.nano = 4) && (!((decide (8 ≤ nStReg u.nano) && decide (nStReg u.nano < 12)) || decide (nStReg u.nano = 0x1A))) | _ => false))) = true := by decide +kernel

/-- The hypotheses of the clauses of EngineSequencing are met. -/
theorem wit_engine_sequencing : ((let e : Fin 1088 := 0; let s : State := eng0 fun x => { x with micro := [(0, 0)], pc := 0 }; @decide _ (decPlain (s.eng e)) && decide (mLoop (tget (dconst 0) (s.eng e).micro (s.eng e).pc) ≠ 2) && decide (mCond (tget (dconst 0) (s.eng e).micro (s.eng e).pc) ≠ 14))
    && (let e : Fin 1088 := 0; let s : State := eng0 fun x => { x with micro := [(0, 1 * 2)], pc := 0 }; @decide _ (decPlain (s.eng e)) && decide (mLoop (tget (dconst 0) (s.eng e).micro (s.eng e).pc) = 1) && decide ((s.eng e).of = none) && decide ((s.eng e).nf = none))
    && (let e : Fin 1088 := 0; let s : State := eng0 fun x => { x with micro := [(0, 2 * 2)], pc := 0 }; @decide _ (decPlain (s.eng e)) && decide (mLoop (tget (dconst 0) (s.eng e).micro (s.eng e).pc) = 2) && decide (((s.eng e).ldepth) = 0))
    && (let e : Fin 1088 := 0; let s : State := eng0 fun x => { x with micro := [(0, 2 * 2)], pc := 0, r := [(0x0C, 5), (0x16, 1024)] }; @decide _ (decPlain (s.eng e)) && decide (mLoop (tget (dconst 0) (s.eng e).micro (s.eng e).pc) = 2) && decide (0 < ((s.eng e).ldepth)) && decide (1 < (s.eng e).raw (0x0C + (((s.eng e).ldepth) - 1))) && decide ((s.eng e).of = none) && decide ((s.eng e).nf = none))
    && (let e : Fin 1088 := 0; let s : State := eng0 fun x => { x with micro := [(0, 2 * 2)], pc := 0, r := [(0x0C, 0), (0x16, 1024)] }; @decide _ (decPlain (s.eng e)) && decide (mLoop (tget (dconst 0) (s.eng e).micro (s.eng e).pc) = 2) && decide (0 < ((s.eng e).ldepth)) && decide ((s.eng e).raw (0x0C + (((s.eng e).ldepth) - 1)) ≤ 1) && decide ((s.eng e).of = none) && decide ((s.eng e).nf = none))
    && (let e : Fin 1088 := 0; let s : State := eng0 fun x => { x with micro := [(0, 3 * 2)], pc := 0, r := [(0x0C, 0), (0x16, 1024)] }; @decide _ (decPlain (s.eng e)) && decide (mLoop (tget (dconst 0) (s.eng e).micro (s.eng e).pc) = 3) && decide (0 < ((s.eng e).ldepth)) && decide ((s.eng e).of = none) && decide ((s.eng e).nf = none))
    && (let e : Fin 1088 := 0; let s : State := eng0 fun x => { x with micro := [(0, 14 * 2 ^ 9)], pc := 0 }; @decide _ (decPlain (s.eng e)) && decide (mLoop (tget (dconst 0) (s.eng e).micro (s.eng e).pc) ≠ 2) && decide (mCond (tget (dconst 0) (s.eng e).micro (s.eng e).pc) = 14))) = true := by decide +kernel

/-- The hypotheses of the clauses of EngineOperandsAndTransfers are met. -/
theorem wit_engine_operands_and_transfers : ((let e : Fin 1088 := 0; let s : State := eng0 fun x => { x with of := some (uop (2 ^ 168)) }; @decide _ (decPlain (s.eng e)) && (match (s.eng e).of with | some u => (decide (nXRead u.nano = 1) || decide (nYRead u.nano = 1)) && decide (nXRead u.nano = 1) | _ => false))
    && (let e : Fin 1088 := 0; let s : State := eng0 fun x => { x with of := some (uop (2 ^ 157)) }; @decide _ (decPlain (s.eng e)) && (match (s.eng e).of with | some u => (decide (nXRead u.nano = 1) || decide (nYRead u.nano = 1)) && decide (nYRead u.nano = 1) | _ => false))
    && (let e : Fin 1088 := 0; let s : State := eng0 fun x => { x with of := some (uop (2 * 2 ^ 168)) }; @decide _ (decPlain (s.eng e)) && (match (s.eng e).of with | some u => decide ((s.eng e).nf = none) && decide (nXRead u.nano = 2) && decide (nYRead u.nano ≠ 2) | _ => false))
    && (let e : Fin 1088 := 0; let s : State := eng0 fun x => { x with of := some (uop (2 * 2 ^ 157)) }; @decide _ (decPlain (s.eng e)) && (match (s.eng e).of with | some u => decide ((s.eng e).nf = none) && decide (nXRead u.nano ≠ 2) && decide (nYRead u.nano = 2) | _ => false))
    && (let t : Nat := 0; let e : Fin 1088 := 0; let s : State := eng0 fun x => { x with nf := some (uop (1 * 2 ^ 116)) }; @decide _ (decPlain (s.eng e)) && (match (s.eng e).nf with | some u => decide ((s.eng e).of = none) && decide (nCtl u.nano ≠ 1) && decide (nRtOp u.nano = 1) && decide (nCtl u.nano ≠ 2 ∨ nRtDst u.nano ≠ 0x19) | _ => false))
    && (let t : Nat := 0; let e : Fin 1088 := 0; let s : State := eng0 fun x => { x with nf := some (uop (2 * 2 ^ 116)) }; @decide _ (decPlain (s.eng e)) && (match (s.eng e).nf with | some u => decide ((s.eng e).of = none) && decide (nCtl u.nano ≠ 1) && decide (nRtOp u.nano = 2) && decide (nCtl u.nano ≠ 2 ∨ nRtDst u.nano ≠ 0x19) | _ => false))) = true := by decide +kernel

/-- The hypotheses of the clauses of EngineQueuesAndEvents are met. -/
theorem wit_engine_queues_and_events : ((let e : Fin 1088 := 0; let s : State := eng0 fun x => { x with nf := some (uop (1 * 2 ^ 69)) }; @decide _ (decPlain (s.eng e)) && (match (s.eng e).nf with | some u => decide (nCtl u.nano = 1) | _ => false))
    && (let e : Fin 1088 := 0; let s : State := eng0 fun x => { x with nf := some (uop (2 * 2 ^ 69)) }; @decide _ (decPlain (s.eng e)) && (match (s.eng e).nf with | some u => decide (nCtl u.nano = 2) | _ => false))
    && (let e : Fin 1088 := 0; let s : State := eng0 fun x => { x with nf := some (uop (3 * 2 ^ 69)) }; @decide _ (decPlain (s.eng e)) && (match (s.eng e).nf with | some u => decide (nCtl u.nano = 3) | _ => false))
    && (let e : Fin 1088 := 0; let s : State := eng0 fun x => { x with micro := [(0, 16)], pc := 0 }; @decide _ (decPlain (s.eng e)) && decide (mSafe (tget (dconst 0) (s.eng e).micro (s.eng e).pc) = true) && decide ((s.eng e).service = false))
    && (let e : Fin 1088 := 0; let s : State := eng0 fun x => { x with micro := [(0, 16)], pc := 0, ev := true, evBank := 0 }; decide ((s.eng e).st = 2) && (match (s.eng e).nf with | some v => (!decide (nCtl v.nano = 1) || decide ((s.eng e).sends.length < 8)) | _ => true) && decide (mYield (tget (dconst 0) (s.eng e).micro (s.eng e).pc) = false) && decide (mSafe (tget (dconst 0) (s.eng e).micro (s.eng e).pc) = true) && decide ((s.eng e).ev = true) && decide ((s.eng e).service = false) && decide ((s.eng e).evBank < 2))
    && (let e : Fin 1088 := 0; let s : State := eng0 fun x => { x with micro := [(0, 1)], pc := 0 }; decide ((s.eng e).st = 2) && (match (s.eng e).nf with | some v => (!decide (nCtl v.nano = 1) || decide ((s.eng e).sends.length < 8)) | _ => true) && decide (mYield (tget (dconst 0) (s.eng e).micro (s.eng e).pc) = true) && decide ((s.eng e).ev = false) && decide ((s.eng e).events = []) && decide ((s.eng e).stopping = false) && decide ((s.eng e).saving = false))) = true := by decide +kernel

/-- The hypotheses of the clauses of EngineTrafficAndEvents are met. -/
theorem wit_engine_traffic_and_events : ((let e : Fin 1088 := 0; let words : List Nat := List.replicate 16 0; let s : State := eng0 fun x => { x with rxUnitFlits := 4, rxUnits := 2, rxBank := 0 }; decide ((s.eng e).st = 2) && decide (s.lost e = false) && decide ((s.eng e).wb = none) && decide ((s.eng e).rxBank < 2) && (!decide ((s.eng e).rxFlits = 0) || decide ((s.eng e).unreleased < (s.eng e).rxUnits)) && decide (words.length = 16) && decide ((s.eng e).rxFlits + 1 < (s.eng e).rxUnitFlits))
    && (let e : Fin 1088 := 0; let words : List Nat := List.replicate 16 0; let s : State := eng0 fun x => { x with rxUnitFlits := 1, rxUnits := 2, busy := true, frames := [{ tag := 0, index := 0, flags := 0, input := 0, epoch := 0 }] }; decide ((s.eng e).st = 2) && decide (s.lost e = false) && decide ((s.eng e).wb = none) && decide ((s.eng e).rxBank < 2) && (!decide ((s.eng e).rxFlits = 0) || decide ((s.eng e).unreleased < (s.eng e).rxUnits)) && decide (words.length = 16) && decide ((s.eng e).rxUnitFlits ≤ (s.eng e).rxFlits + 1) && decide ((s.eng e).busy = true) && decide ((s.eng e).frames.length = 1))
    && (let e : Fin 1088 := 0; let words : List Nat := List.replicate 16 0; let b : Nat := 0; let a : Nat := 4000; let s : State := eng0 fun x => { x with rxUnitFlits := 4, rxUnits := 2 }; decide ((s.eng e).st = 2) && decide (s.lost e = false) && decide ((s.eng e).wb = none) && decide ((s.eng e).rxBank < 2) && (!decide ((s.eng e).rxFlits = 0) || decide ((s.eng e).unreleased < (s.eng e).rxUnits)) && decide (words.length = 16) && (decide ((s.eng e).rxFlits + 1 < (s.eng e).rxUnitFlits) || (decide ((s.eng e).busy = true) && decide ((s.eng e).frames.length = 1))) && decide (b < 2) && decide (a < 4096) && ((List.range 16).all fun k => decide (a ≠ ((s.eng e).rxBase + 16 * ((s.eng e).rxSlot * (s.eng e).rxUnitFlits + (s.eng e).rxFlits) + k) % 4096)))
    && (let e : Fin 1088 := 0; let s : State := eng0 fun x => { x with sends := [{ bank := 0, elem := 0, left := 1, total := 1, flow := 0 }] }; (match (s.eng e).sends with | q :: qs => decide ((s.eng e).flowKind q.flow ≠ 1) && decide (s.sendLost (s.eng e) q = false) | _ => false))
    && (let e : Fin 1088 := 0; let s : State := rdyC.setEng 0 { st := 2, slot := some 0, sends := [{ bank := 0, elem := 0, left := 1, total := 1, flow := 0, frame := some { tag := 2 ^ 80, index := 0, flags := 0, input := 0, epoch := 0 } }] } |>.setMigration 0 0 (some { slot := 0, affected := [0], gs := 0, channels := [0], entry := 0, targets := [], ge := none }); (match (s.eng e).sends with | q :: qs => decide ((s.eng e).flowKind q.flow ≠ 1) && decide (s.sendLost (s.eng e) q = true) | _ => false))
    && (let e : Fin 1088 := 0; let s : State := eng0 fun x => { x with sends := [{ bank := 0, elem := 0, left := 1, total := 1, flow := 0 }] }; (match (s.eng e).sends with | q :: qs => decide ((s.eng e).st = 2) | _ => false))
    && (let e : Fin 1088 := 0; let s : State := eng0 fun x => { x with sinceSafe := 5000 }; decide ((s.eng e).st = 2) && decide (4160 ≤ (s.eng e).sinceSafe))
    && (let e : Fin 1088 := 0; let s : State := eng0 fun x => { x with st := 1 }; decide ((s.eng e).st = 1))
    && (let e : Fin 1088 := 0; let s : State := eng0 fun x => { x with st := 2 }; decide ((s.eng e).st = 2))) = true := by decide +kernel

/-- The hypotheses of the clauses of EngineDebugAndImages are met. -/
theorem wit_engine_debug_and_images : ((let e : Fin 1088 := 0; let s : State := rdy; decide (s.held e = false) && (decide ((s.eng e).st = 0) || decide ((s.eng e).st = 1) || decide ((s.eng e).st = 3)))
    && (let e : Fin 1088 := 0; let s : State := eng0 fun x => { x with st := 4 }; (decide (s.held e = true) || (decide ((s.eng e).st ≠ 0) && decide ((s.eng e).st ≠ 1) && decide ((s.eng e).st ≠ 3))))
    && (let i : Fin 64 := 0; let s : State := rdy.setDom (Ob.mimgImage 0) (leBytes 64 (0x544E4D49 * 2 ^ 480 + 1 * 2 ^ 472 + 2 * 2 ^ 464 + 2 ^ 335 + 2 ^ 327 + imageCrc (leBytes 64 (0x544E4D49 * 2 ^ 480 + 1 * 2 ^ 472 + 2 * 2 ^ 464 + 2 ^ 335 + 2 ^ 327)))); @decide _ (decReady s) && decide (s.microUsers i = []) && decide (microFormat (s.microImage i) = true))
    && (let i : Fin 64 := 0; let s : State := rdy; @decide _ (decReady s) && decide (s.microUsers i = []) && decide (microFormat (s.microImage i) = false))
    && (let i : Fin 64 := 0; let s : State := rdy.setDom (Ob.nimgImage 0) (leBytes 16 (0x544E4E49 * 2 ^ 96 + 1 * 2 ^ 88 + 2 * 2 ^ 80 + imageCrc (leBytes 16 (0x544E4E49 * 2 ^ 96 + 1 * 2 ^ 88 + 2 * 2 ^ 80)))); @decide _ (decReady s) && decide (s.nanoUsers i = []) && decide (nanoFormat (s.nanoImage i) = true) && decide (firstBadNano (s.nanoImage i) = none))
    && (let i : Fin 64 := 0; let s : State := rdy; @decide _ (decReady s) && decide (s.nanoUsers i = []) && decide (nanoFormat (s.nanoImage i) = false))
    && (let i : Fin 64 := 63; let j : Nat := 63; let s : State := rdy; @decide _ (decReady s) && decide (j < 64) && decide (s.microLoaded i = true) && decide (s.nanoLoaded j = true))) = true := by decide +kernel

/-- The hypotheses of the clauses of ActionsWhileNotServed are met. -/
theorem wit_actions_while_not_served : ((let s : State := { rdy with power := { rdy.power with stewardUp := false } }; decide (s.power.stewardUp = false))
    && (let s : State := { rdy with steward := { rdy.steward with restarting := true } }; decide (s.power.stewardUp = true) && decide (s.steward.restarting = true))
    && (let s : State := State.reset; decide (s.power.stewardUp = true) && decide (s.steward.restarting = false) && decide (s.rd Ob.devRestoreState ≠ 3))) = true := by decide +kernel

/-- The hypotheses of the clauses of Doorbells are met. -/
theorem wit_doorbells : ((let value : Nat := 0; let ring : Fin 32 := 0; let s : State := rdy; decide (s.rd (Ob.ringConsumedPages ring) ≤ value) && decide (value ≤ s.rd (Ob.ringWrittenPages ring)))
    && (let value : Nat := 0; let ring : Fin 32 := 0; let s : State := rdy; let s : State := (s).wr (Ob.ringConsumedPages ring) 1; (!(decide (s.rd (Ob.ringConsumedPages ring) ≤ value) && decide (value ≤ s.rd (Ob.ringWrittenPages ring)))) && decide (s.rd (Ob.ringBadDoorbells ring) + 1 < 2 ^ 32))) = true := by decide +kernel

/-- The hypotheses of the clauses of Descriptors are met. -/
theorem wit_descriptors : ((let T : Nat := 0; let s : State := rdyC; decide (s.syn.source ≤ 1) && decide (s.rd Ob.synFT < 2 ^ 31))) = true := by decide +kernel

/-- The hypotheses of the clauses of NormOperation are met. -/
theorem wit_norm_operation : ((let e : Engine := { acc0re := 5 }; let u : Uop := uop (9 * 2 ^ 188 + 2 ^ 186); let k : Nat := 0; let r : Nat := 0; decide (nArith u.nano = 9) && decide (k < 2) && decide (bit (nAcc u.nano) k = true) && decide (accMin ≤ e.accRe k) && decide (e.accRe k ≤ accMax) && decide (accMin ≤ e.accIm k) && decide (e.accIm k ≤ accMax) && decide (e.accRe k ≤ 2 ^ 20))
    && (let e : Engine := {}; let u : Uop := uop (9 * 2 ^ 188 + 2 ^ 186); let k : Nat := 0; decide (nArith u.nano = 9) && decide (k < 2) && decide (bit (nAcc u.nano) k = true) && decide (accMin ≤ e.accRe k) && decide (e.accRe k ≤ accMax) && decide (accMin ≤ e.accIm k) && decide (e.accIm k ≤ accMax) && decide (e.accRe k = 0) && decide (e.accIm k = 0))) = true := by decide +kernel

theorem wit_step_idle : State.reset.pending = [] := rfl
theorem wit_tap_free : (∀ n, n < 64 → State.reset.rd (Ob.slotState n) < 2)
    ∧ (∀ j, j < 16 → State.reset.rd (Ob.linkLinkState j) = 0) ∧ State.reset.rd Ob.synState = 0 := by decide
theorem wit_tap_refused : (State.reset.wr Ob.synState 3).rd Ob.synState ≠ 0 := by decide

/-- A Successor's commit is armed. -/
theorem wit_commit_armed : ∃ T, (sl 0 3 { replacing := some 1 }).commitDecision 0 0 ((sl 0 3 { replacing := some 1 }).nth 70 0) 5 = .ok (1, T) := ⟨_, rfl⟩

theorem wit_memories_stay : State.reset.memoryWf = true ∧ step State.reset = .next State.reset := ⟨by decide +kernel, rfl⟩

/-- The dictionary's date example (18_dictionary.md:332): a leap second has a number, 29 February of a common year none. -/
theorem test_date : State.reset.dateToSeconds (leBytes 8 0x0834030100000000) = some 3160857600
    ∧ State.reset.dateToSeconds (leBytes 8 (0x0834 * 2 ^ 48 + 2 * 2 ^ 40 + 29 * 2 ^ 32)) = none := by decide +kernel

/-- The address example (12_memory.md:116): channel, bank group, bank, row and column of two addresses. -/
theorem test_hbm_location : (let l := State.reset.hbmLoc 0x012345680; (bits l 33 28, bits l 11 10, bits l 13 12, bits l 27 14, bits l 9 6)) = (1, 1, 0, 2257, 10)
    ∧ (let l := State.reset.hbmLoc 0x012349680; (bits l 33 28, bits l 11 10, bits l 13 12, bits l 27 14, bits l 9 6)) = (1, 2, 0, 2258, 10) := by decide +kernel

/-- The calibration example (21_calibration.md:223): the gain of a rail and a reading corrected with it. -/
theorem test_calibration : (State.reset.wr Ob.calibVrefValue 1024000).vrefGain 38 (53301 * 1024) = some 33029
    ∧ ({ State.reset with doms := [(Ob.hkcOffsets, List.replicate 6 0 ++ leBytes 2 41), (Ob.hkcGains, List.replicate 6 0 ++ leBytes 2 33029)] } : State).hkCorrected 3 20000 = 20118 := by decide +kernel

/-- The clock example (16_clocks.md:225): the first SYSREF edge, and which device clocks are reachable. -/
theorem test_clock_plan : srefFirst (4096 * 2 ^ 16 + 32 * 2 ^ 8) 0 10000640000 = 10000793600
    ∧ dclkOk 1250000000 (2 * 2 ^ 32) = true ∧ dclkOk 1250000000 (1 * 2 ^ 32) = false := by decide

/-- The microword example (11_microcode.md:451). -/
theorem test_microword : (mNano 0x1208A014, mNext 0x1208A014, mCond 0x1208A014, mSafe 0x1208A014, mLoop 0x1208A014, mYield 0x1208A014) = (18, 69, 0, true, 2, false) := by decide

/-- SYN-T locked at 1.25 GHz and counting. -/
def test_locked : State := { State.reset.wrs [(Ob.synFT, 1250000000), (Ob.synState, 3)] with time := { State.reset.time with counting := true } }

/-- The link of the 20 GS/s example (03_ingest.md:336). -/
def test_linkPlan : State := test_locked.wrs [(Ob.linkLaneCount 0, 16), (Ob.linkM 0, 1), (Ob.linkF 0, 3), (Ob.linkS 0, 32), (Ob.linkN 0, 12),
  (Ob.linkNPrime 0, 12), (Ob.linkCS 0, 0), (Ob.linkE 0, 3), (Ob.linkLaneRate 0, 15468750), (Ob.linkSubclass 0, 1), (Ob.linkReleaseDelay 0, 25088)]
/-- Its parameters are taken, and its path latency is BlockFill plus FixedPath of the example. -/
theorem test_link_plan : test_linkPlan.linkParams 0 = true ∧ test_linkPlan.pathLatency 0 = 512 + 5120 := by decide +kernel

/-- The display of the adaptive example (22_display.md:161). -/
def test_display : State := ((test_locked.setDom Ob.dispTiming (leBytes 32 (3840 * 2 ^ 244 + 3920 * 2 ^ 230 + 16 * 2 ^ 216 + 8 * 2 ^ 208
    + 2160 * 2 ^ 196 + 2287 * 2 ^ 182 + 3 * 2 ^ 170 + 5 * 2 ^ 162 + 1076000 * 2 ^ 128))).setDom Ob.dispBuffers
    (leBytes 16 (240 * 2 ^ 76 + 2 * 2 ^ 74 + 2 ^ 73))).wrs [(Ob.dispRefreshMax, 120000), (Ob.dispRefreshMin, 48000), (Ob.dispMaxLinkRate, 7)]
/-- Its timing is admitted, and the frame interval lies between 8.3333 ms and 20.8333 ms. -/
theorem test_display_plan : test_display.timingOk = true ∧ test_display.pMin = 2666666667 ∧ test_display.pMax = 6666666667 := by decide +kernel

/-- The trigger budget example (05_triggers.md:380), with the lines' spacing as an argument. -/
def test_budget (sp : Nat) : State := (((List.range 64).foldl (fun s l => s.setLine l { cls := 1, src := 0, latency := 312000, spacing := sp }) test_locked).wrs
  [(Ob.primEnable, 3), (Ob.primContentA, 2), (Ob.primContentB, 1), (Ob.primLineRate, 1), (Ob.patEnable 0, 1), (Ob.patHoldOff 0, 12800),
   (Ob.patOutputs 0, 2 ^ 9), (Ob.patHorizon 0, 312000)]).setDom (Ob.patCare 0) (leBytes 32 3)
/-- The least TickDelay and both lanes' charges; lines without hold-off exceed lane A. -/
theorem test_trigger_budget : (test_budget 128000).minD 3 = 326439 ∧ (test_budget 128000).laneCharge 0 = 160000000
    ∧ (test_budget 128000).laneCharge 1 = 25000000 ∧ (test_budget 10240).chargeBreak = some (0, 195312500, 190000000) := by decide +kernel


end Witnesses

end Sys2Proof.Tests
end

/-! Proofs about the architecture's family: action writes while the dictionary is not served (O51), the steward pair and the
sentinel (O40), wake sources and the power-up of the rails (O22). -/

namespace Sys2Proof.Machine

open Sys2Proof

/-! ### What the passing of time leaves alone -/

@[simp] theorem State.powered_advance (s : State) (t : Nat) : (s.advance t).powered = s.powered := rfl
@[simp] theorem State.stopping_advance (s : State) (t : Nat) : (s.advance t).stopping = s.stopping := rfl
@[simp] theorem State.vcoreMoving_advance (s : State) (t : Nat) : (s.advance t).vcoreMoving = s.vcoreMoving := rfl
@[simp] theorem State.stewardRuns_advance (s : State) (t : Nat) : (s.advance t).stewardRuns = s.stewardRuns := rfl
@[simp] theorem State.trial_advance (s : State) (t : Nat) : (s.advance t).trial = s.trial := rfl

/-! ### Writes while the dictionary is not served -/

/-- Settles O51: each command of the list is a write served by `State.serve`, but for DICTIONARY_WRITE and DISPLAY_ENABLE, which
`State.serveNoting` serves. -/
theorem actionsWhileNotServed : Obligations.ActionsWhileNotServed := by
  intro s t data f4 x0 x1 b drive volts f32 f64 f36 others f16 f6 f8 od
  -- the writes before DICTIONARY_WRITE
  repeat refine List.forall_mem_cons.2 ⟨s.serve_unserved t _, ?_⟩
  refine List.forall_mem_cons.2 ⟨s.noting_unserved t _, ?_⟩
  -- the writes before DISPLAY_ENABLE
  repeat refine List.forall_mem_cons.2 ⟨s.serve_unserved t _, ?_⟩
  refine List.forall_mem_cons.2 ⟨s.noting_unserved t _, ?_⟩
  repeat refine List.forall_mem_cons.2 ⟨s.serve_unserved t _, ?_⟩
  exact List.forall_mem_nil _

/-! ### The steward pair and its comparator (R504-R506, R509) -/

section Steward

variable (s : State) (t : Nat)

/-- While the pair restarts or is down, neither its comparator nor its checkpoint nor the sentinel's poll has an effect. -/
theorem steward_events_idle (flagged : Bool) (result err : Fin 3) (h : s.stewardRuns = false) :
    execLockstepMismatch t s = .next (s.advance t) ∧ execLockstepSelfTest t flagged s = .next (s.advance t)
      ∧ execStewardCheckpoint t err s = .next (s.advance t) ∧ execSentinelPoll t result s = .next (s.advance t) := by
  refine ⟨?_, ?_, ?_, ?_⟩
  · simp [execLockstepMismatch, h]
  · simp [execLockstepSelfTest, h]
  · simp [execStewardCheckpoint, h]
  · simp [execSentinelPoll, h]

/-- The mismatch is counted and logged. -/
def State.mismatchSeen (s : State) : State := (s.bump Ob.lockMismatches).faultLog 4 1 0 0xFF 0 0

theorem execLockstepMismatch_outside_trial (h : s.stewardRuns = true) (hT : s.trial = false) :
    execLockstepMismatch t s = .next ((s.advance t).mismatchSeen.stewardRestart 1) := by
  simp [execLockstepMismatch, State.mismatchSeen, h, hT]

theorem execLockstepMismatch_third_in_trial (h : s.stewardRuns = true) (hT : s.trial = true) (h2 : 2 ≤ s.pantry.trialRestarts) :
    execLockstepMismatch t s = .next (s.advance t).mismatchSeen.fallBack := by
  simp [execLockstepMismatch, State.mismatchSeen, h, hT, show 3 ≤ s.pantry.trialRestarts + 1 by omega]

theorem execLockstepMismatch_counts_in_trial (h : s.stewardRuns = true) (hT : s.trial = true) (h2 : s.pantry.trialRestarts < 2) :
    execLockstepMismatch t s = .next (({ (s.advance t).mismatchSeen with
      pantry := { s.pantry with trialRestarts := s.pantry.trialRestarts + 1 } } : State).stewardRestart 1) := by
  simp [execLockstepMismatch, State.mismatchSeen, h, hT, show ¬ 3 ≤ s.pantry.trialRestarts + 1 by omega]

/-- The other rail is tested next, and the test is counted. -/
def State.selfTested (s : State) : State :=
  ({ s with steward := { s.steward with testRail := 1 - s.steward.testRail } } : State).bump Ob.lockSelfTests

theorem execLockstepSelfTest_flagged (h : s.stewardRuns = true) :
    execLockstepSelfTest t true s = .next { (s.advance t).selfTested with
      steward := { s.steward with testRail := 1 - s.steward.testRail, passed := min 10000 (s.steward.passed + 1) } } := by
  simp [execLockstepSelfTest, State.selfTested, State.railPasses, h]

theorem execLockstepSelfTest_missed (h : s.stewardRuns = true) :
    execLockstepSelfTest t false s = .next ((s.advance t).selfTested.railFails s.steward.testRail) := by
  simp [execLockstepSelfTest, State.selfTested, h]

theorem clearLatent_early (u : State) (h : u.steward.passed < 10000) : clearLatent u = .error Abort.state := if_pos h

theorem clearLatent_passed (u : State) (h : 10000 ≤ u.steward.passed) : clearLatent u =
    .ok { u.wrs [(Ob.lockLatentFault, 0), (Ob.lockTestInterval, 1000)] with steward := { u.steward with deadRail := none } } :=
  if_neg (Nat.not_lt.2 h)

theorem execStewardRestartComplete_idle (h : s.steward.restarting = false) : execStewardRestartComplete t s = .next (s.advance t) := by
  simp [execStewardRestartComplete, h]

/-- The pair is back: it serves again, from a new checkpoint, and raises vector 2. -/
def State.stewardBack (s : State) : State :=
  ({ s with steward := { s.steward with restarting := false, checkpointAt := s.now } } : State).msix 2

theorem execStewardRestartComplete_same_firmware (h : s.steward.restarting = true) (hk : s.pantry.swapTo = none) :
    execStewardRestartComplete t s = .next (s.advance t).stewardBack := by
  simp [execStewardRestartComplete, State.stewardBack, h, hk]

theorem execStewardRestartComplete_swap (k : Nat) (h : s.steward.restarting = true) (hk : s.pantry.swapTo = some k) :
    execStewardRestartComplete t s = .next ((s.advance t).stewardBack.swapIn k) := by
  simp [execStewardRestartComplete, State.stewardBack, h, hk]

theorem execStewardCheckpoint_runs (err : Fin 3) (h : s.stewardRuns = true) :
    execStewardCheckpoint t err s =
      .next { (s.advance t).stewardScrub err with steward := { s.steward with checkpointAt := (s.advance t).now } } := by
  obtain ⟨hsteward, hnow⟩ := (s.advance t).stewardScrub_frame err
  simp [execStewardCheckpoint, h, hsteward, hnow]

/-! ### The sentinel ring (R507) -/

theorem execSentinelPoll_good (result : Fin 3) (h : s.stewardRuns = true) (h0 : result.val = 0) :
    execSentinelPoll t result s = .next { s.advance t with steward := { s.steward with sentinelRestarting := false } } := by
  simp [execSentinelPoll, h, h0]

theorem execSentinelPoll_bad (result : Fin 3) (h : s.stewardRuns = true) (h0 : result.val ≠ 0) :
    execSentinelPoll t result s = .next ((s.advance t).sentinelRestart result.val) := by
  simp [execSentinelPoll, h, h0]

end Steward

/-- Settles O40, command by command. -/
theorem stewardAndSentinel : Obligations.StewardAndSentinel := by
  intro s t k flagged result err
  exact ⟨steward_events_idle s t flagged result err,
    execLockstepMismatch_outside_trial s t,
    execLockstepMismatch_third_in_trial s t,
    execLockstepMismatch_counts_in_trial s t,
    fun h => ⟨execLockstepSelfTest_flagged s t h, execLockstepSelfTest_missed s t h⟩,
    fun hr h => State.serve_aborted hr (clearLatent_early (s.advance t) h),
    fun hr h => State.serve_done hr (clearLatent_passed (s.advance t) h),
    fun hr => State.serve_done hr rfl,
    execStewardRestartComplete_idle s t,
    execStewardRestartComplete_same_firmware s t,
    execStewardRestartComplete_swap s t k,
    execStewardCheckpoint_runs s t err,
    execSentinelPoll_good s t result,
    execSentinelPoll_bad s t result⟩

/-! ### Wake sources (R491-R493) -/

section Wake

variable (s : State) (t : Nat) (wakeIn : Option Bool) (can : Option (Nat × Nat × List (BitVec 8))) (perst lane : Bool)

theorem execWakeSample_ignored
    (h : (s.advance t).wakeMask wakeIn can perst lane = 0 ∨ s.power.vaon = false ∨ (s.power.run = true ∧ s.stopping = false)) :
    execWakeSample t wakeIn can perst lane s = .next (s.advance t) := by
  unfold execWakeSample
  dsimp only [State.advance_power, State.stopping_advance]
  rcases h with hm | hv | ⟨hr, hs⟩
  · simp [hm]
  · simp [hv]
  · simp [hr, hs]

/-- In Stop an enabled source wakes. -/
theorem execWakeSample_wakes (hm : (s.advance t).wakeMask wakeIn can perst lane ≠ 0) (hv : s.power.vaon = true)
    (hr : s.power.run = false) :
    execWakeSample t wakeIn can perst lane s = .next ((s.advance t).wake ((s.advance t).wakeMask wakeIn can perst lane)
      (wakeFrameOf ((s.advance t).wakeMask wakeIn can perst lane) can)) := by
  simp [execWakeSample, hm, hv, hr]

/-- The sources of a Stop entry are gathered, with the latest frame that matched. -/
def State.latchWake (s : State) (m : Nat) (f : Bytes) : State :=
  { s with power := { s.power with
    wakeLatched := s.power.wakeLatched ||| m, wakeFrame := if f.isEmpty then s.power.wakeFrame else f } }

theorem execWakeSample_latches (hm : (s.advance t).wakeMask wakeIn can perst lane ≠ 0) (hv : s.power.vaon = true)
    (hr : s.power.run = true) (hs : s.stopping = true) :
    execWakeSample t wakeIn can perst lane s = .next ((s.advance t).latchWake ((s.advance t).wakeMask wakeIn can perst lane)
      (wakeFrameOf ((s.advance t).wakeMask wakeIn can perst lane) can)) := by
  simp [execWakeSample, State.latchWake, hm, hv, hr, hs]

end Wake

/-! ### The rails of the power-up (R473, R474, R494, R570) -/

/-- In the power-up it is the turn of the rail of step `k` of R473. -/
def State.railTurn (s : State) (k : Nat) : Prop := s.power.run = true ∧ s.power.pwrGood = true ∧ s.power.rails = k

section Rails

variable (s : State) (t : Nat) (step : Fin 8)

/-- The guard of RAIL_IN_WINDOW is the rail's turn. -/
theorem railTurn_iff :
    ((s.advance t).power.run && (s.advance t).power.pwrGood && (s.advance t).power.rails == step.val) = true ↔ s.railTurn step.val := by
  simp [State.railTurn, and_assoc]

theorem execRailInWindow_idle (hn : ¬ s.railTurn step.val) (h : s.powered = false ∨ bit s.power.railsOut step = false) :
    execRailInWindow t step s = .next (s.advance t) := by
  have hout : ((s.advance t).powered && bit (s.advance t).power.railsOut step) = false := Bool.and_eq_false_iff.2 h
  exact congrArg _ ((if_neg (mt (railTurn_iff s t step).1 hn)).trans (if_neg (Bool.eq_false_iff.1 hout)))

/-- A rail that had left its window in Run is back in it. -/
theorem execRailInWindow_back (hn : ¬ s.railTurn step.val) (hp : s.powered = true) (hb : bit s.power.railsOut step = true) :
    execRailInWindow t step s = .next ((s.advance t).railBack step) := by
  have hout : ((s.advance t).powered && bit (s.advance t).power.railsOut step) = true := Bool.and_eq_true_iff.2 ⟨hp, hb⟩
  exact congrArg _ ((if_neg (mt (railTurn_iff s t step).1 hn)).trans (if_pos hout))

/-- A rail whose turn it is connects, VCORE's voltage set before its turn comes, and the last brings the steward up. -/
theorem execRailInWindow_turn (h : s.railTurn step.val) :
    execRailInWindow t step s = .next
      (let s1 := if step.val + 1 = vcoreStep then (s.advance t).presetVcore else s.advance t
       let s2 : State := { s1 with power := { s1.power with rails := step.val + 1 } }
       if step.val = 7 then ({ s2 with power := { s2.power with stewardUp := true } } : State).wr Ob.devRestoreState 1 else s2) :=
  congrArg _ (if_pos ((railTurn_iff s t step).2 h))

theorem execRailInWindow_connects (h : s.railTurn step.val) (hk : step.val < 4 ∨ step.val = 5 ∨ step.val = 6) :
    execRailInWindow t step s = .next { s.advance t with power := { s.power with rails := step.val + 1 } } := by
  have hv : ¬ step.val + 1 = vcoreStep := by unfold vcoreStep; omega
  have hl : ¬ step.val = 7 := by omega
  rw [execRailInWindow_turn s t step h]
  simp only [hv, hl, if_false, State.advance_power]

theorem execRailInWindow_presets (h : s.railTurn step.val) (hk : step.val = 4) :
    execRailInWindow t step s = .next { s.advance t with
      power := { s.power with rails := 5, target := (s.advance t).plannedVcore 2, selected := 2 }
      out := [.avs ((s.advance t).plannedVcore 2)] } := by
  rw [execRailInWindow_turn s t step h, hk]
  rfl

theorem execRailInWindow_last (h : s.railTurn step.val) (hk : step.val = 7) :
    execRailInWindow t step s = .next
      (({ s.advance t with power := { s.power with rails := 8, stewardUp := true } } : State).wr Ob.devRestoreState 1) := by
  rw [execRailInWindow_turn s t step h, hk]
  rfl

/-- The guard of POWERUP_RAIL_TIMEOUT: a power-up has rails left to connect. -/
theorem railsRising_iff : ((s.advance t).power.run && (s.advance t).power.pwrGood && decide ((s.advance t).power.rails < 8)) = true
    ↔ s.power.run = true ∧ s.power.pwrGood = true ∧ s.power.rails < 8 := by
  rw [Bool.and_eq_true, Bool.and_eq_true, decide_eq_true_eq, and_assoc]
  exact Iff.rfl

theorem execPowerupRailTimeout_idle (h : s.power.run = false ∨ s.power.pwrGood = false ∨ 8 ≤ s.power.rails) :
    execPowerupRailTimeout t s = .next (s.advance t) := by
  have hn : ¬ (s.power.run = true ∧ s.power.pwrGood = true ∧ s.power.rails < 8) := by
    rintro ⟨hr, hg, h8⟩
    simp only [hr, hg, Bool.true_eq_false, false_or] at h
    omega
  exact congrArg _ (if_neg (mt (railsRising_iff s t).1 hn))

/-- The power-up ends with a fault of the rail whose turn it was, which is counted and logged. -/
def State.powerUpFault (s : State) (again : Bool) : State :=
  ({ (s.bump Ob.stopPowerUpFaults).sentinelLog 2 (railOf s.power.rails) with power := { s.power with
    rails := 0, pwrGood := false, upFaults := s.power.upFaults + 1, retryDue := again } } : State).emit (.pwrGood false)

/-- The device stays in Stop: cause 6. -/
def State.staysInStop (s : State) : State :=
  let u : State := { s with power := { s.power with run := false } }
  (u.wrs [(Ob.wakeStopSeconds, u.time.rtcSeconds), (Ob.wakeStopCause, 6)]).auxBoth

theorem execPowerupRailTimeout_faults (hr : s.power.run = true) (hg : s.power.pwrGood = true) (h8 : s.power.rails < 8) :
    execPowerupRailTimeout t s = .next
      (if s.power.upFaults + 1 < 3 then (s.advance t).powerUpFault true else ((s.advance t).powerUpFault false).staysInStop) := by
  have hpower : (((s.advance t).bump Ob.stopPowerUpFaults).sentinelLog 2 (railOf s.power.rails)).power = s.power :=
    State.bump_power _ _
  refine congrArg _ ((if_pos ((railsRising_iff s t).2 ⟨hr, hg, h8⟩)).trans ?_)
  dsimp only [State.advance_power]
  by_cases h : s.power.upFaults + 1 < 3
  · simp only [h, hpower, State.powerUpFault, decide_true, if_true, State.advance_power]
  · simp only [h, hpower, State.powerUpFault, decide_false, if_false, State.advance_power]
    rfl

theorem execPowerupRailTimeout_retries (hr : s.power.run = true) (hg : s.power.pwrGood = true) (h8 : s.power.rails < 8)
    (h2 : s.power.upFaults < 2) : execPowerupRailTimeout t s = .next ((s.advance t).powerUpFault true) := by
  rw [execPowerupRailTimeout_faults s t hr hg h8, if_pos (Nat.succ_lt_succ h2)]

theorem execPowerupRailTimeout_third (hr : s.power.run = true) (hg : s.power.pwrGood = true) (h8 : s.power.rails < 8)
    (h2 : 2 ≤ s.power.upFaults) : execPowerupRailTimeout t s = .next ((s.advance t).powerUpFault false).staysInStop := by
  rw [execPowerupRailTimeout_faults s t hr hg h8, if_neg (Nat.not_lt.2 (Nat.succ_le_succ h2))]

theorem execPowerupRetry_due (hr : s.power.run = true) (hd : s.power.retryDue = true) :
    execPowerupRetry t s = .next (s.advance t).powerUp := by
  simp [execPowerupRetry, hr, hd]

theorem execPowerupRetry_idle (h : s.power.run = false ∨ s.power.retryDue = false) : execPowerupRetry t s = .next (s.advance t) := by
  have hg : (s.power.run && s.power.retryDue) = false := Bool.and_eq_false_iff.2 h
  simp [execPowerupRetry, hg]

/-! ### Rails lost, domains (R31, R474, R498, R515, R561) -/

/-- The guard of RAIL_OUT_OF_WINDOW. -/
theorem railUnwatched_iff : (!(s.advance t).powered || (step.val == vcoreStep && (s.advance t).vcoreMoving)) = true
    ↔ s.powered = false ∨ (step.val = 5 ∧ s.vcoreMoving = true) := by
  simp [vcoreStep]

theorem execRailOutOfWindow_unwatched (h : s.powered = false ∨ (step.val = 5 ∧ s.vcoreMoving = true)) :
    execRailOutOfWindow t step s = .next (s.advance t) :=
  congrArg _ (if_pos ((railUnwatched_iff s t step).2 h))

/-- A rail that leaves its window violates assumption 6. -/
def State.railLost (s : State) (step : Nat) : State :=
  let w := ((s.faultLog 7 2 (railOf step) 0xFF 0 0).assume 6).exclude
  { w with power := { w.power with railsOut := setBit w.power.railsOut step true } }

theorem execRailOutOfWindow_lost (hp : s.powered = true) (h : step.val ≠ 5 ∨ s.vcoreMoving = false) :
    execRailOutOfWindow t step s = .next ((s.advance t).railLost step) := by
  have hw : ¬ (s.powered = false ∨ (step.val = 5 ∧ s.vcoreMoving = true)) := by
    rintro (hp' | ⟨h5, hm⟩)
    · simp [hp] at hp'
    · simp [h5, hm] at h
  exact congrArg _ (if_neg (mt (railUnwatched_iff s t step).1 hw))

theorem execPowerOn_again (h : s.power.vaon = true) : execPowerOn t s = .next (s.advance t) := by
  simp [execPowerOn, h]

theorem execPowerOn_first (h : s.power.vaon = false) :
    execPowerOn t s = .next (({ s.advance t with power := { s.power with vaon := true } } : State).wake 0 []) := by
  simp [execPowerOn, h]

/-- All that VAON feeds is lost. -/
def State.vaonLost (s : State) : State :=
  { s.abandonKeep.coldState lifeHolds with
    time := {}, power := { vaon := false, run := false, pwrGood := false, rails := 0, stewardUp := false } }

theorem execVaonLoss_absent (h : s.power.vaon = false) : execVaonLoss t s = .next (s.advance t) := by
  simp [execVaonLoss, h]

theorem execVaonLoss_good (h : s.power.vaon = true) (hg : s.power.pwrGood = true) :
    execVaonLoss t s = .next ((s.advance t).vaonLost.emit (.pwrGood false)) := by
  simp [execVaonLoss, State.vaonLost, h, hg]

theorem execVaonLoss_down (h : s.power.vaon = true) (hg : s.power.pwrGood = false) :
    execVaonLoss t s = .next (s.advance t).vaonLost := by
  simp [execVaonLoss, State.vaonLost, h, hg]

theorem execThermalShutdown_run (hr : s.power.run = true) (hg : s.power.pwrGood = true) :
    execThermalShutdown t s = .next (((s.advance t).abandonKeep.sentinelLog 1 0).stopReached 5) := by
  simp [execThermalShutdown, hr, hg]

theorem execThermalShutdown_idle (h : s.power.run = false ∨ s.power.pwrGood = false) :
    execThermalShutdown t s = .next (s.advance t) := by
  have hg : (s.power.run && s.power.pwrGood) = false := Bool.and_eq_false_iff.2 h
  simp [execThermalShutdown, hg]

theorem execDomainPower_powered (df : Fin 93) (h : s.powered = true) :
    execDomainPowerDown t df s = .next ((s.advance t).domainDown df) ∧ execDomainPowerUp t df s = .next ((s.advance t).domainRaise df) := by
  simp [execDomainPowerDown, execDomainPowerUp, h]

theorem execDomainPower_idle (df : Fin 93) (h : s.powered = false) :
    execDomainPowerDown t df s = .next (s.advance t) ∧ execDomainPowerUp t df s = .next (s.advance t) := by
  simp [execDomainPowerDown, execDomainPowerUp, h]

end Rails

/-- Settles O22, command by command. -/
theorem wakeAndPowerUp : Obligations.WakeAndPowerUp := by
  intro s t wakeIn can perst lane step df
  exact ⟨execWakeSample_ignored s t wakeIn can perst lane,
    execWakeSample_wakes s t wakeIn can perst lane,
    execWakeSample_latches s t wakeIn can perst lane,
    execRailInWindow_idle s t step,
    fun hn hp hb => ⟨_, rfl, execRailInWindow_back s t step hn hp hb⟩,
    execRailInWindow_connects s t step,
    execRailInWindow_presets s t step,
    execRailInWindow_last s t step,
    execPowerupRailTimeout_idle s t,
    fun hr hg h8 => ⟨execPowerupRailTimeout_retries s t hr hg h8,
      fun h2 => ⟨_, rfl, execPowerupRailTimeout_third s t hr hg h8 h2⟩⟩,
    execPowerupRetry_due s t,
    execPowerupRetry_idle s t,
    execRailOutOfWindow_unwatched s t step,
    execRailOutOfWindow_lost s t step,
    execPowerOn_again s t,
    fun h => ⟨execPowerOn_first s t h, execVaonLoss_absent s t h⟩,
    execVaonLoss_good s t,
    execVaonLoss_down s t,
    execThermalShutdown_run s t,
    execThermalShutdown_idle s t,
    execDomainPower_powered s t df,
    execDomainPower_idle s t df⟩

end Sys2Proof.Machine

/-! Proofs about the contracts' family: drives and recordings (O20), join ports (O29), admission (O32), commits (O33), withdrawal
and replacement (O34), commits across an array (O35), the checks of a dictionary write (O36). -/

namespace Sys2Proof.Machine

open Sys2Proof

/-! ### What the passing of time leaves alone -/

@[simp] theorem State.driveS_advance (s : State) (t k : Nat) : (s.advance t).driveS k = s.driveS k := rfl
@[simp] theorem State.isLead_advance (s : State) (t : Nat) : (s.advance t).isLead = s.isLead := rfl
@[simp] theorem State.recording_advance (s : State) (t n : Nat) : (s.advance t).recording n = s.recording n := rfl
@[simp] theorem State.slot_advance (s : State) (t n : Nat) : (s.advance t).slot n = s.slot n := rfl

/-! ### Qualification of a drive (R370) -/

section Qualify

variable {s : State} {t k mWrite mRead : Nat} {p : Fin 6}

/-- Port `k` holds a drive that takes commands and has room for the qualification. -/
def State.qualifiable (s : State) (k : Nat) : Bool :=
  (s.rd (Ob.storDriveState k) == 1 || s.rd (Ob.storDriveState k) == 3 || s.rd (Ob.storDriveState k) == 4 || s.rd (Ob.storDriveState k) == 5)
    && decide (s.rd (Ob.storQualifyBytes k) ≤ s.rd (Ob.storCapacity k))

theorem qualify_used (h : s.portUsed k = true) : qualify k s = .error Abort.state := if_pos h

theorem qualify_starts (h : s.portUsed k = false) (hq : s.qualifiable k = true) :
    qualify k s = .ok ((s.setDrive k { s.driveS k with qualifyResult := some 1 }).setDriveState k 3) :=
  (if_neg (Bool.eq_false_iff.1 h)).trans (if_pos hq)

theorem qualify_notes (h : s.portUsed k = false) (hq : s.qualifiable k = false) :
    qualify k s = .ok (s.setDrive k { s.driveS k with qualifyResult := some 0x4F }) :=
  (if_neg (Bool.eq_false_iff.1 h)).trans (if_neg (Bool.eq_false_iff.1 hq))

theorem execQualifyComplete_idle (h : s.rd (Ob.storDriveState p) ≠ 3) : execQualifyComplete t p mWrite mRead s = .next (s.advance t) :=
  congrArg _ (if_pos (bne_iff_ne.2 h))

/-- The rates are kept and the drive is no member of the set. -/
def State.qualifiedAs (s : State) (k mWrite mRead : Nat) : State :=
  s.wrs [(Ob.storQualifiedRate k, qualifiedRate mWrite), (Ob.storQualifiedReadRate k, qualifiedRate mRead),
    (Ob.storQualifiedAt k, s.stampNow), (Ob.storPosition k, 0xFF), (Ob.ssetSetMembers, setBit (s.rd Ob.ssetSetMembers) k false)]

/-- The qualification of port `k` ends with success, and its log begins anew. -/
def State.qualifyEnded (s : State) (k : Nat) : State := s.setDrive k { s.driveS k with qualifyResult := some 0, next := 0 }

/-- The octets that the qualification wrote are deallocated. -/
def State.testDeallocated (s : State) (k : Nat) : State :=
  s.issue k { op := 9, lba := 1024, blocks := s.rd (Ob.storQualifyBytes k) / 4096 }

theorem execQualifyComplete_qualifies (h : s.rd (Ob.storDriveState p) = 3) : execQualifyComplete t p mWrite mRead s =
    .next (((((s.advance t).qualifiedAs p mWrite mRead).qualifyEnded p).testDeallocated p).setDriveState p 4).freeUnits :=
  congrArg _ (if_neg (by simpa using h))

end Qualify

/-! ### The storage set and its recordings (R371, R377, R378) -/

section Set

variable {s : State} {mask num k : Nat} {e : DirEntry}

theorem formSet_used (h : s.storageUsed = true) : formSet mask s = .error Abort.state := if_pos h

theorem formSet_badMask (h : s.storageUsed = false) (hm : 64 ≤ mask) : formSet mask s = .error Abort.range :=
  (if_neg (Bool.eq_false_iff.1 h)).trans (if_pos hm)

/-- The guard against a port of the mask without a drive that can be formed in. -/
theorem State.unformable_iff (s : State) (mask : Nat) :
    ((bitsSet 6 mask).any fun k => !s.formable k) = true ↔ ∃ q, q ∈ bitsSet 6 mask ∧ s.formable q = false := by
  simp

theorem formSet_unformable (h : s.storageUsed = false) (hm : mask < 64) (hq : ∃ q, q ∈ bitsSet 6 mask ∧ s.formable q = false) :
    formSet mask s = .error Abort.state :=
  (if_neg (Bool.eq_false_iff.1 h)).trans ((if_neg (Nat.not_le.2 hm)).trans (if_pos ((s.unformable_iff mask).2 hq)))

/-- The objects of a new set. -/
def State.newSet (s : State) (mask setId : Nat) : State :=
  s.wrs [(Ob.ssetSetMembers, mask), (Ob.ssetSetId, setId), (Ob.ssetNextRecording, 1)]

/-- No recording is listed. -/
def State.emptyDirectory (s : State) : State := { s with store := { s.store with directory := [] } }

theorem formSet_forms (h : s.storageUsed = false) (hm : mask < 64) (hq : ∀ q, q ∈ bitsSet 6 mask → s.formable q = true) :
    formSet mask s = .ok ((List.range 6).foldl (State.formPort mask ((s.free 371).1 % 2 ^ 64))
      ((s.free 371).2.newSet mask ((s.free 371).1 % 2 ^ 64)).emptyDirectory).freeUnits := by
  have hnone : ¬ ∃ q, q ∈ bitsSet 6 mask ∧ s.formable q = false := by
    rintro ⟨q, hmem, hf⟩
    simp [hq q hmem] at hf
  exact (if_neg (Bool.eq_false_iff.1 h)).trans ((if_neg (Nat.not_le.2 hm)).trans (if_neg (mt (s.unformable_iff mask).1 hnone)))

theorem deleteRecording_unknown (h : (s.store.directory.find? fun e => e.number == num) = none) :
    deleteRecording num s = .error Abort.range := by
  simp only [deleteRecording, h]

theorem deleteRecording_inUse (h : (s.store.directory.find? fun e => e.number == num) = some e)
    (hu : e.st = 1 ∨ s.replayReads num = true) : deleteRecording num s = .error Abort.state := by
  simp only [deleteRecording, h]
  exact if_pos (by simpa using hu)

/-- The entry of recording `num` reads Deleted. -/
def State.entryDeleted (s : State) (num : Nat) : State := s.modEntry num fun e => { e with st := 4 }

theorem deleteRecording_deletes (h : (s.store.directory.find? fun e => e.number == num) = some e) (h1 : e.st ≠ 1)
    (hr : s.replayReads num = false) : deleteRecording num s =
      .ok ((((s.entryDeleted num).members.foldl (State.deallocate e) (s.entryDeleted num)).writeEntry num).freeUnits) := by
  simp only [deleteRecording, h, hr, Bool.or_false]
  exact if_neg (by simpa using h1)

theorem reinstate_notFailed {ok : Bool} (h : s.rd (Ob.storDriveState k) ≠ 6) : reinstate k ok s = .error Abort.state :=
  if_pos (bne_iff_ne.2 h)

/-- The result of Reinstate is noted, and the drive identified again. -/
def State.reinstateNoted (s : State) (k code : Nat) : State :=
  (s.setDrive k { s.driveS k with reinstateResult := some code }).emit (.nvme k 256 0 0 false)

theorem reinstate_fails (h : s.rd (Ob.storDriveState k) = 6) : reinstate k false s = .ok (s.reinstateNoted k 0x4F) :=
  if_neg (by simpa using h)

theorem reinstate_passes (h : s.rd (Ob.storDriveState k) = 6) : reinstate k true s =
    .ok (((s.reinstateNoted k 0).wr (Ob.storFailCause k) 0).setDriveState k (if bit (s.rd Ob.ssetSetMembers) k then 5 else 4)).drivesFollow :=
  if_neg (by simpa using h)

end Set

/-! ### Commands of a drive: completions, timeouts, the link, the health poll (R66, R369, R376, R378) -/

section Nvme

variable {s : State} {t cid : Nat} {p : Fin 6} {status : Fin 3} {data : Bytes} {c : NCmd} {removed : Bool}

theorem execNvmeCompletion_fatal (h : status.val = 2) : execNvmeCompletion t p cid status data s = .next ((s.advance t).driveFail p 2) :=
  congrArg _ (if_pos h)

theorem execNvmeCompletion_unknown (h : status.val ≠ 2) (hc : (s.driveS p).out[cid]? = none) :
    execNvmeCompletion t p cid status data s = .next (s.advance t) := by
  simp [execNvmeCompletion, h, hc]

/-- Command `cid` of port `k` is no longer outstanding. -/
def State.commandDone (s : State) (k cid : Nat) : State :=
  s.setDrive k { s.driveS k with out := (s.driveS k).out.eraseIdx cid }

section Done

variable (h : status.val = 0) (hc : (s.driveS p).out[cid]? = some c)

include h hc

theorem execNvmeCompletion_written (ho : c.op = 1) : execNvmeCompletion t p cid status data s = .next
    ((if c.slot < 64 then (((s.advance t).commandDone p cid).bumpBy (Ob.storWrittenBytes p) (4096 * c.blocks)).unitWritten c
      else ((s.advance t).commandDone p cid).bumpBy (Ob.storWrittenBytes p) (4096 * c.blocks)).issueNext p) := by
  simp [execNvmeCompletion, State.commandDone, h, hc, ho]

theorem execNvmeCompletion_health (ho : c.op = 258) : execNvmeCompletion t p cid status data s = .next
    ((((s.advance t).commandDone p cid).setDom (Ob.storHealth p) (data.take 512)).issueNext p) := by
  simp [execNvmeCompletion, State.commandDone, h, hc, ho]

theorem execNvmeCompletion_other (h1 : c.op ≠ 1) (h258 : c.op ≠ 258) :
    execNvmeCompletion t p cid status data s = .next (((s.advance t).commandDone p cid).issueNext p) := by
  simp [execNvmeCompletion, State.commandDone, h, hc, h1, h258]

end Done

section Error

/-- Command `cid` of port `k` has completed with an error, which is counted. -/
def State.commandBad (s : State) (k cid : Nat) : State := (s.commandDone k cid).bump (Ob.storErrorStatuses k)

variable (h : status.val = 1) (hc : (s.driveS p).out[cid]? = some c)

include h hc

theorem execNvmeCompletion_failsAgain (ho : c.op = 1) (hr : c.retried = true) :
    execNvmeCompletion t p cid status data s = .next (((s.advance t).commandBad p cid).driveFail p 4) := by
  simp [execNvmeCompletion, State.commandBad, State.commandDone, h, hc, ho, hr]

theorem execNvmeCompletion_retries (ho : c.op = 1) (hr : c.retried = false) : execNvmeCompletion t p cid status data s = .next
    ((((s.advance t).commandBad p cid).issue p { c with retried := true }).issue p { op := 257 }) := by
  simp [execNvmeCompletion, State.commandBad, State.commandDone, h, hc, ho, hr]

theorem execNvmeCompletion_errorRead (ho : c.op ≠ 1) : execNvmeCompletion t p cid status data s = .next
    ((((s.advance t).commandBad p cid).issue p { op := 257 }).issueNext p) := by
  simp [execNvmeCompletion, State.commandBad, State.commandDone, h, hc, ho]

end Error

theorem execNvmeCommandTimeout_none (h : (s.driveS p).out = []) : execNvmeCommandTimeout t p s = .next (s.advance t) := by
  simp [execNvmeCommandTimeout, h]

theorem execNvmeCommandTimeout_fails (h : (s.driveS p).out ≠ []) : execNvmeCommandTimeout t p s =
    .next ((((s.advance t).bump (Ob.storCommandTimeouts p)).assume 2).driveFail p 1) := by
  simp [execNvmeCommandTimeout, h]

theorem execDriveLinkLoss_noDrive (h : s.rd (Ob.storDriveState p) = 0 ∨ s.rd (Ob.storDriveState p) = 6) :
    execDriveLinkLoss t p removed s = .next ((s.advance t).wr (Ob.storLinkState p) 0) := congrArg _ (if_pos h)

theorem execDriveLinkLoss_fails (h0 : s.rd (Ob.storDriveState p) ≠ 0) (h6 : s.rd (Ob.storDriveState p) ≠ 6) :
    execDriveLinkLoss t p removed s = .next (((s.advance t).wr (Ob.storLinkState p) 0).driveFail p (if removed then 5 else 3)) :=
  congrArg _ (if_neg (not_or.2 ⟨h0, h6⟩))

theorem execHealthLogPoll_idle (h : s.rd (Ob.storDriveState p) = 0 ∨ s.rd (Ob.storDriveState p) = 2 ∨ s.rd (Ob.storDriveState p) = 6) :
    execHealthLogPoll t p s = .next (s.advance t) := congrArg _ (if_pos h)

theorem execHealthLogPoll_issues (h0 : s.rd (Ob.storDriveState p) ≠ 0) (h2 : s.rd (Ob.storDriveState p) ≠ 2)
    (h6 : s.rd (Ob.storDriveState p) ≠ 6) :
    execHealthLogPoll t p s = .next (((s.advance t).issue p { op := 257 }).issue p { op := 258 }) :=
  congrArg _ (if_neg (not_or.2 ⟨h0, not_or.2 ⟨h2, h6⟩⟩))

end Nvme

/-! ### The open recording of a slot (R372, R373) -/

section Recording

variable {s : State} {t : Nat} {n : Fin 64} {x : Recording}

theorem recordingEvents_noRecording (h : s.recording n = none) :
    execUnitIdleTimeout t n s = .next (s.advance t) ∧ execDirectoryUpdate t n s = .next (s.advance t) := by
  simp [execUnitIdleTimeout, execDirectoryUpdate, h]

variable (h : s.recording n = some x)

include h

theorem execDirectoryUpdate_follows : execDirectoryUpdate t n s = .next (((s.advance t).entryFollow n).writeEntry x.number) := by
  simp [execDirectoryUpdate, h]

theorem execUnitIdleTimeout_closes (hi : x.recordAt + s.us 100000 ≤ (s.advance t).now) :
    execUnitIdleTimeout t n s = .next ((s.advance t).closeUnit n false false false) := by
  simp only [execUnitIdleTimeout, State.recording_advance, h]
  exact congrArg _ (if_pos hi)

theorem execUnitIdleTimeout_early (hi : (s.advance t).now < x.recordAt + s.us 100000) : execUnitIdleTimeout t n s = .next (s.advance t) := by
  simp only [execUnitIdleTimeout, State.recording_advance, h]
  exact congrArg _ (if_neg (Nat.not_le.2 hi))

end Recording

/-! ### Attachment of a drive (R369, R379) -/

section Attach

variable {s : State} {t rate width capacity units : Nat} {p : Fin 6} {ok : Bool} {name dir : Bytes} {label : Option (Nat × Nat × Nat)}

theorem execDriveAttach_idle (h : s.rd (Ob.storEnable p) = 0 ∨ s.rd (Ob.storDriveState p) = 6) :
    execDriveAttach t p ok rate width capacity units name label dir s = .next (s.advance t) := by
  refine congrArg _ (if_pos ?_)
  rcases h with h | h <;> simp [State.rdB, h]

/-- What Identify reads of an attached drive. -/
def State.attached (s : State) (k rate width capacity units : Nat) (name : Bytes) : State :=
  ((((((s.setQuad (20 + k) 0).wrs [(Ob.storLinkState k, rate % 256 * 256 + width % 256), (Ob.storCapacity k, capacity % 2 ^ 64)]).setDom
    (Ob.storDriveId k) name).setDrive k { s.driveS k with units := units, out := [], queue := [] }).emit (.nvme k 256 0 0 false)).emit
      (.nvme k 259 0 0 false))

variable (he : s.rd (Ob.storEnable p) ≠ 0) (h6 : s.rd (Ob.storDriveState p) ≠ 6)

include he h6

theorem execDriveAttach_unsupported : execDriveAttach t p false rate width capacity units name label dir s = .next
    (((s.advance t).attached p rate width capacity units name).setDriveState p 2) :=
  congrArg _ (if_neg (by simp [State.rdB, he, h6]))

theorem execDriveAttach_unlabelled : execDriveAttach t p true rate width capacity units name none dir s = .next
    (((s.advance t).attached p rate width capacity units name).setDriveState p (if s.rd (Ob.storQualifiedRate p) = 0 then 1 else 4)) :=
  congrArg _ (if_neg (by simp [State.rdB, he, h6]))

theorem execDriveAttach_labelled {pos mask setId : Nat} :
    execDriveAttach t p true rate width capacity units name (some (pos, mask, setId)) dir s = .next
      (((s.advance t).attached p rate width capacity units name).adoptLabel p pos mask setId (entriesOf 4096 dir)) :=
  congrArg _ (if_neg (by simp [State.rdB, he, h6]))

end Attach

/-- Settles O20, command by command. -/
theorem drivesAndRecordings : Obligations.DrivesAndRecordings := by
  intro s t mask num mWrite mRead cid rate width capacity units pos setId port nf ok status data name dir label e c x
  exact ⟨fun hr h => State.serve_aborted hr (qualify_used h),
    fun hr h hq => State.serve_done hr (qualify_starts h hq),
    fun hr h hq => State.serve_done hr (qualify_notes h hq),
    execQualifyComplete_idle,
    fun h => ⟨_, _, rfl, rfl, execQualifyComplete_qualifies h⟩,
    fun hr h => State.serve_aborted hr (formSet_used h),
    fun hr h hm => State.serve_aborted hr (formSet_badMask h hm),
    fun hr h hm hq => State.serve_aborted hr (formSet_unformable h hm hq),
    fun hr h hm hq => ⟨_, rfl, State.serve_done hr (formSet_forms h hm hq)⟩,
    fun hr h => State.serve_aborted hr (deleteRecording_unknown h),
    fun hr h hu => State.serve_aborted hr (deleteRecording_inUse h hu),
    fun hr h h1 hn => State.serve_done hr (deleteRecording_deletes h h1 hn),
    fun hr h => State.serve_aborted hr (reinstate_notFailed h),
    fun hr h => State.serve_done hr (reinstate_fails h),
    fun hr h => State.serve_done hr (reinstate_passes h),
    execNvmeCompletion_fatal,
    execNvmeCompletion_unknown,
    execNvmeCompletion_written,
    execNvmeCompletion_health,
    execNvmeCompletion_other,
    execNvmeCompletion_failsAgain,
    execNvmeCompletion_retries,
    execNvmeCompletion_errorRead,
    execNvmeCommandTimeout_none,
    execNvmeCommandTimeout_fails,
    execDriveLinkLoss_noDrive,
    execDriveLinkLoss_fails,
    execDriveLinkLoss_fails,
    recordingEvents_noRecording,
    execDirectoryUpdate_follows,
    execUnitIdleTimeout_closes,
    execUnitIdleTimeout_early,
    execHealthLogPoll_idle,
    execHealthLogPoll_issues,
    execDriveAttach_idle,
    fun he h6 => ⟨execDriveAttach_unsupported he h6, execDriveAttach_unlabelled (dir := dir) he h6, execDriveAttach_labelled he h6⟩⟩

/-! ### Join ports: sleep, test, counters and calibration (R385, R390, R392, R402, R408) -/

section Sleep

variable {s : State} {t : Nat} {p : Fin 4} {rx : Bool}

/-- Nothing uses the outbound direction of port `k`, which may sleep (R390). -/
def State.OutboundQuiet (s : State) (k : Nat) : Prop :=
  s.rd (Ob.joinSleepEnable k) ≠ 0 ∧ s.rd (Ob.joinBulkCharged k) = 0 ∧ s.directionUsed k false = false ∧ (s.portS k).unacked = []

theorem State.outboundQuiet_iff (s : State) (k : Nat) :
    (s.rdB (Ob.joinSleepEnable k) && s.rd (Ob.joinBulkCharged k) == 0 && !s.directionUsed k false && (s.portS k).unacked.isEmpty) = true
      ↔ s.OutboundQuiet k := by
  simp [State.OutboundQuiet, State.rdB, and_assoc]

theorem execDirectionSleep_rx (h : s.rd (Ob.joinState p) = 6) :
    execDirectionSleep t p true s = .next ((s.advance t).wr (Ob.joinRxSleep p) 1) := by
  simp [execDirectionSleep, h]

theorem execDirectionSleep_tx (h : s.rd (Ob.joinState p) = 6) (hq : s.OutboundQuiet p) :
    execDirectionSleep t p false s = .next ((s.advance t).wr (Ob.joinTxSleep p) 1) :=
  congrArg _ ((if_neg (not_not.2 h)).trans ((if_neg Bool.false_ne_true).trans (if_pos (((s.advance t).outboundQuiet_iff p).2 hq))))

theorem execDirectionSleep_awake (h : s.rd (Ob.joinState p) ≠ 6 ∨ (rx = false ∧ ¬ s.OutboundQuiet p)) :
    execDirectionSleep t p rx s = .next (s.advance t) := by
  by_cases h6 : s.rd (Ob.joinState p) = 6
  · obtain ⟨rfl, hq⟩ := h.resolve_left (not_not.2 h6)
    exact congrArg _ ((if_neg (not_not.2 h6)).trans ((if_neg Bool.false_ne_true).trans
      (if_neg (mt ((s.advance t).outboundQuiet_iff p).1 hq))))
  · exact congrArg _ (if_pos h6)

theorem execDirectionWakeComplete_rx : execDirectionWakeComplete t p true s = .next ((s.advance t).wr (Ob.joinRxSleep p) 0) := by
  simp [execDirectionWakeComplete]

theorem execDirectionWakeComplete_tx (h : s.rd (Ob.joinTxSleep p) = 2) :
    execDirectionWakeComplete t p false s = .next ((s.advance t).wr (Ob.joinTxSleep p) 0) := by
  simp [execDirectionWakeComplete, h]

theorem execDirectionWakeComplete_notWaking (h : s.rd (Ob.joinTxSleep p) ≠ 2) :
    execDirectionWakeComplete t p false s = .next (s.advance t) := by
  simp [execDirectionWakeComplete, h]

end Sleep

section TestMode

variable {s : State} {k v : Nat}

/-- No route, time-tree hop or bulk flow uses port `k`. -/
def State.PortFree (s : State) (k : Nat) : Prop := s.joinUsed k = false ∧ s.rd (Ob.joinBulkCharged k) = 0

theorem State.portFree_iff (s : State) (k : Nat) : (s.joinUsed k || s.rd (Ob.joinBulkCharged k) != 0) = true ↔ ¬ s.PortFree k := by
  simp [State.PortFree, Classical.or_iff_not_imp_left]

theorem joinTestMode_used (h : ¬ s.PortFree k) : joinTestMode k v s = .error Abort.state := if_pos ((s.portFree_iff k).2 h)

variable (h : s.PortFree k)

include h

theorem joinTestMode_free : joinTestMode k v s =
    if 2 ≤ v then .error Abort.range
    else if v = s.rd (Ob.joinTestMode k) then .ok s
    else if v = 1 then .ok ((s.leaveActive k 8).wrs [(Ob.joinTestMode k, 1), (Ob.joinPrbsLock k, 0)])
    else .ok ((s.prbsStop k).wrs [(Ob.joinTestMode k, 0), (Ob.joinPrbsLock k, 0), (Ob.joinState k, 2)]) :=
  if_neg (mt (s.portFree_iff k).1 (not_not.2 h))

theorem joinTestMode_outOfRange (hv : 2 ≤ v) : joinTestMode k v s = .error Abort.range := (joinTestMode_free h).trans (if_pos hv)

theorem joinTestMode_same (hv : v < 2) (he : v = s.rd (Ob.joinTestMode k)) : joinTestMode k v s = .ok s :=
  (joinTestMode_free h).trans ((if_neg (Nat.not_le.2 hv)).trans (if_pos he))

theorem joinTestMode_starts (he : 1 ≠ s.rd (Ob.joinTestMode k)) :
    joinTestMode k 1 s = .ok ((s.leaveActive k 8).wrs [(Ob.joinTestMode k, 1), (Ob.joinPrbsLock k, 0)]) :=
  (joinTestMode_free h).trans (if_neg he)

theorem joinTestMode_stops (he : 0 ≠ s.rd (Ob.joinTestMode k)) :
    joinTestMode k 0 s = .ok ((s.prbsStop k).wrs [(Ob.joinTestMode k, 0), (Ob.joinPrbsLock k, 0), (Ob.joinState k, 2)]) :=
  (joinTestMode_free h).trans (if_neg he)

end TestMode

section Upkeep

variable {s : State} {t k : Nat} {p : Fin 4} {lane : Fin 8} {l : List Nat}

theorem execPrbsCheckerLock_testing (h : s.rd (Ob.joinState p) = 8) : execPrbsCheckerLock t p lane s =
    .next (((s.advance t).wr (Ob.joinPrbsLock p) (setBit (s.rd (Ob.joinPrbsLock p)) lane true)).setPort p
      { s.portS p with prbsSince := some ((s.portS p).prbsSince.getD (s.advance t).now) }) := by
  simp only [execPrbsCheckerLock, State.rd_advance, h]
  rfl

theorem execPrbsCheckerLock_notTesting (h : s.rd (Ob.joinState p) ≠ 8) : execPrbsCheckerLock t p lane s = .next (s.advance t) := by
  simp [execPrbsCheckerLock, h]

/-- The ports that Calibrate retrains in turn. -/
def State.activePorts (s : State) : List Nat := (List.range 4).filter fun k => s.rd (Ob.joinState k) == 6

/-- Calibrate has these ports before it. -/
def State.calibrating (s : State) (l : List Nat) : State := { s with arr := { s.arr with calib := some l } }

theorem joinCalibrate_soleRoute (h : s.soleRoute = true) : joinCalibrate s = .error Abort.state := if_pos h

theorem joinCalibrate_noPort (h : s.soleRoute = false) (ha : s.activePorts = []) : joinCalibrate s = .ok (s.calibrating []) := by
  unfold State.activePorts at ha
  simp [joinCalibrate, State.calibrating, h, ha]

theorem joinCalibrate_first (h : s.soleRoute = false) (ha : s.activePorts = k :: l) :
    joinCalibrate s = .ok ((s.calibrating (k :: l)).retrainPort k) := by
  unfold State.activePorts at ha
  simp [joinCalibrate, State.calibrating, h, ha]

theorem execJoinAssumptionFlagClear_quiet (h : s.arr.lossAt + s.second ≤ (s.advance t).now) : execJoinAssumptionFlagClear t s =
    .next ((s.advance t).wr Ob.admAssumptionFlags (setBit (s.rd Ob.admAssumptionFlags) 4 false)) := congrArg _ (if_pos h)

theorem execJoinAssumptionFlagClear_early (h : (s.advance t).now < s.arr.lossAt + s.second) :
    execJoinAssumptionFlagClear t s = .next (s.advance t) := congrArg _ (if_neg (Nat.not_le.2 h))

end Upkeep

/-- Settles O29, command by command. -/
theorem joinUpkeep : Obligations.JoinUpkeep := by
  intro s t v pf rx laneF l
  exact ⟨execDirectionSleep_awake,
    execDirectionSleep_rx,
    execDirectionSleep_tx,
    execDirectionWakeComplete_rx,
    execDirectionWakeComplete_tx,
    execDirectionWakeComplete_notWaking,
    fun hr h => State.serve_aborted hr (joinTestMode_used h),
    fun hr h hv => State.serve_aborted hr (joinTestMode_outOfRange h hv),
    fun hr h hv he => State.serve_done hr (joinTestMode_same h hv he),
    fun hr h he => State.serve_done hr (joinTestMode_starts h he),
    fun hr h he => State.serve_done hr (joinTestMode_stops h he),
    execPrbsCheckerLock_testing,
    execPrbsCheckerLock_notTesting,
    fun hr => State.serve_done hr rfl,
    fun hr h => State.serve_aborted hr (joinCalibrate_soleRoute h),
    fun hr h ha => State.serve_done hr (joinCalibrate_noPort h ha),
    fun hr h ha => State.serve_done hr (joinCalibrate_first h ha),
    execJoinAssumptionFlagClear_quiet,
    execJoinAssumptionFlagClear_early⟩

/-! ### Admission of a slot, and the check of one (R60, R62, R72, R73) -/

/-- What an Admit of slot `n` asks for, a Successor with a gap or without. -/
def State.askOf (s : State) (n : Nat) (drive : List (Nat × Nat × Bool)) (gap : Bool) : Ask :=
  { n := n, drive := drive, pts := s.pointsOf n, skip := if gap then s.replaces n else none, spares := (s.replaces n).isSome && !gap }

section Admission

variable {s : State} {n : Nat} {drive : List (Nat × Nat × Bool)} {r : Refusal4x} {g : Grant} {gap : Bool}

theorem admitAction_busy (h : s.stopping = true ∨ 2 ≤ s.rd (Ob.slotState n)) : admitAction n drive s = .error Abort.state :=
  if_pos (by simpa using h)

variable (hs : s.stopping = false)

include hs

theorem admitAction_empty (h : s.rd (Ob.slotState n) = 0) : admitAction n drive s = .ok (s.refuse n { code := 0x4F }) := by
  simp [admitAction, hs, h]

theorem admitAction_refused (h : s.rd (Ob.slotState n) = 1) (hd : s.decideAdmission n drive = .error r) :
    admitAction n drive s = .ok (s.refuse n r) := by
  simp [admitAction, hs, h, hd]

theorem admitAction_granted (h : s.rd (Ob.slotState n) = 1) (hd : s.decideAdmission n drive = .ok (g, gap)) :
    admitAction n drive s = .ok (s.install (s.askOf n drive gap) g gap) := by
  simp [admitAction, State.askOf, hs, h, hd]

end Admission

section Check

variable {s : State} {c : Nat} {drive : List (Nat × Nat × Bool)} {r : Refusal4x} {g : Grant × Bool}

theorem checkAction_noSlot (h : 64 ≤ c) : checkAction c drive s = .error Abort.range := if_pos h

/-- The result of Check. -/
def State.checked (s : State) (code : Nat) : State := { s with life := { s.life with checkResult := some code } }

variable (h : c < 64)

include h

theorem checkAction_empty (h0 : s.rd (Ob.slotState c) = 0) :
    checkAction c drive s = .ok ((s.noteRefusal c { code := 0x4F }).checked 0x4F) := by
  simp [checkAction, State.checked, Nat.not_le.2 h, h0]

theorem checkAction_refused (h0 : s.rd (Ob.slotState c) ≠ 0) (hd : s.decideAdmission c drive = .error r) :
    checkAction c drive s = .ok ((s.noteRefusal c r).checked r.code) := by
  simp [checkAction, State.checked, Nat.not_le.2 h, h0, hd]

theorem checkAction_granted (h0 : s.rd (Ob.slotState c) ≠ 0) (hd : s.decideAdmission c drive = .ok g) :
    checkAction c drive s = .ok ((s.wr Ob.admLastCode 0).checked 0) := by
  simp [checkAction, State.checked, Nat.not_le.2 h, h0, hd]

end Check

/-- Settles O32, case by case of the two actions. -/
theorem slotAdmission : Obligations.SlotAdmission := by
  intro s t c nf drive r g gap
  exact ⟨fun hr h => State.serve_aborted hr (admitAction_busy h),
    fun hr hs h => State.serve_done hr (admitAction_empty hs h),
    fun hr hs h hd => State.serve_done hr (admitAction_refused hs h hd),
    fun hr hs h hd => State.serve_done hr (admitAction_granted hs h hd),
    fun hr h => State.serve_aborted hr (checkAction_noSlot h),
    fun hr h h0 => State.serve_done hr (checkAction_empty h h0),
    fun hr h h0 hd => State.serve_done hr (checkAction_refused h h0 hd),
    fun hr h h0 hd => State.serve_done hr (checkAction_granted h h0 hd)⟩

/-! ### Arming, cancelling, gating and applying the commit of a slot (R67, R70, R75, R78, R576) -/

section Commit

variable {s : State} {n tc T : Nat}

theorem commitAction_held (h : (s.slot n).holds = true) : commitAction n tc s = .error Abort.state := if_pos h

/-- What a commit of slot `n` at `tc` comes to, its checks starting now. -/
def State.commitVerdict (s : State) (n tc : Nat) : Except Refusal4x (Nat × Nat) :=
  (s.taken 1).commitDecision n (if tc = 0 then 0 else s.unstamp tc) (s.devNow + s.nth 70 0 % (s.us 2000 + 1)) (s.us 100)

theorem commitAction_arms (h : (s.slot n).holds = false) (hv : s.commitVerdict n tc = .ok (1, T)) :
    commitAction n tc s = .ok (((s.taken 1).armCommit n T 0 false).wr Ob.admLastCode 0) := by
  unfold State.commitVerdict at hv
  simp [commitAction, h, hv]

theorem commitAction_notArmed (h : (s.slot n).holds = false) (hv : ∀ T, s.commitVerdict n tc ≠ .ok (1, T)) :
    commitAction n tc s = .ok ((s.taken 1).commitResult n (s.commitVerdict n tc)) := by
  simp only [commitAction, h, Bool.false_eq_true, if_false]
  refine congrArg _ ?_
  split
  · next T hT => exact absurd hT (hv T)
  · rfl

theorem cancelAction_successor (h : s.rd (Ob.slotState n) = 3) (hs : (s.slot n).switchAt = none) :
    cancelAction n s = .ok (s.endSuccessor n 2) := by
  simp [cancelAction, State.unswitched, h, hs]

theorem cancelAction_switched (h : s.rd (Ob.slotState n) = 3) (hs : (s.slot n).switchAt ≠ none) :
    cancelAction n s = .error Abort.state := by
  simp [cancelAction, State.unswitched, h, hs]

theorem cancelAction_held (h : s.rd (Ob.slotState n) ≠ 3) (hh : (s.slot n).holds = true) :
    cancelAction n s = .ok (((s.together n).foldl (fun v m => v.disarm m 2) s).leaveArray n 2) := by
  simp [cancelAction, State.cancelCommit, h, hh]

theorem cancelAction_idle (h : s.rd (Ob.slotState n) ≠ 3) (hh : (s.slot n).holds = false) : cancelAction n s = .ok s := by
  simp [cancelAction, State.cancelCommit, h, hh]

end Commit

section Gate

variable {s : State} {t T : Nat} {n : Fin 64}

theorem execSluiceGateArm_idle (h : (s.slot n).armed = none ∨ (s.slot n).bankLoaded = true ∨ (s.slot n).awaitConfirm = true
      ∨ s.rd (Ob.slotState n) ≠ 2 ∨ ∃ T, (s.slot n).armed = some T ∧ (s.advance t).devNow + (s.advance t).us 50 < T) :
    execSluiceGateArm t n s = .next (s.advance t) := by
  cases harm : (s.slot n).armed with
  | none => simp [execSluiceGateArm, harm]
  | some T =>
    simp only [harm, reduceCtorEq, Option.some.injEq, exists_eq_left', false_or] at h
    simp only [execSluiceGateArm, State.slot_advance, harm, State.rd_advance]
    refine congrArg _ (if_pos ?_)
    rcases h with h | h | h | h <;> simp [h]

theorem execSluiceGateArm_loads (h : (s.slot n).armed = some T) (hb : (s.slot n).bankLoaded = false) (hc : (s.slot n).awaitConfirm = false)
    (hs : s.rd (Ob.slotState n) = 2) (ht : T ≤ (s.advance t).devNow + (s.advance t).us 50) :
    execSluiceGateArm t n s = .next (((s.slot n).placement.engines.foldl (fun s p => s.gateEngine n T p) (s.advance t)).modSlot n
      fun x => { x with bankLoaded := true }) := by
  simp [execSluiceGateArm, h, hb, hc, hs, Nat.not_lt.2 ht]

/-- A commit is due once its slot is Admitted, its banks are loaded and no frame or condition time before it is outstanding. -/
theorem State.commitDue_iff (s : State) (n T : Nat) : s.commitDue n T = true ↔
    s.rd (Ob.slotState n) = 2 ∧ (s.slot n).bankLoaded = true ∧ s.finished n T = true ∧ s.unitsReached n T = true := by
  simp [State.commitDue, and_assoc]

theorem execCommitApplied_idle (h : (s.slot n).armed = none ∨ (s.slot n).bankLoaded = false ∨ s.rd (Ob.slotState n) ≠ 2
      ∨ ∃ T, (s.slot n).armed = some T ∧ ((s.advance t).finished n T = false ∨ (s.advance t).unitsReached n T = false)) :
    execCommitApplied t n s = .next (s.advance t) := by
  cases harm : (s.slot n).armed with
  | none => simp [execCommitApplied, harm]
  | some T =>
    simp only [harm, reduceCtorEq, Option.some.injEq, exists_eq_left', false_or] at h
    simp only [execCommitApplied, State.slot_advance, harm]
    refine congrArg _ (if_neg (mt ((s.advance t).commitDue_iff n T).1 ?_))
    rintro ⟨hs, hb, hf, hu⟩
    rw [State.rd_advance] at hs
    rw [State.slot_advance] at hb
    simp [hs, hb, hf, hu] at h

theorem execCommitApplied_due (h : (s.slot n).armed = some T) (hb : (s.slot n).bankLoaded = true) (hs : s.rd (Ob.slotState n) = 2)
    (hf : (s.advance t).finished n T = true) (hu : (s.advance t).unitsReached n T = true) :
    execCommitApplied t n s = .next ((s.advance t).commitApply n T) := by
  simp only [execCommitApplied, State.slot_advance, h]
  exact congrArg _ (if_pos (((s.advance t).commitDue_iff n T).2 ⟨hs, hb, hf, hu⟩))

end Gate

/-- Settles O33, command by command. -/
theorem contractsAndCommits : Obligations.ContractsAndCommits := by
  intro s t tc T m nf
  exact ⟨fun hr h => State.serve_aborted hr (commitAction_held h),
    fun hr h hv => State.serve_done hr (commitAction_arms h hv),
    fun hr h hv => State.serve_done hr (commitAction_notArmed h hv),
    fun hr h hs => State.serve_done hr (cancelAction_successor h hs),
    fun hr h hs => State.serve_aborted hr (cancelAction_switched h hs),
    fun hr h hh => State.serve_done hr (cancelAction_held h hh),
    fun hr h hh => State.serve_done hr (cancelAction_idle h hh),
    execSluiceGateArm_idle,
    execSluiceGateArm_loads,
    execCommitApplied_idle,
    execCommitApplied_due⟩

/-! ### Withdrawal of a slot (R69, R575) -/

section Withdraw

variable {s : State} {n : Nat}

theorem withdrawAction_aborts (h : s.rd (Ob.slotState n) < 2 ∨ s.rd (Ob.slotState n) = 4 ∨ s.rd (Ob.slotState n) = 5 ∨ 7 ≤ s.rd (Ob.slotState n)
      ∨ (s.rd (Ob.slotState n) = 3 ∧ (s.slot n).switchAt ≠ none)
      ∨ ((s.rd (Ob.slotState n) = 2 ∨ s.rd (Ob.slotState n) = 6) ∧ s.feedsPulse n = true)) :
    withdrawAction n s = .error Abort.state := by
  unfold withdrawAction
  generalize s.rd (Ob.slotState n) = st at h
  by_cases hp : (st = 2 ∨ st = 6) ∧ s.feedsPulse n = true
  · exact if_pos hp
  · have hsw : ¬ (st = 3 ∧ s.unswitched n = true) := by
      rintro ⟨h3, hu⟩
      have hu' : (s.slot n).switchAt = none := Option.isNone_iff_eq_none.1 hu
      simp [h3, hu'] at h
    have h2 : st ≠ 2 := by
      rintro rfl
      exact hp ⟨.inl rfl, by simpa using h⟩
    have h6 : st ≠ 6 := by
      rintro rfl
      exact hp ⟨.inr rfl, by simpa using h⟩
    exact (if_neg hp).trans ((if_neg h2).trans ((if_neg hsw).trans (if_neg h6)))

theorem withdrawAction_admitted (h : s.rd (Ob.slotState n) = 2) (hp : s.feedsPulse n = false) :
    withdrawAction n s = .ok (s.beginWithdraw n (s.boundaryFrom n (s.devNow + s.us 100))) := by
  simp [withdrawAction, h, hp]

theorem withdrawAction_successor (h : s.rd (Ob.slotState n) = 3) (hs : (s.slot n).switchAt = none) :
    withdrawAction n s = .ok (s.endSuccessor n 2) := by
  simp [withdrawAction, State.unswitched, h, hs]

theorem withdrawAction_inGap (h : s.rd (Ob.slotState n) = 6) (hp : s.feedsPulse n = false) :
    withdrawAction n s = .ok (s.beginWithdraw n s.devNow) := by
  simp [withdrawAction, h, hp]

end Withdraw

section Complete

variable {s : State} {t T : Nat} {n : Fin 64}

theorem execWithdrawalComplete_idle (h : (s.slot n).withdrawAt = none ∨ s.rd (Ob.slotState n) ≠ 5
      ∨ ∃ T, (s.slot n).withdrawAt = some T ∧ (s.advance t).finished n T = false) :
    execWithdrawalComplete t n s = .next (s.advance t) := by
  cases hw : (s.slot n).withdrawAt with
  | none => simp [execWithdrawalComplete, hw]
  | some T =>
    simp only [hw, reduceCtorEq, Option.some.injEq, exists_eq_left', false_or] at h
    rcases h with h | h <;> simp [execWithdrawalComplete, hw, h]

theorem execWithdrawalComplete_finished (h : (s.slot n).withdrawAt = some T) (hs : s.rd (Ob.slotState n) = 5)
    (hf : (s.advance t).finished n T = true) : execWithdrawalComplete t n s = .next ((s.advance t).withdrawn n T) := by
  simp [execWithdrawalComplete, h, hs, hf]

theorem State.withdrawn_waits
    (h : (s.lastOutputs n T).caughtUp n = false ∨ ((s.lastOutputs n T).slot n).replacing ≠ none) :
    s.withdrawn n T = s.lastOutputs n T := by
  rcases h with h | h <;> simp [State.withdrawn, h]

theorem State.withdrawn_ends (h : (s.lastOutputs n T).caughtUp n = true) (hr : ((s.lastOutputs n T).slot n).replacing = none) :
    s.withdrawn n T = (s.lastOutputs n T).endSlot n T := by
  simp [State.withdrawn, h, hr]

end Complete

/-! ### The switch to a Successor, and the end of a gap (R74-R76, R194, R578) -/

section Switch

variable {s : State} {t T m o : Nat} {n : Fin 64}

theorem execSuccessorSwitch_idle (h : (s.slot n).armed = none ∨ (s.slot n).replacing = none ∨ (s.slot n).awaitConfirm = true
      ∨ s.rd (Ob.slotState n) ≠ 3 ∨ ∃ T, (s.slot n).armed = some T ∧ (s.advance t).devNow < T) :
    execSuccessorSwitch t n s = .next (s.advance t) := by
  cases ha : (s.slot n).armed with
  | none => simp [execSuccessorSwitch, ha]
  | some T =>
    cases hr : (s.slot n).replacing with
    | none => simp [execSuccessorSwitch, ha, hr]
    | some o =>
      simp only [ha, hr, reduceCtorEq, Option.some.injEq, exists_eq_left', false_or] at h
      simp only [execSuccessorSwitch, State.slot_advance, ha, hr, State.rd_advance]
      refine congrArg _ (if_pos ?_)
      rcases h with h | h | h <;> simp [h]

theorem execSuccessorSwitch_takes (ha : (s.slot n).armed = some T) (hr : (s.slot n).replacing = some o)
    (hc : (s.slot n).awaitConfirm = false) (hs : s.rd (Ob.slotState n) = 3) (ht : T ≤ (s.advance t).devNow) :
    execSuccessorSwitch t n s = .next ((s.advance t).successorTakes n o T) := by
  simp [execSuccessorSwitch, ha, hr, hc, hs, Nat.not_lt.2 ht]

theorem execRetiringComplete_idle (h : (s.slot n).switchAt = none ∨ (s.slot n).replacedBy = none ∨ s.rd (Ob.slotState n) ≠ 4
      ∨ ∃ T, (s.slot n).switchAt = some T ∧ (s.advance t).finished n T = false) :
    execRetiringComplete t n s = .next (s.advance t) := by
  cases hw : (s.slot n).switchAt with
  | none => simp [execRetiringComplete, hw]
  | some T =>
    cases hr : (s.slot n).replacedBy with
    | none => simp [execRetiringComplete, hw, hr]
    | some m =>
      simp only [hw, hr, reduceCtorEq, Option.some.injEq, exists_eq_left', false_or] at h
      simp only [execRetiringComplete, State.slot_advance, hw, hr, State.rd_advance]
      refine congrArg _ (if_pos ?_)
      rcases h with h | h <;> simp [h]

section Retiring

variable (hw : (s.slot n).switchAt = some T) (hr : (s.slot n).replacedBy = some m) (hs : s.rd (Ob.slotState n) = 4)
  (hf : (s.advance t).finished n T = true)

include hw hr hs hf

/-- The Successor's frames tagged before the switch are still to come. -/
theorem execRetiringComplete_waits (hg : (s.slot m).gap = false) (hm : s.rd (Ob.slotState m) = 3) (hp : (s.advance t).framesPast m T = false) :
    execRetiringComplete t n s = .next (s.advance t) := by
  simp [execRetiringComplete, hw, hr, hs, hf, hg, hm, hp]

theorem execRetiringComplete_passes
    (hp : (s.slot m).gap = true ∨ s.rd (Ob.slotState m) ≠ 3 ∨ (s.advance t).framesPast m T = true) :
    execRetiringComplete t n s = .next ((s.advance t).retiredTo n m T) := by
  rcases hp with hp | hp | hp <;> simp [execRetiringComplete, hw, hr, hs, hf, hp]

end Retiring

theorem execGapFrameResume_idle (h : (s.slot n).gapTo = none ∨ s.rd (Ob.slotState n) ≠ 6
      ∨ ∃ T, (s.slot n).gapTo = some T ∧ ((s.advance t).devNow < T ∨ (s.advance t).framesPast n T = false)) :
    execGapFrameResume t n s = .next (s.advance t) := by
  cases hg : (s.slot n).gapTo with
  | none => simp [execGapFrameResume, hg]
  | some T =>
    simp only [hg, reduceCtorEq, Option.some.injEq, exists_eq_left', false_or] at h
    simp only [execGapFrameResume, State.slot_advance, hg, State.rd_advance]
    refine congrArg _ (if_pos ?_)
    rcases h with h | h | h <;> simp [h]

theorem execGapFrameResume_ends (h : (s.slot n).gapTo = some T) (hs : s.rd (Ob.slotState n) = 6) (ht : T ≤ (s.advance t).devNow)
    (hp : (s.advance t).framesPast n T = true) : execGapFrameResume t n s = .next ((s.advance t).gapEnd n T) := by
  simp [execGapFrameResume, h, hs, hp, Nat.not_lt.2 ht]

end Switch

/-- Settles O34, command by command. -/
theorem withdrawalAndReplacement : Obligations.WithdrawalAndReplacement := by
  intro s t T m o nf
  exact ⟨fun hr h => State.serve_aborted hr (withdrawAction_aborts h),
    fun hr h hp => State.serve_done hr (withdrawAction_admitted h hp),
    fun hr h hs => State.serve_done hr (withdrawAction_successor h hs),
    fun hr h hp => State.serve_done hr (withdrawAction_inGap h hp),
    execWithdrawalComplete_idle,
    fun h hs hf => ⟨fun hc => (execWithdrawalComplete_finished h hs hf).trans (congrArg _ (State.withdrawn_waits hc)),
      fun hc hr => (execWithdrawalComplete_finished h hs hf).trans (congrArg _ (State.withdrawn_ends hc hr))⟩,
    execSuccessorSwitch_idle,
    execSuccessorSwitch_takes,
    execRetiringComplete_idle,
    execRetiringComplete_waits,
    execRetiringComplete_passes,
    execGapFrameResume_idle,
    execGapFrameResume_ends⟩

/-! ### Group and array commits: the decision of a lead, or of a device alone (R71, R77, R407) -/

section Group

variable {s : State} {tc slots n T : Nat} {others : List (Nat × Nat)} {d : Except Refusal4x (Nat × Nat)}

/-- The members of a group at other positions. -/
def State.farMembers (s : State) (others : List (Nat × Nat)) : List (Nat × Nat) := others.filter fun o => o.1 != s.arr.pos

/-- The device time that a group commit asks for; 0 is the earliest. -/
def State.groupTime (s : State) (tc : Nat) : Nat := if tc = 0 then 0 else s.unstamp tc

/-- A slot of the group holds a commit. -/
def State.GroupHeld (s : State) (slots : Nat) : Prop := ∃ n ∈ slotsIn slots, (s.slot n).holds = true

/-- This device leads no array, or its array commit is not over. -/
def State.CannotLead (s : State) : Prop := s.isLead = false ∨ s.arr.commit ≠ none

/-- The boundary asked for lies beyond what a Sluice message can name. -/
def State.GroupTooLate (s : State) (tc : Nat) : Prop := s.groupTime tc ≠ 0 ∧ s.devNow + 32767 * s.second < s.groupTime tc

/-- The time from the end of the checks to the earliest boundary. -/
def State.groupLead (s : State) (others : List (Nat × Nat)) : Nat := if (s.farMembers others).isEmpty then s.us 100 else s.us 1000

/-- The end of the checks. -/
def State.groupDone (s : State) : Nat := s.devNow + s.nth 71 0 % (s.us 2000 + 1)

/-- What the slots of a group come to, their checks starting now. -/
def State.groupVerdict (s : State) (tc slots : Nat) (others : List (Nat × Nat)) : Except (Nat × Except Refusal4x (Nat × Nat)) Nat :=
  (s.taken 1).groupDecision (slotsIn slots) (s.groupTime tc) s.groupDone (s.groupLead others)

/-- The slots of a group that comes to `T` are armed. -/
def State.groupArmed (s : State) (slots T : Nat) (others : List (Nat × Nat)) : State :=
  ((slotsIn slots).foldl (fun v n => v.armCommit n (if T = 0 then s.groupDone + s.groupLead others else T) slots
    (!(s.farMembers others).isEmpty)) (s.taken 1)).wr Ob.admLastCode 0

theorem State.groupHeld_iff (s : State) (slots : Nat) :
    ((slotsIn slots).any fun n => (s.slot n).holds) = true ↔ s.GroupHeld slots := List.any_eq_true

/-- The guard that keeps a group from other positions. -/
theorem State.cannotAsk_iff (s : State) (others : List (Nat × Nat)) :
    (!(s.farMembers others).isEmpty && (!s.isLead || s.arr.commit.isSome)) = true ↔ s.farMembers others ≠ [] ∧ s.CannotLead := by
  simp [State.CannotLead, Option.isSome_iff_ne_none]

/-- The guard of a boundary that cannot be named to the other positions. -/
theorem State.tooLate_iff (s : State) (tc : Nat) (others : List (Nat × Nat)) :
    (!(s.farMembers others).isEmpty && (s.groupTime tc != 0 && decide (s.devNow + 32767 * s.second < s.groupTime tc))) = true
      ↔ s.farMembers others ≠ [] ∧ s.GroupTooLate tc := by
  simp [State.GroupTooLate]

theorem groupAction_aborts (h : s.GroupHeld slots ∨ (s.farMembers others ≠ [] ∧ s.CannotLead)) :
    groupAction tc slots others s = .error Abort.state := by
  by_cases hh : s.GroupHeld slots
  · exact if_pos ((s.groupHeld_iff slots).2 hh)
  · exact (if_neg (mt (s.groupHeld_iff slots).1 hh)).trans (if_pos ((s.cannotAsk_iff others).2 (h.resolve_left hh)))

variable (hh : ¬ s.GroupHeld slots)

include hh

theorem groupAction_tooLate (hf : s.farMembers others ≠ []) (ha : ¬ s.CannotLead) (hl : s.GroupTooLate tc) :
    groupAction tc slots others s = .ok ((slotsIn slots).foldl (fun s n => s.wr (Ob.slotCommitResult n) 0x4F)
      (s.noteRefusal ((slotsIn slots).headD 0xFF) { code := 0x4F })) :=
  (if_neg (mt (s.groupHeld_iff slots).1 hh)).trans ((if_neg (mt (s.cannotAsk_iff others).1 fun h => ha h.2)).trans
    (if_pos ((s.tooLate_iff tc others).2 ⟨hf, hl⟩)))

variable (hf : s.farMembers others = [] ∨ (¬ s.CannotLead ∧ ¬ s.GroupTooLate tc))

include hf

theorem groupAction_decides : groupAction tc slots others s = match s.groupVerdict tc slots others with
    | .error (n, r) => .ok ((s.taken 1).memberFails n r)
    | .ok T => .ok (if (s.farMembers others).isEmpty then s.groupArmed slots T others
        else (s.groupArmed slots T others).askMembers (if T = 0 then s.groupDone + s.groupLead others else T) slots (s.farMembers others)) := by
  have hask : ¬ (s.farMembers others ≠ [] ∧ s.CannotLead) := by tauto
  have hlate : ¬ (s.farMembers others ≠ [] ∧ s.GroupTooLate tc) := by tauto
  exact (if_neg (mt (s.groupHeld_iff slots).1 hh)).trans ((if_neg (mt (s.cannotAsk_iff others).1 hask)).trans
    (if_neg (mt (s.tooLate_iff tc others).1 hlate)))

theorem groupAction_refused (hv : s.groupVerdict tc slots others = .error (n, d)) :
    groupAction tc slots others s = .ok ((s.taken 1).memberFails n d) := by
  rw [groupAction_decides hh hf, hv]

theorem groupAction_arms (hv : s.groupVerdict tc slots others = .ok T) (he : s.farMembers others = []) :
    groupAction tc slots others s = .ok (s.groupArmed slots T others) := by
  rw [groupAction_decides hh hf, hv, he]
  rfl

theorem groupAction_asks (hv : s.groupVerdict tc slots others = .ok T) (he : s.farMembers others ≠ []) :
    groupAction tc slots others s = .ok ((s.groupArmed slots T others).askMembers
      (if T = 0 then s.groupDone + s.groupLead others else T) slots (s.farMembers others)) := by
  rw [groupAction_decides hh hf, hv]
  exact congrArg _ (if_neg (mt List.isEmpty_iff.1 he))

end Group

/-! ### Sluice messages at a follower and at the lead (R77, R407) -/

section Follower

variable {s u : State} {t slots w n T : Nat} {d : Except Refusal4x (Nat × Nat)}

theorem execSluiceArm_none (h : (s.advance t).takeSluice 1 = (none, u)) : execSluiceArm t slots s = .next u := by
  simp only [execSluiceArm, h]

/-- What the slots that a lead forwards come to at a follower, their checks starting now. -/
def State.followVerdict (s : State) (slots w : Nat) : Except (Nat × Except Refusal4x (Nat × Nat)) Nat :=
  (s.taken 1).groupDecision (slotsIn slots) (s.sluiceTime w) (s.devNow + s.nth 407 0 % (s.us 2000 + 1)) ((s.taken 1).us 100)

/-- A commit stands in the way of one over these slots. -/
def State.holdsAny (s : State) (slots : Nat) : Bool := ((slotsIn slots).any fun n => (s.slot n).holds) || s.arrayBusy

/-- A follower answers Refused. -/
def State.answerRefused (s : State) (w code : Nat) : State :=
  (s.taken 1).sendTo 0 4 ((s.taken 1).sluicePayload 3 (sluiceId w) (s.sluiceTime w) 0 code)

section Asked

variable (h : (s.advance t).takeSluice 1 = (some w, u))

include h

theorem execSluiceArm_memberFails (hv : u.followVerdict slots w = .error (n, d)) : execSluiceArm t slots s = .next
    (((u.taken 1).memberFails n d).sendTo 0 4 ((u.taken 1).sluicePayload 3 (sluiceId w) (u.sluiceTime w) 0 (refusalCode d))) := by
  unfold State.followVerdict at hv
  simp only [execSluiceArm, h, hv]

theorem execSluiceArm_decided (hv : u.followVerdict slots w = .ok T) : execSluiceArm t slots s = .next
    (if (u.taken 1).holdsAny slots then u.answerRefused w 1
      else if T = u.sluiceTime w then (u.taken 1).followArm (sluiceId w) (u.sluiceTime w) slots else u.answerRefused w 3) := by
  unfold State.followVerdict at hv
  simp only [execSluiceArm, h, hv]
  rfl

theorem execSluiceArm_busy (hv : u.followVerdict slots w = .ok T)
    (hb : (u.taken 1).holdsAny slots = true) :
    execSluiceArm t slots s = .next (u.answerRefused w 1) := by
  rw [execSluiceArm_decided h hv, if_pos hb]

variable (hb : (u.taken 1).holdsAny slots = false)

include hb

theorem execSluiceArm_arms (hv : u.followVerdict slots w = .ok T) (hT : T = u.sluiceTime w) :
    execSluiceArm t slots s = .next ((u.taken 1).followArm (sluiceId w) (u.sluiceTime w) slots) := by
  rw [execSluiceArm_decided h hv, if_neg (Bool.eq_false_iff.1 hb), if_pos hT]

theorem execSluiceArm_tooEarly (hv : u.followVerdict slots w = .ok T) (hT : T ≠ u.sluiceTime w) :
    execSluiceArm t slots s = .next (u.answerRefused w 3) := by
  rw [execSluiceArm_decided h hv, if_neg (Bool.eq_false_iff.1 hb), if_neg hT]

end Asked

theorem execSluiceArmed_none (h : (s.advance t).takeSluice 2 = (none, u)) : execSluiceArmed t s = .next u := by
  simp only [execSluiceArmed, h]

theorem execSluiceArmed_noted (h : (s.advance t).takeSluice 2 = (some w, u)) : execSluiceArmed t s = .next (u.noteAnswer w 0) := by
  simp only [execSluiceArmed, h]

theorem execSluiceRefused_none (h : (s.advance t).takeSluice 3 = (none, u)) : execSluiceRefused t s = .next u := by
  simp only [execSluiceRefused, h]

theorem execSluiceRefused_noted (h : (s.advance t).takeSluice 3 = (some w, u)) :
    execSluiceRefused t s = .next (u.noteAnswer w (bits w 24 17)) := by
  simp only [execSluiceRefused, h]

end Follower

section Deadlines

variable {s : State} {t code : Nat} {c : ArrCommit}

theorem arrayDeadlines_noCommit (h : s.arr.commit = none) : execArrayConfirmDeadline t s = .next (s.advance t)
    ∧ execArrayCommitDisarm t s = .next (s.advance t) ∧ execArrayCommitReportTimeout t s = .next (s.advance t) := by
  simp [execArrayConfirmDeadline, execArrayCommitDisarm, execArrayCommitReportTimeout, h]

variable (h : s.arr.commit = some c)

include h

theorem execArrayConfirmDeadline_idle
    (hd : s.isLead = false ∨ c.decided = true ∨ (s.advance t).devNow + (s.advance t).us 400 < c.tc) :
    execArrayConfirmDeadline t s = .next (s.advance t) := by
  simp only [execArrayConfirmDeadline, State.advance_arr, State.isLead_advance, h]
  refine congrArg _ (if_pos ?_)
  rcases hd with hd | hd | hd <;> simp [hd]

section Decides

variable (hl : s.isLead = true) (hd : c.decided = false) (ht : c.tc ≤ (s.advance t).devNow + (s.advance t).us 400)

include hl hd ht

theorem execArrayConfirmDeadline_confirms (hf : c.failing = none) :
    execArrayConfirmDeadline t s = .next ((s.advance t).confirmArray c) := by
  simp [execArrayConfirmDeadline, h, hl, hd, Nat.not_lt.2 ht, hf]

theorem execArrayConfirmDeadline_cancels (hf : c.failing = some code) :
    execArrayConfirmDeadline t s = .next ((s.advance t).cancelArray c (c.firstRefusal.getD code)) := by
  simp [execArrayConfirmDeadline, h, hl, hd, Nat.not_lt.2 ht, hf]

end Decides

theorem execArrayCommitDisarm_idle (hd : c.confirmed = true ∨ (s.advance t).devNow + (s.advance t).us 200 < c.tc) :
    execArrayCommitDisarm t s = .next (s.advance t) := by
  rcases hd with hd | hd <;> simp [execArrayCommitDisarm, h, hd]

theorem execArrayCommitDisarm_disarms (hd : c.confirmed = false) (ht : c.tc ≤ (s.advance t).devNow + (s.advance t).us 200) :
    execArrayCommitDisarm t s = .next ((s.advance t).disarmArray c) := by
  simp [execArrayCommitDisarm, h, hd, Nat.not_lt.2 ht]

theorem execArrayCommitReportTimeout_disagrees (hl : s.isLead = true) (hd : c.confirmed = true)
    (ht : c.tc + (s.advance t).us 1000 ≤ (s.advance t).devNow) : execArrayCommitReportTimeout t s =
      .next (({ s.advance t with arr := { s.arr with commit := none } } : State).disagree c) := by
  simp [execArrayCommitReportTimeout, h, hl, hd, ht]

theorem execArrayCommitReportTimeout_idle
    (hd : s.isLead = false ∨ c.confirmed = false ∨ (s.advance t).devNow < c.tc + (s.advance t).us 1000) :
    execArrayCommitReportTimeout t s = .next (s.advance t) := by
  simp only [execArrayCommitReportTimeout, State.advance_arr, State.isLead_advance, h]
  refine congrArg _ (if_neg ?_)
  rcases hd with hd | hd | hd <;> simp [hd]

end Deadlines

section Answers

variable {s u : State} {t w : Nat} {c : ArrCommit}

theorem execSluiceConfirm_own (hm : (s.advance t).takeSluice 4 = (some w, u)) (h : u.arr.commit = some c) (hi : c.ident = sluiceId w) :
    execSluiceConfirm t s = .next (u.confirmOwn c) := by
  simp [execSluiceConfirm, hm, h, hi]

theorem execSluiceCancel_own (hm : (s.advance t).takeSluice 5 = (some w, u)) (h : u.arr.commit = some c) (hi : c.ident = sluiceId w) :
    execSluiceCancel t s = .next (u.disarmArray c) := by
  simp [execSluiceCancel, hm, h, hi]

theorem execSluiceReport_lead (hm : (s.advance t).takeSluice 6 = (some w, u)) (h : u.arr.commit = some c) (hi : c.ident = sluiceId w)
    (hl : u.isLead = true) : execSluiceReport t s = .next (u.reportIn c w) := by
  simp [execSluiceReport, hm, h, hi, hl]

/-- A message that the array commit of this device does not answer leaves the state in which it was taken. -/
theorem unanswered_keeps (r : Option Nat × State) (p : Nat → ArrCommit → Prop) [∀ w c, Decidable (p w c)] (f : Nat → ArrCommit → State)
    (h : ∀ w c, r.1 = some w → r.2.arr.commit = some c → ¬ p w c) :
    (match r.1, r.2.arr.commit with
      | some w, some c => if p w c then f w c else r.2
      | _, _ => r.2) = r.2 := by
  cases hw : r.1 with
  | none => rfl
  | some w =>
    cases hc : r.2.arr.commit with
    | none => rfl
    | some c => exact if_neg (h w c hw hc)

/-- No message of operation `op`, or none of the array commit of this device. -/
def State.Foreign (s u : State) (t op w : Nat) (c : ArrCommit) : Prop :=
  ((s.advance t).takeSluice op).1 = none ∨ u.arr.commit = none
    ∨ (u.arr.commit = some c ∧ ((s.advance t).takeSluice op).1 = some w ∧ c.ident ≠ sluiceId w)

theorem State.foreign_ident {op v : Nat} {e : ArrCommit} (h : s.Foreign u t op w c) (hv : ((s.advance t).takeSluice op).1 = some v)
    (he : u.arr.commit = some e) : e.ident ≠ sluiceId v := by
  rcases h with h | h | ⟨hc, hw, hi⟩
  · simp [h] at hv
  · simp [h] at he
  · cases hc.symm.trans he
    cases hw.symm.trans hv
    exact hi

theorem execSluiceConfirm_foreign (hu : u = ((s.advance t).takeSluice 4).2) (h : s.Foreign u t 4 w c) :
    execSluiceConfirm t s = .next u := by
  subst hu
  exact congrArg _ (unanswered_keeps _ _ _ fun _ _ => State.foreign_ident h)

theorem execSluiceCancel_foreign (hu : u = ((s.advance t).takeSluice 5).2) (h : s.Foreign u t 5 w c) :
    execSluiceCancel t s = .next u := by
  subst hu
  exact congrArg _ (unanswered_keeps _ _ _ fun _ _ => State.foreign_ident h)

theorem execSluiceReport_ignored (hu : u = ((s.advance t).takeSluice 6).2)
    (h : ((s.advance t).takeSluice 6).1 = none ∨ u.arr.commit = none ∨ u.isLead = false
      ∨ (u.arr.commit = some c ∧ ((s.advance t).takeSluice 6).1 = some w ∧ c.ident ≠ sluiceId w)) :
    execSluiceReport t s = .next u := by
  subst hu
  refine congrArg _ (unanswered_keeps _ _ _ fun v e hv he ⟨hi, hl⟩ => ?_)
  have hf : s.Foreign ((s.advance t).takeSluice 6).2 t 6 w c := by
    simpa [State.Foreign, hl] using h
  exact State.foreign_ident hf hv he hi

end Answers

/-- Settles O35, command by command. -/
theorem arrayCommits : Obligations.ArrayCommits := by
  intro s u t tc slots w n T v code others d c
  exact ⟨fun hr h => State.serve_aborted hr (groupAction_aborts h),
    fun hr hh hf ha hl => State.serve_done hr (groupAction_tooLate hh hf ha hl),
    fun hr hh hf => ⟨fun hv => State.serve_done hr (groupAction_refused hh hf hv),
      fun hv he => State.serve_done hr (groupAction_arms hh hf hv he),
      fun hv he => State.serve_done hr (groupAction_asks hh hf hv he)⟩,
    execSluiceArm_none,
    fun h => ⟨execSluiceArm_memberFails h, execSluiceArm_busy h,
      fun hv hb => execSluiceArm_arms h hb hv, fun hv hb => execSluiceArm_tooEarly h hb hv⟩,
    execSluiceArmed_none,
    execSluiceArmed_noted,
    execSluiceRefused_none,
    execSluiceRefused_noted,
    arrayDeadlines_noCommit,
    fun h => ⟨execArrayConfirmDeadline_idle h,
      execArrayConfirmDeadline_confirms h,
      execArrayConfirmDeadline_cancels h,
      execArrayCommitDisarm_idle h,
      execArrayCommitDisarm_disarms h,
      execArrayCommitReportTimeout_disagrees h,
      execArrayCommitReportTimeout_idle h⟩,
    execSluiceConfirm_own,
    execSluiceCancel_own,
    execSluiceReport_lead,
    execSluiceConfirm_foreign,
    execSluiceCancel_foreign,
    execSluiceReport_ignored⟩

/-! ### The checks of a dictionary write (R446-R451, R461, R463, R468) -/

/-- The object of row `r` at key `k` is written by its clients (R450). -/
def Writable (k : Nat) (r : ObjRow) : Prop :=
  objRow k = some r ∧ r.acc ≠ .const ∧ r.acc ≠ .ro ∧ residentImage r k = false

/-- Neither an owner nor the device's state forbids the write of `v` (R451, check 4). -/
def State.Permits (s : State) (r : ObjRow) (k v : Nat) : Prop :=
  ¬ (r.acc = .rwq ∧ s.owned k = true) ∧ s.barred r k v = false

section Write

variable {s : State} {k : Nat} {r : ObjRow} {b : Bytes} {x : Ext}

theorem dictWrite_noRow (h : objRow k = none) : dictWrite k b x s =
    .error (if !indexExists (k / 256) then Abort.noObject else if k % 256 = 0 then Abort.writeRo else Abort.noSub) := by
  simp only [dictWrite, h]

theorem dictWrite_noIndex (h : objRow k = none) (hi : indexExists (k / 256) = false) : dictWrite k b x s = .error Abort.noObject := by
  simp [dictWrite_noRow h, hi]

theorem dictWrite_noSub0 (h : objRow k = none) (hi : indexExists (k / 256) = true) (h0 : k % 256 = 0) :
    dictWrite k b x s = .error Abort.writeRo := by
  simp [dictWrite_noRow h, hi, h0]

theorem dictWrite_noSub (h : objRow k = none) (hi : indexExists (k / 256) = true) (h0 : k % 256 ≠ 0) :
    dictWrite k b x s = .error Abort.noSub := by
  simp [dictWrite_noRow h, hi, h0]

theorem dictWrite_readOnly (h : objRow k = some r) (ha : r.acc = .const ∨ r.acc = .ro ∨ residentImage r k = true) :
    dictWrite k b x s = .error Abort.writeRo := by
  simp only [dictWrite, h]
  exact if_pos ha

theorem dictWrite_writable (h : Writable k r) : dictWrite k b x s =
    if !r.lengthOk b.length then .error Abort.length else writeChecked r k (leNat b) b x s := by
  obtain ⟨hrow, hconst, hro, himage⟩ := h
  simp [dictWrite, hrow, hconst, hro, himage]

theorem dictWrite_badLength (h : Writable k r) (hl : r.lengthOk b.length = false) : dictWrite k b x s = .error Abort.length := by
  simp [dictWrite_writable h, hl]

theorem dictWrite_checked (h : Writable k r) (hl : r.lengthOk b.length = true) :
    dictWrite k b x s = writeChecked r k (leNat b) b x s := by
  simp [dictWrite_writable h, hl]

variable {v : Nat}

/-- The guard of check 4. -/
theorem State.forbids_iff (s : State) (r : ObjRow) (k v : Nat) :
    ((r.acc == .rwq && s.owned k) || s.barred r k v) = true ↔ ¬ s.Permits r k v := by
  simp only [State.Permits, Bool.or_eq_true, Bool.and_eq_true, beq_iff_eq, not_and_or (b := _ = false), not_not, Bool.not_eq_false]

theorem writeChecked_forbidden (h : ¬ s.Permits r k v) : writeChecked r k v b x s = .error Abort.state :=
  if_pos ((s.forbids_iff r k v).2 h)

theorem writeChecked_notBool (h : s.Permits r k v) (hb : r.ty = .bool) (hv : 1 < v) : writeChecked r k v b x s = .error Abort.range :=
  (if_neg (mt (s.forbids_iff r k v).1 (not_not.2 h))).trans (if_pos ⟨hb, hv⟩)

theorem writeChecked_writer {f : ObjRow → Nat → Nat → Nat → Bytes → Ext → Act} (h : s.Permits r k v) (hb : ¬ (r.ty = .bool ∧ 1 < v))
    (hf : lookRow writers r.base = some f) : writeChecked r k v b x s = f r k (r.elem k) v b x s := by
  rw [writeChecked, if_neg (mt (s.forbids_iff r k v).1 (not_not.2 h)), if_neg hb, hf]

theorem writeChecked_value (h : s.Permits r k v) (hb : ¬ (r.ty = .bool ∧ 1 < v)) (hf : lookRow writers r.base = none) :
    writeChecked r k v b x s = if s.stageHeld r k then .error Abort.state
      else if !s.valueOk r k v b then .error Abort.range else .ok (s.putValue r k v b) := by
  rw [writeChecked, if_neg (mt (s.forbids_iff r k v).1 (not_not.2 h)), if_neg hb, hf]

theorem writeChecked_stageHeld (h : s.Permits r k v) (hb : ¬ (r.ty = .bool ∧ 1 < v)) (hf : lookRow writers r.base = none)
    (hs : s.stageHeld r k = true) : writeChecked r k v b x s = .error Abort.state := by
  simp [writeChecked_value h hb hf, hs]

theorem writeChecked_outOfRange (h : s.Permits r k v) (hb : ¬ (r.ty = .bool ∧ 1 < v)) (hf : lookRow writers r.base = none)
    (hs : s.stageHeld r k = false) (hv : s.valueOk r k v b = false) : writeChecked r k v b x s = .error Abort.range := by
  simp [writeChecked_value h hb hf, hs, hv]

theorem writeChecked_put (h : s.Permits r k v) (hb : ¬ (r.ty = .bool ∧ 1 < v)) (hf : lookRow writers r.base = none)
    (hs : s.stageHeld r k = false) (hv : s.valueOk r k v b = true) : writeChecked r k v b x s = .ok (s.putValue r k v b) := by
  simp [writeChecked_value h hb hf, hs, hv]

/-! An Envelope (R12, R461) -/

theorem dictWriteAny_plain (h : k ≠ Ob.devEnvelope) : dictWriteAny k b x s = dictWrite k b x s :=
  if_neg h

/-- The key that an Envelope with head `p` names. -/
def envelopeKey (p : Nat) : Nat := bits p 63 48 * 256 + bits p 47 40

theorem dictWriteAny_envelope : dictWriteAny Ob.devEnvelope b x s =
    if b.length < 8 ∨ 1048584 < b.length then .error Abort.length
    else if leNat (b.take 8) % 65536 ≠ 0 then .error Abort.range
    else if !s.isLocal (bits (leNat (b.take 8)) 39 32) then .error Abort.state
    else dictWriteInner (b.length / 8 + 1) (envelopeKey (leNat (b.take 8))) (b.drop 8) x s := by
  unfold dictWriteAny dictWriteInner
  exact if_pos rfl

theorem envelope_badLength (h : b.length < 8 ∨ 1048584 < b.length) : dictWriteAny Ob.devEnvelope b x s = .error Abort.length :=
  dictWriteAny_envelope.trans (if_pos h)

variable (hmin : 8 ≤ b.length) (hmax : b.length ≤ 1048584)

include hmin hmax

theorem envelope_reserved (h : leNat (b.take 8) % 65536 ≠ 0) : dictWriteAny Ob.devEnvelope b x s = .error Abort.range := by
  rw [dictWriteAny_envelope, if_neg (by omega), if_pos h]

theorem envelope_elsewhere (h : leNat (b.take 8) % 65536 = 0) (ht : s.isLocal (bits (leNat (b.take 8)) 39 32) = false) :
    dictWriteAny Ob.devEnvelope b x s = .error Abort.state := by
  rw [dictWriteAny_envelope, if_neg (by omega), if_neg (not_not.2 h), ht]
  rfl

/-- The inner write has the fuel that its own length gives it. -/
theorem envelope_here (h : leNat (b.take 8) % 65536 = 0) (ht : s.isLocal (bits (leNat (b.take 8)) 39 32) = true) :
    dictWriteAny Ob.devEnvelope b x s = dictWriteAny (envelopeKey (leNat (b.take 8))) (b.drop 8) x s := by
  have hfuel : b.length / 8 + 1 = (b.drop 8).length / 8 + 2 := by rw [List.length_drop]; omega
  rw [dictWriteAny_envelope, if_neg (by omega), if_neg (not_not.2 h), ht, hfuel]
  rfl

end Write

/-! DICTIONARY_WRITE and SET_CALENDAR -/

section Serve

variable {s u : State} {t k c : Nat} {b : Bytes} {drive : List (Nat × Nat × Bool)} {volts : List Nat} {good : Bool}

theorem execDictionaryWrite_aborted (hr : s.Ready ∧ k ≠ Ob.devEnvelope)
    (h : dictWrite k b { drive := drive, volts := volts, good := good } (s.advance t) = .error c) :
    execDictionaryWrite t k b drive volts good s = s.aborted t c :=
  State.noting_aborted hr.1 ((dictWriteAny_plain hr.2).trans h)

theorem execDictionaryWrite_closes (hr : s.Ready ∧ k ≠ Ob.devEnvelope)
    (h : dictWrite k b { drive := drive, volts := volts, good := good } (s.advance t) = .ok u) :
    execDictionaryWrite t k b drive volts good s = .next u.closing :=
  State.noting_ok hr.1 ((dictWriteAny_plain hr.2).trans h)

theorem State.serveNoting_congr {f g : Act} (h : f (s.advance t) = g (s.advance t)) : s.serveNoting t f = s.serveNoting t g := by
  simp only [State.serveNoting, h]

end Serve

section Calendar

variable {s : State} {b : Bytes} {v : Nat}

theorem setCalendar_badLength (h : b.length ≠ 8) : setCalendar b s = .error Abort.length := if_pos h

theorem setCalendar_stepForbidden (h : b.length = 8) (hs : s.counts = false ∨ s.stepForbidden = true) :
    setCalendar b s = .error Abort.state := by
  rcases hs with hs | hs <;> simp [setCalendar, h, hs]

variable (h : b.length = 8) (hc : s.counts = true) (hf : s.stepForbidden = false)

include h hc hf

theorem setCalendar_noDate (hd : s.dateToSeconds b = none ∨ s.dateToSeconds b = some v ∧ 2 ^ 48 ≤ v) :
    setCalendar b s = .error Abort.range := by
  rcases hd with hd | ⟨hd, hv⟩
  · simp [setCalendar, h, hc, hf, hd]
  · simp only [setCalendar, setSeconds, h, hc, hf, hd]
    exact if_pos hv

theorem setCalendar_date (hd : s.dateToSeconds b = some v) (hv : v < 2 ^ 48) :
    setCalendar b s = .ok { s with time := { s.time with setPending := some v, setStatus := some 0 } } := by
  simp only [setCalendar, setSeconds, h, hc, hf, hd]
  exact if_neg (Nat.not_le.2 hv)

end Calendar

/-- Settles O36, check by check in the order of R451. -/
theorem dictionaryWrites : Obligations.DictionaryWrites := by
  intro s t k v b drive volts good r u code f
  refine ⟨fun hr h hi => execDictionaryWrite_aborted hr (dictWrite_noIndex h hi),
    fun hr h hi h0 => execDictionaryWrite_aborted hr (dictWrite_noSub0 h hi h0),
    fun hr h hi h0 => execDictionaryWrite_aborted hr (dictWrite_noSub h hi h0),
    fun hr h ha => execDictionaryWrite_aborted hr (dictWrite_readOnly h ha),
    fun hr h hl => execDictionaryWrite_aborted hr (dictWrite_badLength h hl),
    fun hr h hl hp => execDictionaryWrite_aborted hr ((dictWrite_checked h hl).trans (writeChecked_forbidden hp)),
    fun hr h hl hp hb hv => execDictionaryWrite_aborted hr ((dictWrite_checked h hl).trans (writeChecked_notBool hp hb hv)),
    ?writerAborts, ?writerCloses, ?stageHeld, ?outOfRange, ?put,
    fun hr h => State.noting_aborted hr (envelope_badLength h),
    fun hr hmin hmax h => State.noting_aborted hr (envelope_reserved hmin hmax h),
    fun hr hmin hmax h ht => State.noting_aborted hr (envelope_elsewhere hmin hmax h ht),
    fun hmin hmax h ht => congrArg _ (State.serveNoting_congr (envelope_here hmin hmax h ht)),
    fun hr h => State.serve_aborted hr (setCalendar_badLength h),
    fun hr h hs => State.serve_aborted hr (setCalendar_stepForbidden h hs),
    fun hr h hc hf hd => State.serve_aborted hr (setCalendar_noDate h hc hf hd),
    fun hr h hc hf hd hv => State.serve_done hr (setCalendar_date h hc hf hd hv),
    fun hr h => State.serve_done hr h,
    fun hr h => State.serve_aborted hr h⟩
  case writerAborts =>
    rintro hr ⟨h, hl, hp, hb⟩ hf he
    exact execDictionaryWrite_aborted hr ((dictWrite_checked h hl).trans ((writeChecked_writer hp hb hf).trans he))
  case writerCloses =>
    rintro hr ⟨h, hl, hp, hb⟩ hf he
    exact execDictionaryWrite_closes hr ((dictWrite_checked h hl).trans ((writeChecked_writer hp hb hf).trans he))
  case stageHeld =>
    rintro hr ⟨h, hl, hp, hb⟩ hf hs
    exact execDictionaryWrite_aborted hr ((dictWrite_checked h hl).trans (writeChecked_stageHeld hp hb hf hs))
  case outOfRange =>
    rintro hr ⟨h, hl, hp, hb⟩ hf hs hv
    exact execDictionaryWrite_aborted hr ((dictWrite_checked h hl).trans (writeChecked_outOfRange hp hb hf hs hv))
  case put =>
    rintro hr ⟨h, hl, hp, hb⟩ hf hs hv
    exact execDictionaryWrite_closes hr ((dictWrite_checked h hl).trans (writeChecked_put hp hb hf hs hv))

end Sys2Proof.Machine

/-! Proofs about the ingest family: bring-up of a link (O13), samples and the level chain (O14). -/

namespace Sys2Proof.Machine

open Sys2Proof

/-! ### What the passing of time leaves alone -/

@[simp] theorem State.linkS_advance (s : State) (t j : Nat) : (s.advance t).linkS j = s.linkS j := rfl
@[simp] theorem State.aligns_advance (s : State) (t j rel lo hi : Nat) : (s.advance t).aligns j rel lo hi = s.aligns j rel lo hi := rfl

@[simp] theorem State.linkS_setLink_same (s : State) (j : Nat) (x : LinkState) : (s.setLink j x).linkS j = x :=
  tget_tset_same _ _ _ _

theorem State.rdB_iff (s : State) (k : Nat) : s.rdB k = true ↔ s.rd k ≠ 0 := bne_iff_ne

/-! ### Apply and ClearCounters of a link (R81) -/

section Apply

variable {s : State} {j : Nat}

theorem linkApply_owned (h : s.linkOwned j = true) : linkApply j s = .error Abort.state := if_pos h

/-- Link `j` is Disabled, with nothing kept of an earlier bring-up. -/
def State.linkOff (s : State) (j : Nat) : State :=
  (s.setLink j { applyResult := some 0 }).wrs [(Ob.linkLinkState j, 0), (Ob.linkAlignLatency j, 0)]

/-- Link `j` and its channels have no rate. -/
def State.noRates (s : State) (j : Nat) : State :=
  (s.mapped j).foldl (fun s k => s.wr (Ob.chanChannelRate k) 0) (s.wr (Ob.linkSampleRate j) 0)

theorem State.noRates_only : s.noRates j = { s with regs := (s.noRates j).regs } :=
  wrFold_only Ob.chanChannelRate (fun _ _ => 0) (s.mapped j) (s.wr (Ob.linkSampleRate j) 0)

theorem State.rd_noRates_linkState : (s.noRates j).rd (Ob.linkLinkState j) = s.rd (Ob.linkLinkState j) :=
  (zeroRates_rd _ _ (fun c => by unfold Ob.linkLinkState Ob.chanChannelRate; omega) _).trans
    (s.rd_wr_ne _ _ _ (by unfold Ob.linkLinkState Ob.linkSampleRate; omega))

theorem State.linkS_noRates : (s.noRates j).linkS j = s.linkS j := by rw [State.noRates_only]; rfl

theorem State.noRates_linkOff_only : (s.linkOff j).noRates j =
    { s with regs := ((s.linkOff j).noRates j).regs, link := ((s.linkOff j).noRates j).link } := by rw [State.noRates_only]; rfl

theorem State.rd_linkOff_linkState : (s.linkOff j).rd (Ob.linkLinkState j) = 0 :=
  (State.rd_wr_ne _ _ _ _ (by unfold Ob.linkLinkState Ob.linkAlignLatency; omega)).trans (State.rd_wr_same _ _ _)

theorem State.linkS_linkOff : (s.linkOff j).linkS j = { applyResult := some 0 } := s.linkS_setLink_same j { applyResult := some 0 }

theorem linkApply_disables (h : s.linkOwned j = false) (hl : s.rd (Ob.linkLaneCount j) = 0) :
    linkApply j s = .ok ((s.linkOff j).noRates j) :=
  (if_neg (Bool.eq_false_iff.1 h)).trans (if_pos hl)

theorem linkApply_timeless (h : s.linkOwned j = false) (hl : s.rd (Ob.linkLaneCount j) ≠ 0) (hc : s.counts = false) :
    linkApply j s = .error Abort.state := by
  simp [linkApply, h, hl, hc]

/-- Bring-up of link `j` begins: what it measures is cleared, and with a given ReleaseDelay its lines take their L_line (R580). -/
def State.linkBegun (s : State) (j : Nat) : State :=
  let began := ((s.setLink j { applyResult := some 0, applied := true, release := s.rd (Ob.linkReleaseDelay j) }).wrs
    [(Ob.linkLinkState j, 1), (Ob.linkAlignLatency j, 0), (Ob.linkArrivalSpread j, 0), (Ob.linkArrivalMargin j, 0)]).linkRates j
  if s.rd (Ob.linkReleaseDelay j) = 0 then began else began.levelSources j

/-- The parameters of link `j` satisfy R79 to R81, and its lines keep the fabric whole. -/
def State.LinkFits (s : State) (j : Nat) : Prop :=
  s.linkParams j = true ∧ s.laneMapOk j = true ∧ s.sysrefOk j = true
    ∧ (s.rd (Ob.linkReleaseDelay j) = 0 ∨ (s.linkBegun j).fabricBroken = false)

theorem State.linkFits_iff : (s.linkParams j && s.laneMapOk j && s.sysrefOk j
    && (s.rd (Ob.linkReleaseDelay j) == 0 || !(s.linkBegun j).fabricBroken)) = true ↔ s.LinkFits j := by
  simp [State.LinkFits, and_assoc]

section Enabling

variable (h : s.linkOwned j = false) (hl : s.rd (Ob.linkLaneCount j) ≠ 0) (hc : s.counts = true)

include h hl hc

theorem linkApply_begins (hf : s.LinkFits j) : linkApply j s = .ok (s.linkBegun j) := by
  simp only [linkApply, h, hl, hc]
  exact if_pos (State.linkFits_iff.2 hf)

theorem linkApply_unfit (hf : ¬ s.LinkFits j) : linkApply j s = .ok (s.setLink j { s.linkS j with applyResult := some 0x4F }) := by
  simp only [linkApply, h, hl, hc]
  exact if_neg (mt State.linkFits_iff.1 hf)

end Enabling

end Apply

/-! ### Steps of a link's bring-up (R83, R84, R86, R87) -/

section BringUp

variable {s : State} {t earliest latest : Nat} {j : Fin 16}

theorem execLinkBlockLock_locking (h : s.rd (Ob.linkLinkState j) = 1) :
    execLinkBlockLock t j s = .next ((s.advance t).wr (Ob.linkLinkState j) 2) := congrArg _ (if_pos h)

theorem execLinkBlockLock_idle (h : s.rd (Ob.linkLinkState j) ≠ 1) : execLinkBlockLock t j s = .next (s.advance t) :=
  congrArg _ (if_neg h)

/-- The earliest lane arrival, from which R84 and R87 count. -/
def State.laneLow (s : State) (j earliest latest : Nat) : Nat :=
  if s.rd (Ob.linkSubclass j) = 0 then 0 else min earliest latest

/-- The latest lane arrival. -/
def State.laneHigh (s : State) (j earliest latest : Nat) : Nat :=
  if s.rd (Ob.linkSubclass j) = 0 then latest - earliest else max earliest latest

theorem State.aligns_iff (s : State) (j rel lo hi : Nat) : s.aligns j rel lo hi = true ↔ hi ≤ rel ∧ rel ≤ lo + s.elastic j := by
  simp [State.aligns]

/-- The ReleaseDelay of link `j` in force, or the one that bring-up chooses (R84). -/
def State.releaseFor (s : State) (j hi : Nat) : Nat :=
  if (s.linkS j).release = 0 then 256 * ceilDiv (hi + ceilDiv (8 * s.second) 1000000000) 256 else (s.linkS j).release

/-- The lanes of link `j` wait for their release, after arrivals from `lo` to `hi`. -/
def State.linkWaits (s : State) (j lo hi : Nat) : State :=
  ((s.setLink j { s.linkS j with release := s.releaseFor j hi, latest := hi }).wr (Ob.linkArrivalSpread j) ((hi - lo) % 2 ^ 32)).wr
    (Ob.linkLinkState j) 3

/-- Link `j` cannot release its lanes together. -/
def State.linkUnaligned (s : State) (j lo hi : Nat) : State :=
  (s.wr (Ob.linkArrivalSpread j) ((hi - lo) % 2 ^ 32)).wr (Ob.linkLinkState j) 6

/-- Link `j` has measured arrivals from `lo` to `hi`; with a ReleaseDelay that bring-up chose its lines take their L_line (R580). -/
def State.linkMeasured (s : State) (j lo hi : Nat) : State :=
  if (s.linkS j).release = 0 then (s.linkWaits j lo hi).levelSources j else s.linkWaits j lo hi

/-- R84 allows the release for arrivals from `lo` to `hi`, and one that bring-up chose keeps the fabric whole. -/
def State.Releasable (s : State) (j lo hi : Nat) : Prop :=
  (hi ≤ s.releaseFor j hi ∧ s.releaseFor j hi ≤ lo + s.elastic j)
    ∧ ((s.linkS j).release = 0 → (s.linkMeasured j lo hi).fabricBroken = false)

theorem State.not_releasable_iff (s : State) (j lo hi : Nat) : (!s.aligns j (s.releaseFor j hi) lo hi
    || (decide ((s.linkS j).release = 0) && (s.linkMeasured j lo hi).fabricBroken)) = true ↔ ¬ s.Releasable j lo hi := by
  simp only [Bool.or_eq_true, Bool.not_eq_true', ← Bool.not_eq_true, s.aligns_iff, Bool.and_eq_true, decide_eq_true_eq, State.Releasable]
  tauto

theorem execLinkMultiblockLock_measures (h : s.rd (Ob.linkLinkState j) = 2)
    (hr : (s.advance t).Releasable j (s.laneLow j earliest latest) (s.laneHigh j earliest latest)) :
    execLinkMultiblockLock t j earliest latest s =
      .next ((s.advance t).linkMeasured j (s.laneLow j earliest latest) (s.laneHigh j earliest latest)) := by
  simp only [execLinkMultiblockLock, State.rd_advance, h, bne_self_eq_false, Bool.false_eq_true, if_false, beq_iff_eq]
  exact congrArg _ (if_neg (mt (State.not_releasable_iff _ _ _ _).1 (not_not.2 hr)))

theorem execLinkMultiblockLock_fails (h : s.rd (Ob.linkLinkState j) = 2)
    (hr : ¬ (s.advance t).Releasable j (s.laneLow j earliest latest) (s.laneHigh j earliest latest)) :
    execLinkMultiblockLock t j earliest latest s =
      .next ((s.advance t).linkUnaligned j (s.laneLow j earliest latest) (s.laneHigh j earliest latest)) := by
  simp only [execLinkMultiblockLock, State.rd_advance, h, bne_self_eq_false, Bool.false_eq_true, if_false, beq_iff_eq]
  exact congrArg _ (if_pos ((State.not_releasable_iff _ _ _ _).2 hr))

theorem execLinkMultiblockLock_idle (h : s.rd (Ob.linkLinkState j) ≠ 2) :
    execLinkMultiblockLock t j earliest latest s = .next (s.advance t) := congrArg _ (if_pos (bne_iff_ne.2 h))

/-- Link `j` is Running after its release. -/
def State.linkReleased (s : State) (j : Nat) : State :=
  (s.setLink j { s.linkS j with
      lastAlign := some ((s.linkS j).release + s.pathLatency j), tLemc := s.devNow - (s.linkS j).release, relinking := false }).wrs
    [(Ob.linkLinkState j, 4), (Ob.linkAlignLatency j, (s.linkS j).release + s.pathLatency j),
      (Ob.linkArrivalMargin j, uint 32 (((s.linkS j).release : Int) - (s.linkS j).latest))]

/-- The level chains of the channels of link `j` start (R581). -/
def State.chainsReset (s : State) (j : Nat) : State := (s.mapped j).foldl (fun s k => s.chainReset k) s

theorem execLinkRelease_waiting (h : s.rd (Ob.linkLinkState j) = 3) :
    execLinkRelease t j s = .next ((((s.advance t).linkReleased j).chainsReset j).quadsUp (s.quadsOf j)) :=
  congrArg _ (if_neg (by simpa using h))

theorem execLinkRelease_idle (h : s.rd (Ob.linkLinkState j) ≠ 3) : execLinkRelease t j s = .next (s.advance t) :=
  congrArg _ (if_pos (bne_iff_ne.2 h))

/-- Link `j` has Failed, and no relink runs. -/
def State.linkFailed (s : State) (j : Nat) : State := (s.wr (Ob.linkLinkState j) 6).setLink j { s.linkS j with relinking := false }

theorem execLinkBringupTimeout_fails (h : s.rd (Ob.linkLinkState j) = 1 ∨ s.rd (Ob.linkLinkState j) = 2
    ∨ s.rd (Ob.linkLinkState j) = 3 ∨ s.rd (Ob.linkLinkState j) = 5) :
    execLinkBringupTimeout t j s = .next ((s.advance t).linkFailed j) := congrArg _ (if_pos h)

theorem execLinkBringupTimeout_idle (h1 : s.rd (Ob.linkLinkState j) ≠ 1) (h2 : s.rd (Ob.linkLinkState j) ≠ 2)
    (h3 : s.rd (Ob.linkLinkState j) ≠ 3) (h5 : s.rd (Ob.linkLinkState j) ≠ 5) :
    execLinkBringupTimeout t j s = .next (s.advance t) :=
  congrArg _ (if_neg (not_or.2 ⟨h1, not_or.2 ⟨h2, not_or.2 ⟨h3, h5⟩⟩⟩))

end BringUp

/-! ### Loss of lock and relink (R100) -/

section Relink

variable {s : State} {t earliest latest : Nat} {j : Fin 16}

/-- Link `j` loses the multiblock in progress, whose CRC error it takes back (R102). -/
def State.multiblockCut (s : State) (j : Nat) : State :=
  let v := if (s.linkS j).crcBad then s.wr (Ob.linkCrcErrors j) (s.linkS j).crcWas else s
  (v.setLink j { s.linkS j with crcBad := false, crcSubst := false, relinking := s.rdB (Ob.linkAutoRelink j) }).calLinkLost j

theorem State.lockLoss_idle {j : Nat} (h : s.rd (Ob.linkLinkState j) ≠ 4) : s.lockLoss j = s := if_pos (bne_iff_ne.2 h)

theorem State.lockLoss_relinks {j : Nat} (h : s.rd (Ob.linkLinkState j) = 4) (ha : s.rd (Ob.linkAutoRelink j) ≠ 0) :
    s.lockLoss j = ((s.multiblockCut j).bump (Ob.linkLockLosses j)).wr (Ob.linkLinkState j) 5 :=
  (if_neg (by simpa using h)).trans (if_pos ((s.rdB_iff _).2 ha))

theorem State.lockLoss_fails {j : Nat} (h : s.rd (Ob.linkLinkState j) = 4) (ha : s.rd (Ob.linkAutoRelink j) = 0) :
    s.lockLoss j = (s.multiblockCut j).wr (Ob.linkLinkState j) 6 :=
  (if_neg (by simpa using h)).trans (if_neg (mt (s.rdB_iff _).1 (not_not.2 ha)))

/-- Link `j` is Running again, with the ReleaseDelay it keeps, after arrivals from `lo` to `hi`. -/
def State.linkRestored (s : State) (j lo hi : Nat) : State :=
  (s.setLink j { s.linkS j with
      latest := hi, relinking := false, lastAlign := some ((s.linkS j).release + s.pathLatency j)
      tLemc := if s.rd (Ob.linkSubclass j) = 0 then s.devNow - (s.linkS j).release else (s.linkS j).tLemc }).wrs
    [(Ob.linkLinkState j, 4), (Ob.linkArrivalSpread j, (hi - lo) % 2 ^ 32),
      (Ob.linkArrivalMargin j, uint 32 (((s.linkS j).release : Int) - hi))]

/-- Substitution goes on to the end of the block that a channel of link `j` is filling. -/
def State.toBoundaries (s : State) (j : Nat) : State :=
  (s.mapped j).foldl (fun s k => s.setChan k { s.chanS k with toBoundary := !(s.chanS k).partial64.isEmpty }) s

theorem execLinkRelinkComplete_runs (h : s.rd (Ob.linkLinkState j) = 5) (hr : s.aligns j (s.linkS j).release
    (s.laneLow j earliest latest) (s.laneHigh j earliest latest) = true) :
    execLinkRelinkComplete t j earliest latest s = .next ((((s.advance t).linkRestored j (s.laneLow j earliest latest)
      (s.laneHigh j earliest latest)).toBoundaries j).quadsUp (s.quadsOf j)) := by
  simp only [execLinkRelinkComplete, State.rd_advance, h, bne_self_eq_false, Bool.false_eq_true, if_false, beq_iff_eq]
  refine congrArg _ (if_neg ?_)
  simpa [State.laneLow, State.laneHigh] using hr

theorem execLinkRelinkComplete_fails (h : s.rd (Ob.linkLinkState j) = 5) (hr : ¬ s.aligns j (s.linkS j).release
    (s.laneLow j earliest latest) (s.laneHigh j earliest latest) = true) :
    execLinkRelinkComplete t j earliest latest s = .next ((s.advance t).linkFailed j) := by
  simp only [execLinkRelinkComplete, State.rd_advance, h, bne_self_eq_false, Bool.false_eq_true, if_false, beq_iff_eq]
  refine congrArg _ (if_pos ?_)
  simpa [State.laneLow, State.laneHigh] using hr

theorem execLinkRelinkComplete_idle (h : s.rd (Ob.linkLinkState j) ≠ 5) :
    execLinkRelinkComplete t j earliest latest s = .next (s.advance t) := congrArg _ (if_pos (bne_iff_ne.2 h))

end Relink

/-- Settles O13, command by command. -/
theorem linkBringUp : Obligations.LinkBringUp := by
  intro s t earliest latest jf now j st x rel sub0 lo hi began begun fits
  refine ⟨fun hr h => State.serve_aborted hr (linkApply_owned h),
    fun hr h hl => ⟨_, State.serve_done hr (linkApply_disables h hl), State.rd_noRates_linkState.trans State.rd_linkOff_linkState,
      State.linkS_noRates.trans State.linkS_linkOff, State.noRates_linkOff_only⟩,
    fun hr h hl hc => State.serve_aborted hr (linkApply_timeless h hl hc),
    fun hr h hl hc hf => State.serve_done hr (linkApply_begins h hl hc hf),
    fun hr h hl hc hf => State.serve_done hr (linkApply_unfit h hl hc hf),
    fun hr => State.serve_done hr rfl,
    execLinkBlockLock_locking,
    execLinkBlockLock_idle,
    ?aligning,
    execLinkMultiblockLock_idle,
    fun h => ⟨_, rfl, execLinkRelease_waiting h⟩,
    execLinkRelease_idle,
    execLinkBringupTimeout_fails,
    execLinkBringupTimeout_idle,
    fun h => ⟨_, _, rfl, rfl, fun ha => congrArg _ (State.lockLoss_relinks (s := now) h ha),
      fun ha => congrArg _ (State.lockLoss_fails (s := now) h ha)⟩,
    fun h => congrArg Host.Outcome.next (State.lockLoss_idle (s := now) h),
    fun h hhi hlo => ⟨_, rfl, execLinkRelinkComplete_runs h ((s.aligns_iff _ _ _ _).2 ⟨hhi, hlo⟩)⟩,
    fun h hr => execLinkRelinkComplete_fails h (mt (s.aligns_iff _ _ _ _).1 hr),
    execLinkRelinkComplete_idle⟩
  case aligning =>
    intro h
    refine ⟨now.releaseFor j hi, now.linkWaits j lo hi, rfl, rfl, ?kept, ?chosen, ?fails⟩
    case kept =>
      intro hx hhi hlo
      exact (execLinkMultiblockLock_measures h ⟨⟨hhi, hlo⟩, fun h0 => absurd h0 hx⟩).trans (congrArg _ (if_neg hx))
    case chosen =>
      intro hx hhi hlo hb
      have hm : now.linkMeasured j lo hi = (now.linkWaits j lo hi).levelSources j := if_pos hx
      exact (execLinkMultiblockLock_measures h ⟨⟨hhi, hlo⟩, fun _ => (congrArg _ hm).trans hb⟩).trans (congrArg _ hm)
    case fails =>
      intro hf
      refine execLinkMultiblockLock_fails h fun ⟨ha, hb⟩ => ?_
      obtain hn | ⟨hx, hbr⟩ := hf
      · exact hn ha
      · have hm : now.linkMeasured j lo hi = (now.linkWaits j lo hi).levelSources j := if_pos hx
        exact absurd hbr (Bool.eq_false_iff.1 ((congrArg _ hm).symm.trans (hb hx)))

/-! ### Multiblocks and samples (R82, R89, R94, R100) -/

section Samples

variable {s : State} {t latest : Nat} {ok : Bool} {j : Fin 16}

theorem execMultiblockReceive_notRunning (h : s.rd (Ob.linkLinkState j) ≠ 4) : execMultiblockReceive t j ok latest s =
    .next ((s.advance t).setLink j { s.linkS j with crcBad := false, crcSubst := false }) := congrArg _ (if_pos (bne_iff_ne.2 h))

/-- A multiblock that fails its CRC under CrcCheck counts. -/
def State.crcCounted (s : State) (j : Nat) (ok : Bool) : State :=
  if ok = false ∧ s.rd (Ob.linkCrcCheck j) ≠ 0 then s.bump (Ob.linkCrcErrors j) else s

/-- The margin of link `j` to its latest lane arrival. -/
def State.marginAt (s : State) (j latest : Nat) : Int := ((s.linkS j).release : Int) - latest

/-- Link `j` takes a multiblock: its CRC counts, ArrivalMargin keeps the smallest margin, and its samples bear the CRC's marks. -/
def State.multiblockTaken (s : State) (j latest : Nat) (ok : Bool) : State :=
  let u := s.crcCounted j ok
  (if s.marginAt j latest < sint 32 (s.rd (Ob.linkArrivalMargin j)) then u.wr (Ob.linkArrivalMargin j) (uint 32 (s.marginAt j latest))
    else u).setLink j { s.linkS j with
      latest := latest, crcWas := s.rd (Ob.linkCrcErrors j), crcBad := !ok && s.rdB (Ob.linkCrcCheck j)
      crcSubst := !ok && s.rdB (Ob.linkCrcCheck j) && s.rd (Ob.linkCrcAction j) == 1 }

theorem execMultiblockReceive_running (h : s.rd (Ob.linkLinkState j) = 4) : execMultiblockReceive t j ok latest s =
    .next (if s.marginAt j latest < 0 then ((s.advance t).multiblockTaken j latest ok).lockLoss j
      else (s.advance t).multiblockTaken j latest ok) := by
  have hbad : ((!ok && (s.advance t).rdB (Ob.linkCrcCheck j)) = true) = (ok = false ∧ s.rd (Ob.linkCrcCheck j) ≠ 0) := by
    simp [State.rdB]
  simp only [execMultiblockReceive, State.rd_advance, h, bne_self_eq_false, Bool.false_eq_true, if_false, hbad]
  rfl

theorem State.undelivered_iff (s : State) (j : Nat) :
    (decide (16 ≤ j) || !s.delivers j) = true ↔ 16 ≤ j ∨ s.delivers j = false := by simp

theorem execIngestSample_undelivered {ch : Fin 64} {em i wordI wordQ : Nat}
    (h : 16 ≤ s.rd (Ob.chanSourceLink ch) ∨ s.delivers (s.rd (Ob.chanSourceLink ch)) = false) :
    execIngestSample t ch em i wordI wordQ s = .next (s.advance t) := congrArg _ (if_pos ((s.undelivered_iff _).2 h))

end Samples

/-! ### The level chain's commands (R91, R94) -/

section Levels

variable {s : State} {k mask : Nat}

theorem State.levelDue_due (h : (s.chanS k).span ≤ (s.chanS k).pos) (h0 : (s.chanS k).pos ≠ 0) : s.levelDue k = s.levelEnd k :=
  if_pos ⟨h, h0⟩

theorem State.levelDue_early (h : (s.chanS k).pos < (s.chanS k).span ∨ (s.chanS k).pos = 0) : s.levelDue k = s :=
  if_neg (by omega)

theorem mem_bitsSet {w : Nat} : k ∈ bitsSet w mask ↔ k < w ∧ bit mask k = true := by simp [bitsSet]

theorem nodup_bitsSet (w mask : Nat) : (bitsSet w mask).Nodup := List.nodup_range.filter _

theorem clearSticky_tooWide (h : 2 ^ 64 ≤ mask) : clearSticky mask s = .error Abort.range := if_pos h

/-- The sticky flags of the channels of `mask` are clear. -/
def State.stickyCleared (s : State) (mask : Nat) : State :=
  (bitsSet 64 mask).foldl (fun s k => s.wr (Ob.chanFlags k) (s.rd (Ob.chanFlags k) &&& 0x87)) s

theorem clearSticky_clears (h : mask < 2 ^ 64) : clearSticky mask s = .ok (s.stickyCleared mask) := if_neg (Nat.not_le.2 h)

theorem State.stickyCleared_only : s.stickyCleared mask = { s with regs := (s.stickyCleared mask).regs } :=
  (clearStickies _ s (nodup_bitsSet 64 mask)).1

theorem State.rd_stickyCleared (hk : k < 64) : (s.stickyCleared mask).rd (Ob.chanFlags k) =
    if bit mask k then s.rd (Ob.chanFlags k) &&& 0x87 else s.rd (Ob.chanFlags k) :=
  ((clearStickies _ s (nodup_bitsSet 64 mask)).2 k).trans (by simp [mem_bitsSet, hk])

end Levels

/-- Settles O14: a delivered sample is counted by `State.countSample`, whose registers `countSample_facts` gives. -/
theorem samplesAndLevels : Obligations.SamplesAndLevels := by
  intro s t em i wordI wordQ latest time mask ok jf ch now y m k j c x cplx opts subst wd np b ci cq clip ov crc w st
  refine ⟨execMultiblockReceive_notRunning,
    fun h => ⟨_, _, _, rfl, rfl, rfl, execMultiblockReceive_running h⟩,
    execIngestSample_undelivered,
    ?delivered,
    fun h h0 => congrArg Host.Outcome.next (State.levelDue_due (s := now) h h0),
    fun h => congrArg Host.Outcome.next (State.levelDue_early (s := now) h),
    fun hr => State.serve_done hr rfl,
    fun hr => State.serve_done hr rfl,
    fun hr h => State.serve_aborted hr (clearSticky_tooWide h),
    fun hr h => ⟨_, State.serve_done hr (clearSticky_clears h), State.stickyCleared_only, fun k hk => State.rd_stickyCleared hk⟩⟩
  case delivered =>
    intro hj hd
    obtain ⟨honly, hclip, hover, hflags, hsubst⟩ := countSample_facts now k j clip ov subst crc ch.isLt hj
    have hgo : ¬ (16 ≤ j ∨ s.delivers j = false) := by simp [hj, hd]
    exact ⟨now.countSample k j clip ov subst crc, honly, hclip, hover, hflags, hsubst,
      congrArg Host.Outcome.next (if_neg (mt (s.undelivered_iff j).1 hgo))⟩

end Sys2Proof.Machine

/-! Proofs about the spectrum family: the frames of the modes Spectrum, Channelize and Pulse, and their tables (O27). -/

namespace Sys2Proof.Machine

open Sys2Proof

/-! ### A frame at its gate (R67, R74, R500) -/

@[simp] theorem State.chainMode_advance (s : State) (t n : Nat) : (s.advance t).chainMode n = s.chainMode n := rfl
@[simp] theorem State.pipeS_advance (s : State) (t n : Nat) : (s.advance t).pipeS n = s.pipeS n := rfl

/-- A declared gap counts at a gate that passes the frame over, and at no other. -/
theorem Gate.and_skip_beq_skip (gap : Bool) : (gap && Gate.skip == .skip) = gap := Bool.and_true gap
theorem Gate.and_mute_beq_skip (gap : Bool) : (gap && Gate.mute == .skip) = false := Bool.and_false gap
theorem Gate.and_live_beq_skip (gap : Bool) : (gap && Gate.live == .skip) = false := Bool.and_false gap

/-- The tag of a frame: that of its first sample. -/
def frameTag (l : List (Nat × Nat × Nat)) : Nat := (l.headD (0, 0, 0)).1

/-- A frame with `tag` of slot `n` at its gate: while it waits the state `s` stays; else the work of its case is done, a frame that
is not passed over counts as taken, and `next` moves the position and the drains on. -/
def State.gated (s : State) (n tag : Nat) (skipped muted live : State) (next : State → State) : Gate → State
  | .wait => s
  | .skip => next skipped
  | .mute => next (muted.tookFrame n tag)
  | .live => next (live.tookFrame n tag)

theorem State.gated_cases {s skipped muted live : State} {n tag : Nat} {next : State → State} {g : Gate} {r : Outcome}
    (h : r = .next (s.gated n tag skipped muted live next g)) :
    (g = .wait → r = .next s) ∧ (g = .skip → r = .next (next skipped))
      ∧ (g = .mute → r = .next (next (muted.tookFrame n tag))) ∧ (g = .live → r = .next (next (live.tookFrame n tag))) := by
  subst h
  refine ⟨?wait, ?skip, ?mute, ?live⟩ <;> (rintro rfl; rfl)

/-! ### Spectrum frames (R104, R112) -/

section Spectrum

/-- The sample at which the next Spectrum frame of channel `k` begins, on a grid with origin `o`. -/
def State.specStart (s : State) (n k : Nat) (o : Nat × Nat) : Nat :=
  o.1 + tget (dconst 0) (s.pipeS n).frame k * spHop (leNat (s.chainGeom n))

/-- The samples of that frame, once they are all there. -/
def State.specInput (s : State) (n k : Nat) (o : Nat × Nat) : Option (List (Nat × Nat × Nat)) :=
  s.inputAt n k (s.specStart n k o) (2 ^ spLog (leNat (s.chainGeom n)))

/-- The gate of that frame, which waits for the slot it replaces (R133, R139). -/
def State.specGate (s : State) (n k tag : Nat) : Gate := s.inTurn n (fun o => s.pendingTag o k) (s.gate n k tag)

/-- The next frame of channel `k`, with samples `l`, runs live. -/
def State.specLive (s : State) (n k : Nat) (l : List (Nat × Nat × Nat)) : State :=
  s.specFrame n k (tget (dconst 0) (s.pipeS n).frame k) (frameTag l) (frameFlags l) (l.map fun x => x.2.1)

/-- `v` once the frame that was next in `s` is done: the next one stands a hop further, and the samples before it are drained. -/
def State.specNext (s : State) (n k : Nat) (o : Nat × Nat) (v : State) : State :=
  (v.nextFrame n k o).drained n k 0 (s.specStart n k o + spHop (leNat (s.chainGeom n)))

variable {s : State} {t : Nat} {n ch : Fin 64} {o : Nat × Nat} {l : List (Nat × Nat × Nat)}

theorem execSpectrumFrame_idle
    (h : s.chainMode n ≠ 1 ∨ bit (s.rd (Ob.slotChannelMask n)) ch = false ∨ (s.advance t).gridOrigin n ch = none) :
    execSpectrumFrame t n ch s = .next (s.advance t) := by
  unfold execSpectrumFrame
  rcases h with hmode | hmask | hgrid
  · simp [hmode]
  · simp [hmask]
  · simp [hgrid]

section Grid

variable (hmode : s.chainMode n = 1) (hmask : bit (s.rd (Ob.slotChannelMask n)) ch = true)
  (hgrid : (s.advance t).gridOrigin n ch = some o)

include hmode hmask hgrid

theorem execSpectrumFrame_starved (hin : (s.advance t).specInput n ch o = none) :
    execSpectrumFrame t n ch s = .next (s.advance t) := by
  unfold State.specInput State.specStart at hin
  simp only [execSpectrumFrame, State.chainMode_advance, State.rd_advance, hmode, hmask, hgrid, hin, ite_self]

theorem execSpectrumFrame_gated (hin : (s.advance t).specInput n ch o = some l) :
    execSpectrumFrame t n ch s = .next ((s.advance t).gated n (frameTag l) (s.advance t) (s.advance t) ((s.advance t).specLive n ch l)
      ((s.advance t).specNext n ch o) ((s.advance t).specGate n ch (frameTag l))) := by
  unfold State.specInput State.specStart at hin
  simp only [execSpectrumFrame, State.chainMode_advance, State.rd_advance, hmode, hmask, hgrid, hin]
  change _ = Host.Outcome.next (State.gated _ _ _ _ _ _ _ (State.inTurn _ _ _ _))
  unfold frameTag
  generalize State.inTurn _ _ _ _ = g
  cases g <;> rfl

end Grid

end Spectrum

/-! ### Frames of a channelizer bank (R172, R173, R180) -/

section Bank

/-- The samples of earlier frames that the bank of channel `k` keeps. -/
def State.bankKept (s : State) (n k : Nat) : List (Nat × Nat × Nat) := tget (dconst []) (s.pipeS n).hist k

/-- The first sample of the next bank frame of channel `k`, on a grid with origin `o`. -/
def State.bankStart (s : State) (n k : Nat) (o : Nat × Nat) : Nat :=
  o.1 + tget (dconst 0) (s.pipeS n).frame k * svHop (s.sieveHead n)

/-- The samples that the next bank frame needs and the bank does not keep. -/
def State.bankInput (s : State) (n k : Nat) (o : Nat × Nat) : Option (List (Nat × Nat × Nat)) :=
  s.inputAt n k (s.bankStart n k o + (s.bankKept n k).length) (svSpan (s.sieveHead n) - (s.bankKept n k).length)

/-- The gate of that frame, which with routes waits for the whole slot it replaces (R193). -/
def State.bankGate (s : State) (n k tag : Nat) : Gate :=
  s.routesInTurn n (s.sieveHead n) (s.inTurn n (fun o => s.pendingTag o k) (s.gate n k tag))

/-- A bank frame that is passed over gives the gap's output in a declared gap (R193, R194). -/
def State.bankSkipped (s : State) (n k tag : Nat) : State := if s.inGap n k tag then s.sieveGap n k tag else s

/-- The next bank frame of channel `k`, with samples `all`, runs live. -/
def State.bankLive (s : State) (n k : Nat) (all : List (Nat × Nat × Nat)) : State :=
  s.sieveFrame n k (tget (dconst 0) (s.pipeS n).frame k) (frameTag all) (frameFlags all) (all.map fun x => x.2.1)

/-- `v` once the bank frame that was next in `s`, with samples `all`, is done: the bank keeps what lies behind the hop. -/
def State.bankNext (s : State) (n k : Nat) (o : Nat × Nat) (all : List (Nat × Nat × Nat)) (v : State) : State :=
  ((v.setPipe n { v.pipeS n with
      hist := tset (dconst []) (v.pipeS n).hist k (all.drop (svHop (s.sieveHead n))) }).nextFrame n k o).drained
    n k 0 (s.bankStart n k o + svSpan (s.sieveHead n))

variable {s : State} {t : Nat} {n ch : Fin 64} {o : Nat × Nat} {l : List (Nat × Nat × Nat)}

theorem execChannelizeFrame_idle
    (h : s.chainMode n ≠ 2 ∨ bit (s.rd (Ob.slotChannelMask n)) ch = false ∨ (s.advance t).gridOrigin n ch = none) :
    execChannelizeFrame t n ch s = .next (s.advance t) := by
  unfold execChannelizeFrame
  rcases h with hmode | hmask | hgrid
  · simp [hmode]
  · simp [hmask]
  · simp [hgrid]

section Grid

variable (hmode : s.chainMode n = 2) (hmask : bit (s.rd (Ob.slotChannelMask n)) ch = true)
  (hgrid : (s.advance t).gridOrigin n ch = some o)

include hmode hmask hgrid

theorem execChannelizeFrame_starved (hin : (s.advance t).bankInput n ch o = none) :
    execChannelizeFrame t n ch s = .next (s.advance t) := by
  unfold State.bankInput State.bankStart State.bankKept at hin
  simp only [execChannelizeFrame, State.chainMode_advance, State.rd_advance, hmode, hmask, hgrid, hin, ite_self]

theorem execChannelizeFrame_gated (hin : (s.advance t).bankInput n ch o = some l) :
    let all := (s.advance t).bankKept n ch ++ l
    execChannelizeFrame t n ch s = .next ((s.advance t).gated n (frameTag all) ((s.advance t).bankSkipped n ch (frameTag all))
      (s.advance t) ((s.advance t).bankLive n ch all) ((s.advance t).bankNext n ch o all)
      ((s.advance t).bankGate n ch (frameTag all))) := by
  unfold State.bankInput State.bankStart State.bankKept at hin
  simp only [execChannelizeFrame, State.chainMode_advance, State.rd_advance, hmode, hmask, hgrid, hin]
  change _ = Host.Outcome.next (State.gated _ _ _ _ _ _ _ (State.routesInTurn _ _ _ _))
  unfold State.bankKept frameTag
  generalize State.routesInTurn _ _ _ _ = g
  cases g with
  | wait => rfl
  | skip => rw [Gate.and_skip_beq_skip]; rfl
  | mute => rw [Gate.and_mute_beq_skip]; rfl
  | live => rfl

end Grid

end Bank

/-! ### Select frames (R203, R206, R216) -/

section Select

/-- The tag of the next select frame of input `i`, given the samples that its rule looks at. -/
def State.selectTag (s : State) (n i : Nat) (l : List (Nat × Nat × Nat)) : Nat := frameTag (s.selectNew n i l)

/-- The gate of that frame, which waits for the slot it replaces on the same channel (R217). -/
def State.selectGate (s : State) (n i tag : Nat) : Gate :=
  s.inTurn n (fun o => (s.sameInput o n i).bind (s.pendingTag o)) (s.gateOn n i tag (s.inGap n i tag))

/-- The next select frame of input `i` is judged, with output or without. -/
def State.selectJudged (s : State) (n i : Nat) (l : List (Nat × Nat × Nat)) (live : Bool) : State :=
  s.selectFrame n i live (s.selectRule n i l) (s.selFirst n i) ((s.selectNew n i l).map fun x => x.1)

/-- In a declared gap of the stage a select frame that is passed over is not judged. -/
def State.selectSkipped (s : State) (n i : Nat) (l : List (Nat × Nat × Nat)) : State :=
  if s.inGap n i (s.selectTag n i l) then s else s.selectJudged n i l false

/-- `v` once the select frame of `new` samples that was next in `s` is done: an input of a channel drains it up to what the next frame looks back to. -/
def State.selectNext (s : State) (n i new : Nat) (o : Nat × Nat) (v : State) : State :=
  if enRoute (s.pulseEntry n i) then v.nextFrame n i o
  else (v.nextFrame n i o).drained n (enNumber (s.pulseEntry n i)) 0
    (o.1 + (s.selFirst n i + new - s.selBack n i))

variable {s : State} {t : Nat} {n : Fin 64} {i : Fin 256} {o : Nat × Nat} {l : List (Nat × Nat × Nat)}

theorem execPulseSelectFrame_idle (h : s.chainMode n ≠ 3 ∨ puInputs ((s.advance t).pulseHead n) ≤ i) :
    execPulseSelectFrame t n i s = .next (s.advance t) := by
  unfold execPulseSelectFrame
  rcases h with hmode | hinput
  · simp [hmode]
  · simp [hinput]

section Input

variable (hmode : s.chainMode n = 3) (hinput : i < puInputs ((s.advance t).pulseHead n))

include hmode hinput

theorem execPulseSelectFrame_gridless (hgrid : ((s.advance t).pulseAdopt n i).pulseGrid n i = none) :
    execPulseSelectFrame t n i s = .next ((s.advance t).pulseAdopt n i) := by
  simp [execPulseSelectFrame, hmode, Nat.not_le.2 hinput, hgrid]

variable (hgrid : ((s.advance t).pulseAdopt n i).pulseGrid n i = some o)

include hgrid

theorem execPulseSelectFrame_starved (hin : ((s.advance t).pulseAdopt n i).selectIn n i o = none) :
    execPulseSelectFrame t n i s = .next ((s.advance t).pulseAdopt n i) := by
  simp [execPulseSelectFrame, hmode, Nat.not_le.2 hinput, hgrid, hin]

theorem execPulseSelectFrame_gated (hin : ((s.advance t).pulseAdopt n i).selectIn n i o = some l) :
    let v := (s.advance t).pulseAdopt n i
    let tag := v.selectTag n i l
    execPulseSelectFrame t n i s = .next (v.gated n tag (v.selectSkipped n i l) (v.selectJudged n i l false)
      (v.selectJudged n i l true) (v.selectNext n i (puNew ((s.advance t).pulseHead n)) o) (v.selectGate n i tag)) := by
  simp only [execPulseSelectFrame, State.chainMode_advance, hmode, Nat.not_le.2 hinput, hgrid, hin]
  change _ = Host.Outcome.next (State.gated _ _ _ _ _ _ _ (State.inTurn _ _ _ _))
  unfold State.selectTag frameTag
  generalize State.inTurn _ _ _ _ = g
  cases g with
  | wait => rfl
  | skip => rw [Gate.and_skip_beq_skip]; rfl
  | mute => rw [Gate.and_mute_beq_skip]; rfl
  | live => rw [Gate.and_live_beq_skip]; rfl

end Input

end Select

/-! ### Measure frames (R206, R216) -/

section Measure

/-- The gate of the next measure frame of input `i`: a gap of the measure stage or of the select stage counts. -/
def State.measureGate (s : State) (n i tag : Nat) : Gate := s.gateOn n i tag (s.inMeasureGap n i tag)

variable {s : State} {t : Nat} {n : Fin 64} {i : Fin 256} {o : Nat × Nat} {l : List (Nat × Nat × Nat)}

theorem execPulseMeasureFrame_idle (h : s.chainMode n ≠ 3 ∨ puInputs ((s.advance t).pulseHead n) ≤ i
    ∨ tget (dconst none) (s.pipeS n).origin i = none) : execPulseMeasureFrame t n i s = .next (s.advance t) := by
  unfold execPulseMeasureFrame
  rcases h with hmode | hinput | horigin
  · simp [hmode]
  · simp [hinput]
  · simp [horigin]

section Input

variable (hmode : s.chainMode n = 3) (hinput : i < puInputs ((s.advance t).pulseHead n))
  (horigin : tget (dconst none) (s.pipeS n).origin i = some o)

include hmode hinput horigin

theorem execPulseMeasureFrame_starved (hin : (s.advance t).measureIn n i o = none) :
    execPulseMeasureFrame t n i s = .next (s.advance t) := by
  simp [execPulseMeasureFrame, hmode, Nat.not_le.2 hinput, horigin, hin]

section Filled

variable (hin : (s.advance t).measureIn n i o = some l)

include hin

theorem execPulseMeasureFrame_waits
    (h : (s.advance t).measureGate n i (frameTag l) = .wait ∨ (s.advance t).measureDecided n i = false) :
    execPulseMeasureFrame t n i s = .next (s.advance t) := by
  unfold State.measureGate frameTag at h
  rcases h with hwait | hundecided
  · simp only [execPulseMeasureFrame, State.chainMode_advance, State.pipeS_advance, hmode, Nat.not_le.2 hinput, horigin, hin, hwait]
    rfl
  · simp [execPulseMeasureFrame, hmode, horigin, hin, hundecided]

variable (hdecided : (s.advance t).measureDecided n i = true)

include hdecided

theorem execPulseMeasureFrame_live (h : (s.advance t).measureGate n i (frameTag l) = .live) :
    execPulseMeasureFrame t n i s = .next
      (((s.advance t).measureFrame n i o ((s.advance t).measureTrigs n i)).measureNext n i ((s.advance t).measFirst n i) o) := by
  unfold State.measureGate frameTag at h
  simp only [execPulseMeasureFrame, State.chainMode_advance, State.pipeS_advance, hmode, Nat.not_le.2 hinput, horigin, hin, h, hdecided]
  rfl

theorem execPulseMeasureFrame_passes
    (h : (s.advance t).measureGate n i (frameTag l) = .skip ∨ (s.advance t).measureGate n i (frameTag l) = .mute) :
    execPulseMeasureFrame t n i s = .next ((s.advance t).measureNext n i ((s.advance t).measFirst n i) o) := by
  unfold State.measureGate frameTag at h
  rcases h with h | h <;>
    (simp only [execPulseMeasureFrame, State.chainMode_advance, State.pipeS_advance, hmode, Nat.not_le.2 hinput, horigin, hin, h,
      hdecided]; rfl)

end Filled

end Input

end Measure

/-! ### Tables and counters (R109, R110, R179, R213) -/

section Tables

variable {s : State} {u n : Nat}

theorem pulseClearCounters_noSlot (h : 64 ≤ n) : pulseClearCounters n s = .error Abort.range := if_pos h

theorem pulseClearCounters_clears (h : n < 64) :
    pulseClearCounters n s = .ok (s.setPipe n { s.pipeS n with counts := [] }) := if_neg (Nat.not_le.2 h)

/-- Prototype `u` has a length that R179 allows, and its coefficients pass the checks of R111. -/
def State.protoOk (s : State) (u : Nat) : Bool :=
  coefficientsOk (s.rd (Ob.protoLength u) % 16 == 0 && decide (16 ≤ s.rd (Ob.protoLength u)) && decide (s.rd (Ob.protoLength u) ≤ 65536))
    (s.rd (Ob.protoLength u)) (s.dom (Ob.protoCoefficients u))

/-- User window `u` has a length that R110 allows, and its coefficients pass the checks of R111. -/
def State.uwinOk (s : State) (u : Nat) : Bool :=
  coefficientsOk (isPow2 (s.rd (Ob.uwinLength u)) && decide (256 ≤ s.rd (Ob.uwinLength u)) && decide (s.rd (Ob.uwinLength u) ≤ 65536))
    (s.rd (Ob.uwinLength u)) (s.dom (Ob.uwinCoefficients u))

theorem sieveLoad_invalid (h : s.protoOk u = false) :
    sieveLoad u s = .ok ((s.noted (Ob.protoLoad u)).wrs [(Ob.protoLoad u, 0x4F), (Ob.protoLoaded u, 0)]) :=
  if_neg (Bool.eq_false_iff.1 h)

theorem sieveLoad_valid (h : s.protoOk u = true) :
    let w := coefficients (s.dom (Ob.protoCoefficients u))
    sieveLoad u s = .ok ((s.noted (Ob.protoLoad u)).wrs [(Ob.protoLoad u, 0), (Ob.protoLoaded u, 1), (Ob.protoDcGain u, (sum1 w).toNat),
      (Ob.protoEnbwTaps u,
        roundUp (1000 * s.rd (Ob.protoLength u) * (sum2 w).toNat) ((sum1 w).toNat * (sum1 w).toNat))]) :=
  if_pos h

theorem userWindowLoad_invalid (h : s.uwinOk u = false) :
    userWindowLoad u s = .ok ((s.noted (Ob.uwinLoad u)).wrs [(Ob.uwinLoad u, 0x4F), (Ob.uwinLoaded u, 0)]) :=
  if_neg (Bool.eq_false_iff.1 h)

/-- An Enbw of more than 32 bits is written whole (DESIGN CHOICE, log entry 149). -/
theorem userWindowLoad_valid (h : s.uwinOk u = true) :
    let w := coefficients (s.dom (Ob.uwinCoefficients u))
    userWindowLoad u s = .ok ((s.noted (Ob.uwinLoad u)).wrs [(Ob.uwinLoad u, 0), (Ob.uwinLoaded u, 1),
      (Ob.uwinCoherentGain u, roundUp (1000000 * (sum1 w).toNat) (131071 * s.rd (Ob.uwinLength u))),
      (Ob.uwinEnbw u, roundUp (1000 * s.rd (Ob.uwinLength u) * (sum2 w).toNat) ((sum1 w).toNat * (sum1 w).toNat)),
      (Ob.uwinPeakGain u, roundUp (1000 * (sumAbs w).toNat) (sum1 w).toNat)]) :=
  if_pos h

end Tables

/-- Settles O27, command by command. -/
theorem modeFrames : Obligations.ModeFrames := by
  intro s t c nf ch inf uf o l now n k i u mine m spec at1 tag gateS specOn bank old all tagB gateB bankOn puIn pv e sel tagS gapS
    gateP judged selOn gateM measOn pOk wOk pw ww
  refine ⟨execSpectrumFrame_idle, execChannelizeFrame_idle, ?spectrum, ?bank, execPulseSelectFrame_idle, execPulseSelectFrame_gridless,
    ?select, execPulseMeasureFrame_idle, ?measure,
    fun hr h => State.serve_aborted hr (pulseClearCounters_noSlot h), fun hr h => State.serve_done hr (pulseClearCounters_clears h),
    fun hr h => State.serve_done hr (sieveLoad_invalid h), fun hr h => State.serve_done hr (sieveLoad_valid h),
    fun hr h => State.serve_done hr (userWindowLoad_invalid h), fun hr h => State.serve_done hr (userWindowLoad_valid h)⟩
  case spectrum =>
    intro hmode hmask hgrid
    exact ⟨execSpectrumFrame_starved hmode hmask hgrid,
      fun hin => State.gated_cases (execSpectrumFrame_gated hmode hmask hgrid hin)⟩
  case bank =>
    intro hmode hmask hgrid
    refine ⟨execChannelizeFrame_starved hmode hmask hgrid, fun hin => ?_⟩
    obtain ⟨hwait, hskip, hmute, hlive⟩ := State.gated_cases (execChannelizeFrame_gated hmode hmask hgrid hin)
    exact ⟨hwait, fun hg hgap => (hskip hg).trans (congrArg (fun v => Host.Outcome.next (bankOn v)) (if_pos hgap)),
      fun hg hgap => (hskip hg).trans (congrArg (fun v => Host.Outcome.next (bankOn v)) (if_neg (Bool.eq_false_iff.1 hgap))),
      hmute, hlive⟩
  case select =>
    intro hmode hinput hgrid
    refine ⟨execPulseSelectFrame_starved hmode hinput hgrid, fun hin => ?_⟩
    obtain ⟨hwait, hskip, hmute, hlive⟩ := State.gated_cases (execPulseSelectFrame_gated hmode hinput hgrid hin)
    exact ⟨hwait, fun hg hgap => (hskip hg).trans (congrArg (fun v => Host.Outcome.next (selOn v)) (if_pos hgap)),
      fun hg hgap => (hskip hg).trans (congrArg (fun v => Host.Outcome.next (selOn v)) (if_neg (Bool.eq_false_iff.1 hgap))),
      hmute, hlive⟩
  case measure =>
    intro hmode hinput horigin
    exact ⟨execPulseMeasureFrame_starved hmode hinput horigin,
      fun hin => ⟨execPulseMeasureFrame_waits hmode hinput horigin hin, execPulseMeasureFrame_live hmode hinput horigin hin,
        execPulseMeasureFrame_passes hmode hinput horigin hin⟩⟩

end Sys2Proof.Machine

/-! Proofs about the triggers' family: pattern units, trigger outputs and the primitive stream (O24), bulk frames, bounded messages,
line changes and joined time (O30). -/

namespace Sys2Proof.Machine

open Sys2Proof

/-! ### What the passing of time leaves alone -/

@[simp] theorem State.counts_advance (s : State) (t : Nat) : (s.advance t).counts = s.counts := rfl
@[simp] theorem State.trigS_advance (s : State) (t k : Nat) : (s.advance t).trigS k = s.trigS k := rfl
@[simp] theorem State.laneS_advance (s : State) (t i : Nat) : (s.advance t).laneS i = s.laneS i := rfl

/-! ### Writes to a pattern unit (R144, R147, R151, R152, R234) -/

section PatternWrite

variable {s : State} {u sub v code : Nat} {d : Option Bytes}

theorem patternUnitWrite_illFormed (h : patRange sub v d = some code) (hc : code ≠ Abort.range) :
    patternUnitWrite u sub v d s = .error code := by
  simp [patternUnitWrite, h, hc]

theorem patternUnitWrite_frozen (h : patRange sub v d = none ∨ patRange sub v d = some Abort.range)
    (hf : s.patFrozen (s.rd (Ob.patOwner u)) = true) : patternUnitWrite u sub v d s = .error Abort.state := by
  rcases h with h | h <;> simp [patternUnitWrite, h, hf]

theorem patternUnitWrite_outOfRange (hf : s.patFrozen (s.rd (Ob.patOwner u)) = false) (h : patRange sub v d = some Abort.range) :
    patternUnitWrite u sub v d s = .error Abort.range := by
  simp [patternUnitWrite, h, hf]

/-- The write would lengthen what the fabric or a capture's lookback has to cover past what they cover. -/
def State.patRisky (s : State) (u sub v : Nat) (d : Option Bytes) : Bool :=
  let put := s.patApply u (patKey u sub) v d
  (decide (s.rd (Ob.patHorizon u) < put.rd (Ob.patHorizon u)) || patRaises sub v) && (put.fabricBroken || !put.lookCovered)

/-- The unit's Owner is an admitted slot. -/
theorem State.ownerAdmitted_iff (s : State) (u : Nat) :
    (decide (s.rd (Ob.patOwner u) < 64) && s.rd (Ob.slotState (s.rd (Ob.patOwner u))) == 2) = true
      ↔ s.rd (Ob.patOwner u) < 64 ∧ s.rd (Ob.slotState (s.rd (Ob.patOwner u))) = 2 := by
  simp

section Formed

variable (h : patRange sub v d = none) (hf : s.patFrozen (s.rd (Ob.patOwner u)) = false)

include h hf

theorem patternUnitWrite_formed : patternUnitWrite u sub v d s =
    if decide (s.rd (Ob.patOwner u) < 64) && s.rd (Ob.slotState (s.rd (Ob.patOwner u))) == 2
    then .ok (s.patStage (s.rd (Ob.patOwner u)) (patKey u sub) v d)
    else if s.patRisky u sub v d then .error Abort.range else .ok (s.patApply u (patKey u sub) v d) := by
  simp only [patternUnitWrite, h, hf, State.patRisky]
  rfl

theorem patternUnitWrite_staged (ho : s.rd (Ob.patOwner u) < 64) (hs : s.rd (Ob.slotState (s.rd (Ob.patOwner u))) = 2) :
    patternUnitWrite u sub v d s = .ok (s.patStage (s.rd (Ob.patOwner u)) (patKey u sub) v d) :=
  (patternUnitWrite_formed h hf).trans (if_pos ((s.ownerAdmitted_iff u).2 ⟨ho, hs⟩))

variable (ho : 64 ≤ s.rd (Ob.patOwner u) ∨ s.rd (Ob.slotState (s.rd (Ob.patOwner u))) ≠ 2)

include ho

theorem patternUnitWrite_unstaged : patternUnitWrite u sub v d s =
    if s.patRisky u sub v d then .error Abort.range else .ok (s.patApply u (patKey u sub) v d) :=
  (patternUnitWrite_formed h hf).trans
    (if_neg (mt (s.ownerAdmitted_iff u).1 fun ⟨hlt, h2⟩ => ho.elim (Nat.not_le.2 hlt) fun hne => hne h2))

theorem patternUnitWrite_risky (hr : s.patRisky u sub v d = true) : patternUnitWrite u sub v d s = .error Abort.range :=
  (patternUnitWrite_unstaged h hf ho).trans (if_pos hr)

theorem patternUnitWrite_applied (hr : s.patRisky u sub v d = false) :
    patternUnitWrite u sub v d s = .ok (s.patApply u (patKey u sub) v d) :=
  (patternUnitWrite_unstaged h hf ho).trans (if_neg (Bool.eq_false_iff.1 hr))

end Formed

end PatternWrite

/-! ### Evaluation of a pattern unit (R139, R154) -/

section Evaluate

variable {s : State} {t : Nat} {u : Fin 16}

/-- Unit `u` evaluates nothing: it is disabled, time does not count, or no condition time is a horizon past. -/
def State.PatIdle (s : State) (u : Nat) : Prop :=
  s.rd (Ob.patEnable u) = 0 ∨ s.counts = false ∨ s.devNow < s.rd (Ob.patHorizon u)

theorem State.patIdle_iff (s : State) (u : Nat) :
    (!s.rdB (Ob.patEnable u) || !s.counts || decide (s.devNow < s.rd (Ob.patHorizon u))) = true ↔ s.PatIdle u := by
  simp [State.PatIdle, State.rdB, or_assoc]

/-- Unit `u` evaluates every condition time not evaluated yet, up to its horizon. -/
def State.patRun (s : State) (u : Nat) : State :=
  (s.patTimes u (s.patS u).evalAt (s.patUpTo u)).foldl (fun s t => s.patAt u t) s

theorem execPatternUnitEvaluate_idle (h : (s.advance t).PatIdle u) : execPatternUnitEvaluate t u s = .next (s.advance t) :=
  congrArg _ (if_pos (((s.advance t).patIdle_iff u).2 h))

theorem execPatternUnitEvaluate_runs (h : ¬ (s.advance t).PatIdle u) : execPatternUnitEvaluate t u s =
    .next (((s.advance t).patRun u).wr (Ob.patMatching u) (b2n (((s.advance t).patRun u).patS u).start.isSome)) :=
  congrArg _ (if_neg (mt ((s.advance t).patIdle_iff u).1 h))

end Evaluate

/-! ### Trigger outputs (R146, R147) -/

section TrigConfig

variable {s : State} {k v : Nat}

/-- A trigger output's setting has more than 64 bits, reserved bits set, an enabled pulse of no width, or a delay above 4 us. -/
def State.TrigMalformed (s : State) (v : Nat) : Prop :=
  2 ^ 64 ≤ v ∨ bits v 59 32 ≠ 0 ∨ (bit v 63 = true ∧ bits v 31 16 = 0) ∨ 4 * s.second < bits v 15 0 * 256 * 1000000

theorem State.trigMalformed_iff (s : State) (v : Nat) :
    (decide (2 ^ 64 ≤ v) || bits v 59 32 != 0 || (bit v 63 && bits v 31 16 == 0)
      || decide (4 * s.second < bits v 15 0 * 256 * 1000000)) = true ↔ s.TrigMalformed v := by
  simp only [State.TrigMalformed, Bool.or_eq_true, Bool.and_eq_true, decide_eq_true_eq, bne_iff_ne, beq_iff_eq, or_assoc]

theorem trigOutConfig_malformed (h : s.TrigMalformed v) : trigOutConfig k v s = .error Abort.range :=
  if_pos ((s.trigMalformed_iff v).2 h)

theorem trigOutConfig_formed (h : ¬ s.TrigMalformed v) : trigOutConfig k v s =
    if (s.wr (Ob.condTrigOutConfig k) v).trigOutBreak.isSome then .error Abort.range
    else if bit v 63 then .ok (s.wr (Ob.condTrigOutConfig k) v)
    else .ok ((s.wr (Ob.condTrigOutConfig k) v).setTrig k { s.trigS k with waiting := [] }) :=
  if_neg (mt (s.trigMalformed_iff v).1 h)

theorem trigOutConfig_refused (h : s.TrigMalformed v ∨ (s.wr (Ob.condTrigOutConfig k) v).trigOutBreak ≠ none) :
    trigOutConfig k v s = .error Abort.range := by
  by_cases hm : s.TrigMalformed v
  · exact trigOutConfig_malformed hm
  · exact (trigOutConfig_formed hm).trans (if_pos (Option.isSome_iff_ne_none.2 (h.resolve_left hm)))

section Sound

variable (h : ¬ s.TrigMalformed v) (hb : (s.wr (Ob.condTrigOutConfig k) v).trigOutBreak = none)

include h hb

theorem trigOutConfig_enables (he : bit v 63 = true) : trigOutConfig k v s = .ok (s.wr (Ob.condTrigOutConfig k) v) := by
  simp [trigOutConfig_formed h, hb, he]

theorem trigOutConfig_disables (he : bit v 63 = false) :
    trigOutConfig k v s = .ok ((s.wr (Ob.condTrigOutConfig k) v).setTrig k { s.trigS k with waiting := [] }) := by
  simp [trigOutConfig_formed h, hb, he]

end Sound

end TrigConfig

section TrigEdge

variable {s : State} {t : Nat} {k : Fin 8} {p a : Nat × Nat}

theorem execTrigOutEdge_idle (h : firstPulse (s.trigS k).waiting = none
      ∨ (firstPulse (s.trigS k).waiting = some p ∧ (s.advance t).devNow < p.1)) :
    execTrigOutEdge t k s = .next (s.advance t) := by
  rcases h with h | ⟨h, hlt⟩
  · simp [execTrigOutEdge, h]
  · simp [execTrigOutEdge, h, hlt]

section Due

variable (h : firstPulse (s.trigS k).waiting = some p) (ht : p.1 ≤ (s.advance t).devNow)

include h ht

theorem execTrigOutEdge_leaves (ha : (s.trigS k).active = none) : execTrigOutEdge t k s = .next
    (((s.advance t).setTrig k { waiting := (s.trigS k).waiting.erase p, active := some p }).emit
      (.trigOut k ((s.advance t).trigLevel k true) p.1)) := by
  simp [execTrigOutEdge, h, Nat.not_lt.2 ht, ha]

theorem execTrigOutEdge_merges (ha : (s.trigS k).active = some a) (hm : p.1 < a.2 + 256) : execTrigOutEdge t k s = .next
    ((s.advance t).setTrig k { waiting := (s.trigS k).waiting.erase p, active := some (a.1, max a.2 p.2) }) := by
  simp [execTrigOutEdge, h, Nat.not_lt.2 ht, ha, hm]

theorem execTrigOutEdge_waits (ha : (s.trigS k).active = some a) (hm : a.2 + 256 ≤ p.1) :
    execTrigOutEdge t k s = .next (s.advance t) := by
  simp [execTrigOutEdge, h, Nat.not_lt.2 ht, ha, Nat.not_lt.2 hm]

end Due

theorem execTrigOutPulseEnd_idle (h : (s.trigS k).active = none ∨ ((s.trigS k).active = some a ∧ (s.advance t).devNow < a.2)) :
    execTrigOutPulseEnd t k s = .next (s.advance t) := by
  rcases h with h | ⟨h, hlt⟩
  · simp [execTrigOutPulseEnd, h]
  · simp [execTrigOutPulseEnd, h, hlt]

section Ends

/-- The end of the driven pulse with the waiting ones that merge into it, and the pulses that stay. -/
def TrigOutState.merged (x : TrigOutState) (a : Nat × Nat) : Nat × List (Nat × Nat) := mergePulses x.waiting.length a.2 x.waiting

variable (h : (s.trigS k).active = some a) (ht : a.2 ≤ (s.advance t).devNow)

include h ht

theorem execTrigOutPulseEnd_due : execTrigOutPulseEnd t k s = .next
    (if a.2 < ((s.trigS k).merged a).1
      then (s.advance t).setTrig k { waiting := ((s.trigS k).merged a).2, active := some (a.1, ((s.trigS k).merged a).1) }
      else ((s.advance t).setTrig k { s.trigS k with active := none }).emit (.trigOut k ((s.advance t).trigLevel k false) a.2)) := by
  simp only [execTrigOutPulseEnd, State.trigS_advance, h, Nat.not_lt.2 ht]
  rfl

theorem execTrigOutPulseEnd_prolonged (hm : a.2 < ((s.trigS k).merged a).1) : execTrigOutPulseEnd t k s = .next
    ((s.advance t).setTrig k { waiting := ((s.trigS k).merged a).2, active := some (a.1, ((s.trigS k).merged a).1) }) :=
  (execTrigOutPulseEnd_due h ht).trans (congrArg _ (if_pos hm))

theorem execTrigOutPulseEnd_ends (hm : ((s.trigS k).merged a).1 ≤ a.2) : execTrigOutPulseEnd t k s = .next
    (((s.advance t).setTrig k { s.trigS k with active := none }).emit (.trigOut k ((s.advance t).trigLevel k false) a.2)) :=
  (execTrigOutPulseEnd_due h ht).trans (congrArg _ (if_neg (Nat.not_lt.2 hm)))

end Ends

end TrigEdge

/-! ### The primitive stream (R149-R153) -/

section Tick

variable {s : State} {t e t0 t1 : Nat} {lane : Fin 2}

/-- From its first sendable tick on, lane `i` shows its quad recovered. -/
def State.laneUp (s : State) (i : Nat) : State := if (s.laneS i).firstTick ≤ s.devNow then s.setQuad 35 0 else s

/-- Neither the passing of time nor a quad's state is a register. -/
theorem State.rd_laneUp_advance (s : State) (t i k : Nat) : ((s.advance t).laneUp i).rd k = s.rd k := by
  unfold State.laneUp
  split <;> rfl

/-- Lane `i`, with stream `x` before, has sent its ticks up to `t1`. -/
def State.laneSent (s : State) (i : Nat) (x : LaneStream) (t1 : Nat) : State :=
  s.setLane i { x with lastTick := some t1, triggers := x.triggers.filter fun q => decide (t1 ≤ q.2.1) }

/-- The second of device time now. -/
def State.laneSecond (s : State) : Nat := s.devNow / s.second

/-- The TimeMark of second `sec`, of `second` units, is to go out: the lane had begun, it has not sent it, and no pattern is sent. -/
def LaneStream.markDue (x : LaneStream) (second sec pattern : Nat) : Bool :=
  decide (x.firstTick ≤ sec * second) && x.lastMark != some sec && pattern == 0

theorem execPrimitiveTick_idle (h : bit (s.rd Ob.primEnable) lane = false ∨ s.counts = false) :
    execPrimitiveTick t lane s = .next (s.advance t) :=
  congrArg _ (if_pos (by simpa using h))

section Runs

variable (he : bit (s.rd Ob.primEnable) lane = true) (hc : s.counts = true)

include he hc

section Due

variable (hd : ((s.advance t).laneUp lane).laneDue lane = some (e, t0, t1))

include hd

theorem execPrimitiveTick_due : execPrimitiveTick t lane s =
    let up := (s.advance t).laneUp lane
    .next (if s.rd Ob.primTestPattern = 0
      then ((up.laneSent lane (s.laneS lane) t1).sendPrimitive lane (up.dataPrimitive lane (up.laneEvents lane e t1))
        (t0 + s.rd Ob.primDelayD)).bump (if lane.val = 0 then Ob.primCountA else Ob.primCountB)
      else (up.laneSent lane (s.laneS lane) t1).laneQuiet lane) := by
  rw [← s.rd_laneUp_advance t lane Ob.primTestPattern, ← s.rd_laneUp_advance t lane Ob.primDelayD]
  unfold State.laneUp at hd ⊢
  simp only [execPrimitiveTick, State.rd_advance, State.counts_advance, he, hc, hd]
  rfl

theorem execPrimitiveTick_pattern (hp : s.rd Ob.primTestPattern ≠ 0) : execPrimitiveTick t lane s =
    .next ((((s.advance t).laneUp lane).laneSent lane (s.laneS lane) t1).laneQuiet lane) :=
  (execPrimitiveTick_due he hc hd).trans (congrArg _ (if_neg hp))

theorem execPrimitiveTick_sends (hp : s.rd Ob.primTestPattern = 0) : execPrimitiveTick t lane s =
    let up := (s.advance t).laneUp lane
    .next (((up.laneSent lane (s.laneS lane) t1).sendPrimitive lane (up.dataPrimitive lane (up.laneEvents lane e t1))
      (t0 + s.rd Ob.primDelayD)).bump (if lane.val = 0 then Ob.primCountA else Ob.primCountB)) :=
  (execPrimitiveTick_due he hc hd).trans (congrArg _ (if_pos hp))

end Due

section Rests

variable (hd : ((s.advance t).laneUp lane).laneDue lane = none)

include hd

theorem execPrimitiveTick_rests : execPrimitiveTick t lane s =
    let up := (s.advance t).laneUp lane
    let sec := up.laneSecond
    .next (if (s.laneS lane).markDue up.second sec (s.rd Ob.primTestPattern)
      then (up.setLane lane { s.laneS lane with lastMark := some sec }).sendPrimitive lane (up.timeMark sec) up.devNow
      else up.laneQuiet lane) := by
  rw [← s.rd_laneUp_advance t lane Ob.primTestPattern]
  unfold State.laneUp at hd ⊢
  simp only [execPrimitiveTick, State.rd_advance, State.counts_advance, he, hc, hd]
  rfl

theorem execPrimitiveTick_marks
    (hm : (s.laneS lane).markDue ((s.advance t).laneUp lane).second ((s.advance t).laneUp lane).laneSecond (s.rd Ob.primTestPattern) = true) :
    let up := (s.advance t).laneUp lane
    execPrimitiveTick t lane s = .next
      ((up.setLane lane { s.laneS lane with lastMark := some up.laneSecond }).sendPrimitive lane (up.timeMark up.laneSecond) up.devNow) :=
  (execPrimitiveTick_rests he hc hd).trans (congrArg _ (if_pos hm))

theorem execPrimitiveTick_quiet
    (hm : (s.laneS lane).markDue ((s.advance t).laneUp lane).second ((s.advance t).laneUp lane).laneSecond (s.rd Ob.primTestPattern) = false) :
    execPrimitiveTick t lane s = .next (((s.advance t).laneUp lane).laneQuiet lane) :=
  (execPrimitiveTick_rests he hc hd).trans (congrArg _ (if_neg (Bool.eq_false_iff.1 hm)))

end Rests

end Runs

end Tick

section StreamEnable

variable {s : State} {v : Nat}

/-- Writing `v` to Enable starts a lane that is off. -/
def State.laneStarts (s : State) (v : Nat) : Bool :=
  (bit v 0 && !bit (s.rd Ob.primEnable) 0) || (bit v 1 && !bit (s.rd Ob.primEnable) 1)

/-- Enable holds `v` and the fabric follows. -/
def State.streamEnabled (s : State) (v : Nat) : State := (s.wr Ob.primEnable v).refreshFabric

theorem primitiveEnable_timeless (hs : s.laneStarts v = true) (hc : s.counts = false) : primitiveEnable v s = .error Abort.state :=
  if_pos (show (s.laneStarts v && !s.counts) = true by simp [hs, hc])

theorem primitiveEnable_timed (h : s.laneStarts v = false ∨ s.counts = true) : primitiveEnable v s =
    if 4 ≤ v then .error Abort.range
    else if s.laneStarts v && ((s.streamEnabled v).minDBreak.isSome || (s.streamEnabled v).chargeBreak.isSome) then .error Abort.range
    else .ok (((s.streamEnabled v).laneSwitch (s.rd Ob.primEnable) v 0).laneSwitch (s.rd Ob.primEnable) v 1) := by
  have htimed : ¬ (s.laneStarts v && !s.counts) = true := by
    rcases h with h | h <;> simp [h]
  exact if_neg htimed

theorem primitiveEnable_outOfRange (h : s.laneStarts v = false ∨ s.counts = true) (hv : 4 ≤ v) :
    primitiveEnable v s = .error Abort.range :=
  (primitiveEnable_timed h).trans (if_pos hv)

theorem primitiveEnable_refused (hs : s.laneStarts v = true) (hc : s.counts = true) (hv : v < 4)
    (hb : (s.streamEnabled v).minDBreak ≠ none ∨ (s.streamEnabled v).chargeBreak ≠ none) :
    primitiveEnable v s = .error Abort.range := by
  have hbreak : (s.laneStarts v && ((s.streamEnabled v).minDBreak.isSome || (s.streamEnabled v).chargeBreak.isSome)) = true := by
    simpa [hs, Option.isSome_iff_ne_none] using hb
  exact (primitiveEnable_timed (.inr hc)).trans ((if_neg (Nat.not_le.2 hv)).trans (if_pos hbreak))

theorem primitiveEnable_switches (h : s.laneStarts v = false
      ∨ (s.counts = true ∧ (s.streamEnabled v).minDBreak = none ∧ (s.streamEnabled v).chargeBreak = none)) (hv : v < 4) :
    primitiveEnable v s = .ok (((s.streamEnabled v).laneSwitch (s.rd Ob.primEnable) v 0).laneSwitch (s.rd Ob.primEnable) v 1) := by
  have hsound : ¬ (s.laneStarts v && ((s.streamEnabled v).minDBreak.isSome || (s.streamEnabled v).chargeBreak.isSome)) = true := by
    rcases h with hs | ⟨-, hd, hq⟩
    · simp [hs]
    · simp [hd, hq]
  exact (primitiveEnable_timed (h.imp_right And.left)).trans ((if_neg (Nat.not_le.2 hv)).trans (if_neg hsound))

end StreamEnable

/-- Settles O24, command by command. -/
theorem patternsAndPulses : Obligations.PatternsAndPulses := by
  intro s t sub v uf kf lane d p a e t0 t1 code
  exact ⟨fun hr h hc => State.serve_aborted hr (patternUnitWrite_illFormed h hc),
    fun hr h => ⟨fun hf => State.serve_aborted hr (patternUnitWrite_frozen h hf),
      fun hf h => State.serve_aborted hr (patternUnitWrite_outOfRange hf h)⟩,
    fun hr h hf => ⟨fun ho hs => State.serve_done hr (patternUnitWrite_staged h hf ho hs),
      fun ho hb => State.serve_aborted hr (patternUnitWrite_risky h hf ho hb),
      fun ho hb => State.serve_done hr (patternUnitWrite_applied h hf ho hb)⟩,
    execPatternUnitEvaluate_idle,
    execPatternUnitEvaluate_runs,
    fun hr h => State.serve_aborted hr (trigOutConfig_refused h),
    fun hr h hb => ⟨fun he => State.serve_done hr (trigOutConfig_enables h hb he),
      fun he => State.serve_done hr (trigOutConfig_disables h hb he)⟩,
    execTrigOutEdge_idle,
    fun h ht => ⟨execTrigOutEdge_leaves h ht, execTrigOutEdge_merges h ht, execTrigOutEdge_waits h ht⟩,
    execTrigOutPulseEnd_idle,
    fun h ht => ⟨execTrigOutPulseEnd_prolonged h ht, execTrigOutPulseEnd_ends h ht⟩,
    execPrimitiveTick_idle,
    fun he hc hd => ⟨_, rfl, execPrimitiveTick_pattern he hc hd, execPrimitiveTick_sends he hc hd⟩,
    fun he hc hd => ⟨execPrimitiveTick_marks he hc hd, execPrimitiveTick_quiet he hc hd⟩,
    fun hr hs hc => State.serve_aborted hr (primitiveEnable_timeless hs hc),
    fun hr h hv => State.serve_aborted hr (primitiveEnable_outOfRange h hv),
    fun hr hs hc hv hb => State.serve_aborted hr (primitiveEnable_refused hs hc hv hb),
    fun hr h hv => State.serve_done hr (primitiveEnable_switches h hv)⟩

/-! ### Bulk frames (R385, R386) -/

@[simp] theorem State.inArray_advance (s : State) (t : Nat) : (s.advance t).inArray = s.inArray := rfl
@[simp] theorem State.parentPort_advance (s : State) (t : Nat) : (s.advance t).parentPort = s.parentPort := rfl
@[simp] theorem State.partner_advance (s : State) (t k : Nat) : (s.advance t).partner k = s.partner k := rfl
@[simp] theorem State.portS_advance (s : State) (t k : Nat) : (s.advance t).portS k = s.portS k := rfl

section Bulk

variable {s : State} {t seq ack credits : Nat} {p : Fin 4} {adm ok nack : Bool}

theorem execBulkFrameReceive_inactive (h : s.rd (Ob.joinState p) ≠ 6) :
    execBulkFrameReceive t p seq ack credits adm ok nack s = .next (s.advance t) := congrArg _ (if_pos h)

/-- A negative acknowledgement asks for frames that are still unacknowledged. -/
def JoinPort.replaysAsked (x : JoinPort) (ack : Nat) (nack : Bool) : Bool := nack && !(x.acked ack).isEmpty

/-- The frames left unacknowledged, each counting a replay that is asked for. -/
def JoinPort.leftAfter (x : JoinPort) (ack : Nat) (nack : Bool) : List Nat :=
  if x.replaysAsked ack nack then (x.acked ack).map (· + 1) else x.acked ack

section Active

variable (h : s.rd (Ob.joinState p) = 6)

include h

theorem execBulkFrameReceive_damaged : execBulkFrameReceive t p seq ack credits adm false nack s =
    .next ((s.advance t).emit (.bulkAck p (s.portS p).rxNext false)) := by
  simp [execBulkFrameReceive, h]

theorem execBulkFrameReceive_good : execBulkFrameReceive t p seq ack credits adm true nack s =
    let x := s.portS p
    let left := x.leftAfter ack nack
    let again := x.replaysAsked ack nack
    .next ((((s.advance t).setPort p (x.bulkIn left seq credits adm again)).emit
      (.bulkAck p (if seq == x.rxNext then seq else x.rxNext) (seq == x.rxNext))).replayed p left again) :=
  congrArg _ ((if_neg (not_not.2 h)).trans (if_neg Bool.false_ne_true))

end Active

end Bulk

/-! ### Bounded slots (R384, R395, R405) -/

section Bounded

variable {s : State} {t copyA copyB : Nat} {p : Fin 4}

theorem execBoundedSlotReceive_inactive (h : s.rd (Ob.joinState p) ≠ 6) :
    execBoundedSlotReceive t p copyA copyB s = .next (s.advance t) := congrArg _ (if_pos h)

/-- No copy passes its check, or both do and differ. -/
def CopiesFail (copyA copyB : Nat) : Prop :=
  (bmsgOk copyA = false ∧ bmsgOk copyB = false) ∨ (bmsgOk copyA = true ∧ bmsgOk copyB = true ∧ copyA ≠ copyB)

theorem copiesFail_iff (copyA copyB : Nat) : ((!bmsgOk copyA && !bmsgOk copyB) || (bmsgOk copyA && bmsgOk copyB && copyA != copyB)) = true
    ↔ CopiesFail copyA copyB := by
  simp [CopiesFail, and_assoc]

/-- A device that was in an array as `joined` says takes message `w` of port `k`, if its type is one of a message. -/
def State.boundedTaken (v : State) (joined : Bool) (k w : Nat) : State :=
  if bType w = 0 ∨ 4 < bType w ∨ joined = false then v else v.boundedIn k w

theorem State.boundedTaken_eq (v : State) (joined : Bool) (k w : Nat) : v.boundedTaken joined k w =
    if bType w = 0 || decide (4 < bType w) || !joined then v else v.boundedIn k w :=
  if_congr (by simp [or_assoc]) rfl rfl

section Active

variable (h : s.rd (Ob.joinState p) = 6)

include h

theorem execBoundedSlotReceive_lost (hf : CopiesFail copyA copyB) : execBoundedSlotReceive t p copyA copyB s = .next
    (((s.advance t).originsVia p).foldl (fun s o => s.loseOrigin o) ((s.advance t).bump (Ob.joinBoundedLost p)).linkLoss) :=
  congrArg _ ((if_neg (not_not.2 h)).trans (if_pos ((copiesFail_iff copyA copyB).2 hf)))

theorem execBoundedSlotReceive_taken (hf : ¬ CopiesFail copyA copyB) : execBoundedSlotReceive t p copyA copyB s = .next
    ((if bmsgOk copyA && bmsgOk copyB then s.advance t else (s.advance t).bump (Ob.joinBoundedSingle p)).boundedTaken s.inArray p
      (if bmsgOk copyA then copyA else copyB)) := by
  rw [State.boundedTaken_eq]
  exact congrArg _ ((if_neg (not_not.2 h)).trans (if_neg (mt (copiesFail_iff copyA copyB).1 hf)))

theorem execBoundedSlotReceive_agree (ha : bmsgOk copyA = true) (he : copyA = copyB) :
    execBoundedSlotReceive t p copyA copyB s = .next ((s.advance t).boundedTaken s.inArray p copyA) := by
  subst he
  rw [execBoundedSlotReceive_taken h (by simp [CopiesFail, ha])]
  simp [ha]

theorem execBoundedSlotReceive_onlyA (ha : bmsgOk copyA = true) (hb : bmsgOk copyB = false) :
    execBoundedSlotReceive t p copyA copyB s =
      .next (((s.advance t).bump (Ob.joinBoundedSingle p)).boundedTaken s.inArray p copyA) := by
  rw [execBoundedSlotReceive_taken h (by simp [CopiesFail, ha, hb])]
  simp [ha, hb]

theorem execBoundedSlotReceive_onlyB (ha : bmsgOk copyA = false) (hb : bmsgOk copyB = true) :
    execBoundedSlotReceive t p copyA copyB s =
      .next (((s.advance t).bump (Ob.joinBoundedSingle p)).boundedTaken s.inArray p copyB) := by
  rw [execBoundedSlotReceive_taken h (by simp [CopiesFail, ha, hb])]
  simp [ha]

end Active

end Bounded

/-! ### Line changes and states (R403, R405) -/

section Lines

variable {s u : State} {t : Nat} {m : Nat × Nat × Nat}

/-- The oldest message kept that has type `ty`, and the state without it. -/
def State.takeType (s : State) (ty : Nat) : Option (Nat × Nat × Nat) × State := s.takeMsg fun w => bType w == ty

theorem execLineChange_none (h : (s.advance t).takeType 1 = (none, u)) : execLineChange t s = .next u := by
  unfold State.takeType at h
  simp only [execLineChange, h]

theorem execLineState_none (h : (s.advance t).takeType 2 = (none, u)) : execLineState t s = .next u := by
  unfold State.takeType at h
  simp only [execLineState, h]

theorem execLineChange_copy (h : (s.advance t).takeType 1 = (some m, u)) (hf : ((u.posS (bOrigin m.2.2)).fresh m.2.2).1 = false) :
    execLineChange t s = .next u := by
  unfold State.takeType at h
  simp [execLineChange, h, hf]

theorem execLineChange_first (h : (s.advance t).takeType 1 = (some m, u)) (hf : ((u.posS (bOrigin m.2.2)).fresh m.2.2).1 = true) :
    execLineChange t s = .next (u.changeIn (bOrigin m.2.2) m.2.2 ((u.posS (bOrigin m.2.2)).fresh m.2.2).2) := by
  unfold State.takeType at h
  simp [execLineChange, h, hf]

theorem execLineState_copy (h : (s.advance t).takeType 2 = (some m, u)) (hf : ((u.posS (bOrigin m.2.2)).fresh m.2.2).1 = false) :
    execLineState t s = .next u := by
  unfold State.takeType at h
  simp [execLineState, h, hf]

theorem execLineState_first (h : (s.advance t).takeType 2 = (some m, u)) (hf : ((u.posS (bOrigin m.2.2)).fresh m.2.2).1 = true) :
    execLineState t s = .next (u.stateIn (bOrigin m.2.2) m.2.2) := by
  unfold State.takeType at h
  simp [execLineState, h, hf]

theorem execLineStateSend_alone (h : s.inArray = false) : execLineStateSend t s = .next (s.advance t) := by
  simp [execLineStateSend, h]

/-- The lines are stated for the time that every exported line's latency has passed (DESIGN CHOICE, log entry 89). -/
theorem execLineStateSend_member (h : s.inArray = true) : execLineStateSend t s =
    let now := s.advance t
    .next ((now.sendGroup (now.devNow - now.exportLag) 0).sendGroup (now.devNow - now.exportLag) 1) := by
  simp [execLineStateSend, h]

end Lines

/-! ### Joined time (R399, R401) -/

section Sync

variable {s u : State} {t : Nat} {m : Nat × Nat × Nat}

theorem execTimeSync_none (h : (s.advance t).takeType 3 = (none, u)) : execTimeSync t s = .next u := by
  unfold State.takeType at h
  simp only [execTimeSync, h]

/-- What the TimeSync `m` says of its origin is noted. -/
def State.heardSync (u : State) (m : Nat × Nat × Nat) : State := u.syncHeard (bOrigin m.2.2) m.2.2

/-- The child takes the answer `m` of its parent. -/
def State.syncUsed (u : State) (m : Nat × Nat × Nat) : State := (u.heardSync m).syncAnswer m.1 m.2.1 m.2.2

/-- The parent answers the TimeSync `m` of a child. -/
def State.syncAnswered (u : State) (m : Nat × Nat × Nat) : State :=
  (u.heardSync m).answerChild m.1 (bOrigin m.2.2) m.2.2 ((u.heardSync m).devNow - m.2.1)

/-- `m` came from a child over an active port, less than 2^24 u_T ago. -/
def State.SyncPrompt (u : State) (m : Nat × Nat × Nat) : Prop :=
  (u.heardSync m).childPort m.1 = true ∧ (u.heardSync m).devNow - m.2.1 < 2 ^ 24 ∧ (u.heardSync m).rd (Ob.joinState m.1) = 6

theorem State.syncPrompt_iff (u : State) (m : Nat × Nat × Nat) :
    ((u.heardSync m).childPort m.1 && decide ((u.heardSync m).devNow - m.2.1 < 2 ^ 24) && (u.heardSync m).rd (Ob.joinState m.1) == 6) = true
      ↔ u.SyncPrompt m := by
  simp only [State.SyncPrompt, Bool.and_eq_true, decide_eq_true_eq, beq_iff_eq, and_assoc]

section Taken

variable (h : (s.advance t).takeType 3 = (some m, u))

include h

section Parent

variable (hp : (u.heardSync m).parentPort = some m.1)

include hp

theorem execTimeSync_used : execTimeSync t s =
    .next (if (u.syncUsed m).rd Ob.arrArrayState = 1 then (u.syncUsed m).tryForm else (u.syncUsed m).judgeAll true) := by
  unfold State.takeType at h
  simp only [execTimeSync, h]
  exact congrArg _ (if_pos hp)

theorem execTimeSync_forms (ha : (u.syncUsed m).rd Ob.arrArrayState = 1) : execTimeSync t s = .next (u.syncUsed m).tryForm :=
  (execTimeSync_used h hp).trans (congrArg _ (if_pos ha))

theorem execTimeSync_judges (ha : (u.syncUsed m).rd Ob.arrArrayState ≠ 1) : execTimeSync t s = .next ((u.syncUsed m).judgeAll true) :=
  (execTimeSync_used h hp).trans (congrArg _ (if_neg ha))

end Parent

section Child

variable (hp : (u.heardSync m).parentPort ≠ some m.1)

include hp

theorem execTimeSync_late (hq : ¬ u.SyncPrompt m) : execTimeSync t s = .next (u.heardSync m) := by
  unfold State.takeType at h
  simp only [execTimeSync, h]
  exact congrArg _ ((if_neg hp).trans (if_neg (mt (u.syncPrompt_iff m).1 hq)))

variable (hq : u.SyncPrompt m)

include hq

theorem execTimeSync_answered : execTimeSync t s =
    .next (if (u.syncAnswered m).rd Ob.arrArrayState = 1 then (u.syncAnswered m).tryForm
      else if (u.syncAnswered m).parentPort.isNone then (u.syncAnswered m).judgeAll true else u.syncAnswered m) := by
  unfold State.takeType at h
  simp only [execTimeSync, h]
  exact congrArg _ ((if_neg hp).trans (if_pos ((u.syncPrompt_iff m).2 hq)))

theorem execTimeSync_answered_forms (ha : (u.syncAnswered m).rd Ob.arrArrayState = 1) :
    execTimeSync t s = .next (u.syncAnswered m).tryForm :=
  (execTimeSync_answered h hp hq).trans (congrArg _ (if_pos ha))

theorem execTimeSync_answered_judges (ha : (u.syncAnswered m).rd Ob.arrArrayState ≠ 1) (hn : (u.syncAnswered m).parentPort = none) :
    execTimeSync t s = .next ((u.syncAnswered m).judgeAll true) :=
  (execTimeSync_answered h hp hq).trans (congrArg _ ((if_neg ha).trans (if_pos (Option.isNone_iff_eq_none.2 hn))))

theorem execTimeSync_answered_only (ha : (u.syncAnswered m).rd Ob.arrArrayState ≠ 1) (hn : (u.syncAnswered m).parentPort ≠ none) :
    execTimeSync t s = .next (u.syncAnswered m) :=
  (execTimeSync_answered h hp hq).trans (congrArg _ ((if_neg ha).trans (if_neg (mt Option.isNone_iff_eq_none.1 hn))))

end Child

end Taken

end Sync

section SyncSend

variable {s v : State} {t k sq : Nat} {q : Nat × Nat}

theorem execTimeSyncSend_idle (h : s.parentPort = none ∨ s.counts = false
      ∨ ∃ k, s.parentPort = some k ∧ (s.partner k = none ∨ s.rd (Ob.joinState k) ≠ 6)) :
    execTimeSyncSend t s = .next (s.advance t) := by
  cases hp : s.parentPort with
  | none => simp [execTimeSyncSend, hp]
  | some k =>
    cases hq : s.partner k with
    | none => simp [execTimeSyncSend, hp, hq]
    | some q =>
      simp only [hp, hq, reduceCtorEq, Option.some.injEq, exists_eq_left', false_or] at h
      simp only [execTimeSyncSend, State.parentPort_advance, State.partner_advance, State.rd_advance, State.counts_advance, hp, hq]
      refine congrArg _ (if_pos ?_)
      rcases h with h | h <;> simp [h]

theorem execTimeSyncSend_sends (hp : s.parentPort = some k) (hq : s.partner k = some q) (ha : s.rd (Ob.joinState k) = 6)
    (hc : s.counts = true) (hn : (sq, v) = (s.advance t).nextSeq 3) : execTimeSyncSend t s =
    .next ((v.setPort k { v.portS k with sent := ((sq, (s.advance t).devNow) :: (v.portS k).sent).take 64 }).emit
      (.bounded k (bmsg 3 s.arr.pos q.1 false sq ((s.advance t).syncPayload 0 (v.portS k).parentSeq)))) := by
  simp [execTimeSyncSend, hp, hq, ha, hc, ← hn]

end SyncSend

section Silence

variable {s : State} {t : Nat} {o : Fin 8}

/-- Position `o` is one of a formed array, whose silence counts. -/
def State.Watches (s : State) (o : Nat) : Prop := s.inArray = true ∧ o < cfgCount s.arr.config ∧ s.rd Ob.arrArrayState ≠ 1

theorem State.watches_iff (s : State) (o : Nat) :
    (s.inArray && decide (o < cfgCount s.arr.config) && s.rd Ob.arrArrayState != 1) = true ↔ s.Watches o := by
  simp [State.Watches, and_assoc]

theorem execTimedTimeout_judges (h : s.Watches o) : execTimedTimeout t o s = .next (((s.advance t).judge false o).refreshArray) :=
  congrArg _ (if_pos ((s.watches_iff o).2 h))

theorem execTimedTimeout_idle (h : ¬ s.Watches o) : execTimedTimeout t o s = .next (s.advance t) :=
  congrArg _ (if_neg (mt (s.watches_iff o).1 h))

end Silence

/-- Settles O30, command by command. -/
theorem arrayTraffic : Obligations.ArrayTraffic := by
  intro s t seq ack credits copyA copyB pf posF adm nack m u q
  refine ⟨fun h => ⟨execBulkFrameReceive_inactive h, execBulkFrameReceive_inactive h, execBoundedSlotReceive_inactive h⟩,
    fun h => ⟨execBulkFrameReceive_damaged h, execBulkFrameReceive_good h⟩,
    execBoundedSlotReceive_lost,
    fun h ha _ he => execBoundedSlotReceive_agree h ha he,
    execBoundedSlotReceive_onlyA,
    execBoundedSlotReceive_onlyB,
    execLineChange_none,
    execLineChange_copy,
    execLineChange_first,
    execLineState_none,
    execLineState_copy,
    execLineState_first,
    execLineStateSend_alone,
    execLineStateSend_member,
    execTimeSync_none,
    fun h => ⟨execTimeSync_forms h, execTimeSync_judges h, execTimeSync_late h,
      execTimeSync_answered_forms h, execTimeSync_answered_judges h, execTimeSync_answered_only h⟩,
    execTimeSyncSend_idle,
    fun hp hq ha hc => ⟨_, _, rfl, execTimeSyncSend_sends hp hq ha hc rfl⟩,
    fun hj ho ha => execTimedTimeout_judges ⟨hj, ho, ha⟩,
    fun h => execTimedTimeout_idle fun ⟨hj, ho, ha⟩ => ?_⟩
  rcases h with h | h | h
  · exact Bool.eq_false_iff.1 h hj
  · exact Nat.not_le.2 ho h
  · exact ha h

end Sys2Proof.Machine

/-! Proofs about the density family: every step keeps the memories canonical (O52), and the commands of the density maps and of the
host's reservation (O26). -/

namespace Sys2Proof.Machine

open Sys2Proof

/-! ### The canonical form of the memories (R164, R306, R312, R446) -/

/-- Every command keeps the canonical form: each arm cites the lemma of its meaning, in the order of the dispatch. -/
theorem exec_mem (i : Instr) (s : State) (h : s.memoryWf = true) : OutMem (exec i s) :=
  match i with
  | .stewardRestartComplete t => execStewardRestartComplete_mem t s h
  | .stewardCheckpoint t err => execStewardCheckpoint_mem t err s h
  | .thermalShutdown t => execThermalShutdown_mem t s h
  | .admitSlot t n drive => execAdmitSlot_mem t n drive s h
  | .withdraw t n => execWithdraw_mem t n s h
  | .withdrawalComplete t n => execWithdrawalComplete_mem t n s h
  | .check t n drive => execCheck_mem t n drive s h
  | .commit t n tc => execCommit_mem t n tc s h
  | .cancel t n => execCancel_mem t n s h
  | .groupCommit t tc slots others => execGroupCommit_mem t tc slots others s h
  | .sluiceGateArm t n => execSluiceGateArm_mem t n s h
  | .commitApplied t n => execCommitApplied_mem t n s h
  | .successorSwitch t n => execSuccessorSwitch_mem t n s h
  | .retiringComplete t n => execRetiringComplete_mem t n s h
  | .gapFrameResume t n => execGapFrameResume_mem t n s h
  | .arrayCommitDisarm t => execArrayCommitDisarm_mem t s h
  | .arrayCommitReportTimeout t => execArrayCommitReportTimeout_mem t s h
  | .linkApply t j => execLinkApply_mem t j s h
  | .linkClearCounters t j => execLinkClearCounters_mem t j s h
  | .linkBlockLock t j => execLinkBlockLock_mem t j s h
  | .linkMultiblockLock t j earliest latest => execLinkMultiblockLock_mem t j earliest latest s h
  | .linkRelease t j => execLinkRelease_mem t j s h
  | .linkBringupTimeout t j => execLinkBringupTimeout_mem t j s h
  | .multiblockReceive t j crcOk latest => execMultiblockReceive_mem t j crcOk latest s h
  | .linkLockLoss t j => execLinkLockLoss_mem t j s h
  | .linkRelinkComplete t j earliest latest => execLinkRelinkComplete_mem t j earliest latest s h
  | .ingestSample t ch em index wordI wordQ => execIngestSample_mem t ch em index wordI wordQ s h
  | .levelIntervalEnd t ch => execLevelIntervalEnd_mem t ch s h
  | .dumpRestart t ch time => execDumpRestart_mem t ch time s h
  | .levelSnapshot t => execLevelSnapshot_mem t s h
  | .clearSticky t mask => execClearSticky_mem t mask s h
  | .polderBlockWrite t ch err => execPolderBlockWrite_mem t ch err s h
  | .spectrumFrame t n ch => execSpectrumFrame_mem t n ch s h
  | .userWindowLoad t u => execUserWindowLoad_mem t u s h
  | .conditionFlitReceive t n ch tag words disagree => execConditionFlitReceive_mem t n ch tag words disagree s h
  | .patternUnitEvaluate t u => execPatternUnitEvaluate_mem t u s h
  | .trigOutEdge t k => execTrigOutEdge_mem t k s h
  | .trigOutPulseEnd t k => execTrigOutPulseEnd_mem t k s h
  | .clearLineFault t data => execClearLineFault_mem t data s h
  | .clearLog t => execClearLog_mem t s h
  | .importsWrite t data => execImportsWrite_mem t data s h
  | .trigOutConfigWrite t k value => execTrigOutConfigWrite_mem t k value s h
  | .patternUnitWrite t u sub value data => execPatternUnitWrite_mem t u sub value data s h
  | .levelConditionWrite t ch sub value => execLevelConditionWrite_mem t ch sub value s h
  | .primitiveTick t lane => execPrimitiveTick_mem t lane s h
  | .primitiveStreamEnable t mask => execPrimitiveStreamEnable_mem t mask s h
  | .mapUpdate t map => execMapUpdate_mem t map s h
  | .sweepTick t map => execSweepTick_mem t map s h
  | .snapshotCopyComplete t map => execSnapshotCopyComplete_mem t map s h
  | .renderComplete t map => execRenderComplete_mem t map s h
  | .mapSnapshot t map time => execMapSnapshot_mem t map time s h
  | .mapClear t map time => execMapClear_mem t map time s h
  | .sieveLoad t u => execSieveLoad_mem t u s h
  | .channelizeFrame t n ch => execChannelizeFrame_mem t n ch s h
  | .pulseSelectFrame t n input => execPulseSelectFrame_mem t n input s h
  | .pulseMeasureFrame t n input => execPulseMeasureFrame_mem t n input s h
  | .pulseClearCounters t n => execPulseClearCounters_mem t n s h
  | .recordComplete t n => execRecordComplete_mem t n s h
  | .hostReadWrite t n value => execHostReadWrite_mem t n value s h
  | .consumerStallTimeout t n who => execConsumerStallTimeout_mem t n who s h
  | .consumerReattach t n who => execConsumerReattach_mem t n who s h
  | .rearm t n => execRearm_mem t n s h
  | .releaseRing t n => execReleaseRing_mem t n s h
  | .replayFeed t n source => execReplayFeed_mem t n source s h
  | .replayEnd t n => execReplayEnd_mem t n s h
  | .branch t e err => execBranch_mem t e err s h
  | .loopEnter t e => execLoopEnter_mem t e s h
  | .loopEnd t e err => execLoopEnd_mem t e err s h
  | .loopBreak t e => execLoopBreak_mem t e s h
  | .safePoint t e => execSafePoint_mem t e s h
  | .ret t e err => execRet_mem t e err s h
  | .yield t e => execYield_mem t e s h
  | .operandRead t e err => execOperandRead_mem t e err s h
  | .registerLoad t e err => execRegisterLoad_mem t e err s h
  | .setAcc t e => execSetAcc_mem t e s h
  | .add t e => execAdd_mem t e s h
  | .sub t e => execSub_mem t e s h
  | .clr t e => execClr_mem t e s h
  | .ldx t e => execLdx_mem t e s h
  | .restore t e => execRestore_mem t e s h
  | .srch t e => execSrch_mem t e s h
  | .sinit t e => execSinit_mem t e s h
  | .norm t e => execNorm_mem t e s h
  | .store t e => execStore_mem t e s h
  | .pairStore t e => execPairStore_mem t e s h
  | .rawSave t e => execRawSave_mem t e s h
  | .registerStore t e => execRegisterStore_mem t e s h
  | .registerTransferImmediate t e => execRegisterTransferImmediate_mem t e s h
  | .registerTransfer t e => execRegisterTransfer_mem t e s h
  | .send t e => execSend_mem t e s h
  | .rxfree t e => execRxfree_mem t e s h
  | .evack t e => execEvack_mem t e s h
  | .receiveFlit t e words frame err => execReceiveFlit_mem t e words frame err s h
  | .sendFlit t e err => execSendFlit_mem t e err s h
  | .watchdogTrip t e => execWatchdogTrip_mem t e s h
  | .eventCancel t e tc => execEventCancel_mem t e tc s h
  | .eventStop t e => execEventStop_mem t e s h
  | .eventSavestate t e => execEventSavestate_mem t e s h
  | .engineStart t e => execEngineStart_mem t e s h
  | .debugRead t e offset => execDebugRead_mem t e offset s h
  | .debugWrite t e offset value => execDebugWrite_mem t e offset value s h
  | .microimageLoad t image => execMicroimageLoad_mem t image s h
  | .nanoimageLoad t image => execNanoimageLoad_mem t image s h
  | .imageVerify t image nano => execImageVerify_mem t image nano s h
  | .poolScrubAccess t cluster word err => execPoolScrubAccess_mem t cluster word err s h
  | .hbmAdmittedBurst t da err syndrome => execHbmAdmittedBurst_mem t da err syndrome s h
  | .hbmBestEffortAccess t bank err syndrome => execHbmBestEffortAccess_mem t bank err syndrome s h
  | .hbmFreezeHoldExpiry t q => execHbmFreezeHoldExpiry_mem t q s h
  | .hbmRelease t q => execHbmRelease_mem t q s h
  | .hbmTestComplete t q pass bad => execHbmTestComplete_mem t q pass bad s h
  | .hbmRetire t q => execHbmRetire_mem t q s h
  | .hbmRetireSwitch t q => execHbmRetireSwitch_mem t q s h
  | .hbmRefresh t q => execHbmRefresh_mem t q s h
  | .hbmTempCross t stack temp => execHbmTempCross_mem t stack temp s h
  | .hbmPatrolScrub t da err syndrome => execHbmPatrolScrub_mem t da err syndrome s h
  | .hbmRowIdleClose t bank => execHbmRowIdleClose_mem t bank s h
  | .hbmPowerStateEntry t q power => execHbmPowerStateEntry_mem t q power s h
  | .hbmWake t q => execHbmWake_mem t q s h
  | .interleaveMasksWrite t data => execInterleaveMasksWrite_mem t data s h
  | .hostReserveWrite t data => execHostReserveWrite_mem t data s h
  | .windowBRead t tag offset len => execWindowBRead_mem t tag offset len s h
  | .windowBWrite t offset data => execWindowBWrite_mem t offset data s h
  | .transferStart t ch => execTransferStart_mem t ch s h
  | .transferPauseWrite t ch pause => execTransferPauseWrite_mem t ch pause s h
  | .transferAbort t ch => execTransferAbort_mem t ch s h
  | .transferBeatSlot t port owner err credits => execTransferBeatSlot_mem t port owner err credits s h
  | .requestRaise t line beats => execRequestRaise_mem t line beats s h
  | .requestWithdraw t line => execRequestWithdraw_mem t line s h
  | .hostReadCompletion t ch addr ok data => execHostReadCompletion_mem t ch addr ok data s h
  | .transferReadTimeout t ch => execTransferReadTimeout_mem t ch s h
  | .hostReset t kind => execHostReset_mem t kind s h
  | .hostLinkTrained t rate width => execHostLinkTrained_mem t rate width s h
  | .linkRetrain t => execLinkRetrain_mem t s h
  | .dictSubmit t header data drive volts good => execDictSubmit_mem t header data drive volts good s h
  | .doorbellWrite t ring value whole => execDoorbellWrite_mem t ring value whole s h
  | .busMasterDisable t => execBusMasterDisable_mem t s h
  | .streamIrqDelayExpiry t ring => execStreamIrqDelayExpiry_mem t ring s h
  | .creditStallTimeout t ring => execCreditStallTimeout_mem t ring s h
  | .ringValidate t ring => execRingValidate_mem t ring s h
  | .ringRestart t ring => execRingRestart_mem t ring s h
  | .qualify t port => execQualify_mem t port s h
  | .qualifyComplete t port mWrite mRead => execQualifyComplete_mem t port mWrite mRead s h
  | .formSet t mask => execFormSet_mem t mask s h
  | .deleteRecording t number => execDeleteRecording_mem t number s h
  | .reinstate t port labelOk => execReinstate_mem t port labelOk s h
  | .nvmeCompletion t port cid status data => execNvmeCompletion_mem t port cid status data s h
  | .nvmeCommandTimeout t port => execNvmeCommandTimeout_mem t port s h
  | .driveLinkLoss t port removed => execDriveLinkLoss_mem t port removed s h
  | .unitIdleTimeout t n => execUnitIdleTimeout_mem t n s h
  | .directoryUpdate t n => execDirectoryUpdate_mem t n s h
  | .healthLogPoll t port => execHealthLogPoll_mem t port s h
  | .joinDetect t port => execJoinDetect_mem t port s h
  | .joinTrainingDone t port foms => execJoinTrainingDone_mem t port foms s h
  | .joinLock t port => execJoinLock_mem t port s h
  | .joinExchange t port copies => execJoinExchange_mem t port copies s h
  | .joinStageTimeout t port => execJoinStageTimeout_mem t port s h
  | .joinHeldReexchange t port copies => execJoinHeldReexchange_mem t port copies s h
  | .joinFailedRetry t port => execJoinFailedRetry_mem t port s h
  | .joinRetrain t port => execJoinRetrain_mem t port s h
  | .joinLinkDegrade t port => execJoinLinkDegrade_mem t port s h
  | .boundedSlotReceive t port copyA copyB => execBoundedSlotReceive_mem t port copyA copyB s h
  | .lineChange t => execLineChange_mem t s h
  | .lineState t => execLineState_mem t s h
  | .timeSync t => execTimeSync_mem t s h
  | .timeSyncSend t => execTimeSyncSend_mem t s h
  | .lineStateSend t => execLineStateSend_mem t s h
  | .sluiceArm t slots => execSluiceArm_mem t slots s h
  | .sluiceArmed t => execSluiceArmed_mem t s h
  | .sluiceRefused t => execSluiceRefused_mem t s h
  | .sluiceConfirm t => execSluiceConfirm_mem t s h
  | .sluiceCancel t => execSluiceCancel_mem t s h
  | .sluiceReport t => execSluiceReport_mem t s h
  | .arrayConfirmDeadline t => execArrayConfirmDeadline_mem t s h
  | .bulkFrameReceive t port sequence ack credits admitted crcOk nack =>
    execBulkFrameReceive_mem t port sequence ack credits admitted crcOk nack s h
  | .directionSleep t port rx => execDirectionSleep_mem t port rx s h
  | .directionWakeComplete t port rx => execDirectionWakeComplete_mem t port rx s h
  | .joinTestMode t port value => execJoinTestMode_mem t port value s h
  | .arrayApply t fTOk => execArrayApply_mem t fTOk s h
  | .joinCalibrate t => execJoinCalibrate_mem t s h
  | .joinClearCounters t port => execJoinClearCounters_mem t port s h
  | .timedTimeout t position => execTimedTimeout_mem t position s h
  | .forwardedRequest t response pos header data drive volts good =>
    execForwardedRequest_mem t response pos header data drive volts good s h
  | .forwardTimeout t pos => execForwardTimeout_mem t pos s h
  | .syntApply t => execSyntApply_mem t s h
  | .syntQualified t measured => execSyntQualified_mem t measured s h
  | .syntQualifyTimeout t => execSyntQualifyTimeout_mem t s h
  | .syntLocked t => execSyntLocked_mem t s h
  | .referenceLoss t => execReferenceLoss_mem t s h
  | .referenceRequalified t => execReferenceRequalified_mem t s h
  | .syntRelock t => execSyntRelock_mem t s h
  | .clockOutputWrite t sub value => execClockOutputWrite_mem t sub value s h
  | .srefFire t mask => execSrefFire_mem t mask s h
  | .outputStart t output => execOutputStart_mem t output s h
  | .outputStop t output => execOutputStop_mem t output s h
  | .setSeconds t value => execSetSeconds_mem t value s h
  | .secondBoundary t rtc => execSecondBoundary_mem t rtc s h
  | .syncInEdge t => execSyncInEdge_mem t s h
  | .syncArm t => execSyncArm_mem t s h
  | .streamMarkReceive t seconds milli quality epoch descriptor crcOk =>
    execStreamMarkReceive_mem t seconds milli quality epoch descriptor crcOk s h
  | .streamMarkSend t => execStreamMarkSend_mem t s h
  | .streamLostTimeout t => execStreamLostTimeout_mem t s h
  | .adopt t => execAdopt_mem t s h
  | .tdcEdge t ch falling => execTdcEdge_mem t ch falling s h
  | .tdcQueuePush t ch => execTdcQueuePush_mem t ch s h
  | .popBlock t ch n => execPopBlock_mem t ch n s h
  | .clearQueue t ch => execClearQueue_mem t ch s h
  | .statsStart t unit => execStatsStart_mem t unit s h
  | .tdcControlUpdate t ch line control error => execTdcControlUpdate_mem t ch line control error s h
  | .tdcLineSwap t ch => execTdcLineSwap_mem t ch s h
  | .tdcCalibrationComplete t ch widths => execTdcCalibrationComplete_mem t ch widths s h
  | .dictionaryWrite t key data drive volts good => execDictionaryWrite_mem t key data drive volts good s h
  | .dictWriteSegment t transport client key offset tag more data good =>
    execDictWriteSegment_mem t transport client key offset tag more data good s h
  | .dictReadSegment t transport client key offset length => execDictReadSegment_mem t transport client key offset length s h
  | .segmentBufferTimeout t transport => execSegmentBufferTimeout_mem t transport s h
  | .readLatchTimeout t transport => execReadLatchTimeout_mem t transport s h
  | .tagExpiry t transport client => execTagExpiry_mem t transport client s h
  | .usdoRequest t port node unicast write key offset length more data good =>
    execUsdoRequest_mem t port node unicast write key offset length more data good s h
  | .envelopeWrite t transport client data good => execEnvelopeWrite_mem t transport client data good s h
  | .nmtStart t port node => execNmtStart_mem t port node s h
  | .nmtStop t port node => execNmtStop_mem t port node s h
  | .nmtEnterPreOperational t port node => execNmtEnterPreOperational_mem t port node s h
  | .nmtResetNode t port node => execNmtResetNode_mem t port node s h
  | .nmtResetCommunication t port node => execNmtResetCommunication_mem t port node s h
  | .heartbeatSend t => execHeartbeatSend_mem t s h
  | .emcySend t => execEmcySend_mem t s h
  | .emcyInhibitExpiry t => execEmcyInhibitExpiry_mem t s h
  | .canBusOff t port recovered => execCanBusOff_mem t port recovered s h
  | .errorFieldClear t value => execErrorFieldClear_mem t value s h
  | .setCalendar t data => execSetCalendar_mem t data s h
  | .pantryRestore t drive good => execPantryRestore_mem t drive good s h
  | .restoreStepComplete t drive good => execRestoreStepComplete_mem t drive good s h
  | .restoreStepTimeout t drive good => execRestoreStepTimeout_mem t drive good s h
  | .opPointRequest t point => execOpPointRequest_mem t point s h
  | .opVokAssert t => execOpVokAssert_mem t s h
  | .opFrequencySwitch t => execOpFrequencySwitch_mem t s h
  | .opVcoreSettled t => execOpVcoreSettled_mem t s h
  | .opSettleTimeout t => execOpSettleTimeout_mem t s h
  | .stop t => execStop_mem t s h
  | .stopForce t => execStopForce_mem t s h
  | .stopReqNEdge t => execStopReqNEdge_mem t s h
  | .stopReqRepeat t low => execStopReqRepeat_mem t low s h
  | .stopGraceExpiry t => execStopGraceExpiry_mem t s h
  | .stopReached t => execStopReached_mem t s h
  | .wakeSample t wakeIn can perst lane => execWakeSample_mem t wakeIn can perst lane s h
  | .powerOn t => execPowerOn_mem t s h
  | .railInWindow t step => execRailInWindow_mem t step s h
  | .powerupRailTimeout t => execPowerupRailTimeout_mem t s h
  | .powerupRetry t => execPowerupRetry_mem t s h
  | .railOutOfWindow t step => execRailOutOfWindow_mem t step s h
  | .vaonLoss t => execVaonLoss_mem t s h
  | .ledgerSample t => execLedgerSample_mem t s h
  | .ledgerWindow t => execLedgerWindow_mem t s h
  | .ledgerFit t fitted => execLedgerFit_mem t fitted s h
  | .throttleEvaluate t usage => execThrottleEvaluate_mem t usage s h
  | .domainPowerDown t d => execDomainPowerDown_mem t d s h
  | .domainPowerUp t d => execDomainPowerUp_mem t d s h
  | .auxLdoSoftStartEnd t k good => execAuxLdoSoftStartEnd_mem t k good s h
  | .auxLdoLimit t k => execAuxLdoLimit_mem t k s h
  | .auxLdoRetry t k => execAuxLdoRetry_mem t k s h
  | .auxLdoReset t mask => execAuxLdoReset_mem t mask s h
  | .avsPoll t mV mA status => execAvsPoll_mem t mV mA status s h
  | .clearPeak t => execClearPeak_mem t s h
  | .refusalLogClear t => execRefusalLogClear_mem t s h
  | .clusterFault t c => execClusterFault_mem t c s h
  | .migrationTargetChosen t c n => execMigrationTargetChosen_mem t c n s h
  | .migrationResume t c n => execMigrationResume_mem t c n s h
  | .engineTestComplete t e pass shared => execEngineTestComplete_mem t e pass shared s h
  | .retireEngine t e => execRetireEngine_mem t e s h
  | .lockstepMismatch t => execLockstepMismatch_mem t s h
  | .lockstepSelfTest t flagged => execLockstepSelfTest_mem t flagged s h
  | .clearLatent t => execClearLatent_mem t s h
  | .stewardRestartAction t => execStewardRestartAction_mem t s h
  | .sentinelPoll t result => execSentinelPoll_mem t result s h
  | .firmwareImageWrite t data => execFirmwareImageWrite_mem t data s h
  | .firmwareSwap t => execFirmwareSwap_mem t s h
  | .firmwareConfirm t => execFirmwareConfirm_mem t s h
  | .confirmWindowExpiry t => execConfirmWindowExpiry_mem t s h
  | .keep t => execKeep_mem t s h
  | .keepComplete t good => execKeepComplete_mem t good s h
  | .discard t => execDiscard_mem t s h
  | .planRun t volts => execPlanRun_mem t volts s h
  | .planNow t volts => execPlanNow_mem t volts s h
  | .faultAcknowledge t sq => execFaultAcknowledge_mem t sq s h
  | .diagnosticsClearCounters t => execDiagnosticsClearCounters_mem t s h
  | .clearOverTemp t => execClearOverTemp_mem t s h
  | .hkConversion t ledger raw => execHkConversion_mem t ledger raw s h
  | .calibrateReference t mask startAt => execCalibrateReference_mem t mask startAt s h
  | .calibrateClock t mask startAt => execCalibrateClock_mem t mask startAt s h
  | .calibrateSignalPath t mask startAt => execCalibrateSignalPath_mem t mask startAt s h
  | .calReferenceComplete t shorts vref => execCalReferenceComplete_mem t shorts vref s h
  | .calClockComplete t ticks => execCalClockComplete_mem t ticks s h
  | .signalPathWindowStart t => execSignalPathWindowStart_mem t s h
  | .signalPathMeasureStart t => execSignalPathMeasureStart_mem t s h
  | .signalPathMeasureEnd t => execSignalPathMeasureEnd_mem t s h
  | .signalPathWindowEnd t => execSignalPathWindowEnd_mem t s h
  | .capture t => execCapture_mem t s h
  | .reapply t => execReapply_mem t s h
  | .spareSelfTest t hbm unit pass => execSpareSelfTest_mem t hbm unit pass s h
  | .displayEnable t on => execDisplayEnable_mem t on s h
  | .displayCommit t buffer => execDisplayCommit_mem t buffer s h
  | .frameStart t => execFrameStart_mem t s h
  | .displayFrameEnd t linkCrc => execDisplayFrameEnd_mem t linkCrc s h
  | .hpdChange t present => execHpdChange_mem t present s h
  | .displayLinkTrained t ok rate caps psr => execDisplayLinkTrained_mem t ok rate caps psr s h
  | .displayClearFlags t => execDisplayClearFlags_mem t s h
  | .extest t cells => execExtest_mem t cells s h
  | .idcode t => execIdcode_mem t s h
  | .samplePreload t cells => execSamplePreload_mem t cells s h
  | .highz t => execHighz_mem t s h
  | .clamp t => execClamp_mem t s h
  | .extestPulse t => execExtestPulse_mem t s h
  | .extestTrain t => execExtestTrain_mem t s h
  | .debug t => execDebug_mem t s h
  | .bypass t => execBypass_mem t s h
  | .tapReset t => execTapReset_mem t s h
  | .marginScan t q mask => execMarginScan_mem t q mask s h
  | .marginScanComplete t q counts => execMarginScanComplete_mem t q counts s h
  | .marginUpdate t q eyes => execMarginUpdate_mem t q eyes s h
  | .laneQuadFault t q lane code => execLaneQuadFault_mem t q lane code s h
  | .laneQuadClearFault t q => execLaneQuadClearFault_mem t q s h
  | .timingStreamBlockLock t => execTimingStreamBlockLock_mem t s h
  | .timingStreamSignalLoss t => execTimingStreamSignalLoss_mem t s h
  | .prbsCheckerLock t port lane => execPrbsCheckerLock_mem t port lane s h
  | .canErrorPassive t port passive => execCanErrorPassive_mem t port passive s h
  | .driveAttach t port supported rate width capacity units name label directory =>
    execDriveAttach_mem t port supported rate width capacity units name label directory s h
  | .joinAssumptionFlagClear t => execJoinAssumptionFlagClear_mem t s h

theorem step_mem (s : State) (h : s.memoryWf = true) : OutMem (step s) := by
  unfold step
  split
  · exact outNext h
  · exact exec_mem _ _ h

/-- Settles O52: a step idles or runs the command at the front of its queue, and the queue is no part of the memories. -/
theorem memoriesStayCanonical : Obligations.MemoriesStayCanonical :=
  fun s u h hu => step_mem s h u hu

/-! ### What the passing of time and the note of an act leave alone -/

@[simp] theorem State.mapS_advance (s : State) (t k : Nat) : (s.advance t).mapS k = s.mapS k := rfl
@[simp] theorem State.mapS_noted (s : State) (j k : Nat) : (s.noted j).mapS k = s.mapS k := by simp [State.mapS]
@[simp] theorem State.nextTick_advance (s : State) (t k : Nat) : (s.advance t).nextTick k = s.nextTick k := rfl
@[simp] theorem State.renderStarts_advance (s : State) (t k : Nat) : (s.advance t).renderStarts k = s.renderStarts k := rfl

/-! ### Updates and sweep ticks (R161-R164) -/

section Sweep

variable {s : State} {t T : Nat} {map : Fin 4}

theorem execMapUpdate_idle (h : (s.mapS map).queue.find? ((s.advance t).mapTurn map) = none) :
    execMapUpdate t map s = .next (s.advance t) := by
  simp only [execMapUpdate, State.mapS_advance, h]

theorem execMapUpdate_applies {m : MapIn} (h : (s.mapS map).queue.find? ((s.advance t).mapTurn map) = some m) :
    execMapUpdate t map s =
      .next (((s.advance t).setMap map { s.mapS map with queue := (s.mapS map).queue.erase m }).mapApply map m) := by
  simp only [execMapUpdate, State.mapS_advance, h]

/-- What a sweep tick of map `k` at `T` waits for: a slot, its time, the end of a copy that runs, the updates before it. -/
def State.TickWaits (s : State) (k T : Nat) : Prop :=
  64 ≤ s.rd (Ob.mapBoundSlot k) ∨ s.devNow < T ∨ (s.mapS k).copying ≠ none ∨ s.mapCurrent k T = false

theorem State.tickWaits_iff (s : State) (k T : Nat) :
    (decide (64 ≤ s.rd (Ob.mapBoundSlot k)) || decide (s.devNow < T) || (s.mapS k).copying.isSome || !s.mapCurrent k T) = true
      ↔ s.TickWaits k T := by
  simp [State.TickWaits, or_assoc, Option.isSome_iff_ne_none]

theorem execSweepTick_noTick (h : s.nextTick map = none) : execSweepTick t map s = .next (s.advance t) := by
  simp only [execSweepTick, State.nextTick_advance, h]

theorem execSweepTick_waits (h : s.nextTick map = some T) (hw : (s.advance t).TickWaits map T) :
    execSweepTick t map s = .next (s.advance t) := by
  simp only [execSweepTick, State.nextTick_advance, h]
  exact congrArg _ (if_pos ((State.tickWaits_iff _ _ _).2 hw))

theorem execSweepTick_runs (h : s.nextTick map = some T) (hw : ¬ (s.advance t).TickWaits map T) :
    execSweepTick t map s = .next ((s.advance t).mapTick map T) := by
  simp only [execSweepTick, State.nextTick_advance, h]
  exact congrArg _ (if_neg (mt (State.tickWaits_iff _ _ _).1 hw))

end Sweep

/-! ### The end of a copy and of a render (R164, R165) -/

section Copy

variable {s : State} {t T q : Nat} {map : Fin 4}

theorem execSnapshotCopyComplete_idle (h : (s.mapS map).copying = none) :
    execSnapshotCopyComplete t map s = .next (s.advance t) := by
  simp only [execSnapshotCopyComplete, State.mapS_advance, h]

/-- The snapshot's next sequence number. -/
def State.nextSnapshot (s : State) (k : Nat) : Nat := (s.rd (Ob.mapSnapshotSeq k) + 1) % 2 ^ 32

/-- The copy of map `k` at `T` is published, with what its render then is and draws. -/
def State.published (s : State) (k T : Nat) (render : Option Nat) (cells : List Nat) : State :=
  ((s.setMap k { s.mapS k with
      copying := none, slices := (s.mapS k).slices.map (fun i => { i with reset := false }), rendering := render, shot := cells }).wrs
    [(Ob.mapSnapshotSeq k, s.nextSnapshot k), (Ob.mapSnapshotState k, 3), (Ob.mapSnapshotTime k, s.stamp T)]).sliceTable k

theorem execSnapshotCopyComplete_renders (h : (s.mapS map).copying = some T) (hr : s.renderStarts map = true) :
    execSnapshotCopyComplete t map s =
      .next ((s.advance t).published map T (some (s.nextSnapshot map)) ((s.advance t).shadowCells map)) := by
  simp only [execSnapshotCopyComplete, State.mapS_advance, State.renderStarts_advance, h, hr]
  rfl

theorem execSnapshotCopyComplete_publishes (h : (s.mapS map).copying = some T) (hr : s.renderStarts map = false) :
    execSnapshotCopyComplete t map s =
      .next ((s.advance t).published map T (s.mapS map).rendering (s.mapS map).shot) := by
  simp only [execSnapshotCopyComplete, State.mapS_advance, State.renderStarts_advance, h, hr]
  rfl

theorem execRenderComplete_idle (h : (s.mapS map).rendering = none) : execRenderComplete t map s = .next (s.advance t) := by
  simp only [execRenderComplete, State.mapS_advance, h]

theorem execRenderComplete_publishes (h : (s.mapS map).rendering = some q) :
    let drawn := (s.advance t).drawMap map (s.mapS map).columns
    execRenderComplete t map s =
      .next ((drawn.setMap map { drawn.mapS map with rendering := none, shot := [] }).wr (Ob.mapRenderSeq map) q) := by
  simp only [execRenderComplete, State.mapS_advance, h]

end Copy

/-! ### Snapshot and Clear (R163) -/

section Requests

variable {s : State} {k time : Nat}

/-- Map `k` is bound to a slot and sweeps. -/
def State.MapSweeps (s : State) (k : Nat) : Prop := s.rd (Ob.mapBoundSlot k) < 64 ∧ s.rd (Ob.mapSweepPeriod k) ≠ 0

/-- A snapshot of map `k` may start: enabled, and none is asked for or being copied. -/
def State.SnapshotFree (s : State) (k : Nat) : Prop :=
  s.rd (Ob.mapSnapshotEnable k) ≠ 0 ∧ (s.mapS k).snapAt = none ∧ (s.mapS k).copying = none

theorem State.not_mapSweeps_iff (s : State) (k : Nat) :
    (decide (64 ≤ s.rd (Ob.mapBoundSlot k)) || s.rd (Ob.mapSweepPeriod k) == 0) = true ↔ ¬ s.MapSweeps k := by
  simp [State.MapSweeps, imp_iff_not_or]

theorem State.snapshot_barred_iff (s : State) (k : Nat) :
    (decide (64 ≤ s.rd (Ob.mapBoundSlot k)) || s.rd (Ob.mapSweepPeriod k) == 0 || !s.rdB (Ob.mapSnapshotEnable k)
      || (s.mapS k).snapAt.isSome || (s.mapS k).copying.isSome) = true ↔ ¬ (s.MapSweeps k ∧ s.SnapshotFree k) := by
  rw [Bool.or_eq_true, Bool.or_eq_true, Bool.or_eq_true, State.not_mapSweeps_iff, Classical.not_and_iff_not_or_not]
  simp [State.SnapshotFree, State.rdB, Option.isSome_iff_ne_none, imp_iff_not_or, or_assoc]

theorem mapSnapshot_barred (h : ¬ (s.MapSweeps k ∧ s.SnapshotFree k)) : mapSnapshot k time s = .error Abort.state :=
  if_pos ((s.snapshot_barred_iff k).2 h)

theorem mapSnapshot_asked (hb : s.MapSweeps k) (hf : s.SnapshotFree k) : mapSnapshot k time s =
    .ok ((s.setMap k { s.mapS k with snapAt := some (s.requested time) }).wr (Ob.mapSnapshotState k) 1) :=
  if_neg fun h => (s.snapshot_barred_iff k).1 h ⟨hb, hf⟩

theorem mapClear_unswept (h : ¬ s.MapSweeps k) : mapClear k time s = .error Abort.state := if_pos ((s.not_mapSweeps_iff k).2 h)

theorem mapClear_asked (h : s.MapSweeps k) : mapClear k time s = .ok ((s.noted (Ob.mapClear k)).setMap k
    { (s.noted (Ob.mapClear k)).mapS k with clearAt := some (s.requested time) }) := by
  rw [State.mapS_noted]
  exact if_neg fun h' => (s.not_mapSweeps_iff k).1 h' h

end Requests

/-! ### HostReserve (R331) -/

section Reserve

variable {s : State} {b : Bytes}

theorem reserve_misformed_iff (b : Bytes) :
    (b.length % 16 != 0 || decide (256 < b.length)) = true ↔ b.length % 16 ≠ 0 ∨ 256 < b.length := by simp

theorem reserveWrite_misformed (h : b.length % 16 ≠ 0 ∨ 256 < b.length) : reserveWrite b s = .error Abort.length :=
  if_pos ((reserve_misformed_iff b).2 h)

/-- A value of the right form is judged by the display's region and by the space. -/
theorem reserveWrite_formed (h16 : b.length % 16 = 0) (hlen : b.length ≤ 256) : reserveWrite b s =
    if s.readRegionLost b then .error Abort.state
    else if s.reserveOk b then .ok ((List.range 32).foldl State.reserveLost (s.setDom Ob.hbmHostReserve b).recount)
    else .error Abort.range :=
  if_neg (by rw [reserve_misformed_iff]; omega)

theorem reserveWrite_readLost (h16 : b.length % 16 = 0) (hlen : b.length ≤ 256) (hl : s.readRegionLost b = true) :
    reserveWrite b s = .error Abort.state :=
  (reserveWrite_formed h16 hlen).trans (if_pos hl)

theorem reserveWrite_unfit (h16 : b.length % 16 = 0) (hlen : b.length ≤ 256) (hl : s.readRegionLost b = false)
    (ho : s.reserveOk b = false) : reserveWrite b s = .error Abort.range := by
  rw [reserveWrite_formed h16 hlen, if_neg (Bool.eq_false_iff.1 hl), if_neg (Bool.eq_false_iff.1 ho)]

theorem reserveWrite_reserves (h16 : b.length % 16 = 0) (hlen : b.length ≤ 256) (hl : s.readRegionLost b = false)
    (ho : s.reserveOk b = true) : reserveWrite b s =
      .ok ((List.range 32).foldl State.reserveLost (s.setDom Ob.hbmHostReserve b).recount) := by
  rw [reserveWrite_formed h16 hlen, if_neg (Bool.eq_false_iff.1 hl), if_pos ho]

end Reserve

/-- Settles O26, command by command. -/
theorem mapsAndReserve : Obligations.MapsAndReserve := by
  intro s t T q time map b m now k x seq bound free published drawn
  refine ⟨execMapUpdate_idle,
    execMapUpdate_applies,
    ?tickHeld,
    fun h hb ht hc hu => execSweepTick_runs h ?tickRuns,
    execSnapshotCopyComplete_idle,
    execSnapshotCopyComplete_renders,
    execSnapshotCopyComplete_publishes,
    execRenderComplete_idle,
    execRenderComplete_publishes,
    fun hr h => State.serve_aborted hr (mapSnapshot_barred h),
    fun hr hb hf => State.serve_done hr (mapSnapshot_asked hb hf),
    fun hr h => State.serve_aborted hr (mapClear_unswept h),
    fun hr h => State.serve_done hr (mapClear_asked h),
    fun hr h => State.serve_aborted hr (reserveWrite_misformed h),
    fun hr h16 hlen hl => State.serve_aborted hr (reserveWrite_readLost h16 hlen hl),
    fun hr h16 hlen hl ho => State.serve_aborted hr (reserveWrite_unfit h16 hlen hl ho),
    fun hr h16 hlen hl ho => State.serve_done hr (reserveWrite_reserves h16 hlen hl ho)⟩
  case tickHeld =>
    rintro (h | ⟨h, hw⟩)
    · exact execSweepTick_noTick h
    · exact execSweepTick_waits h hw
  case tickRuns =>
    rintro (h | h | h | h)
    · exact Nat.not_le.2 hb h
    · exact Nat.not_lt.2 ht h
    · exact h hc
    · exact Bool.eq_false_iff.1 h hu

end Sys2Proof.Machine

/-! Proofs about the records' family: the consumers of a ring, its records and captures, and Replay (O19). -/

namespace Sys2Proof.Machine

open Sys2Proof

/-! ### What the passing of time leaves alone -/

@[simp] theorem State.ringOwner_advance (s : State) (t n : Nat) : (s.advance t).ringOwner n = s.ringOwner n := rfl
@[simp] theorem State.ringS_advance (s : State) (t n : Nat) : (s.advance t).ringS n = s.ringS n := rfl
@[simp] theorem State.streamRingOf_advance (s : State) (t n : Nat) : (s.advance t).streamRingOf n = s.streamRingOf n := rfl
@[simp] theorem State.isReplay_advance (s : State) (t n : Nat) : (s.advance t).isReplay n = s.isReplay n := rfl
@[simp] theorem State.active_advance (s : State) (t n : Nat) : (s.advance t).active n = s.active n := rfl

/-! ### A consumer that stalls (R228) -/

section Stall

variable {s : State} {t who r : Nat} {n : Fin 64} {c : RConsumer} {z : Recording}

/-- Consumer `who` of the ring of slot `n` is attached and has records to take. -/
def State.ConsumerBusy (s : State) (n who : Nat) : Prop :=
  ∃ c, (s.ringS (s.ringOwner n)).consumer who = some c ∧ c.attached = true ∧ c.queue ≠ []

theorem execConsumerStallTimeout_none (h : (s.ringS (s.ringOwner n)).consumer who = none) :
    execConsumerStallTimeout t n who s = .next (s.advance t) := by
  simp only [execConsumerStallTimeout, State.ringOwner_advance, State.ringS_advance, h]

theorem execConsumerStallTimeout_idle (hc : (s.ringS (s.ringOwner n)).consumer who = some c) (h : c.attached = false ∨ c.queue = []) :
    execConsumerStallTimeout t n who s = .next (s.advance t) := by
  have hidle : (!c.attached || c.queue.isEmpty) = true := by simpa using h
  simp only [execConsumerStallTimeout, State.ringOwner_advance, State.ringS_advance, hc, hidle, if_true]

/-- The storage stream of slot `n` is cut: its unit is closed, its consumer detached. -/
def State.storageDetach (s : State) (n : Nat) : State := (s.closeUnit n false false true).detachConsumer (s.ringOwner n) 1

/-- A recording forgets the octets it took ahead of its units. -/
def Recording.dropAhead (z : Recording) : Recording :=
  { z with ahead := 0, pendingUnits := z.pendingUnits.map fun u => { u with octets := 0 } }

section Busy

variable (h : s.ConsumerBusy n who)
include h

theorem execConsumerStallTimeout_stream (h0 : who = 0) (hr : s.streamRingOf n = some r) :
    execConsumerStallTimeout t n who s = .next ((s.advance t).streamDetach r n 4) := by
  obtain ⟨c, hc, ha, hq⟩ := h
  subst h0
  simp [execConsumerStallTimeout, hc, ha, hq, hr]

theorem execConsumerStallTimeout_noRing (h0 : who = 0) (hr : s.streamRingOf n = none) :
    execConsumerStallTimeout t n who s = .next ((s.advance t).detachConsumer (s.ringOwner n) 0) := by
  obtain ⟨c, hc, ha, hq⟩ := h
  subst h0
  simp [execConsumerStallTimeout, hc, ha, hq, hr]

theorem execConsumerStallTimeout_storage_noRecording (h1 : who = 1) (hz : ((s.advance t).storageDetach n).recording n = none) :
    execConsumerStallTimeout t n who s = .next ((s.advance t).storageDetach n) := by
  obtain ⟨c, hc, ha, hq⟩ := h
  subst h1
  simp only [State.storageDetach, State.ringOwner_advance] at hz ⊢
  simp [execConsumerStallTimeout, hc, ha, hq, hz]

theorem execConsumerStallTimeout_storage_recording (h1 : who = 1) (hz : ((s.advance t).storageDetach n).recording n = some z) :
    execConsumerStallTimeout t n who s = .next (((s.advance t).storageDetach n).setRecording n (some z.dropAhead)) := by
  obtain ⟨c, hc, ha, hq⟩ := h
  subst h1
  simp only [State.storageDetach, State.ringOwner_advance] at hz ⊢
  simp [execConsumerStallTimeout, Recording.dropAhead, hc, ha, hq, hz]

theorem execConsumerStallTimeout_other (h1 : 1 < who) :
    execConsumerStallTimeout t n who s = .next ((s.advance t).detachConsumer (s.ringOwner n) who) := by
  obtain ⟨c, hc, ha, hq⟩ := h
  simp [execConsumerStallTimeout, hc, ha, hq, show who ≠ 0 by omega, show who ≠ 1 by omega]

end Busy

end Stall

/-! ### A consumer that comes back (R228, R377, R378) -/

section Reattach

variable {s : State} {t who r : Nat} {n : Fin 64}

theorem execConsumerReattach_back (h0 : who ≠ 0) (h : who ≠ 1 ∨ ∃ z, s.recording n = some z ∧ z.closing = false) :
    execConsumerReattach t n who s = .next ((s.advance t).reattach (s.ringOwner n) who) := by
  have hopen : ¬ (who = 1 ∧ ((s.recording n).all fun x => x.closing) = true) := by
    rintro ⟨h1, hall⟩
    obtain h | ⟨z, hz, hc⟩ := h
    · exact h h1
    · simp [hz, hc] at hall
  exact congrArg _ ((if_neg h0).trans (if_neg hopen))

theorem execConsumerReattach_closing (h : ∀ z, s.recording n = some z → z.closing = true) :
    execConsumerReattach t n 1 s = .next (s.advance t) :=
  congrArg _ ((if_neg one_ne_zero).trans (if_pos ⟨rfl, (Option.all_eq_true _ _).2 h⟩))

theorem execConsumerReattach_stream (hr : s.streamRingOf n = some r) (hd : s.rd (Ob.ringRingState r) = 4) :
    execConsumerReattach t n 0 s =
      .next (((s.advance t).reattach (s.ringOwner n) 0).wr (Ob.ringRingState r) 2) := by
  simp [execConsumerReattach, hr, hd]

theorem execConsumerReattach_noRing (hr : s.streamRingOf n = none) : execConsumerReattach t n 0 s = .next (s.advance t) := by
  simp [execConsumerReattach, hr]

theorem execConsumerReattach_notDetached (hr : s.streamRingOf n = some r) (hd : s.rd (Ob.ringRingState r) ≠ 4) :
    execConsumerReattach t n 0 s = .next (s.advance t) := by
  simp [execConsumerReattach, hr, hd]

end Reattach

/-! ### HostRead and ReleaseRing (R223, R225) -/

section HostReads

variable {s : State} {n v : Nat}

/-- HostRead of slot `n` may move to `v`: its own place, WritePos, or the start of a record between them. -/
def State.HostPlace (s : State) (n v : Nat) : Prop :=
  s.rd (Ob.slotHostRead n) ≤ v ∧ v ≤ s.rd (Ob.slotWritePos n)
    ∧ (v = s.rd (Ob.slotHostRead n) ∨ v = s.rd (Ob.slotWritePos n) ∨ ∃ q ∈ (s.ringS n).recs, q.pos = v)

/-- HostRead of slot `n` holds records: its consumer is enabled and its ring present. -/
def State.HostHolds (s : State) (n : Nat) : Prop := s.rd (Ob.slotHostConsumer n) ≠ 0 ∧ (s.ringS n).present = true

theorem State.not_hostHolds_iff (s : State) (n : Nat) :
    (!s.rdB (Ob.slotHostConsumer n) || !(s.ringS n).present) = true ↔ ¬ s.HostHolds n := by
  simp [State.HostHolds, State.rdB, imp_iff_not_or]

theorem State.not_hostPlace_iff (s : State) (n v : Nat) :
    (decide (s.rd (Ob.slotWritePos n) < v) || decide (v < s.rd (Ob.slotHostRead n))
      || !(v == s.rd (Ob.slotHostRead n) || v == s.rd (Ob.slotWritePos n) || (s.ringS n).recs.any fun r => r.pos == v)) = true
      ↔ ¬ s.HostPlace n v := by
  rw [iff_not_comm]
  simp [State.HostPlace, and_assoc, and_left_comm, or_iff_not_imp_left]

/-- HostRead of slot `n` stands at `v`, and what its consumer held before `v` is passed. -/
def State.hostReadTo (s : State) (n v : Nat) : State :=
  (s.wr (Ob.slotHostRead n) v).setRing n { s.ringS n with
    consumers := (s.ringS n).consumers.map fun c =>
      if c.who = 2 then { c with queue := c.queue.filter fun q => decide (v ≤ q.1), taken := 0 } else c }

theorem hostReadWrite_barred (h : ¬ s.HostHolds n) : hostReadWrite n v s = .error Abort.state :=
  if_pos ((s.not_hostHolds_iff n).2 h)

theorem hostReadWrite_misplaced (h : s.HostHolds n) (hv : ¬ s.HostPlace n v) : hostReadWrite n v s = .error Abort.range :=
  (if_neg fun hb => (s.not_hostHolds_iff n).1 hb h).trans (if_pos ((s.not_hostPlace_iff n v).2 hv))

theorem hostReadWrite_moves (h : s.HostHolds n) (hv : s.HostPlace n v) :
    hostReadWrite n v s = .ok ((s.hostReadTo n v).ringOldest n) :=
  (if_neg fun hb => (s.not_hostHolds_iff n).1 hb h).trans (if_neg fun hm => (s.not_hostPlace_iff n v).1 hm hv)

theorem releaseRing_drops (hd : s.rd (Ob.slotState n) = 1) (hk : (s.ringS n).kept = true) : releaseRing n s = .ok (s.dropRing n) :=
  if_neg (by simp [hd, hk])

theorem releaseRing_barred (h : s.rd (Ob.slotState n) ≠ 1 ∨ (s.ringS n).kept = false) : releaseRing n s = .error Abort.state :=
  if_pos (by simpa using h)

end HostReads

/-! ### Records in commit order, and Rearm (R226, R235) -/

section Records

variable {s : State} {t : Nat} {n : Fin 64} {rec : Rec} {rest : List Rec}

theorem execRecordComplete_empty (h : (s.pipeS n).recQ = []) : execRecordComplete t n s = .next (s.advance t) := by
  simp only [execRecordComplete, State.pipeS_advance, h]

theorem execRecordComplete_first (h : (s.pipeS n).recQ = rec :: rest) : execRecordComplete t n s =
    .next ((((s.advance t).setPipe n { s.pipeS n with recQ := rest, damaged := false }).completeRecord n
      (if (s.pipeS n).damaged then { rec with flags := setBit rec.flags 15 true } else rec)).captureEnd n) := by
  simp only [execRecordComplete, State.pipeS_advance, h]
  rfl

/-- The capture of slot `n` is complete, and every consumer of its ring has drained it. -/
def State.CaptureDrained (s : State) (n : Nat) : Prop :=
  s.rd (Ob.slotCaptureState (s.ringOwner n)) = 2 ∧ ∀ c ∈ (s.ringS (s.ringOwner n)).consumers, c.queue = []

theorem State.not_captureDrained_iff (s : State) (n : Nat) :
    (s.rd (Ob.slotCaptureState (s.ringOwner n)) != 2 || (s.ringS (s.ringOwner n)).consumers.any fun c => !c.queue.isEmpty) = true
      ↔ ¬ s.CaptureDrained n := by
  simp [State.CaptureDrained, imp_iff_not_or]

variable {k : Nat}

theorem rearm_barred (h : ¬ s.CaptureDrained k) : rearm k s = .error Abort.state := if_pos ((s.not_captureDrained_iff k).2 h)

theorem rearm_restarts (h : s.CaptureDrained k) : rearm k s =
    .ok ((s.setRing (s.ringOwner k) { s.ringS (s.ringOwner k) with chunks := [], rearmAt := some (s.devNow + s.us 100) }).wr
      (Ob.slotCaptureState (s.ringOwner k)) 1) :=
  if_neg fun hb => (s.not_captureDrained_iff k).1 hb h

end Records

/-! ### The reader of a Replay slot (R237, R238) -/

section Feed

variable {s : State} {t k : Nat} {n : Fin 64} {data : List (BitVec 8)}

theorem execReplayFeed_idle (h : s.isReplay n = false ∨ s.active n = false) : execReplayFeed t n data s = .next (s.advance t) :=
  congrArg _ (if_pos (by simpa using h))

/-- The reader has taken what its source gives, and at the source's end every channel is completed with zeros. -/
def State.replayTaken (s : State) (n : Nat) (data : Bytes) : State :=
  if (s.replayRead n data).sourceEnded n then (s.replayRead n data).sourceFill n else s.replayRead n data

variable (hr : s.isReplay n = true) (ha : s.active n = true)
include hr ha

theorem execReplayFeed_waits (hk : ((s.advance t).replayTaken n data).earliestChan n = none) :
    execReplayFeed t n data s = .next ((s.advance t).replayTaken n data) := by
  simp only [State.replayTaken] at hk ⊢
  simp [execReplayFeed, hr, ha, hk]

theorem execReplayFeed_feeds (hk : ((s.advance t).replayTaken n data).earliestChan n = some k) :
    execReplayFeed t n data s = .next (((s.advance t).replayTaken n data).feedBlock n k) := by
  simp only [State.replayTaken] at hk ⊢
  simp [execReplayFeed, hr, ha, hk]

end Feed

/-! ### The end of a Replay slot's source (R238) -/

section SourceEnd

variable {s : State} {t : Nat} {n : Fin 64}

/-- Slot `n` is an Admitted Replay whose source has no more: a ring that has ended, or drives. -/
def State.ReplayEnds (s : State) (n : Nat) : Prop :=
  s.isReplay n = true ∧ s.rd (Ob.slotState n) = 2 ∧ (s.sourceEnded n = true ∨ s.rd (Ob.slotReplaySource n) = 2)

theorem State.not_replayEnds_iff (s : State) (n : Nat) :
    (!s.isReplay n || s.rd (Ob.slotState n) != 2 || !(s.sourceEnded n || s.rd (Ob.slotReplaySource n) == 2)) = true
      ↔ ¬ s.ReplayEnds n := by
  rw [iff_not_comm]
  simp [State.ReplayEnds, or_iff_not_imp_left]

/-- All of the source has been fed, and no frame of the chain is left. -/
def State.ReplayDrained (s : State) (n : Nat) : Prop := s.sourceDone n = true ∧ s.chainIdle n = true

theorem State.not_replayDrained_iff (s : State) (n : Nat) :
    (!s.sourceDone n || !s.chainIdle n) = true ↔ ¬ s.ReplayDrained n := by
  simp [State.ReplayDrained, imp_iff_not_or]

/-- The Marker that ends a Replay, with Replay and CaptureEnd; its Time is a free value (log entry 25). -/
def State.replayMarker (s : State) (n : Nat) : Rec :=
  { kind := 0x0F, slot := n, epoch := s.rd (Ob.slotEpoch n), time := s.nth 238 0 % 2 ^ 128, flags := 2 ^ 11 + 2 ^ 9, cycle := s.netCycle,
    body := [] }

/-- A record is queued for the ring of slot `n`, where it has one. -/
def State.recQueued (s : State) (n : Nat) (mk : Rec) : State :=
  s.setPipe n { s.pipeS n with recQ := if bit (s.rd (Ob.slotOutputMask n)) 0 then (s.pipeS n).recQ ++ [mk] else (s.pipeS n).recQ }

theorem execReplayEnd_idle (h : ¬ (s.advance t).ReplayEnds n) : execReplayEnd t n s = .next (s.advance t) :=
  congrArg _ (if_pos ((State.not_replayEnds_iff _ n).2 h))

theorem execReplayEnd_fills (h : (s.advance t).ReplayEnds n) (hd : ¬ ((s.advance t).sourceFill n).ReplayDrained n) :
    execReplayEnd t n s = .next ((s.advance t).sourceFill n) :=
  congrArg _ ((if_neg fun hb => (State.not_replayEnds_iff _ n).1 hb h).trans (if_pos ((State.not_replayDrained_iff _ n).2 hd)))

theorem execReplayEnd_withdraws (h : (s.advance t).ReplayEnds n) (hd : ((s.advance t).sourceFill n).ReplayDrained n) :
    let u := ((s.advance t).sourceFill n).chainFlush n
    execReplayEnd t n s = .next (((u.recQueued n (u.replayMarker n)).taken 1).beginWithdraw n u.devNow) :=
  congrArg _ ((if_neg fun hb => (State.not_replayEnds_iff _ n).1 hb h).trans (if_neg fun hm => (State.not_replayDrained_iff _ n).1 hm hd))

end SourceEnd

/-- Settles O19, command by command. -/
theorem ringConsumersAndRecords : Obligations.RingConsumersAndRecords := by
  intro s t who v nf c r data rec rest
  refine ⟨?stallIdle,
    fun hc ha hq => ?stallBusy,
    execConsumerReattach_back,
    execConsumerReattach_closing,
    execConsumerReattach_stream,
    ?reattachIdle,
    fun hr h => State.serve_aborted hr (hostReadWrite_barred ?hostOff),
    fun hr h0 hp hv => State.serve_aborted hr (hostReadWrite_misplaced ⟨h0, hp⟩ hv),
    fun hr h0 hp hlo hhi hv => State.serve_done hr (hostReadWrite_moves ⟨h0, hp⟩ ⟨hlo, hhi, hv⟩),
    fun hr hd hk => State.serve_done hr (releaseRing_drops hd hk),
    fun hr h => State.serve_aborted hr (releaseRing_barred h),
    execRecordComplete_empty,
    execRecordComplete_first,
    fun hr h2 hc => State.serve_done hr (rearm_restarts ⟨h2, hc⟩),
    fun hr h => State.serve_aborted hr (rearm_barred ?undrained),
    execReplayFeed_idle,
    fun hr ha => ⟨_, _, rfl, rfl, execReplayFeed_waits hr ha, fun _ => execReplayFeed_feeds hr ha⟩,
    fun h => execReplayEnd_idle ?sourceOpen,
    fun hr hs he h => execReplayEnd_fills ⟨hr, hs, he⟩ ?unfed,
    fun hr hs he hd hi => ⟨_, State.replayMarker _ _, rfl, rfl, rfl, rfl, rfl, execReplayEnd_withdraws ⟨hr, hs, he⟩ ⟨hd, hi⟩⟩⟩
  case stallIdle =>
    rintro (h | ⟨c, hc, h⟩)
    · exact execConsumerStallTimeout_none h
    · exact execConsumerStallTimeout_idle hc h
  case stallBusy =>
    have hbusy : s.ConsumerBusy nf who := ⟨c, hc, ha, hq⟩
    exact ⟨execConsumerStallTimeout_stream hbusy,
      execConsumerStallTimeout_noRing hbusy,
      fun h1 => ⟨_, rfl, execConsumerStallTimeout_storage_noRecording hbusy h1,
        fun _ => execConsumerStallTimeout_storage_recording hbusy h1⟩,
      execConsumerStallTimeout_other hbusy⟩
  case reattachIdle =>
    rintro (h | ⟨r, hr, hd⟩)
    · exact execConsumerReattach_noRing h
    · exact execConsumerReattach_notDetached hr hd
  case hostOff => exact fun ⟨h0, hp⟩ => h.elim h0 (Bool.eq_false_iff.1 · hp)
  case undrained => exact fun ⟨h2, hc⟩ => h.elim (· h2) fun ⟨c, hm, hq⟩ => hq (hc c hm)
  case sourceOpen =>
    rintro ⟨hr, hs, he⟩
    obtain h | h | ⟨hopen, hring⟩ := h
    · exact Bool.eq_false_iff.1 h hr
    · exact h hs
    · exact he.elim (Bool.eq_false_iff.1 hopen) hring
  case unfed => exact fun ⟨hd, hi⟩ => h.elim (Bool.eq_false_iff.1 · hd) (Bool.eq_false_iff.1 · hi)

end Sys2Proof.Machine

/-! Proofs about the engines' family: the product forms (O43), the accumulators and search units (O44), NORM (O56), stores
(O45), operands and register transfers (O47), queues and events (O48), debug access and images (O50). -/

namespace Sys2Proof.Machine

open Sys2Proof

/-! ### The stage M2, operation by operation (R260, R263, R266-R268) -/

section M2

variable {x : Engine} {u : Uop}

theorem Engine.stageM2_arith (h : 1 ≤ nArith u.nano ∧ nArith u.nano ≤ 3) : x.stageM2 u = x.arith u := if_pos h

theorem Engine.stageM2_clr (h : nArith u.nano = 4) : (x.stageM2 u).1 = x.eachAcc (nAcc u.nano) Engine.clrAcc := by
  simp [Engine.stageM2, h]

theorem Engine.stageM2_ldx (h : nArith u.nano = 5) : (x.stageM2 u).1 = x.eachAcc (nAcc u.nano) fun e k => e.ldx u k := by
  simp [Engine.stageM2, h]

theorem Engine.stageM2_restore (h : nArith u.nano = 6) : (x.stageM2 u).1 = x.eachAcc (nAcc u.nano) fun e k => e.restore u k := by
  simp [Engine.stageM2, h]

theorem Engine.stageM2_srch (h : nArith u.nano = 7) : (x.stageM2 u).1 = x.srch u := by
  simp [Engine.stageM2, h]

theorem Engine.stageM2_sinit (h : nArith u.nano = 8) : (x.stageM2 u).1 = x.eachAcc (nAcc u.nano) fun e k => e.sinit u.nano k := by
  simp [Engine.stageM2, h]

theorem Engine.stageM2_norm (h : nArith u.nano = 9) : (x.stageM2 u).1 = x.eachAcc (nAcc u.nano) Engine.norm := by
  simp [Engine.stageM2, h]

variable {z : Engine} (h : x.Plain) (hm : x.m2 = some u) (hz : (x.stageM2 u).1 = z)
include h hm hz

/-- The accumulators after a plain cycle are those that the microword in M2 leaves. -/
theorem Engine.plain_acc_m2 : (x.cycle false false).1.sameAcc z := by
  rw [← hz, ← runM2_some x u hm]
  exact x.plain_acc h

/-- With OF and NF empty, so are term counts, index registers and search counts. -/
theorem Engine.plain_index_m2 (ho : x.of = none) (hn : x.nf = none) {j : Nat} (hlo : 0x0F < j) (hhi : j < 0x16) :
    (x.cycle false false).1.raw j = z.raw j := by
  rw [← hz, ← runM2_some x u hm]
  exact x.plain_raw_m2 h ho hn j (Or.inr hlo) (by omega) (by omega) (by omega)

end M2

/-! ### One accumulator operation -/

section Acc

variable {x : Engine} {k j : Nat}

theorem Engine.setAcc_pair (re im : Int) (hk : k < 2) (hj : j < 2) :
    ((x.setAcc k re im).accRe j, (x.setAcc k re im).accIm j) = if j = k then (re, im) else (x.accRe j, x.accIm j) := by
  obtain ⟨hre, him⟩ := x.setAcc_acc k re im j hk hj
  rw [hre, him]
  split <;> rfl

theorem Engine.clrAcc_pair (hk : k < 2) (hj : j < 2) :
    ((x.clrAcc k).accRe j, (x.clrAcc k).accIm j) = if j = k then (0, 0) else (x.accRe j, x.accIm j) :=
  Engine.setAcc_pair 0 0 hk hj

/-- The operand of LDX: an element or a word as a complex number, shifted left (R263). -/
def ldxValue (u : Uop) : Cx :=
  let w := if bit u.nano 185 then u.yw else u.xw
  (if bit u.nano 184 then cxC18 w else cxC16 (if bit u.nano 183 then hiEl w else loEl w)).shl (bits u.nano 182 178)

theorem Engine.ldx_pair (u : Uop) (hk : k < 2) (hj : j < 2) :
    ((x.ldx u k).accRe j, (x.ldx u k).accIm j) = if j = k then ((ldxValue u).re, (ldxValue u).im) else (x.accRe j, x.accIm j) :=
  Engine.setAcc_pair (ldxValue u).re (ldxValue u).im hk hj

theorem Engine.sinit_pair (n : Nat) (hk : k < 2) (hj : j < 2) : ((x.sinit n k).accRe j, (x.sinit n k).accIm j) =
    if j = k then (if bit n 185 then accMax else accMin, 0) else (x.accRe j, x.accIm j) :=
  Engine.setAcc_pair _ 0 hk hj

/-- RESTORE replaces one component of the accumulator by the sign-extended word (R266). -/
theorem Engine.restore_eq_setAcc (u : Uop) : x.restore u k =
    if bit u.nano 184 then x.setAcc k (x.accRe k) (sint 48 (if bit u.nano 185 then u.yw else u.xw))
    else x.setAcc k (sint 48 (if bit u.nano 185 then u.yw else u.xw)) (x.accIm k) := rfl

theorem Engine.restore_pair (u : Uop) (hk : k < 2) (hj : j < 2) :
    ((x.restore u k).accRe j, (x.restore u k).accIm j) = if j = k then
      (if bit u.nano 184 then (x.accRe k, sint 48 (if bit u.nano 185 then u.yw else u.xw))
        else (sint 48 (if bit u.nano 185 then u.yw else u.xw), x.accIm k))
      else (x.accRe j, x.accIm j) := by
  rw [Engine.restore_eq_setAcc]
  cases bit u.nano 184
  · exact Engine.setAcc_pair _ _ hk hj
  · exact Engine.setAcc_pair _ _ hk hj

@[simp] theorem Engine.accRe_put (c v : Nat) : (x.put c v).accRe k = x.accRe k := rfl
@[simp] theorem Engine.accIm_put (c v : Nat) : (x.put c v).accIm k = x.accIm k := rfl
@[simp] theorem Engine.accRe_setG (i : Nat) (v : Bool) : (x.setG i v).accRe k = x.accRe k := rfl
@[simp] theorem Engine.accIm_setG (i : Nat) (v : Bool) : (x.setG i v).accIm k = x.accIm k := rfl

/-- NORM changes no accumulator. -/
theorem Engine.eachAcc_norm_acc (acc : Nat) :
    (x.eachAcc acc Engine.norm).accRe k = x.accRe k ∧ (x.eachAcc acc Engine.norm).accIm k = x.accIm k := by
  unfold Engine.eachAcc Engine.norm
  cases bit acc 0 <;> cases bit acc 1 <;> exact ⟨rfl, rfl⟩

/-- NORM writes the normalisation shift of each accumulator that it names to that accumulator's index register (R268). -/
theorem Engine.eachAcc_norm_raw (acc : Nat) (hk : k < 2) : (x.eachAcc acc Engine.norm).raw (0x10 + k) =
    if bit acc k then normShift (x.accRe k) (x.accIm k) 47 else x.raw (0x10 + k) := by
  unfold Engine.eachAcc Engine.norm
  obtain rfl | rfl : k = 0 ∨ k = 1 := by omega
  all_goals cases bit acc 0 <;> cases bit acc 1 <;> simp [Engine.raw_put]

end Acc

/-! ### The search units (R267) -/

/-- The better of two search values: the lower one in a search for the minimum. -/
def searchBest (minDir : Bool) (a b : Int) : Int := if minDir then min a b else max a b

/-- Search unit `k` takes value `v`: it is better than the best one, or equal with ties taken. -/
def Engine.searchTakes (e : Engine) (k : Nat) (minDir : Bool) (ctl : Nat) (v : Int) : Bool :=
  (if minDir then decide (v < e.accRe k) else decide (e.accRe k < v)) || (decide (v = e.accRe k) && bit ctl (11 + k))

section Search

variable {x : Engine} {u : Uop} {k j ctl : Nat} {m : Bool} {v : Int}

theorem Engine.srchStep_accRe (hk : k < 2) (hj : j < 2) :
    (x.srchStep k m ctl v).1.accRe j = if j = k then searchBest m (x.accRe k) v else x.accRe j :=
  (srchStep_acc x k m ctl v j hk hj).1

theorem Engine.srchStep_accIm (hk : k < 2) (hj : j < 2) : (x.srchStep k m ctl v).1.accIm j = x.accIm j :=
  (srchStep_acc x k m ctl v j hk hj).2

theorem Engine.srchStep_sn (hk : k < 2) (hj : j < 2) : (x.srchStep k m ctl v).1.raw (0x14 + j) =
    if j = k then (x.raw (0x14 + k) + 1) % 65536 else x.raw (0x14 + j) := by
  rw [srchStep_raw x k m ctl v _ (by omega) hk]
  simp [show ¬ 0x14 + j = 0x10 + k by omega]

theorem Engine.srchStep_ix (hk : k < 2) (hj : j < 2) : (x.srchStep k m ctl v).1.raw (0x10 + j) =
    if j = k ∧ x.searchTakes k m ctl v = true then x.raw (0x14 + k) else x.raw (0x10 + j) := by
  rw [srchStep_raw x k m ctl v _ (by omega) hk, if_neg (by omega)]
  simp [Engine.searchTakes]

/-- In dual mode each unit takes one of the two values, and the second unit finds its own registers as they were. -/
theorem Engine.srch_dual (h : bit u.nano 184 = true) :
    let a := x.srchStep 0 (bit u.nano 185) u.ctl (srchValues u.nano u.xw).1
    let b := a.1.srchStep 1 (bit u.nano 185) u.ctl (srchValues u.nano u.xw).2
    x.srch u = (b.1.setG 0 a.2).setG 1 b.2 := if_pos h

theorem Engine.srch_dual_acc (h : bit u.nano 184 = true) :
    (x.srch u).accRe 0 = searchBest (bit u.nano 185) (x.accRe 0) (srchValues u.nano u.xw).1
    ∧ (x.srch u).accRe 1 = searchBest (bit u.nano 185) (x.accRe 1) (srchValues u.nano u.xw).2
    ∧ (x.srch u).accIm 0 = x.accIm 0 ∧ (x.srch u).accIm 1 = x.accIm 1 := by
  rw [Engine.srch_dual h]
  simp [Engine.srchStep_accRe, Engine.srchStep_accIm]

theorem Engine.searchTakes_srchStep_ne (hk : k < 2) (hj : j < 2) (hne : j ≠ k) (mn : Bool) (c : Nat) (w : Int) :
    (x.srchStep k m ctl v).1.searchTakes j mn c w = x.searchTakes j mn c w := by
  simp [Engine.searchTakes, Engine.srchStep_accRe hk hj, hne]

theorem Engine.srch_dual_raw (h : bit u.nano 184 = true) :
    (x.srch u).raw 0x10 = (if x.searchTakes 0 (bit u.nano 185) u.ctl (srchValues u.nano u.xw).1 then x.raw 0x14 else x.raw 0x10)
    ∧ (x.srch u).raw 0x11 = (if x.searchTakes 1 (bit u.nano 185) u.ctl (srchValues u.nano u.xw).2 then x.raw 0x15 else x.raw 0x11)
    ∧ (x.srch u).raw 0x14 = (x.raw 0x14 + 1) % 65536 ∧ (x.srch u).raw 0x15 = (x.raw 0x15 + 1) % 65536 := by
  have h0 : (0 : Nat) < 2 := by decide
  have h1 : (1 : Nat) < 2 := by decide
  have hreg : ∀ i, i ≠ 0x16 → (x.srch u).raw i = ((x.srchStep 0 (bit u.nano 185) u.ctl (srchValues u.nano u.xw).1).1.srchStep 1
      (bit u.nano 185) u.ctl (srchValues u.nano u.xw).2).1.raw i := by
    intro i hi
    rw [Engine.srch_dual h, sub_raw _ _ _ _ hi, sub_raw _ _ _ _ hi]
  refine ⟨(hreg _ (by decide)).trans ?_, (hreg _ (by decide)).trans ?_, (hreg _ (by decide)).trans ?_, (hreg _ (by decide)).trans ?_⟩
  · rw [Engine.srchStep_ix (j := 0) h1 h0, Engine.srchStep_ix (j := 0) h0 h0]
    simp
  · rw [Engine.srchStep_ix (j := 1) h1 h1, Engine.srchStep_ix (j := 1) h0 h1, Engine.srchStep_sn (j := 1) h0 h1,
      Engine.searchTakes_srchStep_ne h0 h1 one_ne_zero]
    simp
  · rw [Engine.srchStep_sn (j := 0) h1 h0, Engine.srchStep_sn (j := 0) h0 h0]
    simp
  · rw [Engine.srchStep_sn (j := 1) h1 h1, Engine.srchStep_sn (j := 1) h0 h1]
    simp

/-- The unit that takes both values in split mode. -/
def splitUnit (n : Nat) : Nat := if nAcc n = 2 then 1 else 0

theorem splitUnit_lt (n : Nat) : splitUnit n < 2 := by
  unfold splitUnit; split <;> omega

theorem Engine.srch_split (h : bit u.nano 184 = false) :
    let a := x.srchStep (splitUnit u.nano) (bit u.nano 185) u.ctl (srchValues u.nano u.xw).1
    let b := a.1.srchStep (splitUnit u.nano) (bit u.nano 185) u.ctl (srchValues u.nano u.xw).2
    x.srch u = b.1.setG (splitUnit u.nano) (a.2 || b.2) := if_neg (Bool.eq_false_iff.1 h)

theorem Engine.srch_split_acc (h : bit u.nano 184 = false) :
    let k := splitUnit u.nano
    (x.srch u).accRe k = searchBest (bit u.nano 185) (searchBest (bit u.nano 185) (x.accRe k) (srchValues u.nano u.xw).1)
        (srchValues u.nano u.xw).2
    ∧ (x.srch u).accRe (1 - k) = x.accRe (1 - k) ∧ (x.srch u).accIm 0 = x.accIm 0 ∧ (x.srch u).accIm 1 = x.accIm 1 := by
  have hk := splitUnit_lt u.nano
  rw [Engine.srch_split h]
  simp [Engine.srchStep_accRe, Engine.srchStep_accIm, hk, show 1 - splitUnit u.nano < 2 by omega,
    show 1 - splitUnit u.nano ≠ splitUnit u.nano by omega]

end Search

/-! ### Arithmetic, accumulators, search and NORM as commands -/

/-- The command of an operation in a stage of a plain cycle is that cycle, of that engine alone. -/
theorem State.cycleIf_next {s : State} {t : Nat} {e : Nat} {f : Engine → Option Uop} {p : Nat → Bool} {u : Uop}
    (h : (s.eng e).Plain) (hu : f (s.eng e) = some u) (hp : p u.nano = true) :
    (Host.Outcome.next ((s.advance t).cycleIf ((s.advance t).atStage e f p) e) : Outcome)
      = .next ((s.advance t).setEng e ((s.eng e).cycle false false).1) :=
  congrArg _ (s.cycleIf_some t e f p u h hu hp)

/-- Settles O43: the accumulators after a plain cycle are those that `Engine.arith` leaves. -/
theorem engineArithmetic : Obligations.EngineArithmetic := by
  intro s t e u h hm x after
  have hafter : ∀ kind, nArith u.nano = kind → 1 ≤ kind ∧ kind ≤ 3 → after kind (x.cycle false false).1 := by
    rintro kind rfl hkind
    refine ⟨fun k hk => ?_, x.plain_mem_none h⟩
    have hacc := Engine.plain_acc_m2 h hm (congrArg Prod.fst (Engine.stageM2_arith hkind))
    simp only [x, hacc.accRe, hacc.accIm]
    exact Engine.arith_acc (s.eng e) u k hk
  exact ⟨fun ha => ⟨_, State.cycleIf_next h hm (by simpa using ha), hafter 1 ha (by decide)⟩,
    fun ha => ⟨_, State.cycleIf_next h hm (by simpa using ha), hafter 2 ha (by decide)⟩,
    fun ha => ⟨_, State.cycleIf_next h hm (by simpa using ha), hafter 3 ha (by decide)⟩⟩

/-- An operation on each accumulator that ArithAcc names, in a plain cycle. -/
theorem Engine.plain_eachAcc {x : Engine} {u : Uop} {f : Engine → Nat → Engine} {g : Int × Int → Int × Int} (h : x.Plain)
    (hm : x.m2 = some u) (hf : (x.stageM2 u).1 = x.eachAcc (nAcc u.nano) f)
    (hg : ∀ (c : Engine) k j, k < 2 → j < 2 →
      ((f c k).accRe j, (f c k).accIm j) = if j = k then g (c.accRe k, c.accIm k) else (c.accRe j, c.accIm j)) (k : Nat) (hk : k < 2) :
    ((x.cycle false false).1.accRe k, (x.cycle false false).1.accIm k)
      = if bit (nAcc u.nano) k then g (x.accRe k, x.accIm k) else (x.accRe k, x.accIm k) := by
  have hacc := Engine.plain_acc_m2 h hm hf
  rw [hacc.accRe, hacc.accIm, eachAcc_acc x _ f g hg k hk]

/-- Settles O44, operation by operation. -/
theorem engineAccumulators : Obligations.EngineAccumulators := by
  intro s t e u h hm x n w v runs accs best taken
  have hruns : ∀ {op : Nat} {after : Engine → Prop}, nArith n = op → after (x.cycle false false).1 →
      runs (.next ((s.advance t).cycleIf ((s.advance t).atStage e Engine.m2 fun n => nArith n == op) e)) after :=
    fun hop hafter => ⟨_, State.cycleIf_next h hm (by simpa using hop), hafter, x.plain_mem_none h⟩
  refine ⟨fun hop => hruns hop ?clr, fun hop => hruns hop ?ldx, fun hop => hruns hop ?restore, fun hop => hruns hop ?sinit,
    fun hop => hruns hop ⟨?normAcc, ?normIx⟩, fun hop hd => hruns hop ?dual, fun hop hd => hruns hop ?split⟩
  case clr => exact Engine.plain_eachAcc (g := fun _ => (0, 0)) h hm (Engine.stageM2_clr hop) fun _ _ _ => Engine.clrAcc_pair
  case ldx =>
    exact Engine.plain_eachAcc (g := fun _ => ((ldxValue u).re, (ldxValue u).im)) h hm (Engine.stageM2_ldx hop)
      fun _ _ _ => Engine.ldx_pair u
  case restore =>
    exact Engine.plain_eachAcc (g := fun p => if bit n 184 then (p.1, sint 48 w) else (sint 48 w, p.2)) h hm
      (Engine.stageM2_restore hop) fun _ _ _ => Engine.restore_pair u
  case sinit =>
    exact Engine.plain_eachAcc (g := fun _ => (if bit n 185 then accMax else accMin, 0)) h hm (Engine.stageM2_sinit hop)
      fun _ _ _ => Engine.sinit_pair n
  case normAcc =>
    intro k hk
    have hacc := Engine.plain_acc_m2 h hm (Engine.stageM2_norm hop)
    exact ⟨(hacc.accRe k).trans (Engine.eachAcc_norm_acc _).1, (hacc.accIm k).trans (Engine.eachAcc_norm_acc _).2⟩
  case normIx =>
    intro ho hn k hk
    rw [Engine.plain_index_m2 h hm (Engine.stageM2_norm hop) ho hn (by omega) (by omega)]
    exact Engine.eachAcc_norm_raw _ hk
  case dual =>
    obtain ⟨hre0, hre1, him0, him1⟩ := x.srch_dual_acc hd
    have hacc := Engine.plain_acc_m2 h hm (Engine.stageM2_srch hop)
    refine ⟨(hacc.accRe 0).trans hre0, (hacc.accRe 1).trans hre1, (hacc.accIm 0).trans him0, (hacc.accIm 1).trans him1, fun ho hn => ?_⟩
    have hraw := fun {j} => Engine.plain_index_m2 (j := j) h hm (Engine.stageM2_srch hop) ho hn
    rw [hraw (by decide) (by decide), hraw (by decide) (by decide), hraw (by decide) (by decide), hraw (by decide) (by decide)]
    exact x.srch_dual_raw hd
  case split =>
    obtain ⟨hre, hre', him0, him1⟩ := x.srch_split_acc hd
    have hacc := Engine.plain_acc_m2 h hm (Engine.stageM2_srch hop)
    exact ⟨(hacc.accRe _).trans hre, (hacc.accRe _).trans hre', (hacc.accIm 0).trans him0, (hacc.accIm 1).trans him1⟩

/-- Settles O56: `normShift` searches down from 47, with the range test of R268 written with a strict upper bound. -/
theorem normOperation : Obligations.NormOperation := by
  intro e u k hop hk hacc hre hre' him him' ix fits
  have hix : ix = normShift (e.accRe k) (e.accIm k) 47 := by
    simp only [ix, Engine.stageM2_norm hop, Engine.eachAcc_norm_raw _ hk, hacc, if_true]
  have hfits : ∀ r, fits r ↔ -(2 ^ (47 - r) : Int) ≤ e.accRe k ∧ e.accRe k < 2 ^ (47 - r)
      ∧ -(2 ^ (47 - r) : Int) ≤ e.accIm k ∧ e.accIm k < 2 ^ (47 - r) := fun r => by
    simp only [fits, Int.le_sub_one_iff]
  have h0 : fits 0 := ⟨hre, hre', him, him'⟩
  obtain ⟨hle, hin, hmax⟩ := normShift_spec (e.accRe k) (e.accIm k) 47 le_rfl ((hfits 0).1 h0)
  rw [hix]
  refine ⟨hle, (hfits _).2 hin, fun r hr hf => hmax r hr ((hfits r).1 hf), fun hz hz' => ?_⟩
  exact le_antisymm hle (hmax 47 le_rfl (by rw [hz, hz']; decide))

/-! ### Stores (R246, R264-R266, R284) -/

section Store

variable {x z : Engine} {u : Uop}

theorem uint_lt (w : Nat) (i : Int) : uint w i < 2 ^ w := by
  have hpos : (0 : Int) < (2 ^ w : Nat) := by exact_mod_cast Nat.two_pow_pos w
  have hlt := Int.emod_lt_of_pos i hpos
  unfold uint
  omega

/-- The elements `hi` and `lo` as one word. -/
theorem word_halves {lo hi : Nat} (h : lo < 2 ^ 32) :
    (lo + hi * 2 ^ 32) % 2 ^ 32 = lo % 2 ^ 32 ∧ (lo + hi * 2 ^ 32) / 2 ^ 32 % 2 ^ 32 = hi % 2 ^ 32 := by
  omega

theorem c16_lt (re im : Int) : uint 16 re + uint 16 im * 65536 < 2 ^ 32 := by
  have hre := uint_lt 16 re
  have him := uint_lt 16 im
  omega

/-- A component of an accumulator as STORE rounds and limits it (R264, R265). -/
def Engine.storedRe (x : Engine) (u : Uop) (k : Nat) : Int := (storeComp u.nano u.ctl (x.accRe k)).1
def Engine.storedIm (x : Engine) (u : Uop) (k : Nat) : Int := (storeComp u.nano u.ctl (x.accIm k)).1
/-- The component that StComp names. -/
def Engine.storedComp (x : Engine) (u : Uop) : Int :=
  if nStComp u.nano = 0 then x.storedRe u (nStAcc u.nano) else x.storedIm u (nStAcc u.nano)
/-- What a pair store takes of one accumulator (R264). -/
def Engine.pairPart (x : Engine) (u : Uop) (k : Nat) : Nat :=
  if nStFmt u.nano = 0 then uint 16 (x.storedRe u k) + uint 16 (x.storedIm u k) * 65536
  else if nStComp u.nano = 0 then uint 32 (x.storedRe u k) else uint 32 (x.storedIm u k)

theorem Engine.pairPart_lt (k : Nat) : x.pairPart u k < 2 ^ 32 := by
  unfold Engine.pairPart
  split
  · exact c16_lt _ _
  · split <;> exact uint_lt 32 _

theorem Engine.storedComp_eq (x : Engine) (u : Uop) : x.storedComp u =
    (if nStComp u.nano = 0 then storeComp u.nano u.ctl (x.accRe (nStAcc u.nano))
      else storeComp u.nano u.ctl (x.accIm (nStAcc u.nano))).1 := by
  unfold Engine.storedComp
  split <;> rfl

section Formats

variable (hs : nStore u.nano = 1)
include hs

theorem Engine.stageWB_c16 (hf : nStFmt u.nano = 0) : (Engine.stageWB x z u).1 = z.setElem (nStBank u.nano) u.sa
    (uint 16 (x.storedRe u (nStAcc u.nano)) + uint 16 (x.storedIm u (nStAcc u.nano)) * 65536) := by
  simp [Engine.stageWB, Engine.storeOne, Engine.storedRe, Engine.storedIm, hs, hf]

theorem Engine.stageWB_lane0 (hf : nStFmt u.nano = 1) : (Engine.stageWB x z u).1 = z.setElem (nStBank u.nano) u.sa
    (x.elem (nStBank u.nano) u.sa / 65536 * 65536 + uint 16 (x.storedComp u)) := by
  simp [Engine.stageWB, Engine.storeOne, Engine.storedComp_eq, hs, hf]

theorem Engine.stageWB_lane1 (hf : nStFmt u.nano = 2) : (Engine.stageWB x z u).1 = z.setElem (nStBank u.nano) u.sa
    (x.elem (nStBank u.nano) u.sa % 65536 + uint 16 (x.storedComp u) * 65536) := by
  simp [Engine.stageWB, Engine.storeOne, Engine.storedComp_eq, hs, hf]

theorem Engine.stageWB_c18 (hf : nStFmt u.nano = 4) : (Engine.stageWB x z u).1 = z.setWord (nStBank u.nano) u.sa
    (uint 32 (x.storedRe u (nStAcc u.nano)) + uint 32 (x.storedIm u (nStAcc u.nano)) * 2 ^ 32) := by
  simp [Engine.stageWB, Engine.storeOne, Engine.storedRe, Engine.storedIm, hs, hf]

theorem Engine.stageWB_real (hf : nStFmt u.nano = 3 ∨ 4 < nStFmt u.nano) : (Engine.stageWB x z u).1 =
    z.setElem (nStBank u.nano) u.sa (uint 32 (x.storedComp u)) := by
  have hne : nStFmt u.nano ≠ 0 ∧ nStFmt u.nano ≠ 1 ∧ nStFmt u.nano ≠ 2 ∧ nStFmt u.nano ≠ 4 := by omega
  simp [Engine.stageWB, Engine.storeOne, Engine.storedComp_eq, hs, hne]

end Formats

theorem Engine.stageWB_pair (hs : nStore u.nano = 2) : (Engine.stageWB x z u).1 = z.setWord (nStBank u.nano) u.sa
    (x.pairPart u 0 + x.pairPart u 1 * 2 ^ 32) := by
  by_cases hf : nStFmt u.nano = 0
  · simp [Engine.stageWB, Engine.storePair, Engine.pairPart, Engine.storedRe, Engine.storedIm, hs, hf]
  · by_cases hc : nStComp u.nano = 0 <;>
      simp [Engine.stageWB, Engine.storePair, Engine.pairPart, Engine.storedRe, Engine.storedIm, hs, hf, hc]

theorem Engine.stageWB_raw (hs : nStore u.nano = 3) : (Engine.stageWB x z u).1 = z.setWord (nStBank u.nano) u.sa
    (uint 64 (if nStComp u.nano = 0 then x.accRe (nStAcc u.nano) else x.accIm (nStAcc u.nano))) := by
  simp [Engine.stageWB, Engine.rawSave, hs]

/-- The registers that a register store gives a whole word: the modifiers and cyc (R284). -/
def storesWord (r : Nat) : Prop := (8 ≤ r ∧ r < 12) ∨ r = 0x1A

theorem Engine.stageWB_regWord (hs : nStore u.nano = 4) (hr : storesWord (nStReg u.nano)) :
    (Engine.stageWB x z u).1 = z.setWord (nStBank u.nano) u.sa u.sampled := by
  simp only [Engine.stageWB, hs]
  exact if_pos hr

theorem Engine.stageWB_regElem (hs : nStore u.nano = 4) (hr : ¬ storesWord (nStReg u.nano)) :
    (Engine.stageWB x z u).1 = z.setElem (nStBank u.nano) u.sa u.sampled := by
  simp only [Engine.stageWB, hs]
  exact if_neg hr

/-! ### X and Y after a store -/

section Memory

variable (h : x.Plain) (hw : x.wb = some u)
include h hw

/-- X and Y after a plain cycle are those that the store in WB makes of X and Y as they were. -/
theorem Engine.plain_mem_wb : ∃ z : Engine, z.sameMem x ∧ (x.cycle false false).1.sameMem (Engine.stageWB x z u).1 := by
  refine ⟨_, x.beforeWB_mem true, ?_⟩
  have hmem := x.plain_mem h
  unfold Engine.runWB at hmem
  rwa [hw] at hmem

theorem Engine.plain_store_one {v : Nat} (hs : ∀ z, (Engine.stageWB x z u).1 = z.setElem (nStBank u.nano) u.sa v) (b i : Nat)
    (hb : b < 2) (hi : i < 4096) : (x.cycle false false).1.elem b i =
      if b = nStBank u.nano ∧ i = u.sa % 4096 then v % 2 ^ 32 else x.elem b i := by
  obtain ⟨z, hz, hmem⟩ := Engine.plain_mem_wb h hw
  rw [hmem.elem, hs z, Engine.setElem_one z x hz (nStBank u.nano) _ _ (bits_one _ _) b i hb hi]

theorem Engine.plain_store_two {v lo hi : Nat} (hs : ∀ z, (Engine.stageWB x z u).1 = z.setWord (nStBank u.nano) u.sa v)
    (hv : v % 2 ^ 32 = lo % 2 ^ 32 ∧ v / 2 ^ 32 % 2 ^ 32 = hi % 2 ^ 32) (b i : Nat) (hb : b < 2) (hi' : i < 4096) :
    (x.cycle false false).1.elem b i = if b = nStBank u.nano ∧ i = u.sa % 4096 / 2 * 2 then lo % 2 ^ 32
      else if b = nStBank u.nano ∧ i = u.sa % 4096 / 2 * 2 + 1 then hi % 2 ^ 32 else x.elem b i := by
  obtain ⟨z, hz, hmem⟩ := Engine.plain_mem_wb h hw
  rw [hmem.elem, hs z, Engine.setWord_two z x hz (nStBank u.nano) _ _ (bits_one _ _) b i hb hi', hv.1, hv.2]

end Memory

end Store

/-- Settles O45, format by format: WB is one write of an element or of a word to X and Y as they were. -/
theorem engineStores : Obligations.EngineStores := by
  intro s t e u h hw x n runs one two re im a c part raw
  have hruns : ∀ {op : Nat} {after : Engine → Prop}, nStore n = op → after (x.cycle false false).1 →
      runs (.next ((s.advance t).cycleIf ((s.advance t).atStage e Engine.wb fun n => nStore n == op) e)) after :=
    fun hop hafter => ⟨_, State.cycleIf_next h hw (by simpa using hop), hafter,
      fun hm k => ⟨(x.plain_acc_none h hm).accRe k, (x.plain_acc_none h hm).accIm k⟩⟩
  refine ⟨fun hop => hruns hop ⟨fun hf => ?c16, fun hf => ?lane0, fun hf => ?lane1, fun hf => ?c18, fun hf => ?real⟩,
    fun hop => hruns hop ?pair, fun hop => hruns hop ?raw, fun hop => hruns hop ⟨fun hr => ?regWord, fun hr => ?regElem⟩⟩
  case c16 => exact Engine.plain_store_one h hw fun _ => Engine.stageWB_c16 hop hf
  case lane0 => exact Engine.plain_store_one h hw fun _ => Engine.stageWB_lane0 hop hf
  case lane1 => exact Engine.plain_store_one h hw fun _ => Engine.stageWB_lane1 hop hf
  case c18 => exact Engine.plain_store_two h hw (fun _ => Engine.stageWB_c18 hop hf) (word_halves (uint_lt 32 _))
  case real => exact Engine.plain_store_one h hw fun _ => Engine.stageWB_real hop hf
  case pair => exact Engine.plain_store_two h hw (fun _ => Engine.stageWB_pair hop) (word_halves (Engine.pairPart_lt 0))
  case raw => exact Engine.plain_store_two h hw (fun _ => Engine.stageWB_raw hop) ⟨rfl, rfl⟩
  case regWord => exact Engine.plain_store_two h hw (fun _ => Engine.stageWB_regWord hop hr) ⟨rfl, rfl⟩
  case regElem => exact Engine.plain_store_one h hw fun _ => Engine.stageWB_regElem hop hr

/-! ### Operands, register loads and register transfers (R246, R271, R281, R284) -/

section Operands

variable {x : Engine} {u : Uop}

/-- The microword in OF moves on to M1 with its operands. -/
theorem Engine.plain_m1 (h : x.Plain) (ho : x.of = some u) : (x.cycle false false).1.m1 = some (x.ofRead u) := by
  obtain ⟨a, ha, hc⟩ := x.cycle_plain_sansR h
  have hm1 : a.sansR.m1 = (x.stages true).1.sansR.m1 := congrArg Engine.m1 ha
  rw [hc]
  exact hm1.trans (congrArg (Option.map x.ofRead) ho)

/-- What a register takes from a value, in a cycle in which that write is the only one: its writable bits, at most 4 for LDEPTH,
nothing for rxn and cyc, of which cyc counts on (R252, R284). -/
def Engine.Takes (x y : Engine) (r v : Nat) : Prop :=
  (r ≤ 0x18 → r ≠ 0x16 → y.raw r = v &&& regMask r) ∧ (r = 0x16 → y.ldepth = min 4 (bits v 12 10))
    ∧ (r = 0x19 → y.raw 0x19 = x.raw 0x19) ∧ (r = 0x1A → y.raw 0x1A = (x.raw 0x1A + 1) % 2 ^ 64)

/-- A single register load of a microword in OF. -/
theorem Engine.plain_load {r v : Nat} (h : x.Plain) (ho : x.of = some u) (hn : x.nf = none) (hl : x.ofLoads u = [(r, v)])
    (hm : x.m2 = none) (hw : x.wb = none) : x.Takes (x.cycle false false).1 r v := by
  refine Engine.plain_write x h hm hw x r v rfl rfl ?_ fun j _ => ?_
  · simp [Engine.written, ho, hl]
  · simp [Engine.runNF, Engine.runOF, ho, hn, hl]

theorem Engine.ofLoads_x (hx : nXRead u.nano = 2) (hy : nYRead u.nano ≠ 2) :
    x.ofLoads u = [(nXLoad u.nano, x.loadValue 0 u.xa (nXLoad u.nano))] := by
  simp [Engine.ofLoads, hx, hy]

theorem Engine.ofLoads_y (hx : nXRead u.nano ≠ 2) (hy : nYRead u.nano = 2) :
    x.ofLoads u = [(nYLoad u.nano, x.loadValue 1 u.ya (nYLoad u.nano))] := by
  simp [Engine.ofLoads, hx, hy]

/-- The value of a register transfer without immediate is the source register. -/
theorem Engine.rtValue_transfer (h : nRtOp u.nano = 2) : x.rtValue u.nano = x.reg (nRtSrc u.nano) := if_pos h

/-- The immediate takes one half of a modifier and leaves the other; any other register takes it whole (R281). -/
theorem Engine.rtValue_immediate (h : nRtOp u.nano = 1) : x.rtValue u.nano = if 8 ≤ nRtDst u.nano ∧ nRtDst u.nano < 12 then
    (if nRtHigh u.nano then x.raw (nRtDst u.nano) % 2 ^ 32 + nRtImm u.nano * 2 ^ 32
      else x.raw (nRtDst u.nano) / 2 ^ 32 * 2 ^ 32 + nRtImm u.nano)
    else nRtImm u.nano :=
  if_neg (by omega)

end Operands

/-- Settles O47: what OF gives to M1, and the one register that OF or NF writes. -/
theorem engineOperandsAndTransfers : Obligations.EngineOperandsAndTransfers := by
  intro s t e u h x n runs writes
  have hruns : ∀ {f : Engine → Option Uop} {p : Nat → Bool} {after : Engine → Prop}, f x = some u → p n = true →
      after (x.cycle false false).1 → runs (.next ((s.advance t).cycleIf ((s.advance t).atStage e f p) e)) after :=
    fun hu hp hafter => ⟨_, State.cycleIf_next h hu hp, hafter, x.plain_mem_none h⟩
  refine ⟨fun ho hr => hruns ho ?isRead ?read, fun ho hn hx hy => hruns ho ?isLoadX ?loadX,
    fun ho hn hx hy => hruns ho ?isLoadY ?loadY, fun hn ho hc hop => hruns hn ?isImmediate ?immediate,
    fun hn ho hc hop => hruns hn ?isTransfer ?transfer⟩
  case isRead => simpa using hr
  case isLoadX => simp [n, hx]
  case isLoadY => simp [n, hy]
  case isImmediate => simpa using hop
  case isTransfer => simpa using hop
  case read => exact ⟨x.ofRead u, Engine.plain_m1 h ho, fun hx => if_pos hx, fun hy => if_pos hy, rfl⟩
  case loadX => exact Engine.plain_load h ho hn (Engine.ofLoads_x hx hy)
  case loadY => exact Engine.plain_load h ho hn (Engine.ofLoads_y hx hy)
  case immediate =>
    intro hd
    rw [← Engine.rtValue_immediate hop]
    exact transfer_aux x u h hn ho hc (by rw [hop]; decide) hd
  case transfer =>
    intro hd
    rw [← Engine.rtValue_transfer hop]
    exact transfer_aux x u h hn ho hc (by rw [hop]; decide) hd

/-! ### The controls of NF (R269, R270, R287) -/

section Controls

variable {x : Engine} {u : Uop}

/-- What M2, OF and NF make of an engine before the control of the microword in NF. -/
def Engine.beforeCtl (x : Engine) (u : Uop) : Engine :=
  Engine.nfTransfer x (Engine.nfUpdates x (Engine.runOF x x.runM2.1 true) u) u

theorem Engine.beforeCtl_sansA : (x.beforeCtl u).sansA = x.sansA := x.beforeNF u

theorem Engine.beforeCtl_rxn : (x.beforeCtl u).raw 0x19 = x.raw 0x19 :=
  (Engine.raw_beforeCtl x _ u).trans ((Engine.raw_runOF_rxn x _ true).trans x.raw_runM2_rxn)

/-- The request that a SEND queues, with the frame of its microword (R270, R288). -/
def Engine.sendRequest (x : Engine) (u : Uop) : SendReq :=
  { bank := nSendPtr u.nano / 4, elem := x.raw (nSendPtr u.nano), left := nCount u.nano, total := nCount u.nano, flow := nFlow u.nano
    frame := u.frame, lead := tget (dconst none) x.begun (nFlow u.nano) != (u.frame.map fun f => (f.tag, f.index)), cycle := x.raw 0x1A }

theorem Engine.nfCtl_send {z : Engine} (hc : nCtl u.nano = 1) (hq : x.sends.length < 8) (hs : z.sends = x.sends) (hb : z.begun = x.begun) :
    (Engine.nfCtl x z u).sends = x.sends ++ [x.sendRequest u] := by
  simp [Engine.nfCtl, Engine.nfSend, Engine.sendRequest, hc, show ¬ 8 ≤ x.sends.length by omega, hs, hb]

theorem Engine.nfCtl_rxfree {z : Engine} (hc : nCtl u.nano = 2) : Engine.nfCtl x z u = z.nfRxfree u.nano := by
  simp [Engine.nfCtl, hc]

theorem Engine.nfCtl_evack {z : Engine} (hc : nCtl u.nano = 3) : Engine.nfCtl x z u = Engine.nfEvack x z := by
  simp [Engine.nfCtl, hc]

section Plain

variable (h : x.Plain) (hu : x.nf = some u)
include h hu

theorem Engine.plain_send (hc : nCtl u.nano = 1) : (x.cycle false false).1.sends = x.sends ++ [x.sendRequest u] := by
  obtain ⟨hsends, -⟩ := x.plain_nf u h hu
  obtain ⟨-, hroom, -⟩ := h
  have hsame : (x.beforeCtl u).sansA = x.sansA := Engine.beforeCtl_sansA
  exact hsends.trans (Engine.nfCtl_send hc (hroom u hu hc) (congrArg Engine.sends hsame :) (congrArg Engine.begun hsame :))

theorem Engine.plain_rxfree (hc : nCtl u.nano = 2) :
    (x.cycle false false).1.raw 0x19 = x.raw 0x19 - min (nCount u.nano) (x.raw 0x19)
    ∧ (x.cycle false false).1.unreleased = x.unreleased - min (nCount u.nano) (x.raw 0x19) := by
  have hsame : (x.beforeCtl u).sansA = x.sansA := Engine.beforeCtl_sansA
  have hunits : (x.beforeCtl u).unreleased = x.unreleased := (congrArg Engine.unreleased hsame :)
  constructor
  · rw [x.plain_raw h 0x19 (by decide) (by decide) (by decide) (by decide)]
    have hnf : (Engine.runNF x (Engine.runOF x x.runM2.1 true) true).1 = Engine.nfCtl x (x.beforeCtl u) u := by
      rw [Engine.runNF, hu]; rfl
    rw [hnf, Engine.nfCtl_rxfree hc, Engine.nfRxfree, Engine.beforeCtl_rxn]
    exact tget_tset_same ..
  · obtain ⟨-, hrel, -⟩ := x.plain_nf u h hu
    refine hrel.trans ?_
    rw [Engine.nfCtl_rxfree hc]
    show (x.beforeCtl u).unreleased - min (nCount u.nano) ((x.beforeCtl u).raw 0x19) = _
    rw [hunits, Engine.beforeCtl_rxn]

theorem Engine.plain_evack (hc : nCtl u.nano = 3) : (x.cycle false false).1.ev = false ∧ (x.cycle false false).1.event = none
    ∧ (x.cycle false false).1.stopping = (x.stopping || isEvent x.event 3)
    ∧ (x.cycle false false).1.saving = (x.saving || isEvent x.event 4) := by
  obtain ⟨-, -, hev, hevent, hstop, hsave⟩ := x.plain_nf u h hu
  rw [Engine.nfCtl_evack hc] at hev hevent hstop hsave
  have hsame : (x.beforeCtl u).sansA = x.sansA := Engine.beforeCtl_sansA
  refine ⟨hev, hevent, hstop.trans ?_, hsave.trans ?_⟩
  · exact (congrArg (fun v : Engine => v.stopping || isEvent x.event 3) hsame :)
  · exact (congrArg (fun v : Engine => v.saving || isEvent x.event 4) hsame :)

end Plain

end Controls

/-! ### Safe points and yields (R285, R288) -/

section Sequencer

variable {x : Engine} {w : Nat}

/-- The microword that enters MF. -/
def Engine.atPc (x : Engine) : Nat := tget (dconst 0) x.micro x.pc

theorem Engine.plain_safePoint (h : x.Plain) (hs : mSafe x.atPc = true) (hsv : x.service = false) :
    (x.cycle false false).1.sinceSafe = 0 ∧ (x.cycle false false).1.pc = (x.sequence x.atPc).2
      ∧ (x.cycle false false).1.service = false := by
  obtain ⟨a, -, hc⟩ := x.cycle_plain_sansR h
  rw [hc]
  refine ⟨if_pos ?_, rfl, ?_⟩
  · show (mSafe x.atPc && !x.service) = true
    rw [hs, hsv]
    rfl
  · rw [hsv]
    rfl

theorem Engine.nextEvent_of_ev {a : Engine} (h : x.ev = true) : a.nextEvent x = a := by
  rw [Engine.nextEvent, h]

theorem Engine.nextEvent_of_events {a : Engine} (h : a.events = []) : a.nextEvent x = a := by
  unfold Engine.nextEvent
  rw [h]
  split
  · next heq => cases heq
  · rfl

/-- The sequencer's part of a cycle leaves what a cycle without an outside effect leaves. -/
theorem Engine.sequenced_fixed (a m : Engine) : (a.sequenced x m w).fixed = a.fixed := by
  have hloops : (a.mergeLoops x m).fixed = a.fixed := Engine.fixed_of_sansR (Engine.mergeLoops_sansR a x m)
  unfold Engine.sequenced
  dsimp only
  split
  · exact (Engine.fixed_of_sansM (Engine.setElem_sansM ..)).trans hloops
  · exact hloops

/-- The frames after the current one, if there is one, has ended. -/
def Engine.framesLeft (x : Engine) : List FrameInfo := if x.busy then x.frames.drop 1 else x.frames

theorem Engine.startFrame_events (a : Engine) : a.startFrame.events = a.events := by
  have hset : ∀ (b : Engine) k i l, (b.setElems k i l).events = b.events := fun b k i l =>
    (congrArg Engine.events (Engine.setElems_sansM k l b i) :)
  unfold Engine.startFrame
  split
  · dsimp only
    split
    · rfl
    · refine (hset _ _ _ _).trans ?_
      split
      · split <;> rfl
      · rfl
  · rfl

theorem Engine.stageMF_yield (hy : mYield w = true) (hstop : x.stopping = false) (hsave : x.saving = false) :
    (x.stageMF w).2 = [.yielded] := by
  simp [Engine.stageMF, hy, hstop, hsave]

section Serve

variable (hs : mSafe w = true) (hev : x.ev = true) (hsv : x.service = false)
include hs hev hsv

/-- At a safe point with EV set the sequencer goes to the service entry, and the next address becomes the return address (R285). -/
theorem Engine.stageMF_serve : (x.stageMF w).1.pc = x.svcEntry ∧ (x.stageMF w).1.service = true
    ∧ (x.stageMF w).1.ret = (x.sequence w).2 := by
  simp [Engine.stageMF, hs, hev, hsv]

theorem Engine.sequenced_serve (a m : Engine) : a.sequenced x m w = (a.sequencedPlain x m).setEvent 6 m.ret := by
  simp [Engine.sequenced, Engine.sequencedPlain, hs, hev, hsv]

end Serve

variable (hroom : ∀ v, x.nf = some v → nCtl v.nano = 1 → x.sends.length < 8)
include hroom

section Service

variable (hy : mYield x.atPc = false) (hs : mSafe x.atPc = true) (hev : x.ev = true) (hsv : x.service = false)
include hy hs hev hsv

theorem Engine.cycle_serve : x.cycle false false =
    ((((x.stages true).1.sequencedPlain x (x.stageMF x.atPc).1).setEvent 6 (x.sequence x.atPc).2).countCycle, []) := by
  obtain ⟨-, -, hret⟩ := Engine.stageMF_serve hs hev hsv
  have hout : (x.stageMF x.atPc).2 = [] := if_neg (Bool.eq_false_iff.1 hy)
  have hseq := Engine.sequenced_serve hs hev hsv (x.stages true).1 (x.stageMF x.atPc).1
  rw [Engine.cycle_go x hroom, ← Engine.atPc]
  simp [hy, hout, hseq, hret, Engine.nextEvent_of_ev hev]

theorem Engine.serve_goes : (x.cycle false false).1.pc = x.svcEntry ∧ (x.cycle false false).1.service = true
    ∧ (x.cycle false false).1.ret = (x.sequence x.atPc).2 := by
  rw [Engine.cycle_serve hroom hy hs hev hsv]
  obtain ⟨hpc, hservice, hret⟩ := Engine.stageMF_serve hs hev hsv
  have hmem : ∀ a : Engine, (a.setEvent 6 (x.sequence x.atPc).2).sansM = a.sansM := fun a => Engine.setElem_sansM a _ _ _
  refine ⟨Eq.trans ?_ hpc, Eq.trans ?_ hservice, Eq.trans ?_ hret⟩
  · exact (congrArg Engine.pc (hmem ((x.stages true).1.sequencedPlain x (x.stageMF x.atPc).1)) :)
  · exact (congrArg Engine.service (hmem ((x.stages true).1.sequencedPlain x (x.stageMF x.atPc).1)) :)
  · exact (congrArg Engine.ret (hmem ((x.stages true).1.sequencedPlain x (x.stageMF x.atPc).1)) :)

/-- The return address stands in element 6 of the event area (R286). -/
theorem Engine.serve_returnAddress (hb : x.evBank < 2) :
    (x.cycle false false).1.elem x.evBank (x.evBase + 6) = (x.sequence x.atPc).2 % 2 ^ 32 := by
  rw [Engine.cycle_serve hroom hy hs hev hsv]
  have hfixed : ((x.stages true).1.sequencedPlain x (x.stageMF x.atPc).1).fixed = x.fixed :=
    (Engine.fixed_of_sansR (Engine.mergeLoops_sansR ..)).trans (x.stages_fixed true)
  generalize (x.stages true).1.sequencedPlain x (x.stageMF x.atPc).1 = z at hfixed ⊢
  have hbank : z.evBank = x.evBank := (congrArg Engine.evBank hfixed :)
  have hbase : z.evBase = x.evBase := (congrArg Engine.evBase hfixed :)
  show (z.setElem z.evBank (z.evBase + 6) _).elem x.evBank (x.evBase + 6) = _
  rw [hbank, hbase, Engine.elem_setElem _ _ _ _ _ _ hb hb, if_pos ⟨rfl, rfl⟩]

end Service

section Yield

variable (hy : mYield x.atPc = true) (hevs : x.events = []) (hstop : x.stopping = false) (hsave : x.saving = false)
include hy hevs hstop hsave

theorem Engine.cycle_yield : x.cycle false false =
    ((Engine.nextFrame x ((x.stages true).1.sequenced x (x.stageMF x.atPc).1 x.atPc)).countCycle, [.yielded]) := by
  have hout := Engine.stageMF_yield hy hstop hsave
  have hevents : (Engine.nextFrame x ((x.stages true).1.sequenced x (x.stageMF x.atPc).1 x.atPc)).countCycle.events = [] := by
    refine (Engine.startFrame_events _).trans (Eq.trans ?_ hevs)
    exact (congrArg Engine.events ((Engine.sequenced_fixed _ _).trans (x.stages_fixed true)) :)
  have hnext := Engine.nextEvent_of_events (x := x) hevents
  rw [Engine.cycle_go x hroom, ← Engine.atPc]
  simp [hy, hout, hnext]

/-- A yield ends the current frame, and the next one is worked on once a unit of it is complete (R288). -/
theorem Engine.yield_frames : (x.cycle false false).1.frames = x.framesLeft
    ∧ (x.cycle false false).1.busy = (match x.framesLeft with | f :: _ => f.units != 0 | [] => false) := by
  rw [Engine.cycle_yield hroom hy hevs hstop hsave]
  have hfixed := (Engine.sequenced_fixed (x := x) (w := x.atPc) (x.stages true).1 (x.stageMF x.atPc).1).trans (x.stages_fixed true)
  generalize (x.stages true).1.sequenced x (x.stageMF x.atPc).1 x.atPc = z at hfixed ⊢
  have hleft : z.framesLeft = x.framesLeft := (congrArg Engine.framesLeft hfixed :)
  rw [← hleft]
  exact startFrame_frames { z with frames := z.framesLeft, busy := false, saving := z.saving && !x.saving } rfl

end Yield

end Sequencer

/-- Settles O48, command by command. -/
theorem engineQueuesAndEvents : Obligations.EngineQueuesAndEvents := by
  intro s t e u x n w runs
  refine ⟨fun h hu hc => ⟨_, State.cycleIf_next h hu (by simpa using hc), Engine.plain_send h hu hc⟩,
    fun h hu hc => ⟨_, State.cycleIf_next h hu (by simpa using hc), Engine.plain_rxfree h hu hc⟩,
    fun h hu hc => ⟨_, State.cycleIf_next h hu (by simpa using hc), Engine.plain_evack h hu hc⟩,
    fun h hs hsv => ⟨_, congrArg _ (s.cycleMF t e _ h ?atSafe), Engine.plain_safePoint h hs hsv⟩,
    fun hst hroom hy hs hev hsv hb => ⟨_, congrArg _ (s.cycleMF_go t e _ [] hst ?atEvent ?serves (Or.inl rfl)), ?served⟩,
    fun hst hroom hy _ hevs hstop hsave => ⟨_, congrArg _ (s.cycleMF_go t e _ [.yielded] hst hy ?yields (Or.inr rfl)), ?yielded⟩⟩
  case atSafe => simpa using And.intro hs hsv
  case atEvent => simpa using And.intro hs hsv
  case serves => rw [Engine.cycle_serve hroom hy hs hev hsv]
  case served =>
    obtain ⟨hpc, hservice, hret⟩ := Engine.serve_goes hroom hy hs hev hsv
    exact ⟨hpc, hservice, hret, Engine.serve_returnAddress hroom hy hs hev hsv hb⟩
  case yields => rw [Engine.cycle_yield hroom hy hevs hstop hsave]
  case yielded => exact Engine.yield_frames hroom hy hevs hstop hsave

/-! ### Debug access (R248) -/

section Debug

variable {s : State} {t : Nat} {e : Fin 1088} {o v : Nat}

theorem State.eng_debugTouch (s : State) (c e : Nat) : (s.debugTouch c).eng e = s.eng e := by
  rw [s.debugTouch_frame c]; rfl

theorem State.held_debugTouch (s : State) (c e : Nat) : (s.debugTouch c).held e = s.held e := by
  rw [s.debugTouch_frame c]; rfl

/-- A debug write to engine `e` is made: no admitted pipeline holds it, and it is Free, Loaded or Halted. -/
def State.DebugWritable (s : State) (e : Nat) : Prop :=
  s.held e = false ∧ ((s.eng e).st = 0 ∨ (s.eng e).st = 1 ∨ (s.eng e).st = 3)

theorem State.debugWritable_iff (s : State) (t c e : Nat) :
    (!((s.advance t).debugTouch c).held e && ((((s.advance t).debugTouch c).eng e).st == 0
      || (((s.advance t).debugTouch c).eng e).st == 1 || (((s.advance t).debugTouch c).eng e).st == 3)) = true
      ↔ s.DebugWritable e := by
  have hheld : (s.advance t).held e = s.held e := rfl
  simp [State.held_debugTouch, State.eng_debugTouch, hheld, State.DebugWritable, or_assoc]

theorem execDebugWrite_made (h : s.DebugWritable e) : execDebugWrite t e o v s =
    .next ((((s.advance t).debugTouch (e / 17)).setEng e ((s.eng e).setAperture (o % 65536) v)).emit (.debug e o v true)) := by
  have heng : ((s.advance t).debugTouch (e / 17)).eng e = s.eng e := State.eng_debugTouch ..
  exact (congrArg _ (if_pos ((s.debugWritable_iff t _ e).2 h))).trans (by rw [heng])

theorem execDebugWrite_discarded (h : ¬ s.DebugWritable e) : execDebugWrite t e o v s =
    .next (((s.advance t).debugTouch (e / 17)).emit (.debug e o v false)) :=
  congrArg _ (if_neg (mt (s.debugWritable_iff t _ e).1 h))

end Debug

/-! ### Loading and checking images (R297, R299, R301) -/

section Images

variable {s : State} {i j : Nat}

theorem microLoad_free (h : s.microUsers i = []) : microLoad i s = .ok (s.loadMicro i) := if_neg (by simp [h])

theorem nanoLoad_free (h : s.nanoUsers i = []) : nanoLoad i s = .ok (s.loadNano i) := if_neg (by simp [h])

theorem State.loadMicro_formed (h : microFormat (s.microImage i) = true) : s.loadMicro i =
    (s.noted (Ob.mimgLoad i)).wrs [(Ob.mimgLoad i, 0), (Ob.mimgLoaded i, 1), (Ob.mimgWordCount i, iWordCount (s.microImage i)),
      (Ob.mimgDeclaredWorst i, iWorst (s.microImage i)), (Ob.mimgDeclaredService i, iSvcCycles (s.microImage i)),
      (Ob.mimgDeclaredCond i, iCond (s.microImage i)), (Ob.mimgDigest i, iCrc (s.microImage i))] := if_pos h

theorem State.loadMicro_malformed (h : microFormat (s.microImage i) = false) : s.loadMicro i =
    (s.noted (Ob.mimgLoad i)).wrs [(Ob.mimgLoad i, 0x4F), (Ob.mimgLoaded i, 0)] := if_neg (Bool.eq_false_iff.1 h)

theorem State.loadNano_formed (h : nanoFormat (s.nanoImage i) = true) (hb : firstBadNano (s.nanoImage i) = none) : s.loadNano i =
    (s.noted (Ob.nimgLoad i)).wrs [(Ob.nimgLoad i, 0), (Ob.nimgLoaded i, 1), (Ob.nimgWordCount i, nWordCount (s.nanoImage i)),
      (Ob.nimgDigest i, nHdr (s.nanoImage i) 31 0), (Ob.nimgFirstFault i, 0xFFFF)] := by
  simp [State.loadNano, h, hb]

theorem State.loadNano_malformed (h : nanoFormat (s.nanoImage i) = false) : s.loadNano i =
    (s.noted (Ob.nimgLoad i)).wrs [(Ob.nimgLoad i, 0x4F), (Ob.nimgLoaded i, 0)] := if_pos (by simp [h])

/-- Verify of a loaded pair publishes what the checks found, and its result. -/
theorem imageVerify_loaded (hj : j < 64) (hm : s.microLoaded i = true) (hn : s.nanoLoaded j = true) :
    let r := (s.pair i j).verify 6
    imageVerify i j s = .ok (((s.wrs [(Ob.mimgFirstFault i, r.2.1), (Ob.mimgVerifiedWorst i, r.2.2.worst),
      (Ob.mimgVerifiedCond i, r.2.2.cond), (Ob.mimgVerifiedSpacing i, min 65535 ((s.pair i j).spacing r.2.2))]).noted
        (Ob.mimgVerify i)).wr (Ob.mimgVerify i) r.1) := by
  simp [imageVerify, State.verifyPair, show ¬ 63 < j by omega, hm, hn]

end Images

/-- Settles O50, command by command. -/
theorem engineDebugAndImages : Obligations.EngineDebugAndImages := by
  intro s t
  refine ⟨fun e o => rfl, fun e o v hh hst => execDebugWrite_made ⟨hh, hst⟩, fun e o v h => execDebugWrite_discarded ?barred,
    fun i hr hu => ⟨fun hf => ?micro, fun hf => ?microBad⟩, fun i hr hu => ⟨fun hf hb => ?nano, fun hf => ?nanoBad⟩,
    fun i j hr hj hm hn => State.serve_done hr (imageVerify_loaded hj hm hn)⟩
  case barred =>
    rintro ⟨hh, hst⟩
    obtain h | ⟨h0, h1, h3⟩ := h
    · exact Bool.eq_false_iff.1 hh h
    · omega
  case micro => exact State.serve_done hr ((microLoad_free (s := s.advance t) hu).trans (congrArg _ (State.loadMicro_formed hf)))
  case microBad => exact State.serve_done hr ((microLoad_free (s := s.advance t) hu).trans (congrArg _ (State.loadMicro_malformed hf)))
  case nano => exact State.serve_done hr ((nanoLoad_free (s := s.advance t) hu).trans (congrArg _ (State.loadNano_formed hf hb)))
  case nanoBad => exact State.serve_done hr ((nanoLoad_free (s := s.advance t) hu).trans (congrArg _ (State.loadNano_malformed hf)))

end Sys2Proof.Machine

/-! Proofs about the sequencer of the engines (O46). -/

namespace Sys2Proof.Machine

open Sys2Proof

/-! ### Loop control and the next address (R277, R279) -/

section Sequence

variable {x : Engine} {w : Nat}

/-- The counter of the innermost loop (R279). -/
def Engine.loopReg (x : Engine) : Nat := 0x0C + (x.ldepth - 1)

/-- The innermost loop is left: its counter is cleared and LDEPTH is one less (R279). -/
def Engine.leaveLoop (x : Engine) : Engine := (x.put x.loopReg 0).setLdepth (x.ldepth - 1)

theorem Engine.ldepth_le (x : Engine) : x.ldepth ≤ 4 := min_le_left ..

theorem Engine.loopReg_lt (x : Engine) : x.loopReg < 0x10 := by
  have hd := x.ldepth_le
  unfold Engine.loopReg
  omega

@[simp] theorem Engine.leaveLoop_counter : x.leaveLoop.raw x.loopReg = 0 := by
  have hlt := x.loopReg_lt
  rw [Engine.leaveLoop, Engine.setLdepth, Engine.raw_put, if_neg (by omega), Engine.raw_put, if_pos rfl]

@[simp] theorem Engine.leaveLoop_ldepth : x.leaveLoop.ldepth = x.ldepth - 1 :=
  Engine.ldepth_setLdepth _ _ ((Nat.sub_le ..).trans x.ldepth_le)

theorem Engine.sequence_next (h : mLoop w ≠ 2) : (x.sequence w).2 = x.nextByCond w := by
  unfold Engine.sequence
  dsimp only
  split_ifs <;> rfl

theorem Engine.sequence_enter (h : mLoop w = 1) : (x.sequence w).1 = x.setLdepth (min 4 (x.ldepth + 1)) := by
  simp [Engine.sequence, h]

theorem Engine.sequence_end_outside (h : mLoop w = 2) (hd : x.ldepth = 0) : x.sequence w = (x, (x.pc + 1) % 2048) := by
  simp [Engine.sequence, h, hd]

theorem Engine.sequence_end_repeat (h : mLoop w = 2) (hd : 0 < x.ldepth) (hc : 1 < x.raw x.loopReg) :
    x.sequence w = (x.put x.loopReg (x.raw x.loopReg - 1), mNext w) := by
  simp only [Engine.sequence, h]
  exact (if_neg hd.ne').trans (if_pos hc)

theorem Engine.sequence_end_leave (h : mLoop w = 2) (hd : 0 < x.ldepth) (hc : x.raw x.loopReg ≤ 1) :
    x.sequence w = (x.leaveLoop, (x.pc + 1) % 2048) := by
  simp only [Engine.sequence, h]
  exact (if_neg hd.ne').trans (if_neg hc.not_gt)

theorem Engine.sequence_break (h : mLoop w = 3) (hd : 0 < x.ldepth) : (x.sequence w).1 = x.leaveLoop := by
  simp [Engine.sequence, h, hd.ne', Engine.leaveLoop, Engine.loopReg]

end Sequence

/-! ### The sequencer's part of a plain cycle -/

section Plain

variable {x : Engine} (h : x.Plain)
include h

/-- The innermost counter and LDEPTH after a plain cycle in which OF and NF are empty are the sequencer's. -/
theorem Engine.plain_loop {z : Engine} (hz : (x.sequence x.atPc).1 = z) (ho : x.of = none) (hn : x.nf = none) :
    (x.cycle false false).1.raw x.loopReg = z.raw x.loopReg ∧ (x.cycle false false).1.ldepth = z.ldepth := by
  obtain ⟨hraw, hdepth⟩ := x.plain_loops h ho hn
  have hd := x.ldepth_le
  exact hz ▸ ⟨hraw _ (by omega), hdepth⟩

theorem Engine.plain_pc_cond (hl : mLoop x.atPc ≠ 2) : (x.cycle false false).1.pc = x.nextByCond x.atPc :=
  (x.plain_pc h).trans (Engine.sequence_next hl)

theorem Engine.plain_enterLoop (hl : mLoop x.atPc = 1) (ho : x.of = none) (hn : x.nf = none) :
    (x.cycle false false).1.ldepth = min 4 (x.ldepth + 1) :=
  (Engine.plain_loop h (Engine.sequence_enter hl) ho hn).2.trans (Engine.ldepth_setLdepth _ _ (min_le_left ..))

theorem Engine.plain_repeatLoop {v : Nat} (hz : (x.sequence x.atPc).1 = x.put x.loopReg v) (ho : x.of = none) (hn : x.nf = none) :
    (x.cycle false false).1.raw x.loopReg = v ∧ (x.cycle false false).1.ldepth = x.ldepth := by
  have hlt := x.loopReg_lt
  simpa [Engine.raw_put, Engine.ldepth_put _ _ _ (show x.loopReg ≠ 0x16 by omega)] using Engine.plain_loop h hz ho hn

theorem Engine.plain_leaveLoop (hz : (x.sequence x.atPc).1 = x.leaveLoop) (ho : x.of = none) (hn : x.nf = none) :
    (x.cycle false false).1.raw x.loopReg = 0 ∧ (x.cycle false false).1.ldepth = x.ldepth - 1 := by
  simpa using Engine.plain_loop h hz ho hn

/-- RETURN leaves the service routine (R285). -/
theorem Engine.plain_service_ret (hl : mLoop x.atPc ≠ 2) (hc : mCond x.atPc = 14) : (x.cycle false false).1.service = false := by
  obtain ⟨a, -, hcycle⟩ := x.cycle_plain_sansR h
  rw [hcycle, ← Engine.atPc]
  simp [hl, hc]

end Plain

/-! ### The commands of the sequencer (R247, R277) -/

/-- The cycle of engine `e` with what its fetch met: 1 corrected, 2 uncorrectable (R247). -/
def State.fetchCycle (s : State) (e : Nat) (err : Fin 3) : State := (s.memError err).engineCycle e false (err.val == 2)

section Commands

variable {s : State} {t : Nat} {e : Fin 1088} (h : (s.eng e).Plain)
include h

/-- A fetch without an error is a plain cycle of that engine alone. -/
theorem State.fetchCycle_clean : (Host.Outcome.next ((s.advance t).fetchCycle e 0) : Outcome)
    = .next ((s.advance t).setEng e ((s.eng e).cycle false false).1) :=
  congrArg _ ((s.advance t).engineCycle_plain e h)

theorem execBranch_fetch (err : Fin 3) (hl : mLoop (s.eng e).atPc ≠ 2) (hc : mCond (s.eng e).atPc ≠ 14) :
    execBranch t e err s = .next ((s.advance t).fetchCycle e err) :=
  congrArg _ (if_pos (s.atMF_some t e _ h (by simpa [Engine.atPc] using And.intro hl hc)))

theorem execLoopEnd_fetch (err : Fin 3) (hl : mLoop (s.eng e).atPc = 2) :
    execLoopEnd t e err s = .next ((s.advance t).fetchCycle e err) :=
  congrArg _ (if_pos (s.atMF_some t e _ h (by simpa [Engine.atPc] using hl)))

theorem execRet_fetch (err : Fin 3) (hl : mLoop (s.eng e).atPc ≠ 2) (hc : mCond (s.eng e).atPc = 14) :
    execRet t e err s = .next ((s.advance t).fetchCycle e err) :=
  congrArg _ (if_pos (s.atMF_some t e _ h (by simpa [Engine.atPc] using And.intro hc hl)))

theorem execLoopEnter_cycle (hl : mLoop (s.eng e).atPc = 1) :
    execLoopEnter t e s = .next ((s.advance t).setEng e ((s.eng e).cycle false false).1) :=
  congrArg _ (s.cycleMF t e _ h (by simpa [Engine.atPc] using hl))

theorem execLoopBreak_cycle (hl : mLoop (s.eng e).atPc = 3) :
    execLoopBreak t e s = .next ((s.advance t).setEng e ((s.eng e).cycle false false).1) :=
  congrArg _ (s.cycleMF t e _ h (by simpa [Engine.atPc] using hl))

end Commands

/-- Settles O46: the sequencer's choice of each loop control, carried through a plain cycle. -/
theorem engineSequencing : Obligations.EngineSequencing := by
  intro s t e err h x w d lc fall cond fetched runs
  have hruns : ∀ {r : Outcome} {after : Engine → Prop}, r = .next ((s.advance t).setEng e (x.cycle false false).1) →
      after (x.cycle false false).1 → runs r after := fun hr hafter =>
    ⟨_, hr, hafter, x.plain_mem_none h, fun hm k => ⟨(x.plain_acc_none h hm).accRe k, (x.plain_acc_none h hm).accIm k⟩⟩
  have hclean := State.fetchCycle_clean (t := t) h
  have hpc : ∀ {a n}, x.sequence w = (a, n) → (x.cycle false false).1.pc = n := fun hs => (x.plain_pc h).trans (congrArg Prod.snd hs)
  have hentered : mLoop w = 1 → mLoop w ≠ 2 := fun hl => hl.trans_ne (by decide)
  have hbroken : mLoop w = 3 → mLoop w ≠ 2 := fun hl => hl.trans_ne (by decide)
  refine ⟨fun hl hc => hruns ((execBranch_fetch h 0 hl hc).trans hclean) (Engine.plain_pc_cond h hl),
    fun hl => hruns (execLoopEnter_cycle h hl) ⟨Engine.plain_pc_cond h (hentered hl), Engine.plain_enterLoop h hl⟩,
    fun hl hd => hruns ((execLoopEnd_fetch h 0 hl).trans hclean) (hpc (Engine.sequence_end_outside hl hd)),
    fun hl hd hc => hruns ((execLoopEnd_fetch h 0 hl).trans hclean) ?repeats,
    fun hl hd hc => hruns ((execLoopEnd_fetch h 0 hl).trans hclean) ?leaves,
    fun hl hd => hruns (execLoopBreak_cycle h hl)
      ⟨Engine.plain_pc_cond h (hbroken hl), Engine.plain_leaveLoop h (Engine.sequence_break hl hd)⟩,
    fun hl hc => hruns ((execRet_fetch h 0 hl hc).trans hclean)
      ⟨(Engine.plain_pc_cond h hl).trans (if_pos hc), Engine.plain_service_ret h hl hc⟩,
    execBranch_fetch h err, execLoopEnd_fetch h err, execRet_fetch h err⟩
  case repeats =>
    have hseq := Engine.sequence_end_repeat hl hd hc
    exact ⟨hpc hseq, Engine.plain_repeatLoop h (congrArg Prod.fst hseq)⟩
  case leaves =>
    have hseq := Engine.sequence_end_leave hl hd hc
    exact ⟨hpc hseq, Engine.plain_leaveLoop h (congrArg Prod.fst hseq)⟩

end Sys2Proof.Machine

/-! Proofs about the memories: accesses to HBM and the pools (O15), the life of a pseudo-channel (O16). -/

namespace Sys2Proof.Machine

open Sys2Proof

/-! ### What the passing of time leaves alone -/

@[simp] theorem State.us_advance (s : State) (t n : Nat) : (s.advance t).us n = s.us n := rfl
@[simp] theorem State.pcS_advance (s : State) (t q : Nat) : (s.advance t).pcS q = s.pcS q := rfl
@[simp] theorem State.pcState_advance (s : State) (t q : Nat) : (s.advance t).pcState q = s.pcState q := rfl
@[simp] theorem State.physOf_advance (s : State) (t l : Nat) : (s.advance t).physOf l = s.physOf l := rfl
@[simp] theorem State.spareOf_advance (s : State) (t k : Nat) : (s.advance t).spareOf k = s.spareOf k := rfl
@[simp] theorem State.bankS_advance (s : State) (t b : Nat) : (s.advance t).bankS b = s.bankS b := rfl

/-! ### Accesses to device addresses (R314, R322) -/

section Addresses

variable {s : State} {t da syn : Nat}

theorem execHbmAdmittedBurst_unserved (err : Fin 4) (h : s.daServed da = false) :
    execHbmAdmittedBurst t da err syn s = .next (s.advance t) := congrArg _ (if_neg (Bool.eq_false_iff.1 h))

theorem execHbmPatrolScrub_unserved (err : Fin 3) (h : s.daServed da = false) :
    execHbmPatrolScrub t da err syn s = .next (s.advance t) := congrArg _ (if_neg (Bool.eq_false_iff.1 h))

/-- The row of the bank of a device address is precharged. -/
def State.precharge (s : State) (da : Nat) : State := s.setBank (s.bankOf da) { s.bankS (s.bankOf da) with row := none }

theorem execHbmAdmittedBurst_served (err : Fin 4) (h : s.daServed da = true) : execHbmAdmittedBurst t da err syn s =
    .next ((((s.advance t).wakePc (s.pcOf da)).precharge da).hbmError da err syn) := congrArg _ (if_pos h)

theorem execHbmPatrolScrub_served (err : Fin 3) (h : s.daServed da = true) :
    execHbmPatrolScrub t da err syn s = .next ((s.advance t).hbmError da err syn) := congrArg _ (if_pos h)

end Addresses

/-! ### Bank queues (R318-R320) -/

section Banks

/-- Logical pseudo-channel `l` is served: by one that is in service or Migrating (R324). -/
def State.Serves (s : State) (l : Nat) : Prop := ∃ p, s.physOf l = some p ∧ (s.pcState p = 0 ∨ s.pcState p = 4)

/-- Bank `b` issues access `a`: its pseudo-channel wakes, the access leaves the queue, and PagePolicy decides on its row. -/
def State.issueAt (s : State) (b : Nat) (a : BAccess) : State :=
  let y := (s.bankS b).issued a
  (s.wakePc (bankPc b)).setBank b
    (({ y with inOrder := y.inOrder && inOrderStill y.queue } : Bank).touch (s.rd Ob.hbmPagePolicy) (Machine.rowOf a.da) s.now)

variable {s : State} {t syn : Nat} {bk : Fin 3072} {err : Fin 4} {a : BAccess}

theorem execHbmBestEffortAccess_idle (h : ¬ s.Serves (bankPc bk) ∨ (s.bankS bk).pick = none) :
    execHbmBestEffortAccess t bk err syn s = .next (s.advance t) := by
  rcases hq : s.physOf (bankPc bk) with _ | p
  · simp [execHbmBestEffortAccess, hq]
  · by_cases hst : s.pcState p = 0 ∨ s.pcState p = 4
    · have hpick := h.resolve_left (not_not_intro ⟨p, hq, hst⟩)
      simp [execHbmBestEffortAccess, hq, hpick]
    · simp [execHbmBestEffortAccess, hq, hst]

section Issues

variable (h : s.Serves (bankPc bk)) (hpick : (s.bankS bk).pick = some a)
include h hpick

theorem execHbmBestEffortAccess_write {d : Bytes} (hw : a.write = some d) :
    execHbmBestEffortAccess t bk err syn s = .next (((((s.advance t).issueAt bk a).hbmWrite a.da d).answer a 0 []).hbmError a.da
      (if err.val = 3 then 3 else 0) syn) := by
  obtain ⟨p, hq, hst⟩ := h
  simp [execHbmBestEffortAccess, State.issueAt, hq, hst, hpick, hw]

theorem execHbmBestEffortAccess_read (hw : a.write = none) (he : err.val ≤ 1) :
    execHbmBestEffortAccess t bk err syn s = .next ((((s.advance t).issueAt bk a).answer a 0
      (((s.advance t).issueAt bk a).hbmRead a.da a.len)).hbmError a.da err syn) := by
  obtain ⟨p, hq, hst⟩ := h
  simp [execHbmBestEffortAccess, State.issueAt, hq, hst, hpick, hw, he]

theorem execHbmBestEffortAccess_readAborts (hw : a.write = none) (he : 1 < err.val) :
    execHbmBestEffortAccess t bk err syn s = .next ((((s.advance t).issueAt bk a).answer a 3 []).hbmError a.da err syn) := by
  obtain ⟨p, hq, hst⟩ := h
  simp [execHbmBestEffortAccess, State.issueAt, hq, hst, hpick, hw, he.not_ge]

end Issues

end Banks

/-! ### The scrub of the pools (R304) -/

section PoolScrub

variable {s : State} {t : Nat} {cl : Fin 64} {word : Fin 20480} {err : Fin 3}

/-- The active pipelines with a region that holds word `word` of cluster `cl`. -/
def State.wordUsers (s : State) (cl word : Nat) : List Nat :=
  (List.range 64).filter fun n => s.active n && (s.slot n).placement.regions.any fun r =>
    r.cluster == cl && decide (r.firstLine ≤ word / 8) && decide (word / 8 < r.firstLine + r.lineCount)

/-- An uncorrectable word is zeroed, and what its users read carries no data. -/
def State.wordLost (s : State) (cl word : Nat) : State :=
  (s.wordUsers cl word).foldl (fun s n => s.setPipe n { s.pipeS n with damaged := true })
    { s with pool := tsetRange (dconst 0) s.pool (cl * 163840 + 8 * word) (List.replicate 8 0) }

theorem execPoolScrubAccess_clean (h : err.val = 0) : execPoolScrubAccess t cl word err s = .next (s.advance t) := by
  simp [execPoolScrubAccess, h]

theorem execPoolScrubAccess_corrected (h : err.val = 1) : execPoolScrubAccess t cl word err s = .next ((s.advance t).countCorrected 1) :=
  congrArg _ (if_pos h)

theorem execPoolScrubAccess_uncorrectable (h : err.val = 2) : execPoolScrubAccess t cl word err s =
    .next ((((s.advance t).wordLost cl word).countUncorrected 1).faultLog 6 2 cl ((s.wordUsers cl word).headD 0xFF) 0 (8 * word)) :=
  congrArg _ ((if_neg (h.trans_ne (by decide))).trans (if_pos h))

end PoolScrub

/-! ### Refresh and idle rows (R316, R319) -/

section Rows

variable {s : State} {t : Nat} {q : Fin 64} {bk : Fin 3072}

theorem execHbmRefresh_serving (h : s.rd (Ob.hpcServes q) < 64) :
    execHbmRefresh t q s = .next ((s.advance t).closeRows (s.rd (Ob.hpcServes q))) := by
  simp [execHbmRefresh, h]

theorem execHbmRefresh_unbound (h : 64 ≤ s.rd (Ob.hpcServes q)) : execHbmRefresh t q s = .next (s.advance t) :=
  congrArg _ (if_neg h.not_gt)

theorem execHbmRowIdleClose_closes (h : (s.bankS bk).lastAt + s.us 2 ≤ (s.advance t).now) :
    execHbmRowIdleClose t bk s = .next ((s.advance t).setBank bk { s.bankS bk with row := none }) := congrArg _ (if_pos h)

theorem execHbmRowIdleClose_early (h : (s.advance t).now < (s.bankS bk).lastAt + s.us 2) :
    execHbmRowIdleClose t bk s = .next (s.advance t) := congrArg _ (if_neg h.not_ge)

end Rows

/-- Settles O15, command by command. -/
theorem hbmAccesses : Obligations.HbmAccesses := by
  intro s t da syn err4 err3 bk q cl word a
  exact ⟨fun h => ⟨execHbmAdmittedBurst_unserved err4 h, execHbmPatrolScrub_unserved err3 h⟩,
    fun h => ⟨execHbmPatrolScrub_served err3 h, _, rfl, execHbmAdmittedBurst_served err4 h⟩,
    execHbmBestEffortAccess_idle,
    fun h hpick => ⟨_, _, rfl, rfl, fun _ hw => execHbmBestEffortAccess_write h hpick hw,
      execHbmBestEffortAccess_read h hpick, execHbmBestEffortAccess_readAborts h hpick⟩,
    execPoolScrubAccess_clean,
    execPoolScrubAccess_corrected,
    fun h => ⟨_, _, rfl, rfl, execPoolScrubAccess_uncorrectable h⟩,
    execHbmRefresh_serving,
    execHbmRefresh_unbound,
    execHbmRowIdleClose_closes,
    execHbmRowIdleClose_early⟩

/-! ### Freeze, test and retirement (R324-R326) -/

section Freeze

variable {s : State} {t : Nat} {q : Fin 64}

theorem execHbmFreezeHoldExpiry_tests (h : s.pcState q = 2)
    (hd : (s.pcS q).frozenAt + s.us (s.rd Ob.hbmFreezeHold) ≤ (s.advance t).now) :
    execHbmFreezeHoldExpiry t q s = .next ((s.advance t).startTest q) := by
  simp [execHbmFreezeHoldExpiry, h, hd]

theorem execHbmFreezeHoldExpiry_holds
    (h : s.pcState q ≠ 2 ∨ (s.advance t).now < (s.pcS q).frozenAt + s.us (s.rd Ob.hbmFreezeHold)) :
    execHbmFreezeHoldExpiry t q s = .next (s.advance t) := by
  obtain h | hd := h
  · simp [execHbmFreezeHoldExpiry, h]
  · simp [execHbmFreezeHoldExpiry, hd.not_ge]

theorem hbmRelease_frozen (h : s.pcState q = 2) : hbmRelease q s = .ok (s.startTest q) := if_neg (by simp [h])

theorem hbmRelease_other (h : s.pcState q ≠ 2) : hbmRelease q s = .error Abort.state := if_pos (by simp [h])

theorem hbmRetire_inService (h : s.pcState q = 0) : hbmRetire q s = .ok (s.startRetire q) := if_neg (by simp [h])

theorem hbmRetire_other (h : s.pcState q ≠ 0) : hbmRetire q s = .error Abort.state := if_pos (by simp [h])

end Freeze

section Test

variable {s : State} {t : Nat} {q : Fin 64} {bad : List Nat}

theorem execHbmTestComplete_idle (pass : Bool) (h : s.pcState q ≠ 3) : execHbmTestComplete t q pass bad s = .next (s.advance t) := by
  simp [execHbmTestComplete, h]

theorem execHbmTestComplete_passes (h : s.pcState q = 3) : execHbmTestComplete t q true bad s =
    .next ((((s.advance t).logWords q bad).wr (Ob.hpcTestResult q) 1).passPc q bad) := by
  simp [execHbmTestComplete, h]

/-- A failed test publishes its result and LastError and is logged, for the first pipeline on the pseudo-channel (R325). -/
def State.testFailed (s : State) (q : Nat) (bad : List Nat) : State :=
  (((s.logWords q bad).wr (Ob.hpcTestResult q) 2).setDom (Ob.hpcLastError q) (lastError s.stampNow (bad.headD 0) 3 0)).faultLog 2 3 q
    (s.firstOn (s.rd (Ob.hpcServes q))) 0 0

theorem execHbmTestComplete_fails (h : s.pcState q = 3) :
    execHbmTestComplete t q false bad s = .next (((s.advance t).testFailed q bad).failPc q) := by
  simp [execHbmTestComplete, State.testFailed, h]

end Test

section Switch

variable {s : State} {t : Nat} {q : Fin 64}

theorem execHbmRetireSwitch_idle (h : s.pcState q ≠ 4) : execHbmRetireSwitch t q s = .next (s.advance t) := by
  simp [execHbmRetireSwitch, h]

theorem execHbmRetireSwitch_noSpare (h : s.pcState q = 4) (hsp : s.spareOf (q.val / 32) = none) :
    execHbmRetireSwitch t q s = .next (s.advance t) := by
  simp [execHbmRetireSwitch, h, hsp]

theorem execHbmRetireSwitch_binds {sp : Nat} (h : s.pcState q = 4) (hsp : s.spareOf (q.val / 32) = some sp) :
    execHbmRetireSwitch t q s = .next (((s.advance t).bindSpare q sp).setPc q { s.pcS q with retireResult := some 0 }) := by
  simp [execHbmRetireSwitch, h, hsp]

end Switch

/-! ### Temperature and power states (R316, R317, R329) -/

section Temperature

/-- The base-die temperature of a stack is published (R317). -/
def State.warm (s : State) (stack : Fin 2) (temp : Int) : State :=
  let b := s.dom Ob.hbmBaseDieTemp
  let w := leBytes 2 (uint 16 temp)
  s.setDom Ob.hbmBaseDieTemp (if stack.val = 0 then w ++ b.drop 2 else b.take 2 ++ w)

/-- The refresh rate of a stack follows its temperature, in 1/16 degC: hot from 85 degC, normal below 82 degC (R316). -/
def State.hotRate (s : State) (stack : Fin 2) (temp : Int) : State :=
  if 1360 ≤ temp then s.wr Ob.hbmHotRefresh (setBit (s.rd Ob.hbmHotRefresh) stack true)
  else if temp < 1312 then s.wr Ob.hbmHotRefresh (setBit (s.rd Ob.hbmHotRefresh) stack false) else s

variable {s : State} {t : Nat} {stack : Fin 2} {temp : Int}

theorem execHbmTempCross_within (h : temp ≤ 1520) : execHbmTempCross t stack temp s =
    .next (if (((s.advance t).warm stack temp).hotRate stack temp).outside then ((s.advance t).warm stack temp).hotRate stack temp
      else (((s.advance t).warm stack temp).hotRate stack temp).assumeEnds 6) := congrArg _ (if_neg h.not_gt)

theorem execHbmTempCross_over (h : 1520 < temp) : execHbmTempCross t stack temp s =
    .next ((((((s.advance t).warm stack temp).hotRate stack temp).wr Ob.hbmOverTemp 1).faultLog 7 1 stack 0xFF 0 0).assume 6) :=
  congrArg _ (if_pos h)

end Temperature

section Sleep

variable {s : State} {t : Nat} {q : Fin 64} {power : Fin 3}

theorem execHbmPowerStateEntry_sleeps (h : power.val ≠ 0) (hm : (s.advance t).maySleep q (s.rd (Ob.hpcServes q)) power = true) :
    execHbmPowerStateEntry t q power s = .next ((s.advance t).wr (Ob.hpcPowerState q) power) :=
  congrArg _ ((if_neg h).trans (if_pos hm))

theorem execHbmPowerStateEntry_stays (h : power.val = 0 ∨ (s.advance t).maySleep q (s.rd (Ob.hpcServes q)) power = false) :
    execHbmPowerStateEntry t q power s = .next (s.advance t) := by
  obtain h | hm := h
  · exact congrArg _ (if_pos h)
  · simp [execHbmPowerStateEntry, hm]

end Sleep

/-! ### InterleaveMasks (R312) -/

section Masks

variable {s : State} {b : List (BitVec 8)}

theorem masksWrite_badLength (h : b.length ≠ 80) : masksWrite b s = .error Abort.length := if_pos h

theorem masksWrite_allocated (h : b.length = 80) (ha : s.rd Ob.storeAllocatedBytes ≠ 0 ∨ s.dom Ob.hbmHostReserve ≠ []) :
    masksWrite b s = .error Abort.state := by
  simp [masksWrite, h, ha]

/-- Every mask of a set is acceptable (R312). -/
def MasksFit (b : Bytes) : Prop := ∀ i, i < 10 → maskOk i (leAt b (8 * i) 8) = true

section Free

variable (h : b.length = 80) (ha : s.rd Ob.storeAllocatedBytes = 0) (hr : s.dom Ob.hbmHostReserve = [])
include h ha hr

theorem masksWrite_fit (hf : MasksFit b) : masksWrite b s = .ok (s.setDom Ob.hbmInterleaveMasks b) := by
  have hall : (List.range 10).all (fun i => maskOk i (leAt b (8 * i) 8)) = true := by simpa [MasksFit] using hf
  simp only [masksWrite, h, ha, hr, hall]
  rfl

theorem masksWrite_unfit (hf : ¬ MasksFit b) : masksWrite b s = .error Abort.range := by
  have hall : (List.range 10).all (fun i => maskOk i (leAt b (8 * i) 8)) = false := by
    simpa [MasksFit] using hf
  simp only [masksWrite, h, ha, hr, hall]
  rfl

end Free

end Masks

/-- Settles O16, command by command. -/
theorem hbmLifecycle : Obligations.HbmLifecycle := by
  intro s t q pass bad stack temp power data sp
  exact ⟨execHbmFreezeHoldExpiry_tests,
    execHbmFreezeHoldExpiry_holds,
    fun hr h => State.serve_done hr (hbmRelease_frozen (s := s.advance t) h),
    fun hr h => State.serve_aborted hr (hbmRelease_other (s := s.advance t) h),
    fun hr h => State.serve_done hr (hbmRetire_inService (s := s.advance t) h),
    fun hr h => State.serve_aborted hr (hbmRetire_other (s := s.advance t) h),
    execHbmTestComplete_idle pass,
    fun h => ⟨_, rfl, execHbmTestComplete_passes h, execHbmTestComplete_fails h⟩,
    execHbmRetireSwitch_idle,
    execHbmRetireSwitch_noSpare,
    execHbmRetireSwitch_binds,
    execHbmTempCross_within,
    execHbmTempCross_over,
    execHbmPowerStateEntry_sleeps,
    execHbmPowerStateEntry_stays,
    rfl,
    fun hr h => State.serve_aborted hr (masksWrite_badLength h),
    fun hr h ha => State.serve_aborted hr (masksWrite_allocated (s := s.advance t) h ha),
    fun hr h ha hh => ⟨fun hf => State.serve_done hr (masksWrite_fit (s := s.advance t) h ha hh hf),
      fun hf => State.serve_aborted hr (masksWrite_unfit (s := s.advance t) h ha hh hf)⟩⟩

end Sys2Proof.Machine

/-! Proofs about the transfer channels and window B (O17). -/

namespace Sys2Proof.Machine

open Sys2Proof

@[simp] theorem State.xf_advance (s : State) (t c : Nat) : (s.advance t).xf c = s.xf c := rfl
@[simp] theorem State.xst_advance (s : State) (t c : Nat) : (s.advance t).xst c = s.xst c := rfl
@[simp] theorem State.xowner_advance (s : State) (t c : Nat) : (s.advance t).xowner c = s.xowner c := rfl
@[simp] theorem State.linePaces_advance (s : State) (t l : Nat) : (s.advance t).linePaces l = s.linePaces l := rfl

/-! ### Start (R338, R350) -/

section Start

/-- A host may start channel `c`: no stop is under way, and the channel is free or a host's that has ended (R338, R350). -/
def State.XferFree (s : State) (c : Nat) : Prop :=
  s.stopping = false ∧ (s.xowner c = 0 ∨ (s.xowner c = 3 ∧ 6 ≤ s.xst c))

/-- Length, spaces and ranges of channel `c` are ones that R338 allows. -/
def State.XferGood (s : State) (c : Nat) : Prop :=
  let n := s.rd (Ob.xferLength c)
  let ss := s.rd (Ob.xferSourceSpace c)
  let ds := s.rd (Ob.xferDestSpace c)
  let a := s.rd (Ob.xferSource c)
  let b := s.rd (Ob.xferDest c)
  n ≠ 0 ∧ ss < 2 ∧ ds < 2 ∧ rangeOk ss a n = true ∧ rangeOk ds b n = true ∧ (ds = 0 → s.inReserve b n = true)
    ∧ (ss = ds → meets a n b n = false)

/-- The pause causes of channel `c` at its start: those in force, and a power-down of a domain that it touches (R342). -/
def State.startCause (s : State) (c : Nat) : Nat :=
  setBit (s.rd (Ob.xferPauseCause c)) 1 (s.power.draining.any fun d =>
    s.rangeIn d (s.rd (Ob.xferSourceSpace c)) (s.rd (Ob.xferSource c)) (s.rd (Ob.xferLength c))
      || s.rangeIn d (s.rd (Ob.xferDestSpace c)) (s.rd (Ob.xferDest c)) (s.rd (Ob.xferLength c)))

/-- Channel `c` is a host's, with the whole transfer before it, Paused while a cause holds. -/
def State.xferStarted (s : State) (c : Nat) : State :=
  ((s.wrs [(Ob.xferPauseCause c, s.startCause c), (Ob.xferOwner c, 0x300), (Ob.xferState c, if s.startCause c ≠ 0 then 4 else 2),
    (Ob.xferSourceNow c, s.rd (Ob.xferSource c)), (Ob.xferDestNow c, s.rd (Ob.xferDest c)), (Ob.xferRemaining c, s.rd (Ob.xferLength c)),
    (Ob.xferStagedBytes c, 0), (Ob.xferErrorCode c, 0)]).setXf c
      { toRead := s.rd (Ob.xferLength c), writes := (s.xf c).writes }).xferSettle c

variable {s : State} {c : Nat}

theorem State.xferFree_iff :
    (s.stopping || !(s.xowner c == 0 || (s.xowner c == 3 && decide (6 ≤ s.xst c)))) = true ↔ ¬ s.XferFree c := by
  rw [← Bool.not_eq_false, not_iff_not]
  simp [State.XferFree, or_iff_not_imp_left]

theorem State.xferGood_iff :
    let n := s.rd (Ob.xferLength c)
    let ss := s.rd (Ob.xferSourceSpace c)
    let ds := s.rd (Ob.xferDestSpace c)
    let a := s.rd (Ob.xferSource c)
    let b := s.rd (Ob.xferDest c)
    (n == 0 || decide (2 ≤ ss) || decide (2 ≤ ds) || !rangeOk ss a n || !rangeOk ds b n || (ds == 0 && !s.inReserve b n)
      || (ss == ds && meets a n b n)) = true ↔ ¬ s.XferGood c := by
  intro n ss ds a b
  rw [← Bool.not_eq_false, not_iff_not]
  simp [State.XferGood, and_assoc, n, ss, ds, a, b]

theorem transferStart_barred (h : ¬ s.XferFree c) : transferStart c s = .error Abort.state :=
  if_pos (State.xferFree_iff.2 h)

theorem transferStart_bad (h : s.XferFree c) (hg : ¬ s.XferGood c) : transferStart c s = .error Abort.range :=
  (if_neg (mt State.xferFree_iff.1 (not_not_intro h))).trans (if_pos (State.xferGood_iff.2 hg))

theorem transferStart_starts (h : s.XferFree c) (hg : s.XferGood c) : transferStart c s = .ok (s.xferStarted c) := by
  refine ((if_neg (mt State.xferFree_iff.1 (not_not_intro h))).trans (if_neg (mt State.xferGood_iff.1 (not_not_intro hg)))).trans ?_
  simp only [State.xferStarted, State.startCause, bne_iff_ne]
  congr!

end Start

/-! ### Pause and Abort (R336, R342, R343) -/

section PauseAbort

variable {s : State} {c : Nat}

theorem transferPause_device (v : Bool) (h : s.xowner c = 1 ∨ s.xowner c = 2) : transferPause c v s = .error Abort.state :=
  if_pos (by simpa using h)

theorem transferAbort_device (h : s.xowner c = 1 ∨ s.xowner c = 2) : transferAbort c s = .error Abort.state :=
  if_pos (by simpa using h)

section Host

variable (h1 : s.xowner c ≠ 1) (h2 : s.xowner c ≠ 2)
include h1 h2

theorem transferPause_host (v : Bool) : transferPause c v s = .ok ((s.wr (Ob.xferPause c) (b2n v)).xferCause c 0 v) :=
  if_neg (by simp [h1, h2])

theorem transferAbort_idle (h : s.xowner c ≠ 3 ∨ s.xst c < 1 ∨ 5 < s.xst c) : transferAbort c s = .ok s := by
  refine (if_neg (by simp [h1, h2])).trans (if_neg ?_)
  simp only [Bool.and_eq_true, beq_iff_eq, decide_eq_true_eq]
  omega

end Host

theorem transferAbort_running (ho : s.xowner c = 3) (h : 1 ≤ s.xst c) (h5 : s.xst c < 5) :
    transferAbort c s = .ok ((s.setXf c { s.xf c with aborting := true }).xferSettle c) := by
  simp [transferAbort, ho, h, h5.le, h5.ne]

theorem transferAbort_paused (ho : s.xowner c = 3) (h5 : s.xst c = 5) :
    transferAbort c s = .ok (((s.setXf c { s.xf c with aborting := true }).xferDrop c).xferEnd c 7) := by
  simp [transferAbort, ho, h5]

end PauseAbort

/-! ### Beat slots (R340, R341) -/

section BeatSlot

/-- The channels with a beat for a slot of port `port` that have not taken one of the other port in this cycle, in their order. -/
def State.readyFor (s : State) (port : Nat) (err credits : Bool) : List Nat :=
  (List.range 32).filter fun c => !s.tookOther c port && (s.beatOf c err credits).isSome

/-- The channel served first among `f` and those of `l` (R340). -/
def State.firstServed (s : State) (port f : Nat) (l : List Nat) : Nat := l.foldl (fun b d => if s.servedFirst port d b then d else b) f

/-- The slot's own channel, when it takes the slot: an admitted pipeline's with a beat (R340). -/
def State.ownerTakes (s : State) (ready : List Nat) (o : Fin 32) : Prop := o.val ∈ ready ∧ s.xowner o = 1

/-- Channel `w` has taken the slot, which leaves `u`; the others that were ready lose it. -/
def State.slotTaken (s u : State) (port w : Nat) (ready : List Nat) : State :=
  (u.setXf w { (u.xf w).setAge port 0 with took := some (port, s.now) }).losers port w ready

variable {s z : State} {t : Nat} {port : Fin 2} {own : Option (Fin 32)} {err credits : Bool}
  (hz : (s.advance t).stallStreams credits = z)
include hz

theorem execTransferBeatSlot_lost (h : z.readyFor port err credits = []) : execTransferBeatSlot t port own err credits s = .next z := by
  unfold State.readyFor at h
  cases own <;> simp [execTransferBeatSlot, hz, h]

section Ready

variable {f w : Nat} {l : List Nat} {u : State} (h : z.readyFor port err credits = f :: l) (hu : z.beatOf w err credits = some u)
include h hu

theorem execTransferBeatSlot_owner {o : Fin 32} (ho : z.ownerTakes (f :: l) o) (hw : o.val = w) :
    execTransferBeatSlot t port (some o) err credits s = .next (z.slotTaken u port w (f :: l)) := by
  unfold State.readyFor at h
  obtain ⟨hmem, howns⟩ := ho
  subst hw
  simp [execTransferBeatSlot, hz, h, hmem, howns, hu, State.slotTaken, -List.mem_cons]

theorem execTransferBeatSlot_first (ho : ∀ o, own = some o → ¬ z.ownerTakes (f :: l) o) (hw : z.firstServed port f l = w) :
    execTransferBeatSlot t port own err credits s = .next (z.slotTaken u port w (f :: l)) := by
  unfold State.readyFor at h
  unfold State.firstServed at hw
  cases own with
  | none => simp [execTransferBeatSlot, hz, h, hw, hu, State.slotTaken]
  | some o =>
    have hno := ho o rfl
    simp only [State.ownerTakes, List.mem_cons] at hno
    simp [execTransferBeatSlot, hz, h, hno, hw, hu, State.slotTaken]

end Ready

end BeatSlot

/-! ### Requests and completions (R347, R349, R357) -/

section Requests

variable {s : State} {t k : Nat} {line : Fin 48} {beats : Fin 65}

theorem requests_unpaced (h : s.linePaces line = none) :
    execRequestRaise t line beats s = .next (s.advance t) ∧ execRequestWithdraw t line s = .next (s.advance t) := by
  constructor
  · simp [execRequestRaise, h]
  · simp [execRequestWithdraw, h]

section Paced

variable (h : s.linePaces line = some k)
include h

theorem execRequestRaise_noted (hb : beats.val ≠ 0) (hr : (s.xf k).req = none) :
    execRequestRaise t line beats s = .next ((s.advance t).setXf k { s.xf k with req := some beats.val }) := by
  simp [execRequestRaise, h, hb, hr]

theorem execRequestRaise_ignored (hi : beats.val = 0 ∨ (s.xf k).req ≠ none) :
    execRequestRaise t line beats s = .next (s.advance t) := by
  obtain hb | hr := hi
  · simp [execRequestRaise, h, hb]
  · simp [execRequestRaise, h, Option.isSome_iff_ne_none, hr]

theorem execRequestWithdraw_cancels (hr : (s.xf k).req ≠ none) : execRequestWithdraw t line s =
    .next (((s.advance t).setXf k { s.xf k with req := none }).bump (Ob.xferCancelledBursts k)) := by
  simp [execRequestWithdraw, h, Option.isSome_iff_ne_none, hr]

theorem execRequestWithdraw_late (hr : (s.xf k).req = none) (hb : (s.xf k).burst ≠ 0) :
    execRequestWithdraw t line s = .next ((s.advance t).bump (Ob.xferLateWithdrawCount k)) := by
  simp [execRequestWithdraw, h, hr, hb]

theorem execRequestWithdraw_idle (hr : (s.xf k).req = none) (hb : (s.xf k).burst = 0) :
    execRequestWithdraw t line s = .next (s.advance t) := by
  simp [execRequestWithdraw, h, hr, hb]

end Paced

end Requests

section Timeout

variable {s : State} {t : Nat} {ch : Fin 32}

theorem execTransferReadTimeout_aborts {r : XRead} (h : (s.xf ch).reads.find? (fun r => r.data.isNone) = some r)
    (hs : s.rd (Ob.xferSourceSpace ch) = 1) : execTransferReadTimeout t ch s = .next ((s.advance t).xferData ch r.addr 1 []) := by
  simp [execTransferReadTimeout, h, hs]

theorem execTransferReadTimeout_idle
    (h : s.rd (Ob.xferSourceSpace ch) ≠ 1 ∨ (s.xf ch).reads.find? (fun r => r.data.isNone) = none) :
    execTransferReadTimeout t ch s = .next (s.advance t) := by
  rcases hf : (s.xf ch).reads.find? (fun r => r.data.isNone) with _ | r
  · simp [execTransferReadTimeout, hf]
  · have hs := h.resolve_right (by simp [hf])
    simp [execTransferReadTimeout, hf, hs]

end Timeout

/-! ### Window B (R306, R324, R357) -/

section WindowB

variable {s : State} {tag offset : Nat} {data : Bytes} {p : Nat × Nat}

theorem State.windowRead_served (hb : winB p.1 = 1) (h : s.daServed p.1 = true) :
    s.windowRead tag p = s.enqueue { client := 0, tag := tag, da := p.1, len := p.2, write := none } :=
  (if_pos hb).trans (if_pos h)

theorem State.windowRead_unserved (hb : winB p.1 = 1) (h : s.daServed p.1 = false) :
    s.windowRead tag p = s.emit (.complete 0 tag false []) :=
  (if_pos hb).trans (if_neg (Bool.eq_false_iff.1 h))

theorem State.windowRead_pool (hb : winB p.1 = 2) :
    s.windowRead tag p = s.emit (.complete 0 tag true ((List.range p.2).map fun i => s.poolByte (p.1 + i))) :=
  (if_neg (hb.trans_ne (by decide))).trans (if_pos hb)

theorem State.windowRead_reserved (h1 : winB p.1 ≠ 1) (h2 : winB p.1 ≠ 2) :
    s.windowRead tag p = s.emit (.complete 0 tag true (List.replicate p.2 0)) :=
  (if_neg h1).trans (if_neg h2)

theorem State.windowWrite_queued (hr : s.inReserve p.1 p.2 = true) (h : s.daServed p.1 = true) : s.windowWrite offset data p =
    s.enqueue { client := 0, tag := 0, da := p.1, len := p.2, write := some ((data.drop (p.1 - offset)).take p.2) } :=
  if_pos (by simp [hr, h])

theorem State.windowWrite_discarded (h : s.inReserve p.1 p.2 = false ∨ s.daServed p.1 = false) :
    s.windowWrite offset data p = s.bump Ob.diagDiscardedHostWrites :=
  if_neg (by obtain h | h := h <;> simp [h])

end WindowB

/-- Settles O17, command by command. -/
theorem transferCommands : Obligations.TransferCommands := by
  intro s t addr tag offset len ch v err credits ok port own line beats data w k
  refine ⟨fun hr h => State.serve_aborted hr (transferStart_barred (s := s.advance t) h),
    fun hr h hg => State.serve_aborted hr (transferStart_bad (s := s.advance t) h hg),
    fun hr h hg => State.serve_done hr (transferStart_starts (s := s.advance t) h hg),
    fun hr h => ⟨State.serve_aborted hr (transferPause_device (s := s.advance t) v h),
      State.serve_aborted hr (transferAbort_device (s := s.advance t) h)⟩,
    fun hr h1 h2 => State.serve_done hr (transferPause_host (s := s.advance t) h1 h2 v),
    fun hr h1 h2 h => State.serve_done hr (transferAbort_idle (s := s.advance t) h1 h2 h),
    fun hr ho h h5 => State.serve_done hr (transferAbort_running (s := s.advance t) ho h h5),
    fun hr ho h5 => State.serve_done hr (transferAbort_paused (s := s.advance t) ho h5),
    execTransferBeatSlot_lost rfl,
    fun f l h hw u hu => ?slot,
    requests_unpaced,
    execRequestRaise_noted,
    execRequestRaise_ignored,
    execRequestWithdraw_cancels,
    execRequestWithdraw_late,
    execRequestWithdraw_idle,
    rfl,
    fun r => execTransferReadTimeout_aborts,
    execTransferReadTimeout_idle,
    rfl,
    rfl,
    fun p => ⟨State.windowRead_served, State.windowRead_unserved, State.windowRead_pool, State.windowRead_reserved,
      State.windowWrite_queued, State.windowWrite_discarded⟩⟩
  case slot =>
    rw [h]
    cases own with
    | none => exact execTransferBeatSlot_first (own := none) rfl h hu nofun hw.symm
    | some o =>
      by_cases ho : ((s.advance t).stallStreams credits).ownerTakes (f :: l) o
      · exact execTransferBeatSlot_owner rfl h hu ho (hw.trans (if_pos (h ▸ ho))).symm
      · exact execTransferBeatSlot_first (own := some o) rfl h hu (by rintro _ ⟨rfl⟩; exact ho) (hw.trans (if_neg (h ▸ ho))).symm

end Sys2Proof.Machine

/-! Proofs about the doorbells of the host's stream rings (O54). -/

namespace Sys2Proof.Machine

open Sys2Proof

/-! ### Counters -/

theorem State.rd_bump_same {s : State} {k : Nat} (h : s.rd k + 1 < 2 ^ keyWidth k) : (s.bump k).rd k = s.rd k + 1 := by
  unfold State.bump State.bumpBy
  rw [if_pos h, State.rd_wr_same]

/-- BadDoorbells is an UNSIGNED32 of each of the 32 rings (R366). -/
theorem keyWidth_ringBadDoorbells (ring : Fin 32) : keyWidth (Ob.ringBadDoorbells ring) = 32 := by
  revert ring
  decide

theorem ringConsumedPages_ne_ringBadDoorbells (r : Nat) : Ob.ringConsumedPages r ≠ Ob.ringBadDoorbells r := by
  unfold Ob.ringConsumedPages Ob.ringBadDoorbells
  omega

/-! ### Doorbells (R356) -/

/-- A ring takes a doorbell value from its ConsumedPages to its WrittenPages, both included (R356). -/
def State.DoorbellTaken (s : State) (ring : Fin 32) (value : Nat) : Prop :=
  s.rd (Ob.ringConsumedPages ring) ≤ value ∧ value ≤ s.rd (Ob.ringWrittenPages ring)

section Doorbell

variable {s : State} {ring : Fin 32} {value : Nat} (t : Nat)

theorem execDoorbellWrite_partial : execDoorbellWrite t ring value false s = .next (s.advance t) := rfl

theorem execDoorbellWrite_taken (h : s.DoorbellTaken ring value) :
    execDoorbellWrite t ring value true s = .next ((s.advance t).wr (Ob.ringConsumedPages ring) value) :=
  congrArg Host.Outcome.next (if_pos h)

theorem execDoorbellWrite_bad (h : ¬ s.DoorbellTaken ring value) :
    execDoorbellWrite t ring value true s = .next ((s.advance t).bump (Ob.ringBadDoorbells ring)) :=
  congrArg Host.Outcome.next (if_neg h)

end Doorbell

/-- Settles O54: a partial write, a value taken, and any other value are the three cases of DOORBELL_WRITE, and each of the last
two writes one register. -/
theorem doorbells : Obligations.Doorbells := by
  intro s t value ring now c bad taken
  refine ⟨execDoorbellWrite_partial t, fun h => ?taken, fun h hroom => ?bad⟩
  case taken =>
    exact ⟨now.wr c value, execDoorbellWrite_taken t h, now.wr_only c value, now.rd_wr_same c value,
      fun k hk => now.rd_wr_ne c value k hk⟩
  case bad =>
    have hfits : now.rd bad + 1 < 2 ^ keyWidth bad := by
      rw [keyWidth_ringBadDoorbells]
      exact hroom
    exact ⟨now.bump bad, execDoorbellWrite_bad t h, now.bump_only bad, State.rd_bump_same hfits,
      now.rd_bump_ne bad c (ringConsumedPages_ne_ringBadDoorbells ring), fun k hk => now.rd_bump_ne bad k hk⟩

end Sys2Proof.Machine

/-! Proofs about the join links and the forming of an array: bring-up and retraining (O28), Imports and Apply (O31). -/

namespace Sys2Proof.Machine

open Sys2Proof

/-! ### Commands that act under one condition -/

section Guarded

variable {p : Prop} [Decidable p] {u v : State}

/-- A command that acts under a condition acts where it holds. -/
theorem next_if_pos (h : p) : (.next (if p then u else v) : Outcome) = .next u := congrArg _ (if_pos h)

/-- A command that acts under a condition does the other thing where it fails. -/
theorem next_if_neg (h : ¬ p) : (.next (if p then u else v) : Outcome) = .next v := congrArg _ (if_neg h)

end Guarded

/-! ### The stages of a join link (R387, R389-R391) -/

theorem joinRetrain_active {s : State} {k : Nat} (h : s.rd (Ob.joinState k) = 6) : joinRetrain k s = .ok (s.retrainPort k) :=
  congrArg _ (if_pos h)

theorem joinRetrain_inactive {s : State} {k : Nat} (h : s.rd (Ob.joinState k) ≠ 6) : joinRetrain k s = .ok s :=
  congrArg _ (if_neg h)

/-- Settles O28: each event of a port acts in the states of its own stage and in no other. -/
theorem joinLinks : Obligations.JoinLinks := by
  intro s t pf foms copies
  refine ⟨?detect, ?noDetect, ?trained, ?noTrained, ?lock, ?noLock, ?exchange, ?noExchange, ?held, ?noHeld, ?timeout, ?noTimeout,
    ?retry, ?noRetry, ?retrain, ?degrade, ?noDegrade⟩
  case detect | trained | lock | exchange | held | timeout | retry | degrade => exact next_if_pos
  case noDetect | noTrained | noLock | noExchange | noHeld | noTimeout | noRetry | noDegrade => exact next_if_neg
  case retrain =>
    exact fun hr => ⟨fun h => State.serve_done hr (joinRetrain_active h), fun h => State.serve_done hr (joinRetrain_inactive h)⟩

/-! ### Imports (R141, R404) -/

/-- An entry names a line that another unit drives, or two entries name one line. -/
def State.importsClash (s : State) (b : Bytes) : Bool :=
  ((importList b).any fun e => (s.lineS e.1).cls == 1 || (s.lineS e.1).cls == 2) || !decide ((importList b).map fun e => e.1).Nodup

/-- An entry has a reserved octet that is not 0, or a position beyond 7. -/
def importsOdd (b : Bytes) : Bool :=
  ((List.range (importList b).length).any fun i => leAt b (4 * i) 1 != 0) || (importList b).any fun e => decide (8 ≤ e.2.1)

section Imports

variable {s : State} {b : Bytes}

theorem importsWrite_length (h : b.length % 4 ≠ 0 ∨ 256 < b.length) : importsWrite b s = .error Abort.length :=
  if_pos (by simpa using h)

variable (hq : b.length % 4 = 0) (hm : b.length ≤ 256)

include hq hm

theorem importsWrite_clash (hc : s.importsClash b = true) : importsWrite b s = .error Abort.state :=
  (if_neg (by simpa [hq] using hm)).trans (if_pos hc)

variable (hc : s.importsClash b = false)

include hc

theorem importsWrite_noClash : importsWrite b s =
    if (List.range (importList b).length).any fun i => leAt b (4 * i) 1 != 0 then .error Abort.range
    else if (importList b).any fun e => decide (8 ≤ e.2.1) then .error Abort.range
    else if (s.importsSet b).exportBreak.isSome then .error Abort.range
    else if (s.importsSet b).fabricBroken then .error Abort.state
    else .ok (s.importsSet b) :=
  (if_neg (by simpa [hq] using hm)).trans (if_neg (Bool.eq_false_iff.1 hc))

theorem importsWrite_range (h : importsOdd b = true ∨ (s.importsSet b).exportBreak ≠ none) :
    importsWrite b s = .error Abort.range := by
  rw [importsWrite_noClash hq hm hc]
  rcases h with h | h
  · rcases Bool.or_eq_true_iff.1 h with hz | hp
    · exact if_pos hz
    · rw [if_pos hp, ite_self]
  · rw [if_pos (Option.isSome_iff_ne_none.2 h), ite_self, ite_self]

variable (ho : importsOdd b = false) (he : (s.importsSet b).exportBreak = none)

include ho he

theorem importsWrite_inBounds : importsWrite b s =
    if (s.importsSet b).fabricBroken then .error Abort.state else .ok (s.importsSet b) := by
  obtain ⟨hz, hp⟩ := Bool.or_eq_false_iff.1 ho
  rw [importsWrite_noClash hq hm hc, hz, hp, he]
  rfl

theorem importsWrite_broken (hf : (s.importsSet b).fabricBroken = true) : importsWrite b s = .error Abort.state :=
  (importsWrite_inBounds hq hm hc ho he).trans (if_pos hf)

theorem importsWrite_kept (hf : (s.importsSet b).fabricBroken = false) : importsWrite b s = .ok (s.importsSet b) :=
  (importsWrite_inBounds hq hm hc ho he).trans (if_neg (Bool.eq_false_iff.1 hf))

end Imports

/-! ### Apply of an array (R394, R395) -/

/-- Nothing runs that an Apply would disturb (R394). -/
def State.ArrayIdle (s : State) : Prop :=
  s.anyAdmitted = false ∧ s.anyTdc = false ∧ s.imports = [] ∧ s.stepForbiddenBase = false

/-- The configuration and this unit's part in it are in force, and the array is Forming. -/
def State.arrayFormed (s : State) : State :=
  ({ s with posn := [], arr := { s.arr with
    config := s.dom Ob.arrArrayConfig, pos := s.rd Ob.arrPosition, applyResult := some 0
    inbox := [], commit := none } } : State).wrs [(Ob.arrArrayState, 1), (Ob.arrConfigDigest, crc32 (s.dom Ob.arrArrayConfig))]

section Apply

variable {s : State} {ft : Bool}

theorem State.arrayIdle_iff :
    (s.anyAdmitted || s.anyTdc || !s.imports.isEmpty || s.stepForbiddenBase) = true ↔ ¬ s.ArrayIdle := by
  simp [State.ArrayIdle, Classical.or_iff_not_imp_left]

theorem arrayApply_busy (h : ¬ s.ArrayIdle) : arrayApply ft s = .error Abort.state := if_pos (State.arrayIdle_iff.2 h)

variable (h : s.ArrayIdle)

include h

theorem arrayApply_cannotForm (hf : ft = false ∨ s.arrayOk (s.dom Ob.arrArrayConfig) (s.rd Ob.arrPosition) = false) :
    arrayApply ft s = .ok { s with arr := { s.arr with applyResult := some 0x4F } } :=
  (if_neg (mt State.arrayIdle_iff.1 (not_not.2 h))).trans (if_pos (by simpa [or_comm] using hf))

theorem arrayApply_forms (hf : s.arrayOk (s.dom Ob.arrArrayConfig) (s.rd Ob.arrPosition) = true) : arrayApply true s =
    .ok ((List.range 4).foldl State.applyPort
      { s.arrayFormed with time := { s.arrayFormed.time with leadQuality := none } }).refreshArray :=
  (if_neg (mt State.arrayIdle_iff.1 (not_not.2 h))).trans (if_neg (by simp [hf]))

end Apply

/-- Settles O31, check by check in the order of R141 and of R394. -/
theorem arrayForming : Obligations.ArrayForming := by
  intro s t b
  exact ⟨fun hr h => State.serve_aborted hr (importsWrite_length h),
    fun hr hq hm hc => State.serve_aborted hr (importsWrite_clash hq hm hc),
    fun hr hq hm hc h => State.serve_aborted hr (importsWrite_range hq hm hc h),
    fun hr hq hm hc ho he => ⟨fun hf => State.serve_aborted hr (importsWrite_broken hq hm hc ho he hf),
      fun hf => State.serve_done hr (importsWrite_kept hq hm hc ho he hf)⟩,
    fun hr h ft => State.serve_aborted hr (arrayApply_busy h),
    fun hr h ft hf => State.serve_done hr (arrayApply_cannotForm h hf),
    fun hr h hf => State.serve_done hr (arrayApply_forms h hf)⟩

end Sys2Proof.Machine

/-! Proofs about clocks and time: the states of SYN-T (O8), steps of device time (O10), the timing stream (O11), the Descriptor of a
TIME128 (O55). -/

namespace Sys2Proof.Machine

open Sys2Proof

/-! ### SYNT_APPLY (R412, R413, R415) -/

@[simp] theorem State.calUnlock_syn (s : State) : s.calUnlock.syn = s.syn := (congrArg State.syn (calUnlock_frame s)).trans rfl
@[simp] theorem State.calUnlock_time (s : State) : s.calUnlock.time = s.time := (congrArg State.time (calUnlock_frame s)).trans rfl
@[simp] theorem State.calUnlock_now (s : State) : s.calUnlock.now = s.now := (congrArg State.now (calUnlock_frame s)).trans rfl

/-- The limits of R412 on the settings that an Apply would take. -/
def State.synWithin (s : State) : Bool :=
  synLimits (s.fRefOf (s.rd Ob.synSource)) (s.rd Ob.synRefMode) (s.rd Ob.synLoopMode) (s.rd Ob.synMultiplier)

/-- An accepted Apply: device time stops, the settings are taken, and State is Qualifying. -/
def State.synQualifying (s : State) : State :=
  let fRef := s.fRefOf (s.rd Ob.synSource)
  let mode := s.rd Ob.synRefMode
  { (s.calUnlock.wr Ob.synState 1) with
    time := { s.time with counting := false, held := s.devNow, awaitRtc := false }
    syn := { s.syn with
      applyResult := some 0, source := s.rd Ob.synSource, fRef := fRef
      fInjNext := twiceInj fRef mode / 2
      fTNext := twiceFT (twiceInj fRef mode) (s.rd Ob.synLoopMode) (s.rd Ob.synMultiplier) / 2
      lockedOnce := false, lostAt := s.now, slewing := false } }

section Apply

variable {s : State}

theorem synApply_held (h : ¬ (s.synBusy = false ∧ s.tapHolds = false)) : synApply s = .error Abort.state :=
  if_pos (by simpa [Classical.or_iff_not_imp_left] using h)

variable (h : s.synBusy = false ∧ s.tapHolds = false)

include h

theorem synApply_outside (hw : s.synWithin = false) :
    synApply s = .ok { s with syn := { s.syn with applyResult := some 0x4F } } :=
  (if_neg (by simp [h])).trans (if_pos (congrArg (! ·) hw))

theorem synApply_within (hw : s.synWithin = true) : synApply s = .ok s.synQualifying := by
  refine (if_neg (by simp [h])).trans ((if_neg (Bool.not_eq_true _ ▸ congrArg (! ·) hw)).trans ?_)
  simp only [State.synQualifying, State.wr_time, State.wr_syn, State.wr_now, State.calUnlock_time, State.calUnlock_syn,
    State.calUnlock_now]

end Apply

/-! ### Locked (R415, R416, R423, R430) -/

theorem State.refreshFabric_doms (s : State) : s.refreshFabric.doms = s.doms :=
  (congrArg State.doms s.refreshFabric_only).trans rfl

theorem State.refreshFabric_dom (s : State) (k : Nat) : s.refreshFabric.dom k = s.dom k := State.dom_congr s.refreshFabric_doms k

/-- Recomputing the fabric's readouts after a change of registers and DOMAINs is a change of registers and DOMAINs. -/
theorem State.refreshFabric_of_frame {s u : State} (h : u = { s with regs := u.regs, doms := u.doms }) :
    u.refreshFabric = { s with regs := u.refreshFabric.regs, doms := u.refreshFabric.doms } := by
  have hf := u.refreshFabric_only
  rw [u.refreshFabric_doms]
  generalize u.refreshFabric.regs = r at hf ⊢
  generalize u.regs = a at h
  generalize u.doms = b at h ⊢
  rw [hf, h]

/-- The registers of SYN-T at Locked. -/
def State.lockRegs (s : State) : State :=
  ((s.wr Ob.synState 3).wr Ob.synFT s.syn.fTNext).wr Ob.synInjectionFreq s.syn.fInjNext

/-- The clock of the settings applied is in force: f_T, the injection frequency, the engines' ratios, and the readouts that follow
them. -/
def State.newClock (s : State) : State :=
  ((s.lockRegs.setDom Ob.synEngineRatio (engineRatioBytes s.syn.fTNext)).setDom Ob.synEngineClock
    (engineClockBytes s.syn.fTNext)).refreshFabric

theorem State.newClock_frame (s : State) : s.newClock = { s with regs := s.newClock.regs, doms := s.newClock.doms } :=
  State.refreshFabric_of_frame rfl

section NewClock

variable (s : State)

/-- The fabric's readouts are none of SYN-T's registers. -/
theorem State.newClock_rd (k : Nat) (h : k ∈ [Ob.synState, Ob.synFT, Ob.synInjectionFreq]) :
    s.newClock.rd k = s.lockRegs.rd k := by
  have hk : k < 0x300000 := by
    revert k
    decide
  refine State.refreshFabric_rd _ k (fun i => ?_) ?_ ?_ ?_
  · unfold Ob.patHorizon
    omega
  all_goals
    rintro rfl
    exact absurd h (by decide)

theorem State.newClock_state : s.newClock.rd Ob.synState = 3 := by
  rw [s.newClock_rd _ (by decide), State.lockRegs, State.rd_wr_ne _ _ _ _ (by decide), State.rd_wr_ne _ _ _ _ (by decide),
    State.rd_wr_same]

theorem State.newClock_fT : s.newClock.rd Ob.synFT = s.syn.fTNext := by
  rw [s.newClock_rd _ (by decide), State.lockRegs, State.rd_wr_ne _ _ _ _ (by decide), State.rd_wr_same]

theorem State.newClock_injection : s.newClock.rd Ob.synInjectionFreq = s.syn.fInjNext := by
  rw [s.newClock_rd _ (by decide), State.lockRegs, State.rd_wr_same]

theorem State.newClock_ratio : s.newClock.dom Ob.synEngineRatio = engineRatioBytes s.syn.fTNext := by
  rw [State.newClock, State.refreshFabric_dom, State.dom_setDom, if_neg (by decide), State.dom_setDom_same]

theorem State.newClock_engineClock : s.newClock.dom Ob.synEngineClock = engineClockBytes s.syn.fTNext := by
  rw [State.newClock, State.refreshFabric_dom, State.dom_setDom_same]

variable (t : Nat)

theorem execSyntLocked_acquiring (h : s.rd Ob.synState = 2) :
    execSyntLocked t s = .next (syntLockedBody s.second (s.advance t).newClock) := next_if_pos h

end NewClock

/-! ### Loss of the reference and return (R416, R417) -/

section Reference

variable {s : State} {t : Nat}

/-- Locked goes to Holdover: the loss counts, and HoldoverTime starts at 0. -/
def State.holdover (s : State) : State := (((s.wr Ob.synState 4).bump Ob.synLossCount).wr Ob.synHoldoverTime 0).statsUnlocked

theorem execReferenceLoss_locked (h : s.rd Ob.synState = 3) : execReferenceLoss t s = .next
    ({ (s.advance t).holdover with syn := { (s.advance t).holdover.syn with
      lostAt := (s.advance t).holdover.now, slewing := false } } : State).calUnlock := next_if_pos h

theorem execReferenceLoss_acquiring (h : s.rd Ob.synState = 2) :
    execReferenceLoss t s = .next ((s.advance t).wr Ob.synState 1) := by
  simp [execReferenceLoss, h]

theorem execReferenceLoss_holdover (h : s.rd Ob.synState = 4) :
    execReferenceLoss t s = .next { s.advance t with syn := { s.syn with slewing := false } } := by
  simp [execReferenceLoss, h]

theorem execReferenceLoss_idle (h2 : s.rd Ob.synState ≠ 2) (h3 : s.rd Ob.synState ≠ 3) (h4 : s.rd Ob.synState ≠ 4) :
    execReferenceLoss t s = .next (s.advance t) := by
  simp [execReferenceLoss, h2, h3, h4]

end Reference

/-- Settles O8: each event acts in its own states of SYN-T; what Locked brings into force is `State.newClock`. -/
theorem synthesisStates : Obligations.SynthesisStates := by
  intro s t measured
  refine ⟨fun hr h => State.serve_aborted hr (synApply_held h),
    fun hr h hw => State.serve_done hr (synApply_outside h hw),
    fun hr h hw => State.serve_done hr (synApply_within h hw),
    fun h hn => next_if_pos ⟨h, hn⟩,
    fun h => next_if_neg (not_and_or.2 h),
    next_if_pos, next_if_neg, ?locked, next_if_neg,
    fun h => ⟨_, rfl, execReferenceLoss_locked h⟩,
    execReferenceLoss_acquiring, execReferenceLoss_holdover, execReferenceLoss_idle,
    next_if_pos, next_if_neg,
    fun h hs => next_if_pos ⟨h, hs⟩,
    fun h => next_if_neg (not_and_or.2 (h.imp_right (Bool.eq_false_iff.1 ·)))⟩
  case locked =>
    intro h
    obtain ⟨hregs, hdoms, honce, hfirst⟩ :=
      syntLockedBody_spec s (s.advance t) (s.advance t).newClock (s.advance t).newClock_frame rfl rfl
    exact ⟨_, execSyntLocked_acquiring s t h,
      (State.rd_congr hregs _).trans (s.advance t).newClock_state, (State.rd_congr hregs _).trans (s.advance t).newClock_fT,
      (State.rd_congr hregs _).trans (s.advance t).newClock_injection, (State.dom_congr hdoms _).trans (s.advance t).newClock_ratio,
      (State.dom_congr hdoms _).trans (s.advance t).newClock_engineClock, honce, hfirst⟩

/-! ### SetSeconds and the second boundaries (R430, R431) -/

section Seconds

variable {s : State} {v : Nat}

theorem setSeconds_held (h : s.counts = false ∨ s.stepForbidden = true) : setSeconds v s = .error Abort.state :=
  if_pos (by simpa using h)

section Steppable

variable (hc : s.counts = true) (hf : s.stepForbidden = false)

include hc hf

theorem setSeconds_tooLarge (hv : 2 ^ 48 ≤ v) : setSeconds v s = .error Abort.range :=
  (if_neg (by simp [hc, hf])).trans (if_pos hv)

theorem setSeconds_waits (hv : v < 2 ^ 48) :
    setSeconds v s = .ok { s with time := { s.time with setPending := some v, setStatus := some 0 } } :=
  (if_neg (by simp [hc, hf])).trans (if_neg (Nat.not_le.2 hv))

end Steppable

/-- The RTC has counted a second. -/
def State.rtcCounted (s : State) : State := { s with time := { s.time with rtcSeconds := s.time.rtcSeconds + 1 } }

theorem State.rtcSecond_counts (h : s.time.awaitRtc = false ∨ s.synRuns = false) : s.rtcSecond = s.rtcCounted :=
  if_neg (Bool.eq_false_iff.1 (Bool.and_eq_false_iff.2 h))

/-- The first step after an Apply. -/
theorem State.rtcSecond_steps (hw : s.time.awaitRtc = true) (hs : s.synRuns = true) :
    s.rtcSecond = s.rtcCounted.step430 (((s.time.rtcSeconds + 1) * s.second : Nat) : Int) 0 none false :=
  if_pos (Bool.and_eq_true_iff.2 ⟨hw, hs⟩)

theorem State.deviceSecond_stopped (h : s.counts = false) : s.deviceSecond = s := if_pos (congrArg (! ·) h)

section Counting

variable (hc : s.counts = true)

include hc

/-- Without a pending SetSeconds an RTC that awaits realignment takes the Seconds, and nothing else happens. -/
theorem State.deviceSecond_plain (hp : s.time.setPending = none) : s.deviceSecond =
    if s.time.rtcRealign then { s with time := { s.time with rtcSeconds := s.devNow / s.second, rtcRealign := false } } else s := by
  simp [State.deviceSecond, hc, hp]

theorem State.deviceSecond_sets (hp : s.time.setPending = some v) (hr : s.time.rtcRealign = false) :
    s.deviceSecond = s.takeSeconds v := by
  simp [State.deviceSecond, hc, hp, hr]

/-- An RTC that awaited realignment takes the Seconds of before the step, and awaits it anew. -/
theorem State.deviceSecond_setsRealigning (hp : s.time.setPending = some v) (hr : s.time.rtcRealign = true) :
    s.deviceSecond = { s.takeSeconds v with time := { (s.takeSeconds v).time with
      rtcSeconds := (s.takeSeconds v).devNow / (s.takeSeconds v).second, rtcRealign := true } } := by
  simp [State.deviceSecond, hc, hp, hr]

end Counting

end Seconds

/-! ### SYNC_IN (R432, R433) -/

section SyncIn

variable {s : State} {t : Nat}

/-- A stamped edge passed less than 100 ms ago. -/
theorem State.syncSoon_iff : s.syncSoon = true ↔ ∃ e, s.time.syncEdgeAt = some e ∧ s.now < e + s.us 100000 := by
  unfold State.syncSoon
  cases s.time.syncEdgeAt with
  | none => simp
  | some e => simp

/-- An edge is not heard: SYNC_IN is off, time does not count, or the previous edge is too near. -/
theorem execSyncInEdge_unheard (h : s.rd Ob.timeSyncMode = 0 ∨ s.counts = false ∨ (s.advance t).syncSoon = true) :
    execSyncInEdge t s = .next (s.advance t) := by
  refine next_if_pos ?_
  rw [Bool.or_eq_true, Bool.or_eq_true, beq_iff_eq, Bool.not_eq_true', or_assoc]
  exact h.imp_right Or.symm

theorem execSyncInEdge_heard (hm : s.rd Ob.timeSyncMode ≠ 0) (hc : s.counts = true) (hs : (s.advance t).syncSoon = false) :
    execSyncInEdge t s = .next ((s.advance t).syncEdge (((s.advance t).devNow : Int) - sint 32 (s.rd Ob.timeSyncDelay)).toNat) := by
  refine next_if_neg ?_
  rw [Bool.or_eq_true, Bool.or_eq_true, beq_iff_eq, Bool.not_eq_true', or_assoc]
  rintro (h0 | hsoon | hstop)
  · exact hm h0
  · exact Bool.eq_false_iff.1 hs hsoon
  · exact Bool.eq_false_iff.1 hstop hc

/-- The edge is the latest one stamped. -/
def State.edgeSeen (s : State) : State := { s with time := { s.time with syncEdgeAt := some s.now } }

/-- SyncArm has stood for a millisecond (R433). -/
def State.SyncArmed (s : State) : Prop := s.rd Ob.timeSyncState = 1 ∧ s.time.syncArmedAt + s.us 1000 ≤ s.now

variable {st : Nat}

theorem State.syncEdge_measures (hm : s.rd Ob.timeSyncMode = 1) : s.syncEdge st = s.edgeSeen.wr Ob.timeSyncLast (s.stamp st) :=
  if_pos hm

theorem State.syncEdge_set (hm : s.rd Ob.timeSyncMode = 2) : s.syncEdge st =
    if s.rd Ob.timeSyncState = 1 ∧ s.time.syncArmedAt + s.us 1000 ≤ s.now then
      if s.stepForbidden then s.edgeSeen.wr Ob.timeSyncState 3
      else
        let edge := s.rd Ob.timeSyncSeconds * s.second
        let s1 := s.edgeSeen.step430 ((edge : Int) + sint 32 (s.rd Ob.timeSyncDelay)) 2 none true
        ((s1.wr Ob.timeSyncState 2).wr Ob.timeSyncMode 3).wr Ob.timeSyncLast (s1.stamp edge)
    else s.edgeSeen.wr Ob.timeSyncLast (s.stamp st) :=
  (if_neg (by rw [hm]; decide)).trans (if_pos hm)

theorem State.syncEdge_unarmed (hm : s.rd Ob.timeSyncMode = 2) (ha : ¬ s.SyncArmed) :
    s.syncEdge st = s.edgeSeen.wr Ob.timeSyncLast (s.stamp st) := (State.syncEdge_set hm).trans (if_neg ha)

theorem State.syncEdge_voided (hm : s.rd Ob.timeSyncMode = 2) (ha : s.SyncArmed) (hf : s.stepForbidden = true) :
    s.syncEdge st = s.edgeSeen.wr Ob.timeSyncState 3 := (State.syncEdge_set hm).trans ((if_pos ha).trans (if_pos hf))

/-- The armed edge steps device time to SyncSeconds, and SYNC_IN goes on to Check. -/
theorem State.syncEdge_steps (hm : s.rd Ob.timeSyncMode = 2) (ha : s.SyncArmed) (hf : s.stepForbidden = false) :
    ∃ u : State, u = s.edgeSeen.step430
        (((s.rd Ob.timeSyncSeconds * s.second : Nat) : Int) + sint 32 (s.rd Ob.timeSyncDelay)) 2 none true
      ∧ s.syncEdge st = ((u.wr Ob.timeSyncState 2).wr Ob.timeSyncMode 3).wr Ob.timeSyncLast
          (u.stamp (s.rd Ob.timeSyncSeconds * s.second)) :=
  ⟨_, rfl, (State.syncEdge_set hm).trans ((if_pos ha).trans (if_neg (Bool.eq_false_iff.1 hf)))⟩

/-- In Check the edge gives the residual, and a small one confirms. -/
theorem State.syncEdge_checks (hm : 2 < s.rd Ob.timeSyncMode) :
    ∃ u : State, u = (s.edgeSeen.wr Ob.timeSyncLast (s.stamp st)).wr Ob.timeSyncResidual
        (uint 64 (signedFine s.second (st % s.second)))
      ∧ s.syncEdge st = if (signedFine s.second (st % s.second)).natAbs ≤ s.rd Ob.timeSyncTolerance then
          { u with time := { u.time with syncGoodAt := some s.now } } else u :=
  ⟨_, rfl, (if_neg (by omega)).trans (if_neg (by omega))⟩

theorem syncArm_held (h : s.rd Ob.timeSyncMode ≠ 2 ∨ s.stepForbidden = true) : syncArm s = .error Abort.state :=
  if_pos (by simpa using h)

theorem syncArm_arms (hm : s.rd Ob.timeSyncMode = 2) (hf : s.stepForbidden = false) :
    syncArm s = .ok { s.wr Ob.timeSyncState 1 with time := { s.time with syncArmedAt := s.now } } :=
  if_neg (by simp [hm, hf])

end SyncIn

/-! ### Adopt (R437) -/

section Adopt

variable {s : State} {m : StreamMsg}

theorem adopt_held (h : s.rd Ob.timeStreamState ≠ 2 ∨ s.counts = false ∨ s.stepForbidden = true ∨ s.time.lastMsg = none) :
    adopt s = .error Abort.state := by
  by_cases hg : (s.rd Ob.timeStreamState != 2 || !s.counts || s.stepForbidden) = true
  · exact if_pos hg
  · simp only [Bool.or_eq_true, bne_iff_ne, Bool.not_eq_true', not_or] at hg
    obtain ⟨⟨hst, hc⟩, hf⟩ := hg
    have hmsg : s.time.lastMsg = none := ((h.resolve_left hst).resolve_left hc).resolve_left hf
    simp [adopt, hmsg]

theorem adopt_steps (hst : s.rd Ob.timeStreamState = 2) (hc : s.counts = true) (hf : s.stepForbidden = false)
    (hm : s.time.lastMsg = some m) :
    ∃ u v : State, u = s.step430 ((s.devNow : Int) - sint 32 (s.rd Ob.timeStreamResidual)) 3 (some m.epoch) true
      ∧ v = (u.wr Ob.timeStreamResidual 0).wr Ob.timeStreamMismatch 0
      ∧ adopt s = .ok { v with time := { v.time with residuals := [], streamConfirms := true } } := by
  refine ⟨_, _, rfl, rfl, ?_⟩
  simp [adopt, hst, hc, hf, hm]

end Adopt

/-- Settles O10: the events of device time one by one; what every step does is `step430_facts`. -/
theorem deviceTime : Obligations.DeviceTime := by
  intro s t v e T cls ep m re
  have soon : ∀ {e : Nat}, s.time.syncEdgeAt = some e ∧ (s.advance t).now < e + s.us 100000 → (s.advance t).syncSoon = true :=
    fun {e} h => State.syncSoon_iff.2 ⟨e, h⟩
  have late : (∀ e, s.time.syncEdgeAt = some e → e + s.us 100000 ≤ (s.advance t).now) → (s.advance t).syncSoon = false :=
    fun h => Bool.eq_false_iff.2 (mt State.syncSoon_iff.1 fun ⟨e, he, hlt⟩ => Nat.not_lt.2 (h e he) hlt)
  refine ⟨fun hr h => State.serve_aborted hr (setSeconds_held h),
    fun hr hc hf hv => State.serve_aborted hr (setSeconds_tooLarge hc hf hv),
    fun hr hc hf hv => State.serve_done hr (setSeconds_waits hc hf hv),
    fun h => congrArg Host.Outcome.next (State.rtcSecond_counts (s := s.advance t) h),
    fun hw hs => congrArg Host.Outcome.next (State.rtcSecond_steps (s := s.advance t) hw hs),
    fun hc => congrArg Host.Outcome.next (State.deviceSecond_stopped hc),
    fun hc hp => congrArg Host.Outcome.next (State.deviceSecond_plain hc hp),
    fun hc hp => ⟨_, _, rfl, rfl, fun hr => congrArg Host.Outcome.next (State.deviceSecond_sets hc hp hr),
      fun hr => congrArg Host.Outcome.next (State.deviceSecond_setsRealigning hc hp hr)⟩,
    fun h => execSyncInEdge_unheard (h.imp_right (Or.imp_right soon)),
    ?measures, ?unarmed, ?voided, ?steps, ?checks,
    fun hr h => State.serve_aborted hr (syncArm_held h),
    fun hr hm hf => State.serve_done hr (syncArm_arms hm hf),
    fun hr h => State.serve_aborted hr (adopt_held h),
    ?adopts, step430_facts _ T cls ep re⟩
  case measures =>
    rintro ⟨hon, hc, hl⟩ hm
    exact (execSyncInEdge_heard hon hc (late hl)).trans (congrArg _ (State.syncEdge_measures hm))
  case unarmed =>
    rintro ⟨hon, hc, hl⟩ hm ha
    exact (execSyncInEdge_heard hon hc (late hl)).trans (congrArg _ (State.syncEdge_unarmed hm ha))
  case voided =>
    rintro ⟨hon, hc, hl⟩ hm ha hf
    exact (execSyncInEdge_heard hon hc (late hl)).trans (congrArg _ (State.syncEdge_voided hm ha hf))
  case steps =>
    rintro ⟨hon, hc, hl⟩ hm ha hf
    obtain ⟨u, hu, he⟩ := State.syncEdge_steps (s := s.advance t) hm ha hf
    exact ⟨u, hu, (execSyncInEdge_heard hon hc (late hl)).trans (congrArg _ he)⟩
  case checks =>
    rintro ⟨hon, hc, hl⟩ hm
    obtain ⟨u, hu, he⟩ := State.syncEdge_checks (s := s.advance t) hm
    exact ⟨u, hu, (execSyncInEdge_heard hon hc (late hl)).trans (congrArg _ he)⟩
  case adopts =>
    intro hr hst hc hf hm
    obtain ⟨u, w, hu, hw, ha⟩ := adopt_steps (s := s.advance t) hst hc hf hm
    exact ⟨u, w, hu, hw, State.serve_done hr ha⟩

/-! ### The timing stream (R435, R436) -/

section Marks

variable {s : State} {t seconds milli quality epoch descriptor : Nat}

/-- The stream takes Marks: its input is enabled, and it is Locking or Valid (R436). -/
def State.StreamListens (s : State) : Prop :=
  s.rd Ob.timeStreamInEnable ≠ 0 ∧ (s.rd Ob.timeStreamState = 1 ∨ s.rd Ob.timeStreamState = 2)

theorem State.streamListens_iff :
    (!s.rdB Ob.timeStreamInEnable || (s.rd Ob.timeStreamState != 1 && s.rd Ob.timeStreamState != 2)) = true
      ↔ ¬ s.StreamListens := by
  simp [State.StreamListens, State.rdB, Classical.or_iff_not_imp_left]

theorem State.inSequence_iff {m : StreamMsg} : s.inSequence m = true ↔ ∀ q, s.time.lastMsg = some q → m.follows q = true := by
  unfold State.inSequence
  cases s.time.lastMsg with
  | none => simp
  | some p => simp

theorem execStreamMarkReceive_deaf (h : ¬ s.StreamListens) (ok : Bool) :
    execStreamMarkReceive t seconds milli quality epoch descriptor ok s = .next (s.advance t) :=
  next_if_pos (State.streamListens_iff.2 h)

variable (h : s.StreamListens)

include h

theorem execStreamMarkReceive_listens (ok : Bool) : execStreamMarkReceive t seconds milli quality epoch descriptor ok s = .next
    (let now := s.advance t
     let m : StreamMsg := { seconds := seconds, milli := milli, quality := quality, epoch := epoch, descriptor := descriptor }
     if ok && now.inSequence m then now.takeMark m
     else if ok then { now with time := { s.time with marks := 0, lastMsg := some m } }
     else { now with time := { s.time with marks := 0 } }) :=
  next_if_neg (mt State.streamListens_iff.1 (not_not.2 h))

theorem execStreamMarkReceive_badCrc : execStreamMarkReceive t seconds milli quality epoch descriptor false s =
    .next { s.advance t with time := { s.time with marks := 0 } } := execStreamMarkReceive_listens h false

variable {m : StreamMsg} (hm : m = ⟨seconds, milli, quality, epoch, descriptor⟩)

include hm

theorem execStreamMarkReceive_outOfSequence (hf : ¬ ∀ q, s.time.lastMsg = some q → m.follows q = true) :
    execStreamMarkReceive t seconds milli quality epoch descriptor true s =
      .next { s.advance t with time := { s.time with marks := 0, lastMsg := some m } } := by
  subst hm
  exact (execStreamMarkReceive_listens h true).trans ((next_if_neg (mt State.inSequence_iff.1 hf)).trans (next_if_pos rfl))

theorem execStreamMarkReceive_valid (hf : ∀ q, s.time.lastMsg = some q → m.follows q = true) :
    execStreamMarkReceive t seconds milli quality epoch descriptor true s = .next ((s.advance t).takeMark m) := by
  subst hm
  exact (execStreamMarkReceive_listens h true).trans (next_if_pos (State.inSequence_iff.2 hf))

end Marks

section Stream

variable {s : State} {t : Nat}

theorem execStreamMarkSend_sends (he : s.rd Ob.timeStreamOutEnable ≠ 0) (hc : s.counts = true) :
    execStreamMarkSend t s = .next { s.advance t with out := [.mark markBlock (s.advance t).timeMsg.word] } :=
  next_if_pos (Bool.and_eq_true_iff.2 ⟨bne_iff_ne.2 he, hc⟩)

theorem execStreamMarkSend_silent (h : s.rd Ob.timeStreamOutEnable = 0 ∨ s.counts = false) :
    execStreamMarkSend t s = .next (s.advance t) :=
  next_if_neg (Bool.eq_false_iff.1 (Bool.and_eq_false_iff.2 (h.imp_left bne_eq_false_iff_eq.2)))

/-- The stream starts over in a state of R436. -/
def State.streamBegun (s : State) (state : Nat) (lock : Bool) : State :=
  { s.wr Ob.timeStreamState state with time := { s.time with marks := 0, lastMsg := none, residuals := [], streamLock := lock } }

theorem execTimingStreamBlockLock_locks (he : s.rd Ob.timeStreamInEnable ≠ 0)
    (hst : s.rd Ob.timeStreamState = 0 ∨ s.rd Ob.timeStreamState = 3) :
    execTimingStreamBlockLock t s = .next (((s.advance t).streamBegun 1 true).setQuad 35 0) :=
  next_if_pos ⟨bne_iff_ne.2 he, hst⟩

theorem execTimingStreamBlockLock_idle
    (h : s.rd Ob.timeStreamInEnable = 0 ∨ (s.rd Ob.timeStreamState ≠ 0 ∧ s.rd Ob.timeStreamState ≠ 3)) :
    execTimingStreamBlockLock t s = .next (s.advance t) := by
  refine next_if_neg ?_
  rintro ⟨he, hst⟩
  rcases h with h | ⟨h0, h3⟩
  · exact bne_iff_ne.1 he h
  · exact hst.elim h0 h3

end Stream

/-- Settles O11, command by command. -/
theorem timingStream : Obligations.TimingStream := by
  intro s t seconds milli quality epoch descriptor
  exact ⟨execStreamMarkReceive_deaf, execStreamMarkReceive_badCrc,
    fun h hf => execStreamMarkReceive_outOfSequence h rfl hf,
    fun h hf => ⟨_, _, rfl, rfl, execStreamMarkReceive_valid h rfl hf⟩,
    execStreamMarkSend_sends, execStreamMarkSend_silent,
    next_if_pos, next_if_neg,
    execTimingStreamBlockLock_locks, execTimingStreamBlockLock_idle, rfl⟩

/-! ### The Descriptor of a TIME128 (R14, R429) -/

section Descriptor

variable {s : State} (hf : s.rd Ob.synFT < 2 ^ 31)

include hf

theorem State.descriptor_eq : s.descriptor = s.syn.source * 2 ^ 31 + s.rd Ob.synFT := congrArg _ (Nat.mod_eq_of_lt hf)

/-- A stamp ends with the Descriptor, whatever its time and Quality. -/
theorem State.stamp_descriptor (T : Nat) (hs : s.syn.source ≤ 1) : bits (s.stamp T) 31 31 = s.syn.source
    ∧ bits (s.stamp T) 30 0 = s.rd Ob.synFT ∧ bits (s.stamp T) 31 0 = s.syn.source * 2 ^ 31 + s.rd Ob.synFT := by
  have hd := State.descriptor_eq hf
  unfold bits State.stamp
  omega

end Descriptor

/-- Settles O55: the Descriptor's two fields determine it. -/
theorem descriptors : Obligations.Descriptors := by
  intro s T hs hf
  obtain ⟨hsource, hfT, hlow⟩ := State.stamp_descriptor hf T hs
  refine ⟨hsource, hfT, fun u T' hus huf => ?_⟩
  obtain ⟨-, -, hlow'⟩ := State.stamp_descriptor huf T' hus
  rw [hlow, hlow']
  omega

end Sys2Proof.Machine

/-! Proofs about the TDCs (O12) and about the field network (O38). -/

namespace Sys2Proof.Machine

open Sys2Proof

/-! ### Edges of a TDC channel (R438, R439) -/

section Edge

variable {s : State} {t : Nat} {ch : Fin 16} {falling : Bool}

/-- The polarity of an edge behind the channel's inverter. -/
def State.edgeFalls (s : State) (c : Nat) (falling : Bool) : Bool := falling != s.rdB (Ob.tdcInvert c)

/-- The channel takes edges of this polarity: it is enabled, the polarity is selected, and device time counts. -/
def State.TdcTakes (s : State) (c : Nat) (down : Bool) : Prop :=
  s.rd (Ob.tdcEnable c) ≠ 0 ∧ bit (s.rd (Ob.tdcEdges c)) (b2n down) = true ∧ s.counts = true

theorem State.tdcTakes_iff {c : Nat} {down : Bool} :
    (!s.rdB (Ob.tdcEnable c) || !bit (s.rd (Ob.tdcEdges c)) (b2n down) || !s.counts) = true ↔ ¬ s.TdcTakes c down := by
  simp only [State.TdcTakes, Bool.or_eq_true, Bool.not_eq_true', ← Bool.not_eq_true, State.rdB_iff, or_assoc, not_and_or]

/-- The axis time of the channel's latest stamped edge of a polarity. -/
def TdcState.lastEdge (x : TdcState) (down : Bool) : Option Nat := if down then x.lastFall else x.lastRise

theorem State.tdcDead_iff {last : Option Nat} :
    s.tdcDead last = true ↔ ∃ a, last = some a ∧ (s.now - a) * 10000000000 < 16 * s.second := by
  unfold State.tdcDead
  cases last with
  | none => simp
  | some a => simp

theorem execTdcEdge_ignored (h : ¬ s.TdcTakes ch (s.edgeFalls ch falling)) : execTdcEdge t ch falling s = .next (s.advance t) :=
  next_if_pos (State.tdcTakes_iff.2 h)

variable (h : s.TdcTakes ch (s.edgeFalls ch falling))

include h

theorem execTdcEdge_lost (hd : (s.advance t).tdcDead ((s.tdcCh ch).lastEdge (s.edgeFalls ch falling)) = true
    ∨ 64 ≤ (s.tdcCh ch).front.length) : execTdcEdge t ch falling s = .next ((s.advance t).tdcLoss ch) :=
  (next_if_neg (mt State.tdcTakes_iff.1 (not_not.2 h))).trans
    (next_if_pos (Bool.or_eq_true_iff.2 (hd.imp_right decide_eq_true)))

/-- The stamp is that of the input, InputDelay earlier (R438). -/
theorem execTdcEdge_stamped (hd : (s.advance t).tdcDead ((s.tdcCh ch).lastEdge (s.edgeFalls ch falling)) = false)
    (hf : (s.tdcCh ch).front.length < 64) :
    execTdcEdge t ch falling s = .next
      (let now := s.advance t
       let x := s.tdcCh ch
       let down := s.edgeFalls ch falling
       let st := ((now.devNow : Int) - sint 32 (s.rd (Ob.tdcInputDelay ch))).toNat
       ((now.setTdc ch { x with
          front := x.front ++ [(st, down, x.uncal, x.lossPending)]
          lastRise := if down then x.lastRise else some now.now
          lastFall := if down then some now.now else x.lastFall
          lossPending := false }).bump (Ob.tdcStamped ch)).wr (Ob.tdcLastStamp ch)
            (stampEntry down x.lossPending x.uncal s.second st)) :=
  (next_if_neg (mt State.tdcTakes_iff.1 (not_not.2 h))).trans
    (next_if_neg (Bool.eq_false_iff.1 (Bool.or_eq_false_iff.2 ⟨hd, decide_eq_false (Nat.not_le.2 hf)⟩)))

end Edge

/-! ### The queue of a TDC channel (R440, R441) -/

section Queue

variable {s : State} {t : Nat} {ch : Fin 16} {st : Nat} {f uncal loss : Bool} {rest : List (Nat × Bool × Bool × Bool)}

/-- The oldest stamp of the front buffer has left it and reached the statistics units. -/
def State.stampOut (s : State) (c st : Nat) (f uncal : Bool) (rest : List (Nat × Bool × Bool × Bool)) : State :=
  (List.range 4).foldl (fun s u => s.statStamp u c st f uncal) (s.setTdc c { s.tdcCh c with front := rest })

/-- The statistics units leave the channels alone. -/
theorem State.stampOut_tdcCh (s : State) (c st : Nat) (f uncal : Bool) (rest : List (Nat × Bool × Bool × Bool)) :
    (s.stampOut c st f uncal rest).tdcCh c = { s.tdcCh c with front := rest } := by
  have htdc : (s.stampOut c st f uncal rest).tdc = (s.setTdc c { s.tdcCh c with front := rest }).tdc :=
    (statStamps c st f uncal 0 (fun w => by unfold Ob.statResultSeq Ob.statUnpaired; omega) _ _).1
  unfold State.tdcCh
  rw [htdc]
  exact (tget_tset ..).trans (if_pos rfl)

theorem execTdcQueuePush_empty (h : (s.tdcCh ch).front = []) : execTdcQueuePush t ch s = .next (s.advance t) := by
  have h' : ((s.advance t).tdcCh ch).front = [] := h
  simp [execTdcQueuePush, h']

variable (h : (s.tdcCh ch).front = (st, f, uncal, loss) :: rest)

include h

theorem execTdcQueuePush_stamp : execTdcQueuePush t ch s = .next
    (let v := (s.advance t).stampOut ch st f uncal rest
     let x : TdcState := { s.tdcCh ch with front := rest }
     let e := stampEntry f (loss || x.dropPending) uncal s.second st
     if x.queue.length < 1024 then
       (v.setTdc ch { x with queue := x.queue ++ [e], dropPending := false }).wr (Ob.tdcFill ch) (x.queue.length + 1)
     else if s.rd (Ob.tdcQueuePolicy ch) = 0 then (v.setTdc ch { x with dropPending := true }).bump (Ob.tdcQueueDrops ch)
     else (v.setTdc ch { x with queue := markOldest (x.queue.drop 1) ++ [lossMark e], dropPending := false }).bump
       (Ob.tdcQueueDrops ch)) := by
  have h' : ((s.advance t).tdcCh ch).front = (st, f, uncal, loss) :: rest := h
  have hv : ((s.advance t).stampOut ch st f uncal rest).tdcCh ch = { s.tdcCh ch with front := rest } :=
    State.stampOut_tdcCh _ _ _ _ _ _
  unfold State.stampOut at hv
  simp only [execTdcQueuePush, State.stampOut, h', hv]
  rfl

theorem execTdcQueuePush_enters (hq : (s.tdcCh ch).queue.length < 1024) : execTdcQueuePush t ch s = .next
    ((((s.advance t).stampOut ch st f uncal rest).setTdc ch { s.tdcCh ch with
      front := rest
      queue := (s.tdcCh ch).queue ++ [stampEntry f (loss || (s.tdcCh ch).dropPending) uncal s.second st]
      dropPending := false }).wr (Ob.tdcFill ch) ((s.tdcCh ch).queue.length + 1)) :=
  (execTdcQueuePush_stamp h).trans (next_if_pos hq)

variable (hq : 1024 ≤ (s.tdcCh ch).queue.length)

include hq

theorem execTdcQueuePush_drops (hp : s.rd (Ob.tdcQueuePolicy ch) = 0) : execTdcQueuePush t ch s = .next
    ((((s.advance t).stampOut ch st f uncal rest).setTdc ch { s.tdcCh ch with front := rest, dropPending := true }).bump
      (Ob.tdcQueueDrops ch)) :=
  (execTdcQueuePush_stamp h).trans ((next_if_neg (Nat.not_lt.2 hq)).trans (next_if_pos hp))

theorem execTdcQueuePush_replaces (hp : s.rd (Ob.tdcQueuePolicy ch) ≠ 0) : execTdcQueuePush t ch s = .next
    ((((s.advance t).stampOut ch st f uncal rest).setTdc ch { s.tdcCh ch with
      front := rest
      queue := markOldest ((s.tdcCh ch).queue.drop 1)
        ++ [lossMark (stampEntry f (loss || (s.tdcCh ch).dropPending) uncal s.second st)]
      dropPending := false }).bump (Ob.tdcQueueDrops ch)) :=
  (execTdcQueuePush_stamp h).trans ((next_if_neg (Nat.not_lt.2 hq)).trans (next_if_neg hp))

end Queue

section Blocks

variable {s : State} {c n u : Nat}

theorem popBlock_outOfRange (h : n < 1 ∨ 128 < n) : popBlock c n s = .error Abort.range := if_pos h

theorem popBlock_pops (h1 : 1 ≤ n) (hn : n ≤ 128) : popBlock c n s =
    .ok ((s.setTdc c { s.tdcCh c with queue := (s.tdcCh c).queue.drop n, popped := some ((s.tdcCh c).queue.take n) }).wr
      (Ob.tdcFill c) ((s.tdcCh c).queue.length - n)) := if_neg (by omega)

/-- A statistics unit can start: it is idle, has a mode, and the channels of the mode are enabled (R442). -/
def State.StatsStartable (s : State) (u : Nat) : Prop :=
  (s.statU u).running = false ∧ s.rd (Ob.statMode u) ≠ 0 ∧ s.rd (Ob.tdcEnable (s.rd (Ob.statChannelA u))) ≠ 0
    ∧ (s.rd (Ob.statMode u) = 1 → s.rd (Ob.tdcEnable (s.rd (Ob.statChannelB u))) ≠ 0)

theorem State.statsStartable_iff : ((s.statU u).running || s.rd (Ob.statMode u) == 0
    || !s.rdB (Ob.tdcEnable (s.rd (Ob.statChannelA u)))
    || (s.rd (Ob.statMode u) == 1 && !s.rdB (Ob.tdcEnable (s.rd (Ob.statChannelB u))))) = true ↔ ¬ s.StatsStartable u := by
  simp [State.StatsStartable, State.rdB, Classical.or_iff_not_imp_left]

theorem statsStart_held (h : ¬ s.StatsStartable u) : statsStart u s = .error Abort.state := if_pos (State.statsStartable_iff.2 h)

theorem statsStart_starts (h : s.StatsStartable u) : statsStart u s = .ok (s.setStat u { ({} : StatState) with running := true }) :=
  if_neg (mt State.statsStartable_iff.1 (not_not.2 h))

end Blocks

/-- Settles O12, command by command. -/
theorem timeToDigital : Obligations.TimeToDigital := by
  intro s t n control error ch un line falling f uncal loss st rest widths
  refine ⟨execTdcEdge_ignored,
    fun h hd => execTdcEdge_lost h (hd.imp_left State.tdcDead_iff.2),
    fun h hd hf => execTdcEdge_stamped h (Bool.eq_false_iff.2 (mt State.tdcDead_iff.1 hd)) hf,
    execTdcQueuePush_empty,
    fun h => ⟨_, rfl, State.stampOut_tdcCh (s.advance t) _ _ _ _ _, execTdcQueuePush_enters h, execTdcQueuePush_drops h,
      execTdcQueuePush_replaces h⟩,
    fun hr h => State.serve_aborted hr (popBlock_outOfRange h),
    fun hr h1 hn => State.serve_done hr (popBlock_pops h1 hn),
    fun hr => State.serve_done hr rfl,
    ⟨fun hr h => State.serve_done hr (statsStart_starts h), fun hr h => State.serve_aborted hr (statsStart_held h)⟩,
    fun h => congrArg (fun y => Host.Outcome.next ((s.advance t).tdcLock ch y)) (if_pos h),
    fun h => congrArg (fun y => Host.Outcome.next ((s.advance t).tdcLock ch y)) (if_neg (by omega)),
    rfl, next_if_pos, next_if_neg⟩

/-! ### NMT, heartbeat and emergencies (R459-R463) -/

section Nmt

variable {s : State} {t node st : Nat} {port : Fin 2}

/-- An NMT command reaches this node. -/
def State.NmtReaches (s : State) (p node : Nat) : Prop :=
  s.power.stewardUp = true ∧ s.portOpen p = true ∧ (node = 0 ∨ node = s.dict.nodeId)

theorem State.nmtTaken_iff : s.nmtTaken port node = true ↔ s.NmtReaches port node := by
  simp [State.nmtTaken, State.NmtReaches, and_assoc]

theorem State.nmt_reached (h : s.NmtReaches port node) : s.nmt t port node st = (s.advance t).wr Ob.devNmtState st :=
  if_pos ((State.nmtTaken_iff (s := s.advance t)).2 h)

theorem State.nmt_unreached (h : ¬ s.NmtReaches port node) : s.nmt t port node st = s.advance t :=
  if_neg (mt (State.nmtTaken_iff (s := s.advance t)).1 h)

theorem State.nmtResetCommand_reached (h : s.NmtReaches port node) : s.nmtResetCommand t port node = (s.advance t).nmtReset :=
  if_pos ((State.nmtTaken_iff (s := s.advance t)).2 h)

theorem State.nmtResetCommand_unreached (h : ¬ s.NmtReaches port node) : s.nmtResetCommand t port node = s.advance t :=
  if_neg (mt (State.nmtTaken_iff (s := s.advance t)).1 h)

theorem execHeartbeatSend_sends (hup : s.power.stewardUp = true) (hb : s.rd Ob.comHeartbeatTime ≠ 0) :
    execHeartbeatSend t s =
      .next ((s.advance t).frameAll (0x700 + s.dict.nodeId) (leBytes 1 (s.rd Ob.devNmtState))) :=
  next_if_pos (Bool.and_eq_true_iff.2 ⟨hup, bne_iff_ne.2 hb⟩)

theorem execHeartbeatSend_silent (h : s.power.stewardUp = false ∨ s.rd Ob.comHeartbeatTime = 0) :
    execHeartbeatSend t s = .next (s.advance t) :=
  next_if_neg (Bool.eq_false_iff.1 (Bool.and_eq_false_iff.2 (h.imp_right bne_eq_false_iff_eq.2)))

/-- The inhibit time of emergencies is over. -/
def State.emcyFreed (s : State) : State := { s with dict := { s.dict with emcyInhibit := false } }

theorem State.emcyFreed_open : s.emcyFreed.emcyOpen = true ↔ s.power.stewardUp = true ∧ s.rd Ob.devNmtState ≠ 4 := by
  simp [State.emcyOpen, State.emcyFreed, State.rd]

theorem execEmcyInhibitExpiry_sends (hup : s.power.stewardUp = true) (hn : s.rd Ob.devNmtState ≠ 4) :
    execEmcyInhibitExpiry t s = .next (s.advance t).emcyFreed.emcySend := next_if_pos (State.emcyFreed_open.2 ⟨hup, hn⟩)

theorem execEmcyInhibitExpiry_silent (h : s.power.stewardUp = false ∨ s.rd Ob.devNmtState = 4) :
    execEmcyInhibitExpiry t s = .next (s.advance t).emcyFreed := by
  refine next_if_neg (mt State.emcyFreed_open.1 ?_)
  rintro ⟨hup, hn⟩
  exact h.elim (Bool.eq_false_iff.1 · hup) hn

end Nmt

/-! ### Bus errors and USDO (R447, R459, R464) -/

section Bus

variable {s : State} {t key offset length : Nat} {port : Fin 2} {node : Fin 128} {write more good : Bool} {data : List (BitVec 8)}

/-- CanErrorState with the error state of port `p` in its octet. -/
def State.canErrors (s : State) (p v : Nat) : Nat := setBits (s.rd Ob.devCanErrorState) (8 * p + 7) (8 * p) v

/-- Port `p` has an error state, and bus-off with state 2. -/
def State.busErrors (s : State) (p v : Nat) : State :=
  { s.wr Ob.devCanErrorState (s.canErrors p v) with dict := { s.dict with busOff := setBit s.dict.busOff p (v == 2) } }

/-- Bit 4 of the Error register follows CanErrorState (R463, R464). -/
theorem State.canError_eq (s : State) (p v : Nat) : s.canError p v =
    (s.busErrors p v).wr Ob.comErrorRegister (setBit (s.rd Ob.comErrorRegister) 4 (s.canErrors p v != 0)) := by
  have hreg : (s.busErrors p v).rd Ob.comErrorRegister = s.rd Ob.comErrorRegister := State.rd_wr_ne _ _ _ _ (by decide)
  have herr : (s.busErrors p v).rd Ob.devCanErrorState = s.canErrors p v := State.rd_wr_same _ _ _
  rw [← hreg, ← herr]
  rfl

theorem execCanErrorPassive_busOff (h : bit s.dict.busOff port = true) : execCanErrorPassive t port good s = .next (s.advance t) :=
  next_if_pos h

theorem execCanErrorPassive_onBus (h : bit s.dict.busOff port = false) :
    execCanErrorPassive t port good s = .next ((s.advance t).canError port (b2n good)) := next_if_neg (Bool.eq_false_iff.1 h)

/-- A state serves a request of a CAN port that is open, outside Stopped. -/
theorem State.serves_can {r : Req} (hr : r.transport = 1) :
    s.serves r = true ↔ s.power.stewardUp = true ∧ s.portOpen (r.client / 128) = true ∧ s.rd Ob.devNmtState ≠ 4 := by
  simp [State.serves, hr]

theorem State.transact_unserved {r : Req} {x : Ext} (h : s.serves r = false) : s.transact r x = s := if_pos (congrArg (! ·) h)

theorem execUsdoRequest_broadcast :
    execUsdoRequest t port node false write key offset length more data good s = .next (s.advance t) := rfl

theorem execUsdoRequest_unserved
    (h : ¬ (s.power.stewardUp = true ∧ s.portOpen port = true ∧ s.rd Ob.devNmtState ≠ 4)) :
    execUsdoRequest t port node true write key offset length more data good s = .next (s.advance t) := by
  have hport : (port.val * 128 + node.val) / 128 = port.val := by omega
  refine congrArg Host.Outcome.next (State.transact_unserved (Bool.eq_false_iff.2 ?_))
  rw [ne_eq, State.serves_can rfl, hport]
  exact h

end Bus

/-- Settles O38, command by command. -/
theorem fieldNetwork : Obligations.FieldNetwork := by
  intro s t node key offset length port nodeF more good data
  refine ⟨fun h => ?reached, fun h => ?unreached, execHeartbeatSend_sends, execHeartbeatSend_silent, next_if_pos,
    fun h => next_if_neg (Bool.eq_false_iff.1 h), execEmcyInhibitExpiry_sends, execEmcyInhibitExpiry_silent,
    congrArg _ ((s.advance t).canError_eq port 0), congrArg _ ((s.advance t).canError_eq port 2),
    execCanErrorPassive_busOff, fun h => ⟨(execCanErrorPassive_onBus h).trans (congrArg _ ((s.advance t).canError_eq port 1)),
      (execCanErrorPassive_onBus h).trans (congrArg _ ((s.advance t).canError_eq port 0))⟩,
    fun h w => execUsdoRequest_unserved h, fun w => execUsdoRequest_broadcast, fun _ => ⟨rfl, rfl⟩⟩
  case reached =>
    exact ⟨congrArg _ (State.nmt_reached h), congrArg _ (State.nmt_reached h), congrArg _ (State.nmt_reached h),
      congrArg _ (State.nmtResetCommand_reached h), congrArg _ (State.nmtResetCommand_reached h)⟩
  case unreached =>
    have hnmt : ∀ st, (Host.Outcome.next (s.nmt t port node st) : Outcome) = .next (s.advance t) :=
      fun st => congrArg Host.Outcome.next (State.nmt_unreached h)
    have hreset : (Host.Outcome.next (s.nmtResetCommand t port node) : Outcome) = .next (s.advance t) :=
      congrArg Host.Outcome.next (State.nmtResetCommand_unreached h)
    exact List.forall_mem_cons.2 ⟨hnmt 5, List.forall_mem_cons.2 ⟨hnmt 4, List.forall_mem_cons.2 ⟨hnmt 0x7F,
      List.forall_mem_cons.2 ⟨hreset, List.forall_mem_singleton.2 hreset⟩⟩⟩⟩

end Sys2Proof.Machine

/-! Proofs about the lifetime of a device: restore and automatic steps (O42), firmware and Pantry (O41), requests for Stop (O21). -/

namespace Sys2Proof.Machine

open Sys2Proof

/-! ### The restore and its automatic steps (R453, R570-R572, R574) -/

section Restore

variable {s : State} {t us : Nat} {drive : List (Nat × Nat × Bool)} {good : Bool}

@[simp] theorem State.stepLimit_advance (s : State) (t : Nat) : (s.advance t).stepLimit = s.stepLimit := rfl

/-- A restore can run: the steward serves, and the automatic steps have not begun. -/
def State.Restorable (s : State) : Prop :=
  s.power.stewardUp = true ∧ s.steward.restarting = false ∧ s.rd Ob.devRestoreState ≤ 1

theorem State.restorable_iff :
    (!s.power.stewardUp || s.steward.restarting || decide (1 < s.rd Ob.devRestoreState)) = true ↔ ¬ s.Restorable := by
  simp [State.Restorable, Classical.or_iff_not_imp_left]

theorem execPantryRestore_runs (h : s.Restorable) : execPantryRestore t drive good s = .next ((s.advance t).restore drive good) :=
  next_if_neg (mt (State.restorable_iff (s := s.advance t)).1 (not_not.2 h))

theorem execPantryRestore_idle (h : ¬ s.Restorable) : execPantryRestore t drive good s = .next (s.advance t) :=
  next_if_pos ((State.restorable_iff (s := s.advance t)).2 h)

/-- The automatic steps are in progress, and the steward runs. -/
def State.AutoSteps (s : State) : Prop := s.stewardRuns = true ∧ s.rd Ob.devRestoreState = 2

theorem State.autoSteps_iff : (!s.stewardRuns || s.rd Ob.devRestoreState != 2) = true ↔ ¬ s.AutoSteps := by
  simp [State.AutoSteps, Classical.or_iff_not_imp_left]

theorem restoreStep_idle (h : ¬ s.AutoSteps) : execRestoreStepComplete t drive good s = .next (s.advance t)
    ∧ execRestoreStepTimeout t drive good s = .next (s.advance t) :=
  ⟨next_if_pos (State.autoSteps_iff.2 h), next_if_pos (State.autoSteps_iff.2 h)⟩

section Steps

variable (h : s.AutoSteps)

include h

theorem execRestoreStepComplete_auto : execRestoreStepComplete t drive good s = .next
    (if s.pantry.autoAgain then (s.advance t).beginStep s.pantry.autoStep drive good
     else if (s.advance t).stepDone then (s.advance t).nextStep drive good else s.advance t) :=
  next_if_neg (mt State.autoSteps_iff.1 (not_not.2 h))

theorem execRestoreStepComplete_again (ha : s.pantry.autoAgain = true) :
    execRestoreStepComplete t drive good s = .next ((s.advance t).beginStep s.pantry.autoStep drive good) :=
  (execRestoreStepComplete_auto h).trans (next_if_pos ha)

theorem execRestoreStepComplete_done (ha : s.pantry.autoAgain = false) (hd : (s.advance t).stepDone = true) :
    execRestoreStepComplete t drive good s = .next ((s.advance t).nextStep drive good) :=
  (execRestoreStepComplete_auto h).trans ((next_if_neg (Bool.eq_false_iff.1 ha)).trans (next_if_pos hd))

theorem execRestoreStepComplete_waits (ha : s.pantry.autoAgain = false) (hd : (s.advance t).stepDone = false) :
    execRestoreStepComplete t drive good s = .next (s.advance t) :=
  (execRestoreStepComplete_auto h).trans ((next_if_neg (Bool.eq_false_iff.1 ha)).trans (next_if_neg (Bool.eq_false_iff.1 hd)))

theorem execRestoreStepTimeout_unlimited (hl : s.stepLimit = none) :
    execRestoreStepTimeout t drive good s = .next (s.advance t) := by
  refine (next_if_neg (mt State.autoSteps_iff.1 (not_not.2 h))).trans ?_
  rw [State.stepLimit_advance, hl]

theorem execRestoreStepTimeout_limited (hl : s.stepLimit = some us) : execRestoreStepTimeout t drive good s = .next
    (if s.pantry.autoAt + s.us us ≤ (s.advance t).now then ((s.advance t).stepFails 0xFF s.pantry.autoStep).nextStep drive good
     else s.advance t) := by
  refine (next_if_neg (mt State.autoSteps_iff.1 (not_not.2 h))).trans ?_
  rw [State.stepLimit_advance, hl]
  rfl

end Steps

/-- After step 7 the restore is complete. -/
theorem State.nextStep_last (h : s.pantry.autoStep = 7) : s.nextStep drive good =
    ({ s.wr Ob.devRestoreState 3 with pantry := { s.pantry with autoStep := 0, restoring := [] } } : State).stopWaiting := by
  simp [State.nextStep, h]

/-- Every step but the second, which ends with Imports, is followed by the next one. -/
theorem State.nextStep_begins (h7 : s.pantry.autoStep < 7) (h2 : s.pantry.autoStep ≠ 2) :
    s.nextStep drive good = s.beginStep (s.pantry.autoStep + 1) drive good := by
  simp [State.nextStep, h7, h2]

end Restore

/-- Settles O42: what a restore and the automatic steps' events do, and what follows each step. -/
theorem restoreAndAutomaticSteps : Obligations.RestoreAndAutomaticSteps := by
  intro s t us drive good u
  refine ⟨fun hup hs hr => execPantryRestore_runs ⟨hup, hs, hr⟩, fun h => execPantryRestore_idle ?_, restoreStep_idle,
    execRestoreStepComplete_again, execRestoreStepComplete_done, execRestoreStepComplete_waits,
    execRestoreStepTimeout_unlimited,
    fun h hl hle => (execRestoreStepTimeout_limited h hl).trans (next_if_pos hle),
    fun h hl hlt => (execRestoreStepTimeout_limited h hl).trans (next_if_neg (Nat.not_le.2 hlt)),
    State.nextStep_last, State.nextStep_begins⟩
  rintro ⟨hup, hs, hr⟩
  simp only [hup, hs, Bool.true_eq_false, Bool.false_eq_true, false_or] at h
  omega

/-! ### Firmware images and their trial (R508, R509) -/

section Firmware

variable {s : State} {t : Nat} {b : Bytes}

theorem pantry_held (h : s.pantryHeld = true) : firmwareWrite b s = .error Abort.state ∧ firmwareSwap s = .error Abort.state
    ∧ keepAction s = .error Abort.state ∧ discardAction s = .error Abort.state := by
  refine ⟨if_pos h, if_pos ?_, if_pos ?_, if_pos ?_⟩
  all_goals rw [h, Bool.true_or]

theorem firmwareWrite_free (h : s.pantryHeld = false) : firmwareWrite b s =
    .ok ((({ s with pantry := s.pantry.setSlot (1 - s.confirmedSlot) b } : State).showSlots).wr Ob.panFirmwareState
      (if firmwareOk b then 2 else 3)) := if_neg (Bool.eq_false_iff.1 h)

theorem firmwareSwap_unstaged (h : s.rd Ob.panFirmwareState ≠ 2) : firmwareSwap s = .error Abort.state :=
  if_pos (Bool.or_eq_true_iff.2 (.inr (bne_iff_ne.2 h)))

theorem firmwareSwap_staged (h : s.pantryHeld = false) (hs : s.rd Ob.panFirmwareState = 2) :
    ∃ u : State, u = (s.wr Ob.panFirmwareState 4).stewardRestart 2 ∧ firmwareSwap s =
      .ok { u with pantry := { u.pantry with swapTo := some (1 - u.confirmedSlot), trialRestarts := 0, trialAt := u.now } } :=
  ⟨_, rfl, if_neg (by simp [h, hs])⟩

theorem firmwareConfirm_held (h : s.trial = false ∨ s.steward.sentinelRestarting = true) :
    firmwareConfirm s = .error Abort.state := if_pos (by simpa using h)

theorem firmwareConfirm_trial (h : s.trial = true) (hs : s.steward.sentinelRestarting = false) : firmwareConfirm s =
    .ok (({ s with pantry := s.pantry.setRoot s.pantry.named s.pantry.running } : State).wr Ob.panFirmwareState 5) :=
  if_neg (by simp [h, hs])

/-- The ConfirmWindow of a trial is over, and the steward runs. -/
def State.TrialOver (s : State) : Prop :=
  s.stewardRuns = true ∧ s.trial = true ∧ s.pantry.trialAt + s.rd Ob.panConfirmWindow * s.second ≤ s.now

theorem State.trialOver_iff :
    (s.stewardRuns && s.trial && decide (s.pantry.trialAt + s.rd Ob.panConfirmWindow * s.second ≤ s.now)) = true
      ↔ s.TrialOver := by
  rw [Bool.and_eq_true, Bool.and_eq_true, decide_eq_true_eq, and_assoc]
  exact Iff.rfl

theorem execConfirmWindowExpiry_over (h : (s.advance t).TrialOver) : execConfirmWindowExpiry t s = .next (s.advance t).fallBack :=
  next_if_pos (State.trialOver_iff.2 h)

theorem execConfirmWindowExpiry_idle (h : ¬ (s.advance t).TrialOver) : execConfirmWindowExpiry t s = .next (s.advance t) :=
  next_if_neg (mt State.trialOver_iff.1 h)

end Firmware

/-! ### Keeps and the root word (R512-R516) -/

section Keep

variable {s : State} {t : Nat} {good : Bool} {c : KeptCopy}

theorem pantry_stopping (h : s.stopping = true) : keepAction s = .error Abort.state ∧ discardAction s = .error Abort.state := by
  refine ⟨if_pos ?_, if_pos ?_⟩
  all_goals rw [h, Bool.or_true]

section Free

variable (h : s.pantryHeld = false) (hs : s.stopping = false)

include h hs

theorem keepAction_tooLong (hl : 2883584 < copyLength s.keptEntries) : keepAction s = .ok (s.wr Ob.panKeepResult 2) :=
  (if_neg (by simp [h, hs])).trans (if_pos hl)

theorem keepAction_keeps (hl : copyLength s.keptEntries ≤ 2883584) : keepAction s =
    .ok (({ s with pantry := { s.pantry with keeping := some s.keepCopy } } : State).wr Ob.panKeepResult 1) :=
  (if_neg (by simp [h, hs])).trans (if_neg (Nat.not_lt.2 hl))

theorem discardAction_discards : discardAction s =
    .ok ({ s with pantry := s.pantry.setRoot 0xFF s.pantry.slotNamed } : State).pantryShow := if_neg (by simp [h, hs])

end Free

theorem execKeepComplete_idle (h : s.pantry.keeping = none) : execKeepComplete t good s = .next (s.advance t) := by
  have h' : (s.advance t).pantry.keeping = none := h
  simp only [execKeepComplete, h']

theorem execKeepComplete_written (h : s.pantry.keeping = some c) : execKeepComplete t good s = .next
    (let p := s.pantry.putCopy { c with good := good }
     if good then (({ s.advance t with pantry := p.setRoot s.pantry.other p.slotNamed } : State).wr Ob.panKeepResult 0).pantryShow
     else ({ s.advance t with pantry := p } : State).wr Ob.panKeepResult 4) := by
  have h' : (s.advance t).pantry.keeping = some c := h
  simp only [execKeepComplete, h']
  rfl

end Keep

/-- Settles O41, command by command. -/
theorem firmwareAndPantry : Obligations.FirmwareAndPantry := by
  intro s t data good c
  refine ⟨?held, fun hr h => State.serve_done hr (firmwareWrite_free h),
    fun hr h => State.serve_aborted hr (firmwareSwap_unstaged h), ?swap,
    fun hr h => State.serve_aborted hr (firmwareConfirm_held h),
    fun hr h hs => State.serve_done hr (firmwareConfirm_trial h hs),
    fun hs ht hw => execConfirmWindowExpiry_over ⟨hs, ht, hw⟩,
    fun h => execConfirmWindowExpiry_idle ?early,
    fun hr h => ⟨State.serve_aborted hr (pantry_stopping (s := s.advance t) h).1,
      State.serve_aborted hr (pantry_stopping (s := s.advance t) h).2⟩,
    fun hr h hs => ⟨fun hl => State.serve_done hr (keepAction_tooLong h hs hl),
      fun hl => State.serve_done hr (keepAction_keeps h hs hl), State.serve_done hr (discardAction_discards h hs)⟩,
    execKeepComplete_idle, fun h => ⟨execKeepComplete_written h, execKeepComplete_written h⟩⟩
  case held =>
    intro hr h
    obtain ⟨hwrite, hswap, hkeep, hdiscard⟩ := pantry_held (s := s.advance t) (b := data) h
    exact List.forall_mem_cons.2 ⟨State.serve_aborted hr hwrite, List.forall_mem_cons.2 ⟨State.serve_aborted hr hswap,
      List.forall_mem_cons.2 ⟨State.serve_aborted hr hkeep, List.forall_mem_singleton.2 (State.serve_aborted hr hdiscard)⟩⟩⟩
  case swap =>
    intro hr h hs
    obtain ⟨u, rfl, hswap⟩ := firmwareSwap_staged (s := s.advance t) h hs
    exact State.serve_done hr hswap
  case early =>
    rintro ⟨hs, ht, hw⟩
    rcases h with h | h | h
    · exact Bool.eq_false_iff.1 h hs
    · exact Bool.eq_false_iff.1 h ht
    · exact Nat.not_le.2 h hw

/-! ### Requests for Stop (R488, R498, R574) -/

section Stop

variable {s : State} {t n ch cause : Nat} {low : Bool} {e : StopEntry}

/-- The two values that Stop takes. -/
theorem stopAction_value (hc : cause = 1 ∨ cause = 2) :
    stopAction cause s = if s.stopBlocked then .error Abort.state else .ok (s.stopAsk cause) := by
  refine if_neg ?_
  rcases hc with rfl | rfl <;> decide

theorem stopAction_blocked (hc : cause = 1 ∨ cause = 2) (h : s.stopBlocked = true) : stopAction cause s = .error Abort.state :=
  (stopAction_value hc).trans (if_pos h)

theorem stopAction_asks (hc : cause = 1 ∨ cause = 2) (h : s.stopBlocked = false) : stopAction cause s = .ok (s.stopAsk cause) :=
  (stopAction_value hc).trans (if_neg (Bool.eq_false_iff.1 h))

/-- A Stop entry of this cause begins. -/
def State.stopBegun (s : State) (cause : Nat) : State := { s with power := { s.power with
  stopEntry := some { cause := cause, at0 := s.now, down := false }
  stopWaits := none, stopResult := some 0, stopReqLow := false } }

/-- A Stop entry is refused for the active slot `n`; a pin's request repeats. -/
def State.stopRefused (s : State) (cause n : Nat) : State := { s.logRefusal (0x0100 + n) 1 with power := { s.power with
  stopWaits := none, stopResult := some 1, stopReqLow := cause == 3 } }

/-- The request waits for the end of a change or of the restore. -/
def State.stopHeld (s : State) (cause : Nat) : State :=
  { s with power := { s.power with stopWaits := some cause, stopResult := some 0 } }

theorem State.stopAsk_waits (h : ¬ (s.power.change = none ∧ s.rd Ob.devRestoreState = 3)) : s.stopAsk cause = s.stopHeld cause :=
  stopAsk_held s cause h

section Quiet

variable (hq : s.power.change = none ∧ s.rd Ob.devRestoreState = 3)

include hq

theorem State.stopAsk_force (hc : cause = 2 ∨ cause = 4) : s.stopAsk cause = (s.stopBegun cause).forceStop :=
  (stopAsk_now s cause hq.1 hq.2).trans (stopRequest_force s cause hc)

variable (hc : ¬ (cause = 2 ∨ cause = 4))

include hc

theorem State.stopAsk_begins (h : ((List.range 64).find? fun n => s.active n) = none) : s.stopAsk cause = s.stopBegun cause :=
  (stopAsk_now s cause hq.1 hq.2).trans (stopRequest_none s cause hc h)

theorem State.stopAsk_refused (h : ((List.range 64).find? fun n => s.active n) = some n) :
    s.stopAsk cause = s.stopRefused cause n := by
  rw [stopAsk_now s cause hq.1 hq.2, stopRequest_some s cause n hc h, logRefusal_power]
  rfl

end Quiet

/-! ### The pin, the grace and the end (R489, R490) -/

section Pin

variable (hrun : s.power.run = true) (hs : s.steward.restarting = false) (hb : s.stopBlocked = false)

include hrun hs hb

theorem execStopReqNEdge_asks :
    execStopReqNEdge t s = .next ((s.advance t).stopAsk (if s.rdB Ob.stopPinForce then 4 else 3)) :=
  congrArg Host.Outcome.next (pinStop_asks (s.advance t) hrun hs hb)

theorem execStopReqNEdge_force (hf : s.rd Ob.stopPinForce ≠ 0) : execStopReqNEdge t s = .next ((s.advance t).stopAsk 4) := by
  rw [execStopReqNEdge_asks hrun hs hb, if_pos ((s.rdB_iff _).2 hf)]

theorem execStopReqNEdge_plain (hf : s.rd Ob.stopPinForce = 0) : execStopReqNEdge t s = .next ((s.advance t).stopAsk 3) := by
  rw [execStopReqNEdge_asks hrun hs hb, if_neg (mt (s.rdB_iff _).1 (not_not.2 hf))]

end Pin

theorem execStopReqRepeat_idle (h : s.power.stopReqLow = false) : execStopReqRepeat t low s = .next (s.advance t) :=
  next_if_pos (congrArg (! ·) h)

theorem execStopReqRepeat_repeats (h : s.power.stopReqLow = true) : execStopReqRepeat t low s = .next
    (if low then (s.advance t).pinStop else { s.advance t with power := { s.power with stopReqLow := false } }) :=
  next_if_neg (by simp [h])

theorem stopEntry_absent (h : s.power.stopEntry = none) :
    execStopGraceExpiry t s = .next (s.advance t) ∧ execStopReached t s = .next (s.advance t) := by
  simp [execStopGraceExpiry, execStopReached, h]

variable (h : s.power.stopEntry = some e)

include h

theorem execStopReached_entry :
    execStopReached t s = .next (if e.down then (s.advance t).stopReached e.cause else s.advance t) := by
  simp only [execStopReached, State.advance_power, h]

theorem execStopGraceExpiry_entry : execStopGraceExpiry t s = .next
    (if e.down || decide ((s.advance t).now < e.at0 + s.us (1000 * s.rd Ob.stopStopGrace)) then s.advance t
     else if s.pantryBusy then (s.advance t).abortEntry e.cause 0x0300
     else match s.hostBusy with
       | some c => (s.advance t).abortEntry e.cause (0x0200 + c)
       | none => (s.advance t).shutDown) := by
  simp only [execStopGraceExpiry, State.advance_power, h]
  rfl

theorem execStopGraceExpiry_down (hd : e.down = true) : execStopGraceExpiry t s = .next (s.advance t) :=
  (execStopGraceExpiry_entry h).trans (next_if_pos (Bool.or_eq_true_iff.2 (.inl hd)))

theorem execStopGraceExpiry_early (hg : (s.advance t).now < e.at0 + s.us (1000 * s.rd Ob.stopStopGrace)) :
    execStopGraceExpiry t s = .next (s.advance t) :=
  (execStopGraceExpiry_entry h).trans (next_if_pos (Bool.or_eq_true_iff.2 (.inr (decide_eq_true hg))))

variable (hd : e.down = false) (hg : e.at0 + s.us (1000 * s.rd Ob.stopStopGrace) ≤ (s.advance t).now)

include hd hg

theorem execStopGraceExpiry_over : execStopGraceExpiry t s = .next
    (if s.pantryBusy then (s.advance t).abortEntry e.cause 0x0300
     else match s.hostBusy with
       | some c => (s.advance t).abortEntry e.cause (0x0200 + c)
       | none => (s.advance t).shutDown) :=
  (execStopGraceExpiry_entry h).trans (next_if_neg (by simpa [hd] using hg))

theorem execStopGraceExpiry_keepRuns (hp : s.pantryBusy = true) :
    execStopGraceExpiry t s = .next ((s.advance t).abortEntry e.cause 0x0300) :=
  (execStopGraceExpiry_over h hd hg).trans (next_if_pos hp)

theorem execStopGraceExpiry_hostRuns (hp : s.pantryBusy = false) (hb : s.hostBusy = some ch) :
    execStopGraceExpiry t s = .next ((s.advance t).abortEntry e.cause (0x0200 + ch)) := by
  rw [execStopGraceExpiry_over h hd hg, hp, hb]
  rfl

theorem execStopGraceExpiry_quiet (hp : s.pantryBusy = false) (hb : s.hostBusy = none) :
    execStopGraceExpiry t s = .next (s.advance t).shutDown := by
  rw [execStopGraceExpiry_over h hd hg, hp, hb]
  rfl

end Stop

/-- Settles O21: every request is `State.stopAsk` with its cause, and an entry ends as its grace finds the device. -/
theorem stopRequests : Obligations.StopRequests := by
  intro s t n ch e
  refine ⟨fun hr hb => ⟨State.serve_aborted hr (stopAction_blocked (.inl rfl) hb),
      State.serve_aborted hr (stopAction_blocked (.inr rfl) hb)⟩, ?waits, ?asks,
    fun h => congrArg Host.Outcome.next (pinStop_idle (s.advance t) h), ?pinWaits, ?pinAsks,
    fun h low => execStopReqRepeat_idle h, fun h => ⟨execStopReqRepeat_repeats h, execStopReqRepeat_repeats h⟩,
    stopEntry_absent,
    fun h hd => ⟨execStopGraceExpiry_down h hd, (execStopReached_entry h).trans (next_if_pos hd)⟩,
    fun h hd => ⟨(execStopReached_entry h).trans (next_if_neg (Bool.eq_false_iff.1 hd)), execStopGraceExpiry_early h,
      execStopGraceExpiry_keepRuns h hd, execStopGraceExpiry_hostRuns h hd, execStopGraceExpiry_quiet h hd⟩,
    fun hr => State.serve_done hr rfl⟩
  case waits =>
    intro hr hb hc
    have hq : ¬ ((s.advance t).power.change = none ∧ (s.advance t).rd Ob.devRestoreState = 3) := fun hq => hc hq.1
    have held : ∀ cause, cause = 1 ∨ cause = 2 → stopAction cause (s.advance t) = .ok ((s.advance t).stopHeld cause) :=
      fun cause h12 => (stopAction_asks (s := s.advance t) h12 hb).trans (congrArg Except.ok (State.stopAsk_waits hq))
    exact ⟨State.serve_done hr (held 1 (.inl rfl)), State.serve_done hr (held 2 (.inr rfl))⟩
  case asks =>
    intro hr hb hc
    have ⟨_, _, hrestored⟩ := hr
    have hq : (s.advance t).power.change = none ∧ (s.advance t).rd Ob.devRestoreState = 3 := ⟨hc, hrestored⟩
    have asks : ∀ cause, cause = 1 ∨ cause = 2 → stopAction cause (s.advance t) = .ok ((s.advance t).stopAsk cause) :=
      fun cause h12 => stopAction_asks (s := s.advance t) h12 hb
    exact ⟨State.serve_done hr ((asks 2 (.inr rfl)).trans (congrArg Except.ok (State.stopAsk_force hq (.inl rfl)))),
      fun hn => State.serve_done hr ((asks 1 (.inl rfl)).trans (congrArg Except.ok (State.stopAsk_begins hq (by decide) hn))),
      fun hn => State.serve_done hr ((asks 1 (.inl rfl)).trans (congrArg Except.ok (State.stopAsk_refused hq (by decide) hn)))⟩
  case pinWaits =>
    intro hrun hs hb hq
    exact (execStopReqNEdge_asks hrun hs hb).trans (congrArg Host.Outcome.next (State.stopAsk_waits (s := s.advance t) hq))
  case pinAsks =>
    intro hrun hs hb hq
    have hq' : (s.advance t).power.change = none ∧ (s.advance t).rd Ob.devRestoreState = 3 := hq
    exact ⟨fun hf => (execStopReqNEdge_force hrun hs hb hf).trans
        (congrArg Host.Outcome.next (State.stopAsk_force hq' (.inr rfl))),
      fun hf hn => (execStopReqNEdge_plain hrun hs hb hf).trans
        (congrArg Host.Outcome.next (State.stopAsk_begins (s := s.advance t) hq' (by decide) hn)),
      fun hf hn => (execStopReqNEdge_plain hrun hs hb hf).trans
        (congrArg Host.Outcome.next (State.stopAsk_refused (s := s.advance t) hq' (by decide) hn))⟩

end Sys2Proof.Machine

/-! Proofs about engines and plans (O39) and about operating points (O6). -/

namespace Sys2Proof.Machine

open Sys2Proof

/-! ### Migrations (R500, R501) -/

section Migration

variable {s : State} {t : Nat} {c n : Fin 64} {m : Migration} {x : Move × List Charge} {g : Nat}

theorem migration_absent (h : (s.advance t).migration c n = none) :
    execMigrationTargetChosen t c n s = .next (s.advance t) ∧ execMigrationResume t c n s = .next (s.advance t) := by
  simp only [execMigrationTargetChosen, execMigrationResume, h, and_self]

section Found

variable (h : (s.advance t).migration c n = some m)

include h

theorem execMigrationTargetChosen_held (hm : m.ge ≠ none ∨ s.steward.restarting = true) :
    execMigrationTargetChosen t c n s = .next (s.advance t) := by
  have hb : (m.ge.isSome || s.steward.restarting) = true := Bool.or_eq_true_iff.2 (hm.imp_left Option.isSome_iff_ne_none.2)
  simp only [execMigrationTargetChosen, h, State.advance_steward, hb, if_true]

theorem execMigrationResume_early (hm : m.ge = none ∨ m.ge = some g ∧ (s.advance t).devNow < g) :
    execMigrationResume t c n s = .next (s.advance t) := by
  rcases hm with hm | ⟨hm, hlt⟩
  · simp only [execMigrationResume, h, hm]
  · simp only [execMigrationResume, h, hm, hlt, if_true]

theorem execMigrationResume_due (hm : m.ge = some g) (hle : g ≤ (s.advance t).devNow) :
    execMigrationResume t c n s = .next ((s.advance t).endGap n c m g) := by
  simp only [execMigrationResume, h, hm, Nat.not_lt.2 hle, if_false]

variable (hge : m.ge = none) (hs : s.steward.restarting = false)

include hge hs

/-- The steward places a migration that has no target yet. -/
theorem execMigrationTargetChosen_places : execMigrationTargetChosen t c n s = .next
    (match (s.advance t).chooseMove n c m.affected m.whole with
     | none => ((s.advance t).noTarget n c m).clusterSettle c
     | some x => (s.advance t).toTarget n c m x) := by
  simp only [execMigrationTargetChosen, h, State.advance_steward, hge, hs, Option.isSome_none, Bool.or_false, Bool.false_eq_true,
    if_false] <;> rfl

theorem execMigrationTargetChosen_noTarget (hc : (s.advance t).chooseMove n c m.affected m.whole = none) :
    execMigrationTargetChosen t c n s = .next (((s.advance t).noTarget n c m).clusterSettle c) := by
  rw [execMigrationTargetChosen_places h hge hs, hc]

theorem execMigrationTargetChosen_target (hc : (s.advance t).chooseMove n c m.affected m.whole = some x) :
    execMigrationTargetChosen t c n s = .next ((s.advance t).toTarget n c m x) := by
  rw [execMigrationTargetChosen_places h hge hs, hc]

end Found

end Migration

section Target

variable {s : State} {n c : Nat} {m : Migration} {x : Move × List Charge}

/-- The end G_e of the gap of a migration to `x`: the boundary after its load. -/
def State.migrationEnd (s : State) (n : Nat) (x : Move × List Charge) : Nat :=
  s.boundaryFrom n (s.devNow + s.us (12 * ceilDiv x.1.engines.length 64) + s.us 100)

/-- A gap beyond 20 ms has the slot withdrawn, as without a target. -/
theorem State.toTarget_late (h : m.gs + s.us 20000 < s.migrationEnd n x) :
    s.toTarget n c m x = (s.noTarget n c m).clusterSettle c :=
  if_pos h

theorem State.toTarget_moves (h : s.migrationEnd n x ≤ m.gs + s.us 20000) : s.toTarget n c m x =
    (x.1.engines.filter fun p => m.affected.contains p.1 && s.relapsed p.1).foldl (fun s p => s.retireNow p.1)
      ((s.makeMove n c m.affected m.whole x.1 x.2).setMigration c n
        (some { m with targets := m.targets ++ x.1.engines, ge := some (s.migrationEnd n x) })) :=
  if_neg (Nat.not_lt.2 h)

end Target

/-! ### Tests of engines and spares (R502, R503, R537) -/

section Tests

variable {s : State} {t : Nat} {e : Fin 1088} {c : Fin 64} {pass shared hbm : Bool}

/-- The kind of test that runs on an engine: 0 none, 2 after a fault of the whole cluster. -/
def State.testKind (s : State) (e : Nat) : Nat := tget (dconst 0) s.life.testing e

/-- The end of a test is heard: the engine is tested, and no migration keeps it before its test. -/
def State.TestEnds (s : State) (e : Fin 1088) : Prop := s.testKind e ≠ 0 ∧ (s.inMigration e = false ∨ (s.eng e).st = 3)

theorem State.testEnds_iff :
    (s.testKind e = 0 || s.inMigration e && (s.eng e).st != 3) = true ↔ ¬ s.TestEnds e := by
  simp [State.TestEnds, Classical.or_iff_not_imp_left]

theorem execEngineTestComplete_idle (h : ¬ (s.advance t).TestEnds e) :
    execEngineTestComplete t e pass shared s = .next (s.advance t) :=
  next_if_pos (State.testEnds_iff.2 h)

section Ends

variable (h : (s.advance t).TestEnds e)

include h

theorem execEngineTestComplete_ends : execEngineTestComplete t e pass shared s = .next
    (if (s.advance t).testKind e = 2 && !shared then (s.advance t).retireCluster (e.val / 17)
     else if pass then (((s.advance t).engineBack e).diagnosed e).clusterSettle (e.val / 17)
     else ((s.advance t).retireNow e).clusterSettle (e.val / 17)) :=
  next_if_neg (mt State.testEnds_iff.1 (not_not.2 h))

theorem execEngineTestComplete_cluster (hk : (s.advance t).testKind e = 2) :
    execEngineTestComplete t e pass false s = .next ((s.advance t).retireCluster (e.val / 17)) :=
  (execEngineTestComplete_ends h).trans (next_if_pos (by simp [hk]))

variable (hk : (s.advance t).testKind e = 2 → shared = true)

include hk

theorem execEngineTestComplete_engine : execEngineTestComplete t e pass shared s = .next
    (if pass then (((s.advance t).engineBack e).diagnosed e).clusterSettle (e.val / 17)
     else ((s.advance t).retireNow e).clusterSettle (e.val / 17)) :=
  (execEngineTestComplete_ends h).trans (next_if_neg (by simpa using hk))

end Ends

theorem execSpareSelfTest_good : execSpareSelfTest t hbm c true s = .next (s.advance t) := by
  simp [execSpareSelfTest]

theorem execSpareSelfTest_pc : execSpareSelfTest t true c pass s = .next
    (if (s.advance t).pcState c != 1 || pass then s.advance t else (s.advance t).failPc c) := rfl

theorem execSpareSelfTest_engine : execSpareSelfTest t false c pass s = .next
    (if ((s.advance t).eng ((s.advance t).spareEngine c)).st != 4 || pass then s.advance t
     else ((s.advance t).retireNow ((s.advance t).spareEngine c)).clusterSettle c) := rfl

end Tests

/-! ### Retirement and the daily plan (R518, R519) -/

section Retirement

variable {s : State} {t e k : Nat} {y : Nat × List Charge} {volts : List Nat}

theorem retireAction_outOfRange (h : 1088 ≤ e) : retireAction e s = .error Abort.range := if_pos h

theorem retireAction_again (h : e < 1088) (hr : (s.life.retiring.any fun p => p.1 == e) = true) :
    retireAction e s = .error Abort.state := (if_neg (Nat.not_le.2 h)).trans (if_pos hr)

theorem retireAction_retires (h : e < 1088) (hr : (s.life.retiring.any fun p => p.1 == e) = false) :
    retireAction e s = .ok (s.retireEngine e) := (if_neg (Nat.not_le.2 h)).trans (if_neg (Bool.eq_false_iff.1 hr))

theorem State.retireEngine_retired (h : (s.eng e).st = 5) : s.retireEngine e = s.retireAnswer 0 := if_pos h

section InService

variable (h : (s.eng e).st ≠ 5)

include h

theorem State.retireEngine_free (hk : (s.eng e).slot = none) :
    s.retireEngine e = ((s.retireNow e).clusterSettle (e / 17)).retireAnswer 0 := by
  simp only [State.retireEngine, h, if_false, hk]

variable (hk : (s.eng e).slot = some k)

include hk

theorem State.retireEngine_noTarget (hy : s.retireTarget k e = none) : s.retireEngine e = (s.budgetOut e k).retireAnswer 0x4E := by
  simp only [State.retireEngine, h, if_false, hk, hy]

theorem State.retireEngine_begins (hy : s.retireTarget k e = some y) : s.retireEngine e = (s.retireBegin k e y).retireAnswer 1 := by
  simp only [State.retireEngine, h, if_false, hk, hy]

end InService

/-- It is the second of PlanTime, and the steward serves a powered device. -/
def State.PlanDue (s : State) : Prop :=
  s.stewardRuns = true ∧ s.powered = true ∧ s.time.rtcSeconds % 86400 = s.rd Ob.lifePlanTime

theorem State.planDue_iff :
    (s.stewardRuns && s.powered && s.time.rtcSeconds % 86400 == s.rd Ob.lifePlanTime) = true ↔ s.PlanDue := by
  rw [Bool.and_eq_true, Bool.and_eq_true, beq_iff_eq, and_assoc]
  exact Iff.rfl

theorem execPlanRun_due (h : s.PlanDue) : execPlanRun t volts s = .next ((s.advance t).dailyPlan volts) :=
  next_if_pos ((State.planDue_iff (s := s.advance t)).2 h)

theorem execPlanRun_idle (h : ¬ s.PlanDue) : execPlanRun t volts s = .next (s.advance t) :=
  next_if_neg (mt (State.planDue_iff (s := s.advance t)).1 h)

end Retirement

/-- Settles O39, command by command. -/
theorem enginesAndPlans : Obligations.EnginesAndPlans := by
  intro s t e k cF nF eF pass shared volts m x y g
  refine ⟨rfl, migration_absent, execMigrationTargetChosen_held, execMigrationTargetChosen_noTarget, ?late, ?moves,
    execMigrationResume_early, execMigrationResume_due, fun h => execEngineTestComplete_idle ?unheard, ?tested,
    fun hk h => execEngineTestComplete_cluster ⟨fun h0 => absurd (hk.symm.trans h0) (by decide), h⟩ hk,
    fun hbm => execSpareSelfTest_good, ?failsPc, ?keepsPc, ?failsSpare, ?keepsSpare,
    fun hr h => State.serve_aborted hr (retireAction_outOfRange h),
    fun hr h ha => State.serve_aborted hr (retireAction_again h ha), ?retire,
    fun hr => State.serve_done hr rfl, fun hs hp hd => execPlanRun_due ⟨hs, hp, hd⟩, fun h => execPlanRun_idle ?notDue⟩
  case late =>
    intro h hge hs hc hl
    exact (execMigrationTargetChosen_target h hge hs hc).trans (congrArg Host.Outcome.next (State.toTarget_late hl))
  case moves =>
    intro h hge hs hc hl
    exact (execMigrationTargetChosen_target h hge hs hc).trans (congrArg Host.Outcome.next (State.toTarget_moves hl))
  case unheard =>
    rintro ⟨hk, hm⟩
    rcases h with h | ⟨hin, hst⟩
    · exact hk h
    · exact hm.elim (Bool.eq_false_iff.1 · hin) hst
  case tested =>
    intro hk h hs
    exact ⟨execEngineTestComplete_engine ⟨hk, h⟩ hs, execEngineTestComplete_engine ⟨hk, h⟩ hs⟩
  case failsPc => exact fun h => execSpareSelfTest_pc.trans (next_if_neg (by rw [h]; decide))
  case keepsPc => exact fun h => execSpareSelfTest_pc.trans (next_if_pos (Bool.or_eq_true_iff.2 (.inl (bne_iff_ne.2 h))))
  case failsSpare => exact fun h => execSpareSelfTest_engine.trans (next_if_neg (by rw [h]; decide))
  case keepsSpare => exact fun h => execSpareSelfTest_engine.trans (next_if_pos (Bool.or_eq_true_iff.2 (.inl (bne_iff_ne.2 h))))
  case retire =>
    intro hr h ha
    have hact : retireAction e (s.advance t) = .ok ((s.advance t).retireEngine e) := retireAction_retires h ha
    exact ⟨fun h5 => State.serve_done hr (hact.trans (congrArg Except.ok (State.retireEngine_retired (s := s.advance t) h5))),
      fun h5 hk => State.serve_done hr (hact.trans (congrArg Except.ok (State.retireEngine_free (s := s.advance t) h5 hk))),
      fun h5 hk hy => State.serve_done hr
        (hact.trans (congrArg Except.ok (State.retireEngine_noTarget (s := s.advance t) h5 hk hy))),
      fun h5 hk hy => State.serve_done hr
        (hact.trans (congrArg Except.ok (State.retireEngine_begins (s := s.advance t) h5 hk hy)))⟩
  case notDue =>
    rintro ⟨hs, hp, hd⟩
    rcases h with h | h | h
    · exact Bool.eq_false_iff.1 h hs
    · exact Bool.eq_false_iff.1 h hp
    · exact h hd

/-! ### Requests for an operating point (R478, R482) -/

section Request

variable {s : State} {p code : Nat}

theorem pointRequest_outOfRange (h : 3 ≤ p) : pointRequest p s = .error Abort.range := if_pos h

variable (h : p < 3)

include h

theorem pointRequest_busy (hb : s.pointBusy = true) : pointRequest p s = .error Abort.state :=
  (if_neg (Nat.not_le.2 h)).trans (if_pos hb)

variable (hb : s.pointBusy = false)

include hb

theorem pointRequest_refused (hr : s.pointRefusal p = some code) :
    pointRequest p s = .ok ((s.wr Ob.opResult code).wr Ob.opPhase 0) := by
  simp only [pointRequest, Nat.not_le.2 h, hb, hr, Bool.false_eq_true, if_false]
  rfl

variable (hr : s.pointRefusal p = none)

include hr

theorem pointRequest_allowed : pointRequest p s = if p = s.rd Ob.opCurrent ∧ s.plannedVcore p = s.power.target then
      .ok ((s.wr Ob.opResult 0).wr Ob.opPhase 0) else .ok (s.startChange p) := by
  simp only [pointRequest, Nat.not_le.2 h, hb, hr, Bool.false_eq_true, if_false]
  rfl

theorem pointRequest_inForce (hc : p = s.rd Ob.opCurrent) (hv : s.plannedVcore p = s.power.target) :
    pointRequest p s = .ok ((s.wr Ob.opResult 0).wr Ob.opPhase 0) := (pointRequest_allowed h hb hr).trans (if_pos ⟨hc, hv⟩)

theorem pointRequest_starts (hn : ¬ (p = s.rd Ob.opCurrent ∧ s.plannedVcore p = s.power.target)) :
    pointRequest p s = .ok (s.startChange p) := (pointRequest_allowed h hb hr).trans (if_neg hn)

end Request

/-! ### The events of a change (R481, R482) -/

section Change

variable {s : State} {t : Nat} {c : OpChange}

theorem opEvents_idle (h : s.power.change = none) : execOpVokAssert t s = .next (s.advance t)
    ∧ execOpFrequencySwitch t s = .next (s.advance t) ∧ execOpVcoreSettled t s = .next (s.advance t)
    ∧ execOpSettleTimeout t s = .next (s.advance t) := by
  simp [execOpVokAssert, execOpFrequencySwitch, execOpVcoreSettled, execOpSettleTimeout, h]

variable (h : s.power.change = some c)

include h

/-- A raising change writes VCORE first: before VOK the selector does not switch, and a timeout writes the old voltage back. -/
theorem opEvents_raisingBeforeVok (hu : c.up = true) (hv : c.vok = false) :
    execOpVokAssert t s = .next (({ s.advance t with power := { s.power with change := some { c with vok := true } } } : State).wr
        Ob.opPhase 4)
      ∧ execOpFrequencySwitch t s = .next ((s.advance t).bump Ob.opInterlockTrips)
      ∧ execOpSettleTimeout t s = .next (((s.advance t).avsWrite c.old).changeFailed.afterChange) := by
  simp [execOpVokAssert, execOpFrequencySwitch, execOpSettleTimeout, h, hu, hv]

theorem opEvents_raisingAfterVok (hu : c.up = true) (hv : c.vok = true) : execOpVokAssert t s = .next (s.advance t)
    ∧ execOpSettleTimeout t s = .next (s.advance t)
    ∧ execOpFrequencySwitch t s = .next (((s.advance t).selectPoint c.target).endChange 0).afterChange := by
  simp [execOpVokAssert, execOpFrequencySwitch, execOpSettleTimeout, h, hu, hv]

theorem execOpVcoreSettled_raising (hu : c.up = true) : execOpVcoreSettled t s = .next (s.advance t) := by
  simp [execOpVcoreSettled, h, hu]

theorem execOpVokAssert_lowering (hu : c.up = false) : execOpVokAssert t s = .next (s.advance t) := by
  simp [execOpVokAssert, h, hu]

/-- f_E of the point is selected, and the change has switched. -/
def State.switched (s : State) (c : OpChange) : State :=
  let u := (s.selectPoint c.target).wr Ob.opPhase 2
  { u with power := { u.power with change := some { c with switched := true } } }

theorem execOpFrequencySwitch_change : execOpFrequencySwitch t s = .next
    (if c.up then
      (if c.vok then (((s.advance t).selectPoint c.target).endChange 0).afterChange else (s.advance t).bump Ob.opInterlockTrips)
     else if c.switched then s.advance t
     else ((s.advance t).switched c).avsWrite (((s.advance t).switched c).plannedVcore c.target)) := by
  simp only [execOpFrequencySwitch, State.advance_power, h]
  rfl

/-- A lowering change switches first and writes VCORE after. -/
theorem execOpFrequencySwitch_lowering (hu : c.up = false) (hw : c.switched = false) : execOpFrequencySwitch t s =
    .next (((s.advance t).switched c).avsWrite (((s.advance t).switched c).plannedVcore c.target)) :=
  (execOpFrequencySwitch_change h).trans
    ((next_if_neg (Bool.eq_false_iff.1 hu)).trans (next_if_neg (Bool.eq_false_iff.1 hw)))

theorem opEvents_loweringBeforeSwitch (hu : c.up = false) (hw : c.switched = false) :
    execOpVcoreSettled t s = .next (s.advance t) ∧ execOpSettleTimeout t s = .next (s.advance t) := by
  simp [execOpVcoreSettled, execOpSettleTimeout, h, hu, hw]

theorem opEvents_loweringAfterSwitch (hu : c.up = false) (hw : c.switched = true) :
    execOpFrequencySwitch t s = .next (s.advance t)
      ∧ execOpVcoreSettled t s = .next ((s.advance t).endChange 0).afterChange
      ∧ execOpSettleTimeout t s = .next (s.advance t).changeFailed.afterChange := by
  simp [execOpVcoreSettled, execOpFrequencySwitch, execOpSettleTimeout, h, hu, hw]

end Change

/-! ### The regulator's readback (R479) -/

section Avs

variable {s : State} {t mV mA st : Nat} {o : Option Nat}

/-- What a poll has read: VCORE and the current. -/
def State.avsRead (s : State) (mV mA : Nat) : State :=
  { s.wr Ob.opVcoreNow (mV % 65536) with power := { s.power with avsCurrent := mA } }

/-- The status of a poll is kept. -/
def State.avsNoted (s : State) (st : Nat) : State := { s with power := { s.power with avsFaults := st } }

/-- A fault bit of a status is new. -/
theorem freshFault_iff {a b : Nat} : ((List.range 16).any fun i => bit a i && !bit b i) = true
    ↔ ∃ i, i < 16 ∧ bit a i = true ∧ bit b i = false := by
  simp [List.any_eq_true]

theorem execAvsPoll_unpowered (h : s.powered = false) : execAvsPoll t mV mA o s = .next (s.advance t) :=
  next_if_pos (congrArg (! ·) h)

section Powered

variable (h : s.powered = true)

include h

theorem execAvsPoll_reads : execAvsPoll t mV mA none s = .next ((s.advance t).avsRead mV mA) :=
  next_if_neg (by simp [h])

theorem execAvsPoll_status : execAvsPoll t mV mA (some st) s = .next
    (if (List.range 16).any fun i => bit st i && !bit s.power.avsFaults i then
      (((s.advance t).avsRead mV mA).avsNoted st).faultLog 0x0A 2 0 0xFF 0 st
     else ((s.advance t).avsRead mV mA).avsNoted st) :=
  next_if_neg (by simp [h])

end Powered

end Avs

/-- Settles O6: a change's events by its direction and stage. -/
theorem operatingPoints : Obligations.OperatingPoints := by
  intro s t p mV mA st code c
  refine ⟨fun hr h => State.serve_aborted hr (pointRequest_outOfRange h),
    fun hr h hb => State.serve_aborted hr (pointRequest_busy h hb),
    fun hr h hb hc => State.serve_done hr (pointRequest_refused h hb hc),
    fun hr h hb hc hp hv => State.serve_done hr (pointRequest_inForce h hb hc hp hv),
    fun hr h hb hc hn => State.serve_done hr (pointRequest_starts h hb hc hn),
    fun h hu => ⟨opEvents_raisingBeforeVok h hu, opEvents_raisingAfterVok h hu, execOpVcoreSettled_raising h hu⟩,
    fun h hu => ⟨execOpVokAssert_lowering h hu, ?_, opEvents_loweringAfterSwitch h hu⟩,
    ?idle, fun h o => execAvsPoll_unpowered h, execAvsPoll_reads,
    fun h hf => (execAvsPoll_status h).trans (next_if_neg ?old),
    fun h hf => (execAvsPoll_status h).trans (next_if_pos (freshFault_iff.2 hf))⟩
  · intro hw
    obtain ⟨hsettled, htimeout⟩ := opEvents_loweringBeforeSwitch (t := t) h hu hw
    exact ⟨hsettled, htimeout, _, _, rfl, rfl, execOpFrequencySwitch_lowering h hu hw⟩
  case idle =>
    intro h
    obtain ⟨hvok, hswitch, hsettled, htimeout⟩ := opEvents_idle (t := t) h
    exact List.forall_mem_cons.2 ⟨hvok, List.forall_mem_cons.2 ⟨hswitch,
      List.forall_mem_cons.2 ⟨hsettled, List.forall_mem_singleton.2 htimeout⟩⟩⟩
  case old =>
    rw [freshFault_iff]
    rintro ⟨i, hi, hst, hold⟩
    exact Bool.eq_false_iff.1 hold (hf i hi hst)

end Sys2Proof.Machine

/-! Proofs about the energy ledger, throttling and the AUX_LDO outputs (O7). -/

namespace Sys2Proof.Machine

open Sys2Proof

/-! ### A sample and a window of the ledger (R484, R485, R487) -/

section Ledger

variable {s : State} {t : Nat}

theorem ledger_unpowered {fitted usage : List Nat} (h : s.powered = false) : execLedgerSample t s = .next (s.advance t)
    ∧ execLedgerWindow t s = .next (s.advance t) ∧ execLedgerFit t fitted s = .next (s.advance t)
    ∧ execThrottleEvaluate t usage s = .next (s.advance t) := by
  have hp : (!s.powered) = true := congrArg (! ·) h
  exact ⟨next_if_pos hp, next_if_pos hp, next_if_pos (Bool.or_eq_true_iff.2 (.inl hp)), next_if_pos hp⟩

/-- The window has `n` samples. -/
def State.withSamples (s : State) (n : Nat) : State := { s with power := { s.power with windowN := n } }

/-- A sample adds the power of each rail as it is before the sample. -/
theorem execLedgerSample_adds (h : s.powered = true) : ∃ u : State, execLedgerSample t s = .next u
    ∧ u = { s.advance t with power := { s.power with railSum := u.power.railSum, windowN := s.power.windowN + 1 } }
    ∧ ∀ r, r < 9 → tget (dconst 0) u.power.railSum r = tget (dconst 0) s.power.railSum r + s.railPower r := by
  obtain ⟨m, hsum, hget⟩ := railSums (s.advance t) State.railPower (fun _ _ _ => rfl) (List.range 9) (s.advance t)
    List.nodup_range fun _ => rfl
  refine ⟨{ s.advance t with power := { s.power with railSum := m, windowN := s.power.windowN + 1 } }, ?_, rfl, fun r hr => ?_⟩
  · exact (next_if_neg (by simp [h])).trans
      (congrArg (fun u : State => Host.Outcome.next (u.withSamples (s.power.windowN + 1))) hsum)
  · exact (hget r).trans (congrArg (tget (dconst 0) s.power.railSum r + ·) (if_pos (List.mem_range.2 hr)))

/-! Counting the time in Run touches neither the sums of the window nor what is published. -/

theorem State.countHours_power (s : State) : s.countHours.power = s.power :=
  (congrArg State.power (countHours_frame s).1).trans rfl

theorem State.countHours_time (s : State) : s.countHours.time = s.time :=
  (congrArg State.time (countHours_frame s).1).trans rfl

theorem State.countHours_dom (s : State) (k : Nat) : s.countHours.dom k = s.dom k :=
  State.dom_congr ((congrArg State.doms (countHours_frame s).1).trans rfl) k

theorem State.countHours_rd (s : State) (k : Nat) (h1 : k ≠ Ob.lifeServiceHours) (h2 : k ≠ Ob.lifeHoursHot) :
    s.countHours.rd k = s.rd k := by
  obtain ⟨-, hrd, -⟩ := countHours_frame s
  exact hrd k h1 h2

theorem State.countHours_windowPower (s : State) : s.countHours.windowPower = s.windowPower := by
  unfold State.windowPower
  rw [s.countHours_power]

theorem execLedgerWindow_powered (h : s.powered = true) : execLedgerWindow t s = .next (s.advance t).countHours.ledgerWindow :=
  next_if_neg (by simp [h])

theorem State.ledgerWindow_empty (h : s.power.windowN = 0) : s.ledgerWindow = s.freshWindow := if_pos h

section Samples

variable (h : s.power.windowN ≠ 0)

include h

theorem State.ledgerWindow_within (he : s.windowPower.sum ≤ s.rd Ob.penvEnvelope) : s.ledgerWindow = s.publishWindow :=
  (if_neg h).trans (if_pos he)

theorem State.ledgerWindow_exceeds (he : s.rd Ob.penvEnvelope < s.windowPower.sum) :
    s.ledgerWindow = s.publishWindow.overEnvelope s.windowPower.sum := (if_neg h).trans (if_neg (Nat.not_le.2 he))

end Samples

theorem State.overEnvelope_sameSecond {p : Nat} (h : s.power.overSecond = some s.time.rtcSeconds) :
    s.overEnvelope p = s.bump Ob.penvOverEnvelope := by
  refine if_pos ?_
  rw [State.bump_power, State.bump_time]
  exact h

/-- The first window of a second above the envelope is logged. -/
theorem State.overEnvelope_newSecond {p : Nat} (h : s.power.overSecond ≠ some s.time.rtcSeconds) : s.overEnvelope p =
    ({ s.bump Ob.penvOverEnvelope with power := { s.power with overSecond := some s.time.rtcSeconds } } : State).faultLog
      0x0A 1 0 0xFF 0 p := by
  unfold State.overEnvelope
  simp only [State.bump_power, State.bump_time, h, if_false]

theorem State.publishWindow_frame (s : State) : s.publishWindow =
    { s with regs := s.publishWindow.regs, doms := s.publishWindow.doms, power := s.publishWindow.power } := by
  obtain ⟨-, -, -, -, -, -, -, -, hframe⟩ := publishWindow_all s
  exact hframe

theorem State.publishWindow_time (s : State) : s.publishWindow.time = s.time :=
  (congrArg State.time s.publishWindow_frame).trans rfl

theorem State.publishWindow_life (s : State) : s.publishWindow.life = s.life :=
  (congrArg State.life s.publishWindow_frame).trans rfl

section Window

variable (h : s.powered = true)

include h

theorem execLedgerWindow_empty (hn : s.power.windowN = 0) : execLedgerWindow t s = .next { (s.advance t).countHours with
    power := { s.power with shunt := s.dom Ob.ledgShuntMap, railSum := [], windowN := 0 } } := by
  have hn' : (s.advance t).countHours.power.windowN = 0 := (congrArg PowerState.windowN (s.advance t).countHours_power).trans hn
  rw [execLedgerWindow_powered h, State.ledgerWindow_empty hn', State.freshWindow, State.countHours_power, State.countHours_dom]
  rfl

variable (hn : s.power.windowN ≠ 0)

include hn

theorem execLedgerWindow_within (he : s.windowPower.sum ≤ s.rd Ob.penvEnvelope) :
    execLedgerWindow t s = .next (s.advance t).countHours.publishWindow := by
  have hn' : (s.advance t).countHours.power.windowN ≠ 0 := by rwa [State.countHours_power]
  have henv : (s.advance t).countHours.rd Ob.penvEnvelope = s.rd Ob.penvEnvelope :=
    State.countHours_rd _ _ (by decide) (by decide)
  rw [execLedgerWindow_powered h, State.ledgerWindow_within hn' (by rwa [State.countHours_windowPower, henv])]

theorem execLedgerWindow_exceeds (he : s.rd Ob.penvEnvelope < s.windowPower.sum) :
    execLedgerWindow t s = .next ((s.advance t).countHours.publishWindow.overEnvelope s.windowPower.sum) := by
  have hn' : (s.advance t).countHours.power.windowN ≠ 0 := by rwa [State.countHours_power]
  have henv : (s.advance t).countHours.rd Ob.penvEnvelope = s.rd Ob.penvEnvelope :=
    State.countHours_rd _ _ (by decide) (by decide)
  rw [execLedgerWindow_powered h, State.ledgerWindow_exceeds hn' (by rwa [State.countHours_windowPower, henv]),
    State.countHours_windowPower]
  rfl

end Window

/-! ### The fit and throttling (R485, R486) -/

section Fit

variable {fitted usage : List Nat}

theorem execLedgerFit_early (h : (s.power.usable.filter id).length < 16) : execLedgerFit t fitted s = .next (s.advance t) :=
  next_if_pos (Bool.or_eq_true_iff.2 (.inr (decide_eq_true h)))

/-- A fit changes the coefficients and stamps LastFit. -/
theorem execLedgerFit_fits (h : s.powered = true) (hf : 16 ≤ (s.power.usable.filter id).length) :
    ∃ u : State, execLedgerFit t fitted s = .next u ∧ u.rd Ob.ledgLastFit = (s.advance t).stampNow
      ∧ u = { s.advance t with regs := u.regs, power := u.power } := by
  obtain ⟨c, m, hterms⟩ := fitTerms_frame (fitted.take 5).zipIdx (fun s => s.rd Ob.opCurrent) (s.advance t)
  have hg : ¬ (!s.powered || decide ((s.power.usable.filter id).length < 16)) = true := by simpa [h] using hf
  refine ⟨_, next_if_neg hg, ?_, ?_⟩
  · exact (State.rd_wr_ne _ _ _ _ (by decide)).trans (State.rd_wr_same _ _ _)
  · dsimp only
    rw [hterms]
    exact wr2_frame ..

section Throttle

variable (h : s.powered = true)

include h

theorem execThrottleEvaluate_powered : execThrottleEvaluate t usage s = .next
    (if s.bestPower usage ≤ s.rd Ob.penvBestEffortAllowance then (s.advance t).wr Ob.penvThrottling 0
     else if s.rdB Ob.penvThrottling then s.advance t
     else ((s.advance t).wr Ob.penvThrottling 1).bump Ob.penvThrottleEvents) := next_if_neg (by simp [h])

theorem execThrottleEvaluate_ends (hb : s.bestPower usage ≤ s.rd Ob.penvBestEffortAllowance) :
    execThrottleEvaluate t usage s = .next ((s.advance t).wr Ob.penvThrottling 0) :=
  (execThrottleEvaluate_powered h).trans (next_if_pos hb)

theorem execThrottleEvaluate_goesOn (hb : s.rd Ob.penvBestEffortAllowance < s.bestPower usage) (ht : s.rd Ob.penvThrottling ≠ 0) :
    execThrottleEvaluate t usage s = .next (s.advance t) :=
  (execThrottleEvaluate_powered h).trans ((next_if_neg (Nat.not_le.2 hb)).trans (next_if_pos ((s.rdB_iff _).2 ht)))

theorem execThrottleEvaluate_starts (hb : s.rd Ob.penvBestEffortAllowance < s.bestPower usage) (ht : s.rd Ob.penvThrottling = 0) :
    execThrottleEvaluate t usage s = .next (((s.advance t).wr Ob.penvThrottling 1).bump Ob.penvThrottleEvents) :=
  (execThrottleEvaluate_powered h).trans
    ((next_if_neg (Nat.not_le.2 hb)).trans (next_if_neg (mt (s.rdB_iff _).1 (not_not.2 ht))))

end Throttle

end Fit

end Ledger

/-! ### The AUX_LDO outputs (R495) -/

section Aux

variable {s : State} {t : Nat} {k : Fin 2} {good : Bool}

@[simp] theorem State.auxState_advance (s : State) (t k : Nat) : (s.advance t).auxState k = s.auxState k := rfl

theorem execAuxLdoSoftStartEnd_idle (h : s.auxState k ≠ 1) : execAuxLdoSoftStartEnd t k good s = .next (s.advance t) :=
  next_if_pos (bne_iff_ne.2 h)

theorem execAuxLdoSoftStartEnd_ends (h : s.auxState k = 1) : execAuxLdoSoftStartEnd t k good s = .next
    (if good then ((s.advance t).setAux k 2).setTries k 0 else (s.advance t).auxLatch k) := next_if_neg (by simp [h])

theorem execAuxLdoLimit_latches (hrun : s.power.run = true) (h : s.auxState k = 2) :
    execAuxLdoLimit t k s = .next ((s.advance t).auxLatch k) := next_if_pos (by simp [hrun, h])

theorem execAuxLdoLimit_idle (h : s.power.run = false ∨ s.auxState k ≠ 2) : execAuxLdoLimit t k s = .next (s.advance t) :=
  next_if_neg (Bool.eq_false_iff.1 (Bool.and_eq_false_iff.2 (h.imp_right beq_eq_false_iff_ne.2)))

/-- Fewer than Retries restarts of output `k` have failed since it was last on. -/
def State.TriesLeft (s : State) (k : Nat) : Prop := tget (dconst 0) s.power.auxTries k < bits (s.rd (auxKey k)) 13 12

/-- A latched output that is enabled restarts while tries are left. -/
def State.AuxRetries (s : State) (k : Nat) : Prop := s.auxState k = 3 ∧ s.auxWant k = true ∧ s.TriesLeft k

theorem State.auxRetries_iff : (s.auxState k == 3 && s.auxWant k
    && decide (tget (dconst 0) s.power.auxTries k < bits (s.rd (auxKey k)) 13 12)) = true ↔ s.AuxRetries k := by
  simp [State.AuxRetries, State.TriesLeft, and_assoc]

theorem execAuxLdoRetry_restarts (h : s.AuxRetries k) : execAuxLdoRetry t k s = .next
    ((((s.advance t).setAux k 1).setTries k (tget (dconst 0) s.power.auxTries k + 1)).emit (.auxLdo k true)) :=
  next_if_pos ((State.auxRetries_iff (s := s.advance t)).2 h)

theorem execAuxLdoRetry_idle (h : ¬ s.AuxRetries k) : execAuxLdoRetry t k s = .next (s.advance t) :=
  next_if_neg (mt (State.auxRetries_iff (s := s.advance t)).1 h)

end Aux

/-- Settles O7: a window is counted and then published, which `publishWindow_all` describes. -/
theorem ledgerThrottleAndSentinelOutputs : Obligations.LedgerThrottleAndSentinelOutputs := by
  intro s t mask fitted usage k good
  obtain ⟨hhours, -, hservice⟩ := countHours_frame (s.advance t)
  refine ⟨?unpowered, execLedgerSample_adds, hhours, hservice, execLedgerWindow_empty, ?within, ?exceeds,
    fun hp hf => execLedgerFit_early hf, execLedgerFit_fits, execThrottleEvaluate_ends,
    fun hp hb => ⟨execThrottleEvaluate_goesOn hp hb, execThrottleEvaluate_starts hp hb⟩,
    fun hr => State.serve_done hr rfl,
    fun h hg => (execAuxLdoSoftStartEnd_ends h).trans (next_if_pos hg),
    fun h hg => (execAuxLdoSoftStartEnd_ends h).trans (next_if_neg (Bool.eq_false_iff.1 hg)),
    execAuxLdoSoftStartEnd_idle, execAuxLdoLimit_latches, execAuxLdoLimit_idle,
    ⟨execAuxLdoRetry_restarts, execAuxLdoRetry_idle⟩, fun hr => State.serve_done hr rfl⟩
  case unpowered =>
    intro h
    obtain ⟨hsample, hwindow, hfit, hthrottle⟩ := ledger_unpowered (t := t) (fitted := fitted) (usage := usage) h
    exact List.forall_mem_cons.2 ⟨hsample, List.forall_mem_cons.2 ⟨hwindow,
      List.forall_mem_cons.2 ⟨hfit, List.forall_mem_singleton.2 hthrottle⟩⟩⟩
  case within =>
    intro hp hn he
    obtain ⟨hmeasured, hpeak, hrails, hnone, hsums, henergy, hshunt, hover, hframe⟩ :=
      publishWindow_all (s.advance t).countHours
    rw [State.countHours_windowPower] at hmeasured hpeak hrails henergy
    rw [State.countHours_power] at henergy
    rw [State.countHours_dom] at hshunt
    rw [State.countHours_rd _ _ (by decide) (by decide)] at hpeak hover
    exact ⟨_, execLedgerWindow_within hp hn (Nat.not_lt.1 (of_decide_eq_false he)), hmeasured, hpeak, hrails, hnone, hsums,
      henergy, hshunt, hover, State.publishWindow_life _, hframe⟩
  case exceeds =>
    intro hp hn he
    obtain ⟨hmeasured, -, -, -, -, -, -, -, hframe⟩ := publishWindow_all (s.advance t).countHours
    rw [State.countHours_windowPower] at hmeasured
    have hsecond : (s.advance t).countHours.publishWindow.power.overSecond = s.power.overSecond :=
      (publishWindow_second _).trans (congrArg PowerState.overSecond (s.advance t).countHours_power)
    have hrtc : (s.advance t).countHours.publishWindow.time.rtcSeconds = s.time.rtcSeconds :=
      congrArg TimeState.rtcSeconds ((State.publishWindow_time _).trans (s.advance t).countHours_time)
    refine ⟨_, _, execLedgerWindow_exceeds hp hn (of_decide_eq_true he), hmeasured, hframe, fun h => ?_, fun h => ?_⟩
    · exact State.overEnvelope_sameSecond (by rwa [hsecond, hrtc])
    · rw [State.overEnvelope_newSecond (by rwa [hsecond, hrtc]), hrtc]

end Sys2Proof.Machine

/-! Proofs about the calibrations (O4), the windows of a signal-path calibration and the housekeeping conversions (O5). -/

namespace Sys2Proof.Machine

open Sys2Proof

/-! ### The start of a calibration (R530, R535) -/

section Start

variable {s : State} {kind mask startAt code : Nat}

/-- A calibration has begun: Result reads In progress, and FailedItem its Default. -/
def State.calBegun (s : State) (kind mask startAt : Nat) : State :=
  { (s.wr Ob.calibResult 1).clr Ob.calibFailedItem with
    cal := { kind := kind, mask := mask, startAt := s.unstamp startAt, reapply := s.cal.reapply, started := true } }

/-- A calibration has ended at once with a Result. -/
def State.calEnded (s : State) (mask startAt code : Nat) : State :=
  { s.calBegun 0 mask startAt with regs := ((s.calBegun 0 mask startAt).wr Ob.calibResult code).regs }

/-- The end of a calibration that has only begun releases no channel. -/
theorem State.calBegun_calEnd (hk : kind ≠ 0) :
    (s.calBegun kind mask startAt).calEnd code none = s.calEnded mask startAt code := by
  have hrelease : (s.calBegun kind mask startAt).calRelease = s.calBegun kind mask startAt := calRelease_rest _ rfl
  have hkind : (s.calBegun kind mask startAt).cal.kind ≠ 0 := hk
  unfold State.calEnd
  rw [if_neg hkind, hrelease]
  rfl

theorem calStart_busy (h : s.cal.kind ≠ 0) : calStart kind mask startAt s = .error Abort.state := if_pos h

variable (h : s.cal.kind = 0)

include h

theorem calStart_startAt (hk : kind ≠ 3) (hs : startAt ≠ 0) : calStart kind mask startAt s = .error Abort.range :=
  (if_neg (not_not.2 h)).trans (if_pos (.inr (.inr ⟨hk, hs⟩)))

theorem calStart_accepted (hk : kind = 3 ∨ (kind = 1 ∨ kind = 2) ∧ startAt = 0) : calStart kind mask startAt s =
    .ok (if kind = 2 ∧ s.rd Ob.synState ≠ 3 then (s.calBegun kind mask startAt).calEnd 4 none
      else if kind = 3 ∧ s.unstamp startAt < s.devNow + s.us 1000 then (s.calBegun kind mask startAt).calEnd 3 none
      else if kind = 3 ∧ mask % 2 ^ 64 = 0 then (s.calBegun kind mask startAt).calEnd 0 none
      else s.calBegun kind mask startAt) :=
  (if_neg (not_not.2 h)).trans (if_neg (by omega))

theorem calStart_reference : calStart 1 mask 0 s = .ok (s.calBegun 1 mask 0) :=
  calStart_accepted h (.inr ⟨.inl rfl, rfl⟩)

theorem calStart_clockLocked (hl : s.rd Ob.synState = 3) : calStart 2 mask 0 s = .ok (s.calBegun 2 mask 0) :=
  (calStart_accepted h (.inr ⟨.inr rfl, rfl⟩)).trans (congrArg Except.ok (if_neg fun hn => hn.2 hl))

theorem calStart_clockUnlocked (hl : s.rd Ob.synState ≠ 3) : calStart 2 mask 0 s = .ok (s.calEnded mask 0 4) :=
  (calStart_accepted h (.inr ⟨.inr rfl, rfl⟩)).trans
    (congrArg Except.ok ((if_pos ⟨rfl, hl⟩).trans (State.calBegun_calEnd (by decide))))

theorem calStart_signalPath : calStart 3 mask startAt s =
    .ok (if s.unstamp startAt < s.devNow + s.us 1000 then s.calEnded mask startAt 3
      else if mask % 2 ^ 64 = 0 then s.calEnded mask startAt 0 else s.calBegun 3 mask startAt) := by
  have hk : 3 ≠ 0 := by decide
  rw [calStart_accepted h (.inl rfl), State.calBegun_calEnd hk, State.calBegun_calEnd hk, State.calBegun_calEnd hk]
  simp

theorem calStart_signalPathLate (hT : s.unstamp startAt < s.devNow + s.us 1000) :
    calStart 3 mask startAt s = .ok (s.calEnded mask startAt 3) :=
  (calStart_signalPath h).trans (congrArg Except.ok (if_pos hT))

theorem calStart_signalPathEmpty (hT : s.devNow + s.us 1000 ≤ s.unstamp startAt) (hm : mask % 2 ^ 64 = 0) :
    calStart 3 mask startAt s = .ok (s.calEnded mask startAt 0) :=
  (calStart_signalPath h).trans (congrArg Except.ok ((if_neg (Nat.not_lt.2 hT)).trans (if_pos hm)))

theorem calStart_signalPathBegins (hT : s.devNow + s.us 1000 ≤ s.unstamp startAt) (hm : mask % 2 ^ 64 ≠ 0) :
    calStart 3 mask startAt s = .ok (s.calBegun 3 mask startAt) :=
  (calStart_signalPath h).trans (congrArg Except.ok ((if_neg (Nat.not_lt.2 hT)).trans (if_neg hm)))

end Start

/-! ### The ends of the reference and clock calibrations (R531) -/

section Complete

variable {s : State} {t ticks v : Nat} {g : Int} {shorts : List Nat} {vref : Option Nat}

/-- The offset of the `i`-th voltage channel: the mean of its 64 conversions of the short. -/
def shortOffset (shorts : List Nat) (i : Nat) : Int := roundUpHalf (shorts.getD i 0) 64

/-- The offsets of the voltage channels, by channel. -/
def shortOffsets (shorts : List Nat) : List (Nat × Int) := voltageChannels.zipIdx.map fun c => (c.1, shortOffset shorts c.2)

/-- Channel 25, of VREF_EXT, is the voltage channel in place 21. -/
theorem shortOffsets_vref (shorts : List Nat) :
    ((shortOffsets shorts).find? fun x => x.1 == 25) = some (25, shortOffset shorts 21) := by
  have hplace : (voltageChannels.zipIdx.find? fun c => c.1 == 25) = some (25, 21) := by decide
  rw [shortOffsets, List.find?_map]
  exact congrArg _ hplace

theorem execCalReferenceComplete_idle (h : s.cal.kind ≠ 1) : execCalReferenceComplete t shorts vref s = .next (s.advance t) :=
  next_if_pos (bne_iff_ne.2 h)

theorem execCalClockComplete_idle (h : s.cal.kind ≠ 2) : execCalClockComplete t ticks s = .next (s.advance t) :=
  next_if_pos (bne_iff_ne.2 h)

section Clock

variable (h : s.cal.kind = 2)

include h

theorem execCalClockComplete_runs : execCalClockComplete t ticks s = .next
    (let trim := roundUpHalf (((ticks : Int) - 327680) * 100000000) 327680
     if decide (-10000 ≤ trim) && decide (trim ≤ 10000) then ((s.advance t).wr Ob.calibRtcTrim (uint 32 trim)).calEnd 0 none
     else (s.advance t).calEnd 2 none) := next_if_neg (by simp [h])

variable {trim : Int} (ht : trim = roundUpHalf (((ticks : Int) - 327680) * 100000000) 327680)

include ht

theorem execCalClockComplete_trims (hlo : -10000 ≤ trim) (hhi : trim ≤ 10000) : execCalClockComplete t ticks s =
    .next (((s.advance t).wr Ob.calibRtcTrim (uint 32 trim)).calEnd 0 none) := by
  subst ht
  exact (execCalClockComplete_runs h).trans (next_if_pos (Bool.and_eq_true_iff.2 ⟨decide_eq_true hlo, decide_eq_true hhi⟩))

theorem execCalClockComplete_implausible (hn : trim < -10000 ∨ 10000 < trim) :
    execCalClockComplete t ticks s = .next ((s.advance t).calEnd 2 none) := by
  subst ht
  refine (execCalClockComplete_runs h).trans (next_if_neg ?_)
  rw [Bool.and_eq_true, decide_eq_true_eq, decide_eq_true_eq]
  omega

end Clock

section Reference

variable (h : s.cal.kind = 1)

include h

theorem execCalReferenceComplete_unavailable :
    execCalReferenceComplete t shorts none s = .next ((s.advance t).calEnd 4 (some 25)) := next_if_neg (by simp [h])

theorem execCalReferenceComplete_measured : execCalReferenceComplete t shorts (some v) s = .next
    (let now := s.advance t
     let offs := shortOffsets shorts
     match s.vrefGain (shortOffset shorts 21) v with
     | none => now.calEnd 2 (some 0)
     | some g => match offs.find? fun x => !hkPlausible x.2 g with
       | some x => now.calEnd 2 (some x.1)
       | none => (((now.setDom Ob.hkcOffsets (offs.foldl (fun b x => patch16 b x.1 x.2) (s.dom Ob.hkcOffsets))).setDom
           Ob.hkcGains (offs.foldl (fun b x => patch16 b x.1 g) (s.dom Ob.hkcGains))).wr Ob.hkcOrigin 1).calEnd 0 none) := by
  have hoff := shortOffsets_vref shorts
  unfold shortOffsets shortOffset at hoff
  refine (next_if_neg (by simp [h])).trans ?_
  simp only [hoff, shortOffsets, shortOffset]
  rfl

theorem execCalReferenceComplete_noGain (hg : s.vrefGain (shortOffset shorts 21) v = none) :
    execCalReferenceComplete t shorts (some v) s = .next ((s.advance t).calEnd 2 (some 0)) := by
  rw [execCalReferenceComplete_measured h, hg]

variable (hg : s.vrefGain (shortOffset shorts 21) v = some g)

include hg

theorem execCalReferenceComplete_implausible {x : Nat × Int}
    (hx : (shortOffsets shorts).find? (fun x => !hkPlausible x.2 g) = some x) :
    execCalReferenceComplete t shorts (some v) s = .next ((s.advance t).calEnd 2 (some x.1)) := by
  simp only [execCalReferenceComplete_measured h, hg, hx]

theorem execCalReferenceComplete_calibrates (hp : ∀ x ∈ shortOffsets shorts, hkPlausible x.2 g = true) :
    execCalReferenceComplete t shorts (some v) s = .next
      (((((s.advance t).setDom Ob.hkcOffsets
          ((shortOffsets shorts).foldl (fun b x => patch16 b x.1 x.2) (s.dom Ob.hkcOffsets))).setDom Ob.hkcGains
          ((shortOffsets shorts).foldl (fun b x => patch16 b x.1 g) (s.dom Ob.hkcGains))).wr Ob.hkcOrigin 1).calEnd 0 none) := by
  have hnone : (shortOffsets shorts).find? (fun x => !hkPlausible x.2 g) = none :=
    List.find?_eq_none.2 fun x hx => by simp [hp x hx]
  simp only [execCalReferenceComplete_measured h, hg, hnone]

end Reference

end Complete

/-! ### The stored set (R536) -/

section StoredSet

variable {s : State}

/-- What a read of Reapply returns. -/
def State.reapplyNoted (s : State) (code : Nat) : State := { s with cal := { s.cal with reapply := some code } }

/-- The values of a stored set are within their limits. -/
def storedFits (b : Bytes) : Prop := (∀ p ∈ calParts b, calValueOk p.1 p.2 = true) ∧ (sint 32 (leAt b 792 4)).natAbs ≤ 10000

theorem storedFits_iff (b : Bytes) :
    (!((calParts b).all fun p => calValueOk p.1 p.2) || decide (10000 < (sint 32 (leAt b 792 4)).natAbs)) = true
      ↔ ¬ storedFits b := by
  rw [storedFits, ← List.all_eq_true, not_and_or, Nat.not_le, Bool.or_eq_true, Bool.not_eq_true', Bool.not_eq_true,
    decide_eq_true_eq]

theorem calReapply_busy (h : s.cal.kind ≠ 0) : calReapply s = .error Abort.state := if_pos h

variable (h : s.cal.kind = 0)

include h

theorem calReapply_noSet (hb : ¬ calHeaderOk (s.dom Ob.calibStoredSet) = true) : calReapply s = .ok (s.reapplyNoted 6) :=
  (if_neg (not_not.2 h)).trans (if_pos (by simpa using hb))

variable (hb : calHeaderOk (s.dom Ob.calibStoredSet) = true)

include hb

theorem calReapply_unfit (hf : ¬ storedFits (s.dom Ob.calibStoredSet)) : calReapply s = .ok (s.reapplyNoted 2) :=
  (if_neg (not_not.2 h)).trans ((if_neg (by simp [hb])).trans (if_pos ((storedFits_iff _).2 hf)))

/-- The whole set is taken: its DOMAINs, and the registers that stand in it. -/
theorem calReapply_takes (hf : storedFits (s.dom Ob.calibStoredSet)) : ∃ u : State, calReapply s = .ok u
    ∧ u = { ((calParts (s.dom Ob.calibStoredSet)).foldl (fun (s : State) p => s.setDom p.1 p.2) s) with
        regs := (((s.wr Ob.calibPathValid (leAt (s.dom Ob.calibStoredSet) 784 8)).wr Ob.calibRtcTrim
          (leAt (s.dom Ob.calibStoredSet) 792 4)).wr Ob.hkcOrigin 2).regs
        cal := { s.cal with reapply := some 0 } } := by
  refine ⟨_, (if_neg (not_not.2 h)).trans ((if_neg (by simp [hb])).trans (if_neg (mt (storedFits_iff _).1 (not_not.2 hf)))), ?_⟩
  dsimp only
  rw [setDoms_frame]
  rfl

end StoredSet

/-- Settles O4: the starts by kind, the ends by what was measured, and the stored set. -/
theorem calibrationsStartAndEnd : Obligations.CalibrationsStartAndEnd := by
  intro s t mask startAt ticks v g shorts vref
  refine ⟨?busy, ?begins, fun hr h hs => ⟨State.serve_aborted hr (calStart_startAt h (by decide) hs),
      State.serve_aborted hr (calStart_startAt h (by decide) hs)⟩,
    fun hr h => ⟨fun hT => State.serve_done hr (calStart_signalPathLate h hT),
      fun hT hm => State.serve_done hr (calStart_signalPathEmpty h hT hm),
      fun hT hm => State.serve_done hr (calStart_signalPathBegins h hT hm)⟩,
    execCalReferenceComplete_idle, execCalClockComplete_idle, execCalReferenceComplete_unavailable (shorts := shorts),
    execCalReferenceComplete_noGain, execCalReferenceComplete_calibrates,
    fun h hg x hx => execCalReferenceComplete_implausible h hg hx,
    fun h hlo hhi => execCalClockComplete_trims h rfl hlo hhi,
    fun h hn => execCalClockComplete_implausible h rfl hn,
    fun hr => State.serve_done hr rfl,
    fun hr h hb => State.serve_done hr (calReapply_noSet h hb),
    fun hr h hb hf => State.serve_done hr (calReapply_unfit h hb hf), ?takes⟩
  case busy =>
    intro hr h
    exact List.forall_mem_cons.2 ⟨State.serve_aborted hr (calStart_busy h),
      List.forall_mem_cons.2 ⟨State.serve_aborted hr (calStart_busy h),
        List.forall_mem_cons.2 ⟨State.serve_aborted hr (calStart_busy h),
          List.forall_mem_singleton.2 (State.serve_aborted hr (calReapply_busy h))⟩⟩⟩
  case begins =>
    rintro hr h rfl
    exact ⟨State.serve_done hr (calStart_reference h), fun hl => State.serve_done hr (calStart_clockLocked h hl),
      fun hl => State.serve_done hr (calStart_clockUnlocked h hl)⟩
  case takes =>
    intro hr h hb hf
    obtain ⟨u, hu, hframe⟩ := calReapply_takes (s := s.advance t) h hb hf
    exact ⟨u, State.serve_done hr hu, hframe⟩

/-! ### The window of a channel (R531-R533, R535) -/

section Window

variable {s : State} {t k : Nat} {r : PathResult}

@[simp] theorem State.calChannel_advance (s : State) (t : Nat) : (s.advance t).calChannel = s.calChannel := rfl

@[simp] theorem State.calTime_advance (s : State) (t q : Nat) : (s.advance t).calTime q = s.calTime q := rfl

theorem pathWindow_idle (h : s.cal.kind ≠ 3 ∨ s.calChannel = none) : execSignalPathWindowStart t s = .next (s.advance t)
    ∧ execSignalPathMeasureEnd t s = .next (s.advance t) ∧ execSignalPathWindowEnd t s = .next (s.advance t) := by
  cases hc : s.calChannel with
  | none => simp [execSignalPathWindowStart, execSignalPathMeasureEnd, execSignalPathWindowEnd, hc]
  | some k =>
    have hk : s.cal.kind ≠ 3 := h.resolve_right (by simp [hc])
    simp [execSignalPathWindowStart, execSignalPathMeasureEnd, execSignalPathWindowEnd, hc, hk]

theorem execSignalPathMeasureStart_idle (h : s.cal.kind ≠ 3) : execSignalPathMeasureStart t s = .next (s.advance t) :=
  next_if_neg (by simp [h])

theorem execSignalPathMeasureStart_starts (hk : s.cal.kind = 3) (hp : s.cal.phase = 1)
    (hT : s.calTime 1 ≤ (s.advance t).devNow) :
    execSignalPathMeasureStart t s = .next { s.advance t with cal := { s.cal with phase := 2 } } :=
  next_if_pos (by simp [hk, hp, hT])

/-- The guard of an event of the window fails in the event's own phase, at its time or after it. -/
theorem pathPhase_open {now : State} {phase quarters : Nat} (hk : now.cal.kind = 3) (hp : now.cal.phase = phase)
    (hT : now.calTime quarters ≤ now.devNow) :
    (now.cal.kind != 3 || now.cal.phase != phase || decide (now.devNow < now.calTime quarters)) = false := by
  simp [hk, hp, hT]

section Runs

variable (hc : s.calChannel = some k) (hk : s.cal.kind = 3)

include hc hk

theorem execSignalPathWindowStart_open (hp : s.cal.phase = 0) (hT : s.calTime 0 ≤ (s.advance t).devNow) :
    execSignalPathWindowStart t s = .next
      (if 16 ≤ s.rd (Ob.chanSourceLink k) || s.rd (Ob.linkLinkState (s.rd (Ob.chanSourceLink k))) != 4 then
        (s.advance t).calNext (some (k, 4))
       else { ((s.advance t).setChan k { s.chanS k with calSubst := true }) with
         cal := { s.cal with phase := 1, lost := false, samples := [], result := none } }) := by
  have hopen := pathPhase_open (now := s.advance t) hk hp hT
  simp only [execSignalPathWindowStart, State.calChannel_advance, hc, hopen, Bool.false_eq_true, if_false]
  rfl

theorem execSignalPathMeasureEnd_ends (hp : s.cal.phase = 2) (hT : s.calTime 9 ≤ (s.advance t).devNow) :
    execSignalPathMeasureEnd t s = .next { s.advance t with cal := { s.cal with
      phase := 3, samples := []
      result := some (correlate (s.complex k) (if s.complex k then sint 64 (s.rd Ob.calibToneFreq) else s.rd Ob.calibToneFreq)
        (sint 16 (s.rd Ob.calibToneLevel)) s.second s.cal.samples) } } := by
  have hopen := pathPhase_open (now := s.advance t) hk hp hT
  simp only [execSignalPathMeasureEnd, State.calChannel_advance, hc, hopen, Bool.false_eq_true, if_false]
  rfl

theorem execSignalPathWindowEnd_open (hp : s.cal.phase = 3) (hT : s.calTime 10 ≤ (s.advance t).devNow) :
    execSignalPathWindowEnd t s = .next
      (if s.cal.lost then (s.advance t).calNext (some (k, 4))
       else match s.cal.result with
         | some r => if r.good then ((s.advance t).calApply k r).calNext none else (s.advance t).calNext (some (k, 2))
         | none => (s.advance t).calNext (some (k, 2))) := by
  have hopen := pathPhase_open (now := s.advance t) hk hp hT
  simp only [execSignalPathWindowEnd, State.calChannel_advance, hc, hopen, Bool.false_eq_true, if_false]
  rfl

theorem execSignalPathWindowEnd_lost (hp : s.cal.phase = 3) (hT : s.calTime 10 ≤ (s.advance t).devNow) (hl : s.cal.lost = true) :
    execSignalPathWindowEnd t s = .next ((s.advance t).calNext (some (k, 4))) :=
  (execSignalPathWindowEnd_open hc hk hp hT).trans (next_if_pos hl)

theorem execSignalPathWindowEnd_good (hp : s.cal.phase = 3) (hT : s.calTime 10 ≤ (s.advance t).devNow) (hl : s.cal.lost = false)
    (hr : s.cal.result = some r) (hg : r.good = true) :
    execSignalPathWindowEnd t s = .next (((s.advance t).calApply k r).calNext none) := by
  simp only [execSignalPathWindowEnd_open hc hk hp hT, hl, hr, hg, Bool.false_eq_true, if_false, if_true]

theorem execSignalPathWindowEnd_implausible (hp : s.cal.phase = 3) (hT : s.calTime 10 ≤ (s.advance t).devNow)
    (hl : s.cal.lost = false) (hb : ∀ r, s.cal.result = some r → r.good = false) :
    execSignalPathWindowEnd t s = .next ((s.advance t).calNext (some (k, 2))) := by
  rw [execSignalPathWindowEnd_open hc hk hp hT, hl]
  cases hr : s.cal.result with
  | none => rfl
  | some r => exact next_if_neg (Bool.eq_false_iff.1 (hb r hr))

end Runs

end Window

/-! ### Housekeeping conversions (R524, R527, R528) -/

section Conversion

variable {s : State} {t raw : Nat} {c : Fin 64} {l : Option (Fin 64)}

theorem execHkConversion_unpowered (h : s.powered = false) : execHkConversion t l raw s = .next (s.advance t) :=
  next_if_pos (congrArg (! ·) h)

variable (h : s.powered = true)

include h

theorem execHkConversion_ledger : execHkConversion t (some c) raw s =
    .next (if c.val < 62 then (s.advance t).hkResult c raw else s.advance t) := next_if_neg (by simp [h])

/-- A slot of the sequencer: it holds still, or its entry is converted and it steps. -/
theorem execHkConversion_sequencer : execHkConversion t none raw s = .next
    (if !s.rdB Ob.hkEnable || s.cal.kind == 1 || decide ((s.advance t).now < s.hk.waitUntil) then s.advance t
     else (((s.advance t).hkResult (seqChannel (s.hk.pass.getD s.hk.entry 0)) raw).bump Ob.hkConversions).sequenceStep) :=
  next_if_neg (by simp [h])

theorem execHkConversion_held (hs : s.rd Ob.hkEnable = 0 ∨ s.cal.kind = 1 ∨ (s.advance t).now < s.hk.waitUntil) :
    execHkConversion t none raw s = .next (s.advance t) :=
  (execHkConversion_sequencer h).trans (next_if_pos (by simpa [State.rdB, or_assoc] using hs))

theorem execHkConversion_steps (he : s.rd Ob.hkEnable ≠ 0) (hk : s.cal.kind ≠ 1) (hw : s.hk.waitUntil ≤ (s.advance t).now) :
    execHkConversion t none raw s =
      .next (((s.advance t).hkResult (seqChannel (s.hk.pass.getD s.hk.entry 0)) raw).bump Ob.hkConversions).sequenceStep :=
  (execHkConversion_sequencer h).trans (next_if_neg (by simp [State.rdB, he, hk, hw]))

end Conversion

/-- Settles O5: the window's events by phase, and the conversions by whose slot they are in; `hkResult_latest` says what a
conversion changes. -/
theorem signalPathAndConversions : Obligations.SignalPathAndConversions := by
  intro s t k raw r c
  refine ⟨fun hc hk => ⟨?starts, ?skips, execSignalPathMeasureStart_starts hk, execSignalPathMeasureEnd_ends hc hk,
      execSignalPathWindowEnd_lost hc hk, execSignalPathWindowEnd_good hc hk, execSignalPathWindowEnd_implausible hc hk⟩,
    pathWindow_idle, execSignalPathMeasureStart_idle, fun h l => execHkConversion_unpowered h,
    fun h hc => (execHkConversion_ledger h).trans (next_if_neg (Nat.not_lt.2 hc)), ?ledger, execHkConversion_held, ?sequencer⟩
  case starts =>
    intro hp hT hj hl
    exact (execSignalPathWindowStart_open hc hk hp hT).trans (next_if_neg (by simp [hj, hl]))
  case skips =>
    intro hp hT hj
    exact (execSignalPathWindowStart_open hc hk hp hT).trans (next_if_pos (by simpa using hj))
  case ledger =>
    intro h hc
    obtain ⟨⟨hframe, -, -, -⟩, hlatest⟩ := hkResult_latest (s.advance t) c raw
    exact ⟨_, (execHkConversion_ledger h).trans (next_if_pos hc), hlatest, (congrArg State.regs hframe).trans rfl, hframe⟩
  case sequencer =>
    intro h he hk hw
    obtain ⟨⟨hframe, hpass, hentry, hdone⟩, hlatest⟩ :=
      hkResult_latest (s.advance t) (seqChannel (s.hk.pass.getD s.hk.entry 0)) raw
    exact ⟨_, _, execHkConversion_steps h he hk hw, rfl, hlatest, hframe, hpass, hentry, hdone⟩

end Sys2Proof.Machine

/-! Proofs about the display (O25). -/

namespace Sys2Proof.Machine

open Sys2Proof

/-! ### Enable (R541, R544) -/

section Enable

variable {s : State} {c code : Nat} {on : Bool}

theorem displayEnable_same (h : s.rdB Ob.dispEnable = on) : displayEnable on s = .ok s := if_pos (by rw [h, beq_self_eq_true])

theorem displayEnable_off (h : s.rd Ob.dispEnable ≠ 0) : displayEnable false s =
    if s.disp.inFrame then .ok { s.wr Ob.dispEnable 0 with disp := { s.disp with closing := true } }
    else .ok (s.wr Ob.dispEnable 0).displayOff := by
  have hon : s.rdB Ob.dispEnable = true := (s.rdB_iff _).2 h
  unfold displayEnable
  rw [hon]
  rfl

theorem displayEnable_closes (h : s.rd Ob.dispEnable ≠ 0) (hf : s.disp.inFrame = true) :
    displayEnable false s = .ok { s.wr Ob.dispEnable 0 with disp := { s.disp with closing := true } } :=
  (displayEnable_off h).trans (if_pos hf)

theorem displayEnable_ends (h : s.rd Ob.dispEnable ≠ 0) (hf : s.disp.inFrame = false) :
    displayEnable false s = .ok (s.wr Ob.dispEnable 0).displayOff := (displayEnable_off h).trans (if_neg (Bool.eq_false_iff.1 hf))

section Off

variable (h : s.rd Ob.dispEnable = 0)

include h

theorem displayEnable_on : displayEnable true s =
    if !s.timingOk then .error Abort.range
    else match s.fetchRefusal with
      | some code => .ok ((s.wr Ob.dispLastRefusal code).abortAs Abort.state)
      | none => match s.freeChannel with
        | none => .error Abort.state
        | some c => .ok (((if s.disp.closing then s else s.bindChannel c 2 0 4 0 s.fetchCharge 12).displayUp s.fetchCharge
            s.fetchPower).recharge) := by
  have hoff : s.rdB Ob.dispEnable = false := Bool.eq_false_iff.2 (mt (s.rdB_iff _).1 (not_not.2 h))
  unfold displayEnable
  rw [hoff]
  rfl

theorem displayEnable_badTiming (ht : s.timingOk = false) : displayEnable true s = .error Abort.range :=
  (displayEnable_on h).trans (if_pos (congrArg (! ·) ht))

variable (ht : s.timingOk = true)

include ht

theorem displayEnable_refused (hr : s.fetchRefusal = some code) :
    displayEnable true s = .ok ((s.wr Ob.dispLastRefusal code).abortAs Abort.state) := by
  rw [displayEnable_on h, ht, hr]
  rfl

/-- A display that is still closing keeps its channel. -/
theorem displayEnable_begins (hr : s.fetchRefusal = none) (hc : s.freeChannel = some c) : displayEnable true s =
    .ok (((if s.disp.closing then s else s.bindChannel c 2 0 4 0 s.fetchCharge 12).displayUp s.fetchCharge
      s.fetchPower).recharge) := by
  rw [displayEnable_on h, ht, hr, hc]
  rfl

end Off

/-- Enabling leaves the dictionary server alone. -/
theorem State.displayBegun_dict (s : State) (c charge power : Nat) :
    ((if s.disp.closing then s else s.bindChannel c 2 0 4 0 charge 12).displayUp charge power).recharge.dict = s.dict := by
  rw [State.recharge_dict, State.displayUp_dict]
  split
  · rfl
  · exact State.bindChannel_dict ..

end Enable

/-! ### Commit and frames (R547-R550) -/

section Frame

variable {s : State} {t k crc : Nat}

theorem displayCommit_invalid (h : 4 ≤ k ∨ (bufDesc (s.dom Ob.dispBuffers) k).valid = false) :
    displayCommit k s = .error Abort.range := if_pos (by simpa using h)

/-- The commit is noted, and one that waited is superseded. -/
def State.commitCounted (s : State) : State :=
  if (s.noted Ob.dispCommit).disp.pending.isSome then (s.noted Ob.dispCommit).bump Ob.dispSuperseded else s.noted Ob.dispCommit

/-- Buffer `k` waits since now. -/
def State.commitWaits (s : State) (k at0 : Nat) : State := { s with disp := { s.disp with pending := some (k, at0) } }

section Valid

variable (hk : k < 4) (hv : (bufDesc (s.dom Ob.dispBuffers) k).valid = true)

include hk hv

theorem displayCommit_valid : displayCommit k s = .ok
    ((if (s.noted Ob.dispCommit).commitMisses s.devNow then (s.commitCounted.wr Ob.dispCommitLate 1).bump Ob.dispLateCount
      else s.commitCounted).commitWaits k s.devNow) := if_neg (by simp [hv, hk])

theorem displayCommit_inTime (hm : (s.noted Ob.dispCommit).commitMisses s.devNow = false) :
    displayCommit k s = .ok (s.commitCounted.commitWaits k s.devNow) := by
  rw [displayCommit_valid hk hv, if_neg (Bool.eq_false_iff.1 hm)]

theorem displayCommit_late (hm : (s.noted Ob.dispCommit).commitMisses s.devNow = true) : displayCommit k s =
    .ok (((s.commitCounted.wr Ob.dispCommitLate 1).bump Ob.dispLateCount).commitWaits k s.devNow) := by
  rw [displayCommit_valid hk hv, if_pos hm]

end Valid

/-- Frames are shown: the display is Active, or in PSR with a commit that waits. -/
def State.FramesRun (s : State) : Prop := s.rd Ob.dispState = 2 ∨ (s.rd Ob.dispState = 3 ∧ s.disp.pending ≠ none)

/-- A frame starts: the display is enabled, frames are shown, and the next start has come. -/
def State.FrameDue (s : State) : Prop := s.rd Ob.dispEnable ≠ 0 ∧ s.FramesRun ∧ s.nextStart.1 ≤ s.devNow

theorem State.frameDue_iff : (s.rdB Ob.dispEnable && (s.rd Ob.dispState == 2 || (s.rd Ob.dispState == 3 && s.disp.pending.isSome))
    && decide (s.nextStart.1 ≤ s.devNow)) = true ↔ s.FrameDue := by
  simp only [State.FrameDue, State.FramesRun, Bool.and_eq_true, Bool.or_eq_true, beq_iff_eq, decide_eq_true_eq, State.rdB_iff,
    Option.isSome_iff_ne_none, and_assoc]

theorem execFrameStart_idle (h : ¬ (s.advance t).FrameDue) : execFrameStart t s = .next (s.advance t) :=
  next_if_neg (mt State.frameDue_iff.1 h)

theorem execFrameStart_due (h : (s.advance t).FrameDue) :
    execFrameStart t s = .next ((s.advance t).frameStart (s.advance t).nextStart.1 (s.advance t).nextStart.2) :=
  next_if_pos (State.frameDue_iff.2 h)

end Frame

/-! ### The sink and the link's training (R540, R550, R552) -/

section Sink

variable {s : State} {t c : Nat} {ok psr : Bool} {rate : Fin 8} {caps : List (BitVec 8)}

/-- The sink is present or absent. -/
def State.plugged (s : State) (p : Bool) : State := { s with disp := { s.disp with hpd := p } }

theorem execHpdChange_disabled {p : Bool} (h : s.rd Ob.dispEnable = 0) : execHpdChange t p s = .next ((s.advance t).plugged p) :=
  next_if_pos (by simp [State.rdB, h])

section Enabled

variable (h : s.rd Ob.dispEnable ≠ 0)

include h

theorem execHpdChange_lost : execHpdChange t false s = .next ((s.advance t).plugged false).displayRetrain :=
  next_if_neg (by simpa [State.rdB] using h)

theorem execHpdChange_present : execHpdChange t true s = .next
    (if s.rd Ob.dispState = 4 then ((s.advance t).plugged true).wr Ob.dispState 1 else (s.advance t).plugged true) :=
  next_if_neg (by simpa [State.rdB] using h)

end Enabled

theorem execHpdChange_waiting (h : s.rd Ob.dispEnable ≠ 0) (h4 : s.rd Ob.dispState = 4) :
    execHpdChange t true s = .next (((s.advance t).plugged true).wr Ob.dispState 1) :=
  (execHpdChange_present h).trans (next_if_pos h4)

theorem execHpdChange_notWaiting (h : s.rd Ob.dispEnable = 0 ∨ s.rd Ob.dispState ≠ 4) :
    execHpdChange t true s = .next ((s.advance t).plugged true) := by
  by_cases he : s.rd Ob.dispEnable = 0
  · exact execHpdChange_disabled he
  · exact (execHpdChange_present he).trans (next_if_neg (h.resolve_left he))

/-- The link trains, with a sink. -/
def State.DisplayTrains (s : State) : Prop := s.rd Ob.dispState = 1 ∧ s.disp.hpd = true

theorem State.displayTrains_iff : (!(s.rd Ob.dispState == 1 && s.disp.hpd)) = true ↔ ¬ s.DisplayTrains := by
  simp [State.DisplayTrains, imp_iff_not_or]

/-- The link is trained at a rate, to a sink with these capabilities. -/
def State.displayTrained (s : State) (rate : Nat) (caps : Bytes) (psr : Bool) : State :=
  { ((s.wr Ob.dispState 2).setDom Ob.dispSinkCaps (caps.take 16)).setQuad 34 0 with disp := { s.disp with
    resume := true, inFrame := false, trainFails := 0, psrSink := psr, rate := min rate (s.rd Ob.dispMaxLinkRate) } }

/-- One more training has failed. -/
def State.trainingFailed (s : State) : State := { s with disp := { s.disp with trainFails := s.disp.trainFails + 1 } }

theorem execDisplayLinkTrained_idle (h : ¬ s.DisplayTrains) : execDisplayLinkTrained t ok rate caps psr s = .next (s.advance t) :=
  next_if_pos ((State.displayTrains_iff (s := s.advance t)).2 h)

section Trains

variable (h : s.DisplayTrains)

include h

theorem execDisplayLinkTrained_good : execDisplayLinkTrained t true rate caps psr s = .next
    (match s.displayChannel with
     | some c => ((s.advance t).displayTrained rate caps psr).xferCause c 0 false
     | none => (s.advance t).displayTrained rate caps psr) :=
  next_if_neg (mt (State.displayTrains_iff (s := s.advance t)).1 (not_not.2 h))

theorem execDisplayLinkTrained_channel (hc : s.displayChannel = some c) : execDisplayLinkTrained t true rate caps psr s =
    .next (((s.advance t).displayTrained rate caps psr).xferCause c 0 false) := by
  rw [execDisplayLinkTrained_good h, hc]

theorem execDisplayLinkTrained_noChannel (hc : s.displayChannel = none) : execDisplayLinkTrained t true rate caps psr s =
    .next ((s.advance t).displayTrained rate caps psr) := by
  rw [execDisplayLinkTrained_good h, hc]

theorem execDisplayLinkTrained_bad : execDisplayLinkTrained t false rate caps psr s = .next
    (if 3 ≤ s.disp.trainFails + 1 then (s.advance t).trainingFailed.wr Ob.dispState 4 else (s.advance t).trainingFailed) :=
  next_if_neg (mt (State.displayTrains_iff (s := s.advance t)).1 (not_not.2 h))

end Trains

end Sink

/-- Settles O25, command by command. -/
theorem displayLifecycle : Obligations.DisplayLifecycle := by
  intro s t k c code crc rate caps psr
  refine ⟨?same, ?closes, ?ends, fun hr h ht => State.noting_aborted hr (displayEnable_badTiming h ht),
    fun hr h ht hf => State.noting_abort hr (displayEnable_refused h ht hf), ?begins,
    fun hr h => State.serve_aborted hr (displayCommit_invalid h),
    fun hr hk hv => ⟨fun hm => State.serve_done hr (displayCommit_inTime hk hv hm),
      fun hm => State.serve_done hr (displayCommit_late hk hv hm)⟩,
    fun h => execFrameStart_idle ?notDue, fun he hruns hs => execFrameStart_due ⟨he, hruns, hs⟩,
    next_if_pos, fun h => next_if_neg (Bool.eq_false_iff.1 h),
    execHpdChange_notWaiting, execHpdChange_waiting, execHpdChange_disabled, execHpdChange_lost,
    fun h o => execDisplayLinkTrained_idle h, execDisplayLinkTrained_channel, execDisplayLinkTrained_noChannel,
    fun h hn => (execDisplayLinkTrained_bad h).trans (next_if_neg (by omega)),
    fun h hn => (execDisplayLinkTrained_bad h).trans (next_if_pos (by omega)),
    fun hr => State.serve_done hr rfl⟩
  case same =>
    intro hr
    exact ⟨fun h => State.noting_done hr (displayEnable_same ((s.rdB_iff _).2 h)) rfl,
      fun h => State.noting_done hr (displayEnable_same (Bool.eq_false_iff.2 (mt (s.rdB_iff _).1 (not_not.2 h)))) rfl⟩
  case closes => exact fun hr h hf => State.noting_done hr (displayEnable_closes h hf) rfl
  case ends =>
    intro hr h hf
    have hdict : ((s.advance t).wr Ob.dispEnable 0).displayOff.dict = (s.advance t).dict := State.displayOff_dict _
    exact State.noting_done hr (displayEnable_ends h hf) (congrArg DictState.abortWith hdict)
  case begins =>
    intro hr h ht hf hc
    exact ⟨_, rfl, State.noting_done hr (displayEnable_begins h ht hf hc)
      (congrArg DictState.abortWith ((s.advance t).displayBegun_dict c _ _))⟩
  case notDue =>
    rintro ⟨he, hruns, hs⟩
    rcases h with h | h | h
    · exact he h
    · exact h hruns
    · exact Nat.not_le.2 h hs

end Sys2Proof.Machine

/-! Proofs about the test access port (O2), the lane quads and the diagnostics (O3), and the queue of commands (O1). -/

namespace Sys2Proof.Machine

open Sys2Proof

/-! ### The test access port (R566) -/

section Tap

variable {s : State} {t i : Nat} {cells : List Bool}

/-- The instructions that take hold of the pins. -/
def tapHard : List Nat := [0x00, 0x03, 0x04, 0x05, 0x06]

theorem State.tapShift_accepted (h : s.tapFree = true) : s.tapShift i = { s with
    tap := { s.tap with instr := i, refused := false, sessions := if i = 0x10 then s.tap.sessions else [] }
    out := s.out ++ [.tdo s.tapCapture] } := by
  have hfree : (s.emit (.tdo s.tapCapture)).tapFree = true := h
  exact if_neg (by rw [hfree, Bool.not_true, Bool.and_false]; exact Bool.false_ne_true)

/-- The port has BYPASS, and its next capture tells of the refusal. -/
def State.tapRefused (s : State) : State := { s with
  tap := { s.tap with instr := 0xFF, refused := true, sessions := [] }, out := s.out ++ [.tdo s.tapCapture] }

theorem State.tapShift_refused (hi : i ∈ tapHard) (h : s.tapFree = false) : s.tapShift i = s.tapRefused := by
  have hhard : [0x00, 0x03, 0x04, 0x05, 0x06].contains i = true := List.contains_iff_mem.2 hi
  have hfree : (s.emit (.tdo s.tapCapture)).tapFree = false := h
  exact if_pos (by rw [hhard, hfree]; rfl)

/-- An instruction that drives the pins is in force, and the pins have what it puts out. -/
def State.tapDriven (s : State) (i : Nat) (cells : List Bool) (pins : List Bool) : State := { s with
  tap := { instr := i, refused := false, cells := cells, sessions := [] }, out := s.out ++ [.tdo s.tapCapture, .pins i pins] }

theorem State.tapDrive_accepted (h : s.tapFree = true) (hi : i ∈ tapHard) :
    s.tapDrive i = s.tapDriven i s.tap.cells (if i = 0x03 then [] else s.tap.cells) := by
  have hdebug : i ≠ 0x10 := by
    rintro rfl
    exact absurd hi (by decide)
  unfold State.tapDrive
  rw [State.tapShift_accepted h, if_neg hdebug]
  simp [State.emit, State.tapDriven]

theorem State.tapDrive_refused (hi : i ∈ tapHard) (h : s.tapFree = false) : s.tapDrive i = s.tapRefused := by
  have hbypass : 0xFF ≠ i := by
    rintro rfl
    exact absurd hi (by decide)
  unfold State.tapDrive
  rw [State.tapShift_refused hi h]
  exact if_neg hbypass

theorem execExtest_accepted (h : s.tapFree = true) :
    execExtest t cells s = .next ((s.advance t).tapDriven 0 cells cells) := by
  have hfree : (s.advance t).tapFree = true := h
  unfold execExtest
  rw [State.tapShift_accepted hfree]
  rfl

theorem execExtest_refused (h : s.tapFree = false) : execExtest t cells s = .next (s.advance t).tapRefused := by
  have hfree : (s.advance t).tapFree = false := h
  unfold execExtest
  rw [State.tapShift_refused (by decide) hfree]
  rfl

end Tap

/-- Settles O2: the soft instructions by what they load; the others by whether the pins are free, which `tapFree_iff` spells out. -/
theorem testAccess : Obligations.TestAccess := by
  intro s t cells
  refine ⟨rfl, rfl, rfl, rfl, rfl, fun hfree => ?accepted, fun hfree => ?refused⟩
  case accepted =>
    have h : (s.advance t).tapFree = true := (tapFree_iff s).2 hfree
    exact ⟨execExtest_accepted h, congrArg Host.Outcome.next (State.tapDrive_accepted h (by decide)),
      congrArg Host.Outcome.next (State.tapDrive_accepted h (by decide)),
      congrArg Host.Outcome.next (State.tapDrive_accepted h (by decide)),
      congrArg Host.Outcome.next (State.tapDrive_accepted h (by decide))⟩
  case refused =>
    have h : (s.advance t).tapFree = false := Bool.eq_false_iff.2 (mt (tapFree_iff s).1 hfree)
    have drives : ∀ i ∈ tapHard, (Host.Outcome.next ((s.advance t).tapDrive i) : Outcome) = .next (s.advance t).tapRefused :=
      fun i hi => congrArg Host.Outcome.next (State.tapDrive_refused hi h)
    exact List.forall_mem_cons.2 ⟨execExtest_refused h, List.forall_mem_cons.2 ⟨drives 3 (by decide),
      List.forall_mem_cons.2 ⟨drives 4 (by decide), List.forall_mem_cons.2 ⟨drives 5 (by decide),
        List.forall_mem_singleton.2 (drives 6 (by decide))⟩⟩⟩⟩

/-! ### Eye scans of the lane quads (R567, R569) -/

section Scan

variable {s : State} {t mask k : Nat} {q : Fin 36} {counts : List (List (BitVec 8))}

@[simp] theorem State.scanS_advance (s : State) (t q : Nat) : (s.advance t).scanS q = s.scanS q := rfl

theorem State.scanS_setScan (s : State) (q : Nat) (x : QuadScan) : (s.setScan q x).scanS q = x :=
  (tget_tset ..).trans (if_pos rfl)

theorem marginScan_runs (h : (s.scanS k).running ≠ none) : marginScan k mask s = .error Abort.state :=
  if_pos (Option.isSome_iff_ne_none.2 h)

section Idle

variable (h : (s.scanS k).running = none)

include h

theorem marginScan_noLane (hm : 16 ≤ mask) : marginScan k mask s = .error Abort.range :=
  (if_neg (by simp [h])).trans (if_pos hm)

theorem marginScan_starts (hm : mask < 16) : marginScan k mask s = .ok (s.setScan k { running := some mask, result := some 1 }) :=
  (if_neg (by simp [h])).trans (if_neg (Nat.not_le.2 hm))

end Idle

theorem execMarginScanComplete_idle (h : (s.scanS q).running = none) :
    execMarginScanComplete t q counts s = .next (s.advance t) := by
  simp only [execMarginScanComplete, State.scanS_advance, h]

/-- A lane that retrains reads all ones, any other its counts, filled up to 2,048 octets. -/
theorem execMarginScanComplete_publishes (h : (s.scanS q).running = some mask) : execMarginScanComplete t q counts s =
    .next (((s.advance t).setDom (Ob.quadScanResult q)
      ((bitsSet 4 mask).zipIdx.flatMap fun x => if s.laneState q x.1 = 1 then List.replicate 2048 0xFF
        else (counts.getD x.2 []).take 2048 ++ List.replicate (2048 - (counts.getD x.2 []).length) 0)).setScan q
          { result := some 0 }) := by
  simp only [execMarginScanComplete, State.scanS_advance, h]
  rfl

theorem State.scanAbandon_running (s : State) (q : Nat) : ((s.scanAbandon q).scanS q).running = none := by
  unfold State.scanAbandon
  cases h : (s.scanS q).running with
  | none => exact h
  | some mask => exact congrArg QuadScan.running (s.scanS_setScan q { result := some 0 })

end Scan

/-! ### Faults of a lane quad and the acknowledgement of FaultLog (R521, R568) -/

section Fault

variable {s : State} {t sq i : Nat} {q : Fin 36} {lane : Fin 4} {code : Fin 6}

theorem faultAck_unknown (h : ∀ i, i < s.life.faultCount - s.life.acked → (s.life.acked + i) % 65536 ≠ sq % 65536) :
    faultAck sq s = .ok s := by
  have hnone : ((List.range (s.life.faultCount - s.life.acked)).find? fun i => (s.life.acked + i) % 65536 == sq % 65536) = none :=
    List.find?_eq_none.2 fun i hi => by simpa using h i (List.mem_range.1 hi)
  simp only [faultAck, hnone]

/-- A Sequence names one of the first 2^16 unread entries, and the entries up to it are read. -/
theorem faultAck_reads (hi : i < s.life.faultCount - s.life.acked) (hw : i < 65536)
    (h : (s.life.acked + i) % 65536 = sq % 65536) :
    faultAck sq s = .ok ((({ s with life := { s.life with acked := s.life.acked + i + 1 } } : State).wr Ob.fltUnread
      ((s.life.faultCount - (s.life.acked + i + 1)) % 65536)).wr Ob.comErrorRegister
        (setBit (s.rd Ob.comErrorRegister) 0 (decide (s.life.acked + i + 1 < s.life.faultCount)))) := by
  have hfind : ((List.range (s.life.faultCount - s.life.acked)).find? fun i => (s.life.acked + i) % 65536 == sq % 65536)
      = some i := by
    rw [List.find?_range_eq_some]
    refine ⟨by simpa using h, List.mem_range.2 hi, fun j hj => ?_⟩
    rw [Bool.not_eq_true', beq_eq_false_iff_ne]
    omega
  have hreg : ∀ v : Nat, (({ s with life := { s.life with acked := s.life.acked + i + 1 } } : State).wr Ob.fltUnread v).rd
      Ob.comErrorRegister = s.rd Ob.comErrorRegister := fun v => State.rd_wr_ne _ _ _ _ (by decide)
  simp only [faultAck, hfind, hreg]

theorem execLaneQuadFault_none (h : code.val = 0) : execLaneQuadFault t q lane code s = .next (s.advance t) := if_pos h

/-- The fault of a quad is recorded, and its scan abandoned. -/
def State.quadFaulted (s : State) (q code : Nat) : State := (s.scanAbandon q).quadFault q code

/-- The recovery of what quad `k` serves (R100, R353, R378, R406, R569). -/
def State.quadRecovery (f : State) (k lane : Nat) : State :=
  if k < 16 then ((List.range 16).filter fun j => (f.quadsOf j).contains k).foldl (fun s j => s.lockLoss j) f
  else if k < 20 then f.endpointReset true
  else if k < 26 then f.wr (Ob.storLinkState (k - 20)) 0
  else if k < 34 then (if f.rd (Ob.joinState ((k - 26) / 2)) = 6 then f.retrainPort ((k - 26) / 2) else f)
  else if k = 34 then (if f.rd Ob.dispState = 2 ∨ f.rd Ob.dispState = 3 then f.displayRetrain else f)
  else if lane < 2 then (if bit (f.rd Ob.primEnable) lane then f.laneStart lane else f)
  else if lane = 2 then (if f.rdB Ob.timeStreamInEnable then f.streamAbsent else f)
  else f

theorem execLaneQuadFault_recovers (h : 0 < code.val) :
    execLaneQuadFault t q lane code s = .next (((s.advance t).quadFaulted q code).quadRecovery q lane) :=
  if_neg (Nat.ne_of_gt h)

end Fault

section Recovery

variable {f : State} {k lane : Nat}

theorem State.quadRecovery_ingest (h : k < 16) : f.quadRecovery k lane =
    ((List.range 16).filter fun j => (f.quadsOf j).contains k).foldl (fun s j => s.lockLoss j) f := if_pos h

theorem State.quadRecovery_host (h : 16 ≤ k) (h' : k < 20) : f.quadRecovery k lane = f.endpointReset true := by
  rw [State.quadRecovery, if_neg (Nat.not_lt.2 h), if_pos h']

theorem State.quadRecovery_drive (h : 20 ≤ k) (h' : k < 26) : f.quadRecovery k lane = f.wr (Ob.storLinkState (k - 20)) 0 := by
  rw [State.quadRecovery, if_neg (by omega), if_neg (by omega), if_pos h']

theorem State.quadRecovery_join (h : 26 ≤ k) (h' : k < 34) : f.quadRecovery k lane =
    if f.rd (Ob.joinState ((k - 26) / 2)) = 6 then f.retrainPort ((k - 26) / 2) else f := by
  rw [State.quadRecovery, if_neg (by omega), if_neg (by omega), if_neg (by omega), if_pos h']

theorem State.quadRecovery_display : f.quadRecovery 34 lane =
    if f.rd Ob.dispState = 2 ∨ f.rd Ob.dispState = 3 then f.displayRetrain else f := rfl

theorem State.quadRecovery_q35 : f.quadRecovery 35 lane =
    if lane < 2 then (if bit (f.rd Ob.primEnable) lane then f.laneStart lane else f)
    else if lane = 2 then (if f.rdB Ob.timeStreamInEnable then f.streamAbsent else f) else f := rfl

end Recovery

/-- Settles O3, command by command; a fault's recovery is `State.quadRecovery`, by what the quad serves. -/
theorem quadsAndDiagnostics : Obligations.QuadsAndDiagnostics := by
  intro s t q mask sq lane code counts eyes
  refine ⟨fun hr h hm => State.serve_done hr (marginScan_starts h hm), fun hr h => State.serve_aborted hr (marginScan_runs h),
    fun hr h hm => State.serve_aborted hr (marginScan_noLane h hm), execMarginScanComplete_publishes, execMarginScanComplete_idle,
    rfl, fun hr => State.serve_done hr rfl, fun hr => State.serve_done hr rfl, fun hr => State.serve_done hr rfl,
    fun hr h => State.serve_done hr (faultAck_unknown h), fun hr i hi hw h => State.serve_done hr (faultAck_reads hi hw h),
    fun h => ?fault, execLaneQuadFault_none⟩
  case fault =>
    refine ⟨_, _, execLaneQuadFault_recovers h, rfl, quadFault_code _ q code q.isLt, ?_, State.quadRecovery_host,
      State.quadRecovery_drive, State.quadRecovery_join, fun hq => ?_, State.quadRecovery_ingest, fun hq => ?_⟩
    · exact (congrArg QuadScan.running (quadFault_scan _ q code q)).trans ((s.advance t).scanAbandon_running q)
    · rw [hq]
      exact State.quadRecovery_display
    · rw [hq]
      exact State.quadRecovery_q35

/-! ### The queue of commands -/

theorem step_front (c : Instr) (rest : List Instr) (s : State) :
    step { s with pending := c :: rest } = exec c { s with pending := rest } := rfl

theorem step_idle (s : State) (h : s.pending = []) : step s = .next s := by
  unfold step
  rw [h]

/-- Settles O1. -/
theorem stepRunsFrontCommand : Obligations.StepRunsFrontCommand := ⟨step_front, step_idle, rfl⟩

end Sys2Proof.Machine
